-- ==== Sys2Proof/Word.lean ====
section
/-! DEFINITION. The plainest types of the model: bytes, 32-bit sequence words and TIME48 stamps. -/
namespace Sys2Proof

/-- One byte. -/
abbrev Byte := BitVec 8

/-- A 32-bit sequence number or counter that software sees as a word. -/
abbrev W32 := BitVec 32

/-- A TIME48 value as one number: seconds since 2000-01-01 times 1,024 plus the 1/1,024 s fraction (Table 2.1). -/
abbrev Stamp := Nat

/-- A run of raw bytes, lowest address first (R7). -/
abbrev Bytes := List Byte

end Sys2Proof
end

