-- ==== Sys2Proof/Syntax.lean ====
section
/-! DEFINITION. The commands of the QVM-9256 block: one constructor per row of spec/opcode_table.json, with the data
that the outside supplies (pin levels, converter results, frames, master class and written bytes) as operands. -/
namespace Sys2Proof

/-- The master class of a dictionary request: host, field, service or control processor (R30). -/
inductive Cls where
  | h | f | s | c
  deriving DecidableEq, Repr, Inhabited

/-- Who sends a dictionary request and how: its class, its TAG, and whether it came as a GFP broadcast (R412, R425). -/
structure Req where
  cls   : Cls := .h
  tag   : Nat := 0
  bcast : Bool := false
  deriving DecidableEq, Repr, Inhabited

/-- The urgent requests of Table 3.14; a tamper verification is for a glitch or for a temperature. -/
inductive UrgentSrc where
  | power | tamperGlitch | tamperTemp | calibration
  deriving DecidableEq, Repr, Inhabited

/-- A physical row that a march test found failing: the bank, the physical row (0-272) and its failing words (R302). -/
structure RowFail where
  bank  : Fin 16
  row   : Nat
  words : Nat
  deriving DecidableEq, Repr

/-- What the I2C master sees on SDA at the start of a round (R432). -/
inductive SdaState where
  | free | recovered | stuck
  deriving DecidableEq, Repr, Inhabited

/-- One sensor read of an I2C round: acknowledged, within the 25 ms stretch limit, and the bytes read (R431). -/
structure I2cReading where
  ack   : Bool
  inTime : Bool
  data  : Bytes
  deriving DecidableEq, Repr


/-- The commands: one constructor per row of spec/opcode_table.json; each docstring is the row's rule and summary. -/
inductive Instr where
  /-- PFD_TRIP (R338). VIN33 falls below 2.95 V past the PFD filter; the device latches PFD_TIME, raises EV1 and starts the emergency bind-off of Table 13.3. -/
  | pfdTrip
  /-- REGULATOR_BROWN_OUT (R338). VCORE or VANA falls below its brown-out level; a trip with source REGULATOR starts the emergency bind-off. -/
  | regulatorBrownOut (rail : Fin 2)
  /-- EWARN_ASSERT (R339). EWARN rises in mode 1 or 2; EV0 fires, an urgent power verification is requested and a periodic save starts. -/
  | ewarnAssert
  /-- EWARN_QUALIFIED (R340). In mode 2, EWARN has stayed asserted for EWARN_QUALIFY_US, and a trip with source EWARN occurs. -/
  | ewarnQualified
  /-- EWARN_RELEASE (R340). EWARN falls; before qualification only the mode-1 effects stand, and in mode 2 it releases a waiting cast-on condition. -/
  | ewarnRelease
  /-- LAST_GASP_DONE (R331). The last-gasp session completes; EV2 fires and the AO island switches to VBAT. -/
  | lastGaspDone (us : Nat)
  /-- HOLD_UP_FLOOR (R344). VIN33 falls to 2.70 V; the AO island switches to VBAT, and HOLDUP_SHORT is set if EV2 has not yet fired. -/
  | holdUpFloor (us pages : Nat)
  /-- RESTART_HOLDOFF_EXPIRY (R345). RESTART_HOLDOFF_MS has passed since the trip, which releases one condition for the following cast-on. -/
  | restartHoldoffExpiry
  /-- SUPPLY_GOOD (R348). The rails and the crystal are good; the islands are released and the cast-on of Table 13.4 begins. -/
  | supplyGood
  /-- START_TIMEOUT (R348). A start that has not reached supply-good within 10 ms is stopped, counted and retried after 100 ms. -/
  | startTimeout
  /-- POWER_VERIFY_RETRY (R351). Every 20 ms while the power verification fails, the verification is requested again. -/
  | powerVerifyRetry
  /-- MARCH_STARTUP_DONE (R300). The destructive start-up march test completes; the banks go online and restoration from the journal begins. -/
  | marchStartupDone (fails : List RowFail)
  /-- IMAGE_CHECK_DONE (R349). The boot-stage image check completes, and the control island starts serving SR0 and SR2 in ring order. -/
  | imageCheckDone (ok retainedOk : Bool)
  /-- VBAT_CHECK (R346). Once every 60 s, VBAT is compared with VBAT_LOW_MV; VBAT_LOW and EV4 follow a low cell. -/
  | vbatCheck (mv : Nat)
  /-- REG_WINDOW_BREACH (R358). A VCORE or VANA window supervisor trips; EV6 fires, at most once per second per rail. -/
  | regWindowBreach (rail dir : Fin 2) (us : Nat) (active : Bool)
  /-- AO_POWER_ON_RESET (R347). The AO rail falls below its power-on reset level; the RTC, the secure SRAM and the AO log buffer are lost. -/
  | aoPowerOnReset
  /-- FILTER_SAMPLE (R85). A filter lane writes output sample k of a channel into its ring at the count k × D. -/
  | filterSample (stream : Fin 264) (k : Nat) (x : Int) (flat : Bool)
  /-- FTRIP_MIN_WIDTH_END (R99). The MIN_WIDTH_MS of a follow-mode FTRIP pin expires, and the pin then follows its source. -/
  | ftripMinWidthEnd (pin : Fin 8)
  /-- ISSUE_RESUME (R124). A paused issue unit, or its issue buffer, finds room in a queue and continues in issue order. -/
  | issueResume
  /-- STITCH_CLAIM (R128). An engine with a free slot picks and claims a claimable stitch, from its own queue or by stealing. -/
  | stitchClaim (eng : Fin 32)
  /-- STITCH_RESUME (R127). A suspended stitch resumes on its engine once its samples, contributions or gate arrive. -/
  | stitchResume (eng : Fin 32)
  /-- SEQUENCED_ADD (R19). The memory island applies or discards a sequenced add by its sequence marker. -/
  | sequencedAdd (eng : Fin 32)
  /-- GATE_ADVANCE (R20). An engine advances a stream's commit gate by compare-and-swap and publishes its result record. -/
  | gateAdvance (eng : Fin 32)
  /-- STITCH_TIMEOUT (R135). An engine has run one stitch for STITCH_TIMEOUT_FACTOR × its nominal cost and is reset. -/
  | stitchTimeout (eng : Fin 32)
  /-- ENGINE_RESET (R22). An engine is reset by a fault; its claimed stitches are returned to the head of their queues and EV56 fires. -/
  | engineReset (eng : Fin 32) (cause : Fin 8)
  /-- CLUSTER_RESET (R135). A cluster is reset by a claim-parity error or a common cause; every stitch of its engines is returned. -/
  | clusterReset (cl : Fin 4) (cause : Fin 8)
  /-- ENGINE_RETURN_TO_SERVICE (R137). A reset engine or cluster finishes its built-in test and returns to service, or stays out at the reset limit. -/
  | engineReturnToService (unit : Fin 36) (testOk : Bool)
  /-- ADMISSION_EVALUATION (R140). Every second, or on a change of engines in service, the CP recomputes admission and overload. -/
  | admissionEvaluation (measured : List Nat)
  /-- CROSSING_TIMEOUT (R10). A request held 5 ms without acknowledgement is re-queued or answered ISLAND_RESTARTING. -/
  | crossingTimeout (island : Fin 11) (eng : Option (Fin 32)) (req : Req) (tag : Nat)
  /-- STUCK_BITSTREAM (R68). A modulator bitstream has stayed constant for 4,096 clocks, and the spare is connected to examine it. -/
  | stuckBitstream (stream : Fin 264)
  /-- HARD_FAULT_DECISION (R68). After 256 clocks, the spare's bitstream decides between a saturating input and a failed modulator that is retired. -/
  | hardFaultDecision (stream : Fin 264) (toggles : Bool)
  /-- RECAL_PASS_START (R273). The start criteria of a recalibration pass are met, and rotation begins after an urgent calibration conversion. -/
  | recalPassStart
  /-- ROTATION_SLOT_START (R66). A rotation slot begins with a gapless handover of the channel to its spare. -/
  | rotationSlotStart (sp : Fin 8) (ch : Fin 256)
  /-- ALIGNMENT_FIT (R63). After 64 parallel samples, g and c are fitted and the alignment is accepted or rejected. -/
  | alignmentFit (sp : Fin 8)
  /-- ROTATION_MEASURE_END (R67). A drift measurement phase ends; the drift terms are formed or the modulator is retired. -/
  | rotationMeasureEnd (sp : Fin 8) (offsetNv gain : Int)
  /-- SPARE_RETURN (R65). At the reference crossing after the parallel run, the channel returns to its own modulator. -/
  | spareReturn (sp : Fin 8)
  /-- ROTATION_SLOT_END (R66). SPARE_SLOT_MS expires; the spare is released and the next channel's slot or the pass end follows. -/
  | rotationSlotEnd (sp : Fin 8)
  /-- SUBSTITUTE_RETRY (R64). 1 s after a rejected alignment, a requested substitution is tried again. -/
  | substituteRetry (ch : Fin 256)
  /-- SPARE_OFFSET_NULL (R261). Once per second, a parked spare measures and nulls its own offset. -/
  | spareOffsetNull (sp : Fin 8) (offsetNv : Int)
  /-- HK_CONVERSION_DONE (R79). A sequencer conversion completes; HK_RESULT is written and the limits are checked. -/
  | hkConversionDone (value : Int)
  /-- URGENT_REQUEST (R82). An urgent request aborts the running conversion and starts an urgent conversion by order. -/
  | urgentRequest (src : UrgentSrc)
  /-- URGENT_CONVERSION_DONE (R83). An urgent conversion completes, and its result is delivered to the requester. -/
  | urgentConversionDone (value : Int)
  /-- OPEN_NATIVE (R262). CS_COMMAND 0x01 opens a calibration session in native mode. -/
  | openNative (req : Req)
  /-- OPEN_COMPAT (R262). CS_COMMAND 0x02 opens a calibration session in 7-series compatibility mode. -/
  | openCompat (req : Req)
  /-- START_STEP (R264). CS_COMMAND 0x03 starts a calibration step on the named channels. -/
  | startStep (req : Req)
  /-- CANCEL_STEP (R272). CS_COMMAND 0x04 abandons the unstored channels with the cause CANCELLED. -/
  | cancelStep (req : Req)
  /-- CLOSE (R272). CS_COMMAND 0x05 cancels any running step and closes the session. -/
  | close (req : Req)
  /-- SESSION_IDLE_TIMEOUT (R262). A session with no step running closes after 900 s without a write by its owner. -/
  | sessionIdleTimeout
  /-- CAL_TIMEOUT (R268). CAL_TIMEOUT_MS elapses with a channel unconverged; the channel is abandoned and EV29 fires. -/
  | calTimeout
  /-- SIGNATURE_SLOT_END (R270). A signature slot ends, giving the channel's SIG_GAIN and SIG_OFFSET. -/
  | signatureSlotEnd (ch : Fin 256) (gain offsetNv : Int)
  /-- DAY_START (R233). At a local day start, TF_DAILY_CHARGE is charged to every prepayment account. -/
  | dayStart
  /-- SCHEDULE_ENTRY (R238). A schedule entry changes the band, friendly status or day, and EV47 fires for a band change. -/
  | scheduleEntry
  /-- SCHEDULE_REBUILD (R237). The CP writes a new 64-entry schedule into the prepayment unit. -/
  | scheduleRebuild
  /-- PP_CREDIT_TRANSFER (R248). An authenticated transfer is checked, added to CREDIT, recorded in the journal and answered. -/
  | ppCreditTransfer (req : Req) (a : Fin 240) (payload : Bytes)
  /-- PP_CREDIT (R251). A service write sets CREDIT by compare-and-swap in the states that permit it. -/
  | ppCredit (req : Req) (a : Fin 240) (payload : Bytes)
  /-- PP_EC_REQUEST (R240). A write of 1 grants emergency credit on request when its conditions hold. -/
  | ppEcRequest (req : Req) (a : Fin 240) (payload : Bytes)
  /-- PP_RECONNECT_ARM (R242). A write of 1 in RECONNECT_WAIT queues the close operation. -/
  | ppReconnectArm (req : Req) (a : Fin 240) (payload : Bytes)
  /-- PP_HOST_DISCONNECT (R242). A write sets or clears the HOST disconnect source and queues an open or close operation. -/
  | ppHostDisconnect (req : Req) (a : Fin 240) (payload : Bytes)
  /-- KEY_DEVICE (R250). The service class writes the plain device key, while none is loaded. -/
  | keyDevice (req : Req) (payload : Bytes)
  /-- KEY_ACCOUNT (R250). The service class writes a plain account key in PROVISION or RETURN. -/
  | keyAccount (req : Req) (a : Fin 240) (payload : Bytes)
  /-- KEY_WRAPPED (R250). A wrapped account key is unwrapped, checked and loaded, and KEY_COUNTER is updated. -/
  | keyWrapped (req : Req) (payload : Bytes)
  /-- RELAY_SCAN_FRAME (R245). Every RLY_SCAN_MS a scan frame reads the contacts; uncommanded or absent slots raise EV44. -/
  | relayScanFrame (present closed : Bytes)
  /-- RELAY_COMMAND_FRAME (R245). A queued open or close operation sends its command frame and latch, and EV45 or EV46 fires. -/
  | relayCommandFrame
  /-- RELAY_RELEASE_FRAME (R245). After RLY_PULSE_MS, a frame with all coil bits 0 releases the coils. -/
  | relayReleaseFrame
  /-- RELAY_CAPTURE_FRAME (R245). After RLY_SETTLE_MS, the contacts are captured and compared, with retries or RLY_FAULT. -/
  | relayCaptureFrame (present closed : Bytes)
  /-- RLY_FAULT_CLEAR (R246). A service write of 1 clears a bit of RLY_FAULT. -/
  | rlyFaultClear (req : Req) (payload : Bytes)
  /-- DETECTOR_A_WINDOW (R361). A detector-A window ends; an out-of-span count condemns it and raises its flag. -/
  | detectorAWindow (clock : Fin 2) (count start fin : Nat)
  /-- DETECTOR_B_FLAG (R362). Detector B sees a clock phase shorter than its limit and raises its flag. -/
  | detectorBFlag (clock : Fin 2) (instant phaseNs : Nat)
  /-- PLL_RELOCK (R366). The PLL relocks on the RC reference, and the whole-device restart begins. -/
  | pllRelock
  /-- CRYSTAL_CLEAN (R366). Both detectors have passed the crystal for 100 ms without a flag, and cast-on may begin. -/
  | crystalClean
  /-- RTC_CRYSTAL_RETURN (R366). After 10 s without a flag, the RTC returns to its crystal. -/
  | rtcCrystalReturn
  /-- GLITCH_FLAG (R367). A supply glitch monitor flags an excursion; it is counted and may confirm. -/
  | glitchFlag (rail dir : Fin 2) (instant : Nat)
  /-- TAMP_SAMPLE (R369). An enclosure input is sampled, debounced and may make a detection. -/
  | tampSample (input : Fin 8) (high : Bool) (currentNa : Nat)
  /-- MAG_SAMPLE (R370). A magnetic input is sampled and becomes active or inactive after 3 samples. -/
  | magSample (input : Fin 4) (high : Bool)
  /-- AO_LOG_DRAIN (R380). The log unit writes one entry from the AO buffer to the tamper log, steps SC1 and copies it to SR5. -/
  | aoLogDrain
  /-- TAMPER_RELEASE (R375). A write clears the TAMPER source of an account, or of all accounts. -/
  | tamperRelease (req : Req) (payload : Bytes)
  /-- MARK_CLEAR (R376). A write of 1 clears the selvedge tamper mark. -/
  | markClear (req : Req) (payload : Bytes)
  /-- LC_COMMAND (R384). A checked life-cycle command wipes the secure SRAM, programs the state cell and restarts the device. -/
  | lcCommand (req : Req) (payload : Bytes)
  /-- KEY_RETURN (R386). The one-time KEY_RETURN is written in BLANK or PROVISION. -/
  | keyReturn (req : Req) (payload : Bytes)
  /-- WATCHDOG_KICK (R450). The CP writes the watchdog kick and restarts the watchdog count. -/
  | watchdogKick (req : Req) (payload : Bytes)
  /-- WATCHDOG_EXPIRY (R450). The watchdog expires; the control island restarts, or the whole device on a second expiry. -/
  | watchdogExpiry
  /-- CONTROL_ISLAND_RESTART (R13). The control island restarts while commands keep entering SR0 and SR2. -/
  | controlIslandRestart (cause : Fin 5)
  /-- CONTROL_RESTART_DONE (R149). The CP returns, serves the rings in order and runs an admission evaluation. -/
  | controlRestartDone (ok retainedOk : Bool)
  /-- PORT_ISLAND_RESTART (R430). The port island restarts, losing frames in progress and inline state. -/
  | portIslandRestart (cause : Fin 5)
  /-- DISPLAY_ISLAND_RESTART (R405). The display island restarts, abandons any update and queues a clearing sequence. -/
  | displayIslandRestart (cause : Fin 5)
  /-- PERIODIC_SAVE (R319). A save writes the dirty groups, the ACCOUNT_STATUS records, the changed J objects and a SAVE_MARK. -/
  | periodicSave
  /-- SAVE_REQUEST (R319). A write of 1 starts a periodic save. -/
  | saveRequest (req : Req) (payload : Bytes)
  /-- NVM_PROGRAM_DONE (R310). A page program completes and is read back; a second mismatch marks the page bad. -/
  | nvmProgramDone (page : Nat) (match1 match2 : Bool)
  /-- STORE_COMPACTION (R317). The store unit copies the live pairs at the tail to keep 8 free pairs. -/
  | storeCompaction (cal : Bool)
  /-- JOURNAL_COMPACTION (R320). The journal unit copies the live records of the tail page to keep 640 pages free. -/
  | journalCompaction
  /-- REFRESH_PASS (R323). Every REFRESH_PERIOD_H the margin reads find weak words, whose pages are reprogrammed. -/
  | refreshPass (weak : List Nat) (bad : List Nat)
  /-- SPREAD_INC (R333). A write steps a host spread counter, answered after the step is programmed. -/
  | spreadInc (req : Req) (payload : Bytes)
  /-- SCRUB_WORD (R290). The patrol scrubber reads a word and corrects any correctable error it finds. -/
  | scrubWord (addr : Nat) (errs pos : Nat)
  /-- LINE_RECOVERY (R286). A poisoned accumulator line is rewritten from its newest journal record, and EV3 fires. -/
  | lineRecovery (line : Nat)
  /-- ROW_TEST (R301). A preserving test of one row copies it to the transit row, tests it and writes it back or remaps it. -/
  | rowTest (bank : Fin 16) (row failWords : Nat)
  /-- MARCH_PRESERVING (R304). MARCH_COMMAND with MODE 0 starts a preserving run over BANKS. -/
  | marchPreserving (req : Req) (payload : Bytes)
  /-- MARCH_DESTRUCTIVE (R304). MARCH_COMMAND with MODE 1 sets the next start-up test and restarts the device. -/
  | marchDestructive (req : Req) (payload : Bytes)
  /-- MARCH_PERIODIC (R304). Every MARCH_PERIODIC_H a preserving run covers all banks. -/
  | marchPeriodic
  /-- MARCH_RUN_DONE (R304). A requested or periodic run ends, and EV63 fires. -/
  | marchRunDone
  /-- HPORT_TRANSACTION (R415). An H-port transaction from HCS_N fall to rise carries one command, checked by CRC. -/
  | hportTransaction (frame : Bytes)
  /-- HCS_TIMEOUT (R416). HCS_N held low for more than 100 ms ends the transaction. -/
  | hcsTimeout (frame : Bytes)
  /-- READ (R38). The control island executes a READ and returns the active value. -/
  | read (req : Req) (index sub : Nat)
  /-- WRITE (R44). The control island executes a WRITE to an object without a row of its own, through the checks of Table 2.4. -/
  | write (req : Req) (index sub : Nat) (payload : Bytes)
  /-- READ_SHADOW (R38). The control island returns the waiting shadow value, or the active value. -/
  | readShadow (req : Req) (index sub : Nat)
  /-- GET_RESPONSE (R419). The H-port returns the oldest response in SR1 inline. -/
  | getResponse (delivered : Bool)
  /-- RING_READ (R420). The port returns whole entries of a ring from the class's read position. -/
  | ringRead (req : Req) (ring max : Nat)
  /-- RING_ACK (R420). The port releases ring entries up to a sequence number for the class. -/
  | ringAck (req : Req) (ring : Nat) (seq : W32)
  /-- BULK_SET (R421). The port sets its bulk data window and discards its buffers. -/
  | bulkSet (req : Req) (payload : Bytes)
  /-- BULK_READ (R422). The port returns up to 4,096 buffered bulk bytes and advances the window. -/
  | bulkRead (req : Req)
  /-- BULK_BUFFER_FILL (R422). A bulk burst has been fetched into a buffer, and BULK_READY is set. -/
  | bulkBufferFill (cls : Cls)
  /-- RESPONSE_EXPIRY (R413). A response not delivered within 60 s is released and counted in OVERFLOW. -/
  | responseExpiry (sr3 : Bool)
  /-- GFP_COMMAND (R424). A GFP COMMAND frame is received whole on the F-port or S-port, and its command is handled. -/
  | gfpCommand (sPort : Bool) (frame : Bytes)
  /-- POLL (R426). A POLL frame is answered with the oldest waiting response or EMPTY. -/
  | poll (sPort : Bool) (frame : Bytes)
  /-- TIME_SYNC (R428). A TIME_SYNC frame is received, and the RTC is left alone, slewed or stepped by the offset. -/
  | timeSync (sPort : Bool) (frame : Bytes) (latchedUs elapsedUs : Nat)
  /-- REPLY_DEADLINE (R426). At F_REPLY_MS without a ready response, the device sends DEFERRED. -/
  | replyDeadline (sPort : Bool)
  /-- I2C_ROUND (R431). Every I2C_PERIOD_MS the master reads each enabled temperature sensor, with bus recovery. -/
  | i2cRound (sda : SdaState) (readings : List I2cReading)
  /-- EXTEST (R434). The TAP instruction EXTEST takes the pins with cells from their islands. -/
  | extest
  /-- SAMPLE_PRELOAD (R434). The TAP instruction SAMPLE/PRELOAD selects the boundary register. -/
  | samplePreload
  /-- IDCODE (R434). The TAP instruction IDCODE selects the identification register. -/
  | idcode
  /-- CLAMP (R434). The TAP instruction CLAMP holds the pins from the boundary register. -/
  | clamp
  /-- HIGHZ (R434). The TAP instruction HIGHZ floats the pins with cells. -/
  | highz
  /-- BYPASS (R434). The TAP instruction BYPASS, or any code not permitted, selects the bypass register. -/
  | bypass (code : Byte)
  /-- DBG_MEM (R435). Update-DR of DBG_MEM starts a memory read through master slot 10. -/
  | dbgMem (addr : W32)
  /-- TAP_RESET (R434). TRST_N low holds the TAP in Test-Logic-Reset with IDCODE selected. -/
  | tapReset
  /-- EVENT_PENDING_CLEAR (R447). A host write of 1 clears EVENT_PENDING bits. -/
  | eventPendingClear (req : Req) (payload : Bytes)
  /-- RING_CONSUMERS (R442). A write changes the consumer classes of SR4–SR6 and releases entries that no longer await any class. -/
  | ringConsumers (req : Req) (payload : Bytes)
  /-- UPDATE (R398). DISP_COMMAND UPDATE starts an update of the main field, or queues it as pending. -/
  | update (req : Req)
  /-- CLEAR (R403). DISP_COMMAND CLEAR runs a clearing sequence. -/
  | clear (req : Req)
  /-- POWER_OFF (R404). DISP_COMMAND POWER_OFF runs the power-off discharge sequence. -/
  | powerOff (req : Req)
  /-- DISP_IMAGE (R398). A write of DISP_IMAGE that differs from DISP_SHOWN starts an update when AUTO_UPDATE = 1. -/
  | dispImage (req : Req) (payload : Bytes)
  /-- PUMP_GOOD (R392). Both pump rails reach 14.0 V, and frame 0 starts. -/
  | pumpGood
  /-- PUMP_FAIL (R392). The rails are not good within 10 ms, and the update is abandoned. -/
  | pumpFail
  /-- DISPLAY_FRAME_END (R400). A 20 ms display frame ends; the balances are updated and the next state follows. -/
  | displayFrameEnd
  /-- PUMP_HOLD_EXPIRY (R393). PUMP_HOLD_MS after the last frame, the pumps stop and discharge. -/
  | pumpHoldExpiry
  /-- BAL_DELAY_EXPIRY (R402). BAL_DELAY_MS after an unbalanced update, a balancing update starts. -/
  | balDelayExpiry
  /-- CLEARING_START (R403). At cast-on, with HOLDUP_READY and a measured temperature, the clearing sequence starts. -/
  | clearingStart
  /-- SELVEDGE_TRANSITION (R407). A selvedge segment whose target changed starts its transition on the AO driver. -/
  | selvedgeTransition (seg : Fin 8)
  /-- OUTAGE_MARK_CLEAR (R406). A write of 1 clears the latched outage mark. -/
  | outageMarkClear (req : Req) (payload : Bytes)
  /-- SELVEDGE_STATUS (R406). A write sets the targets of the status segments SEG90–SEG95. -/
  | selvedgeStatus (req : Req) (payload : Bytes)
  /-- BEGIN (R455). UPD_COMMAND BEGIN invalidates the inactive slot and starts receiving. -/
  | begin (req : Req)
  /-- UPD_CHUNK (R455). An image chunk is programmed into the inactive slot, and the page map is updated. -/
  | updChunk (req : Req) (payload : Bytes)
  /-- VERIFY (R456). UPD_COMMAND VERIFY starts the check of the staged image. -/
  | verify (req : Req)
  /-- IMAGE_VERIFY_DONE (R456). The check ends in STAGED or REJECTED, and EV59 fires. -/
  | imageVerifyDone (readable : Bool)
  /-- ARM (R457). UPD_COMMAND ARM arms the staged image for UPD_ACTIVATE_AT. -/
  | arm (req : Req)
  /-- ACTIVATE_NOW (R457). UPD_COMMAND ACTIVATE_NOW sets UPD_ACTIVATE_AT 2 s ahead and arms. -/
  | activateNow (req : Req)
  /-- DISARM (R457). UPD_COMMAND DISARM returns ARMED to STAGED. -/
  | disarm (req : Req)
  /-- ABORT (R457). UPD_COMMAND ABORT returns to IDLE and invalidates the inactive header. -/
  | abort (req : Req)
  /-- REARM (R464). UPD_COMMAND REARM repeats VERIFY on a fallen-back image. -/
  | rearm (req : Req)
  /-- FALLBACK (R463). UPD_COMMAND FALLBACK in TRIAL starts a fallback with the cause COMMAND. -/
  | fallback (req : Req)
  /-- UPD_CONFIRM (R461). A write of 1 in TRIAL counts towards confirming the trial image. -/
  | updConfirm (req : Req) (payload : Bytes)
  /-- ACTIVATION (R458). At the RTC tick at or after UPD_ACTIVATE_AT, the boot record is programmed and the control island restarts into the new image. -/
  | activation
  /-- PATTERN_SWITCH (R459). At t_sw, each group takes the new pattern half at its switch boundary. -/
  | patternSwitch (group : Fin 4)
  /-- HEALTH_DEADLINE (R462). The health window expires unconfirmed, and the device falls back with the cause WINDOW. -/
  | healthDeadline
  /-- HOLD_START (R42). CONFIG_HOLD = 1 starts a configuration hold owned by the writing class. -/
  | holdStart (req : Req)
  /-- HOLD_RELEASE (R42). CONFIG_HOLD = 0 checks, stores and releases the held shadows. -/
  | holdRelease (req : Req)
  /-- HOLD_TIMEOUT (R42). HOLD_TIMEOUT elapses; the held shadows are discarded and HOLD_EXPIRED is set. -/
  | holdTimeout
  /-- TIME_NOW (R50). A write sets the RTC at once, records TIME_LAST_SET and raises EV54. -/
  | timeNow (req : Req) (payload : Bytes)
  /-- RTC_SECOND_TICK (R158). An RTC second tick latches MCLK_COUNT and closes intervals held open by a TIME_NOW write. -/
  | rtcSecondTick
  /-- SNAP_REQ (R193). A write requests a snapshot of one subject for the class. -/
  | snapReq (req : Req) (payload : Bytes)
  /-- SNAPSHOT_TIMEOUT (R193). No gate advance within 1 s; the copy is taken at once and marked STALE. -/
  | snapshotTimeout (cls : Cls)
  /-- ACC_CLEAR (R189). A write zeroes a disabled line, journals it and logs a clear record. -/
  | accClear (req : Req) (payload : Bytes)
  /-- MD_RESET (R197). A write journals and zeroes the demand maxima of a subject. -/
  | mdReset (req : Req) (payload : Bytes)
  /-- PULSE_EDGE (R203). A scheduled or owed pulse edge is driven on its PULSE pin. -/
  | pulseEdge (n : Fin 8)
  /-- PULSE_CONFIG (R205). A write of PULSE_CONFIG or PULSE_CONST takes effect at once, and ENABLE = 0 drops edges and residue. -/
  | pulseConfig (req : Req) (n : Fin 8) (isConst : Bool) (payload : Bytes)
  /-- FTRIP_ASSIGN (R100). A write reassigns a fast-trip pin, deasserting it and clearing its latch. -/
  | ftripAssign (req : Req) (n : Fin 8) (payload : Bytes)
  /-- FTRIP_LATCH_CLEAR (R99). A write of 1 to a LATCHED bit releases a latched FTRIP pin. -/
  | ftripLatchClear (req : Req) (payload : Bytes)
  /-- HK_LIMIT_FLAG_CLEAR (R81). A write of 1 clears a HK_LIMIT_FLAGS bit. -/
  | hkLimitFlagClear (req : Req) (payload : Bytes)
  /-- HK_RUN (R80). A write stops or starts the housekeeping sequencer after its cross-object checks. -/
  | hkRun (req : Req) (payload : Bytes)
  /-- CH_SUBSTITUTE (R73). A write requests a spare for a channel or returns the channel to its own modulator. -/
  | chSubstitute (req : Req) (ch : Fin 256) (payload : Bytes)
  /-- TH_ENABLE (R95). A write enables a channel's thresholds or clears their tripped states. -/
  | thEnable (req : Req) (ch : Fin 256) (payload : Bytes)
  /-- ENGINE_ENABLE (R150). A write takes engines out of service or readmits them. -/
  | engineEnable (req : Req) (payload : Bytes)
  /-- CLUSTER_ENABLE (R150). A write takes clusters out of service or readmits them. -/
  | clusterEnable (req : Req) (payload : Bytes)
  /-- TRIGGER (R183). CAPT_COMMAND TRIGGER starts a buffered capture of every channel in the set. -/
  | trigger (req : Req)
  /-- STOP (R183). CAPT_COMMAND STOP ends every running buffered capture after the cycle in progress. -/
  | stop (req : Req)
  /-- RELEASE_ALL (R183). CAPT_COMMAND RELEASE_ALL frees every capture slot. -/
  | releaseAll (req : Req)
  /-- CAPT_RELEASE (R183). A write frees one capture slot, ending its capture if it is still running. -/
  | captRelease (req : Req) (payload : Bytes)
  /-- BIND_OFF_REST (R354). POWER_COMMAND 0x01 runs a commanded bind-off, after which the device rests. -/
  | bindOffRest (req : Req)
  /-- BIND_OFF_RESTART (R354). POWER_COMMAND 0x02 runs a commanded bind-off, followed by a cast-on. -/
  | bindOffRestart (req : Req)
  /-- RESTART_CONTROL (R354). POWER_COMMAND 0x03 restarts the control island. -/
  | restartControl (req : Req)
  /-- RESTART_PORT (R354). POWER_COMMAND 0x04 restarts the port island after the answer. -/
  | restartPort (req : Req)
  /-- RESTART_DISPLAY (R354). POWER_COMMAND 0x05 restarts the display island, followed by the clearing sequence. -/
  | restartDisplay (req : Req)
  /-- VIN33_RETURN (R348). VIN33 has stayed at 2.99 V or above for 2 ms, or the 100 ms retry delay after a failed start has ended, and the AO island starts the buck, the LDO and the crystal oscillator. -/
  | vin33Return
  /-- NVM_ISLAND_RESTART (R334). The NVM island restarts; a page being programmed is torn and invalid, EV58 fires, and requesters resend after the 0.3 ms budget. -/
  | nvmIslandRestart (cause : Fin 5)
  /-- PORT_RESTART_DONE (R433). The port island returns from its restart; the first relay frame has all coil bits 0 and an interrupted relay operation runs again. -/
  | portRestartDone
  /-- DISPLAY_RESTART_DONE (R403). The display island returns from its 1 ms restart, and the clearing sequence starts. -/
  | displayRestartDone
  /-- DISCHARGE_SHORT_EXPIRY (R404). DISCHARGE_SHORT_MS of driving the panel at 0 V with the pumps running has elapsed, and the pumps are stopped. -/
  | dischargeShortExpiry
  /-- RAIL_DISCHARGE_DONE (R393). Both pump rails have discharged below 1.0 V; in a power-off discharge the outputs are handed to the AO hold switches, the island is gated and EV55 POWERED_OFF fires. -/
  | railDischargeDone
  /-- SELVEDGE_FRAME_END (R407). A 20 ms frame of the AO selvedge driver ends; the segment's balance is updated and its transition advances, ends, or takes a waiting target. -/
  | selvedgeFrameEnd (seg : Fin 8)
  /-- OSC_SENSOR_READING (R368). Once per second, on VBAT the AO island counts the oscillator-based temperature sensor, or with HK_RUN = 0 the controller requests a tamper temperature verification, and a temperature detection may start or end. -/
  | oscSensorReading (mc : Int)
  /-- GFP_INVALID_FRAME (R424). A GFP receiver meets a gap of more than 4 character times, a framing error or an overrun within a frame; the frame is discarded and counted, and the receiver returns to hunting. -/
  | gfpInvalidFrame (sPort : Bool)
  /-- NVM_LIFE_CHECK (R320). Once per day, EV23 NVM_WEAR fires with the cause LIFE while NVM_LIFE_MONTHS lies below 12 × NVM_WEAR_YEARS. -/
  | nvmLifeCheck
  deriving DecidableEq, Repr

end Sys2Proof
end

