-- ==== Sys2Proof/Config.lean ====
section
/-! DEFINITION. What the manual leaves open, as constants without a body, applied to what they depend on: no
proof can see their values (assumption log 1). -/
namespace Sys2Proof.Config

/-- SERIAL_NUMBER of the part (R488) (DESIGN CHOICE, log 1). -/
opaque serialNumber : BitVec 64

/-- The byte of the factory image at an offset in slot A (R488) (DESIGN CHOICE, log 1). -/
opaque factoryByte : Nat → Byte

/-- The random value of LC_NONCE at its n-th draw (R384) (DESIGN CHOICE, log 1). -/
opaque nonce : Nat → W32

/-- Whether an ECDSA P-256 signature over a digest verifies under the Dazanar image public key (R454) (DESIGN CHOICE, log 1). -/
opaque signatureOk : (digest signature : Bytes) → Bool

/-- The bytes of a pattern set and of other contents whose layout the manual does not give: area and address (R279) (DESIGN CHOICE, log 1). -/
opaque hiddenByte : Nat → Nat → Byte

/-- The access window of a target, slot and window number under the Dazanar policy of a life-cycle state (R294) (DESIGN CHOICE, log 1). -/
opaque window : (state target slot win : Nat) → BitVec 64

/-- The 16-tap kernel of R110 in 2^-30: the band-limiting pre-filter of R111 that it is combined with (0 none, else the
decimation ratio and the cycle length, as ratio * 2^32 + clocks), the coefficient phase 0-256, and the tap 0-15 for m = -7 to 8 (DESIGN CHOICE, log 1). -/
opaque kernel : (pre phase tap : Nat) → Int

/-- The magnitude response of a preset's filter at a frequency in hertz, times 2^30 (R152) (DESIGN CHOICE, log 1). -/
opaque response : Nat → Nat → Nat

/-- The flickermeter: instantaneous short-term severity as an F32 pattern, from the last 600 s of one channel's samples
summarised as a list of cycle mean squares with the lamp voltage, 230 or 120 (R169) (DESIGN CHOICE, log 1). -/
opaque flicker : (lamp : Nat) → List Rat → Nat

end Sys2Proof.Config
end

