-- ==== Sys2Proof/Machine/Cards.lean ====
section
/-! DEFINITION. The object cards of the dictionary (Tables 2.7 to 18.6): one row per object or array of objects, with type,
access per class H, F, S, C (0 none, 1 r, 2 w, 3 b), Default as stored bits, persistence, effect, range and the mask of
bits that are not RES. The keys below name the objects. -/
namespace Sys2Proof

/-- Data types of Table 2.1 with their size in bytes where the type leaves one. -/
inductive Ty where
  | bool | u (bytes : Nat) | i (bytes : Nat) | f32 | time | str | octets (lo hi : Nat)
  deriving DecidableEq, Repr

/-- Persistence of an object (Table 0.3). -/
inductive Pers where
  | n | c | k | j
  deriving DecidableEq, Repr

/-- Effect class of an object (Table 2.2). -/
inductive Eff where
  | i | y | f | s | b
  deriving DecidableEq, Repr

/-- One row of an object card. Ranges of F32 objects are in thousandths. -/
structure Card where
  idx  : Nat
  n    : Nat
  sub0 : Nat
  sub1 : Nat
  ty   : Ty
  acc  : List Nat
  dflt : Nat
  pers : Pers
  eff  : Eff
  rng  : Option (Int × Int)
  mask : Option Nat
  deriving DecidableEq, Repr

/-- Rows of the object cards, in the order of the index map (R47). -/
def cards0 : List Card := [
  ⟨0x1000, 1, 0x00, 0x00, .u 1, [1, 1, 1, 1], 0x8, .n, .i, none, none⟩,
  ⟨0x1000, 1, 0x01, 0x01, .u 4, [1, 1, 1, 1], 0x44415A00, .n, .i, none, none⟩,
  ⟨0x1000, 1, 0x02, 0x02, .u 2, [1, 1, 1, 1], 0x2428, .n, .i, none, none⟩,
  ⟨0x1000, 1, 0x03, 0x03, .u 1, [1, 1, 1, 1], 0x51, .n, .i, none, none⟩,
  ⟨0x1000, 1, 0x04, 0x04, .u 1, [1, 1, 1, 1], 0x2, .n, .i, none, none⟩,
  ⟨0x1000, 1, 0x05, 0x05, .u 8, [1, 1, 1, 1], 0x0, .n, .i, none, none⟩,
  ⟨0x1000, 1, 0x06, 0x06, .u 4, [1, 1, 1, 1], 0x0, .n, .i, none, none⟩,
  ⟨0x1000, 1, 0x07, 0x07, .u 4, [1, 1, 1, 1], 0x0, .n, .i, none, none⟩,
  ⟨0x1000, 1, 0x08, 0x08, .u 2, [1, 1, 1, 1], 0x102, .n, .i, none, none⟩,
  ⟨0x1001, 1, 0x00, 0x00, .u 1, [1, 1, 1, 1], 0x6, .n, .i, none, none⟩,
  ⟨0x1001, 1, 0x01, 0x01, .u 2, [1, 1, 1, 1], 0x100, .n, .i, none, none⟩,
  ⟨0x1001, 1, 0x02, 0x02, .u 1, [1, 1, 1, 1], 0x8, .n, .i, none, none⟩,
  ⟨0x1001, 1, 0x03, 0x03, .u 2, [1, 1, 1, 1], 0xF0, .n, .i, none, none⟩,
  ⟨0x1001, 1, 0x04, 0x04, .u 1, [1, 1, 1, 1], 0x20, .n, .i, none, none⟩,
  ⟨0x1001, 1, 0x05, 0x05, .u 2, [1, 1, 1, 1], 0x1000, .n, .i, none, none⟩,
  ⟨0x1001, 1, 0x06, 0x06, .u 2, [1, 1, 1, 1], 0x1000, .n, .i, none, none⟩,
  ⟨0x1002, 1, 0x00, 0x00, .str, [1, 1, 1, 1], 0x363532392D4D5651, .n, .i, none, none⟩,
  ⟨0x1100, 1, 0x00, 0x00, .u 1, [1, 1, 1, 1], 0x7, .n, .i, none, none⟩,
  ⟨0x1100, 1, 0x01, 0x01, .u 4, [1, 1, 1, 1], 0x0, .n, .i, none, none⟩,
  ⟨0x1100, 1, 0x02, 0x02, .u 1, [1, 1, 1, 1], 0x0, .n, .i, none, none⟩,
  ⟨0x1100, 1, 0x03, 0x03, .u 4, [1, 1, 1, 1], 0x0, .n, .i, none, none⟩,
  ⟨0x1100, 1, 0x04, 0x04, .u 2, [1, 1, 1, 1], 0x0, .n, .i, none, none⟩,
  ⟨0x1100, 1, 0x05, 0x05, .u 4, [1, 1, 1, 1], 0x0, .n, .i, none, none⟩,
  ⟨0x1100, 1, 0x06, 0x06, .u 4, [1, 1, 1, 1], 0x0, .j, .i, none, none⟩,
  ⟨0x1100, 1, 0x07, 0x07, .u 1, [1, 1, 1, 1], 0x0, .n, .i, none, none⟩,
  ⟨0x1101, 1, 0x00, 0x00, .u 1, [1, 1, 1, 1], 0x4, .n, .i, none, none⟩,
  ⟨0x1101, 1, 0x01, 0x01, .time, [3, 3, 3, 1], 0x0, .n, .i, none, none⟩,
  ⟨0x1101, 1, 0x02, 0x02, .time, [1, 1, 1, 1], 0x0, .j, .i, none, none⟩,
  ⟨0x1101, 1, 0x03, 0x03, .time, [1, 1, 1, 1], 0x0, .n, .i, none, none⟩,
  ⟨0x1101, 1, 0x04, 0x04, .time, [1, 1, 1, 1], 0x0, .j, .i, none, none⟩,
  ⟨0x1102, 1, 0x00, 0x00, .u 1, [1, 1, 1, 1], 0x2, .n, .i, none, none⟩,
  ⟨0x1102, 1, 0x01, 0x01, .bool, [3, 3, 3, 1], 0x0, .n, .i, none, none⟩,
  ⟨0x1102, 1, 0x02, 0x02, .u 1, [3, 3, 3, 1], 0xA, .c, .i, (some (1, 60)), none⟩,
  ⟨0x3000, 256, 0x00, 0x00, .u 1, [1, 1, 1, 1], 0xB, .n, .i, none, none⟩,
  ⟨0x3000, 256, 0x01, 0x01, .bool, [3, 3, 3, 1], 0x0, .c, .y, none, none⟩,
  ⟨0x3000, 256, 0x02, 0x02, .u 1, [3, 3, 3, 1], 0x1, .c, .s, (some (0, 1)), none⟩,
  ⟨0x3000, 256, 0x03, 0x03, .u 1, [3, 3, 3, 1], 0x0, .c, .s, (some (0, 4)), none⟩,
  ⟨0x3000, 256, 0x04, 0x04, .u 1, [3, 3, 3, 1], 0x1, .c, .y, (some (0, 4)), none⟩,
  ⟨0x3000, 256, 0x05, 0x05, .u 1, [3, 3, 3, 1], 0x1, .c, .i, (some (0, 1)), none⟩,
  ⟨0x3000, 256, 0x06, 0x06, .u 1, [3, 3, 3, 1], 0x0, .n, .i, (some (0, 1)), none⟩]

/-- Rows of the object cards, in the order of the index map (R47). -/
def cards1 : List Card := [
  ⟨0x3000, 256, 0x07, 0x07, .u 1, [1, 1, 1, 1], 0x0, .n, .i, none, none⟩,
  ⟨0x3000, 256, 0x08, 0x08, .u 2, [1, 1, 1, 1], 0x0, .n, .i, none, none⟩,
  ⟨0x3000, 256, 0x09, 0x09, .i 2, [1, 1, 1, 1], 0x0, .n, .i, none, none⟩,
  ⟨0x3000, 256, 0x0A, 0x0A, .u 4, [1, 1, 1, 1], 0x0, .n, .i, none, none⟩,
  ⟨0x3000, 256, 0x0B, 0x0B, .u 4, [1, 1, 1, 1], 0x0, .n, .i, none, none⟩,
  ⟨0x3300, 1, 0x00, 0x00, .u 1, [1, 1, 1, 1], 0x8B, .n, .i, none, none⟩,
  ⟨0x3300, 1, 0x01, 0x01, .bool, [3, 3, 3, 1], 0x1, .c, .i, none, none⟩,
  ⟨0x3300, 1, 0x02, 0x02, .u 2, [3, 3, 3, 1], 0x1F4, .c, .i, (some (200, 5000)), none⟩,
  ⟨0x3300, 1, 0x03, 0x03, .u 2, [3, 3, 3, 1], 0x2710, .c, .i, (some (1000, 40000)), none⟩,
  ⟨0x3300, 1, 0x04, 0x04, .u 2, [3, 3, 3, 1], 0xC8, .c, .i, (some (20, 1000)), none⟩,
  ⟨0x3300, 1, 0x05, 0x05, .u 4, [1, 1, 1, 1], 0x0, .n, .i, none, none⟩,
  ⟨0x3300, 1, 0x06, 0x06, .octets 33 33, [1, 1, 3, 3], 0x0, .c, .b, none, none⟩,
  ⟨0x3300, 1, 0x07, 0x07, .bool, [3, 3, 3, 1], 0x1, .c, .i, none, none⟩,
  ⟨0x3300, 1, 0x08, 0x08, .u 1, [3, 3, 3, 1], 0x0, .c, .i, (some (0, 3)), none⟩,
  ⟨0x3300, 1, 0x09, 0x09, .u 1, [3, 3, 3, 1], 0xC, .c, .s, (some (1, 32)), none⟩,
  ⟨0x3300, 1, 0x0A, 0x0A, .u 4, [1, 1, 1, 1], 0x0, .n, .i, none, none⟩,
  ⟨0x3300, 1, 0x0B, 0x0B, .u 4, [3, 3, 3, 1], 0x0, .n, .i, none, none⟩,
  ⟨0x3300, 1, 0x0C, 0x0C, .u 4, [3, 3, 3, 1], 0x1005, .c, .s, none, (some 0x1FFF)⟩,
  ⟨0x3300, 1, 0x0D, 0x0D, .u 4, [3, 3, 3, 1], 0x1006, .c, .s, none, (some 0x1FFF)⟩,
  ⟨0x3300, 1, 0x0E, 0x0E, .u 4, [3, 3, 3, 1], 0x1001, .c, .s, none, (some 0x1FFF)⟩,
  ⟨0x3300, 1, 0x0F, 0x0F, .u 4, [3, 3, 3, 1], 0x1002, .c, .s, none, (some 0x1FFF)⟩,
  ⟨0x3300, 1, 0x10, 0x10, .u 4, [3, 3, 3, 1], 0x1003, .c, .s, none, (some 0x1FFF)⟩,
  ⟨0x3300, 1, 0x11, 0x11, .u 4, [3, 3, 3, 1], 0x1044, .c, .s, none, (some 0x1FFF)⟩,
  ⟨0x3300, 1, 0x12, 0x12, .u 4, [3, 3, 3, 1], 0x3C0, .c, .s, none, (some 0x1FFF)⟩,
  ⟨0x3300, 1, 0x13, 0x13, .u 4, [3, 3, 3, 1], 0x1027, .c, .s, none, (some 0x1FFF)⟩,
  ⟨0x3300, 1, 0x14, 0x14, .u 4, [3, 3, 3, 1], 0x1028, .c, .s, none, (some 0x1FFF)⟩,
  ⟨0x3300, 1, 0x15, 0x15, .u 4, [3, 3, 3, 1], 0x29, .c, .s, none, (some 0x1FFF)⟩,
  ⟨0x3300, 1, 0x16, 0x16, .u 4, [3, 3, 3, 1], 0x1005, .c, .s, none, (some 0x1FFF)⟩,
  ⟨0x3300, 1, 0x17, 0x17, .u 4, [3, 3, 3, 1], 0x1006, .c, .s, none, (some 0x1FFF)⟩,
  ⟨0x3300, 1, 0x18, 0x2B, .u 4, [3, 3, 3, 1], 0x0, .c, .s, none, (some 0x1FFF)⟩,
  ⟨0x3300, 1, 0x2C, 0x2C, .i 4, [3, 3, 3, 1], 0xFFFF5038, .c, .i, none, none⟩,
  ⟨0x3300, 1, 0x2D, 0x2D, .i 4, [3, 3, 3, 1], 0xFFFF5038, .c, .i, none, none⟩,
  ⟨0x3300, 1, 0x2E, 0x2E, .i 4, [3, 3, 3, 1], 0x2D0370, .c, .i, none, none⟩,
  ⟨0x3300, 1, 0x2F, 0x2F, .i 4, [3, 3, 3, 1], 0xB98C0, .c, .i, none, none⟩,
  ⟨0x3300, 1, 0x30, 0x30, .i 4, [3, 3, 3, 1], 0x1A17B0, .c, .i, none, none⟩,
  ⟨0x3300, 1, 0x31, 0x31, .i 4, [3, 3, 3, 1], 0x1E8480, .c, .i, none, none⟩,
  ⟨0x3300, 1, 0x32, 0x32, .i 4, [3, 3, 3, 1], 0x80000000, .c, .i, none, none⟩,
  ⟨0x3300, 1, 0x33, 0x33, .i 4, [3, 3, 3, 1], 0xD59F80, .c, .i, none, none⟩,
  ⟨0x3300, 1, 0x34, 0x34, .i 4, [3, 3, 3, 1], 0xFF0BDC00, .c, .i, none, none⟩,
  ⟨0x3300, 1, 0x35, 0x35, .i 4, [3, 3, 3, 1], 0x80000000, .c, .i, none, none⟩]

/-- Rows of the object cards, in the order of the index map (R47). -/
def cards2 : List Card := [
  ⟨0x3300, 1, 0x36, 0x36, .i 4, [3, 3, 3, 1], 0xFFFF5038, .c, .i, none, none⟩,
  ⟨0x3300, 1, 0x37, 0x37, .i 4, [3, 3, 3, 1], 0xFFFF5038, .c, .i, none, none⟩,
  ⟨0x3300, 1, 0x38, 0x4B, .i 4, [3, 3, 3, 1], 0x80000000, .c, .i, none, none⟩,
  ⟨0x3300, 1, 0x4C, 0x4C, .i 4, [3, 3, 3, 1], 0x1C138, .c, .i, none, none⟩,
  ⟨0x3300, 1, 0x4D, 0x4D, .i 4, [3, 3, 3, 1], 0x1C138, .c, .i, none, none⟩,
  ⟨0x3300, 1, 0x4E, 0x4E, .i 4, [3, 3, 3, 1], 0x37B1D0, .c, .i, none, none⟩,
  ⟨0x3300, 1, 0x4F, 0x4F, .i 4, [3, 3, 3, 1], 0xCD140, .c, .i, none, none⟩,
  ⟨0x3300, 1, 0x50, 0x50, .i 4, [3, 3, 3, 1], 0x1CD6D0, .c, .i, none, none⟩,
  ⟨0x3300, 1, 0x51, 0x51, .i 4, [3, 3, 3, 1], 0x387520, .c, .i, none, none⟩,
  ⟨0x3300, 1, 0x52, 0x52, .i 4, [3, 3, 3, 1], 0x7FFFFFFF, .c, .i, none, none⟩,
  ⟨0x3300, 1, 0x53, 0x53, .i 4, [3, 3, 3, 1], 0xF42400, .c, .i, none, none⟩,
  ⟨0x3300, 1, 0x54, 0x54, .i 4, [3, 3, 3, 1], 0xFF2A6080, .c, .i, none, none⟩,
  ⟨0x3300, 1, 0x55, 0x55, .i 4, [3, 3, 3, 1], 0x7FFFFFFF, .c, .i, none, none⟩,
  ⟨0x3300, 1, 0x56, 0x56, .i 4, [3, 3, 3, 1], 0x1C138, .c, .i, none, none⟩,
  ⟨0x3300, 1, 0x57, 0x57, .i 4, [3, 3, 3, 1], 0x1C138, .c, .i, none, none⟩,
  ⟨0x3300, 1, 0x58, 0x6B, .i 4, [3, 3, 3, 1], 0x7FFFFFFF, .c, .i, none, none⟩,
  ⟨0x3300, 1, 0x6C, 0x8B, .i 4, [1, 1, 1, 1], 0x0, .n, .i, none, none⟩,
  ⟨0x3200, 256, 0x00, 0x00, .u 1, [1, 1, 1, 1], 0xA, .n, .i, none, none⟩,
  ⟨0x3200, 256, 0x01, 0x01, .bool, [3, 3, 3, 1], 0x0, .c, .i, none, none⟩,
  ⟨0x3200, 256, 0x02, 0x02, .u 1, [3, 3, 3, 1], 0x0, .c, .s, (some (0, 1)), none⟩,
  ⟨0x3200, 256, 0x03, 0x03, .u 1, [3, 3, 3, 1], 0x0, .c, .s, (some (0, 4)), none⟩,
  ⟨0x3200, 256, 0x04, 0x04, .u 4, [3, 3, 3, 1], 0x1E8480, .c, .i, (some (1, 2000000)), none⟩,
  ⟨0x3200, 256, 0x05, 0x05, .u 4, [3, 3, 3, 1], 0x0, .c, .i, (some (0, 1999999)), none⟩,
  ⟨0x3200, 256, 0x06, 0x06, .u 4, [3, 3, 3, 1], 0x2710, .c, .i, (some (0, 500000)), none⟩,
  ⟨0x3200, 256, 0x07, 0x07, .u 1, [3, 3, 3, 1], 0x3, .c, .i, (some (1, 255)), none⟩,
  ⟨0x3200, 256, 0x08, 0x08, .u 1, [3, 3, 3, 1], 0x5, .c, .i, none, (some 0xF)⟩,
  ⟨0x3200, 256, 0x09, 0x09, .u 4, [1, 1, 1, 1], 0x0, .n, .i, none, none⟩,
  ⟨0x3200, 256, 0x0A, 0x0A, .u 4, [1, 1, 1, 1], 0x0, .n, .i, none, none⟩,
  ⟨0x3400, 1, 0x00, 0x00, .u 1, [1, 1, 1, 1], 0x24, .n, .i, none, none⟩,
  ⟨0x3400, 1, 0x01, 0x04, .bool, [3, 3, 3, 1], 0x0, .c, .y, none, none⟩,
  ⟨0x3400, 1, 0x05, 0x08, .u 4, [3, 3, 3, 1], 0x0, .c, .s, none, (some 0xC0FFFFFF)⟩,
  ⟨0x3400, 1, 0x09, 0x0C, .u 1, [3, 3, 3, 1], 0x32, .c, .i, (some (50, 60)), none⟩,
  ⟨0x3400, 1, 0x0D, 0x10, .u 4, [3, 3, 3, 1], 0x4E20, .c, .i, (some (1000, 200000)), none⟩,
  ⟨0x3400, 1, 0x11, 0x14, .u 4, [1, 1, 1, 1], 0x0, .n, .i, none, none⟩,
  ⟨0x3400, 1, 0x15, 0x18, .u 4, [1, 1, 1, 1], 0x0, .n, .i, none, none⟩,
  ⟨0x3400, 1, 0x19, 0x1C, .u 4, [1, 1, 1, 1], 0x0, .n, .i, none, none⟩,
  ⟨0x3400, 1, 0x1D, 0x20, .u 4, [1, 1, 1, 1], 0x0, .n, .i, none, none⟩,
  ⟨0x3400, 1, 0x21, 0x24, .u 4, [1, 1, 1, 1], 0x0, .n, .i, none, none⟩,
  ⟨0x3500, 1, 0x00, 0x00, .u 1, [1, 1, 1, 1], 0xF, .n, .i, none, none⟩,
  ⟨0x3500, 1, 0x01, 0x01, .u 4, [1, 1, 1, 1], 0xFA0, .n, .i, none, none⟩]

/-- Rows of the object cards, in the order of the index map (R47). -/
def cards3 : List Card := [
  ⟨0x3500, 1, 0x02, 0x02, .u 4, [1, 1, 1, 1], 0x1F40, .n, .i, none, none⟩,
  ⟨0x3500, 1, 0x03, 0x03, .u 4, [1, 1, 1, 1], 0x3E80, .n, .i, none, none⟩,
  ⟨0x3500, 1, 0x04, 0x04, .u 4, [1, 1, 1, 1], 0x7D00, .n, .i, none, none⟩,
  ⟨0x3500, 1, 0x05, 0x05, .u 4, [1, 1, 1, 1], 0xFA00, .n, .i, none, none⟩,
  ⟨0x3500, 1, 0x06, 0x06, .u 4, [1, 1, 1, 1], 0x640, .n, .i, none, none⟩,
  ⟨0x3500, 1, 0x07, 0x07, .u 4, [1, 1, 1, 1], 0xCE4, .n, .i, none, none⟩,
  ⟨0x3500, 1, 0x08, 0x08, .u 4, [1, 1, 1, 1], 0x19C8, .n, .i, none, none⟩,
  ⟨0x3500, 1, 0x09, 0x09, .u 4, [1, 1, 1, 1], 0x32C8, .n, .i, none, none⟩,
  ⟨0x3500, 1, 0x0A, 0x0A, .u 4, [1, 1, 1, 1], 0x6590, .n, .i, none, none⟩,
  ⟨0x3500, 1, 0x0B, 0x0B, .u 4, [1, 1, 1, 1], 0x2DC6C0, .n, .i, none, none⟩,
  ⟨0x3500, 1, 0x0C, 0x0C, .u 4, [1, 1, 1, 1], 0x16E360, .n, .i, none, none⟩,
  ⟨0x3500, 1, 0x0D, 0x0D, .u 4, [1, 1, 1, 1], 0xB71B0, .n, .i, none, none⟩,
  ⟨0x3500, 1, 0x0E, 0x0E, .u 4, [1, 1, 1, 1], 0x5B8D8, .n, .i, none, none⟩,
  ⟨0x3500, 1, 0x0F, 0x0F, .u 4, [1, 1, 1, 1], 0x2DC6C, .n, .i, none, none⟩,
  ⟨0x7000, 1, 0x00, 0x00, .u 1, [1, 1, 1, 1], 0x3A, .n, .i, none, none⟩,
  ⟨0x7000, 1, 0x01, 0x01, .u 4, [1, 1, 3, 1], 0xFFFFFFFF, .c, .i, none, none⟩,
  ⟨0x7000, 1, 0x02, 0x02, .u 4, [1, 1, 1, 1], 0x0, .n, .i, none, none⟩,
  ⟨0x7000, 1, 0x03, 0x03, .u 1, [1, 1, 3, 1], 0xF, .c, .i, none, (some 0xF)⟩,
  ⟨0x7000, 1, 0x04, 0x07, .u 4, [1, 1, 1, 1], 0x0, .n, .i, none, none⟩,
  ⟨0x7000, 1, 0x08, 0x08, .u 1, [1, 1, 3, 1], 0x4, .c, .i, (some (2, 16)), none⟩,
  ⟨0x7000, 1, 0x09, 0x09, .u 1, [1, 1, 3, 1], 0x3, .c, .i, (some (1, 15)), none⟩,
  ⟨0x7000, 1, 0x0A, 0x0A, .u 2, [1, 1, 3, 1], 0xA, .c, .i, (some (1, 3600)), none⟩,
  ⟨0x7000, 1, 0x0B, 0x0B, .octets 240 240, [3, 3, 3, 1], 0xFFFFFFFFFFFFFFFFFFFFFFFFFFFFFFFFFFFFFFFFFFFFFFFFFFFFFFFFFFFFFFFFFFFFFFFFFFFFFFFFFFFFFFFFFFFFFFFFFFFFFFFFFFFFFFFFFFFFFFFFFFFFFFFFFFFFFFFFFFFFFFFFFFFFFFFFFFFFFFFFFFFFFFFFFFFFFFFFFFFFFFFFFFFFFFFFFFFFFFFFFFFFFFFFFFFFFFFFFFFFFFFFFFFFFFFFFFFFFFFFFFFFFFFFFFFFFFFFFFFFFFFFFFFFFFFFFFFFFFFFFFFFFFFFFFFFFFFFFFFFFFFFFFFFFFFFFFFFFFFFFFFFFFFFFFFFFFFFFFFFFFFFFFFFFFFFFFFFFFFFFFFFFFFFFFFFFFFFFFFFFFFFFFFFFFFFFFFFFFFFFFFFFFFFFFFFFFFFFFFFFFFFFFFFFFFFFFFFFFFFFFFFFFFFFFFFFFFFFFFFFFFFFFFFFFFFFFFFFFFF, .c, .y, none, none⟩,
  ⟨0x7000, 1, 0x0C, 0x0C, .octets 64 64, [1, 1, 1, 1], 0x20, .n, .i, none, none⟩,
  ⟨0x7000, 1, 0x0D, 0x0D, .u 4, [1, 1, 1, 1], 0x0, .n, .i, none, none⟩,
  ⟨0x7000, 1, 0x0E, 0x0E, .u 4, [1, 1, 1, 1], 0x0, .n, .i, none, none⟩,
  ⟨0x7000, 1, 0x0F, 0x0F, .u 4, [1, 1, 1, 1], 0x0, .n, .i, none, none⟩,
  ⟨0x7000, 1, 0x10, 0x10, .u 4, [1, 1, 1, 1], 0x0, .n, .i, none, none⟩,
  ⟨0x7000, 1, 0x11, 0x1A, .u 4, [1, 1, 1, 1], 0x0, .n, .i, none, none⟩,
  ⟨0x7000, 1, 0x1B, 0x3A, .u 4, [1, 1, 1, 1], 0x0, .n, .i, none, none⟩,
  ⟨0x7100, 1, 0x00, 0x00, .u 1, [1, 1, 1, 1], 0xB, .n, .i, none, none⟩,
  ⟨0x7100, 1, 0x01, 0x01, .u 1, [3, 3, 3, 1], 0x5A, .c, .i, (some (60, 98)), none⟩,
  ⟨0x7100, 1, 0x02, 0x02, .u 2, [3, 3, 3, 1], 0xA, .c, .i, (some (1, 600)), none⟩,
  ⟨0x7100, 1, 0x03, 0x03, .u 1, [3, 3, 3, 1], 0x0, .c, .i, (some (0, 1)), none⟩,
  ⟨0x7100, 1, 0x04, 0x04, .u 4, [1, 1, 1, 1], 0x0, .n, .i, none, none⟩,
  ⟨0x7100, 1, 0x05, 0x05, .u 4, [1, 1, 1, 1], 0x0, .n, .i, none, none⟩,
  ⟨0x7100, 1, 0x06, 0x06, .u 4, [1, 1, 1, 1], 0x0, .n, .i, none, none⟩,
  ⟨0x7100, 1, 0x07, 0x07, .u 4, [1, 1, 1, 1], 0x0, .n, .i, none, none⟩,
  ⟨0x7100, 1, 0x08, 0x08, .u 4, [1, 1, 1, 1], 0x0, .n, .i, none, none⟩,
  ⟨0x7100, 1, 0x09, 0x09, .u 4, [1, 1, 1, 1], 0x0, .n, .i, none, none⟩]

/-- Rows of the object cards, in the order of the index map (R47). -/
def cards4 : List Card := [
  ⟨0x7100, 1, 0x0A, 0x0A, .u 4, [1, 1, 1, 1], 0x0, .n, .i, none, none⟩,
  ⟨0x7100, 1, 0x0B, 0x0B, .octets 3840 3840, [1, 1, 1, 1], 0x0, .j, .i, none, none⟩,
  ⟨0x4000, 240, 0x00, 0x00, .u 1, [1, 1, 1, 1], 0xF, .n, .i, none, none⟩,
  ⟨0x4000, 240, 0x01, 0x01, .bool, [3, 3, 3, 1], 0x0, .c, .y, none, none⟩,
  ⟨0x4000, 240, 0x02, 0x02, .u 1, [3, 3, 3, 1], 0x0, .c, .s, (some (0, 3)), none⟩,
  ⟨0x4000, 240, 0x03, 0x03, .u 1, [3, 3, 3, 1], 0x0, .c, .y, (some (0, 2)), none⟩,
  ⟨0x4000, 240, 0x04, 0x04, .u 1, [3, 3, 3, 1], 0x0, .c, .s, (some (0, 3)), none⟩,
  ⟨0x4000, 240, 0x05, 0x05, .u 8, [3, 3, 3, 1], 0x0, .c, .s, none, (some 0xFFF00FFFFFFFF)⟩,
  ⟨0x4000, 240, 0x06, 0x06, .u 4, [3, 3, 3, 1], 0x0, .c, .y, none, (some 0xF)⟩,
  ⟨0x4000, 240, 0x07, 0x07, .f32, [3, 3, 3, 1], 0x3F000000, .c, .y, (some (0, 100000)), none⟩,
  ⟨0x4000, 240, 0x08, 0x08, .u 4, [3, 3, 3, 1], 0x14, .c, .y, (some (1, 10000)), none⟩,
  ⟨0x4000, 240, 0x09, 0x09, .u 2, [3, 3, 3, 1], 0xA, .c, .y, (some (1, 1000)), none⟩,
  ⟨0x4000, 240, 0x0A, 0x0A, .u 2, [3, 3, 3, 1], 0x32, .c, .y, (some (1, 65535)), none⟩,
  ⟨0x4000, 240, 0x0B, 0x0B, .u 2, [3, 3, 3, 1], 0x32, .c, .y, (some (1, 65535)), none⟩,
  ⟨0x4000, 240, 0x0C, 0x0C, .u 1, [3, 3, 3, 1], 0xF, .c, .y, none, (some 0xF)⟩,
  ⟨0x4000, 240, 0x0D, 0x0D, .u 1, [3, 3, 3, 1], 0xC, .c, .y, (some (1, 100)), none⟩,
  ⟨0x4000, 240, 0x0E, 0x0E, .u 1, [3, 3, 3, 1], 0xA, .c, .y, (some (1, 100)), none⟩,
  ⟨0x4000, 240, 0x0F, 0x0F, .u 4, [1, 1, 1, 1], 0x0, .n, .i, none, none⟩,
  ⟨0x6000, 240, 0x00, 0x00, .u 1, [1, 1, 1, 1], 0x1A, .n, .i, none, none⟩,
  ⟨0x6000, 240, 0x01, 0x01, .u 4, [1, 1, 1, 1], 0x0, .n, .i, none, none⟩,
  ⟨0x6000, 240, 0x02, 0x02, .time, [1, 1, 1, 1], 0x0, .n, .i, none, none⟩,
  ⟨0x6000, 240, 0x03, 0x03, .u 2, [1, 1, 1, 1], 0x0, .n, .i, none, none⟩,
  ⟨0x6000, 240, 0x04, 0x04, .u 4, [1, 1, 1, 1], 0x0, .n, .i, none, none⟩,
  ⟨0x6000, 240, 0x05, 0x05, .f32, [1, 1, 1, 1], 0x0, .n, .i, none, none⟩,
  ⟨0x6000, 240, 0x06, 0x06, .f32, [1, 1, 1, 1], 0x0, .n, .i, none, none⟩,
  ⟨0x6000, 240, 0x07, 0x07, .f32, [1, 1, 1, 1], 0x0, .n, .i, none, none⟩,
  ⟨0x6000, 240, 0x08, 0x08, .f32, [1, 1, 1, 1], 0x0, .n, .i, none, none⟩,
  ⟨0x6000, 240, 0x09, 0x09, .f32, [1, 1, 1, 1], 0x0, .n, .i, none, none⟩,
  ⟨0x6000, 240, 0x0A, 0x0A, .f32, [1, 1, 1, 1], 0x0, .n, .i, none, none⟩,
  ⟨0x6000, 240, 0x0B, 0x0B, .f32, [1, 1, 1, 1], 0x0, .n, .i, none, none⟩,
  ⟨0x6000, 240, 0x0C, 0x0C, .f32, [1, 1, 1, 1], 0x0, .n, .i, none, none⟩,
  ⟨0x6000, 240, 0x0D, 0x0D, .f32, [1, 1, 1, 1], 0x0, .n, .i, none, none⟩,
  ⟨0x6000, 240, 0x0E, 0x0E, .f32, [1, 1, 1, 1], 0x0, .n, .i, none, none⟩,
  ⟨0x6000, 240, 0x0F, 0x12, .f32, [1, 1, 1, 1], 0x0, .n, .i, none, none⟩,
  ⟨0x6000, 240, 0x13, 0x16, .f32, [1, 1, 1, 1], 0x0, .n, .i, none, none⟩,
  ⟨0x6000, 240, 0x17, 0x17, .f32, [1, 1, 1, 1], 0x41200000, .n, .i, none, none⟩,
  ⟨0x6000, 240, 0x18, 0x18, .f32, [1, 1, 1, 1], 0x43160000, .n, .i, none, none⟩,
  ⟨0x6000, 240, 0x19, 0x19, .f32, [1, 1, 1, 1], 0x41200000, .n, .i, none, none⟩,
  ⟨0x6000, 240, 0x1A, 0x1A, .u 4, [1, 1, 1, 1], 0x0, .n, .i, none, none⟩,
  ⟨0x6100, 256, 0x00, 0x00, .u 1, [1, 1, 1, 1], 0xD0, .n, .i, none, none⟩]

/-- Rows of the object cards, in the order of the index map (R47). -/
def cards5 : List Card := [
  ⟨0x6100, 256, 0x01, 0x01, .u 4, [1, 1, 1, 1], 0x0, .n, .i, none, none⟩,
  ⟨0x6100, 256, 0x02, 0x02, .f32, [1, 1, 1, 1], 0x0, .n, .i, none, none⟩,
  ⟨0x6100, 256, 0x03, 0x03, .f32, [1, 1, 1, 1], 0x0, .n, .i, none, none⟩,
  ⟨0x6100, 256, 0x04, 0x04, .f32, [1, 1, 1, 1], 0x0, .n, .i, none, none⟩,
  ⟨0x6100, 256, 0x05, 0x05, .i 4, [1, 1, 1, 1], 0x0, .n, .i, none, none⟩,
  ⟨0x6100, 256, 0x06, 0x09, .f32, [1, 1, 1, 1], 0x41200000, .n, .i, none, none⟩,
  ⟨0x6100, 256, 0x0A, 0x0A, .u 2, [1, 1, 1, 1], 0x0, .n, .i, none, none⟩,
  ⟨0x6100, 256, 0x0B, 0x0B, .u 4, [1, 1, 1, 1], 0x0, .n, .i, none, none⟩,
  ⟨0x6100, 256, 0x0C, 0x0C, .u 2, [1, 1, 1, 1], 0x0, .n, .i, none, none⟩,
  ⟨0x6100, 256, 0x0D, 0x0D, .u 1, [1, 1, 1, 1], 0x0, .n, .i, none, none⟩,
  ⟨0x6100, 256, 0x0E, 0x0E, .f32, [1, 1, 1, 1], 0x0, .n, .i, none, none⟩,
  ⟨0x6100, 256, 0x0F, 0x0F, .f32, [1, 1, 1, 1], 0x0, .n, .i, none, none⟩,
  ⟨0x6100, 256, 0x10, 0x10, .f32, [1, 1, 1, 1], 0x0, .n, .i, none, none⟩,
  ⟨0x6100, 256, 0x11, 0x11, .u 4, [1, 1, 1, 1], 0x0, .n, .i, none, none⟩,
  ⟨0x6100, 256, 0x12, 0x12, .octets 440 440, [1, 1, 1, 1], 0x6E, .n, .i, none, none⟩,
  ⟨0x6100, 256, 0x13, 0x51, .f32, [1, 1, 1, 1], 0x0, .n, .i, none, none⟩,
  ⟨0x6100, 256, 0x52, 0x90, .i 4, [1, 1, 1, 1], 0x0, .n, .i, none, none⟩,
  ⟨0x6100, 256, 0x91, 0xD0, .f32, [1, 1, 1, 1], 0x0, .n, .i, none, none⟩,
  ⟨0x6200, 1, 0x00, 0x00, .u 1, [1, 1, 1, 1], 0x2D, .n, .i, none, none⟩,
  ⟨0x6200, 1, 0x01, 0x01, .u 1, [3, 3, 3, 1], 0x0, .c, .y, (some (0, 1)), none⟩,
  ⟨0x6200, 1, 0x02, 0x02, .u 1, [3, 3, 3, 1], 0x0, .c, .y, (some (0, 1)), none⟩,
  ⟨0x6200, 1, 0x03, 0x03, .bool, [3, 3, 3, 1], 0x0, .c, .y, none, none⟩,
  ⟨0x6200, 1, 0x04, 0x07, .u 8, [3, 3, 3, 1], 0x0, .c, .s, none, (some 0xFFFFFFFFF)⟩,
  ⟨0x6200, 1, 0x08, 0x0B, .f32, [3, 3, 3, 1], 0x43660000, .c, .y, (some (50000, 500000)), none⟩,
  ⟨0x6200, 1, 0x0C, 0x0C, .u 2, [3, 3, 3, 1], 0x384, .c, .y, (some (500, 990)), none⟩,
  ⟨0x6200, 1, 0x0D, 0x0D, .u 2, [3, 3, 3, 1], 0x44C, .c, .y, (some (1010, 1500)), none⟩,
  ⟨0x6200, 1, 0x0E, 0x0E, .u 2, [3, 3, 3, 1], 0x32, .c, .y, (some (10, 200)), none⟩,
  ⟨0x6200, 1, 0x0F, 0x0F, .u 2, [3, 3, 3, 1], 0x14, .c, .y, (some (0, 100)), none⟩,
  ⟨0x6200, 1, 0x10, 0x10, .u 2, [3, 3, 3, 1], 0x64, .c, .y, (some (10, 500)), none⟩,
  ⟨0x6200, 1, 0x11, 0x11, .f32, [3, 3, 3, 1], 0x41A00000, .c, .y, (some (1000, 200000)), none⟩,
  ⟨0x6200, 1, 0x12, 0x12, .u 2, [3, 3, 3, 1], 0x96, .c, .y, (some (10, 1000)), none⟩,
  ⟨0x6200, 1, 0x13, 0x13, .u 2, [3, 3, 3, 1], 0xA, .c, .y, (some (1, 1000)), none⟩,
  ⟨0x6200, 1, 0x14, 0x14, .octets 32 32, [3, 3, 3, 1], 0xFFFFFFFFFFFFFFFFFFFFFFFFFFFFFFFFFFFFFFFFFFFFFFFFFFFFFFFFFFFFFFFF, .c, .y, none, none⟩,
  ⟨0x6200, 1, 0x15, 0x15, .octets 32 32, [3, 3, 3, 1], 0x0, .c, .y, none, none⟩,
  ⟨0x6200, 1, 0x16, 0x16, .octets 32 32, [3, 3, 3, 1], 0x0, .c, .y, none, none⟩,
  ⟨0x6200, 1, 0x17, 0x17, .u 1, [1, 1, 1, 1], 0x0, .n, .i, none, none⟩,
  ⟨0x6200, 1, 0x18, 0x1B, .u 4, [1, 1, 1, 1], 0x0, .n, .i, none, none⟩,
  ⟨0x6200, 1, 0x1C, 0x1F, .f32, [1, 1, 1, 1], 0x0, .n, .i, none, none⟩,
  ⟨0x6200, 1, 0x20, 0x23, .f32, [1, 1, 1, 1], 0x0, .n, .i, none, none⟩,
  ⟨0x6200, 1, 0x24, 0x27, .u 8, [1, 1, 1, 1], 0x0, .j, .i, none, none⟩]

/-- Rows of the object cards, in the order of the index map (R47). -/
def cards6 : List Card := [
  ⟨0x6200, 1, 0x28, 0x28, .octets 32 32, [3, 3, 3, 1], 0x0, .c, .y, none, none⟩,
  ⟨0x6200, 1, 0x29, 0x29, .u 4, [3, 3, 3, 1], 0xA10, .c, .y, none, (some 0xFF7F)⟩,
  ⟨0x6200, 1, 0x2A, 0x2A, .u 1, [2, 2, 2, 0], 0x0, .n, .i, (some (1, 3)), none⟩,
  ⟨0x6200, 1, 0x2B, 0x2B, .u 1, [2, 2, 2, 0], 0x0, .n, .i, (some (0, 7)), none⟩,
  ⟨0x6200, 1, 0x2C, 0x2C, .u 4, [1, 1, 1, 1], 0x0, .n, .i, none, none⟩,
  ⟨0x6200, 1, 0x2D, 0x2D, .octets 8 8, [1, 1, 1, 1], 0x0, .n, .i, none, none⟩,
  ⟨0x5000, 32, 0x00, 0xFF, .u 8, [3, 3, 3, 1], 0x0, .c, .y, none, (some 0x7F7F07FF03FF)⟩,
  ⟨0xB000, 1, 0x00, 0x00, .u 1, [1, 1, 1, 1], 0x79, .n, .i, none, none⟩,
  ⟨0xB000, 1, 0x01, 0x08, .u 4, [3, 3, 3, 1], 0x5000, .c, .i, none, (some 0xFF0D)⟩,
  ⟨0xB000, 1, 0x09, 0x10, .u 4, [3, 3, 3, 1], 0x3E8, .c, .i, (some (1, 100000)), none⟩,
  ⟨0xB000, 1, 0x11, 0x18, .u 12, [1, 1, 1, 1], 0x0, .j, .i, none, none⟩,
  ⟨0xB000, 1, 0x19, 0x20, .u 4, [1, 1, 1, 1], 0x0, .n, .i, none, none⟩,
  ⟨0xB000, 1, 0x21, 0x28, .u 4, [3, 3, 3, 1], 0xA0000, .c, .i, none, (some 0xFFFF0F)⟩,
  ⟨0xB000, 1, 0x29, 0x29, .u 4, [3, 3, 3, 1], 0x0, .n, .i, none, (some 0xFF00)⟩,
  ⟨0xB000, 1, 0x2A, 0x2A, .u 2, [3, 3, 3, 1], 0x384, .c, .b, (some (60, 3600)), none⟩,
  ⟨0xB000, 1, 0x2B, 0x2B, .u 1, [3, 3, 3, 1], 0x1, .c, .b, (some (1, 15)), none⟩,
  ⟨0xB000, 1, 0x2C, 0x2C, .u 2, [3, 3, 3, 1], 0x384, .c, .b, (some (60, 3600)), none⟩,
  ⟨0xB000, 1, 0x2D, 0x2D, .u 1, [3, 3, 3, 1], 0x0, .c, .y, none, (some 0x3F)⟩,
  ⟨0xB000, 1, 0x2E, 0x2E, .octets 32 32, [3, 3, 3, 1], 0x0, .c, .y, none, none⟩,
  ⟨0xB000, 1, 0x2F, 0x6E, .f32, [3, 3, 3, 1], 0x4E6E6B28, .c, .i, (some (0, 1000000000000000)), none⟩,
  ⟨0xB000, 1, 0x6F, 0x6F, .u 2, [3, 3, 3, 1], 0x32, .c, .i, (some (1, 65535)), none⟩,
  ⟨0xB000, 1, 0x70, 0x70, .u 2, [3, 3, 3, 1], 0x32, .c, .i, (some (0, 500)), none⟩,
  ⟨0xB000, 1, 0x71, 0x71, .u 8, [1, 1, 1, 1], 0x0, .n, .i, none, none⟩,
  ⟨0xB000, 1, 0x72, 0x72, .u 2, [2, 0, 0, 0], 0x0, .n, .i, none, (some 0xE3FF)⟩,
  ⟨0xB000, 1, 0x73, 0x73, .u 2, [0, 2, 0, 0], 0x0, .n, .i, none, (some 0xE3FF)⟩,
  ⟨0xB000, 1, 0x74, 0x74, .u 2, [0, 0, 2, 0], 0x0, .n, .i, none, (some 0xE3FF)⟩,
  ⟨0xB000, 1, 0x75, 0x75, .octets 16 4096, [1, 0, 0, 0], 0x0, .n, .i, none, none⟩,
  ⟨0xB000, 1, 0x76, 0x76, .octets 16 4096, [0, 1, 0, 0], 0x0, .n, .i, none, none⟩,
  ⟨0xB000, 1, 0x77, 0x77, .octets 16 4096, [0, 0, 1, 0], 0x0, .n, .i, none, none⟩,
  ⟨0xB000, 1, 0x78, 0x78, .u 2, [2, 0, 2, 0], 0x0, .n, .i, (some (0, 8191)), none⟩,
  ⟨0xB000, 1, 0x79, 0x79, .u 2, [2, 2, 2, 0], 0x0, .n, .i, none, (some 0xC3FF)⟩,
  ⟨0x4400, 1, 0x00, 0x00, .u 1, [1, 1, 1, 1], 0x48, .n, .i, none, none⟩,
  ⟨0x4400, 1, 0x01, 0x04, .bool, [3, 3, 3, 1], 0x0, .c, .y, none, none⟩,
  ⟨0x4400, 1, 0x05, 0x08, .octets 30 30, [3, 3, 3, 1], 0x0, .c, .y, none, none⟩,
  ⟨0x4400, 1, 0x09, 0x0C, .octets 30 30, [3, 3, 3, 1], 0x0, .c, .y, none, none⟩,
  ⟨0x4400, 1, 0x0D, 0x10, .u 4, [3, 3, 3, 1], 0x1, .c, .y, none, (some 0x7)⟩,
  ⟨0x4400, 1, 0x11, 0x14, .f32, [3, 3, 3, 1], 0x0, .c, .y, (some (0, 1000000)), none⟩,
  ⟨0x4400, 1, 0x15, 0x18, .f32, [3, 3, 3, 1], 0x0, .c, .y, (some (0, 100000000)), none⟩,
  ⟨0x4400, 1, 0x19, 0x1C, .u 2, [3, 3, 3, 1], 0x3C, .c, .y, (some (1, 900)), none⟩,
  ⟨0x4400, 1, 0x1D, 0x20, .f32, [3, 3, 3, 1], 0x43480000, .c, .i, (some (0, 1000000000)), none⟩]

/-- Rows of the object cards, in the order of the index map (R47). -/
def cards7 : List Card := [
  ⟨0x4400, 1, 0x21, 0x24, .u 2, [3, 3, 3, 1], 0x1E, .c, .i, (some (0, 1000)), none⟩,
  ⟨0x4400, 1, 0x25, 0x28, .f32, [3, 3, 3, 1], 0x43FA0000, .c, .i, (some (0, 1000000000)), none⟩,
  ⟨0x4400, 1, 0x29, 0x2C, .u 1, [3, 3, 3, 1], 0x5, .c, .i, (some (1, 255)), none⟩,
  ⟨0x4400, 1, 0x2D, 0x30, .u 2, [3, 3, 3, 1], 0xC8, .c, .i, (some (0, 900)), none⟩,
  ⟨0x4400, 1, 0x31, 0x34, .u 4, [1, 1, 1, 1], 0x0, .j, .i, none, none⟩,
  ⟨0x4400, 1, 0x35, 0x38, .u 4, [1, 1, 1, 1], 0x0, .n, .i, none, none⟩,
  ⟨0x4400, 1, 0x39, 0x3C, .octets 64 64, [1, 1, 1, 1], 0x0, .j, .i, none, none⟩,
  ⟨0x4400, 1, 0x3D, 0x40, .octets 30 30, [1, 1, 1, 1], 0x0, .j, .i, none, none⟩,
  ⟨0x4400, 1, 0x41, 0x44, .octets 30 30, [1, 1, 1, 1], 0x0, .j, .i, none, none⟩,
  ⟨0x4400, 1, 0x45, 0x48, .u 4, [1, 1, 1, 1], 0x0, .j, .i, none, none⟩,
  ⟨0x4200, 1, 0x00, 0x00, .u 1, [1, 1, 1, 1], 0x40, .n, .i, none, none⟩,
  ⟨0x4200, 1, 0x01, 0x10, .octets 128 128, [3, 3, 3, 1], 0x0, .c, .y, none, none⟩,
  ⟨0x4200, 1, 0x11, 0x20, .octets 12 12, [3, 3, 3, 1], 0xFFFFFFFFFFFFFFFFFFFFFFFF, .c, .y, none, none⟩,
  ⟨0x4200, 1, 0x21, 0x30, .u 4, [3, 3, 3, 1], 0x100, .c, .y, none, (some 0xFF03)⟩,
  ⟨0x4200, 1, 0x31, 0x40, .u 4, [3, 3, 3, 1], 0x0, .c, .y, none, none⟩,
  ⟨0x4300, 1, 0x00, 0x00, .u 1, [1, 1, 1, 1], 0x49, .n, .i, none, none⟩,
  ⟨0x4300, 1, 0x01, 0x01, .i 2, [3, 3, 3, 1], 0x0, .c, .y, (some (-720, 840)), none⟩,
  ⟨0x4300, 1, 0x02, 0x02, .time, [3, 3, 3, 1], 0x0, .c, .y, none, none⟩,
  ⟨0x4300, 1, 0x03, 0x03, .time, [3, 3, 3, 1], 0x0, .c, .y, none, none⟩,
  ⟨0x4300, 1, 0x04, 0x04, .u 1, [3, 3, 3, 1], 0x0, .c, .y, (some (0, 120)), none⟩,
  ⟨0x4300, 1, 0x05, 0x05, .u 2, [3, 3, 3, 1], 0x7EE, .c, .y, (some (2000, 2999)), none⟩,
  ⟨0x4300, 1, 0x06, 0x06, .octets 366 366, [3, 3, 3, 1], 0x0, .c, .y, none, none⟩,
  ⟨0x4300, 1, 0x07, 0x07, .u 4, [3, 3, 3, 1], 0x0, .c, .y, none, (some 0x7FF07FF)⟩,
  ⟨0x4300, 1, 0x08, 0x08, .u 1, [3, 3, 3, 1], 0x60, .c, .y, none, (some 0x7F)⟩,
  ⟨0x4300, 1, 0x09, 0x09, .u 4, [1, 1, 1, 1], 0x0, .n, .i, none, none⟩,
  ⟨0x4300, 1, 0x0A, 0x49, .octets 16 16, [3, 3, 3, 1], 0x0, .c, .y, none, none⟩,
  ⟨0x2050, 1, 0x00, 0x00, .u 1, [1, 1, 1, 1], 0xD, .n, .i, none, none⟩,
  ⟨0x2050, 1, 0x01, 0x01, .bool, [3, 3, 3, 1], 0x0, .c, .i, none, none⟩,
  ⟨0x2050, 1, 0x02, 0x02, .u 2, [3, 3, 3, 1], 0x100, .c, .s, (some (1, 256)), none⟩,
  ⟨0x2050, 1, 0x03, 0x03, .u 2, [3, 3, 3, 1], 0x14, .c, .i, (some (10, 1000)), none⟩,
  ⟨0x2050, 1, 0x04, 0x04, .u 1, [3, 3, 3, 1], 0x32, .c, .i, (some (10, 200)), none⟩,
  ⟨0x2050, 1, 0x05, 0x05, .u 1, [3, 3, 3, 1], 0x14, .c, .i, (some (5, 200)), none⟩,
  ⟨0x2050, 1, 0x06, 0x06, .u 1, [3, 3, 3, 1], 0x2, .c, .i, (some (0, 7)), none⟩,
  ⟨0x2050, 1, 0x07, 0x07, .u 1, [3, 3, 3, 1], 0x8, .c, .i, (some (1, 32)), none⟩,
  ⟨0x2050, 1, 0x08, 0x08, .u 2, [3, 3, 3, 1], 0x64, .c, .i, (some (100, 60000)), none⟩,
  ⟨0x2050, 1, 0x09, 0x09, .octets 32 32, [1, 1, 1, 1], 0x0, .n, .i, none, none⟩,
  ⟨0x2050, 1, 0x0A, 0x0A, .octets 32 32, [1, 1, 1, 1], 0x0, .n, .i, none, none⟩,
  ⟨0x2050, 1, 0x0B, 0x0B, .octets 32 32, [1, 1, 3, 1], 0x0, .j, .i, none, none⟩,
  ⟨0x2050, 1, 0x0C, 0x0C, .octets 32 32, [1, 1, 1, 1], 0x0, .j, .i, none, none⟩,
  ⟨0x2050, 1, 0x0D, 0x0D, .u 4, [1, 1, 1, 1], 0x0, .n, .i, none, none⟩]

/-- Rows of the object cards, in the order of the index map (R47). -/
def cards8 : List Card := [
  ⟨0x8200, 1, 0x00, 0x00, .u 1, [1, 1, 1, 1], 0xF5, .n, .i, none, none⟩,
  ⟨0x8200, 1, 0x01, 0x01, .octets 16 16, [0, 0, 2, 0], 0x0, .n, .i, none, none⟩,
  ⟨0x8200, 1, 0x02, 0xF1, .octets 16 16, [0, 0, 2, 0], 0x0, .n, .i, none, none⟩,
  ⟨0x8200, 1, 0xF2, 0xF2, .octets 32 32, [2, 2, 2, 0], 0x0, .n, .i, none, none⟩,
  ⟨0x8200, 1, 0xF3, 0xF3, .octets 31 31, [1, 1, 1, 1], 0x0, .n, .i, none, none⟩,
  ⟨0x8200, 1, 0xF4, 0xF4, .u 4, [1, 1, 1, 1], 0x0, .n, .i, none, none⟩,
  ⟨0x8200, 1, 0xF5, 0xF5, .u 4, [1, 1, 1, 1], 0x0, .n, .i, none, none⟩,
  ⟨0x4100, 240, 0x00, 0x00, .u 1, [1, 1, 1, 1], 0x14, .n, .i, none, none⟩,
  ⟨0x4100, 240, 0x01, 0x01, .u 1, [3, 3, 3, 1], 0x0, .c, .y, (some (0, 1)), none⟩,
  ⟨0x4100, 240, 0x02, 0x02, .u 1, [3, 3, 3, 1], 0x0, .c, .y, (some (0, 15)), none⟩,
  ⟨0x4100, 240, 0x03, 0x03, .u 1, [3, 3, 3, 1], 0xFF, .c, .y, (some (0, 15)), none⟩,
  ⟨0x4100, 240, 0x04, 0x04, .time, [3, 3, 3, 1], 0x0, .c, .y, none, none⟩,
  ⟨0x4100, 240, 0x05, 0x05, .u 4, [3, 3, 3, 1], 0x0, .c, .y, none, (some 0x3F)⟩,
  ⟨0x4100, 240, 0x06, 0x06, .i 8, [3, 3, 3, 1], 0x4C4B40, .c, .y, (some (0, 1000000000000000)), none⟩,
  ⟨0x4100, 240, 0x07, 0x07, .i 8, [3, 3, 3, 1], 0x0, .c, .y, (some (0, 1000000000000000)), none⟩,
  ⟨0x4100, 240, 0x08, 0x08, .i 8, [3, 3, 3, 1], 0x0, .c, .y, (some (0, 1000000000000000)), none⟩,
  ⟨0x4100, 240, 0x09, 0x09, .i 8, [3, 3, 3, 1], 0x0, .c, .y, (some (0, 1000000000000000)), none⟩,
  ⟨0x4100, 240, 0x0A, 0x0A, .u 2, [3, 3, 3, 1], 0x0, .c, .y, none, (some 0x7FF)⟩,
  ⟨0x4100, 240, 0x0B, 0x0B, .bool, [3, 3, 3, 1], 0x0, .c, .i, none, none⟩,
  ⟨0x4100, 240, 0x0C, 0x0C, .i 8, [1, 1, 3, 1], 0x0, .j, .i, none, none⟩,
  ⟨0x4100, 240, 0x0D, 0x0D, .u 4, [1, 1, 1, 1], 0x0, .n, .i, none, none⟩,
  ⟨0x4100, 240, 0x0E, 0x0E, .u 12, [1, 1, 1, 1], 0x0, .j, .i, none, none⟩,
  ⟨0x4100, 240, 0x0F, 0x0F, .u 4, [1, 1, 1, 1], 0x0, .j, .i, none, none⟩,
  ⟨0x4100, 240, 0x10, 0x10, .octets 48 48, [2, 2, 2, 0], 0x0, .n, .i, none, none⟩,
  ⟨0x4100, 240, 0x11, 0x11, .octets 32 32, [1, 1, 1, 1], 0x0, .j, .i, none, none⟩,
  ⟨0x4100, 240, 0x12, 0x12, .bool, [2, 2, 2, 0], 0x0, .n, .i, none, none⟩,
  ⟨0x4100, 240, 0x13, 0x13, .bool, [2, 2, 2, 0], 0x0, .n, .i, none, none⟩,
  ⟨0x4100, 240, 0x14, 0x14, .u 4, [1, 1, 1, 1], 0x0, .n, .i, none, none⟩,
  ⟨0x3100, 256, 0x00, 0x00, .u 1, [1, 1, 1, 1], 0xE, .n, .i, none, none⟩,
  ⟨0x3100, 256, 0x01, 0x01, .f32, [3, 1, 3, 1], 0x3F800000, .k, .y, (some (1, 1000000000)), none⟩,
  ⟨0x3100, 256, 0x02, 0x06, .octets 32 32, [3, 1, 3, 1], 0x0, .k, .y, none, none⟩,
  ⟨0x3100, 256, 0x07, 0x07, .u 4, [1, 1, 1, 1], 0x0, .n, .i, none, none⟩,
  ⟨0x3100, 256, 0x08, 0x08, .u 8, [1, 1, 1, 1], 0x0, .n, .i, none, none⟩,
  ⟨0x3100, 256, 0x09, 0x09, .i 4, [1, 1, 1, 1], 0x0, .n, .i, none, none⟩,
  ⟨0x3100, 256, 0x0A, 0x0A, .i 4, [1, 1, 1, 1], 0x0, .n, .i, none, none⟩,
  ⟨0x3100, 256, 0x0B, 0x0B, .i 2, [1, 1, 1, 1], 0x0, .n, .i, none, none⟩,
  ⟨0x3100, 256, 0x0C, 0x0C, .i 4, [1, 1, 1, 1], 0x0, .j, .i, none, none⟩,
  ⟨0x3100, 256, 0x0D, 0x0D, .i 4, [1, 1, 1, 1], 0x0, .j, .i, none, none⟩,
  ⟨0x3100, 256, 0x0E, 0x0E, .u 4, [1, 1, 1, 3], 0x0, .c, .i, none, (some 0xBFFF0FFF)⟩,
  ⟨0x9000, 1, 0x00, 0x00, .u 1, [1, 1, 1, 1], 0x18, .n, .i, none, none⟩]

/-- Rows of the object cards, in the order of the index map (R47). -/
def cards9 : List Card := [
  ⟨0x9000, 1, 0x01, 0x01, .u 1, [2, 0, 2, 0], 0x0, .n, .i, (some (1, 5)), none⟩,
  ⟨0x9000, 1, 0x02, 0x02, .octets 32 32, [3, 0, 3, 1], 0x0, .n, .s, none, none⟩,
  ⟨0x9000, 1, 0x03, 0x03, .u 2, [3, 0, 3, 1], 0x77, .n, .s, none, (some 0x77)⟩,
  ⟨0x9000, 1, 0x04, 0x04, .f32, [3, 0, 3, 1], 0x43660000, .n, .s, (some (0, 1000000000)), none⟩,
  ⟨0x9000, 1, 0x05, 0x05, .f32, [3, 0, 3, 1], 0x40A00000, .n, .s, (some (0, 1000000000)), none⟩,
  ⟨0x9000, 1, 0x06, 0x06, .i 4, [3, 0, 3, 1], 0x0, .n, .s, (some (-90000, 90000)), none⟩,
  ⟨0x9000, 1, 0x07, 0x07, .f32, [3, 0, 3, 1], 0x42480000, .n, .s, (some (42500, 69000)), none⟩,
  ⟨0x9000, 1, 0x08, 0x08, .u 2, [3, 0, 3, 1], 0xA, .c, .s, (some (4, 200)), none⟩,
  ⟨0x9000, 1, 0x09, 0x09, .u 2, [3, 0, 3, 1], 0xA, .c, .s, (some (2, 200)), none⟩,
  ⟨0x9000, 1, 0x0A, 0x0A, .u 4, [3, 0, 3, 1], 0x2710, .c, .s, (some (1000, 600000)), none⟩,
  ⟨0x9000, 1, 0x0B, 0x0B, .u 2, [3, 0, 3, 1], 0x14, .c, .s, (some (5, 1000)), none⟩,
  ⟨0x9000, 1, 0x0C, 0x0C, .u 4, [3, 0, 3, 1], 0x3E8, .c, .s, (some (250, 100000)), none⟩,
  ⟨0x9000, 1, 0x0D, 0x0D, .u 2, [3, 0, 3, 1], 0x2, .c, .s, (some (1, 100)), none⟩,
  ⟨0x9000, 1, 0x0E, 0x0E, .u 4, [1, 1, 1, 1], 0x0, .n, .i, none, none⟩,
  ⟨0x9000, 1, 0x0F, 0x0F, .octets 32 32, [1, 1, 1, 1], 0x0, .n, .i, none, none⟩,
  ⟨0x9000, 1, 0x10, 0x10, .octets 32 32, [1, 1, 1, 1], 0x0, .n, .i, none, none⟩,
  ⟨0x9000, 1, 0x11, 0x11, .i 4, [1, 1, 1, 1], 0x0, .n, .i, none, none⟩,
  ⟨0x9000, 1, 0x12, 0x12, .i 4, [1, 1, 1, 1], 0x0, .n, .i, none, none⟩,
  ⟨0x9000, 1, 0x13, 0x13, .u 2, [3, 3, 3, 1], 0xFA, .c, .i, (some (50, 2000)), none⟩,
  ⟨0x9000, 1, 0x14, 0x14, .u 2, [3, 3, 3, 1], 0xBB8, .c, .i, (some (500, 20000)), none⟩,
  ⟨0x9000, 1, 0x15, 0x15, .u 2, [3, 3, 3, 1], 0x18, .c, .i, (some (0, 720)), none⟩,
  ⟨0x9000, 1, 0x16, 0x16, .i 4, [1, 1, 1, 1], 0x0, .j, .i, none, none⟩,
  ⟨0x9000, 1, 0x17, 0x17, .time, [1, 1, 1, 1], 0x0, .j, .i, none, none⟩,
  ⟨0x9000, 1, 0x18, 0x18, .u 4, [1, 1, 1, 1], 0x0, .j, .i, none, none⟩,
  ⟨0xC000, 1, 0x00, 0x00, .u 1, [1, 1, 1, 1], 0x3F, .n, .i, none, none⟩,
  ⟨0xC000, 1, 0x01, 0x01, .u 4, [1, 1, 1, 1], 0x0, .n, .i, none, none⟩,
  ⟨0xC000, 1, 0x02, 0x11, .u 4, [1, 1, 1, 1], 0x0, .n, .i, none, none⟩,
  ⟨0xC000, 1, 0x12, 0x12, .octets 64 64, [1, 1, 1, 1], 0x10, .n, .i, none, none⟩,
  ⟨0xC000, 1, 0x13, 0x13, .u 4, [1, 1, 1, 1], 0x0, .n, .i, none, none⟩,
  ⟨0xC000, 1, 0x14, 0x14, .octets 16 16, [1, 1, 1, 1], 0x0, .n, .i, none, none⟩,
  ⟨0xC000, 1, 0x15, 0x15, .u 2, [3, 3, 3, 1], 0x3C, .c, .i, (some (10, 3600)), none⟩,
  ⟨0xC000, 1, 0x16, 0x16, .u 1, [3, 3, 3, 1], 0x4, .c, .i, (some (1, 64)), none⟩,
  ⟨0xC000, 1, 0x17, 0x17, .u 4, [3, 3, 3, 1], 0xFFFF, .c, .b, none, (some 0xFFFFF)⟩,
  ⟨0xC000, 1, 0x18, 0x18, .u 2, [3, 3, 3, 1], 0x18, .c, .i, (some (0, 720)), none⟩,
  ⟨0xC000, 1, 0x19, 0x19, .u 2, [3, 3, 3, 1], 0x64, .c, .i, (some (20, 10000)), none⟩,
  ⟨0xC000, 1, 0x1A, 0x1A, .u 4, [2, 0, 2, 0], 0x0, .n, .i, none, (some 0x1FFFFF)⟩,
  ⟨0xC000, 1, 0x1B, 0x1B, .u 4, [1, 1, 1, 1], 0x0, .n, .i, none, none⟩,
  ⟨0xC000, 1, 0x1C, 0x1C, .octets 512 512, [1, 1, 3, 3], 0x0, .c, .b, none, none⟩,
  ⟨0xC000, 1, 0x1D, 0x1D, .u 4, [1, 1, 1, 1], 0x0, .n, .i, none, none⟩,
  ⟨0xC000, 1, 0x1E, 0x1E, .octets 16 16, [1, 1, 1, 1], 0x0, .n, .i, none, none⟩]

/-- Rows of the object cards, in the order of the index map (R47). -/
def cards10 : List Card := [
  ⟨0xC000, 1, 0x1F, 0x1F, .u 4, [1, 1, 1, 1], 0x0, .n, .i, none, none⟩,
  ⟨0xC000, 1, 0x20, 0x20, .u 4, [1, 1, 1, 1], 0x0, .n, .i, none, none⟩,
  ⟨0xC000, 1, 0x21, 0x21, .u 2, [3, 3, 3, 1], 0x3C, .c, .i, (some (1, 3600)), none⟩,
  ⟨0xC000, 1, 0x22, 0x22, .bool, [2, 2, 2, 0], 0x0, .n, .i, none, none⟩,
  ⟨0xC000, 1, 0x23, 0x23, .time, [1, 1, 1, 1], 0x0, .n, .i, none, none⟩,
  ⟨0xC000, 1, 0x24, 0x24, .u 4, [1, 1, 1, 1], 0x0, .n, .i, none, none⟩,
  ⟨0xC000, 1, 0x25, 0x25, .u 2, [1, 1, 1, 1], 0x0, .n, .i, none, none⟩,
  ⟨0xC000, 1, 0x26, 0x26, .u 4, [1, 1, 1, 1], 0x0, .n, .i, none, none⟩,
  ⟨0xC000, 1, 0x27, 0x27, .u 2, [3, 3, 3, 1], 0xA8, .c, .i, (some (24, 8760)), none⟩,
  ⟨0xC000, 1, 0x28, 0x28, .u 4, [1, 1, 1, 1], 0x0, .j, .i, none, none⟩,
  ⟨0xC000, 1, 0x29, 0x29, .u 1, [3, 3, 3, 1], 0xF, .c, .i, (some (1, 30)), none⟩,
  ⟨0xC000, 1, 0x2A, 0x2A, .u 4, [1, 1, 1, 1], 0x0, .n, .i, none, none⟩,
  ⟨0xC000, 1, 0x2B, 0x2B, .octets 32 32, [1, 1, 1, 1], 0x0, .n, .i, none, none⟩,
  ⟨0xC000, 1, 0x2C, 0x2C, .octets 512 512, [1, 1, 1, 1], 0x40, .n, .i, none, none⟩,
  ⟨0xC000, 1, 0x2D, 0x2D, .u 1, [2, 2, 2, 0], 0x0, .n, .i, (some (16, 63)), none⟩,
  ⟨0xC000, 1, 0x2E, 0x2E, .u 2, [1, 1, 1, 1], 0x0, .n, .i, none, none⟩,
  ⟨0xC000, 1, 0x2F, 0x2F, .octets 16 16, [1, 1, 1, 1], 0x0, .n, .i, none, none⟩,
  ⟨0xC000, 1, 0x30, 0x37, .u 4, [1, 1, 1, 1], 0x0, .n, .i, none, none⟩,
  ⟨0xC000, 1, 0x38, 0x3F, .u 8, [1, 1, 1, 1], 0x0, .j, .i, none, none⟩,
  ⟨0xE000, 1, 0x00, 0x00, .u 1, [1, 1, 1, 1], 0xD, .n, .i, none, none⟩,
  ⟨0xE000, 1, 0x01, 0x01, .u 4, [1, 1, 1, 1], 0x0, .n, .i, none, none⟩,
  ⟨0xE000, 1, 0x02, 0x02, .u 1, [2, 0, 2, 0], 0x0, .n, .i, (some (1, 5)), none⟩,
  ⟨0xE000, 1, 0x03, 0x03, .u 1, [3, 3, 3, 1], 0x0, .c, .i, (some (0, 2)), none⟩,
  ⟨0xE000, 1, 0x04, 0x04, .u 2, [3, 3, 3, 1], 0xC8, .c, .i, (some (0, 2000)), none⟩,
  ⟨0xE000, 1, 0x05, 0x05, .u 2, [3, 3, 3, 1], 0x64, .c, .i, (some (10, 10000)), none⟩,
  ⟨0xE000, 1, 0x06, 0x06, .u 2, [3, 3, 3, 1], 0xBB8, .c, .i, (some (2800, 8000)), none⟩,
  ⟨0xE000, 1, 0x07, 0x07, .u 2, [3, 3, 3, 1], 0x960, .c, .i, (some (2000, 3300)), none⟩,
  ⟨0xE000, 1, 0x08, 0x08, .i 4, [3, 3, 3, 1], 0x19A28, .c, .i, (some (85000, 110000)), none⟩,
  ⟨0xE000, 1, 0x09, 0x09, .u 2, [3, 3, 3, 1], 0x1388, .c, .i, (some (1000, 20000)), none⟩,
  ⟨0xE000, 1, 0x0A, 0x0A, .u 2, [1, 1, 1, 1], 0x0, .n, .i, none, none⟩,
  ⟨0xE000, 1, 0x0B, 0x0B, .octets 32 32, [1, 1, 1, 1], 0x0, .j, .i, none, none⟩,
  ⟨0xE000, 1, 0x0C, 0x0C, .u 4, [1, 1, 1, 1], 0x0, .n, .i, none, none⟩,
  ⟨0xE000, 1, 0x0D, 0x0D, .u 2, [1, 1, 1, 1], 0x0, .j, .i, none, none⟩,
  ⟨0x8000, 1, 0x00, 0x00, .u 1, [1, 1, 1, 1], 0x30, .n, .i, none, none⟩,
  ⟨0x8000, 1, 0x01, 0x01, .u 4, [1, 1, 1, 1], 0x0, .n, .i, none, none⟩,
  ⟨0x8000, 1, 0x02, 0x09, .u 4, [1, 3, 3, 1], 0x30000, .c, .i, none, (some 0xFF0F1E)⟩,
  ⟨0x8000, 1, 0x0A, 0x0A, .u 1, [1, 3, 3, 1], 0x0, .c, .i, none, none⟩,
  ⟨0x8000, 1, 0x0B, 0x0B, .u 1, [1, 3, 3, 1], 0x8, .c, .i, (some (2, 64)), none⟩,
  ⟨0x8000, 1, 0x0C, 0x0C, .u 2, [1, 3, 3, 1], 0x8007, .c, .i, none, (some 0xC11F)⟩,
  ⟨0x8000, 1, 0x0D, 0x0D, .u 2, [1, 3, 3, 1], 0x8007, .c, .i, none, (some 0xC11F)⟩]

/-- Rows of the object cards, in the order of the index map (R47). -/
def cards11 : List Card := [
  ⟨0x8000, 1, 0x0E, 0x0E, .u 2, [1, 3, 3, 1], 0x8007, .c, .i, none, (some 0xC11F)⟩,
  ⟨0x8000, 1, 0x0F, 0x0F, .u 2, [1, 3, 3, 1], 0x8007, .c, .i, none, (some 0xC11F)⟩,
  ⟨0x8000, 1, 0x10, 0x10, .u 2, [1, 3, 3, 1], 0x8007, .c, .i, none, (some 0xC11F)⟩,
  ⟨0x8000, 1, 0x11, 0x11, .u 2, [1, 3, 3, 1], 0x8007, .c, .i, none, (some 0xC11F)⟩,
  ⟨0x8000, 1, 0x12, 0x12, .u 2, [1, 3, 3, 1], 0x8007, .c, .i, none, (some 0xC11F)⟩,
  ⟨0x8000, 1, 0x13, 0x13, .u 2, [1, 3, 3, 1], 0x8007, .c, .i, none, (some 0xC11F)⟩,
  ⟨0x8000, 1, 0x14, 0x14, .u 2, [1, 3, 3, 1], 0x8007, .c, .i, none, (some 0xC11F)⟩,
  ⟨0x8000, 1, 0x15, 0x15, .u 2, [1, 3, 3, 1], 0x8007, .c, .i, none, (some 0xC11F)⟩,
  ⟨0x8000, 1, 0x16, 0x16, .u 2, [1, 3, 3, 1], 0x8007, .c, .i, none, (some 0xC11F)⟩,
  ⟨0x8000, 1, 0x17, 0x17, .u 2, [1, 3, 3, 1], 0x8007, .c, .i, none, (some 0xC11F)⟩,
  ⟨0x8000, 1, 0x18, 0x18, .u 2, [1, 3, 3, 1], 0x8007, .c, .i, none, (some 0xC11F)⟩,
  ⟨0x8000, 1, 0x19, 0x19, .u 2, [1, 3, 3, 1], 0x8007, .c, .i, none, (some 0xC11F)⟩,
  ⟨0x8000, 1, 0x1A, 0x1A, .u 2, [1, 3, 3, 1], 0x8007, .c, .i, none, (some 0xC11F)⟩,
  ⟨0x8000, 1, 0x1B, 0x1B, .u 2, [1, 3, 3, 1], 0x4001, .c, .i, none, (some 0xC11F)⟩,
  ⟨0x8000, 1, 0x1C, 0x1C, .u 2, [1, 3, 3, 1], 0x4001, .c, .i, none, (some 0xC11F)⟩,
  ⟨0x8000, 1, 0x1D, 0x1D, .u 2, [1, 3, 3, 1], 0x8007, .c, .i, none, (some 0xC11F)⟩,
  ⟨0x8000, 1, 0x1E, 0x1E, .octets 30 30, [1, 3, 3, 1], 0x0, .c, .i, none, none⟩,
  ⟨0x8000, 1, 0x1F, 0x1F, .u 1, [1, 3, 3, 1], 0x4, .c, .i, (some (2, 16)), none⟩,
  ⟨0x8000, 1, 0x20, 0x20, .u 2, [1, 3, 3, 1], 0x3E8, .c, .i, (some (100, 10000)), none⟩,
  ⟨0x8000, 1, 0x21, 0x21, .u 1, [1, 3, 3, 1], 0x10, .c, .i, (some (2, 255)), none⟩,
  ⟨0x8000, 1, 0x22, 0x22, .u 1, [1, 3, 3, 1], 0x4, .c, .i, (some (1, 16)), none⟩,
  ⟨0x8000, 1, 0x23, 0x23, .u 2, [1, 3, 3, 1], 0x3E8, .c, .i, (some (100, 10000)), none⟩,
  ⟨0x8000, 1, 0x24, 0x24, .i 4, [1, 3, 3, 1], 0xFFFF3CB0, .c, .i, (some (-60000, -30000)), none⟩,
  ⟨0x8000, 1, 0x25, 0x25, .i 4, [1, 3, 3, 1], 0x1D4C0, .c, .i, (some (100000, 150000)), none⟩,
  ⟨0x8000, 1, 0x26, 0x26, .u 4, [1, 3, 3, 1], 0x258, .c, .i, (some (10, 86400)), none⟩,
  ⟨0x8000, 1, 0x27, 0x27, .time, [1, 3, 3, 1], 0x0, .n, .i, none, none⟩,
  ⟨0x8000, 1, 0x28, 0x28, .bool, [2, 2, 2, 0], 0x0, .n, .i, none, none⟩,
  ⟨0x8000, 1, 0x29, 0x29, .u 2, [2, 2, 0, 0], 0x0, .n, .i, (some (0, 239)), none⟩,
  ⟨0x8000, 1, 0x2A, 0x2A, .octets 16 16, [1, 1, 1, 1], 0x4, .j, .i, none, none⟩,
  ⟨0x8000, 1, 0x2B, 0x2B, .octets 8 8, [1, 1, 1, 1], 0x2, .j, .i, none, none⟩,
  ⟨0x8000, 1, 0x2C, 0x2C, .u 4, [1, 1, 1, 1], 0x0, .j, .i, none, none⟩,
  ⟨0x8000, 1, 0x2D, 0x2D, .u 4, [1, 1, 1, 1], 0x0, .n, .i, none, none⟩,
  ⟨0x8000, 1, 0x2E, 0x2E, .u 4, [1, 1, 1, 1], 0x0, .n, .i, none, none⟩,
  ⟨0x8000, 1, 0x2F, 0x2F, .u 4, [1, 1, 1, 1], 0x0, .n, .i, none, none⟩,
  ⟨0x8000, 1, 0x30, 0x30, .octets 32 32, [1, 1, 1, 1], 0x0, .n, .i, none, none⟩,
  ⟨0x8100, 1, 0x00, 0x00, .u 1, [1, 1, 1, 1], 0x6, .n, .i, none, none⟩,
  ⟨0x8100, 1, 0x01, 0x01, .u 1, [1, 1, 1, 1], 0x0, .n, .i, none, none⟩,
  ⟨0x8100, 1, 0x02, 0x02, .octets 32 32, [0, 0, 2, 0], 0x0, .n, .i, none, none⟩,
  ⟨0x8100, 1, 0x03, 0x03, .u 4, [1, 1, 1, 1], 0x0, .n, .i, none, none⟩,
  ⟨0x8100, 1, 0x04, 0x04, .octets 16 16, [0, 0, 2, 0], 0x0, .n, .i, none, none⟩]

/-- Rows of the object cards, in the order of the index map (R47). -/
def cards12 : List Card := [
  ⟨0x8100, 1, 0x05, 0x05, .u 4, [1, 1, 1, 1], 0x0, .n, .i, none, none⟩,
  ⟨0x8100, 1, 0x06, 0x06, .octets 30 30, [1, 1, 1, 1], 0x5, .c, .i, none, none⟩,
  ⟨0xA000, 1, 0x00, 0x00, .u 1, [1, 1, 1, 1], 0x22, .n, .i, none, none⟩,
  ⟨0xA000, 1, 0x01, 0x01, .u 4, [3, 3, 3, 1], 0x42, .c, .i, none, (some 0xE3)⟩,
  ⟨0xA000, 1, 0x02, 0x02, .octets 11 11, [3, 3, 3, 1], 0x0, .n, .i, none, none⟩,
  ⟨0xA000, 1, 0x03, 0x03, .u 1, [2, 2, 2, 0], 0x0, .n, .i, (some (1, 3)), none⟩,
  ⟨0xA000, 1, 0x04, 0x04, .u 4, [1, 1, 1, 1], 0x0, .n, .i, none, none⟩,
  ⟨0xA000, 1, 0x05, 0x05, .octets 12 12, [1, 1, 1, 1], 0x0, .n, .i, none, none⟩,
  ⟨0xA000, 1, 0x06, 0x0D, .octets 36 36, [1, 1, 3, 1], 0x0, .c, .f, none, none⟩,
  ⟨0xA000, 1, 0x0E, 0x0E, .octets 64 64, [1, 1, 1, 1], 0x8, .n, .i, none, none⟩,
  ⟨0xA000, 1, 0x0F, 0x0F, .i 4, [1, 1, 3, 1], 0xFFFF9E58, .c, .i, none, none⟩,
  ⟨0xA000, 1, 0x10, 0x10, .i 4, [1, 1, 3, 1], 0xFFFFD8F0, .c, .i, none, none⟩,
  ⟨0xA000, 1, 0x11, 0x11, .i 4, [1, 1, 3, 1], 0x0, .c, .i, none, none⟩,
  ⟨0xA000, 1, 0x12, 0x12, .i 4, [1, 1, 3, 1], 0x2710, .c, .i, none, none⟩,
  ⟨0xA000, 1, 0x13, 0x13, .i 4, [1, 1, 3, 1], 0x4E20, .c, .i, none, none⟩,
  ⟨0xA000, 1, 0x14, 0x14, .i 4, [1, 1, 3, 1], 0x88B8, .c, .i, none, none⟩,
  ⟨0xA000, 1, 0x15, 0x15, .i 4, [1, 1, 3, 1], 0xC350, .c, .i, none, none⟩,
  ⟨0xA000, 1, 0x16, 0x16, .u 2, [1, 1, 3, 1], 0x3E8, .c, .i, (some (0, 5000)), none⟩,
  ⟨0xA000, 1, 0x17, 0x17, .u 2, [1, 1, 3, 1], 0x190, .c, .i, (some (20, 30000)), none⟩,
  ⟨0xA000, 1, 0x18, 0x18, .u 1, [1, 1, 3, 1], 0xA, .c, .i, (some (1, 20)), none⟩,
  ⟨0xA000, 1, 0x19, 0x19, .u 1, [1, 1, 3, 1], 0x10, .c, .i, (some (1, 64)), none⟩,
  ⟨0xA000, 1, 0x1A, 0x1A, .u 2, [1, 1, 3, 1], 0x3E8, .c, .i, (some (100, 60000)), none⟩,
  ⟨0xA000, 1, 0x1B, 0x1B, .octets 384 384, [1, 1, 1, 1], 0x60, .j, .i, none, none⟩,
  ⟨0xA000, 1, 0x1C, 0x1C, .u 2, [3, 3, 3, 1], 0x64, .c, .i, (some (0, 10000)), none⟩,
  ⟨0xA000, 1, 0x1D, 0x1D, .u 2, [1, 1, 3, 1], 0x64, .c, .i, (some (10, 1000)), none⟩,
  ⟨0xA000, 1, 0x1E, 0x1E, .u 1, [1, 1, 3, 1], 0x2, .c, .i, (some (1, 8)), none⟩,
  ⟨0xA000, 1, 0x1F, 0x1F, .u 1, [3, 3, 3, 1], 0x0, .c, .i, none, (some 0x3F)⟩,
  ⟨0xA000, 1, 0x20, 0x20, .bool, [2, 2, 2, 0], 0x0, .n, .i, none, none⟩,
  ⟨0xA000, 1, 0x21, 0x21, .i 4, [1, 1, 1, 1], 0x0, .n, .i, none, none⟩,
  ⟨0xA000, 1, 0x22, 0x22, .u 4, [1, 1, 1, 1], 0x0, .j, .i, none, none⟩,
  ⟨0x2000, 1, 0x00, 0x00, .u 1, [1, 1, 1, 1], 0x4, .n, .i, none, none⟩,
  ⟨0x2000, 1, 0x01, 0x01, .u 4, [1, 1, 1, 1], 0x0, .n, .i, none, none⟩,
  ⟨0x2000, 1, 0x02, 0x02, .u 4, [1, 1, 1, 1], 0x0, .n, .i, none, none⟩,
  ⟨0x2000, 1, 0x03, 0x03, .u 4, [1, 1, 1, 1], 0x0, .n, .i, none, none⟩,
  ⟨0x2000, 1, 0x04, 0x04, .u 4, [1, 1, 1, 1], 0x0, .n, .i, none, none⟩,
  ⟨0x2010, 1, 0x00, 0x00, .u 1, [1, 1, 1, 1], 0xC, .n, .i, none, none⟩,
  ⟨0x2010, 1, 0x01, 0x01, .bool, [3, 3, 3, 1], 0x1, .c, .f, none, none⟩,
  ⟨0x2010, 1, 0x02, 0x02, .u 1, [3, 3, 3, 1], 0xF7, .c, .f, (some (1, 247)), none⟩,
  ⟨0x2010, 1, 0x03, 0x03, .u 4, [3, 3, 3, 1], 0x1C200, .c, .f, (some (9600, 12000000)), none⟩,
  ⟨0x2010, 1, 0x04, 0x04, .u 2, [3, 3, 3, 1], 0x64, .c, .i, (some (0, 10000)), none⟩]

/-- Rows of the object cards, in the order of the index map (R47). -/
def cards13 : List Card := [
  ⟨0x2010, 1, 0x05, 0x05, .u 2, [3, 3, 3, 1], 0x14, .c, .i, (some (2, 1000)), none⟩,
  ⟨0x2010, 1, 0x06, 0x06, .bool, [3, 3, 3, 1], 0x1, .c, .i, none, none⟩,
  ⟨0x2010, 1, 0x07, 0x07, .u 2, [3, 3, 3, 1], 0x1F4, .c, .i, (some (0, 10000)), none⟩,
  ⟨0x2010, 1, 0x08, 0x08, .octets 12 12, [1, 1, 1, 1], 0x0, .n, .i, none, none⟩,
  ⟨0x2010, 1, 0x09, 0x09, .u 4, [1, 1, 1, 1], 0x0, .n, .i, none, none⟩,
  ⟨0x2010, 1, 0x0A, 0x0A, .u 4, [1, 1, 1, 1], 0x0, .n, .i, none, none⟩,
  ⟨0x2010, 1, 0x0B, 0x0B, .u 4, [1, 1, 1, 1], 0x0, .n, .i, none, none⟩,
  ⟨0x2010, 1, 0x0C, 0x0C, .u 4, [1, 1, 1, 1], 0x0, .n, .i, none, none⟩,
  ⟨0x2020, 1, 0x00, 0x00, .u 1, [1, 1, 1, 1], 0x6, .n, .i, none, none⟩,
  ⟨0x2020, 1, 0x01, 0x01, .bool, [3, 3, 3, 1], 0x1, .c, .f, none, none⟩,
  ⟨0x2020, 1, 0x02, 0x02, .u 4, [3, 3, 3, 1], 0x1C200, .c, .f, (some (115200, 3000000)), none⟩,
  ⟨0x2020, 1, 0x03, 0x03, .u 4, [1, 1, 1, 1], 0x0, .n, .i, none, none⟩,
  ⟨0x2020, 1, 0x04, 0x04, .u 4, [1, 1, 1, 1], 0x0, .n, .i, none, none⟩,
  ⟨0x2020, 1, 0x05, 0x05, .u 4, [1, 1, 1, 1], 0x0, .n, .i, none, none⟩,
  ⟨0x2020, 1, 0x06, 0x06, .u 4, [1, 1, 1, 1], 0x0, .n, .i, none, none⟩,
  ⟨0x2030, 1, 0x00, 0x00, .u 1, [1, 1, 1, 1], 0xC, .n, .i, none, none⟩,
  ⟨0x2030, 1, 0x01, 0x01, .bool, [3, 3, 3, 1], 0x0, .c, .i, none, none⟩,
  ⟨0x2030, 1, 0x02, 0x02, .u 1, [3, 3, 3, 1], 0x1, .c, .i, (some (0, 2)), none⟩,
  ⟨0x2030, 1, 0x03, 0x03, .u 2, [3, 3, 3, 1], 0x3E8, .c, .i, (some (100, 60000)), none⟩,
  ⟨0x2030, 1, 0x04, 0x07, .u 8, [3, 3, 3, 1], 0x80100, .c, .i, none, (some 0xFFFF000FFFFF)⟩,
  ⟨0x2030, 1, 0x08, 0x0B, .i 4, [1, 1, 1, 1], 0x0, .n, .i, none, none⟩,
  ⟨0x2030, 1, 0x0C, 0x0C, .u 4, [1, 1, 1, 1], 0x0, .n, .i, none, none⟩,
  ⟨0x2100, 1, 0x00, 0x00, .u 1, [1, 1, 1, 1], 0xF, .n, .i, none, none⟩,
  ⟨0x2100, 1, 0x01, 0x01, .u 8, [3, 1, 1, 1], 0x0, .n, .i, none, none⟩,
  ⟨0x2100, 1, 0x02, 0x02, .u 8, [3, 3, 3, 1], 0xFFFFFFFFFFFFFFFF, .c, .i, none, none⟩,
  ⟨0x2100, 1, 0x03, 0x03, .u 8, [3, 3, 3, 1], 0xFFFFFFFFFFFFFFFF, .c, .i, none, none⟩,
  ⟨0x2100, 1, 0x04, 0x04, .octets 256 256, [1, 1, 1, 1], 0x40, .n, .i, none, none⟩,
  ⟨0x2100, 1, 0x05, 0x05, .u 2, [3, 3, 3, 1], 0x111, .c, .i, none, (some 0x777)⟩,
  ⟨0x2100, 1, 0x06, 0x06, .u 1, [3, 3, 3, 1], 0x0, .c, .i, none, (some 0x3)⟩,
  ⟨0x2100, 1, 0x07, 0x0E, .u 4, [1, 1, 1, 1], 0x0, .n, .i, none, none⟩,
  ⟨0x2100, 1, 0x0F, 0x0F, .u 2, [1, 1, 1, 1], 0x0, .n, .i, none, none⟩,
  ⟨0xF000, 1, 0x00, 0x00, .u 1, [1, 1, 1, 1], 0x3, .n, .i, none, none⟩,
  ⟨0xF000, 1, 0x01, 0x01, .u 2, [1, 1, 3, 1], 0x3E8, .c, .b, (some (100, 10000)), none⟩,
  ⟨0xF000, 1, 0x02, 0x02, .u 1, [0, 0, 0, 2], 0x0, .n, .i, none, none⟩,
  ⟨0xF000, 1, 0x03, 0x03, .u 4, [1, 1, 1, 1], 0x0, .j, .i, none, none⟩,
  ⟨0xD000, 1, 0x00, 0x00, .u 1, [1, 1, 1, 1], 0xC, .n, .i, none, none⟩,
  ⟨0xD000, 1, 0x01, 0x01, .u 1, [1, 1, 1, 1], 0x0, .n, .i, none, none⟩,
  ⟨0xD000, 1, 0x02, 0x02, .u 1, [2, 2, 2, 0], 0x0, .n, .i, (some (1, 8)), none⟩,
  ⟨0xD000, 1, 0x03, 0x03, .octets 5 3844, [2, 2, 2, 0], 0x0, .n, .i, none, none⟩,
  ⟨0xD000, 1, 0x04, 0x04, .octets 384 384, [1, 1, 1, 1], 0x0, .n, .i, none, none⟩]

/-- Rows of the object cards, in the order of the index map (R47). -/
def cards14 : List Card := [
  ⟨0xD000, 1, 0x05, 0x05, .time, [3, 3, 3, 1], 0x0, .c, .i, none, none⟩,
  ⟨0xD000, 1, 0x06, 0x06, .u 2, [3, 3, 3, 1], 0x1E, .c, .i, (some (1, 1440)), none⟩,
  ⟨0xD000, 1, 0x07, 0x07, .bool, [2, 2, 2, 0], 0x0, .n, .i, none, none⟩,
  ⟨0xD000, 1, 0x08, 0x08, .u 4, [1, 1, 1, 1], 0x0, .n, .i, none, none⟩,
  ⟨0xD000, 1, 0x09, 0x09, .octets 256 256, [1, 1, 1, 1], 0x0, .n, .i, none, none⟩,
  ⟨0xD000, 1, 0x0A, 0x0A, .octets 32 32, [1, 1, 1, 1], 0x0, .c, .i, none, none⟩,
  ⟨0xD000, 1, 0x0B, 0x0B, .u 4, [1, 1, 1, 1], 0x0, .n, .i, none, none⟩,
  ⟨0xD000, 1, 0x0C, 0x0C, .u 4, [1, 1, 1, 1], 0x0, .n, .i, none, none⟩]

/-- Every object card row (R47). -/
def cards : List Card :=
  cards0 ++ cards1 ++ cards2 ++ cards3 ++ cards4 ++ cards5 ++ cards6 ++ cards7 ++ cards8 ++ cards9 ++ cards10 ++ cards11 ++ cards12 ++ cards13 ++ cards14

/-- Whether a row holds an index and subindex. -/
def Card.holds (c : Card) (index sub : Nat) : Bool :=
  decide (c.idx ≤ index) && decide (index < c.idx + c.n) && decide (c.sub0 ≤ sub) && decide (sub ≤ c.sub1)

/-- The card row of an index and subindex; none for an absent object (R25, R47). -/
def cardOf (index sub : Nat) : Option Card := cards.find? (fun c => c.holds index sub)

/-- The key of an object: index times 256 plus subindex. -/
def okey (index sub : Nat) : Nat := index * 256 + sub

/-- The Default of an object by key (R32). -/
def dfltOf (key : Nat) : Nat := ((cardOf (key / 256) (key % 256)).map Card.dflt).getD 0

/-! The objects by name; an argument is the resource number or the element. -/

abbrev oVendorId : Nat := 0x100001
abbrev oPartNumber : Nat := 0x100002
abbrev oFamilyId : Nat := 0x100003
abbrev oSiliconStep : Nat := 0x100004
abbrev oSerialNumber : Nat := 0x100005
abbrev oFirmwareVersion : Nat := 0x100006
abbrev oPatternSetVersion : Nat := 0x100007
abbrev oDictionaryVersion : Nat := 0x100008
abbrev oChannelCount : Nat := 0x100101
abbrev oSpareCount : Nat := 0x100102
abbrev oAccountCount : Nat := 0x100103
abbrev oEngineCount : Nat := 0x100104
abbrev oSramKib : Nat := 0x100105
abbrev oNvmKib : Nat := 0x100106
abbrev oProductString : Nat := 0x100200
abbrev oDeviceStatus : Nat := 0x110001
abbrev oResetCause : Nat := 0x110002
abbrev oConfigEpoch : Nat := 0x110003
abbrev oPendingCount : Nat := 0x110004
abbrev oUptimeS : Nat := 0x110005
abbrev oCastOnCount : Nat := 0x110006
abbrev oLifeCycleState : Nat := 0x110007
abbrev oTimeNow : Nat := 0x110101
abbrev oTimeLastSet : Nat := 0x110102
abbrev oCastOnTime : Nat := 0x110103
abbrev oLastPfdTime : Nat := 0x110104
abbrev oConfigHold : Nat := 0x110201
abbrev oHoldTimeoutS : Nat := 0x110202
abbrev oChEnable (r : Nat) : Nat := (0x3000 + r) * 256 + 0x01
abbrev oChKind (r : Nat) : Nat := (0x3000 + r) * 256 + 0x02
abbrev oChRange (r : Nat) : Nat := (0x3000 + r) * 256 + 0x03
abbrev oChPreset (r : Nat) : Nat := (0x3000 + r) * 256 + 0x04
abbrev oChSparePolicy (r : Nat) : Nat := (0x3000 + r) * 256 + 0x05
abbrev oChSubstitute (r : Nat) : Nat := (0x3000 + r) * 256 + 0x06
abbrev oChConverter (r : Nat) : Nat := (0x3000 + r) * 256 + 0x07
abbrev oChGainCode (r : Nat) : Nat := (0x3000 + r) * 256 + 0x08
abbrev oChOffsetCode (r : Nat) : Nat := (0x3000 + r) * 256 + 0x09
abbrev oChHealth (r : Nat) : Nat := (0x3000 + r) * 256 + 0x0A
abbrev oChOverrangeCount (r : Nat) : Nat := (0x3000 + r) * 256 + 0x0B
abbrev oSpareRotationEnable : Nat := 0x330001
abbrev oSpareSlotMs : Nat := 0x330002
abbrev oDriftGainLimitPpm : Nat := 0x330003
abbrev oDriftOffsetLimitUv : Nat := 0x330004
abbrev oSpareState : Nat := 0x330005
abbrev oModRetired : Nat := 0x330006
abbrev oHkRun : Nat := 0x330007
abbrev oHkSyncGroup : Nat := 0x330008
abbrev oHkProgramLength : Nat := 0x330009
abbrev oHkStatus : Nat := 0x33000A
abbrev oHkLimitFlags : Nat := 0x33000B
abbrev oHkStep (e : Nat) : Nat := 0x330000 + 0x0C + e
abbrev oHkLimitLow (e : Nat) : Nat := 0x330000 + 0x2C + e
abbrev oHkLimitHigh (e : Nat) : Nat := 0x330000 + 0x4C + e
abbrev oHkResult (e : Nat) : Nat := 0x330000 + 0x6C + e
abbrev oThEnable (r : Nat) : Nat := (0x3200 + r) * 256 + 0x01
abbrev oThMode (r : Nat) : Nat := (0x3200 + r) * 256 + 0x02
abbrev oThRank (r : Nat) : Nat := (0x3200 + r) * 256 + 0x03
abbrev oThHighPpm (r : Nat) : Nat := (0x3200 + r) * 256 + 0x04
abbrev oThLowPpm (r : Nat) : Nat := (0x3200 + r) * 256 + 0x05
abbrev oThHystPpm (r : Nat) : Nat := (0x3200 + r) * 256 + 0x06
abbrev oThDebounce (r : Nat) : Nat := (0x3200 + r) * 256 + 0x07
abbrev oThEventMask (r : Nat) : Nat := (0x3200 + r) * 256 + 0x08
abbrev oThState (r : Nat) : Nat := (0x3200 + r) * 256 + 0x09
abbrev oThTripCount (r : Nat) : Nat := (0x3200 + r) * 256 + 0x0A
abbrev oVgEnable (e : Nat) : Nat := 0x340000 + 0x01 + e
abbrev oVgPhases (e : Nat) : Nat := 0x340000 + 0x05 + e
abbrev oVgNominalHz (e : Nat) : Nat := 0x340000 + 0x09 + e
abbrev oVgZcHystPpm (e : Nat) : Nat := 0x340000 + 0x0D + e
abbrev oVgStatus (e : Nat) : Nat := 0x340000 + 0x11 + e
abbrev oVgPeriodNs (e : Nat) : Nat := 0x340000 + 0x15 + e
abbrev oVgCycleCount (e : Nat) : Nat := 0x340000 + 0x19 + e
abbrev oVgFallbackCount (e : Nat) : Nat := 0x340000 + 0x1D + e
abbrev oVgFreeRunCount (e : Nat) : Nat := 0x340000 + 0x21 + e
abbrev oPresetRateHz (e : Nat) : Nat := 0x350000 + 0x01 + e
abbrev oPresetBandwidthHz (e : Nat) : Nat := 0x350000 + 0x06 + e
abbrev oPresetDelayNs (e : Nat) : Nat := 0x350000 + 0x0B + e
abbrev oEngineEnable : Nat := 0x700001
abbrev oEngineInService : Nat := 0x700002
abbrev oClusterEnable : Nat := 0x700003
abbrev oClusterStatus (e : Nat) : Nat := 0x700000 + 0x04 + e
abbrev oStitchTimeoutFactor : Nat := 0x700008
abbrev oEngineResetLimit : Nat := 0x700009
abbrev oEngineResetWindowS : Nat := 0x70000A
abbrev oHomeQueueMap : Nat := 0x70000B
abbrev oQueueOccupancy : Nat := 0x70000C
abbrev oStitchesStolenLocal : Nat := 0x70000D
abbrev oStitchesStolenRemote : Nat := 0x70000E
abbrev oStitchesReturned : Nat := 0x70000F
abbrev oAddsDiscarded : Nat := 0x700010
abbrev oPatternCost (e : Nat) : Nat := 0x700000 + 0x11 + e
abbrev oEngineStitches (e : Nat) : Nat := 0x700000 + 0x1B + e
abbrev oOverloadTargetPct : Nat := 0x710001
abbrev oOverloadExitHoldS : Nat := 0x710002
abbrev oP3Order : Nat := 0x710003
abbrev oOverloadState : Nat := 0x710004
abbrev oCapacityMmacs : Nat := 0x710005
abbrev oDemandMmacs : Nat := 0x710006
abbrev oAdmittedMmacs : Nat := 0x710007
abbrev oP0DemandMmacs : Nat := 0x710008
abbrev oOverloadEntryCount : Nat := 0x710009
abbrev oBacklogGuardCount : Nat := 0x71000A
abbrev oSkipCounters : Nat := 0x71000B
abbrev oAccEnable (r : Nat) : Nat := (0x4000 + r) * 256 + 0x01
abbrev oAccType (r : Nat) : Nat := (0x4000 + r) * 256 + 0x02
abbrev oAccRole (r : Nat) : Nat := (0x4000 + r) * 256 + 0x03
abbrev oAccVg (r : Nat) : Nat := (0x4000 + r) * 256 + 0x04
abbrev oAccWiring (r : Nat) : Nat := (0x4000 + r) * 256 + 0x05
abbrev oAccOptions (r : Nat) : Nat := (0x4000 + r) * 256 + 0x06
abbrev oAccNoloadW (r : Nat) : Nat := (0x4000 + r) * 256 + 0x07
abbrev oAccStartMa (r : Nat) : Nat := (0x4000 + r) * 256 + 0x08
abbrev oAccNoloadCycles (r : Nat) : Nat := (0x4000 + r) * 256 + 0x09
abbrev oAccDirEventCycles (r : Nat) : Nat := (0x4000 + r) * 256 + 0x0A
abbrev oAccPlausCycles (r : Nat) : Nat := (0x4000 + r) * 256 + 0x0B
abbrev oAccPlausMask (r : Nat) : Nat := (0x4000 + r) * 256 + 0x0C
abbrev oAccLnPct (r : Nat) : Nat := (0x4000 + r) * 256 + 0x0D
abbrev oAccDcPct (r : Nat) : Nat := (0x4000 + r) * 256 + 0x0E
abbrev oAccCycleCount (r : Nat) : Nat := (0x4000 + r) * 256 + 0x0F
abbrev oResSeq (r : Nat) : Nat := (0x6000 + r) * 256 + 0x01
abbrev oResTime (r : Nat) : Nat := (0x6000 + r) * 256 + 0x02
abbrev oResQuality (r : Nat) : Nat := (0x6000 + r) * 256 + 0x03
abbrev oResStatus (r : Nat) : Nat := (0x6000 + r) * 256 + 0x04
abbrev oPW (r : Nat) : Nat := (0x6000 + r) * 256 + 0x05
abbrev oQVar (r : Nat) : Nat := (0x6000 + r) * 256 + 0x06
abbrev oSArithVa (r : Nat) : Nat := (0x6000 + r) * 256 + 0x07
abbrev oSVectVa (r : Nat) : Nat := (0x6000 + r) * 256 + 0x08
abbrev oPFundW (r : Nat) : Nat := (0x6000 + r) * 256 + 0x09
abbrev oQFundVar (r : Nat) : Nat := (0x6000 + r) * 256 + 0x0A
abbrev oSFundVa (r : Nat) : Nat := (0x6000 + r) * 256 + 0x0B
abbrev oPf (r : Nat) : Nat := (0x6000 + r) * 256 + 0x0C
abbrev oDpf (r : Nat) : Nat := (0x6000 + r) * 256 + 0x0D
abbrev oFreqHz (r : Nat) : Nat := (0x6000 + r) * 256 + 0x0E
abbrev oPSlotW (r e : Nat) : Nat := (0x6000 + r) * 256 + 0x0F + e
abbrev oQSlotVar (r e : Nat) : Nat := (0x6000 + r) * 256 + 0x13 + e
abbrev oPAgg10W (r : Nat) : Nat := (0x6000 + r) * 256 + 0x17
abbrev oPAgg150W (r : Nat) : Nat := (0x6000 + r) * 256 + 0x18
abbrev oPAgg10minW (r : Nat) : Nat := (0x6000 + r) * 256 + 0x19
abbrev oResRmsxSeq (r : Nat) : Nat := (0x6000 + r) * 256 + 0x1A
abbrev oCrSeq (r : Nat) : Nat := (0x6100 + r) * 256 + 0x01
abbrev oCrRms (r : Nat) : Nat := (0x6100 + r) * 256 + 0x02
abbrev oCrRmsFund (r : Nat) : Nat := (0x6100 + r) * 256 + 0x03
abbrev oCrDc (r : Nat) : Nat := (0x6100 + r) * 256 + 0x04
abbrev oCrAngleMdeg (r : Nat) : Nat := (0x6100 + r) * 256 + 0x05
abbrev oCrRmsAgg (r e : Nat) : Nat := (0x6100 + r) * 256 + 0x06 + e
abbrev oCrAggStatus (r : Nat) : Nat := (0x6100 + r) * 256 + 0x0A
abbrev oCrWindowSeq (r : Nat) : Nat := (0x6100 + r) * 256 + 0x0B
abbrev oCrWindowQuality (r : Nat) : Nat := (0x6100 + r) * 256 + 0x0C
abbrev oCrHUsed (r : Nat) : Nat := (0x6100 + r) * 256 + 0x0D
abbrev oCrThdPct (r : Nat) : Nat := (0x6100 + r) * 256 + 0x0E
abbrev oCrPst (r : Nat) : Nat := (0x6100 + r) * 256 + 0x0F
abbrev oCrPlt (r : Nat) : Nat := (0x6100 + r) * 256 + 0x10
abbrev oCrSupraSeq (r : Nat) : Nat := (0x6100 + r) * 256 + 0x11
abbrev oCrSupraBands (r : Nat) : Nat := (0x6100 + r) * 256 + 0x12
abbrev oCrHarm (r e : Nat) : Nat := (0x6100 + r) * 256 + 0x13 + e
abbrev oCrHarmAngleMdeg (r e : Nat) : Nat := (0x6100 + r) * 256 + 0x52 + e
abbrev oCrIharm (r e : Nat) : Nat := (0x6100 + r) * 256 + 0x91 + e
abbrev oPqHarmMode : Nat := 0x620001
abbrev oPqIharmMode : Nat := 0x620002
abbrev oPqHarmSmooth : Nat := 0x620003
abbrev oPqGroupMap (e : Nat) : Nat := 0x620000 + 0x04 + e
abbrev oPqUdinV (e : Nat) : Nat := 0x620000 + 0x08 + e
abbrev oPqDipPermille : Nat := 0x62000C
abbrev oPqSwellPermille : Nat := 0x62000D
abbrev oPqInterruptPermille : Nat := 0x62000E
abbrev oPqHystPermille : Nat := 0x62000F
abbrev oPqV0Permille : Nat := 0x620010
abbrev oPqNeLimitV : Nat := 0x620011
abbrev oPqAsymPermille : Nat := 0x620012
abbrev oPqDetectCycles : Nat := 0x620013
abbrev oPqHarmEnable : Nat := 0x620014
abbrev oPqFlickEnable : Nat := 0x620015
abbrev oPqSupraEnable : Nat := 0x620016
abbrev oPqGroupStatus (e : Nat) : Nat := 0x620000 + 0x18 + e
abbrev oPqFreq10sHz (e : Nat) : Nat := 0x620000 + 0x1C + e
abbrev oPqUnbalancePct (e : Nat) : Nat := 0x620000 + 0x20 + e
abbrev oPqEventCounts (e : Nat) : Nat := 0x620000 + 0x24 + e
abbrev oCaptChannels : Nat := 0x620028
abbrev oCaptOptions : Nat := 0x620029
abbrev oCaptCommand : Nat := 0x62002A
abbrev oCaptRelease : Nat := 0x62002B
abbrev oCaptStatus : Nat := 0x62002C
abbrev oCaptSlotChannel : Nat := 0x62002D
abbrev oMapEntry (e : Nat) : Nat := 0x500000 + e
abbrev oPulseConfig (e : Nat) : Nat := 0xB00000 + 0x01 + e
abbrev oPulseConst (e : Nat) : Nat := 0xB00000 + 0x09 + e
abbrev oPulseResidue (e : Nat) : Nat := 0xB00000 + 0x11 + e
abbrev oPulseStatus (e : Nat) : Nat := 0xB00000 + 0x19 + e
abbrev oFtripAssign (e : Nat) : Nat := 0xB00000 + 0x21 + e
abbrev oFtripState : Nat := 0xB00029
abbrev oDemandPeriodS : Nat := 0xB0002A
abbrev oDemandSubperiods : Nat := 0xB0002B
abbrev oProfilePeriodS : Nat := 0xB0002C
abbrev oProfileSpectra : Nat := 0xB0002D
abbrev oProfileSpectraCh : Nat := 0xB0002E
abbrev oSlotLevel (e : Nat) : Nat := 0xB00000 + 0x2F + e
abbrev oSlotCycles : Nat := 0xB0006F
abbrev oSlotHystPermille : Nat := 0xB00070
abbrev oSlotTripped : Nat := 0xB00071
abbrev oSnapReqH : Nat := 0xB00072
abbrev oSnapReqF : Nat := 0xB00073
abbrev oSnapReqS : Nat := 0xB00074
abbrev oSnapDataH : Nat := 0xB00075
abbrev oSnapDataF : Nat := 0xB00076
abbrev oSnapDataS : Nat := 0xB00077
abbrev oAccClear : Nat := 0xB00078
abbrev oMdReset : Nat := 0xB00079
abbrev oBgEnable (e : Nat) : Nat := 0x440000 + 0x01 + e
abbrev oBgFeeders (e : Nat) : Nat := 0x440000 + 0x05 + e
abbrev oBgMembers (e : Nat) : Nat := 0x440000 + 0x09 + e
abbrev oBgOptions (e : Nat) : Nat := 0x440000 + 0x0D + e
abbrev oBgLossRMohm (e : Nat) : Nat := 0x440000 + 0x11 + e
abbrev oBgLossConstW (e : Nat) : Nat := 0x440000 + 0x15 + e
abbrev oBgWindowS (e : Nat) : Nat := 0x440000 + 0x19 + e
abbrev oBgAbsLimitW (e : Nat) : Nat := 0x440000 + 0x1D + e
abbrev oBgPctLimitPermille (e : Nat) : Nat := 0x440000 + 0x21 + e
abbrev oBgMinFeederW (e : Nat) : Nat := 0x440000 + 0x25 + e
abbrev oBgHoldWindows (e : Nat) : Nat := 0x440000 + 0x29 + e
abbrev oBgHystPermille (e : Nat) : Nat := 0x440000 + 0x2D + e
abbrev oBgStatus (e : Nat) : Nat := 0x440000 + 0x31 + e
abbrev oBgCycleCount (e : Nat) : Nat := 0x440000 + 0x35 + e
abbrev oBgLastWindow (e : Nat) : Nat := 0x440000 + 0x39 + e
abbrev oBgCandidates (e : Nat) : Nat := 0x440000 + 0x3D + e
abbrev oBgSuspects (e : Nat) : Nat := 0x440000 + 0x41 + e
abbrev oBgEventCount (e : Nat) : Nat := 0x440000 + 0x45 + e
abbrev oTfRates (e : Nat) : Nat := 0x420000 + 0x01 + e
abbrev oTfBlockWh (e : Nat) : Nat := 0x420000 + 0x11 + e
abbrev oTfParams (e : Nat) : Nat := 0x420000 + 0x21 + e
abbrev oTfDailyCharge (e : Nat) : Nat := 0x420000 + 0x31 + e
abbrev oCalUtcOffsetMin : Nat := 0x430001
abbrev oCalDstStart : Nat := 0x430002
abbrev oCalDstEnd : Nat := 0x430003
abbrev oCalDstShiftMin : Nat := 0x430004
abbrev oCalYear : Nat := 0x430005
abbrev oCalYearTable : Nat := 0x430006
abbrev oCalNight : Nat := 0x430007
abbrev oCalWeekendMask : Nat := 0x430008
abbrev oCalStatus : Nat := 0x430009
abbrev oCalDayProfile (e : Nat) : Nat := 0x430000 + 0x0A + e
abbrev oRlyEnable : Nat := 0x205001
abbrev oRlyChainLength : Nat := 0x205002
abbrev oRlyScanMs : Nat := 0x205003
abbrev oRlyPulseMs : Nat := 0x205004
abbrev oRlySettleMs : Nat := 0x205005
abbrev oRlyRetries : Nat := 0x205006
abbrev oRlyOpenBatch : Nat := 0x205007
abbrev oRlyReconnectStaggerMs : Nat := 0x205008
abbrev oRlyReadback : Nat := 0x205009
abbrev oRlyPresent : Nat := 0x20500A
abbrev oRlyFault : Nat := 0x20500B
abbrev oRlyCommanded : Nat := 0x20500C
abbrev oRlyQueue : Nat := 0x20500D
abbrev oKeyDevice : Nat := 0x820001
abbrev oKeyAccount (e : Nat) : Nat := 0x820000 + 0x02 + e
abbrev oKeyWrapped : Nat := 0x8200F2
abbrev oKeyLoaded : Nat := 0x8200F3
abbrev oKeyCounter : Nat := 0x8200F4
abbrev oXferTotal : Nat := 0x8200F5
abbrev oPpMode (r : Nat) : Nat := (0x4100 + r) * 256 + 0x01
abbrev oPpTariff (r : Nat) : Nat := (0x4100 + r) * 256 + 0x02
abbrev oPpNextTariff (r : Nat) : Nat := (0x4100 + r) * 256 + 0x03
abbrev oPpNextTariffTime (r : Nat) : Nat := (0x4100 + r) * 256 + 0x04
abbrev oPpOptions (r : Nat) : Nat := (0x4100 + r) * 256 + 0x05
abbrev oPpLowLevel (r : Nat) : Nat := (0x4100 + r) * 256 + 0x06
abbrev oPpReconnectLevel (r : Nat) : Nat := (0x4100 + r) * 256 + 0x07
abbrev oPpEcLimit (r : Nat) : Nat := (0x4100 + r) * 256 + 0x08
abbrev oPpFriendlyDebt (r : Nat) : Nat := (0x4100 + r) * 256 + 0x09
abbrev oPpRelay (r : Nat) : Nat := (0x4100 + r) * 256 + 0x0A
abbrev oPpHostDisconnect (r : Nat) : Nat := (0x4100 + r) * 256 + 0x0B
abbrev oPpCredit (r : Nat) : Nat := (0x4100 + r) * 256 + 0x0C
abbrev oPpStatus (r : Nat) : Nat := (0x4100 + r) * 256 + 0x0D
abbrev oPpBlockEnergy (r : Nat) : Nat := (0x4100 + r) * 256 + 0x0E
abbrev oPpXferCounter (r : Nat) : Nat := (0x4100 + r) * 256 + 0x0F
abbrev oPpCreditTransfer (r : Nat) : Nat := (0x4100 + r) * 256 + 0x10
abbrev oPpLastTransfer (r : Nat) : Nat := (0x4100 + r) * 256 + 0x11
abbrev oPpEcRequest (r : Nat) : Nat := (0x4100 + r) * 256 + 0x12
abbrev oPpReconnectArm (r : Nat) : Nat := (0x4100 + r) * 256 + 0x13
abbrev oPpAuthFailCount (r : Nat) : Nat := (0x4100 + r) * 256 + 0x14
abbrev oCalFullScale (r : Nat) : Nat := (0x3100 + r) * 256 + 0x01
abbrev oCalPoint (r e : Nat) : Nat := (0x3100 + r) * 256 + 0x02 + e
abbrev oCalStatus2 (r : Nat) : Nat := (0x3100 + r) * 256 + 0x07
abbrev oCalQuality (r : Nat) : Nat := (0x3100 + r) * 256 + 0x08
abbrev oCalGainApplied (r : Nat) : Nat := (0x3100 + r) * 256 + 0x09
abbrev oCalOffsetAppliedNv (r : Nat) : Nat := (0x3100 + r) * 256 + 0x0A
abbrev oCalPhaseApplied (r : Nat) : Nat := (0x3100 + r) * 256 + 0x0B
abbrev oCalDriftGain (r : Nat) : Nat := (0x3100 + r) * 256 + 0x0C
abbrev oCalDriftOffsetNv (r : Nat) : Nat := (0x3100 + r) * 256 + 0x0D
abbrev oCalSpareFold (r : Nat) : Nat := (0x3100 + r) * 256 + 0x0E
abbrev oCsCommand : Nat := 0x900001
abbrev oCsChannels : Nat := 0x900002
abbrev oCsStep : Nat := 0x900003
abbrev oCsRefVRms : Nat := 0x900004
abbrev oCsRefIRms : Nat := 0x900005
abbrev oCsRefLagMdeg : Nat := 0x900006
abbrev oCsRefFreqHz : Nat := 0x900007
abbrev oCsAvgCycles : Nat := 0x900008
abbrev oCsStableCycles : Nat := 0x900009
abbrev oCalTimeoutMs : Nat := 0x90000A
abbrev oCsGainTolPpm : Nat := 0x90000B
abbrev oCsOffsetTolNv : Nat := 0x90000C
abbrev oCsPhaseTolMdeg : Nat := 0x90000D
abbrev oCsStatus : Nat := 0x90000E
abbrev oCsPassed : Nat := 0x90000F
abbrev oCsFailed : Nat := 0x900010
abbrev oCsBandgapUv : Nat := 0x900011
abbrev oCalTempInUse : Nat := 0x900012
abbrev oCalTempStepMc : Nat := 0x900013
abbrev oRecalDeltaMc : Nat := 0x900014
abbrev oRecalMaxIntervalH : Nat := 0x900015
abbrev oRecalLastTemp : Nat := 0x900016
abbrev oRecalLastTime : Nat := 0x900017
abbrev oRecalCount : Nat := 0x900018
abbrev oMemStatus : Nat := 0xC00001
abbrev oBankStatus (e : Nat) : Nat := 0xC00000 + 0x02 + e
abbrev oEccCorrectedCount : Nat := 0xC00012
abbrev oEccUncorrectableCount : Nat := 0xC00013
abbrev oEccLastError : Nat := 0xC00014
abbrev oScrubPeriodS : Nat := 0xC00015
abbrev oScrubRowLimit : Nat := 0xC00016
abbrev oMarchStartup : Nat := 0xC00017
abbrev oMarchPeriodicH : Nat := 0xC00018
abbrev oMarchRowGapUs : Nat := 0xC00019
abbrev oMarchCommand : Nat := 0xC0001A
abbrev oMarchStatus : Nat := 0xC0001B
abbrev oMemRemap : Nat := 0xC0001C
abbrev oAccessViolationCount : Nat := 0xC0001D
abbrev oAccessLastViolation : Nat := 0xC0001E
abbrev oAccessTableDigest : Nat := 0xC0001F
abbrev oNvmStatus : Nat := 0xC00020
abbrev oSaveIntervalS : Nat := 0xC00021
abbrev oSaveRequest : Nat := 0xC00022
abbrev oLastSaveTime : Nat := 0xC00023
abbrev oJournalSeq : Nat := 0xC00024
abbrev oJournalLivePages : Nat := 0xC00025
abbrev oStoreFill : Nat := 0xC00026
abbrev oRefreshPeriodH : Nat := 0xC00027
abbrev oRefreshPages : Nat := 0xC00028
abbrev oNvmWearYears : Nat := 0xC00029
abbrev oNvmLifeMonths : Nat := 0xC0002A
abbrev oLastGaspReport : Nat := 0xC0002B
abbrev oSpreadValue : Nat := 0xC0002C
abbrev oSpreadInc : Nat := 0xC0002D
abbrev oBadPages : Nat := 0xC0002E
abbrev oNvmLastError : Nat := 0xC0002F
abbrev oNbStatus (e : Nat) : Nat := 0xC00000 + 0x30 + e
abbrev oNbPrograms (e : Nat) : Nat := 0xC00000 + 0x38 + e
abbrev oPowerStatus : Nat := 0xE00001
abbrev oPowerCommand : Nat := 0xE00002
abbrev oEwarnMode : Nat := 0xE00003
abbrev oEwarnQualifyUs : Nat := 0xE00004
abbrev oRestartHoldoffMs : Nat := 0xE00005
abbrev oHoldupReadyMv : Nat := 0xE00006
abbrev oVbatLowMv : Nat := 0xE00007
abbrev oThermalLimitMc : Nat := 0xE00008
abbrev oThermalHystMc : Nat := 0xE00009
abbrev oVbatLastMv : Nat := 0xE0000A
abbrev oLastOutage : Nat := 0xE0000B
abbrev oPfdCount : Nat := 0xE0000C
abbrev oStartRetries : Nat := 0xE0000D
abbrev oTampStatus : Nat := 0x800001
abbrev oTampInputCfg (e : Nat) : Nat := 0x800000 + 0x02 + e
abbrev oMagCfg : Nat := 0x80000A
abbrev oTampSampleMs : Nat := 0x80000B
abbrev oTampResponse (e : Nat) : Nat := 0x800000 + 0x0C + e
abbrev oTampDiscSet : Nat := 0x80001E
abbrev oClkConfirmN : Nat := 0x80001F
abbrev oClkConfirmWindowMs : Nat := 0x800020
abbrev oClkDisagreeN : Nat := 0x800021
abbrev oGlitchConfirmN : Nat := 0x800022
abbrev oGlitchWindowMs : Nat := 0x800023
abbrev oTampTempLowMc : Nat := 0x800024
abbrev oTampTempHighMc : Nat := 0x800025
abbrev oTampLogHoldoffS : Nat := 0x800026
abbrev oMaintUntil : Nat := 0x800027
abbrev oMarkClear : Nat := 0x800028
abbrev oTamperRelease : Nat := 0x800029
abbrev oClkEvents : Nat := 0x80002A
abbrev oGlitchEvents : Nat := 0x80002B
abbrev oAoOverflowCount : Nat := 0x80002C
abbrev oTampLogCount : Nat := 0x80002D
abbrev oTampLogOverflow : Nat := 0x80002E
abbrev oZeroizeCount : Nat := 0x80002F
abbrev oTampLastEntry : Nat := 0x800030
abbrev oLcState : Nat := 0x810001
abbrev oLcCommand : Nat := 0x810002
abbrev oLcNonce : Nat := 0x810003
abbrev oKeyReturn : Nat := 0x810004
abbrev oLcInfo : Nat := 0x810005
abbrev oLcHistory : Nat := 0x810006
abbrev oDispOptions : Nat := 0xA00001
abbrev oDispImage : Nat := 0xA00002
abbrev oDispCommand : Nat := 0xA00003
abbrev oDispStatus : Nat := 0xA00004
abbrev oDispShown : Nat := 0xA00005
abbrev oWfTable (e : Nat) : Nat := 0xA00000 + 0x06 + e
abbrev oWfDc : Nat := 0xA0000E
abbrev oTbEdgeMc (e : Nat) : Nat := 0xA00000 + 0x0F + e
abbrev oTbHystMc : Nat := 0xA00016
abbrev oDcLimit : Nat := 0xA00017
abbrev oBalPulseMs : Nat := 0xA00018
abbrev oBalMaxFrames : Nat := 0xA00019
abbrev oBalDelayMs : Nat := 0xA0001A
abbrev oDcBalance : Nat := 0xA0001B
abbrev oPumpHoldMs : Nat := 0xA0001C
abbrev oDischargeShortMs : Nat := 0xA0001D
abbrev oClearCycles : Nat := 0xA0001E
abbrev oSelvedgeStatus : Nat := 0xA0001F
abbrev oOutageMarkClear : Nat := 0xA00020
abbrev oDispTempMc : Nat := 0xA00021
abbrev oDispUpdateCount : Nat := 0xA00022
abbrev oHAccepted : Nat := 0x200001
abbrev oHCrcErrors : Nat := 0x200002
abbrev oHBusyRefusals : Nat := 0x200003
abbrev oHRepeats : Nat := 0x200004
abbrev oFEnable : Nat := 0x201001
abbrev oFAddress : Nat := 0x201002
abbrev oFBaud : Nat := 0x201003
abbrev oFTurnaroundUs : Nat := 0x201004
abbrev oFReplyMs : Nat := 0x201005
abbrev oFSyncEnable : Nat := 0x201006
abbrev oFSyncSlewMs : Nat := 0x201007
abbrev oFLastSync : Nat := 0x201008
abbrev oFAccepted : Nat := 0x201009
abbrev oFCrcErrors : Nat := 0x20100A
abbrev oFBusyRefusals : Nat := 0x20100B
abbrev oFRepeats : Nat := 0x20100C
abbrev oSEnable : Nat := 0x202001
abbrev oSBaud : Nat := 0x202002
abbrev oSAccepted : Nat := 0x202003
abbrev oSCrcErrors : Nat := 0x202004
abbrev oSBusyRefusals : Nat := 0x202005
abbrev oSRepeats : Nat := 0x202006
abbrev oI2cEnable : Nat := 0x203001
abbrev oI2cSpeed : Nat := 0x203002
abbrev oI2cPeriodMs : Nat := 0x203003
abbrev oI2cSensor (e : Nat) : Nat := 0x203000 + 0x04 + e
abbrev oI2cTempMc (e : Nat) : Nat := 0x203000 + 0x08 + e
abbrev oI2cStatus : Nat := 0x20300C
abbrev oEventPending : Nat := 0x210001
abbrev oHirqMask : Nat := 0x210002
abbrev oEventRingMask : Nat := 0x210003
abbrev oEventCount : Nat := 0x210004
abbrev oRingConsumers : Nat := 0x210005
abbrev oHirqOptions : Nat := 0x210006
abbrev oRingStatus (e : Nat) : Nat := 0x210000 + 0x07 + e
abbrev oBootEventsLost : Nat := 0x21000F
abbrev oWatchdogMs : Nat := 0xF00001
abbrev oWatchdogKick : Nat := 0xF00002
abbrev oWatchdogCount : Nat := 0xF00003
abbrev oUpdState : Nat := 0xD00001
abbrev oUpdCommand : Nat := 0xD00002
abbrev oUpdChunk : Nat := 0xD00003
abbrev oUpdPageMap : Nat := 0xD00004
abbrev oUpdActivateAt : Nat := 0xD00005
abbrev oHealthWindowMin : Nat := 0xD00006
abbrev oUpdConfirm : Nat := 0xD00007
abbrev oUpdStatus : Nat := 0xD00008
abbrev oUpdStagedHeader : Nat := 0xD00009
abbrev oUpdBoot : Nat := 0xD0000A
abbrev oUpdActivations : Nat := 0xD0000B
abbrev oUpdFallbacks : Nat := 0xD0000C

end Sys2Proof
end

