-- ==== Sys2Proof/Machine/Num.lean ====
section
/-! DEFINITION. Numbers as the spec writes them: little-endian bytes (R7), two's complement, F32 conversion (R29), rounding,
and fixed-point square roots and trigonometry. -/
namespace Sys2Proof.Machine

/-- The n low bytes of a number, least significant first (R7). -/
def le : Nat → Nat → Bytes
  | 0, _ => []
  | n + 1, v => BitVec.ofNat 8 v :: le n (v / 256)

/-- The number that bytes hold, least significant first (R7). -/
def ofLe : Bytes → Nat
  | [] => 0
  | b :: t => b.toNat + 256 * ofLe t

/-- The bytes from an offset on, n of them. -/
def slice (b : Bytes) (off n : Nat) : Bytes := (b.drop off).take n

/-- The number held in n bytes at an offset. -/
def fld (b : Bytes) (off n : Nat) : Nat := ofLe (slice b off n)

/-- Bytes padded with 0x00 to n, or cut to n. -/
def padTo (n : Nat) (b : Bytes) : Bytes := (b ++ List.replicate n 0).take n

/-- A number read as two's complement of so many bytes. -/
def sgn (bytes v : Nat) : Int := if v < 2 ^ (8 * bytes - 1) then v else (v : Int) - 2 ^ (8 * bytes)

/-- An integer as two's complement bits of so many bytes. -/
def unsgn (bytes : Nat) (v : Int) : Nat := (v % (2 ^ (8 * bytes) : Nat)).toNat

/-- Bits hi down to lo of a number. -/
def bits (v hi lo : Nat) : Nat := v / 2 ^ lo % 2 ^ (hi + 1 - lo)

/-- One bit of a number. -/
def bit (v n : Nat) : Bool := v.testBit n

/-- A Bool as a bit at a position. -/
def flag (b : Bool) (n : Nat) : Nat := if b then 2 ^ n else 0

/-- A number held at a saturation value. -/
def sat (m v : Nat) : Nat := min m v

/-- Saturation of an integer to a signed range of so many bytes. -/
def satI (bytes : Nat) (v : Int) : Int := max (-(2 ^ (8 * bytes - 1) : Int)) (min (2 ^ (8 * bytes - 1) - 1) v)

/-- Serial-number comparison of R19: s is newer than m. -/
def newer (s m : W32) : Bool := decide (0 < (s - m).toInt)

/-- The nearest integer, ties away from zero. -/
def rnd (x : Rat) : Int :=
  if 0 ≤ x then (x + 1 / 2).floor else -((-x + 1 / 2).floor)

/-- A quotient of integers rounded to nearest, ties away from zero. -/
def rdiv (a b : Int) : Int := if b = 0 then 0 else rnd ((a : Rat) / b)

/-- The nearest integer, ties to even, of a nonnegative quotient. -/
def rndEven (n d : Nat) : Nat :=
  let q := n / d
  let r := n % d
  if 2 * r < d then q else if d < 2 * r then q + 1 else if q % 2 = 0 then q else q + 1

/-- The absolute value of a rational. -/
def rabs (x : Rat) : Rat := if x < 0 then -x else x

/-- The binary exponent of a positive fraction n/d: the largest e with 2^e at most n/d. -/
def expo (n d : Nat) : Int :=
  let e : Int := (Nat.log2 n : Int) - (Nat.log2 d : Int)
  let ge := if 0 ≤ e then decide (d * 2 ^ e.toNat ≤ n) else decide (d ≤ n * 2 ^ (-e).toNat)
  if ge then e else e - 1

/-- The F32 bit pattern that the device stores for a result (R29): IEEE nearest-even, magnitudes beyond the largest finite
value held there, magnitudes below the smallest normal value as a signed zero (DEDUCED, log 55). -/
def toF32 (x : Rat) : Nat :=
  if x = 0 then 0 else
  let s := if x < 0 then 2 ^ 31 else 0
  let n := x.num.natAbs
  let d := x.den
  let e := expo n d
  let sh := 23 - e
  let m := if 0 ≤ sh then rndEven (n * 2 ^ sh.toNat) d else rndEven n (d * 2 ^ (-sh).toNat)
  let (e, m) := if m = 2 ^ 24 then (e + 1, 2 ^ 23) else (e, m)
  if e < -126 then s
  else if 127 < e then s + 0x7F7FFFFF
  else s + (e + 127).toNat * 2 ^ 23 + (m - 2 ^ 23)

/-- Whether an F32 bit pattern may be written: not a NaN, an infinity or a subnormal (R29). -/
def f32Ok (v : Nat) : Bool :=
  let e := bits v 30 23
  decide (e ≠ 255) && (decide (e ≠ 0) || decide (bits v 22 0 = 0))

/-- The value of an F32 bit pattern. -/
def ofF32 (v : Nat) : Rat :=
  let e := bits v 30 23
  let m : Nat := bits v 22 0
  let a : Rat := if e = 0 then 0
    else if 150 ≤ e then (((2 ^ 23 + m) * 2 ^ (e - 150) : Nat) : Rat)
    else ((2 ^ 23 + m : Nat) : Rat) / ((2 ^ (150 - e) : Nat) : Rat)
  if bit v 31 then -a else a

/-- The integer square root, one bit at a time from 2^k down. -/
def sqrtBits : Nat → Nat → Nat → Nat
  | 0, _, acc => acc
  | k + 1, v, acc => if (acc + 2 ^ k) * (acc + 2 ^ k) ≤ v then sqrtBits k v (acc + 2 ^ k) else sqrtBits k v acc

/-- The floor of the square root of a natural number (DESIGN CHOICE, log 2). -/
def isqrt (v : Nat) : Nat := sqrtBits (Nat.log2 v / 2 + 1) v 0

/-- The square root of a nonnegative rational, to 64 binary places (R151 gives no rounding; assumption log 2) (DEDUCED, log 55). -/
def sqrtR (x : Rat) : Rat :=
  if x ≤ 0 then 0 else ((isqrt (x.num.natAbs * 2 ^ 128 / x.den) : Nat) : Rat) / ((2 ^ 64 : Nat) : Rat)

/-- One, in the fixed point of the trigonometry: 2^62. -/
def fpOne : Int := 2 ^ 62

/-- Half a turn in the fixed point: pi times 2^62. -/
def fpPi : Int := 14488038916154245685

/-- The alternating series with terms x^2 / (k (k+1)), for sine and cosine (DESIGN CHOICE, log 2). -/
def trigSum : Nat → Int → Int → Int → Int → Int
  | 0, _, _, _, acc => acc
  | n + 1, x2, k, t, acc =>
    let t' := -(t * x2 / fpOne) / (k * (k + 1))
    trigSum n x2 (k + 2) t' (acc + t')

/-- The cosine of x radians in fixed point, for x in a half turn (DESIGN CHOICE, log 2). -/
def fpCos (x : Int) : Int := trigSum 24 (x * x / fpOne) 1 fpOne fpOne

/-- The sine of x radians in fixed point, for x in a half turn (DESIGN CHOICE, log 2). -/
def fpSin (x : Int) : Int := trigSum 24 (x * x / fpOne) 2 x x

/-- The cosine and the sine of n / d turns, as rationals of 62 binary places (assumption log 2). -/
def cisTurn (n : Int) (d : Nat) : Rat × Rat :=
  let f : Rat := ((n % (d : Int) : Int) : Rat) / (d : Rat)
  let f := if (1 : Rat) / 2 < f then f - 1 else f
  let x := rnd (f * 2 * (fpPi : Rat))
  (((fpCos x : Int) : Rat) / (fpOne : Rat), ((fpSin x : Int) : Rat) / (fpOne : Rat))

/-- The series of the arctangent of t in fixed point, for small t. -/
def atanSum : Nat → Int → Int → Int → Int → Int
  | 0, _, _, _, acc => acc
  | n + 1, t2, k, p, acc =>
    let p' := -(p * t2 / fpOne)
    atanSum n t2 (k + 2) p' (acc + p' / (k + 2))

/-- The arctangent of t in [0, 1], in radians of fixed point, by three halvings and the series (DESIGN CHOICE, log 2). -/
def fpAtan (t : Rat) : Int :=
  let h (u : Rat) : Rat := u / (1 + sqrtR (1 + u * u))
  let u := rnd (h (h (h t)) * (fpOne : Rat))
  8 * atanSum 14 (u * u / fpOne) 1 u u

/-- The argument of (x, y) in turns, in (-1/2, 1/2]; 0 at the origin (assumption log 2) (DEDUCED, log 55). -/
def argTurn (x y : Rat) : Rat :=
  let ax := rabs x
  let ay := rabs y
  if ax = 0 ∧ ay = 0 then 0 else
  let q : Rat := if ay ≤ ax then ((fpAtan (ay / ax) : Int) : Rat) / (2 * (fpPi : Rat))
    else 1 / 4 - ((fpAtan (ax / ay) : Int) : Rat) / (2 * (fpPi : Rat))
  let a := if x < 0 then 1 / 2 - q else q
  if y < 0 then -a else a

/-- One bit of a CRC with the reflected polynomial of IEEE 802.3. -/
def crc32Bit (c : Nat) : Nat := if c % 2 = 1 then Nat.xor (c / 2) 0xEDB88320 else c / 2

/-- One byte of the CRC-32. -/
def crc32Byte (c : Nat) (b : Byte) : Nat :=
  Nat.repeat crc32Bit 8 (Nat.xor c b.toNat)

/-- CRC-32 of R313: IEEE 802.3 polynomial, reflected, initial value and final XOR all ones. -/
def crc32 (b : Bytes) : Nat := Nat.xor (b.foldl crc32Byte 0xFFFFFFFF) 0xFFFFFFFF

/-- One bit of CRC-16/CCITT. -/
def crc16Bit (c : Nat) : Nat := (if bit c 15 then Nat.xor (c * 2) 0x1021 else c * 2) % 65536

/-- CRC-16/CCITT of R416: polynomial 0x1021, initial value 0xFFFF, no reflection, no final XOR. -/
def crc16 (b : Bytes) : Nat :=
  b.foldl (fun c x => Nat.repeat crc16Bit 8 (Nat.xor c (x.toNat * 256))) 0xFFFF

/-- The numbers from a up, n of them. -/
def rangeFrom (a n : Nat) : List Nat := (List.range n).map (· + a)

/-- Whether bit i of an octet array, read as one number, is set: bit i of byte j is element 8j + i. -/
def inSet (v i : Nat) : Bool := v.testBit i

/-- The elements below n that an octet array, read as one number, names. -/
def setList (v n : Nat) : List Nat := (List.range n).filter (inSet v)

/-- The number whose bits are the listed elements. -/
def ofSet (l : List Nat) : Nat := l.foldl (fun v i => Nat.lor v (2 ^ i)) 0

/-- The number whose bit i below n is f i. -/
def mapBits (n : Nat) (f : Nat → Bool) : Nat := ofSet ((List.range n).filter f)

end Sys2Proof.Machine
end

