-- ==== Sys2Proof/Machine/Kmap.lean ====
section
/-! DEFINITION. Sparse tables as sorted lists: a key that is not listed holds its default value, and no listed value is the
default, so equal tables are equal lists. Every numbered family of registers and every buffer of State is one of these. -/
namespace Sys2Proof

/-- A sparse table over natural-number keys, in canonical form (see KMap.wf). -/
abbrev KMap (V : Type) := List (Nat × V)

/-- The value at a key; an unlisted key holds the default of its type. -/
def KMap.get {V : Type} [Inhabited V] : KMap V → Nat → V
  | [], _ => default
  | (a, v) :: t, k => if a = k then v else KMap.get t k

/-- Write one key, keeping the canonical form. -/
def KMap.set {V : Type} [Inhabited V] [DecidableEq V] : KMap V → Nat → V → KMap V
  | [], k, v => if v = default then [] else [(k, v)]
  | (a, w) :: t, k, v =>
    if a = k then (if v = default then t else (k, v) :: t)
    else if k < a then (if v = default then (a, w) :: t else (k, v) :: (a, w) :: t)
    else (a, w) :: KMap.set t k v

/-- Change one key by a function. -/
def KMap.upd {V : Type} [Inhabited V] [DecidableEq V] (m : KMap V) (k : Nat) (f : V → V) : KMap V :=
  KMap.set m k (f (KMap.get m k))

/-- Change every listed value by a function, keeping the canonical form. -/
def KMap.mapV {V : Type} [Inhabited V] [DecidableEq V] (m : KMap V) (f : V → V) : KMap V :=
  m.filterMap (fun e => if f e.2 = default then none else some (e.1, f e.2))

/-- Whether a key is listed. -/
def KMap.has {V : Type} : KMap V → Nat → Bool
  | [], _ => false
  | (a, _) :: t, k => a == k || KMap.has t k

/-- Remove a key. -/
def KMap.del {V : Type} : KMap V → Nat → KMap V
  | [], _ => []
  | (a, v) :: t, k => if a = k then t else (a, v) :: KMap.del t k

/-- The listed keys all lie above a bound and rise strictly, and no listed value is the default. -/
def KMap.wfFrom {V : Type} [Inhabited V] [DecidableEq V] : Option Nat → KMap V → Bool
  | _, [] => true
  | lo, (a, v) :: t =>
    (match lo with
     | none => true
     | some l => decide (l < a)) && decide (v ≠ default) && KMap.wfFrom (some a) t

/-- The canonical form of a table: keys strictly rising, no default value listed. -/
def KMap.wf {V : Type} [Inhabited V] [DecidableEq V] (m : KMap V) : Bool := KMap.wfFrom none m

end Sys2Proof
end

