-- ==== Sys2Proof/Machine/State.lean ====
section
/-! DEFINITION. The state of the QVM-9256 block: every register, buffer, counter, queue, mode and pin the spec gives it, as
plain data. A docstring ends with the rule that names the field and its value at reset, in square brackets; an entry
number after "log" is the assumption-log entry that names the value where the spec gives none. -/
namespace Sys2Proof.Machine

/-! ### Dictionary, hold and answers (chapter 2, 16) -/

/-- The answer to one request: status code of Table 2.6, payload and retry time (Table 16.3). -/
structure Answer where
  status  : Nat := 0
  payload : Bytes := []
  retry   : Nat := 0
  deriving DecidableEq, Repr, Inhabited

/-- The object dictionary's values and the configuration hold. Keys are index * 256 + sub, values the stored number. -/
structure Dict where
  /-- Active values of the writable objects that differ from their card's default [R34; empty: every object at its Default] -/
  active  : KMap (Option Nat) := []
  /-- Waiting shadow values [R34; empty] -/
  shadow  : KMap (Option Nat) := []
  /-- Held shadow values of the configuration hold [R42; empty] -/
  held    : KMap (Option Nat) := []
  /-- Values written for the next start, of effect B [R40; empty] -/
  nextStart : KMap (Option Nat) := []
  /-- Objects that answer CRC_ERROR until written again [R46; empty] -/
  broken  : KMap Bool := []
  /-- Owner of the hold in force [R42; none] -/
  owner   : Option Cls := none
  /-- When the hold started, in modulator clocks of State.clk [R42; 0] -/
  since   : Nat := 0
  /-- HOLD_EXPIRED of DEVICE_STATUS [R42; false] -/
  expired : Bool := false
  /-- CONFIG_EPOCH [R35; 0] -/
  epoch   : W32 := 0
  /-- Configuration tables kept per epoch: the active values of the 16 most recent epochs [R125; empty] -/
  history : KMap (KMap (Option Nat)) := []
  deriving DecidableEq, Repr, Inhabited

/-! ### Time and identity (chapters 2, 4, 6) -/

/-- The clocks: the model's monotone clock, MCLK_COUNT, the RTC and its latch. -/
structure Clock where
  /-- Elapsed modulator clocks (4.096 MHz) since the model's start, never reset [R85; 0] -/
  clk      : Nat := 0
  /-- clk at the last cast-on; MCLK_COUNT is clk minus this, modulo 2^48 [R85; 0] -/
  castOn   : Nat := 0
  /-- RTC value at its last latch (second tick or TIME_NOW write) [R158; 0, log 6] -/
  rtc      : Stamp := 0
  /-- clk at that latch [R158; 0] -/
  latch    : Nat := 0
  /-- RTC value before the last TIME_NOW write, for input instants before its latch [R158; 0] -/
  prevRtc  : Stamp := 0
  /-- clk at the latch before [R158; 0] -/
  prevLatch : Nat := 0
  /-- Remaining slew in 1/1,024 s, positive to advance [R428; 0] -/
  slew     : Int := 0
  /-- TIME_LAST_SET [R50; 0] -/
  lastSet  : Stamp := 0
  /-- A TIME_NOW write whose intervals close at the next tick [R50; false] -/
  stepped  : Bool := false
  /-- CAST_ON_TIME [Table 2.9; 0, log 6] -/
  castOnTime : Stamp := 0
  /-- CAST_ON_COUNT [Table 2.9; 0] -/
  castOns  : W32 := 0
  deriving DecidableEq, Repr, Inhabited

/-! ### Analogue front end (chapter 3) -/

/-- One modulator with its trim DACs: own modulators 0-255, spares 256-263. -/
structure Modulator where
  /-- Gain-trim code G in force [R53; 8192] -/
  gain    : Nat := 8192
  /-- Offset-trim code O in force [R54; 0] -/
  offset  : Int := 0
  /-- Retired in MOD_RETIRED, as programmed [R76; false] -/
  retired : Bool := false
  deriving DecidableEq, Repr, Inhabited

/-- What a spare is doing (Table 3.9). -/
inductive SpareState where
  | off | idle | parallel | rotation | request | held | failed
  deriving DecidableEq, Repr, Inhabited

/-- The stage a substitution or a return has reached. -/
inductive SpareStage where
  | none | fill | pairs | serving | offsetMeas | gainMeas | ownFill | ownPairs | waitCross | done
  deriving DecidableEq, Repr, Inhabited

/-- Why a spare was asked for: a rotation slot, a CH_SUBSTITUTE request, a hard fault, or a signature slot (R62, R270). -/
inductive SpareWhy where
  | rotation | request | fault | signature
  deriving DecidableEq, Repr, Inhabited

/-- One spare converter SPk. -/
structure Spare where
  /-- SPARE_STATE nibble [Table 3.9; idle] -/
  st     : SpareState := .idle
  /-- Channel served or examined [R62; none] -/
  ch     : Option Nat := none
  /-- Reason of the present service [Table 3.5; rotation] -/
  why    : SpareWhy := .rotation
  /-- Stage of the handover [R62; none] -/
  stage  : SpareStage := .none
  /-- clk at the start of the stage [R62; 0] -/
  since  : Nat := 0
  /-- clk at the start of the slot [R66; 0] -/
  slotAt : Nat := 0
  /-- SPARE_SLOT_MS taken at the slot start [R75; 0] -/
  slotMs : Nat := 0
  /-- Parallel pairs (sample index, original, spare) collected [R62; none] -/
  own    : List (Nat × Int) := []
  /-- The spare's samples of the parallel run [R62; none] -/
  spare  : List (Nat × Int) := []
  /-- Alignment gain g in 2^-24 [R63; 2^24] -/
  g      : Int := 16777216
  /-- Alignment offset c in 2^-24 sample units [R63; 0] -/
  c      : Int := 0
  /-- Interpolated gain trim at the handover, 0.01 ppm [R259; 0] -/
  g0     : Int := 0
  /-- Interpolated offset trim at the handover, nV [R259; 0] -/
  o0     : Int := 0
  /-- Accepted alignment gains per channel of the group, in 2^-24 [R64; none] -/
  stored : KMap Int := []
  /-- Drift or signature measurement: offset in nV [R66; 0] -/
  measOffset : Int := 0
  /-- Drift or signature measurement: gain in 0.01 ppm [R66; 0] -/
  measGain : Int := 0
  /-- SELF cycles issued and run in the offset half and in the gain half [R274; 0] -/
  selfIssued0 : Nat := 0
  selfRun0 : Nat := 0
  selfIssued1 : Nat := 0
  selfRun1 : Nat := 0
  /-- A fold into the spare's own DACs is due at the next boundary [R260; false] -/
  foldDue : Bool := false
  /-- Interpolated codes at the fold [R260; 8192, 0] -/
  foldGain : Nat := 8192
  foldOffset : Int := 0
  /-- A failed channel that takes the spare once the present service ends [R70; none] -/
  next   : Option Nat := none
  deriving DecidableEq, Repr, Inhabited

/-- The samples of the preset that a lane has left: they serve the cycle that ended at the change (R90). -/
structure OldLane where
  preset  : Nat := 1
  next    : Nat := 0
  ringOff : Nat := 0
  ring    : KMap (Option Int) := []
  deriving DecidableEq, Repr, Inhabited

/-- One channel of the filter and its front end. -/
structure Chan where
  /-- CH_ENABLE has taken effect and the lane runs [R60; false] -/
  running : Bool := false
  /-- Preset the lane runs [R90; 1] -/
  preset  : Nat := 1
  /-- Preset waiting for 24 further old samples, with the count left [R90; none] -/
  change  : Option (Nat × Nat) := none
  /-- Samples the lane still writes after CH_ENABLE = 0 [R60; none] -/
  stopIn  : Option Nat := none
  /-- Index of the next sample [R85; 0] -/
  next    : Nat := 0
  /-- Index of the first sample written since the lane's last start [R90; 0] -/
  first   : Nat := 0
  /-- Samples before this index are invalid: the filter is filling [R60; 0] -/
  validFrom : Nat := 0
  /-- Offset of sample index k in the ring [R90; 0] -/
  ringOff : Nat := 0
  /-- Sample ring by position; a position not listed holds an invalid sample or none yet [R14; empty] -/
  ring    : KMap (Option Int) := []
  /-- Samples of the preset before the last change [R90; none] -/
  old     : Option OldLane := none
  /-- Samples served are marked invalid since this clk: a hard fault [R68; none] -/
  faultAt : Option Nat := none
  /-- Spare number serving the channel [R59; none] -/
  onSpare : Option Nat := none
  /-- No working converter [R72; false] -/
  uncovered : Bool := false
  /-- STUCK of CH_HEALTH [Table 3.4; false] -/
  stuck   : Bool := false
  /-- DRIFT_OFFSET of CH_HEALTH [Table 3.4; false] -/
  driftOff : Bool := false
  /-- DRIFT_GAIN of CH_HEALTH [Table 3.4; false] -/
  driftGain : Bool := false
  /-- ALIGN_FAIL_COUNT [Table 3.4; 0] -/
  alignFail : Nat := 0
  /-- CH_SUBSTITUTE [Table 3.2; 0] -/
  substitute : Bool := false
  /-- A requested substitution waits for its retry [R64; false] -/
  retry   : Bool := false
  /-- Overrange in the current cycle [R57; false] -/
  ovr     : Bool := false
  /-- Largest magnitude in the current cycle, ppm of the range peak [R58; 0] -/
  overMax : Nat := 0
  /-- Consecutive cycles of the group without overrange [R58; 10: cycles before validity count as clean] -/
  clean   : Nat := 10
  /-- CH_OVERRANGE_COUNT [R57; 0] -/
  overCount : Nat := 0
  /-- Indices of the samples in overrange that the ring still holds [R57; none] -/
  overIdx : List Nat := []
  /-- K_ch (full-scale bits) and Delta_ch (2^-16 clock) by the boundary position from which they apply, newest first, at most
  64 [R257; none: the card's default K and no shift] -/
  trimLog : List (Nat × Nat × Int) := []
  /-- Phase trim in force, mdeg at 50 Hz [R256; 0] -/
  phase   : Int := 0
  /-- g minus drift and o minus drift in force [Table 10.6; 0] -/
  gApplied : Int := 0
  oApplied : Int := 0
  /-- A load of codes, Delta and K requested for the next boundary [R257; none] -/
  loadReq : Option (Nat × Int × Int × Int × Int × Int) := none
  deriving DecidableEq, Repr, Inhabited

/-- The housekeeping sequencer and the urgent requests. -/
structure Hk where
  /-- RUNNING [Table 3.13; false] -/
  running : Bool := false
  /-- HK_RUN = 0 written: the stop waits for the boundary of HK_SYNC_GROUP [R80; false] -/
  stopping : Bool := false
  /-- CURRENT_STEP [Table 3.13; 0] -/
  step    : Nat := 0
  /-- Repetitions of the step completed in this pass, and their sum [R79; 0] -/
  reps    : Nat := 0
  sum     : Int := 0
  /-- LOOP_COUNT [Table 3.13; 0] -/
  loops   : Nat := 0
  /-- SYNC_FALLBACK [R78; false] -/
  fallback : Bool := false
  /-- HK_RESULT[0-31] [Table 3.8; 0] -/
  result  : KMap Int := []
  /-- Whether the previous result of a step was inside its limits; listed true means outside [R81; inside] -/
  outside : KMap Bool := []
  /-- HK_LIMIT_FLAGS [R81; 0] -/
  flags   : W32 := 0
  /-- Urgent requests pending, by order 0 power, 1 tamper, 2 calibration; a tamper one is for temperature when true [R82; none] -/
  pendPower : Bool := false
  pendTamper : Option Bool := none
  pendCal : Bool := false
  /-- Urgent request running (0 power, 1 tamper, 2 calibration) and the conversion it has reached [R83; none] -/
  active  : Option Nat := none
  /-- Conversion index reached by the power, tamper and calibration request [R83; 0] -/
  posPower : Nat := 0
  posTamper : Nat := 0
  posCal  : Nat := 0
  /-- Results already delivered to the tamper and calibration requesters [R83; 0] -/
  vin     : Int := 0
  tampBg  : Int := 0
  calGap  : Int := 0
  calBg   : Int := 0
  /-- Latest TEMP_BG and TEMP_OSC results [R255; none] -/
  tBg     : Option Int := none
  tOsc    : Option Int := none
  deriving DecidableEq, Repr, Inhabited

/-! ### Filter island: thresholds, fast-trip, trackers (chapter 4) -/

/-- One threshold of a channel. -/
structure Thresh where
  /-- Tripped [R93; false] -/
  tripped : Bool := false
  /-- Consecutive count [R93; 0] -/
  count   : Nat := 0
  /-- MCLK of its last EV32 [R97; none] -/
  lastEv  : Option Nat := none
  deriving DecidableEq, Repr, Inhabited

/-- The threshold pair of a channel. -/
structure ThPair where
  hi      : Thresh := {}
  lo      : Thresh := {}
  /-- Valid samples in the rank window, newest first [R91; none] -/
  window  : List Int := []
  /-- Rank outputs of the half cycle in progress: sum of squares (in code units) and count [R92; 0] -/
  sumSq   : Nat := 0
  n       : Nat := 0
  /-- End of the half cycle in progress, MCLK input time, and whether it is the first half [R92; 0] -/
  halfEnd : Option Nat := none
  half    : Nat := 0
  /-- The half cycle holds an invalid sample [R92; false] -/
  bad     : Bool := false
  /-- TH_TRIP_COUNT [R97; 0] -/
  trips   : Nat := 0
  /-- SUSPENDED of TH_STATE [Table 4.5; false] -/
  suspended : Bool := false
  deriving DecidableEq, Repr, Inhabited

/-- One fast-trip output. -/
structure Ftrip where
  /-- Pin level [R98; low] -/
  level   : Bool := false
  /-- LATCHED [R99; false] -/
  latched : Bool := false
  /-- MIN_WIDTH_MS of a follow-mode assertion still runs [R99; false] -/
  holding : Bool := false
  deriving DecidableEq, Repr, Inhabited

/-- The zero-crossing tracker of a voltage channel. Positions are MCLK input time times 65,536. -/
structure Tracker where
  /-- Previous filtered sample [R102; none] -/
  prev    : Option Int := none
  /-- Below minus the hysteresis since the last qualified crossing [R102; false] -/
  armed   : Bool := false
  /-- Last qualified crossing [R102; none] -/
  cross   : Option Nat := none
  /-- Last periods, newest first, at most 3 [R103; none] -/
  periods : List Nat := []
  /-- Locked [R103; false] -/
  locked  : Bool := false
  /-- theta_p in 2^-32 of a period, running sum window of at most 16 unwrapped values, newest first [R104; none] -/
  theta   : List Int := []
  /-- theta ready and its kept mean in 2^-32 [R104; none] -/
  ready   : Option Int := none
  deriving DecidableEq, Repr, Inhabited

/-- A boundary record (R108, Table 4.9). -/
structure Boundary where
  cycle   : W32 := 0
  /-- Position in MCLK times 65,536 -/
  pos     : Nat := 0
  source  : Nat := 0
  changed : Bool := false
  relock  : Bool := false
  free    : Bool := false
  /-- CONFIG_EPOCH of the cycle that begins here -/
  epoch   : W32 := 0
  /-- Pattern half of the stitches issued here -/
  half    : Bool := false
  /-- It closes an aggregation window, of this number (R116, R126) -/
  closes  : Bool := false
  win     : W32 := 0
  /-- clk at which the record was written -/
  at_     : Nat := 0
  deriving DecidableEq, Repr, Inhabited

/-- A voltage group. -/
structure Group where
  /-- Enabled: VG_ENABLE has taken effect [R107; false] -/
  running : Bool := false
  /-- Start count S, MCLK [R107; 0] -/
  start   : Nat := 0
  /-- Boundary records, newest first, at most 64 [R108; none] -/
  table   : List Boundary := []
  /-- T, the last interval decided under step 1 or 2, in MCLK times 65,536 [R106; 0] -/
  period  : Nat := 0
  /-- Free run in force [R106; false] -/
  free    : Bool := false
  /-- Candidates known for the next boundary, by the output position at which each became known: (known, source, position)
  [R105; none] -/
  cands   : List (Nat × Nat × Nat) := []
  /-- VG_FALLBACK_COUNT [Table 4.11; 0] -/
  fallbacks : Nat := 0
  /-- VG_FREE_RUN_COUNT [Table 4.11; 0] -/
  freeRuns : Nat := 0
  /-- GOOD_PERIODS [Table 4.13; 0] -/
  good    : Nat := 0
  /-- Last boundary interval in ns for VG_PERIOD_NS [Table 4.11; 0] -/
  periodNs : Nat := 0
  /-- VG_ENABLE = 0 written: the group stops at its next boundary [R112; false] -/
  stopping : Bool := false
  /-- Cycles since the aggregation window opened [R116; 0] -/
  winCycles : Nat := 0
  /-- Window counter of the group [R126; 0] -/
  window  : W32 := 0
  /-- Pattern half in force for this group's stitches [R459; false] -/
  half    : Bool := false
  /-- The group has recorded its switch boundary [R459; false] -/
  switched : Bool := false
  /-- Source of the last boundary taken under step 1 or 2, for GOOD_PERIODS [Table 4.13; 0] -/
  lastSource : Nat := 0
  deriving DecidableEq, Repr, Inhabited

/-! ### Engines, queues, gates, admission (chapter 5) -/

/-- The states of a stitch entry (Table 5.5). -/
inductive StSt where
  | free | waiting | claimed | suspended | committing | done
  deriving DecidableEq, Repr, Inhabited

/-- A work-queue entry (Table 5.4 and 5.5). -/
structure Stitch where
  seq     : W32 := 0
  epoch   : W32 := 0
  /-- Subject kind: 0 account, 1 window group, 2 balance group, 3 channel -/
  kind    : Nat := 0
  num     : Nat := 0
  /-- Pattern code 0x01-0x0A -/
  pat     : Nat := 0
  cls     : Nat := 0
  skip    : Bool := false
  pset    : Bool := false
  /-- Slot of the issuing boundary record, and its voltage group -/
  bslot   : Nat := 0
  vg      : Nat := 0
  latchValid : Bool := false
  latchEst : Bool := false
  latchDel : Bool := false
  returned : Bool := false
  engine  : Nat := 0
  /-- A P2 or P3 window closing at this cycle's end, or a P3 cycle, of the subject was decimated at issue (Table 5.8) -/
  skip2   : Bool := false
  skip3   : Bool := false
  st      : StSt := .waiting
  deriving DecidableEq, Repr, Inhabited

/-- A sequenced add that a stitch still has to issue: the target line and the delta. -/
inductive AddTo where
  /-- Accumulator line of map entry n -/
  | line (n : Nat)
  /-- Quality line of an account: bits 47:0 DELAYED, 95:48 ESTIMATED (R148) -/
  | quality (a : Nat)
  /-- Prepayment energy line of an account (R230) -/
  | energy (a : Nat)
  deriving DecidableEq, Repr, Inhabited

/-- The BILL results of an account (Table 6.16), F32 fields as bit patterns. -/
structure BillRes where
  seq     : W32 := 0
  time    : Stamp := 0
  quality : Nat := 0
  p       : Nat := 0
  q       : Nat := 0
  sA      : Nat := 0
  sV      : Nat := 0
  p1      : Nat := 0
  q1      : Nat := 0
  s1      : Nat := 0
  pf      : Nat := 0
  dpf     : Nat := 0
  freq    : Nat := 0
  pSlot   : List Nat := [0, 0, 0, 0]
  qSlot   : List Nat := [0, 0, 0, 0]
  quadrant : Nat := 0
  fundExp : Bool := false
  neutral : Bool := false
  /-- Quiet run after the cycle (R161) -/
  quiet   : Nat := 0
  /-- Direction decided: true for outflow (R162); none for a cycle that decides none -/
  dirExp  : Option Bool := none
  /-- Exact active power and cycle length in clocks, for estimates, demand bound and aggregates -/
  pExact  : Rat := 0
  clocks  : Nat := 0
  /-- Why the cycle is estimated: 0 not, 1 samples lost or invalid (R15, R69), 2 a channel uncovered (R72) -/
  lost    : Nat := 0
  /-- The cycle is quiet (R161) -/
  still   : Bool := false
  /-- Contribution of the cycle: signed energy of L1, L2, L3 and U, squared currents, and UNATTRIBUTED (R214) -/
  e       : List Int := [0, 0, 0, 0]
  i2      : List Rat := [0, 0, 0]
  unattr  : Bool := false
  deriving DecidableEq, Repr, Inhabited

/-- The per-cycle RMS values of a channel (Table 6.18). -/
structure RmsRes where
  ch      : Nat := 0
  rms     : Nat := 0
  fund    : Nat := 0
  dc      : Nat := 0
  angle   : Int := 0
  /-- Mean square, exact, for the aggregates of R170 -/
  meanSq  : Rat := 0
  deriving DecidableEq, Repr, Inhabited

/-- What the leader of a group computes in RMSX (R173-R177). -/
structure LeaderRes where
  /-- U_a squared of L1, L2, L3; none where the map does not name the phase (R173) -/
  ua      : List (Option Rat) := []
  /-- Sums of squares of the first and of the second half of the cycle per phase, for U_b (R173) -/
  head    : List (Option Rat) := []
  tail    : List (Option Rat) := []
  /-- |V+|^2, |V-|^2, |V0|^2 and the sequence judgement: 0 undetermined, 1 correct, 2 wrong (R176) -/
  vPos    : Rat := 0
  vNeg    : Rat := 0
  vZero   : Rat := 0
  seqJudge : Nat := 0
  suspect : Bool := false
  ne      : Rat := 0
  /-- Every voltage that the group names had its samples (R15) -/
  whole   : Bool := true
  deriving DecidableEq, Repr, Inhabited

/-- The window results of a channel: spectra or bands as F32 bit patterns. -/
structure SpecRes where
  ch      : Nat := 0
  hUsed   : Nat := 0
  thd     : Nat := 0
  angles  : List Int := []
  /-- Exact values before conversion, for smoothing and aggregation -/
  exact   : List Rat := []
  deriving DecidableEq, Repr, Inhabited

/-- One cycle's imbalance terms of a balance group (R215), in units of 2^-40 Wh, for L1, L2, L3 and U. -/
structure BalRes where
  f       : List Int := [0, 0, 0, 0]
  c       : List Int := [0, 0, 0, 0]
  l       : List Int := [0, 0, 0, 0]
  /-- Phases with a feeder element -/
  feedPh  : List Bool := [false, false, false]
  absent  : Bool := false
  est     : Bool := false
  deriving DecidableEq, Repr, Inhabited

/-- What a stitch publishes at its gate advance. -/
inductive Pub where
  | nothing
  | bill (r : BillRes)
  | rmsx (chs : List RmsRes) (plaus : List Bool) (plausSlots : List Nat) (leader : Option LeaderRes)
  | harm (l : List SpecRes)
  | iharm (l : List SpecRes)
  | supra (r : SpecRes)
  | flick (ch : Nat) (ms : List Rat)
  | bal (r : BalRes)
  | capt (ch : Nat) (header : Bytes) (data : Bytes)
  | calx (ch : Nat) (a dc th : Rat) (stable own : Bool)
  | self
  deriving DecidableEq, Repr, Inhabited

/-- Why a stitch is suspended (R127). -/
inductive Wait where
  | samples | contributions | gate
  deriving DecidableEq, Repr, Inhabited

/-- A stitch an engine holds: its place, and what is left to do. -/
structure Held where
  /-- Queue that holds the entry -/
  q       : Nat := 0
  seq     : W32 := 0
  pat     : Nat := 0
  kind    : Nat := 0
  num     : Nat := 0
  wait    : Option Wait := none
  /-- Computed and ready: the adds left to issue, in order, and what the gate advance publishes -/
  ready   : Bool := false
  adds    : List (AddTo × Nat) := []
  quality : Nat := 0
  pub     : Pub := .nothing
  deriving DecidableEq, Repr, Inhabited

/-- Where an engine or cluster stands (Table 5.10). -/
inductive UnitSt where
  | off | starting | inService | restarting | outOfService
  deriving DecidableEq, Repr, Inhabited

/-- One metering engine. -/
structure Engine where
  /-- State of the engine [R137; in service, as CLUSTERS_IN_SERVICE resets to 0b1111] -/
  st      : UnitSt := .inService
  /-- Enable bit cleared: completes its stitches and leaves service [R150; false] -/
  draining : Bool := false
  /-- Stitch running [R127; none] -/
  run     : Option Held := none
  /-- Suspension slots, at most 4 [R115; empty] -/
  susp    : List Held := []
  /-- clk of its counted resets within the window [R137; none] -/
  resets  : List Nat := []
  /-- clk of its last reset, for COMMON_CAUSE [Table 5.6; none] -/
  lastReset : Option Nat := none
  /-- ENGINE_STITCHES [Table 5.9; 0] -/
  done    : Nat := 0
  deriving DecidableEq, Repr, Inhabited

/-- One engine cluster. -/
structure Cluster where
  /-- STATE of CLUSTER_STATUS [Table 5.10; in service, as CLUSTERS_IN_SERVICE resets to 0b1111] -/
  st      : UnitSt := .inService
  /-- The restart in progress was a service's (cause 0x07) [Table 5.6; false] -/
  svc     : Bool := false
  draining : Bool := false
  /-- RESET_COUNT [Table 5.10; 0] -/
  count   : Nat := 0
  /-- clk of its counted resets within the window [R137; none] -/
  resets  : List Nat := []
  deriving DecidableEq, Repr, Inhabited

/-- A gate stream: its commit gate and claim counter in the twinned area (R131, R128). -/
structure Stream where
  /-- The stream has been started [R123; false] -/
  live    : Bool := false
  gate    : W32 := 0
  claim   : W32 := 0
  /-- SEQ of the last stitch issued [R123; 0] -/
  last    : W32 := 0
  deriving DecidableEq, Repr, Inhabited

/-- Queues, engines, gates and admission. -/
structure Eng where
  /-- WQ0-WQ31: the entries between head and tail, oldest first [R120; empty] -/
  wq      : KMap (List Stitch) := []
  /-- Head index of each queue, modulo 256 [R120; 0] -/
  head    : KMap Nat := []
  engines : KMap Engine := []
  clusters : KMap Cluster := []
  /-- Commit gates and claim counters by stream key [R131; none] -/
  streams : KMap Stream := []
  /-- 64-entry issue buffer [R124; empty] -/
  buffer  : List Stitch := []
  /-- Stitches still to be issued after a pause, in issue order [R124; empty] -/
  paused  : List Stitch := []
  /-- Streams whose window in progress is lost by an epoch change, by stream key [Table 6.23; none] -/
  lostWin : KMap Bool := []
  /-- Automatic home queues assigned, by stream key, queue plus one [R123; none] -/
  home    : KMap Nat := []
  /-- P2_ADMIT_16, CAPT_ADMIT_16, SUPRA_ADMIT_16 in force as last computed [Table 5.12; 16] -/
  p2      : Nat := 16
  capt    : Nat := 16
  supra   : Nat := 16
  /-- Admission values in force per group, taken at its boundary [R140; 16, 16, 16] -/
  byGroup : KMap (Option (Nat × Nat × Nat)) := []
  /-- NO_CLUSTER [R145; false] -/
  noCluster : Bool := false
  /-- BACKLOG_GUARD and whether the whole second so far has been clean [R144; false] -/
  guard   : Bool := false
  guardClean : Bool := false
  /-- ACTIVE and EXIT_PENDING of OVERLOAD_STATE, and the hold count [R146; false, 0] -/
  ovr     : Bool := false
  exitCount : Nat := 0
  /-- CAPACITY_MMACS, DEMAND_MMACS, ADMITTED_MMACS, P0_DEMAND_MMACS [Table 5.11; 0, log 7] -/
  capacity : Nat := 0
  demand  : Nat := 0
  admitted : Nat := 0
  p0demand : Nat := 0
  /-- OVERLOAD_ENTRY_COUNT and BACKLOG_GUARD_COUNT [Table 5.11; 0] -/
  overEntries : Nat := 0
  guards  : Nat := 0
  /-- STITCHES_STOLEN_LOCAL, STITCHES_STOLEN_REMOTE, STITCHES_RETURNED, ADDS_DISCARDED [Table 5.9; 0] -/
  stolenLocal : Nat := 0
  stolenRemote : Nat := 0
  returned : Nat := 0
  discarded : Nat := 0
  /-- PATTERN_COST[0-9] where measured [Table 5.9; none: the nominal cost of R140] -/
  cost    : KMap Nat := []
  /-- P3 and P2 windows skipped per account, the first half of SKIP_COUNTERS [R148; 0] -/
  skip3   : KMap Nat := []
  skip2   : KMap Nat := []
  /-- Issue halted by a trip or at the end of step 1 of a commanded bind-off [R342; false] -/
  halted  : Bool := false
  /-- Issue unit armed: power verification passed [R351; false] -/
  armed   : Bool := false
  deriving DecidableEq, Repr, Inhabited

/-! ### Quantities, aggregates, power quality, capture (chapter 6) -/

/-- A running aggregate: weighted sum, weight, and its flags. -/
structure Agg where
  sum     : Rat := 0
  weight  : Rat := 0
  partial_ : Bool := false
  flagged : Bool := false
  n       : Nat := 0
  /-- Number of the RTC interval it belongs to -/
  iv      : Nat := 0
  deriving DecidableEq, Repr, Inhabited

/-- A running aggregate of spectral values: sums of squares, windows in all and valid ones, flags, interval (R200). -/
structure SpecAgg where
  sum     : List Rat := []
  n       : Nat := 0
  valid   : Nat := 0
  partial_ : Bool := false
  flagged : Bool := false
  iv      : Nat := 0
  qual    : Nat := 0
  lastEnd : Stamp := 0
  deriving DecidableEq, Repr, Inhabited

/-- A plausibility check of an account: its run and flag (R178). -/
structure Plaus where
  run     : Nat := 0
  flag    : Bool := false
  slots   : Nat := 0
  deriving DecidableEq, Repr, Inhabited

/-- One account. -/
structure Acct where
  /-- The account has begun its first cycle since it was enabled [R155; false] -/
  running : Bool := false
  /-- ACC_CYCLE_COUNT: SEQ of the next cycle to be issued [R155; 1] -/
  cycle   : W32 := 1
  /-- BILL results published [Table 6.16; zero record] -/
  bill    : BillRes := {}
  /-- RES_RMSX_SEQ [Table 6.16; 0] -/
  rmsxSeq : W32 := 0
  /-- VALID of RES_STATUS [Table 6.17; false] -/
  valid   : Bool := false
  /-- Last reported direction is outflow [R164; false: inflow] -/
  repExp  : Bool := false
  /-- Direction run and the cycle of its first member [R164; 0] -/
  dirRun  : Nat := 0
  dirFirst : W32 := 0
  /-- The four checks of Table 6.15 [R178; clear] -/
  plaus   : KMap Plaus := []
  /-- Active power of the newest cycle committed without ESTIMATED since cast-on [R492; none] -/
  newest  : Option Rat := none
  /-- (end clk, clocks, P) of cycles without ESTIMATED within the last 60 s, newest first [R492; none] -/
  recent  : List (Nat × Nat × Rat) := []
  /-- Whole-second accumulation for the loss-bound demand: second, sum of |P| T, clocks [R198; 0] -/
  secAt   : Nat := 0
  secSum  : Rat := 0
  secClk  : Nat := 0
  /-- 16 per-minute maxima of the loss-bound demand, keyed minute modulo 16, with their minute [R198; none] -/
  bound   : KMap (Nat × Rat) := []
  /-- End stamp of the last committed BILL cycle [R23; 0] -/
  lastEnd : Stamp := 0
  lastCommitted : W32 := 0
  /-- P_AGG10_W, P_AGG150_W, P_AGG10MIN_W values published [Table 6.16; 0.0] -/
  agg10   : Nat := 0
  agg150  : Nat := 0
  agg10m  : Nat := 0
  /-- Accumulations behind them [R170; empty] -/
  a10     : Agg := {}
  a150    : Agg := {}
  a10m    : Agg := {}
  /-- SEQ of the first stitch naming the new pattern half has committed [R461; false] -/
  newHalf : Bool := false
  deriving DecidableEq, Repr, Inhabited

/-- Results of a channel (Table 6.18). -/
structure ChRes where
  rms     : RmsRes := {}
  seq     : W32 := 0
  /-- CR_RMS_AGG[0-3] bit patterns and CR_AGG_STATUS [Table 6.18; 0] -/
  agg     : List Nat := [0, 0, 0, 0]
  aggStatus : Nat := 0
  /-- Running aggregates: window, 150/180 cycles, 10 minutes, 2 hours [R170; empty] -/
  a       : KMap Agg := []
  winSeq  : W32 := 0
  winQual : Nat := 0
  hUsed   : Nat := 0
  thd     : Nat := 0
  pst     : Nat := 0
  plt     : Nat := 0
  supraSeq : W32 := 0
  bands   : List Nat := []
  harm    : List Nat := []
  angle   : List Int := []
  iharm   : List Nat := []
  /-- Smoothing filter states, exact [R167; none] -/
  smHarm  : List Rat := []
  smIharm : List Rat := []
  /-- Pst values by interval number, newest first, at most 12 [R169; none] -/
  psts    : List (Nat × Nat) := []
  /-- Cycle mean squares of the Pst interval in progress, newest first, and the interval's number [R169; none, 0] -/
  flick   : List Rat := []
  flickIv : Nat := 0
  /-- First cycle of the channel at this stamp, for the 60 s of settling [R169; none] -/
  firstAt : Option Stamp := none
  /-- Squared spectral values summed over an aggregation interval, with window count: kind * 4 + interval [R200; empty] -/
  specAgg : KMap SpecAgg := []
  /-- RECORD_SEQ of the spectral records per kind [R200; 0] -/
  specSeq : KMap Nat := []
  deriving DecidableEq, Repr, Inhabited

/-- A dip, swell or interruption in progress (R174). -/
structure PqEvent where
  start   : Stamp := 0
  /-- Start instant in MCLK times 65,536 -/
  pos     : Nat := 0
  phases  : Nat := 0
  extreme : Rat := 0
  phase   : Nat := 0
  unlocked : Bool := false
  deriving DecidableEq, Repr, Inhabited

/-- The power-quality record of a voltage group. -/
structure PqGroup where
  dip     : Option PqEvent := none
  swell   : Option PqEvent := none
  interruption : Option PqEvent := none
  /-- Sequence judgement in force (0 undetermined, 1 correct, 2 wrong), the pending one and its run [R176; 0] -/
  seqState : Nat := 0
  seqPend : Nat := 0
  seqRun  : Nat := 0
  /-- Last judged Correct or Wrong, for EV34 [R176; 0 none] -/
  seqLast : Nat := 0
  neutral : Bool := false
  neutralRun : Nat := 0
  /-- Second-half sums of the previous cycle per phase, and the position of its point 128 (R173) -/
  tail    : List (Option Rat) := []
  tailAt  : Nat := 0
  /-- Spans of closed events, newest first, at most 32, in MCLK times 65,536, for the flagging of R170 [none] -/
  spans   : List (Nat × Nat) := []
  /-- Spectral records written per interval since the last EV53 [R200; 0] -/
  spec    : KMap Nat := []
  /-- PQ_EVENT_COUNTS [Table 6.20; 0] -/
  dips    : Nat := 0
  swells  : Nat := 0
  interruptions : Nat := 0
  outages : Nat := 0
  /-- RECORD_SEQ of the last event record [Table 6.13; 0, log 8] -/
  recSeq  : W32 := 0
  /-- OUTAGE record of this cast-on still to be written [R175; false] -/
  outageDue : Bool := false
  /-- PQ_FREQ10S_HZ and its running interval: number, cycles, clocks [R172; 0] -/
  freq10  : Nat := 0
  fIval   : Nat := 0
  fCycles : Nat := 0
  fClocks : Nat := 0
  /-- PQ_UNBALANCE_PCT and sums of |V-|^2, |V+|^2 over the window [R176; 0] -/
  unbal   : Nat := 0
  sNeg    : Rat := 0
  sPos    : Rat := 0
  short   : Bool := false
  deriving DecidableEq, Repr, Inhabited

/-- A buffered capture slot (R183). -/
structure CaptSlot where
  ch      : Nat := 0
  busy    : Bool := false
  ready   : Bool := false
  first   : W32 := 0
  blocks  : Nat := 0
  next    : Nat := 0
  flags   : Nat := 0
  firstTime : Stamp := 0
  /-- STOP written: the capture ends after this cycle [R183; none] -/
  stopAt  : Option W32 := none
  /-- Pre-trigger cycles still to issue, as group cycle counters, once the trigger is known [R183; none] -/
  trigger : Option W32 := none
  issued  : Bool := false
  /-- CYCLES option taken at the trigger -/
  cycles  : Nat := 0
  deriving DecidableEq, Repr, Inhabited

/-! ### Lines, demand, profile, slots, pulses, snapshots (chapter 7) -/

/-- A 16-byte accumulator line (Table 7.3). -/
structure Line where
  value   : BitVec 96 := 0
  marker  : W32 := 0
  deriving DecidableEq, Repr, Inhabited

/-- The demand registers of a tracked entry (R194). -/
structure Demand where
  /-- Maximum demand, exact, its stamp, and the last demand [R194; 0] -/
  max     : Rat := 0
  maxAt   : Stamp := 0
  last    : Rat := 0
  /-- Energy of closed sub-periods, newest first, at most 15, and the open one with its number [R194; 0] -/
  closed  : List Nat := []
  open_   : Nat := 0
  period  : Nat := 0
  /-- Energies of cycles that belong to later sub-periods than the open one: (number, energy) [R195; none] -/
  later   : List (Nat × Nat) := []
  deriving DecidableEq, Repr, Inhabited

/-- The load-profile state of an entry: V_open of the period and energy cleared within it (R199). -/
structure Profile where
  open_   : Nat := 0
  cleared : Nat := 0
  wasCleared : Bool := false
  /-- Energy of cycles whose end stamp lies beyond the open period -/
  beyond  : Nat := 0
  deriving DecidableEq, Repr, Inhabited

/-- A threshold slot (R201). -/
structure Slot where
  tripped : Bool := false
  run     : Nat := 0
  deriving DecidableEq, Repr, Inhabited

/-- A pulse output (R202-R207). Edge times are in clk of 4.096 MHz times 125, rounded to whole microseconds of 512 each. -/
structure Pulse where
  residue : Nat := 0
  /-- Scheduled edges in time order: (time in us, true rising) [R203; none] -/
  edges   : List (Nat × Bool) := []
  /-- DEFERRED [Table 7.11; 0] -/
  owed    : Nat := 0
  overspeed : Bool := false
  late    : Bool := false
  level   : Bool := false
  /-- Time of the last rising edge and of the last edge, us [R204; none] -/
  lastRise : Option Nat := none
  lastEdge : Option Nat := none
  deriving DecidableEq, Repr, Inhabited

/-- A class's snapshot (R193). -/
structure Snap where
  /-- STATE 0 empty, 1 waiting, 2 ready, 3 stale -/
  state   : Nat := 0
  subject : Nat := 0
  time    : Stamp := 0
  seq     : W32 := 0
  items   : List (Nat × Nat × Nat × Nat) := []
  deriving DecidableEq, Repr, Inhabited

/-- Accumulators and the units that see their adds. -/
structure Acc where
  /-- Accumulator lines n [Table 7.3; 0] -/
  lines   : KMap Line := []
  /-- Quality lines per account [R148; 0] -/
  quality : KMap Line := []
  /-- Prepayment energy lines per account [R230; 0] -/
  energy  : KMap Line := []
  demand  : KMap Demand := []
  profile : KMap Profile := []
  /-- Profile period in progress per subject (number), record sequence numbers and QUALITY_OR [R199; 0] -/
  profAt  : KMap Nat := []
  profSeq : KMap Nat := []
  profQual : KMap Nat := []
  /-- Energy profile records of the period written so far [R199; 0] -/
  profCount : Nat := 0
  slots   : KMap Slot := []
  pulses  : KMap Pulse := []
  /-- Snapshots of the H, F and S class [R193; empty] -/
  snaps   : KMap Snap := []
  /-- An add has been applied since cast-on: the METERING point is due or past [R352; false] -/
  applied : Bool := false
  deriving DecidableEq, Repr, Inhabited

/-! ### Balance (chapter 8) -/

/-- A contribution entry (Table 8.1). -/
structure Contrib where
  vgCycle : W32 := 0
  /-- 0 EMPTY, 1 ISSUED, 2 ABSENT, 3 FILLED -/
  st      : Nat := 0
  flags   : Nat := 0
  e       : List Int := [0, 0, 0, 0]
  /-- I_e^2 per phase, exact -/
  i2      : List Rat := [0, 0, 0]
  deriving DecidableEq, Repr, Inhabited

/-- A balance group's stream record and results. -/
structure BalGroup where
  /-- BG_ENABLE has taken effect and its first cycle has begun [R211; false] -/
  running : Bool := false
  /-- BG_CYCLE_COUNT [R211; 1] -/
  cycle   : W32 := 1
  /-- Window sums: number, F, C, L per phase in 2^-40 Wh, clocks, cycles, first cycle, quality OR [R219; 0] -/
  winAt   : Nat := 0
  f       : List Int := [0, 0, 0, 0]
  c       : List Int := [0, 0, 0, 0]
  l       : List Int := [0, 0, 0, 0]
  clocks  : Nat := 0
  cycles  : Nat := 0
  first   : W32 := 0
  qualOr  : Nat := 0
  /-- Length of the window in progress in 1/1,024 s; 0 while none is [R218; 0] -/
  winLen  : Nat := 0
  /-- End stamp of the window's last cycle -/
  lastEnd : Stamp := 0
  est     : Bool := false
  absent  : Bool := false
  feedPh  : List Bool := [false, false, false]
  /-- BG_STATUS fields [Table 8.10; 0] -/
  hold    : Nat := 0
  clear   : Nat := 0
  items   : Nat := 0
  feederFlagged : Bool := false
  cause   : Nat := 0
  alarm   : Bool := false
  /-- WINDOW_SEQ of the last window [R494; 0] -/
  winSeq  : W32 := 0
  /-- BG_LAST_WINDOW [Table 8.7; all 0x00] -/
  lastWin : Bytes := []
  /-- BG_CANDIDATES and BG_SUSPECTS, by account [R223; empty] -/
  cands   : List Nat := []
  suspects : List Nat := []
  /-- BG_EVENT_COUNT [Table 8.7; 0] -/
  events  : W32 := 0
  /-- The first epoch of a changed configuration: the window in progress closes with CONFIG_CHANGED before its first cycle
  [R220; none] -/
  configAt : Option W32 := none
  outageDue : Bool := false
  deriving DecidableEq, Repr, Inhabited

/-! ### Prepayment, relays, keys (chapter 9) -/

/-- A credit line in secure SRAM (Table 9.1). -/
structure Credit where
  credit  : BitVec 64 := 0
  xfer    : W32 := 0
  debitSeq : W32 := 0
  block   : Nat := 0
  chargeDay : Nat := 0
  ec      : Bool := false
  lowRep  : Bool := false
  exhRep  : Bool := false
  gap     : Bool := false
  residue : Nat := 0
  periodId : Nat := 0
  deriving DecidableEq, Repr, Inhabited

/-- What the prepayment unit keeps per account outside the credit line. -/
structure Prepay where
  /-- Disconnect sources CREDIT, TAMPER, OUTAGE_PENDING; HOST follows PP_HOST_DISCONNECT [R242; false] -/
  srcCredit : Bool := false
  srcTamper : Bool := false
  srcOutage : Bool := false
  restored : Bool := false
  band    : Nat := 0
  blk     : Nat := 0
  /-- Tariff of the last debit or charge, plus one [R234; 0 none] -/
  lastTariff : Nat := 0
  /-- Levels are evaluated: PP_MODE was 1 [R239; false] -/
  on      : Bool := false
  /-- A close waits for PP_RECONNECT_ARM [R242; false] -/
  waitArm : Bool := false
  /-- PP_AUTH_FAIL_COUNT [Table 9.11; 0] -/
  authFails : Nat := 0
  /-- PP_LAST_TRANSFER [Table 9.11; empty: all 0x00] -/
  lastXfer : Bytes := []
  /-- What set the TAMPER source: codes of the detections [R375; none] -/
  tamperBy : List Nat := []
  deriving DecidableEq, Repr, Inhabited

/-- An entry of the prepayment schedule: its instant, band, friendly flags and day (R237). -/
structure SchedEntry where
  time    : Stamp := 0
  band    : Nat := 0
  night   : Bool := false
  weekend : Bool := false
  holiday : Bool := false
  day     : Nat := 0
  dst     : Bool := false
  deriving DecidableEq, Repr, Inhabited

/-- The phase of the relay operation that runs (R245). -/
inductive RlyPhase where
  | idle | pulse | settle
  deriving DecidableEq, Repr, Inhabited

/-- The relay operation in progress. -/
structure RlyOp where
  opens   : Bool := true
  accts   : List Nat := []
  /-- Slots with the retries each has had -/
  slots   : List (Nat × Nat) := []
  deriving DecidableEq, Repr, Inhabited

/-- The relay-chain port. -/
structure Relay where
  /-- RLY_READBACK, RLY_PRESENT, RLY_FAULT, RLY_COMMANDED; listed slots are set [Table 9.8; none] -/
  closed  : KMap Bool := []
  present : KMap Bool := []
  fault   : KMap Bool := []
  commanded : KMap Bool := []
  /-- Slots that differed from their command, or were absent, in the previous scan [R246; none] -/
  diff    : List Nat := []
  absent  : List Nat := []
  /-- Open operations queued: accounts in order of queuing [R245; none] -/
  openQ   : List Nat := []
  /-- Close operations queued [R245; none] -/
  closeQ  : List Nat := []
  /-- Restoring operations queued by R246: slot and commanded closed [R246; none] -/
  restoreQ : List (Nat × Bool) := []
  phase   : RlyPhase := .idle
  op      : Option RlyOp := none
  /-- Slots to include in the next operation of the same kind: slot, open, retries so far [R246; none] -/
  retry   : List (Nat × Bool × Nat) := []
  /-- clk of the last close command latch [R245; none] -/
  lastClose : Option Nat := none
  /-- Scan frames since cast-on, saturating at 2 [R247; 0] -/
  scans   : Nat := 0
  deriving DecidableEq, Repr, Inhabited

/-- The prepayment unit. -/
structure Pp where
  credit  : KMap Credit := []
  acct    : KMap Prepay := []
  /-- KEY_DEVICE and KEY_ACCOUNT as loaded [R250; not loaded] -/
  keyDevice : Option Bytes := none
  keys    : KMap (Option Bytes) := []
  /-- KEY_COUNTER [Table 9.10; 0] -/
  keyCounter : W32 := 0
  /-- Band, friendly flags, day and DST in force [R237; 0] -/
  now     : SchedEntry := {}
  /-- What was in force before the last schedule entry, for cycles that end before it [R232; 0] -/
  prev    : SchedEntry := {}
  sched   : List SchedEntry := []
  /-- A TIME_NOW write waits for the rebuilt schedule [R237; false] -/
  frozen  : Bool := false
  relay   : Relay := {}
  deriving DecidableEq, Repr, Inhabited

/-! ### Calibration (chapter 10) -/

/-- The states of a step's channel (Table 10.11). -/
inductive StepSt where
  | waitReturn | stabilising | measuring | converged | signature | stored | abandoned
  deriving DecidableEq, Repr, Inhabited

/-- One channel of the calibration step. -/
structure StepCh where
  st      : StepSt := .stabilising
  stable  : Nat := 0
  iters   : Nat := 0
  /-- Sums of the iteration: cycles, RMS, DC, phase in mdeg at 50 Hz -/
  n       : Nat := 0
  sumA    : Rat := 0
  sumD    : Rat := 0
  sumTh   : Rat := 0
  /-- Trims of the step: 0.01 ppm, nV, mdeg -/
  g       : Int := 0
  o       : Int := 0
  ph      : Int := 0
  residG  : Int := 0
  residPh : Int := 0
  sigOk   : Bool := false
  sigG    : Int := 0
  sigO    : Int := 0
  implausible : Bool := false
  deriving DecidableEq, Repr, Inhabited

/-- The calibration unit. -/
structure Cal where
  owner   : Option Cls := none
  compat  : Bool := false
  /-- clk of the owner's last write [R262; 0] -/
  lastWrite : Nat := 0
  /-- A step runs, its channels and its resolved point (7 none) [R264; none] -/
  running : Bool := false
  chans   : KMap (Option StepCh) := []
  point   : Nat := 7
  startT  : Option Int := none
  endDue  : Bool := false
  /-- Number of steps started since cast-on [R268; 0] -/
  steps   : Nat := 0
  /-- CS_PASSED, CS_FAILED, CS_BANDGAP_UV [Table 10.9; 0, log 7] -/
  passed  : List Nat := []
  failed  : List Nat := []
  bandgap : Int := 0
  /-- CAL_TEMP_IN_USE [R255; 25,000] -/
  ta      : Int := 25000
  /-- The AO island's last reading of the oscillator sensor on VBAT, in m degC [R368; none] -/
  tOscAo  : Option Int := none
  /-- The display temperature has been measured since supply-good [R403; false] -/
  measured : Bool := false
  split   : Bool := false
  /-- RECAL_RUNNING, RECAL_DUE, a pass waiting for its urgent conversion, one more due [R273; false] -/
  passRun : Bool := false
  passDue : Bool := false
  passConv : Bool := false
  again   : Bool := false
  /-- Pass: channels already visited, measured, changed, retired counts [R275; 0] -/
  visited : List Nat := []
  nMeas   : Nat := 0
  nChanged : Nat := 0
  nRetired : Nat := 0
  passTemp : Int := 0
  /-- METERING has become set since the last pass start [R273; false] -/
  meterTrig : Bool := false
  /-- RECAL_LAST_TEMP, RECAL_LAST_TIME, RECAL_COUNT [Table 10.9; 0] -/
  lastTemp : Int := 0
  lastTime : Stamp := 0
  count   : W32 := 0
  /-- CAL_QUALITY per channel plus one, 0 where no step has ended [Table 10.8; 0] -/
  quality : KMap Nat := []
  /-- CAL_DRIFT_GAIN and CAL_DRIFT_OFFSET_NV [Table 10.6; 0] -/
  driftG  : KMap Int := []
  driftO  : KMap Int := []
  untracked : KMap Bool := []
  clamped : KMap Bool := []
  deriving DecidableEq, Repr, Inhabited

/-! ### Non-volatile store and journal (chapter 12) -/

/-- Where the newest valid record of a journal key stands: its sequence number and its page. -/
structure JRec where
  seq  : W32 := 0
  page : Nat := 0
  deriving DecidableEq, Repr, Inhabited

/-- A live record of a store: its value, its sequence number, the pair that holds it and its payload bytes. -/
structure SRec where
  val  : Nat := 0
  seq  : W32 := 0
  pair : Nat := 0
  len  : Nat := 0
  deriving DecidableEq, Repr, Inhabited

/-- The configuration store or the calibration store: a ring of twin pairs (R315). -/
structure Store where
  /-- Live records by object key [R315; empty] -/
  recs : KMap (Option SRec) := []
  /-- Append point: pair and byte offset in its pages [R315; 0] -/
  pair : Nat := 0
  off  : Nat := 0
  seq  : W32 := 0
  /-- Pairs written since manufacture and not yet reclaimed, oldest first [R317; empty] -/
  used : List Nat := []
  /-- CFG_STORE_FULL or CAL_STORE_FULL [Table 12.12; false] -/
  full : Bool := false
  deriving DecidableEq, Repr, Inhabited

/-- A SAVE_MARK of the journal (Table 12.4). -/
structure Mark where
  seq    : W32 := 0
  time   : Stamp := 0
  groups : List Nat := []
  deriving DecidableEq, Repr, Inhabited

/-- An ACCOUNT_STATUS entry: end of the last committed cycle, loss-bound demand (F32 bits), last committed cycle. -/
structure AcctStatus where
  lastEnd : Stamp := 0
  bound   : Nat := 0
  cycle   : W32 := 0
  deriving DecidableEq, Repr, Inhabited

/-- What the newest valid journal records hold. -/
structure Kept where
  /-- Accumulator, quality and energy lines as last recorded [R318; 0] -/
  lines   : KMap Line := []
  quality : KMap Line := []
  /-- Demand maxima by map entry: F32 bits and stamp [Table 12.4; 0] -/
  demand  : KMap (Nat × Stamp) := []
  /-- Credit lines by account [Table 12.4; 0] -/
  credit  : KMap Credit := []
  /-- ACCOUNT_STATUS by account [Table 12.4; none] -/
  status  : KMap AcctStatus := []
  /-- J objects by object key [R322; none] -/
  objs    : KMap (Option Nat) := []
  /-- TRANSFER records per account, 32 bytes each, oldest first: the newest, and those newer than its credit record [R228; none] -/
  xfers   : KMap Bytes := []
  /-- Accounts with the TAMPER source and what set it, as last saved [R491; none] -/
  tampered : List (Nat × List Nat) := []
  /-- Save marks, newest first [R332; none] -/
  marks   : List Mark := []
  deriving DecidableEq, Repr, Inhabited

/-- A last-gasp session (R330): its records in order, as journal keys, and what the trip latched. -/
structure Session where
  pfd     : Stamp := 0
  keys    : List Nat := []
  groups  : List Nat := []
  markSeq : W32 := 0
  seq     : W32 := 0
  /-- Records of the session found valid, from the first [R332; 0] -/
  valid   : Nat := 0
  deriving DecidableEq, Repr, Inhabited

/-- The NVM island. -/
structure Nvm where
  /-- Bytes of the image slots, the tamper log, the event log and the archive that differ from the unlisted byte [R307; empty] -/
  mem     : List Host.Cell := []
  /-- Pages of image slot A programmed since delivery; the other pages of the slot hold the factory image [R488; none] -/
  aOver   : KMap Bool := []
  cfg     : Store := {}
  cal     : Store := {}
  /-- Journal index by record key [R322; empty] -/
  jrn     : KMap (Option JRec) := []
  kept    : Kept := {}
  /-- Head page counted from the ring's start without wrap, byte offset in it, SEQ of the head record [R320; 0] -/
  jHead   : Nat := 0
  jOff    : Nat := 0
  jSeq    : W32 := 0
  /-- Tail page, counted like the head [R320; 0] -/
  jTail   : Nat := 0
  /-- Dirty bits of the line groups, quality groups, demand groups and credit groups [R318; clear] -/
  dirty   : KMap Bool := []
  dirtyQ  : KMap Bool := []
  dirtyD  : KMap Bool := []
  dirtyC  : KMap Bool := []
  /-- Bad pages, as the bad-page map record lists them [R310; none] -/
  bad     : List Nat := []
  /-- PROGRAM_FAIL per bank [Table 12.13; false] -/
  progFail : KMap Bool := []
  /-- NB_PROGRAMS per bank [Table 12.11; 0] -/
  programs : KMap Nat := []
  /-- Values of SC0-SC63 [R324; 0] -/
  sc      : KMap Nat := []
  /-- Next event-log slot and its record SEQ [R329; 0] -/
  evSlot  : Nat := 0
  evSeq   : W32 := 0
  /-- Archive head, byte offset, and its record SEQ [R329; 0] -/
  archAt  : Nat := 0
  archSeq : W32 := 0
  /-- RESTORED, HEAD_FOUND and READABLE of NVM_STATUS [Table 12.12; false] -/
  restored : Bool := false
  headFound : Bool := false
  readable : Bool := false
  /-- LG_PARTIAL [Table 12.12; false] -/
  lgPartial : Bool := false
  /-- LAST_GASP_REPORT [Table 12.14; all 0x00] -/
  report  : Bytes := []
  /-- The session written since the last restoration [R330; none] -/
  session : Option Session := none
  /-- NVM_LAST_ERROR [Table 12.11; all 0x00] -/
  lastError : Bytes := []
  /-- REFRESH_PAGES [Table 12.11; 0] -/
  refreshed : Nat := 0
  /-- Journal pages programmed per day, newest day first, at most 30, today first [R320; empty] -/
  perDay  : List Nat := []
  /-- Day of the last EV23 with cause LIFE [R320; none] -/
  lifeDay : Option Nat := none
  /-- The NVM island restarts since this clk [R334; none] -/
  restartAt : Option Nat := none
  /-- Keys whose twin records both failed [R46; none] -/
  lost    : List Nat := []
  deriving DecidableEq, Repr, Inhabited

/-! ### Power (chapter 13) -/

/-- Where the device stands between supply-good and rest. -/
inductive PwrMode where
  | off | castOn | run | bindOff | powerFail | backup | rest
  deriving DecidableEq, Repr, Inhabited

/-- The step a commanded bind-off has reached (R354). -/
inductive BindStep where
  | none | boundaries | gates | relays | save | display | off
  deriving DecidableEq, Repr, Inhabited

/-- The power unit of the AO island. -/
structure Pwr where
  /-- Power mode; MODE of POWER_STATUS follows it [Table 13.8; off, before the first supply-good: MODE reads CAST_ON] -/
  mode    : PwrMode := .off
  /-- LAST_TRIP_SOURCE [Table 13.8; 0] -/
  source  : Nat := 0
  /-- PFD_TIME latched at the trip and clk of the trip [R338; 0] -/
  pfdTime : Stamp := 0
  tripAt  : Nat := 0
  /-- Emergency order running after a trip, not a restart under R12 [R342; false] -/
  tripped : Bool := false
  /-- Conditions of R345: EV2 or 2.70 V reached; holdoff passed; EWARN released [R345; true: no trip yet] -/
  gaspEnded : Bool := true
  holdoffDone : Bool := true
  /-- A commanded bind-off to restart waits for its holdoff, or a rest for VIN33 [R354; none] -/
  bind    : BindStep := .none
  bindRestart : Bool := false
  /-- Groups that still owe the boundary of bind-off step 1 [R354; none] -/
  bindGroups : List Nat := []
  /-- VIN33 has returned and the buck, the LDO and the crystal start [R348; false] -/
  started : Bool := false
  /-- Supply-good has been reached and waits for the other conditions of R345 [R345; false] -/
  good    : Bool := false
  /-- RESET_CAUSE [Table 2.11; 0x00] -/
  cause   : Nat := 0
  /-- RESET_CAUSE that the next cast-on reports [Table 2.11; 0x00 first supply] -/
  nextCause : Nat := 0
  /-- EWARN pin level [Table 13.8; low] -/
  ewarn   : Bool := false
  /-- HOLDUP_READY [R351; false] -/
  ready   : Bool := false
  /-- HOLDUP_SHORT [R344; false] -/
  short   : Bool := false
  /-- AO_SUPPLY is VBAT [Table 13.8; false] -/
  onVbat  : Bool := false
  /-- clk at the switch to VBAT [R359; 0] -/
  vbatAt  : Nat := 0
  /-- VBAT_LAST_MV [Table 13.7; 0, log 7] -/
  vbat    : Nat := 0
  /-- VBAT_LOW [R346; false] -/
  vbatLow : Bool := false
  /-- Lowest VBAT of the backup period [R346; none] -/
  vbatMin : Option Nat := none
  /-- BACKUP_LOST [R347; false] -/
  backupLost : Bool := false
  /-- Windows in breach per rail, and clk of the last EV6 per rail [R358; none] -/
  breach  : KMap Bool := []
  lastEv6 : KMap (Option Nat) := []
  /-- THERMAL_SHED [R357; false] -/
  shed    : Bool := false
  /-- START_RETRIES and retries of this cast-on [R348; 0] -/
  retries : Nat := 0
  retriesNow : Nat := 0
  /-- LAST_PFD_TIME [Table 2.9; 0] -/
  lastPfd : Stamp := 0
  /-- LAST_OUTAGE fields: trip time, cast-on time, source, flags, VBAT minimum, HOLDUP_US, BACKUP_S, GASP_US [Table 13.9; 0] -/
  outTrip : Stamp := 0
  outCast : Stamp := 0
  outSource : Nat := 0
  outFlags : Nat := 0
  outVbat : Nat := 0
  outHold : Nat := 0
  outBackup : Nat := 0
  outGasp : Nat := 0
  /-- METERING of DEVICE_STATUS [R352; false] -/
  metering : Bool := false
  /-- The present cast-on follows a trip, so that SC4 steps at METERING [R352; false] -/
  afterTrip : Bool := false
  /-- LOSS_BOUNDED of DEVICE_STATUS [Table 2.10; false] -/
  lossBounded : Bool := false
  /-- Loss records of this cast-on, due at the METERING point: 32 bytes each [R352; none] -/
  losses  : List Bytes := []
  /-- Time at which the restoration of R322 completed [R352; 0] -/
  restoredAt : Stamp := 0
  deriving DecidableEq, Repr, Inhabited

/-! ### Events, rings and ports (chapters 16 and 17) -/

/-- An entry of a service ring. -/
structure Entry where
  seq   : W32 := 0
  /-- Units occupied (R440) -/
  units : Nat := 1
  /-- Port of origin: 0 H, 1 F, 2 S -/
  port  : Nat := 0
  /-- Classes that have still to acknowledge it (R442) -/
  await : List Cls := []
  /-- Entry bytes from SEQ on: an event entry, a log or capture entry, or a response -/
  data  : Bytes := []
  /-- SR0 and SR2: the command frame, and that it came as a broadcast -/
  bcast : Bool := false
  /-- clk at which it entered the ring -/
  at_   : Nat := 0
  /-- First unit it occupies in the ring's area (R440) -/
  unit  : Nat := 0
  /-- A word of it is poisoned (R284) -/
  bad   : Bool := false
  deriving DecidableEq, Repr, Inhabited

/-- A service ring. -/
structure Ring where
  entries : List Entry := []
  /-- Sequence number of the last entry [R440; 0] -/
  seq     : W32 := 0
  /-- Unit at which the next entry starts [R440; 0] -/
  next    : Nat := 0
  /-- OVERFLOW [Table 17.9; 0] -/
  lost    : Nat := 0
  /-- The next entry carries LOST_BEFORE [R443; false] -/
  mark    : Bool := false
  /-- A command has been refused since the ring last had room [R417; false] -/
  refused : Bool := false
  /-- Read position of each class, by class code: the next sequence number to return, plus one [R442; 0 the oldest entry] -/
  pos     : KMap Nat := []
  /-- Last sequence number returned by RING_READ, plus one, by class code [R420; 0 none] -/
  read    : KMap Nat := []
  deriving DecidableEq, Repr, Inhabited

/-- An event held back until the METERING point. -/
structure Deferred where
  time  : Stamp := 0
  src   : Nat := 0
  count : Nat := 1
  data  : Bytes := []
  deriving DecidableEq, Repr, Inhabited

/-- The event unit and the rings. -/
structure Evt where
  /-- SR0-SR7 [R438; empty] -/
  rings   : KMap Ring := []
  /-- EVENT_PENDING bits [Table 17.6; 0] -/
  pending : KMap Bool := []
  /-- EVENT_COUNT per source [Table 17.6; 0] -/
  count   : KMap Nat := []
  /-- Boot buffer, at most 64 [R446; empty] -/
  boot    : List Deferred := []
  /-- Events a rule holds until METERING [R446; empty] -/
  deferred : List Deferred := []
  /-- BOOT_EVENTS_LOST [Table 17.6; 0] -/
  bootLost : Nat := 0
  deriving DecidableEq, Repr, Inhabited

/-- An entry of a port's repeat table (R414). -/
structure Repeat where
  tag  : Nat := 0
  crc  : Nat := 0
  /-- Sequence number of the command in its ring -/
  seq  : W32 := 0
  op   : Nat := 0
  /-- Stored response: header and at most 56 payload bytes; none until executed -/
  resp : Option Bytes := none
  /-- The stored response was truncated -/
  cut  : Bool := false
  deriving DecidableEq, Repr, Inhabited

/-- A port's bulk data window (R421). -/
structure Bulk where
  area  : Nat := 0
  off   : Nat := 0
  /-- COUNT of the window and bytes still to deliver -/
  count : Nat := 0
  left  : Nat := 0
  /-- The two buffers, oldest first, as filled: bytes ready for BULK_READ, or none where the burst begins at a poisoned word -/
  buf   : List (Option Bytes) := []
  deriving DecidableEq, Repr, Inhabited

/-- One dictionary port: H 0, F 1, S 2. -/
structure Port where
  /-- Repeat table, newest first, at most 32 [R414; empty] -/
  rep     : List Repeat := []
  bulk    : Bulk := {}
  /-- ACCEPTED, CRC_ERRORS, BUSY_REFUSALS and REPEATS [Table 16.16; 0] -/
  accepted : Nat := 0
  crcErrors : Nat := 0
  busy    : Nat := 0
  repeats : Nat := 0
  /-- CRC failures since the last EV50 and its clk [R416; 0] -/
  crcSince : Nat := 0
  lastEv50 : Option Nat := none
  /-- PSTAT fields: LAST_TAG, RETRY_MS, LAST_RESULT, LAST_STATUS [Table 16.7; 0] -/
  lastTag : Nat := 0
  lastRetry : Nat := 0
  lastResult : Nat := 0
  lastStatus : Nat := 0
  /-- TAG of an accepted GFP ring command whose first reply is due [R426; none] -/
  owes    : Option Nat := none
  /-- What the port has sent since the last frame or transaction began: the GFP frame, or the bytes of HMISO [R415, R424; none] -/
  sent    : Option Bytes := none
  deriving DecidableEq, Repr, Inhabited

/-- The instruction in force in the TAP (Table 16.15). -/
inductive Tap where
  | idcode | extest | sample | clamp | highz | dbgMem | bypass
  deriving DecidableEq, Repr, Inhabited

/-- The port island. -/
structure Ports where
  p       : KMap Port := []
  /-- F_LAST_SYNC [Table 16.16; all 0x00] -/
  lastSync : Bytes := []
  /-- I2C_TEMP_MC, VALID, NACK, TIMEOUT, ERROR_COUNT, BUS_RECOVERED [Table 16.14; 0] -/
  temp    : KMap Int := []
  valid   : KMap Bool := []
  nack    : KMap Bool := []
  timeout : KMap Bool := []
  errors  : Nat := 0
  recovered : Bool := false
  /-- Port objects of effect F that wait for their answer to be sent: ring (1 or 3) * 2^32 plus the answer's sequence number,
  plus one, by object key [Table 2.2; none] -/
  fWait   : KMap Nat := []
  /-- TAP instruction [R434; IDCODE] -/
  tap     : Tap := .idcode
  /-- Pins with cells taken from their islands, or floating [R434; false] -/
  pinsTaken : Bool := false
  pinsFloat : Bool := false
  /-- The DBG_MEM register: DATA, ADDRESS, DONE, ERROR [R435; 0] -/
  dbgData : BitVec 64 := 0
  dbgAddr : W32 := 0
  dbgDone : Bool := false
  dbgErr  : Bool := false
  /-- The port island restarts since this clk [R430; none] -/
  restartAt : Option Nat := none
  deriving DecidableEq, Repr, Inhabited

/-! ### On-chip memory (chapter 11) -/

/-- What a spare row of a bank is used for (Table 11.11). -/
inductive SpareRow where
  | free | serves (row : Nat) | bad | transit
  deriving DecidableEq, Repr, Inhabited

/-- One main SRAM bank. -/
structure Bank where
  /-- The 16 spare rows as the remap unit has them [Table 11.11; free] -/
  spares  : KMap SpareRow := []
  /-- ECC_CORRECTED_COUNT of the bank [Table 11.13; 0] -/
  corrected : Nat := 0
  /-- Corrections since the bank's last EV16, and clk of that event [R283; none] -/
  since   : Nat := 0
  lastEv16 : Option Nat := none
  /-- Words corrected per physical row in the scrub pass in progress, and its word cursor [R291; 0] -/
  rows    : KMap Nat := []
  pass    : Nat := 0
  cursor  : Nat := 0
  /-- CORRECTED_LAST_PASS [Table 11.15; 0] -/
  lastPass : Nat := 0
  /-- POISONED_WORDS [Table 11.15; 0] -/
  poisoned : Nat := 0
  /-- Poisonings in the current RTC second, and that second [R283; 0] -/
  ev17s   : Nat := 0
  ev17At  : Nat := 0
  /-- TRANSIT_FAILED, SPARES_EXHAUSTED, LOCKED, ONLINE [Table 11.15; false] -/
  transitFailed : Bool := false
  exhausted : Bool := false
  locked  : Bool := false
  online  : Bool := false
  deriving DecidableEq, Repr, Inhabited

/-- A preserving run: banks, algorithm and backgrounds, and rows still to test per bank (R304). -/
structure March where
  banks   : Nat := 0
  alg     : Nat := 0
  bg      : Nat := 0
  failed  : Nat := 0
  pending : Nat := 0
  deriving DecidableEq, Repr, Inhabited

/-- The memory island. -/
structure Mem where
  banks   : KMap Bank := []
  /-- Poisoned 64-bit words of main SRAM by address, and of the secure SRAM by offset + 2^31 [R281; none] -/
  poison  : KMap Bool := []
  /-- ECC_UNCORRECTABLE_COUNT and ECC_LAST_ERROR [Table 11.13; 0] -/
  uncorrectable : Nat := 0
  lastError : Bytes := []
  /-- ACCESS_VIOLATION_COUNT, ACCESS_LAST_VIOLATION, and clk of the last EV18 per slot [R293; 0] -/
  violations : Nat := 0
  lastViolation : Bytes := []
  lastEv18 : KMap (Option Nat) := []
  /-- TABLES_LOCKED and the life-cycle state whose policy the tables hold [R294; false, BLANK] -/
  locked  : Bool := false
  policy  : Nat := 0
  /-- SECURE_STATE: 0 VALID, 1 WIPED, 2 REBUILT [Table 11.14; 0] -/
  secure  : Nat := 0
  /-- Line recoveries in progress: line and the time its poison was detected [R286; none] -/
  recovering : List (Nat × Stamp) := []
  /-- Requested and periodic run in progress [R304; none] -/
  request : Option March := none
  periodic : Option March := none
  /-- Rows queued by the scrubber: bank and row [R291; none] -/
  scrubQ  : List (Nat × Nat) := []
  /-- MARCH_STARTUP of the next cast-on, set by a destructive request [R304; none] -/
  destructive : Option Nat := none
  /-- ROWS_FAILED and STARTUP_FAIL [Table 11.17; 0] -/
  rowsFailed : Nat := 0
  startupFail : Bool := false
  /-- Capture buffer bytes that differ from the unlisted byte 0x00 [Table 11.1; empty] -/
  capture : List Host.Cell := []
  deriving DecidableEq, Repr, Inhabited

/-! ### Tamper controller and life cycle (chapter 14) -/

/-- A run of flags of one detector, or a supply glitch: its last flag, its start, its count and its data. -/
structure Flags where
  last    : Nat := 0
  start   : Nat := 0
  count   : Nat := 0
  confirmed : Bool := false
  deriving DecidableEq, Repr, Inhabited

/-- The monitors of one clock (R361-R365). Instants are nanoseconds of the AO island's own time. -/
structure ClkMon where
  /-- Last condemned window of detector A: start, end, count [R363; none] -/
  win     : Option (Nat × Nat × Nat) := none
  /-- Start of the unbroken run of condemned windows [R365; none] -/
  badSince : Option Nat := none
  /-- Last flag of detector B and its phase [R363; none] -/
  bAt     : Option Nat := none
  bPhase  : Nat := 0
  /-- The running single event of each detector, A then B [R363; none] -/
  evA     : Option Flags := none
  evB     : Option Flags := none
  /-- Instants of single events of both detectors within the confirmation window, newest first [R363; none] -/
  singles : List Nat := []
  /-- Instants of single events per detector within the last 24 h, newest first [R364; none] -/
  dayA    : List Nat := []
  dayB    : List Nat := []
  lastEv9 : Option Nat := none
  lastEv10 : Option Nat := none
  /-- CLK_EVENTS of detectors A and B [Table 14.7; 0] -/
  nA      : Nat := 0
  nB      : Nat := 0
  lost    : Bool := false
  /-- Flags not yet confirmed nor counted: detector 0 A or 1 B, instant, count or phase [R363; none] -/
  pend    : List (Nat × Nat × Nat) := []
  deriving DecidableEq, Repr, Inhabited

/-- A glitch monitor of one rail (R367). -/
structure GlitchMon where
  last    : Option Nat := none
  singles : List Nat := []
  /-- GLITCH_EVENTS [Table 14.7; 0] -/
  n       : Nat := 0
  deriving DecidableEq, Repr, Inhabited

/-- A TAMP or MAG input. -/
structure TampIn where
  active  : Bool := false
  run     : Nat := 0
  deriving DecidableEq, Repr, Inhabited

/-- An entry of the AO log buffer (Table 14.5, without CHECK), with the event it raises when drained. -/
structure LogEntry where
  time    : Stamp := 0
  source  : Nat := 0
  flags   : Nat := 0
  resp    : Nat := 0
  event   : Nat := 0xFF
  lc      : Nat := 0
  count   : Nat := 1
  data    : Bytes := []
  /-- The event waits for the drain: its DATA -/
  evData  : Option Bytes := none
  deriving DecidableEq, Repr, Inhabited

/-- The tamper controller. -/
structure Tamper where
  main    : ClkMon := {}
  rtc     : ClkMon := {}
  glitch  : KMap GlitchMon := []
  tamp    : KMap TampIn := []
  mag     : KMap TampIn := []
  /-- TEMP_ALARM, consecutive VBAT readings outside, start of the stay inside the span [R368; false] -/
  tempAlarm : Bool := false
  tempRun : Nat := 0
  tempIn  : Option Nat := none
  /-- AO log buffer, oldest first [R380; empty] -/
  buf     : List LogEntry := []
  /-- AO_OVERFLOW_COUNT, and losses since the last drain [R380; 0] -/
  overflow : Nat := 0
  lostNow : Nat := 0
  /-- Holdoff per source: clk of its last entry and the detections folded since [R382; none] -/
  holdoff : KMap (Option (Nat × Nat)) := []
  /-- Selvedge tamper mark as the controller requests it [R373; false] -/
  mark    : Bool := false
  /-- Accounts of the AO pending set [R379; none] -/
  pendSet : KMap Bool := []
  /-- ZEROIZED, and a zeroize since the present cast-on began [R374; false] -/
  zeroized : Bool := false
  zeroNow : Bool := false
  /-- MAIN_ON_RC, RTC_ON_RC and TIME_SUSPECT [R366; false] -/
  mainOnRc : Bool := false
  rtcOnRc : Bool := false
  suspect : Bool := false
  /-- The clock tree is stopped until the PLL relocks [R366; false] -/
  stopped : Bool := false
  /-- The cast-on waits for a clean crystal [R366; false] -/
  needClean : Bool := false
  /-- A response demands a whole-device restart with this RESET_CAUSE [R374; none] -/
  restartDue : Option Nat := none
  /-- RESET_CAUSE of the restart that the relock begins [R366; 0x05 or 0x02] -/
  stopCause : Nat := 0
  /-- The first cast-on after an AO power-on reset owes the BACKUP_LOST detection [R371; false] -/
  lostDue : Bool := false
  /-- TAMP_LAST_ENTRY [Table 14.7; all 0x00] -/
  lastEntry : Bytes := []
  /-- Last tamper-log slot written, for the comparison of R380 [empty] -/
  lastSlot : Bytes := []
  /-- MAINT_UNTIL [Table 14.7; 0] -/
  maint   : Stamp := 0
  /-- BG suspects as published at the last SET, per group, and groups in ALARM [R373; none] -/
  balActive : KMap (List Nat) := []
  /-- Last verified VCORE in microvolts [Table 14.5; 0] -/
  vcore   : Int := 0
  deriving DecidableEq, Repr, Inhabited

/-- Life-cycle cells and keys. -/
structure Life where
  /-- Programmed copies of cells 1-5, 0 to 3 each [R383; 0: BLANK] -/
  cells   : List Nat := [0, 0, 0, 0, 0]
  /-- KEY_RETURN [R386; not programmed] -/
  keyReturn : Option Bytes := none
  /-- Number of LC_NONCE draws so far; the value is the free value of Config at it [R384; 0] -/
  nonce   : Nat := 0
  /-- LC_HISTORY [Table 14.13; 0] -/
  history : List Stamp := [0, 0, 0, 0, 0]
  /-- EV15 and its history entry due at METERING: old, new, class [R385; none] -/
  due     : Option (Nat × Nat × Nat) := none
  /-- The maintenance window suppresses that EV15 [R377; false] -/
  quiet   : Bool := false
  deriving DecidableEq, Repr, Inhabited

/-! ### Display (chapter 15) -/

/-- STATE of DISP_STATUS (Table 15.10). -/
inductive DispSt where
  | off | pumpUp | balancing | waveform | hold | clearing | discharging | abandoned | waiting
  deriving DecidableEq, Repr, Inhabited

/-- What the main driver runs. -/
inductive DispWork where
  | none | update | clear | balance | discharge
  deriving DecidableEq, Repr, Inhabited

/-- One selvedge segment on the AO driver (R407). -/
structure Selv where
  /-- Shown black [R406; white] -/
  shown   : Bool := false
  target  : Bool := false
  /-- Transition running: colour it started from, colour it goes to -/
  run     : Option (Bool × Bool) := none
  /-- Balancing frames left, and frame reached in the sequence -/
  bal     : Nat := 0
  frame   : Nat := 0
  /-- clk at the start of the frame [R400; 0] -/
  frameAt : Nat := 0
  /-- Clearing half-cycles left (R408) -/
  clear   : Nat := 0
  table   : Bytes := []
  deriving DecidableEq, Repr, Inhabited

/-- The display. -/
structure Disp where
  st      : DispSt := .off
  work    : DispWork := .none
  /-- DISP_IMAGE [Table 15.8; all 0x00] -/
  image   : Nat := 0
  /-- Image and waveform table copied at the start [R397, R398; 0] -/
  copy    : Nat := 0
  table   : Bytes := []
  /-- DISP_SHOWN of SEG0-SEG87 [Table 15.8; all white] -/
  shown   : Nat := 0
  /-- The 96 balances [R400; 0] -/
  balance : KMap Int := []
  /-- Balances as the journal holds them are used after an AO reset: BACKUP_BALANCE [R400; false] -/
  backup  : Bool := false
  /-- DIRTY, BAND_INVALID, PUMP_FAIL [Table 15.10; false] -/
  dirty   : Bool := false
  invalid : Bool := false
  pumpFail : Bool := false
  /-- UPDATE_PENDING, CLEAR_PENDING, BAL_PENDING, a power-off discharge waiting [Table 15.10; false] -/
  pendUpdate : Bool := false
  pendClear : Bool := false
  pendBal : Bool := false
  pendOff : Bool := false
  /-- Pumps run [R393; false] -/
  pumps   : Bool := false
  /-- The rails discharge [R393; false] -/
  falling : Bool := false
  /-- Band in force, and band of the running or last update [R396; 0: the index at 25 degrees is applied at cast-on] -/
  band    : Nat := 0
  bandRun : Nat := 0
  /-- Balancing frames of the run, frame reached, clearing half-cycle reached, frames run in all [R401; 0] -/
  balN    : Nat := 0
  balNeed : KMap Nat := []
  frame   : Nat := 0
  half    : Nat := 0
  frames  : Nat := 0
  /-- clk at the start of the frame in progress [R392; 0] -/
  frameAt : Nat := 0
  /-- Phase of the power-off discharge (Table 15.4) [0] -/
  offStep : Nat := 0
  /-- DISP_UPDATE_COUNT [Table 15.8; 0] -/
  updates : Nat := 0
  /-- Display temperature in use in m degC, and measured since supply-good [R396; 25,000, false] -/
  temp    : Int := 25000
  measured : Bool := false
  /-- clk of the last valid external reading [R396; none] -/
  extAt   : Option Nat := none
  /-- The clearing sequence of the cast-on is due [R403; false] -/
  clearDue : Bool := false
  /-- Selvedge segments 0-7, for SEG88-SEG95 [R406; white] -/
  selv    : KMap Selv := []
  /-- The outage mark is latched [R406; false] -/
  outage  : Bool := false
  /-- The display island restarts since this clk [Table 1.2; none] -/
  restartAt : Option Nat := none
  deriving DecidableEq, Repr, Inhabited

/-! ### Update (chapter 18) -/

/-- The UPD_STATE values (Table 18.6). -/
inductive UpdSt where
  | idle | receiving | verifying | staged | armed | activating | trial | fallenBack | rejected
  deriving DecidableEq, Repr, Inhabited

/-- The boot record (Table 18.4). -/
structure Boot where
  run     : Nat := 0
  pset    : Nat := 0
  state   : Nat := 0
  starts  : Nat := 0
  window  : Nat := 0
  activated : Stamp := 0
  deadline : Stamp := 0
  trialVer : Nat := 0
  fallenVer : Nat := 0
  deriving DecidableEq, Repr, Inhabited

/-- The update unit. -/
structure Upd where
  st      : UpdSt := .idle
  /-- UPD_PAGE_MAP [Table 18.6; none] -/
  pages   : KMap Bool := []
  /-- REJECT_CAUSE and FALLBACK_CAUSE [Table 18.7; 0] -/
  reject  : Nat := 0
  fallback : Nat := 0
  /-- Boot record as stored [R466; slot A confirmed] -/
  boot    : Boot := {}
  retainedBad : Bool := false
  faults  : Nat := 0
  billSeen : Bool := false
  switched : Bool := false
  confirm : Bool := false
  /-- A trial without deadline after RETAINED_BAD [R463; false] -/
  noDeadline : Bool := false
  /-- The restart in progress activates or falls back [R458, R463; false] -/
  restarting : Bool := false
  backRestart : Bool := false
  /-- Switch instant t_sw, once known [R459; none] -/
  tsw     : Option Stamp := none
  /-- Half of the pattern code memory in force for groups that have switched [R117; 0] -/
  newHalf : Bool := false
  /-- Versions the pattern halves hold: slot of half 0 and of half 1 [R117; slot A, none] -/
  half0   : Option Nat := some 0
  half1   : Option Nat := none
  /-- Activation waits for the tick after METERING [R465; false] -/
  afterMetering : Bool := false
  /-- EV59 is owed by a REARM or VERIFY in progress; the command was REARM [R464; false] -/
  rearm   : Bool := false
  deriving DecidableEq, Repr, Inhabited

/-! ### Islands -/

/-- Restarts in progress and the watchdog. -/
structure Isl where
  /-- The control island restarts since this clk; it serves no ring meanwhile [R13; none] -/
  control : Option Nat := none
  /-- The control island has served since cast-on: the image check has passed [R349; false] -/
  served  : Bool := false
  /-- Cause of the running control restart [R13; 0] -/
  cause   : Nat := 0
  /-- WATCHDOG_COUNT [Table 17.8; 0] -/
  dogs    : Nat := 0
  /-- clk of the last expiry [R450; none] -/
  dogAt   : Option Nat := none
  /-- clk of the last kick or of the last restart [R450; 0] -/
  kick    : Nat := 0
  deriving DecidableEq, Repr, Inhabited

/-! ### The whole block -/

/-- The state of the QVM-9256. -/
structure State where
  dict    : Dict := {}
  clock   : Clock := {}
  /-- Modulators 0-255 and spares 256-263 -/
  mods    : KMap Modulator := []
  spares  : KMap Spare := []
  chans   : KMap Chan := []
  hk      : Hk := {}
  th      : KMap ThPair := []
  ftrip   : KMap Ftrip := []
  tracks  : KMap Tracker := []
  groups  : KMap Group := []
  eng     : Eng := {}
  accts   : KMap Acct := []
  chres   : KMap ChRes := []
  pq      : KMap PqGroup := []
  capt    : KMap CaptSlot := []
  /-- MISSED of CAPT_STATUS [Table 6.27; 0] -/
  captMissed : Nat := 0
  acc     : Acc := {}
  bal     : KMap BalGroup := []
  /-- Contribution entries, key account * 8 + slot [R211; EMPTY] -/
  contrib : KMap Contrib := []
  pp      : Pp := {}
  cal     : Cal := {}
  nvm     : Nvm := {}
  pwr     : Pwr := {}
  evt     : Evt := {}
  ports   : Ports := {}
  mem     : Mem := {}
  tamper  : Tamper := {}
  life    : Life := {}
  disp    : Disp := {}
  upd     : Upd := {}
  isl     : Isl := {}
  /-- The answer to the last dictionary request or inline command [Table 16.3] -/
  ans     : Answer := {}
  /-- Commands waiting, first in, first out [the model's own; empty] -/
  pending : List Instr := []
  deriving DecidableEq, Repr, Inhabited

/-- No command of the block ends in a fault: every rule names the outcome. -/
inductive Fault where
  /-- Raised by nothing: the type is kept for the host's interface. Safe: it stops. -/
  | none
  deriving DecidableEq, Repr

/-- The refusals. -/
inductive Refusal where
  /-- A command whose meaning is not written yet, rejected by its mnemonic in Dispatch. Safe: the run stops. -/
  | notModelled (mnemonic : String)
  deriving DecidableEq, Repr

/-- The block as it leaves reset: before the first VIN33, every object at its Default, nothing in the journal, the log,
the rings or the queues, life-cycle state BLANK, slot A confirmed (R32, R47, R322, R488). -/
def State.reset : State := {}

end Sys2Proof.Machine
end

