-- ==== Sys2Proof/Machine/Ops.lean ====
section
/-! DEFINITION. The named operations that every family shares: active values, time, sparse byte arrays, events, rings, the
event log, stores, journal and spread counters. -/
namespace Sys2Proof.Machine

/-! ### Active values of the dictionary (R32, R34, R38) -/

/-- The active value of an object as stored bits: what was written, else its card's Default (R32). -/
def State.cfg (s : State) (key : Nat) : Nat := (s.dict.active.get key).getD (dfltOf key)

/-- An active value read as two's complement of so many bytes. -/
def State.cfgI (s : State) (bytes key : Nat) : Int := sgn bytes (s.cfg key)

/-- An active F32 value. -/
def State.cfgF (s : State) (key : Nat) : Rat := ofF32 (s.cfg key)

/-- An active BOOL value. -/
def State.cfgB (s : State) (key : Nat) : Bool := decide (s.cfg key ≠ 0)

/-- Set an active value; the Default is not listed (R32). -/
def State.setCfg (s : State) (key val : Nat) : State :=
  { s with dict := { s.dict with
      active := s.dict.active.set key (if val = dfltOf key then none else some val) } }

/-! ### Time (R28, R85, R158) -/

/-- Modulator clocks in one 1/1,024 s. -/
def clkPer : Nat := 4000

/-- Modulator clocks in one millisecond. -/
def clkMs : Nat := 4096

/-- TIME_NOW: the RTC at its last latch advanced by the elapsed clocks, held at the end of its second until the tick that
the RTC gives (R28, R158, R428). -/
def State.now (s : State) : Stamp :=
  s.clock.rtc + min (1023 - s.clock.rtc % 1024) ((s.clock.clk - s.clock.latch) / clkPer)

/-- MCLK_COUNT: modulator clocks since cast-on, modulo 2^48 (R85). -/
def State.mclk (s : State) : Nat := (s.clock.clk - s.clock.castOn) % 2 ^ 48

/-- The stamp of an input instant given as an MCLK count in 2^-16 clocks (R158): from the latch in force, or from the latch
before it when the instant lies before a TIME_NOW write. -/
def State.stampOf (s : State) (pos : Nat) : Stamp :=
  let c : Int := (s.clock.castOn : Int) + (pos : Int) / 65536
  let d : Int := c - s.clock.latch
  let viaPrev := decide (c < s.clock.latch) && s.clock.stepped
  let v : Int := if viaPrev then (s.clock.prevRtc : Int) + (c - s.clock.prevLatch) / (clkPer : Int)
    else (s.clock.rtc : Int) + d / (clkPer : Int)
  v.toNat

/-- Advance the model's clock to at least a value. -/
def State.toClk (s : State) (c : Nat) : State := { s with clock := { s.clock with clk := max s.clock.clk c } }

/-- Seconds of a stamp, and its day number. -/
def secOf (t : Stamp) : Nat := t / 1024
def dayOf (t : Stamp) : Nat := t / 1024 / 86400

/-! ### Sparse byte arrays -/

/-- The byte at an address of a sparse array whose unlisted bytes read as fill (DEDUCED, log 58; DEDUCED, log 59). -/
def cellGet (fill : Byte) : List Host.Cell → Nat → Byte
  | [], _ => fill
  | (a, b) :: t, k => if a = k then b else cellGet fill t k

/-- Write one byte, keeping the list in its canonical form (DEDUCED, log 58; DEDUCED, log 59). -/
def cellSet (fill : Byte) : List Host.Cell → Nat → Byte → List Host.Cell
  | [], k, v => if v = fill then [] else [(k, v)]
  | (a, b) :: t, k, v =>
    if a = k then (if v = fill then t else (k, v) :: t)
    else if k < a then (if v = fill then (a, b) :: t else (k, v) :: (a, b) :: t)
    else (a, b) :: cellSet fill t k v

/-- Write a run of bytes from an address on. -/
def cellsSet (fill : Byte) (m : List Host.Cell) (a : Nat) : Bytes → List Host.Cell
  | [] => m
  | b :: t => cellsSet fill (cellSet fill m a b) (a + 1) t

/-- Read a run of n bytes from an address on. -/
def cellsGet (fill : Byte) (m : List Host.Cell) (a : Nat) : Nat → Bytes
  | 0 => []
  | n + 1 => cellGet fill m a :: cellsGet fill m (a + 1) n

/-- The canonical form of a sparse byte array above a bound: addresses strictly rising, no byte equal to the fill (DEDUCED, log 59). -/
def cellsWf (fill : Byte) : Option Nat → List Host.Cell → Bool
  | _, [] => true
  | lo, (a, b) :: t =>
    (match lo with
     | none => true
     | some l => decide (l < a)) && decide (b ≠ fill) && cellsWf fill (some a) t

/-! ### NVM programs (R307-R310) -/

/-- The NVM island restarts: its budget of 0.3 ms, 1,228 clocks, has not passed (Table 1.2, R334). -/
def State.nvmDown (s : State) : Bool := match s.nvm.restartAt with
  | none => false
  | some c => decide (s.clock.clk < c + 1228)

/-- Count one page program of the page's bank (Table 12.11). -/
def State.program (s : State) (page : Nat) : State :=
  { s with nvm := { s.nvm with programs := s.nvm.programs.upd (page % 8) (· + 1) } }

/-- Count the programs of n pages from a page on. -/
def State.programs (s : State) (page : Nat) : Nat → State
  | 0 => s
  | n + 1 => State.programs (s.program page) (page + 1) n

/-- Write bytes of the NVM array in place, counting one program per page touched (R309) (DEDUCED, log 59). -/
def State.nvmWrite (s : State) (addr : Nat) (b : Bytes) : State :=
  let s := s.programs (addr / 256) ((addr + b.length + 255) / 256 - addr / 256)
  let first := addr / 256
  let n := (addr + b.length + 255) / 256 - first
  let ovr := ((rangeFrom first n).filter (fun p => decide (p < 3072))).foldl
    (fun (m : KMap Bool) p => KMap.set m p true) s.nvm.aOver
  { s with nvm := { s.nvm with mem := cellsSet 0xFF s.nvm.mem addr b, aOver := ovr } }

/-- The byte of the NVM array at an address of the image slots, the logs or the archive; slot A as delivered holds the
factory image (R488, Table 12.1) (DEDUCED, log 59). -/
def State.nvmByte (s : State) (addr : Nat) : Byte :=
  if addr < 786432 ∧ s.nvm.aOver.get (addr / 256) = false then Config.factoryByte addr else cellGet 0xFF s.nvm.mem addr

/-- A record of the format of Table 12.3 (DEDUCED, log 28). -/
def nvmRecord (seq : W32) (index sub kind flags : Nat) (payload : Bytes) : Bytes :=
  let h := le 4 seq.toNat ++ le 1 kind ++ le 1 sub ++ le 2 index ++ le 2 payload.length ++ le 2 flags
  let r := h ++ le 4 (crc32 (h ++ payload)) ++ payload
  padTo ((r.length + 15) / 16 * 16) r

/-! ### Rings and events (R438-R448) -/

/-- The units of a ring (Table 17.1). -/
def ringUnits (k : Nat) : Nat := if k = 4 ∨ k = 5 then 512 else 256

/-- The units of a ring in use (DEDUCED, log 27). -/
def Ring.used (r : Ring) : Nat := r.entries.foldl (fun n e => n + e.units) 0

/-- Free units of a ring (Table 17.9) (DEDUCED, log 27). -/
def State.ringFree (s : State) (k : Nat) : Nat := ringUnits k - (s.evt.rings.get k).used

/-- The number of a master class: H 0, F 1, S 2, C 3; also the number of its port. -/
def clsNo : Cls → Nat
  | .h => 0
  | .f => 1
  | .s => 2
  | .c => 3

/-- The master classes that consume a ring (R442, Table 17.7). -/
def State.consumers (s : State) (k : Nat) : List Cls :=
  let v := s.cfg oRingConsumers
  let n := (k - 4) * 4
  [Cls.h, Cls.f, Cls.s].filter (fun q => bit v (n + clsNo q))

/-- Change one ring. -/
def State.setRing (s : State) (k : Nat) (f : Ring → Ring) : State :=
  { s with evt := { s.evt with rings := s.evt.rings.upd k f } }

/-- Place an entry of so many units at the end of a ring under the ring's next sequence number (R440) (DEDUCED, log 27). -/
def State.ringAdd (s : State) (k : Nat) (e : W32 → Entry) : State :=
  s.setRing k (fun r =>
    let x := e (r.seq + 1)
    { r with
      entries := r.entries ++ [{ x with seq := r.seq + 1, unit := r.next }], seq := r.seq + 1, mark := false
      next := (r.next + x.units) % ringUnits k })

/-- Append an entry to SR4, SR5 or SR6 (R442, R443): mk gives the bytes from the sequence number and LOST_BEFORE. A ring
nobody consumes releases the entry at once; a full ring counts the loss. -/
def State.ringPut (s : State) (k units : Nat) (mk : W32 → Bool → Bytes) : State :=
  let r := s.evt.rings.get k
  let who := s.consumers k
  if who = [] then
    s.setRing k (fun r => { r with seq := r.seq + 1, mark := false })
  else if s.ringFree k < units then
    s.setRing k (fun r => { r with lost := sat 4095 (r.lost + 1), mark := true })
  else
    s.ringAdd k (fun q => { units := units, await := who, data := mk q r.mark, at_ := s.clock.clk })

/-- The event-log slot to use: a slot in a bad page is passed over (R310); fuel bounds the search. -/
def evSlotOk (bad : List Nat) : Nat → Nat → Nat
  | 0, k => k
  | n + 1, k => if bad.contains (12288 + k / 4) then evSlotOk bad n ((k / 4 * 4 + 4) % 2048) else k

/-- Append one record to the event log ring (R329, R313). -/
def State.eventLog (s : State) (kind : Nat) (rec : Bytes) : State :=
  let seq := s.nvm.evSeq + 1
  let slot := evSlotOk s.nvm.bad 16 s.nvm.evSlot
  let s := s.nvmWrite (0x300000 + 64 * slot) (padTo 64 (nvmRecord seq kind 0 0x60 0 rec))
  { s with nvm := { s.nvm with evSlot := (slot + 1) % 2048, evSeq := seq } }

/-- Append a record to SR5 or SR6 with the header of Table 17.3. -/
def State.logPut (s : State) (k kind : Nat) (rec : Bytes) : State :=
  let unit := if k = 5 then 32 else 64
  s.ringPut k ((8 + rec.length + unit - 1) / unit)
    (fun q lost => le 4 q.toNat ++ le 2 rec.length ++ le 1 kind ++ le 1 (flag lost 0) ++ rec)

/-- Append a 32-byte record to SR5 and, whatever the room, to the event log (R329, R443). -/
def State.logBoth (s : State) (kind : Nat) (rec : Bytes) : State := (s.logPut 5 kind rec).eventLog kind rec

/-- Append a record to the archive ring (R329): each starts on a 32-byte boundary. -/
def State.archive (s : State) (index kind : Nat) (rec : Bytes) : State :=
  let seq := s.nvm.archSeq + 1
  let b := nvmRecord seq index 0 kind 0 rec
  let at0 := if s.nvm.archAt + b.length ≤ 655360 then s.nvm.archAt else 0
  let s := s.nvmWrite (0x360000 + at0) b
  { s with nvm := { s.nvm with archAt := (at0 + b.length + 31) / 32 * 32 % 655360, archSeq := seq } }

/-- The bytes of an SR4 entry (Table 17.2). -/
def eventBytes (seq : W32) (time : Stamp) (src flags count : Nat) (data : Bytes) : Bytes :=
  le 4 seq.toNat ++ le 6 time ++ le 1 src ++ le 1 flags ++ le 2 (sat 65535 count) ++ le 2 0 ++ padTo 16 data

/-- Write an event's SR4 entry when its bit of EVENT_RING_MASK is set (R446, R447). -/
def State.eventEntry (s : State) (src : Nat) (data : Bytes) (time : Stamp) (count : Nat) (deferred : Bool) : State :=
  if bit (s.cfg oEventRingMask) src ∨ src = 8 ∨ src = 14 then
    s.ringPut 4 1 (fun q lost => eventBytes q time src
      (flag deferred 0 + flag lost 1 + flag s.tamper.suspect 2) count data)
  else s

/-- Set an event's pending bit and count it (R446). -/
def State.eventMark (s : State) (src : Nat) : State :=
  { s with evt := { s.evt with
      pending := s.evt.pending.set src true,
      count := s.evt.count.upd src (fun n => (n + 1) % 2 ^ 32) } }

/-- Raise an event (R446): pending bit and count at once; its entry goes to SR4, or to the boot buffer of 64 entries
before the METERING point. -/
def State.raiseAt (s : State) (src : Nat) (data : Bytes) (time : Stamp) (count : Nat) : State :=
  let s := s.eventMark src
  if s.pwr.metering then s.eventEntry src data time count false
  else if s.evt.boot.length < 64 then
    { s with evt := { s.evt with boot := s.evt.boot ++ [{ time := time, src := src, count := count, data := data }] } }
  else { s with evt := { s.evt with bootLost := sat 65535 (s.evt.bootLost + 1) } }

/-- Raise an event now, standing for one happening. -/
def State.raise (s : State) (src : Nat) (data : Bytes) : State := s.raiseAt src data s.now 1

/-- Hold an event until the METERING point, with its original time (R446) (DEDUCED, log 25). -/
def State.deferEvent (s : State) (src : Nat) (data : Bytes) (time : Stamp) : State :=
  { s with evt := { s.evt with deferred := s.evt.deferred ++ [{ time := time, src := src, data := data }] } }

/-- Insert a held event in TIME order, ties to the lower number (R446). -/
def insertEv (d : Deferred) : List Deferred → List Deferred
  | [] => [d]
  | x :: t => if d.time < x.time ∨ (d.time = x.time ∧ d.src < x.src) then d :: x :: t else x :: insertEv d t

/-- HIRQ, the host interrupt output (R448). -/
def State.hirq (s : State) : Bool :=
  let opt := s.cfg oHirqOptions
  let unacked (k : Nat) := (s.evt.rings.get k).entries.any (fun e => e.await.contains Cls.h)
  s.pwr.metering && !s.pwr.tripped &&
    ((List.range 64).any (fun n => s.evt.pending.get n && bit (s.cfg oHirqMask) n) ||
     (bit opt 0 && !(s.evt.rings.get 1).entries.isEmpty) ||
     (bit opt 1 && (unacked 5 || unacked 6)))

/-! ### Stores (R315-R317, R33) -/

/-- The padded size of a record with a payload of at most 240 bytes (Table 12.3) (DEDUCED, log 28). -/
def recSize (len : Nat) : Nat := 16 + (len + 15) / 16 * 16

/-- Pairs that a record of this length begins or fills: one for a record within a page, one per fragment above (DEDUCED, log 28). -/
def recPairs (len : Nat) : Nat := max 1 ((len + 239) / 240)

/-- Pairs of a store: 512 for the configuration store, 256 for the calibration store (Table 12.1) (DEDUCED, log 28). -/
def storePairs (cal : Bool) : Nat := if cal then 256 else 512

/-- First page of a store (Table 12.1). -/
def storePage (cal : Bool) : Nat := if cal then 11264 else 10240

/-- Pairs that hold a live record, each once. -/
def Store.live (st : Store) : List Nat :=
  (st.recs.foldl (fun l e => match e.2 with
    | none => l
    | some r => rangeFrom r.pair (recPairs r.len) ++ l) []).eraseDups

/-- The pair after one in the ring. -/
def nextPair (cal : Bool) (bad : List Nat) : Nat → Nat → Nat
  | 0, p => p
  | n + 1, p =>
    let q := (p + 1) % storePairs cal
    if bad.contains (storePage cal + 2 * q) || bad.contains (storePage cal + 2 * q + 1) then nextPair cal bad n q else q

/-- Append one record at the append point: in the current pair when it fits, else in the next pair, or in as many whole
pairs as it has fragments (DEDUCED, log 28). -/
def Store.append (st : Store) (cal : Bool) (bad : List Nat) (key val len : Nat) : Store :=
  let size := recSize len
  let seq := st.seq + 1
  if len ≤ 240 ∧ st.used ≠ [] ∧ st.off + size ≤ 256 then
    { st with recs := st.recs.set key (some { val := val, seq := seq, pair := st.pair, len := len }),
              off := st.off + size, seq := seq }
  else
    let p := if st.used = [] then 0 else nextPair cal bad 8 st.pair
    let k := recPairs len
    let last := (p + k - 1) % storePairs cal
    { st with recs := st.recs.set key (some { val := val, seq := seq, pair := p, len := len }),
              pair := last, off := if len ≤ 240 then size else 256,
              seq := st.seq + BitVec.ofNat 32 k,
              used := st.used ++ (rangeFrom p k).map (· % storePairs cal) }

/-- Copy the live records of the tail pair to the append point and reuse the tail (R317). -/
def Store.compactTail (st : Store) (cal : Bool) (bad : List Nat) : Store :=
  match st.used with
  | [] => st
  | t :: rest =>
    let lives := st.recs.filter (fun e => match e.2 with
      | none => false
      | some r => (rangeFrom r.pair (recPairs r.len)).any (fun p => p % storePairs cal = t))
    let st := { st with used := rest }
    lives.foldl (fun st e => match e.2 with
      | none => st
      | some r => st.append cal bad e.1 r.val r.len) st

/-- Compact until at least 8 pairs are free, for at most one traversal of the ring (R317) (DEDUCED, log 28). -/
def Store.compact (st : Store) (cal : Bool) (bad : List Nat) : Nat → Store
  | 0 => st
  | n + 1 =>
    if 8 ≤ storePairs cal - st.used.length then st
    else Store.compact (st.compactTail cal bad) cal bad n

/-- Whether a store keeps its 8 free pairs. -/
def Store.ok (st : Store) (cal : Bool) : Bool := decide (st.used.length + 8 ≤ storePairs cal)

/-- A store with a record added, or none when it cannot take it even after compaction (R33, R317) (DEDUCED, log 28). -/
def Store.put (st : Store) (cal : Bool) (bad : List Nat) (key val len : Nat) : Option Store :=
  let st := (st.append cal bad key val len).compact cal bad st.used.length
  if st.ok cal then some st else none

/-- Program a twin pair for a value of persistence C or K (R33): none when the store is full. -/
def State.storePut (s : State) (cal : Bool) (key val len : Nat) : Option State :=
  let st := if cal then s.nvm.cal else s.nvm.cfg
  match st.put cal s.nvm.bad key val len with
  | none => none
  | some st =>
    let st := { st with full := false }
    let p := storePage cal + 2 * st.pair
    let s := (s.program p).program (p + 1)
    let lost := s.nvm.lost.filter (· ≠ key)
    some { s with
      dict := { s.dict with broken := s.dict.broken.set key false },
      nvm := if cal then { s.nvm with cal := st, lost := lost } else { s.nvm with cfg := st, lost := lost } }

/-- Remember that a store refused its last write (Table 12.12). -/
def State.storeRefused (s : State) (cal : Bool) : State :=
  { s with nvm := if cal then { s.nvm with cal := { s.nvm.cal with full := true } }
                  else { s.nvm with cfg := { s.nvm.cfg with full := true } } }

/-- A record of the device's own, whose refusal leaves the stores as they were. -/
def State.storeTry (s : State) (cal : Bool) (key val len : Nat) : State :=
  (s.storePut cal key val len).getD (s.storeRefused cal)

/-! ### Journal (R318-R320) -/

/-- A journal record key: INDEX, SUB and KIND as in Table 12.3. -/
def jkey (index sub kind : Nat) : Nat := index * 65536 + sub * 256 + kind

/-- The journal key of an object. -/
def jobj (key : Nat) : Nat := key * 256 + 1

/-- The page after a page count of the journal ring, skipping bad pages (R310). -/
def nextJPage (bad : List Nat) : Nat → Nat → Nat
  | 0, p => p
  | n + 1, p => if bad.contains (6144 + (p + 1) % 4096) then nextJPage bad n (p + 1) else p + 1

/-- Place records (key, payload length) at the head, packed into whole pages; the first begins a fresh page (R319) (DEDUCED, log 28). -/
def State.jWriteFrom (s : State) : List (Nat × Nat) → State
  | [] => s
  | (k, len) :: t =>
    let size := recSize len
    let fresh := decide (256 < s.nvm.jOff + size)
    let page := if fresh then nextJPage s.nvm.bad 8 s.nvm.jHead else s.nvm.jHead
    let seq := s.nvm.jSeq + 1
    let s := if fresh then
        let s := s.program (6144 + page % 4096)
        { s with nvm := { s.nvm with perDay := (s.nvm.perDay.headD 0 + 1) :: s.nvm.perDay.drop 1 } }
      else s
    let off := (if fresh then 0 else s.nvm.jOff) + size
    let jrn := s.nvm.jrn.set k (some { seq := seq, page := page })
    State.jWriteFrom { s with nvm := { s.nvm with jHead := page, jSeq := seq, jOff := off, jrn := jrn } } t

/-- Write a batch of journal records, starting on a fresh page. -/
def State.jWrite (s : State) (l : List (Nat × Nat)) : State :=
  if l.isEmpty then s else State.jWriteFrom { s with nvm := { s.nvm with jOff := 256 } } l

/-- Pages that hold live journal records (Table 12.11). -/
def Nvm.livePages (n : Nvm) : List Nat :=
  (n.jrn.foldl (fun l e => match e.2 with
    | none => l
    | some r => r.page :: l) []).eraseDups

/-- The payload length of a journal record by its kind (Table 12.4) (DEDUCED, log 28). -/
def jLen (k : Nat) : Nat :=
  let kind := k % 256
  if kind = 0x20 then 81 else if kind = 0x21 then 32 else if kind = 0x01 then 240 else 240

/-- Copy the live records of the oldest page to the head and advance the tail (R320). -/
def State.jCompact1 (s : State) : State :=
  let t := s.nvm.jTail
  let lives := s.nvm.jrn.filter (fun e => match e.2 with
    | none => false
    | some r => r.page = t)
  let s := { s with nvm := { s.nvm with jTail := t + 1 } }
  s.jWrite (lives.map (fun e => (e.1, jLen e.1)))

/-- Compact until 640 pages lie between head and tail, for at most so many tail pages (R320) (DEDUCED, log 28). -/
def State.jCompact (s : State) : Nat → State
  | 0 => s
  | n + 1 =>
    if s.nvm.jHead + 640 ≤ s.nvm.jTail + 4096 then s else State.jCompact (s.jCompact1) n

/-! ### Spread counters (R324-R326) -/

/-- The value of a spread counter (R324). -/
def State.scVal (s : State) (k : Nat) : Nat := s.nvm.sc.get k

/-- Step a spread counter: one program, two at a cell rollover, and at a page's end a base record pair (R325). -/
def State.scStep (s : State) (k : Nat) : State :=
  let v := s.nvm.sc.get k
  let p := v % 2017
  let page := 12800 + 2 * k + v / 2017 % 2
  let s := if p = 2016 then s.programs 12928 2
    else if p % 63 = 0 ∧ 0 < p then (s.program page).program page
    else s.program page
  { s with nvm := { s.nvm with sc := s.nvm.sc.set k (v + 1) } }

/-! ### Answers -/

/-- Status codes of Table 2.6. -/
abbrev stOk : Nat := 0x00
abbrev stPending : Nat := 0x01
abbrev stBusy : Nat := 0x02
abbrev stRights : Nat := 0x03
abbrev stNoObject : Nat := 0x04
abbrev stBadType : Nat := 0x05
abbrev stRange : Nat := 0x06
abbrev stRunning : Nat := 0x07
abbrev stAuth : Nat := 0x08
abbrev stStale : Nat := 0x09
abbrev stLifecycle : Nat := 0x0A
abbrev stCrc : Nat := 0x0B
abbrev stRestarting : Nat := 0x0C
abbrev stStoreFull : Nat := 0x0D

/-- Answer a request with a status and no payload. -/
def State.answer (s : State) (st : Nat) : State := { s with ans := { status := st } }

/-- Answer a request with a status and a retry time in milliseconds (DEDUCED, log 19). -/
def State.answerRetry (s : State) (st ms : Nat) : State := { s with ans := { status := st, retry := ms } }

/-- Answer a request with a payload. -/
def State.answerData (s : State) (st : Nat) (b : Bytes) : State := { s with ans := { status := st, payload := b } }

/-- The life-cycle state: the number of the highest programmed cell (R383). -/
def State.lc (s : State) : Nat :=
  (List.range 5).foldl (fun m i => if 2 ≤ (s.life.cells.getD i 0) then i + 1 else m) 0

end Sys2Proof.Machine
end

