-- ==== Sys2Proof/Machine/Wiring.lean ====
section
/-! DEFINITION. What the active configuration says of channels, accounts, groups and streams (R55, R89, R126, R152-R155). -/
namespace Sys2Proof.Machine

/-! ### Presets and rings (Table 4.1, Table 1.5) -/

/-- Decimation ratio D of a preset. -/
def presetD (p : Nat) : Nat := [1024, 512, 256, 128, 64].getD p 512
/-- Rate in samples per second. -/
def presetRate (p : Nat) : Nat := 4096000 / presetD p
/-- Bandwidth in hertz. -/
def presetBw (p : Nat) : Nat := [1600, 3300, 6600, 13000, 26000].getD p 3300
/-- Sample width in bytes (R14). -/
def presetWidth (p : Nat) : Nat := if p ≤ 2 then 4 else 2
/-- Samples per ring (Table 1.5). -/
def ringLen (p : Nat) : Nat := if p ≤ 2 then 3072 else 6144
/-- The range peak in sample codes (R87). -/
def rangePeak (p : Nat) : Nat := if p ≤ 2 then 2 ^ 30 else 2 ^ 14
/-- The saturation code (R87). -/
def satCode (p : Nat) : Int := if p ≤ 2 then 2 ^ 31 - 1 else 32767
/-- The highest harmonic order on the cycle grid at a nominal frequency (last column of Table 4.1). -/
def hNom (p hz : Nat) : Nat := min (presetBw p) (100 * hz) / hz

/-! ### Accounts -/

/-- Keys of the account record start at index 0x4000: accounts whose ACC_ENABLE is active, ascending. -/
def State.enabledAccts (s : State) : List Nat :=
  (s.dict.active.filter (fun e => decide (e.1 % 256 = 1) && decide (0x400000 ≤ e.1) && decide (e.1 < 0x40F000) &&
    decide (e.2 = some 1))).map (fun e => e.1 / 256 - 0x4000)

/-- ACC_VG, ACC_TYPE and ACC_WIRING of an account. -/
def State.accVg (s : State) (a : Nat) : Nat := s.cfg (oAccVg a)
def State.accType (s : State) (a : Nat) : Nat := s.cfg (oAccType a)

/-- The slots of a wiring word in use: slot, role (0-2 phase, 3 neutral) and channel (Table 6.3). -/
def wordSlots (w : Nat) : List (Nat × Nat × Nat) :=
  ((List.range 4).filter (fun i => bit w (48 + i))).map (fun i => (i, bits w (41 + 2 * i) (40 + 2 * i), bits w (8 * i + 7) (8 * i)))
def State.slots (s : State) (a : Nat) : List (Nat × Nat × Nat) := wordSlots (s.cfg (oAccWiring a))

/-- The phase slots, which form elements, and the neutral slot (Table 6.2). -/
def State.elems (s : State) (a : Nat) : List (Nat × Nat × Nat) := (s.slots a).filter (fun x => x.2.1 ≠ 3)
def State.neutralSlot (s : State) (a : Nat) : Option (Nat × Nat × Nat) := (s.slots a).find? (fun x => x.2.1 = 3)

/-- A 3P3W account with two current slots measures with two wattmeters (Table 6.2). -/
def State.twoWatt (s : State) (a : Nat) : Bool := decide (s.accType a = 2) && decide ((s.elems a).length = 2)

/-- The channel that PQ_GROUP_MAP names for L1, L2, L3 (0-2) or NE (3) (Table 6.21). -/
def State.mapCh (s : State) (g p : Nat) : Option Nat :=
  let m := s.cfg (oPqGroupMap g)
  if bit m (32 + p) then some (bits m (8 * p + 7) (8 * p)) else none

/-- The phases whose voltage an account uses. -/
def State.acctPhases (s : State) (a : Nat) : List Nat :=
  let ph := (s.elems a).map (fun x => x.2.1)
  (List.range 3).filter (fun p => ph.contains p || (s.twoWatt a && p = 1))

/-- The voltage channels and the current channels of an account. -/
def State.voltChans (s : State) (a : Nat) : List Nat := (s.acctPhases a).filterMap (s.mapCh (s.accVg a))
def State.acctChans (s : State) (a : Nat) : List Nat := s.voltChans a ++ (s.slots a).map (fun x => x.2.2)

/-- Accounts of a voltage group that are enabled, and its leader, the lowest of them. -/
def State.vgAccts (s : State) (g : Nat) : List Nat := s.enabledAccts.filter (fun a => s.accVg a = g)
def State.leader (s : State) (g : Nat) : Option Nat := (s.vgAccts g).head?

/-! ### Voltage groups of channels -/

/-- Reference and fallback channels that VG_PHASES names, with their source code 0-2 (Table 4.12). -/
def State.vgNamed (s : State) (g : Nat) : List (Nat × Nat) :=
  let w := s.cfg (oVgPhases g)
  [(0, bits w 7 0)] ++ (if bit w 30 then [(1, bits w 15 8)] else []) ++ (if bit w 31 then [(2, bits w 23 16)] else [])

/-- Enabled voltage groups, by their active VG_ENABLE. -/
def State.vgOn (s : State) : List Nat := (List.range 4).filter (fun g => s.cfgB (oVgEnable g))

/-- VG0, or the lowest-numbered group in use when VG0 has none (R34). -/
def State.vgDefault (s : State) : Nat := if s.vgOn.contains 0 then 0 else s.vgOn.headD 0

/-- The lowest-numbered enabled account with a channel in one of its slots. -/
def State.acctOf (s : State) (ch : Nat) : Option Nat :=
  s.enabledAccts.find? (fun a => (s.slots a).any (fun x => x.2.2 = ch))

/-- The voltage group of a channel: that of its account, else the group that names it, else the default (R34, R55). -/
def State.vgOf (s : State) (ch : Nat) : Nat :=
  match s.acctOf ch with
  | some a => s.accVg a
  | none =>
    (s.vgOn.find? (fun g => (s.vgNamed g).any (fun x => x.2 = ch) ||
      (List.range 4).any (fun p => s.mapCh g p = some ch))).getD s.vgDefault

/-- Enabled channels, by their active CH_ENABLE. -/
def State.enabledChans (s : State) : List Nat :=
  (s.dict.active.filter (fun e => decide (e.1 % 256 = 1) && decide (0x300000 ≤ e.1) && decide (e.1 < 0x310000) &&
    decide (e.2 = some 1))).map (fun e => e.1 / 256 - 0x3000)

/-- Enabled accounts that use a channel, as a current slot or as a voltage of their group. -/
def State.acctsUsing (s : State) (ch : Nat) : List Nat := s.enabledAccts.filter (fun a => (s.acctChans a).contains ch)

/-- Cycles of an aggregation window of a group: 10 at 50 Hz, 12 at 60 Hz (R116). -/
def State.winN (s : State) (g : Nat) : Nat := if s.cfg (oVgNominalHz g) = 60 then 12 else 10

/-! ### Window groups (R126) -/

/-- Cut a list into runs of four. -/
def fours : Nat → List Nat → List (List Nat)
  | 0, _ => []
  | _, [] => []
  | n + 1, l => l.take 4 :: fours n (l.drop 4)

/-- The channels of a voltage group that take part in HARM63 and IHARM, ascending. -/
def State.harmChans (s : State) (g : Nat) : List Nat :=
  s.enabledChans.filter (fun c => s.vgOf c = g && inSet (s.cfg oPqHarmEnable) c)

/-- All window groups of the device, numbered in ascending voltage group (assumption log 12): group and channels. -/
def State.windowGroups (s : State) : List (Nat × List Nat) :=
  (List.range 4).flatMap (fun g => (fours 64 (s.harmChans g)).map (fun l => (g, l)))

/-! ### Balance groups (R210, R211) -/

/-- Feeders and members of a balance group, and the voltage group of its feeders. -/
def State.feeders (s : State) (g : Nat) : List Nat := setList (s.cfg (oBgFeeders g)) 240
def State.members (s : State) (g : Nat) : List Nat := setList (s.cfg (oBgMembers g)) 240
def State.bgVg (s : State) (g : Nat) : Nat := s.accVg ((s.feeders g).headD 0)

/-- PHASE_PARTIAL: a member is 3P3W with two slots (Table 8.10). -/
def State.phasePartial (s : State) (g : Nat) : Bool := (s.members g).any s.twoWatt

/-- Balance groups in use, and those whose feeder belongs to a voltage group. -/
def State.bgOn (s : State) : List Nat := (List.range 4).filter (fun g => s.cfgB (oBgEnable g))
def State.bgOf (s : State) (v : Nat) : List Nat := s.bgOn.filter (fun g => s.bgVg g = v)

/-! ### The configuration of an epoch (R21, R125) -/

/-- The state seen with the configuration tables of an epoch: those kept for it, or the active ones. -/
def State.atEpoch (s : State) (e : W32) : State :=
  if e = s.dict.epoch then s
  else if s.dict.history.has e.toNat then { s with dict := { s.dict with active := s.dict.history.get e.toNat } }
  else s

/-- Change a channel, a modulator, a spare, an account, a voltage group. -/
def State.setChan (s : State) (ch : Nat) (f : Chan → Chan) : State := { s with chans := s.chans.upd ch f }
def State.setMod (s : State) (m : Nat) (f : Modulator → Modulator) : State := { s with mods := s.mods.upd m f }
def State.setSpare (s : State) (k : Nat) (f : Spare → Spare) : State := { s with spares := s.spares.upd k f }
def State.setAcct (s : State) (a : Nat) (f : Acct → Acct) : State := { s with accts := s.accts.upd a f }
def State.setGroup (s : State) (g : Nat) (f : Group → Group) : State := { s with groups := s.groups.upd g f }
def State.setHk (s : State) (f : Hk → Hk) : State := { s with hk := f s.hk }
def State.setCal (s : State) (f : Cal → Cal) : State := { s with cal := f s.cal }
def State.setEng (s : State) (f : Eng → Eng) : State := { s with eng := f s.eng }
def State.setAcc (s : State) (f : Acc → Acc) : State := { s with acc := f s.acc }
def State.setBal (s : State) (g : Nat) (f : BalGroup → BalGroup) : State := { s with bal := s.bal.upd g f }
def State.setPq (s : State) (g : Nat) (f : PqGroup → PqGroup) : State := { s with pq := s.pq.upd g f }
def State.setPwr (s : State) (f : Pwr → Pwr) : State := { s with pwr := f s.pwr }
def State.setNvm (s : State) (f : Nvm → Nvm) : State := { s with nvm := f s.nvm }
def State.setPp (s : State) (f : Pp → Pp) : State := { s with pp := f s.pp }
def State.setUpd (s : State) (f : Upd → Upd) : State := { s with upd := f s.upd }
def State.setIsl (s : State) (f : Isl → Isl) : State := { s with isl := f s.isl }
def State.setMem (s : State) (f : Mem → Mem) : State := { s with mem := f s.mem }
def State.setEvt (s : State) (f : Evt → Evt) : State := { s with evt := f s.evt }

end Sys2Proof.Machine
end

