-- ==== Sys2Proof/Machine/Journal.lean ====
section
/-! DEFINITION. The journal's use: the J objects as values, saves, the last-gasp session and the restoration (R318-R322, R330-R332). -/
namespace Sys2Proof.Machine

/-! ### The objects of persistence J -/

/-- Whether a pulse output has 50 % duty (Table 7.10). -/
def State.pulseHalf (s : State) (k : Nat) : Bool := bit (s.cfg (oPulseConfig k)) 2

/-- The quantum Q in 2^-40 units (R202). -/
def State.quantum (s : State) (k : Nat) : Nat :=
  (rdiv (1000 * 2 ^ 40) (s.cfg (oPulseConst k) : Nat)).toNat

/-- What the journal takes as PULSE_RESIDUE (R207). -/
def State.pulseKept (s : State) (k : Nat) : Nat :=
  let p := s.acc.pulses.get k
  let q := s.quantum k
  p.residue + q * ((p.edges.filter (fun e => e.2)).length + p.owed) + (if s.pulseHalf k ∧ p.level then q / 2 else 0)


/-- A quality or energy line, or an accumulator line, as its 16 bytes in one number (Table 7.3). -/
def Line.num (l : Line) : Nat := l.value.toNat + 2 ^ 96 * l.marker.toNat

/-- BG_STATUS of a balance group (Table 8.10); partial is PHASE_PARTIAL by the wiring of its members. -/
def BalGroup.status (g : BalGroup) (partial_ : Bool) : Nat :=
  sat 255 g.hold * 2 ^ 24 + sat 255 g.clear * 2 ^ 16 + bits g.items 3 0 * 2 ^ 12 + flag g.feederFlagged 7 +
    flag partial_ 6 + bits g.cause 2 0 * 2 ^ 3 + flag g.alarm 2 + flag g.running 0

/-- The bytes of LAST_OUTAGE (Table 13.9). -/
def Pwr.outage (p : Pwr) : Bytes :=
  le 6 p.outTrip ++ le 6 p.outCast ++ le 1 p.outSource ++ le 1 p.outFlags ++ le 2 p.outVbat ++ le 4 p.outHold ++
    le 4 p.outBackup ++ le 4 p.outGasp ++ le 4 0

/-- The keys of every J object but the credit, block-energy and transfer objects, which have records of their own
(Table 12.4). -/
def jKeys : List Nat :=
  [oCastOnCount, oTimeLastSet, oLastPfdTime, oSkipCounters, oRlyFault, oRlyCommanded, oRecalLastTemp, oRecalLastTime,
   oRecalCount, oRefreshPages, oLastOutage, oStartRetries, oClkEvents, oGlitchEvents, oAoOverflowCount, oDcBalance,
   oDispUpdateCount, oWatchdogCount] ++
  (List.range 4).map oPqEventCounts ++ (List.range 8).map oPulseResidue ++ (List.range 4).map oBgStatus ++
  (List.range 4).map oBgLastWindow ++ (List.range 4).map oBgCandidates ++ (List.range 4).map oBgSuspects ++
  (List.range 4).map oBgEventCount ++ (List.range 8).map oNbPrograms ++
  (List.range 256).map oCalDriftGain ++ (List.range 256).map oCalDriftOffsetNv

/-- SKIP_COUNTERS: per account a from byte 16a on, the P3 and the P2 windows skipped, then the DELAYED and the ESTIMATED
cycles of its quality line (R148). -/
def State.skipCounters (s : State) : Bytes :=
  (List.range 240).flatMap (fun a => le 4 (s.eng.skip3.get a) ++ le 4 (s.eng.skip2.get a) ++
    le 4 (bits (s.acc.quality.get a).value.toNat 47 0) ++ le 4 (bits (s.acc.quality.get a).value.toNat 95 48))

/-- The stored bits of a J object now. -/
def State.jVal (s : State) (key : Nat) : Nat :=
  let e := key % 256
  if key = oCastOnCount then s.clock.castOns.toNat
  else if key = oTimeLastSet then s.clock.lastSet
  else if key = oLastPfdTime then s.pwr.lastPfd
  else if key = oSkipCounters then ofLe s.skipCounters
  else if key = oRlyFault then mapBits 256 s.pp.relay.fault.get
  else if key = oRlyCommanded then mapBits 256 s.pp.relay.commanded.get
  else if key = oRecalLastTemp then unsgn 4 s.cal.lastTemp
  else if key = oRecalLastTime then s.cal.lastTime
  else if key = oRecalCount then s.cal.count.toNat
  else if key = oRefreshPages then s.nvm.refreshed % 2 ^ 32
  else if key = oLastOutage then ofLe s.pwr.outage
  else if key = oStartRetries then sat 65535 s.pwr.retries
  else if key = oClkEvents then ofLe (le 4 s.tamper.main.nA ++ le 4 s.tamper.main.nB ++ le 4 s.tamper.rtc.nA ++ le 4 s.tamper.rtc.nB)
  else if key = oGlitchEvents then ofLe (le 4 (s.tamper.glitch.get 0).n ++ le 4 (s.tamper.glitch.get 1).n)
  else if key = oAoOverflowCount then sat (2 ^ 32 - 1) s.tamper.overflow
  else if key = oDcBalance then ofLe ((List.range 96).flatMap (fun i => le 4 (unsgn 4 (s.disp.balance.get i))))
  else if key = oDispUpdateCount then s.disp.updates % 2 ^ 32
  else if key = oWatchdogCount then sat (2 ^ 32 - 1) s.isl.dogs
  else if oPqEventCounts 0 ≤ key ∧ key ≤ oPqEventCounts 3 then
    let g := s.pq.get (e - 0x24)
    sat 65535 g.dips + sat 65535 g.swells * 2 ^ 16 + sat 65535 g.interruptions * 2 ^ 32 + sat 65535 g.outages * 2 ^ 48
  else if oPulseResidue 0 ≤ key ∧ key ≤ oPulseResidue 7 then s.pulseKept (e - 0x11) % 2 ^ 96
  else if oBgStatus 0 ≤ key ∧ key ≤ oBgStatus 3 then (s.bal.get (e - 0x31)).status (s.phasePartial (e - 0x31))
  else if oBgLastWindow 0 ≤ key ∧ key ≤ oBgLastWindow 3 then ofLe (s.bal.get (e - 0x39)).lastWin
  else if oBgCandidates 0 ≤ key ∧ key ≤ oBgCandidates 3 then ofSet (s.bal.get (e - 0x3D)).cands
  else if oBgSuspects 0 ≤ key ∧ key ≤ oBgSuspects 3 then ofSet (s.bal.get (e - 0x41)).suspects
  else if oBgEventCount 0 ≤ key ∧ key ≤ oBgEventCount 3 then (s.bal.get (e - 0x45)).events.toNat
  else if oNbPrograms 0 ≤ key ∧ key ≤ oNbPrograms 7 then s.nvm.programs.get (e - 0x38)
  else if e = 0x0C then unsgn 4 (s.cal.driftG.get (key / 256 - 0x3100))
  else if e = 0x0D then unsgn 4 (s.cal.driftO.get (key / 256 - 0x3100))
  else 0

/-- Give a J object a value from the journal (R322). Values that live outside main SRAM in the AO island are not taken
while that island has kept them (R400, R347). -/
def State.jSet (s : State) (key v : Nat) : State :=
  let e := key % 256
  let b := s.bal
  if key = oCastOnCount then { s with clock := { s.clock with castOns := BitVec.ofNat 32 v } }
  else if key = oTimeLastSet then { s with clock := { s.clock with lastSet := v } }
  else if key = oSkipCounters then
    let skip3 := (List.range 240).foldl (fun (m : KMap Nat) a => KMap.set m a (v / 2 ^ (128 * a) % 2 ^ 32)) []
    let skip2 := (List.range 240).foldl (fun (m : KMap Nat) a => KMap.set m a (v / 2 ^ (128 * a + 32) % 2 ^ 32)) []
    { s with eng := { s.eng with skip2 := skip2, skip3 := skip3 } }
  else if key = oRlyFault then
    { s with pp := { s.pp with relay := { s.pp.relay with fault := (setList v 256).map (fun i => (i, true)) } } }
  else if key = oRlyCommanded then
    { s with pp := { s.pp with relay := { s.pp.relay with commanded := (setList v 256).map (fun i => (i, true)) } } }
  else if key = oRecalLastTemp then { s with cal := { s.cal with lastTemp := sgn 4 v } }
  else if key = oRecalLastTime then { s with cal := { s.cal with lastTime := v } }
  else if key = oRecalCount then { s with cal := { s.cal with count := BitVec.ofNat 32 v } }
  else if oPqEventCounts 0 ≤ key ∧ key ≤ oPqEventCounts 3 then
    { s with pq := s.pq.upd (e - 0x24) (fun g => { g with
        dips := bits v 15 0, swells := bits v 31 16,
        interruptions := bits v 47 32, outages := bits v 63 48 }) }
  else if oPulseResidue 0 ≤ key ∧ key ≤ oPulseResidue 7 then
    { s with acc := { s.acc with pulses := s.acc.pulses.upd (e - 0x11) (fun p => { p with residue := v }) } }
  else if oBgStatus 0 ≤ key ∧ key ≤ oBgStatus 3 then
    { s with bal := b.upd (e - 0x31) (fun g => { g with
        hold := bits v 31 24, clear := bits v 23 16, alarm := bit v 2 }) }
  else if oBgLastWindow 0 ≤ key ∧ key ≤ oBgLastWindow 3 then
    { s with bal := b.upd (e - 0x39) (fun g => { g with lastWin := le 64 v, winSeq := BitVec.ofNat 32 v }) }
  else if oBgCandidates 0 ≤ key ∧ key ≤ oBgCandidates 3 then
    { s with bal := b.upd (e - 0x3D) (fun g => { g with cands := setList v 240 }) }
  else if oBgSuspects 0 ≤ key ∧ key ≤ oBgSuspects 3 then
    { s with bal := b.upd (e - 0x41) (fun g => { g with suspects := setList v 240 }) }
  else if oBgEventCount 0 ≤ key ∧ key ≤ oBgEventCount 3 then
    { s with bal := b.upd (e - 0x45) (fun g => { g with events := BitVec.ofNat 32 v }) }
  else if e = 0x0C ∧ 0x3100 ≤ key / 256 ∧ key / 256 < 0x3200 then
    { s with cal := { s.cal with driftG := s.cal.driftG.set (key / 256 - 0x3100) (sgn 4 v) } }
  else if e = 0x0D ∧ 0x3100 ≤ key / 256 ∧ key / 256 < 0x3200 then
    { s with cal := { s.cal with driftO := s.cal.driftO.set (key / 256 - 0x3100) (sgn 4 v) } }
  else s

/-! ### Group records -/

/-- The keys of the group records of Table 12.4. -/
def jLines (g : Nat) : Nat := jkey g 0 0x10
def jQuality (g : Nat) : Nat := jkey g 0 0x11
def jStatus (g : Nat) : Nat := jkey g 0 0x12
def jDemand (g : Nat) : Nat := jkey g 0 0x13
def jCredit (g : Nat) : Nat := jkey g 0 0x14
def jMark : Nat := jkey 0 0 0x20
def jTransfer (a : Nat) : Nat := jkey a 0 0x21
def jState : Nat := jkey 0 0 0x30

/-- Copy the entries of a table whose keys lie in a range from a live table into a kept one. -/
def copyRange {V : Type} [Inhabited V] [DecidableEq V] (live kept : KMap V) (a n : Nat) : KMap V :=
  (rangeFrom a n).foldl (fun m k => m.set k (live.get k)) kept

/-- The map entries whose demand the unit tracks, in ascending order (R194): at most 525. -/
def State.tracked (s : State) : List Nat :=
  (s.dict.active.filter (fun e => decide (0x500000 ≤ e.1) && decide (e.1 < 0x502000) &&
    (match e.2 with
     | none => false
     | some v => bit v 33))).map (fun e => e.1 - 0x500000)

/-- The loss-bound demand of an account at an instant: the largest of its maxima of the minute and the 15 before (R198). -/
def Acct.lossBound (a : Acct) (t : Stamp) : Rat :=
  a.bound.foldl (fun m e => if t / 61440 ≤ e.2.1 + 15 then max m e.2.2 else m) 0

/-- Of the transfer records kept for an account, those a credit record makes needless go; the newest stays (Table 12.4). -/
def xferLast (b : Bytes) : Bytes := b.drop (b.length - 32)

/-- What a record of the given key holds once it is valid: the current values of its group (R318). -/
def State.keep (s : State) (key : Nat) : State :=
  let kind := key % 256
  let g := key / 65536
  let k := s.nvm.kept
  let k :=
    if kind = 0x10 then { k with lines := copyRange s.acc.lines k.lines (15 * g) 15 }
    else if kind = 0x11 then { k with quality := copyRange s.acc.quality k.quality (15 * g) 15 }
    else if kind = 0x12 then
      { k with status := (rangeFrom (15 * g) 15).foldl (fun m a =>
          let x := s.accts.get a
          m.set a { lastEnd := x.lastEnd, bound := toF32 (x.lossBound s.now), cycle := x.lastCommitted }) k.status }
    else if kind = 0x13 then
      { k with demand := ((s.tracked.drop (15 * g)).take 15).foldl (fun m n =>
          let d := s.acc.demand.get n
          m.set n (toF32 d.max, d.maxAt)) k.demand }
    else if kind = 0x14 then { k with
        credit := copyRange s.pp.credit k.credit (5 * g) 5
        xfers := (rangeFrom (5 * g) 5).foldl (fun m a => m.set a (xferLast (m.get a))) k.xfers }
    else if kind = 0x01 then { k with objs := k.objs.set (key / 256) (some (s.jVal (key / 256))) }
    else k
  { s with nvm := { s.nvm with kept := k } }

/-- Write records of the given keys and let each hold its group's current values. -/
def State.jSave (s : State) (keys : List Nat) : State :=
  let s := s.jWrite (keys.map (fun k => (k, jLen k)))
  keys.foldl State.keep s

/-- The set keys of a table of bits. -/
def trueKeys (m : KMap Bool) : List Nat := (m.filter (fun e => e.2)).map (fun e => e.1)

/-- The J objects whose value differs from their newest record. -/
def State.jChanged (s : State) : List Nat :=
  jKeys.filter (fun k => decide (s.nvm.kept.objs.get k ≠ some (s.jVal k)))

/-- Append a SAVE_MARK that names line groups (R319). -/
def State.saveMark (s : State) (groups : List Nat) (time : Stamp) : State :=
  let s := s.jWrite [(jMark, 81)]
  let m : Mark := { seq := s.nvm.jSeq, time := time, groups := groups }
  { s with nvm := { s.nvm with kept := { s.nvm.kept with marks := (m :: s.nvm.kept.marks).take 64 } } }

/-- JOURNAL_RESERVE_LOW: the live records exceed 3,000 pages (R320). -/
def State.reserveLow (s : State) : Bool := decide (3000 < s.nvm.livePages.length)

/-- A periodic save (R319): compaction first when the reserve is short, then the dirty groups, the ACCOUNT_STATUS records,
the changed J objects and a SAVE_MARK; with the reserve low only dirty groups and the mark. -/
def State.save (s : State) : State :=
  let s := s.jCompact 640
  let low := s.reserveLow
  let lg := trueKeys s.nvm.dirty
  let groups := lg.map jLines ++ (trueKeys s.nvm.dirtyQ).map jQuality ++ (trueKeys s.nvm.dirtyD).map jDemand ++
    (trueKeys s.nvm.dirtyC).map jCredit
  let s := s.jSave groups
  let s := { s with nvm := { s.nvm with
    dirty := [], dirtyQ := [], dirtyD := [], dirtyC := []
    kept := { s.nvm.kept with tampered := (s.pp.acct.filter (fun (e : Nat × Prepay) => e.2.srcTamper)).map (fun (e : Nat × Prepay) => (e.1, e.2.tamperBy)) } } }
  let s := if low then s else s.jSave ((List.range 16).map jStatus ++ s.jChanged.map jobj)
  s.saveMark lg s.now

/-- A full save of a commanded bind-off: every group is written (R354 step 4). -/
def State.fullSave (s : State) : State :=
  let all (n : Nat) : KMap Bool := (List.range n).map (fun g => (g, true))
  State.save { s with nvm := { s.nvm with
    dirty := all 547, dirtyQ := all 16,
    dirtyD := all ((s.tracked.length + 14) / 15), dirtyC := all 48 } }

/-- LAST_SAVE_TIME: the time of the newest SAVE_MARK (Table 12.11). -/
def State.lastSave (s : State) : Stamp := ((s.nvm.kept.marks.head?).map Mark.time).getD 0

/-! ### The last-gasp session (R330) -/

/-- The records of a session at a trip, in order. -/
def State.sessionKeys (s : State) : List Nat :=
  jState :: ((List.range 16).map jStatus ++ (trueKeys s.nvm.dirty).map jLines ++ (trueKeys s.nvm.dirtyQ).map jQuality ++
    (trueKeys s.nvm.dirtyD).map jDemand)

/-- Begin a session: its records are listed; none is valid yet. -/
def State.sessionStart (s : State) : State :=
  let keys := s.sessionKeys
  let ss : Session := {
    pfd := s.pwr.pfdTime, keys := keys, groups := trueKeys s.nvm.dirty,
    markSeq := ((s.nvm.kept.marks.head?).map Mark.seq).getD 0, seq := s.nvm.jSeq + 1 }
  { s with nvm := { s.nvm with session := some ss } }

/-- The first n records of the session are programmed and valid: each goes to its own page (R330, R332). LG_STATE carries
the pulse residues and RLY_COMMANDED. -/
def State.sessionValid (s : State) (n : Nat) : State :=
  match s.nvm.session with
  | none => s
  | some ss =>
    let keys := ss.keys.take n
    let s := keys.foldl (fun s k => s.jSave [k]) s
    let s := if keys.contains jState then
        ((List.range 8).map oPulseResidue ++ [oRlyCommanded]).foldl (fun s k => s.keep (jobj k)) s
      else s
    { s with nvm := { s.nvm with session := some { ss with valid := keys.length } } }

end Sys2Proof.Machine
end

