-- ==== Sys2Proof/Machine/DispOps.lean ====
section
/-! DEFINITION. The display's shared operations: temperature and band, the states of an update, DC balances, the selvedge
segments, and abandonment (R390-R408). -/
namespace Sys2Proof.Machine

/-- Change the display. -/
def State.setDisp (s : State) (f : Disp → Disp) : State := { s with disp := f s.disp }

/-- The display temperature in use (R396): the external sensor when it is chosen and has been valid within 10 s, else T_a;
on VBAT the oscillator sensor. -/
def State.dispTemp (s : State) : Int :=
  if s.pwr.onVbat then s.cal.tOscAo.getD s.cal.ta
  else if bit (s.cfg oDispOptions) 5 &&
      (match s.disp.extAt with
       | none => false
       | some t => decide (s.clock.clk ≤ t + 10000 * clkMs)) then s.ports.temp.get 0
  else s.cal.ta

/-- The number of band edges at or below a temperature (R396). -/
def State.edgesBelow (s : State) (t : Int) : Nat :=
  ((List.range 7).filter (fun e => decide (s.cfgI 4 (oTbEdgeMc e) ≤ t))).length

/-- The band that a temperature puts in force: a new index only once the temperature lies TB_HYST_MC beyond the edge (R396). -/
def State.bandFor (s : State) (t : Int) : Nat :=
  let h : Int := s.cfg oTbHystMc
  let up := s.edgesBelow (t - h)
  let down := ((List.range 7).filter (fun e => decide (s.cfgI 4 (oTbEdgeMc e) - h < t))).length
  if s.disp.band < up then up else if down < s.disp.band then down else s.disp.band

/-- PHASES of a waveform table. -/
def phases (t : Bytes) : Nat := (t.getD 0 0).toNat

/-- The active waveform table of a band. -/
def State.wf (s : State) (b : Nat) : Bytes := le 36 (s.cfg (oWfTable b))

/-- The level, in units of 15 V, of a transition in a phase (Table 15.3): old and new colour, true black. -/
def level (t : Bytes) (ph : Nat) (old new : Bool) : Int :=
  let w := (t.getD (4 + ph) 0).toNat
  let k := (if old then 2 else 0) + (if new then 1 else 0)
  match bits w (2 * k + 1) (2 * k) with
  | 1 => 1
  | 2 => -1
  | _ => 0

/-- Add to a segment's balance, with its saturation (R400). -/
def State.addBal (s : State) (seg : Nat) (d : Int) : State :=
  s.setDisp (fun x => { x with balance := x.balance.upd seg (fun b => max (-(2 ^ 31 - 1)) (min (2 ^ 31 - 1) (b + d))) })

/-- The balancing frames a segment needs at a start (R401). -/
def State.balFrames (s : State) (seg : Nat) : Nat :=
  let b := (s.disp.balance.get seg).natAbs
  let p := s.cfg oBalPulseMs
  if s.cfg oDcLimit < b then min ((b + p - 1) / p) (s.cfg oBalMaxFrames) else 0

/-- Whether a main segment lies above a limit. -/
def State.mainAbove (s : State) (limit : Nat) : Bool :=
  (List.range 88).any (fun i => decide (limit < (s.disp.balance.get i).natAbs))

/-- Raise EV55 DISPLAY_DONE (R399). -/
def State.ev55 (s : State) (result : Nat) : State :=
  s.raise 55 (le 1 result ++ le 1 s.disp.bandRun ++ le 2 s.disp.frames)

/-- A balancing frame or the elapsed part of one, in milliseconds: each segment that still needs frames is driven against
its balance for BAL_PULSE_MS at most (R401). -/
def State.balFrame (s : State) (ms : Nat) : State :=
  (List.range 88).foldl (fun s i =>
    if s.disp.frame < s.disp.balNeed.get i then
      let d : Int := min ms (s.cfg oBalPulseMs)
      s.addBal i (if 0 < s.disp.balance.get i then -d else d)
    else s) s

/-- The colours a main segment goes between in the work that runs. -/
def Disp.trans (d : Disp) (i : Nat) : Bool × Bool :=
  match d.work with
  | .update => (d.shown.testBit i, d.copy.testBit i)
  | .clear => (d.half % 2 = 1, d.half % 2 = 0)
  | _ => (d.shown.testBit i, d.shown.testBit i)

/-- A waveform frame, or the elapsed part of one, on every main segment (R400). -/
def State.waveFrame (s : State) (ms : Nat) : State :=
  (List.range 88).foldl (fun s i =>
    let t := s.disp.trans i
    s.addBal i (level s.disp.table s.disp.frame t.1 t.2 * ms)) s

/-- Whether the display runs work. -/
def Disp.busy (d : Disp) : Bool :=
  match d.st with
  | .pumpUp | .balancing | .waveform | .clearing | .discharging => true
  | _ => false

/-- The state that follows the balancing frames of the work. -/
def Disp.after (d : Disp) : DispSt := if d.work = .clear then .clearing else .waveform

/-- Begin frame 0 of the work (R392, R401): balancing frames first when a segment exceeds the limit. -/
def State.firstFrame (s : State) : State :=
  let need := (List.range 88).foldl (fun m i => KMap.set m i (s.balFrames i)) ([] : KMap Nat)
  let n := need.foldl (fun a e => max a e.2) 0
  s.setDisp (fun d => { d with
    balNeed := need, balN := n, frame := 0, half := 0, frameAt := s.clock.clk,
    st := if 0 < n then .balancing else d.after })

/-- Start a piece of work in the band in force (R397, R398): without a usable table an update does not start, BAND_INVALID
is set and EV55 NO_WAVEFORM fires; with the pumps running there is no pump-up. -/
def State.dispStart (s : State) (w : DispWork) : State :=
  let t := s.wf s.disp.band
  let s := s.setDisp (fun d => { d with bandRun := d.band, frames := 0 })
  if phases t = 0 then
    let s := s.setDisp (fun d => { d with
      invalid := true, st := .waiting, work := .none,
      pendUpdate := d.pendUpdate || w = .update, pendClear := d.pendClear || w = .clear, pendBal := d.pendBal || w = .balance })
    s.ev55 3
  else
    let s := s.setDisp (fun d => { d with
      invalid := false, work := w, table := t, copy := d.image, falling := false,
      pendUpdate := d.pendUpdate && w ≠ .update, pendClear := d.pendClear && w ≠ .clear, pendBal := false,
      clearDue := d.clearDue && w ≠ .clear })
    if s.disp.pumps then s.firstFrame
    else s.setDisp (fun d => { d with st := .pumpUp, pumps := true })

/-- Step 2 of the power-off discharge: outputs at 0 V with the pumps running (Table 15.4). -/
def State.dischargeHold (s : State) : State :=
  s.setDisp (fun d => { d with st := .discharging, work := .discharge, pumps := true, offStep := 2 })

/-- Start the power-off discharge (R404): one balancing update first when a segment exceeds half the limit. -/
def State.dispDischarge (s : State) : State :=
  let s := s.setDisp (fun d => { d with pendUpdate := false, pendOff := false, offStep := 1 })
  if s.mainAbove (s.cfg oDcLimit / 2) ∧ phases (s.wf s.disp.band) ≠ 0 then
    let s := s.dispStart .balance
    s.setDisp (fun d => { d with offStep := 1 })
  else s.dischargeHold

/-- Whether the clearing sequence of a cast-on may run: HOLDUP_READY and a measured temperature (R403). -/
def State.clearable (s : State) : Bool := s.pwr.ready && s.disp.measured

/-- Start what waits after the running work: a discharge, a clearing sequence, an update (R399, Table 15.11). -/
def State.dispNext (s : State) : State :=
  if s.disp.busy then s
  else if s.disp.pendOff then s.dispDischarge
  else if s.disp.pendClear ∧ s.clearable then s.dispStart .clear
  else if s.disp.pendUpdate ∧ s.disp.dirty = false then s.dispStart .update
  else s

/-- The work has run its last frame. -/
def State.dispFinish (s : State) : State :=
  let d := s.disp
  let s := match d.work with
    | .update =>
      (s.setDisp (fun d => { d with shown := d.copy % 2 ^ 88, updates := (d.updates + 1) % 2 ^ 32, st := .hold, work := .none })).ev55 0
    | .clear => (s.setDisp (fun d => { d with shown := 0, dirty := false, st := .hold, work := .none })).ev55 1
    | .balance => (s.setDisp (fun d => { d with backup := false, st := .hold, work := .none })).ev55 2
    | _ => s
  if d.offStep = 1 then s.dischargeHold
  else
    let s := if bit (s.cfg oDispOptions) 1 && s.mainAbove (s.cfg oDcLimit) then s.setDisp (fun d => { d with pendBal := true }) else s
    s.dispNext

/-- A request for an update of the main field (R398, R399, R403). -/
def State.requestUpdate (s : State) : State :=
  if s.disp.busy ∨ s.disp.restartAt.isSome then s.setDisp (fun d => { d with pendUpdate := true })
  else if s.disp.dirty then
    let s := s.setDisp (fun d => { d with pendUpdate := true, pendClear := true })
    if s.clearable then s.dispStart .clear else s.setDisp (fun d => { d with st := .waiting })
  else s.dispStart .update

/-- Abandon what the display runs (R405): the part of the frame in progress is counted, outputs go to 0 V, the pumps
stop, DIRTY is set in BALANCING, WAVEFORM and CLEARING. now tells whether EV55 fires at once or at METERING. -/
def State.dispAbandon (s : State) (now : Bool) : State :=
  let d := s.disp
  if !d.busy && !d.pumps then s else
  let ms := min 20 ((s.clock.clk - d.frameAt) / clkMs)
  let s := match d.st with
    | .balancing => s.balFrame ms
    | .waveform | .clearing => s.waveFrame ms
    | _ => s
  let mid := d.st = .balancing ∨ d.st = .waveform ∨ d.st = .clearing
  let s := s.setDisp (fun d => { d with
    dirty := d.dirty || decide mid, st := .abandoned, work := .none, pumps := false,
    falling := true, offStep := 0, pendOff := false })
  let running := decide mid || decide (d.st = .pumpUp)
  if !running then s
  else if now then s.ev55 5
  else s.deferEvent 55 (le 1 5 ++ le 1 s.disp.bandRun ++ le 2 s.disp.frames) s.now

/-- A new display temperature: the band follows it, and a request waiting for a usable band is retried (R396, R397). -/
def State.dispTempNew (s : State) : State :=
  let t := s.dispTemp
  let b := s.bandFor t
  let changed := decide (b ≠ s.disp.band)
  let s := s.setDisp (fun d => { d with temp := t, band := b })
  if changed ∧ s.disp.invalid then
    let s := (s.setDisp (fun d => { d with invalid := false })).dispNext
    if s.disp.pendBal ∧ s.disp.busy = false ∧ s.disp.invalid = false ∧ s.disp.dirty = false ∧ s.disp.restartAt.isNone then s.dispStart .balance
    else s
  else s

/-! ### The selvedge (R406-R408) -/

/-- Change one selvedge segment. -/
def State.setSelv (s : State) (i : Nat) (f : Selv → Selv) : State :=
  s.setDisp (fun d => { d with selv := d.selv.upd i f })

/-- Start a segment's transition between two colours with the table of the band in force (R407). -/
def State.selvStart (s : State) (i : Nat) (old new : Bool) : State :=
  let t := s.wf s.disp.band
  if phases t = 0 then s
  else s.setSelv i (fun v => { v with run := some (old, new), table := t, frame := 0, frameAt := s.clock.clk, bal := s.balFrames (88 + i) })

/-- A selvedge segment's frame, or the elapsed milliseconds of one cut short, enters its balance (R400, R401) (DEDUCED, log 49). -/
def State.selvAdd (s : State) (i ms : Nat) (old new : Bool) : State :=
  let v := s.disp.selv.get i
  if 0 < v.bal then
    let d : Int := min ms (s.cfg oBalPulseMs)
    s.addBal (88 + i) (if 0 < s.disp.balance.get (88 + i) then -d else d)
  else s.addBal (88 + i) (level v.table v.frame old new * ms)

/-- Give a segment a target; a tamper mark set while SEG89 runs towards white stops that transition (R407). -/
def State.selvTarget (s : State) (i : Nat) (v : Bool) : State :=
  let s := s.setSelv i (fun x => { x with target := v })
  match (s.disp.selv.get i).run with
  | some (old, false) =>
    if i = 1 ∧ v = true then
      (s.selvAdd i (min 20 ((s.clock.clk - (s.disp.selv.get i).frameAt) / clkMs)) old false).selvStart i old true
    else s
  | _ => s

/-- The targets that SELVEDGE_STATUS gives SEG90-SEG95 (Table 15.7). -/
def State.selvStatus (s : State) : State :=
  (List.range 6).foldl (fun s i => s.selvTarget (2 + i) (bit (s.cfg oSelvedgeStatus) i)) s

/-- After an AO power-on reset the selvedge segments run the clearing cycles first (R408). -/
def State.selvClear (s : State) : State :=
  (List.range 8).foldl (fun s i =>
    let s := s.setSelv i (fun v => { v with run := none, shown := false, frame := 0, clear := 2 * s.cfg oClearCycles })
    s.selvStart i false true) s

/-- OUTAGE_MARK_MODE of DISP_OPTIONS (Table 15.9). -/
def State.outageMode (s : State) : Nat := bits (s.cfg oDispOptions) 7 6

end Sys2Proof.Machine
end

