-- ==== Sys2Proof/Machine/Bind.lean ====
section
/-! DEFINITION. Island restart events and the steps of a commanded bind-off (R12, R354, R355). -/
namespace Sys2Proof.Machine

/-- Raise EV58 ISLAND_RESTART with the island and the cause (Table 17.5). -/
def State.ev58 (s : State) (island cause : Nat) : State := s.raise 58 (le 1 island ++ le 1 cause)

/-- Pins that step 6 of a bind-off and a trip make inactive: FTRIP and PULSE outputs (R101, R207). -/
def State.outputsOff (s : State) : State :=
  { s with ftrip := KMap.mapV s.ftrip (fun x => { x with level := false }),
           acc := { s.acc with pulses := s.acc.pulses.map (fun e =>
             (e.1, { e.2 with level := false, edges := [], owed := 0, lastRise := none, lastEdge := none })) } }

/-- Whether every live gate stream has no entry left in any queue: step 2 of a bind-off has ended. -/
def State.gatesQuiet (s : State) : Bool :=
  s.eng.wq.all (fun e => e.2.all (fun t => t.st = .done)) && s.eng.buffer.isEmpty && s.eng.paused.isEmpty

/-- Step 6 of a commanded bind-off: the moment of gating is LAST_PFD_TIME and TRIP_TIME with source COMMAND (R355); the
AO island stays on VIN33. -/
def State.bindGate (s : State) : State :=
  let t := s.now
  let s := s.outputsOff
  let rest := !s.pwr.bindRestart
  { s with
    pwr := { s.pwr with
      mode := if rest then .rest else .backup
      bind := .off
      source := 4
      pfdTime := t
      lastPfd := t
      tripAt := s.clock.clk
      outTrip := t
      outSource := 4
      outFlags := 0
      outVbat := 0
      outHold := 0xFFFFFFFF
      outBackup := 0
      outGasp := 0xFFFFFFFF
      nextCause := if rest then 7 else 6
      gaspEnded := true
      holdoffDone := rest
      good := false
      started := false
      afterTrip := false }
    nvm := { s.nvm with kept := { s.nvm.kept with objs := s.nvm.kept.objs.set oLastPfdTime (some t) } } }

/-- Advance a commanded bind-off through every step that has ended (R354): boundaries, gates, relay operation, full save,
display discharge, gating. -/
def State.bindProgress (s : State) : State :=
  let s := if s.pwr.bind = .boundaries ∧ s.pwr.bindGroups = [] then
      { s with pwr := { s.pwr with bind := .gates }, eng := { s.eng with halted := true } } else s
  let s := if s.pwr.bind = .gates ∧ s.gatesQuiet then { s with pwr := { s.pwr with bind := .relays } } else s
  let s := if s.pwr.bind = .relays ∧ s.pp.relay.phase = .idle then { s with pwr := { s.pwr with bind := .save } } else s
  let s := if s.pwr.bind = .save then
      let s := if s.nvm.restored then s.fullSave else s
      let s := { s with pwr := { s.pwr with bind := .display } }
      if s.disp.busy then s.setDisp (fun d => { d with pendOff := true, pendUpdate := false }) else s.dispDischarge
    else s
  s

/-- Begin a commanded bind-off (R354): the groups that are running owe one more boundary (DEDUCED, log 21). -/
def State.bindStart (s : State) (restart : Bool) : State :=
  let gs := (List.range 4).filter (fun g => (s.groups.get g).running)
  State.bindProgress { s with pwr := { s.pwr with mode := .bindOff, bind := .boundaries, bindRestart := restart, bindGroups := gs } }

/-- The rails have discharged (R393): a power-off discharge ends with EV55 POWERED_OFF and gating, and with it the display
step of a bind-off. -/
def State.railsDown (s : State) : State :=
  let s := s.setDisp (fun d => { d with falling := false })
  if s.disp.work = .discharge ∧ s.disp.offStep = 3 then
    let s := (s.setDisp (fun d => { d with st := .off, work := .none, offStep := 0 })).ev55 6
    if s.pwr.bind = .display then s.bindGate else s
  else if s.disp.st = .abandoned ∨ s.disp.st = .hold then s.setDisp (fun d => { d with st := .off })
  else s

end Sys2Proof.Machine
end

