-- ==== Sys2Proof/Machine/Trim.lean ====
section
/-! DEFINITION. Calibration points, the combination of trims, code loads and the applied temperature (R253-R260). -/
namespace Sys2Proof.Machine

/-! ### Temperature points (Table 10.1) -/

/-- n bytes of a stored value, from an offset on. -/
def nb (v off n : Nat) : Nat := v / 2 ^ (8 * off) % 2 ^ (8 * n)

/-- The fields of a point: temperature in 0.01 degC, trims and signature. -/
def ptTemp (v : Nat) : Int := sgn 2 (nb v 6 2)
def ptFlags (v : Nat) : Nat := nb v 8 1
def ptRange (v : Nat) : Nat := nb v 9 1
def ptPhase (v : Nat) : Int := sgn 2 (nb v 10 2)
def ptGain (v : Nat) : Int := sgn 4 (nb v 12 4)
def ptOffset (v : Nat) : Int := sgn 4 (nb v 16 4)
def ptSigGain (v : Nat) : Int := sgn 4 (nb v 20 4)
def ptSigOffset (v : Nat) : Int := sgn 4 (nb v 24 4)

/-- The valid points of a channel, and those whose RANGE is the channel's CH_RANGE, which are used (R253). -/
def State.validPts (s : State) (ch : Nat) : List (Nat × Nat) :=
  ((List.range 5).map (fun k => (k, s.cfg (oCalPoint ch k)))).filter (fun p => bit (ptFlags p.2) 0)
def State.usedPts (s : State) (ch : Nat) : List (Nat × Nat) :=
  (s.validPts ch).filter (fun p => ptRange p.2 = s.cfg (oChRange ch))

/-- Linear interpolation of a field over points in ascending temperature; the end values hold outside (R256). -/
def interp : List Nat → Rat → (Nat → Int) → Rat
  | [], _, _ => 0
  | [p], _, f => (f p : Int)
  | p :: q :: t, x, f =>
    if x ≤ (ptTemp p : Int) then (f p : Int)
    else if x ≤ (ptTemp q : Int) ∧ ptTemp p ≠ ptTemp q then
      (f p : Int) + (x - (ptTemp p : Int)) / ((ptTemp q - ptTemp p : Int) : Rat) * ((f q - f p : Int) : Rat)
    else interp (q :: t) x f

/-- T_a in 0.01 degC. -/
def State.taCenti (s : State) : Rat := (s.cal.ta : Rat) / 10

/-- The trims of a channel without drift terms: gain in 0.01 ppm, offset in nV, phase in mdeg; those of a running step on
the channel stand in their place (R256, R267). -/
def State.trims (s : State) (ch : Nat) : Rat × Rat × Int :=
  match s.cal.chans.get ch with
  | some c =>
    if c.st = .abandoned ∨ c.st = .stored then
      let pts := (s.usedPts ch).map Prod.snd
      (interp pts s.taCenti ptGain, interp pts s.taCenti ptOffset, rnd (interp pts s.taCenti ptPhase))
    else (c.g, c.o, c.ph)
  | none =>
    let pts := (s.usedPts ch).map Prod.snd
    (interp pts s.taCenti ptGain, interp pts s.taCenti ptOffset, rnd (interp pts s.taCenti ptPhase))

/-- A step runs on the channel and its trims are those of the step (R267). -/
def State.stepOn (s : State) (ch : Nat) : Bool :=
  match s.cal.chans.get ch with
  | some c => s.cal.running && decide (c.st ≠ .abandoned) && decide (c.st ≠ .stored)
  | none => false

/-- The drift terms of a channel in force: none without a used point or during a step (R256, R267). -/
def State.drift (s : State) (ch : Nat) : Int × Int :=
  if s.stepOn ch ∨ s.usedPts ch = [] then (0, 0) else (s.cal.driftG.get ch, s.cal.driftO.get ch)

/-- The position shift of a phase trim, in 2^-16 modulator clock (R254). -/
def phaseShift (ph : Int) : Int := rnd ((ph : Rat) * (81920 * 65536) / 360000)

/-- A gain code and an offset code before clamping (R256): one DAC step is 488.28125 units. -/
def gainCode (x : Rat) : Int := 8192 + rnd (x * 32 / 15625)
def offsetCode (x : Rat) : Int := rnd (x * 32 / 15625)
def clampGain (c : Int) : Nat := (max 0 (min 16383 c)).toNat
def clampOffset (c : Int) : Int := max (-2048) (min 2047 c)

/-- The codes of a channel (R256): gain, offset, shift, phase, and the gain and offset applied. -/
def State.codes (s : State) (ch : Nat) : Nat × Int × Int × Int × Int × Int :=
  let t := s.trims ch
  let d := s.drift ch
  (clampGain (gainCode (t.1 - d.1)), clampOffset (offsetCode (t.2.1 - d.2)), phaseShift t.2.2, t.2.2,
    rnd (t.1 - d.1), rnd (t.2.1 - d.2))

/-- TRIM_CLAMPED: a code of the channel is clamped (R256). -/
def State.codeClamped (s : State) (ch : Nat) : Bool :=
  let t := s.trims ch
  let d := s.drift ch
  let g := gainCode (t.1 - d.1)
  let o := offsetCode (t.2.1 - d.2)
  decide ((clampGain g : Int) ≠ g) || decide (clampOffset o ≠ o)

/-- The spare of a channel's group serves it or examines it. -/
def State.spareAt (s : State) (ch : Nat) : Option Nat :=
  if (s.spares.get (ch / 32)).ch = some ch then some (ch / 32) else none

/-- A rotation slot runs on the channel and its own modulator is under measurement (R258). -/
def State.slotHolds (s : State) (ch : Nat) : Bool :=
  match s.spareAt ch with
  | none => false
  | some k =>
    let p := s.spares.get k
    (p.why = .rotation || p.why = .signature) && p.stage ≠ .waitCross && p.stage ≠ .done && p.stage ≠ .none

/-- K_ch and Delta_ch that a channel's newest load put in force (R257). -/
def State.kNow (s : State) (ch : Nat) : Nat × Int :=
  (((s.chans.get ch).trimLog.head?).map Prod.snd).getD (dfltOf (oCalFullScale ch), 0)

/-- K_ch and Delta_ch of the cycle that begins at a boundary position, and whether a load entered there (R257). -/
def State.kAt (s : State) (ch pos : Nat) : Nat × Int × Bool :=
  match (s.chans.get ch).trimLog.find? (fun e => decide (e.1 ≤ pos)) with
  | some e => (e.2.1, e.2.2, decide (e.1 = pos))
  | none => (dfltOf (oCalFullScale ch), 0, false)

/-- Request a load of a channel's codes, shift and full scale when one differs from what is in force (R257); held while a
rotation slot runs on the channel (R258) (DEDUCED, log 48). -/
def State.requestLoad (s : State) (ch : Nat) : State :=
  if s.slotHolds ch then s else
  let c := s.codes ch
  let m := s.mods.get ch
  let s := s.setCal (fun k => { k with clamped := k.clamped.set ch (s.codeClamped ch) })
  if m.gain = c.1 ∧ m.offset = c.2.1 ∧ s.kNow ch = (s.cfg (oCalFullScale ch), c.2.2.1) then
    s.setChan ch (fun x => { x with loadReq := none, phase := c.2.2.2.1, gApplied := c.2.2.2.2.1, oApplied := c.2.2.2.2.2 })
  else s.setChan ch (fun x => { x with loadReq := some c })

/-- Request loads for every enabled channel. -/
def State.requestLoads (s : State) : State := s.enabledChans.foldl State.requestLoad s

/-- The range peak of a channel in nanovolts (Table 3.1). -/
def State.peakNv (s : State) (ch : Nat) : Nat := 500000000 / 2 ^ s.cfg (oChRange ch)

/-- The factor of a gain code (R53). -/
def dacFactor (code : Nat) : Rat := 1 + ((code : Int) - 8192 : Int) * (8 : Rat) / 100 / 16384

/-- The sample codes of one nanovolt on a channel, times 2^24. -/
def State.codePerNv (s : State) (ch : Nat) : Rat :=
  (rangePeak (s.chans.get ch).preset : Rat) * (2 ^ 24 : Nat) / (s.peakNv ch : Rat)

/-- Fold a held spare's alignment into its own DACs at a boundary, and store the codes (R260). -/
def State.fold (s : State) (k ch : Nat) : State :=
  let p := s.spares.get k
  let m := s.mods.get (256 + k)
  let f := dacFactor m.gain
  let want := f * ((p.g : Rat) / (2 ^ 24 : Nat))
  let gc := clampGain (8192 + rnd ((want - 1) * 16384 * 100 / 8))
  let cNv := (p.c : Rat) / s.codePerNv ch
  let oc := clampOffset (m.offset + offsetCode cNv)
  let rest := cNv - ((oc - m.offset : Int) : Rat) * 15625 / 32
  let t := s.trims ch
  let v := 2 ^ 31 + gc * 2 ^ 16 + (unsgn 2 oc) % 4096
  let s := (s.storeTry false (oCalSpareFold ch) v 4).setCfg (oCalSpareFold ch) v
  let s := s.setMod (256 + k) (fun m => { m with gain := gc, offset := oc })
  (s.setSpare k (fun p => { p with
    g := rnd (want / dacFactor gc * (2 ^ 24 : Nat)), c := rnd (rest * s.codePerNv ch),
    foldDue := false, foldGain := gc, foldOffset := oc, g0 := rnd t.1, o0 := rnd t.2.1 })).setCal
    (fun c => { c with untracked := c.untracked.set ch true })

/-- What a change of the interpolated trim does to a spare that serves the channel: alignment terms on request (R259),
the spare's own codes when held (R260). -/
def State.spareTrim (s : State) (k ch : Nat) : State :=
  let p := s.spares.get k
  let t := s.trims ch
  let g1 := rnd t.1
  let o1 := rnd t.2.1
  if p.st = .request ∧ p.stage = .serving then
    s.setSpare k (fun p => { p with
      g := rnd ((p.g : Rat) * (1 + (g1 : Rat) / 100000000) / (1 + (p.g0 : Rat) / 100000000)),
      c := p.c + rnd (((o1 - p.o0 : Int) : Rat) * s.codePerNv ch), g0 := g1, o0 := o1 })
  else if p.st = .held ∧ p.foldDue = false then
    s.setMod (256 + k) (fun m => { m with
      gain := clampGain ((p.foldGain : Int) + rnd (((g1 - p.g0 : Int) : Rat) * 32 / 15625)),
      offset := clampOffset (p.foldOffset + offsetCode ((o1 - p.o0 : Int) : Rat)) })
  else s

/-- Restart the parallel run of a spare from its first sample (R64). -/
def State.parallelRestart (s : State) (k : Nat) : State :=
  if (s.spares.get k).stage = .pairs then s.setSpare k (fun p => { p with own := [], spare := [] }) else s

/-- At a boundary position, load a channel's requested codes, shift and full scale (R55-R57, R257). -/
def State.dacLoad (s : State) (pos ch : Nat) : State :=
  let s := match (s.chans.get ch).loadReq with
    | none => s
    | some r =>
      let s := s.setMod ch (fun m => { m with gain := r.1, offset := r.2.1 })
      let s := s.setChan ch (fun x => { x with
        loadReq := none, trimLog := ((pos, s.cfg (oCalFullScale ch), r.2.2.1) :: x.trimLog).take 64,
        phase := r.2.2.2.1, gApplied := r.2.2.2.2.1, oApplied := r.2.2.2.2.2 })
      match s.spareAt ch with
      | none => s
      | some k => (s.parallelRestart k).spareTrim k ch
  match s.spareAt ch with
  | none => s
  | some k => if (s.spares.get k).foldDue ∧ (s.spares.get k).stage = .serving then s.fold k ch else s

/-! ### The applied temperature (R255) -/

/-- Take a pair of die-sensor results: T_a follows by CAL_TEMP_STEP_MC, unless the sensors are split. -/
def State.applyTemp (s : State) (bg osc : Int) : State :=
  if 10000 < (bg - osc).natAbs then s.setCal (fun c => { c with split := true })
  else
    let t := rdiv (bg + osc) 2
    let s := s.setCal (fun c => { c with split := false, measured := true })
    let s := s.setDisp (fun d => { d with measured := true })
    if (s.cfg oCalTempStepMc : Int) ≤ (t - s.cal.ta).natAbs then
      let s := (s.setCal (fun c => { c with ta := t })).requestLoads
      let s := if s.cal.passRun ∧ (s.cfg oRecalDeltaMc : Int) < (t - s.cal.lastTemp).natAbs then
        s.setCal (fun c => { c with again := true }) else s
      s.dispTempNew
    else s.dispTempNew

end Sys2Proof.Machine
end

