-- ==== Sys2Proof/Machine/PrepayOps.lean ====
section
/-! DEFINITION. The prepayment unit's shared operations: local time, tariffs, debit, levels, disconnect sources (R226-R243). -/
namespace Sys2Proof.Machine

/-! ### Local time (R236) -/

/-- Daylight saving time is in force at an instant. -/
def State.dstAt (s : State) (t : Stamp) : Bool := decide (s.cfg oCalDstStart ≤ t) && decide (t < s.cfg oCalDstEnd)

/-- Local seconds since 2000-01-01 local. -/
def State.localSec (s : State) (t : Stamp) : Int :=
  (secOf t : Int) + s.cfgI 2 oCalUtcOffsetMin * 60 + (if s.dstAt t then (s.cfg oCalDstShiftMin : Int) * 60 else 0)

/-- Local day number and local minute of the day. -/
def State.localDay (s : State) (t : Stamp) : Int := s.localSec t / 86400
def State.localMinute (s : State) (t : Stamp) : Nat := ((s.localSec t % 86400) / 60).toNat

/-- Year, month 1-12 and day 1-31 of a day counted from 2000-01-01, in the Gregorian calendar. -/
def civil (day : Int) : Int × Nat × Nat :=
  let z := day + 730425
  let era := z / 146097
  let doe := (z - era * 146097).toNat
  let yoe := (doe - doe / 1460 + doe / 36524 - doe / 146096) / 365
  let doy := doe - (365 * yoe + yoe / 4 - yoe / 100)
  let mp := (5 * doy + 2) / 153
  let d := doy - (153 * mp + 2) / 5 + 1
  let m := if mp < 10 then mp + 3 else mp - 9
  ((yoe : Int) + era * 400 + (if m ≤ 2 then 1 else 0), m, d)

/-- Index of a day in the year table, in leap-year numbering from 0. -/
def yearIndex (day : Int) : Nat :=
  let c := civil day
  [0, 31, 60, 91, 121, 152, 182, 213, 244, 274, 305, 335].getD (c.2.1 - 1) 0 + c.2.2 - 1

/-! ### Tariffs (R234, R235) -/

/-- The tariff in force for an account at an instant (R234). -/
def State.tariffAt (s : State) (a : Nat) (t : Stamp) : Nat :=
  if s.cfg (oPpNextTariff a) ≠ 0xFF ∧ s.cfg (oPpNextTariffTime a) ≤ t then s.cfg (oPpNextTariff a) else s.cfg (oPpTariff a)

/-- A rate of a tariff, and a block limit in Wh. -/
def State.rate (s : State) (tf b k : Nat) : Nat := nb (s.cfg (oTfRates tf)) (4 * (4 * b + k)) 4
def State.blockLimit (s : State) (tf k : Nat) : Nat := nb (s.cfg (oTfBlockWh tf)) (4 * k) 4

/-- The identifier of the block period at an instant (Table 9.2). -/
def State.periodId (s : State) (tf : Nat) (t : Stamp) : Nat :=
  let p := s.cfg (oTfParams tf)
  let day := s.localDay t
  match bits p 1 0 with
  | 1 => day.toNat
  | 2 =>
    let c := civil day
    ((c.1 - 2000) * 12 + (c.2.1 : Int) - 1 - (if c.2.2 < bits p 15 8 then 1 else 0)).toNat
  | _ => 0

/-- The block that holds an energy (R232). -/
def State.blockOf (s : State) (tf e : Nat) : Nat :=
  if e < s.blockLimit tf 0 * 2 ^ 40 ∨ s.blockLimit tf 0 = 0xFFFFFFFF then 0
  else if e < s.blockLimit tf 1 * 2 ^ 40 ∨ s.blockLimit tf 1 = 0xFFFFFFFF then 1
  else if e < s.blockLimit tf 2 * 2 ^ 40 ∨ s.blockLimit tf 2 = 0xFFFFFFFF then 2 else 3

/-- The schedule entry in force at an instant (R232, R237). -/
def State.schedAt (s : State) (t : Stamp) : SchedEntry := if t < s.pp.now.time then s.pp.prev else s.pp.now

/-- A friendly window of an account is in force under a schedule entry (R241). -/
def State.friendly (s : State) (a : Nat) (e : SchedEntry) : Bool :=
  let o := s.cfg (oPpOptions a)
  (bit o 1 && e.night) || (bit o 2 && e.weekend) || (bit o 3 && e.holiday)

/-! ### Disconnect sources and relay queues (R242, R243) -/

/-- Change the account's prepayment record, its credit line, and the relay port. -/
def State.setPrepay (s : State) (a : Nat) (f : Prepay → Prepay) : State := s.setPp (fun p => { p with acct := p.acct.upd a f })
def State.setCredit (s : State) (a : Nat) (f : Credit → Credit) : State :=
  let s := s.setPp (fun p => { p with credit := p.credit.upd a f })
  s.setNvm (fun n => { n with dirtyC := n.dirtyC.set (a / 5) true })
def State.setRelay (s : State) (f : Relay → Relay) : State := s.setPp (fun p => { p with relay := f p.relay })

/-- The relay slots of an account (R243). -/
def State.relaySlots (s : State) (a : Nat) : List Nat :=
  let w := s.cfg (oPpRelay a)
  rangeFrom (bits w 7 0) (bits w 10 8)

/-- The disconnect sources: bit 0 CREDIT, 1 HOST, 2 TAMPER, 3 OUTAGE_PENDING (Table 9.13 bits 27:24). -/
def State.sources (s : State) (a : Nat) : Nat :=
  let p := s.pp.acct.get a
  flag p.srcCredit 0 + flag (s.cfgB (oPpHostDisconnect a)) 1 + flag p.srcTamper 2 + flag p.srcOutage 3

/-- A source has been set: a close queued for the account is removed and an open operation is queued (R242). -/
def State.queueOpen (s : State) (a : Nat) : State :=
  let s := s.setPrepay a (fun p => { p with waitArm := false })
  let s := s.setRelay (fun r => { r with closeQ := r.closeQ.filter (· ≠ a) })
  if s.relaySlots a = [] ∨ s.pp.relay.openQ.contains a then s
  else s.setRelay (fun r => { r with openQ := r.openQ ++ [a] })

/-- Queue the close operation of an account. -/
def State.queueClose (s : State) (a : Nat) : State :=
  let s := s.setPrepay a (fun p => { p with waitArm := false })
  if s.relaySlots a = [] ∨ s.pp.relay.closeQ.contains a then s
  else s.setRelay (fun r => { r with closeQ := r.closeQ ++ [a] })

/-- A source has cleared: when it was the last and the relays are commanded open, the close is queued or waits for its
arming (R242) (DEDUCED, log 43). -/
def State.sourceCleared (s : State) (a : Nat) : State :=
  if s.sources a ≠ 0 ∨ (s.relaySlots a).all s.pp.relay.commanded.get then s
  else if bit (s.cfg (oPpOptions a)) 0 then s.setPrepay a (fun p => { p with waitArm := true })
  else s.queueClose a

/-- Set or clear the CREDIT source. -/
def State.creditSource (s : State) (a : Nat) (on : Bool) : State :=
  if (s.pp.acct.get a).srcCredit = on then s
  else
    let s := s.setPrepay a (fun p => { p with srcCredit := on })
    if on then s.queueOpen a else s.sourceCleared a

/-- Set the TAMPER source on accounts, by a source code (R373). -/
def State.tamperDisc (s : State) (accts : List Nat) (code : Nat) : State :=
  accts.foldl (fun s a =>
    let was := (s.pp.acct.get a).srcTamper
    let s := s.setPrepay a (fun p => { p with
      srcTamper := true
      tamperBy := if p.tamperBy.contains code then p.tamperBy else p.tamperBy ++ [code] })
    if was then s else s.queueOpen a) s

/-- Clear the TAMPER source of an account (R375). -/
def State.tamperFree (s : State) (a : Nat) : State :=
  if (s.pp.acct.get a).srcTamper then
    (s.setPrepay a (fun p => { p with srcTamper := false, tamperBy := [] })).sourceCleared a
  else s

/-! ### Levels (R239-R241) -/

/-- CREDIT as a signed number. -/
def State.creditI (s : State) (a : Nat) : Int := (s.pp.credit.get a).credit.toInt

/-- The exhaustion level X (R239). -/
def State.exhaustLevel (s : State) (a : Nat) : Int :=
  if (s.pp.credit.get a).ec then -(s.cfgI 8 (oPpEcLimit a)) else 0

/-- An I64 as eight bytes. -/
def le64 (v : Int) : Bytes := le 8 (unsgn 8 v)

/-- Step 1 of R239: low credit. -/
def State.levelLow (s : State) (a : Nat) : State :=
  let c := s.creditI a
  if c < s.cfgI 8 (oPpLowLevel a) then
    (if (s.pp.credit.get a).lowRep then s
     else (s.setCredit a (fun l => { l with lowRep := true })).raise 40 (le 2 a ++ le64 c))
  else if (s.pp.credit.get a).lowRep then s.setCredit a (fun l => { l with lowRep := false }) else s

/-- Step 2 of R239: automatic emergency credit. -/
def State.levelEc (s : State) (a : Nat) : State :=
  if s.creditI a ≤ 0 ∧ bits (s.cfg (oPpOptions a)) 5 4 = 1 ∧ (s.pp.credit.get a).ec = false ∧ 0 < s.cfgI 8 (oPpEcLimit a) then
    s.setCredit a (fun l => { l with ec := true })
  else s

/-- Step 3 of R239: exhaustion, with the deferral of R241 at an instant. -/
def State.levelOut (s : State) (a : Nat) (t : Stamp) : State :=
  let c := s.creditI a
  let x := s.exhaustLevel a
  if x < c then s
  else
    let debt := s.cfgI 8 (oPpFriendlyDebt a)
    let deferred := s.friendly a (s.schedAt t) && !(decide (0 < debt) && decide (c ≤ x - debt))
    let s := if (s.pp.credit.get a).exhRep then s
      else (s.setCredit a (fun l => { l with exhRep := true })).raise 41 (le 2 a ++ le64 c ++ le 1 (if deferred then 0 else 1))
    if deferred then s else s.creditSource a true

/-- Step 4 of R239: recovery. -/
def State.levelUp (s : State) (a : Nat) : State :=
  let c := s.creditI a
  let s := if max (s.cfgI 8 (oPpReconnectLevel a)) (s.exhaustLevel a) < c then
      (if (s.pp.credit.get a).exhRep then s.setCredit a (fun l => { l with exhRep := false }) else s).creditSource a false
    else s
  if 0 < c ∧ (s.pp.credit.get a).ec then s.setCredit a (fun l => { l with ec := false }) else s

/-- Evaluate the levels of an account at an instant (R239); with PP_MODE = 0 they are not evaluated (R251). -/
def State.levels (s : State) (a : Nat) (t : Stamp) : State :=
  if s.cfg (oPpMode a) = 1 then (((s.levelLow a).levelEc a).levelOut a t).levelUp a else s

/-! ### The calendar's schedule (R236-R238, R241) -/

/-- The band at a local minute under a day profile (R237). -/
def bandOf (profile m : Nat) : Nat :=
  let on := ((List.range 8).map (fun k => nb profile (2 * k) 2)).filter (fun w => bit w 15)
  match (on.filter (fun w => decide (bits w 10 0 ≤ m))).getLast?, on.getLast? with
  | some w, _ => bits w 14 12
  | none, some w => bits w 14 12
  | none, none => 0

/-- The night window at a local minute (R241). -/
def nightAt (word m : Nat) : Bool :=
  let a := bits word 10 0
  let b := bits word 26 16
  if a = b then false else if a < b then decide (a ≤ m) && decide (m < b) else decide (a ≤ m) || decide (m < b)

/-- Band, friendly status, day and daylight saving time that the calendar gives at an instant. -/
def State.calendarAt (s : State) (t : Stamp) : SchedEntry :=
  let d := s.localDay t
  let m := s.localMinute t
  let e := nb (s.cfg oCalYearTable) (yearIndex d) 1
  { time := t, band := bandOf (s.cfg (oCalDayProfile (bits e 5 0))) m, night := nightAt (s.cfg oCalNight) m
    weekend := bit (s.cfg oCalWeekendMask) ((d + 5) % 7).toNat, holiday := bit e 7, day := d.toNat, dst := s.dstAt t }

/-- Two schedule entries ask for the same. -/
def SchedEntry.same (a b : SchedEntry) : Bool := decide ({ a with time := 0 } = { b with time := 0 })

/-- Instants at which the calendar may change after a time: minutes of 65 local days, with and without the shift, and the
daylight saving limits. -/
def State.changeTimes (s : State) (t : Stamp) : List Stamp :=
  let d0 := s.localDay t
  let off := s.cfgI 2 oCalUtcOffsetMin * 60
  let shift : Int := (s.cfg oCalDstShiftMin : Int) * 60
  let days := (List.range 65).flatMap (fun (i : Nat) =>
    let d := d0 + (i : Int)
    let p := s.cfg (oCalDayProfile (bits (nb (s.cfg oCalYearTable) (yearIndex d) 1) 5 0))
    let pts := ((List.range 8).map (fun k => nb p (2 * k) 2)).filter (fun w => bit w 15)
    let mins := 0 :: bits (s.cfg oCalNight) 10 0 :: bits (s.cfg oCalNight) 26 16 :: pts.map (fun w => bits w 10 0)
    mins.flatMap (fun (m : Nat) =>
      let b : Int := d * 86400 + (m : Int) * 60 - off
      [(b * 1024).toNat, ((b - shift) * 1024).toNat]))
  (s.cfg oCalDstStart :: s.cfg oCalDstEnd :: days).filter (fun x => decide (t < x))

/-- Insert an instant in ascending order, once. -/
def insTime (x : Stamp) : List Stamp → List Stamp
  | [] => [x]
  | y :: l => if x = y then y :: l else if x < y then x :: y :: l else y :: insTime x l

/-- The next 64 changes after a time (R237). -/
def State.changes (s : State) (t : Stamp) : List SchedEntry :=
  let l := (s.changeTimes t).foldl (fun l x => insTime x l) []
  ((l.filter (fun x => !(s.calendarAt x).same (s.calendarAt (x - 1)))).map s.calendarAt).take 64

/-- The schedule that the boot stage of a cast-on writes: the present time is in force from the start (R237, R349). -/
def State.schedStart (s : State) : State :=
  let e := s.calendarAt s.now
  s.setPp (fun p => { p with sched := s.changes s.now, now := e, prev := e, frozen := false })

/-! ### Debit and daily charge (R230-R234) -/

/-- EV47 at the first debit or charge under a new tariff (R234). -/
def State.tariffUsed (s : State) (a tf : Nat) : State :=
  let old := (s.pp.acct.get a).lastTariff
  let s := s.setPrepay a (fun p => { p with lastTariff := tf + 1 })
  if old ≠ 0 ∧ old ≠ tf + 1 then s.raise 47 (le 1 0 ++ le 2 a ++ le 1 (old - 1) ++ le 1 tf) else s

/-- Price an energy block by block (the loop of R232): credit line, energy left, rate table and band. -/
def debitParts (e : State) (tf b : Nat) : Nat → Credit → Nat → Credit
  | 0, l, _ => l
  | _, l, 0 => l
  | n + 1, l, rest =>
    let k := e.blockOf tf l.block
    let lim := e.blockLimit tf k
    let room := if k < 3 ∧ lim ≠ 0xFFFFFFFF then lim * 2 ^ 40 - l.block else rest
    let part := min rest room
    let x := part * e.rate tf b k + l.residue
    let unit := 1000 * 2 ^ 40
    debitParts e tf b n { l with
      residue := x % unit
      credit := l.credit - BitVec.ofNat 64 (x / unit)
      block := l.block + part } (rest - part)

/-- The debit of an applied add of a cycle (R231, R232): e is the configuration of the stitch's epoch. -/
def State.debit (s e : State) (a : Nat) (seq : W32) (energy : Nat) (t : Stamp) : State :=
  if e.cfg (oPpMode a) ≠ 1 then s
  else
    let tf := e.tariffAt a t
    let b := (s.schedAt t).band
    let pid := e.periodId tf t
    let s := s.tariffUsed a tf
    let s := s.setCredit a (fun l =>
      let l := if pid ≠ l.periodId then { l with block := 0, periodId := pid } else l
      { debitParts e tf b 5 l energy with debitSeq := seq })
    let blk := e.blockOf tf (s.pp.credit.get a).block
    (s.setPrepay a (fun p => { p with band := b, blk := blk })).levels a t

/-- The instant of the local midnight that starts a day (R233, R236). -/
def State.midnight (s : State) (day : Nat) : Stamp :=
  let base : Int := (day : Int) * 86400 - s.cfgI 2 oCalUtcOffsetMin * 60
  let t := base.toNat * 1024
  let shifted := (base - (s.cfg oCalDstShiftMin : Int) * 60).toNat * 1024
  if s.dstAt shifted then shifted else t

/-- Charge one day start to an account (R233). -/
def State.charge (s : State) (a day : Nat) : State :=
  let t := s.midnight day
  let tf := s.tariffAt a t
  let s := s.tariffUsed a tf
  let s := s.setCredit a (fun l => { l with
    credit := l.credit - BitVec.ofNat 64 (s.cfg (oTfDailyCharge tf))
    chargeDay := day })
  s.levels a t

/-- Charge every day start of an account up to a day, in order (R233). -/
def State.chargeTo (s : State) (a day : Nat) : State :=
  if s.cfg (oPpMode a) = 1 ∧ s.cfgB (oAccEnable a) then
    let last := (s.pp.credit.get a).chargeDay
    (rangeFrom (last + 1) (day - last)).foldl (fun s d => s.charge a d) s
  else s

end Sys2Proof.Machine
end

