-- ==== Sys2Proof/Machine/Units.lean ====
section
/-! DEFINITION. The units that see applied adds: lines, pulse outputs, demand, load profile, threshold slots, snapshots
(R186-R207). -/
namespace Sys2Proof.Machine

/-! ### Quantity-map entries (Table 7.2) -/

def meNumber (w : Nat) : Nat := bits w 7 0
def meKind (w : Nat) : Nat := bits w 9 8
def meCode (w : Nat) : Nat := bits w 23 16
def mePhase (w : Nat) : Nat := bits w 26 24
def meEnable (w : Nat) : Bool := bit w 32
def meDemand (w : Nat) : Bool := bit w 33
def meProfile (w : Nat) : Bool := bit w 34
def mePulse (w : Nat) : Option Nat := if bit w 38 then some (bits w 37 35) else none
def meSlot (w : Nat) : Option Nat := if bit w 46 then some (bits w 45 40) else none

/-- A subject as one number: kind * 1024 + number. -/
def subjOf (kind num : Nat) : Nat := kind * 1024 + num
def meSubj (w : Nat) : Nat := subjOf (meKind w) (meNumber w)

/-- The enabled map entries in ascending order: entry number and word. -/
def State.mapEntries (s : State) : List (Nat × Nat) :=
  (s.dict.active.filter (fun e => decide (0x500000 ≤ e.1) && decide (e.1 < 0x502000) &&
    (match e.2 with
     | none => false
     | some w => meEnable w))).map (fun e => (e.1 - 0x500000, e.2.getD 0))

/-- The enabled entries of a subject. -/
def State.subjEntries (s : State) (subj : Nat) : List (Nat × Nat) := s.mapEntries.filter (fun e => meSubj e.2 = subj)

/-- The cycle of a stitch as the units read it: the state with its epoch's configuration, B_n, B_{n+1} in 2^-16 clocks, the
counter of the starting boundary and the end stamp. -/
structure Cyc where
  b0   : Nat := 0
  b1   : Nat := 0
  cyc  : W32 := 0
  endT : Stamp := 0
  deriving DecidableEq, Repr, Inhabited

/-- T_n in modulator clocks, exact. -/
def Cyc.clocks (c : Cyc) : Rat := ((c.b1 - c.b0 : Nat) : Rat) / 65536

/-! ### Pulse outputs (R202-R207) -/

/-- Model time in whole microseconds. -/
def State.us (s : State) : Nat := s.clock.clk * 125 / 512

/-- Insert an edge in time order, after edges of the same time. -/
def insEdge (e : Nat × Bool) : List (Nat × Bool) → List (Nat × Bool)
  | [] => [e]
  | x :: t => if e.1 < x.1 then e :: x :: t else x :: insEdge e t

/-- Whether a pulse output is enabled, and its width in microseconds (Table 7.10). -/
def State.pulseOn (s : State) (k : Nat) : Bool := bit (s.cfg (oPulseConfig k)) 0
def State.pulseWidth (s : State) (k : Nat) : Nat := bits (s.cfg (oPulseConfig k)) 15 8 * 1000

/-- Drive a rising edge at a time. -/
def Pulse.rise (p : Pulse) (half : Bool) (width t : Nat) : Pulse :=
  { p with level := true, lastRise := some t, lastEdge := some t,
           edges := if half then p.edges else insEdge (t + width, false) p.edges }

/-- Defer a pulse that the spacing rule holds back (R204, Table 7.11). -/
def Pulse.defer (p : Pulse) (q : Nat) : Pulse :=
  if p.owed < 65535 then { p with owed := p.owed + 1, overspeed := true } else { p with residue := p.residue + q, overspeed := true }

/-- The earliest time of an owed rising edge, not before a floor (R204). -/
def Pulse.owedAt (p : Pulse) (half : Bool) (width floor : Nat) : Nat :=
  match (if half then p.lastEdge else p.lastRise) with
  | none => floor
  | some t => max floor (t + (if half then 500 else max (2 * width) 1000))

/-- The next happening of a pulse output up to a time: a scheduled edge, or an owed pulse; none when nothing is due. -/
def Pulse.step1 (p : Pulse) (half : Bool) (width q floor now : Nat) : Option Pulse :=
  let t0 := p.owedAt half width floor
  let owedDue := decide (0 < p.owed) && !(half && p.level) && decide (t0 ≤ now)
  let free (t : Nat) : Bool := decide (p.owedAt half width 0 ≤ t) && !(half && p.level)
  let driveOwed := if half then { (p.rise half width t0) with owed := p.owed - 1, edges := insEdge (t0 + 500, false) p.edges }
    else { (p.rise half width t0) with owed := p.owed - 1 }
  match p.edges with
  | [] => if owedDue then some driveOwed else none
  | (te, up) :: rest =>
    if owedDue ∧ t0 ≤ te then some driveOwed
    else if now < te then (if owedDue then some driveOwed else none)
    else
      let p := { p with edges := rest }
      if up then (if p.owed = 0 ∧ free te then some (p.rise half width te) else some (p.defer q))
      else if !half then some { p with level := false, lastEdge := some te }
      else if !p.level then some p
      else if p.owedAt half width 0 ≤ te then some { p with level := false, lastEdge := some te }
      else some { p with edges := insEdge (p.owedAt half width 0, false) rest, overspeed := true }

/-- Run a pulse output's happenings, at most so many (DEDUCED, log 52). -/
def Pulse.runTo (half : Bool) (width q floor now : Nat) : Nat → Pulse → Pulse
  | 0, p => p
  | n + 1, p =>
    match p.step1 half width q floor now with
    | none => p
    | some p => Pulse.runTo half width q floor now n p

/-- Change one pulse output. -/
def State.setPulse (s : State) (k : Nat) (f : Pulse → Pulse) : State := s.setAcc (fun a => { a with pulses := a.pulses.upd k f })

/-- Bring a pulse output to the present time; an owed pulse is driven no earlier than the floor (DEDUCED, log 52). -/
def State.pulseRun (s : State) (k floor : Nat) : State :=
  if s.pulseOn k then
    s.setPulse k (fun p => Pulse.runTo (s.pulseHalf k) (s.pulseWidth k) (s.quantum k) floor s.us
      (3 * p.edges.length + 3 * p.owed + 8) p)
  else s

/-- Bring every pulse output to the present time (DEDUCED, log 52). -/
def State.pulsesRun (s : State) : State := (List.range 8).foldl (fun s k => s.pulseRun k 0) s

/-- Surplus quanta of the residue become owed pulses, up to the saturation of DEFERRED (R205, R207). -/
def Pulse.surplus (p : Pulse) (q : Nat) : Pulse :=
  let n := min (p.residue / q) (65535 - p.owed)
  { p with residue := p.residue - n * q, owed := p.owed + n, overspeed := p.overspeed || decide (0 < n) }

/-- The instant of the model's microseconds at which a crossing's edge is driven (R202, R203): a share of a delta's cycle. -/
def State.edgeTime (s : State) (c : Cyc) (share : Rat) : Nat :=
  let clk : Rat := (s.clock.castOn : Rat) + ((c.b0 : Rat) + share * ((c.b1 - c.b0 : Nat) : Rat)) / 65536 + 655360
  (rnd (clk * 125 / 512)).toNat

/-- Schedule an edge; one whose time has passed is driven at once and sets LATE (R203). -/
def Pulse.schedule (p : Pulse) (now t : Nat) (up : Bool) : Pulse :=
  if t < now then { p with edges := insEdge (now, up) p.edges, late := true } else { p with edges := insEdge (t, up) p.edges }

/-- An applied delta advances the residue of a pulse output (R202, R204). -/
def State.pulseAdd (s : State) (k d : Nat) (c : Cyc) : State :=
  if !s.pulseOn k then s
  else
    let s := s.pulseRun k 0
    let q := s.quantum k
    let now := s.us
    let half := s.pulseHalf k
    let s := s.setPulse k (fun p => p.surplus q)
    let r := (s.acc.pulses.get k).residue
    let ups := if d = 0 ∨ q = 0 then [] else (rangeFrom 1 ((r + d) / q)).map (fun n => (n * q, true))
    let downs := if d = 0 ∨ q = 0 ∨ !half then [] else
      ((List.range ((r + d) / q + 1)).map (fun n => (n * q + q / 2, false))).filter (fun x => decide (r < x.1) && decide (x.1 ≤ r + d))
    let s := s.setPulse k (fun p =>
      let p := (ups ++ downs).foldl (fun p x => p.schedule now (s.edgeTime c (((x.1 - r : Nat) : Rat) / (d : Rat))) x.2) p
      { p with residue := r + d - ups.length * q })
    s.pulseRun k now

/-! ### Demand (R194-R197) -/

/-- The length of a sub-period in units of 1/1,024 s. -/
def State.subLen (s : State) : Nat := s.cfg oDemandPeriodS / s.cfg oDemandSubperiods * 1024

/-- The energy kept for a later sub-period, and the list without it. -/
def laterOf (l : List (Nat × Nat)) (p : Nat) : Nat := l.foldl (fun n e => if e.1 = p then n + e.2 else n) 0

/-- A delta enters the sub-period that holds its cycle's end stamp (R194). -/
def Demand.add (x : Demand) (p d : Nat) : Demand :=
  if p ≤ x.period then { x with open_ := x.open_ + d } else { x with later := (p, d) :: x.later }

/-- Close the open sub-period at an end stamp (R194): the demand over the last sub-periods, and the maximum. -/
def Demand.close (x : Demand) (subs per : Nat) (endT : Stamp) (next : Nat) : Demand :=
  let e := x.open_ + (x.closed.take (subs - 1)).foldl (· + ·) 0
  let d : Rat := (e : Rat) * 3600 / ((2 ^ 40 : Nat) : Rat) / (per : Rat)
  { x with
    last := d
    max := if x.max < d then d else x.max
    maxAt := if x.max < d then endT else x.maxAt
    closed := (x.open_ :: x.closed).take 15
    open_ := laterOf x.later next
    later := x.later.filter (fun e => e.1 ≠ next)
    period := next }

/-- Close sub-periods up to a number; after 16 empty ones the number is taken over. -/
def Demand.closeTo (subs per len : Nat) : Nat → Demand → Nat → Demand
  | 0, x, p => { x with open_ := laterOf x.later p, later := x.later.filter (fun e => e.1 ≠ p), period := p }
  | n + 1, x, p =>
    if p ≤ x.period then x
    else Demand.closeTo subs per len n (x.close subs per ((x.period + 1) * len) (x.period + 1)) p

/-- Change a demand record; a new maximum makes its group dirty (R318). -/
def State.setDemand (s : State) (n : Nat) (f : Demand → Demand) : State :=
  let x := s.acc.demand.get n
  let y := f x
  let s := s.setAcc (fun a => { a with demand := a.demand.set n y })
  if x.max = y.max ∧ x.maxAt = y.maxAt then s
  else
    let i := (s.tracked.takeWhile (· ≠ n)).length
    s.setNvm (fun v => { v with dirtyD := v.dirtyD.set (i / 15) true })

/-- At a subject's gate advance, close the sub-periods that ended at or before an end stamp (R195). -/
def State.demandGate (s : State) (subj : Nat) (endT : Stamp) : State :=
  let len := s.subLen
  let p := if len = 0 then 0 else endT / len
  ((s.subjEntries subj).filter (fun e => meDemand e.2)).foldl (fun s e =>
    s.setDemand e.1 (fun x => Demand.closeTo (s.cfg oDemandSubperiods) (s.cfg oDemandPeriodS) len 17 x p)) s

/-- Close every sub-period in progress now, aligning the next to the time (R196). -/
def State.demandForce (s : State) : State :=
  let len := s.subLen
  let p := if len = 0 then 0 else s.now / len
  s.tracked.foldl (fun s n =>
    s.setDemand n (fun x => x.close (s.cfg oDemandSubperiods) (s.cfg oDemandPeriodS) s.now p)) s

/-! ### Load profile (R199) -/

/-- A profile period in units of 1/1,024 s. -/
def State.profLen (s : State) : Nat := s.cfg oProfilePeriodS * 1024

/-- Change a profile record. -/
def State.setProf (s : State) (n : Nat) (f : Profile → Profile) : State := s.setAcc (fun a => { a with profile := a.profile.upd n f })

/-- The profile entries of a subject. -/
def State.profEntries (s : State) (subj : Nat) : List (Nat × Nat) := (s.subjEntries subj).filter (fun e => meProfile e.2)

/-- Subjects with a profile entry, each once. -/
def State.profSubjects (s : State) : List Nat := ((s.mapEntries.filter (fun e => meProfile e.2)).map (fun e => meSubj e.2)).eraseDups

/-- Whether a subject has cycles. -/
def State.subjRuns (s : State) (subj : Nat) : Bool :=
  if subj / 1024 = 2 then (s.bal.get (subj % 1024)).running else (s.accts.get (subj % 1024)).running

/-- V_close of an entry: the line without the energy of cycles beyond the period. -/
def State.profClose (s : State) (n : Nat) : Nat := (s.acc.lines.get n).value.toNat - (s.acc.profile.get n).beyond

/-- One item of an energy profile record (Table 7.7). -/
def State.profItem (s : State) (n : Nat) : Nat :=
  let x := s.acc.profile.get n
  n * 2 ^ 51 + (x.cleared + (s.profClose n / 2 ^ 20 - x.open_ / 2 ^ 20)) % 2 ^ 51

/-- Write a subject's energy profile record and open its next period (R199): the period's end, SHORT and OUTAGE. -/
def State.profRecord (s : State) (subj : Nat) (endT : Stamp) (short outage : Bool) : State :=
  let es := s.profEntries subj
  let clr := es.any (fun e => (s.acc.profile.get e.1).wasCleared)
  let seq := (s.acc.profSeq.get subj + 1) % 65536
  let rec_ := le 6 endT ++ le 1 0x10 ++ le 1 (flag short 0 + flag outage 1 + flag clr 2) ++
    le 2 (subj / 1024 * 2 ^ 14 + subj % 1024) ++ le 1 es.length ++ le 1 0 ++ le 2 (s.acc.profQual.get subj) ++ le 2 seq ++
    es.flatMap (fun e => le 8 (s.profItem e.1))
  let s := (s.logPut 5 0x10 rec_).archive (subj % 1024) 0x50 rec_
  let s := es.foldl (fun s e => s.setProf e.1 (fun x => { x with
    open_ := (s.acc.lines.get e.1).value.toNat - x.beyond, cleared := 0, wasCleared := false, beyond := 0 })) s
  s.setAcc (fun a => { a with
    profSeq := a.profSeq.set subj seq, profQual := a.profQual.set subj 0, profCount := a.profCount + 1 })

/-- EV53 once every running profile subject stands at the period. -/
def State.profDone (s : State) (at_ : Nat) : State :=
  if s.acc.profCount ≠ 0 ∧ (s.profSubjects.filter s.subjRuns).all (fun x => decide (at_ ≤ s.acc.profAt.get x)) then
    (s.raise 53 (le 1 0 ++ le 2 s.acc.profCount)).setAcc (fun a => { a with profCount := 0 })
  else s

/-- At a subject's gate advance: a period that has ended yields its record (R199, R195); the cycle's quality word enters
QUALITY_OR. The period in progress is kept as its number plus one. -/
def State.profGate (s : State) (subj : Nat) (endT : Stamp) (quality : Nat) : State :=
  if s.profEntries subj = [] then s
  else
    let len := s.profLen
    let p := if len = 0 then 0 else endT / len
    let at_ := s.acc.profAt.get subj
    let s := if at_ = 0 then
        let s := (s.profEntries subj).foldl (fun s e => s.setProf e.1 (fun x => { x with
          open_ := (s.acc.lines.get e.1).value.toNat, beyond := 0 })) s
        s.setAcc (fun a => { a with profAt := a.profAt.set subj (p + 1) })
      else if at_ ≤ p then
        ((s.profRecord subj (at_ * len) false false).setAcc (fun a => { a with profAt := a.profAt.set subj (p + 1) })).profDone (p + 1)
      else s
    s.setAcc (fun a => { a with profQual := a.profQual.upd subj (fun q => Nat.lor q quality) })

/-- Close every profile period in progress now, SHORT, aligning the next to the time (R196). -/
def State.profForce (s : State) : State :=
  let p := if s.profLen = 0 then 0 else s.now / s.profLen
  let s := (s.profSubjects.filter (fun x => s.acc.profAt.get x ≠ 0)).foldl (fun s x =>
    (s.profRecord x s.now true false).setAcc (fun a => { a with profAt := a.profAt.set x (p + 1) })) s
  s.profDone (p + 1)

/-! ### Threshold slots (R201) -/

/-- One cycle of a threshold slot: entry, r in units per hour, end stamp. -/
def State.slotCycle (s : State) (k n : Nat) (r : Rat) (endT : Stamp) : State :=
  let x := s.acc.slots.get k
  let lim := s.cfgF (oSlotLevel k)
  let low := lim * (1000 - (s.cfg oSlotHystPermille : Rat)) / 1000
  let hit := if x.tripped then decide (r < low) else decide (lim < r)
  let run := if hit then x.run + 1 else 0
  if s.cfg oSlotCycles ≤ run then
    let s := s.setAcc (fun a => { a with slots := a.slots.set k { tripped := !x.tripped, run := 0 } })
    s.raiseAt 32 (le 1 1 ++ le 2 k ++ le 2 n ++ le 1 0 ++ le 1 (if x.tripped then 1 else 0) ++ le 4 (toF32 r)) endT 1
  else s.setAcc (fun a => { a with slots := a.slots.set k { x with run := run } })

/-- SLOT_TRIPPED: a slot whose entry is disabled counts as cleared (R201). -/
def State.slotTripped (s : State) : Nat :=
  mapBits 64 (fun k => (s.acc.slots.get k).tripped && s.mapEntries.any (fun e => meSlot e.2 = some k))

/-! ### Snapshots (R193) -/

/-- The items of a snapshot: an entry number and up to three values (Table 7.5). -/
def State.snapItems (s : State) (subj : Nat) (demand : Bool) : List (Nat × Nat × Nat × Nat) :=
  (s.subjEntries subj).map (fun e =>
    let d := s.acc.demand.get e.1
    if demand then (e.1, d.maxAt, toF32 d.max, toF32 d.last) else (e.1, (s.acc.lines.get e.1).value.toNat, 0, 0))

/-- Take a class's snapshot of the subject it waits for. -/
def State.snapTake (s : State) (cls : Nat) (seq : W32) (endT : Stamp) (stale : Bool) : State :=
  let w := (s.acc.snaps.get cls).subject
  let items := s.snapItems (subjOf (bits w 15 14) (bits w 9 0)) (bit w 13)
  s.setAcc (fun a => { a with snaps := a.snaps.upd cls (fun x => { x with
    state := if stale then 3 else 2, time := endT, seq := seq, items := items }) })

/-- At a gate advance of a subject, the waiting snapshots of it are taken. -/
def State.snapGate (s : State) (subj : Nat) (seq : W32) (endT : Stamp) : State :=
  (List.range 3).foldl (fun s k =>
    let x := s.acc.snaps.get k
    if x.state = 1 ∧ subjOf (bits x.subject 15 14) (bits x.subject 9 0) = subj then s.snapTake k seq endT false else s) s

/-- The bytes of SNAP_DATA (Table 7.5). -/
def Snap.bytes (x : Snap) : Bytes :=
  le 6 x.time ++ le 1 x.state ++ le 1 (sat 255 x.items.length) ++ le 4 x.seq.toNat ++ le 2 x.subject ++ le 2 0 ++
    x.items.flatMap (fun i => if bit x.subject 13 then le 2 i.1 ++ le 6 i.2.1 ++ le 4 i.2.2.1 ++ le 4 i.2.2.2
      else le 12 i.2.1 ++ le 2 i.1 ++ le 2 0)

/-! ### Sequenced adds (R19, R190) -/

/-- The units act on an applied add of an entry, under the fields of its epoch's word (R190). -/
def State.unitsAdd (s : State) (n w d : Nat) (c : Cyc) : State :=
  let s := if meDemand w then
      let len := s.subLen
      s.setDemand n (fun x => x.add (if len = 0 then 0 else c.endT / len) d)
    else s
  let s := if meProfile w ∧ s.acc.profAt.get (meSubj w) ≠ 0 ∧ s.acc.profAt.get (meSubj w) * s.profLen ≤ c.endT then
      s.setProf n (fun x => { x with beyond := x.beyond + d })
    else s
  let s := match meSlot w with
    | none => s
    | some k => s.slotCycle k n ((d : Rat) * 3600 * 4096000 / ((2 ^ 40 : Nat) : Rat) / c.clocks) c.endT
  match mePulse w with
  | none => s
  | some k => s.pulseAdd k d c

/-- A line after an add, or none when the bank discards it (R19). -/
def Line.add (l : Line) (d : Nat) (seq : W32) : Option Line :=
  if newer seq l.marker then some { value := l.value + BitVec.ofNat 96 d, marker := seq } else none

/-- Discard an add: not an error, counted (Table 5.9). -/
def State.discardAdd (s : State) : State := s.setEng (fun e => { e with discarded := (e.discarded + 1) % 2 ^ 32 })

/-- Apply or discard one sequenced add (R19); e is the state with the configuration of the stitch's epoch. -/
def State.seqAdd (s e : State) (t : AddTo) (d : Nat) (seq : W32) (c : Cyc) : State :=
  match t with
  | .line n =>
    match (s.acc.lines.get n).add d seq with
    | none => s.discardAdd
    | some l =>
      let s := s.setAcc (fun a => { a with lines := a.lines.set n l, applied := true })
      let s := s.setNvm (fun v => { v with dirty := v.dirty.set (n / 15) true })
      s.unitsAdd n (e.cfg (oMapEntry n)) d c
  | .quality a =>
    match (s.acc.quality.get a).add d seq with
    | none => s.discardAdd
    | some l =>
      let s := s.setAcc (fun x => { x with quality := x.quality.set a l, applied := true })
      s.setNvm (fun v => { v with dirtyQ := v.dirtyQ.set (a / 15) true })
  | .energy a =>
    match (s.acc.energy.get a).add d seq with
    | none => s.discardAdd
    | some l => (s.setAcc (fun x => { x with energy := x.energy.set a l, applied := true })).debit e a seq d c.endT

/-- What the units do at a subject's gate advance (R193, R195, R199, R201): slots of entries without an add see r = 0,
sub-periods and profile periods close, waiting snapshots are taken. -/
def State.unitsGate (s e : State) (subj : Nat) (seq : W32) (endT : Stamp) (quality : Nat) : State :=
  let s := (e.subjEntries subj).foldl (fun s x =>
    match meSlot x.2 with
    | none => s
    | some k => if (s.acc.lines.get x.1).marker = seq then s else s.slotCycle k x.1 0 endT) s
  ((s.demandGate subj endT).profGate subj endT quality).snapGate subj seq endT

end Sys2Proof.Machine
end

