-- ==== Sys2Proof/Machine/Samples.lean ====
section
/-! DEFINITION. Sample rings, the cycle grid and the sums over it (R109-R111, R152, R493, Table 6.5). -/
namespace Sys2Proof.Machine

/-! ### Cycles of a boundary table -/

/-- The boundary of a slot and those before it, newest first. -/
def Group.from (g : Group) (bslot : Nat) : List Boundary := g.table.dropWhile (fun b => decide (b.cycle.toNat % 64 ≠ bslot))

/-- The cycle that two boundaries enclose. -/
def State.cycOf (s : State) (b0 b1 : Boundary) : Cyc :=
  { b0 := b0.pos, b1 := b1.pos, cyc := b0.cycle, endT := s.stampOf b1.pos }

/-- The cycle that a stitch's issuing boundary ends, with its two records; none once the table has dropped them (R108). -/
def State.cycAt (s : State) (vg bslot : Nat) : Option (Boundary × Boundary × Cyc) :=
  match (s.groups.get vg).from bslot with
  | b1 :: b0 :: _ => some (b0, b1, s.cycOf b0 b1)
  | _ => none

/-- The cycles of a window of n cycles that a boundary closes, oldest first; fewer when the table does not hold them. -/
def State.winCycs (s : State) (vg bslot n : Nat) : List (Boundary × Cyc) :=
  let l := ((s.groups.get vg).from bslot).take (n + 1)
  ((l.zip (l.drop 1)).map (fun p => (p.1, s.cycOf p.2 p.1))).reverse

/-! ### Samples (R14, R87, R90) -/

/-- What a ring holds for a sample index. -/
inductive Samp where
  | pending | lost | bad
  | val (x : Int)
  deriving DecidableEq, Repr

/-- Read one position of a ring. -/
def ringAt (r : KMap (Option Int)) (pos : Nat) : Samp :=
  match r.get pos with
  | none => .bad
  | some x => .val x

/-- The sample of a channel at an index of a preset. -/
def State.samp (s : State) (ch p : Nat) (k : Int) : Samp :=
  let c := s.chans.get ch
  if k < 0 then .bad
  else
    let k := k.toNat
    if c.preset = p then
      (if c.next ≤ k then (if c.running ∧ c.uncovered = false then .pending else .bad)
       else if k < c.first ∨ k < c.validFrom then .bad
       else if k + ringLen p < c.next then .lost
       else ringAt c.ring ((k + c.ringOff) % ringLen p))
    else match c.old with
      | none => .bad
      | some o =>
        if o.preset ≠ p ∨ o.next ≤ k then .bad
        else if k + ringLen p / 2 ≤ o.next + (c.next - c.first) then .lost
        else ringAt o.ring ((k + o.ringOff) % ringLen p)

/-- The greatest sample index that a cycle of a channel reads (R110). -/
def lastIndex (p : Nat) (delta : Int) (b1 : Nat) : Int := ((b1 : Int) + delta) / (65536 * presetD p : Nat) + 21

/-- Every sample that a cycle of some channels reads is written (R127); e holds the configuration of the epoch (DEDUCED, log 50). -/
def State.samplesReady (s e : State) (b0 b1 : Nat) (chs : List Nat) : Bool :=
  chs.all (fun ch =>
    let p := e.cfg (oChPreset ch)
    decide (s.samp ch p (lastIndex p (s.kAt ch b0).2.1 b1) ≠ .pending))

/-! ### Resampling (R109-R111) -/

/-- The pre-filter selection of R111: none while the preset's rate is at most 256 f. -/
def preFilter (p : Nat) (c : Cyc) : Nat :=
  if c.b1 - c.b0 ≤ 256 * presetD p * 65536 then 0 else presetD p * 2 ^ 32 + (c.b1 - c.b0) / 65536

/-- One tap of the kernel at a position of 2^-16 sample, interpolated between adjacent phases (R110), in 2^-38. -/
def tapAt (pre frac m : Nat) : Int :=
  let a := Config.kernel pre (frac / 256) m
  256 * a + (Config.kernel pre (frac / 256 + 1) m - a) * ((frac % 256 : Nat) : Int)

/-- The resampled value at a position of input time in 2^-16 modulator clocks; none when a sample is missing or invalid (DESIGN CHOICE, log 1; DEDUCED, log 50). -/
def State.gridVal (s : State) (ch p pre : Nat) (tau : Rat) : Option Rat :=
  let u := (tau / (presetD p : Rat) + 12 * 65536).floor
  let i := u / 65536
  let f := (u % 65536).toNat
  ((List.range 16).foldl (fun (acc : Option Int) (m : Nat) =>
    match acc, s.samp ch p (i + (m : Int) - 7) with
    | some a, .val x => some (a + tapAt pre f m * x)
    | _, _ => none) (some 0)).map (fun a => (a : Rat) / ((2 ^ 38 : Nat) : Rat))

/-- The values of an option list, or none when one is missing. -/
def allSome : List (Option Rat) → Option (List Rat)
  | [] => some []
  | none :: _ => none
  | some x :: t => (allSome t).map (x :: ·)

/-- K_ch of a cycle in volts or amperes per code (R152). -/
def State.perCode (s : State) (ch p b0 : Nat) : Rat := ofF32 (s.kAt ch b0).1 / (rangePeak p : Rat)

/-- y_ch(j), j = 0..255, of a cycle in volts or amperes; none when a sample is missing or invalid. -/
def State.wave (s e : State) (c : Cyc) (ch : Nat) : Option (List Rat) :=
  let p := e.cfg (oChPreset ch)
  let k := s.perCode ch p c.b0
  let d := (s.kAt ch c.b0).2.1
  let pre := preFilter p c
  allSome ((List.range 256).map (fun (j : Nat) =>
    (s.gridVal ch p pre ((c.b0 : Rat) + ((j : Nat) : Rat) * ((c.b1 - c.b0 : Nat) : Rat) / 256 + (d : Rat))).map (· * k)))

/-- A channel's cycle used a sample taken in overrange (R57). -/
def State.overIn (s e : State) (c : Cyc) (ch : Nat) : Bool :=
  let p := e.cfg (oChPreset ch)
  let d := (s.kAt ch c.b0).2.1
  let lo := ((c.b0 : Int) + d) / (65536 * presetD p : Nat) + 5
  let hi := lastIndex p d c.b1
  (s.chans.get ch).overIdx.any (fun k => decide (lo ≤ (k : Int)) && decide ((k : Int) ≤ hi))

/-! ### Sums over the grid (Table 6.5) -/

def sumR (l : List Rat) : Rat := l.foldl (· + ·) 0
def dot (x y : List Rat) : Rat := sumR (List.zipWith (· * ·) x y)
def meanR (l : List Rat) : Rat := sumR l / (l.length : Rat)
def meanSq (l : List Rat) : Rat := dot l l / (l.length : Rat)

/-- The sum of y(j) e^(-i 2 pi h j / N): real and imaginary part. -/
def dft (y : List Rat) (n h : Nat) : Rat × Rat :=
  (y.foldl (fun (a : Rat × Rat × Nat) v =>
    let t := cisTurn ((h * a.2.2 : Nat) : Int) n
    (a.1 + v * t.1, a.2.1 - v * t.2, a.2.2 + 1)) (0, 0, 0)) |> (fun a => (a.1, a.2.1))

/-- The square of the magnitude of a sum. -/
def mag2 (z : Rat × Rat) : Rat := z.1 * z.1 + z.2 * z.2

/-- |Y_h|^2 from its sum over n points. -/
def binSq (z : Rat × Rat) (n : Nat) : Rat := 2 * mag2 z / ((n * n : Nat) : Rat)

/-- V_h conj(I_h) of two cycle waves: real and imaginary part. -/
def cross (v i : List Rat) (h : Nat) : Rat × Rat :=
  let a := dft v 256 h
  let b := dft i 256 h
  (2 * (a.1 * b.1 + a.2 * b.2) / 65536, 2 * (a.2 * b.1 - a.1 * b.2) / 65536)

/-- H_n of a cycle at a preset in a group (R156). -/
def State.hUsed (e : State) (vg p : Nat) (c : Cyc) : Nat :=
  min (hNom p (e.cfg (oVgNominalHz vg))) (presetBw p * (c.b1 - c.b0) / (4096000 * 65536))

/-- An angle in turns as mdeg in (-180,000, 180,000] (DEDUCED, log 55). -/
def mdeg (t : Rat) : Int :=
  let t := t - (t.floor : Int)
  rnd ((if (1 : Rat) / 2 < t then t - 1 else t) * 360000)

/-- The reference voltage channel of a group (R493). -/
def State.refChan (e : State) (vg : Nat) : Nat := (e.mapCh vg 0).getD (bits (e.cfg (oVgPhases vg)) 7 0)

/-- The argument in turns of a reference sum over n points, or none where R493 sets angles to 0. -/
def State.refArg (e : State) (vg n : Nat) (z : Option (Rat × Rat)) : Option Rat :=
  match z with
  | none => none
  | some z => if binSq z n * 10000 < (e.cfgF (oPqUdinV vg)) ^ 2 then none else some (argTurn z.1 z.2)

/-- Energy of a power over a cycle in 2^-40 units, ties to even (R157). -/
def energyOf (x : Rat) (c : Cyc) : Nat :=
  let y := rabs x * c.clocks / 4096000 / 3600 * ((2 ^ 40 : Nat) : Rat)
  rndEven y.num.natAbs y.den

/-- The same with its sign. -/
def energyI (x : Rat) (c : Cyc) : Int := if x < 0 then -(energyOf x c : Int) else (energyOf x c : Int)

end Sys2Proof.Machine
end

