-- ==== Sys2Proof/Machine/Bill.lean ====
section
/-! DEFINITION. BILL: the energy quantities of an account and cycle, its deltas, direction rules and contribution
(R156-R165, R214). -/
namespace Sys2Proof.Machine

/-- The quantities of one measuring element (Table 6.5): slot, phase 0-2, powers in W and var, squared RMS values. -/
structure ElemQ where
  slot  : Nat := 0
  phase : Nat := 0
  p     : Rat := 0
  q     : Rat := 0
  p1    : Rat := 0
  q1    : Rat := 0
  u2    : Rat := 0
  i2    : Rat := 0
  deriving DecidableEq, Repr, Inhabited

/-- S_e, S_V,e and S1_e of an element. -/
def ElemQ.sA (e : ElemQ) : Rat := sqrtR (e.u2 * e.i2)
def ElemQ.sV (e : ElemQ) : Rat := sqrtR (e.p * e.p + e.q * e.q)
def ElemQ.s1 (e : ElemQ) : Rat := sqrtR (e.p1 * e.p1 + e.q1 * e.q1)

/-- The element quantities of a voltage and a current wave, with the highest order used (R156). -/
def elemOf (slot phase hN : Nat) (v i : List Rat) : ElemQ :=
  let f := cross v i 1
  { slot := slot, phase := phase, p := dot v i / 256,
    q := sumR ((rangeFrom 1 hN).map (fun h => (cross v i h).2)),
    p1 := f.1, q1 := f.2, u2 := meanSq v, i2 := meanSq i }

/-- The voltage wave of an element: of its phase, or against L2 in a two-wattmeter account (Table 6.2). -/
def State.elemVolt (s e : State) (c : Cyc) (a ph : Nat) : Option (List Rat) :=
  let w (p : Nat) : Option (List Rat) := match e.mapCh (e.accVg a) p with
    | none => none
    | some ch => s.wave e c ch
  if e.twoWatt a then
    match w ph, w 1 with
    | some x, some y => some (List.zipWith (· - ·) x y)
    | _, _ => none
  else w ph

/-- All of a list's values, or none. -/
def allOf {α : Type} : List (Option α) → Option (List α)
  | [] => some []
  | none :: _ => none
  | some x :: t => (allOf t).map (x :: ·)

/-- The elements of an account's cycle; none when a sample is missing or invalid. -/
def State.elemsOf (s e : State) (c : Cyc) (a : Nat) : Option (List ElemQ) :=
  allOf ((e.elems a).map (fun x =>
    match s.elemVolt e c a x.2.1, s.wave e c x.2.2 with
    | some v, some i => some (elemOf x.1 x.2.1 (e.hUsed (e.accVg a) (e.cfg (oChPreset x.2.2)) c) v i)
    | _, _ => none))

/-- The element of a 1P2W account taken with its neutral current (R160): the quantities of its live slot. -/
def State.neutralElem (s e : State) (c : Cyc) (a : Nat) : Option ElemQ :=
  match e.neutralSlot a, (e.elems a).head? with
  | some n, some x =>
    match s.elemVolt e c a x.2.1, s.wave e c n.2.2 with
    | some v, some i => some (elemOf x.1 x.2.1 (e.hUsed (e.accVg a) (e.cfg (oChPreset n.2.2)) c) v i)
    | _, _ => none
  | _, _ => none

/-- NEUTRAL_BILLING applies (Table 6.4). -/
def State.neutralBills (e : State) (a : Nat) : Bool :=
  bit (e.cfg (oAccOptions a)) 2 && decide (e.accType a = 0) && (e.neutralSlot a).isSome

/-- The quadrant 0-3 of a pair of powers (Table 6.6). -/
def quadrant (p q : Rat) : Nat := if 0 ≤ p then (if 0 ≤ q then 0 else 3) else (if 0 ≤ q then 1 else 2)

/-- 1 for export, else 0. -/
def exp01 (p : Rat) : Nat := if p < 0 then 1 else 0

/-- A delta for a code and phase. -/
structure Delta where
  code  : Nat
  phase : Nat
  units : Nat
  deriving DecidableEq, Repr

/-- The deltas of one element's own lines (R162). -/
def elemDeltas (c : Cyc) (x : ElemQ) : List Delta :=
  let ph := x.phase + 1
  [⟨0x01 + exp01 x.p, ph, energyOf x.p c⟩, ⟨0x03 + exp01 x.p1, ph, energyOf x.p1 c⟩,
   ⟨0x05 + quadrant x.p x.q, ph, energyOf x.q c⟩, ⟨0x09 + quadrant x.p1 x.q1, ph, energyOf x.q1 c⟩,
   ⟨0x0D + exp01 x.p, ph, energyOf x.sA c⟩, ⟨0x0F + exp01 x.p, ph, energyOf x.sV c⟩,
   ⟨0x11 + exp01 x.p1, ph, energyOf x.s1 c⟩, ⟨0x13, ph, energyOf x.u2 c⟩, ⟨0x14, ph, energyOf x.i2 c⟩]

/-- Sums over the elements. -/
def sumP (l : List ElemQ) : Rat := sumR (l.map ElemQ.p)
def sumQ (l : List ElemQ) : Rat := sumR (l.map ElemQ.q)
def sumP1 (l : List ElemQ) : Rat := sumR (l.map ElemQ.p1)
def sumQ1 (l : List ElemQ) : Rat := sumR (l.map ElemQ.q1)
def sumSA (l : List ElemQ) : Rat := sumR (l.map ElemQ.sA)

/-- The deltas of the total lines with one direction per cycle (R162). -/
def totalDeltas (c : Cyc) (l : List ElemQ) : List Delta :=
  let p := sumP l
  let q := sumQ l
  let p1 := sumP1 l
  let q1 := sumQ1 l
  [⟨0x01 + exp01 p, 0, energyOf p c⟩, ⟨0x03 + exp01 p1, 0, energyOf p1 c⟩,
   ⟨0x05 + quadrant p q, 0, energyOf q c⟩, ⟨0x09 + quadrant p1 q1, 0, energyOf q1 c⟩,
   ⟨0x0D + exp01 p, 0, energyOf (sumSA l) c⟩, ⟨0x0F + exp01 p, 0, energyOf (sqrtR (p * p + q * q)) c⟩,
   ⟨0x11 + exp01 p1, 0, energyOf (sqrtR (p1 * p1 + q1 * q1)) c⟩]

/-- The sum of element deltas of a code base and index, when some element takes that place (R163). -/
def sumAt (base n : Nat) (l : List (Nat × Nat)) : List Delta :=
  match l.filter (fun x => x.1 = n) with
  | [] => []
  | x => [⟨base + n, 0, x.foldl (fun a y => a + y.2) 0⟩]

/-- The deltas of the total lines with a direction per element (R163). -/
def splitDeltas (c : Cyc) (l : List ElemQ) : List Delta :=
  let two (base : Nat) (f : ElemQ → Nat × Nat) := [0, 1].flatMap (fun n => sumAt base n (l.map f))
  let four (base : Nat) (f : ElemQ → Nat × Nat) := [0, 1, 2, 3].flatMap (fun n => sumAt base n (l.map f))
  let vect := [0, 1].flatMap (fun n =>
    let m := l.filter (fun x => exp01 x.p = n)
    if m.isEmpty then [] else [(⟨0x0F + n, 0, energyOf (sqrtR (sumP m ^ 2 + sumQ m ^ 2)) c⟩ : Delta)])
  let fund := [0, 1].flatMap (fun n =>
    let m := l.filter (fun x => exp01 x.p1 = n)
    if m.isEmpty then [] else [(⟨0x11 + n, 0, energyOf (sqrtR (sumP1 m ^ 2 + sumQ1 m ^ 2)) c⟩ : Delta)])
  two 0x01 (fun x => (exp01 x.p, energyOf x.p c)) ++ two 0x03 (fun x => (exp01 x.p1, energyOf x.p1 c)) ++
    four 0x05 (fun x => (quadrant x.p x.q, energyOf x.q c)) ++ four 0x09 (fun x => (quadrant x.p1 x.q1, energyOf x.q1 c)) ++
    two 0x0D (fun x => (exp01 x.p, energyOf x.sA c)) ++ vect ++ fund

/-- V2H and I2H of the total, and I2H of the N slot (R157). -/
def squareDeltas (c : Cyc) (l : List ElemQ) (n2 : Option Rat) : List Delta :=
  [⟨0x13, 0, l.foldl (fun a x => a + energyOf x.u2 c) 0⟩, ⟨0x14, 0, l.foldl (fun a x => a + energyOf x.i2 c) 0⟩] ++
    (match n2 with
     | none => []
     | some x => [⟨0x14, 4, energyOf x c⟩])

/-- The adds to an account's enabled map lines, ascending. -/
def State.lineAdds (e : State) (a : Nat) (d : List Delta) : List (AddTo × Nat) :=
  (e.subjEntries (subjOf 0 a)).filterMap (fun x =>
    (d.find? (fun y => y.code = meCode x.2 ∧ y.phase = mePhase x.2)).map (fun y => (AddTo.line x.1, y.units)))

/-- Why an account's cycle cannot be computed: 0 it can, 1 samples lost or invalid, 2 a channel uncovered (R15, R69, R72). -/
def State.cycleLost (s e : State) (c : Cyc) (chs : List Nat) : Nat :=
  if chs.any (fun ch => (s.chans.get ch).uncovered) then 2
  else if chs.any (fun ch => (s.wave e c ch).isNone) then 1 else 0

/-- Flags of the quality word that the samples and boundaries of a cycle decide: OVERRANGE, FREQ_UNLOCKED, CAL_CHANGED and
SAMPLES_LOST (Table 5.8). -/
def State.cycleFlags (s e : State) (c : Cyc) (b1 : Boundary) (chs : List Nat) (lost : Bool) : Nat :=
  flag lost 8 + flag (chs.any (s.overIn e c)) 7 + flag (b1.free || b1.relock) 6 +
    flag (chs.any (fun ch => (s.kAt ch c.b0).2.2)) 5

/-- BILL's result of an account and cycle before its gate: the record and the adds to its map lines, and last the energy
line's add under prepayment (R230). -/
def State.billOf (s e : State) (a : Nat) (seq : W32) (b1 : Boundary) (c : Cyc) : BillRes × List (AddTo × Nat) :=
  let chs := e.acctChans a
  let lost := s.cycleLost e c chs
  let r : BillRes := { seq := seq, time := c.endT, quality := s.cycleFlags e c b1 chs (decide (lost ≠ 0)), lost := lost, clocks := (c.b1 - c.b0) / 65536 }
  match s.elemsOf e c a with
  | none => ({ r with lost := max lost 1, quality := Nat.lor r.quality 256 }, [])
  | some live =>
    if lost ≠ 0 then (r, [])
    else
      let alt := if e.neutralBills a then s.neutralElem e c a else none
      let neutral := match alt with
        | some n => decide (rabs (sumP live) < rabs n.p)
        | none => false
      let els := if neutral then (match alt with
        | some n => [n]
        | none => live) else live
      let p := sumP els
      let q := sumQ els
      let p1 := sumP1 els
      let q1 := sumQ1 els
      let sA := sumSA els
      let sV := sqrtR (p * p + q * q)
      let s1 := sqrtR (p1 * p1 + q1 * q1)
      let per := bit (e.cfg (oAccOptions a)) 0
      let n2 := match e.neutralSlot a with
        | none => none
        | some n => (s.wave e c n.2.2).map meanSq
      let d := (if per then splitDeltas c els else totalDeltas c els) ++ els.flatMap (elemDeltas c) ++ squareDeltas c els n2
      let start : Rat := (e.cfg (oAccStartMa a) : Rat) / 1000
      let den := if bit (e.cfg (oAccOptions a)) 1 then sA else sV
      let slotOf (f : ElemQ → Rat) := (List.range 4).map (fun i => match els.find? (fun x => x.slot = i) with
        | none => 0
        | some x => toF32 (f x))
      let two := e.twoWatt a
      let at_ (f : ElemQ → Rat) (ph : Nat) : Rat := sumR ((els.filter (fun x => x.phase = ph)).map f)
      let r := { r with
        p := toF32 p, q := toF32 q, sA := toF32 sA, sV := toF32 sV, p1 := toF32 p1, q1 := toF32 q1, s1 := toF32 s1,
        pf := toF32 (p / den), dpf := toF32 (p1 / s1), freq := toF32 (4096000 / c.clocks),
        pSlot := slotOf ElemQ.p, qSlot := slotOf ElemQ.q,
        quadrant := quadrant p q, fundExp := decide (p1 < 0), neutral := neutral, dirExp := some (decide (p < 0)),
        pExact := p,
        still := decide (rabs p < e.cfgF (oAccNoloadW a)) || els.all (fun x => decide (x.i2 < start * start)),
        e := if two then [0, 0, 0, els.foldl (fun t x => t + energyI x.p c) 0]
          else [energyI (at_ ElemQ.p 0) c, energyI (at_ ElemQ.p 1) c, energyI (at_ ElemQ.p 2) c, 0],
        i2 := [at_ ElemQ.i2 0, at_ ElemQ.i2 1, at_ ElemQ.i2 2], unattr := two }
      let imp := (d.filter (fun x => x.code = 0x01 ∧ x.phase = 0)).foldl (fun n x => n + x.units) 0
      (r, e.lineAdds a d ++ (if e.cfg (oPpMode a) = 1 then [(AddTo.energy a, imp)] else []))

/-! ### Estimates and the gate pass (R159, R161, R492) -/

/-- The power estimate of a cycle (R492): of the newest exact cycle, or the weighted mean of the last 60 s (DEDUCED, log 55). -/
def State.powerEstimate (s : State) (a lost : Nat) : Rat :=
  let x := s.accts.get a
  if lost = 2 then
    let w : Rat := ((x.recent.foldl (fun n e => n + e.2.1) 0 : Nat) : Rat)
    if w = 0 then 0 else sumR (x.recent.map (fun e => (e.2.1 : Rat) * e.2.2)) / w
  else x.newest.getD 0

/-- COMPLETE of a quality word (Table 5.8). -/
def withComplete (q : Nat) : Nat := if bit q 2 ∨ bit q 3 then q else Nat.lor q 1

/-- The quiet count after a cycle (R161); an estimated cycle holds it (Table 6.23). -/
def quietAfter (old : Nat) (r : BillRes) : Nat :=
  if r.lost ≠ 0 then old else if r.still then min (old + 1) 65535 else 0

/-- At the gate pass: the estimate, the anti-creep rule, the quality word, the quality line's add (R132, R148, R159, R161). -/
def State.billPass (s e : State) (st : Stitch) (c : Cyc) (r : BillRes) (adds : List (AddTo × Nat)) :
    BillRes × List (AddTo × Nat) :=
  let a := st.num
  let old := (s.accts.get a).bill
  let skipQ := flag st.skip2 10 + flag st.skip3 9 + flag (st.skip2 || st.skip3) 3
  let est := decide (r.lost ≠ 0)
  let quiet := quietAfter old.quiet r
  let noLoad := !est && r.still && decide (e.cfg (oAccNoloadCycles a) ≤ quiet)
  let q := withComplete (Nat.lor (Nat.lor r.quality skipQ) (flag noLoad 4 + flag est 2 + flag st.latchDel 1))
  let ql := (AddTo.quality a, flag st.latchDel 0 + flag est 48)
  if est then
    let p := s.powerEstimate a r.lost
    let d := energyOf p c
    let adds := e.lineAdds a [⟨0x01 + exp01 p, 0, d⟩]
    let en := if e.cfg (oPpMode a) = 1 then [(AddTo.energy a, if p < 0 then 0 else d)] else []
    ({ old with
        seq := r.seq, time := r.time, quality := q, quiet := quiet, dirExp := none, pExact := p, clocks := r.clocks,
        lost := r.lost, still := false, e := [0, 0, 0, energyI p c], i2 := [0, 0, 0], unattr := false },
     adds ++ [ql] ++ en)
  else if noLoad then
    ({ r with quality := q, quiet := quiet, dirExp := none, quadrant := old.quadrant, fundExp := old.fundExp,
              e := [0, 0, 0, 0] }, [ql])
  else
    let lines := adds.filter (fun x => match x.1 with
      | .energy _ => false
      | _ => true)
    let en := adds.filter (fun x => match x.1 with
      | .energy _ => true
      | _ => false)
    ({ r with quality := q, quiet := quiet }, lines ++ [ql] ++ en)

/-- The contribution entry of a cycle (R212, R214), for an account named in an enabled balance group. -/
def State.contribute (s e : State) (a : Nat) (c : Cyc) (r : BillRes) : State :=
  if e.bgOn.any (fun g => (e.feeders g).contains a || (e.members g).contains a) then
    let x : Contrib := {
      vgCycle := c.cyc, st := 3, e := r.e, i2 := r.i2.map (fun x => ofF32 (toF32 x)),
      flags := flag (bit r.quality 2) 0 + flag (bit r.quality 4) 1 + flag r.unattr 2 }
    { s with contrib := s.contrib.set (a * 8 + c.cyc.toNat % 8) x }
  else s

end Sys2Proof.Machine
end

