-- ==== Sys2Proof/Machine/HkOps.lean ====
section
/-! DEFINITION. The housekeeping sequencer's shared operations: the program, urgent requests and their order (R78-R83). -/
namespace Sys2Proof.Machine

/-- The fields of HK_STEP[i] (Table 3.11). -/
def State.hkChan (s : State) (i : Nat) : Nat := bits (s.cfg (oHkStep i)) 4 0
def State.hkMode (s : State) (i : Nat) : Nat := bits (s.cfg (oHkStep i)) 6 5
def State.hkRepeat (s : State) (i : Nat) : Nat := bits (s.cfg (oHkStep i)) 11 8
def State.hkLen (s : State) : Nat := s.cfg oHkProgramLength

/-- The loop time of R80 in microseconds: 1 ms auto-zero, the integration with 23.53 ms mains cycles, 5.34 ms de-integration. -/
def State.hkLoopUs (s : State) : Nat :=
  (List.range s.hkLen).foldl (fun t i =>
    t + (s.hkRepeat i + 1) * (1000 + [23530, 20000, 100000].getD (s.hkMode i) 0 + 5340)) 0

/-- Whether a write of HK_RUN = 1 passes its cross-object checks (R80) (DEDUCED, log 40). -/
def State.hkRunOk (s : State) : Bool :=
  let used := (List.range s.hkLen).map s.hkChan
  used.contains 5 && used.contains 6 && decide (s.hkLoopUs ≤ 5000000)

/-- The pending urgent request of the lowest order: 0 power, 1 tamper, 2 calibration (Table 3.14). -/
def Hk.first (h : Hk) : Option Nat :=
  if h.pendPower then some 0 else if h.pendTamper.isSome then some 1 else if h.pendCal then some 2 else none

/-- Let the pending request of the lowest order run; the sequencer's step starts again from its first repetition (R82, R83). -/
def Hk.arbitrate (h : Hk) : Hk :=
  match h.first with
  | none => { h with active := none }
  | some n => { h with active := some n, reps := 0, sum := 0 }

/-- Enter an urgent request; a new request of a source replaces its pending one (R82, R83). -/
def State.urgent (s : State) (src : UrgentSrc) : State :=
  let s := s.setHk (fun h => Hk.arbitrate (match src with
    | .power => { h with pendPower := true, posPower := 0 }
    | .tamperGlitch => { h with pendTamper := some false, posTamper := 0 }
    | .tamperTemp => { h with pendTamper := some true, posTamper := 0 }
    | .calibration => { h with pendCal := true, posCal := 0 }))
  if src = .calibration then
    (List.range 8).foldl (fun s k =>
      match (s.spares.get k).ch with
      | some ch => if s.stepOn ch then s.parallelRestart k else s
      | none => s) s
  else s

/-- A voltage group gives no measured period: it does not run or runs free (R78). -/
def State.vgUnlocked (s : State) (g : Nat) : Bool :=
  let x := s.groups.get g
  !x.running || x.free || x.table.isEmpty

/-- Stop the sequencer; the conversion in progress is discarded (R80) (DEDUCED, log 40). -/
def State.hkStop (s : State) : State :=
  s.setHk (fun h => { h with running := false, stopping := false, reps := 0, sum := 0 })

/-- Start the sequencer at step 0 (R80). -/
def State.hkStart (s : State) : State :=
  s.setHk (fun h => { h with running := true, stopping := false, step := 0, reps := 0, sum := 0 })

end Sys2Proof.Machine
end

