-- ==== Sys2Proof/Machine/CalOps.lean ====
section
/-! DEFINITION. The calibration session's shared operations: steps, iterations, storing of points, passes (R262-R275). -/
namespace Sys2Proof.Machine

/-- Change the step's view of a channel. -/
def State.setStep (s : State) (ch : Nat) (f : StepCh → StepCh) : State :=
  s.setCal (fun c => { c with chans := c.chans.upd ch (fun x => x.map f) })

/-- CS_CHANNELS as a list. -/
def State.csChannels (s : State) : List Nat := setList (s.cfg oCsChannels) 256

/-- Selected quantities of CS_STEP (Table 10.10). -/
def State.csGain (s : State) : Bool := bit (s.cfg oCsStep) 0
def State.csOffset (s : State) : Bool := bit (s.cfg oCsStep) 1
def State.csPhase (s : State) : Bool := bit (s.cfg oCsStep) 2

/-- Nominal temperature of a point in m degC (R253). -/
def nominalMc (k : Nat) : Int := [-40000, -10000, 25000, 55000, 85000].getD k 25000

/-- The point whose nominal temperature is nearest a temperature, ties to the lower index. -/
def nearestPoint (t : Int) : Nat :=
  (List.range 5).foldl (fun b k => if (t - nominalMc k).natAbs < (t - nominalMc b).natAbs then k else b) 0

/-- The declared amplitude of a channel (Table 10.2). -/
def State.declared (s : State) (ch : Nat) : Rat :=
  if s.cfg (oChKind ch) = 1 then s.cfgF oCsRefIRms else s.cfgF oCsRefVRms

/-- The phase reference of a channel and its declared lag in mdeg (Table 10.2). -/
def State.phaseRef (s : State) (ch : Nat) : Option (Nat × Int) :=
  if s.cfg (oChKind ch) = 1 then
    match s.acctOf ch with
    | none => none
    | some a =>
      match (s.slots a).find? (fun x => x.2.2 = ch) with
      | none => none
      | some x => (s.mapCh (s.accVg a) x.2.1).map (fun r => (r, s.cfgI 4 oCsRefLagMdeg))
  else
    ((List.range 4).findSome? (fun g =>
      if s.mapCh g 1 = some ch then (s.mapCh g 0).map (fun r => (r, (120000 : Int)))
      else if s.mapCh g 2 = some ch then (s.mapCh g 0).map (fun r => (r, (240000 : Int)))
      else none))

/-- CAL_QUALITY (Table 10.8). -/
def stepQuality (c : StepCh) (point : Nat) (moved conv pass : Bool) : Nat :=
  unsgn 2 c.residG * 2 ^ 32 + unsgn 2 c.residPh * 2 ^ 16 + sat 31 c.iters * 2 ^ 8 + point % 8 * 2 ^ 4 +
    flag c.implausible 3 + flag moved 2 + flag conv 1 + flag pass 0

/-- CAL_QUALITY as read; a channel no step has touched shows no point (Table 10.8) (DEDUCED, log 39). -/
def State.calQuality (s : State) (ch : Nat) : Nat := if s.cal.quality.get ch = 0 then 0x70 else s.cal.quality.get ch - 1

/-- The channels of the step still at work. -/
def State.stepOpen (s : State) : List Nat :=
  (s.cal.chans.filter (fun e => match e.2 with
    | none => false
    | some c => c.st ≠ .abandoned && c.st ≠ .stored && c.st ≠ .converged)).map Prod.fst

/-- When every channel of the step has converged or been abandoned, the end temperature is taken (R271). -/
def State.stepCheck (s : State) : State :=
  if s.cal.running ∧ s.cal.endDue = false ∧ s.stepOpen = [] then
    (s.setCal (fun c => { c with endDue := true })).urgent .calibration
  else s

/-- Abandon one channel of the step: its codes return to those of its stored points and EV29 tells the cause, except after
an implausible solution (R268, R269, Table 10.3). -/
def State.abandon (s : State) (ch cause : Nat) : State :=
  match s.cal.chans.get ch with
  | none => s
  | some c =>
    if c.st = .abandoned ∨ c.st = .stored then s else
    let q := stepQuality c 7 false false false
    let s := (s.setStep ch (fun c => { c with st := .abandoned })).setCal
      (fun k => { k with failed := k.failed ++ [ch], quality := k.quality.set ch (q + 1) })
    let s := s.requestLoad ch
    if c.implausible then s else s.raise 29 (le 1 ch ++ le 1 s.cal.steps ++ le 1 cause)

/-- Abandon every channel not yet stored, with a cause (DEDUCED, log 38). -/
def State.abandonAll (s : State) (cause : Nat) : State :=
  (s.cal.chans.map Prod.fst).foldl (fun s ch => s.abandon ch cause) s

/-- The step stops (R272). -/
def State.stepStop (s : State) : State :=
  s.setCal (fun c => { c with running := false, endDue := false, startT := none })

/-- The spare of a channel's group cannot take its signature (R270). -/
def State.noSignature (s : State) (ch : Nat) : Bool :=
  let p := s.spares.get (ch / 32)
  p.st = .held || p.st = .failed

/-- The end of one iteration of a channel: convergence, or a new solution (R267, R269). -/
def State.iterate (s : State) (ch : Nat) (c : StepCh) : State :=
  let n : Rat := (c.n : Nat)
  let a := c.sumA / n
  let d := c.sumD / n
  let th := c.sumTh / n
  let ref := s.phaseRef ch
  let eg := a / s.declared ch - 1
  let gOn := s.csGain
  let oOn := s.csOffset
  let pOn := s.csPhase && ref.isSome
  let conv := (!gOn || decide (rabs eg * 1000000 ≤ (s.cfg oCsGainTolPpm : Nat))) &&
    (!oOn || decide (rabs d ≤ (s.cfg oCsOffsetTolNv : Nat))) && (!pOn || decide (rabs th ≤ (s.cfg oCsPhaseTolMdeg : Nat)))
  let c := { c with iters := c.iters + 1, n := 0, sumA := 0, sumD := 0, sumTh := 0,
                    residG := satI 2 (rnd (eg * 1000000)), residPh := satI 2 (rnd th) }
  if conv then
    (s.setStep ch (fun _ => { c with st := if s.noSignature ch then .converged else .signature })).stepCheck
  else
    let g := if gOn then rnd (((1 + (c.g : Rat) / 100000000) / (1 + eg) - 1) * 100000000) else c.g
    let o := if oOn then rnd ((c.o : Rat) - d) else c.o
    let ph := if pOn then rnd ((c.ph : Rat) + th) else c.ph
    let bad := if 3000000 < g.natAbs then some 0 else if 500000 < o.natAbs then some 1 else if 2000 < ph.natAbs then some 2 else none
    match s.cal.compat, bad with
    | true, some q =>
      let s := s.setStep ch (fun _ => { c with implausible := true })
      ((s.abandon ch 1).raise 30 (le 1 ch ++ le 1 q)).stepCheck
    | _, _ => (s.setStep ch (fun _ => { c with g := g, o := o, ph := ph })).requestLoad ch

/-- One CALX result of a channel (R266, R267). -/
def State.calCycle (s : State) (ch : Nat) (a dc th : Rat) (stable own : Bool) : State :=
  if !s.cal.running then s else
  match s.cal.chans.get ch with
  | none => s
  | some c =>
    match c.st with
    | .stabilising =>
      if stable then
        let n := c.stable + 1
        s.setStep ch (fun c => if s.cfg oCsStableCycles ≤ n then { c with st := .measuring, stable := 0, n := 0, sumA := 0, sumD := 0, sumTh := 0 }
          else { c with stable := n })
      else s.setStep ch (fun c => { c with stable := 0 })
    | .measuring =>
      if own then s
      else if !stable then
        s.setStep ch (fun c => { c with st := .stabilising, stable := 0, n := 0, sumA := 0, sumD := 0, sumTh := 0 })
      else
        let c := { c with n := c.n + 1, sumA := c.sumA + a, sumD := c.sumD + dc, sumTh := c.sumTh + th }
        if s.cfg oCsAvgCycles ≤ c.n then s.iterate ch c else s.setStep ch (fun _ => c)
    | _ => s

/-- Store one converged channel's point (R271). -/
def State.storePoint (s : State) (t0 t1 : Int) (ch : Nat) (c : StepCh) : State :=
  let code := s.codes ch
  let cl := s.codeClamped ch
  let moved := decide (2000 < (t1 - t0).natAbs)
  let pass := !cl && !moved
  let p := s.cal.point
  let b := le 6 s.now ++ le 2 (unsgn 2 (rdiv (t0 + t1) 20)) ++
    le 1 (1 + flag pass 1 + flag c.sigOk 2 + flag s.cal.compat 3) ++ le 1 (s.cfg (oChRange ch)) ++ le 2 (unsgn 2 c.ph) ++
    le 4 (unsgn 4 (rnd (((code.1 : Int) - 8192 : Int) * (15625 : Rat) / 32))) ++
    le 4 (unsgn 4 (rnd ((code.2.1 : Rat) * 15625 / 32))) ++ le 4 (unsgn 4 c.sigG) ++ le 4 (unsgn 4 c.sigO) ++
    le 2 (unsgn 2 c.residG) ++ le 2 (unsgn 2 c.residPh)
  match s.storePut true (oCalPoint ch p) (ofLe b) 32 with
  | none => (s.storeRefused true).abandon ch 6
  | some s =>
    let s := s.setCfg (oCalPoint ch p) (ofLe b)
    let s := s.setStep ch (fun c => { c with st := .stored })
    let s := s.setCal (fun k => { k with
      passed := if pass then k.passed ++ [ch] else k.passed,
      quality := k.quality.set ch (stepQuality c p moved true pass + 1),
      driftG := k.driftG.set ch 0, driftO := k.driftO.set ch 0, untracked := k.untracked.set ch false })
    s.requestLoad ch

/-- The end of a step, with its end temperature (R271): points are stored and EV28 fires once. -/
def State.stepEnd (s : State) (t1 : Int) : State :=
  let t0 := s.cal.startT.getD t1
  let s := s.cal.chans.foldl (fun s e => match e.2 with
    | some c => if c.st = .converged then s.storePoint t0 t1 e.1 c else s
    | none => s) s
  let s := s.raise 28 (le 1 s.cal.point ++ le 2 s.cal.passed.length ++ le 2 s.cal.failed.length)
  s.stepStop

/-- The start temperature of a step is known: the point is resolved; more than 10 degrees from it, every channel is
abandoned (R265, R269, R271). -/
def State.stepStartTemp (s : State) (t : Int) : State :=
  let sel := bits (s.cfg oCsStep) 6 4
  let p := if sel = 7 then (if s.cal.compat then 2 else nearestPoint t) else sel
  let s := s.setCal (fun c => { c with startT := some t, point := p })
  if 10000 < (t - nominalMc p).natAbs then (s.abandonAll 3).stepCheck else s

/-! ### Recalibration passes (R273-R275) -/

/-- The open session names a channel. -/
def State.inSession (s : State) (ch : Nat) : Bool := s.cal.owner.isSome && inSet (s.cfg oCsChannels) ch

/-- A channel takes part in a pass and has not had its slot (R66). -/
def State.eligible (s : State) (ch : Nat) : Bool :=
  (s.chans.get ch).running && decide (s.cfg (oChSparePolicy ch) = 1) && !(s.chans.get ch).substitute &&
    !(s.mods.get ch).retired && !s.inSession ch && !s.cal.visited.contains ch &&
    (let p := s.spares.get (ch / 32)
     p.st ≠ .held && p.st ≠ .failed)

/-- Start a pass: an urgent calibration conversion first (R273). -/
def State.passStart (s : State) : State :=
  (s.setCal (fun c => { c with
    passRun := true, passDue := false, passConv := true, again := false, visited := [], nMeas := 0, nChanged := 0,
    nRetired := 0, meterTrig := false, lastTime := s.now })).urgent .calibration

/-- The pass ends once no slot runs and no channel is left: EV31 and RECAL_COUNT (R275). -/
def State.passCheck (s : State) : State :=
  let slots := (List.range 8).any (fun k =>
    let p := s.spares.get k
    p.why = .rotation && p.stage ≠ .none)
  let more := s.cfgB oSpareRotationEnable && s.cal.owner.isNone && s.enabledChans.any s.eligible
  if s.cal.passRun ∧ s.cal.passConv = false ∧ slots = false ∧ more = false then
    let s := s.raise 31 (le 4 (unsgn 4 s.cal.passTemp) ++ le 2 s.cal.nMeas ++ le 2 s.cal.nChanged ++ le 2 s.cal.nRetired)
    let s := s.setCal (fun c => { c with passRun := false, count := c.count + 1 })
    if s.cal.again ∧ s.cfgB oSpareRotationEnable then
      (if s.cal.owner.isNone then s.passStart else s.setCal (fun c => { c with passDue := true, again := false }))
    else s
  else s

/-- The urgent calibration conversion is complete: bandgap minus REFX, TEMP_BG and TEMP_OSC (R255, R265, R271, R273). -/
def State.calConverted (s : State) (gap bg osc : Int) : State :=
  let t := rdiv (bg + osc) 2
  let s := s.setHk (fun h => { h with tBg := some bg, tOsc := some osc })
  let s := s.applyTemp bg osc
  let due := s.cal.endDue
  let s := if s.cal.running ∧ s.cal.startT = none then (s.setCal (fun c => { c with bandgap := gap })).stepStartTemp t else s
  let s := if s.cal.running ∧ due then s.stepEnd t else s
  if s.cal.passConv then
    (s.setCal (fun c => { c with passConv := false, passTemp := t, lastTemp := t })).passCheck
  else s

/-- Close the session (R263, R272): a pass whose criteria were met meanwhile starts (DEDUCED, log 38). -/
def State.sessionClose (s : State) : State :=
  let s := (s.stepStop).setCal (fun c => { c with owner := none, compat := false })
  if s.cal.passDue ∧ s.cal.passRun = false ∧ s.cfgB oSpareRotationEnable then s.passStart else s

end Sys2Proof.Machine
end

