-- ==== Sys2Proof/Machine/Patterns.lean ====
section
/-! DEFINITION. What the patterns other than BILL compute from a cycle or a window: RMSX, HARM63, IHARM, SUPRA, FLICK, BAL,
CAPT and CALX (R166-R178, R183, R215, R266). -/
namespace Sys2Proof.Machine

/-! ### RMSX (R173-R178) -/

/-- The channel results of one cycle (Table 6.18) (DESIGN CHOICE, log 2). -/
def rmsOf (ch : Nat) (y : List Rat) (ref : Option Rat) : RmsRes :=
  let z := dft y 256 1
  { ch := ch, rms := toF32 (sqrtR (meanSq y)), fund := toF32 (sqrtR (binSq z 256)), dc := toF32 (meanR y),
    angle := match ref with
      | none => 0
      | some r => mdeg (argTurn z.1 z.2 - r),
    meanSq := meanSq y }

/-- The argument of a group's reference fundamental in a cycle (R493). -/
def State.cycleRef (s e : State) (c : Cyc) (vg : Nat) : Option Rat :=
  e.refArg vg 256 ((s.wave e c (e.refChan vg)).map (fun y => dft y 256 1))

/-- The four checks of Table 6.15 in a cycle: whether each holds, and the slots involved as a 4-bit set. -/
def State.plausOf (s e : State) (a : Nat) (c : Cyc) (els : List ElemQ) : List Bool × List Nat :=
  let start : Rat := (e.cfg (oAccStartMa a) : Rat) / 1000
  let s2 := start * start
  let nl := e.cfgF (oAccNoloadW a)
  let ud := e.cfgF (oPqUdinV (e.accVg a))
  let set (l : List ElemQ) : Nat := ofSet (l.map ElemQ.slot)
  let c0 := els.filter (fun x => decide (s2 ≤ x.i2) && decide (x.u2 * 100 < ud * ud))
  let neutral := (e.neutralSlot a).bind (fun n => (s.wave e c n.2.2).map (fun w => (n.1, w)))
  let phaseW := allOf ((e.elems a).map (fun x => s.wave e c x.2.2))
  let rev := if 1 < els.length then
      els.filter (fun x => decide (x.p < 0) && decide (nl ≤ -x.p) && els.any (fun y => decide (y.slot ≠ x.slot) && decide (nl < y.p)))
    else if e.cfg (oAccRole a) = 0 ∧ bit (e.cfg (oAccOptions a)) 3 = false then els.filter (fun x => decide (x.p < -nl))
    else []
  let anti : Bool := match e.accType a, neutral, phaseW with
    | 0, some n, some (w :: _) => decide (dot w n.2 < 0) && decide (s2 ≤ meanSq w) && decide (s2 ≤ meanSq n.2)
    | _, _, _ => false
  let dcSlots := (e.slots a).filterMap (fun x =>
    match s.wave e c x.2.2 with
    | none => none
    | some w =>
      let lim := (e.cfg (oAccDcPct a) : Rat) / 100
      if s2 ≤ meanSq w ∧ lim * lim * binSq (dft w 256 1) 256 < meanR w * meanR w then some x.1 else none)
  let res : Bool := match neutral, phaseW with
    | some n, some l =>
      let r := (List.range 256).map (fun j => sumR (l.map (fun w => w.getD j 0)) - n.2.getD j 0)
      let big := (n.2 :: l).foldl (fun m w => max m (meanSq w)) 0
      let pct := (e.cfg (oAccLnPct a) : Rat) / 100
      decide (max (pct * pct * big) s2 < meanSq r)
    | _, _ => false
  let all := ofSet ((e.slots a).map Prod.fst)
  ([!c0.isEmpty, !rev.isEmpty || anti, !dcSlots.isEmpty, res],
   [set c0, Nat.lor (set rev) (if anti then all else 0), ofSet dcSlots, if res then all else 0])

/-- The rotation e^(i 120 degrees) and its inverse on a phasor. -/
def rot (z : Rat × Rat) (n : Int) : Rat × Rat :=
  let t := cisTurn n 3
  (z.1 * t.1 - z.2 * t.2, z.1 * t.2 + z.2 * t.1)

/-- The squared magnitude of a third of the sum of three phasors given as sums over 256 points. -/
def third (x y z : Rat × Rat) : Rat := binSq (x.1 + y.1 + z.1, x.2 + y.2 + z.2) 256 / 9

/-- The group voltage quantities that the leader computes in a cycle (R173, R176, R177). -/
def State.leaderOf (s e : State) (vg : Nat) (c : Cyc) : LeaderRes :=
  let w (p : Nat) : Option (List Rat) := match e.mapCh vg p with
    | none => none
    | some ch => s.wave e c ch
  let ws := [w 0, w 1, w 2]
  let ud := e.cfgF (oPqUdinV vg)
  let sq (l : List Rat) : Rat := dot l l
  let r : LeaderRes := {
    ua := ws.map (fun x => x.map meanSq),
    head := ws.map (fun x => x.map (fun y => sq (y.take 128))),
    tail := ws.map (fun x => x.map (fun y => sq (y.drop 128))),
    ne := match w 3 with
      | none => 0
      | some y => sqrtR (meanSq y)
    whole := (List.range 4).all (fun p => (e.mapCh vg p).isNone || (w p).isSome) }
  match ws with
  | [some a, some b, some d] =>
    let za := dft a 256 1
    let zb := dft b 256 1
    let zd := dft d 256 1
    let p := third za (rot zb 1) (rot zd 2)
    let n := third za (rot zb 2) (rot zd 1)
    let z := third za zb zd
    let low := [a, b, d].any (fun y => decide (meanSq y * 4 < ud * ud))
    let v0 := (e.cfg oPqV0Permille : Rat) / 1000 * ud
    let us := [a, b, d].map (fun y => sqrtR (meanSq y))
    let mean := sumR us / 3
    let asym := us.any (fun u => decide (mean * (e.cfg oPqAsymPermille : Rat) < rabs (u - mean) * 1000))
    { r with
      vPos := p, vNeg := n, vZero := z, seqJudge := if low then 0 else if p < n then 2 else 1,
      suspect := decide (v0 * v0 < z) && (decide (e.cfgF oPqNeLimitV < r.ne) || asym) }
  | _ => r

/-- What RMSX computes for an account and cycle: channel results, checks, leader quantities; and the quality flags. In a cycle
with lost samples the quantities that they affect are left out (R15). -/
def State.rmsxOf (s e : State) (a : Nat) (b1 : Boundary) (c : Cyc) : Pub × Nat :=
  let chs := e.acctChans a
  let lost := decide (s.cycleLost e c chs ≠ 0)
  let q := Nat.lor (s.cycleFlags e c b1 chs lost) (flag lost 3)
  let vg := e.accVg a
  let ref := s.cycleRef e c vg
  let pl := match s.elemsOf e c a with
    | none => ([], [])
    | some els => if lost then ([], []) else s.plausOf e a c els
  (.rmsx (chs.eraseDups.filterMap (fun ch => (s.wave e c ch).map (fun y => rmsOf ch y ref))) pl.1 pl.2
    (if e.leader vg = some a then some (s.leaderOf e vg c) else none), q)

/-! ### Windows (R166-R169) -/

/-- A channel's grid points over the cycles of a window, joined; none when a sample is missing or invalid. -/
def State.winWave (s e : State) (cs : List (Boundary × Cyc)) (ch : Nat) : Option (List Rat) :=
  (allOf (cs.map (fun c => s.wave e c.2 ch))).map (fun l => l.flatten)

/-- The squares C_k of a window from a bin on, so many bins (R166). -/
def binsSq (x : List Rat) (a n : Nat) : List Rat :=
  let m := x.length
  (rangeFrom a n).map (fun k => if k = 0 then 0 else binSq (dft x m k) m)

/-- The harmonic subgroup or group of order h (Table 6.10). -/
def harmVal (x : List Rat) (n h : Nat) (group : Bool) : Rat :=
  if group then
    let l := binsSq x (n * h - n / 2) (n + 1)
    sqrtR (sumR l - (l.headD 0) / 2 - (l.getLast?.getD 0) / 2)
  else sqrtR (sumR (binsSq x (n * h - 1) 3))

/-- The interharmonic centred subgroup or group at position h (Table 6.10). -/
def iharmVal (x : List Rat) (n h : Nat) (group : Bool) : Rat :=
  if group then sqrtR (sumR (binsSq x (n * h + 1) (n - 1))) else sqrtR (sumR (binsSq x (n * h + 2) (n - 3)))

/-- The smallest H_n of a window (R166). -/
def State.winHUsed (e : State) (vg p : Nat) (cs : List (Boundary × Cyc)) : Nat :=
  cs.foldl (fun m c => min m (e.hUsed vg p c.2)) 127

/-- HARM63 of one channel. -/
def State.harmOf (s e : State) (vg : Nat) (cs : List (Boundary × Cyc)) (ch : Nat) : Option SpecRes :=
  let n := cs.length
  let hu := e.winHUsed vg (e.cfg (oChPreset ch)) cs
  let ref := e.refArg vg (256 * n) ((s.winWave e cs (e.refChan vg)).map (fun y => dft y (256 * n) n))
  (s.winWave e cs ch).map (fun x =>
    let g := (rangeFrom 1 63).map (fun h => if hu < h then 0 else harmVal x n h (decide (e.cfg oPqHarmMode = 1)))
    let g1 := g.headD 0
    let top := sumR ((((g.take (min 40 hu)).drop 1)).map (fun y => y * y))
    { ch := ch, hUsed := hu, exact := g, thd := toF32 (sqrtR top / g1 * 100),
      angles := (rangeFrom 1 63).map (fun h =>
        if hu < h then 0 else match ref with
          | none => 0
          | some r =>
            let z := dft x (256 * n) (n * h)
            mdeg (argTurn z.1 z.2 - (h : Rat) * r)) })

/-- IHARM of one channel. -/
def State.iharmOf (s e : State) (vg : Nat) (cs : List (Boundary × Cyc)) (ch : Nat) : Option SpecRes :=
  let n := cs.length
  let hu := e.winHUsed vg (e.cfg (oChPreset ch)) cs
  (s.winWave e cs ch).map (fun x =>
    { ch := ch, hUsed := hu,
      exact := (List.range 64).map (fun h => if hu < h then 0 else iharmVal x n h (decide (e.cfg oPqIharmMode = 1))) })

/-- The ring samples of a channel whose represented instants lie from one position up to another: first index and values. -/
def State.spanSamples (s : State) (ch p b0 b1 : Nat) : Nat × List Samp :=
  let d := presetD p * 65536
  let k0 := (b0 + d - 1) / d + 12
  let k1 := (b1 + d - 1) / d + 12
  (k0, (rangeFrom k0 (k1 - k0)).map (fun (k : Nat) => s.samp ch p (k : Int)))

/-- SUPRA of one channel: 110 bands over a window's ring samples (R168). -/
def State.supraOf (s e : State) (cs : List (Boundary × Cyc)) (ch : Nat) : Option SpecRes :=
  let p := e.cfg (oChPreset ch)
  let b0 := ((cs.head?).map (fun c => c.2.b0)).getD 0
  let b1 := ((cs.getLast?).map (fun c => c.2.b1)).getD 0
  let sp := s.spanSamples ch p b0 b1
  let k := s.perCode ch p b0
  (allSome (sp.2.map (fun x => match x with
    | .val v => some ((v : Rat) * k)
    | _ => none))).map (fun x =>
      let m : Rat := (x.length : Rat)
      let len := b1 - b0
      let tw : Rat := (len : Rat) / 65536 / 4096000
      let step := presetD p * 65536
      let bin (j : Nat) : Rat :=
        let z := x.foldl (fun (a : Rat × Rat × Nat) v =>
          let t := cisTurn ((j * a.2.2 * step : Nat) : Int) len
          (a.1 + v * t.1, a.2.1 - v * t.2, a.2.2 + 1)) (0, 0, 0)
        let f := ((j : Rat) / tw).floor.toNat
        let r : Rat := (Config.response p f : Rat) / ((2 ^ 30 : Nat) : Rat)
        2 * mag2 (z.1, z.2.1) / (m * m) / (r * r)
      let band (b : Nat) : Rat :=
        let lo : Rat := (2000 + 200 * b : Nat)
        let j0 := (lo * tw).floor.toNat + 1
        let j1 := ((lo + 200) * tw).floor.toNat
        sqrtR (sumR ((rangeFrom j0 (j1 + 1 - j0)).map bin))
      { ch := ch, exact := (List.range 110).map band })

/-! ### Balance (R215-R217) -/

/-- The contributions of a group's cycle: of its feeders and of its members. -/
def State.contribsOf (s : State) (accts : List Nat) (cyc : W32) : List Contrib :=
  accts.map (fun a =>
    let x := s.contrib.get (a * 8 + cyc.toNat % 8)
    if x.vgCycle = cyc then x else {})

/-- The wait of R213 has ended: every slot marked ISSUED for the cycle is FILLED. -/
def State.contribsReady (s e : State) (g : Nat) (cyc : W32) : Bool :=
  (s.contribsOf (e.feeders g ++ e.members g) cyc).all (fun x => decide (x.st ≠ 1))

/-- F, C and L of a cycle per phase and U, and the flags of R217. -/
def State.balOf (s e : State) (g : Nat) (c : Cyc) : BalRes :=
  let fs := s.contribsOf (e.feeders g) c.cyc
  let ms := s.contribsOf (e.members g) c.cyc
  let total (l : List Contrib) (p : Nat) : Int := l.foldl (fun t x => t + x.e.getD p 0) 0
  let hasPh := (List.range 3).map (fun p => (e.feeders g).any (fun a => (e.elems a).any (fun x => x.2.1 = p)))
  let k := (hasPh.filter (· = true)).length
  let r := e.cfgF (oBgLossRMohm g) / 1000
  let cl := e.cfgF (oBgLossConstW g)
  let loss (p : Nat) : Int := if hasPh.getD p false then
      (energyOf (r * sumR (fs.map (fun x => x.i2.getD p 0)) + cl / (k : Rat)) c : Int) else 0
  { f := [total fs 0, total fs 1, total fs 2, total fs 3], c := [total ms 0, total ms 1, total ms 2, total ms 3],
    l := [loss 0, loss 1, loss 2, 0], feedPh := hasPh,
    absent := (fs ++ ms).any (fun x => x.st ≠ 3), est := (fs ++ ms).any (fun x => bit x.flags 0) }

/-- The four imbalance terms D_p of a cycle (R215). -/
def BalRes.d (r : BalRes) : List Int := (List.range 4).map (fun p => r.f.getD p 0 - r.c.getD p 0 - r.l.getD p 0)

/-- The value of a balance quantity for the total (0) or a phase (1-3). -/
def balPick (l : List Int) (ph : Nat) : Int := if ph = 0 then l.foldl (· + ·) 0 else l.getD (ph - 1) 0

/-- The adds of a BAL cycle to the group's enabled lines (R216): zero values add nothing. -/
def State.balAdds (e : State) (g : Nat) (r : BalRes) : List (AddTo × Nat) :=
  (e.subjEntries (subjOf 2 g)).filterMap (fun x =>
    let ph := mePhase x.2
    let code := meCode x.2
    let v := if code ≤ 0x21 then balPick r.f ph else if code ≤ 0x23 then balPick r.c ph
      else if code = 0x24 then balPick r.l ph else balPick r.d ph
    let pos := decide (code = 0x20) || decide (code = 0x22) || decide (code = 0x24) || decide (code = 0x25)
    if v = 0 ∨ 0x26 < code ∨ (decide (0 < v) ≠ pos) then none else some (AddTo.line x.1, v.natAbs))

/-! ### Capture (R183) -/

/-- The cycle block of a channel and cycle (Table 6.25): header and samples; none of them when a sample is lost or the
stitch is a skip stitch. -/
def State.captOf (s e : State) (ch : Nat) (b1 : Boundary) (c : Cyc) (skip : Bool) : Bytes × Bytes × Nat :=
  let p := e.cfg (oChPreset ch)
  let w := presetWidth p
  let sp := s.spanSamples ch p c.b0 c.b1
  let gone := skip || sp.2.any (fun x => x = .lost || x = .pending)
  let bad := sp.2.any (fun x => x = .bad)
  let q := withComplete (Nat.lor (s.cycleFlags e c b1 [ch] (bad && !gone)) (flag gone 3 + flag skip 9))
  let n := if gone then 0 else sp.2.length
  let off := (((sp.1 : Int) - 12) * (presetD p : Int) * 65536 - (c.b0 : Int)) / 65536
  let code (x : Samp) : Bytes := match x with
    | .val v => le w (unsgn w v)
    | _ => le w (2 ^ (8 * w - 1))
  let data := if gone then [] else sp.2.flatMap code
  (le 4 c.cyc.toNat ++ le 4 off.toNat ++ le 2 n ++ le 2 q ++ le 1 w ++ le 1 p ++ le 2 0,
   padTo ((data.length + 15) / 16 * 16) data, q)

/-! ### CALX (R266, R267) -/

/-- A channel's declared amplitude is met within 20 % by its fundamental RMS. -/
def State.nearDeclared (s : State) (ch : Nat) (a : Rat) : Bool :=
  decide (rabs (a - s.declared ch) * 5 ≤ s.declared ch)

/-- The cycle values of a session channel: fundamental RMS, DC in nV, phase error in mdeg at 50 Hz, stable, and the cycle
that only the step's own load changed. -/
def State.calxOf (s e : State) (ch : Nat) (b1 : Boundary) (c : Cyc) : Pub :=
  match s.wave e c ch with
  | none => .calx ch 0 0 0 false false
  | some y =>
    let z := dft y 256 1
    let a := sqrtR (binSq z 256)
    let p := e.cfg (oChPreset ch)
    let perNv : Rat := (rangePeak p : Rat) / (s.peakNv ch : Rat)
    let dc := meanR y / s.perCode ch p c.b0 / perNv
    let f := 4096000 / c.clocks
    let ref := if s.csPhase then s.phaseRef ch else none
    let changed := (s.kAt ch c.b0).2.2
    let base := s.nearDeclared ch a && decide (rabs (f - s.cfgF oCsRefFreqHz) * 2 ≤ 1) &&
      decide (bits (s.cycleFlags e c b1 [ch] false) 8 6 = 0)
    match ref with
    | none => .calx ch a dc 0 (base && !changed) (base && changed)
    | some r =>
      match s.wave e c r.1 with
      | none => .calx ch a dc 0 false false
      | some w =>
        let zr := dft w 256 1
        let ok := base && s.nearDeclared r.1 (sqrtR (binSq zr 256)) && !(s.kAt r.1 c.b0).2.2
        let th : Rat := ((mdeg (argTurn zr.1 zr.2 - argTurn z.1 z.2 - (r.2 : Rat) / 360000) : Int) : Rat) * 50 / f
        .calx ch a dc th (ok && !changed) (ok && changed)

end Sys2Proof.Machine
end

