-- ==== Sys2Proof/Machine/Capture.lean ====
section
/-! DEFINITION. Waveform capture: triggers, slots, cycle blocks and capture records (R182-R185). -/
namespace Sys2Proof.Machine

/-- The present instant as a position: modulator clocks since cast-on in units of 2^-16. -/
def State.posNow (s : State) : Nat := (s.clock.clk - s.clock.castOn) * 65536

/-- The cycle of a group that holds an instant; the oldest recorded one for an earlier instant. -/
def Group.cycleOf (g : Group) (pos : Nat) : W32 :=
  match g.table.find? (fun b => decide (b.pos ≤ pos)) with
  | some b => b.cycle
  | none => ((g.table.getLast?).map Boundary.cycle).getD 0

/-- Fields of CAPT_OPTIONS (Table 6.24). -/
def State.captCycles (s : State) : Nat := bits (s.cfg oCaptOptions) 15 8
def State.captPre (s : State) : Nat := bits (s.cfg oCaptOptions) 5 4
def State.captStream (s : State) : Bool := bit (s.cfg oCaptOptions) 3

/-- A channel takes part in capture (R182). -/
def State.captOn (s : State) (ch : Nat) : Bool := bit (s.cfg oCaptOptions) 0 && inSet (s.cfg oCaptChannels) ch

/-- Change a capture slot. -/
def State.setSlot (s : State) (k : Nat) (f : CaptSlot → CaptSlot) : State := { s with capt := s.capt.upd k f }

/-- A trigger of a channel at an instant (R183): bit is the FLAGS bit of its kind. It takes the lowest free slot, or adds to
MISSED; in stream mode it starts nothing (DEDUCED, log 58). -/
def State.captTrigger (s : State) (ch kind pos : Nat) : State :=
  if !s.captOn ch || s.captStream then s
  else
    let held := (List.range 8).any (fun k => ((s.capt.get k).busy || (s.capt.get k).ready) && decide ((s.capt.get k).ch = ch))
    match (List.range 8).find? (fun k => !(s.capt.get k).busy && !(s.capt.get k).ready) with
    | some k =>
      if held then { s with captMissed := sat 65535 (s.captMissed + 1) }
      else s.setSlot k (fun _ => {
        ch := ch, busy := true, flags := 2 ^ kind, cycles := s.captCycles,
        trigger := some ((s.groups.get (s.vgOf ch)).cycleOf pos) })
    | none => { s with captMissed := sat 65535 (s.captMissed + 1) }

/-- The channels of the capture set, ascending. -/
def State.captSet (s : State) : List Nat := setList (s.cfg oCaptChannels) 256

/-- A capture record (Table 6.26) (DEDUCED, log 58). -/
def captRecord (ch slot flags first cycles : Nat) (time : Stamp) : Bytes :=
  le 2 ch ++ le 1 slot ++ le 1 flags ++ le 4 first ++ le 2 cycles ++ le 6 time

/-- One archive record per cycle block of a slot (R185): the capture record followed by the block. -/
def State.captArchive (s : State) (ch : Nat) (rec : Bytes) (base limit : Nat) : Nat → State
  | 0 => s
  | n + 1 =>
    if limit ≤ base then s
    else
      let h := cellsGet 0 s.mem.capture base 16
      let len := (fld h 8 2 * fld h 12 1 + 15) / 16 * 16
      let s := s.archive ch 0x52 (rec ++ h ++ cellsGet 0 s.mem.capture (base + 16) len)
      State.captArchive s ch rec (base + 16 + len) limit n

/-- The end of a buffered capture (R183): the slot becomes ready, EV52 fires, its record enters SR6, and with ARCHIVE its
blocks go to the archive. -/
def State.captEnd (s : State) (k : Nat) : State :=
  let x := s.capt.get k
  let early := decide (x.blocks < x.cycles)
  let flags := Nat.lor x.flags (flag early 4)
  let s := s.setSlot k (fun x => { x with busy := false, ready := true, flags := flags })
  let s := s.raise 52 (le 1 x.ch ++ le 4 x.first.toNat ++ le 2 x.blocks ++ le 4 (32768 * k))
  let rec_ := captRecord x.ch k flags x.first.toNat x.blocks x.firstTime
  let s := s.logPut 6 0x12 rec_
  if bit (s.cfg oCaptOptions) 6 then s.captArchive x.ch rec_ (32768 * k) (32768 * k + x.next) x.blocks else s

/-- A cycle block of a running buffered capture: written at the next free offset, unless it would not fit. -/
def State.captBlock (s : State) (k : Nat) (cyc : W32) (time : Stamp) (b : Bytes) : State :=
  let x := s.capt.get k
  if 32768 < x.next + b.length then s.captEnd k
  else
    let s := s.setMem (fun m => { m with capture := cellsSet 0 m.capture (32768 * k + x.next) b })
    let s := s.setSlot k (fun x => { x with
      first := if x.blocks = 0 then cyc else x.first, firstTime := if x.blocks = 0 then time else x.firstTime,
      blocks := x.blocks + 1, next := x.next + b.length })
    let x := s.capt.get k
    let stopped := match x.stopAt with
      | none => false
      | some c => !newer c cyc
    if x.cycles ≤ x.blocks || stopped then s.captEnd k else s

/-- What a CAPT stitch publishes at its gate advance (R183-R185): e is the configuration of its epoch. -/
def State.captPublish (s e : State) (ch : Nat) (cyc : W32) (time : Stamp) (block : Bytes) : State :=
  let s := if e.captOn ch && e.captStream then s.logPut 6 0x12 (captRecord ch 0xFF 1 cyc.toNat 1 time ++ block) else s
  match (List.range 8).find? (fun k => (s.capt.get k).busy && (s.capt.get k).issued && decide ((s.capt.get k).ch = ch)) with
  | none => s
  | some k =>
    let x := s.capt.get k
    if x.blocks ≠ 0 ∧ newer x.first cyc then s else s.captBlock k cyc time block

/-- The ended cycles whose CAPT stitches a boundary of the channel's group issues, as end boundaries, oldest first; and the
slot that has issued its pre-trigger cycles (R183, R184). -/
def State.captDue (s : State) (g ch : Nat) : List Boundary × Option Nat :=
  let t := (s.groups.get g).table
  let slot := (List.range 8).find? (fun k => (s.capt.get k).busy && decide ((s.capt.get k).ch = ch))
  match slot with
  | none => (if s.captOn ch && s.captStream then t.take 1 else [], none)
  | some k =>
    let x := s.capt.get k
    if x.issued then (t.take 1, none)
    else
      let first := (x.trigger.getD 0) - BitVec.ofNat 32 s.captPre
      let l := ((t.zip (t.drop 1)).filter (fun p => !newer first p.2.cycle)).map Prod.fst
      (l.reverse, some k)

/-- STOP (R183): every running buffered capture ends after the cycle in progress. -/
def State.captStop (s : State) : State :=
  (List.range 8).foldl (fun s k =>
    let x := s.capt.get k
    if x.busy then
      s.setSlot k (fun x => { x with stopAt := some (((s.groups.get (s.vgOf x.ch)).table.head?).elim 0 Boundary.cycle) })
    else s) s

/-- Free a slot: a ready one, or a running capture without EV52 (R183). -/
def State.captFree (s : State) (k : Nat) : State := s.setSlot k (fun _ => {})

/-- RELEASE_ALL frees every ready slot (R183). -/
def State.captFreeAll (s : State) : State :=
  (List.range 8).foldl (fun s k => if (s.capt.get k).ready then s.captFree k else s) s

/-- CAPT_STATUS (Table 6.27). -/
def State.captStatus (s : State) : Nat :=
  mapBits 8 (fun k => (s.capt.get k).ready) * 2 ^ 24 + mapBits 8 (fun k => (s.capt.get k).busy) * 2 ^ 16 + sat 65535 s.captMissed

end Sys2Proof.Machine
end

