-- ==== Sys2Proof/Machine/Crypto.lean ====
section
/-! DEFINITION. The cryptographic functions the manual names by standard: SHA-256 (FIPS 180-4), AES-128 (FIPS 197), CMAC
(NIST SP 800-38B) and KW (NIST SP 800-38F). Their definitions are PRESUMED from those standards (assumption log 14). -/
namespace Sys2Proof.Machine

/-! ### SHA-256 (R453, R454) -/

/-- The 64 round constants. -/
def shaK : List W32 :=
  [0x428a2f98, 0x71374491, 0xb5c0fbcf, 0xe9b5dba5, 0x3956c25b, 0x59f111f1, 0x923f82a4, 0xab1c5ed5] ++
  [0xd807aa98, 0x12835b01, 0x243185be, 0x550c7dc3, 0x72be5d74, 0x80deb1fe, 0x9bdc06a7, 0xc19bf174] ++
  [0xe49b69c1, 0xefbe4786, 0x0fc19dc6, 0x240ca1cc, 0x2de92c6f, 0x4a7484aa, 0x5cb0a9dc, 0x76f988da] ++
  [0x983e5152, 0xa831c66d, 0xb00327c8, 0xbf597fc7, 0xc6e00bf3, 0xd5a79147, 0x06ca6351, 0x14292967] ++
  [0x27b70a85, 0x2e1b2138, 0x4d2c6dfc, 0x53380d13, 0x650a7354, 0x766a0abb, 0x81c2c92e, 0x92722c85] ++
  [0xa2bfe8a1, 0xa81a664b, 0xc24b8b70, 0xc76c51a3, 0xd192e819, 0xd6990624, 0xf40e3585, 0x106aa070] ++
  [0x19a4c116, 0x1e376c08, 0x2748774c, 0x34b0bcb5, 0x391c0cb3, 0x4ed8aa4a, 0x5b9cca4f, 0x682e6ff3] ++
  [0x748f82ee, 0x78a5636f, 0x84c87814, 0x8cc70208, 0x90befffa, 0xa4506ceb, 0xbef9a3f7, 0xc67178f2]

/-- The eight working variables. -/
structure Sha where
  a : W32
  b : W32
  c : W32
  d : W32
  e : W32
  f : W32
  g : W32
  h : W32
  deriving DecidableEq, Repr

/-- The initial hash value. -/
def shaInit : Sha := ⟨0x6a09e667, 0xbb67ae85, 0x3c6ef372, 0xa54ff53a, 0x510e527f, 0x9b05688c, 0x1f83d9ab, 0x5be0cd19⟩

/-- A big-endian word from four bytes. -/
def beWord (b : Bytes) : W32 := BitVec.ofNat 32 (ofLe (b.take 4).reverse)

/-- The words of a block. -/
def beWords : Nat → Bytes → List W32
  | 0, _ => []
  | n + 1, b => beWord b :: beWords n (b.drop 4)

/-- Extend the message schedule: the newest word first. -/
def shaSchedule : Nat → List W32 → List W32
  | 0, w => w
  | n + 1, w =>
    let x := w.getD 14 0
    let y := w.getD 1 0
    let s0 := x.rotateRight 7 ^^^ x.rotateRight 18 ^^^ (x >>> 3)
    let s1 := y.rotateRight 17 ^^^ y.rotateRight 19 ^^^ (y >>> 10)
    shaSchedule n ((w.getD 15 0 + s0 + w.getD 6 0 + s1) :: w)

/-- One round. -/
def Sha.round (x : Sha) (k w : W32) : Sha :=
  let s1 := x.e.rotateRight 6 ^^^ x.e.rotateRight 11 ^^^ x.e.rotateRight 25
  let ch := (x.e &&& x.f) ^^^ (~~~x.e &&& x.g)
  let t1 := x.h + s1 + ch + k + w
  let s0 := x.a.rotateRight 2 ^^^ x.a.rotateRight 13 ^^^ x.a.rotateRight 22
  let maj := (x.a &&& x.b) ^^^ (x.a &&& x.c) ^^^ (x.b &&& x.c)
  ⟨t1 + s0 + maj, x.a, x.b, x.c, x.d + t1, x.e, x.f, x.g⟩

/-- One block of 64 bytes. -/
def Sha.block (x : Sha) (b : Bytes) : Sha :=
  let w := (shaSchedule 48 (beWords 16 b).reverse).reverse
  let y := (List.zip shaK w).foldl (fun (y : Sha) kw => y.round kw.1 kw.2) x
  ⟨x.a + y.a, x.b + y.b, x.c + y.c, x.d + y.d, x.e + y.e, x.f + y.f, x.g + y.g, x.h + y.h⟩

/-- All blocks of a padded message. -/
def Sha.blocks : Nat → Sha → Bytes → Sha
  | 0, x, _ => x
  | n + 1, x, b => Sha.blocks n (x.block (b.take 64)) (b.drop 64)

/-- Bytes of a word, most significant first. -/
def be (n v : Nat) : Bytes := (le n v).reverse

/-- SHA-256 of a byte string (PRESUMED, log 14). -/
def sha256 (b : Bytes) : Bytes :=
  let n := b.length
  let z := (119 - n % 64) % 64
  let m := b ++ [0x80] ++ List.replicate z 0 ++ be 8 (8 * n)
  let x := Sha.blocks (m.length / 64) shaInit m
  [x.a, x.b, x.c, x.d, x.e, x.f, x.g, x.h].flatMap (fun w => be 4 w.toNat)

/-! ### AES-128 (R248, R250) -/

/-! A block is a number of 128 bits, byte i of the block at bit 8i: column c is bytes 4c to 4c + 3. -/

/-- The substitution box, entry a at bit 8a. -/
def sboxTab : Nat :=
  0x16bb54b00f2d99416842e6bf0d89a18cdf2855cee9871e9b948ed9691198f8e19e1dc186b95735610ef6034866b53e708a8bbd4b1f74dde8c6b4a61c2e2578ba08ae7a65eaf4566ca94ed58d6d37c8e779e4959162acd3c25c2406490a3a32e0db0b5ede14b8ee4688902a22dc4f816073195d643d7ea7c41744975fec130ccdd2f3ff1021dab6bcf5389d928f40a351a89f3c507f02f94585334d43fbaaefd0cf584c4a39becb6a5bb1fc20ed00d153842fe329b3d63b52a05a6e1b1a2c830975b227ebe28012079a059618c323c7041531d871f1e5a534ccf73f362693fdb7c072a49cafa2d4adf04759fa7dc982ca76abd7fe2b670130c56f6bf27b777c63

/-- The inverse substitution box, entry a at bit 8a. -/
def sboxInvTab : Nat :=
  0x7d0c2155631469e126d677ba7e042b17619953833cbbebc8b0f52aae4d3be0a0ef9cc9939f7ae52d0d4ab519a97f51605fec8027591012b131c7078833a8dd1ff45acd78fec0db9a2079d2c64b3e56fc1bbe18aa0e62b76f89c5291d711af1476edf751ce837f9e28535ade72274ac9673e6b4f0cecff297eadc674f4111913a6b8a130103bdafc1020f3fca8f1e2cd00645b3b80558e4f70ad3bc8c00abd890849d8da75746155edab9edfd5048706c92b6655dcc5ca4d41698688664f6f87225d18b6d49a25b76b224d92866a12e084ec3fa420b954cee3d23c2a632947b54cbe9dec444438e3487ff2f9b8239e37cfbd7f3819ea340bf38a53630d56a0952

/-- The byte of a table or block at a place. -/
def byteAt (v i : Nat) : Nat := v / 2 ^ (8 * i) % 256

/-- Substitute the first n bytes of a block by a table, each taken k columns on per row: the row shift. -/
def subShift (tab k v : Nat) : Nat → Nat
  | 0 => 0
  | n + 1 => subShift tab k v n + byteAt tab (byteAt v ((n + k * (n % 4)) % 16)) * 2 ^ (8 * n)

/-- Double every byte in the AES field. -/
def xtimes (v : Nat) : Nat :=
  Nat.xor (Nat.land v 0x7f7f7f7f7f7f7f7f7f7f7f7f7f7f7f7f * 2) (Nat.land (v / 128) 0x01010101010101010101010101010101 * 0x1b)

/-- Every byte times a factor of n bits in the AES field. -/
def gmuls : Nat → Nat → Nat → Nat
  | 0, _, _ => 0
  | n + 1, a, v => Nat.xor (if a % 2 = 1 then v else 0) (gmuls n (a / 2) (xtimes v))

/-- Every column rotated by one byte: row r takes row r + 1. -/
def rotCols (v : Nat) : Nat :=
  Nat.land (v / 256) 0x00ffffff00ffffff00ffffff00ffffff + Nat.land (v * 2 ^ 24) 0xff000000ff000000ff000000ff000000

/-- Multiply each column by the circulant matrix with the given first row. -/
def mixCols : List Nat → Nat → Nat
  | [], _ => 0
  | a :: m, v => Nat.xor (gmuls 4 a v) (mixCols m (rotCols v))

/-- The round keys after the one given: n more of them. -/
def aesKeys : Nat → Nat → Nat → List Nat
  | 0, _, _ => []
  | n + 1, rc, k =>
    let t := subShift sboxTab 0 (k / 2 ^ 96 / 256 + k / 2 ^ 96 % 256 * 2 ^ 24) 4
    let w0 := Nat.xor (k % 2 ^ 32) (Nat.xor t rc)
    let w1 := Nat.xor (k / 2 ^ 32 % 2 ^ 32) w0
    let w2 := Nat.xor (k / 2 ^ 64 % 2 ^ 32) w1
    let w3 := Nat.xor (k / 2 ^ 96) w2
    let x := w0 + w1 * 2 ^ 32 + w2 * 2 ^ 64 + w3 * 2 ^ 96
    x :: aesKeys n (xtimes rc) x

/-- The rounds before the last one, forwards and backwards. -/
def aesRounds : List Nat → Nat → Nat
  | [], v => v
  | [k], v => Nat.xor (subShift sboxTab 4 v 16) k
  | k :: ks, v => aesRounds ks (Nat.xor (mixCols [2, 3, 1, 1] (subShift sboxTab 4 v 16)) k)
def aesRoundsInv : List Nat → Nat → Nat
  | [], v => v
  | [k], v => Nat.xor (subShift sboxInvTab 12 v 16) k
  | k :: ks, v => aesRoundsInv ks (mixCols [14, 11, 13, 9] (Nat.xor (subShift sboxInvTab 12 v 16) k))

/-- Encrypt one block of 16 bytes (PRESUMED, log 14). -/
def aesEnc (key b : Bytes) : Bytes :=
  if b.length = 16 then le 16 (aesRounds (aesKeys 10 1 (ofLe key)) (Nat.xor (ofLe b) (ofLe key))) else []

/-- Decrypt one block of 16 bytes (PRESUMED, log 14). -/
def aesDec (key b : Bytes) : Bytes :=
  if b.length = 16 then le 16 (match (aesKeys 10 1 (ofLe key)).reverse with
    | [] => 0
    | k :: ks => aesRoundsInv (ks ++ [ofLe key]) (Nat.xor (ofLe b) k)) else []

/-- Bytewise exclusive or. -/
def xorB (a b : Bytes) : Bytes := List.zipWith (· ^^^ ·) a b

/-- Double a block for the CMAC subkeys. -/
def cmacDouble (b : Bytes) : Bytes :=
  let v := ofLe b.reverse
  be 16 (Nat.xor (2 * v % 2 ^ 128) (if v < 2 ^ 127 then 0 else 0x87))

/-- CMAC chaining over whole blocks. -/
def cmacChain (key : Bytes) : Nat → Bytes → Bytes → Bytes
  | 0, x, _ => x
  | n + 1, x, b => cmacChain key n (aesEnc key (xorB x (b.take 16))) (b.drop 16)

/-- AES-128 CMAC of a message that is a whole number of blocks and not empty: every message of the manual is (PRESUMED, log 14). -/
def cmac (key msg : Bytes) : Bytes :=
  let n := msg.length / 16
  let k1 := cmacDouble (aesEnc key (List.replicate 16 0))
  let x := cmacChain key (n - 1) (List.replicate 16 0) msg
  aesEnc key (xorB (xorB x k1) (msg.drop (16 * (n - 1))))

/-- KW unwrapping steps: the register A and the blocks R. -/
def kwSteps (key : Bytes) (n : Nat) : Nat → Bytes → List Bytes → Bytes × List Bytes
  | 0, a, r => (a, r)
  | t + 1, a, r =>
    let i := t % n
    let v := xorB a (be 8 (t + 1))
    let d := aesDec key (v ++ r.getD i [])
    kwSteps key n t (d.take 8) (r.set i (d.drop 8))

/-- KW-AD: the plaintext of a wrapped value of 32 bytes, or none when the integrity value is wrong (PRESUMED, log 14). -/
def kwUnwrap (key b : Bytes) : Option Bytes :=
  let r := [slice b 8 8, slice b 16 8, slice b 24 8]
  let x := kwSteps key 3 18 (b.take 8) r
  if x.1 = List.replicate 8 0xA6 then some (x.2.getD 0 [] ++ x.2.getD 1 [] ++ x.2.getD 2 []) else none

end Sys2Proof.Machine
end

