-- ==== Sys2Proof/Machine/Image.lean ====
section
/-! DEFINITION. The image slots: their bytes, the fields of a header, the image check and the reject causes (R453, R454,
R456), and the versions they give. -/
namespace Sys2Proof.Machine

/-- First NVM byte of an image slot (Table 12.1). -/
def slotBase (k : Nat) : Nat := if k = 0 then 0 else 786432

/-- A run of bytes of a slot. -/
def State.slotBytes (s : State) (k off : Nat) : Nat → Bytes
  | 0 => []
  | n + 1 => s.nvmByte (slotBase k + off) :: s.slotBytes k (off + 1) n

/-- A field of a slot's header (Table 18.1). -/
def State.imgField (s : State) (k off n : Nat) : Nat := ofLe (s.slotBytes k off n)

def State.imgFirmware (s : State) (k : Nat) : Nat := s.imgField k 12 4
def State.imgPatterns (s : State) (k : Nat) : Nat := s.imgField k 16 4
def State.imgSecurity (s : State) (k : Nat) : Nat := s.imgField k 20 4
def State.imgLength (s : State) (k : Nat) : Nat := s.imgField k 24 4

/-- The running slot and the inactive slot (R453). -/
def State.runSlot (s : State) : Nat := s.upd.boot.run
def State.freeSlot (s : State) : Nat := 1 - s.upd.boot.run

/-- SILICON_STEP (Table 2.7). -/
def siliconStep : Nat := 2

/-- FORMAT of Table 18.2 holds. -/
def State.imgFormatOk (s : State) (k : Nat) : Bool :=
  let len := s.imgLength k
  let pat := s.imgField k 36 2
  decide (s.imgField k 0 4 = 0x494D5651) && decide (s.imgField k 4 2 = 1) &&
  decide (s.imgField k 10 2 = 0) && decide (s.imgField k 30 2 = 0) && decide (s.imgField k 38 2 = 0) &&
  decide (s.imgField k 136 120 = 0) && decide (1 ≤ len) && decide (len ≤ 786176) &&
  decide (1 ≤ pat) && decide (pat ≤ 8192) && decide (s.imgField k 32 4 + pat ≤ len)

/-- PART of Table 18.2 holds. -/
def State.imgPartOk (s : State) (k : Nat) : Bool :=
  decide (s.imgField k 6 2 = 0x2428) && decide (s.imgField k 8 1 = 0x51) &&
  decide (1 ≤ s.imgField k 9 1) && decide (s.imgField k 9 1 ≤ siliconStep)

/-- BODY_HASH verifies. -/
def State.imgHashOk (s : State) (k : Nat) : Bool :=
  decide (sha256 (s.slotBytes k 256 (s.imgLength k)) = s.slotBytes k 40 32)

/-- SIGNATURE verifies: the outcome of the ECDSA check is open (assumption log 1). -/
def State.imgSignatureOk (s : State) (k : Nat) : Bool :=
  Config.signatureOk (sha256 (s.slotBytes k 0 72)) (s.slotBytes k 72 64)

/-- The whole check of R454. -/
def State.imgValid (s : State) (k : Nat) : Bool :=
  s.imgFormatOk k && s.imgPartOk k && s.imgHashOk k && s.imgSignatureOk k

/-- Pages of the image that the page map must show (Table 18.2, MISSING). -/
def State.imgPages (s : State) (k : Nat) : Nat := (256 + s.imgLength k + 255) / 256

/-- The first reject cause of the staged image, 0 for none (Table 18.2): an unreadable word is a HASH failure. A repeat of the
check on a fallen-back image looks at the page map no more. -/
def State.rejectCause (s : State) (k : Nat) (readable rearm : Bool) : Nat :=
  let n := s.imgPages k
  if !rearm && (decide (3072 < n) || (List.range n).any (fun p => !s.upd.pages.get p)) then 1
  else if !s.imgFormatOk k then 2
  else if !s.imgPartOk k then 3
  else if !readable || !s.imgHashOk k then 4
  else if !s.imgSignatureOk k then 5
  else if s.imgSecurity k < s.imgSecurity s.runSlot then 6
  else 0

/-- FIRMWARE_VERSION and PATTERN_SET_VERSION of the device (Table 2.7, R458, R459). -/
def State.firmware (s : State) : Nat := s.imgFirmware s.runSlot
def State.patternSet (s : State) : Nat := s.imgPatterns s.upd.boot.pset

/-- The slot whose pattern set a half of the code memory holds (R117). -/
def State.halfSlot (s : State) (h : Bool) : Nat :=
  if h then s.upd.half1.getD s.upd.boot.pset else s.upd.half0.getD s.upd.boot.pset

/-- MAJOR of Table 2.8 differs between the sets of the two halves (R460). -/
def State.majorDiffers (s : State) : Bool :=
  decide (s.imgPatterns (s.halfSlot true) / 2 ^ 24 ≠ s.imgPatterns (s.halfSlot false) / 2 ^ 24)

end Sys2Proof.Machine
end

