-- ==== Sys2Proof/Machine/TamperOps.lean ====
section
/-! DEFINITION. The tamper controller's shared operations: entries of the AO log buffer, responses, zeroize (R372-R382, R297). -/
namespace Sys2Proof.Machine

/-- Change the tamper controller. -/
def State.setTamper (s : State) (f : Tamper → Tamper) : State := { s with tamper := f s.tamper }

/-- The bytes of an entry without its CHECK, and with it (Table 14.5). -/
def LogEntry.body (e : LogEntry) : Bytes :=
  le 6 e.time ++ le 1 e.source ++ le 1 e.flags ++ le 2 e.resp ++ le 1 e.event ++ le 1 e.lc ++ le 4 e.count ++ padTo 12 e.data
def LogEntry.bytes (e : LogEntry) : Bytes := e.body ++ le 4 (crc32 e.body)

/-- Whether the maintenance window is in force (R377). -/
def State.maintenance (s : State) : Bool := decide (s.now < s.tamper.maint)

/-- Clear the secure SRAM: every credit line and key reads as zero or not loaded (R297). -/
def State.wipe (s : State) : State :=
  { s with
    pp := { s.pp with credit := [], keyDevice := none, keys := [], keyCounter := 0 }
    mem := { s.mem with secure := 1, poison := s.mem.poison.filter (fun e => decide (e.1 < 2 ^ 31)) } }

/-- A zeroize (R297, R374): the wipe at once, ZEROIZED, and with VIN33 present a whole-device restart. -/
def State.zeroize (s : State) : State :=
  let s := s.wipe.setTamper (fun t => { t with zeroized := true, zeroNow := true })
  if s.pwr.onVbat ∨ s.pwr.tripped then s else s.setTamper (fun t => { t with restartDue := some 5 })

/-- Place an entry in the AO log buffer of 64 entries; beyond, it is lost and counted (R380). -/
def State.pushEntry (s : State) (e : LogEntry) : State :=
  s.setTamper (fun t =>
    if t.buf.length < 64 then { t with buf := t.buf ++ [e] }
    else { t with overflow := t.overflow + 1, lostNow := t.lostNow + 1 })

/-- A detection executes its responses (R373-R379, R382): zeroize first, then the log entry with its holdoff, the event,
the disconnect of the accounts of its scope, and the mark; the event of a life-cycle change waits for METERING (R385). resp are the bits LOG, EVENT, MARK, DISCONNECT, ZEROIZE (DEDUCED, log 45). -/
def State.respond (s : State) (code sev resp : Nat) (data : Bytes) (ev : Option (Nat × Bytes)) (accts : List Nat) : State :=
  let t := s.now
  let lc := s.lc
  let vbat := s.pwr.onVbat
  let zero := bit resp 4
  let s := if zero then s.zeroize else s
  let quiet := decide (sev ≤ 1) && s.maintenance
  let wantEv := bit resp 1 && !quiet
  let late := zero || vbat || !s.pwr.good || decide (s.pwr.mode = .powerFail ∨ s.pwr.mode = .backup ∨ s.pwr.mode = .rest)
  let held := decide (code = 0x40)
  let hold := s.tamper.holdoff.get code
  let within := match hold with
    | none => false
    | some h => decide (sev ≤ 1) && decide (s.clock.clk < h.1 + s.cfg oTampLogHoldoffS * 1000 * clkMs)
  let folded := match hold with
    | none => 0
    | some h => h.2
  let taken := resp % 32 + flag (zero && !vbat) 5 + flag (bit resp 3 && vbat) 6 + flag (quiet && bit resp 1) 7
  let e : LogEntry := { time := t, source := code, resp := taken, lc := lc, count := folded + 1, data := data,
                        flags := sev + flag vbat 2 + flag s.tamper.suspect 3 + flag (decide (0 < folded)) 4,
                        event := match ev with
                          | some x => if wantEv then x.1 else 0xFF
                          | none => 0xFF,
                        evData := match ev with
                          | some x => if wantEv && late && !held then some x.2 else none
                          | none => none }
  let s := if !bit resp 0 then s
    else if within then
      s.setTamper (fun t => { t with holdoff := t.holdoff.upd code (fun h => h.map (fun x => (x.1, x.2 + 1))) })
    else
      (s.pushEntry e).setTamper (fun t => { t with holdoff := t.holdoff.set code (some (s.clock.clk, 0)) })
  let s := match ev with
    | some x => if wantEv && !late && !held then s.raise x.1 x.2 else s
    | none => s
  let s := if bit resp 3 then
      (if vbat then s.setTamper (fun t => { t with pendSet := accts.foldl (fun m a => KMap.set m a true) t.pendSet })
       else s.tamperDisc accts code)
    else s
  if bit resp 2 then (s.setTamper (fun t => { t with mark := true })).selvTarget 1 true else s

/-- The accounts of TAMP_DISC_SET (R373). -/
def State.discSet (s : State) : List Nat := setList (s.cfg oTampDiscSet) 240

/-- A detection of a configurable source with the responses of TAMP_RESPONSE[i]; a setting of 0x0000 turns it off (R372) (DEDUCED, log 45). -/
def State.detect (s : State) (i code : Nat) (data : Bytes) (ev : Option (Nat × Bytes)) (scope : List Nat) : State :=
  let r := s.cfg (oTampResponse i)
  if r = 0 then s
  else s.respond code (bits r 15 14) (r % 32) data ev (if bit r 8 then scope else s.discSet)

/-- A balance alarm is a detection (R371); its scope is the group's suspects as published at the SET (R373). -/
def State.balanceDetection (s : State) (g items : Nat) (dBits : Nat) : State :=
  let su := (s.bal.get g).suspects
  (s.setTamper (fun t => { t with balActive := t.balActive.set g su })).detect 15 0x30
    (le 1 g ++ le 1 items ++ le 4 dBits) none su

/-- A plausibility flag is a detection (R371); its scope is the flagged account. -/
def State.plausDetection (s : State) (a check slots : Nat) : State :=
  s.detect 16 0x31 (le 2 a ++ le 1 check ++ le 1 slots) none [a]

/-- Whether a detection of a source code is still active for an account (R375, R376). -/
def State.detActive (s : State) (code : Nat) (a : Option Nat) : Bool :=
  if code = 0x05 then s.tamper.main.lost
  else if code = 0x06 then s.tamper.rtc.lost
  else if 0x10 ≤ code ∧ code ≤ 0x17 then (s.tamper.tamp.get (code - 0x10)).active
  else if 0x18 ≤ code ∧ code ≤ 0x1B then (s.tamper.mag.get (code - 0x18)).active
  else if code = 0x22 then s.tamper.tempAlarm
  else if code = 0x30 then
    (List.range 4).any (fun g => (s.bal.get g).alarm && (match a with
      | none => true
      | some a => (s.bal.get g).suspects.contains a))
  else if code = 0x31 then
    match a with
    | none => s.accts.any (fun e => e.2.plaus.any (fun p => p.2.flag))
    | some a => (s.accts.get a).plaus.any (fun p => p.2.flag)
  else false

/-- Whether any detection with MARK in its responses is still active (R376). -/
def State.markActive (s : State) : Bool :=
  let cfgd := (rangeFrom 0 12).map (fun i => (i, 0x10 + i)) ++ [(14, 0x22), (15, 0x30), (16, 0x31)]
  s.tamper.main.lost || s.tamper.rtc.lost ||
    cfgd.any (fun p => bit (s.cfg (oTampResponse p.1)) 2 && s.detActive p.2 none)

/-- The temperature span of R368. -/
def State.tempOutside (s : State) (t : Int) : Bool :=
  decide (t < s.cfgI 4 oTampTempLowMc) || decide (s.cfgI 4 oTampTempHighMc < t)

/-- A temperature detection ends when the reading has stayed at least 5 degrees inside the span for 10 s (R368). -/
def State.tempInside (s : State) (t : Int) : State :=
  if !s.tamper.tempAlarm then s
  else if s.cfgI 4 oTampTempLowMc + 5000 ≤ t ∧ t ≤ s.cfgI 4 oTampTempHighMc - 5000 then
    match s.tamper.tempIn with
    | none => s.setTamper (fun x => { x with tempIn := some s.clock.clk })
    | some c =>
      if c + 10000 * clkMs ≤ s.clock.clk then s.setTamper (fun x => { x with tempAlarm := false, tempIn := none, tempRun := 0 }) else s
  else s.setTamper (fun x => { x with tempIn := none })

/-- A temperature detection, unless one is in force (R368) (DEDUCED, log 45). -/
def State.tempDetect (s : State) (bg osc : Int) : State :=
  if s.tamper.tempAlarm then s
  else
    let t := if rabs bg < rabs osc then osc else bg
    (s.setTamper (fun x => { x with tempAlarm := true, tempIn := none })).detect 14 0x22
      (le 4 (unsgn 4 bg) ++ le 4 (unsgn 4 osc)) (some (7, le 1 1 ++ le 1 0 ++ le 4 (unsgn 4 t))) s.discSet

/-- The outcome of a temperature verification (R368): both sensors outside is a detection, one outside a maintenance entry. -/
def State.tempVerified (s : State) (bg osc : Int) : State :=
  if s.tempOutside bg && s.tempOutside osc then s.tempDetect bg osc
  else if s.tempOutside bg || s.tempOutside osc then
    s.respond 0x23 0 1 (le 4 (unsgn 4 bg) ++ le 4 (unsgn 4 osc)) none []
  else s

end Sys2Proof.Machine
end

