-- ==== Sys2Proof/Machine/PqOps.lean ====
section
/-! DEFINITION. What published RMSX and window results do: events, sequence, missing neutral, plausibility, aggregates,
flicker and spectral records (R167-R178, R200). -/
namespace Sys2Proof.Machine

/-! ### Dips, swells and interruptions (R173-R175) -/

/-- A power-quality event record (Table 6.13) to SR5 and the event log; the group counts it (DESIGN CHOICE, log 8). -/
def State.pqRecord (s : State) (g kind : Nat) (ev : PqEvent) (ms flags : Nat) : State :=
  let ud := s.cfgF (oPqUdinV g)
  let u := sqrtR ev.extreme
  let seq := (s.pq.get g).recSeq + 1
  let s := s.setPq g (fun x => { x with
    recSeq := seq
    dips := if kind = 1 then x.dips + 1 else x.dips
    swells := if kind = 2 then x.swells + 1 else x.swells
    interruptions := if kind = 3 then x.interruptions + 1 else x.interruptions
    outages := if kind = 4 then x.outages + 1 else x.outages })
  s.logBoth 1 (le 6 ev.start ++ le 4 (sat (2 ^ 32 - 1) ms) ++ le 1 kind ++ le 1 g ++ le 1 ev.phases ++ le 1 flags ++ le 2 0 ++
    le 4 (toF32 u) ++ le 4 (rnd (u / ud * 1000000)).toNat ++ le 1 ev.phase ++ le 3 0 ++ le 4 seq.toNat)

/-- A length in units of 2^-16 modulator clocks as milliseconds, to the nearest. -/
def posMs (d : Nat) : Nat := (d + 2048 * 65536) / (4096 * 65536)

/-- Close an event at a position (R174). -/
def State.pqClose (s : State) (g kind pos flags : Nat) (ev : PqEvent) : State :=
  let s := s.setPq g (fun x => { x with spans := ((ev.pos, pos) :: x.spans).take 32 })
  s.pqRecord g kind ev (posMs (pos - ev.pos)) (flags + flag ev.unlocked 2)

/-- TRIG_PQ: the start of an event triggers every capture channel of the group (R183). -/
def State.pqTrigger (s : State) (g pos : Nat) : State :=
  if bit (s.cfg oCaptOptions) 2 then
    (s.captSet.filter (fun ch => s.vgOf ch = g)).foldl (fun s ch => s.captTrigger ch 3 pos) s
  else s

/-- The named phases of a window with their squared RMS voltages. -/
def named (l : List (Option Rat)) : List (Nat × Rat) :=
  (List.range 3).filterMap (fun p => (l.getD p none).map (fun v => (p, v)))

/-- An event's phases and extreme after one more window: low tells whether the lowest value is the extreme. -/
def PqEvent.take (ev : PqEvent) (l : List (Nat × Rat)) (low unlocked : Bool) (hit : Rat → Bool) : PqEvent :=
  let ev := { ev with phases := Nat.lor ev.phases (ofSet ((l.filter (fun x => hit x.2)).map Prod.fst)), unlocked := ev.unlocked || unlocked }
  l.foldl (fun ev x => if (if low then decide (x.2 < ev.extreme) else decide (ev.extreme < x.2)) then
    { ev with extreme := x.2, phase := x.1 } else ev) ev

/-- The event that a window starts. -/
def State.pqStart (s : State) (pos : Nat) (l : List (Nat × Rat)) (low unlocked : Bool) (hit : Rat → Bool) : PqEvent :=
  let x := l.headD (0, 0)
  PqEvent.take { start := s.stampOf pos, pos := pos, extreme := x.2, phase := x.1 } l low unlocked hit

/-- The square of a threshold in permille of U_din. -/
def State.pqLim (e : State) (g : Nat) (permille : Int) : Rat :=
  let u : Rat := e.cfgF (oPqUdinV g) * (permille : Rat) / 1000
  u * u

/-- The interruption of a group in one window: its end, its course or its start, which ends a dip. -/
def State.pqInterrupt (s e : State) (g pos : Nat) (l : List (Nat × Rat)) (unlocked : Bool) : State :=
  let p : Int := e.cfg oPqInterruptPermille
  let low := e.pqLim g p
  let up := e.pqLim g (p + e.cfg oPqHystPermille)
  match (s.pq.get g).interruption with
  | some ev =>
    if l.any (fun x => decide (up ≤ x.2)) then (s.setPq g (fun x => { x with interruption := none })).pqClose g 3 pos 0 ev
    else s.setPq g (fun x => { x with interruption := some (ev.take l true unlocked (fun v => decide (v < low))) })
  | none =>
    if l ≠ [] ∧ l.all (fun x => decide (x.2 < low)) then
      let s := match (s.pq.get g).dip with
        | some d => (s.setPq g (fun x => { x with dip := none })).pqClose g 1 pos 0 d
        | none => s
      let ev := s.pqStart pos l true unlocked (fun v => decide (v < low))
      (s.setPq g (fun x => { x with interruption := some ev })).pqTrigger g pos
    else s

/-- The dip of a group in one window; none starts during an interruption. -/
def State.pqDip (s e : State) (g pos : Nat) (l : List (Nat × Rat)) (unlocked : Bool) : State :=
  let p : Int := e.cfg oPqDipPermille
  let low := e.pqLim g p
  let up := e.pqLim g (p + e.cfg oPqHystPermille)
  match (s.pq.get g).dip with
  | some ev =>
    if l.all (fun x => decide (up ≤ x.2)) then (s.setPq g (fun x => { x with dip := none })).pqClose g 1 pos 0 ev
    else s.setPq g (fun x => { x with dip := some (ev.take l true unlocked (fun v => decide (v < low))) })
  | none =>
    if (s.pq.get g).interruption.isNone ∧ l.any (fun x => decide (x.2 < low)) then
      let ev := s.pqStart pos l true unlocked (fun v => decide (v < low))
      (s.setPq g (fun x => { x with dip := some ev })).pqTrigger g pos
    else s

/-- The swell of a group in one window. -/
def State.pqSwell (s e : State) (g pos : Nat) (l : List (Nat × Rat)) (unlocked : Bool) : State :=
  let p : Int := e.cfg oPqSwellPermille
  let up := e.pqLim g p
  let low := e.pqLim g (p - e.cfg oPqHystPermille)
  match (s.pq.get g).swell with
  | some ev =>
    if l.all (fun x => decide (x.2 ≤ low)) then (s.setPq g (fun x => { x with swell := none })).pqClose g 2 pos 0 ev
    else s.setPq g (fun x => { x with swell := some (ev.take l false unlocked (fun v => decide (up < v))) })
  | none =>
    if l.any (fun x => decide (up < x.2)) then
      let ev := s.pqStart pos l false unlocked (fun v => decide (up < v))
      (s.setPq g (fun x => { x with swell := some ev })).pqTrigger g pos
    else s

/-- The phases that a group names, bits 2:0. -/
def State.phaseSet (e : State) (g : Nat) : Nat := ofSet ((List.range 3).filter (fun p => (e.mapCh g p).isSome))

/-- One one-cycle window that starts at a position (Table 6.12); one that lacks a phase of the group judges nothing (R15). -/
def State.pqWindow (s e : State) (g pos : Nat) (v : List (Option Rat)) (unlocked : Bool) : State :=
  let l := named v
  if l = [] ∨ ofSet (l.map Prod.fst) ≠ e.phaseSet g then s
  else ((s.pqInterrupt e g pos l unlocked).pqDip e g pos l unlocked).pqSwell e g pos l unlocked

/-- The outage record of a cast-on, at the first locked cycle of the group (R175). -/
def State.pqOutage (s : State) (g : Nat) (b0 : Nat) (phases : Nat) : State :=
  let t := s.stampOf b0
  let ev : PqEvent := { start := s.pwr.lastPfd, pos := b0, phases := phases }
  (s.setPq g (fun x => { x with outageDue := false })).pqRecord g 4 ev ((t - s.pwr.lastPfd) * 1000 / 1024) 2

/-- Every event in progress closes at a trip, TRUNCATED (R175). -/
def State.pqTruncate (s : State) (pos : Nat) : State :=
  (List.range 4).foldl (fun s g =>
    let x := s.pq.get g
    let close (s : State) (kind : Nat) (ev : Option PqEvent) : State := match ev with
      | none => s
      | some ev => s.pqClose g kind pos 1 ev
    (close (close (close s 1 x.dip) 2 x.swell) 3 x.interruption).setPq g (fun x => { x with
      dip := none
      swell := none
      interruption := none })) s

/-! ### Sequence, unbalance, missing neutral (R176, R177) -/

/-- The sequence judgement of a cycle. -/
def State.pqSequence (s e : State) (g judge : Nat) : State :=
  let x := s.pq.get g
  let run := if judge = x.seqPend then sat 65535 (x.seqRun + 1) else 1
  let s := s.setPq g (fun x => { x with seqPend := judge, seqRun := run })
  if e.cfg oPqDetectCycles ≤ run ∧ judge ≠ x.seqState then
    let s := s.setPq g (fun x => { x with seqState := judge, seqLast := if judge = 0 then x.seqLast else judge })
    if judge ≠ 0 ∧ x.seqLast ≠ 0 ∧ x.seqLast ≠ judge then s.raise 34 (le 1 g ++ le 1 (judge - 1)) else s
  else s

/-- The missing-neutral state after a cycle. -/
def State.pqNeutral (s e : State) (g : Nat) (r : LeaderRes) : State :=
  let x := s.pq.get g
  let run := if r.suspect ≠ x.neutral then x.neutralRun + 1 else 0
  if e.cfg oPqDetectCycles ≤ run then
    (s.setPq g (fun x => { x with neutral := r.suspect, neutralRun := 0 })).raise 35
      (le 1 g ++ le 1 (if r.suspect then 0 else 1) ++ le 4 (toF32 (sqrtR r.vZero)) ++ le 4 (toF32 r.ne))
  else s.setPq g (fun x => { x with neutralRun := run })

/-- The unbalance of a window over its cycles. -/
def State.pqUnbalance (s : State) (g : Nat) (b1 : Boundary) (r : LeaderRes) : State :=
  s.setPq g (fun x =>
    let n := x.sNeg + r.vNeg
    let p := x.sPos + r.vPos
    if b1.closes then { x with unbal := toF32 (sqrtR n / sqrtR p * 100), sNeg := 0, sPos := 0 }
    else { x with sNeg := n, sPos := p })

/-- What the leader's RMSX cycle does to its group: a cycle that lacks a voltage leaves the judgements of sequence and neutral as
they are. -/
def State.pqCycle (s e : State) (g : Nat) (b0 b1 : Boundary) (r : LeaderRes) : State :=
  let x := s.pq.get g
  let unlocked := b1.free || b1.relock
  let ub := (List.range 3).map (fun p => match x.tail.getD p none, r.head.getD p none with
    | some a, some b => some ((a + b) / 256)
    | _, _ => none)
  let s := s.pqWindow e g x.tailAt ub unlocked
  let s := s.pqWindow e g b0.pos r.ua unlocked
  let s := s.setPq g (fun x => { x with tail := r.tail, tailAt := (b0.pos + b1.pos) / 2 })
  let full := (List.range 3).all (fun p => (e.mapCh g p).isSome)
  (if !r.whole then s else if full then (s.pqSequence e g r.seqJudge).pqNeutral e g r else s.pqSequence e g r.seqJudge).pqUnbalance g b1 r

/-! ### Plausibility (R178) -/

/-- One check of an account in a cycle. -/
def State.plausCheck (s e : State) (a k : Nat) (holds : Bool) (slots : Nat) : State :=
  let p := (s.accts.get a).plaus.get k
  let put (s : State) (p : Plaus) : State := s.setAcct a (fun x => { x with plaus := x.plaus.set k p })
  let ev (s : State) (clr : Nat) (slots : Nat) : State := s.raise 39 (le 2 a ++ le 1 k ++ le 1 clr ++ le 1 slots)
  if !bit (e.cfg (oAccPlausMask a)) k then
    (if p.flag then ev (put s {}) 1 p.slots else put s {})
  else
    let n := e.cfg (oAccPlausCycles a)
    let run := if holds ≠ p.flag then p.run + 1 else 0
    if n ≤ run then
      (if holds then (ev (put s { run := 0, flag := true, slots := slots }) 0 slots).plausDetection a k slots
       else ev (put s {}) 1 p.slots)
    else put s { p with run := run }

/-- The four checks of a cycle; a cycle that computed none holds the counts. -/
def State.plausCycle (s e : State) (a : Nat) (l : List Bool) (slots : List Nat) : State :=
  if l = [] then s
  else (List.range 4).foldl (fun s k => s.plausCheck e a k (l.getD k false) (slots.getD k 0)) s

/-! ### Aggregates (R170, R171) -/

/-- RTC interval numbers of 10 minutes and 2 hours. -/
def iv10m (t : Stamp) : Nat := t / (600 * 1024)
def iv2h (t : Stamp) : Nat := t / (7200 * 1024)

/-- What a closed aggregate shows: its mean, PARTIAL, SHORT, FLAGGED. -/
structure AggOut where
  mean    : Rat := 0
  partial_ : Bool := false
  short   : Bool := false
  flagged : Bool := false
  deriving DecidableEq, Repr

/-- The output of an aggregate: 0 and PARTIAL without a valid window. -/
def Agg.out (a : Agg) (short : Bool) : AggOut :=
  { mean := a.sum / a.weight, partial_ := a.partial_ || decide (a.weight = 0), short := short, flagged := a.flagged }

/-- A window enters an aggregate of an interval number, which closes at the number's change or, with a cap, after so many
windows. -/
def Agg.push (a : Agg) (cap iv : Nat) (early : Bool) (sum weight : Rat) (ok flg : Bool) : Agg × Option AggOut :=
  let r := if a.n ≠ 0 ∧ a.iv ≠ iv then (({} : Agg), some (a.out early)) else (a, none)
  let b := r.1
  let b := { b with
    sum := if ok then b.sum + sum else b.sum
    weight := if ok then b.weight + weight else b.weight
    partial_ := b.partial_ || !ok
    flagged := b.flagged || flg
    n := b.n + 1
    iv := iv }
  if cap ≠ 0 ∧ cap ≤ b.n then ({}, some (b.out false)) else (b, r.2)

/-- Whether a span of positions of a group holds any part of a dip, swell or interruption. -/
def PqGroup.flaggedIn (x : PqGroup) (p0 p1 : Nat) : Bool :=
  x.spans.any (fun t => decide (t.1 < p1) && decide (p0 < t.2)) ||
    [x.dip, x.swell, x.interruption].any (fun e => match e with
      | none => false
      | some e => decide (e.pos < p1))

/-- The start position of the window that a boundary closes. -/
def State.winStart (s : State) (e : State) (g : Nat) (b1 : Boundary) : Nat :=
  match ((s.groups.get g).table.dropWhile (fun b => decide (b.cycle ≠ b1.cycle))).drop (e.winN g) with
  | b :: _ => b.pos
  | [] => 0

/-- CR_AGG_STATUS with the bits of aggregate i (Table 6.19). -/
def aggBits (v i : Nat) (o : AggOut) : Nat :=
  let clr := v - flag (bit v (8 + i)) (8 + i) - flag (bit v (4 + i)) (4 + i) - flag (bit v i) i
  clr + flag o.partial_ (8 + i) + flag o.short (4 + i) + flag o.flagged i

/-- A channel shows a closed aggregate. -/
def ChRes.show (x : ChRes) (i : Nat) (o : AggOut) : ChRes :=
  { x with agg := x.agg.set i (toF32 (sqrtR o.mean)), aggStatus := aggBits x.aggStatus i o }

/-- A window enters aggregate i of a channel. -/
def ChRes.push (x : ChRes) (i cap iv : Nat) (early : Bool) (v : Rat) (ok flg : Bool) : ChRes :=
  let r := (x.a.get i).push cap iv early v 1 ok flg
  let x := { x with a := x.a.set i r.1 }
  match r.2 with
  | none => x
  | some o => x.show i o

/-- One cycle of a channel's RMS enters its aggregates; ok is false for a cycle without a value. -/
def ChRes.rmsCycle (x : ChRes) (v : Rat) (ok closes : Bool) (n : Nat) (t : Stamp) (flg : Bool) : ChRes :=
  let a := x.a.get 0
  let a := { a with sum := a.sum + (if ok then v else 0), n := a.n + 1, partial_ := a.partial_ || !ok }
  if !closes then { x with a := x.a.set 0 a }
  else
    let full := decide (a.n = n) && !a.partial_
    let w : Rat := if full then a.sum / (n : Rat) else 0
    let x := ({ x with a := x.a.set 0 {} }).show 0 { mean := w, partial_ := !full, flagged := flg }
    ((x.push 1 15 (iv10m t) true w full flg).push 2 0 (iv10m t) false w full flg).push 3 0 (iv2h t) false w full flg

/-- An account's cycle of active power enters its aggregates (R170: means weighted by duration). -/
def Acct.powerCycle (x : Acct) (p : Rat) (clocks : Nat) (ok closes : Bool) (n : Nat) (t : Stamp) : Acct :=
  let a := x.a10
  let w : Rat := (clocks : Nat)
  let a := { a with sum := a.sum + (if ok then p * w else 0), weight := a.weight + (if ok then w else 0), n := a.n + 1, partial_ := a.partial_ || !ok }
  if !closes then { x with a10 := a }
  else
    let full := decide (a.n = n) && !a.partial_
    let r1 := x.a150.push 15 (iv10m t) true a.sum a.weight full false
    let r2 := x.a10m.push 0 (iv10m t) false a.sum a.weight full false
    { x with
      a10 := {}
      a150 := r1.1
      a10m := r2.1
      agg10 := if full then toF32 (a.sum / a.weight) else 0
      agg150 := match r1.2 with
        | none => x.agg150
        | some o => toF32 o.mean
      agg10m := match r2.2 with
        | none => x.agg10m
        | some o => toF32 o.mean }

/-! ### Spectral records (R200) -/

/-- Whether a kind's spectra (1 harmonics, 2 interharmonics, 3 bands) are recorded for a channel. -/
def State.specOn (e : State) (kind ch : Nat) : Bool :=
  inSet (e.cfg oProfileSpectraCh) ch && bit (e.cfg oProfileSpectra) (kind - 1) &&
    inSet (e.cfg (if kind = 3 then oPqSupraEnable else oPqHarmEnable)) ch

/-- Records that one interval close of a group gives. -/
def State.specCount (e : State) (g : Nat) : Nat :=
  ([1, 2, 3].map (fun k => (e.enabledChans.filter (fun ch => decide (e.vgOf ch = g) && e.specOn k ch)).length)).foldl (· + ·) 0

/-- Write one spectral record (Table 7.6) for a closed interval (0 150/180 cycles, 1 10 min, 2 2 h). -/
def State.specRecord (s e : State) (ch kind iv : Nat) (a : SpecAgg) (endT : Stamp) (short : Bool) : State :=
  let n := [0, 63, 64, 110].getD kind 0
  let seq := ((s.chres.get ch).specSeq.get kind + 1) % 65536
  let vals := (List.range n).map (fun i => toF32 (sqrtR (a.sum.getD i 0 / (a.valid : Rat))))
  let rec_ := le 6 endT ++ le 1 kind ++ le 1 (flag (a.partial_ || decide (a.valid = 0)) 0 + flag short 1 + flag a.flagged 2 + iv * 16) ++
    le 2 (3 * 2 ^ 14 + ch) ++ le 1 n ++ le 1 0 ++ le 2 a.qual ++ le 2 seq ++ vals.flatMap (le 4)
  let s := { s with chres := s.chres.upd ch (fun x => { x with specSeq := x.specSeq.set kind seq }) }
  let s := s.logPut 6 0x11 rec_
  let s := if iv = 0 then s else s.archive ch 0x51 rec_
  let g := e.vgOf ch
  let done := (s.pq.get g).spec.get iv + 1
  if e.specCount g ≤ done then
    (s.setPq g (fun x => { x with spec := x.spec.set iv 0 })).raise 53 (le 1 1 ++ le 2 done)
  else s.setPq g (fun x => { x with spec := x.spec.set iv done })

/-- Add a window's values to a running spectral aggregate. -/
def SpecAgg.add (a : SpecAgg) (iv : Nat) (v : List Rat) (ok flg : Bool) (qual : Nat) (endT : Stamp) : SpecAgg :=
  { a with
    sum := if ok then (if a.sum = [] then v.map (fun x => x * x) else List.zipWith (fun x y => x + y * y) a.sum v) else a.sum
    n := a.n + 1
    valid := if ok then a.valid + 1 else a.valid
    partial_ := a.partial_ || !ok
    flagged := a.flagged || flg
    iv := iv
    qual := Nat.lor a.qual qual
    lastEnd := endT }

/-- A window's spectrum enters one interval of a channel and kind. -/
def State.specPush (s e : State) (ch kind i : Nat) (v : List Rat) (ok flg : Bool) (qual : Nat) (t : Stamp) : State :=
  let key := kind * 4 + i
  let iv := if i = 2 then iv2h t else iv10m t
  let a := (s.chres.get ch).specAgg.get key
  let put (s : State) (a : SpecAgg) : State := { s with chres := s.chres.upd ch (fun x => { x with specAgg := x.specAgg.set key a }) }
  let ovr := decide (a.n ≠ 0) && decide (a.iv ≠ iv)
  let s := if ovr then
      (put s {}).specRecord e ch kind i a (if i = 0 then a.lastEnd else if i = 1 then (a.iv + 1) * 600 * 1024 else (a.iv + 1) * 7200 * 1024) (decide (i = 0))
    else s
  let b := SpecAgg.add (if ovr then {} else a) iv v ok flg qual t
  if i = 0 ∧ 15 ≤ b.n then (put s {}).specRecord e ch kind i b t false else put s b

/-- A window's spectrum enters every enabled interval (Table 7.12). -/
def State.specWindow (s e : State) (ch kind : Nat) (v : List Rat) (ok flg : Bool) (qual : Nat) (t : Stamp) : State :=
  if e.specOn kind ch then
    (List.range 3).foldl (fun s i => if bit (e.cfg oProfileSpectra) (3 + i) then s.specPush e ch kind i v ok flg qual t else s) s
  else s

/-- TIME_NOW closes the 10-minute and 2-hour intervals in progress, SHORT (R171). -/
def State.aggForce (s : State) : State :=
  let chans := s.chres.map Prod.fst
  let s := chans.foldl (fun s ch =>
    let close (x : ChRes) (i : Nat) : ChRes := if (x.a.get i).n = 0 then x else
      ({ x with a := x.a.set i {} }).show i ((x.a.get i).out true)
    let s := { s with chres := s.chres.upd ch (fun x => close (close x 2) 3) }
    [1, 2, 3].foldl (fun s kind => [1, 2].foldl (fun s i =>
      let a := (s.chres.get ch).specAgg.get (kind * 4 + i)
      if a.n = 0 then s
      else ({ s with chres := s.chres.upd ch (fun x => { x with specAgg := x.specAgg.set (kind * 4 + i) {} }) }).specRecord s
        ch kind i a s.now true) s) s) s
  (s.accts.map Prod.fst).foldl (fun s a => s.setAcct a (fun x =>
    if x.a10m.n = 0 then x else { x with a10m := {}, agg10m := toF32 (x.a10m.sum / x.a10m.weight) })) s

/-! ### Spectra and flicker (R166, R167, R169) -/

/-- The smoothing filter of R167 over one window; the first window sets it. -/
def smooth (on : Bool) (old v : List Rat) : List Rat :=
  if on ∧ old.length = v.length then List.zipWith (fun y x => y + (x - y) * 1000 / 8012) old v else v

/-- HARM63's and IHARM's results of one channel at a gate advance. -/
def State.specPublish (s e : State) (kind seq qual : Nat) (flg : Bool) (t : Stamp) (r : SpecRes) : State :=
  let on := e.cfgB oPqHarmSmooth
  let x := s.chres.get r.ch
  let v := smooth on (if kind = 1 then x.smHarm else x.smIharm) r.exact
  let keep := if on then v else []
  let f := v.map toF32
  let s := { s with chres := s.chres.upd r.ch (fun x =>
    let x := { x with winSeq := BitVec.ofNat 32 seq, winQual := qual, hUsed := r.hUsed }
    if kind = 1 then { x with harm := f, smHarm := keep, thd := r.thd, angle := r.angles } else { x with iharm := f, smIharm := keep }) }
  s.specWindow e r.ch kind v true flg qual t

/-- A window without a result: its sequence and quality are published and the values stay (R143). -/
def State.specSkip (s e : State) (ch kind seq qual : Nat) (t : Stamp) : State :=
  let s := { s with chres := s.chres.upd ch (fun x =>
    let x := { x with winQual := qual }
    if kind = 3 then { x with supraSeq := BitVec.ofNat 32 seq } else { x with winSeq := BitVec.ofNat 32 seq }) }
  s.specWindow e ch kind [] false false qual t

/-- The cube root of a nonnegative number, one bit at a time from 2^k down. -/
def cbrtBits : Nat → Nat → Nat → Nat
  | 0, _, acc => acc
  | k + 1, v, acc => if (acc + 2 ^ k) ^ 3 ≤ v then cbrtBits k v (acc + 2 ^ k) else cbrtBits k v acc

/-- The cube root of a nonnegative rational, to 32 binary places (assumption log 2). -/
def cbrtR (x : Rat) : Rat :=
  let v := x.num.natAbs * 2 ^ 96 / x.den
  ((cbrtBits (Nat.log2 v / 3 + 1) v 0 : Nat) : Rat) / ((2 ^ 32 : Nat) : Rat)

/-- The close of a Pst interval of a channel (R169): none within 60 s of its first cycle; Plt after the twelfth of a 2-hour
interval. -/
def ChRes.pstClose (x : ChRes) (lamp now : Nat) : ChRes :=
  let begins := x.flickIv * 600 * 1024
  let settled := match x.firstAt with
    | none => false
    | some f => decide (f + 60 * 1024 ≤ begins)
  let x := if settled then
      let p := Config.flicker lamp x.flick
      { x with pst := p, psts := ((x.flickIv, p) :: x.psts).take 12 }
    else x
  let mine : List (Nat × Nat) := x.psts.filter (fun p => decide (p.1 / 12 = x.flickIv / 12))
  let x := if now / 12 ≠ x.flickIv / 12 ∧ mine.length = 12 then
      { x with plt := toF32 (cbrtR (sumR (mine.map (fun p => ofF32 p.2 ^ 3)) / 12)) }
    else x
  { x with flick := [], flickIv := now }

/-- FLICK's window of a channel at a gate advance. -/
def State.flickPublish (s e : State) (g ch : Nat) (ms : List Rat) (t : Stamp) : State :=
  let lamp := if e.cfg (oVgNominalHz g) = 60 then 120 else 230
  { s with chres := s.chres.upd ch (fun x =>
    let iv := iv10m t
    let x := if x.flick = [] then { x with flickIv := iv } else if x.flickIv ≠ iv then x.pstClose lamp iv else x
    { x with flick := ms.reverse ++ x.flick }) }

end Sys2Proof.Machine
end

