-- ==== Sys2Proof/Machine/BalOps.lean ====
section
/-! DEFINITION. Balance windows: sums, judgement, alarm and narrowing (R218-R223, R494). -/
namespace Sys2Proof.Machine

/-- A window sum in 2^-40 Wh as a mean in W over a length in 2^-16 clocks (R218). -/
def windowMean (x : Int) (len : Nat) : Rat := (x : Rat) / ((2 ^ 40 : Nat) : Rat) * 3600 * (4096000 * 65536) / (len : Rat)

/-- Total, L1, L2, L3 of a sum over L1, L2, L3 and U. -/
def fourOf (l : List Int) : List Int := [0, 1, 2, 3].map (balPick l)

/-- What a window close finds (Tables 8.3 and 8.8). -/
structure BalClose where
  cause  : Nat := 0
  endT   : Stamp := 0
  short  : Bool := false
  fMean  : List Rat := []
  dMean  : List Rat := []
  lMean  : Rat := 0
  items  : Nat := 0
  clean  : Bool := false
  deriving DecidableEq, Repr

/-- An item exceeds a level pair scaled by (1,000 - hyst) / 1,000 (R221). -/
def State.balExceeds (s : State) (g : Nat) (scale d f : Rat) : Bool :=
  let a := s.cfgF (oBgAbsLimitW g) * scale
  let p : Rat := (s.cfg (oBgPctLimitPermille g) : Rat) * scale
  let d := if bit (s.cfg (oBgOptions g)) 1 then d else rabs d
  (decide (0 < a) && decide (a < d)) ||
    (decide (0 < p) && decide (s.cfgF (oBgMinFeederW g) ≤ rabs f) && decide (p < 1000 * d / rabs f))

/-- The items under test (R221): bit 0 the total, bits 1-3 the phases. -/
def State.balItems (s : State) (g : Nat) : List Nat :=
  0 :: (if bit (s.cfg (oBgOptions g)) 0 && !s.phasePartial g then
    [1, 2, 3].filter (fun p => (s.bal.get g).feedPh.getD (p - 1) false) else [])

/-- Judge the window in progress, with the cause that its close brings (R220, R221). -/
def State.balJudge (s : State) (g cause : Nat) (endT : Stamp) (short : Bool) : BalClose :=
  let x := s.bal.get g
  let half := x.winLen * 4000 * 65536
  let cause := if cause ≠ 0 then cause else if x.est then 1 else if x.absent then 2
    else if 2 * x.clocks < half then 5 else 0
  let d := (List.range 4).map (fun p => x.f.getD p 0 - x.c.getD p 0 - x.l.getD p 0)
  let mean (l : List Int) : List Rat := (fourOf l).map (fun v => windowMean v x.clocks)
  let fm := mean x.f
  let dm := mean d
  let hyst : Rat := ((1000 - s.cfg (oBgHystPermille g) : Nat) : Rat) / 1000
  let tested := s.balItems g
  let ovr (scale : Rat) (i : Nat) : Bool := s.balExceeds g scale (dm.getD i 0) (fm.getD i 0)
  { cause := cause, endT := endT, short := short, fMean := fm, dMean := dm,
    lMean := windowMean (balPick x.l 0) x.clocks,
    items := if cause = 0 then ofSet (tested.filter (ovr 1)) else 0,
    clean := decide (cause = 0) && tested.all (fun i => !ovr hyst i) }

/-- 1,000 D / |F| as I16 (Table 8.8). -/
def State.permille (s : State) (g : Nat) (d f : Rat) : Int :=
  if rabs f < s.cfgF (oBgMinFeederW g) then 0 else satI 2 (rnd (1000 * d / rabs f))

/-- The window record (Table 8.8). -/
def State.balRecord (s : State) (g : Nat) (seq : W32) (c : BalClose) : Bytes :=
  let x := s.bal.get g
  let gone := decide (c.cause = 4)
  let w (v : Rat) : Bytes := le 4 (if gone then 0 else toF32 v)
  le 6 c.endT ++ le 2 (if gone then 0 else x.qualOr) ++ le 4 seq.toNat ++ le 4 (if gone then 0 else x.first.toNat) ++
    le 2 (if gone then 0 else sat 65535 x.cycles) ++
    le 1 (flag (decide (c.cause = 0)) 0 + flag (decide (c.items ≠ 0)) 1 + flag c.clean 2 + c.cause * 8 +
      flag (s.phasePartial g) 6 + flag c.short 7) ++ le 1 c.items ++
    (List.range 4).flatMap (fun i => w (c.fMean.getD i 0)) ++ (List.range 4).flatMap (fun i => w (c.dMean.getD i 0)) ++ w c.lMean ++
    (List.range 4).flatMap (fun i => le 2 (if gone then 0 else unsgn 2 (s.permille g (c.dMean.getD i 0) (c.fMean.getD i 0))))

/-- A plausibility flag stands on an account. -/
def State.plausFlagged (s : State) (a : Nat) : Bool := (s.accts.get a).plaus.any (fun p => p.2.flag)

/-- Narrow a suspect window to candidates and suspects (R223). -/
def State.balNarrow (s : State) (g items : Nat) : State :=
  let phases := [1, 2, 3].filter (bit items)
  let new := if phases = [] ∨ s.phasePartial g then s.members g
    else (s.members g).filter (fun a => (s.elems a).any (fun x => phases.contains (x.2.1 + 1)))
  let cands := setList (ofSet ((s.bal.get g).cands ++ new)) 240
  let sus := cands.filter s.plausFlagged
  s.setBal g (fun x => { x with
    cands := cands
    suspects := setList (ofSet (x.suspects ++ sus)) 240
    feederFlagged := x.feederFlagged || (s.feeders g).any s.plausFlagged })

/-- EV38 (R222). -/
def State.ev38 (s : State) (g clr : Nat) (c : BalClose) : State :=
  let d := c.dMean.headD 0
  s.raiseAt 38 (le 1 g ++ le 1 clr ++ le 1 c.items ++ le 4 (toF32 d) ++ le 2 (unsgn 2 (s.permille g d (c.fMean.headD 0)))) c.endT 1

/-- The alarm state after a judged window; answers whether ALARM was set or cleared (R222). -/
def State.balAlarm (s : State) (g : Nat) (c : BalClose) : State × Bool :=
  let x := s.bal.get g
  let n := s.cfg (oBgHoldWindows g)
  if x.alarm then
    let s := if c.items ≠ 0 then s.balNarrow g c.items else s
    let run := if c.clean then min (x.clear + 1) 255 else 0
    if n ≤ run then
      ((s.setBal g (fun x => { x with alarm := false, hold := 0, clear := 0 })).ev38 g 1 c, true)
    else (s.setBal g (fun x => { x with clear := run }), false)
  else
    let run := if c.items ≠ 0 then min (x.hold + 1) 255 else 0
    if n ≤ run then
      let s := s.setBal g (fun x => { x with
        alarm := true, hold := 0, clear := 0, cands := [], suspects := [], feederFlagged := false, events := x.events + 1 })
      let s := (s.balNarrow g c.items).ev38 g 0 c
      (s.balanceDetection g c.items (toF32 (c.dMean.headD 0)), true)
    else (s.setBal g (fun x => { x with hold := run }), false)

/-- The sums of a window start again, at a window number. -/
def BalGroup.fresh (x : BalGroup) (at_ : Nat) : BalGroup :=
  { x with
    winAt := at_, f := [0, 0, 0, 0], c := [0, 0, 0, 0], l := [0, 0, 0, 0], clocks := 0, cycles := 0, first := 0, qualOr := 0,
    est := false, absent := false, feedPh := [false, false, false], lastEnd := 0 }

/-- Close the window in progress (R218-R222). -/
def State.balClose (s : State) (g cause : Nat) (endT : Stamp) (short : Bool) (next : Nat) : State :=
  let c := s.balJudge g cause endT short
  let seq := (s.bal.get g).winSeq + 1
  let rec_ := s.balRecord g seq c
  let r := if c.cause = 0 then s.balAlarm g c else (s, false)
  let s := r.1.setBal g (fun x => { x with
    winSeq := seq, lastWin := rec_, cause := c.cause, items := if c.cause = 0 then c.items else x.items })
  let log := decide (c.items ≠ 0) || r.2 || bit (s.cfg (oBgOptions g)) 2
  let s := if log then s.logPut 5 5 rec_ else s
  s.setBal g (fun x => x.fresh next)

/-- The end of a window that closes early (R494). -/
def State.balEarly (s : State) (g : Nat) : Stamp :=
  let x := s.bal.get g
  if x.cycles = 0 then x.winAt * x.winLen else x.lastEnd

/-- The window of a disabled group closes with its last cycle (R220). -/
def State.balLast (s : State) (g : Nat) (seq : W32) : State :=
  let x := s.bal.get g
  if !x.running && decide (seq + 1 = x.cycle) && x.configAt.isSome then
    (s.balClose g 3 (s.balEarly g) false 0).setBal g (fun x => { x with configAt := none, winLen := 0 })
  else s

/-- A committed BAL cycle enters its window (R218, R219, R220): est without deltas when the control processor committed it. e is
the configuration of the cycle. -/
def State.balCycle (s e : State) (g : Nat) (seq epoch : W32) (c : Cyc) (r : BalRes) (quality : Nat) : State :=
  let len := e.cfg (oBgWindowS g) * 1024
  let w := if len = 0 then 0 else c.endT / len
  let x := s.bal.get g
  let changed := match x.configAt with
    | none => false
    | some e => !newer e epoch
  let s := if changed then
      (if x.winLen = 0 then s else s.balClose g 3 (s.balEarly g) false w).setBal g (fun x => { x with configAt := none, winAt := w })
    else if x.cycles = 0 then s.setBal g (fun x => { x with winAt := w })
    else if x.winAt < w then s.balClose g 0 ((x.winAt + 1) * len) false w else s
  (s.setBal g (fun x => { x with
    winLen := len
    f := List.zipWith (· + ·) x.f r.f
    c := List.zipWith (· + ·) x.c r.c
    l := List.zipWith (· + ·) x.l r.l
    clocks := x.clocks + (c.b1 - c.b0)
    cycles := x.cycles + 1
    first := if x.cycles = 0 then seq else x.first
    qualOr := Nat.lor x.qualOr quality
    est := x.est || r.est
    absent := x.absent || r.absent
    feedPh := List.zipWith (· || ·) x.feedPh r.feedPh
    lastEnd := c.endT })).balLast g seq

/-- TIME_NOW closes the windows in progress, SHORT, at the next tick (Table 8.11). -/
def State.balForce (s : State) : State :=
  (List.range 4).foldl (fun s g =>
    let x := s.bal.get g
    if x.running && decide (x.winLen ≠ 0) then s.balClose g 0 (s.balEarly g) true (s.now / x.winLen) else s) s

/-- The window that holds a PFD time closes with OUTAGE (R220, R494). -/
def State.balOutage (s : State) : State :=
  (List.range 4).foldl (fun s g =>
    if (s.bal.get g).outageDue then
      (s.balClose g 4 s.pwr.lastPfd false 0).setBal g (fun x => { x with outageDue := false })
    else s) s

end Sys2Proof.Machine
end

