-- ==== Sys2Proof/Machine/Publish.lean ====
section
/-! DEFINITION. What a gate advance publishes, pattern by pattern (R20, R164, R179, R198). -/
namespace Sys2Proof.Machine

/-- The clk of a position. -/
def State.clkAt (s : State) (pos : Nat) : Nat := s.clock.castOn + pos / 65536

/-- A committed cycle's mean power enters the loss-bound demand (R198): seconds by the cycle's end stamp. -/
def Acct.lossAdd (x : Acct) (p : Rat) (clocks : Nat) (endT : Stamp) : Acct :=
  let sec := endT / 1024
  let e := rabs p * (clocks : Nat)
  if x.secAt = sec then { x with secSum := x.secSum + e, secClk := x.secClk + clocks }
  else
    let m := x.secSum / (x.secClk : Nat)
    let min_ := x.secAt / 60
    let old := x.bound.get (min_ % 16)
    let bound := if x.secClk = 0 then x.bound
      else x.bound.set (min_ % 16) (min_, if old.1 = min_ then max old.2 m else m)
    { x with bound := bound, secAt := sec, secSum := e, secClk := clocks }

/-- The direction run of R164; EV37 at a reported change. -/
def State.direction (s e : State) (a : Nat) (d : Bool) (cyc : W32) : State :=
  let x := s.accts.get a
  if d = x.repExp then s.setAcct a (fun x => { x with dirRun := 0 })
  else
    let first := if x.dirRun = 0 then cyc else x.dirFirst
    if e.cfg (oAccDirEventCycles a) ≤ x.dirRun + 1 then
      (s.setAcct a (fun x => { x with repExp := d, dirRun := 0, dirFirst := first })).raise 37
        (le 2 a ++ le 1 (if d then 1 else 0) ++ le 4 first.toNat)
    else s.setAcct a (fun x => { x with dirRun := x.dirRun + 1, dirFirst := first })

/-- BILL publishes (R179). -/
def State.billPublish (s e : State) (st : Stitch) (b1 : Boundary) (c : Cyc) (r : BillRes) : State :=
  let a := st.num
  let est := bit r.quality 2
  let noLoad := bit r.quality 4
  let at_ := s.clkAt c.b1
  let p : Rat := if noLoad then 0 else r.pExact
  let s := s.setAcct a (fun x =>
    let x := { x with
      bill := r
      valid := true
      lastEnd := c.endT
      lastCommitted := st.seq
      newHalf := x.newHalf || (st.pset == s.upd.newHalf)
      newest := if est then x.newest else some p
      recent := if est then x.recent else ((at_, r.clocks, p) :: x.recent).filter (fun t => decide (at_ ≤ t.1 + 60000 * clkMs)) }
    (x.lossAdd p r.clocks c.endT).powerCycle p r.clocks (!est) b1.closes (e.winN st.vg) c.endT)
  match r.dirExp with
  | none => s
  | some d => s.direction e a d st.seq

/-- RMSX publishes: channel results once per group cycle, aggregates, checks and the leader's group quantities. -/
def State.rmsxPublish (s e : State) (st : Stitch) (b0 b1 : Boundary) (c : Cyc) (chs : List RmsRes) (pl : List Bool)
    (slots : List Nat) (lead : Option LeaderRes) : State :=
  let g := st.vg
  let s := match lead with
    | some r => s.pqCycle e g b0 b1 r
    | none => if e.leader g = some st.num then s.setPq g (fun x => { x with tail := [] }) else s
  let flg := b1.closes && (s.pq.get g).flaggedIn (s.winStart e g b1) b1.pos
  let n := e.winN g
  let s := (e.acctChans st.num).eraseDups.foldl (fun s ch =>
    let x := s.chres.get ch
    if x.firstAt.isSome ∧ x.seq = c.cyc then s
    else
      let x := { x with firstAt := some (x.firstAt.getD c.endT) }
      let x := match chs.find? (fun r => r.ch = ch) with
        | some r => ({ x with rms := r, seq := c.cyc }).rmsCycle r.meanSq true b1.closes n c.endT flg
        | none => ({ x with seq := c.cyc }).rmsCycle 0 false b1.closes n c.endT flg
      { s with chres := s.chres.set ch x }) s
  (s.plausCycle e st.num pl slots).setAcct st.num (fun x => { x with rmsxSeq := st.seq })

/-- The channels of a window stitch's subject. -/
def State.winChans (e : State) (st : Stitch) : List Nat :=
  if st.kind = 1 then ((e.windowGroups.getD st.num (0, [])).2) else [st.num]

/-- The spectral kind of a pattern: 1 HARM63, 2 IHARM, 3 SUPRA. -/
def specKind (pat : Nat) : Nat := if pat = 3 then 1 else if pat = 4 then 2 else 3

/-- A window stitch without a result (DEDUCED, log 51). -/
def State.winSkip (s e : State) (st : Stitch) (quality : Nat) (t : Stamp) : State :=
  if st.pat = 6 then s
  else (e.winChans st).foldl (fun s ch => s.specSkip e ch (specKind st.pat) st.seq.toNat quality t) s

/-- The spectra of a window group: channels without a result publish their skip. -/
def State.specAll (s e : State) (st : Stitch) (l : List SpecRes) (quality : Nat) (flg : Bool) (t : Stamp) : State :=
  (e.winChans st).foldl (fun s ch =>
    match l.find? (fun r => r.ch = ch) with
    | some r => s.specPublish e (specKind st.pat) st.seq.toNat quality flg t r
    | none => s.specSkip e ch (specKind st.pat) st.seq.toNat quality t) s

/-- SELF ran in a cycle of a channel under measurement (R274): in the half whose start its boundary follows. -/
def State.selfPublish (s : State) (ch : Nat) (b1 : Boundary) : State :=
  match s.spareAt ch with
  | none => s
  | some k => s.setSpare k (fun p =>
      if p.stage = .gainMeas then
        (if p.since ≤ b1.at_ then { p with selfRun1 := p.selfRun1 + 1 } else { p with selfRun0 := p.selfRun0 + 1 })
      else if p.stage = .offsetMeas then { p with selfRun0 := p.selfRun0 + 1 } else p)

/-- Publish a stitch's result at its gate advance (DEDUCED, log 51). -/
def State.publish (s e : State) (st : Stitch) (b0 b1 : Boundary) (c : Cyc) (pub : Pub) (quality : Nat) : State :=
  let flg := (s.pq.get st.vg).flaggedIn (s.winStart e st.vg b1) b1.pos
  match pub with
  | .bill r => s.billPublish e st b1 c r
  | .rmsx chs pl slots lead => s.rmsxPublish e st b0 b1 c chs pl slots lead
  | .harm l => s.specAll e st l quality flg c.endT
  | .iharm l => s.specAll e st l quality flg c.endT
  | .supra r =>
    let s := { s with chres := s.chres.upd r.ch (fun x => { x with
      supraSeq := st.seq, winQual := quality, bands := r.exact.map toF32 }) }
    s.specWindow e r.ch 3 r.exact true flg quality c.endT
  | .flick ch ms => s.flickPublish e st.vg ch ms c.endT
  | .bal r => s.balCycle e st.num st.seq st.epoch c r quality
  | .capt ch h d => s.captPublish e ch c.cyc (s.stampOf c.b0) (h ++ d)
  | .calx ch a dc th stable own => s.calCycle ch a dc th stable own
  | .self => s.selfPublish st.num b1
  | .nothing => if 3 ≤ st.pat ∧ st.pat ≤ 6 then s.winSkip e st quality c.endT else s

end Sys2Proof.Machine
end

