-- ==== Sys2Proof/Machine/Issue.lean ====
section
/-! DEFINITION. The issue unit: streams, home queues, admission at issue, the issue buffer, the backlog guard, and the cycles
that the control processor commits (R116-R126, R142-R145). -/
namespace Sys2Proof.Machine

/-! ### Streams and costs -/

/-- The key of a gate stream: pattern, subject kind and number. -/
def streamKey (pat kind num : Nat) : Nat := pat * 4096 + kind * 1024 + num

/-- The priority class of a pattern (Table 5.2). -/
def classOf (pat : Nat) : Nat := [0, 0, 1, 2, 2, 3, 2, 0, 3, 1, 2].getD pat 3

/-- MAC of one stitch under Table 5.3, in fifths: e is the configuration, g the voltage group. -/
def State.mac5 (e : State) (pat num g : Nat) : Nat :=
  let n := (e.acctChans num).eraseDups.length
  let hz := e.cfg (oVgNominalHz g)
  match pat with
  | 1 => 5 * (4000 + 9000 * n)
  | 2 => 5 * (2000 + 7000 * n)
  | 3 => 5 * 31250 * ((e.windowGroups.getD num (0, [])).2.length * e.winN g)
  | 4 => 5 * 15625 * ((e.windowGroups.getD num (0, [])).2.length * e.winN g)
  | 5 => 1068 * (presetRate (e.cfg (oChPreset num)) * e.winN g / hz)
  | 6 => 5 * 125000 * e.winN g
  | 7 => 5 * (8000 + 4000 * (e.members num).length)
  | 8 => 5 * 390 * (presetRate (e.cfg (oChPreset num)) / hz)
  | 9 => 5 * 60000
  | _ => 5 * 30000

/-- Nominal engine cycles of a stitch: MAC / 1.4, and 200 for a skip stitch (R118). -/
def State.nominal (e : State) (pat num g : Nat) (skip : Bool) : Nat := if skip then 200 else e.mac5 pat num g / 7

/-- Stitches of a pattern per 60 s of a group: one a cycle, or one a window (R116). -/
def State.perMinute (e : State) (pat g : Nat) : Nat :=
  let hz := e.cfg (oVgNominalHz g)
  if 3 ≤ pat ∧ pat ≤ 6 then hz * 60 / e.winN g else hz * 60

/-- The streams of a voltage group in issue order (R122): pattern, kind, number. -/
def State.groupStreams (e : State) (g : Nat) : List (Nat × Nat × Nat) :=
  let wins := (List.range e.windowGroups.length).filter (fun i => decide ((e.windowGroups.getD i (0, [])).1 = g))
  let chs := e.enabledChans.filter (fun c => e.vgOf c = g)
  (e.vgAccts g).flatMap (fun a => [(1, 0, a), (2, 0, a)]) ++ (e.bgOf g).map (fun b => (7, 2, b)) ++
    (if e.cal.owner.isSome then (chs.filter (inSet (e.cfg oCsChannels))).map (fun c => (9, 3, c)) else []) ++
    (chs.filter (fun c => decide (e.cfg (oChSparePolicy c) = 1))).map (fun c => (10, 3, c)) ++
    (chs.filter e.captOn).map (fun c => (8, 3, c)) ++
    wins.map (fun i => (3, 1, i)) ++ wins.map (fun i => (4, 1, i)) ++
    (chs.filter (inSet (e.cfg oPqFlickEnable))).map (fun c => (6, 3, c)) ++
    (chs.filter (inSet (e.cfg oPqSupraEnable))).map (fun c => (5, 3, c))

/-- Every stream of the active configuration with its voltage group, in issue order. -/
def State.allStreams (e : State) : List (Nat × Nat × Nat × Nat) := e.vgOn.flatMap (fun g => (e.groupStreams g).map (fun x => (g, x)))

/-- The home queue that HOME_QUEUE_MAP gives a stream; none when it is assigned automatically (R123). -/
def State.mapHome (e : State) (kind num : Nat) : Option Nat :=
  if kind ≠ 0 then none
  else
    let b := nb (e.cfg oHomeQueueMap) num 1
    if b < 32 then some b else none

/-- The queue with the least of a table of 32 loads, ties to the lower number. -/
def leastOf (l : KMap Nat) : Nat := (List.range 32).foldl (fun b q => if l.get q < l.get b then q else b) 0

/-- Assign the automatic home queues over the streams in issue order (R123). -/
def State.homes (e : State) : KMap Nat :=
  (e.allStreams.foldl (fun (acc : KMap Nat × KMap Nat) x =>
    match e.mapHome x.2.2.1 x.2.2.2 with
    | some _ => acc
    | none =>
      let q := leastOf acc.2
      let cost := e.mac5 x.2.1 x.2.2.2 x.1 * e.perMinute x.2.1 x.1
      (KMap.set acc.1 (streamKey x.2.1 x.2.2.1 x.2.2.2) (q + 1), KMap.upd acc.2 q (· + cost))) ([], [])).1

/-- The home queue of a stream; one formed outside an epoch change takes the queue that homes the fewest streams. -/
def State.homeOf (s e : State) (pat kind num : Nat) : Nat :=
  match e.mapHome kind num with
  | some q => q
  | none =>
    let h := s.eng.home.get (streamKey pat kind num)
    if h ≠ 0 then h - 1 else leastOf (s.eng.home.foldl (fun (m : KMap Nat) x => KMap.upd m (x.2 - 1) (· + 1)) [])

/-! ### Queues (R120, R124) -/

/-- Free entries of a queue. -/
def Eng.freeOf (x : Eng) (q : Nat) : Nat := 256 - (x.wq.get q).length

/-- The queue of most free entries among some, ties to the lower number. -/
def Eng.roomiest (x : Eng) (l : List Nat) : Option Nat :=
  l.foldl (fun b q => if x.freeOf q = 0 then b else match b with
    | none => some q
    | some p => if x.freeOf p < x.freeOf q then some q else b) none

/-- The queue that takes a stitch of a home queue; none when all are full. -/
def Eng.target (x : Eng) (home : Nat) : Option Nat :=
  if 0 < x.freeOf home then some home
  else match x.roomiest (rangeFrom (home / 8 * 8) 8) with
    | some q => some q
    | none => x.roomiest (List.range 32)

/-- Change one gate stream. -/
def State.setStream (s : State) (k : Nat) (f : Stream → Stream) : State := s.setEng (fun x => { x with streams := x.streams.upd k f })

/-- The channels of a stitch's subject. -/
def State.subjChans (e : State) (st : Stitch) : List Nat :=
  if st.kind = 0 then e.acctChans st.num else if st.kind = 1 then (e.windowGroups.getD st.num (0, [])).2 else if st.kind = 3 then [st.num] else []

/-- A skipped P2 or P3 stitch adds to the skip counts of the accounts that use its channels, and marks their BILL stitches of
the same boundary (R143, Table 5.8). -/
def State.countSkip (s e : State) (st : Stitch) : State :=
  let chs := e.subjChans st
  let accts := e.enabledAccts.filter (fun a => (e.acctChans a).any (fun c => chs.contains c))
  let win := decide (3 ≤ st.pat) && decide (st.pat ≤ 6)
  let mark (x : Stitch) : Stitch :=
    if x.pat = 1 ∧ x.kind = 0 ∧ x.vg = st.vg ∧ x.bslot = st.bslot ∧ accts.contains x.num then
      { x with skip2 := x.skip2 || (st.cls = 2 && win), skip3 := x.skip3 || st.cls = 3 }
    else x
  let up (m : KMap Nat) : KMap Nat := accts.foldl (fun (m : KMap Nat) a => KMap.upd m a (fun n => (n + 1) % 2 ^ 32)) m
  s.setEng (fun x => { x with
    skip2 := if st.cls = 2 then up x.skip2 else x.skip2
    skip3 := if st.cls = 3 then up x.skip3 else x.skip3
    wq := x.wq.map (fun q => (q.1, q.2.map mark))
    buffer := x.buffer.map mark
    paused := x.paused.map mark })

/-- Write a stitch: to its queue, to the issue buffer, or behind the pause (R124). While the buffer holds anything, P2 and
P3 stitches become skip stitches. -/
def State.place (s e : State) (st : Stitch) : State :=
  if s.eng.paused ≠ [] then s.setEng (fun x => { x with paused := x.paused ++ [st] })
  else
    let turn := decide (2 ≤ st.cls) && !st.skip && s.eng.buffer ≠ []
    let st := if turn then { st with skip := true, skip2 := st.cls = 2, skip3 := st.cls = 3 } else st
    let s := if turn then s.countSkip e st else s
    let target := s.eng.target (s.homeOf e st.pat st.kind st.num)
    if st.cls ≤ 1 ∧ s.eng.buffer ≠ [] then
      (if s.eng.buffer.length < 64 then s.setEng (fun x => { x with buffer := x.buffer ++ [st] })
       else s.setEng (fun x => { x with paused := [st] }))
    else match target with
      | some q => s.setEng (fun x => { x with wq := x.wq.upd q (fun l => l ++ [st]) })
      | none => if st.cls ≤ 1 ∧ s.eng.buffer.length < 64 then s.setEng (fun x => { x with buffer := x.buffer ++ [st] })
        else s.setEng (fun x => { x with paused := [st] })

/-- Move buffered stitches to queues while one has room. -/
def State.drainBuffer (s : State) : Nat → State
  | 0 => s
  | n + 1 =>
    match s.eng.buffer with
    | [] => s
    | st :: rest =>
      match s.eng.target (s.homeOf s st.pat st.kind st.num) with
      | none => s
      | some q => State.drainBuffer (s.setEng (fun x => { x with buffer := rest, wq := x.wq.upd q (fun l => l ++ [st]) })) n

/-- Continue a paused issue in its order while there is room (R124). -/
def State.drainPaused (s : State) : Nat → State
  | 0 => s
  | n + 1 =>
    match s.eng.paused with
    | [] => s
    | st :: rest =>
      let s' := (s.setEng (fun x => { x with paused := [] })).place (s.atEpoch st.epoch) st
      if s'.eng.paused ≠ [] then s
      else State.drainPaused (s'.setEng (fun x => { x with paused := rest })) n

/-- Advance the heads over DONE entries (R120), and over FREE ones, which a recovery has emptied; then let the issue unit continue. -/
def State.advance (s : State) : State :=
  let s := s.setEng (fun x =>
    let n (l : List Stitch) : Nat := (l.takeWhile (fun t => decide (t.st = .done) || decide (t.st = .free))).length
    { x with
      head := x.wq.foldl (fun (m : KMap Nat) q => KMap.upd m q.1 (fun h => (h + n q.2) % 256)) x.head
      wq := x.wq.foldl (fun (m : KMap (List Stitch)) q => KMap.set m q.1 (q.2.drop (n q.2))) x.wq })
  (s.drainBuffer 64).drainPaused s.eng.paused.length

/-! ### Admission at issue (R142, R143) -/

/-- A window or cycle counter is admitted with A sixteenths. -/
def admitted (w x a : Nat) : Bool := decide ((w + x) * a / 16 < (w + x + 1) * a / 16)

/-- The admission of a pattern in force for a group, with the guard's limits (R144). -/
def State.admitOf (s : State) (g pat : Nat) : Nat :=
  let v := (s.eng.byGroup.get g).getD (s.eng.p2, s.eng.capt, s.eng.supra)
  if pat = 8 then (if s.eng.guard || s.pwr.shed then 0 else v.2.1)
  else if pat = 5 then (if s.eng.guard || s.pwr.shed then 0 else v.2.2)
  else if s.eng.guard then min 8 v.1 else v.1

/-- Issue one stitch of a stream for the cycle or window that a boundary ends. -/
def State.issueOne (s e : State) (g : Nat) (b0 b1 : Boundary) (pat kind num : Nat) : State :=
  let key := streamKey pat kind num
  let x := s.eng.streams.get key
  let win := decide (3 ≤ pat) && decide (pat ≤ 6)
  let seq : W32 := if kind = 0 then (s.accts.get num).cycle else if kind = 2 then (s.bal.get num).cycle
    else if win then b1.win else x.last + 1
  let cls := classOf pat
  let w := if win then b1.win.toNat else b0.cycle.toNat
  let dropped := decide (2 ≤ cls) && !admitted w num (s.admitOf g pat)
  let lost := win && s.eng.lostWin.get key
  let st : Stitch := {
    seq := seq, epoch := b0.epoch, kind := kind, num := num, pat := pat, cls := cls,
    skip := dropped || lost, skip2 := dropped && !lost && cls = 2, skip3 := dropped && !lost && cls = 3, pset := (s.groups.get g).half, bslot := b1.cycle.toNat % 64, vg := g }
  let s := s.setStream key (fun y =>
    if y.live then { y with last := seq } else { live := true, gate := seq - 1, claim := seq - 1, last := seq })
  let s := if dropped && !lost then s.countSkip e st else s
  s.place e st

/-- Count a spare's SELF cycles at issue (R274). -/
def State.countSelf (s : State) (ch : Nat) : State :=
  s.setSpare (ch / 32) (fun p => if p.stage = .gainMeas then { p with selfIssued1 := p.selfIssued1 + 1 } else { p with selfIssued0 := p.selfIssued0 + 1 })

/-- The channels under drift measurement in a group (Table 5.2). -/
def State.selfChans (s : State) (g : Nat) : List Nat :=
  (List.range 8).filterMap (fun k =>
    let p := s.spares.get k
    match p.ch with
    | some ch => if (p.stage = .offsetMeas ∨ p.stage = .gainMeas) ∧ s.vgOf ch = g then some ch else none
    | none => none)

/-- Issue the CAPT stitches of a channel. -/
def State.issueCapt (s e : State) (g ch : Nat) : State :=
  let due := s.captDue g ch
  let t := (s.groups.get g).table
  let s := due.1.foldl (fun s b1 =>
    match (t.dropWhile (fun b => decide (b.cycle ≠ b1.cycle))).drop 1 with
    | b0 :: _ => s.issueOne e g b0 b1 8 3 ch
    | [] => s) s
  match due.2 with
  | some k => s.setSlot k (fun x => { x with issued := true })
  | none => s

/-- A buffered capture whose channel no longer takes part ends (R182). -/
def State.captLeave (s : State) (g : Nat) : State :=
  (List.range 8).foldl (fun s k =>
    let x := s.capt.get k
    if x.busy && decide (s.vgOf x.ch = g) && !s.captOn x.ch then s.captEnd k else s) s

/-- Issue at a boundary, in the order of R122: e is the configuration of the cycle that ended. -/
def State.issueAll (s e : State) (g : Nat) (b0 b1 : Boundary) : State :=
  let one (s : State) (x : Nat × Nat × Nat) : State := s.issueOne e g b0 b1 x.1 x.2.1 x.2.2
  let chs := e.enabledChans.filter (fun c => decide (e.vgOf c = g) && (s.chans.get c).running)
  let accts := (e.vgAccts g).filter (fun a => (s.accts.get a).running)
  let s := accts.foldl (fun s a =>
    (one (one s (1, 0, a)) (2, 0, a)).setAcct a (fun x => { x with cycle := x.cycle + 1 })) s
  let s := ((e.bgOf g).filter (fun b => (s.bal.get b).running)).foldl (fun s b =>
    (one s (7, 2, b)).setBal b (fun x => { x with cycle := x.cycle + 1 })) s
  let s := if s.cal.owner.isSome then (chs.filter (inSet (s.cfg oCsChannels))).foldl (fun s c => one s (9, 3, c)) s else s
  let s := (s.selfChans g).foldl (fun s c => (one s (10, 3, c)).countSelf c) s
  let s := (s.captLeave g)
  let s := (chs.filter (fun c => e.captOn c)).foldl (fun s c => s.issueCapt e g c) s
  if b1.closes then
    let wins := (List.range e.windowGroups.length).filter (fun i => decide ((e.windowGroups.getD i (0, [])).1 = g))
    let s := wins.foldl (fun s i => one s (3, 1, i)) s
    let s := wins.foldl (fun s i => one s (4, 1, i)) s
    let s := (chs.filter (inSet (e.cfg oPqFlickEnable))).foldl (fun s c => one s (6, 3, c)) s
    let s := (chs.filter (inSet (e.cfg oPqSupraEnable))).foldl (fun s c => one s (5, 3, c)) s
    s.setEng (fun x => { x with lostWin := x.lostWin.filter (fun e => !(e.1 / 1024 % 4 = 1 && wins.contains (e.1 % 1024)) && !(e.1 / 1024 % 4 = 3 && chs.contains (e.1 % 1024))) })
  else s

/-! ### The backlog guard and the cycles the control processor commits (R144, R145) -/

/-- Uncommitted cycles of a stream. -/
def Stream.open_ (x : Stream) : Nat := if x.live then (x.last - x.gate).toNat else 0

/-- The P0 streams of a group, by key. -/
def State.p0Keys (s : State) (g : Nat) : List Nat :=
  (s.vgAccts g).map (streamKey 1 0) ++ (s.bgOf g).map (streamKey 7 2)

/-- EV57 (Table 17.5): 0 ENTRY, 1 EXIT, 2 GUARD_ON, 3 GUARD_OFF. -/
def State.ev57 (s : State) (kind : Nat) : State := s.raise 57 (le 1 kind ++ le 4 s.eng.capacity ++ le 4 s.eng.demand)

/-- The P0 streams whose cycle the boundary record of a group ends: e is the configuration of that cycle. -/
def State.p0Ended (s e : State) (g : Nat) : List Nat :=
  ((e.vgAccts g).filter (fun a => (s.accts.get a).running)).map (streamKey 1 0) ++
    ((e.bgOf g).filter (fun b => (s.bal.get b).running)).map (streamKey 7 2)

/-- The guard at a boundary record of a group, before the stitches of the cycle that it ends: that cycle counts (R144). -/
def State.guardCheck (s e : State) (g : Nat) : State :=
  let ended := s.p0Ended e g
  let far (k n : Nat) : Bool := decide (n ≤ (s.eng.streams.get k).open_ + (if ended.contains k then 1 else 0))
  let dirty := (List.range 4).any (fun v => ((if v = g then ended else []) ++ s.p0Keys v).any (fun k => far k 2))
  let s := if dirty then s.setEng (fun x => { x with guardClean := false }) else s
  if !s.eng.guard && (ended ++ s.p0Keys g).any (fun k => far k 3) then
    (s.setEng (fun x => { x with guard := true, guardClean := false, guards := (x.guards + 1) % 2 ^ 32 })).ev57 2
  else s

/-- The guard at the end of a second (R144). -/
def State.guardSecond (s : State) : State :=
  let s := if s.eng.guard && s.eng.guardClean then (s.setEng (fun x => { x with guard := false })).ev57 3 else s
  s.setEng (fun x => { x with guardClean := true })

/-- Engines in service: their own state and their cluster's (R137). -/
def State.inService (s : State) (k : Nat) : Bool :=
  (s.eng.engines.get k).st = .inService && (s.eng.clusters.get (k / 8)).st = .inService
def State.enginesIn (s : State) : List Nat := (List.range 32).filter s.inService

/-- The stitch of a stream and sequence number, wherever it waits. -/
def Eng.findStitch (x : Eng) (pat kind num : Nat) (seq : W32) : Option Stitch :=
  let is (t : Stitch) : Bool := t.pat = pat && t.kind = kind && t.num = num && t.seq = seq && decide (t.st ≠ .free)
  match x.wq.findSome? (fun q => q.2.find? is) with
  | some t => some t
  | none => match x.buffer.find? is with
    | some t => some t
    | none => x.paused.find? is

/-- Apply a list of sequenced adds in order (R19). -/
def State.applyAdds (s e : State) (seq : W32) (c : Cyc) (l : List (AddTo × Nat)) : State :=
  l.foldl (fun s a => s.seqAdd e a.1 a.2 seq c) s

/-- The voltage group of a stream's subject. -/
def State.subjVg (s : State) (kind num : Nat) : Nat :=
  if kind = 0 then s.accVg num else if kind = 1 then (s.windowGroups.getD num (0, [])).1
  else if kind = 2 then s.bgVg num else s.vgOf num

/-- The entry that a cycle or window of a stream would have had, when no queue holds one (R285): a window's boundary by its
number, another by the cycles issued since (DEDUCED, log 51). -/
def State.lostStitch (s : State) (pat kind num : Nat) (seq : W32) : Stitch :=
  let last : W32 := if kind = 0 then (s.accts.get num).cycle - 1 else if kind = 2 then (s.bal.get num).cycle - 1
    else (s.eng.streams.get (streamKey pat kind num)).last
  let g := s.subjVg kind num
  let t := (s.groups.get g).table
  let head : W32 := ((t.head?).map Boundary.cycle).getD 0
  let end_ : W32 := if 3 ≤ pat ∧ pat ≤ 6 then
      ((t.find? (fun b => b.closes && decide (b.win = seq))).map Boundary.cycle).getD (head + 1)
    else head - (last - seq)
  let bslot := end_.toNat % 64
  { seq := seq, epoch := ((s.cycAt g bslot).map (fun x => x.1.epoch)).getD s.dict.epoch, kind := kind, num := num, pat := pat,
    cls := classOf pat, bslot := bslot, vg := g }

/-- The control processor commits the oldest uncommitted cycle of a P0 stream with an estimate (R145, R217, R285). -/
def State.cpCommitWith (s : State) (st : Stitch) : State :=
  let key := streamKey st.pat st.kind st.num
  let e := s.atEpoch st.epoch
  match s.cycAt st.vg st.bslot with
  | none => s.setStream key (fun y => { y with gate := st.seq })
  | some (b0, b1, c) =>
    let st := { st with latchDel := true, latchEst := true, latchValid := true }
    let s := if st.pat = 1 then
        let r := s.billPass e st c { seq := st.seq, time := c.endT, lost := 2 } []
        let s := s.applyAdds e st.seq c r.2
        let s := s.contribute e st.num c r.1
        ((s.publish e st b0 b1 c (.bill r.1) r.1.quality).unitsGate e (subjOf 0 st.num) st.seq c.endT r.1.quality)
      else
        let q := flag true 2 + flag true 1
        ((s.publish e st b0 b1 c (.bal { est := true }) q).unitsGate e (subjOf 2 st.num) st.seq c.endT q)
    s.setStream key (fun y => { y with gate := st.seq })

/-- The claim counter passes a number that no queue holds (R128, R285). -/
def State.passClaim (s : State) (key : Nat) (seq : W32) : State :=
  s.setStream key (fun y => if y.claim + 1 = seq then { y with claim := seq } else y)

/-- The quality word of a skip stitch (R125, R143). -/
def skipQuality (t : Stitch) : Nat := flag true 3 + flag t.skip2 10 + flag t.skip3 9

/-- The control processor commits a lost cycle of a P1-P3 stream as a skip result (R285) (DEDUCED, log 51). -/
def State.cpSkip (s : State) (st : Stitch) : State :=
  let e := s.atEpoch st.epoch
  let s := match s.cycAt st.vg st.bslot with
    | none => s
    | some (b0, b1, c) =>
      if st.pat = 8 then
        let r := s.captOf e st.num b1 c true
        s.publish e st b0 b1 c (.capt st.num r.1 r.2.1) r.2.2
      else s.publish e st b0 b1 c (if st.pat = 2 then .rmsx [] [] [] none else .nothing) (skipQuality st)
  s.setStream (streamKey st.pat st.kind st.num) (fun y => { y with gate := st.seq })

/-- Commit the oldest uncommitted cycle of a P0 stream: NO_CLUSTER when its entry still waits (R145, R285). -/
def State.cpCommit (s : State) (pat kind num : Nat) : State :=
  let seq := (s.eng.streams.get (streamKey pat kind num)).gate + 1
  match s.eng.findStitch pat kind num seq with
  | none => (s.cpCommitWith (s.lostStitch pat kind num seq)).passClaim (streamKey pat kind num) seq
  | some st => (s.setEng (fun y => { y with noCluster := true })).cpCommitWith st

/-- A cycle four behind that no queue holds is committed by the control processor: P0 with an estimate, others as skipped
(R285). -/
def State.orphan (s : State) (key : Nat) : State :=
  let x := s.eng.streams.get key
  let pat := key / 4096
  let kind := key / 1024 % 4
  let num := key % 1024
  if 5 ≤ x.open_ ∧ s.eng.findStitch pat kind num (x.gate + 1) = none then
    (if pat = 1 ∨ pat = 7 then s.cpCommit pat kind num
     else (s.cpSkip (s.lostStitch pat kind num (x.gate + 1))).passClaim key (x.gate + 1))
  else s

/-- All orphaned cycles of the device; none while the control island restarts (R285). -/
def State.orphans (s : State) : State :=
  if s.isl.control.isSome then s else (s.eng.streams.map Prod.fst).foldl State.orphan s

/-- Cycles four behind the one that ended are committed while no engine is in service (R145). -/
def State.cpCommits (s : State) (g : Nat) : State :=
  if s.enginesIn ≠ [] then s
  else
    let run (s : State) (pat kind num : Nat) : State :=
      (List.range 60).foldl (fun s _ =>
        if 5 ≤ (s.eng.streams.get (streamKey pat kind num)).open_ then s.cpCommit pat kind num else s) s
    let s := (s.vgAccts g).foldl (fun s a => run s 1 0 a) s
    (s.bgOf g).foldl (fun s b => run s 7 2 b) s

end Sys2Proof.Machine
end

