-- ==== Sys2Proof/Machine/EngineOps.lean ====
section
/-! DEFINITION. The metering engines: picking, running, gate passes, resets and admission (R127-R146). -/
namespace Sys2Proof.Machine

/-- Change an engine, a cluster, a queue entry. -/
def State.setEngine (s : State) (k : Nat) (f : Engine → Engine) : State := s.setEng (fun x => { x with engines := x.engines.upd k f })
def State.setCluster (s : State) (k : Nat) (f : Cluster → Cluster) : State := s.setEng (fun x => { x with clusters := x.clusters.upd k f })

/-- Whether an entry is the one of a stream and sequence number. -/
def Stitch.is (t : Stitch) (pat kind num : Nat) (seq : W32) : Bool := t.pat = pat && t.kind = kind && t.num = num && t.seq = seq
def Held.is (h : Held) (t : Stitch) : Bool := t.is h.pat h.kind h.num h.seq

/-- Change the queue entry of a held stitch. -/
def State.setEntry (s : State) (h : Held) (f : Stitch → Stitch) : State :=
  s.setEng (fun x => { x with wq := x.wq.upd h.q (fun l => l.map (fun t => if h.is t then f t else t)) })

/-- The queue entry of a held stitch. -/
def State.entryOf (s : State) (h : Held) : Option Stitch := (s.eng.wq.get h.q).find? h.is

/-- The stream of an entry. -/
def State.streamOf (s : State) (t : Stitch) : Stream := s.eng.streams.get (streamKey t.pat t.kind t.num)

/-! ### Picking (R128-R130) -/

/-- A claimable entry (R128) (DEDUCED, log 41). -/
def State.claimable (s : State) (t : Stitch) : Bool :=
  t.st = .waiting && (t.returned || (s.streamOf t).claim + 1 = t.seq)

/-- The claimable entries of a queue; with p0 only those of class P0 (DEDUCED, log 41). -/
def State.claims (s : State) (p0 : Bool) (q : Nat) : List Stitch :=
  (s.eng.wq.get q).filter (fun t => s.claimable t && (!p0 || t.cls = 0))

/-- The pick of R129: the highest class, returned ones first, then the oldest (DEDUCED, log 41). -/
def pickOf (l : List Stitch) : Option Stitch :=
  (List.range 4).findSome? (fun c =>
    let m := l.filter (fun t => decide (t.cls = c))
    match m.find? (fun t => t.returned) with
    | some t => some t
    | none => m.head?)

/-- The longest queue of a list by claimable entries, ties to the lower number (DEDUCED, log 41). -/
def State.longest (s : State) (p0 : Bool) (l : List Nat) : Option Nat :=
  l.foldl (fun b q => if (s.claims p0 q).length = 0 then b else match b with
    | none => some q
    | some p => if (s.claims p0 p).length < (s.claims p0 q).length then some q else b) none

/-- The queue from which an engine picks (R130): 0 own, 1 of its cluster, 2 of another. -/
def State.pickQueue (s : State) (p0 : Bool) (e : Nat) : Option (Nat × Nat) :=
  if s.claims p0 e ≠ [] then some (e, 0)
  else match s.longest p0 ((rangeFrom (e / 8 * 8) 8).filter (· ≠ e)) with
    | some q => some (q, 1)
    | none => (s.longest p0 ((List.range 32).filter (fun q => q / 8 ≠ e / 8))).map (fun q => (q, 2))

/-- The pick of an engine: under the guard every queue is first scanned for P0 stitches (R129) (DEDUCED, log 41). -/
def State.pick (s : State) (e : Nat) : Option (Nat × Nat × Stitch) :=
  let of (p0 : Bool) := (s.pickQueue p0 e).bind (fun q => (pickOf (s.claims p0 q.1)).map (fun t => (q.1, q.2, t)))
  if s.eng.guard then (match of true with
    | some x => some x
    | none => of false) else of false

/-! ### Computing (R116, R127) -/

/-- The channels whose samples a stitch reads. -/
def State.readChans (e : State) (t : Stitch) : List Nat :=
  if t.kind = 0 then e.acctChans t.num
  else if t.kind = 1 then e.refChan t.vg :: e.winChans t
  else if t.kind = 3 then [t.num] else []

/-- The quality word of a window: the flags of its cycles and channels (Table 5.8). -/
def State.winQuality (s e : State) (cs : List (Boundary × Cyc)) (chs : List Nat) (lost : Bool) : Nat :=
  withComplete (cs.foldl (fun q c => Nat.lor q (s.cycleFlags e c.2 c.1 chs false)) (flag lost 8 + flag lost 3))

/-- The results of a window pattern. -/
def State.windowOf (s e : State) (t : Stitch) : Pub × Nat :=
  let n := e.winN t.vg
  let cs := s.winCycs t.vg t.bslot n
  let chs := e.winChans t
  let many (f : Nat → Option SpecRes) (mk : List SpecRes → Pub) : Pub × Nat :=
    let l := chs.filterMap f
    if cs.length < n then (.nothing, s.winQuality e cs chs true)
    else (mk l, s.winQuality e cs chs (decide (l.length < chs.length)))
  match t.pat with
  | 3 => many (s.harmOf e t.vg cs) .harm
  | 4 => many (s.iharmOf e t.vg cs) .iharm
  | 6 =>
    match allOf (cs.map (fun c => (s.wave e c.2 t.num).map meanSq)) with
    | some ms => if cs.length < n then (.nothing, s.winQuality e cs chs true) else (.flick t.num ms, s.winQuality e cs chs false)
    | none => (.nothing, s.winQuality e cs chs true)
  | _ =>
    match s.supraOf e cs t.num with
    | some r => if cs.length < n then (.nothing, s.winQuality e cs chs true) else (.supra r, s.winQuality e cs chs false)
    | none => (.nothing, s.winQuality e cs chs true)

/-- What a stitch computes: its result, its adds and its quality word (DEDUCED, log 51). -/
def State.compute (s e : State) (t : Stitch) (b1 : Boundary) (c : Cyc) : Pub × List (AddTo × Nat) × Nat :=
  if t.skip then
    (if t.pat = 8 then
      let r := s.captOf e t.num b1 c true
      (.capt t.num r.1 r.2.1, [], r.2.2)
     else if t.pat = 2 then (.rmsx [] [] [] none, [], skipQuality t)
     else (.nothing, [], skipQuality t))
  else match t.pat with
    | 1 =>
      let r := s.billOf e t.num t.seq b1 c
      (.bill r.1, r.2, r.1.quality)
    | 2 =>
      let r := s.rmsxOf e t.num b1 c
      (r.1, [], withComplete r.2)
    | 7 =>
      let r := s.balOf e t.num c
      (.bal r, e.balAdds t.num r, withComplete (flag (r.est || r.absent) 2))
    | 8 =>
      let r := s.captOf e t.num b1 c false
      (.capt t.num r.1 r.2.1, [], r.2.2)
    | 9 => (s.calxOf e t.num b1 c, [], 0)
    | 10 => (.self, [], 0)
    | _ =>
      let r := s.windowOf e t
      (r.1, [], r.2)

/-- What a stitch still waits for before it can compute (R127). -/
def State.waitOf (s e : State) (t : Stitch) (c : Cyc) : Option Wait :=
  if t.skip then none
  else if t.pat = 7 then (if s.contribsReady e t.num c.cyc then none else some .contributions)
  else if s.samplesReady e c.b0 c.b1 (e.readChans t) then none else some .samples

/-- Drop a running stitch: its entry is DONE and the head advances (DEDUCED, log 51). -/
def State.finish (s : State) (k : Nat) (h : Held) : State :=
  ((s.setEntry h (fun t => { t with st := .done })).setEngine k (fun x => { x with
    run := none
    done := (x.done + 1) % 2 ^ 32 })).advance

/-- Suspend the running stitch of an engine (R127). -/
def State.suspend (s : State) (k : Nat) (h : Held) (w : Wait) : State :=
  (s.setEntry h (fun t => { t with st := .suspended })).setEngine k (fun x => { x with
    run := none
    susp := x.susp ++ [{ h with wait := some w }] })

/-- The gate pass of a computed stitch whose gate stands at SEQ - 1 (R20, R132): the latches are fixed, and BILL's estimate,
anti-creep rule and contribution follow (DEDUCED, log 51). -/
def State.gatePass (s : State) (k : Nat) (h : Held) (t : Stitch) (b1 : Boundary) (c : Cyc) : State :=
  let e := s.atEpoch t.epoch
  let late := decide (((s.groups.get t.vg).table.head?.map Boundary.cycle) ≠ some b1.cycle)
  let est := match h.pub with
    | .bill r => decide (r.lost ≠ 0)
    | .bal r => r.est || r.absent
    | _ => false
  let t := if t.latchValid then t else { t with latchValid := true, latchDel := late, latchEst := est }
  let s := s.setEntry h (fun _ => { t with st := .claimed })
  match h.pub with
  | .bill r =>
    let r := if t.latchEst && r.lost = 0 then { r with lost := 1 } else r
    let p := s.billPass e t c r h.adds
    (s.contribute e t.num c p.1).setEngine k (fun x => { x with
      run := some { h with ready := true, wait := none, pub := .bill p.1, adds := p.2, quality := p.1.quality } })
  | _ =>
    let q := if t.kind = 0 ∨ t.kind = 2 then Nat.lor h.quality (flag t.latchDel 1) else h.quality
    s.setEngine k (fun x => { x with run := some { h with ready := true, wait := none, quality := q } })

/-- Go on with a stitch on an engine: wait for samples or contributions, compute, wait for the gate, or pass it. A stitch
whose gate already holds its number is marked DONE (R133); one whose boundary records are gone commits as lost. -/
def State.go (s : State) (k : Nat) (h : Held) : State :=
  match s.entryOf h with
  | none => s.setEngine k (fun x => { x with run := none })
  | some t =>
    let x := s.streamOf t
    if !newer t.seq x.gate then s.finish k h
    else
      let e := s.atEpoch t.epoch
      match s.cycAt t.vg t.bslot with
      | none => s.finish k h
      | some (_, b1, c) =>
        match (if h.wait = some .gate then none else s.waitOf e t c) with
        | some w => s.suspend k h w
        | none =>
          let h := if h.wait = some .gate then h else
            let r := s.compute e t b1 c
            { h with pub := r.1, adds := r.2.1, quality := r.2.2 }
          if x.gate + 1 = t.seq then s.gatePass k h t b1 c else s.suspend k h .gate

/-- Claim an entry (R128). -/
def State.claim (s : State) (k q far : Nat) (t : Stitch) : State :=
  let h : Held := { q := q, seq := t.seq, pat := t.pat, kind := t.kind, num := t.num }
  let s := if t.returned then s else s.setStream (streamKey t.pat t.kind t.num) (fun x => { x with claim := t.seq })
  let s := s.setEntry h (fun x => { x with st := .claimed, engine := k })
  let s := s.setEng (fun x => { x with
    stolenLocal := if far = 1 then (x.stolenLocal + 1) % 2 ^ 32 else x.stolenLocal
    stolenRemote := if far = 2 then (x.stolenRemote + 1) % 2 ^ 32 else x.stolenRemote })
  State.go s k h

/-- A suspended stitch whose awaited happening has occurred (R127). -/
def State.resumable (s : State) (h : Held) : Bool :=
  match s.entryOf h with
  | none => true
  | some t =>
    match h.wait with
    | some .gate => (s.streamOf t).gate + 1 = t.seq || !newer t.seq (s.streamOf t).gate
    | _ => match s.cycAt t.vg t.bslot with
      | none => true
      | some x => (s.waitOf (s.atEpoch t.epoch) t x.2.2).isNone

/-- An engine may take work: in service, nothing running. -/
def State.idleEngine (s : State) (k : Nat) : Bool := s.inService k && (s.eng.engines.get k).run.isNone

/-- Resume the first stitch that can go on. -/
def State.resume (s : State) (k : Nat) : State :=
  match (s.eng.engines.get k).susp.find? s.resumable with
  | none => s
  | some h =>
    let s := s.setEngine k (fun x => { x with susp := x.susp.erase h })
    (s.setEntry h (fun t => { t with st := .claimed })).go k h

/-! ### Commits (R19, R20) -/

/-- The bank holds every operation on a line whose recovery runs (R286). -/
def State.lineHeld (s : State) : AddTo → Bool
  | .line n => s.mem.recovering.any (fun x => decide (x.1 = n))
  | _ => false

/-- Issue the next add of the running stitch of an engine (R19, R20). -/
def State.addNext (s : State) (k : Nat) : State :=
  match (s.eng.engines.get k).run with
  | none => s
  | some h =>
    match h.ready, h.adds, s.entryOf h with
    | true, a :: rest, some t =>
      match s.cycAt t.vg t.bslot, s.lineHeld a.1 with
      | none, _ => s
      | _, true => s
      | some x, false =>
        let s := s.setEntry h (fun t => { t with st := .committing })
        let s := s.seqAdd (s.atEpoch t.epoch) a.1 a.2 t.seq x.2.2
        s.setEngine k (fun y => { y with run := some { h with adds := rest } })
    | _, _, _ => s

/-- Advance the gate of the running stitch whose adds are all issued, and publish (R20) (DEDUCED, log 51). -/
def State.gateAdvance (s : State) (k : Nat) : State :=
  match (s.eng.engines.get k).run with
  | none => s
  | some h =>
    match h.ready, h.adds, s.entryOf h with
    | true, [], some t =>
      match s.cycAt t.vg t.bslot with
      | none => s.finish k h
      | some (b0, b1, c) =>
        let e := s.atEpoch t.epoch
        let key := streamKey t.pat t.kind t.num
        if (s.eng.streams.get key).gate + 1 ≠ t.seq then s.finish k h
        else
          let s := s.setStream key (fun x => { x with gate := t.seq })
          let s := s.publish e t b0 b1 c h.pub h.quality
          let s := if t.pat = 1 ∨ t.pat = 7 then s.unitsGate e (subjOf t.kind t.num) t.seq c.endT h.quality else s
          s.finish k h
    | _, _, _ => s

/-- Complete a committing stitch of an engine: its remaining adds and its gate (R134). -/
def State.commitOne (s : State) (k : Nat) : State :=
  match (s.eng.engines.get k).run with
  | none => s
  | some h =>
    match s.entryOf h with
    | some t => if t.st = .committing then
        State.gateAdvance (h.adds.foldl (fun s _ => s.addNext k) s) k else s
    | none => s

/-- Every committing stitch is completed at a trip (R134). -/
def State.commitAll (s : State) : State := (List.range 32).foldl State.commitOne s

/-! ### Resets (R22, R135-R137) -/

/-- Return every stitch that an engine holds to its queue (R22, R121). -/
def State.giveBack (s : State) (k : Nat) : State × Nat :=
  let x := s.eng.engines.get k
  let l := x.run.toList ++ x.susp
  let s := l.foldl (fun s h => s.setEntry h (fun t => { t with st := .waiting, returned := true, engine := 0 })) s
  ((s.setEngine k (fun x => { x with run := none, susp := [] })).setEng (fun y => { y with
    returned := (y.returned + l.length) % 2 ^ 32 }), l.length)

/-- The instants of counted resets that still lie within the window, with a new one. -/
def State.resetsNow (s : State) (l : List Nat) (counted : Bool) : List Nat :=
  let l := l.filter (fun t => decide (s.clock.clk < t + s.cfg oEngineResetWindowS * 1000 * clkMs))
  if counted then s.clock.clk :: l else l

/-- Reset a cluster (R135): every engine's stitches are returned and EV56 fires with 0xFF (DEDUCED, log 41). -/
def State.resetCluster (s : State) (cl cause : Nat) : State :=
  let r := (rangeFrom (8 * cl) 8).foldl (fun (a : State × Nat) k =>
    let g := a.1.giveBack k
    (g.1.setEngine k (fun x => { x with st := if x.st = .inService ∨ x.st = .restarting then .restarting else x.st }), a.2 + g.2)) (s, 0)
  let s := r.1.setCluster cl (fun x => { x with
    st := .restarting
    svc := decide (cause = 7)
    count := sat 255 (x.count + 1)
    resets := s.resetsNow x.resets (decide (cause ≠ 7)) })
  s.raise 56 (le 1 0xFF ++ le 1 cl ++ le 1 cause ++ le 2 r.2)

/-- Reset an engine (R22, R135): a second engine of its cluster within 1 ms makes it a cluster reset (DEDUCED, log 41). -/
def State.resetEngine (s : State) (k cause : Nat) : State :=
  let g := s.giveBack k
  let s := g.1.setEngine k (fun x => { x with
    st := .restarting
    lastReset := some s.clock.clk
    resets := s.resetsNow x.resets (decide (cause ≠ 4)) })
  let s := s.raise 56 (le 1 k ++ le 1 (k / 8) ++ le 1 cause ++ le 2 g.2)
  let other := (rangeFrom (k / 8 * 8) 8).any (fun j => decide (j ≠ k) && (match (s.eng.engines.get j).lastReset with
    | none => false
    | some t => decide (s.clock.clk ≤ t + clkMs)))
  if other then s.resetCluster (k / 8) 5 else s

/-- The enable bits of an engine and a cluster (Table 5.9). -/
def State.engineOn (s : State) (k : Nat) : Bool := bit (s.cfg oEngineEnable) k
def State.clusterOn (s : State) (c : Nat) : Bool := bit (s.cfg oClusterEnable) c

/-- Whether a unit's resets have reached ENGINE_RESET_LIMIT within the window (R137). -/
def State.atLimit (s : State) (l : List Nat) : Bool := decide (s.cfg oEngineResetLimit ≤ (s.resetsNow l false).length)

/-- An engine ends its restart (R137). -/
def State.engineBack (s : State) (k : Nat) (ok : Bool) : State :=
  s.setEngine k (fun x =>
    if x.st = .starting ∨ x.st = .restarting then
      { x with st := if !ok || s.atLimit x.resets then .outOfService else if s.engineOn k then .inService else .off }
    else x)

/-- A cluster ends its restart, and with it its engines (R135, R137); EV58 after a reset. -/
def State.clusterBack (s : State) (c : Nat) (ok : Bool) : State :=
  let x := s.eng.clusters.get c
  if x.st ≠ .starting ∧ x.st ≠ .restarting then s
  else
    let out := !ok || s.atLimit x.resets
    let limit := s.atLimit x.resets
    let s := (rangeFrom (8 * c) 8).foldl (fun s k => s.engineBack k ok) s
    let s := s.setCluster c (fun x => { x with st := if out then .outOfService else if s.clusterOn c then .inService else .off, svc := false })
    if x.st = .starting then s else s.ev58 (2 + c) (if limit then 4 else if x.svc then 1 else 0)

/-- An engine whose enable bit, or its cluster's, has been cleared leaves service once it holds no stitch (R150). -/
def State.drained (s : State) (k : Nat) : State :=
  let x := s.eng.engines.get k
  let s := if x.draining ∧ x.run.isNone ∧ x.susp = [] then s.setEngine k (fun x => { x with st := .off, draining := false }) else s
  let c := k / 8
  if (s.eng.clusters.get c).draining ∧
      (rangeFrom (8 * c) 8).all (fun j => (s.eng.engines.get j).run.isNone && (s.eng.engines.get j).susp.isEmpty) then
    s.setCluster c (fun x => { x with st := .off, draining := false })
  else s

/-- A cleared enable bit of an engine (R150). -/
def State.engineOff (s : State) (k : Nat) : State :=
  let x := s.eng.engines.get k
  if x.st = .inService then (s.setEngine k (fun x => { x with draining := true })).drained k
  else if x.st = .outOfService then s.setEngine k (fun x => { x with st := .off })
  else s

/-- A set enable bit of an engine: it is readmitted after its built-in test; the reset is of cause 0x04 (R137, R150) (DEDUCED, log 41). -/
def State.engineReadmit (s : State) (k : Nat) : State :=
  if !s.clusterOn (k / 8) then s
  else
    let g := s.giveBack k
    let s := g.1.setEngine k (fun x => { x with st := .restarting, draining := false, resets := [] })
    s.raise 56 (le 1 k ++ le 1 (k / 8) ++ le 1 4 ++ le 2 g.2)

/-- A cleared enable bit of a cluster: its engines complete their stitches and leave service with it (R150). -/
def State.clusterOff (s : State) (c : Nat) : State :=
  let s := if (s.eng.clusters.get c).st = .inService then s.setCluster c (fun x => { x with draining := true })
    else if (s.eng.clusters.get c).st = .outOfService then s.setCluster c (fun x => { x with st := .off })
    else s
  ((rangeFrom (8 * c) 8).foldl State.engineOff s).drained (8 * c)

/-- A set enable bit of a cluster: it is readmitted with its engines; the reset is of cause 0x07 (R137, R150) (DEDUCED, log 41). -/
def State.clusterReadmit (s : State) (c : Nat) : State :=
  let s := s.setCluster c (fun x => { x with draining := false, resets := [] })
  let s := (rangeFrom (8 * c) 8).foldl (fun s k => s.setEngine k (fun x => { x with
    draining := false, resets := [], st := if s.engineOn k then .restarting else x.st })) s
  s.resetCluster c 7

/-! ### Admission (R140, R141, R146) -/

/-- The measured frequency of a group, in hertz: the nominal one before a period is known. -/
def State.groupHz (s : State) (g : Nat) : Rat :=
  let p := (s.groups.get g).period
  if p = 0 then (s.cfg (oVgNominalHz g) : Nat) else (4096000 * 65536 : Rat) / (p : Nat)

/-- Whether the active configuration issues a stream's stitches now: calibration, drift and capture streams come and go. -/
def State.streamRuns (s : State) (g : Nat) (x : Nat × Nat × Nat) : Bool :=
  if x.1 = 10 then (s.selfChans g).contains x.2.2
  else if x.1 = 8 then s.captStream || (List.range 8).any (fun k => (s.capt.get k).busy && decide ((s.capt.get k).ch = x.2.2))
  else true

/-- The streams that issue stitches, with their groups. -/
def State.runningStreams (s : State) : List (Nat × Nat × Nat × Nat) := s.allStreams.filter (fun x => s.streamRuns x.1 x.2)

/-- The nominal engine cycles of a pattern: the mean over the stitches of the active configuration (R140). -/
def State.meanNominal (s : State) (pat : Nat) : Nat :=
  let l := s.runningStreams.filter (fun x => x.2.1 = pat)
  if l = [] then 0
  else (l.map (fun x => s.nominal pat x.2.2.2 x.1 false * s.perMinute pat x.1)).foldl (· + ·) 0 /
    (l.map (fun x => s.perMinute pat x.1)).foldl (· + ·) 0

/-- Stitches of a stream per second at a frequency. -/
def State.perSecond (s : State) (pat g : Nat) (hz : Rat) : Rat := if 3 ≤ pat ∧ pat ≤ 6 then hz / (s.winN g : Nat) else hz

/-- The demand of some patterns in MMAC/s: measured engine cycles times 1.4, or the nominal MAC. -/
def State.demandOf (s : State) (cost : KMap Nat) (pats : List Nat) : Rat :=
  sumR ((s.runningStreams.filter (fun x => pats.contains x.2.1)).map (fun x =>
    let mac : Rat := if cost.get x.2.1 = 0 then (s.mac5 x.2.1 x.2.2.2 x.1 : Rat) / 5 else (cost.get x.2.1 : Rat) * 14 / 10
    mac * s.perSecond x.2.1 x.1 (s.groupHz x.1) / 1000000))

/-- The P0 demand of R119: nominal BILL and BAL costs at 69 Hz, in MMAC/s. -/
def State.p0Nominal (e : State) : Rat :=
  sumR ((e.allStreams.filter (fun x => decide (x.2.1 = 1) || decide (x.2.1 = 7))).map (fun x =>
    (e.mac5 x.2.1 x.2.2.2 x.1 : Rat) / 5 * 69 / 1000000))

/-- The admission values of R141: P2, CAPT and SUPRA. -/
def admission (target p01 p2 capt supra : Rat) (captFirst : Bool) : Nat × Nat × Nat :=
  let room := target - p01
  let share (r d : Rat) : Nat := if d = 0 then 16 else min 16 ((16 * r / d).floor.toNat)
  if p2 ≤ room then
    let room := room - p2
    let d1 := if captFirst then capt else supra
    let d2 := if captFirst then supra else capt
    let a1 := share room d1
    let room := room - d1 * (a1 : Rat) / 16
    let a2 := share room d2
    (16, if captFirst then (a1, a2) else (a2, a1))
  else (min 8 ((16 * max room 0 / p2).floor.toNat), 0, 0)

/-- An admission evaluation (R140, R141, R145, R146). -/
def State.evaluate (s : State) (measured : List Nat) : State :=
  let cost := (List.range 10).foldl (fun (m : KMap Nat) i => KMap.set m (i + 1) (measured.getD i 0)) []
  let n := s.enginesIn.length
  let cap := 275 * n
  let target : Rat := (cap : Rat) * (s.cfg oOverloadTargetPct : Rat) / 100
  let d (l : List Nat) : Rat := s.demandOf cost l
  let p01 := d [1, 7] + d [2, 9]
  let p2 := d [3, 4, 6, 10]
  let capt := d [8]
  let supra := d [5]
  let all := p01 + p2 + capt + supra
  let a := admission target p01 p2 capt supra (decide (s.cfg oP3Order = 0))
  let got := p01 + p2 * (a.1 : Rat) / 16 + capt * (a.2.1 : Rat) / 16 + supra * (a.2.2 : Rat) / 16
  let s := s.setEng (fun x => { x with
    cost := cost, capacity := cap, demand := all.floor.toNat, admitted := got.floor.toNat, p0demand := s.p0Nominal.floor.toNat,
    p2 := a.1, capt := a.2.1, supra := a.2.2, noCluster := x.noCluster && decide (n = 0) })
  if s.eng.ovr then
    if all * 100 ≤ ((s.cfg oOverloadTargetPct : Int) - 5 : Int) * (cap : Rat) then
      let k := s.eng.exitCount + 1
      if s.cfg oOverloadExitHoldS ≤ k then
        (s.setEng (fun x => { x with ovr := false, exitCount := 0, p2 := 16, capt := 16, supra := 16 })).ev57 1
      else s.setEng (fun x => { x with exitCount := k })
    else s.setEng (fun x => { x with exitCount := 0 })
  else if target < all then
    (s.setEng (fun x => { x with ovr := true, exitCount := 0, overEntries := (x.overEntries + 1) % 2 ^ 32 })).ev57 0
  else s

end Sys2Proof.Machine
end

