-- ==== Sys2Proof/Machine/Rules.lean ====
section
/-! DEFINITION. The values that an object's card or bit map permits (step 5 of Table 2.4) and the checks that span several
objects (step 9, R43). -/
namespace Sys2Proof.Machine

/-! ### Step 5: values of one object -/

/-- The object of a key that lies within an array of n elements from a first key on. -/
def within (key first n : Nat) : Bool := decide (first ≤ key) && decide (key < first + n)

/-- TF_BLOCK_WH: finite limits rise strictly and nothing finite follows 0xFFFFFFFF (R235). -/
def blocksOk (v : Nat) : Bool :=
  let l := (List.range 3).map (fun k => nb v (4 * k) 4)
  (List.range 2).all (fun k =>
    let a := l.getD k 0
    let b := l.getD (k + 1) 0
    if a = 0xFFFFFFFF then decide (b = 0xFFFFFFFF) else decide (a < b))

/-- CAL_DAY_PROFILE: no RES bit, every minute below 1,440, enabled points ascending (Table 9.4, R237). -/
def profileOk (v : Nat) : Bool :=
  let l := (List.range 8).map (fun k => nb v (2 * k) 2)
  let on := (l.filter (fun w => bit w 15)).map (fun w => bits w 10 0)
  l.all (fun w => !bit w 11 && decide (bits w 10 0 < 1440)) &&
    (on.zip (on.drop 1)).all (fun p => decide (p.1 < p.2))

/-- A written temperature point (Table 10.1): fields within their limits, TEMP within 10 degC of the index (R253). -/
def pointOk (k v : Nat) : Bool :=
  decide (ptFlags v < 16) && decide (ptRange v ≤ 4) && decide ((ptPhase v).natAbs ≤ 3000) &&
    decide (-4000000 ≤ ptGain v) && decide (ptGain v ≤ 3999511) &&
    decide (-1000000 ≤ ptOffset v) && decide (ptOffset v ≤ 999511) &&
    decide ((ptTemp v * 10 - nominalMc k).natAbs ≤ 10000)

/-- A waveform table (R395): PHASES at most 32, RES bytes 0, no level 0b11, words beyond PHASES zero. -/
def waveOk (v : Nat) : Bool :=
  let b := le 36 v
  let n := (b.getD 0 0).toNat
  decide (n ≤ 32) && decide (nb v 1 3 = 0) && (List.range 32).all (fun k =>
    let w := (b.getD (4 + k) 0).toNat
    (List.range 4).all (fun i => decide (bits w (2 * i + 1) (2 * i) ≠ 3)) && (decide (k < n) || decide (w = 0)))

/-- TAMP_RESPONSE[i] (Table 14.12, R387). -/
def responseOk (i v : Nat) : Bool :=
  let sev := bits v 15 14
  let soft := i = 15 ∨ i = 16
  (decide (sev = 3) == bit v 4) && (decide (sev < 2) || bit v 0) &&
    (if soft then !bit v 4 && !bit v 1 else !bit v 8)

/-- An I2C_SENSOR word (Table 16.13). -/
def sensorOk (v : Nat) : Bool :=
  let a := bits v 46 40
  decide (8 ≤ a) && decide (a < 0x78) && decide (bits v 15 0 ≠ 0)

/-- Snapshot and reset subjects (Table 7.4): an account below 240 or a balance group below 4. -/
def subjectOk (v : Nat) : Bool :=
  (decide (bits v 15 14 = 0) && decide (bits v 9 0 < 240)) || (decide (bits v 15 14 = 2) && decide (bits v 9 0 < 4))

/-- The rules of single objects that a range or a mask does not express (step 5 of Table 2.4). -/
def State.valueOk (s : State) (key v : Nat) : Bool :=
  if within key (oVgNominalHz 0) 4 then decide (v = 50 ∨ v = 60)
  else if within key (oHkStep 0) 32 then decide (bits v 4 0 < 0x0F) && decide (bits v 6 5 ≠ 3)
  else if within key (oFtripAssign 0) 8 then decide (bits v 3 2 ≠ 3)
  else if key = oHomeQueueMap then (List.range 240).all (fun a => decide (nb v a 1 < 32) || decide (nb v a 1 = 255))
  else if within key 0x500000 0x2000 then
    decide (mePhase v ≤ 4) && ((decide (meKind v = 0) && decide (meNumber v < 240)) || (decide (meKind v = 2) && decide (meNumber v < 4)))
  else if within key (oPulseConfig 0) 8 then decide (1 ≤ bits v 15 8) && decide (bits v 15 8 ≤ 250)
  else if key = oDemandPeriodS ∨ key = oProfilePeriodS then decide (3600 % v = 0)
  else if within key (oBgWindowS 0) 4 then decide (3600 % v = 0)
  else if within key (oTfParams 0) 16 then decide (1 ≤ bits v 15 8) && decide (bits v 15 8 ≤ 28) && decide (bits v 1 0 ≠ 3)
  else if within key (oTfBlockWh 0) 16 then blocksOk v
  else if key = oCalYearTable then (List.range 366).all (fun d => !bit (nb v d 1) 6)
  else if key = oCalNight then decide (bits v 26 16 < 1440) && decide (bits v 10 0 < 1440)
  else if within key (oCalDayProfile 0) 64 then profileOk v
  else if within (key / 256) 0x4100 240 && decide (key % 256 = 5) then decide (bits v 5 4 ≠ 3)
  else if within (key / 256) 0x4100 240 && decide (key % 256 = 3) then decide (v < 16) || decide (v = 255)
  else if within (key / 256) 0x4100 240 && decide (key % 256 = 10) then decide (bits v 10 8 ≤ 4)
  else if within (key / 256) 0x3100 256 && within (key % 256) 2 5 then pointOk (key % 256 - 2) v
  else if key = oCsStep then decide (bits v 6 4 ≠ 5) && decide (bits v 6 4 ≠ 6)
  else if key = oMarchStartup ∨ key = oMarchCommand then
    decide (bits v 19 18 ≠ 3) && decide (bits v 17 16 < 2) && (decide (key = oMarchStartup) || decide (bits v 15 0 ≠ 0))
  else if key = oMemRemap then (List.range 256).all (fun e => decide (bits (nb v (2 * e) 2) 12 8 = 0))
  else if within key (oTampInputCfg 0) 8 then
    decide (bits v 23 16 ≠ 0) && decide (bits v 2 1 ≠ 3) && !(decide (bits v 2 1 = 2) && bit v 3)
  else if within key (oTampResponse 0) 18 then responseOk (key - oTampResponse 0) v
  else if key = oMaintUntil then decide (v ≤ s.now + 86400 * 1024)
  else if key = oDispOptions then decide (bits v 7 6 ≠ 3)
  else if within key (oWfTable 0) 8 then waveOk v
  else if within key (oI2cSensor 0) 4 then sensorOk v
  else if key = oEventRingMask then bit v 8 && bit v 14
  else if key = oSnapReqH ∨ key = oSnapReqF ∨ key = oSnapReqS ∨ key = oMdReset then subjectOk v
  else if key = oTamperRelease then decide (v < 240) || decide (v = 0xFFFF)
  else true

/-! ### The set of values a cross-object check sees (R43) -/

/-- The values of one table laid over the active ones. -/
def overlay (base top : KMap (Option Nat)) : KMap (Option Nat) :=
  top.foldl (fun (m : KMap (Option Nat)) e => match e.2 with
    | none => m
    | some v => KMap.set m e.1 (if v = dfltOf e.1 then none else some v)) base

/-- The state seen with active values, waiting shadows, values for the next start, and held shadows when asked. -/
def State.view (s : State) (held : Bool) : State :=
  let a := overlay (overlay s.dict.active s.dict.shadow) s.dict.nextStart
  { s with dict := { s.dict with active := if held then overlay a s.dict.held else a } }

/-- An enable that is 1 in its active value or in a waiting or held shadow counts as enabled (R89, R153): s holds the
values in force, v the view. -/
def State.orOn (s v : State) (key : Nat) : Bool := s.cfgB key || s.dict.shadow.get key = some 1 || s.dict.held.get key = some 1 || v.cfgB key

/-- The view in which ACC_ENABLE and VG_ENABLE count as R89 and R153 count them. -/
def State.orView (s v : State) : State :=
  let keys := (s.dict.active.filter (fun e => e.2 = some 1)).map Prod.fst ++
    (s.dict.shadow.filter (fun e => e.2 = some 1)).map Prod.fst ++ (s.dict.held.filter (fun e => e.2 = some 1)).map Prod.fst
  (keys.filter (fun k => (within (k / 256) 0x4000 240 && decide (k % 256 = 1)) || within k (oVgEnable 0) 4)).foldl
    (fun v k => v.setCfg k 1) v

/-! ### Step 9: rules over several objects -/

/-- All members of a list are equal. -/
def sameAll (l : List Nat) : Bool := l.all (fun x => decide (x = l.headD 0))

/-- Presets of a list of channels agree (R89) (DEDUCED, log 53). -/
def State.onePreset (v : State) (l : List Nat) : Bool := sameAll (l.map (fun c => v.cfg (oChPreset c)))

/-- No repeats in a list. -/
def distinct : List Nat → Bool
  | [] => true
  | x :: t => !t.contains x && distinct t

/-- Table 6.2 and R153 for one enabled account (DEDUCED, log 53). -/
def State.wiringOk (v : State) (a : Nat) : Bool :=
  let sl := v.slots a
  let roles := sl.map (fun x => x.2.1)
  let ph := (List.range 3).filter roles.contains
  let n := roles.contains 3
  let t := v.accType a
  distinct roles &&
    (if t = 0 then decide (ph.length = 1) else if t = 1 then decide (ph.length = 2)
     else if t = 2 then !n && (decide (ph = [0, 2]) || decide (ph = [0, 1, 2])) else decide (ph = [0, 1, 2])) &&
    (v.acctPhases a).all (fun p => (v.mapCh (v.accVg a) p).isSome) &&
    sl.all (fun x => decide (v.cfg (oChKind x.2.2) = 1))

/-- R89 for one enabled account (DEDUCED, log 53). -/
def State.acctPreset (v : State) (a : Nat) : Bool := v.onePreset (v.acctChans a)

/-- The channels that PQ_GROUP_MAP of a group names. -/
def State.mapChans (v : State) (g : Nat) : List Nat := (List.range 4).filterMap (v.mapCh g)

/-- The channels that VG_PHASES of a group names. -/
def State.wordChans (v : State) (g : Nat) : List Nat := (v.vgNamed g).map Prod.snd

/-- R180 for one map: enabled voltage channels of one preset, that of the group when it is enabled (DEDUCED, log 53). -/
def State.mapOk (v : State) (g : Nat) : Bool :=
  let l := v.mapChans g
  l.all (fun c => v.cfgB (oChEnable c) && decide (v.cfg (oChKind c) = 0)) &&
    v.onePreset (l ++ (if v.cfgB (oVgEnable g) then v.wordChans g else []))

/-- R113 for the word of one enabled group. -/
def State.wordOk (v : State) (g : Nat) : Bool :=
  let l := v.wordChans g
  l.all (fun c => v.cfgB (oChEnable c) && decide (v.cfg (oChKind c) = 0)) && distinct l && v.onePreset l &&
    (v.vgOn.filter (· ≠ g)).all (fun h => (v.wordChans h).all (fun c => !l.contains c))

/-- R180 and R168 for the flicker and supraharmonic sets, and Table 7.12 for the recorded spectra. -/
def State.flickOk (v : State) : Bool := (setList (v.cfg oPqFlickEnable) 256).all (fun c => decide (v.cfg (oChKind c) = 0))
def State.supraOk (v : State) : Bool := (setList (v.cfg oPqSupraEnable) 256).all (fun c => decide (v.cfg (oChPreset c) = 4))
def State.spectraOk (v : State) : Bool :=
  let k := v.cfg oProfileSpectra
  (setList (v.cfg oProfileSpectraCh) 256).all (fun c =>
    (!bit k 0 || inSet (v.cfg oPqHarmEnable) c) && (!bit k 2 || inSet (v.cfg oPqSupraEnable) c))

/-- R182. -/
def State.captOk (v : State) : Bool :=
  (setList (v.cfg oCaptChannels) 256).all (fun c => v.cfgB (oChEnable c)) && decide (v.captCycles ≠ 0) && decide (v.captPre < v.captCycles)

/-- R94 for one channel. -/
def State.threshOk (v : State) (ch : Nat) : Bool :=
  let h := v.cfg (oThHighPpm ch)
  let l := v.cfg (oThLowPpm ch)
  decide (h = 2000000) || decide (l = 0) || decide (l + 2 * v.cfg (oThHystPpm ch) ≤ h)

/-- R210 for one enabled balance group. -/
def State.balanceOk (v : State) (g : Nat) : Bool :=
  let f := v.feeders g
  let m := v.members g
  f ≠ [] && (f ++ m).all (fun a => v.cfgB (oAccEnable a) && decide (v.accVg a = v.bgVg g)) &&
    f.all (fun a => decide (v.cfg (oAccRole a) = 1) && !v.twoWatt a && !m.contains a)

/-- Whether an account is named in an enabled balance group. -/
def State.inBalance (v : State) (a : Nat) : Bool := v.bgOn.any (fun g => (v.feeders g).contains a || (v.members g).contains a)

/-- The unit class of a quantity code (Tables 6.7 and 8.2). -/
def unitOf (c : Nat) : Nat :=
  if c ≤ 4 ∨ 0x20 ≤ c then 0 else if c ≤ 0x0C then 1 else if c ≤ 0x12 then 2 else if c = 0x13 then 3 else 4

/-- R187 and R216 for one enabled entry alone. -/
def entryOk (w : Nat) : Bool :=
  (if meKind w = 0 then decide (1 ≤ meCode w) && decide (meCode w ≤ 0x14)
   else decide (0x20 ≤ meCode w) && decide (meCode w ≤ 0x26)) &&
    (decide (mePhase w ≠ 4) || decide (meCode w = 0x14))

/-- The identity of an entry: KIND, NUMBER, CODE and PHASE. -/
def meIdent (w : Nat) : Nat × Nat × Nat × Nat := (meKind w, meNumber w, meCode w, mePhase w)

/-- R187 for one entry against all enabled entries of the view. -/
def State.entriesOk (v : State) (n : Nat) : Bool :=
  let w := v.cfg (oMapEntry n)
  if !meEnable w then true
  else
    let all := v.mapEntries
    let others := (all.filter (fun e => e.1 ≠ n)).map Prod.snd
    let same := others.filter (fun x => (mePulse w).isSome && decide (mePulse x = mePulse w))
    entryOk w && others.all (fun x => decide (meIdent x ≠ meIdent w)) &&
      decide (same.length < 8) && same.all (fun x => decide (unitOf (meCode x) = unitOf (meCode w))) &&
      others.all (fun x => (meSlot w).isNone || decide (meSlot x ≠ meSlot w)) &&
      decide ((all.filter (fun e => meDemand e.2)).length ≤ 512) && decide ((all.filter (fun e => meProfile e.2)).length ≤ 1024)

/-- R243 for one account: slots within the chain, and named by one enabled account only. -/
def State.relayOk (v : State) (a : Nat) : Bool :=
  let l := v.relaySlots a
  l.all (fun i => decide (i < v.cfg oRlyChainLength)) &&
    (!v.cfgB (oAccEnable a) || (v.enabledAccts.filter (· ≠ a)).all (fun b => (v.relaySlots b).all (fun i => !l.contains i)))

/-- The P0 demand of R16 and R119 lies within 2.2 GMAC/s. -/
def State.p0Ok (v : State) : Bool := decide (v.p0Nominal ≤ 2200)

/-- The P0 demand lies within the capacity of the engines that two masks leave (R150). -/
def State.enginesOk (v : State) : Bool :=
  let n := ((List.range 32).filter (fun k => v.engineOn k && v.clusterOn (k / 8))).length
  decide (v.p0Nominal ≤ 275 * (n : Nat))

/-- The demand sub-periods last whole seconds (Table 7.8). -/
def State.demandOk (v : State) : Bool := decide (v.cfg oDemandPeriodS % v.cfg oDemandSubperiods = 0)

/-- The band edges ascend (R396). -/
def State.edgesOk (v : State) : Bool := (List.range 6).all (fun e => decide (v.cfgI 4 (oTbEdgeMc e) < v.cfgI 4 (oTbEdgeMc (e + 1))))

/-- The rules that channels, accounts, groups and maps keep together (R89, R153, R168, R180): v counts enables as R89 does (DEDUCED, log 53). -/
def State.wiringAll (v : State) : Bool :=
  v.enabledAccts.all (fun a => v.wiringOk a && v.acctPreset a) && v.vgOn.all (fun g => v.onePreset (v.wordChans g)) &&
    (List.range 4).all v.mapOk && v.supraOk && v.flickOk

/-- The checks of step 9 for a write of one object, made on the view with the new value (R43): s before, v the view with
the value (DEDUCED, log 53). -/
def State.crossOk (s v : State) (key val : Nat) : Bool :=
  let o := s.orView v
  let i := key / 256
  let e := key % 256
  if within i 0x3000 256 then
    let ch := i - 0x3000
    if e = 1 then
      (decide (val ≠ 0) || !o.enabledAccts.any (fun a => (o.acctChans a).contains ch)) && o.wiringAll &&
        (List.range 4).all o.mapOk && o.captOk
    else if e = 2 then o.wiringAll
    else if e = 3 then !(s.mods.get ch).retired
    else if e = 4 then o.wiringAll && o.p0Ok
    else true
  else if within i 0x3200 256 then (decide (e < 4) || decide (6 < e)) || v.threshOk (i - 0x3200)
  else if within key (oVgEnable 0) 4 then
    let g := key - oVgEnable 0
    if val = 0 then !o.enabledAccts.any (fun a => decide (o.accVg a = g))
    else o.wordOk g && o.wiringAll && o.p0Ok
  else if within key (oVgPhases 0) 4 then
    let g := key - oVgPhases 0
    !o.cfgB (oVgEnable g) || (o.wordOk g && o.wiringAll)
  else if within i 0x4000 240 then
    let a := i - 0x4000
    if e = 1 then
      (decide (val ≠ 0) || !v.inBalance a) && o.wiringAll && v.relayOk a && o.p0Ok
    else if e = 4 then !(v.inBalance a && decide (s.accVg a ≠ val)) && o.wiringAll && o.p0Ok
    else if e = 2 ∨ e = 3 ∨ e = 5 then o.wiringAll && o.bgOn.all o.balanceOk && o.p0Ok
    else true
  else if within key (oPqGroupMap 0) 4 then o.wiringAll && o.p0Ok
  else if key = oPqFlickEnable then o.flickOk
  else if key = oPqSupraEnable then o.supraOk && o.spectraOk
  else if key = oPqHarmEnable ∨ key = oProfileSpectra ∨ key = oProfileSpectraCh then o.spectraOk
  else if key = oCaptChannels ∨ key = oCaptOptions then o.captOk
  else if within key 0x500000 0x2000 then
    let n := key - 0x500000
    v.entriesOk n &&
      (decide (meIdent (s.cfg key) = meIdent val) || decide ((s.acc.lines.get n).value = 0))
  else if within i 0x4400 1 && within e 1 12 then
    o.bgOn.all o.balanceOk && o.p0Ok
  else if key = oDemandPeriodS ∨ key = oDemandSubperiods then v.demandOk
  else if within i 0x4100 240 && decide (e = 10) then v.relayOk (i - 0x4100)
  else if key = oRlyChainLength then v.enabledAccts.all v.relayOk
  else if key = oEngineEnable ∨ key = oClusterEnable then v.enginesOk
  else if within key (oTbEdgeMc 0) 7 then v.edgesOk
  else if key = oHkRun then decide (val = 0) || v.hkRunOk
  else true

end Sys2Proof.Machine
end

