-- ==== Sys2Proof/Machine/SpareOps.lean ====
section
/-! DEFINITION. Spare converters: connection, parallel runs, alignment, return, retirement (R62-R73, R76). -/
namespace Sys2Proof.Machine

/-- Modulator clocks from the connection of a converter to its valid output: 16 clocks and twice the group delay (R62). -/
def State.fillClk (s : State) (ch : Nat) : Nat := 16 + 24 * presetD (s.chans.get ch).preset

/-- Raise EV24 and EV25 (Table 17.5). -/
def State.ev24 (s : State) (ch k cause : Nat) : State := s.raise 24 (le 1 ch ++ le 1 k ++ le 1 cause)
def State.ev25 (s : State) (conv cause : Nat) : State := s.raise 25 (le 2 conv ++ le 1 cause)

/-- Program a converter's bit in MOD_RETIRED (R76): channel modulators 0-255, spare k as 256 + k. -/
def State.retire (s : State) (m : Nat) : State :=
  let v := Nat.lor (s.cfg oModRetired) (2 ^ m)
  let s := (s.storeTry false oModRetired v 33).setCfg oModRetired v
  let s := { s with dict := { s.dict with nextStart := s.dict.nextStart.upd oModRetired (fun x => x.map (fun y => Nat.lor y (2 ^ m))) } }
  s.setMod m (fun x => { x with retired := true })

/-- Park a spare on its reference, keeping its slot open when asked (R62, R66). -/
def State.park (s : State) (k : Nat) (stage : SpareStage) : State :=
  s.setSpare k (fun p => { p with
    st := if p.st = .failed then .failed else .idle, stage := stage,
    ch := if stage = .none then none else p.ch, own := [], spare := [] })

/-- Connect a spare to a channel's buffer output for a gapless handover (R62 step 1). -/
def State.connect (s : State) (k ch : Nat) (why : SpareWhy) : State :=
  s.setSpare k (fun p => { p with
    st := .parallel, ch := some ch, why := why, stage := .fill, since := s.clock.clk, slotAt := s.clock.clk,
    slotMs := s.cfg oSpareSlotMs, own := [], spare := [], measOffset := 0, measGain := 0,
    selfIssued0 := 0, selfRun0 := 0, selfIssued1 := 0, selfRun1 := 0, foldDue := false })

/-- Let a spare serve a channel whose own modulator has failed, without a parallel run (R68): its alignment is that of its
last accepted run for the channel, else 1 (assumption log 13). -/
def State.takeFailed (s : State) (k ch : Nat) : State :=
  let g := (s.spares.get k).stored.get ch
  let s := s.setSpare k (fun p => { p with
    st := .held, ch := some ch, why := .fault, stage := .fill, since := s.clock.clk, own := [], spare := [],
    g := if g = 0 then 16777216 else g, c := 0, foldDue := true, next := none })
  let s := s.setChan ch (fun x => { x with onSpare := some k, uncovered := false })
  s.ev24 ch k 2

/-- A spare whose channel is back on its own modulator: it takes a waiting failed channel, or parks (R70). -/
def State.spareFree (s : State) (k : Nat) (stage : SpareStage) : State :=
  match (s.spares.get k).next with
  | some f => s.takeFailed k f
  | none => s.park k stage

/-- The own modulator of a channel takes it back (R65 step 3). -/
def State.takeBack (s : State) (k ch : Nat) : State :=
  let why := (s.spares.get k).why
  let s := s.setChan ch (fun x => { x with onSpare := none })
  let s := s.spareFree k (if why = .request then .none else .done)
  if why = .rotation then s.setCal (fun c => { c with visited := c.visited ++ [ch] }) else s

/-- Begin the return of a channel to its own modulator (R65 step 1). -/
def State.beginReturn (s : State) (k : Nat) : State :=
  s.setSpare k (fun p => { p with stage := .ownFill, since := s.clock.clk, own := [], spare := [] })

/-- The pairs of a parallel run: samples that both converters have at one index. -/
def Spare.pairs (p : Spare) : List (Int × Int) :=
  p.own.filterMap (fun o => (p.spare.find? (fun x => x.1 = o.1)).map (fun x => (o.2, x.2)))

/-- The least-squares fit of R63 over 64 pairs: g in 2^-24 and c in 2^-24 codes, and whether it is accepted; a signal
below 1 % of the range peak takes the stored gain. -/
def fitPairs (l : List (Int × Int)) (fs : Nat) (stored : Int) : Int × Int × Bool :=
  let so : Int := l.foldl (fun a x => a + x.1) 0
  let ss : Int := l.foldl (fun a x => a + x.2) 0
  let soo : Int := l.foldl (fun a x => a + x.1 * x.1) 0
  let sos : Int := l.foldl (fun a x => a + x.1 * x.2) 0
  let sss : Int := l.foldl (fun a x => a + x.2 * x.2) 0
  let strong := decide ((64 * (fs : Int)) ^ 2 ≤ 10000 * (64 * soo - so * so))
  let den := 64 * sss - ss * ss
  let g : Int := if strong then (if den = 0 then 0 else rnd (((64 * sos - so * ss) * 16777216 : Int) / (den : Rat)))
    else (if stored = 0 then 16777216 else stored)
  let c : Int := rnd (((so * 16777216 - g * ss : Int) : Rat) / 64)
  let res : Rat := l.foldl (fun a x => a + (((x.1 * 16777216 - (g * x.2 + c) : Int) : Rat)) ^ 2) 0
  let lim : Rat := 64 * (((fs : Nat) : Rat) * 16777216 / 5000) ^ 2
  (g, c, decide ((g - 16777216).natAbs * 100 ≤ 4 * 16777216) && decide (res ≤ lim))

/-- A valid measurement: SELF ran in at least half of the cycles of each half of the slot (R274). -/
def Spare.measured (p : Spare) : Bool :=
  decide (p.selfIssued0 ≤ 2 * p.selfRun0) && decide (p.selfIssued1 ≤ 2 * p.selfRun1)

/-- Points with a valid signature among those used (R274). -/
def State.sigPts (s : State) (ch : Nat) : List Nat :=
  ((s.usedPts ch).map Prod.snd).filter (fun v => bit (ptFlags v) 2)

/-- The drift terms that a slot's measurement gives: gain in 0.01 ppm and offset in nV; none without a signature (R274). -/
def State.driftOf (s : State) (ch : Nat) (gain offset : Int) : Option (Int × Int) :=
  let pts := s.sigPts ch
  if pts = [] then none
  else some (gain - rnd (interp pts s.taCenti ptSigGain), offset - rnd (interp pts s.taCenti ptSigOffset))

/-- Terms beyond the drift limits (R67). -/
def State.driftGainBad (s : State) (g : Int) : Bool := decide (s.cfg oDriftGainLimitPpm * 100 < g.natAbs)
def State.driftOffsetBad (s : State) (o : Int) : Bool := decide (s.cfg oDriftOffsetLimitUv * 1000 < o.natAbs)

/-- Retire the own modulator of a channel that its spare serves: the spare keeps the channel (R67). -/
def State.retireDrift (s : State) (k ch : Nat) : State :=
  let s := s.retire ch
  let s := s.setSpare k (fun p => { p with st := .held, stage := .serving, foldDue := true, own := [], spare := [] })
  let s := s.setCal (fun c => { c with visited := c.visited ++ [ch], nRetired := c.nRetired + 1 })
  (((s.ev24 ch k 1).ev25 ch 1)).passCheck

/-- The gain half of a rotation slot has ended: drift terms are formed and judged (R67, R274). -/
def State.driftJudge (s : State) (k ch : Nat) : State :=
  let p := s.spares.get k
  if !p.measured then s.beginReturn k
  else
    let s := s.setCal (fun c => { c with nMeas := c.nMeas + 1 })
    match s.driftOf ch p.measGain p.measOffset with
    | none => (s.setCal (fun c => { c with untracked := c.untracked.set ch true })).beginReturn k
    | some d =>
      let bg := s.driftGainBad d.1
      let bo := s.driftOffsetBad d.2
      let s := s.setChan ch (fun x => { x with driftGain := bg, driftOff := bo })
      if bg || bo then s.retireDrift k ch
      else (s.setCal (fun c => { c with untracked := c.untracked.set ch false })).beginReturn k

/-- 64 pairs of the return are complete (R65 step 2): the difference is judged, the new drift terms enter, and the channel
waits for its crossing; a failed channel waiting for the spare makes it return at once (R70). -/
def State.ownPairsDone (s : State) (k ch : Nat) : State :=
  let p := s.spares.get k
  if p.next.isSome then s.takeBack k ch
  else if p.why = .rotation then
    let f := fitPairs (p.pairs.map (fun x => (x.1, rdiv (p.g * x.2 + p.c) 16777216))) (rangePeak (s.chans.get ch).preset) 16777216
    let dg := rdiv ((f.1 - 16777216) * 100000000) 16777216
    let dc := rnd ((f.2.1 : Rat) / s.codePerNv ch)
    if s.driftGainBad dg || s.driftOffsetBad dc then s.retireDrift k ch
    else
      let before := s.codes ch
      let s := if p.measured then
          match s.driftOf ch p.measGain p.measOffset with
          | some d => s.setCal (fun c => { c with driftG := c.driftG.set ch d.1, driftO := c.driftO.set ch d.2 })
          | none => s
        else s
      let s := if s.codes ch ≠ before then s.setCal (fun c => { c with nChanged := c.nChanged + 1 }) else s
      (s.setSpare k (fun p => { p with stage := .waitCross, since := s.clock.clk, own := [], spare := [] })).requestLoad ch
  else s.setSpare k (fun p => { p with stage := .waitCross, since := s.clock.clk, own := [], spare := [] })

/-- A sample of the own modulator or of the spare during a parallel run: collected once the run's converter is valid. -/
def State.pairSample (s : State) (k ch i : Nat) (isOwn : Bool) (x : Int) : State :=
  let p := s.spares.get k
  let ready := decide (p.since + s.fillClk ch ≤ s.clock.castOn + i * presetD (s.chans.get ch).preset)
  let s := if ready ∧ p.stage = .fill ∧ p.st = .parallel then s.setSpare k (fun p => { p with stage := .pairs })
    else if ready ∧ p.stage = .fill ∧ p.st = .held then s.setSpare k (fun p => { p with stage := .serving })
    else if ready ∧ p.stage = .ownFill then s.setSpare k (fun p => { p with stage := .ownPairs }) else s
  let p := s.spares.get k
  if p.stage = .pairs ∨ p.stage = .ownPairs then
    let s := s.setSpare k (fun p => if isOwn then { p with own := (p.own ++ [(i, x)]).take 64 } else { p with spare := (p.spare ++ [(i, x)]).take 64 })
    let p := s.spares.get k
    if p.stage = .ownPairs ∧ 64 ≤ p.pairs.length then s.ownPairsDone k ch else s
  else s

/-- A spare fails (R71): its bit is programmed, EV25 fires, and the channel it served goes back or becomes uncovered. -/
def State.spareFail (s : State) (k : Nat) : State :=
  let p := s.spares.get k
  let s := (s.retire (256 + k)).setSpare k (fun p => { p with
    st := .failed, ch := none, stage := .none, own := [], spare := [], next := none })
  let s := s.ev25 (0x100 + k) 2
  match p.ch with
  | none => s
  | some ch =>
    if (s.chans.get ch).onSpare ≠ some k then s
    else if (s.mods.get ch).retired then s.setChan ch (fun x => { x with onSpare := none, uncovered := true })
    else
      let d := presetD (s.chans.get ch).preset
      let v := (s.clock.clk - s.clock.castOn + s.fillClk ch + d - 1) / d
      s.setChan ch (fun x => { x with onSpare := none, validFrom := max x.validFrom v })

/-- Mark the ring samples of a channel computed after an instant invalid (R68). -/
def State.invalidate (s : State) (ch onset : Nat) : State :=
  let x := s.chans.get ch
  let d := presetD x.preset
  let n := ringLen x.preset
  let from_ := (onset - s.clock.castOn) / d + 1
  s.setChan ch (fun x => { x with
    ring := (rangeFrom from_ (x.next - from_)).foldl (fun r i => KMap.set r ((i + x.ringOff) % n) none) x.ring })

/-- A hard fault of a channel's own modulator is confirmed (R68, R70): it is retired and its spare takes the channel. -/
def State.hardFault (s : State) (ch : Nat) : State :=
  let k := ch / 32
  let onset := s.clock.clk - 4352
  let s := (s.invalidate ch onset).setChan ch (fun x => { x with stuck := true, faultAt := some onset })
  let s := (s.retire ch).ev25 ch 2
  let s := if s.stepOn ch then (s.abandon ch 4).stepCheck else s
  let p := s.spares.get k
  match p.st with
  | .idle | .off => s.takeFailed k ch
  | .parallel =>
    if p.ch = some ch ∨ (s.chans.get (p.ch.getD ch)).onSpare ≠ some k then s.takeFailed k ch
    else if p.next.isSome then s.setChan ch (fun x => { x with uncovered := true })
    else (s.beginReturn k).setSpare k (fun p => { p with next := some ch })
  | .rotation | .request =>
    if p.next.isSome then s.setChan ch (fun x => { x with uncovered := true })
    else (s.beginReturn k).setSpare k (fun p => { p with next := some ch })
  | .held | .failed => s.setChan ch (fun x => { x with uncovered := true })

/-- CH_SUBSTITUTE = 1 (Table 3.7): a refusal with its retry time, or the request is taken. -/
def State.substOn (s : State) (ch : Nat) : Option (Nat × Nat) :=
  let p := s.spares.get (ch / 32)
  if (s.chans.get ch).onSpare = some (ch / 32) then none
  else match p.st with
    | .held | .failed => some (stRange, 0)
    | .rotation => some (stBusy, max 1 (p.slotMs - (s.clock.clk - p.slotAt) / clkMs))
    | .parallel => if p.why = .rotation ∨ p.why = .signature then some (stBusy, max 1 (p.slotMs - (s.clock.clk - p.slotAt) / clkMs))
      else some (stBusy, 1000)
    | .request => some (stBusy, 1000)
    | .idle | .off => if p.stage = .none then none else some (stBusy, max 1 (p.slotMs - (s.clock.clk - p.slotAt) / clkMs))

/-- The accepted request (R62, R73): a slot on the channel becomes a request, else the handover begins. -/
def State.substStart (s : State) (ch : Nat) : State :=
  let k := ch / 32
  let s := s.setChan ch (fun x => { x with substitute := true })
  if (s.chans.get ch).onSpare = some k then
    let t := s.trims ch
    if (s.mods.get ch).retired then s
    else s.setSpare k (fun p => { p with st := .request, why := .request, stage := .serving, g0 := rnd t.1, o0 := rnd t.2.1 })
  else s.connect k ch .request

/-- CH_SUBSTITUTE = 0 (Table 3.7): return under R65, or no change. -/
def State.substEnd (s : State) (ch : Nat) : State :=
  let k := ch / 32
  let s := s.setChan ch (fun x => { x with substitute := false, retry := false })
  let p := s.spares.get k
  if p.ch = some ch ∧ p.why = .request then
    (if p.stage = .serving then s.beginReturn k
     else if p.stage = .fill ∨ p.stage = .pairs then s.park k .none else s)
  else s

/-- A channel leaves its spare, which goes to a failed channel that waits for it, or parks; a retirement stays (Table 3.7). -/
def State.spareLeave (s : State) (ch : Nat) : State :=
  let s := s.setSpare (ch / 32) (fun p => if p.next = some ch then { p with next := none } else p)
  match s.spareAt ch with
  | none => s
  | some k => (s.setChan ch (fun x => { x with onSpare := none })).spareFree k .none

/-- CH_ENABLE = 1 for a channel whose own modulator is retired: it starts on its group's spare with the folded codes, which
load with its trim; it waits for a spare that is lent, and is UNCOVERED with one that is held or failed (R70, R71, R77)
(DEDUCED, log 22). -/
def State.laneRetired (s : State) (ch : Nat) : State :=
  let k := ch / 32
  let p := s.spares.get k
  let lent := decide (p.st = .rotation) || decide (p.st = .request) ||
    (decide (p.st = .parallel) && decide ((s.chans.get (p.ch.getD ch)).onSpare = some k))
  if p.st = .held ∨ p.st = .failed ∨ p.next.isSome then s.setChan ch (fun x => { x with uncovered := true })
  else if lent then
    ((s.beginReturn k).setSpare k (fun p => { p with next := some ch })).setChan ch (fun x => { x with
      uncovered := false, faultAt := some s.clock.clk })
  else
    let v := s.cfg (oCalSpareFold ch)
    let t := s.trims ch
    let s := s.setSpare k (fun p => { p with
      st := .held, ch := some ch, why := .fault, stage := .fill, since := s.clock.clk, own := [], spare := []
      g := 16777216, c := 0, foldDue := !bit v 31, foldGain := bits v 29 16
      foldOffset := if 2048 ≤ v % 4096 then (v % 4096 : Nat) - 4096 else (v % 4096 : Nat), g0 := rnd t.1, o0 := rnd t.2.1 })
    s.setChan ch (fun x => { x with onSpare := some k, uncovered := false, faultAt := none, loadReq := some (s.codes ch) })

end Sys2Proof.Machine
end

