-- ==== Sys2Proof/Machine/Shadow.lean ====
section
/-! DEFINITION. Shadows: which voltage group owns an object, what a value does when it becomes active, the copy at a cycle
boundary, the epochs it opens, the cycles that begin there, and the switch of the pattern set (R34-R36, R125, R459, R460). -/
namespace Sys2Proof.Machine

/-! ### Owners (R34, Table 7.1) -/

/-- The voltage group that owns an object of effect Y; val is the value written (DEDUCED, log 53). -/
def State.ownerOf (s : State) (key val : Nat) : Nat :=
  let i := key / 256
  let e := key % 256
  if 0x3000 ≤ i ∧ i < 0x3300 then s.vgOf (i % 256)
  else if within i 0x4000 240 then s.accVg (i - 0x4000)
  else if within i 0x4100 240 then s.accVg (i - 0x4100)
  else if within key (oVgEnable 0) 4 then key - oVgEnable 0
  else if within key (oPqUdinV 0) 4 then key - oPqUdinV 0
  else if i = 0x4400 ∧ e ≠ 0 then s.bgVg ((e - 1) % 4)
  else if within key 0x500000 0x2000 then
    (if meKind val = 0 then s.accVg (meNumber val) else s.bgVg (meNumber val % 4))
  else s.vgDefault

/-- The objects of port F frames: effect F of a port, and of the display. -/
def portShadow (key : Nat) : Bool := decide (key / 256 = 0x2010) || decide (key / 256 = 0x2020)
def dispShadow (key : Nat) : Bool := decide (key / 256 = 0xA000)

/-! ### Lanes and groups start and stop (R60, R90, R107) -/

/-- CH_ENABLE = 1 takes effect: the lane starts, or a stopping lane goes on (R60). -/
def State.laneStart (s : State) (ch : Nat) : State :=
  if (s.chans.get ch).running then s.setChan ch (fun x => { x with stopIn := none })
  else
    let p := s.cfg (oChPreset ch)
    let k := (s.mclk + presetD p - 1) / presetD p
    s.setChan ch (fun x => { x with
      running := true, preset := p, change := none, stopIn := none, next := k, first := k, validFrom := k + 24
      ringOff := 0, ring := [], old := none, ovr := false, overMax := 0, clean := 10, overIdx := [] })

/-- CH_ENABLE = 1 while the device runs: a channel whose own modulator is retired starts on its spare (R60, R77). -/
def State.laneOn (s : State) (ch : Nat) : State :=
  let was := (s.chans.get ch).running
  let s := (s.laneStart ch).requestLoad ch
  if !was && (s.mods.get ch).retired then s.laneRetired ch else s

/-- CH_ENABLE = 0 takes effect at a boundary position: the lane writes what the cycle that ended reads, and at least 24
further samples (R60); a spare that serves it does so until then. -/
def State.laneStop (s : State) (pos : Option Nat) (ch : Nat) : State :=
  let x := s.chans.get ch
  let n : Nat := match pos with
    | none => 24
    | some b => max 24 ((lastIndex x.preset (s.kAt ch b).2.1 b) + 1 - (x.next : Int)).toNat
  let s := if x.running ∧ x.onSpare.isSome then s else s.spareLeave ch
  s.setChan ch (fun x => { x with stopIn := if x.running then some n else none })

/-- CH_PRESET takes effect: 24 further samples of the old preset, then the new one (R90). -/
def State.lanePreset (s : State) (ch p : Nat) : State :=
  s.setChan ch (fun x =>
    if !x.running then { x with preset := p }
    else if x.preset = p then { x with change := none }
    else { x with change := some (p, match x.change with
      | some c => c.2
      | none => 24) })

/-- VG_ENABLE = 1 takes effect: the group starts at the present count (R107). -/
def State.groupStart (s : State) (g : Nat) : State :=
  let s := (s.vgNamed g).foldl (fun s x => { s with tracks := s.tracks.set x.2 {} }) s
  s.setGroup g (fun x => {
    running := true, start := s.mclk, fallbacks := x.fallbacks, freeRuns := x.freeRuns
    half := x.half, switched := x.switched })

/-- VG_ENABLE takes effect. -/
def State.groupSet (s : State) (g : Nat) (on : Bool) : State :=
  if on then
    (if (s.groups.get g).running then s.setGroup g (fun x => { x with stopping := false }) else s.groupStart g)
  else s.setGroup g (fun x => { x with stopping := x.running })

/-! ### A value becomes active -/

/-- MAP_ENTRY n takes effect: the marker of an entry newly enabled (R490), and the units it enters and leaves. -/
def State.entrySet (s : State) (n old new : Nat) : State :=
  let on := meEnable new && !meEnable old
  let subj := meNumber new
  let last : W32 := if meKind new = 0 then
      (let a := s.accts.get subj
       if a.running then a.cycle else a.cycle - 1)
    else
      (let b := s.bal.get subj
       if b.running then b.cycle else b.cycle - 1)
  let s := if on then s.setAcc (fun a => { a with lines := a.lines.upd n (fun l => { l with marker := last }) }) else s
  let s := match meSlot old with
    | some k => if meSlot new = some k ∧ meEnable new then s else s.setAcc (fun a => { a with slots := a.slots.set k {} })
    | none => s
  let demOn (w : Nat) : Bool := meEnable w && meDemand w
  let s := if demOn new && !demOn old then
    s.setDemand n (fun d => { max := d.max, maxAt := d.maxAt, last := d.last, period := s.now / s.subLen }) else s
  let profOn (w : Nat) : Bool := meEnable w && meProfile w
  if profOn new && !profOn old then
    s.setProf n (fun _ => { open_ := (s.acc.lines.get n).value.toNat }) else s

/-- PP_MODE takes effect (R239, R251): 0 clears the CREDIT source, 1 evaluates the levels once and charges from the present
local day on. -/
def State.modeSet (s : State) (a new : Nat) : State :=
  if new = 0 then (s.creditSource a false).setPrepay a (fun p => { p with on := false })
  else if (s.pp.acct.get a).on then s
  else
    let day := (s.localDay s.now).toNat
    let s := s.setPrepay a (fun p => { p with on := true })
    (s.setCredit a (fun l => { l with chargeDay := day })).levels a s.now

/-- What a change of an active value does: pos is the boundary at which it takes effect and next the epoch it opens; none for
a value that is active at once. -/
def State.activated (s : State) (pos : Option Nat) (next : Option W32) (key old new : Nat) : State :=
  let i := key / 256
  let e := key % 256
  if within i 0x3000 256 then
    (if e = 1 then (if new = 1 then s.laneOn (i - 0x3000) else s.laneStop pos (i - 0x3000))
     else if e = 4 then s.lanePreset (i - 0x3000) new
     else if e = 3 then s.requestLoad (i - 0x3000) else s)
  else if within i 0x3100 256 ∧ 1 ≤ e ∧ e ≤ 6 then s.requestLoad (i - 0x3100)
  else if within i 0x4000 240 then
    (if e = 2 ∨ e = 5 then s.setAcct (i - 0x4000) (fun a => { a with
       bill := { a.bill with quiet := 0 }, dirRun := 0, repExp := false, plaus := [] })
     else s)
  else if within i 0x4100 240 ∧ e = 1 then s.modeSet (i - 0x4100) new
  else if within key (oVgEnable 0) 4 then s.groupSet (key - oVgEnable 0) (decide (new = 1))
  else if i = 0x4400 ∧ 1 ≤ e then
    (match next with
     | none => s
     | some n => s.setBal ((e - 1) % 4) (fun b => { b with configAt := some (b.configAt.getD n) }))
  else if within key 0x500000 0x2000 then s.entrySet (key - 0x500000) old new
  else s

/-- Make a value active. -/
def State.activate (s : State) (pos : Option Nat) (next : Option W32) (key val : Nat) : State :=
  let old := s.cfg key
  if old = val then s else (s.setCfg key val).activated pos next key old val

/-- Recompute the automatic home queues when the set of streams has changed (R123). -/
def State.rehome (s o : State) : State :=
  if s.allStreams = o.allStreams ∧ s.cfg oHomeQueueMap = o.cfg oHomeQueueMap then s
  else s.setEng (fun x => { x with home := s.homes })

/-- A written value active at once: block stopped, effect I or S (DEDUCED, log 48). -/
def State.activateNow (s : State) (key val : Nat) : State := (s.activate none none key val).rehome s

/-- A shadow becomes active and is no longer waiting. -/
def State.takeShadow (s : State) (pos : Option Nat) (next : Option W32) (key val : Nat) : State :=
  let s := { s with dict := { s.dict with shadow := s.dict.shadow.set key none } }
  s.activate pos next key val

/-- Waiting shadows that satisfy a test. -/
def State.waiting (s : State) (p : Nat → Nat → Bool) : List (Nat × Nat) :=
  s.dict.shadow.filterMap (fun e => match e.2 with
    | some v => if p e.1 v then some (e.1, v) else none
    | none => none)

/-- The frame in progress ends in the display: its waiting shadows become active (Table 2.2). -/
def State.frameShadows (s : State) : State :=
  (s.waiting (fun k _ => dispShadow k)).foldl (fun s e => s.takeShadow none none e.1 e.2) s

/-- The answer to a write of a port object has been sent: the value becomes active (Table 2.2). -/
def State.portShadows (s : State) (ring seq : Nat) : State :=
  let tag := ring * 2 ^ 32 + seq + 1
  let keys := (s.ports.fWait.filter (fun e => decide (e.2 = tag))).map Prod.fst
  let s := { s with ports := { s.ports with fWait := s.ports.fWait.filter (fun e => decide (e.2 ≠ tag)) } }
  (s.waiting (fun k _ => keys.contains k)).foldl (fun s e => s.takeShadow none none e.1 e.2) s

/-! ### Epochs (R35, R125) -/

/-- An epoch is named by a stitch that an engine has begun. -/
def State.epochHeld (s : State) (e : Nat) : Bool :=
  s.eng.wq.any (fun q => q.2.any (fun t =>
    decide (t.epoch.toNat = e) && decide (t.st ≠ .waiting) && decide (t.st ≠ .free) && decide (t.st ≠ .done)))

/-- A further epoch fits: fewer than 16 are kept, or the oldest is free (R125). -/
def State.epochRoom (s : State) : Bool :=
  match s.dict.history with
  | [] => true
  | (e, _) :: _ => decide (s.dict.history.length < 15) || !s.epochHeld e

/-- Stitches of P1 to P3 that wait under a dropped epoch become skip stitches (R125). -/
def State.dropEpoch (s : State) (e : Nat) : State :=
  let f (t : Stitch) : Stitch :=
    if t.epoch.toNat = e ∧ t.st = .waiting ∧ t.cls ≠ 0 then { t with skip := true } else t
  s.setEng (fun x => { x with
    wq := x.wq.map (fun q => (q.1, q.2.map f)), buffer := x.buffer.map f, paused := x.paused.map f })

/-- CONFIG_EPOCH steps: the tables of old, in force until now, are kept under the old number. -/
def State.nextEpoch (s : State) (old : KMap (Option Nat)) : State :=
  let h := s.dict.history
  let s := match h with
    | [] => s
    | (e, _) :: _ => if h.length < 15 then s else s.dropEpoch e
  let h := if h.length < 15 then h else h.drop 1
  { s with dict := { s.dict with
      history := KMap.set h s.dict.epoch.toNat old, epoch := s.dict.epoch + 1 } }

/-- The shadow copy of a group at a boundary position (R35, R149): nothing while the control island restarts or no further
epoch can be kept. -/
def State.shadowCopy (s : State) (g pos : Nat) : State :=
  let run (h : Nat) : Bool := (s.groups.get h).running
  let l := s.waiting (fun k v => !portShadow k && !dispShadow k &&
    (decide (s.ownerOf k v = g) || !run (s.ownerOf k v)))
  if l = [] ∨ s.isl.control.isSome ∨ s.epochRoom = false then s
  else
    let next := s.dict.epoch + 1
    let t := l.foldl (fun s e => s.takeShadow (some pos) (some next) e.1 e.2) s
    (t.rehome s).nextEpoch s.dict.active

/-! ### Windows lost by an epoch change (R126, Table 6.23) -/

/-- The window streams of a group whose channels or presets differ between two configurations, as stream keys. -/
def State.lostKeys (n o : State) (g : Nat) : List Nat :=
  let pre (v : State) (l : List Nat) : List Nat := l.map (fun c => v.cfg (oChPreset c))
  let wins := (List.range n.windowGroups.length).filter (fun i =>
    let x := n.windowGroups.getD i (0, [])
    let y := o.windowGroups.getD i (0, [])
    decide (x.1 = g) && !(decide (x = y) && decide (pre n x.2 = pre o y.2)))
  let chs (key : Nat) : List Nat := (setList (n.cfg key) 256).filter (fun c =>
    decide (n.vgOf c = g) && !(inSet (o.cfg key) c && decide (n.cfg (oChPreset c) = o.cfg (oChPreset c))))
  wins.map (streamKey 3 1) ++ wins.map (streamKey 4 1) ++ (chs oPqFlickEnable).map (streamKey 6 3) ++
    (chs oPqSupraEnable).map (streamKey 5 3)

/-- All window streams of a group, as stream keys. -/
def State.windowKeys (s : State) (g : Nat) : List Nat :=
  let wins := (List.range s.windowGroups.length).filter (fun i => decide ((s.windowGroups.getD i (0, [])).1 = g))
  let chs (key : Nat) : List Nat := (setList (s.cfg key) 256).filter (fun c => decide (s.vgOf c = g))
  wins.map (streamKey 3 1) ++ wins.map (streamKey 4 1) ++ (chs oPqFlickEnable).map (streamKey 6 3) ++
    (chs oPqSupraEnable).map (streamKey 5 3)

/-- Mark windows in progress as lost. -/
def State.markLost (s : State) (keys : List Nat) : State :=
  s.setEng (fun x => { x with lostWin := keys.foldl (fun (m : KMap Bool) k => KMap.set m k true) x.lostWin })

/-! ### The pattern switch (R459, R460, R463) -/

/-- EV60 (Table 18.5) (DEDUCED, log 47). -/
def State.ev60 (s : State) (phase : Nat) : State := s.raise 60 (le 1 phase ++ le 4 s.firmware ++ le 4 s.patternSet)

/-- Program the boot record (R466). -/
def Boot.num (b : Boot) : Nat :=
  ofLe (le 1 b.run ++ le 1 b.pset ++ le 1 b.state ++ le 1 b.starts ++ le 2 b.window ++ le 2 0 ++ le 6 b.activated ++
    le 6 b.deadline ++ le 4 b.trialVer ++ le 4 b.fallenVer ++ le 4 0)
def State.programBoot (s : State) (f : Boot → Boot) : State :=
  let s := s.setUpd (fun u => { u with boot := f u.boot })
  s.storeTry false oUpdBoot s.upd.boot.num 32

/-- A group whose switch is due at an instant, or that was not enabled then (DEDUCED, log 48). -/
def State.switchDue (s : State) (g : Nat) (t : Stamp) : Bool :=
  match s.upd.tsw with
  | none => false
  | some sw => decide (sw ≤ t) && !(s.groups.get g).switched

/-- Every enabled group has recorded its switch boundary. -/
def State.switchDone (s : State) : State :=
  if s.upd.tsw.isSome ∧ s.upd.switched = false ∧ s.vgOn.all (fun g => (s.groups.get g).switched) then
    let slot := s.halfSlot s.upd.newHalf
    let s := s.setUpd (fun u => { u with switched := true, tsw := if u.st = .trial then u.tsw else none })
    let s := s.programBoot (fun b => { b with pset := slot })
    if s.upd.st = .trial then s.ev60 1 else s
  else s

/-- The switch boundary of a group: the new half, one more epoch, and with another MAJOR fresh stream records (DEDUCED, log 48). -/
def State.patternSwitch (s : State) (g : Nat) : State :=
  let major := s.majorDiffers
  let s := (s.setGroup g (fun x => { x with half := s.upd.newHalf, switched := true })).nextEpoch s.dict.active
  let s := if major then
      let s := s.markLost (s.windowKeys g)
      let s := (s.vgAccts g).foldl (fun s a => s.setAcct a (fun x => { x with
        bill := { x.bill with quiet := 0 }, dirRun := 0, plaus := [] })) s
      (s.bgOf g).foldl (fun s b => s.setBal b (fun x => { x with configAt := some (x.configAt.getD s.dict.epoch) })) s
    else s
  s.switchDone

/-! ### Cycles that begin at a boundary (R155, R211, R213) -/

/-- All samples that a cycle beginning at a position reads are valid from its start (R155). -/
def State.chanReady (s : State) (pos ch : Nat) : Bool :=
  let x := s.chans.get ch
  let lo := ((pos : Int) + (s.kAt ch pos).2.1) / (65536 * presetD x.preset : Nat) + 5
  x.running && x.change.isNone && decide (x.stopIn = none) && decide ((x.validFrom : Int) ≤ lo)

/-- The accounts and balance groups of a voltage group begin or end at a boundary, and the contribution slots of the cycle
that begins are marked (DEDUCED, log 50). -/
def State.beginCycle (s : State) (g : Nat) (b : Boundary) : State :=
  let s := (s.accts.filter (fun e => e.2.running && decide (s.accVg e.1 = g) && !s.cfgB (oAccEnable e.1))).foldl
    (fun s e => s.setAcct e.1 (fun x => { x with running := false })) s
  let s := (s.vgAccts g).foldl (fun s a =>
    if (s.accts.get a).running ∨ (s.acctChans a).all (s.chanReady b.pos) = false then s
    else s.setAcct a (fun x => { x with running := true })) s
  let s := (List.range 4).foldl (fun s n =>
    if (s.bal.get n).running ∧ s.cfgB (oBgEnable n) = false then s.setBal n (fun x => { x with running := false }) else s) s
  let s := (s.bgOf g).foldl (fun s n => s.setBal n (fun x => { x with running := true })) s
  let named := ((s.bgOf g).flatMap (fun n => s.feeders n ++ s.members n)).eraseDups
  named.foldl (fun s a =>
    let c : Contrib := { vgCycle := b.cycle, st := if (s.accts.get a).running then 1 else 2 }
    { s with contrib := s.contrib.set (a * 8 + b.cycle.toNat % 8) c }) s

end Sys2Proof.Machine
end

