-- ==== Sys2Proof/Machine/Filter.lean ====
section
/-! DEFINITION. The filter island: sample writes, overrange, thresholds, fast-trip pins, zero-crossing trackers, the boundary
decision of a voltage group and what a boundary record brings about (chapters 3 and 4). -/
namespace Sys2Proof.Machine

/-! ### Ring writes (R14, R60, R85, R90) -/

/-- The lane restarts at a new preset after sample k of the old one (R90 steps 2 and 3). -/
def Chan.restart (x : Chan) (p k : Nat) : Chan :=
  let w (q : Nat) : Nat := 12288 / ringLen q
  let at0 := ((k + x.ringOff) % ringLen x.preset * w x.preset + 6144) / w p % ringLen p
  let n := k * presetD x.preset / presetD p + 1
  { x with
    preset := p
    change := none
    old := some { preset := x.preset, next := k + 1, ringOff := x.ringOff, ring := x.ring }
    next := n
    first := n
    validFrom := n + 24
    ringOff := (at0 + ringLen p - n % ringLen p) % ringLen p
    ring := []
    overIdx := [] }

/-- What a stored sample does to a lane that is stopping or changing its preset (DEDUCED, log 50). -/
def Chan.after (x : Chan) (k : Nat) : Chan :=
  match x.stopIn with
  | some n => if n ≤ 1 then { x with running := false, stopIn := none, change := none } else { x with stopIn := some (n - 1) }
  | none =>
    match x.change with
    | some (p, n) => if n ≤ 1 then x.restart p k else { x with change := some (p, n - 1) }
    | none => x

/-- Write sample k into the ring: none is an invalid sample. -/
def Chan.write (x : Chan) (k : Nat) (v : Option Int) : Chan :=
  let n := ringLen x.preset
  let fresh := decide (x.next = x.first)
  { x with
    ring := KMap.set x.ring ((k + x.ringOff) % n) v
    next := k + 1
    first := if fresh then k else x.first
    validFrom := if fresh then max x.validFrom (k + 24) else x.validFrom
    overIdx := x.overIdx.filter (fun i => decide (k < i + n)) }

/-! ### Overrange (R57, R58) -/

/-- The magnitude of a code in ppm of the range peak. -/
def ppmOf (p : Nat) (x : Int) : Nat := x.natAbs * 1000000 / rangePeak p

/-- A sample in overrange (R57): 1.05 times the range peak or more, or a modulator bitstream constant for 64 clocks. -/
def overranged (p : Nat) (v : Int) (flat : Bool) : Bool := decide (rangePeak p * 105 ≤ v.natAbs * 100) || flat

/-- A valid sample is judged for overrange; flat is a modulator bitstream constant for 64 clocks. -/
def State.overrange (s : State) (ch k : Nat) (v : Int) (flat : Bool) : State :=
  let x := s.chans.get ch
  if overranged x.preset v flat then
    let m := max x.overMax (ppmOf x.preset v)
    let first := decide (10 ≤ x.clean)
    let s := s.setChan ch (fun x => { x with ovr := true, overMax := m, clean := 0, overIdx := k :: x.overIdx })
    if first then s.raise 26 (le 1 ch ++ le 4 m) else s
  else s

/-- The overrange bookkeeping of a channel at the end of a cycle of its group. -/
def State.overCycle (s : State) (ch : Nat) : State :=
  s.setChan ch (fun x =>
    if x.ovr then { x with ovr := false, overMax := 0, clean := 0, overCount := sat 4294967295 (x.overCount + 1) }
    else { x with clean := min 10 (x.clean + 1) })

/-! ### Fast-trip pins (R98-R101) -/

/-- Change a threshold pair and a fast-trip pin. -/
def State.setTh (s : State) (ch : Nat) (f : ThPair → ThPair) : State := { s with th := s.th.upd ch f }
def State.setFtrip (s : State) (n : Nat) (f : Ftrip → Ftrip) : State := { s with ftrip := s.ftrip.upd n f }

/-- The fields of FTRIP_ASSIGN (Table 4.6). -/
def State.ftOn (s : State) (n : Nat) : Bool := bit (s.cfg (oFtripAssign n)) 0
def State.ftLatch (s : State) (n : Nat) : Bool := bit (s.cfg (oFtripAssign n)) 1
def State.ftSource (s : State) (n : Nat) : Nat := bits (s.cfg (oFtripAssign n)) 3 2
def State.ftChan (s : State) (n : Nat) : Nat := bits (s.cfg (oFtripAssign n)) 15 8
def State.ftWidth (s : State) (n : Nat) : Nat := bits (s.cfg (oFtripAssign n)) 23 16

/-- The source of a pin is tripped: high, low, or none; a disabled source counts as not tripped (R100). -/
def State.ftTripped (s : State) (n : Nat) : Option Nat :=
  let ch := s.ftChan n
  let t := s.th.get ch
  if s.cfgB (oThEnable ch) = false ∨ (s.chans.get ch).running = false then none
  else if s.ftSource n ≠ 1 ∧ t.hi.tripped then some 0
  else if s.ftSource n ≠ 0 ∧ t.lo.tripped then some 1
  else none

/-- A pin follows an evaluation of its source (R98-R100). -/
def State.ftEval (s : State) (n : Nat) : State :=
  let f := s.ftrip.get n
  if !s.ftOn n then s
  else match s.ftTripped n with
    | some which =>
      if f.level then s
      else
        let latch := s.ftLatch n
        let s := s.setFtrip n (fun f => { f with
          level := true, latched := f.latched || latch, holding := !latch && decide (0 < s.ftWidth n) })
        s.raise 33 (le 1 n ++ le 1 (s.ftChan n) ++ le 1 which)
    | none => if s.ftLatch n ∨ f.holding then s else s.setFtrip n (fun f => { f with level := false })

/-- Every pin of a channel follows an evaluation of its thresholds. -/
def State.ftEvals (s : State) (ch : Nat) : State :=
  ((List.range 8).filter (fun n => s.ftOn n && decide (s.ftChan n = ch))).foldl State.ftEval s

/-- Pins of a channel whose source has been switched off, TH_ENABLE = 0 or the lane stopped (R100): a latched pin stays. -/
def State.ftRelease (s : State) (ch : Nat) : State := s.ftEvals ch

/-! ### Thresholds (R91-R97) -/

/-- Samples in the rank window (Table 4.3). -/
def State.thRank (s : State) (ch : Nat) : Nat := [1, 3, 5, 7, 9].getD (s.cfg (oThRank ch)) 1

/-- Insert into an ascending list. -/
def insInt (v : Int) : List Int → List Int
  | [] => [v]
  | x :: t => if v ≤ x then v :: x :: t else x :: insInt v t

/-- The median of an odd number of values (R91). -/
def median (l : List Int) : Int := (l.foldr insInt []).getD (l.length / 2) 0

/-- One evaluation of a threshold (R93): beyond and back are the trip and the clear conditions. -/
def Thresh.eval (t : Thresh) (beyond back : Bool) (debounce : Nat) : Thresh × Option Bool :=
  let c := if (if t.tripped then back else beyond) then t.count + 1 else 0
  if debounce ≤ c then ({ t with tripped := !t.tripped, count := 0 }, some (!t.tripped))
  else ({ t with count := c }, none)

/-- EV32 of a transition at a represented instant, at most one per 10 ms and threshold (R97). -/
def State.thEvent (s : State) (ch : Nat) (low trip : Bool) (v pos : Nat) : State :=
  let n := (if low then 2 else 0) + (if trip then 0 else 1)
  let t := if low then (s.th.get ch).lo else (s.th.get ch).hi
  let free := match t.lastEv with
    | none => true
    | some c => decide (c + 10 * clkMs ≤ s.clock.clk)
  if bit (s.cfg (oThEventMask ch)) n && free then
    let mark (x : Thresh) : Thresh := { x with lastEv := some s.clock.clk }
    let s := s.setTh ch (fun p => if low then { p with lo := mark p.lo } else { p with hi := mark p.hi })
    s.raiseAt 32 (le 1 0 ++ le 2 ch ++ le 2 0 ++ le 1 (flag low 0) ++ le 1 (flag (!trip) 0) ++ le 4 v) (s.stampOf pos) 1
  else s

/-- What a transition brings about: the count of trips, a capture, the event. -/
def State.thChange (s : State) (ch : Nat) (low : Bool) (r : Option Bool) (v pos : Nat) : State :=
  match r with
  | none => s
  | some trip =>
    let s := if trip then
        let s := s.setTh ch (fun p => { p with trips := sat 4294967295 (p.trips + 1) })
        if bit (s.cfg oCaptOptions) 1 then s.captTrigger ch 2 pos else s
      else s
    s.thEvent ch low trip v pos

/-- Both thresholds of a channel are evaluated on a value in ppm whose represented instant is pos (R93). -/
def State.thEval (s : State) (ch v pos : Nat) : State :=
  let h := s.cfg (oThHighPpm ch)
  let l := s.cfg (oThLowPpm ch)
  let y := s.cfg (oThHystPpm ch)
  let d := s.cfg (oThDebounce ch)
  let t := s.th.get ch
  let a := t.hi.eval (decide (h < v)) (decide (v + y < h)) d
  let b := t.lo.eval (decide (v < l)) (decide (l + y < v)) d
  let s := s.setTh ch (fun p => { p with hi := a.1, lo := b.1 })
  let s := (s.thChange ch false a.2 v pos).thChange ch true b.2 v pos
  s.ftEvals ch

/-- The end of the half cycle that begins at the newest boundary of a group (R92). -/
def Group.halfEnd (g : Group) : Option (Nat × Nat) :=
  match g.table with
  | b :: c :: _ => some (b.pos, b.pos + (b.pos - c.pos) / 2)
  | [b] => some (b.pos, b.pos + g.period / 2)
  | [] => none

/-- Close the half cycle in progress: its RMS is evaluated unless it holds an invalid sample (R92). -/
def State.halfClose (s : State) (ch pos : Nat) : State :=
  let t := s.th.get ch
  let s := if t.bad ∨ t.n = 0 then s
    else s.thEval ch (min 2000000 (isqrt (t.sumSq * 1000000 ^ 2 / t.n) / rangePeak (s.chans.get ch).preset)) pos
  s.setTh ch (fun p => { p with sumSq := 0, n := 0, bad := false })

/-- Step the half cycle of a channel up to an instant: 1 and 2 are the halves of a cycle, 0 is a fixed 10 ms (R92). A second
half ends where the group's next boundary has been recorded. -/
def State.halfStep (s : State) (ch pos : Nat) : State :=
  let t := s.th.get ch
  let g := s.groups.get (s.vgOf ch)
  let set (s : State) (half : Nat) (e : Nat) : State := s.setTh ch (fun p => { p with half := half, halfEnd := some e })
  match t.halfEnd, (if g.running then g.halfEnd else none) with
  | none, none => set s 0 (pos + 40960 * 65536)
  | none, some (b, e) => if pos < e then set s 1 e else set s 2 b
  | some e0, none => if e0 ≤ pos ∨ t.half = 2 then set (s.halfClose ch pos) 0 (pos + 40960 * 65536) else s
  | some e0, some (b, e) =>
    if t.half = 2 then (if e0 = b then s else set (s.halfClose ch pos) 1 e)
    else if pos < e0 then s
    else if t.half = 1 then set (s.halfClose ch pos) 2 b
    else (if pos < e then set (s.halfClose ch pos) 1 e else set (s.halfClose ch pos) 2 b)

/-- A sample of a channel whose thresholds are enabled: none is invalid. -/
def State.thSample (s : State) (ch k : Nat) (v : Option Int) : State :=
  if s.cfgB (oThEnable ch) = false then s
  else
    let x := s.chans.get ch
    let r := s.thRank ch
    match v with
    | none => s.setTh ch (fun p => { p with window := [], suspended := true, bad := true })
    | some v =>
      let s := s.setTh ch (fun p => { p with window := (v :: p.window).take r })
      let w := (s.th.get ch).window
      if w.length < r then s.setTh ch (fun p => { p with suspended := true })
      else
        let s := s.setTh ch (fun p => { p with suspended := false })
        let m := median w
        let pos := (k - 12 - r / 2) * presetD x.preset * 65536
        if s.cfg (oThMode ch) = 0 then s.thEval ch (min 2000000 (ppmOf x.preset m)) pos
        else
          let s := s.halfStep ch pos
          s.setTh ch (fun p => { p with sumSq := p.sumSq + m.natAbs * m.natAbs, n := p.n + 1 })

/-! ### Trackers (R102-R104) -/

/-- 14.49 ms, 23.53 ms in 2^-16 modulator clocks. -/
def periodMin : Nat := 1449 * 4096 * 65536 / 100
def periodMax : Nat := 2353 * 4096 * 65536 / 100

/-- A period lies in the lock range. -/
def periodOk (p : Nat) : Bool := decide (periodMin ≤ p) && decide (p ≤ periodMax)

/-- Three periods lock a phase: each in range and within 1 % of their mean (R103). -/
def locks (l : List Nat) : Bool :=
  decide (l.length = 3) &&
    (let m : Nat := l.foldl (· + ·) 0
     l.all (fun (p : Nat) => periodOk p && decide (((3 * p : Int) - m).natAbs * 100 ≤ m)))

/-- The mean of the last three periods (R106). -/
def Tracker.mean (t : Tracker) : Nat := t.periods.foldl (· + ·) 0 / 3

/-- A qualified crossing (R103). -/
def Tracker.crossed (t : Tracker) (pos : Nat) : Tracker :=
  match t.cross with
  | none => { t with cross := some pos, armed := false }
  | some c =>
    let p := pos - c
    let prevBad := match t.periods with
      | [] => false
      | q :: _ => decide (q < ((p : Int) - q).natAbs * 10)
    let ps := (p :: t.periods).take 3
    let keep := t.locked && periodOk p && !prevBad
    { t with cross := some pos, armed := false, periods := ps, locked := keep || locks ps }

/-- A value of 2^-32 of a period, unwrapped to lie nearest a centre (R104). -/
def unwrap (x c : Int) : Int :=
  let o := (2 ^ 32 : Int)
  let d (y : Int) : Nat := (y - c).natAbs
  if d (x - o) < d x ∧ d (x - o) ≤ d (x + o) then x - o else if d (x + o) < d x then x + o else x

/-- theta_p takes one more crossing (R104). -/
def Tracker.offset (t : Tracker) (x : Int) : Tracker :=
  let centre := match t.ready, t.theta with
    | some r, _ => r
    | none, [] => x
    | none, l => l.getLastD x
  let th := (unwrap x centre :: t.theta).take 16
  let mean : Int := (th.foldl (· + ·) (0 : Int)) / 16 % (2 ^ 32 : Int)
  { t with theta := th, ready := if th.length = 16 then some mean else t.ready }

/-- Change a tracker. -/
def State.setTrack (s : State) (ch : Nat) (f : Tracker → Tracker) : State := { s with tracks := s.tracks.upd ch f }

/-- Insert a candidate by the output position at which it became known, then by its source (R105). -/
def insCand (c : Nat × Nat × Nat) : List (Nat × Nat × Nat) → List (Nat × Nat × Nat)
  | [] => [c]
  | x :: t => if c.1 < x.1 ∨ (c.1 = x.1 ∧ c.2.1 < x.2.1) then c :: x :: t else x :: insCand c t

/-- The newest boundary at or before an instant. -/
def Group.before (g : Group) (pos : Nat) : Option Boundary := g.table.find? (fun b => decide (b.pos ≤ pos))

/-- A locked phase of a group yields its candidate; a fallback phase also its offset while the reference is locked (R104). -/
def State.candidate (s : State) (g src ch known : Nat) : State :=
  let t := s.tracks.get ch
  let x := s.groups.get g
  match t.locked, t.cross with
  | true, some c =>
    if src = 0 then s.setGroup g (fun x => { x with cands := insCand (known, 0, c) x.cands })
    else
      let refCh := ((s.vgNamed g).headD (0, 0)).2
      let s := match x.before c with
        | some b =>
          if (s.tracks.get refCh).locked ∧ 0 < x.period then
            s.setTrack ch (fun t => t.offset (((c - b.pos) % x.period * 2 ^ 32 / x.period : Nat) : Int))
          else s
        | none => s
      match (s.tracks.get ch).ready with
      | none => s
      | some r =>
        let p : Int := (c : Int) - r * ((x.period : Nat) : Int) / (2 ^ 32 : Int)
        s.setGroup g (fun x => { x with cands := insCand (known, src, p.toNat) x.cands })
  | _, _ => s

/-- A sample of a channel that an enabled group names, as phase src: none is invalid (R102, R103). -/
def State.track (s : State) (g src ch k : Nat) (v : Option Int) : State :=
  let t := s.tracks.get ch
  let d := presetD (s.chans.get ch).preset
  let here := (k - 12) * d * 65536
  let s := match t.cross, t.periods with
    | some c, p :: _ => if c + p * 3 / 2 < here then s.setTrack ch (fun t => { t with locked := false }) else s
    | _, _ => s
  match v with
  | none => s.setTrack ch (fun t => { t with prev := none })
  | some x =>
    let t := s.tracks.get ch
    let hyst : Int := s.cfg (oVgZcHystPpm g) * rangePeak (s.chans.get ch).preset / 1000000
    let pos := match t.prev with
      | none => none
      | some a =>
        if a ≤ 0 ∧ 0 < x ∧ t.armed ∧ 12 < k then
          some ((k - 1 - 12) * d * 65536 + ((-a) * ((d * 65536 : Nat) : Int) / (x - a)).toNat)
        else none
    let late (p : Nat) : Bool := match t.cross, t.periods with
      | some c, q :: _ => decide (c * 10 + 4 * q ≤ p * 10)
      | _, _ => true
    let s := s.setTrack ch (fun t => { t with prev := some x, armed := t.armed || decide (x < -hyst) })
    match pos with
    | none => s
    | some p => if late p then (s.setTrack ch (fun t => t.crossed p)).candidate g src ch here else s

/-! ### The boundary decision (R105-R107) -/

/-- EV36 and FREQ_UNLOCKED (R106): 0 UNLOCKED, 1 LOCKED. -/
def State.ev36 (s : State) (g how : Nat) : State := s.raise 36 (le 1 g ++ le 1 how)

/-- The position that the filter output of a group has reached, in 2^-16 clocks of input time. -/
def State.outputAt (s : State) (g : Nat) : Int :=
  let live := (s.vgNamed g).filter (fun x => (s.chans.get x.2).running && !(s.chans.get x.2).uncovered &&
    decide ((s.chans.get x.2).first < (s.chans.get x.2).next))
  let at_ (ch : Nat) : Int := ((s.chans.get ch).next - 1 - 12 : Int) * ((presetD (s.chans.get ch).preset * 65536 : Nat) : Int)
  match live with
  | [] => ((s.mclk : Int) - 12 * (presetD (s.chans.get (((s.vgNamed g).headD (0, 0)).2)).preset : Int)) * 65536
  | x :: t => t.foldl (fun m y => min m (at_ y.2)) (at_ x.2)

/-- The outcome of a decision: nothing yet, or a boundary with its source, free-run and relock marks, and the new T. -/
structure Decided where
  pos    : Nat
  source : Nat
  free   : Bool := false
  relock : Bool := false
  period : Nat
  deriving DecidableEq, Repr

/-- The tracker of a phase of a group, by its source code. -/
def State.phaseTrack (s : State) (g src : Nat) : Tracker :=
  match (s.vgNamed g).find? (fun x => decide (x.1 = src)) with
  | some x => s.tracks.get x.2
  | none => {}

/-- Some phase that the group names is locked and yields candidates. -/
def State.phaseLocked (s : State) (g : Nat) : Bool := (s.vgNamed g).any (fun x => (s.tracks.get x.2).locked)

/-- The first boundary of a group (R107). -/
def State.decideFirst (s : State) (g : Nat) (out : Int) : Option Decided :=
  let x := s.groups.get g
  let r := s.phaseTrack g 0
  match r.locked, r.cross with
  | true, some c => some { pos := c, source := 0, period := r.mean }
  | _, _ =>
    let e := (x.start + 819200) * 65536
    if (e : Int) ≤ out then
      some { pos := e, source := 3, free := true, period := 4096000 * 65536 / max 1 (s.cfg (oVgNominalHz g)) }
    else none

/-- A later boundary of a group (R105, R106). -/
def State.decideNext (s : State) (g : Nat) (out : Int) (last : Nat) : Option Decided :=
  let x := s.groups.get g
  let t := x.period
  let e := last + t
  let near (w p : Nat) : Bool := decide (((p : Int) - e).natAbs * 10 ≤ w * t)
  let known := x.cands.filter (fun c => decide ((c.1 : Int) ≤ out))
  if x.free then
    match known.find? (fun c => near 5 c.2.2 && decide (last < c.2.2)) with
    | some c => some { pos := c.2.2, source := c.2.1, relock := true, period := (s.phaseTrack g c.2.1).mean }
    | none =>
      let wait := if s.phaseLocked g then t / 2 else 0
      if ((e + wait : Nat) : Int) ≤ out then some { pos := e, source := 3, free := true, period := t } else none
  else
    let ref := known.find? (fun c => decide (c.2.1 = 0) && near 1 c.2.2)
    let refLocked := (s.phaseTrack g 0).locked
    match ref with
    | some c => some { pos := c.2.2, source := 0, period := c.2.2 - last }
    | none =>
      if refLocked ∧ out < ((e + t / 10 : Nat) : Int) then none
      else match known.find? (fun c => decide (c.2.1 ≠ 0) && near 1 c.2.2) with
        | some c => some { pos := c.2.2, source := c.2.1, period := c.2.2 - last }
        | none => if ((e + t * 9 / 10 : Nat) : Int) ≤ out then some { pos := e, source := 3, free := true, period := t } else none

/-! ### What a boundary record brings about -/

/-- The 10-second frequency of a group takes the cycle that ended (R172). -/
def State.freqCycle (s : State) (g : Nat) (b0 b1 : Boundary) : State :=
  let iv := s.stampOf b1.pos / 10240
  let s := s.setPq g (fun x =>
    if x.fIval = iv then x
    else { x with
      freq10 := if x.fCycles = 0 ∨ x.fIval + 1 ≠ iv then 0
        else toF32 ((x.fCycles : Rat) * 4096000 * 65536 / (x.fClocks : Rat))
      fIval := iv, fCycles := 0, fClocks := 0 })
  if b1.free || b1.relock then s
  else s.setPq g (fun x => { x with fCycles := x.fCycles + 1, fClocks := x.fClocks + (b1.pos - b0.pos) })

/-- The group after a boundary record: T, the counters of Table 4.11 and the aggregation window (R105-R108, R116). -/
def Group.record (x : Group) (d : Decided) (b : Boundary) : Group :=
  let y : Group := { x with
    table := (b :: x.table).take 64
    period := d.period
    free := d.free
    cands := x.cands.filter (fun c => decide (d.pos < c.2.2))
    lastSource := d.source }
  let y : Group := { y with
    fallbacks := if !d.free && !d.relock && decide (d.source ≠ 0) then sat 4294967295 (x.fallbacks + 1) else x.fallbacks
    freeRuns := if d.free || d.relock then sat 4294967295 (x.freeRuns + 1) else x.freeRuns
    good := if d.free || d.relock then 0 else if d.source = x.lastSource then sat 255 (x.good + 1) else 1 }
  { y with
    periodNs := match x.table with
      | [] => 0
      | p :: _ => (d.pos - p.pos) * 15625 / (64 * 65536)
    winCycles := if b.closes || x.table.isEmpty then 0 else x.winCycles + 1
    window := b.win }

/-- The record that a decision gives. -/
def Group.boundaryOf (x : Group) (d : Decided) (n : Nat) (epoch : W32) (half : Bool) (at_ : Nat) : Boundary :=
  let closes := !x.table.isEmpty && decide (n ≤ x.winCycles + 1)
  { cycle := match x.table with
      | [] => 0
      | p :: _ => p.cycle + 1
    pos := d.pos, source := d.source
    changed := match x.table with
      | [] => false
      | p :: _ => decide (p.source ≠ d.source)
    relock := d.relock, free := d.free, epoch := epoch, half := half
    closes := closes, win := if closes then x.window + 1 else x.window, at_ := at_ }

/-- The end of a cycle at a boundary: the guard, its stitches once the power verification has passed, the control processor's
commits, the outage record of the first locked cycle, and its bookkeeping (R144, R175, R351). -/
def State.cycleEnd (s old : State) (g : Nat) (b0 b : Boundary) : State :=
  let e := old.atEpoch b0.epoch
  let s := s.guardCheck e g
  let s := if s.eng.halted || !s.eng.armed then s else s.issueAll e g b0 b
  let s := if b.closes then s else s.markLost (s.lostKeys old g)
  let s := (s.cpCommits g).orphans
  let s := if (s.pq.get g).outageDue && !b.free && !b.relock then s.pqOutage g b0.pos (e.phaseSet g) else s
  let s := s.freqCycle g b0 b
  (old.enabledChans.filter (fun c => decide (old.vgOf c = g))).foldl State.overCycle s

/-- The trims, the shadows and the pattern half that a boundary brings in (R35, R55, R80, R459) (DEDUCED, log 50). -/
def State.boundaryIn (s : State) (g pos : Nat) : State :=
  let s := if s.hk.stopping && decide (s.cfg oHkSyncGroup = g) then s.hkStop else s
  let s := (s.enabledChans.filter (fun c => decide (s.vgOf c = g))).foldl (fun s c => s.dacLoad pos c) s
  let s := s.shadowCopy g pos
  if s.switchDue g (s.stampOf pos) then s.patternSwitch g else s

/-- What follows the stitches of a boundary: the cycles that begin, a group that stops, a bind-off that waits for it (DEDUCED, log 50). -/
def State.boundaryOut (s : State) (g : Nat) (b : Boundary) : State :=
  let s := s.beginCycle g b
  let s := if (s.groups.get g).stopping then
      (s.setGroup g (fun x => { x with running := false, stopping := false })).switchDone else s
  if s.pwr.bind = .boundaries then
    (s.setPwr (fun p => { p with bindGroups := p.bindGroups.filter (· ≠ g) })).bindProgress else s

/-- EV36 where free run begins or ends, and the admission values that the group takes (R106, R140). -/
def State.boundaryMarks (s : State) (g : Nat) (was : Bool) (b : Boundary) : State :=
  let s := if b.free && !was then s.ev36 g 0 else if b.relock then s.ev36 g 1 else s
  s.setEng (fun y => { y with byGroup := KMap.set y.byGroup g (some (y.p2, y.capt, y.supra)) })

/-- Write the record of a decided boundary and handle it: the waiting trims, the shadow copy, the pattern switch, the stitches
of the cycle that ended, the guard, and the cycles that begin (R35, R55, R80, R108, R122, R144, R145, R459) (DEDUCED, log 50). -/
def State.boundary (s : State) (g : Nat) (d : Decided) : State :=
  let x := s.groups.get g
  let n := s.boundaryIn g d.pos
  let b := x.boundaryOf d (n.winN g) n.dict.epoch (n.groups.get g).half n.clock.clk
  let n := (n.setGroup g (fun y => y.record d b)).boundaryMarks g x.free b
  let n := match x.table with
    | [] => n
    | b0 :: _ => n.cycleEnd s g b0 b
  n.boundaryOut g b

/-- Decide the boundaries of a group that its filter output allows, at most n (R105-R107). -/
def State.settle (s : State) (g : Nat) : Nat → State
  | 0 => s
  | n + 1 =>
    let x := s.groups.get g
    if !x.running then s
    else
      let out := s.outputAt g
      let d := match x.table.head? with
        | none => s.decideFirst g out
        | some b => s.decideNext g out b.pos
      match d with
      | none => s
      | some d => State.settle (s.boundary g d) g n

/-! ### FILTER_SAMPLE -/

/-- A lane writes sample k of a channel: the ring, overrange, thresholds, trackers, and the groups it drives (DEDUCED, log 50). -/
def State.laneSample (s : State) (ch k : Nat) (x : Int) (flat : Bool) : State :=
  let c := s.chans.get ch
  let v : Int := max (-(satCode c.preset)) (min (satCode c.preset) x)
  let bad := decide (k < max c.validFrom (if c.next = c.first then k + 24 else 0)) || c.faultAt.isSome
  let val : Option Int := if bad then none else some v
  let s := s.setChan ch (fun c => c.write k val)
  let s := if bad then s else s.overrange ch k v flat
  let s := s.thSample ch k val
  let s := (s.vgOn.filter (fun g => (s.groups.get g).running)).foldl (fun s g =>
    ((s.vgNamed g).filter (fun y => decide (y.2 = ch))).foldl (fun s y => s.track g y.1 ch k val) s) s
  let p0 := c.preset
  let s := s.setChan ch (fun c => c.after k)
  let s := if (s.chans.get ch).preset ≠ p0 then
      s.setTh ch (fun p => { p with window := [], suspended := true, hi := { p.hi with count := 0 }, lo := { p.lo with count := 0 } })
    else s
  let s := if (s.chans.get ch).running then s else (s.ftRelease ch).spareLeave ch
  (List.range 4).foldl (fun s g => s.settle g 4) s

/-- The aligned code of a spare's sample (R63). -/
def Spare.aligned (p : Spare) (x : Int) : Int := rnd (((p.g * x + p.c : Int) : Rat) / 16777216)

end Sys2Proof.Machine
end

