-- ==== Sys2Proof/Machine/UpdOps.lean ====
section
/-! DEFINITION. The update's shared operations: control-island restarts, activation, confirmation and fallback (R13, R149,
R458-R465). -/
namespace Sys2Proof.Machine

/-! ### Restarts of the control island (R13, R42, R149, R272) -/

/-- Modulator clocks of a restart budget in microseconds (Table 1.2). -/
def budgetClk (us : Nat) : Nat := us * 512 / 125

/-- The control island's restart budget, 250 ms. -/
def controlBudget : Nat := 250 * clkMs

/-- Milliseconds left of a restart that began at a clk, at least 1 (R10). -/
def State.budgetLeft (s : State) (since budget : Nat) : Nat :=
  max 1 ((since + budget - s.clock.clk + clkMs - 1) / clkMs)

/-- A hold in force ends without its release: the held shadows are discarded and HOLD_EXPIRED is set (R42). -/
def State.holdDrop (s : State) : State :=
  if s.dict.owner.isNone then s
  else { s with dict := { s.dict with owner := none, held := [], expired := true } }

/-- The objects of persistence N that the calibration unit holds, in the control island (R32, Table 10.9). -/
def calVolatile : List Nat := [oCsChannels, oCsStep, oCsRefVRms, oCsRefIRms, oCsRefLagMdeg, oCsRefFreqHz]

/-- A session open at a restart closes, its unstored channels abandoned with the cause RESTART (R272). -/
def State.sessionLost (s : State) : State :=
  let s := if s.cal.owner.isSome then
      (let s := if s.cal.running then s.abandonAll 7 else s
       s.sessionClose)
    else s
  calVolatile.foldl (fun s k => s.setCfg k (dfltOf k)) s

/-- The control island restarts (R13): the issue unit, the engines, the gates and the backlog guard go on (R149). -/
def State.controlDown (s : State) (cause : Nat) : State :=
  let s := (s.sessionLost).holdDrop
  let s := s.setIsl (fun i => { i with control := some s.clock.clk, cause := cause })
  s.ev58 7 cause

/-! ### Fallback (R463) -/

/-- EV61 (Table 18.5): fallen and kept are the firmware versions. -/
def State.ev61 (s : State) (cause bad fallen kept : Nat) : State :=
  s.raise 61 (le 1 cause ++ le 1 bad ++ le 4 fallen ++ le 4 kept)

/-- The half that holds a slot's pattern set, if one does. -/
def State.halfOf (s : State) (slot : Nat) : Option Bool :=
  if s.upd.half0 = some slot then some false else if s.upd.half1 = some slot then some true else none

/-- The issue unit names the half of a slot from the next boundary of each group on (R463 step 1). -/
def State.halfBack (s : State) (slot : Nat) : State :=
  match s.halfOf slot with
  | none => s
  | some h =>
    let s := s.setUpd (fun u => { u with newHalf := h, tsw := some s.now, switched := false })
    (List.range 4).foldl (fun s g => s.setGroup g (fun x => { x with switched := decide (x.half = h) })) s

/-- The boot record of a fallback and SC6 (R463 step 2). -/
def State.bootBack (s : State) : State :=
  let ver := s.firmware
  let s := s.programBoot (fun b => { b with run := 1 - b.run, state := 2, starts := 0, fallenVer := ver })
  s.scStep 6

/-- A fallback is decided (R462, R463): the retained half, the boot record, and the restart into the retained image (DEDUCED, log 22). -/
def State.fallbackStart (s : State) (cause : Nat) : State :=
  let s := s.setUpd (fun u => { u with st := .activating, fallback := cause, backRestart := true, restarting := false })
  let s := s.bootBack
  let s := (s.halfBack s.runSlot).switchDone
  s.controlDown 3

/-- A cause of Table 18.3 has arisen: it counts during a trial only. -/
def State.trialFails (s : State) (cause : Nat) : State := if s.upd.st = .trial then s.fallbackStart cause else s

/-! ### Starts of the control island from an image (R349, R458, R463, R465) -/

/-- A full health window begins (R458 step 5, R465). -/
def State.windowStart (s : State) : State :=
  let t := s.now
  let w := s.upd.boot.window
  s.programBoot (fun b => { b with activated := t, deadline := t + w * 60 * 1024 })

/-- The switch to the trial's pattern set is due at the first second tick from now on (R459). -/
def State.switchArm (s : State) : State :=
  if s.upd.boot.pset = s.upd.boot.run then s.setUpd (fun u => { u with switched := true })
  else
    let t := (secOf s.now + 1) * 1024
    let s := (List.range 4).foldl (fun s g => s.setGroup g (fun x => { x with switched := false })) s
    s.setUpd (fun u => { u with tsw := some t, switched := false })

/-- The new image serves for the first time (R458 step 5). -/
def State.trialServes (s : State) : State :=
  let s := s.windowStart
  let s := s.setUpd (fun u => { u with
    st := .trial, restarting := false, confirm := false, billSeen := false, faults := 0, noDeadline := false, retainedBad := false
    fallback := 0
    newHalf := !(u.half1 = some (1 - u.boot.run) || u.half0 = some u.boot.run) })
  let s := s.setUpd (fun u => if u.newHalf then { u with half1 := some u.boot.run } else { u with half0 := some u.boot.run })
  let s := { s with accts := KMap.mapV s.accts (fun (a : Acct) => { a with newHalf := false }) }
  (s.switchArm).ev60 0

/-- The retained image serves after a fallback (R463 steps 3 and 4). -/
def State.retainedServes (s : State) : State :=
  let s := s.setUpd (fun u => { u with st := .fallenBack, backRestart := false, restarting := false })
  s.ev61 s.upd.fallback 0 s.upd.boot.fallenVer s.firmware

/-- The retained image fails its check: the trial image runs again without a deadline (R463). -/
def State.trialAgain (s : State) : State :=
  let kept := s.firmware
  let fallen := s.upd.boot.fallenVer
  let s := s.programBoot (fun b => { b with run := 1 - b.run, state := 1, fallenVer := 0 })
  let s := s.setUpd (fun u => { u with st := .trial, backRestart := false, restarting := false, noDeadline := true, retainedBad := true })
  let s := s.halfBack s.runSlot
  s.ev61 s.upd.fallback 1 fallen kept

/-- A start of the control island with the outcomes of its image check, of the named image and of the retained one: the
island serves unless no image is valid (DEDUCED, log 22). -/
def State.imageStart (s : State) (ok retainedOk : Bool) : State :=
  let serve (s : State) : State := s.setIsl (fun i => { i with control := none, served := true, kick := s.clock.clk })
  if s.upd.restarting then
    (if ok then serve s.trialServes
     else
       let s := (s.setUpd (fun u => { u with fallback := 2 })).bootBack
       let s := (s.halfBack s.runSlot).switchDone
       if retainedOk then serve s.retainedServes else serve s.trialAgain)
  else if s.upd.backRestart then (if ok then serve s.retainedServes else serve s.trialAgain)
  else if ok then
    (let s := serve s
     if s.upd.st = .trial ∧ s.upd.noDeadline = false ∧ s.upd.afterMetering = false ∧ s.isl.cause = 5 then
       (s.windowStart).switchArm else s)
  else if s.upd.st = .trial then
    (let s := (s.setUpd (fun u => { u with fallback := 2 })).bootBack
     let s := (s.halfBack s.runSlot).switchDone
     if retainedOk then serve s.retainedServes else serve s.trialAgain)
  else s

/-! ### Activation and confirmation (R458, R461) -/

/-- Activation (R458 steps 1-3): the boot record names the new slot as a trial, SC5 steps, the control island restarts. -/
def State.activateImage (s : State) : State :=
  let ver := s.imgFirmware s.freeSlot
  let w := s.cfg oHealthWindowMin
  let s := s.setUpd (fun u => { u with st := .activating, restarting := true, afterMetering := false })
  let s := s.programBoot (fun b => { b with run := 1 - b.run, state := 1, starts := 1, window := w, trialVer := ver })
  (s.scStep 5).controlDown 3

/-- Activation begins when armed and its time has come (R457). -/
def State.activationDue (s : State) : Bool :=
  decide (s.upd.st = .armed) && decide (s.cfg oUpdActivateAt ≤ s.now) && s.isl.control.isNone && s.pwr.metering

/-- Every enabled account has committed a cycle under the new half (R461). -/
def State.billsSeen (s : State) : Bool := s.enabledAccts.all (fun a => (s.accts.get a).newHalf)

/-- A trial image is confirmed once its three conditions hold (R461). -/
def State.confirmCheck (s : State) : State :=
  if s.upd.st = .trial then
    let s := if s.upd.switched && s.billsSeen then s.setUpd (fun u => { u with billSeen := true }) else s
    if s.upd.confirm && s.upd.switched && s.upd.billSeen then
      let s := s.programBoot (fun b => { b with state := 0, starts := 0 })
      let s := s.ev60 2
      s.setUpd (fun u => { u with
        st := .idle, tsw := none, retainedBad := false, confirm := false, billSeen := false, faults := 0
        half0 := if u.newHalf then none else u.half0
        half1 := if u.newHalf then u.half1 else none })
    else s
  else s

end Sys2Proof.Machine
end

