-- ==== Sys2Proof/Machine/Restore.lean ====
section
/-! DEFINITION. Restoration from the journal at a cast-on: lines, counters, credit, objects, the last-gasp report and the
bounded losses (R155, R211, R228, R229, R322, R327, R332, R491). -/
namespace Sys2Proof.Machine

/-! ### Loss records (R327, Table 12.8) -/

/-- A loss record. Its demand is an F32 pattern; the bound is that demand over the interval, in 2^-20 Wh (DEDUCED, log 23). -/
def lossRecord (start fin : Stamp) (cause kind subject line code demand : Nat) (bounded : Bool) : Bytes :=
  let b := if bounded then (rnd (ofF32 demand * ((fin - start : Nat) : Rat) * (2 ^ 20 : Nat) / (3600 * 1024 : Nat))).toNat else 0
  le 6 start ++ le 6 fin ++ le 1 cause ++ le 1 kind ++ le 2 subject ++ le 2 line ++ le 1 code ++ le 1 0 ++
    le 4 demand ++ le 8 (sat (2 ^ 64 - 1) b)

/-- The loss-bound demand kept for a subject: of an account, or summed over the feeders of a balance group (DEDUCED, log 23). -/
def State.keptBound (s : State) (kind subject : Nat) : Nat :=
  if kind = 0 then (s.nvm.kept.status.get subject).bound
  else toF32 ((s.feeders subject).foldl (fun x a => x + ofF32 (s.nvm.kept.status.get a).bound) 0)

/-- The instant from which a line group's newest valid record stands (R332) (DEDUCED, log 23). -/
def State.lossStart (s : State) (g : Nat) (fin : Stamp) : Stamp :=
  let marks := s.nvm.kept.marks
  let newest := ((marks.head?).map Mark.time).getD fin
  match s.nvm.jrn.get (jLines g) with
  | none => newest
  | some r => (((marks.filter (fun m => newer m.seq r.seq)).getLast?).map Mark.time).getD newest

/-- The loss record of one enabled line (DEDUCED, log 23). -/
def State.lineLoss (s : State) (n : Nat) (start fin : Stamp) (cause : Nat) : Bytes :=
  let w := s.cfg (oMapEntry n)
  let kind := meKind w
  let bounded := decide (kind = 2) || decide (meCode w = 1) || decide (meCode w = 2)
  lossRecord start fin cause kind (meNumber w) n (meCode w) (s.keptBound kind (meNumber w)) bounded

/-- The enabled lines of a line group. -/
def State.groupLines (s : State) (g : Nat) : List Nat :=
  ((rangeFrom (15 * g) 15).filter (fun n => decide (n < 8192))).filter (fun n => meEnable (s.cfg (oMapEntry n)))

/-- The records of the session that were found valid. -/
def Session.good (x : Session) : List Nat := x.keys.take x.valid

/-- The line groups due in the session without a valid record; every one when LG_STATE itself is lost (R332) (DEDUCED, log 23). -/
def Session.lostGroups (x : Session) : List Nat :=
  let due := if x.valid = 0 then List.range 547 else x.groups
  due.filter (fun g => !x.good.contains (jLines g))

/-- An account owes a record of uncommitted cycles (R23, R327) (DEDUCED, log 23). -/
def State.outageLoss (s : State) (a : Nat) (pfd : Stamp) : Option Bytes :=
  let st := s.nvm.kept.status.get a
  if (s.nvm.jrn.get (jStatus (a / 15))).isSome ∧ 0 < st.lastEnd ∧ st.lastEnd < pfd then
    some (lossRecord st.lastEnd pfd 1 0 a 0xFFFF 0 st.bound true)
  else none

/-- The loss records of a cast-on after an outage (DEDUCED, log 23). -/
def State.lossList (s : State) (pfd : Stamp) : List Bytes :=
  let out := s.enabledAccts.filterMap (fun a => s.outageLoss a pfd)
  let lines := match s.nvm.session with
    | none => []
    | some x => x.lostGroups.flatMap (fun g =>
        (s.groupLines g).map (fun n => s.lineLoss n (min (s.lossStart g pfd) pfd) pfd 2))
  out ++ lines

/-- Whether a session key names a record of a kind. -/
def keyKind (k kind : Nat) : Bool := decide (k % 256 = kind)

/-- LAST_GASP_REPORT (Table 12.14). -/
def State.gaspReport (s : State) (pfd : Stamp) (losses : Nat) : Bytes :=
  match s.nvm.session with
  | none => []
  | some x =>
    let lost := decide (x.valid = 0)
    let bad (kind : Nat) : Bool := (x.keys.drop x.valid).any (fun k => keyKind k kind)
    let anyAcct := lost && !s.enabledAccts.isEmpty
    let mark := (((s.nvm.kept.marks.find? (fun m => m.seq = x.markSeq))).map Mark.time).getD 0
    le 6 (if lost then pfd else x.pfd) ++ le 2 (if lost then 0xFFFF else sat 65535 x.keys.length) ++ le 2 x.good.length ++
      le 2 x.lostGroups.length ++
      le 1 (flag (decide (x.valid = x.keys.length)) 0 + flag lost 1 + flag (bad 0x12) 2 + flag (bad 0x11 || anyAcct) 3 +
        flag (bad 0x13 || anyAcct) 4) ++ le 1 0 ++ le 2 (sat 65535 losses) ++ le 4 x.seq.toNat ++ le 6 mark ++ le 6 0

/-! ### Counters and lines (R155, R211, R322, R490) -/

/-- The newest of some markers under the comparison of R19. -/
def newestMarker : List W32 → Option W32
  | [] => none
  | m :: t => match newestMarker t with
    | none => some m
    | some x => some (if newer m x then m else x)

/-- The enabled map entries, each with its word. -/
def State.mapOn (s : State) : List (Nat × Nat) :=
  (s.dict.active.filter (fun e => within e.1 0x500000 0x2000)).filterMap (fun e => match e.2 with
    | none => none
    | some w => if meEnable w then some (e.1 - 0x500000, w) else none)

/-- Whether a line has a journal record. -/
def State.lineKept (s : State) (n : Nat) : Bool := (s.nvm.jrn.get (jLines (n / 15))).isSome

/-- The cycle counter that a subject's restored lines give, and the lines without a record set up for it. -/
def State.counterOf (s : State) (kind num : Nat) (more : List W32) : W32 :=
  let l := (s.mapOn.filter (fun e => decide (meKind e.2 = kind) && decide (meNumber e.2 = num))).map Prod.fst
  match newestMarker (((l.filter s.lineKept).map (fun n => (s.nvm.kept.lines.get n).marker)) ++ more) with
  | none => 1
  | some m => m + 1

/-- The lines of a subject without a journal record start at 0 with the marker before the counter (R155, R490). -/
def State.freshLines (s : State) (kind num : Nat) (c : W32) : State :=
  (s.mapOn.filter (fun e => decide (meKind e.2 = kind) && decide (meNumber e.2 = num) && !s.lineKept e.1)).foldl
    (fun s e => s.setAcc (fun a => { a with lines := a.lines.set e.1 { value := 0, marker := c - 1 } })) s

/-- Restore an account's counter, its quality and energy line and its last committed cycle. -/
def State.restoreAcct (s : State) (a : Nat) : State :=
  let hasQ := (s.nvm.jrn.get (jQuality (a / 15))).isSome
  let q := s.nvm.kept.quality.get a
  let c := s.counterOf 0 a (if hasQ then [q.marker] else [])
  let st := s.nvm.kept.status.get a
  let s := s.freshLines 0 a c
  let s := s.setAcc (fun x => { x with
    quality := x.quality.set a (if hasQ then q else { value := 0, marker := c - 1 })
    energy := x.energy.set a { value := 0, marker := c - 1 } })
  s.setAcct a (fun x => { x with cycle := c, lastEnd := st.lastEnd, lastCommitted := st.cycle })

/-- Restore a balance group's counter (R211); its outage window is due (R220). -/
def State.restoreBal (s : State) (outage : Bool) (g : Nat) : State :=
  let c := s.counterOf 2 g []
  (s.freshLines 2 g c).setBal g (fun x => { x with cycle := c, outageDue := outage })

/-! ### Credit (R228, R229) -/

/-- Rebuild a credit line from its journal copy and the transfer records newer than it; without a copy no day before the present
one is charged (R228, R233) (DEDUCED, log 24). -/
def State.creditRebuild (s : State) (a : Nat) : State :=
  let b := s.nvm.kept.xfers.get a
  let l := (List.range (b.length / 32)).foldl (fun (l : Credit) i =>
    let r := slice b (32 * i) 32
    let n := fld r 24 4
    if l.xfer.toNat < n then
      { l with credit := l.credit + BitVec.ofNat 64 (fld r 8 8), xfer := BitVec.ofNat 32 n }
    else l) (s.nvm.kept.credit.get a)
  let l := if (s.nvm.jrn.get (jCredit (a / 5))).isSome then l else { l with chargeDay := (s.localDay s.now).toNat }
  (s.setCredit a (fun _ => l)).setPrepay a (fun p => { p with restored := true })

/-- The number of accepted transfers that the kept records show: the newest XFER_TOTAL among them (DEDUCED, log 24). -/
def State.xfersFound (s : State) : Nat :=
  s.nvm.kept.xfers.foldl (fun m e => (List.range (e.2.length / 32)).foldl (fun m i => max m (fld e.2 (32 * i + 28) 4)) m) 0

/-- Some accepted transfers have no record (R229) (DEDUCED, log 24). -/
def State.xferGap (s : State) : Bool := decide (s.xfersFound < s.scVal 0 % 2 ^ 32)

/-- COUNTER_GAP on one account (DEDUCED, log 24). -/
def State.gapOn (s : State) (a : Nat) : State := s.setCredit a (fun l => { l with gap := true })

/-- EV43 with the cause GAP. -/
def State.ev43Gap (s : State) : State := s.raise 43 (le 2 0xFFFF ++ le 1 0 ++ le 1 1)

/-- After a wipe, every credit line is rebuilt, and a missing record sets COUNTER_GAP everywhere (R228, R229) (DEDUCED, log 24). -/
def State.creditRestore (s : State) : State :=
  if s.mem.secure ≠ 1 then s
  else
    let s := (List.range 240).foldl State.creditRebuild s
    let s := if s.xferGap then ((List.range 240).foldl State.gapOn s).ev43Gap else s
    s.setMem (fun m => { m with secure := 2 })

/-! ### Everything (R322) -/

/-- The J objects that live in the AO island come from the journal after that island has lost them (R347, R400, R491). -/
def State.restoreAo (s : State) : State :=
  let v (key : Nat) : Nat := (s.nvm.kept.objs.get key).getD 0
  let clk := v oClkEvents
  let bal : KMap Int := (List.range 96).foldl (fun (m : KMap Int) i => KMap.set m i (sgn 4 (v oDcBalance / 2 ^ (32 * i) % 2 ^ 32))) []
  { s with
    tamper := { s.tamper with
      main := { s.tamper.main with nA := clk % 2 ^ 32, nB := clk / 2 ^ 32 % 2 ^ 32 }
      rtc := { s.tamper.rtc with nA := clk / 2 ^ 64 % 2 ^ 32, nB := clk / 2 ^ 96 % 2 ^ 32 }
      glitch := (s.tamper.glitch.upd 0 (fun g => { g with n := v oGlitchEvents % 2 ^ 32 })).upd 1
        (fun g => { g with n := v oGlitchEvents / 2 ^ 32 % 2 ^ 32 })
      overflow := v oAoOverflowCount }
    disp := { s.disp with balance := bal, updates := v oDispUpdateCount, backup := true }
    pwr := { s.pwr with retries := max s.pwr.retries (v oStartRetries), lastPfd := max s.pwr.lastPfd (v oLastPfdTime) }
    isl := { s.isl with dogs := v oWatchdogCount }
    pp := { s.pp with acct := s.nvm.kept.tampered.foldl (fun (m : KMap Prepay) e =>
      m.upd e.1 (fun p => { p with srcTamper := true, tamperBy := e.2 })) s.pp.acct } }

/-- The demand maxima and the demand and profile periods that were open at the trip: both close with the energy committed
before it, and the sub-periods of the outage count as zero (R196, R199). -/
def State.restoreDemand (s : State) : State :=
  let s := s.tracked.foldl (fun s n =>
    let d := s.nvm.kept.demand.get n
    s.setDemand n (fun x => { x with max := ofF32 d.1, maxAt := d.2 })) s
  let s := s.demandForce
  let s := s.tracked.foldl (fun s n => s.setDemand n (fun x => { x with closed := [], later := [] })) s
  let p := if s.profLen = 0 then 0 else s.now / s.profLen
  let s := (s.profSubjects.filter (fun x => s.acc.profAt.get x ≠ 0)).foldl (fun s x =>
    (s.profRecord x s.pwr.lastPfd true true).setAcc (fun a => { a with profAt := a.profAt.set x (p + 1) })) s
  s.profDone (p + 1)

/-- A residue of a quantum or more yields owed pulses (R207). -/
def State.restorePulse (s : State) (k : Nat) : State :=
  let q := s.quantum k
  s.setPulse k (fun p => if q = 0 then p else { p with residue := p.residue % q, owed := min 4095 (p.residue / q) })

/-- The disconnect sources that a cast-on carries over, and the operations they ask for (R247, R379, R491). -/
def State.restoreSources (s : State) : State :=
  let pend := trueKeys s.tamper.pendSet
  let s := pend.foldl (fun s a => s.setPrepay a (fun p => { p with srcOutage := true })) s
  let s := s.setTamper (fun t => { t with pendSet := [] })
  let s := (List.range 240).foldl (fun s a => s.levels a s.now) s
  let s := pend.foldl State.queueOpen s
  let due := (List.range 240).filter (fun a => decide (s.sources a ≠ 0) && !pend.contains a &&
    (s.relaySlots a).any s.pp.relay.commanded.get)
  due.foldl State.queueOpen s

/-- The restoration of R322 once main SRAM is online, with the schedule and the day starts that passed (R233, R349, R491); after
says that the cast-on follows an outage. -/
def State.restoreAll (s : State) (after : Bool) : State :=
  let k := s.nvm.kept
  let s := if s.tamper.lostDue then s.restoreAo else s
  let s := s.setAcc (fun a => { a with lines := k.lines, quality := k.quality, energy := [] })
  let s := k.objs.foldl (fun s e => match e.2 with
    | none => s
    | some v => s.jSet e.1 v) s
  let s := (List.range 240).foldl State.restoreAcct s
  let s := (List.range 4).foldl (State.restoreBal · after) s
  let s := k.xfers.foldl (fun s e => s.setPrepay e.1 (fun p => { p with lastXfer := e.2.drop (e.2.length - 32) })) s
  let s := s.creditRestore
  let s := (List.range 8).foldl State.restorePulse s
  let pfd := s.pwr.lastPfd
  let losses := if after then s.lossList pfd else []
  let s := s.schedStart.restoreSources
  let s := s.enabledAccts.foldl (fun s a => s.chargeTo a s.pp.now.day) s
  let s := if after then s.restoreDemand else s
  let partial_ := match s.nvm.session with
    | none => false
    | some x => decide (x.valid < x.keys.length)
  let report := s.gaspReport pfd losses.length
  let s := s.setNvm (fun n => { n with restored := true, headFound := true, readable := true, report := report, lgPartial := partial_ })
  s.setPwr (fun p => { p with losses := losses, restoredAt := s.now })

end Sys2Proof.Machine
end

