-- ==== Sys2Proof/Machine/MemOps.lean ====
section
/-! DEFINITION. The memory island's shared operations: error records, poison by region, rows and spare rows, access rights,
march runs (R279-R306). -/
namespace Sys2Proof.Machine

/-- Change one bank. -/
def State.setBank (s : State) (b : Nat) (f : Bank → Bank) : State := s.setMem (fun m => { m with banks := m.banks.upd b f })

/-- The bank of a main SRAM address, and its logical row (R279). -/
def bankOf (a : Nat) : Nat := a / 262144 % 16
def rowOf (a : Nat) : Nat := a / 1024 % 256

/-- The target of a system address: bank, or the secure SRAM for bit 31 (Table 11.18). -/
def targetOf (a : Nat) : Nat := if 2 ^ 31 ≤ a then 0x10 else bankOf a

/-- An error record (Table 11.18) (DEDUCED, log 26). -/
def State.errorRecord (s : State) (kind master addr target detail pos : Nat) : Bytes :=
  le 6 s.now ++ le 1 kind ++ le 1 master ++ le 4 addr ++ le 1 target ++ le 1 detail ++ le 1 pos ++ le 1 0

/-! ### Rows and spare rows (R298, R302, R303) -/

/-- A remap entry (Table 11.11). -/
def SpareRow.code : SpareRow → Nat
  | .free => 0
  | .serves r => 0x8000 + r % 256
  | .bad => 0x4000
  | .transit => 0x2000

/-- What a remap entry says. -/
def spareOfCode (v : Nat) : SpareRow :=
  if bit v 14 then .bad else if bit v 13 then .transit else if bit v 15 then .serves (v % 256) else .free

/-- MEM_REMAP as the remap units hold it. -/
def State.remapValue (s : State) : Nat :=
  ofLe ((List.range 256).flatMap (fun i => le 2 (((s.mem.banks.get (i / 16)).spares.get (i % 16)).code)))

/-- Program the remap record after a change (R303). -/
def State.remapStore (s : State) : State :=
  let v := s.remapValue
  (s.storeTry false oMemRemap v 512).setCfg oMemRemap v

/-- Load the remap units from the stored record (R303). -/
def State.remapLoad (s : State) : State :=
  let v := s.cfg oMemRemap
  (List.range 16).foldl (fun s b => s.setBank b (fun x => { x with
    spares := (List.range 16).foldl (fun (m : KMap SpareRow) e => KMap.set m e (spareOfCode (v / 2 ^ (16 * (16 * b + e)) % 65536))) [] })) s

/-- The physical row that serves a logical row of a bank: 0-255 its own, 256 + e the spare row e. -/
def Bank.physical (b : Bank) (row : Nat) : Nat :=
  match (List.range 16).find? (fun e => decide (b.spares.get e = .serves row)) with
  | some e => 256 + e
  | none => row

/-- The physical row in the transit role: 272, or a spare row that has replaced it (R301). -/
def Bank.transitRow (b : Bank) : Nat :=
  match (List.range 16).find? (fun e => decide (b.spares.get e = .transit)) with
  | some e => 256 + e
  | none => 272

/-- The lowest free spare row. -/
def Bank.freeSpare (b : Bank) : Option Nat := (List.range 16).find? (fun e => decide (b.spares.get e = .free))

/-- EV19 (Table 17.5). -/
def State.ev19 (s : State) (bank row words source noSpare : Nat) : State :=
  s.raise 19 (le 1 bank ++ le 2 row ++ le 1 (sat 255 words) ++ le 1 source ++ le 1 noSpare)

/-- Give the lowest free spare row to a logical row (R302). -/
def State.remap (s : State) (bank phys words source row : Nat) : State :=
  match (s.mem.banks.get bank).freeSpare with
  | none => (s.setBank bank (fun b => { b with exhausted := true })).ev19 bank phys words source 1
  | some e =>
    let s := s.setBank bank (fun b => { b with spares := b.spares.set e (.serves row) })
    let s := s.ev19 bank phys words source 0
    (s.raise 20 (le 1 bank ++ le 1 row ++ le 1 e)).remapStore

/-- Give the lowest free spare row the transit role (R301). -/
def State.newTransit (s : State) (bank phys words source : Nat) : State :=
  match (s.mem.banks.get bank).freeSpare with
  | none => (s.setBank bank (fun b => { b with transitFailed := true })).ev19 bank phys words source 1
  | some e =>
    ((s.setBank bank (fun b => { b with spares := b.spares.set e .transit })).ev19 bank phys words source 0).remapStore

/-- A physical row of a bank has failed a test (R302): 0-255 rows of their own, 256-271 spare rows, 272 the transit row.
source is SOURCE of MARCH_STATUS. -/
def State.rowFailed (s : State) (bank phys words source : Nat) : State :=
  let b := s.mem.banks.get bank
  let s := s.setMem (fun m => { m with rowsFailed := sat 255 (m.rowsFailed + 1) })
  if phys = 272 then
    (if b.transitRow = 272 then s.newTransit bank phys words source else s)
  else if 256 ≤ phys then
    (let e := phys - 256
     let was := b.spares.get e
     let s := s.setBank bank (fun x => { x with spares := x.spares.set e .bad })
     match was with
     | .serves row => s.remap bank phys words source row
     | .transit => s.newTransit bank phys words source
     | _ => (s.ev19 bank phys words source 0).remapStore)
  else if b.physical phys = phys then s.remap bank phys words source phys
  else s

/-! ### Correctable errors (R281, R283, R291) -/

/-- Queue a row for a scrub-triggered preserving test (R291). -/
def State.queueRow (s : State) (bank row : Nat) : State :=
  if s.mem.scrubQ.contains (bank, row) then s else s.setMem (fun m => { m with scrubQ := m.scrubQ ++ [(bank, row)] })

/-- A word has been corrected (R281): count, record, EV16 at most once per second per bank. Bank 16 stands for the secure SRAM. -/
def State.corrected (s : State) (master addr errs pos : Nat) : State :=
  let rec_ := s.errorRecord 1 master addr (targetOf addr) errs pos
  let k := targetOf addr
  let s := s.setMem (fun m => { m with lastError := rec_ })
  let s := s.setBank k (fun b => { b with corrected := (b.corrected + 1) % 2 ^ 32, since := b.since + 1 })
  let b := s.mem.banks.get k
  let due := match b.lastEv16 with
    | none => true
    | some c => decide (c + 1000 * clkMs ≤ s.clock.clk)
  if due then
    (s.raiseAt 16 rec_ s.now b.since).setBank k (fun b => { b with since := 0, lastEv16 := some s.clock.clk })
  else s

/-- Count a corrected word in its row within the scrub pass; the row is queued at SCRUB_ROW_LIMIT (R291). -/
def State.scrubCount (s : State) (addr : Nat) : State :=
  let b := bankOf addr
  let r := rowOf addr
  let s := s.setBank b (fun x => { x with rows := x.rows.upd r (· + 1), pass := x.pass + 1 })
  if (s.mem.banks.get b).rows.get r = s.cfg oScrubRowLimit then s.queueRow b r else s

/-! ### Poisoned words by region (R284, Table 11.3) -/

/-- The samples of a ring word become invalid. -/
def State.poisonSample (s : State) (addr : Nat) : State :=
  let ch := addr / 0x3000
  let w := presetWidth (s.chans.get ch).preset
  let first := addr % 0x3000 / w
  s.setChan ch (fun x => { x with
    ring := (rangeFrom first (8 / w)).foldl (fun (m : KMap (Option Int)) i => if KMap.has m i then KMap.set m i none else m) x.ring })

/-- The work-queue entry of a word is set FREE. -/
def State.poisonQueue (s : State) (addr : Nat) : State :=
  let q := (addr - 0x340000) / 4096
  let i := (addr % 4096 / 16 + 256 - s.eng.head.get q % 256) % 256
  s.setEng (fun e => { e with wq := e.wq.upd q (fun l => (List.range l.length).map (fun j =>
    let t := l.getD j {}
    if j = i then { t with st := .free } else t)) })

/-- The bytes of a unit of a ring. -/
def unitBytes (k : Nat) : Nat := if k = 4 ∨ k = 5 then 32 else 64

/-- The ring entry that occupies a unit (DEDUCED, log 27). -/
def Ring.entryAt (r : Ring) (k unit : Nat) : Option Entry :=
  r.entries.find? (fun e => decide ((unit + ringUnits k - e.unit) % ringUnits k < e.units))

/-- An entry of a service ring is poisoned: a command is marked to be answered CRC_ERROR, a response is dropped, another
entry is dropped and counted. -/
def State.poisonRing (s : State) (addr : Nat) : State :=
  let k := (addr - 0x360000) / 16384
  let r := s.evt.rings.get k
  match r.entryAt k (addr % 16384 / unitBytes k) with
  | none => s
  | some e =>
    if k = 0 ∨ k = 2 then
      s.setRing k (fun r => { r with entries := r.entries.map (fun x => if x.seq = e.seq then { x with bad := true } else x) })
    else
      s.setRing k (fun r => { r with
        entries := r.entries.filter (fun x => x.seq ≠ e.seq), lost := if k = 1 ∨ k = 3 then r.lost else sat 4095 (r.lost + 1) })

/-- A word of the secure SRAM is poisoned: the account's credit line is rebuilt, or the key counts as not loaded. -/
def State.poisonSecure (s : State) (off : Nat) : State :=
  if off < 0x2D00 then
    (let a := off / 48
     let s := s.creditRebuild a
     if s.xferGap then (s.gapOn a).ev43Gap else s)
  else if off < 0x2D10 then s.setPp (fun p => { p with keyDevice := none })
  else if off < 0x3C10 then s.setPp (fun p => { p with keys := p.keys.set ((off - 0x2D10) / 16) none })
  else s

/-- The header of the capture block that holds an offset, walking the blocks of a slot from its start (Table 6.25). -/
def captHeader (m : List Host.Cell) (off limit : Nat) : Nat → Nat → Option Nat
  | _, 0 => none
  | base, n + 1 =>
    if limit ≤ base then none
    else
      let h := cellsGet 0 m base 16
      let next := base + 16 + (fld h 8 2 * fld h 12 1 + 15) / 16 * 16
      if off < next then some base else captHeader m off limit next n

/-- Whether a poisoned word of a region stays poisoned until it is written anew: the other regions are rewritten at once. -/
def keepsPoison (addr : Nat) : Bool :=
  decide (addr < 0x300000) || (decide (0x380000 ≤ addr) && decide (addr < 0x3C0000))

/-- A word of a capture slot: the record it stands in is marked in its quality bits (R283). -/
def State.poisonCapture (s : State) (off : Nat) : State :=
  let k := off / 32768
  match captHeader s.mem.capture off (32768 * k + (s.capt.get k).next) (32768 * k) 64 with
  | none => s
  | some h =>
    let q := Nat.lor (fld (cellsGet 0 s.mem.capture h 12) 10 2) 8
    s.setMem (fun m => { m with capture := cellsSet 0 m.capture (h + 10) (le 2 q) })

/-- What a poisoned word of a region does (DEDUCED, log 26). -/
def State.poisonRegion (s : State) (addr : Nat) : State :=
  if 2 ^ 31 ≤ addr then s.poisonSecure (addr - 2 ^ 31)
  else if addr < 0x300000 then s.poisonSample addr
  else if addr < 0x320000 then
    (let n := (addr - 0x300000) / 16
     if s.mem.recovering.any (fun x => decide (x.1 = n)) then s
     else s.setMem (fun m => { m with recovering := m.recovering ++ [(n, s.now)] }))
  else if addr < 0x340000 then s
  else if addr < 0x360000 then s.poisonQueue addr
  else if addr < 0x380000 then s.poisonRing addr
  else if addr < 0x3C0000 then s.poisonCapture (addr - 0x380000)
  else s

/-- A word becomes poisoned (R281, R283): count, record, EV17 for at most 16 words of a bank per RTC second, its row queued
for a test, and the outcome of its region (DEDUCED, log 26). -/
def State.poisonWord (s : State) (master addr : Nat) : State :=
  let k := targetOf addr
  let word := addr / 8 * 8
  let rec_ := s.errorRecord 2 master word k 0 0xFF
  let sec := secOf s.now
  let b := s.mem.banks.get k
  let n := if b.ev17At = sec then b.ev17s else 0
  let s := s.setBank k (fun b => { b with poisoned := sat 255 (b.poisoned + 1), ev17s := n + 1, ev17At := sec })
  let s := s.setMem (fun m => { m with
    uncorrectable := sat (2 ^ 32 - 1) (m.uncorrectable + 1), lastError := rec_
    poison := if keepsPoison word then m.poison.set word true else m.poison })
  let s := if n < 16 then s.raise 17 rec_ else s
  let s := if k < 16 then s.queueRow k (rowOf word) else s
  s.poisonRegion word

/-! ### Access rights (R292-R295) -/

/-- The policy of Table 11.7 for an address of main SRAM: may the slot read it in the life-cycle state? -/
def mayRead (lc slot addr : Nat) : Bool :=
  let debug := decide (lc = 0) || decide (lc = 1) || decide (lc = 4)
  if addr < 0x300000 then slot ≤ 4 || slot = 6 || (slot = 10 && debug)
  else if addr < 0x320000 then slot = 0 || slot = 12 || (7 ≤ slot && slot ≤ 9) || (slot = 10 && debug)
  else if addr < 0x340000 then slot ≤ 4 || (slot = 10 && debug)
  else if addr < 0x360000 then slot ≤ 4 || (slot = 10 && debug)
  else if addr < 0x380000 then
    slot = 0 || slot = 6 || slot = 12 || (slot = 10 && debug) ||
      (slot = 7 && (decide (0x364000 ≤ addr && addr < 0x368000) || decide (0x370000 ≤ addr))) ||
      ((slot = 8 || slot = 9) && decide (0x36C000 ≤ addr))
  else if addr < 0x3C0000 then slot ≤ 4 || (6 ≤ slot && slot ≤ 9) || slot = 12 || (slot = 10 && debug)
  else slot ≤ 4 || slot = 6 || slot = 12 || (slot = 10 && debug)

/-- A request is blocked (R293): counted, recorded, EV18 at most once per 10 ms for each slot. right is R 1, W 2 or A 4. -/
def State.violate (s : State) (slot addr target right : Nat) : State :=
  let rec_ := s.errorRecord 4 slot addr target right 0xFF
  let due := match s.mem.lastEv18.get slot with
    | none => true
    | some c => decide (c + 10 * clkMs ≤ s.clock.clk)
  let s := s.setMem (fun m => { m with violations := sat (2 ^ 32 - 1) (m.violations + 1), lastViolation := rec_ })
  if due then (s.raise 18 rec_).setMem (fun m => { m with lastEv18 := m.lastEv18.set slot (some s.clock.clk) }) else s

/-- ACCESS_TABLE_DIGEST (R294): the CRC-32 of the 18 tables under the policy that they hold. -/
def State.tableDigest (s : State) : Nat :=
  if !s.mem.locked then crc32 (List.replicate 18432 0)
  else crc32 ((List.range 2304).flatMap (fun i => le 8 (Config.window s.mem.policy (i / 128) (i / 8 % 16) (i % 8)).toNat))

/-! ### March runs (R304) -/

/-- SOURCE of MARCH_STATUS: the run in progress (Table 11.17) (DEDUCED, log 26). -/
def State.marchSource (s : State) : Nat :=
  if s.mem.scrubQ ≠ [] then 3 else if s.mem.request.isSome then 1 else if s.mem.periodic.isSome then 2 else 0

/-- Milliseconds that a preserving run still takes: 256 rows per pending bank, four banks at a time, at least 1 (R301, R304). -/
def State.marchLeft (s : State) (m : March) : Nat :=
  let n := (setList m.pending 16).length
  let op := if m.alg = 1 then 14320 else 6510
  let bg := [1, 2, 4, 4].getD m.bg 4
  max 1 (((n + 3) / 4 * 256 * (op * bg + 2600 + s.cfg oMarchRowGapUs * 1000) + 999999) / 1000000)

end Sys2Proof.Machine
end

