-- ==== Sys2Proof/Machine/PowerOps.lean ====
section
/-! DEFINITION. The trip and its emergency order, the cast-on and the METERING point (R12, R338-R355, R465). -/
namespace Sys2Proof.Machine

/-- The islands have their supply: supply-good has been reached and no trip, gating or rest has followed. -/
def State.supplied (s : State) : Bool :=
  s.pwr.good && (decide (s.pwr.mode = .castOn) || decide (s.pwr.mode = .run) || decide (s.pwr.mode = .bindOff))

/-- The islands run: supplied, and their clock tree is not stopped (R366) (DESIGN CHOICE, log 4). -/
def State.powered (s : State) : Bool := s.supplied && !s.tamper.stopped

/-! ### The trip (R338, R342, R353) -/

/-- RESET_CAUSE that the cast-on after a trip reports (Table 2.11); for a whole-device restart it is the restart's own. -/
def tripCause (source cause : Nat) : Nat := if source = 1 then 1 else if source = 2 then 8 else if source = 3 then 9 else cause

/-- The outage record of a trip (Table 13.9); an interrupted start leaves the open outage as it is (R353). -/
def State.outageOpen (s : State) (source : Nat) : State :=
  if !s.pwr.metering ∧ s.pwr.outSource ≠ 0 then s
  else s.setPwr (fun p => { p with
    outTrip := p.pfdTime, outCast := 0, outSource := source, outFlags := flag p.ewarn 4, outVbat := 0, outHold := 0xFFFFFFFF
    outBackup := 0, outGasp := 0xFFFFFFFF })

/-- The unfinished relay operation ends with coil bits 0 (R247). -/
def State.relayCut (s : State) : State :=
  s.setPp (fun p => { p with relay := { p.relay with phase := .idle, op := none, retry := [] } })

/-- Every island but AO is gated (Table 13.3) (DEDUCED, log 20). -/
def State.gateIslands (s : State) : State :=
  s.setPwr (fun p => { p with mode := .backup, metering := false, tripped := false, gaspEnded := true, bind := .none })

/-- A trip with its source, or a whole-device restart with source RESTART and its cause: the emergency order of Table 13.3
up to the last-gasp session (R12, R338, R342). A second source changes nothing (DEDUCED, log 20). -/
def State.emergency (s : State) (source cause : Nat) : State :=
  if !s.supplied then s
  else
    let t := s.now
    let s := s.setTamper (fun x => { x with stopped := false })
    let wasMetering := s.pwr.metering
    let s := s.raise 1 (le 1 source)
    let s := (s.setPwr (fun p => { p with pfdTime := t })).outageOpen source
    let s := s.setPwr (fun p => { p with
      mode := .powerFail, tripped := true, source := source, tripAt := s.clock.clk, gaspEnded := false
      holdoffDone := decide (source = 5), good := false, started := false, short := false, bind := .none
      nextCause := tripCause source cause, afterTrip := p.afterTrip || decide (source ≤ 3)
      lastPfd := if wasMetering then t else p.lastPfd })
    let s := s.setEng (fun e => { e with halted := true })
    let s := (s.dispAbandon false).commitAll
    let s := s.pqTruncate s.posNow
    let s := (s.outputsOff).relayCut
    let s := s.setHk (fun h => { h with running := false, active := none })
    let s := (s.setCal (fun c => { c with owner := none, running := false })).holdDrop
    if wasMetering then s.sessionStart else s.gateIslands

/-- A whole-device restart (R12): EV58 is held until METERING (DEDUCED, log 21). -/
def State.restartDevice (s : State) (cause : Nat) : State :=
  if !s.supplied then s
  else
    let c := if cause = 3 then 2 else if cause = 4 ∨ cause = 2 then 1 else 0
    (s.deferEvent 58 (le 1 6 ++ le 1 c) s.now).emergency 5 cause

/-- A restart that a tamper response or a life-cycle change demands runs now (R374, R385) (DEDUCED, log 21). -/
def State.restartIfDue (s : State) : State :=
  match s.tamper.restartDue with
  | none => s
  | some c =>
    if s.powered then (s.setTamper (fun t => { t with restartDue := none })).restartDevice c
    else s.setTamper (fun t => { t with restartDue := none })

/-- The AO island switches to VBAT, unless VBAT is known to be below 2.0 V (R344); the outage mark is latched (Table 15.7) (DEDUCED, log 20). -/
def State.toVbat (s : State) : State :=
  if s.pwr.onVbat ∨ (0 < s.pwr.vbat ∧ s.pwr.vbat < 2000) then s
  else
    let s := s.setPwr (fun p => { p with
      onVbat := true, vbatAt := s.clock.clk, vbatMin := if p.vbat = 0 then none else some p.vbat
      outFlags := Nat.lor p.outFlags 4 })
    if s.outageMode = 0 then s
    else (s.setDisp (fun d => { d with outage := true })).selvTarget 0 true

/-- The cell is compared with VBAT_LOW_MV (R346): VBAT_LOW, and EV4 at once with VIN33 present, else at METERING. -/
def State.vbatCompare (s : State) (mv : Nat) : State :=
  let step := mv / 100 * 100
  let s := s.setPwr (fun p => { p with
    vbat := step
    vbatMin := if p.onVbat then some (match p.vbatMin with
      | none => step
      | some m => min m step) else p.vbatMin })
  let low := s.cfg oVbatLowMv
  if mv < low ∧ s.pwr.vbatLow = false then
    (let s := s.setPwr (fun p => { p with vbatLow := true })
     if s.powered ∧ s.pwr.onVbat = false then s.raise 4 (le 2 step) else s.deferEvent 4 (le 2 step) s.now)
  else if low + 100 ≤ mv then s.setPwr (fun p => { p with vbatLow := false })
  else s

/-! ### Cast-on (R345, R349) -/

/-- The active values after a start: those of the stores (R32, R40). -/
def State.storedValues (s : State) : KMap (Option Nat) :=
  let put (m : KMap (Option Nat)) (st : Store) : KMap (Option Nat) :=
    st.recs.foldl (fun m e => match e.2 with
      | none => m
      | some r => if r.val = dfltOf e.1 then m else m.set e.1 (some r.val)) m
  put (put [] s.nvm.cfg) s.nvm.cal

/-- The spare that serves a retired channel at a start, with its folded codes (R77, R260). -/
def State.startRetired (s : State) (ch : Nat) : State :=
  let k := ch / 32
  let p := s.spares.get k
  if p.st = .failed ∨ p.ch.isSome then s.setChan ch (fun x => { x with uncovered := true })
  else
    let v := s.cfg (oCalSpareFold ch)
    let t := s.trims ch
    let ok := bit v 31
    let gc := bits v 29 16
    let oc : Int := if 2048 ≤ v % 4096 then (v % 4096 : Nat) - 4096 else (v % 4096 : Nat)
    let s := s.setSpare k (fun p => { p with
      st := .held, ch := some ch, why := .fault, stage := .serving, since := s.clock.clk, foldDue := !ok
      foldGain := gc, foldOffset := oc, g0 := rnd t.1, o0 := rnd t.2.1 })
    let s := if ok then s.setMod (256 + k) (fun m => { m with gain := gc, offset := oc }) else s
    s.setChan ch (fun x => { x with onSpare := some k })

/-- Converters, lanes and groups start (R60, R77, R107) (DEDUCED, log 22). -/
def State.startFrontEnd (s : State) : State :=
  let v := s.cfg oModRetired
  let s := (setList v 264).foldl (fun s m => s.setMod m (fun x => { x with retired := true })) s
  let s := (List.range 8).foldl (fun s k => if bit v (256 + k) then s.setSpare k (fun p => { p with st := .failed }) else s) s
  let s := s.enabledChans.foldl (fun s ch => ((s.laneStart ch).requestLoad ch).dacLoad 0 ch) s
  let s := (s.enabledChans.filter (fun ch => (s.mods.get ch).retired)).foldl State.startRetired s
  s.vgOn.foldl State.groupStart s

/-- Accounts, balance groups, engines and clusters start. -/
def State.startMetering (s : State) (outage : Bool) : State :=
  let s := ((List.range 4).filter (fun g => !(s.vgNamed g).isEmpty)).foldl (fun s g => s.setPq g (fun x => { x with outageDue := outage })) s
  let s := ((List.range 4).filter (fun c => !s.clusterOn c)).foldl (fun s c =>
    s.setEng (fun e => { e with clusters := e.clusters.upd c (fun x => { x with st := .off }) })) s
  ((List.range 32).filter (fun k => !s.engineOn k || !s.clusterOn (k / 8))).foldl (fun s k =>
    s.setEng (fun e => { e with engines := e.engines.upd k (fun x => { x with st := .off }) })) s

/-- The update unit after a start (R465, Table 18.6) (DEDUCED, log 22). -/
def State.startUpdate (s : State) : State :=
  let b := s.upd.boot
  let old := s.upd
  let base : Upd := { boot := b, half0 := some b.pset }
  if b.state = 1 ∧ 2 ≤ b.starts then
    (let s := { s with upd := { base with st := .activating, fallback := 6, backRestart := true } }
     let s := s.bootBack
     let s := s.programBoot (fun b => { b with pset := b.run })
     s.setUpd (fun u => { u with half0 := some u.boot.run }))
  else if b.state = 1 then
    (let s := { s with upd := { base with
        st := .trial, switched := decide (b.pset = b.run), newHalf := decide (b.pset ≠ b.run)
        half1 := if b.pset = b.run then none else some b.run } }
     s.programBoot (fun b => { b with starts := b.starts + 1 }))
  else if old.st = .armed ∨ old.st = .staged ∨ old.st = .rejected then
    { s with upd := { base with
        st := old.st, pages := old.pages, reject := old.reject
        afterMetering := decide (old.st = .armed) && decide (s.cfg oUpdActivateAt ≤ s.now) } }
  else if b.state = 2 ∧ old.backRestart then
    { s with upd := { base with st := .activating, backRestart := true, fallback := old.fallback } }
  else { s with upd := { base with st := if b.state = 2 then .fallenBack else .idle } }

/-- What the AO island and the NVM keep over a start; everything else begins at its reset value (R32, R356) (DEDUCED, log 22). -/
def State.startFresh (s : State) : State :=
  let rtc := if s.tamper.lostDue then s.lastSave else s.clock.rtc
  let c := s.clock
  { dict := { active := s.storedValues, broken := s.nvm.lost.foldl (fun (m : KMap Bool) k => KMap.set m k true) [] }
    clock := { c with
      castOn := c.clk, rtc := rtc, castOns := 0
      latch := if s.tamper.lostDue then c.clk else c.latch, prevRtc := rtc, prevLatch := c.latch, stepped := false }
    acc := { profile := s.acc.profile, demand := s.acc.demand, profAt := s.acc.profAt, profSeq := s.acc.profSeq }
    pp := { credit := s.pp.credit, acct := KMap.mapV s.pp.acct (fun (p : Prepay) => { ({} : Prepay) with
              srcTamper := p.srcTamper, tamperBy := p.tamperBy })
            keyDevice := s.pp.keyDevice, keys := s.pp.keys, keyCounter := s.pp.keyCounter }
    cal := { tOscAo := s.cal.tOscAo }
    nvm := { s.nvm with
      progFail := [], restored := false, headFound := false, readable := true, report := [], lgPartial := false
      restartAt := none, lastError := [] }
    pwr := s.pwr
    evt := { deferred := s.evt.deferred }
    mem := { secure := if s.mem.secure = 2 then 0 else s.mem.secure, locked := true, policy := s.lc, destructive := s.mem.destructive }
    tamper := { s.tamper with zeroized := s.tamper.zeroNow, zeroNow := false, restartDue := none, stopped := false, balActive := [] }
    life := { s.life with nonce := s.life.nonce + 1 }
    disp := { balance := s.disp.balance, backup := s.disp.backup, dirty := s.disp.dirty, clearDue := s.disp.dirty
              pendClear := s.disp.dirty, shown := s.disp.shown, updates := s.disp.updates, selv := s.disp.selv
              outage := s.disp.outage }
    upd := s.upd
    isl := { control := some c.clk, cause := 5, dogs := s.isl.dogs, dogAt := s.isl.dogAt, kick := c.clk }
    ans := s.ans, pending := s.pending }

/-- A life-cycle cell with one programmed copy: EV15 with PARTIAL (R383) (DEDUCED, log 46). -/
def State.partialCell (s : State) : State :=
  match (List.range 5).find? (fun i => decide (s.life.cells.getD i 0 = 1)) with
  | none => s
  | some i => s.raise 15 (le 1 1 ++ le 1 s.lc ++ le 1 (i + 1) ++ le 1 2)

/-- The cast-on begins at supply-good (R348, R349, Table 13.4) (DEDUCED, log 22). -/
def State.castOn (s : State) : State :=
  let outage := decide (s.pwr.outSource ≠ 0)
  let cause := if s.tamper.lostDue then 0 else s.pwr.nextCause
  let s := s.startFresh
  let t := s.now
  let s := { s with clock := { s.clock with castOnTime := t } }
  let s := s.setPwr (fun p => { p with
    mode := .castOn, good := true, started := true, tripped := false, cause := cause, ready := false, breach := [], lastEv6 := []
    shed := false, metering := false, lossBounded := false, losses := [], outCast := t, bind := .none
    backupLost := p.backupLost })
  let s := s.startUpdate
  let s := (s.remapLoad).startFrontEnd.startMetering outage
  let s := s.setDisp (fun d => { d with band := s.bandFor 25000 })
  let s := if s.tamper.lostDue then s.selvClear else s
  s.selvStatus.partialCell

/-- The conditions of R345 hold, and a clean crystal where R366 asks for it: the cast-on begins. -/
def State.tryCastOn (s : State) : State :=
  if s.supplied then s
  else if s.pwr.good && s.pwr.gaspEnded && s.pwr.holdoffDone && !s.tamper.needClean &&
      (decide (s.cfg oEwarnMode ≠ 2) || !s.pwr.ewarn) then s.castOn
  else s

/-! ### The METERING point (R352) -/

/-- Write the boot buffer and the held events in TIME order, DEFERRED (R446) (DEDUCED, log 25). -/
def State.writeDeferred (s : State) : State :=
  let held := s.evt.deferred
  let s := held.foldl (fun s e => s.eventMark e.src) s
  let l := (s.evt.boot ++ held).foldl (fun l d => insertEv d l) []
  let s := s.setEvt (fun e => { e with boot := [], deferred := [] })
  l.foldl (fun s d => s.eventEntry d.src d.data d.time d.count true) s

/-- Program the queued loss records and step SC7 for each, then one EV3 for each subject and cause (R327) (DEDUCED, log 23). -/
def State.writeLosses (s : State) : State :=
  let l := s.pwr.losses
  let s := l.foldl (fun s r => (s.logBoth 2 r).scStep 7) s
  let subj (r : Bytes) : Nat × Nat × Nat := (fld r 12 1, fld r 13 1, fld r 14 2)
  let s := (l.map subj).eraseDups.foldl (fun s x =>
    s.raise 3 (le 1 x.1 ++ le 1 x.2.1 ++ le 2 x.2.2 ++ le 2 ((l.filter (fun r => subj r = x)).length))) s
  s.setPwr (fun p => { p with losses := [], lossBounded := !l.isEmpty })

/-- EV15 and the history entry of a life-cycle change (R385). -/
def State.lifeDue (s : State) : State :=
  match s.life.due with
  | none => s
  | some d =>
    let s := if s.life.quiet then s else s.raise 15 (le 1 0 ++ le 1 d.1 ++ le 1 d.2.1 ++ le 1 d.2.2)
    { s with life := { s.life with due := none, history := s.life.history.set (d.2.1 - 1) s.now } }

/-- The METERING point of a cast-on: its first accumulation (R352) (DEDUCED, log 25). -/
def State.meteringPoint (s : State) : State :=
  if s.pwr.metering ∨ !s.powered then s
  else
    let p := s.pwr
    let s := s.setPwr (fun q => { q with metering := true, mode := if q.mode = .castOn then .run else q.mode })
    let s := s.writeDeferred
    let s := if p.afterTrip then s.scStep 4 else s
    let s := s.writeLosses
    let s := { s with clock := { s.clock with castOns := s.clock.castOns + 1 } }
    let s := s.saveMark [] p.restoredAt
    let s := if p.afterTrip then s.raise 5 (le 1 p.outSource ++ le 4 (secOf (p.outCast - p.outTrip))) else s
    let s := if 0 < p.retriesNow then s.raise 6 (le 1 0xFF ++ le 1 0 ++ le 4 p.retriesNow) else s
    let s := s.lifeDue
    let s := if s.outageMode = 1 ∧ s.disp.outage then
        (s.setDisp (fun d => { d with outage := false })).selvTarget 0 false else s
    let s := s.setNvm (fun n => { n with session := none })
    let s := s.setCal (fun c => { c with meterTrig := true })
    s.setPwr (fun q => { q with afterTrip := false, retriesNow := 0, outSource := q.outSource })

/-- What follows a commit or a boundary: the METERING point at the first accumulation, the confirmation of a trial image, the
steps of a commanded bind-off (R352, R354, R461). -/
def State.after (s : State) : State :=
  let s := if s.acc.applied then s.meteringPoint else s
  let s := s.confirmCheck
  if s.pwr.bind = .none then s else s.bindProgress

/-- MODE of POWER_STATUS (Table 13.8). -/
def Pwr.modeCode (p : Pwr) : Nat := match p.mode with
  | .run => 2
  | .bindOff => 3
  | .powerFail => 4
  | _ => 1

end Sys2Proof.Machine
end

