-- ==== Sys2Proof/Machine/Flags.lean ====
section
/-! DEFINITION. The status words of the dictionary, bit by bit from the bit maps of the spec. -/
namespace Sys2Proof.Machine

/-! ### Device (Tables 2.9 to 2.11) -/

/-- PENDING_COUNT: the objects with a waiting value, held and next-start values among them (R38, R40, R42) (DEDUCED, log 17). -/
def State.pendingCount (s : State) : Nat :=
  ((s.dict.shadow ++ s.dict.held ++ s.dict.nextStart).map Prod.fst).eraseDups.length

/-- A store above 90 % of its pairs. -/
def Store.low (st : Store) (cal : Bool) : Bool := decide (9 * storePairs cal < 10 * st.live.length)

/-- DEVICE_STATUS (Table 2.10). -/
def State.deviceStatus (s : State) : Nat :=
  mapBits 4 (fun k => decide ((s.eng.clusters.get k).st = .inService)) * 2 ^ 12 +
    flag s.dict.expired 11 + flag (s.nvm.cfg.low false || s.nvm.cal.low true) 10 +
    flag (decide (s.disp.work = .clear) && s.disp.dirty) 9 + flag s.pwr.lossBounded 8 + flag s.cal.owner.isSome 7 +
    flag ((List.range 4).any (fun g => (s.groups.get g).running && s.vgUnlocked g)) 6 + flag (decide (s.upd.st = .trial)) 5 +
    flag (decide (s.upd.st = .staged) || decide (s.upd.st = .armed)) 4 + flag s.dict.owner.isSome 3 +
    flag (decide (0 < s.pendingCount)) 2 + flag s.eng.ovr 1 + flag s.pwr.metering 0

/-! ### Front end (Tables 3.3, 3.4, 3.9, 3.13) -/

/-- CH_CONVERTER (Table 3.3). -/
def State.converter (s : State) (ch : Nat) : Nat :=
  let x := s.chans.get ch
  if !s.cfgB (oChEnable ch) then 4
  else if x.uncovered then 3
  else if x.onSpare.isNone then 0
  else if (s.mods.get ch).retired then 2 else 1

/-- The samples of a channel are valid (bit 0 of CH_HEALTH). -/
def Chan.valid (x : Chan) : Bool := x.running && x.faultAt.isNone && !x.uncovered && decide (x.validFrom < x.next)

/-- CH_HEALTH (Table 3.4). -/
def State.chHealth (s : State) (ch : Nat) : Nat :=
  let x := s.chans.get ch
  sat 255 x.alignFail * 2 ^ 8 + flag x.uncovered 7 + flag (s.mods.get ch).retired 6 + flag x.onSpare.isSome 5 +
    flag x.ovr 4 + flag x.driftOff 3 + flag x.driftGain 2 + flag x.stuck 1 + flag (s.cfgB (oChEnable ch) && x.valid) 0

/-- A spare's nibble (Table 3.9): OFF while no channel of its group is enabled. -/
def State.spareNibble (s : State) (k : Nat) : Nat :=
  match (s.spares.get k).st with
  | .off => 0
  | .idle => if (List.range 32).any (fun i => s.cfgB (oChEnable (32 * k + i))) then 1 else 0
  | .parallel => 2
  | .rotation => 3
  | .request => 4
  | .held => 5
  | .failed => 6

/-- SPARE_STATE (Table 3.9). -/
def State.spareState (s : State) : Nat := ofLe ((List.range 4).map (fun j =>
  BitVec.ofNat 8 (s.spareNibble (2 * j) + 16 * s.spareNibble (2 * j + 1))))

/-- HK_STATUS (Table 3.13). -/
def Hk.status (h : Hk) : Nat :=
  h.loops % 65536 * 2 ^ 16 + flag h.fallback 9 + (match h.active with
    | some k => (k + 1) * 2 ^ 7 + 2 ^ 6
    | none => 0) + flag h.running 5 + h.step % 32

/-! ### Filter (Tables 4.5, 4.7, 4.13) -/

/-- TH_STATE (Table 4.5). -/
def State.thState (s : State) (ch : Nat) : Nat :=
  let t := s.th.get ch
  sat 255 t.hi.count * 2 ^ 16 + sat 255 t.lo.count * 2 ^ 8 + flag t.suspended 3 + flag t.lo.tripped 2 + flag t.hi.tripped 1 +
    flag (s.cfgB (oThEnable ch) && s.cfgB (oChEnable ch)) 0

/-- FTRIP_STATE (Table 4.7). -/
def State.ftripState (s : State) : Nat :=
  mapBits 8 (fun n => (s.ftrip.get n).latched) * 2 ^ 8 + mapBits 8 (fun n => (s.ftrip.get n).level)

/-- The tracker of a named channel of a group: 0 reference, 1 and 2 fallbacks; none where the word does not name it. -/
def State.namedTrack (s : State) (g i : Nat) : Option Tracker :=
  ((s.vgNamed g).find? (fun x => decide (x.1 = i))).map (fun x => s.tracks.get x.2)

/-- VG_STATUS (Table 4.13). -/
def State.vgStatus (s : State) (g : Nat) : Nat :=
  let x := s.groups.get g
  let src := match x.table with
    | b :: _ => b.source
    | [] => 3
  let lk (i : Nat) : Bool := match s.namedTrack g i with
    | some t => x.running && t.locked
    | none => false
  let rd (i : Nat) : Bool := match s.namedTrack g i with
    | some t => x.running && t.ready.isSome
    | none => false
  flag x.free 15 + src % 4 * 2 ^ 13 + flag (lk 0) 12 + flag (lk 1) 11 + flag (lk 2) 10 + flag (rd 1) 9 + flag (rd 2) 8 +
    sat 255 x.good

/-! ### Engines (Tables 5.10, 5.12) -/

/-- The code of an engine's or cluster's state (Table 5.10). -/
def UnitSt.code : UnitSt → Nat
  | .off => 0
  | .starting => 1
  | .inService => 2
  | .restarting => 3
  | .outOfService => 4

/-- ENGINE_IN_SERVICE. -/
def State.engineMask (s : State) : Nat := mapBits 32 s.inService

/-- CLUSTER_STATUS (Table 5.10). -/
def State.clusterStatus (s : State) (c : Nat) : Nat :=
  let x := s.eng.clusters.get c
  let susp := ((List.range 8).map (fun i => (s.eng.engines.get (8 * c + i)).susp.length)).foldl (· + ·) 0
  mapBits 8 (fun i => s.inService (8 * c + i)) * 2 ^ 24 + sat 255 x.count * 2 ^ 16 + susp * 2 ^ 8 + x.st.code

/-- OVERLOAD_STATE (Table 5.12). -/
def State.overloadState (s : State) : Nat :=
  let e := s.eng
  e.p2 * 2 ^ 24 + e.capt * 2 ^ 16 + e.supra * 2 ^ 8 + flag e.noCluster 3 + flag e.guard 2 +
    flag (e.ovr && decide (0 < e.exitCount)) 1 + flag e.ovr 0

/-! ### Results (Tables 6.17, 6.22) -/

/-- RES_STATUS (Table 6.17). -/
def Acct.status (x : Acct) : Nat :=
  let slots := (List.range 4).foldl (fun n k => if (x.plaus.get k).flag then n ||| (x.plaus.get k).slots else n) 0
  mapBits 4 (fun k => (x.plaus.get k).flag) * 2 ^ 20 + slots % 16 * 2 ^ 16 + sat 255 x.bill.quiet * 2 ^ 8 +
    x.bill.quadrant % 4 * 2 ^ 4 + flag x.bill.fundExp 3 + flag x.repExp 2 + flag x.bill.neutral 1 + flag x.valid 0

/-- PQ_GROUP_STATUS (Table 6.22). -/
def State.pqStatus (s : State) (g : Nat) : Nat :=
  let x := s.pq.get g
  flag (s.leader g).isSome 15 + flag (decide (x.seqState = 2)) 14 + flag (decide (x.seqState = 0)) 13 + flag x.neutral 12 +
    flag x.interruption.isSome 11 + flag x.swell.isSome 10 + flag x.dip.isSome 9 + (s.leader g).getD 0 % 256

/-! ### Pulses (Table 7.11) -/

/-- PULSE_STATUS (Table 7.11). -/
def Pulse.status (p : Pulse) : Nat := sat 65535 p.owed * 2 ^ 16 + flag p.overspeed 2 + flag p.late 1 + flag p.level 0

/-! ### Prepayment (Tables 9.5, 9.8, 9.13) -/

/-- CAL_STATUS of the calendar: CAL_STALE while the local year is not CAL_YEAR (R236). -/
def State.calendarStatus (s : State) : Nat :=
  let e := s.schedAt s.now
  e.band % 8 + flag e.night 3 + flag e.weekend 4 + flag e.holiday 5 +
    flag (decide ((civil (s.localDay s.now)).1 ≠ (s.cfg oCalYear : Int))) 6 + flag e.dst 7

/-- STATE of PP_STATUS (Table 9.13) (DEDUCED, log 19). -/
def State.ppState (s : State) (a : Nat) : Nat :=
  let p := s.pp.acct.get a
  let r := s.pp.relay
  let running (opens : Bool) : Bool := match r.op with
    | some o => decide (o.opens = opens) && o.accts.contains a
    | none => false
  if s.sources a ≠ 0 ∨ r.openQ.contains a then 4
  else if p.waitArm then 5
  else if r.closeQ.contains a || running false then 6
  else if s.cfg (oPpMode a) = 0 ∨ s.cfgB (oAccEnable a) = false then 0
  else if s.creditI a ≤ s.exhaustLevel a then 3
  else if s.creditI a < s.cfgI 8 (oPpLowLevel a) then 2 else 1

/-- PP_STATUS (Table 9.13) (DEDUCED, log 19). -/
def State.ppStatus (s : State) (a : Nat) : Nat :=
  let p := s.pp.acct.get a
  let c := s.pp.credit.get a
  let sl := s.relaySlots a
  s.tariffAt a s.now % 16 * 2 ^ 28 + s.sources a * 2 ^ 24 + flag p.restored 16 + s.ppState a * 2 ^ 12 + p.band % 8 * 2 ^ 9 +
    p.blk % 4 * 2 ^ 7 + flag c.ec 6 + flag c.gap 5 + flag (sl.any s.pp.relay.fault.get) 4 +
    flag (decide (sl ≠ []) && sl.all s.pp.relay.closed.get) 3 + flag (s.friendly a (s.schedAt s.now)) 1 +
    flag (decide (s.cfg (oPpMode a) = 1) && s.cfgB (oAccEnable a)) 0

/-- RLY_QUEUE. -/
def Relay.queue (r : Relay) : Nat := sat 65535 r.closeQ.length * 2 ^ 16 + sat 65535 r.openQ.length

/-- KEY_LOADED. -/
def State.keyLoaded (s : State) : Nat :=
  mapBits 240 (fun a => (s.pp.keys.get a).isSome) + flag s.pp.keyDevice.isSome 240

/-! ### Calibration (Tables 10.7, 10.11) -/

/-- CAL_STATUS of a channel (Table 10.7). -/
def State.calStatus (s : State) (ch : Nat) : Nat :=
  flag (s.inSession ch) 15 + flag (s.stepOn ch) 14 + flag (s.cal.untracked.get ch) 10 +
    flag (decide ((s.validPts ch).length ≠ (s.usedPts ch).length)) 9 + flag (s.cal.clamped.get ch) 8 +
    ((s.usedPts ch).map (fun p => 2 ^ p.1)).foldl (· + ·) 0

/-- STATE of CS_STATUS: the earliest of the states of the step's channels. -/
def State.csState (s : State) : Nat :=
  if s.cal.owner.isNone then 0
  else if !s.cal.running then 1
  else
    let l := s.cal.chans.filterMap (fun e => e.2.map StepCh.st)
    if l.contains .waitReturn then 2 else if l.contains .stabilising then 3 else if l.contains .measuring then 4
    else if l.contains .signature then 5 else 6

/-- CS_STATUS (Table 10.11). -/
def State.csStatus (s : State) : Nat :=
  let it := (s.cal.chans.filterMap (fun e => e.2.map StepCh.iters)).foldl max 0
  sat 255 it * 2 ^ 24 + s.cal.point % 8 * 2 ^ 17 + flag s.cal.compat 16 + (match s.cal.owner with
    | some .h => 2 ^ 8
    | some _ => 2 ^ 9
    | none => 0) + flag s.cal.passRun 7 + flag s.cal.passDue 6 + flag s.cal.split 5 + s.csState

/-! ### Memory (Tables 11.14, 11.15, 11.17) -/

/-- The life-cycle states in which the J-port's debug functions are present (R294, R386). -/
def debugState (lc : Nat) : Bool := decide (lc = 0) || decide (lc = 1) || decide (lc = 4)

/-- MEM_STATUS (Table 11.14). -/
def Mem.status (m : Mem) : Nat :=
  m.secure % 4 * 2 ^ 6 + flag m.locked 5 + flag (m.locked && debugState m.policy) 4 + flag (decide (m.recovering ≠ [])) 3

/-- A preserving run still has a bank to test. -/
def Mem.testing (m : Mem) (b : Nat) : Bool :=
  (match m.request with
   | some r => bit r.pending b
   | none => false) || (match m.periodic with
   | some r => m.request.isNone && bit r.pending b
   | none => false) || m.scrubQ.any (fun e => decide (e.1 = b))

/-- BANK_STATUS (Table 11.15). -/
def State.bankStatus (s : State) (b : Nat) : Nat :=
  let x := s.mem.banks.get b
  let free := ((List.range 16).filter (fun k => decide (x.spares.get k = .free))).length
  free * 2 ^ 24 + sat 255 x.lastPass * 2 ^ 16 + sat 255 x.poisoned * 2 ^ 8 + flag x.transitFailed 4 + flag x.exhausted 3 +
    flag (s.mem.testing b) 2 + flag x.locked 1 + flag x.online 0

/-- MARCH_STATUS (Table 11.17) (DEDUCED, log 19). -/
def State.marchStatus (s : State) : Nat :=
  let m := s.mem
  let left : Nat := match m.request, m.periodic with
    | some r, _ => r.pending
    | none, some r => r.pending
    | none, none => 0
  sat 255 m.rowsFailed * 2 ^ 24 + s.marchSource * 2 ^ 18 + flag m.startupFail 17 + flag (decide (s.marchSource ≠ 0)) 16 +
    left % 65536

/-! ### Non-volatile store (Tables 12.11 to 12.13) -/

/-- The tamper log is full (R328). -/
def State.logFull (s : State) : Bool := decide (4096 ≤ s.scVal 1)

/-- NVM_STATUS (Table 12.12). A save, a compaction and a refresh pass are single commands here, so none is ever seen
running (DEDUCED, log 19). -/
def State.nvmStatus (s : State) : Nat :=
  flag s.logFull 10 + flag s.reserveLow 9 + flag s.nvm.cal.full 8 + flag s.nvm.cfg.full 7 + flag s.nvm.lgPartial 6 +
    flag s.nvm.restored 2 + flag s.nvm.headFound 1 + flag s.nvm.readable 0

/-- NB_STATUS (Table 12.13). -/
def State.nbStatus (s : State) (b : Nat) : Nat :=
  ((s.nvm.bad.filter (fun p => decide (p % 8 = b))).length) * 2 ^ 16 + flag (s.nvm.progFail.get b) 2 +
    flag (s.powered && !s.nvmDown) 0

/-- STORE_FILL: live pairs in permille. -/
def State.storeFill (s : State) : Nat :=
  1000 * s.nvm.cal.live.length / storePairs true * 2 ^ 16 + 1000 * s.nvm.cfg.live.length / storePairs false

/-- NVM_LIFE_MONTHS (R308, R320): the programs that the 4,096 journal pages have left, at the mean daily rate of the days
kept; a month is a twelfth of 365.25 days (DEDUCED, log 19). -/
def State.lifeMonths (s : State) : Nat :=
  let l := s.nvm.perDay.take 30
  let used := l.foldl (· + ·) 0
  if used = 0 then 2 ^ 32 - 1
  else sat (2 ^ 32 - 1) ((4096 * 1000000 - s.nvm.jHead) * l.length * 48 / (used * 1461))

/-! ### Power (Table 13.8) -/

/-- POWER_STATUS (Table 13.8). -/
def State.powerStatus (s : State) : Nat :=
  let p := s.pwr
  p.source % 16 * 2 ^ 12 + flag p.shed 11 + flag p.vbatLow 10 + flag p.backupLost 9 + flag p.short 8 + flag p.ewarn 7 +
    flag (p.breach.get 0 || p.breach.get 1) 6 + flag p.onVbat 4 + flag p.ready 3 + p.modeCode

/-! ### Tamper and life cycle (Tables 14.10, 14.14) -/

/-- TAMP_STATUS (Table 14.10). -/
def State.tampStatus (s : State) : Nat :=
  let t := s.tamper
  mapBits 8 (fun i => (t.tamp.get i).active) * 2 ^ 24 + mapBits 4 (fun i => (t.mag.get i).active) * 2 ^ 20 + flag t.mark 19 +
    flag s.maintenance 18 + flag t.suspect 17 + flag t.rtcOnRc 16 + flag t.mainOnRc 15 + flag t.tempAlarm 14 +
    flag (decide (0 < t.lostNow)) 11 + sat 64 t.buf.length * 2 ^ 4 + flag s.logFull 1 + flag t.zeroized 0

/-- LC_INFO (Table 14.14). -/
def State.lcInfo (s : State) : Nat :=
  mapBits 5 (fun k => decide (2 ≤ s.life.cells.getD k 0)) * 2 ^ 8 + flag s.life.keyReturn.isSome 7 +
    flag (s.life.cells.contains 1) 6 + flag (debugState s.lc) 0

/-! ### Display (Table 15.10) -/

/-- The code of the display's state. -/
def DispSt.code : DispSt → Nat
  | .off => 0
  | .pumpUp => 1
  | .balancing => 2
  | .waveform => 3
  | .hold => 4
  | .clearing => 5
  | .discharging => 6
  | .abandoned => 7
  | .waiting => 8

/-- DISP_STATUS (Table 15.10). -/
def State.dispStatus (s : State) : Nat :=
  let d := s.disp
  flag d.dirty 15 + flag d.backup 14 + flag (decide (phases (s.wf d.band) = 0)) 13 + flag d.pumpFail 12 + flag d.pendBal 11 +
    flag d.pendClear 10 + flag d.pendUpdate 9 + flag ((List.range 8).any (fun i => (d.selv.get i).run.isSome)) 8 +
    d.bandRun % 8 * 2 ^ 5 + d.st.code

/-- The net DC of a transition of a band's table, in units of 15 V ms (R401). -/
def State.waveDc (s : State) (b : Nat) (old new : Bool) : Int :=
  let t := s.wf b
  (List.range (phases t)).foldl (fun n ph => n + 20 * level t ph old new) 0

/-- DISP_SHOWN: the main field and the selvedge segments. -/
def State.dispShown (s : State) : Nat := s.disp.shown % 2 ^ 88 + mapBits 8 (fun i => (s.disp.selv.get i).shown) * 2 ^ 88

/-! ### Ports, rings and update (Tables 16.7, 16.14, 17.9, 18.7) -/

/-- I2C_STATUS (Table 16.14). -/
def Ports.i2cStatus (p : Ports) : Nat :=
  sat 65535 p.errors * 2 ^ 16 + flag p.recovered 12 + mapBits 4 p.timeout.get * 2 ^ 8 + mapBits 4 p.nack.get * 2 ^ 4 +
    mapBits 4 p.valid.get

/-- RING_STATUS (Table 17.9). -/
def State.ringStatus (s : State) (k : Nat) : Nat :=
  let r := s.evt.rings.get k
  sat 4095 r.lost * 2 ^ 20 + s.ringFree k * 2 ^ 10 + r.entries.length

/-- PSTAT (Table 16.7) (DEDUCED, log 31). -/
def State.pstat (s : State) : Nat :=
  let p := s.ports.p.get 0
  let waits (k : Nat) : Bool := (s.evt.rings.get k).entries.any (fun e => e.await.contains Cls.h)
  p.lastTag % 65536 * 2 ^ 48 + p.lastRetry % 65536 * 2 ^ 32 + sat 255 (s.ringFree 0) * 2 ^ 24 +
    sat 255 (s.evt.rings.get 1).entries.length * 2 ^ 16 + flag (decide (p.bulk.buf ≠ [])) 15 + flag (waits 4) 14 +
    flag (waits 5 || waits 6 || waits 7) 13 + flag s.isl.control.isSome 12 + p.lastResult % 4 * 2 ^ 10 + p.lastStatus % 256

/-- The code of an update state (Table 18.6). -/
def UpdSt.code : UpdSt → Nat
  | .idle => 0
  | .receiving => 1
  | .verifying => 2
  | .staged => 3
  | .armed => 4
  | .activating => 5
  | .trial => 6
  | .fallenBack => 7
  | .rejected => 8

/-- UPD_STATUS (Table 18.7). -/
def State.updStatus (s : State) : Nat :=
  let u := s.upd
  u.reject % 256 * 2 ^ 24 + u.fallback % 256 * 2 ^ 16 + flag u.retainedBad 7 + u.boot.starts % 4 * 2 ^ 5 +
    flag (decide (0 < u.faults)) 4 + flag u.billSeen 3 + flag u.switched 2 + flag u.confirm 1

end Sys2Proof.Machine
end

