-- ==== Sys2Proof/Machine/Operands.lean ====
section
/-! DEFINITION. The operand forms of a dictionary request: the payload of each data type, its encoding and its range (Table
2.1, steps 4 and 5 of Table 2.4). -/
namespace Sys2Proof
open Sys2Proof.Machine

/-- The payload bytes that a type takes at least and at most (Table 2.1). -/
def Ty.span : Ty → Nat × Nat
  | .bool => (1, 1)
  | .u n => (n, n)
  | .i n => (n, n)
  | .f32 => (4, 4)
  | .time => (6, 6)
  | .str => (0, 64)
  | .octets lo hi => (lo, hi)

/-- Step 4 of Table 2.4: the payload's length fits the type, and a STR holds printable ASCII only (R26). -/
def typeOk (t : Ty) (b : Bytes) : Bool :=
  decide ((Ty.span t).1 ≤ b.length) && decide (b.length ≤ (Ty.span t).2) && (match t with
    | .str => b.all (fun x => decide (0x20 ≤ x.toNat) && decide (x.toNat ≤ 0x7E))
    | _ => true)

/-- The number an F32 pattern stands for, in thousandths; infinities and NaN are not asked. -/
def f32Milli (v : Nat) : Rat := ofF32 v * 1000

/-- Step 5 of Table 2.4 for a card: permitted values of the type (R26, R29), the card's range, and RES bits 0 (R6). -/
def Card.fits (c : Card) (v : Nat) : Bool :=
  (match c.ty with
   | .bool => decide (v ≤ 1)
   | .f32 => f32Ok v
   | _ => true) &&
  (match c.rng with
   | none => true
   | some r => match c.ty with
     | .i n => decide (r.1 ≤ sgn n v) && decide (sgn n v ≤ r.2)
     | .f32 => decide ((r.1 : Rat) ≤ f32Milli v) && decide (f32Milli v ≤ (r.2 : Rat))
     | _ => decide (r.1 ≤ (v : Int)) && decide ((v : Int) ≤ r.2)) &&
  (match c.mask with
   | none => true
   | some m => decide (v &&& m = v))

/-- The bytes of an object of a fixed size. -/
def Card.size (c : Card) : Nat := (Ty.span c.ty).2

/-- The access letter of a class on a card: 0 none, 1 read, 2 write, 3 both. -/
def Card.right (c : Card) (q : Cls) : Nat := c.acc.getD (clsNo q) 0

/-- The class may read or write the object (step 2 of Table 2.4). -/
def Card.mayRead (c : Card) (q : Cls) : Bool := c.right q % 2 = 1
def Card.mayWrite (c : Card) (q : Cls) : Bool := 2 ≤ c.right q

end Sys2Proof
end

