-- ==== Sys2Proof/Machine/Reads.lean ====
section
/-! DEFINITION. What every object of the dictionary reads: one function per record, by subindex. Objects that are plain
stored values read their active value. -/
namespace Sys2Proof.Machine

/-- An element of a list of numbers. -/
def nth (l : List Nat) (i : Nat) : Nat := l.getD i 0

/-- Identity, status and time (0x1000-0x1102). -/
def State.readIdent (s : State) (key : Nat) : Nat :=
  if key = oSerialNumber then Config.serialNumber.toNat
  else if key = oFirmwareVersion then s.firmware
  else if key = oPatternSetVersion then s.patternSet
  else if key = oDeviceStatus then s.deviceStatus
  else if key = oResetCause then s.pwr.cause
  else if key = oConfigEpoch then s.dict.epoch.toNat
  else if key = oPendingCount then sat 65535 s.pendingCount
  else if key = oUptimeS then (s.clock.clk - s.clock.castOn) / 4096000 % 2 ^ 32
  else if key = oCastOnCount then s.clock.castOns.toNat
  else if key = oLifeCycleState then s.lc
  else if key = oTimeNow then s.now
  else if key = oTimeLastSet then s.clock.lastSet
  else if key = oCastOnTime then s.clock.castOnTime
  else if key = oLastPfdTime then s.pwr.lastPfd
  else if key = oConfigHold then flag s.dict.owner.isSome 0
  else s.cfg key

/-- Ports (0x2000-0x2050). -/
def State.readPorts (s : State) (key : Nat) : Nat :=
  let p (k : Nat) : Port := s.ports.p.get k
  let w (n : Nat) : Nat := n % 2 ^ 32
  if key = oHAccepted then w (p 0).accepted
  else if key = oHCrcErrors then w (p 0).crcErrors
  else if key = oHBusyRefusals then w (p 0).busy
  else if key = oHRepeats then w (p 0).repeats
  else if key = oFLastSync then ofLe s.ports.lastSync
  else if key = oFAccepted then w (p 1).accepted
  else if key = oFCrcErrors then w (p 1).crcErrors
  else if key = oFBusyRefusals then w (p 1).busy
  else if key = oFRepeats then w (p 1).repeats
  else if key = oSAccepted then w (p 2).accepted
  else if key = oSCrcErrors then w (p 2).crcErrors
  else if key = oSBusyRefusals then w (p 2).busy
  else if key = oSRepeats then w (p 2).repeats
  else if within key (oI2cTempMc 0) 4 then unsgn 4 (s.ports.temp.get (key - oI2cTempMc 0))
  else if key = oI2cStatus then s.ports.i2cStatus
  else if key = oRlyReadback then mapBits 256 s.pp.relay.closed.get
  else if key = oRlyPresent then mapBits 256 s.pp.relay.present.get
  else if key = oRlyFault ∨ key = oRlyCommanded then s.jVal key
  else if key = oRlyQueue then s.pp.relay.queue
  else s.cfg key

/-- Events and rings, and diagnostics (0x2100, 0xF000). -/
def State.readEvents (s : State) (key : Nat) : Nat :=
  if key = oEventPending then mapBits 64 s.evt.pending.get
  else if key = oEventCount then ofLe ((List.range 64).flatMap (fun n => le 4 (s.evt.count.get n)))
  else if within key (oRingStatus 0) 8 then s.ringStatus (key - oRingStatus 0)
  else if key = oBootEventsLost then sat 65535 s.evt.bootLost
  else if key = oWatchdogCount then s.jVal key
  else s.cfg key

/-- A channel's configuration (0x3000 + ch). -/
def State.readChan (s : State) (ch sub : Nat) : Nat :=
  let x := s.chans.get ch
  let m := s.mods.get (match x.onSpare with
    | some k => 256 + k
    | none => ch)
  match sub with
  | 6 => flag x.substitute 0
  | 7 => s.converter ch
  | 8 => m.gain
  | 9 => unsgn 2 m.offset
  | 10 => s.chHealth ch
  | 11 => x.overCount % 2 ^ 32
  | _ => s.cfg (okey (0x3000 + ch) sub)

/-- A channel's calibration (0x3100 + ch) (DEDUCED, log 39). -/
def State.readCal (s : State) (ch sub : Nat) : Nat :=
  let x := s.chans.get ch
  match sub with
  | 7 => s.calStatus ch
  | 8 => s.calQuality ch
  | 9 => unsgn 4 x.gApplied
  | 10 => unsgn 4 x.oApplied
  | 11 => unsgn 2 x.phase
  | 12 => unsgn 4 (s.cal.driftG.get ch)
  | 13 => unsgn 4 (s.cal.driftO.get ch)
  | _ => s.cfg (okey (0x3100 + ch) sub)

/-- A channel's thresholds (0x3200 + ch). -/
def State.readTh (s : State) (ch sub : Nat) : Nat :=
  match sub with
  | 9 => s.thState ch
  | 10 => (s.th.get ch).trips % 2 ^ 32
  | _ => s.cfg (okey (0x3200 + ch) sub)

/-- The front end's globals, voltage groups and presets (0x3300-0x3500). -/
def State.readAfe (s : State) (key : Nat) : Nat :=
  if key = oSpareState then s.spareState
  else if key = oHkStatus then s.hk.status
  else if key = oHkLimitFlags then s.hk.flags.toNat
  else if within key (oHkResult 0) 32 then unsgn 4 (s.hk.result.get (key - oHkResult 0))
  else if within key (oVgStatus 0) 4 then s.vgStatus (key - oVgStatus 0)
  else if within key (oVgPeriodNs 0) 4 then sat (2 ^ 32 - 1) (s.groups.get (key - oVgPeriodNs 0)).periodNs
  else if within key (oVgCycleCount 0) 4 then ((s.groups.get (key - oVgCycleCount 0)).table.head?.map (fun b => b.cycle.toNat)).getD 0
  else if within key (oVgFallbackCount 0) 4 then (s.groups.get (key - oVgFallbackCount 0)).fallbacks % 2 ^ 32
  else if within key (oVgFreeRunCount 0) 4 then (s.groups.get (key - oVgFreeRunCount 0)).freeRuns % 2 ^ 32
  else s.cfg key

/-- An account's configuration (0x4000 + a). -/
def State.readAcct (s : State) (a sub : Nat) : Nat :=
  if sub = 15 then (s.accts.get a).cycle.toNat else s.cfg (okey (0x4000 + a) sub)

/-- An account's prepayment record (0x4100 + a). -/
def State.readPrepay (s : State) (a sub : Nat) : Nat :=
  let c := s.pp.credit.get a
  let p := s.pp.acct.get a
  match sub with
  | 12 => c.credit.toNat
  | 13 => s.ppStatus a
  | 14 => c.block % 2 ^ 96
  | 15 => c.xfer.toNat
  | 17 => ofLe p.lastXfer
  | 20 => sat (2 ^ 32 - 1) p.authFails
  | _ => s.cfg (okey (0x4100 + a) sub)

/-- Calendar and balance groups (0x4200-0x4400). -/
def State.readBilling (s : State) (key : Nat) : Nat :=
  if key = oCalStatus then s.calendarStatus
  else if within key (oBgCycleCount 0) 4 then (s.bal.get (key - oBgCycleCount 0)).cycle.toNat
  else if within key (oBgStatus 0) 4 ∨ within key (oBgLastWindow 0) 16 then s.jVal key
  else s.cfg key

/-- An account's results (0x6000 + a). -/
def State.readRes (s : State) (a sub : Nat) : Nat :=
  let x := s.accts.get a
  let b := x.bill
  match sub with
  | 1 => b.seq.toNat
  | 2 => b.time
  | 3 => b.quality
  | 4 => x.status
  | 5 => b.p
  | 6 => b.q
  | 7 => b.sA
  | 8 => b.sV
  | 9 => b.p1
  | 10 => b.q1
  | 11 => b.s1
  | 12 => b.pf
  | 13 => b.dpf
  | 14 => b.freq
  | 15 => nth b.pSlot 0
  | 16 => nth b.pSlot 1
  | 17 => nth b.pSlot 2
  | 18 => nth b.pSlot 3
  | 19 => nth b.qSlot 0
  | 20 => nth b.qSlot 1
  | 21 => nth b.qSlot 2
  | 22 => nth b.qSlot 3
  | 23 => x.agg10
  | 24 => x.agg150
  | 25 => x.agg10m
  | 26 => x.rmsxSeq.toNat
  | _ => dfltOf (okey (0x6000 + a) sub)

/-- A channel's results (0x6100 + ch). -/
def State.readChRes (s : State) (ch sub : Nat) : Nat :=
  let x := s.chres.get ch
  match sub with
  | 1 => x.seq.toNat
  | 2 => x.rms.rms
  | 3 => x.rms.fund
  | 4 => x.rms.dc
  | 5 => unsgn 4 x.rms.angle
  | 10 => x.aggStatus
  | 11 => x.winSeq.toNat
  | 12 => x.winQual
  | 13 => x.hUsed
  | 14 => x.thd
  | 15 => x.pst
  | 16 => x.plt
  | 17 => x.supraSeq.toNat
  | 18 => ofLe ((List.range 110).flatMap (fun i => le 4 (nth x.bands i)))
  | _ =>
    if sub = 0 then dfltOf (okey (0x6100 + ch) 0)
    else if sub < 10 then nth x.agg (sub - 6)
    else if sub < 0x52 then nth x.harm (sub - 0x13)
    else if sub < 0x91 then unsgn 4 (x.angle.getD (sub - 0x52) 0)
    else nth x.iharm (sub - 0x91)

/-- Power quality (0x6200). -/
def State.readPq (s : State) (key : Nat) : Nat :=
  if within key (oPqGroupStatus 0) 4 then s.pqStatus (key - oPqGroupStatus 0)
  else if within key (oPqFreq10sHz 0) 4 then (s.pq.get (key - oPqFreq10sHz 0)).freq10
  else if within key (oPqUnbalancePct 0) 4 then (s.pq.get (key - oPqUnbalancePct 0)).unbal
  else if within key (oPqEventCounts 0) 4 then s.jVal key
  else if key = oCaptStatus then s.captStatus
  else if key = oCaptSlotChannel then ofLe ((List.range 8).map (fun k => BitVec.ofNat 8 (s.capt.get k).ch))
  else s.cfg key

/-- Engines and overload (0x7000, 0x7100). -/
def State.readEng (s : State) (key : Nat) : Nat :=
  let e := s.eng
  if key = oEngineInService then s.engineMask
  else if within key (oClusterStatus 0) 4 then s.clusterStatus (key - oClusterStatus 0)
  else if key = oQueueOccupancy then ofLe ((List.range 32).flatMap (fun q => le 2 (e.wq.get q).length))
  else if key = oStitchesStolenLocal then e.stolenLocal % 2 ^ 32
  else if key = oStitchesStolenRemote then e.stolenRemote % 2 ^ 32
  else if key = oStitchesReturned then e.returned % 2 ^ 32
  else if key = oAddsDiscarded then e.discarded % 2 ^ 32
  else if within key (oPatternCost 0) 10 then
    let pat := key - oPatternCost 0 + 1
    if e.cost.get pat = 0 then s.meanNominal pat else e.cost.get pat
  else if within key (oEngineStitches 0) 32 then (e.engines.get (key - oEngineStitches 0)).done % 2 ^ 32
  else if key = oOverloadState then s.overloadState
  else if key = oCapacityMmacs then e.capacity
  else if key = oDemandMmacs then e.demand
  else if key = oAdmittedMmacs then e.admitted
  else if key = oP0DemandMmacs then e.p0demand
  else if key = oOverloadEntryCount then e.overEntries % 2 ^ 32
  else if key = oBacklogGuardCount then e.guards % 2 ^ 32
  else if key = oSkipCounters then s.jVal key
  else s.cfg key

/-- Tamper, life cycle and keys (0x8000-0x8200). -/
def State.readTamper (s : State) (key : Nat) : Nat :=
  if key = oTampStatus then s.tampStatus
  else if key = oMaintUntil then s.tamper.maint
  else if key = oClkEvents ∨ key = oGlitchEvents ∨ key = oAoOverflowCount then s.jVal key
  else if key = oTampLogCount then s.scVal 1 % 2 ^ 32
  else if key = oTampLogOverflow then s.scVal 2 % 2 ^ 32
  else if key = oZeroizeCount then s.scVal 3 % 2 ^ 32
  else if key = oTampLastEntry then ofLe s.tamper.lastEntry
  else if key = oLcState then s.lc
  else if key = oLcNonce then (Config.nonce s.life.nonce).toNat
  else if key = oLcInfo then s.lcInfo
  else if key = oLcHistory then ofLe (s.life.history.flatMap (le 6))
  else if key = oKeyLoaded then s.keyLoaded
  else if key = oKeyCounter then s.pp.keyCounter.toNat
  else if key = oXferTotal then s.scVal 0 % 2 ^ 32
  else s.cfg key

/-- Calibration sessions (0x9000). -/
def State.readSession (s : State) (key : Nat) : Nat :=
  if key = oCsStatus then s.csStatus
  else if key = oCsPassed then ofSet s.cal.passed
  else if key = oCsFailed then ofSet s.cal.failed
  else if key = oCsBandgapUv then unsgn 4 s.cal.bandgap
  else if key = oCalTempInUse then unsgn 4 s.cal.ta
  else if key = oRecalLastTemp ∨ key = oRecalLastTime ∨ key = oRecalCount then s.jVal key
  else s.cfg key

/-- Display (0xA000). -/
def State.readDisp (s : State) (key : Nat) : Nat :=
  if key = oDispImage then s.disp.image
  else if key = oDispStatus then s.dispStatus
  else if key = oDispShown then s.dispShown
  else if key = oWfDc then ofLe ((List.range 8).flatMap (fun b =>
    [(false, false), (false, true), (true, false), (true, true)].flatMap (fun x => le 2 (unsgn 2 (s.waveDc b x.1 x.2)))))
  else if key = oDcBalance ∨ key = oDispUpdateCount then s.jVal key
  else if key = oDispTempMc then unsgn 4 s.dispTemp
  else s.cfg key

/-- Pulse, fast-trip, demand and profile (0xB000). -/
def State.readPulse (s : State) (key : Nat) : Nat :=
  if within key (oPulseResidue 0) 8 then (s.acc.pulses.get (key - oPulseResidue 0)).residue % 2 ^ 96
  else if within key (oPulseStatus 0) 8 then (s.acc.pulses.get (key - oPulseStatus 0)).status
  else if key = oFtripState then s.ftripState
  else if key = oSlotTripped then s.slotTripped
  else s.cfg key

/-- Memory and NVM (0xC000). -/
def State.readMem (s : State) (key : Nat) : Nat :=
  let m := s.mem
  if key = oMemStatus then m.status
  else if within key (oBankStatus 0) 16 then s.bankStatus (key - oBankStatus 0)
  else if key = oEccCorrectedCount then ofLe ((List.range 16).flatMap (fun b => le 4 (m.banks.get b).corrected))
  else if key = oEccUncorrectableCount then sat (2 ^ 32 - 1) m.uncorrectable
  else if key = oEccLastError then ofLe m.lastError
  else if key = oMarchStatus then s.marchStatus
  else if key = oAccessViolationCount then sat (2 ^ 32 - 1) m.violations
  else if key = oAccessLastViolation then ofLe m.lastViolation
  else if key = oAccessTableDigest then s.tableDigest
  else if key = oNvmStatus then s.nvmStatus
  else if key = oLastSaveTime then s.lastSave
  else if key = oJournalSeq then s.nvm.jSeq.toNat
  else if key = oJournalLivePages then sat 65535 s.nvm.livePages.length
  else if key = oStoreFill then s.storeFill
  else if key = oRefreshPages then s.jVal key
  else if key = oNvmLifeMonths then s.lifeMonths
  else if key = oLastGaspReport then ofLe s.nvm.report
  else if key = oSpreadValue then ofLe ((List.range 64).flatMap (fun k => le 8 (s.scVal k)))
  else if key = oBadPages then sat 65535 s.nvm.bad.length
  else if key = oNvmLastError then ofLe s.nvm.lastError
  else if within key (oNbStatus 0) 8 then s.nbStatus (key - oNbStatus 0)
  else if within key (oNbPrograms 0) 8 then s.jVal key
  else s.cfg key

/-- Update and power (0xD000, 0xE000). -/
def State.readUpd (s : State) (key : Nat) : Nat :=
  if key = oUpdState then s.upd.st.code
  else if key = oUpdPageMap then mapBits 3072 s.upd.pages.get
  else if key = oUpdStatus then s.updStatus
  else if key = oUpdStagedHeader then ofLe (s.slotBytes s.freeSlot 0 256)
  else if key = oUpdBoot then s.upd.boot.num
  else if key = oUpdActivations then s.scVal 5 % 2 ^ 32
  else if key = oUpdFallbacks then s.scVal 6 % 2 ^ 32
  else if key = oPowerStatus then s.powerStatus
  else if key = oVbatLastMv then sat 65535 s.pwr.vbat
  else if key = oLastOutage ∨ key = oStartRetries then s.jVal key
  else if key = oPfdCount then s.scVal 4 % 2 ^ 32
  else s.cfg key

/-- The active value of an object as stored bits (R38). -/
def State.valueNow (s : State) (key : Nat) : Nat :=
  let i := key / 256
  let sub := key % 256
  if i < 0x2000 then s.readIdent key
  else if i < 0x2100 then s.readPorts key
  else if i < 0x3000 ∨ i = 0xF000 then s.readEvents key
  else if i < 0x3100 then s.readChan (i - 0x3000) sub
  else if i < 0x3200 then s.readCal (i - 0x3100) sub
  else if i < 0x3300 then s.readTh (i - 0x3200) sub
  else if i < 0x4000 then s.readAfe key
  else if i < 0x4100 then s.readAcct (i - 0x4000) sub
  else if i < 0x4200 then s.readPrepay (i - 0x4100) sub
  else if i < 0x5000 then s.readBilling key
  else if i < 0x6000 then s.cfg key
  else if i < 0x6100 then s.readRes (i - 0x6000) sub
  else if i < 0x6200 then s.readChRes (i - 0x6100) sub
  else if i < 0x7000 then s.readPq key
  else if i < 0x8000 then s.readEng key
  else if i < 0x9000 then s.readTamper key
  else if i < 0xA000 then s.readSession key
  else if i < 0xB000 then s.readDisp key
  else if i < 0xC000 then s.readPulse key
  else if i < 0xD000 then s.readMem key
  else s.readUpd key

/-- The bytes of the active value of an object with its card: the type's size, a STR or a snapshot at its own length. -/
def State.readBytes (s : State) (c : Card) (key : Nat) : Bytes :=
  if key = oProductString then le 8 (dfltOf oProductString)
  else if key = oSnapDataH then (s.acc.snaps.get 0).bytes
  else if key = oSnapDataF then (s.acc.snaps.get 1).bytes
  else if key = oSnapDataS then (s.acc.snaps.get 2).bytes
  else le c.size (s.valueNow key)

end Sys2Proof.Machine
end

