-- ==== Sys2Proof/Machine/Dict.lean ====
section
/-! DEFINITION. The dictionary: the checks of Table 2.4, a write's way to its active value, reads, the configuration hold,
and the ring entries around a request (R30-R46, R412-R414, R441). -/
namespace Sys2Proof.Machine

/-! ### Steps 1 to 6 of Table 2.4 -/

/-- Milliseconds that the hold in force still has (R42). -/
def State.holdLeft (s : State) : Nat := s.cfg oHoldTimeoutS * 1000 - (s.clock.clk - s.dict.since) / clkMs

/-- Step 3: the life-cycle state permits the write (R31, R76, R250, R251, R262, R277, R304, R305, R354, R386). -/
def State.lcPermits (s : State) (q : Cls) (c : Card) (key : Nat) (b : Bytes) : Bool :=
  let lc := s.lc
  let one (l : List Nat) : Bool := l.contains lc
  decide (q = .c) ||
    (decide (lc ≠ 5) &&
     (if c.pers = .k then (if q = .h then one [2] else one [2, 4])
      else if key = oModRetired ∨ key = oMemRemap then one [4]
      else if within (key / 256) 0x4100 240 ∧ key % 256 = 0x0C then one [0, 1, 2, 4]
      else if key = oKeyDevice then one [1, 2, 3, 4]
      else if within key (oKeyAccount 0) 240 then one [1, 4]
      else if key = oKeyWrapped then one [2, 3]
      else if key = oKeyReturn then one [0, 1]
      else if within key (oTampInputCfg 0) 0x25 ∧ q = .s then lc ≠ 3
      else if key = oMarchCommand ∧ bit (ofLe b) 20 then one [0, 1, 4]
      else if key = oPowerCommand ∧ b = [1] then one [0, 1, 2, 4]
      else if key = oCsCommand ∧ (b = [1] ∨ b = [2]) then (if q = .h then one [2] else one [2, 4])
      else true))

/-- A write that a session of another class keeps out (R262): the 0x9000 record and the points of its channels. -/
def State.sessionKeeps (s : State) (q : Cls) (key : Nat) : Bool :=
  match s.cal.owner with
  | none => false
  | some o => decide (o ≠ q) && decide (q ≠ .c) && (decide (key / 256 = 0x9000) ||
      (within (key / 256) 0x3100 256 && within (key % 256) 1 6 && s.csChannels.contains (key / 256 - 0x3100)))

/-- The busy check between steps 3 and 4 (R42, R44, R262): the retry time in milliseconds, none when the write may go on. -/
def State.busyFor (s : State) (q : Cls) (key : Nat) : Option Nat :=
  match s.dict.owner with
  | some o =>
    if o ≠ q ∧ q ≠ .c then some s.holdLeft
    else if s.sessionKeeps q key then some (s.cfg oCalTimeoutMs) else none
  | none => if s.sessionKeeps q key then some (s.cfg oCalTimeoutMs) else none

/-- The block that owns an object of effect S runs (R39, R112, R180, R264). -/
def State.blockRuns (s : State) (key : Nat) : Bool :=
  let i := key / 256
  if within i 0x3000 256 then (s.chans.get (i - 0x3000)).running
  else if within i 0x3200 256 then s.cfgB (oThEnable (i - 0x3200))
  else if within key (oVgPhases 0) 4 then (s.groups.get (key - oVgPhases 0)).running
  else if within key (oPqGroupMap 0) 4 then (s.groups.get (key - oPqGroupMap 0)).running
  else if within i 0x4000 240 then s.cfgB (oAccEnable (i - 0x4000)) || (s.accts.get (i - 0x4000)).running
  else if i = 0x3300 then s.hk.running
  else if key = oRlyChainLength then s.cfgB oRlyEnable
  else if i = 0x9000 then s.cal.running
  else false

/-- Steps 1 to 6 of Table 2.4 for a write: a failing status with its retry time, or the card and the value (DEDUCED, log 16; DEDUCED, log 19). -/
def State.checkWrite (s : State) (q : Cls) (index sub : Nat) (b : Bytes) : Except (Nat × Nat) (Card × Nat) :=
  match cardOf index sub with
  | none => .error (stNoObject, 0)
  | some c =>
    let key := okey index sub
    if c.mayWrite q = false then .error (stRights, 0)
    else if s.lcPermits q c key b = false then .error (stLifecycle, 0)
    else match s.busyFor q key with
      | some ms => .error (stBusy, ms)
      | none =>
        if typeOk c.ty b = false then .error (stBadType, 0)
        else if (c.fits (ofLe b) && s.valueOk key (ofLe b)) = false then .error (stRange, 0)
        else if c.eff = .s ∧ s.blockRuns key then .error (stRunning, 0)
        else .ok (c, ofLe b)

/-- A write by the session's owner holds the session open (R262). -/
def State.ownerWrote (s : State) (q : Cls) : State :=
  if s.cal.owner = some q then s.setCal (fun c => { c with lastWrite := s.clock.clk }) else s

/-- Check a write through step 6 and hand its card and value on; a refusal is answered and changes nothing (R45) (DEDUCED, log 16). -/
def State.checked (s : State) (r : Req) (index sub : Nat) (b : Bytes) (f : State → Card → Nat → State) : State :=
  match s.checkWrite r.cls index sub b with
  | .error e => (s.ownerWrote r.cls).answerRetry e.1 e.2
  | .ok (c, v) => f (s.ownerWrote r.cls) c v

/-! ### A plain write: steps 9 and 10 (R33-R40, R42, R43) -/

/-- Program the record of a value of persistence C or K (R33): none when the store cannot take it. -/
def State.persist (s : State) (c : Card) (key v : Nat) : Option State :=
  match c.pers with
  | .c => s.storePut false key v c.size
  | .k => s.storePut true key v c.size
  | _ => some { s with dict := { s.dict with broken := s.dict.broken.set key false } }

/-- A refused record: STORE_FULL, and the store remembers it (Table 12.12). -/
def State.fullAnswer (s : State) (c : Card) : State := (s.storeRefused (decide (c.pers = .k))).answer stStoreFull

/-- The block that owns an object of effect Y or F is stopped (R36) (DEDUCED, log 18). -/
def State.blockStopped (s : State) (key v : Nat) : Bool :=
  if key / 256 = 0x2010 then !s.cfgB oFEnable
  else if key / 256 = 0x2020 then !s.cfgB oSEnable
  else if dispShadow key then !s.disp.busy
  else !(s.groups.get (s.ownerOf key v)).running

/-- Put a value into a shadow or take it out. -/
def State.setShadow (s : State) (key : Nat) (v : Option Nat) : State :=
  { s with dict := { s.dict with shadow := s.dict.shadow.set key v } }
def State.setHeld (s : State) (key : Nat) (v : Option Nat) : State :=
  { s with dict := { s.dict with held := s.dict.held.set key v } }
def State.setNext (s : State) (key : Nat) (v : Option Nat) : State :=
  { s with dict := { s.dict with nextStart := s.dict.nextStart.set key v } }

/-- A programmed value goes on to its effect: at once when the block is stopped, else into the shadow; a port object waits
for the answer to be sent (Table 2.2, R36). -/
def State.shadowed (s : State) (key v : Nat) : State :=
  if s.blockStopped key v then ((s.setShadow key none).activateNow key v).answer stOk
  else
    let s := s.setShadow key (some v)
    let s := if portShadow key then { s with ports := { s.ports with fWait := s.ports.fWait.set key 1 } } else s
    s.answer stPending

/-- A write of effect Y or F without a hold (R34, R36, R37). -/
def State.writeShadow (s : State) (c : Card) (key v : Nat) : State :=
  let waits := (s.dict.shadow.get key).isSome
  if v = s.cfg key ∧ !waits ∧ s.dict.broken.get key = false then s.answer stOk
  else match s.persist c key v with
    | none => s.fullAnswer c
    | some t => if v = s.cfg key then (t.setShadow key none).answer stOk else t.shadowed key v

/-- A write of effect B without a hold (R34, R37, R40). -/
def State.writeNext (s : State) (c : Card) (key v : Nat) : State :=
  let waits := (s.dict.nextStart.get key).isSome
  if v = s.cfg key ∧ !waits ∧ s.dict.broken.get key = false then s.answer stOk
  else match s.persist c key v with
    | none => s.fullAnswer c
    | some t => if v = s.cfg key then (t.setNext key none).answer stOk else (t.setNext key (some v)).answer stPending

/-- A write of effect I or S: active before the answer (R34, R37) (DEDUCED, log 16). -/
def State.writeNow (s : State) (c : Card) (key v : Nat) : State :=
  if v = s.cfg key ∧ s.dict.broken.get key = false then s.answer stOk
  else match s.persist c key v with
    | none => s.fullAnswer c
    | some t => (t.activateNow key v).answer stOk

/-- A write kept under the owner's hold (R42) (DEDUCED, log 17). -/
def State.writeHeld (s : State) (key v : Nat) : State :=
  if v = s.cfg key then (s.setHeld key none).answer stOk else (s.setHeld key (some v)).answer stPending

/-- The hold in force is this class's. -/
def State.holds (s : State) (q : Cls) : Bool := decide (s.dict.owner = some q)

/-- Step 9 on the view that the class's write is checked against (R42, R43). -/
def State.crossed (s : State) (q : Cls) (key v : Nat) : Bool := s.crossOk ((s.view (s.holds q)).setCfg key v) key v

/-- Steps 9 and 10 of Table 2.4 and the effect of a write that no rule of its own covers (DEDUCED, log 16). -/
def State.writePlain (s : State) (q : Cls) (c : Card) (key v : Nat) : State :=
  let kept := c.eff = .y ∨ c.eff = .f ∨ c.eff = .b
  if s.holds q = true ∧ kept then s.writeHeld key v
  else if s.crossed q key v = false then s.answer stRange
  else match c.eff with
    | .y => s.writeShadow c key v
    | .f => s.writeShadow c key v
    | .b => s.writeNext c key v
    | .i => s.writeNow c key v
    | .s => s.writeNow c key v

/-! ### Reads (R38, R46) -/

/-- The value that waits for an object: held, shadow, or for the next start. -/
def State.waitingFor (s : State) (key : Nat) : Option Nat :=
  match s.dict.held.get key, s.dict.shadow.get key, s.dict.nextStart.get key with
  | some v, _, _ => some v
  | none, some v, _ => some v
  | none, none, v => v

/-- A read clears the fields of kind RS of the word it returns (Tables 2.10, 7.11, 16.14) (DEDUCED, log 17). -/
def State.readClears (s : State) (key : Nat) : State :=
  if key = oDeviceStatus then { s with dict := { s.dict with expired := false } }
  else if key = oI2cStatus then { s with ports := { s.ports with recovered := false } }
  else if within key (oPulseStatus 0) 8 then s.setPulse (key - oPulseStatus 0) (fun p => { p with late := false, overspeed := false })
  else s

/-- Execute a READ, or with shadow a READ_SHADOW (DEDUCED, log 17). -/
def State.doRead (s : State) (q : Cls) (shadow : Bool) (index sub : Nat) : State :=
  match cardOf index sub with
  | none => s.answer stNoObject
  | some c =>
    let key := okey index sub
    if c.mayRead q = false then s.answer stRights
    else if s.dict.broken.get key then s.answer stCrc
    else
      let s := s.pulsesRun
      let b := s.readBytes c key
      match s.waitingFor key with
      | none => (s.answerData stOk b).readClears key
      | some v => s.answerData stPending (if shadow then le c.size v else b)

/-! ### Around a request: ring entries, responses and the repeat table (R413, R414, R441) -/

/-- The command ring and the response ring of a class, and the number of its port (R413). -/
def cmdRing : Cls → Nat
  | .h => 0
  | _ => 2
def portOf : Cls → Nat
  | .f => 1
  | .s => 2
  | _ => 0

/-- The response frame without its CRC (Table 16.3). -/
def respFrame (op st tag retry : Nat) (b : Bytes) : Bytes :=
  le 1 (op ||| 0x80) ++ le 1 st ++ le 2 b.length ++ le 2 tag ++ le 2 (sat 65535 retry) ++ b

/-- A frame that the device sends (Table 16.9, R425): ADDR is F_ADDRESS, DIR 1. -/
def State.gfpFrame (s : State) (kind : Nat) (body : Bytes) : Bytes :=
  let h := le 1 (s.cfg oFAddress) ++ le 1 (0x80 + kind) ++ le 2 body.length ++ body
  [0xC5, 0x3A] ++ h ++ le 4 (crc32 h)

/-- Change a port's record. -/
def State.setPort (s : State) (k : Nat) (f : Port → Port) : State :=
  { s with ports := { s.ports with p := s.ports.p.upd k f } }

/-- The entry at the head of the command ring is this request: same port, TAG, opcode, index, subindex and payload. -/
def State.headIs (s : State) (r : Req) (op index sub : Nat) (b : Bytes) : Option Entry :=
  if r.cls = .c then none
  else match (s.evt.rings.get (cmdRing r.cls)).entries with
    | [] => none
    | e :: _ =>
      if e.port = portOf r.cls ∧ fld e.data 0 1 = op ∧ fld e.data 1 2 = index ∧ fld e.data 3 1 = sub ∧
          fld e.data 6 2 = r.tag ∧ e.data.drop 8 = b then
        some e
      else none

/-- Assign the port objects of this request to the answer with a ring and sequence, or make them active when no answer is
sent (Table 2.2) (DEDUCED, log 15). -/
def State.fAssign (s : State) (tag : Option Nat) : State :=
  match tag with
  | some t => { s with ports := { s.ports with fWait := s.ports.fWait.map (fun e => if e.2 = 1 then (e.1, t) else e) } }
  | none =>
    let keys := (s.ports.fWait.filter (fun e => decide (e.2 = 1))).map Prod.fst
    let s := { s with ports := { s.ports with fWait := s.ports.fWait.filter (fun e => decide (e.2 ≠ 1)) } }
    (s.waiting (fun k _ => keys.contains k)).foldl (fun s e => s.takeShadow none none e.1 e.2) s

/-- Release the request's ring entry and place its response; a broadcast's response is discarded (R413, R425, R441). The
repeat table keeps the header and at most 56 payload bytes (R414). A GFP port that owes its first reply sends it at once (R426) (DEDUCED, log 15). -/
def State.respondTo (s : State) (e : Entry) (r : Req) (op : Nat) : State :=
  let k := cmdRing r.cls
  let s := s.setRing k (fun x => { x with entries := x.entries.drop 1, refused := false })
  if e.bcast then s.fAssign none
  else
    let a := s.ans
    let f := respFrame op a.status r.tag a.retry a.payload
    let s := s.ringAdd (k + 1) (fun _ => {
      units := (f.length + 63) / 64, port := portOf r.cls, data := f, at_ := s.clock.clk })
    let seq := (s.evt.rings.get (k + 1)).seq
    let s := s.setPort (portOf r.cls) (fun p => { p with rep := p.rep.map (fun x =>
      if x.tag = r.tag then { x with resp := some (f.take 64), cut := decide (64 < f.length) } else x) })
    let s := s.fAssign (some ((k + 1) * 2 ^ 32 + seq.toNat + 1))
    if k = 2 ∧ (s.ports.p.get (portOf r.cls)).owes = some r.tag then
      ((s.setPort (portOf r.cls) (fun p => { p with owes := none, sent := some (s.gfpFrame 2 f) })).setRing 3 (fun x =>
        { x with entries := x.entries.filter (fun y => y.seq ≠ seq) })).portShadows 3 seq.toNat
    else s

/-- The control island executes no request: it restarts, has not yet passed its image check, or has no supply. -/
def State.controlAway (s : State) : Bool := s.isl.control.isSome || !s.isl.served || !s.powered

/-- The remaining budget of the control island in milliseconds (R10, R417). -/
def State.controlLeft (s : State) : Nat := match s.isl.control with
  | some c => (s.budgetLeft c controlBudget + 999) / 1000
  | none => 250

/-- The response ring has no room for a response of 4,104 bytes (R413). -/
def State.noRoom (s : State) (q : Cls) : Bool := decide (s.ringFree (cmdRing q + 1) < 65)

/-- Execute a request (R41, R413): while the control island is away, or the response ring has no room, its ring entry
waits; a request that came by no ring is then answered ISLAND_RESTARTING (DEDUCED, log 15; DEDUCED, log 60). -/
def State.request (s : State) (r : Req) (op index sub : Nat) (b : Bytes) (f : State → State) : State :=
  match s.headIs r op index sub b with
  | none => if s.controlAway then s.answerRetry stRestarting s.controlLeft else (f s).fAssign none
  | some e =>
    if s.controlAway ∨ s.noRoom r.cls then s
    else if e.bad then (s.answer stCrc).respondTo e r op
    else (f s).respondTo e r op

/-- A WRITE request through the checks, with the meaning of its object (DEDUCED, log 15). -/
def State.writeReq (s : State) (r : Req) (index sub : Nat) (b : Bytes) (f : State → Card → Nat → State) : State :=
  s.request r 2 index sub b (fun s => s.checked r index sub b f)

/-! ### The configuration hold (R42, R43) -/

/-- CONFIG_HOLD = 1. -/
def State.holdOn (s : State) (q : Cls) : State :=
  if s.dict.owner.isSome then s.answer stOk
  else ({ s with dict := { s.dict with owner := some q, since := s.clock.clk } }).answer stOk

/-- The held values in key order. -/
def State.heldList (s : State) : List (Nat × Nat) := s.dict.held.filterMap (fun e => e.2.map (fun v => (e.1, v)))

/-- Program every held value of persistence C or K: none when a store cannot take one. -/
def State.persistAll (s : State) : List (Nat × Nat) → Option State
  | [] => some s
  | (k, v) :: t => match cardOf (k / 256) (k % 256) with
    | none => State.persistAll s t
    | some c => match s.persist c k v with
      | none => none
      | some s' => State.persistAll s' t

/-- A released value goes on to its normal boundary (DEDUCED, log 17; DEDUCED, log 18). -/
def State.releaseOne (s : State) (key v : Nat) : State :=
  match cardOf (key / 256) (key % 256) with
  | none => s
  | some c => if c.eff = .b then s.setNext key (if v = s.cfg key then none else some v) else s.shadowed key v

/-- CONFIG_HOLD = 0 by the owner (R42): the cross-object checks, the records, then the normal boundaries (DEDUCED, log 18). -/
def State.holdOff (s : State) : State :=
  let l := s.heldList
  let v := s.view true
  if l.all (fun e => s.crossOk v e.1 e.2) = false then s.answer stRange
  else match s.persistAll l with
    | none => s.answer stStoreFull
    | some t =>
      let t := { t with dict := { t.dict with held := [], owner := none } }
      (l.foldl (fun t e => t.releaseOne e.1 e.2) t).answer stOk

/-- A write of CONFIG_HOLD (DEDUCED, log 17). -/
def State.writeHold (s : State) (q : Cls) (v : Nat) : State :=
  if v = 1 then s.holdOn q else if s.dict.owner = some q then s.holdOff else s.answer stOk

/-- CONFIG_HOLD = 1 starts a hold owned by the writing class (R42). -/
def execHoldStart (r : Req) (s : State) : Host.Outcome State Fault Refusal :=
  .next (s.writeReq r 0x1102 1 [1] (fun s _ v => s.writeHold r.cls v))

/-- CONFIG_HOLD = 0 releases it (R42, R43). -/
def execHoldRelease (r : Req) (s : State) : Host.Outcome State Fault Refusal :=
  .next (s.writeReq r 0x1102 1 [0] (fun s _ v => s.writeHold r.cls v))

/-- HOLD_TIMEOUT elapses: the held shadows are discarded and HOLD_EXPIRED is set (R42) (DEDUCED, log 11). -/
def execHoldTimeout (s : State) : Host.Outcome State Fault Refusal :=
  .next (if s.dict.owner.isSome then s.holdDrop else s)

end Sys2Proof.Machine
end

