-- ==== Sys2Proof/Machine/FrontCmd.lean ====
section
/-! DEFINITION. Writes that the front end, the housekeeping sequencer, the thresholds, the fast-trip pins, the engines and the
capture slots act on (chapters 3 to 6). -/
namespace Sys2Proof.Machine

/-- A plain write, and what more it does when it is answered OK. -/
def State.writeThen (s : State) (q : Cls) (c : Card) (key v : Nat) (f : State → State) : State :=
  let t := s.writePlain q c key v
  if t.ans.status = stOk then f t else t

/-- A plain write, and what more it does when it changed the active value. -/
def State.writeNew (s : State) (q : Cls) (c : Card) (key v : Nat) (f : State → State) : State :=
  let t := s.writePlain q c key v
  if t.ans.status = stOk ∧ s.cfg key ≠ v then f t else t

/-- Do something that leaves the answer as it is. -/
def State.keepAns (s : State) (f : State → State) : State := { f s with ans := s.ans }

/-! ### Spares and housekeeping -/

/-- A write of CH_SUBSTITUTE (R73, Table 3.7). -/
def State.wSubstitute (s : State) (ch v : Nat) : State :=
  if v = 0 then (s.substEnd ch).answer stOk
  else match s.substOn ch with
    | some e => s.answerRetry e.1 e.2
    | none => (s.substStart ch).answer stOk

/-- A write of HK_RUN (R80): 0 stops the sequencer at the next boundary of HK_SYNC_GROUP, at once when that group does not
run; 1 starts it at step 0 once the power verification has armed the metering (DEDUCED, log 40). -/
def State.wHkRun (s : State) (q : Cls) (c : Card) (v : Nat) : State :=
  s.writeNew q c oHkRun v (fun s =>
    if v = 0 then
      (if (s.groups.get (s.cfg oHkSyncGroup)).running ∧ s.hk.running then s.setHk (fun h => { h with stopping := true })
       else s.hkStop)
    else if s.hk.running then s.setHk (fun h => { h with stopping := false })
    else if s.eng.armed then s.hkStart else s)

/-- A write of 1 to a bit of HK_LIMIT_FLAGS clears it (R81). -/
def State.wHkFlags (s : State) (v : Nat) : State :=
  (s.setHk (fun h => { h with flags := h.flags &&& ~~~(BitVec.ofNat 32 v) })).answer stOk

/-! ### Thresholds and fast-trip pins (R95, R99, R100) -/

/-- TH_ENABLE takes effect (R95): 0 clears the tripped states and counts, and pins that follow the channel see no trip;
1 starts with an empty rank window (R91). -/
def State.thSet (s : State) (ch v : Nat) : State :=
  if v = 0 then
    (s.setTh ch (fun p => { trips := p.trips, hi := { lastEv := p.hi.lastEv }, lo := { lastEv := p.lo.lastEv } })).ftRelease ch
  else s.setTh ch (fun p => { trips := p.trips, hi := { lastEv := p.hi.lastEv }, lo := { lastEv := p.lo.lastEv }, suspended := true })

/-- A write of TH_ENABLE. -/
def State.wThEnable (s : State) (q : Cls) (c : Card) (ch v : Nat) : State :=
  s.writeNew q c (oThEnable ch) v (fun s => s.keepAns (fun s => s.thSet ch v))

/-- Any accepted write of FTRIP_ASSIGN deasserts the pin and clears its latch (R100) (DEDUCED, log 40). -/
def State.wFtrip (s : State) (q : Cls) (c : Card) (n v : Nat) : State :=
  s.writeThen q c (oFtripAssign n) v (fun s => s.setFtrip n (fun _ => {}))

/-- A write of 1 to a LATCHED bit releases the pin (R99, Table 4.7). -/
def State.wFtripState (s : State) (v : Nat) : State :=
  ((List.range 8).foldl (fun s n =>
    if bit v (8 + n) && (s.ftrip.get n).latched then s.setFtrip n (fun f => { f with level := false, latched := false }) else s)
    s).answer stOk

/-! ### Engines and clusters (R150) -/

/-- A write of ENGINE_ENABLE: cleared bits leave service, set bits are readmitted. -/
def State.wEngines (s : State) (q : Cls) (c : Card) (v : Nat) : State :=
  let old := s.cfg oEngineEnable
  s.writeNew q c oEngineEnable v (fun s => s.keepAns (fun s =>
    (List.range 32).foldl (fun s k =>
      if bit old k && !bit v k then s.engineOff k else if !bit old k && bit v k then s.engineReadmit k else s) s))

/-- A write of CLUSTER_ENABLE. -/
def State.wClusters (s : State) (q : Cls) (c : Card) (v : Nat) : State :=
  let old := s.cfg oClusterEnable
  s.writeNew q c oClusterEnable v (fun s => s.keepAns (fun s =>
    (List.range 4).foldl (fun s k =>
      if bit old k && !bit v k then s.clusterOff k else if !bit old k && bit v k then s.clusterReadmit k else s) s))

/-! ### Capture (R183) -/

/-- A write of CAPT_COMMAND. -/
def State.wCapture (s : State) (v : Nat) : State :=
  if v = 1 then (s.captSet.foldl (fun s ch => s.captTrigger ch 1 s.posNow) s).answer stOk
  else if v = 2 then s.captStop.answer stOk
  else if v = 3 then s.captFreeAll.answer stOk
  else s.answer stRange

/-- A write of CAPT_RELEASE. -/
def State.wCaptFree (s : State) (v : Nat) : State := if v < 8 then (s.captFree v).answer stOk else s.answer stRange

/-! ### The commands -/

/-- CH_SUBSTITUTE (R73). -/
def execChSubstitute (r : Req) (ch : Fin 256) (b : Bytes) (s : State) : Host.Outcome State Fault Refusal :=
  .next (s.writeReq r (0x3000 + ch.val) 6 b (fun s _ v => s.wSubstitute ch.val v))

/-- HK_RUN (R80) (DEDUCED, log 40). -/
def execHkRun (r : Req) (b : Bytes) (s : State) : Host.Outcome State Fault Refusal :=
  .next (s.writeReq r 0x3300 7 b (fun s c v => s.wHkRun r.cls c v))

/-- HK_LIMIT_FLAG_CLEAR (R81). -/
def execHkLimitFlagClear (r : Req) (b : Bytes) (s : State) : Host.Outcome State Fault Refusal :=
  .next (s.writeReq r 0x3300 0x0B b (fun s _ v => s.wHkFlags v))

/-- TH_ENABLE (R95). -/
def execThEnable (r : Req) (ch : Fin 256) (b : Bytes) (s : State) : Host.Outcome State Fault Refusal :=
  .next (s.writeReq r (0x3200 + ch.val) 1 b (fun s c v => s.wThEnable r.cls c ch.val v))

/-- FTRIP_ASSIGN (R100) (DEDUCED, log 40). -/
def execFtripAssign (r : Req) (n : Fin 8) (b : Bytes) (s : State) : Host.Outcome State Fault Refusal :=
  .next (s.writeReq r 0xB000 (0x21 + n.val) b (fun s c v => s.wFtrip r.cls c n.val v))

/-- FTRIP_LATCH_CLEAR (R99). -/
def execFtripLatchClear (r : Req) (b : Bytes) (s : State) : Host.Outcome State Fault Refusal :=
  .next (s.writeReq r 0xB000 0x29 b (fun s _ v => s.wFtripState v))

/-- ENGINE_ENABLE (R150). -/
def execEngineEnable (r : Req) (b : Bytes) (s : State) : Host.Outcome State Fault Refusal :=
  .next (s.writeReq r 0x7000 1 b (fun s c v => s.wEngines r.cls c v))

/-- CLUSTER_ENABLE (R150). -/
def execClusterEnable (r : Req) (b : Bytes) (s : State) : Host.Outcome State Fault Refusal :=
  .next (s.writeReq r 0x7000 3 b (fun s c v => s.wClusters r.cls c v))

/-- CAPT_COMMAND TRIGGER (R183). -/
def execTrigger (r : Req) (s : State) : Host.Outcome State Fault Refusal :=
  .next (s.writeReq r 0x6200 0x2A [1] (fun s _ v => s.wCapture v))

/-- CAPT_COMMAND STOP (R183). -/
def execStop (r : Req) (s : State) : Host.Outcome State Fault Refusal :=
  .next (s.writeReq r 0x6200 0x2A [2] (fun s _ v => s.wCapture v))

/-- CAPT_COMMAND RELEASE_ALL (R183). -/
def execReleaseAll (r : Req) (s : State) : Host.Outcome State Fault Refusal :=
  .next (s.writeReq r 0x6200 0x2A [3] (fun s _ v => s.wCapture v))

/-- CAPT_RELEASE (R183). -/
def execCaptRelease (r : Req) (b : Bytes) (s : State) : Host.Outcome State Fault Refusal :=
  .next (s.writeReq r 0x6200 0x2B b (fun s _ v => s.wCaptFree v))

end Sys2Proof.Machine
end

