-- ==== Sys2Proof/Machine/CalCmd.lean ====
section
/-! DEFINITION. The commands of calibration sessions (R262-R272, R278). -/
namespace Sys2Proof.Machine

/-- A running pass ends its slots early when a session opens (R263, Table 3.7): a channel on a spare begins its return with
no valid measurement, one not yet handed over stays on its own modulator (DEDUCED, log 38). -/
def State.slotsEnd (s : State) : State :=
  (List.range 8).foldl (fun s k =>
    let p := s.spares.get k
    if p.why ≠ .rotation then s
    else match p.stage with
      | .fill => s.park k .done
      | .pairs => s.park k .done
      | .serving => (s.beginReturn k).setSpare k (fun p => { p with selfIssued0 := 1, selfRun0 := 0 })
      | .offsetMeas => (s.beginReturn k).setSpare k (fun p => { p with selfIssued0 := 1, selfRun0 := 0 })
      | .gainMeas => (s.beginReturn k).setSpare k (fun p => { p with selfIssued0 := 1, selfRun0 := 0 })
      | _ => s) s

/-- OPEN_NATIVE or OPEN_COMPAT (R262, R263) (DEDUCED, log 38). -/
def State.calOpen (s : State) (q : Cls) (compat : Bool) : State :=
  if s.cal.owner.isSome then s.answerRetry stBusy (s.cfg oCalTimeoutMs)
  else
    let s := s.setCal (fun c => { c with owner := some q, compat := compat, lastWrite := s.clock.clk })
    (if s.cal.passRun then s.slotsEnd else s).answer stOk

/-- A channel that a step may name (R264). -/
def State.stepMay (s : State) (ch : Nat) : Bool :=
  let x := s.chans.get ch
  let peak : Rat := s.declared ch
  let k := s.cfgF (oCalFullScale ch)
  s.cfgB (oChEnable ch) && !(s.mods.get ch).retired && !x.uncovered && !x.substitute &&
    decide (k * k ≤ 200 * (peak * peak)) && decide (2 * (peak * peak) ≤ k * k)

/-- The conditions of START_STEP (R264). -/
def State.stepOk (s : State) : Bool :=
  let l := s.csChannels
  let point := bits (s.cfg oCsStep) 6 4
  !l.isEmpty && (s.csGain || s.csOffset || s.csPhase) && l.all s.stepMay && (!s.cal.compat || decide (point = 2) || decide (point = 7))

/-- The first state of a step's channel, with the trims in force (R265, R267) (DEDUCED, log 38). -/
def State.stepFirst (s : State) (ch : Nat) : StepCh :=
  let t := s.codes ch
  let p := s.spares.get (ch / 32)
  let slot := decide (p.ch = some ch) && decide (p.why = .rotation) && decide (p.stage ≠ .none) && decide (p.stage ≠ .done)
  { st := if slot then .waitReturn else .stabilising, g := t.2.2.2.2.1, o := t.2.2.2.2.2, ph := t.2.2.2.1 }

/-- START_STEP (R264, R265); without a session it is out of place and refused (DEDUCED, log 38). -/
def State.stepStart (s : State) : State :=
  if s.cal.owner.isNone then s.answer stRange
  else if s.cal.running then s.answer stRunning
  else if !s.stepOk then s.answer stRange
  else
    let s := s.setCal (fun c => { c with chans := [] })
    let m := s.csChannels.foldl (fun (m : KMap (Option StepCh)) ch => KMap.set m ch (some (s.stepFirst ch))) []
    let s := s.setCal (fun c => { c with
      running := true, chans := m, point := 7, startT := none, endDue := false, steps := c.steps + 1, passed := [], failed := [] })
    (s.urgent .calibration).answer stOk

/-- CANCEL_STEP (R272) (DEDUCED, log 38). -/
def State.stepCancel (s : State) : State := if s.cal.running then (s.abandonAll 5).stepStop else s

/-- A write of CS_COMMAND (R278). -/
def State.wCsCommand (s : State) (q : Cls) (v : Nat) : State :=
  if v = 1 then s.calOpen q false
  else if v = 2 then s.calOpen q true
  else if v = 3 then s.stepStart
  else if v = 4 then s.stepCancel.answer stOk
  else if v = 5 then (if s.cal.owner.isSome then s.stepCancel.sessionClose else s).answer stOk
  else s.answer stRange

/-- CS_COMMAND OPEN_NATIVE (R262). -/
def execOpenNative (r : Req) (s : State) : Host.Outcome State Fault Refusal :=
  .next (s.writeReq r 0x9000 1 [1] (fun s _ v => s.wCsCommand r.cls v))

/-- CS_COMMAND OPEN_COMPAT (R262). -/
def execOpenCompat (r : Req) (s : State) : Host.Outcome State Fault Refusal :=
  .next (s.writeReq r 0x9000 1 [2] (fun s _ v => s.wCsCommand r.cls v))

/-- CS_COMMAND START_STEP (R264, R265). -/
def execStartStep (r : Req) (s : State) : Host.Outcome State Fault Refusal :=
  .next (s.writeReq r 0x9000 1 [3] (fun s _ v => s.wCsCommand r.cls v))

/-- CS_COMMAND CANCEL_STEP (R272). -/
def execCancelStep (r : Req) (s : State) : Host.Outcome State Fault Refusal :=
  .next (s.writeReq r 0x9000 1 [4] (fun s _ v => s.wCsCommand r.cls v))

/-- CS_COMMAND CLOSE (R272). -/
def execClose (r : Req) (s : State) : Host.Outcome State Fault Refusal :=
  .next (s.writeReq r 0x9000 1 [5] (fun s _ v => s.wCsCommand r.cls v))

/-- SESSION_IDLE_TIMEOUT (R262): a session with no step running closes (DEDUCED, log 11). -/
def execSessionIdleTimeout (s : State) : Host.Outcome State Fault Refusal :=
  .next (if s.cal.owner.isSome ∧ s.cal.running = false then s.sessionClose else s)

/-- CAL_TIMEOUT (R268): every channel that has not converged is abandoned, with the cause of its iterations. -/
def execCalTimeout (s : State) : Host.Outcome State Fault Refusal :=
  .next (if s.cal.running = false then s
    else
      let l := s.cal.chans.filterMap (fun e => match e.2 with
        | none => none
        | some c => if c.st = .waitReturn ∨ c.st = .stabilising ∨ c.st = .measuring then some (e.1, if c.iters = 0 then 2 else 1) else none)
      (l.foldl (fun s x => s.abandon x.1 x.2) s).stepCheck)

end Sys2Proof.Machine
end

