-- ==== Sys2Proof/Machine/Display.lean ====
section
/-! DEFINITION. The display's events (chapter 15). -/
namespace Sys2Proof.Machine

/-- PUMP_GOOD (R392): both rails are good and frame 0 of the work starts; in a power-off discharge the outputs stay at 0 V (DEDUCED, log 10). -/
def execPumpGood (s : State) : Host.Outcome State Fault Refusal :=
  .next (if s.disp.st = .pumpUp then (s.firstFrame).setDisp (fun d => { d with pumpFail := false }) else s)

/-- PUMP_FAIL (R392, R405): the rails are not good in time; the work is abandoned with PUMP_FAIL and DIRTY is set. -/
def execPumpFail (s : State) : Host.Outcome State Fault Refusal :=
  .next (if s.disp.st = .pumpUp then
      (s.setDisp (fun d => { d with
        st := .abandoned, work := .none, pumps := false, falling := true, pumpFail := true,
        dirty := true, offStep := 0 })).ev55 4
    else s)

/-- The frame after one that has ended, in balancing (R401). -/
def State.nextBal (s : State) : State :=
  let s := s.balFrame 20
  s.setDisp (fun d => { d with
    frames := d.frames + 1, frameAt := s.clock.clk,
    frame := if d.frame + 1 < d.balN then d.frame + 1 else 0,
    st := if d.frame + 1 < d.balN then .balancing else d.after })

/-- The frame after one that has ended, in a waveform or a clearing cycle (R398, R403). -/
def State.nextWave (s : State) : State :=
  let s := s.waveFrame 20
  let halves := if s.disp.work = .clear then 2 * s.cfg oClearCycles else 1
  let endSeq := decide (phases s.disp.table ≤ s.disp.frame + 1)
  let s := s.setDisp (fun d => { d with
    frames := d.frames + 1, frameAt := s.clock.clk,
    frame := if endSeq then 0 else d.frame + 1, half := if endSeq then d.half + 1 else d.half })
  if endSeq ∧ halves ≤ s.disp.half then s.dispFinish else s

/-- DISPLAY_FRAME_END (R400): the frame's balances are added and the next state follows. -/
def execDisplayFrameEnd (s : State) : Host.Outcome State Fault Refusal :=
  .next (match s.disp.st with
    | .balancing => s.nextBal.frameShadows
    | .waveform | .clearing => s.nextWave.frameShadows
    | _ => s)

/-- PUMP_HOLD_EXPIRY (R393): PUMP_HOLD_MS after the last frame the pumps stop, unless another update started first. -/
def execPumpHoldExpiry (s : State) : Host.Outcome State Fault Refusal :=
  .next (if s.disp.st = .hold then s.setDisp (fun d => { d with st := .off, pumps := false, falling := true }) else s)

/-- BAL_DELAY_EXPIRY (R402): a balancing update starts, unless another update started first. -/
def execBalDelayExpiry (s : State) : Host.Outcome State Fault Refusal :=
  .next (if s.disp.pendBal ∧ s.disp.busy = false ∧ s.disp.dirty = false then s.dispStart .balance else s)

/-- CLEARING_START (R403): the clearing sequence that is due starts once HOLDUP_READY is set and the temperature measured. -/
def execClearingStart (s : State) : Host.Outcome State Fault Refusal :=
  .next (if (s.disp.clearDue ∨ s.disp.pendClear) ∧ s.clearable ∧ s.disp.busy = false then s.dispStart .clear else s)

/-- DISCHARGE_SHORT_EXPIRY (R404): step 3 of the power-off discharge stops the pumps (DEDUCED, log 49). -/
def execDischargeShortExpiry (s : State) : Host.Outcome State Fault Refusal :=
  .next (if s.disp.st = .discharging ∧ s.disp.offStep = 2 then
      s.setDisp (fun d => { d with pumps := false, falling := true, offStep := 3 }) else s)

/-- RAIL_DISCHARGE_DONE (R393, R404). -/
def execRailDischargeDone (s : State) : Host.Outcome State Fault Refusal :=
  .next (if s.disp.falling then s.railsDown else s)

/-- A display-island restart (R405): any update is abandoned with EV55 at once, EV58 fires, and a clearing sequence is queued (DEDUCED, log 49). -/
def State.displayRestart (s : State) (cause : Nat) : State :=
  let s := (s.dispAbandon true).ev58 10 cause
  s.setDisp (fun d => { d with restartAt := some s.clock.clk, pendClear := true, st := .abandoned, pumps := false })

/-- DISPLAY_RESTART_DONE (R403): the island returns and the clearing sequence starts. -/
def execDisplayRestartDone (s : State) : Host.Outcome State Fault Refusal :=
  .next (if s.disp.restartAt.isSome then
      let s := s.setDisp (fun d => { d with restartAt := none, pendClear := true, st := .off })
      if s.clearable then s.dispStart .clear else s.setDisp (fun d => { d with st := .waiting })
    else s)

/-- SELVEDGE_TRANSITION (R407): a segment whose target differs from what it shows starts its transition. -/
def execSelvedgeTransition (seg : Fin 8) (s : State) : Host.Outcome State Fault Refusal :=
  let v := s.disp.selv.get seg
  .next (if v.run.isNone ∧ 0 < v.clear then s.selvStart seg v.shown (!v.shown)
    else if v.run.isNone ∧ v.target ≠ v.shown then s.selvStart seg v.shown v.target else s)

/-- A frame of a running selvedge transition has ended (R400, R401, R407) (DEDUCED, log 49). -/
def State.selvFrame (s : State) (i : Nat) (old new : Bool) : State :=
  let v := s.disp.selv.get i
  let s := s.selvAdd i 20 old new
  if 0 < v.bal then s.setSelv i (fun v => { v with bal := v.bal - 1, frameAt := s.clock.clk })
  else
    if v.frame + 1 < phases v.table then s.setSelv i (fun v => { v with frame := v.frame + 1, frameAt := s.clock.clk })
    else
      let s := s.setSelv i (fun v => { v with run := none, shown := new, frame := 0, clear := v.clear - 1 })
      let v := s.disp.selv.get i
      if 0 < v.clear then s.selvStart i new (!new)
      else if v.target ≠ v.shown then s.selvStart i v.shown v.target else s

/-- SELVEDGE_FRAME_END (R407). -/
def execSelvedgeFrameEnd (seg : Fin 8) (s : State) : Host.Outcome State Fault Refusal :=
  .next (match (s.disp.selv.get seg).run with
    | none => s
    | some t => s.selvFrame seg t.1 t.2)

/-- DISP_COMMAND CLEAR (R403): a clearing sequence, after the running work. -/
def State.requestClear (s : State) : State :=
  if s.disp.busy ∨ s.disp.restartAt.isSome ∨ s.clearable = false then s.setDisp (fun d => { d with pendClear := true }) else s.dispStart .clear

/-- DISP_COMMAND POWER_OFF (R404): the running update completes first, a pending update is dropped. -/
def State.requestOff (s : State) : State :=
  if s.disp.busy ∨ s.disp.restartAt.isSome then s.setDisp (fun d => { d with pendOff := true, pendUpdate := false }) else s.dispDischarge

end Sys2Proof.Machine
end

