-- ==== Sys2Proof/Machine/DispCmd.lean ====
section
/-! DEFINITION. Writes of the display objects that act (R398, R403, R404, R406, R409). -/
namespace Sys2Proof.Machine

/-- A write of DISP_COMMAND (R409). -/
def State.wDisp (s : State) (v : Nat) : State :=
  let a := s.answer stOk
  if v = 1 then a.keepAns State.requestUpdate
  else if v = 2 then a.keepAns State.requestClear
  else if v = 3 then a.keepAns State.requestOff
  else s.answer stRange

/-- A write of DISP_IMAGE (R398). -/
def State.wImage (s : State) (v : Nat) : State :=
  let s := (s.setDisp (fun d => { d with image := v })).answer stOk
  if bit (s.cfg oDispOptions) 0 ∧ v % 2 ^ 88 ≠ s.disp.shown then s.keepAns State.requestUpdate else s

/-- A write of OUTAGE_MARK_CLEAR (R406, R409). -/
def State.wOutage (s : State) (v : Nat) : State :=
  if s.pwr.onVbat ∨ s.outageMode ≠ 2 then s.answer stRange
  else if v = 0 then s.answer stOk
  else ((s.setDisp (fun d => { d with outage := false })).selvTarget 0 false).answer stOk

/-- A write of SELVEDGE_STATUS (R406). -/
def State.wSelvedge (s : State) (q : Cls) (c : Card) (v : Nat) : State :=
  s.writeNew q c oSelvedgeStatus v (fun s => s.keepAns State.selvStatus)

/-- UPDATE (R398). -/
def execUpdate (r : Req) (s : State) : Host.Outcome State Fault Refusal := .next (s.writeReq r 0xA000 3 [1] (fun s _ v => s.wDisp v))

/-- CLEAR (R403). -/
def execClear (r : Req) (s : State) : Host.Outcome State Fault Refusal := .next (s.writeReq r 0xA000 3 [2] (fun s _ v => s.wDisp v))

/-- POWER_OFF (R404). -/
def execPowerOff (r : Req) (s : State) : Host.Outcome State Fault Refusal := .next (s.writeReq r 0xA000 3 [3] (fun s _ v => s.wDisp v))

/-- DISP_IMAGE (R398). -/
def execDispImage (r : Req) (b : Bytes) (s : State) : Host.Outcome State Fault Refusal :=
  .next (s.writeReq r 0xA000 2 b (fun s _ v => s.wImage v))

/-- OUTAGE_MARK_CLEAR (R406). -/
def execOutageMarkClear (r : Req) (b : Bytes) (s : State) : Host.Outcome State Fault Refusal :=
  .next (s.writeReq r 0xA000 0x20 b (fun s _ v => s.wOutage v))

/-- SELVEDGE_STATUS (R406). -/
def execSelvedgeStatus (r : Req) (b : Bytes) (s : State) : Host.Outcome State Fault Refusal :=
  .next (s.writeReq r 0xA000 0x1F b (fun s c v => s.wSelvedge r.cls c v))

end Sys2Proof.Machine
end

