-- ==== Sys2Proof/Machine/Engines.lean ====
section
/-! DEFINITION. The engines' events (chapter 5): claims, adds, gate advances, resets, admission, and crossings that time out. -/
namespace Sys2Proof.Machine

/-- STITCH_CLAIM (R128-R130): an engine with a free slot claims the stitch that R129 picks (DEDUCED, log 10). -/
def execStitchClaim (eng : Fin 32) (s : State) : Host.Outcome State Fault Refusal :=
  let x := s.eng.engines.get eng.val
  if !s.powered || !s.idleEngine eng.val || x.draining || x.susp.any s.resumable || decide (4 ≤ x.susp.length) then .next s
  else match s.pick eng.val with
    | none => .next s
    | some p => .next (s.claim eng.val p.1 p.2.1 p.2.2).after

/-- STITCH_RESUME (R127): a suspended stitch goes on once what it waits for is there. -/
def execStitchResume (eng : Fin 32) (s : State) : Host.Outcome State Fault Refusal :=
  .next (if s.powered && s.idleEngine eng.val then (s.resume eng.val).after else s)

/-- SEQUENCED_ADD (R19): the running stitch's next add is applied or discarded by its marker. -/
def execSequencedAdd (eng : Fin 32) (s : State) : Host.Outcome State Fault Refusal :=
  .next (if s.powered then (s.addNext eng.val).after else s)

/-- GATE_ADVANCE (R20): the running stitch, its adds issued, advances its gate and publishes. -/
def execGateAdvance (eng : Fin 32) (s : State) : Host.Outcome State Fault Refusal :=
  .next (if s.powered then ((s.gateAdvance eng.val).drained eng.val).after else s)

/-- Whether the stitch that an engine runs names the new pattern half of a trial (Table 18.3, cause 0x04). -/
def State.runsNewHalf (s : State) (k : Nat) : Bool :=
  match (s.eng.engines.get k).run with
  | none => false
  | some h => match s.entryOf h with
    | none => false
    | some t => decide (s.upd.st = .trial) && decide (s.upd.half0 ≠ none) && decide (s.upd.half1 ≠ none) && decide (t.pset = s.upd.newHalf)

/-- An engine reset with its cause: the second one of cause 0x01 or 0x03 on the new half ends the trial (R462). -/
def State.engineFault (s : State) (k cause : Nat) : State :=
  let counts := s.runsNewHalf k && (decide (cause = 1) || decide (cause = 3))
  let s := s.resetEngine k cause
  if counts then
    (let s := s.setUpd (fun u => { u with faults := u.faults + 1 })
     if 2 ≤ s.upd.faults then s.trialFails 4 else s)
  else s

/-- STITCH_TIMEOUT (R135): an engine has run its stitch too long and is reset with cause 0x01 (DEDUCED, log 11). -/
def execStitchTimeout (eng : Fin 32) (s : State) : Host.Outcome State Fault Refusal :=
  .next (if s.powered ∧ (s.eng.engines.get eng.val).run.isSome then s.engineFault eng.val 1 else s)

/-- ENGINE_RESET (R22, R135): an engine in service is reset for one of the causes of an engine. -/
def execEngineReset (eng : Fin 32) (cause : Fin 8) (s : State) : Host.Outcome State Fault Refusal :=
  .next (if s.powered ∧ s.inService eng.val ∧ 1 ≤ cause.val ∧ cause.val ≤ 4 then s.engineFault eng.val cause.val else s)

/-- CLUSTER_RESET (R135): a cluster in service is reset for one of the causes of a cluster. -/
def execClusterReset (cl : Fin 4) (cause : Fin 8) (s : State) : Host.Outcome State Fault Refusal :=
  .next (if s.powered ∧ (s.eng.clusters.get cl.val).st = .inService ∧ 5 ≤ cause.val then s.resetCluster cl.val cause.val else s)

/-- ENGINE_RETURN_TO_SERVICE (R137): unit 0-31 an engine, 32-35 a cluster; its built-in test has ended. -/
def execEngineReturnToService (unit : Fin 36) (testOk : Bool) (s : State) : Host.Outcome State Fault Refusal :=
  .next (if !s.powered then s
    else if unit.val < 32 then s.engineBack unit.val testOk else s.clusterBack (unit.val - 32) testOk)

/-- ADMISSION_EVALUATION (R140): with the engine cycles per stitch measured for each pattern, 0 where none ran. -/
def execAdmissionEvaluation (measured : List Nat) (s : State) : Host.Outcome State Fault Refusal :=
  .next (if s.powered then s.evaluate measured else s)

/-- Milliseconds until an island's restart budget ends, at least 1 (R10, Table 1.2). Islands are numbered as in EV58. -/
def State.islandLeft (s : State) (island : Nat) : Nat :=
  let left (at_ : Option Nat) (us : Nat) : Nat := match at_ with
    | none => 1
    | some c => s.budgetLeft c (budgetClk us)
  if island = 7 then (match s.isl.control with
    | none => 1
    | some c => s.budgetLeft c controlBudget)
  else if island = 8 then left s.ports.restartAt 2000
  else if island = 9 then left s.nvm.restartAt 300
  else if island = 10 then left s.disp.restartAt 1000
  else 1

/-- CROSSING_TIMEOUT (R10): a request held 5 ms. The stitch of an engine goes back to its queue; any other request is answered
ISLAND_RESTARTING with the rest of the island's budget. -/
def execCrossingTimeout (island : Fin 11) (eng : Option (Fin 32)) (_req : Req) (_tag : Nat) (s : State) :
    Host.Outcome State Fault Refusal :=
  match eng with
  | some k => .next (if s.powered then ((s.giveBack k.val).1).drained k.val else s)
  | none => .next (s.answerRetry stRestarting (s.islandLeft island.val))

end Sys2Proof.Machine
end

