-- ==== Sys2Proof/Machine/Hk.lean ====
section
/-! DEFINITION. The housekeeping sequencer and the urgent requests (R78-R83, R255, R351, R357, R367, R368). -/
namespace Sys2Proof.Machine

/-- THERMAL_SHED follows the higher of the two die-sensor temperatures (R357). -/
def State.thermal (s : State) (bg osc : Int) : State :=
  let t := max bg osc
  let lim := s.cfgI 4 oThermalLimitMc
  if !s.pwr.shed && decide (lim < t) then
    (s.setPwr (fun p => { p with shed := true })).raise 7 (le 1 0 ++ le 1 0 ++ le 4 (unsgn 4 t))
  else if s.pwr.shed && decide (t < lim - (s.cfg oThermalHystMc : Int)) then
    (s.setPwr (fun p => { p with shed := false })).raise 7 (le 1 0 ++ le 1 1 ++ le 4 (unsgn 4 t))
  else s

/-- A die-sensor result of the sequencer: the pair gives the applied temperature, the thermal limit and the tamper span
(R255, R357, R368). -/
def State.dieTemp (s : State) (osc : Bool) (v : Int) : State :=
  let s := s.setHk (fun h => if osc then { h with tOsc := some v } else { h with tBg := some v })
  let s := if s.tempOutside v then (if s.tamper.tempAlarm then s.tempInside v else s.urgent .tamperTemp) else s.tempInside v
  match s.hk.tBg, s.hk.tOsc with
  | some bg, some os => (s.applyTemp bg os).thermal bg os
  | _, _ => s

/-- The result of a step (R79, R81): it is stored and compared with its limits. -/
def State.hkResult (s : State) (i : Nat) (v : Int) : State :=
  let out := decide (v < s.cfgI 4 (oHkLimitLow i)) || decide (s.cfgI 4 (oHkLimitHigh i) < v)
  let was := s.hk.outside.get i
  let s := s.setHk (fun h => { h with
    result := h.result.set i v, outside := h.outside.set i out
    flags := if out then h.flags ||| (1#32 <<< i) else h.flags })
  let s := if out && !was && bit (s.cfg (oHkStep i)) 12 then s.raise 27 (le 1 i ++ le 4 (unsgn 4 v)) else s
  if s.hkChan i = 4 then s.vbatCompare (v.toNat / 1000)
  else if s.hkChan i = 5 then s.dieTemp false v else if s.hkChan i = 6 then s.dieTemp true v else s

/-- A step on a pump channel is not converted while the pumps are stopped (R393). -/
def State.hkDead (s : State) (i : Nat) : Bool := (s.hkChan i = 7 || s.hkChan i = 8) && !s.disp.pumps

/-- The step after one in the program; a completed loop is counted (R79). Steps that are not converted are passed over. -/
def State.hkNext (s : State) : Nat → State
  | 0 => s
  | n + 1 =>
    let s := s.setHk (fun h =>
      let wrap := decide (s.hkLen ≤ h.step + 1)
      { h with step := if wrap then 0 else h.step + 1, reps := 0, sum := 0, loops := if wrap then (h.loops + 1) % 65536 else h.loops })
    if s.hkDead s.hk.step then State.hkNext s n else s

/-- HK_CONVERSION_DONE (R78, R79, R81): a conversion of the step in progress ends with a value in the unit of its channel.
While an urgent conversion runs or the sequencer is stopped there is none. -/
def execHkConversionDone (value : Int) (s : State) : Host.Outcome State Fault Refusal :=
  if !s.powered ∨ !s.hk.running ∨ s.hk.active.isSome then .next s
  else
    let i := s.hk.step
    if s.hkDead i then .next (s.hkNext 32)
    else
    let s := if s.hkMode i = 0 then s.setHk (fun h => { h with fallback := s.vgUnlocked (s.cfg oHkSyncGroup) }) else s
    let n := s.hk.reps + 1
    let sum := s.hk.sum + value
    if n ≤ s.hkRepeat i then .next (s.setHk (fun h => { h with reps := n, sum := sum }))
    else .next ((s.hkNext 32).hkResult i (if bit (s.cfg (oHkStep i)) 7 then rdiv sum n else value))

/-- URGENT_REQUEST (R82, R83): a request is entered under its order. -/
def execUrgentRequest (src : UrgentSrc) (s : State) : Host.Outcome State Fault Refusal :=
  .next (if s.powered then s.urgent src else s)

/-- The power verification has both values (R351): when it passes, HOLDUP_READY is set, the issue unit is armed, the AO island
leaves VBAT and the sequencer starts. -/
def State.powerVerified (s : State) (vin vhold : Int) : State :=
  let ok := decide (3000000 ≤ vin) && decide ((s.cfg oHoldupReadyMv : Int) * 1000 ≤ vhold)
  if !ok then s.setPwr (fun p => { p with ready := false })
  else
    let first := !s.eng.armed
    let s := s.setPwr (fun p =>
      if p.onVbat then { p with
        ready := true, onVbat := false, outBackup := (s.clock.clk - p.vbatAt) / (1000 * clkMs), outVbat := p.vbatMin.getD 0
        vbatMin := none }
      else { p with ready := true })
    let s := s.setEng (fun e => { e with armed := true })
    if first && !s.hk.running && s.cfgB oHkRun then s.hkStart else s

/-- The glitch verification has its value: VCORE is kept for the entries (R367, Table 14.5). -/
def State.glitchVerified (s : State) (v : Int) : State := s.setTamper (fun t => { t with vcore := v })

/-- URGENT_CONVERSION_DONE (R83): the conversion of the running request ends; after its last one the results go to the
requester, and the next pending request runs. -/
def execUrgentConversionDone (value : Int) (s : State) : Host.Outcome State Fault Refusal :=
  let h := s.hk
  let clear (f : Hk → Hk) : State := s.setHk (fun h => (f h).arbitrate)
  .next (match h.active with
    | some 0 =>
      if h.posPower = 0 then s.setHk (fun h => { h with vin := value, posPower := 1 })
      else (clear (fun h => { h with pendPower := false, posPower := 0 })).powerVerified h.vin value
    | some 1 =>
      if h.pendTamper = some false then (clear (fun h => { h with pendTamper := none, posTamper := 0 })).glitchVerified value
      else if h.posTamper = 0 then s.setHk (fun h => { h with tampBg := value, posTamper := 1 })
      else ((clear (fun h => { h with pendTamper := none, posTamper := 0 })).tempVerified h.tampBg value).restartIfDue
    | some _ =>
      if h.posCal = 0 then s.setHk (fun h => { h with calGap := value, posCal := 1 })
      else if h.posCal = 1 then s.setHk (fun h => { h with calBg := value, posCal := 2 })
      else (clear (fun h => { h with pendCal := false, posCal := 0 })).calConverted h.calGap h.calBg value
    | none => s)

end Sys2Proof.Machine
end

