-- ==== Sys2Proof/Machine/IslandCmd.lean ====
section
/-! DEFINITION. The watchdog, the island restarts and the commands of the power unit (R13, R149, R334, R354, R430, R450). -/
namespace Sys2Proof.Machine

/-- A control-island restart with a cause of EV58; during a trial it is a fallback with the cause given (R13, R462). -/
def State.controlRestart (s : State) (cause fall : Nat) : State :=
  if s.upd.st = .trial then s.fallbackStart fall else s.controlDown cause

/-- WATCHDOG_KICK (R450). -/
def execWatchdogKick (r : Req) (b : Bytes) (s : State) : Host.Outcome State Fault Refusal :=
  .next (s.writeReq r 0xF000 2 b (fun s _ _ => (s.setIsl (fun i => { i with kick := s.clock.clk })).answer stOk))

/-- WATCHDOG_EXPIRY (R450): the control island restarts; a second expiry within 600 s of the first restarts the device. The
counter is held while the control island does not serve (DEDUCED, log 21; DEDUCED, log 47). -/
def execWatchdogExpiry (s : State) : Host.Outcome State Fault Refusal :=
  if s.controlAway then .next s
  else
    let again := match s.isl.dogAt with
      | none => false
      | some c => decide (s.clock.clk < c + 600 * 1000 * clkMs)
    let s := s.setIsl (fun i => { i with dogs := i.dogs + 1, dogAt := if again then none else some s.clock.clk })
    if again then
      .next ((s.deferEvent 62 (le 1 2 ++ le 1 1) s.now).trialFails 3 |>.restartDevice 3)
    else .next ((s.raise 62 (le 1 1 ++ le 1 0)).controlRestart 2 3)

/-- CONTROL_ISLAND_RESTART (R13). -/
def execControlIslandRestart (cause : Fin 5) (s : State) : Host.Outcome State Fault Refusal :=
  .next (if s.powered then s.controlRestart cause.val (if cause.val = 2 then 3 else 5) else s)

/-- CONTROL_RESTART_DONE (R149, R458, R463): with the outcomes of the checks of the image named and of the retained one; once
the CP serves, an admission evaluation follows with the costs last measured (DEDUCED, log 47; DEDUCED, log 48). -/
def execControlRestartDone (ok retainedOk : Bool) (s : State) : Host.Outcome State Fault Refusal :=
  if !s.powered ∨ s.isl.control.isNone ∨ s.isl.cause = 5 then .next s
  else
    let s := s.imageStart ok retainedOk
    .next (if s.isl.control.isNone then s.evaluate ((List.range 10).map (fun i => s.eng.cost.get (i + 1))) else s)

/-- A port-island restart (R430): inline state is reset; rings and repeat tables stay. -/
def State.portRestart (s : State) (cause : Nat) : State :=
  let s := s.ev58 8 cause
  let s := s.setRelay (fun r => { r with phase := .idle })
  { s with ports := { s.ports with
    restartAt := some s.clock.clk
    p := KMap.mapV s.ports.p (fun (p : Port) => { p with
      bulk := {}, lastTag := 0, lastRetry := 0, lastResult := 0, lastStatus := 0, owes := none, sent := none }) } }

/-- PORT_ISLAND_RESTART (R430). -/
def execPortIslandRestart (cause : Fin 5) (s : State) : Host.Outcome State Fault Refusal :=
  .next (if s.powered then s.portRestart cause.val else s)

/-- PORT_RESTART_DONE (R433): the port island returns; an interrupted relay operation stands and runs again. -/
def execPortRestartDone (s : State) : Host.Outcome State Fault Refusal :=
  .next { s with ports := { s.ports with restartAt := none } }

/-- DISPLAY_ISLAND_RESTART (R405) (DEDUCED, log 49). -/
def execDisplayIslandRestart (cause : Fin 5) (s : State) : Host.Outcome State Fault Refusal :=
  .next (if s.powered then s.displayRestart cause.val else s)

/-- NVM_ISLAND_RESTART (R334): the head page is torn, so that the next record begins a fresh page; EV58 fires. -/
def execNvmIslandRestart (cause : Fin 5) (s : State) : Host.Outcome State Fault Refusal :=
  .next (if s.powered then (s.setNvm (fun n => { n with restartAt := some s.clock.clk, jOff := 256 })).ev58 9 cause.val else s)

/-- What BIND_OFF does before its steps (Table 13.10): the session ends as at a trip, the held shadows are discarded (DEDUCED, log 49). -/
def State.bindCommand (s : State) (restart : Bool) : State :=
  if s.pwr.bind ≠ .none then s
  else ((s.setCal (fun c => { c with owner := none, running := false })).holdDrop).bindStart restart

/-- A write of POWER_COMMAND (R354). -/
def State.wPower (s : State) (v : Nat) : State :=
  let a := s.answer stOk
  if v = 1 then a.keepAns (fun s => s.bindCommand false)
  else if v = 2 then a.keepAns (fun s => s.bindCommand true)
  else if v = 3 then a.keepAns (fun s => s.controlRestart 1 5)
  else if v = 4 then a.keepAns (fun s => s.portRestart 1)
  else if v = 5 then a.keepAns (fun s => s.displayRestart 1)
  else s.answer stRange

/-- BIND_OFF_REST (R354). -/
def execBindOffRest (r : Req) (s : State) : Host.Outcome State Fault Refusal :=
  .next (s.writeReq r 0xE000 2 [1] (fun s _ v => s.wPower v))

/-- BIND_OFF_RESTART (R354). -/
def execBindOffRestart (r : Req) (s : State) : Host.Outcome State Fault Refusal :=
  .next (s.writeReq r 0xE000 2 [2] (fun s _ v => s.wPower v))

/-- RESTART_CONTROL (R354). -/
def execRestartControl (r : Req) (s : State) : Host.Outcome State Fault Refusal :=
  .next (s.writeReq r 0xE000 2 [3] (fun s _ v => s.wPower v))

/-- RESTART_PORT (R354). -/
def execRestartPort (r : Req) (s : State) : Host.Outcome State Fault Refusal :=
  .next (s.writeReq r 0xE000 2 [4] (fun s _ v => s.wPower v))

/-- RESTART_DISPLAY (R354). -/
def execRestartDisplay (r : Req) (s : State) : Host.Outcome State Fault Refusal :=
  .next (s.writeReq r 0xE000 2 [5] (fun s _ v => s.wPower v))

end Sys2Proof.Machine
end

