-- ==== Sys2Proof/Machine/Lanes.lean ====
section
/-! DEFINITION. The filter island's events (chapter 4) and the issue unit's resumption. -/
namespace Sys2Proof.Machine

/-- FILTER_SAMPLE (R85): output sample k of a modulator; an index other than the lane's next writes nothing (DEDUCED, log 50). -/
def execFilterSample (stream : Fin 264) (k : Nat) (x : Int) (flat : Bool) (s : State) : Host.Outcome State Fault Refusal :=
  if !s.powered then .next s else
  .next (State.after (
    let own := decide (stream.val < 256)
    let sp := if own then stream.val / 32 else stream.val - 256
    let chn : Option Nat := if own then some stream.val else (s.spares.get sp).ch
    match chn with
    | none => s
    | some ch =>
      let c := s.chans.get ch
      if !c.running || c.uncovered then s
      else
        let s := s.toClk (s.clock.castOn + k * presetD c.preset)
        let serves := if own then c.onSpare.isNone else decide (c.onSpare = some sp)
        let paired := decide ((s.spares.get sp).ch = some ch)
        let p := s.spares.get sp
        let s := if paired then s.pairSample sp ch k own x else s
        let s := if paired && overranged c.preset x flat && decide (p.pairs.length < 64) then s.parallelRestart sp else s
        let turn := decide (k = c.next) || (decide (c.next = c.first) && decide (c.next ≤ k))
        if serves && turn then
          let s := if c.faultAt.isSome ∧ !own ∧ (s.spares.get sp).stage = .serving then
              s.setChan ch (fun c => { c with faultAt := none, validFrom := max c.validFrom k }) else s
          s.laneSample ch k (if own then x else p.aligned x) flat
        else s))

/-- FTRIP_MIN_WIDTH_END (R99): the pin follows its source from here on. -/
def execFtripMinWidthEnd (pin : Fin 8) (s : State) : Host.Outcome State Fault Refusal :=
  .next (if (s.ftrip.get pin.val).holding then
      let s := s.setFtrip pin.val (fun f => { f with holding := false })
      if s.ftOn pin.val ∧ s.ftLatch pin.val = false ∧ (s.ftTripped pin.val).isNone then
        s.setFtrip pin.val (fun f => { f with level := false }) else s
    else s)

/-- ISSUE_RESUME (R124): the paused issue and the issue buffer go on while a queue has room. -/
def execIssueResume (s : State) : Host.Outcome State Fault Refusal := .next s.advance

end Sys2Proof.Machine
end

