-- ==== Sys2Proof/Machine/Mem.lean ====
section
/-! DEFINITION. The memory island's events: scrubbing, line recovery, row tests and march runs (chapter 11). -/
namespace Sys2Proof.Machine

/-- A scrub read that comes before the last one in its bank begins a new pass (R290, Table 11.15) (DEDUCED, log 26). -/
def State.scrubCursor (s : State) (addr : Nat) : State :=
  let b := bankOf addr
  let off := addr % 262144 / 8
  s.setBank b (fun x =>
    if off ≤ x.cursor ∧ 0 < x.cursor then { x with lastPass := sat 255 x.pass, pass := 0, rows := [], cursor := off }
    else { x with cursor := off })

/-- SCRUB_WORD (R281, R290, R291): the scrubber reads a word with the given number of bits in error, the first at pos.
A poisoned word is skipped; the secure SRAM is not scrubbed on VBAT (DEDUCED, log 26). -/
def execScrubWord (addr errs pos : Nat) (s : State) : Host.Outcome State Fault Refusal :=
  let word := addr / 8 * 8
  let secure := decide (2 ^ 31 ≤ word)
  if (!secure && decide (0x400000 ≤ word)) || (secure && (decide (2 ^ 31 + 65536 ≤ word) || s.pwr.onVbat)) || s.mem.poison.get word then .next s
  else
    let s := if secure then s else s.scrubCursor word
    if errs = 0 then .next s
    else if errs ≤ 2 then
      let s := s.corrected 0xFF word errs pos
      .next (if secure then s else s.scrubCount word)
    else .next (s.poisonWord 0xFF word)

/-- LINE_RECOVERY (R286, R327): a poisoned line takes its newest journal record, and the loss is recorded and reported. -/
def execLineRecovery (line : Nat) (s : State) : Host.Outcome State Fault Refusal :=
  match s.mem.recovering.find? (fun x => decide (x.1 = line)) with
  | none => .next s
  | some x =>
    let w := s.cfg (oMapEntry line)
    let cnt : W32 := if meKind w = 0 then (s.accts.get (meNumber w)).cycle else (s.bal.get (meNumber w)).cycle
    let l := if s.lineKept line then s.nvm.kept.lines.get line else { value := 0, marker := cnt - 1 }
    let start := min (s.lossStart (line / 15) x.2) x.2
    let bound := if meKind w = 0 then toF32 ((s.accts.get (meNumber w)).lossBound s.now)
      else toF32 ((s.feeders (meNumber w)).foldl (fun r a => r + (s.accts.get a).lossBound s.now) 0)
    let bounded := decide (meKind w = 2) || decide (meCode w = 1) || decide (meCode w = 2)
    let rec_ := lossRecord start x.2 4 (meKind w) (meNumber w) line (meCode w) bound bounded
    let s := s.setAcc (fun a => { a with lines := a.lines.set line l })
    let s := s.setMem (fun m => { m with recovering := m.recovering.filter (fun y => y.1 ≠ line) })
    let s := (s.logBoth 2 rec_).scStep 7
    let s := s.setPwr (fun p => { p with lossBounded := true })
    .next (s.raise 3 (le 1 4 ++ le 1 (meKind w) ++ le 2 (meNumber w) ++ le 2 1))

/-- Note a failed row in the run that tested it. -/
def March.fail (m : March) : March := { m with failed := m.failed + 1 }

/-- ROW_TEST (R301, R302): a preserving test of a row of a bank ends with the given number of failing words. Rows 0-255 are
logical rows, 256-271 spare rows and 272 the transit row (DEDUCED, log 26). -/
def execRowTest (bank : Fin 16) (row failWords : Nat) (s : State) : Host.Outcome State Fault Refusal :=
  let b := s.mem.banks.get bank.val
  let source := s.marchSource
  if source = 0 ∨ b.transitFailed ∨ 272 < row then .next s
  else
    let phys := if row < 256 then b.physical row else if row = 272 then b.transitRow else row
    let s := if 0 < failWords then
        (let s := s.rowFailed bank.val phys failWords source
         if source = 1 then s.setMem (fun m => { m with request := m.request.map March.fail })
         else if source = 2 then s.setMem (fun m => { m with periodic := m.periodic.map March.fail })
         else s)
      else s
    let last (m : March) : March := if row = 271 then { m with pending := m.pending - m.pending / 2 ^ bank.val % 2 * 2 ^ bank.val } else m
    .next (if source = 3 then s.setMem (fun m => { m with scrubQ := m.scrubQ.filter (fun x => x ≠ (bank.val, row)) })
      else if source = 1 then s.setMem (fun m => { m with request := m.request.map last })
      else s.setMem (fun m => { m with periodic := m.periodic.map last }))

/-- MARCH_PERIODIC (R304): a preserving run over all banks with the settings of MARCH_STARTUP; 0 hours turn it off. -/
def execMarchPeriodic (s : State) : Host.Outcome State Fault Refusal :=
  let v := s.cfg oMarchStartup
  if s.cfg oMarchPeriodicH = 0 ∨ s.mem.periodic.isSome then .next s
  else .next (s.setMem (fun m => { m with
    periodic := some { banks := 0xFFFF, alg := bits v 17 16, bg := bits v 19 18, failed := 0, pending := 0xFFFF } }))

/-- MARCH_RUN_DONE (R304): the run in progress, requested before periodic, ends with EV63. -/
def execMarchRunDone (s : State) : Host.Outcome State Fault Refusal :=
  match s.mem.request with
  | some m =>
    .next ((s.setMem (fun x => { x with request := none })).raise 63 (le 1 0 ++ le 2 m.banks ++ le 2 (sat 65535 m.failed)))
  | none => match s.mem.periodic with
    | some m =>
      .next ((s.setMem (fun x => { x with periodic := none })).raise 63 (le 1 1 ++ le 2 m.banks ++ le 2 (sat 65535 m.failed)))
    | none => .next s

end Sys2Proof.Machine
end

