-- ==== Sys2Proof/Machine/MeterCmd.lean ====
section
/-! DEFINITION. Time, snapshots, clears, pulses and the event unit's objects (R50, R158, R189, R193, R197, R203-R205, R442,
R447). -/
namespace Sys2Proof.Machine

/-! ### Time (R50, R158) -/

/-- The RTC takes a value as a tick of this instant; TIME_LAST_SET, EV54 with the class, and a held schedule (R50, R158, R237).
A slew in progress is cancelled (R428) and TIME_SUSPECT clears (R366) (DEDUCED, log 52). -/
def State.setTime (s : State) (v : Stamp) (cls : Nat) : State :=
  let prev := s.now
  let c := s.clock
  let s := { s with clock := { c with
    prevRtc := c.rtc, prevLatch := c.latch, rtc := v, latch := c.clk, slew := 0, lastSet := prev, stepped := true } }
  let s := s.setTamper (fun t => { t with suspect := false })
  (s.setPp (fun p => { p with frozen := true })).raise 54 (le 6 prev ++ le 1 cls)

/-- TIME_NOW (R50). -/
def execTimeNow (r : Req) (b : Bytes) (s : State) : Host.Outcome State Fault Refusal :=
  .next (s.writeReq r 0x1101 1 b (fun s _ v => (s.setTime v (clsNo r.cls)).answer stOk))

/-- RTC_SECOND_TICK (R158, R428): the RTC reaches its next second and MCLK_COUNT is latched; after a TIME_NOW write the
intervals, sub-periods, periods and windows in progress close (R171, R196, Table 8.11) (DEDUCED, log 52). -/
def execRtcSecondTick (s : State) : Host.Outcome State Fault Refusal :=
  let c := s.clock
  let s := { s with clock := { c with
    prevRtc := c.rtc, prevLatch := c.latch, rtc := (c.rtc / 1024 + 1) * 1024, latch := c.clk, stepped := false
    slew := if 0 < c.slew then c.slew - 1 else if c.slew < 0 then c.slew + 1 else 0 } }
  .next (if c.stepped ∧ s.powered then s.aggForce.demandForce.profForce.balForce else s)

/-! ### Snapshots (R193) -/

/-- A write of SNAP_REQ of a class. -/
def State.wSnap (s : State) (k v : Nat) : State :=
  (s.setAcc (fun a => { a with snaps := a.snaps.set k { state := 1, subject := v } })).answer stOk

/-- SNAP_REQ (R193): each class writes its own. -/
def execSnapReq (r : Req) (b : Bytes) (s : State) : Host.Outcome State Fault Refusal :=
  .next (s.writeReq r 0xB000 (0x72 + clsNo r.cls) b (fun s _ v => s.wSnap (clsNo r.cls) v))

/-- SNAPSHOT_TIMEOUT (R193): the waiting copy is taken with the last committed cycle and marked STALE. -/
def execSnapshotTimeout (cls : Cls) (s : State) : Host.Outcome State Fault Refusal :=
  let k := clsNo cls
  let x := s.acc.snaps.get k
  if x.state ≠ 1 ∨ !s.powered then .next s
  else
    let n := bits x.subject 9 0
    let last : W32 × Stamp := if bits x.subject 15 14 = 2 then ((s.bal.get n).cycle - 1, (s.bal.get n).lastEnd)
      else ((s.accts.get n).lastCommitted, (s.accts.get n).lastEnd)
    .next (s.snapTake k last.1 last.2 true)

/-! ### Clears (R189, R197, R489) -/

/-- The record of a clear or a reset (Table 17.4). -/
def State.clearRecord (s : State) (q : Cls) (entry value : Nat) : Bytes :=
  le 6 s.now ++ le 1 (clsNo q) ++ le 1 0 ++ le 2 entry ++ le 2 0 ++ le 12 value ++ le 8 0

/-- A write of ACC_CLEAR: the line of a disabled entry; the profile keeps what was added before (R199). -/
def State.wAccClear (s : State) (q : Cls) (n : Nat) : State :=
  if meEnable (s.cfg (oMapEntry n)) then s.answer stRange
  else
    let l := s.acc.lines.get n
    let old := l.value.toNat
    let close := s.profClose n
    let s := s.setAcc (fun a => { a with lines := a.lines.set n { l with value := 0 } })
    let s := s.setProf n (fun x => { open_ := 0, cleared := x.cleared + (close / 2 ^ 20 - x.open_ / 2 ^ 20), wasCleared := true })
    let s := s.jSave [jLines (n / 15)]
    (s.logBoth 3 (s.clearRecord q n old)).answer stOk

/-- ACC_CLEAR (R189). -/
def execAccClear (r : Req) (b : Bytes) (s : State) : Host.Outcome State Fault Refusal :=
  .next (s.writeReq r 0xB000 0x78 b (fun s _ v => s.wAccClear r.cls v))

/-- A write of MD_RESET: the maxima of a subject. -/
def State.wMdReset (s : State) (q : Cls) (v : Nat) : State :=
  let es := ((s.subjEntries (subjOf (bits v 15 14) (bits v 9 0))).filter (fun e => meDemand e.2)).map Prod.fst
  let groups := (es.map (fun n => (s.tracked.takeWhile (· ≠ n)).length / 15)).eraseDups
  let s := s.jSave (groups.map jDemand)
  let t := s.now
  let s := es.foldl (fun s n => s.setDemand n (fun x => { x with max := 0, maxAt := t })) s
  (s.logBoth 4 (s.clearRecord q v 0)).answer stOk

/-- MD_RESET (R197). -/
def execMdReset (r : Req) (b : Bytes) (s : State) : Host.Outcome State Fault Refusal :=
  .next (s.writeReq r 0xB000 0x79 b (fun s _ v => s.wMdReset r.cls v))

/-! ### Pulses (R203-R205) -/

/-- The clock count of a time in microseconds, rounded up. -/
def usClk (us : Nat) : Nat := (us * 512 + 124) / 125

/-- PULSE_EDGE (R203, R204): the next scheduled or owed edge of an output comes due (DEDUCED, log 10; DEDUCED, log 52). -/
def execPulseEdge (n : Fin 8) (s : State) : Host.Outcome State Fault Refusal :=
  let k := n.val
  let p := s.acc.pulses.get k
  let owed := if 0 < p.owed then [p.owedAt (s.pulseHalf k) (s.pulseWidth k) 0] else []
  .next (match (p.edges.map Prod.fst).take 1 ++ owed with
    | [] => s
    | t :: rest => if s.powered then (s.toClk (usClk (rest.foldl min t))).pulseRun k 0 else s)

/-- PULSE_CONFIG or PULSE_CONST has a new value: ENABLE = 0 drops everything, a smaller quantum leaves owed pulses (R205) (DEDUCED, log 52). -/
def State.pulseNew (s : State) (n : Nat) (wasOn : Bool) : State :=
  if !s.pulseOn n then s.setPulse n (fun p => { p with level := false, edges := [], residue := 0, owed := 0 })
  else if !wasOn then s.setPulse n (fun p => { p with residue := 0 })
  else
    let q := s.quantum n
    s.setPulse n (fun p => if q = 0 ∨ p.residue < q then p else p.surplus q)

/-- A write of PULSE_CONFIG or PULSE_CONST (DEDUCED, log 52). -/
def State.wPulse (s : State) (q : Cls) (c : Card) (key n v : Nat) : State :=
  let s := s.pulseRun n 0
  let on := s.pulseOn n
  s.writeNew q c key v (fun s => s.pulseNew n on)

/-- PULSE_CONFIG, or PULSE_CONST (R205). -/
def execPulseConfig (r : Req) (n : Fin 8) (isConst : Bool) (b : Bytes) (s : State) : Host.Outcome State Fault Refusal :=
  let key := if isConst then oPulseConst n.val else oPulseConfig n.val
  .next (s.writeReq r 0xB000 (key % 256) b (fun s c v => s.wPulse r.cls c key n.val v))

/-! ### The event unit (R442, R447) -/

/-- A write of EVENT_PENDING clears the bits written 1. -/
def State.wPending (s : State) (v : Nat) : State :=
  ({ s with evt := { s.evt with
    pending := (setList v 64).foldl (fun (m : KMap Bool) n => KMap.set m n false) s.evt.pending } }).answer stOk

/-- EVENT_PENDING_CLEAR (R447). -/
def execEventPendingClear (r : Req) (b : Bytes) (s : State) : Host.Outcome State Fault Refusal :=
  .next (s.writeReq r 0x2100 1 b (fun s _ v => s.wPending v))

/-- New consumers of a ring: an added class reads from the oldest entry, a removed one withdraws its acknowledgements. -/
def State.consumersNew (s : State) (k : Nat) (old : List Cls) : State :=
  let now := s.consumers k
  let s := s.setRing k (fun x => { x with
    entries := (x.entries.map (fun e => { e with await := e.await.filter (fun q => now.contains q) })).filter (fun e => e.await ≠ []) })
  (now.filter (fun q => !old.contains q)).foldl (fun s q => s.setRing k (fun x => { x with pos := x.pos.set (clsNo q) 0 })) s

/-- A write of RING_CONSUMERS. -/
def State.wConsumers (s : State) (q : Cls) (c : Card) (v : Nat) : State :=
  let old (k : Nat) : List Cls := s.consumers k
  s.writeNew q c oRingConsumers v (fun s => [4, 5, 6].foldl (fun s k => s.consumersNew k (old k)) s)

/-- RING_CONSUMERS (R442). -/
def execRingConsumers (r : Req) (b : Bytes) (s : State) : Host.Outcome State Fault Refusal :=
  .next (s.writeReq r 0x2100 5 b (fun s c v => s.wConsumers r.cls c v))

end Sys2Proof.Machine
end

