-- ==== Sys2Proof/Machine/NvmCmd.lean ====
section
/-! DEFINITION. The non-volatile store's events and commands, and the march commands (chapters 11 and 12). -/
namespace Sys2Proof.Machine

/-- The journal and the stores take saves: the islands run and the restoration of R322 is complete. -/
def State.mayNvm (s : State) : Bool := s.powered && s.nvm.restored

/-- PERIODIC_SAVE (R319). -/
def execPeriodicSave (s : State) : Host.Outcome State Fault Refusal := .next (if s.mayNvm then s.save else s)

/-- A write of SAVE_REQUEST: 1 starts a save (R319). -/
def State.wSave (s : State) (v : Nat) : State := (if v = 1 ∧ s.mayNvm then s.save else s).answer stOk

/-- SAVE_REQUEST (R319). -/
def execSaveRequest (r : Req) (b : Bytes) (s : State) : Host.Outcome State Fault Refusal :=
  .next (s.writeReq r 0xC000 0x22 b (fun s _ v => s.wSave v))

/-! ### Programs that fail (R310) -/

/-- Live store records in the pair of a page are appended again. -/
def Store.moveFrom (st : Store) (cal : Bool) (bad : List Nat) (pair : Nat) : Store :=
  let lives := st.recs.filter (fun (e : Nat × Option SRec) => match e.2 with
    | none => false
    | some r => (rangeFrom r.pair (recPairs r.len)).any (fun p => p % storePairs cal = pair))
  lives.foldl (fun (st : Store) (e : Nat × Option SRec) => match e.2 with
    | none => st
    | some r => st.append cal bad e.1 r.val r.len) st

/-- The unit that issued the write rewrites its data at its next free page: a store its live pairs, the journal its live
records, the event log its record, the update unit leaves the page unwritten (DEDUCED, log 29). -/
def State.rewriteElsewhere (s : State) (page : Nat) : State :=
  let n := s.nvm
  if page < 6144 then
    (if page / 3072 = s.freeSlot then s.setUpd (fun u => { u with pages := u.pages.set (page % 3072) false }) else s)
  else if page < 10240 then
    let lives := n.jrn.filter (fun (e : Nat × Option JRec) => match e.2 with
      | none => false
      | some r => 6144 + r.page % 4096 = page)
    s.jWrite (lives.map (fun e => (e.1, jLen e.1)))
  else if page < 11264 then s.setNvm (fun n => { n with cfg := n.cfg.moveFrom false n.bad ((page - 10240) / 2) })
  else if page < 11776 then s.setNvm (fun n => { n with cal := n.cal.moveFrom true n.bad ((page - 11264) / 2) })
  else if 12288 ≤ page ∧ page < 12800 then
    (let last := (n.evSlot + 2047) % 2048
     if 12288 + last / 4 = page then
       (let slot := evSlotOk n.bad 16 n.evSlot
        let b := cellsGet 0xFF n.mem (0x300000 + 64 * last) 64
        (s.nvmWrite (0x300000 + 64 * slot) b).setNvm (fun n => { n with evSlot := (slot + 1) % 2048 }))
     else s)
  else if 12800 ≤ page ∧ page < 12928 then s.programs 12928 2
  else s

/-- A page that has failed twice (R310) (DEDUCED, log 29). -/
def State.pageBad (s : State) (page : Nat) : State :=
  if s.nvm.bad.contains page then s
  else
    let s := s.setNvm (fun n => { n with progFail := n.progFail.set (page % 8) true, bad := n.bad ++ [page] })
    let s := s.storeTry false oBadPages (mapBits 16384 (fun p => s.nvm.bad.contains p)) 2048
    (s.raise 23 (le 1 0 ++ le 4 page)).rewriteElsewhere page

/-- NVM_PROGRAM_DONE (R310): the page is read back; a mismatch is programmed once more, a second one makes the page bad (DEDUCED, log 29). -/
def execNvmProgramDone (page : Nat) (match1 match2 : Bool) (s : State) : Host.Outcome State Fault Refusal :=
  .next (if match1 ∨ 16384 ≤ page ∨ !s.powered then s
    else
      let s := s.program page
      if match2 then s else s.pageBad page)

/-! ### Compaction, refresh and wear (R317, R320, R323) -/

/-- STORE_COMPACTION (R317). -/
def execStoreCompaction (cal : Bool) (s : State) : Host.Outcome State Fault Refusal :=
  .next (s.setNvm (fun n =>
    if cal then { n with cal := n.cal.compact true n.bad n.cal.used.length }
    else { n with cfg := n.cfg.compact false n.bad n.cfg.used.length }))

/-- JOURNAL_COMPACTION (R320). -/
def execJournalCompaction (s : State) : Host.Outcome State Fault Refusal := .next (if s.powered then s.jCompact 1 else s)

/-- EV21 (R316): a record of which one copy alone is valid (DEDUCED, log 33). -/
def State.ev21 (s : State) (key : Nat) (seq : W32) (cause : Nat) : State :=
  s.raise 21 (le 4 (jobj key) ++ le 4 seq.toNat ++ le 4 seq.toNat ++ le 1 cause)

/-- A store's records in a pair that holds an uncorrectable word (R316, R46): with one copy left the record is rewritten with
EV21; with none the object answers CRC_ERROR until it is written again (DEDUCED, log 33). -/
def State.pairBad (s : State) (cal : Bool) (pair : Nat) (both : Bool) : State :=
  let st := if cal then s.nvm.cal else s.nvm.cfg
  let hit := st.recs.filterMap (fun (e : Nat × Option SRec) => match e.2 with
    | none => none
    | some r => if (rangeFrom r.pair (recPairs r.len)).any (fun p => p % storePairs cal = pair) then some (e.1, r) else none)
  let put (s : State) (st : Store) : State := s.setNvm (fun n => if cal then { n with cal := st } else { n with cfg := st })
  hit.foldl (fun s (e : Nat × SRec) =>
    let st := if cal then s.nvm.cal else s.nvm.cfg
    if both then
      (put { s with dict := { s.dict with broken := s.dict.broken.set e.1 true } } { st with recs := st.recs.set e.1 none }).setNvm
        (fun n => { n with lost := if n.lost.contains e.1 then n.lost else n.lost ++ [e.1] })
    else (put s (st.append cal s.nvm.bad e.1 e.2.val e.2.len)).ev21 e.1 e.2.seq 1) s

/-- An uncorrectable word found by a refresh read (R323) (DEDUCED, log 33). -/
def State.nvmWordBad (s : State) (all : List Nat) (a : Nat) : State :=
  let rec_ := s.errorRecord 2 0xFF a 0x11 0 0xFF
  let s := (s.setNvm (fun n => { n with lastError := rec_ })).raise 17 rec_
  let page := a / 256
  let cal := decide (11264 ≤ page)
  if 10240 ≤ page ∧ page < 11776 then
    let twin := if page % 2 = 0 then page + 1 else page - 1
    s.pairBad cal ((page - storePage cal) / 2) (all.any (fun x => x / 256 = twin))
  else s

/-- REFRESH_PASS (R323): the pages of the weak words are reprogrammed; uncorrectable words are reported (DEDUCED, log 33). -/
def execRefreshPass (weak bad : List Nat) (s : State) : Host.Outcome State Fault Refusal :=
  if !s.powered then .next s
  else
    let pages := (weak.map (fun a => a / 256)).eraseDups
    let s := pages.foldl State.program s
    let s := s.setNvm (fun n => { n with refreshed := n.refreshed + pages.length })
    let s := if pages = [] then s else s.raise 22 (le 4 pages.length)
    .next (bad.foldl (fun s a => s.nvmWordBad bad a) s)

/-- NVM_LIFE_CHECK (R320): a day of the wear average ends; EV23 with LIFE, at most once per day. -/
def execNvmLifeCheck (s : State) : Host.Outcome State Fault Refusal :=
  if !s.powered then .next s
  else
    let low := decide (s.lifeMonths < 12 * s.cfg oNvmWearYears)
    let today := dayOf s.now
    let due := low && decide (s.nvm.lifeDay ≠ some today)
    let s := if due then (s.raise 23 (le 1 1 ++ le 4 s.lifeMonths)).setNvm (fun n => { n with lifeDay := some today }) else s
    .next (s.setNvm (fun n => { n with perDay := (0 :: n.perDay).take 30 }))

/-! ### Spread counters (R333) -/

/-- A write of SPREAD_INC. -/
def State.wSpread (s : State) (v : Nat) : State := if 16 ≤ v ∧ v ≤ 63 then (s.scStep v).answer stOk else s.answer stRange

/-- SPREAD_INC (R333). -/
def execSpreadInc (r : Req) (b : Bytes) (s : State) : Host.Outcome State Fault Refusal :=
  .next (s.writeReq r 0xC000 0x2D b (fun s _ v => s.wSpread v))

/-! ### March commands (R304) -/

/-- A write of MARCH_COMMAND (DEDUCED, log 54). -/
def State.wMarch (s : State) (v : Nat) : State :=
  let banks := bits v 15 0
  if banks = 0 then s.answer stRange
  else if bit v 20 then
    (let s := s.setMem (fun m => { m with destructive := some v })
     let s := s.answer stOk
     { s.restartDevice 2 with ans := s.ans })
  else match s.mem.request with
    | some m => s.answerRetry stBusy (s.marchLeft m)
    | none =>
      (s.setMem (fun m => { m with
        request := some { banks := banks, alg := bits v 17 16, bg := bits v 19 18, failed := 0, pending := banks } })).answer stOk

/-- MARCH_PRESERVING: MARCH_COMMAND with MODE 0 (R304). -/
def execMarchPreserving (r : Req) (b : Bytes) (s : State) : Host.Outcome State Fault Refusal :=
  .next (s.writeReq r 0xC000 0x1A b (fun s _ v => s.wMarch v))

/-- MARCH_DESTRUCTIVE: MARCH_COMMAND with MODE 1 (R304) (DEDUCED, log 54). -/
def execMarchDestructive (r : Req) (b : Bytes) (s : State) : Host.Outcome State Fault Refusal :=
  .next (s.writeReq r 0xC000 0x1A b (fun s _ v => s.wMarch v))

end Sys2Proof.Machine
end

