-- ==== Sys2Proof/Machine/PortOps.lean ====
section
/-! DEFINITION. The ports' shared operations: what a port serves, refusals, acceptance and repeats, ring reads and
acknowledgements, the bulk data window, and the bytes of the memories that it and DBG_MEM read (R412-R422, R425-R429, R435). -/
namespace Sys2Proof.Machine

/-- Change the port island. -/
def State.setPorts (s : State) (f : Ports → Ports) : State := { s with ports := f s.ports }

/-- The master class of a port. -/
def portClass (k : Nat) : Cls := if k = 0 then .h else if k = 1 then .f else .s

/-! ### What a port serves (R343, R427, R430) -/

/-- A port receives: its island runs and the port is enabled (DESIGN CHOICE, log 4). -/
def State.portServes (s : State) (k : Nat) : Bool :=
  s.powered && s.ports.restartAt.isNone &&
    (decide (k = 0) || (decide (k = 1) && s.cfgB oFEnable) || (decide (k = 2) && s.cfgB oSEnable))

/-- The H-port in the emergency order, until its island is gated (R343) (DEDUCED, log 37). -/
def State.emergencyPort (s : State) : Bool := decide (s.pwr.mode = .powerFail) && s.ports.restartAt.isNone

/-- A command frame in the emergency order (R343) (DEDUCED, log 37). -/
def State.answerEmergency (s : State) : State := s.answerRetry stRestarting (250 + s.cfg oRestartHoldoffMs)

/-- An inline command that came by a port of a class: served when the port receives; in the emergency order the H-port serves
only reads of SR1 and SR4; a broadcast is refused without reply (R343, R425) (DEDUCED, log 37). -/
def State.inline (s : State) (r : Req) (rescue : Bool) (f : State → State) : State :=
  if r.cls = .c ∨ r.bcast then s
  else if s.portServes (portOf r.cls) then f s
  else if r.cls = .h ∧ s.emergencyPort then (if rescue then f s else s.answerEmergency)
  else s

/-! ### CRC failures (R416) -/

/-- Count a CRC failure; EV50 at most once per second per port (DEDUCED, log 34). -/
def State.crcFail (s : State) (k : Nat) : State :=
  let s := s.setPort k (fun p => { p with crcErrors := p.crcErrors + 1, crcSince := p.crcSince + 1 })
  let p := s.ports.p.get k
  let due : Bool := match p.lastEv50 with
    | none => true
    | some c => decide (c + 1000 * clkMs ≤ s.clock.clk)
  if due then
    (s.raise 50 (le 1 k ++ le 4 p.crcSince)).setPort k (fun p => { p with crcSince := 0, lastEv50 := some s.clock.clk })
  else s

/-! ### Commands (R412-R414, R417, R429) -/

/-- The command ring of a port. -/
def portRing (k : Nat) : Nat := if k = 0 then 0 else 2

/-- The retry time of a full command ring (R417). -/
def State.ringRetry (s : State) (ring : Nat) : Nat :=
  if s.isl.control.isSome then s.controlLeft + 1 else 1 + (s.evt.rings.get ring).entries.length / 16

/-- Fields of a command (Table 16.2). -/
def cmdOp (c : Bytes) : Nat := fld c 0 1
def cmdIndex (c : Bytes) : Nat := fld c 1 2
def cmdSub (c : Bytes) : Nat := fld c 3 1
def cmdLen (c : Bytes) : Nat := fld c 4 2
def cmdTag (c : Bytes) : Nat := fld c 6 2

/-- The opcodes of Table 16.4 that the port island serves itself, and those served by ring. -/
def inlineOp (op : Nat) : Bool := [4, 5, 6, 0x10, 0x11].contains op
def ringOp (op : Nat) : Bool := [1, 2, 3].contains op

/-- The limits of R412 on a command of a port: the status of a refusal. A body that is not the header and LENGTH payload
bytes has the wrong length (DEDUCED, log 30). -/
def cmdRefusal (k : Nat) (c : Bytes) : Option Nat :=
  let op := cmdOp c
  if 4096 < cmdLen c then some stRange
  else if c.length ≠ 8 + cmdLen c then some stBadType
  else if (ringOp op || inlineOp op) = false ∨ (op = 4 ∧ k ≠ 0) then some stRange
  else if (op = 1 ∨ op = 3 ∨ op = 4) ∧ cmdLen c ≠ 0 then some stBadType
  else if op = 6 ∧ cmdLen c ≠ 4 then some stBadType
  else if op = 0x10 ∧ cmdLen c ≠ 12 then some stBadType
  else none

/-- A full command ring: counted, EV48 or EV49 at the first refusal since it last had room, BUSY_RETRY. -/
def State.ringBusy (s : State) (k : Nat) : State :=
  let ring := portRing k
  let s := s.setPort k (fun p => { p with busy := p.busy + 1 })
  let s := if (s.evt.rings.get ring).refused then s
    else (s.raise (if k = 0 then 48 else 49) (le 1 k ++ le 1 (sat 255 (s.ringFree ring)))).setRing ring
      (fun r => { r with refused := true })
  s.answerRetry stBusy (s.ringRetry ring)

/-- Write a command into its ring: none when the ring lacks the room. -/
def State.ringCommand (s : State) (k : Nat) (bcast : Bool) (c : Bytes) : Option State :=
  let ring := portRing k
  let units := (c.length + 63) / 64
  if s.ringFree ring < units then none
  else
    let s := (s.ringAdd ring (fun _ => { units := units, port := k, data := c, bcast := bcast, at_ := s.clock.clk })).setRing
      ring (fun r => { r with refused := false })
    some (s.setPort k (fun p => { p with owes := if k ≠ 0 ∧ !bcast then some (cmdTag c) else p.owes }))

/-- What became of a command at its port: accepted or served, refused with the status of the answer, or a repeat (Table 16.7). -/
inductive Taken where
  | accepted | refused | repeated
  deriving DecidableEq, Repr

/-- A new ring command: accepted into the ring and the repeat table, or refused (DEDUCED, log 34). -/
def State.newCommand (s : State) (k : Nat) (bcast : Bool) (c : Bytes) (crc : Nat) : State × Taken :=
  match s.ringCommand k bcast c with
  | none => (s.ringBusy k, .refused)
  | some t =>
    let x : Repeat := { tag := cmdTag c, crc := crc, seq := (t.evt.rings.get (portRing k)).seq, op := cmdOp c }
    (t.setPort k (fun p => { p with
      rep := (x :: p.rep.filter (fun y => y.tag ≠ x.tag)).take 32, accepted := p.accepted + 1 }), .accepted)

/-- A repeat (R414): nothing when its command waits, a new read when the stored response of a read was truncated, else the
stored response again. A repeat that must wait for room is refused like a command (DEDUCED, log 34). -/
def State.repeatCommand (s : State) (k : Nat) (bcast : Bool) (c : Bytes) (x : Repeat) : State × Taken :=
  let s := s.setPort k (fun p => { p with repeats := p.repeats + 1 })
  match x.resp with
  | none =>
    (if k = 0 ∨ bcast then s
     else s.setPort k (fun p => { p with
       sent := some (s.gfpFrame 3 (le 2 x.tag ++ le 2 (sat 65535 (s.ringRetry 2)))) }), .repeated)
  | some f =>
    if x.cut ∧ (x.op = 1 ∨ x.op = 3) then
      (match s.ringCommand k bcast c with
       | none => (s.ringBusy k, .refused)
       | some t => (t, .repeated))
    else if bcast then (s, .repeated)
    else if k = 0 then
      (if s.ringFree 1 = 0 then (s.answerRetry stBusy 1, .refused)
       else (s.ringAdd 1 (fun _ => { units := (f.length + 63) / 64, port := 0, data := f, at_ := s.clock.clk }), .repeated))
    else (s.setPort k (fun p => { p with sent := some (s.gfpFrame 2 f) }), .repeated)

/-- A ring command with a good CRC (DEDUCED, log 30; DEDUCED, log 34). -/
def State.takeCommand (s : State) (k : Nat) (bcast : Bool) (c : Bytes) (crc : Nat) : State × Taken :=
  match (s.ports.p.get k).rep.find? (fun x => decide (x.tag = cmdTag c) && decide (x.crc = crc)) with
  | some x => s.repeatCommand k bcast c x
  | none => s.newCommand k bcast c crc

/-! ### SR1 and SR4 to SR7 (R419, R420, R442) -/

/-- The response frame that GET_RESPONSE returns: the oldest response in SR1, or the empty one. -/
def State.oldestResponse (s : State) (tag : Nat) : Bytes :=
  match (s.evt.rings.get 1).entries with
  | [] => respFrame 4 stOk tag 0 []
  | e :: _ => e.data

/-- GET_RESPONSE: the entry is released when it has been delivered whole. -/
def State.getResponse (s : State) (tag : Nat) (delivered : Bool) : State :=
  let f := s.oldestResponse tag
  let s := { s with ans := { status := fld f 1 1, payload := f.drop 8, retry := fld f 6 2 } }
  match (s.evt.rings.get 1).entries with
  | [] => s
  | e :: t => if delivered then (s.setRing 1 (fun r => { r with entries := t })).portShadows 1 e.seq.toNat else s

/-- Whole entries that fit 4,096 bytes and a number of entries. -/
def fitEntries : Nat → Nat → List Entry → List Entry
  | _, _, [] => []
  | 0, _, _ => []
  | n + 1, room, e :: t => if room < e.data.length then [] else e :: fitEntries n (room - e.data.length) t

/-- A sequence number at or before another under the serial rule (R19). -/
def upTo (a b : W32) : Bool := decide (a = b) || newer b a

/-- RING_READ (DEDUCED, log 34). -/
def State.ringRead (s : State) (q : Cls) (ring max : Nat) : State :=
  if ring < 4 ∨ 7 < ring then s.answer stRange
  else if ring = 7 then s.answerData stOk []
  else
    let r := s.evt.rings.get ring
    let p := r.pos.get (clsNo q)
    let ahead := r.entries.filter (fun e => decide (p = 0) || upTo (BitVec.ofNat 32 (p - 1)) e.seq)
    let out := fitEntries (if max = 0 then ahead.length else max) 4096 ahead
    let s := match out.getLast? with
      | none => s
      | some e => s.setRing ring (fun r => { r with read := r.read.set (clsNo q) (e.seq.toNat + 1) })
    s.answerData stOk (out.flatMap (fun e => e.data))

/-- RING_ACK (DEDUCED, log 30). -/
def State.ringAck (s : State) (q : Cls) (ring : Nat) (seq : W32) : State :=
  if ring < 4 ∨ 7 < ring then s.answer stRange
  else if ring = 7 ∨ (s.consumers ring).contains q = false then s.answer stOk
  else
    let r := s.evt.rings.get ring
    let last := r.read.get (clsNo q)
    let p := r.pos.get (clsNo q)
    if last = 0 ∨ upTo seq (BitVec.ofNat 32 (last - 1)) = false then s.answer stRange
    else if p ≠ 0 ∧ upTo (BitVec.ofNat 32 (p - 1)) seq = false then s.answer stOk
    else
      (s.setRing ring (fun r => { r with
        entries := (r.entries.map (fun e => if upTo e.seq seq then { e with await := e.await.filter (· ≠ q) } else e)).filter
          (fun e => e.await ≠ [])
        pos := r.pos.set (clsNo q) ((seq + 1).toNat + 1) })).answer stOk

/-! ### Bytes of the memories (R14, R189, R421, Tables 11.1 and 12.1) -/

/-- A byte of an accumulator line: VALUE and MARKER (R189). -/
def State.lineByte (s : State) (off : Nat) : Byte :=
  let l := s.acc.lines.get (off / 16)
  (le 12 l.value.toNat ++ le 4 l.marker.toNat).getD (off % 16) 0

/-- A byte of a channel's sample ring (R14, R87): a written position without a valid sample reads as the invalid code, one not
yet written as an open value. -/
def State.sampleByte (s : State) (addr : Nat) : Byte :=
  let x := s.chans.get (addr / 0x3000)
  let w := presetWidth x.preset
  let n := ringLen x.preset
  let pos := addr % 0x3000 / w
  match x.ring.get pos with
  | some v => (le w (unsgn w v)).getD (addr % 0x3000 % w) 0
  | none =>
    if (pos + n - (x.first + x.ringOff) % n) % n < x.next - x.first then (le w (2 ^ (8 * w - 1))).getD (addr % 0x3000 % w) 0
    else Config.hiddenByte 0 addr

/-- A byte of a service ring: an entry's own bytes in the units that it occupies (R440) (DEDUCED, log 27). -/
def State.ringByte (s : State) (addr : Nat) : Byte :=
  let k := (addr - 0x360000) / 16384
  let u := unitBytes k
  let off := addr % 16384
  let r := s.evt.rings.get k
  match r.entryAt k (off / u) with
  | none => Config.hiddenByte 0 addr
  | some e =>
    match e.data[(off / u + ringUnits k - e.unit) % ringUnits k * u + off % u]? with
    | some b => b
    | none => Config.hiddenByte 0 addr

/-- A byte of main SRAM: regions whose layout the manual does not give read as open values (DESIGN CHOICE, log 1). -/
def State.sramByte (s : State) (addr : Nat) : Byte :=
  if addr < 0x300000 then s.sampleByte addr
  else if addr < 0x320000 then s.lineByte (addr - 0x300000)
  else if 0x360000 ≤ addr ∧ addr < 0x380000 then s.ringByte addr
  else if 0x380000 ≤ addr ∧ addr < 0x3C0000 then cellGet 0 s.mem.capture (addr - 0x380000)
  else Config.hiddenByte 0 addr

/-- A byte of the NVM array: image slots, tamper log, event log and archive; the cells of the others are not laid out. -/
def State.arrayByte (s : State) (addr : Nat) : Byte :=
  if addr < 0x180000 ∨ (0x2E0000 ≤ addr ∧ addr < 0x320000) ∨ (0x360000 ≤ addr ∧ addr < 0x400000) then s.nvmByte addr
  else Config.hiddenByte 1 addr

/-- A word of main SRAM is poisoned (R281, R286). -/
def State.isPoisoned (s : State) (addr : Nat) : Bool :=
  s.mem.poison.get (addr / 8 * 8) ||
    (decide (0x300000 ≤ addr) && decide (addr < 0x320000) && s.mem.recovering.any (fun x => decide (x.1 = (addr - 0x300000) / 16)))

/-- A master slot may read main SRAM under the tables in force (R294, R295): no window before they are written. -/
def State.slotMayRead (s : State) (slot addr : Nat) : Bool := s.mem.locked && mayRead s.mem.policy slot addr

/-! ### The bulk data window (R421, R422) -/

/-- Base and size of a bulk area, by code (Table 16.8); areas 3 to 5 lie in the NVM array. -/
def bulkArea : Nat → Option (Nat × Nat)
  | 1 => some (0x300000, 131072)
  | 2 => some (0x380000, 262144)
  | 3 => some (0x2E0000, 131072)
  | 4 => some (0x300000, 131072)
  | 5 => some (0x360000, 655360)
  | _ => none

/-- BULK_SET of a port: replaces the window and discards the buffers (DEDUCED, log 30; DEDUCED, log 34). -/
def State.bulkSet (s : State) (k : Nat) (b : Bytes) : State :=
  let area := fld b 0 1
  let off := fld b 4 4
  let count := fld b 8 4
  if b.length ≠ 12 then s.answer stBadType
  else match bulkArea area with
    | none => s.answer stRange
    | some (base, size) =>
      if count = 0 ∨ size < off + count ∨ (area = 1 ∧ (off % 16 ≠ 0 ∨ count % 16 ≠ 0)) then s.answer stRange
      else if !(if area ≤ 2 then s.slotMayRead (7 + k) (base + off) else s.mem.locked) then
        (s.violate (7 + k) (base + off) (if area ≤ 2 then bankOf (base + off) else 0x11) 1).answer stRights
      else (s.setPort k (fun p => { p with bulk := { area := area, off := off, count := count, left := count } })).answer stOk

/-- Bytes of a window that both buffers hold. -/
def Bulk.held (b : Bulk) : Nat := b.buf.foldl (fun n x => n + (x.map List.length).getD 0) 0

/-- A burst: up to n bytes from an address, stopping before a poisoned word. -/
def State.burst (s : State) (sram : Bool) (addr : Nat) : Nat → Bytes
  | 0 => []
  | n + 1 =>
    if sram then (if s.isPoisoned addr then [] else s.sramByte addr :: s.burst sram (addr + 1) n)
    else s.arrayByte addr :: s.burst sram (addr + 1) n

/-- A burst has been fetched into a free buffer of a port. -/
def State.bulkFill (s : State) (k : Nat) : State :=
  let b := (s.ports.p.get k).bulk
  let n := min 4096 (b.left - b.held)
  match bulkArea b.area with
  | none => s
  | some (base, _) =>
    if n = 0 ∨ 2 ≤ b.buf.length ∨ b.buf.contains none then s
    else
      let d := s.burst (decide (b.area ≤ 2)) (base + b.off + (b.count - b.left) + b.held) n
      s.setPort k (fun p => { p with bulk := { b with buf := b.buf ++ [if d = [] then none else some d] } })

/-- A burst passes through SR7 on the F-port and the S-port, and is released when it has been sent (R422, R442). -/
def State.throughSr7 (s : State) (k len : Nat) : State :=
  if k = 0 then s
  else s.setRing 7 (fun r => { r with seq := r.seq + 1, next := (r.next + (8 + len + 63) / 64) % ringUnits 7 })

/-- BULK_READ of a port (DEDUCED, log 34). -/
def State.bulkRead (s : State) (k : Nat) : State :=
  let b := (s.ports.p.get k).bulk
  if b.left = 0 then s.answerData stOk []
  else match b.buf with
    | [] => s.answerRetry stBusy 1
    | none :: t =>
      (s.setPort k (fun p => { p with bulk := { b with left := b.left - 8, buf := t } })).answer stCrc
    | some d :: t =>
      if k ≠ 0 ∧ s.ringFree 7 < (8 + d.length + 63) / 64 then s.answerRetry stBusy 1
      else
        let left := b.left - d.length
        let s := (s.throughSr7 k d.length).setPort k (fun p => { p with bulk := { b with left := left, buf := t } })
        let s := if left = 0 then s.raise 51 (le 1 k ++ le 1 b.area ++ le 4 b.count) else s
        s.answerData stOk d

/-- An inline command of a port, executed: the answer stands in ans. -/
def State.inlineCmd (s : State) (k : Nat) (c : Bytes) (delivered : Nat → Bool) : State :=
  let q := portClass k
  match cmdOp c with
  | 4 => s.getResponse (cmdTag c) (delivered (s.oldestResponse (cmdTag c)).length)
  | 5 => s.ringRead q (cmdIndex c) (cmdSub c)
  | 6 => s.ringAck q (cmdIndex c) (BitVec.ofNat 32 (fld c 8 4))
  | 0x10 => s.bulkSet k (c.drop 8)
  | _ => s.bulkRead k

end Sys2Proof.Machine
end

