-- ==== Sys2Proof/Machine/PortCmd.lean ====
section
/-! DEFINITION. The commands of the ports: H-port transactions, GFP frames, inline commands, the I²C master and the J-port
(R412-R435). -/
namespace Sys2Proof.Machine

/-! ### H-port transactions (R415-R419) -/

/-- The result of a transaction in PSTAT (Table 16.7) and the bytes of HMISO (Table 16.5): PSTAT, 0x00 under the command and
its CRC, then the inline response with its CRC; RETRY_MS keeps the previous refusal's time (DEDUCED, log 31). -/
def State.hDone (s : State) (frame : Bytes) (pstat res : Nat) (resp : Option Bytes) : State :=
  let out := match resp with
    | none => []
    | some f => f ++ le 2 (crc16 f)
  s.setPort 0 (fun p => { p with
    lastTag := fld frame 6 2, lastResult := res
    lastRetry := if res = 2 then s.ans.retry else p.lastRetry
    lastStatus := if res = 2 then s.ans.status else 0
    sent := some (padTo frame.length (le 8 pstat ++ List.replicate (2 + fld frame 4 2) 0 ++ out)) })

/-- The result code of a command taken or refused. -/
def Taken.code : Taken → Nat
  | .accepted => 1
  | .refused => 2
  | .repeated => 3

/-- One transaction that carried these bytes of HMOSI (DEDUCED, log 31). -/
def State.hport (s : State) (frame : Bytes) : State :=
  let rescue := s.emergencyPort && !s.portServes 0
  if !s.portServes 0 && !rescue then s
  else
    let pst := s.pstat
    let s := s.setPort 0 (fun p => { p with sent := none })
    let n := frame.length
    let len := fld frame 4 2
    let op := fld frame 0 1
    let tag := fld frame 6 2
    let inl := inlineOp op
    let whole : Bool := decide (8 ≤ n) && (if inl then decide (10 + len ≤ n) else decide (n = 10 + len))
    let c := frame.take (8 + len)
    let resp (s : State) : Option Bytes := if inl then some (respFrame op s.ans.status tag s.ans.retry s.ans.payload) else none
    if !whole || decide (crc16 c ≠ fld frame (8 + len) 2) then
      let s := (s.crcFail 0).answer stCrc
      s.hDone frame pst 2 (if whole then resp s else none)
    else if rescue && !(decide (op = 4) || (decide (op = 5) && decide (cmdIndex c = 4))) then
      let s := s.answerEmergency
      s.hDone frame pst 2 (resp s)
    else match cmdRefusal 0 c with
      | some st =>
        let s := s.answer st
        s.hDone frame pst 2 (resp s)
      | none =>
        if op = 4 then
          let f := s.oldestResponse tag
          (s.getResponse tag (decide (12 + f.length ≤ n))).hDone frame pst 1 (some f)
        else if inl then
          let s := s.inlineCmd 0 c (fun _ => true)
          s.hDone frame pst (if s.ans.status ≤ stPending then 1 else 2) (resp s)
        else
          let x := s.takeCommand 0 false c (fld frame (8 + len) 2)
          x.1.hDone frame pst x.2.code none

/-- HPORT_TRANSACTION (R415) (DEDUCED, log 37). -/
def execHportTransaction (frame : Bytes) (s : State) : Host.Outcome State Fault Refusal := .next (s.hport frame)

/-- HCS_TIMEOUT (R416): the transaction ends as if HCS_N had risen. -/
def execHcsTimeout (frame : Bytes) (s : State) : Host.Outcome State Fault Refusal := .next (s.hport frame)

/-! ### Inline commands (R419-R422) -/

/-- GET_RESPONSE (R419). -/
def execGetResponse (delivered : Bool) (s : State) : Host.Outcome State Fault Refusal :=
  .next (s.inline {} true (fun s => s.getResponse 0 delivered))

/-- RING_READ (R420). -/
def execRingRead (r : Req) (ring max : Nat) (s : State) : Host.Outcome State Fault Refusal :=
  .next (s.inline r (decide (ring = 4)) (fun s => s.ringRead r.cls ring max))

/-- RING_ACK (R420). -/
def execRingAck (r : Req) (ring : Nat) (seq : W32) (s : State) : Host.Outcome State Fault Refusal :=
  .next (s.inline r false (fun s => s.ringAck r.cls ring seq))

/-- BULK_SET (R421). -/
def execBulkSet (r : Req) (b : Bytes) (s : State) : Host.Outcome State Fault Refusal :=
  .next (s.inline r false (fun s => s.bulkSet (portOf r.cls) b))

/-- BULK_READ (R422). -/
def execBulkRead (r : Req) (s : State) : Host.Outcome State Fault Refusal :=
  .next (s.inline r false (fun s => s.bulkRead (portOf r.cls)))

/-- BULK_BUFFER_FILL (R422). -/
def execBulkBufferFill (cls : Cls) (s : State) : Host.Outcome State Fault Refusal :=
  .next (if cls = .c ∨ s.portServes (portOf cls) = false then s else s.bulkFill (portOf cls))

/-- RESPONSE_EXPIRY (R413, R441): the oldest response of SR1 or SR3 is released unread and counted (DEDUCED, log 11). -/
def execResponseExpiry (sr3 : Bool) (s : State) : Host.Outcome State Fault Refusal :=
  let k := if sr3 then 3 else 1
  .next (match (s.evt.rings.get k).entries with
    | [] => s
    | e :: t => (s.setRing k (fun r => { r with entries := t, lost := sat 4095 (r.lost + 1) })).portShadows k e.seq.toNat)

/-! ### GFP frames (R423-R429) -/

/-- A whole frame with its LENGTH characters and a good CRC (R424); a LENGTH above 4,104 makes it invalid (DEDUCED, log 30). -/
def gfpGood (frame : Bytes) : Bool :=
  let len := fld frame 4 2
  decide (len ≤ 4104) && decide (frame.length = 10 + len) &&
    decide (crc32 (slice frame 2 (4 + len)) = fld frame (6 + len) 4)

/-- The GFP port that a frame came by: 1 F, 2 S. -/
def gfpPort (sPort : Bool) : Nat := if sPort then 2 else 1

/-- A frame from the master with an address that the port acts on (Table 16.9, R425). -/
def State.gfpMine (s : State) (k : Nat) (frame : Bytes) : Bool :=
  let a := fld frame 2 1
  decide (a = 0 ∨ a = s.cfg oFAddress ∨ (k = 2 ∧ a = 0xFF)) && decide (fld frame 3 1 < 0x80)

/-- A received frame: without a delimiter it is no frame, with a bad CRC it is counted, and a frame of the kind goes on with
its body and whether it is a broadcast. -/
def State.gfp (s : State) (sPort : Bool) (kind : Nat) (frame : Bytes) (f : State → Bytes → Bool → State) : State :=
  let k := gfpPort sPort
  if s.portServes k = false ∨ frame.take 2 ≠ [0xC5, 0x3A] then s
  else
    let s := s.setPort k (fun p => { p with sent := none })
    if gfpGood frame = false then s.crcFail k
    else if s.gfpMine k frame = false ∨ fld frame 3 1 % 16 ≠ kind then s
    else f s (slice frame 6 (fld frame 4 2)) (decide (fld frame 2 1 = 0))

/-- Send a RESPONSE built from the answer. -/
def State.sendAnswer (s : State) (k op tag : Nat) : State :=
  s.setPort k (fun p => { p with sent := some (s.gfpFrame 2 (respFrame op s.ans.status tag s.ans.retry s.ans.payload)) })

/-- The command of a COMMAND frame (R425, R426, R429). -/
def State.gfpCommand (s : State) (k crc : Nat) (c : Bytes) (bcast : Bool) : State :=
  let op := cmdOp c
  let tag := cmdTag c
  if bcast && (inlineOp op || (decide (op = 2) && decide (cmdIndex c = 0x2010) && decide (cmdSub c = 2))) then s
  else match cmdRefusal k c with
    | some st => if bcast then s else (s.answer st).sendAnswer k op tag
    | none =>
      if inlineOp op then (s.inlineCmd k c (fun _ => true)).sendAnswer k op tag
      else
        let x := s.takeCommand k bcast c crc
        if x.2 = .refused ∧ bcast = false then x.1.sendAnswer k op tag else x.1

/-- GFP_COMMAND (R424). -/
def execGfpCommand (sPort : Bool) (frame : Bytes) (s : State) : Host.Outcome State Fault Refusal :=
  .next (s.gfp sPort 1 frame (fun s c bcast => s.gfpCommand (gfpPort sPort) (fld frame (6 + fld frame 4 2) 4) c bcast))

/-- POLL (R426): the oldest response of the port, released when it has been sent, or EMPTY. -/
def State.gfpPoll (s : State) (k : Nat) : State :=
  match (s.evt.rings.get 3).entries.find? (fun e => decide (e.port = k)) with
  | none => s.setPort k (fun p => { p with sent := some (s.gfpFrame 5 []) })
  | some e =>
    ((s.setPort k (fun p => { p with sent := some (s.gfpFrame 2 e.data) })).setRing 3 (fun r =>
      { r with entries := r.entries.filter (fun x => x.seq ≠ e.seq) })).portShadows 3 e.seq.toNat

/-- POLL (R426). -/
def execPoll (sPort : Bool) (frame : Bytes) (s : State) : Host.Outcome State Fault Refusal :=
  .next (s.gfp sPort 4 frame (fun s _ bcast => if bcast then s else s.gfpPoll (gfpPort sPort)))

/-- REPLY_DEADLINE (R426): DEFERRED with the TAG and the retry time of R417. -/
def execReplyDeadline (sPort : Bool) (s : State) : Host.Outcome State Fault Refusal :=
  let k := gfpPort sPort
  .next (if s.portServes k = false then s else match (s.ports.p.get k).owes with
    | none => s
    | some tag => s.setPort k (fun p => { p with
        owes := none, sent := some (s.gfpFrame 3 (le 2 tag ++ le 2 (sat 65535 (s.ringRetry 2)))) }))

/-- GFP_INVALID_FRAME (R424). -/
def execGfpInvalidFrame (sPort : Bool) (s : State) : Host.Outcome State Fault Refusal :=
  .next (if s.portServes (gfpPort sPort) then s.crcFail (gfpPort sPort) else s)

/-! ### TIME_SYNC (R428) -/

/-- The offset d as a count of 2^-10 microseconds (DEDUCED, log 35). -/
def syncOffset (t latchedUs : Nat) : Int := (t : Int) * 1000000 - (latchedUs : Int) * 1024

/-- Handle the offset: the state and the action of F_LAST_SYNC (DEDUCED, log 35). -/
def State.syncBy (s : State) (t latchedUs elapsedUs : Nat) : State × Nat :=
  let d := syncOffset t latchedUs
  if s.cfgB oFSyncEnable = false then (s, 3)
  else if s.lc = 5 then (s, 0)
  else if d.natAbs < 1000000 then ({ s with clock := { s.clock with slew := 0 } }, 0)
  else if d.natAbs ≤ s.cfg oFSyncSlewMs * 1024000 then
    ({ s with clock := { s.clock with slew := Int.tdiv d 1000000 } }, 1)
  else
    let v := t + elapsedUs * 1024 / 1000000
    match s.checkWrite .f 0x1101 1 (le 6 v) with
    | .error _ => (s, 0)
    | .ok x => (s.setTime x.2 4, 2)

/-- TIME_SYNC (R428): latchedUs is the RTC at the edge in microseconds, elapsedUs the time since then (DEDUCED, log 35). -/
def execTimeSync (sPort : Bool) (frame : Bytes) (latchedUs elapsedUs : Nat) (s : State) : Host.Outcome State Fault Refusal :=
  .next (s.gfp sPort 6 frame (fun s b _ =>
    if b.length ≠ 8 then s
    else
      let x := s.syncBy (fld b 0 6) latchedUs elapsedUs
      let us := rdiv (syncOffset (fld b 0 6) latchedUs) 1024
      x.1.setPorts (fun p => { p with
        lastSync := slice b 0 6 ++ le 4 (unsgn 4 (satI 4 us)) ++ le 1 x.2 ++ le 1 (if sPort then 1 else 0) })))

/-! ### I²C master (R431, R432) -/

/-- The temperature in m°C of a raw reading under an I2C_SENSOR word (Table 16.13) (DEDUCED, log 36). -/
def i2cTemp (v : Nat) (b : Bytes) : Int :=
  let n := if bit v 19 then 2 else 1
  let r := sgn n (ofLe (b.take n).reverse)
  rnd (((r / (2 ^ bits v 18 16 : Nat) * bits v 15 0 * 1000 : Int) : Rat) / 65536)

/-- Mark a sensor's reading invalid, with its cause (DEDUCED, log 36). -/
def Ports.badReading (p : Ports) (n : Nat) (nack late : Bool) : Ports :=
  { p with valid := p.valid.set n false, nack := p.nack.set n nack, timeout := p.timeout.set n late, errors := p.errors + 1 }

/-- Take one sensor's reading (DEDUCED, log 36). -/
def State.i2cTake (s : State) (n : Nat) (x : I2cReading) : State :=
  let t := i2cTemp (s.cfg (oI2cSensor n)) x.data
  if x.ack && x.inTime && decide (-55000 ≤ t) && decide (t ≤ 150000) then
    let s := s.setPorts (fun p => { p with
      temp := p.temp.set n t, valid := p.valid.set n true, nack := p.nack.set n false, timeout := p.timeout.set n false })
    if n = 0 then s.setDisp (fun d => { d with extAt := some s.clock.clk }) else s
  else s.setPorts (fun p => p.badReading n (!x.ack) (!x.inTime))

/-- I2C_ROUND (R431, R432): the enabled sensors in ascending order with their readings; a line that stays low abandons the
round (DEDUCED, log 36). -/
def execI2cRound (sda : SdaState) (readings : List I2cReading) (s : State) : Host.Outcome State Fault Refusal :=
  if s.portServes 0 = false ∨ s.cfgB oI2cEnable = false then .next s
  else
    let on := (List.range 4).filter (fun n => bit (s.cfg (oI2cSensor n)) 47)
    if sda = .stuck then .next (s.setPorts (fun p => on.foldl (fun p n => p.badReading n false false) p))
    else
      let s := if sda = .recovered then s.setPorts (fun p => { p with recovered := true }) else s
      .next ((on.zip readings).foldl (fun s x => s.i2cTake x.1 x.2) s).dispTempNew

/-! ### J-port (R434, R435) -/

/-- The instruction that a code selects in the life-cycle state (Table 16.15): every other code selects BYPASS (DEDUCED, log 32). -/
def State.tapOf (s : State) (code : Nat) : Tap :=
  let debug := s.lc = 0 ∨ s.lc = 1 ∨ s.lc = 4
  if code = 0x01 then .sample
  else if code = 0x02 then .idcode
  else if code = 0x00 ∧ debug then .extest
  else if code = 0x03 ∧ debug then .clamp
  else if code = 0x04 ∧ debug then .highz
  else if code = 0xC1 ∧ debug then .dbgMem
  else .bypass

/-- An instruction comes into force: EXTEST, CLAMP and HIGHZ take the pins with cells from their islands. The TAP works while
the port island does (DEDUCED, log 32). -/
def State.tapSelect (s : State) (code : Nat) : State :=
  if s.portServes 0 = false then s
  else
    let t := s.tapOf code
    s.setPorts (fun p => { p with
      tap := t, pinsTaken := decide (t = .extest ∨ t = .clamp ∨ t = .highz), pinsFloat := decide (t = .highz) })

/-- EXTEST (R434). -/
def execExtest (s : State) : Host.Outcome State Fault Refusal := .next (s.tapSelect 0x00)

/-- SAMPLE/PRELOAD (R434). -/
def execSamplePreload (s : State) : Host.Outcome State Fault Refusal := .next (s.tapSelect 0x01)

/-- IDCODE (R434). -/
def execIdcode (s : State) : Host.Outcome State Fault Refusal := .next (s.tapSelect 0x02)

/-- CLAMP (R434). -/
def execClamp (s : State) : Host.Outcome State Fault Refusal := .next (s.tapSelect 0x03)

/-- HIGHZ (R434). -/
def execHighz (s : State) : Host.Outcome State Fault Refusal := .next (s.tapSelect 0x04)

/-- BYPASS (R434): its own code, or any other by Table 16.15. -/
def execBypass (code : Byte) (s : State) : Host.Outcome State Fault Refusal := .next (s.tapSelect code.toNat)

/-- TAP_RESET (R434): Test-Logic-Reset selects IDCODE. -/
def execTapReset (s : State) : Host.Outcome State Fault Refusal := .next (s.tapSelect 0x02)

/-- The read that Update-DR starts through master slot 10: DATA, DONE and ERROR for the next Capture-DR. The address is that of
an 8-byte word (DEDUCED, log 32). -/
def State.dbgRead (s : State) (addr : Nat) : State :=
  let nvm := decide (2 ^ 31 ≤ addr)
  let a := addr % 2 ^ 31 / 8 * 8
  let may := decide (a < 0x400000) && (if nvm then s.mem.locked && s.slotMayRead 10 0 else s.slotMayRead 10 a)
  let done (s : State) (d : Nat) (bad : Bool) : State := s.setPorts (fun p => { p with
    dbgData := BitVec.ofNat 64 d, dbgAddr := BitVec.ofNat 32 addr, dbgDone := true, dbgErr := bad })
  if may = false then done (s.violate 10 a (if nvm then 0x11 else bankOf a) 1) 0 true
  else if !nvm && s.isPoisoned a then done s 0 true
  else done s (ofLe ((rangeFrom a 8).map (if nvm then s.arrayByte else s.sramByte))) false

/-- DBG_MEM (R435): BYPASS where the life-cycle state does not permit it (DEDUCED, log 32). -/
def execDbgMem (addr : W32) (s : State) : Host.Outcome State Fault Refusal :=
  let t := s.tapSelect 0xC1
  .next (if s.portServes 0 = true ∧ t.ports.tap = .dbgMem then t.dbgRead addr.toNat else t)

end Sys2Proof.Machine
end

