-- ==== Sys2Proof/Machine/Power.lean ====
section
/-! DEFINITION. The power unit's events (chapter 13) and the start-up test's completion (R300, R322). -/
namespace Sys2Proof.Machine

/-- PFD_TRIP (R338): a trip with source PFD (DEDUCED, log 20). -/
def execPfdTrip (s : State) : Host.Outcome State Fault Refusal := .next (s.emergency 1 1)

/-- REGULATOR_BROWN_OUT (R338): a trip with source REGULATOR, on either rail. -/
def execRegulatorBrownOut (_rail : Fin 2) (s : State) : Host.Outcome State Fault Refusal := .next (s.emergency 3 9)

/-- EWARN_ASSERT (R339): in mode 1 or 2 EV0, a power verification and a periodic save. -/
def execEwarnAssert (s : State) : Host.Outcome State Fault Refusal :=
  let mode := s.cfg oEwarnMode
  let s := s.setPwr (fun p => { p with ewarn := true })
  if mode = 0 ∨ !s.powered then .next s
  else
    let s := (s.raise 0 (le 1 mode)).urgent .power
    .next (if s.nvm.restored then s.save else s)

/-- EWARN_QUALIFIED (R340): in mode 2, while EWARN is still asserted, a trip with source EWARN. -/
def execEwarnQualified (s : State) : Host.Outcome State Fault Refusal :=
  .next (if s.cfg oEwarnMode = 2 ∧ s.pwr.ewarn then s.emergency 2 8 else s)

/-- EWARN_RELEASE (R340, R345): the pin falls; in mode 2 a waiting cast-on may begin. -/
def execEwarnRelease (s : State) : Host.Outcome State Fault Refusal :=
  .next (s.setPwr (fun p => { p with ewarn := false })).tryCastOn

/-- LAST_GASP_DONE (R331, R344): the session is complete, us microseconds after the trip; EV2, the islands are gated and,
unless the source is EWARN or RESTART, the AO island switches to VBAT. -/
def execLastGaspDone (us : Nat) (s : State) : Host.Outcome State Fault Refusal :=
  match s.nvm.session with
  | none => .next s
  | some x =>
    if s.pwr.mode ≠ .powerFail then .next s
    else
      let s := s.sessionValid x.keys.length
      let s := s.raise 2 (le 4 us ++ le 2 x.keys.length)
      let s := s.setPwr (fun p => { p with outGasp := us, outFlags := Nat.lor p.outFlags 1 })
      let s := s.gateIslands
      let s := if s.pwr.source = 1 ∨ s.pwr.source = 3 then s.toVbat else s
      .next s.tryCastOn

/-- HOLD_UP_FLOOR (R344): VIN33 falls to 2.70 V, us microseconds after the trip; a session not yet complete holds the given
number of valid records (DEDUCED, log 20). -/
def execHoldUpFloor (us pages : Nat) (s : State) : Host.Outcome State Fault Refusal :=
  if s.supplied then .next s
  else
    let own := decide (s.pwr.outTrip = s.pwr.pfdTime)
    let s := if !s.pwr.onVbat ∧ own ∧ s.pwr.outHold = 0xFFFFFFFF then s.setPwr (fun p => { p with outHold := us }) else s
    let s := if s.pwr.mode = .powerFail then
        (let s := s.setPwr (fun p => { p with short := true, outFlags := if own then Nat.lor p.outFlags 2 else p.outFlags })
         (s.sessionValid pages).gateIslands)
      else s
    .next s.toVbat

/-- RESTART_HOLDOFF_EXPIRY (R345): one condition of the following cast-on is met (DEDUCED, log 11; DEDUCED, log 25). -/
def execRestartHoldoffExpiry (s : State) : Host.Outcome State Fault Refusal :=
  .next (if s.supplied then s else (s.setPwr (fun p => { p with holdoffDone := true })).tryCastOn)

/-- VIN33_RETURN (R348): the AO island starts the buck, the LDO and the crystal (DESIGN CHOICE, log 4). -/
def execVin33Return (s : State) : Host.Outcome State Fault Refusal :=
  .next (if s.supplied then s else s.setPwr (fun p => { p with started := true }))

/-- SUPPLY_GOOD (R348): the rails and the crystal are good; the cast-on begins once the other conditions of R345 hold (DESIGN CHOICE, log 4; DEDUCED, log 10). -/
def execSupplyGood (s : State) : Host.Outcome State Fault Refusal :=
  .next (if s.supplied then s else (s.setPwr (fun p => { p with good := true, started := true })).tryCastOn)

/-- START_TIMEOUT (R348): a start without supply-good is stopped and counted. -/
def execStartTimeout (s : State) : Host.Outcome State Fault Refusal :=
  .next (if s.pwr.good ∨ s.pwr.started = false then s
    else s.setPwr (fun p => { p with started := false, retries := sat 65535 (p.retries + 1), retriesNow := p.retriesNow + 1 }))

/-- POWER_VERIFY_RETRY (R351): the verification is requested again while it has not passed. -/
def execPowerVerifyRetry (s : State) : Host.Outcome State Fault Refusal :=
  .next (if s.powered ∧ !s.pwr.ready then s.urgent .power else s)

/-- The BACKUP_LOST detection at the first cast-on after an AO power-on reset (R371) (DEDUCED, log 20; DEDUCED, log 45). -/
def State.backupDetection (s : State) : State :=
  if s.tamper.lostDue then
    (s.detect 17 0x41 (le 4 1 ++ le 6 s.lastSave) (some (14, le 1 0x41)) s.discSet).setTamper (fun t => { t with lostDue := false })
  else s

/-- MARCH_STARTUP_DONE (R300, R302, R322): rows that failed are remapped, the banks go online and the journal is restored (DESIGN CHOICE, log 4; DEDUCED, log 22; DEDUCED, log 54). -/
def execMarchStartupDone (fails : List RowFail) (s : State) : Host.Outcome State Fault Refusal :=
  if !s.powered ∨ s.nvm.restored then .next s
  else
    let s := fails.foldl (fun s f => s.rowFailed f.bank.val f.row f.words 0) s
    let s := s.setMem (fun m => { m with startupFail := !fails.isEmpty, destructive := none })
    let s := (List.range 16).foldl (fun s b => s.setBank b (fun x => { x with online := true, locked := true })) s
    .next ((s.restoreAll (decide (s.pwr.outSource ≠ 0))).backupDetection.restartIfDue)

/-- IMAGE_CHECK_DONE (R349, R465): the control island serves its rings (DESIGN CHOICE, log 4; DEDUCED, log 47). -/
def execImageCheckDone (ok retainedOk : Bool) (s : State) : Host.Outcome State Fault Refusal :=
  .next (if s.powered ∧ s.isl.control.isSome ∧ s.isl.cause = 5 then s.imageStart ok retainedOk else s)

/-- VBAT_CHECK (R346): once every 60 s the cell is compared with VBAT_LOW_MV (DEDUCED, log 20). -/
def execVbatCheck (mv : Nat) (s : State) : Host.Outcome State Fault Refusal := .next (s.vbatCompare mv)

/-- REG_WINDOW_BREACH (R358): a window supervisor trips, or its breach ends; EV6 at most once per second per rail. -/
def execRegWindowBreach (rail dir : Fin 2) (us : Nat) (active : Bool) (s : State) : Host.Outcome State Fault Refusal :=
  if !s.powered then .next s
  else
    let was := s.pwr.breach.get rail.val
    let due := !was && (match s.pwr.lastEv6.get rail.val with
      | none => true
      | some c => decide (c + 1000 * clkMs ≤ s.clock.clk))
    let s := s.setPwr (fun p => { p with breach := p.breach.set rail.val active })
    .next (if due then
        (s.raise 6 (le 1 rail.val ++ le 1 dir.val ++ le 4 us)).setPwr (fun p => { p with lastEv6 := p.lastEv6.set rail.val (some s.clock.clk) })
      else s)

/-- AO_POWER_ON_RESET (R347): the AO rail has failed; the RTC, the secure SRAM, the AO log buffer and what else the AO island
keeps are lost. The rail is sound while the island runs from VIN33 with the device powered (DESIGN CHOICE, log 6; DEDUCED, log 49). -/
def execAoPowerOnReset (s : State) : Host.Outcome State Fault Refusal :=
  if s.supplied ∧ s.pwr.onVbat = false then .next s
  else
    let s := s.wipe
    let s := { s with
      clock := { s.clock with rtc := 0, latch := s.clock.clk, slew := 0 }
      tamper := { ({} : Tamper) with lostDue := true }
      pp := { s.pp with acct := [] }
      disp := { s.disp with balance := [], backup := true, selv := [], outage := false }
      isl := { s.isl with dogAt := none } }
    .next (s.setPwr (fun p => { p with
      backupLost := true, onVbat := false, mode := .backup, metering := false, tripped := false, bind := .none, good := false
      started := false, gaspEnded := true, holdoffDone := true, nextCause := 0, ewarn := false, vbat := 0, vbatLow := false
      vbatMin := none, outFlags := Nat.lor p.outFlags 8 }))

end Sys2Proof.Machine
end

