-- ==== Sys2Proof/Machine/PrepayCmd.lean ====
section
/-! DEFINITION. The prepayment commands: the schedule, day starts, credit transfers, keys and disconnects (R233-R251). -/
namespace Sys2Proof.Machine

/-! ### The schedule in force (R237, R238) -/

/-- EV47 of a band change (R238) (DEDUCED, log 42). -/
def State.bandEvent (s : State) (old new : Nat) : State :=
  if old = new then s else s.raise 47 (le 1 1 ++ le 2 0xFFFF ++ le 1 old ++ le 1 new)

/-- A schedule entry comes into force (DEDUCED, log 42). -/
def State.schedTake (s : State) (e : SchedEntry) : State :=
  let old := s.pp.now
  if old.same e then s
  else
    let s := s.setPp (fun p => { p with prev := old, now := e })
    if old.time = 0 then s else s.bandEvent old.band e.band

/-- SCHEDULE_REBUILD (R237, R233): the CP writes the next 64 changes; band, friendly status and day of the present time are
taken, and day starts that passed are charged (DEDUCED, log 42). -/
def execScheduleRebuild (s : State) : Host.Outcome State Fault Refusal :=
  .next (if !s.powered ∨ s.isl.control.isSome ∨ !s.nvm.restored then s
    else
      let t := s.now
      let s := s.setPp (fun p => { p with sched := s.changes t, frozen := false })
      let s := s.schedTake (s.calendarAt t)
      s.enabledAccts.foldl (fun s a => s.chargeTo a s.pp.now.day) s)

/-- SCHEDULE_ENTRY (R237, R238): the next entry of the schedule whose instant has come; none while a rebuilt schedule is
awaited after a TIME_NOW write. -/
def execScheduleEntry (s : State) : Host.Outcome State Fault Refusal :=
  .next (match s.pp.sched with
    | [] => s
    | e :: rest =>
      if s.powered ∧ s.pp.frozen = false ∧ e.time ≤ s.now then (s.setPp (fun p => { p with sched := rest })).schedTake e else s)

/-- DAY_START (R233): the day starts up to the present local day are charged to every prepayment account. -/
def execDayStart (s : State) : Host.Outcome State Fault Refusal :=
  .next (if !s.powered ∨ s.pp.frozen ∨ !s.nvm.restored then s
    else s.enabledAccts.foldl (fun s a => s.chargeTo a (s.localDay s.now).toNat) s)

/-! ### Credit (R240, R248, R251) -/

/-- A refused transfer at steps 7 and 8 (R248). -/
def State.transferRefused (s : State) (a st : Nat) : State :=
  let s := s.setPrepay a (fun p => { p with authFails := sat (2 ^ 32 - 1) (p.authFails + 1) })
  (s.raise 43 (le 2 a ++ le 1 st ++ le 1 0)).answer st

/-- The record of an accepted transfer (Table 9.9), its programming and its copies (R248 step 6, R489). -/
def State.transferRecord (s : State) (a : Nat) (m : Bytes) : State :=
  let s := s.scStep 0
  let r := le 6 s.now ++ le 2 a ++ slice m 12 8 ++ slice m 20 8 ++ slice m 28 4 ++ le 4 (s.scVal 0)
  let s := s.jWrite [(jTransfer a, 32)]
  let s := s.setNvm (fun n => { n with kept := { n.kept with xfers := n.kept.xfers.upd a (fun b => b ++ r) } })
  (s.logPut 5 0x07 r).setPrepay a (fun p => { p with lastXfer := r })

/-- A write of PP_CREDIT_TRANSFER (R248). -/
def State.wTransfer (s : State) (a : Nat) (b : Bytes) : State :=
  let m := b.take 32
  let amount : Int := sgn 8 (fld m 12 8)
  let counter := fld m 28 4
  let l := s.pp.credit.get a
  if fld m 0 8 ≠ Config.serialNumber.toNat ∨ fld m 8 2 ≠ a ∨ fld m 10 1 ≠ 1 ∨ fld m 11 1 ≠ 0 ∨ amount < 0 ∨ 10 ^ 15 < amount then
    s.answer stRange
  else match s.pp.keys.get a with
    | none => s.transferRefused a stAuth
    | some k =>
      if cmac k m ≠ b.drop 32 then s.transferRefused a stAuth
      else if (if l.gap then amount ≠ 0 ∨ counter < l.xfer.toNat else counter ≤ l.xfer.toNat) then s.transferRefused a stStale
      else if 2 ^ 62 < s.creditI a + amount then s.answer stRange
      else
        let s := s.setCredit a (fun l => { l with
          xfer := BitVec.ofNat 32 counter, credit := l.credit + BitVec.ofInt 64 amount, gap := false })
        let s := (s.transferRecord a m).answer stOk
        let s := s.raise 42 (le 2 a ++ le 8 (fld m 12 8) ++ le 4 counter)
        s.levels a s.now

/-- A write of PP_CREDIT (R251). -/
def State.wCredit (s : State) (a v : Nat) : State :=
  let s := s.setCredit a (fun l => { l with credit := BitVec.ofNat 64 v })
  (s.levels a s.now).answer stOk

/-- A write of PP_EC_REQUEST (R240). -/
def State.wEcRequest (s : State) (a v : Nat) : State :=
  if v = 0 then s.answer stOk
  else if bits (s.cfg (oPpOptions a)) 5 4 = 2 ∧ s.creditI a < s.cfgI 8 (oPpLowLevel a) ∧ (s.pp.credit.get a).ec = false ∧
      0 < s.cfgI 8 (oPpEcLimit a) then
    let s := s.setCredit a (fun l => { l with ec := true })
    (s.levels a s.now).answer stOk
  else s.answer stRange

/-- A write of PP_RECONNECT_ARM (R242). -/
def State.wArm (s : State) (a v : Nat) : State :=
  if v = 0 then s.answer stOk
  else if s.ppState a = 5 then (s.queueClose a).answer stOk else s.answer stRange

/-- A write of PP_HOST_DISCONNECT (R242). -/
def State.wHostDisconnect (s : State) (q : Cls) (c : Card) (a v : Nat) : State :=
  s.writeNew q c (oPpHostDisconnect a) v (fun s => if v = 1 then s.queueOpen a else s.sourceCleared a)

/-! ### Keys (R250) -/

/-- A write of KEY_DEVICE. -/
def State.wKeyDevice (s : State) (b : Bytes) : State :=
  if s.pp.keyDevice.isSome then s.answer stRange else (s.setPp (fun p => { p with keyDevice := some b })).answer stOk

/-- A plain write of KEY_ACCOUNT[a]. -/
def State.wKeyAccount (s : State) (a : Nat) (b : Bytes) : State :=
  (s.setPp (fun p => { p with keys := p.keys.set a (some b) })).answer stOk

/-- A wrapped account key. -/
def State.wKeyWrapped (s : State) (b : Bytes) : State :=
  match s.pp.keyDevice with
  | none => s.answer stAuth
  | some k => match kwUnwrap k b with
    | none => s.answer stAuth
    | some p =>
      let target := fld p 16 4
      let n := fld p 20 4
      if target < 2 ∨ 0xF1 < target then s.answer stRange
      else if n ≤ s.pp.keyCounter.toNat then s.answer stStale
      else (s.setPp (fun x => { x with keys := x.keys.set (target - 2) (some (p.take 16)), keyCounter := BitVec.ofNat 32 n })).answer stOk

/-! ### The commands -/

/-- PP_CREDIT_TRANSFER (R248). -/
def execPpCreditTransfer (r : Req) (a : Fin 240) (b : Bytes) (s : State) : Host.Outcome State Fault Refusal :=
  .next (s.writeReq r (0x4100 + a.val) 0x10 b (fun s _ _ => s.wTransfer a.val b))

/-- PP_CREDIT (R251). -/
def execPpCredit (r : Req) (a : Fin 240) (b : Bytes) (s : State) : Host.Outcome State Fault Refusal :=
  .next (s.writeReq r (0x4100 + a.val) 0x0C b (fun s _ v => s.wCredit a.val v))

/-- PP_EC_REQUEST (R240). -/
def execPpEcRequest (r : Req) (a : Fin 240) (b : Bytes) (s : State) : Host.Outcome State Fault Refusal :=
  .next (s.writeReq r (0x4100 + a.val) 0x12 b (fun s _ v => s.wEcRequest a.val v))

/-- PP_RECONNECT_ARM (R242). -/
def execPpReconnectArm (r : Req) (a : Fin 240) (b : Bytes) (s : State) : Host.Outcome State Fault Refusal :=
  .next (s.writeReq r (0x4100 + a.val) 0x13 b (fun s _ v => s.wArm a.val v))

/-- PP_HOST_DISCONNECT (R242). -/
def execPpHostDisconnect (r : Req) (a : Fin 240) (b : Bytes) (s : State) : Host.Outcome State Fault Refusal :=
  .next (s.writeReq r (0x4100 + a.val) 0x0B b (fun s c v => s.wHostDisconnect r.cls c a.val v))

/-- KEY_DEVICE (R250). -/
def execKeyDevice (r : Req) (b : Bytes) (s : State) : Host.Outcome State Fault Refusal :=
  .next (s.writeReq r 0x8200 1 b (fun s _ _ => s.wKeyDevice b))

/-- KEY_ACCOUNT (R250). -/
def execKeyAccount (r : Req) (a : Fin 240) (b : Bytes) (s : State) : Host.Outcome State Fault Refusal :=
  .next (s.writeReq r 0x8200 (a.val + 2) b (fun s _ _ => s.wKeyAccount a.val b))

/-- KEY_WRAPPED (R250). -/
def execKeyWrapped (r : Req) (b : Bytes) (s : State) : Host.Outcome State Fault Refusal :=
  .next (s.writeReq r 0x8200 0xF2 b (fun s _ _ => s.wKeyWrapped b))

end Sys2Proof.Machine
end

