-- ==== Sys2Proof/Machine/RelayCmd.lean ====
section
/-! DEFINITION. The relay-chain port: scan, command, release and capture frames (R244-R247, R433). -/
namespace Sys2Proof.Machine

/-- Bit i of byte j of a chain image: slot 8j + i. -/
def imageBit (b : Bytes) (i : Nat) : Bool := (b.getD (i / 8) 0).getLsbD (i % 8)

/-- The port sends frames (R247, R433, Table 9.8). -/
def State.relayLive (s : State) : Bool := s.powered && s.cfgB oRlyEnable && s.ports.restartAt.isNone

/-- The slots of the chain. -/
def State.chain (s : State) : List Nat := List.range (s.cfg oRlyChainLength)

/-- Contacts and PRESENT bits as a frame reads them. -/
def State.contacts (s : State) (present closed : Bytes) : State :=
  let f (b : Bytes) : KMap Bool := (s.chain.filter (imageBit b)).map (fun i => (i, true))
  s.setRelay (fun r => { r with present := f present, closed := f closed })

/-- The enabled account that names a slot (R243). -/
def State.slotAcct (s : State) (i : Nat) : Option Nat := s.enabledAccts.find? (fun a => (s.relaySlots a).contains i)

/-- An operation for a slot is queued or runs. -/
def State.slotBusy (s : State) (i : Nat) : Bool :=
  let r := s.pp.relay
  (match r.op with
   | none => false
   | some o => o.slots.any (fun x => decide (x.1 = i))) ||
    r.retry.any (fun x => decide (x.1 = i)) || r.restoreQ.any (fun x => decide (x.1 = i)) ||
    (r.openQ ++ r.closeQ).any (fun a => (s.relaySlots a).contains i)

/-- EV44 (R246). -/
def State.ev44 (s : State) (slot cause : Nat) : State :=
  s.raise 44 (le 1 slot ++ le 1 (if s.pp.relay.commanded.get slot then 1 else 0) ++ le 1 cause)

/-- A slot in RLY_FAULT (DEDUCED, log 43). -/
def State.slotFault (s : State) (i : Nat) : State := s.setRelay (fun r => { r with fault := r.fault.set i true })

/-- RELAY_SCAN_FRAME (R245, R246): the contacts are read; what two consecutive scans find is handled (DEDUCED, log 43). -/
def execRelayScanFrame (present closed : Bytes) (s : State) : Host.Outcome State Fault Refusal :=
  .next (if !s.relayLive ∨ s.pp.relay.phase ≠ .idle then s
    else
      let s := s.contacts present closed
      let r := s.pp.relay
      let s := s.setRelay (fun r => { r with scans := sat 2 (r.scans + 1) })
      let bad := s.chain.filter (fun i => r.present.get i && decide (r.closed.get i ≠ r.commanded.get i) && !s.slotBusy i)
      let gone := s.chain.filter (fun i => !r.present.get i && (s.slotAcct i).isSome)
      let s := (bad.filter r.diff.contains).foldl (fun s i =>
        (s.ev44 i 1).setRelay (fun r => { r with restoreQ := r.restoreQ ++ [(i, r.commanded.get i)] })) s
      let s := (gone.filter (fun i => r.absent.contains i && !r.fault.get i)).foldl (fun s i => (s.ev44 i 2).slotFault i) s
      s.setRelay (fun r => { r with diff := bad, absent := gone }))

/-- The operation that the next command frame carries, and the queues without it (R245, R246): an interrupted operation runs
again; an open operation runs before a close operation; a close keeps the stagger and waits for METERING (R247) (DEDUCED, log 42; DEDUCED, log 43). -/
def State.nextOp (s : State) : Option (RlyOp × Relay × Bool) :=
  let r := s.pp.relay
  match r.op with
  | some o => some (o, r, true)
  | none =>
    let openQ := r.openQ
    let batch := openQ.take (s.cfg oRlyOpenBatch)
    let again := (r.retry.filter (fun x => x.2.1)).map (fun x => (x.1, x.2.2))
    let opens := batch.flatMap (fun a => (s.relaySlots a).map (fun i => (i, 0))) ++ again
    let ro := (r.restoreQ.filter (fun x => !x.2)).map (fun x => (x.1, 0))
    let accts (l : List (Nat × Nat)) : List Nat := (l.filterMap (fun x => s.slotAcct x.1)).eraseDups
    if opens ≠ [] then
      some ({ opens := true, accts := batch ++ (accts again).filter (fun a => !batch.contains a), slots := opens },
        { r with openQ := openQ.drop (s.cfg oRlyOpenBatch), retry := r.retry.filter (fun x => !x.2.1) }, false)
    else if ro ≠ [] then
      some ({ opens := true, accts := accts ro, slots := ro }, { r with openQ := openQ, restoreQ := r.restoreQ.filter (fun x => x.2) }, false)
    else
      let stagger := match r.lastClose with
        | none => true
        | some t => decide (t + s.cfg oRlyReconnectStaggerMs * clkMs ≤ s.clock.clk)
      if !s.pwr.metering || !stagger then none
      else
        let again := ((r.retry.filter (fun x => !x.2.1)).map (fun x => (x.1, x.2.2))).filter (fun x => r.commanded.get x.1)
        let rc := (r.restoreQ.filter (fun x => x.2 && r.commanded.get x.1)).map (fun x => (x.1, 0))
        match r.closeQ with
        | a :: rest =>
          let slots := (s.relaySlots a).map (fun i => (i, 0)) ++ again
          some ({ opens := false, accts := a :: (accts again).filter (· ≠ a), slots := slots },
            { r with openQ := openQ, closeQ := rest, retry := [] }, false)
        | [] =>
          if again ≠ [] then some ({ opens := false, accts := accts again, slots := again }, { r with openQ := openQ, retry := [] }, false)
          else match rc with
            | x :: _ => some ({ opens := false, accts := accts [x], slots := [x] },
                { r with openQ := openQ, restoreQ := r.restoreQ.filter (fun y => y.1 ≠ x.1) }, false)
            | [] => none

/-- What the latch of a command frame does for one account: EV45 or EV46, and an OUTAGE_PENDING source becomes TAMPER once
its open operation has been latched (R246, R379) (DEDUCED, log 42; DEDUCED, log 43). -/
def State.latchAcct (s : State) (opens : Bool) (a : Nat) : State :=
  let w := s.cfg (oPpRelay a)
  let s := s.raise (if opens then 45 else 46)
    (le 2 a ++ le 1 (bits w 7 0) ++ le 1 (bits w 10 8) ++ le 1 (s.sources a) ++ le64 (s.creditI a))
  if opens ∧ (s.pp.acct.get a).srcOutage then s.setPrepay a (fun p => { p with srcOutage := false, srcTamper := true }) else s

/-- RELAY_COMMAND_FRAME (R245): at a frame boundary the next operation sends its command frame and latch; RLY_COMMANDED takes
its state there. A bind-off starts no operation from its third step on (R354) (DEDUCED, log 43). -/
def execRelayCommandFrame (s : State) : Host.Outcome State Fault Refusal :=
  .next (if !s.relayLive ∨ s.pp.relay.phase ≠ .idle ∨ s.pp.relay.scans < 2 ∨
        s.pwr.bind = .relays ∨ s.pwr.bind = .save ∨ s.pwr.bind = .display then s
    else match s.nextOp with
      | none => s
      | some (o, r, again) =>
        let cmd := o.slots.foldl (fun (m : KMap Bool) x => KMap.set m x.1 (!o.opens)) r.commanded
        let s := s.setRelay (fun _ => { r with
          op := some o, phase := .pulse, commanded := cmd
          lastClose := if o.opens ∨ again then r.lastClose else some s.clock.clk })
        if again then s else o.accts.foldl (fun s a => s.latchAcct o.opens a) s)

/-- RELAY_RELEASE_FRAME (R245): after the coil pulse a frame with all coil bits 0. -/
def execRelayReleaseFrame (s : State) : Host.Outcome State Fault Refusal :=
  .next (if s.relayLive ∧ s.pp.relay.phase = .pulse then s.setRelay (fun r => { r with phase := .settle }) else s)

/-- One slot of a finished operation is compared with its command (R246). -/
def State.slotCompare (s : State) (opens : Bool) (x : Nat × Nat) : State :=
  let r := s.pp.relay
  if r.closed.get x.1 = !opens then s
  else if x.2 < s.cfg oRlyRetries then
    let undone := !opens && (match s.slotAcct x.1 with
      | none => false
      | some a => r.openQ.contains a)
    if undone then s else s.setRelay (fun r => { r with retry := r.retry ++ [(x.1, opens, x.2 + 1)] })
  else (s.slotFault x.1).ev44 x.1 0

/-- RELAY_CAPTURE_FRAME (R245, R246): the contacts are captured after the settling time, shifted in and compared; an account
whose last source cleared before its open operation had run is closed again (R242) (DEDUCED, log 43). -/
def execRelayCaptureFrame (present closed : Bytes) (s : State) : Host.Outcome State Fault Refusal :=
  .next (if !s.relayLive ∨ s.pp.relay.phase ≠ .settle then s
    else
      let s := s.contacts present closed
      let o := s.pp.relay.op.getD {}
      let s := o.slots.foldl (fun s x => s.slotCompare o.opens x) s
      let s := s.setRelay (fun r => { r with phase := .idle, op := none })
      let s := if o.opens then
          o.accts.foldl (fun s a => if s.pp.relay.closeQ.contains a then s else s.sourceCleared a) s
        else s
      if s.pwr.bind = .none then s else s.bindProgress)

/-- A service write of 1 clears bits of RLY_FAULT (R246). -/
def State.wRelayFault (s : State) (v : Nat) : State :=
  (s.setRelay (fun r => { r with fault := (setList v 256).foldl (fun m i => KMap.set m i false) r.fault })).answer stOk

/-- RLY_FAULT_CLEAR (R246). -/
def execRlyFaultClear (r : Req) (b : Bytes) (s : State) : Host.Outcome State Fault Refusal :=
  .next (s.writeReq r 0x2050 0x0B b (fun s _ v => s.wRelayFault v))

/-- A write of RLY_ENABLE (Table 9.8): with 0 the pins are low and an operation in progress waits to run again. -/
def State.wRelayEnable (s : State) (q : Cls) (c : Card) (v : Nat) : State :=
  s.writeNew q c oRlyEnable v (fun s => if v = 0 then s.setRelay (fun r => { r with phase := .idle }) else s)

end Sys2Proof.Machine
end

