-- ==== Sys2Proof/Machine/TamperCmd.lean ====
section
/-! DEFINITION. The tamper monitors, the drain of the AO log buffer and the life cycle (chapter 14). -/
namespace Sys2Proof.Machine

/-! ### Clock monitors (R361-R366). Clock 0 is the main clock, 1 the RTC clock; instants are nanoseconds. -/

/-- The monitors of a clock (DEDUCED, log 44). -/
def State.clkMon (s : State) (c : Nat) : ClkMon := if c = 0 then s.tamper.main else s.tamper.rtc
def State.setClk (s : State) (c : Nat) (f : ClkMon → ClkMon) : State :=
  s.setTamper (fun t => if c = 0 then { t with main := f t.main } else { t with rtc := f t.rtc })

/-- A clock is watched: the main clock only while VIN33 is present. -/
def State.clkWatched (s : State) (c : Nat) : Bool := decide (c = 1) || !s.pwr.onVbat

/-- The confirmation window in nanoseconds (R363) (DEDUCED, log 44). -/
def State.confirmNs (s : State) : Nat := s.cfg oClkConfirmWindowMs * 1000000

/-- Single events of a list that lie in the confirmation window that ends at t. -/
def State.inConfirm (s : State) (t : Nat) (l : List Nat) : List Nat := l.filter (fun x => decide (t ≤ x + s.confirmNs))

/-- DATA of a clock entry (Table 14.5) (DEDUCED, log 45). -/
def State.clkData (s : State) (c dets t : Nat) : Bytes :=
  let m := s.clkMon c
  le 1 dets ++ le 1 0 ++ le 2 (sat 65535 (match m.win with
    | none => 0
    | some w => w.2.2)) ++ le 4 (s.inConfirm t m.singles).length ++ le 4 m.bPhase

/-- The main clock tree stops and the reference is switched; the restart follows the relock (R366) (DEDUCED, log 45). -/
def State.stopMain (s : State) (cause : Nat) : State :=
  s.setTamper (fun t => { t with
    mainOnRc := true, needClean := true, stopped := t.stopped || s.supplied, stopCause := cause, restartDue := none })

/-- The RTC moves to the RC oscillator (R366) (DEDUCED, log 45). -/
def State.rtcToRc (s : State) : State := s.setTamper (fun t => { t with rtcOnRc := true, suspect := true })

/-- A confirmed attack on a clock (R363, R366, R372) (DEDUCED, log 44). -/
def State.clkConfirm (s : State) (c code dets t : Nat) : State :=
  let s := if c = 1 then s.rtcToRc else s
  let s := s.respond code 3 0x17 (s.clkData c dets t) (some (8, le 1 c ++ le 1 code)) []
  if c = 0 then s.stopMain 5 else s

/-- Mark the runs of both detectors that an attack has confirmed: their further flags confirm nothing more (DEDUCED, log 44). -/
def ClkMon.markRuns (m : ClkMon) (a b : Option Nat) : ClkMon :=
  let up (r : Option Flags) (t : Option Nat) : Option Flags := match t with
    | none => r
    | some t => match r with
      | some x => some { x with last := t, confirmed := true }
      | none => some { last := t, start := t, count := 0, confirmed := true }
  { m with evA := up m.evA a, evB := up m.evB b }

/-- A flag at t continues a run that an attack has already confirmed. -/
def ClkMon.inConfirmed (m : ClkMon) (t : Nat) : Bool :=
  [m.evA, m.evB].any (fun r => match r with
    | none => false
    | some x => x.confirmed && decide (t < x.last + 1000000))

/-- The disagreement check (R364) (DEDUCED, log 44). -/
def State.disagree (s : State) (c t : Nat) : State :=
  let m := s.clkMon c
  let day (l : List Nat) := l.filter (fun x => decide (t < x + 86400000000000))
  let a := day m.dayA
  let b := day m.dayB
  let n := s.cfg oClkDisagreeN
  let s := s.setClk c (fun m => { m with dayA := a, dayB := b })
  let due := match m.lastEv10 with
    | none => true
    | some x => decide (x + 86400000000000 ≤ t)
  let who := if n ≤ a.length ∧ b = [] then some 0 else if n ≤ b.length ∧ a = [] then some 1 else none
  match who with
  | some d =>
    if due then
      (s.respond 0x07 0 3 (s.clkData c (2 ^ d) t) (some (10, le 1 c ++ le 1 d)) []).setClk c
        (fun m => { m with dayA := [], dayB := [], lastEv10 := some t })
    else s
  | none => s

/-- A flag that does not confirm (R363): it continues the single event of its detector, or begins one, which is counted and
may confirm by count (DEDUCED, log 44). -/
def State.single (s : State) (c d t : Nat) : State :=
  let m := s.clkMon c
  let run := if d = 0 then m.evA else m.evB
  let setRun (m : ClkMon) (r : Flags) : ClkMon := if d = 0 then { m with evA := some r } else { m with evB := some r }
  let fresh := match run with
    | none => true
    | some x => decide (x.last + 1000000 ≤ t)
  if !fresh then
    s.setClk c (fun m => setRun m (match run with
      | some x => { x with last := t, count := x.count + 1 }
      | none => {}))
  else
    let near := s.inConfirm t (t :: m.singles)
    let hit := decide (s.cfg oClkConfirmN ≤ near.length)
    let s := s.setClk c (fun m =>
      let m := setRun m { last := t, start := t, count := 1, confirmed := hit }
      let m := { m with singles := near }
      if d = 0 then { m with nA := (m.nA + 1) % 2 ^ 32, dayA := t :: m.dayA }
      else { m with nB := (m.nB + 1) % 2 ^ 32, dayB := t :: m.dayB })
    let dets := if (s.inConfirm t (s.clkMon c).dayA).isEmpty then 2 else if (s.inConfirm t (s.clkMon c).dayB).isEmpty then 1 else 3
    let s := if hit then s.clkConfirm c (3 + c) dets t else s
    s.disagree c t

/-- EV9 for a single event that has ended: no flag for 1 ms; at most once per second per clock (R363) (DEDUCED, log 44). -/
def State.closeRun (s : State) (c d t : Nat) : State :=
  let m := s.clkMon c
  match (if d = 0 then m.evA else m.evB) with
  | none => s
  | some x =>
    if t < x.last + 1000000 then s
    else
      let s := s.setClk c (fun m => if d = 0 then { m with evA := none } else { m with evB := none })
      let due : Bool := match m.lastEv9 with
        | none => true
        | some y => decide (y + 1000000000 ≤ t)
      if 0 < x.count ∧ due = true then
        (if s.powered then s.raise 9 (le 1 c ++ le 1 d ++ le 2 (sat 65535 x.count) ++ le 1 0)
         else s.deferEvent 9 (le 1 c ++ le 1 d ++ le 2 (sat 65535 x.count) ++ le 1 0) s.now).setClk c
          (fun m => { m with lastEv9 := some t })
      else s

/-- Flags whose 10 microseconds have passed without a flag of the other detector become single events. A B flag can still be
confirmed by a window that starts at or before its limit (DEDUCED, log 44). -/
def State.clkSettle (s : State) (c t start : Nat) : State :=
  let old (p : Nat × Nat × Nat) : Bool := if p.1 = 0 then decide (p.2.1 + 10000 < t) else decide (p.2.1 + 10000 < start)
  let l := (s.clkMon c).pend.filter old
  let s := s.setClk c (fun m => { m with pend := m.pend.filter (fun p => !old p) })
  let s := l.foldl (fun s p => s.single c p.1 p.2.1) s
  (s.closeRun c 0 t).closeRun c 1 t

/-- Loss of a clock (R365): every window has been condemned for 1 ms (DEDUCED, log 45). -/
def State.clkLoss (s : State) (c t : Nat) : State :=
  let m := s.clkMon c
  match m.badSince with
  | none => s
  | some b =>
    if m.lost ∨ t < b + 1000000 then s
    else
      let n := (match m.evA with
        | none => 0
        | some x => x.count) + (m.pend.filter (fun p => p.1 = 0)).length
      let s := s.setClk c (fun m => { m with lost := true, lastEv9 := some t })
      let s := if c = 1 then s.rtcToRc else s
      let s := s.respond (5 + c) 2 7 (s.clkData c 1 t) (some (9, le 1 c ++ le 1 0 ++ le 2 (sat 65535 n) ++ le 1 1)) []
      if c = 0 then s.stopMain 2 else s

/-- A window that detector A condemns (R361, R363). -/
def State.aFlag (s : State) (c count start fin : Nat) : State :=
  let m := s.clkMon c
  let bs := m.pend.filter (fun p => decide (p.1 = 1))
  let s := s.setClk c (fun m => { m with
    win := some (start, fin, count)
    badSince := match m.badSince with
      | none => some start
      | some b => some b })
  let s := if m.inConfirmed fin then s.setClk c (fun m => (m.markRuns (some fin) none))
    else if !bs.isEmpty then
      (s.setClk c (fun m => { (m.markRuns (some fin) (some fin)) with pend := m.pend.filter (fun p => decide (p.1 = 0)) })).clkConfirm
        c (1 + c) 3 fin
    else s.setClk c (fun m => { m with pend := m.pend ++ [(0, fin, count)] })
  s.clkLoss c fin

/-- DETECTOR_A_WINDOW (R361, R363, R365): a window of the watched clock's edges ends (DEDUCED, log 44). -/
def execDetectorAWindow (clock : Fin 2) (count start fin : Nat) (s : State) : Host.Outcome State Fault Refusal :=
  let c := clock.val
  if s.clkWatched c = false then .next s
  else
    let good := if c = 0 then decide (676 ≤ count) && decide (count ≤ 860) else decide (29 ≤ count) && decide (count ≤ 36)
    let s := s.clkSettle c fin start
    .next (if good then (s.setClk c (fun m => { m with badSince := none, lost := false })).clkSettle c fin fin
      else s.aFlag c count start fin).restartIfDue

/-- DETECTOR_B_FLAG (R362, R363): a phase of the watched clock is shorter than its limit (DEDUCED, log 44). -/
def execDetectorBFlag (clock : Fin 2) (instant phaseNs : Nat) (s : State) : Host.Outcome State Fault Refusal :=
  let c := clock.val
  if s.clkWatched c = false then .next s
  else
    let s := s.clkSettle c instant 0
    let m := s.clkMon c
    let near := match m.bAt with
      | none => false
      | some b => decide (instant < b + 1000000)
    let s := s.setClk c (fun m => { m with bAt := some instant, bPhase := if near then min m.bPhase phaseNs else phaseNs })
    let hit := match m.win with
      | none => false
      | some w => decide (w.1 ≤ instant + 10000) && decide (instant ≤ w.2.1 + 10000)
    .next (if m.inConfirmed instant then s.setClk c (fun m => m.markRuns none (some instant))
      else if hit then
        (s.setClk c (fun m => { (m.markRuns (some instant) (some instant)) with pend := m.pend.filter (fun p => decide (p.1 = 1)) })).clkConfirm
          c (1 + c) 3 instant
      else s.setClk c (fun m => { m with pend := m.pend ++ [(1, instant, phaseNs)] })).restartIfDue

/-- PLL_RELOCK (R366): the PLL has relocked on the RC reference, and the whole-device restart begins (DEDUCED, log 21). -/
def execPllRelock (s : State) : Host.Outcome State Fault Refusal :=
  .next (if s.tamper.stopped then
      (let s := s.setTamper (fun t => { t with stopped := false })
       (s.deferEvent 58 (le 1 6 ++ le 1 0) s.now).emergency 5 s.tamper.stopCause)
    else s)

/-- CRYSTAL_CLEAN (R366): both detectors have passed the crystal for 100 ms, and a cast-on that waited for it may begin. -/
def execCrystalClean (s : State) : Host.Outcome State Fault Refusal :=
  .next (if s.tamper.needClean ∧ !s.supplied then
      (s.setTamper (fun t => { t with needClean := false, mainOnRc := false })).tryCastOn
    else s)

/-- RTC_CRYSTAL_RETURN (R366): the RTC returns to its crystal after 10 s without a flag. -/
def execRtcCrystalReturn (s : State) : Host.Outcome State Fault Refusal :=
  .next (s.setTamper (fun t => { t with rtcOnRc := false }))

/-! ### Glitches, inputs and temperature (R367-R370) -/

/-- GLITCH_FLAG (R367): an excursion of a supply rail; flags closer than 1 ms form one single glitch (DEDUCED, log 44). -/
def execGlitchFlag (rail dir : Fin 2) (instant : Nat) (s : State) : Host.Outcome State Fault Refusal :=
  if s.pwr.onVbat ∨ s.pwr.tripped then .next s
  else
    let k := rail.val
    let g := s.tamper.glitch.get k
    let fresh := match g.last with
      | none => true
      | some x => decide (x + 1000000 ≤ instant)
    let near := (instant :: g.singles).filter (fun x => decide (instant ≤ x + s.cfg oGlitchWindowMs * 1000000))
    let s := s.setTamper (fun t => { t with glitch := t.glitch.upd k (fun g =>
      if fresh then { g with last := some instant, singles := near, n := (g.n + 1) % 2 ^ 32 }
      else { g with last := some instant }) })
    if !fresh then .next s
    else
      let s := if s.powered then s.urgent .tamperGlitch else s
      .next (if s.cfg oGlitchConfirmN ≤ near.length then
          (s.detect (12 + k) (0x20 + k) (le 1 k ++ le 1 dir.val ++ le 4 (unsgn 4 s.tamper.vcore))
            (some (13, le 1 k ++ le 1 dir.val)) s.discSet).restartIfDue
        else s)

/-- One sample of an input: active or inactive after so many samples in a row at the other condition. -/
def TampIn.sample (x : TampIn) (cond : Bool) (n : Nat) : TampIn :=
  if cond = x.active then { x with run := 0 }
  else if n ≤ x.run + 1 then { active := cond, run := 0 }
  else { x with run := x.run + 1 }

/-- TAMP_SAMPLE (R369): an enclosure input is sampled in its mode (DEDUCED, log 45). -/
def execTampSample (input : Fin 8) (high : Bool) (currentNa : Nat) (s : State) : Host.Outcome State Fault Refusal :=
  let i := input.val
  let c := s.cfg (oTampInputCfg i)
  let mode := bits c 2 1
  if mode = 0 ∨ (s.pwr.onVbat ∧ bit c 4 = false) then .next s
  else
    let cond := if mode = 1 then high == bit c 3 else decide (500 * (bits c 11 8 + 1) < currentNa)
    let x := s.tamper.tamp.get i
    let y := x.sample cond (bits c 23 16)
    let s := s.setTamper (fun t => { t with tamp := t.tamp.set i y })
    .next (if y.active && !x.active then
        (s.detect i (0x10 + i) (le 1 i ++ le 1 mode) (some (11, le 1 i ++ le 1 mode)) s.discSet).restartIfDue
      else s)

/-- MAG_SAMPLE (R370): a magnetic input is sampled while VIN33 is present (DEDUCED, log 45). -/
def execMagSample (input : Fin 4) (high : Bool) (s : State) : Host.Outcome State Fault Refusal :=
  let i := input.val
  let c := s.cfg oMagCfg
  if bit c i = false ∨ s.pwr.onVbat then .next s
  else
    let x := s.tamper.mag.get i
    let y := x.sample (high == bit c (4 + i)) 3
    let s := s.setTamper (fun t => { t with mag := t.mag.set i y })
    .next (if y.active && !x.active then
        (s.detect (8 + i) (0x18 + i) (le 1 i ++ le 1 0) (some (12, le 1 i)) s.discSet).restartIfDue
      else s)

/-- OSC_SENSOR_READING (R368): the once-a-second reading of the oscillator-based sensor on VBAT; with VIN33 and a stopped
sequencer the verification is requested. -/
def execOscSensorReading (mc : Int) (s : State) : Host.Outcome State Fault Refusal :=
  if s.pwr.onVbat then
    (let s := s.setCal (fun c => { c with tOscAo := mc })
     let n := s.tamper.tempRun + 1
     .next (if s.tempOutside mc then
         (let s := s.setTamper (fun t => { t with tempRun := n, tempIn := none })
          if 2 ≤ n then (s.tempDetect 0 mc).restartIfDue else s)
       else (s.setTamper (fun t => { t with tempRun := 0 })).tempInside mc))
  else .next (if s.powered ∧ !s.cfgB oHkRun then s.urgent .tamperTemp else s)

/-! ### The tamper log (R328, R380) -/

/-- An event of a drained entry: at once, or at METERING before it (R374, R379). -/
def State.drainEvent (s : State) (src : Nat) (data : Bytes) (t : Stamp) : State :=
  if s.pwr.metering then s.raiseAt src data t 1 else s.deferEvent src data t

/-- The four steps of a drained entry. An identical entry is not written twice; a full log steps SC2 instead. -/
def State.drainEntry (s : State) (e : LogEntry) : State :=
  let b := e.bytes
  let s := if b = s.tamper.lastSlot then s
    else if s.scVal 1 < 4096 then
      ((s.nvmWrite (0x2E0000 + 32 * s.scVal 1) b).scStep 1).setTamper (fun t => { t with lastSlot := b })
    else s.scStep 2
  let s := s.logPut 5 6 b
  let s := if bit e.resp 4 then (s.scStep 3).drainEvent 14 (le 1 e.source) e.time else s
  let s := match e.evData with
    | none => s
    | some d => s.drainEvent e.event d e.time
  s.setTamper (fun t => { t with lastEntry := b })

/-- The log unit may drain: the NVM island runs, main SRAM is online and no last-gasp session is in progress. -/
def State.mayDrain (s : State) : Bool := s.powered && s.nvm.restored && !s.nvmDown

/-- Drain one entry, preceded by the entry of an overflow (R380). -/
def State.drainOne (s : State) : State :=
  match s.tamper.buf with
  | [] => s
  | e :: rest =>
    let n := s.tamper.lostNow
    let s := if n = 0 then s
      else (s.setTamper (fun t => { t with lostNow := 0 })).drainEntry
        { time := s.now, source := 0x42, flags := 1 + flag s.tamper.suspect 3, resp := 1, lc := s.lc
          data := le 4 n ++ le 6 s.lastSave }
    (s.drainEntry e).setTamper (fun t => { t with buf := rest })

/-- AO_LOG_DRAIN (R380). -/
def execAoLogDrain (s : State) : Host.Outcome State Fault Refusal := .next (if s.mayDrain then s.drainOne else s)

/-! ### Release, mark and life cycle (R375, R376, R383-R386) -/

/-- A detection that set an account's TAMPER source is still active (R375). -/
def State.heldBy (s : State) (a : Nat) : Bool :=
  let p := s.pp.acct.get a
  p.srcTamper && p.tamperBy.any (fun c => s.detActive c (some a))

/-- A write of TAMPER_RELEASE. -/
def State.wRelease (s : State) (v : Nat) : State :=
  let l := if v = 0xFFFF then List.range 240 else [v]
  if 240 ≤ v ∧ v ≠ 0xFFFF then s.answer stRange
  else if l.any s.heldBy then s.answer stRange
  else (l.foldl State.tamperFree s).answer stOk

/-- A write of MARK_CLEAR. -/
def State.wMarkClear (s : State) (v : Nat) : State :=
  if v = 0 then s.answer stOk
  else if s.markActive then s.answer stRange
  else ((s.setTamper (fun t => { t with mark := false })).selvTarget 1 false).answer stOk

/-- LC_NONCE: the random value of a draw (R384) (DESIGN CHOICE, log 1; DEDUCED, log 46). -/
def State.lcNonce (s : State) : Nat := (Config.nonce s.life.nonce).toNat

/-- A restart for a zeroize or a life-cycle change is pending (Table 14.15). -/
def State.restartPending (s : State) : Bool := s.tamper.restartDue.isSome || s.tamper.stopped

/-- An accepted life-cycle command, up to the restart (R385) (DEDUCED, log 21; DEDUCED, log 46). -/
def State.lcChange (s : State) (target : Nat) : State :=
  let old := s.lc
  let quiet := s.maintenance
  let s := s.answer stOk
  let s := s.respond 0x40 1 3 (le 1 old ++ le 1 target ++ le 1 2) (some (15, le 1 0 ++ le 1 old ++ le 1 target ++ le 1 2)) []
  let s := s.wipe
  let s := { s with life := { s.life with
    cells := s.life.cells.set (target - 1) 3, due := some (old, target, 2), quiet := quiet } }
  s.setTamper (fun t => { t with restartDue := some 4 })

/-- KEY_RETURN is not programmed, or the TAG is not its CMAC (DEDUCED, log 46). -/
def State.tagBad (s : State) (b : Bytes) : Bool := match s.life.keyReturn with
  | none => true
  | some k => decide (slice b 16 16 ≠ cmac k (b.take 16))

/-- The checks of Table 14.6a on a 32-byte LC_COMMAND (DEDUCED, log 46). -/
def State.wLifeCycle (s : State) (b : Bytes) : State :=
  let target := fld b 8 1
  let lc := s.lc
  if lc = 5 ∨ (target ≠ lc + 1 ∧ target ≠ 5) then s.answer stLifecycle
  else if s.restartPending then s.answerRetry stBusy 250
  else if fld b 0 8 ≠ Config.serialNumber.toNat ∨ fld b 12 4 ≠ s.lcNonce ∨ fld b 9 3 ≠ 0 then s.answer stRange
  else if target = 4 ∧ s.tagBad b = true then
    (s.respond 0x43 2 1 (le 1 lc ++ le 1 target ++ le 1 2) none []).answer stAuth
  else if target = 3 ∧ (s.life.keyReturn.isNone ∨ s.cal.owner.isSome) then s.answer stRange
  else s.lcChange target

/-- A LC_COMMAND request: every write takes a new nonce, accepted or refused (R384) (DEDUCED, log 46). -/
def State.lcWrite (s : State) (r : Req) (b : Bytes) : State :=
  let s := s.checked r 0x8100 2 b (fun s _ _ => s.wLifeCycle b)
  if s.ans.status = stRights then s else { s with life := { s.life with nonce := s.life.nonce + 1 } }

/-- A write of KEY_RETURN (R386). -/
def State.wKeyReturn (s : State) (b : Bytes) : State :=
  if s.life.keyReturn.isSome then s.answer stRange
  else ({ s with life := { s.life with keyReturn := some b } }).answer stOk

/-- TAMPER_RELEASE (R375). -/
def execTamperRelease (r : Req) (b : Bytes) (s : State) : Host.Outcome State Fault Refusal :=
  .next (s.writeReq r 0x8000 0x29 b (fun s _ v => s.wRelease v))

/-- MARK_CLEAR (R376). -/
def execMarkClear (r : Req) (b : Bytes) (s : State) : Host.Outcome State Fault Refusal :=
  .next (s.writeReq r 0x8000 0x28 b (fun s _ v => s.wMarkClear v))

/-- The end of an accepted life-cycle command (R385): the entry is drained, then the whole device restarts (DEDUCED, log 46). -/
def State.lcFinish (s : State) : State :=
  if s.tamper.restartDue = some 4 then
    (let s := if s.mayDrain then (List.range s.tamper.buf.length).foldl (fun s _ => s.drainOne) s else s
     s.restartIfDue)
  else s

/-- LC_COMMAND (R384, R385) (DEDUCED, log 46). -/
def execLcCommand (r : Req) (b : Bytes) (s : State) : Host.Outcome State Fault Refusal :=
  .next (s.request r 2 0x8100 2 b (fun s => s.lcWrite r b)).lcFinish

/-- KEY_RETURN (R386). -/
def execKeyReturn (r : Req) (b : Bytes) (s : State) : Host.Outcome State Fault Refusal :=
  .next (s.writeReq r 0x8100 4 b (fun s _ _ => s.wKeyReturn b))

end Sys2Proof.Machine
end

