-- ==== Sys2Proof/Machine/UpdCmd.lean ====
section
/-! DEFINITION. The update unit's commands and events (chapter 18). -/
namespace Sys2Proof.Machine

/-- The inactive slot's header page is programmed to all ones (R455, R457). -/
def State.headerOnes (s : State) : State := s.nvmWrite (slotBase s.freeSlot) (List.replicate 256 0xFF)

/-- Milliseconds that the health window still has (R455). -/
def State.healthLeft (s : State) : Nat := max 1 (((s.upd.boot.deadline - s.now) * 1000 + 1023) / 1024)

/-- BEGIN (R455) (DEDUCED, log 47). -/
def State.updBegin (s : State) : State :=
  match s.upd.st with
  | .idle | .staged | .rejected | .fallenBack =>
    ((s.headerOnes).setUpd (fun u => { u with st := .receiving, pages := [], reject := 0 })).answer stOk
  | .activating | .trial => s.answerRetry stBusy s.healthLeft
  | _ => s.answer stRange

/-- The first RTC second tick at least 2 s ahead (R457). -/
def State.activateSoon (s : State) : Stamp := (s.now + 2048 + 1023) / 1024 * 1024

/-- ACTIVATE_NOW (R457). -/
def State.updNow (s : State) : State :=
  let t := s.activateSoon
  match s.storePut false oUpdActivateAt t 6 with
  | none => (s.storeRefused false).answer stStoreFull
  | some s => ((s.setCfg oUpdActivateAt t).setUpd (fun u => { u with st := .armed })).answer stOk

/-- A write of UPD_COMMAND (R455-R457, R464, R467). -/
def State.wUpd (s : State) (v : Nat) : State :=
  let st := s.upd.st
  let move (st : UpdSt) : State := (s.setUpd (fun u => { u with st := st })).answer stOk
  if v = 1 then s.updBegin
  else if v = 2 ∧ st = .receiving then (s.setUpd (fun u => { u with st := .verifying, rearm := false })).answer stOk
  else if v = 3 ∧ st = .staged ∧ s.now + 2048 ≤ s.cfg oUpdActivateAt then move .armed
  else if v = 4 ∧ st = .staged then s.updNow
  else if v = 5 ∧ st = .armed then move .staged
  else if v = 6 ∧ (st = .receiving ∨ st = .staged ∨ st = .armed) then
    ((s.headerOnes).setUpd (fun u => { u with st := .idle })).answer stOk
  else if v = 7 ∧ st = .fallenBack then (s.setUpd (fun u => { u with st := .verifying, rearm := true })).answer stOk
  else if v = 8 ∧ st = .trial then (s.answer stOk).keepAns (fun s => s.trialFails 7)
  else s.answer stRange

/-- A write of UPD_CHUNK (R455): a U32 offset and 1 to 3,840 data bytes. -/
def State.wChunk (s : State) (b : Bytes) : State :=
  let off := fld b 0 4
  let d := b.drop 4
  if s.upd.st ≠ .receiving ∨ off % 256 ≠ 0 ∨ 786432 < off + d.length then s.answer stRange
  else
    let s := s.nvmWrite (slotBase s.freeSlot + off) d
    (s.setUpd (fun u => { u with
      pages := (rangeFrom (off / 256) ((d.length + 255) / 256)).foldl (fun (m : KMap Bool) p => KMap.set m p true) u.pages })).answer stOk

/-- A write of UPD_CONFIRM (R461). -/
def State.wConfirm (s : State) (v : Nat) : State :=
  if s.upd.st ≠ .trial then s.answer stRange
  else if v = 0 then s.answer stOk
  else ((s.setUpd (fun u => { u with confirm := true })).answer stOk).keepAns (fun s => s.confirmCheck)

/-- BEGIN (R455). -/
def execBegin (r : Req) (s : State) : Host.Outcome State Fault Refusal := .next (s.writeReq r 0xD000 2 [1] (fun s _ v => s.wUpd v))

/-- UPD_CHUNK (R455). -/
def execUpdChunk (r : Req) (b : Bytes) (s : State) : Host.Outcome State Fault Refusal :=
  .next (s.writeReq r 0xD000 3 b (fun s _ _ => s.wChunk b))

/-- VERIFY (R456): the check ends with IMAGE_VERIFY_DONE. -/
def execVerify (r : Req) (s : State) : Host.Outcome State Fault Refusal := .next (s.writeReq r 0xD000 2 [2] (fun s _ v => s.wUpd v))

/-- IMAGE_VERIFY_DONE (R456, R464): the checks of Table 18.2 in order; EV59. -/
def execImageVerifyDone (readable : Bool) (s : State) : Host.Outcome State Fault Refusal :=
  if s.upd.st ≠ .verifying ∨ !s.powered then .next s
  else
    let k := s.freeSlot
    let c := s.rejectCause k readable s.upd.rearm
    let s := s.setUpd (fun u => { u with st := if c = 0 then .staged else .rejected, reject := c, rearm := false })
    .next (s.raise 59 (le 1 (if c = 0 then 0 else 1) ++ le 1 c ++ le 1 k ++ le 4 (s.imgFirmware k) ++ le 4 (s.imgPatterns k)))

/-- ARM (R457). -/
def execArm (r : Req) (s : State) : Host.Outcome State Fault Refusal := .next (s.writeReq r 0xD000 2 [3] (fun s _ v => s.wUpd v))

/-- ACTIVATE_NOW (R457). -/
def execActivateNow (r : Req) (s : State) : Host.Outcome State Fault Refusal := .next (s.writeReq r 0xD000 2 [4] (fun s _ v => s.wUpd v))

/-- DISARM (R457). -/
def execDisarm (r : Req) (s : State) : Host.Outcome State Fault Refusal := .next (s.writeReq r 0xD000 2 [5] (fun s _ v => s.wUpd v))

/-- ABORT (R457). -/
def execAbort (r : Req) (s : State) : Host.Outcome State Fault Refusal := .next (s.writeReq r 0xD000 2 [6] (fun s _ v => s.wUpd v))

/-- REARM (R464). -/
def execRearm (r : Req) (s : State) : Host.Outcome State Fault Refusal := .next (s.writeReq r 0xD000 2 [7] (fun s _ v => s.wUpd v))

/-- FALLBACK (R462). -/
def execFallback (r : Req) (s : State) : Host.Outcome State Fault Refusal := .next (s.writeReq r 0xD000 2 [8] (fun s _ v => s.wUpd v))

/-- UPD_CONFIRM (R461) (DEDUCED, log 47). -/
def execUpdConfirm (r : Req) (b : Bytes) (s : State) : Host.Outcome State Fault Refusal :=
  .next (s.writeReq r 0xD000 7 b (fun s _ v => s.wConfirm v))

/-- ACTIVATION (R457, R458): the tick at or after UPD_ACTIVATE_AT of an armed image (DEDUCED, log 10; DEDUCED, log 11; DEDUCED, log 47). -/
def execActivation (s : State) : Host.Outcome State Fault Refusal :=
  .next (if s.powered ∧ s.activationDue then s.activateImage else s)

/-- PATTERN_SWITCH (R459): the group takes the new half when its newest boundary lies at or after the switch instant and the
recording of that boundary has not switched it already (DEDUCED, log 48). -/
def execPatternSwitch (group : Fin 4) (s : State) : Host.Outcome State Fault Refusal :=
  let g := s.groups.get group.val
  .next (match g.table with
    | b :: _ => if s.powered ∧ g.running ∧ s.switchDue group.val (s.stampOf b.pos) then (s.patternSwitch group.val).after else s
    | [] => s)

/-- HEALTH_DEADLINE (R462): the deadline is reached unconfirmed (DEDUCED, log 11). -/
def execHealthDeadline (s : State) : Host.Outcome State Fault Refusal :=
  .next (if s.powered ∧ s.upd.st = .trial ∧ s.upd.noDeadline = false ∧ s.upd.boot.deadline ≤ s.now then s.trialFails 1 else s)

end Sys2Proof.Machine
end

