-- ==== Sys2Proof/Machine/Requests.lean ====
section
/-! DEFINITION. READ, WRITE and READ_SHADOW over the whole dictionary (R38, R44): a write to an object with a meaning of its
own goes to that meaning, by record; every other is a plain write. -/
namespace Sys2Proof.Machine

/-- A write of an enclosure input's configuration: an input that is off is inactive (R369) (DEDUCED, log 45). -/
def State.wTampInput (s : State) (q : Cls) (c : Card) (key v : Nat) : State :=
  s.writeNew q c key v (fun s =>
    if bits v 2 1 = 0 then s.setTamper (fun t => { t with tamp := t.tamp.set (key - oTampInputCfg 0) {} }) else s)

/-- A write of MAG_CFG: an input that is not enabled is inactive (R370) (DEDUCED, log 45). -/
def State.wMagCfg (s : State) (q : Cls) (c : Card) (v : Nat) : State :=
  s.writeNew q c oMagCfg v (fun s => s.setTamper (fun t => { t with
    mag := (List.range 4).foldl (fun (m : KMap TampIn) i => if bit v i then m else KMap.set m i {}) t.mag }))

/-- Writes of 0x1101-0x2100. -/
def State.writeBase (s : State) (q : Cls) (c : Card) (key v : Nat) : State :=
  if key = oTimeNow then (s.setTime v (clsNo q)).answer stOk
  else if key = oConfigHold then s.writeHold q v
  else if key = oRlyFault then s.wRelayFault v
  else if key = oRlyEnable then s.wRelayEnable q c v
  else if key = oEventPending then s.wPending v
  else if key = oRingConsumers then s.wConsumers q c v
  else s.writePlain q c key v

/-- Writes of 0x3000-0x3FFF. -/
def State.writeFront (s : State) (q : Cls) (c : Card) (key v : Nat) : State :=
  let i := key / 256
  let e := key % 256
  if within i 0x3000 256 ∧ e = 6 then s.wSubstitute (i - 0x3000) v
  else if within i 0x3200 256 ∧ e = 1 then s.wThEnable q c (i - 0x3200) v
  else if key = oHkRun then s.wHkRun q c v
  else if key = oHkLimitFlags then s.wHkFlags v
  else s.writePlain q c key v

/-- Writes of 0x4000-0x4FFF. -/
def State.writePrepay (s : State) (q : Cls) (c : Card) (key v : Nat) (b : Bytes) : State :=
  let a := key / 256 - 0x4100
  let e := key % 256
  if within (key / 256) 0x4100 240 = false then s.writePlain q c key v
  else if e = 0x0B then s.wHostDisconnect q c a v
  else if e = 0x0C then s.wCredit a v
  else if e = 0x10 then s.wTransfer a b
  else if e = 0x12 then s.wEcRequest a v
  else if e = 0x13 then s.wArm a v
  else s.writePlain q c key v

/-- Writes of 0x6000-0x7FFF. -/
def State.writeEngines (s : State) (q : Cls) (c : Card) (key v : Nat) : State :=
  if key = oCaptCommand then s.wCapture v
  else if key = oCaptRelease then s.wCaptFree v
  else if key = oEngineEnable then s.wEngines q c v
  else if key = oClusterEnable then s.wClusters q c v
  else s.writePlain q c key v

/-- Writes of 0x8000-0x9FFF; those of LC_COMMAND go by themselves. -/
def State.writeSecure (s : State) (q : Cls) (c : Card) (key v : Nat) (b : Bytes) : State :=
  if within key (oTampInputCfg 0) 8 then s.wTampInput q c key v
  else if key = oMagCfg then s.wMagCfg q c v
  else if key = oMaintUntil then (s.setTamper (fun t => { t with maint := v })).answer stOk
  else if key = oMarkClear then s.wMarkClear v
  else if key = oTamperRelease then s.wRelease v
  else if key = oKeyReturn then s.wKeyReturn b
  else if key = oKeyDevice then s.wKeyDevice b
  else if within key (oKeyAccount 0) 240 then s.wKeyAccount (key - oKeyAccount 0) b
  else if key = oKeyWrapped then s.wKeyWrapped b
  else if key = oCsCommand then s.wCsCommand q v
  else s.writePlain q c key v

/-- Writes of 0xA000-0xB000. -/
def State.writeOutputs (s : State) (q : Cls) (c : Card) (key v : Nat) : State :=
  if key = oDispCommand then s.wDisp v
  else if key = oDispImage then s.wImage v
  else if key = oSelvedgeStatus then s.wSelvedge q c v
  else if key = oOutageMarkClear then s.wOutage v
  else if within key (oFtripAssign 0) 8 then s.wFtrip q c (key - oFtripAssign 0) v
  else if key = oFtripState then s.wFtripState v
  else if within key (oPulseConfig 0) 8 then s.wPulse q c key (key - oPulseConfig 0) v
  else if within key (oPulseConst 0) 8 then s.wPulse q c key (key - oPulseConst 0) v
  else if key = oSnapReqH then s.wSnap 0 v
  else if key = oSnapReqF then s.wSnap 1 v
  else if key = oSnapReqS then s.wSnap 2 v
  else if key = oAccClear then s.wAccClear q v
  else if key = oMdReset then s.wMdReset q v
  else s.writePlain q c key v

/-- Writes of 0xC000-0xF000. -/
def State.writeDevice (s : State) (q : Cls) (c : Card) (key v : Nat) (b : Bytes) : State :=
  if key = oMarchCommand then s.wMarch v
  else if key = oSaveRequest then s.wSave v
  else if key = oSpreadInc then s.wSpread v
  else if key = oUpdCommand then s.wUpd v
  else if key = oUpdChunk then s.wChunk b
  else if key = oUpdConfirm then s.wConfirm v
  else if key = oPowerCommand then s.wPower v
  else if key = oWatchdogKick then (s.setIsl (fun i => { i with kick := s.clock.clk })).answer stOk
  else s.writePlain q c key v

/-- What a write through the checks does, by its record (DEDUCED, log 15). -/
def State.writeBy (s : State) (q : Cls) (c : Card) (key v : Nat) (b : Bytes) : State :=
  let i := key / 256
  if i < 0x3000 then s.writeBase q c key v
  else if i < 0x4000 then s.writeFront q c key v
  else if i < 0x6000 then s.writePrepay q c key v b
  else if i < 0x8000 then s.writeEngines q c key v
  else if i < 0xA000 then s.writeSecure q c key v b
  else if i < 0xC000 then s.writeOutputs q c key v
  else s.writeDevice q c key v b

/-- READ (R38) (DEDUCED, log 15). -/
def execRead (r : Req) (index sub : Nat) (s : State) : Host.Outcome State Fault Refusal :=
  .next (s.request r 1 index sub [] (fun s => s.doRead r.cls false index sub))

/-- READ_SHADOW (R38) (DEDUCED, log 15). -/
def execReadShadow (r : Req) (index sub : Nat) (s : State) : Host.Outcome State Fault Refusal :=
  .next (s.request r 3 index sub [] (fun s => s.doRead r.cls true index sub))

/-- WRITE (R44): LC_COMMAND ends with the restart that it orders (R385) (DEDUCED, log 15). -/
def execWrite (r : Req) (index sub : Nat) (b : Bytes) (s : State) : Host.Outcome State Fault Refusal :=
  .next (if index = 0x8100 ∧ sub = 2 then (s.request r 2 index sub b (fun s => s.lcWrite r b)).lcFinish
    else s.writeReq r index sub b (fun s c v => s.writeBy r.cls c (okey index sub) v b))

end Sys2Proof.Machine
end

