-- ==== Sys2Proof/Machine/Spares.lean ====
section
/-! DEFINITION. The commands of the converters and their spares (chapter 3). -/
namespace Sys2Proof.Machine

/-- STUCK_BITSTREAM (R68, R71): a parked spare found stuck fails; the group's idle spare is connected to examine a channel. -/
def execStuckBitstream (stream : Fin 264) (s : State) : Host.Outcome State Fault Refusal :=
  .next (if 256 ≤ stream.val then
      let k := stream.val - 256
      if (s.spares.get k).st = .idle ∧ (s.spares.get k).stage = .none then s.spareFail k else s
    else
      let ch := stream.val
      let k := ch / 32
      if (s.chans.get ch).running ∧ (s.chans.get ch).onSpare.isNone ∧ (s.mods.get ch).retired = false ∧
          (s.spares.get k).st = .idle ∧ (s.spares.get k).stage = .none then s.connect k ch .fault
      else s)

/-- HARD_FAULT_DECISION (R68, R70, R71): a toggling comparison converter proves the fault; else the input saturates. -/
def execHardFaultDecision (stream : Fin 264) (toggles : Bool) (s : State) : Host.Outcome State Fault Refusal :=
  .next (if 256 ≤ stream.val then
      let k := stream.val - 256
      if toggles ∧ (s.spares.get k).st ≠ .failed then s.spareFail k else s
    else
      let ch := stream.val
      let k := ch / 32
      let p := s.spares.get k
      if (s.chans.get ch).running = false ∨ (s.mods.get ch).retired then s
      else if toggles then s.hardFault ch
      else if p.ch = some ch ∧ p.why = .fault ∧ p.st = .parallel then s.park k .none else s)

/-- RECAL_PASS_START (R273, R263): the criteria are met; with a session open the pass waits for its close. -/
def execRecalPassStart (s : State) : Host.Outcome State Fault Refusal :=
  let moved := decide ((s.cfg oRecalDeltaMc : Int) < (s.cal.ta - s.cal.lastTemp).natAbs) && !s.cal.split
  let h := s.cfg oRecalMaxIntervalH
  let due := decide (h ≠ 0) && decide (s.cal.lastTime + h * 3600 * 1024 ≤ s.now)
  .next (if s.cfgB oSpareRotationEnable = false ∨ (moved || due || s.cal.meterTrig) = false then s
    else if s.cal.passRun then (if moved then s.setCal (fun c => { c with again := true }) else s)
    else if s.cal.owner.isSome then s.setCal (fun c => { c with passDue := true })
    else s.passStart)

/-- The lowest channel of a spare's group that awaits its signature (R270). -/
def State.nextSignature (s : State) (k : Nat) : Option Nat :=
  (s.cal.chans.find? (fun e => decide (e.1 / 32 = k) && (match e.2 with
    | some c => decide (c.st = .signature)
    | none => false))).map Prod.fst

/-- ROTATION_SLOT_START (R66, R270): an idle spare begins the slot of an eligible channel, or a signature slot. -/
def execRotationSlotStart (sp : Fin 8) (ch : Fin 256) (s : State) : Host.Outcome State Fault Refusal :=
  let p := s.spares.get sp
  .next (if p.st ≠ .idle ∨ p.stage ≠ .none ∨ ch.val / 32 ≠ sp.val then s
    else if s.cal.running ∧ s.nextSignature sp = some ch.val then s.connect sp ch .signature
    else if s.cal.passRun ∧ s.cal.passConv = false ∧ s.cal.owner.isNone ∧ s.cfgB oSpareRotationEnable ∧ s.eligible ch then
      s.connect sp ch .rotation
    else s)

/-- An accepted alignment: the spare serves the channel from the next index on (R62 step 4). -/
def State.alignAccept (s : State) (k ch : Nat) (g c : Int) : State :=
  let why := (s.spares.get k).why
  let t := s.trims ch
  let s := s.setSpare k (fun p => { p with
    g := g, c := c, stored := p.stored.set ch g, own := [], spare := [], since := s.clock.clk, g0 := rnd t.1, o0 := rnd t.2.1,
    st := if why = .request then .request else .rotation, stage := if why = .request then .serving else .offsetMeas })
  let s := s.setChan ch (fun x => { x with onSpare := some k, retry := false })
  if why = .request then s.ev24 ch k 0 else s

/-- A rejected alignment: the original keeps the channel and the spare is released (R64). -/
def State.alignReject (s : State) (k ch : Nat) : State :=
  let why := (s.spares.get k).why
  let s := s.setChan ch (fun x => { x with alignFail := sat 255 (x.alignFail + 1), retry := x.retry || why = .request })
  let s := s.spareFree k .none
  match why with
  | .rotation => (s.setCal (fun c => { c with visited := c.visited ++ [ch] })).passCheck
  | .signature => (s.setStep ch (fun c => if c.st = .signature then { c with st := .converged } else c)).stepCheck
  | _ => s

/-- ALIGNMENT_FIT (R63, R64): after 64 pairs g and c are fitted and accepted or rejected. -/
def execAlignmentFit (sp : Fin 8) (s : State) : Host.Outcome State Fault Refusal :=
  let p := s.spares.get sp
  .next (match p.ch with
    | none => s
    | some ch =>
      if p.stage ≠ .pairs ∨ p.pairs.length < 64 then s
      else
        let f := fitPairs (p.pairs.take 64) (rangePeak (s.chans.get ch).preset) (p.stored.get ch)
        if f.2.2 then s.alignAccept sp ch f.1 f.2.1 else s.alignReject sp ch)

/-- ROTATION_MEASURE_END (R66, R67): the offset half or the gain half of a slot has ended. -/
def execRotationMeasureEnd (sp : Fin 8) (offsetNv gain : Int) (s : State) : Host.Outcome State Fault Refusal :=
  let p := s.spares.get sp
  .next (match p.stage, p.ch with
    | .offsetMeas, some _ => s.setSpare sp (fun p => { p with measOffset := offsetNv, stage := .gainMeas, since := s.clock.clk })
    | .gainMeas, some ch =>
      let s := s.setSpare sp (fun p => { p with measGain := gain })
      if p.why = .rotation then s.driftJudge sp ch else s.beginReturn sp
    | _, _ => s)

/-- SPARE_RETURN (R65): at the first boundary after the parallel run the channel returns to its own modulator; a session
step that waited for it begins (Table 3.7). -/
def execSpareReturn (sp : Fin 8) (s : State) : Host.Outcome State Fault Refusal :=
  let p := s.spares.get sp
  .next (match p.stage, p.ch with
    | .waitCross, some ch =>
      let g := s.groups.get (s.vgOf ch)
      let crossed := !g.running || (match g.table.head? with
        | none => false
        | some b => decide (p.since ≤ b.at_))
      if crossed then
        (s.takeBack sp ch).setStep ch (fun c => if c.st = .waitReturn then { c with st := .stabilising } else c)
      else s
    | _, _ => s)

/-- ROTATION_SLOT_END (R66, R275): the spare is released; the pass ends with its last slot. -/
def execRotationSlotEnd (sp : Fin 8) (s : State) : Host.Outcome State Fault Refusal :=
  let p := s.spares.get sp
  .next (if p.stage = .done then
      let s := if p.st = .idle then s.park sp .none else s.setSpare sp (fun p => { p with stage := .serving })
      s.passCheck
    else s)

/-- SUBSTITUTE_RETRY (R64): 1 s after a rejected alignment a requested substitution is tried again. -/
def execSubstituteRetry (ch : Fin 256) (s : State) : Host.Outcome State Fault Refusal :=
  let x := s.chans.get ch
  let p := s.spares.get (ch.val / 32)
  .next (if x.retry ∧ x.substitute ∧ x.onSpare.isNone ∧ p.st = .idle ∧ p.stage = .none then
      (s.connect (ch.val / 32) ch .request).setChan ch (fun x => { x with retry := false })
    else s)

/-- SPARE_OFFSET_NULL (R261): a parked spare nulls its own offset with its offset DAC. -/
def execSpareOffsetNull (sp : Fin 8) (offsetNv : Int) (s : State) : Host.Outcome State Fault Refusal :=
  let p := s.spares.get sp
  .next (if p.st = .idle ∧ p.stage = .none then
      s.setMod (256 + sp.val) (fun m => { m with offset := clampOffset (m.offset - offsetCode offsetNv) })
    else s)

/-- SIGNATURE_SLOT_END (R270): the slot gives the channel's signature and the spare is released; a slot whose step has been
abandoned gives none. -/
def execSignatureSlotEnd (ch : Fin 256) (gain offsetNv : Int) (s : State) : Host.Outcome State Fault Refusal :=
  let k := ch.val / 32
  let own := decide ((s.spares.get k).ch = some ch.val) && decide ((s.spares.get k).why = .signature)
  let freed (s : State) : State := if own then (s.setChan ch (fun x => { x with onSpare := none })).spareFree k .none else s
  .next (match s.cal.chans.get ch with
    | none => freed s
    | some c =>
      if c.st ≠ .signature then freed s
      else (freed (s.setStep ch (fun c => { c with st := .converged, sigOk := true, sigG := gain, sigO := offsetNv }))).stepCheck)

end Sys2Proof.Machine
end

