-- ==== Sys2Proof/Machine/Dispatch.lean ====
section
/-! DEFINITION. The dispatch of every command to its meaning: one arm per constructor of Instr. -/
namespace Sys2Proof.Machine

/-- The effect of a command on everything but the queue. -/
def exec (i : Instr) (s : State) : Host.Outcome State Fault Refusal :=
  match i with
  | .pfdTrip => Sys2Proof.Machine.execPfdTrip s
  | .regulatorBrownOut rail => Sys2Proof.Machine.execRegulatorBrownOut rail s
  | .ewarnAssert => Sys2Proof.Machine.execEwarnAssert s
  | .ewarnQualified => Sys2Proof.Machine.execEwarnQualified s
  | .ewarnRelease => Sys2Proof.Machine.execEwarnRelease s
  | .lastGaspDone us => Sys2Proof.Machine.execLastGaspDone us s
  | .holdUpFloor us pages => Sys2Proof.Machine.execHoldUpFloor us pages s
  | .restartHoldoffExpiry => Sys2Proof.Machine.execRestartHoldoffExpiry s
  | .supplyGood => Sys2Proof.Machine.execSupplyGood s
  | .startTimeout => Sys2Proof.Machine.execStartTimeout s
  | .powerVerifyRetry => Sys2Proof.Machine.execPowerVerifyRetry s
  | .marchStartupDone fails => Sys2Proof.Machine.execMarchStartupDone fails s
  | .imageCheckDone ok retainedOk => Sys2Proof.Machine.execImageCheckDone ok retainedOk s
  | .vbatCheck mv => Sys2Proof.Machine.execVbatCheck mv s
  | .regWindowBreach rail dir us active => Sys2Proof.Machine.execRegWindowBreach rail dir us active s
  | .aoPowerOnReset => Sys2Proof.Machine.execAoPowerOnReset s
  | .filterSample stream k x flat => Sys2Proof.Machine.execFilterSample stream k x flat s
  | .ftripMinWidthEnd pin => Sys2Proof.Machine.execFtripMinWidthEnd pin s
  | .issueResume => Sys2Proof.Machine.execIssueResume s
  | .stitchClaim eng => Sys2Proof.Machine.execStitchClaim eng s
  | .stitchResume eng => Sys2Proof.Machine.execStitchResume eng s
  | .sequencedAdd eng => Sys2Proof.Machine.execSequencedAdd eng s
  | .gateAdvance eng => Sys2Proof.Machine.execGateAdvance eng s
  | .stitchTimeout eng => Sys2Proof.Machine.execStitchTimeout eng s
  | .engineReset eng cause => Sys2Proof.Machine.execEngineReset eng cause s
  | .clusterReset cl cause => Sys2Proof.Machine.execClusterReset cl cause s
  | .engineReturnToService unit testOk => Sys2Proof.Machine.execEngineReturnToService unit testOk s
  | .admissionEvaluation measured => Sys2Proof.Machine.execAdmissionEvaluation measured s
  | .crossingTimeout island eng req tag => Sys2Proof.Machine.execCrossingTimeout island eng req tag s
  | .stuckBitstream stream => Sys2Proof.Machine.execStuckBitstream stream s
  | .hardFaultDecision stream toggles => Sys2Proof.Machine.execHardFaultDecision stream toggles s
  | .recalPassStart => Sys2Proof.Machine.execRecalPassStart s
  | .rotationSlotStart sp ch => Sys2Proof.Machine.execRotationSlotStart sp ch s
  | .alignmentFit sp => Sys2Proof.Machine.execAlignmentFit sp s
  | .rotationMeasureEnd sp offsetNv gain => Sys2Proof.Machine.execRotationMeasureEnd sp offsetNv gain s
  | .spareReturn sp => Sys2Proof.Machine.execSpareReturn sp s
  | .rotationSlotEnd sp => Sys2Proof.Machine.execRotationSlotEnd sp s
  | .substituteRetry ch => Sys2Proof.Machine.execSubstituteRetry ch s
  | .spareOffsetNull sp offsetNv => Sys2Proof.Machine.execSpareOffsetNull sp offsetNv s
  | .hkConversionDone value => Sys2Proof.Machine.execHkConversionDone value s
  | .urgentRequest src => Sys2Proof.Machine.execUrgentRequest src s
  | .urgentConversionDone value => Sys2Proof.Machine.execUrgentConversionDone value s
  | .openNative req => Sys2Proof.Machine.execOpenNative req s
  | .openCompat req => Sys2Proof.Machine.execOpenCompat req s
  | .startStep req => Sys2Proof.Machine.execStartStep req s
  | .cancelStep req => Sys2Proof.Machine.execCancelStep req s
  | .close req => Sys2Proof.Machine.execClose req s
  | .sessionIdleTimeout => Sys2Proof.Machine.execSessionIdleTimeout s
  | .calTimeout => Sys2Proof.Machine.execCalTimeout s
  | .signatureSlotEnd ch gain offsetNv => Sys2Proof.Machine.execSignatureSlotEnd ch gain offsetNv s
  | .dayStart => Sys2Proof.Machine.execDayStart s
  | .scheduleEntry => Sys2Proof.Machine.execScheduleEntry s
  | .scheduleRebuild => Sys2Proof.Machine.execScheduleRebuild s
  | .ppCreditTransfer req a payload => Sys2Proof.Machine.execPpCreditTransfer req a payload s
  | .ppCredit req a payload => Sys2Proof.Machine.execPpCredit req a payload s
  | .ppEcRequest req a payload => Sys2Proof.Machine.execPpEcRequest req a payload s
  | .ppReconnectArm req a payload => Sys2Proof.Machine.execPpReconnectArm req a payload s
  | .ppHostDisconnect req a payload => Sys2Proof.Machine.execPpHostDisconnect req a payload s
  | .keyDevice req payload => Sys2Proof.Machine.execKeyDevice req payload s
  | .keyAccount req a payload => Sys2Proof.Machine.execKeyAccount req a payload s
  | .keyWrapped req payload => Sys2Proof.Machine.execKeyWrapped req payload s
  | .relayScanFrame present closed => Sys2Proof.Machine.execRelayScanFrame present closed s
  | .relayCommandFrame => Sys2Proof.Machine.execRelayCommandFrame s
  | .relayReleaseFrame => Sys2Proof.Machine.execRelayReleaseFrame s
  | .relayCaptureFrame present closed => Sys2Proof.Machine.execRelayCaptureFrame present closed s
  | .rlyFaultClear req payload => Sys2Proof.Machine.execRlyFaultClear req payload s
  | .detectorAWindow clock count start fin => Sys2Proof.Machine.execDetectorAWindow clock count start fin s
  | .detectorBFlag clock instant phaseNs => Sys2Proof.Machine.execDetectorBFlag clock instant phaseNs s
  | .pllRelock => Sys2Proof.Machine.execPllRelock s
  | .crystalClean => Sys2Proof.Machine.execCrystalClean s
  | .rtcCrystalReturn => Sys2Proof.Machine.execRtcCrystalReturn s
  | .glitchFlag rail dir instant => Sys2Proof.Machine.execGlitchFlag rail dir instant s
  | .tampSample input high currentNa => Sys2Proof.Machine.execTampSample input high currentNa s
  | .magSample input high => Sys2Proof.Machine.execMagSample input high s
  | .aoLogDrain => Sys2Proof.Machine.execAoLogDrain s
  | .tamperRelease req payload => Sys2Proof.Machine.execTamperRelease req payload s
  | .markClear req payload => Sys2Proof.Machine.execMarkClear req payload s
  | .lcCommand req payload => Sys2Proof.Machine.execLcCommand req payload s
  | .keyReturn req payload => Sys2Proof.Machine.execKeyReturn req payload s
  | .watchdogKick req payload => Sys2Proof.Machine.execWatchdogKick req payload s
  | .watchdogExpiry => Sys2Proof.Machine.execWatchdogExpiry s
  | .controlIslandRestart cause => Sys2Proof.Machine.execControlIslandRestart cause s
  | .controlRestartDone ok retainedOk => Sys2Proof.Machine.execControlRestartDone ok retainedOk s
  | .portIslandRestart cause => Sys2Proof.Machine.execPortIslandRestart cause s
  | .displayIslandRestart cause => Sys2Proof.Machine.execDisplayIslandRestart cause s
  | .periodicSave => Sys2Proof.Machine.execPeriodicSave s
  | .saveRequest req payload => Sys2Proof.Machine.execSaveRequest req payload s
  | .nvmProgramDone page match1 match2 => Sys2Proof.Machine.execNvmProgramDone page match1 match2 s
  | .storeCompaction cal => Sys2Proof.Machine.execStoreCompaction cal s
  | .journalCompaction => Sys2Proof.Machine.execJournalCompaction s
  | .refreshPass weak bad => Sys2Proof.Machine.execRefreshPass weak bad s
  | .spreadInc req payload => Sys2Proof.Machine.execSpreadInc req payload s
  | .scrubWord addr errs pos => Sys2Proof.Machine.execScrubWord addr errs pos s
  | .lineRecovery line => Sys2Proof.Machine.execLineRecovery line s
  | .rowTest bank row failWords => Sys2Proof.Machine.execRowTest bank row failWords s
  | .marchPreserving req payload => Sys2Proof.Machine.execMarchPreserving req payload s
  | .marchDestructive req payload => Sys2Proof.Machine.execMarchDestructive req payload s
  | .marchPeriodic => Sys2Proof.Machine.execMarchPeriodic s
  | .marchRunDone => Sys2Proof.Machine.execMarchRunDone s
  | .hportTransaction frame => Sys2Proof.Machine.execHportTransaction frame s
  | .hcsTimeout frame => Sys2Proof.Machine.execHcsTimeout frame s
  | .read req index sub => Sys2Proof.Machine.execRead req index sub s
  | .write req index sub payload => Sys2Proof.Machine.execWrite req index sub payload s
  | .readShadow req index sub => Sys2Proof.Machine.execReadShadow req index sub s
  | .getResponse delivered => Sys2Proof.Machine.execGetResponse delivered s
  | .ringRead req ring max => Sys2Proof.Machine.execRingRead req ring max s
  | .ringAck req ring seq => Sys2Proof.Machine.execRingAck req ring seq s
  | .bulkSet req payload => Sys2Proof.Machine.execBulkSet req payload s
  | .bulkRead req => Sys2Proof.Machine.execBulkRead req s
  | .bulkBufferFill cls => Sys2Proof.Machine.execBulkBufferFill cls s
  | .responseExpiry sr3 => Sys2Proof.Machine.execResponseExpiry sr3 s
  | .gfpCommand sPort frame => Sys2Proof.Machine.execGfpCommand sPort frame s
  | .poll sPort frame => Sys2Proof.Machine.execPoll sPort frame s
  | .timeSync sPort frame latchedUs elapsedUs => Sys2Proof.Machine.execTimeSync sPort frame latchedUs elapsedUs s
  | .replyDeadline sPort => Sys2Proof.Machine.execReplyDeadline sPort s
  | .i2cRound sda readings => Sys2Proof.Machine.execI2cRound sda readings s
  | .extest => Sys2Proof.Machine.execExtest s
  | .samplePreload => Sys2Proof.Machine.execSamplePreload s
  | .idcode => Sys2Proof.Machine.execIdcode s
  | .clamp => Sys2Proof.Machine.execClamp s
  | .highz => Sys2Proof.Machine.execHighz s
  | .bypass code => Sys2Proof.Machine.execBypass code s
  | .dbgMem addr => Sys2Proof.Machine.execDbgMem addr s
  | .tapReset => Sys2Proof.Machine.execTapReset s
  | .eventPendingClear req payload => Sys2Proof.Machine.execEventPendingClear req payload s
  | .ringConsumers req payload => Sys2Proof.Machine.execRingConsumers req payload s
  | .update req => Sys2Proof.Machine.execUpdate req s
  | .clear req => Sys2Proof.Machine.execClear req s
  | .powerOff req => Sys2Proof.Machine.execPowerOff req s
  | .dispImage req payload => Sys2Proof.Machine.execDispImage req payload s
  | .pumpGood => Sys2Proof.Machine.execPumpGood s
  | .pumpFail => Sys2Proof.Machine.execPumpFail s
  | .displayFrameEnd => Sys2Proof.Machine.execDisplayFrameEnd s
  | .pumpHoldExpiry => Sys2Proof.Machine.execPumpHoldExpiry s
  | .balDelayExpiry => Sys2Proof.Machine.execBalDelayExpiry s
  | .clearingStart => Sys2Proof.Machine.execClearingStart s
  | .selvedgeTransition seg => Sys2Proof.Machine.execSelvedgeTransition seg s
  | .outageMarkClear req payload => Sys2Proof.Machine.execOutageMarkClear req payload s
  | .selvedgeStatus req payload => Sys2Proof.Machine.execSelvedgeStatus req payload s
  | .begin req => Sys2Proof.Machine.execBegin req s
  | .updChunk req payload => Sys2Proof.Machine.execUpdChunk req payload s
  | .verify req => Sys2Proof.Machine.execVerify req s
  | .imageVerifyDone readable => Sys2Proof.Machine.execImageVerifyDone readable s
  | .arm req => Sys2Proof.Machine.execArm req s
  | .activateNow req => Sys2Proof.Machine.execActivateNow req s
  | .disarm req => Sys2Proof.Machine.execDisarm req s
  | .abort req => Sys2Proof.Machine.execAbort req s
  | .rearm req => Sys2Proof.Machine.execRearm req s
  | .fallback req => Sys2Proof.Machine.execFallback req s
  | .updConfirm req payload => Sys2Proof.Machine.execUpdConfirm req payload s
  | .activation => Sys2Proof.Machine.execActivation s
  | .patternSwitch group => Sys2Proof.Machine.execPatternSwitch group s
  | .healthDeadline => Sys2Proof.Machine.execHealthDeadline s
  | .holdStart req => Sys2Proof.Machine.execHoldStart req s
  | .holdRelease req => Sys2Proof.Machine.execHoldRelease req s
  | .holdTimeout => Sys2Proof.Machine.execHoldTimeout s
  | .timeNow req payload => Sys2Proof.Machine.execTimeNow req payload s
  | .rtcSecondTick => Sys2Proof.Machine.execRtcSecondTick s
  | .snapReq req payload => Sys2Proof.Machine.execSnapReq req payload s
  | .snapshotTimeout cls => Sys2Proof.Machine.execSnapshotTimeout cls s
  | .accClear req payload => Sys2Proof.Machine.execAccClear req payload s
  | .mdReset req payload => Sys2Proof.Machine.execMdReset req payload s
  | .pulseEdge n => Sys2Proof.Machine.execPulseEdge n s
  | .pulseConfig req n isConst payload => Sys2Proof.Machine.execPulseConfig req n isConst payload s
  | .ftripAssign req n payload => Sys2Proof.Machine.execFtripAssign req n payload s
  | .ftripLatchClear req payload => Sys2Proof.Machine.execFtripLatchClear req payload s
  | .hkLimitFlagClear req payload => Sys2Proof.Machine.execHkLimitFlagClear req payload s
  | .hkRun req payload => Sys2Proof.Machine.execHkRun req payload s
  | .chSubstitute req ch payload => Sys2Proof.Machine.execChSubstitute req ch payload s
  | .thEnable req ch payload => Sys2Proof.Machine.execThEnable req ch payload s
  | .engineEnable req payload => Sys2Proof.Machine.execEngineEnable req payload s
  | .clusterEnable req payload => Sys2Proof.Machine.execClusterEnable req payload s
  | .trigger req => Sys2Proof.Machine.execTrigger req s
  | .stop req => Sys2Proof.Machine.execStop req s
  | .releaseAll req => Sys2Proof.Machine.execReleaseAll req s
  | .captRelease req payload => Sys2Proof.Machine.execCaptRelease req payload s
  | .bindOffRest req => Sys2Proof.Machine.execBindOffRest req s
  | .bindOffRestart req => Sys2Proof.Machine.execBindOffRestart req s
  | .restartControl req => Sys2Proof.Machine.execRestartControl req s
  | .restartPort req => Sys2Proof.Machine.execRestartPort req s
  | .restartDisplay req => Sys2Proof.Machine.execRestartDisplay req s
  | .vin33Return => Sys2Proof.Machine.execVin33Return s
  | .nvmIslandRestart cause => Sys2Proof.Machine.execNvmIslandRestart cause s
  | .portRestartDone => Sys2Proof.Machine.execPortRestartDone s
  | .displayRestartDone => Sys2Proof.Machine.execDisplayRestartDone s
  | .dischargeShortExpiry => Sys2Proof.Machine.execDischargeShortExpiry s
  | .railDischargeDone => Sys2Proof.Machine.execRailDischargeDone s
  | .selvedgeFrameEnd seg => Sys2Proof.Machine.execSelvedgeFrameEnd seg s
  | .oscSensorReading mc => Sys2Proof.Machine.execOscSensorReading mc s
  | .gfpInvalidFrame sPort => Sys2Proof.Machine.execGfpInvalidFrame sPort s
  | .nvmLifeCheck => Sys2Proof.Machine.execNvmLifeCheck s

end Sys2Proof.Machine
end

