-- ==== Sys2Proof/Machine/Tick.lean ====
section
/-! DEFINITION. What an empty queue leaves to happen: the passing of time. -/
namespace Sys2Proof.Machine

/-- One 1/1,024 s passes: the elapsed modulator clocks rise by 4,000 (assumption log 3) (DESIGN CHOICE, log 56). -/
def idle (s : State) : State := s.toClk (s.clock.clk + clkPer)

end Sys2Proof.Machine
end

