-- ==== Sys2Proof/Safety.lean ====
section
/-! DEFINITION. What counts as a safe run (every step goes on, the byte arrays keep their canonical form, and what is
programmed once stays programmed), and the words in which the statements about commands are made: which components of State
differ, when a request is executed at once, and what its delivery to the port adds. -/
namespace Sys2Proof.Machine

/-- A step that goes on. -/
def goesOn (o : Host.Outcome State Fault Refusal) : Prop := ∃ t, o = .next t

/-- The addressed memories of the device are in canonical form: the bytes of the NVM island (an unlisted byte reads FFH, an
erased byte) and of the capture buffer (an unlisted byte reads 0). -/
def State.memWf (s : State) : Bool := cellsWf 0xFF none s.nvm.mem && cellsWf 0 none s.mem.capture

/-- What is programmed once stays programmed from s to t: the life-cycle cells, of which each holds the number of its
programmed copies, at most 3 (R383); KEY_RETURN (R386); the pages marked bad (R310); the values of the spread counters (R324).
The cells of s are those of a device: each at most 3. -/
def keepsProgrammed (s t : State) : Prop :=
  t.life.cells.length = s.life.cells.length ∧
  ((∀ c ∈ s.life.cells, c ≤ 3) → (∀ c ∈ t.life.cells, c ≤ 3) ∧ ∀ i, s.life.cells.getD i 0 ≤ t.life.cells.getD i 0) ∧
  (∀ k, s.life.keyReturn = some k → t.life.keyReturn = some k) ∧
  (∀ p ∈ s.nvm.bad, p ∈ t.nvm.bad) ∧
  (∀ k, KMap.get s.nvm.sc k ≤ KMap.get t.nvm.sc k)

/-- The components of State. -/
inductive Part where
  | dict | clock | mods | spares | chans | hk | th | ftrip | tracks | groups | eng | accts | chres | pq | capt | captMissed
  | acc | bal | contrib | pp | cal | nvm | pwr | evt | ports | mem | tamper | life | disp | upd | isl | ans | pending
  deriving DecidableEq, Repr

/-- Two states hold the same in one component. -/
def Part.same (s t : State) : Part → Prop
  | .dict => t.dict = s.dict
  | .clock => t.clock = s.clock
  | .mods => t.mods = s.mods
  | .spares => t.spares = s.spares
  | .chans => t.chans = s.chans
  | .hk => t.hk = s.hk
  | .th => t.th = s.th
  | .ftrip => t.ftrip = s.ftrip
  | .tracks => t.tracks = s.tracks
  | .groups => t.groups = s.groups
  | .eng => t.eng = s.eng
  | .accts => t.accts = s.accts
  | .chres => t.chres = s.chres
  | .pq => t.pq = s.pq
  | .capt => t.capt = s.capt
  | .captMissed => t.captMissed = s.captMissed
  | .acc => t.acc = s.acc
  | .bal => t.bal = s.bal
  | .contrib => t.contrib = s.contrib
  | .pp => t.pp = s.pp
  | .cal => t.cal = s.cal
  | .nvm => t.nvm = s.nvm
  | .pwr => t.pwr = s.pwr
  | .evt => t.evt = s.evt
  | .ports => t.ports = s.ports
  | .mem => t.mem = s.mem
  | .tamper => t.tamper = s.tamper
  | .life => t.life = s.life
  | .disp => t.disp = s.disp
  | .upd => t.upd = s.upd
  | .isl => t.isl = s.isl
  | .ans => t.ans = s.ans
  | .pending => t.pending = s.pending

/-- From s to t nothing changes but the components of the list. -/
def changesOnly (l : List Part) (s t : State) : Prop := ∀ p, p ∉ l → Part.same s t p

/-- Event n has been raised once from s to t: its pending bit is set and its counter has stepped (R446). -/
def Raised (n : Nat) (s t : State) : Prop :=
  t.evt.pending = s.evt.pending.set n true ∧ t.evt.count = s.evt.count.upd n (fun k => (k + 1) % 2 ^ 32)

/-- The conditions under which a cast-on begins (R345, R366): supply-good, the last-gasp session at its end, the restart
hold-off over, a clean crystal where one is asked for, and EWARN released in mode 2. -/
def State.mayCastOn (s : State) : Bool :=
  s.pwr.good && s.pwr.gaspEnded && s.pwr.holdoffDone && !s.tamper.needClean && (decide (s.cfg oEwarnMode ≠ 2) || !s.pwr.ewarn)

/-- Nothing follows a commit or a boundary of itself: the METERING point is past, no trial image waits for its confirmation, and
no commanded bind-off runs. -/
def State.settled (s : State) : Bool := s.pwr.metering && decide (s.upd.st ≠ .trial) && decide (s.pwr.bind = .none)

/-- A request is executed at once (R41, R413): the control island serves, no port object waits for an answer to be sent, and if
the request is the head of its command ring, its CRC is good and the response ring has room. -/
def State.serves (s : State) (r : Req) (op index sub : Nat) (b : Bytes) : Bool :=
  !s.controlAway && s.ports.fWait.isEmpty && (match s.headIs r op index sub b with
    | none => true
    | some e => !s.noRoom r.cls && !e.bad)

/-- A WRITE request is executed at once and passes steps 1 to 6 of Table 2.4 (R44). -/
def State.allows (s : State) (r : Req) (index sub : Nat) (b : Bytes) : Bool :=
  s.serves r 2 index sub b && (match s.checkWrite r.cls index sub b with
    | .ok _ => true
    | .error _ => false)

/-- A WRITE of an object of effect I is executed at once, passes steps 1 to 9 of Table 2.4, changes the active value, and its
record, if it has one, is taken by the store (R33, R34, R44). -/
def State.altersTo (s : State) (r : Req) (index sub : Nat) (b : Bytes) : Bool :=
  s.allows r index sub b && KMap.wf s.dict.active && decide (s.cfg (okey index sub) ≠ ofLe b) &&
    (s.ownerWrote r.cls).crossed r.cls (okey index sub) (ofLe b) && (match cardOf index sub with
    | none => false
    | some c => decide (c.eff = .i) && ((s.ownerWrote r.cls).persist c (okey index sub) (ofLe b)).isSome)

/-- The delivery of a request's answer from x to t: the rings and the port records may take it (R413, R414, R426), and nothing
else differs. -/
def Delivered (x t : State) : Prop :=
  t = { x with evt := { x.evt with rings := t.evt.rings }, ports := { x.ports with p := t.ports.p } }

end Sys2Proof.Machine
end

