-- ==== Sys2Proof/Certificates/Slice0/Obligations.lean ====
section
/-! DEFINITION. The statements for the provers, in the words of Sys2Proof/Safety.lean: what each command does, what it leaves
unchanged, and the rules that hold whatever is commanded. Every command of the table has a next state as the conclusion of
some statement; each docstring names the rules of spec/ that its clauses follow. -/
open Sys2Proof Sys2Proof.Machine

/-- R338, R342: a trip with the device supplied runs the emergency order: the source, the cause of the next cast-on and the
time of the trip are recorded, the engines halt, the relay operation in progress ends, the housekeeping sequencer and a
calibration session stop, a configuration hold ends, and after a cast-on that reached METERING the last-gasp session opens.
A brown-out's clauses are the same for either rail. Without supply a trip changes nothing. -/
def Obligations.TripRunsEmergencyOrder : Prop :=
  ∀ (s : State) (c : Instr) (src cause : Nat),
    ((c = .pfdTrip ∧ src = 1 ∧ cause = 1) ∨ (∃ rail, c = .regulatorBrownOut rail ∧ src = 3 ∧ cause = 9) ∨
      (c = .ewarnQualified ∧ src = 2 ∧ cause = 8 ∧ s.cfg oEwarnMode = 2 ∧ s.pwr.ewarn = true)) →
    (s.supplied = false → exec c s = .next s) ∧
    (s.supplied = true → ∃ t, exec c s = .next t ∧
      t.pwr.source = src ∧ t.pwr.nextCause = cause ∧ t.pwr.pfdTime = s.now ∧ t.pwr.tripAt = s.clock.clk ∧
      t.pwr.good = false ∧ t.pwr.started = false ∧ t.pwr.mode = (if s.pwr.metering then .powerFail else .backup) ∧
      (s.pwr.metering = true → t.nvm.session.isSome = true) ∧
      t.hk.running = false ∧ t.hk.active = none ∧ t.cal.owner = none ∧ t.cal.running = false ∧
      t.pp.relay.phase = .idle ∧ t.pp.relay.op = none ∧ t.dict.owner = none ∧
      changesOnly [.dict, .spares, .chans, .hk, .ftrip, .eng, .accts, .chres, .pq, .capt, .captMissed, .acc, .bal, .pp, .cal,
        .nvm, .pwr, .evt, .mem, .tamper, .disp] s t)

/-- R339: EWARN rises. In mode 0, or without power, only the pin is remembered; in mode 1 or 2 EV0 is raised, a power
verification is requested, and a periodic save runs once the journal is restored. R340: EWARN falls; with the device supplied
that is all. -/
def Obligations.EwarnPin : Prop :=
  (∀ s : State, (s.cfg oEwarnMode = 0 ∨ s.powered = false) →
    exec .ewarnAssert s = .next { s with pwr := { s.pwr with ewarn := true } }) ∧
  (∀ s : State, s.cfg oEwarnMode ≠ 0 → s.powered = true → ∃ t, exec .ewarnAssert s = .next t ∧
    t.pwr = { s.pwr with ewarn := true } ∧ Raised 0 s t ∧
    t.hk = (Hk.arbitrate { s.hk with pendPower := true, posPower := 0 }) ∧
    (s.nvm.restored = true → t.nvm.dirty = [] ∧ t.nvm.dirtyQ = [] ∧ t.nvm.dirtyD = [] ∧ t.nvm.dirtyC = [] ∧
      t.nvm.kept.marks.head?.map (fun m => (m.time, m.groups)) = some (s.now, trueKeys s.nvm.dirty)) ∧
    (s.nvm.restored = false → t.nvm = s.nvm) ∧ changesOnly [.spares, .hk, .nvm, .pwr, .evt] s t) ∧
  (∀ s : State, s.supplied = true → exec .ewarnRelease s = .next { s with pwr := { s.pwr with ewarn := false } })

/-- R344: the end of the last-gasp session gates every island but AO: EV2 is raised, the time since the trip is recorded, and
after a trip of PFD or of a regulator the AO island goes over to VBAT unless the cell is known to be below 2.0 V; an event
without an open session changes nothing. The hold-up floor without supply gates what still runs and goes over to VBAT; with
supply it changes nothing. -/
def Obligations.SessionEndGatesIslands : Prop :=
  (∀ (s : State) (us : Nat), s.nvm.session.isSome = true → s.pwr.mode = .powerFail → s.pwr.good = false →
    ∃ t, exec (.lastGaspDone us) s = .next t ∧ Raised 2 s t ∧
      t.pwr.mode = .backup ∧ t.pwr.metering = false ∧ t.pwr.gaspEnded = true ∧ t.pwr.outGasp = us ∧
      t.pwr.onVbat = (s.pwr.onVbat ||
        (decide (s.pwr.source = 1 ∨ s.pwr.source = 3) && !decide (0 < s.pwr.vbat ∧ s.pwr.vbat < 2000))) ∧
      changesOnly [.nvm, .pwr, .evt, .disp] s t) ∧
  (∀ (s : State) (us : Nat), (s.nvm.session = none ∨ s.pwr.mode ≠ .powerFail) → exec (.lastGaspDone us) s = .next s) ∧
  (∀ (s : State) (us pages : Nat), s.supplied = true → exec (.holdUpFloor us pages) s = .next s) ∧
  (∀ (s : State) (us pages : Nat), s.supplied = false → ∃ t, exec (.holdUpFloor us pages) s = .next t ∧
      t.pwr.mode = (if s.pwr.mode = .powerFail then .backup else s.pwr.mode) ∧
      t.pwr.onVbat = (s.pwr.onVbat || !decide (0 < s.pwr.vbat ∧ s.pwr.vbat < 2000)) ∧
      (s.pwr.onVbat = false → s.pwr.outTrip = s.pwr.pfdTime → s.pwr.outHold = 0xFFFFFFFF → t.pwr.outHold = us) ∧
      changesOnly [.nvm, .pwr, .disp] s t)

/-- R345, R348, R349: once every condition of a cast-on holds, the event that brought the last one begins it: the device is in
CAST_ON, the image check of the control island is due, and the islands begin at their reset values while the life-cycle cells,
the credit of the accounts and the events held for METERING stay. While a condition is missing, the event is only remembered; with the device
supplied SUPPLY_GOOD and RESTART_HOLDOFF_EXPIRY change nothing. -/
def Obligations.CastOnBegins : Prop :=
  (∀ (s : State) (c : Instr) (u : State),
    ((c = .supplyGood ∧ u = { s with pwr := { s.pwr with good := true, started := true } }) ∨
     (c = .restartHoldoffExpiry ∧ u = { s with pwr := { s.pwr with holdoffDone := true } }) ∨
     (c = .ewarnRelease ∧ u = { s with pwr := { s.pwr with ewarn := false } })) →
    s.supplied = false →
    (u.mayCastOn = false ∨ u.supplied = true → exec c s = .next u) ∧
    (u.mayCastOn = true → u.supplied = false → ∃ t, exec c s = .next t ∧
      t.pwr.mode = .castOn ∧ t.pwr.metering = false ∧ t.pwr.tripped = false ∧ t.pwr.ready = false ∧
      t.isl.control = some s.clock.clk ∧ t.isl.cause = 5 ∧ t.clock.castOn = s.clock.clk ∧
      t.hk = {} ∧ t.th = [] ∧ t.ftrip = [] ∧ t.accts = [] ∧ t.capt = [] ∧ t.bal = [] ∧ t.ports = {} ∧
      t.pp.credit = s.pp.credit ∧ t.evt.deferred = s.evt.deferred ∧
      t.life.cells = s.life.cells ∧ t.life.nonce = s.life.nonce + 1 ∧ t.pending = s.pending)) ∧
  (∀ s : State, s.supplied = true → exec .supplyGood s = .next s ∧ exec .restartHoldoffExpiry s = .next s)

/-- R348, R346, R351, R358: VIN33 returns and the start begins; a start without supply-good is stopped and counted; a power
verification that has not passed is requested again; the cell is compared with its limit, and a falling below it raises EV4; a
breach of a regulator's window raises EV6, at most once a second per rail. -/
def Obligations.SupplyEvents : Prop :=
  (∀ s : State, exec .vin33Return s = .next (if s.supplied then s else { s with pwr := { s.pwr with started := true } })) ∧
  (∀ s : State, exec .startTimeout s = .next (if s.pwr.good = true ∨ s.pwr.started = false then s else
    { s with pwr := { s.pwr with started := false, retries := min 65535 (s.pwr.retries + 1), retriesNow := s.pwr.retriesNow + 1 } })) ∧
  (∀ s : State, s.powered = true → s.pwr.ready = false → ∃ t, exec .powerVerifyRetry s = .next t ∧
    t.hk = (Hk.arbitrate { s.hk with pendPower := true, posPower := 0 }) ∧ changesOnly [.spares, .hk] s t) ∧
  (∀ s : State, (s.powered = false ∨ s.pwr.ready = true) → exec .powerVerifyRetry s = .next s) ∧
  (∀ (s : State) (mv : Nat), ∃ t, exec (.vbatCheck mv) s = .next t ∧
    t.pwr.vbat = mv / 100 * 100 ∧
    t.pwr.vbatLow = (if s.pwr.vbatLow then decide (mv < s.cfg oVbatLowMv + 100) else decide (mv < s.cfg oVbatLowMv)) ∧
    (mv < s.cfg oVbatLowMv → s.pwr.vbatLow = false → s.powered = true → s.pwr.onVbat = false → Raised 4 s t) ∧
    (¬ (mv < s.cfg oVbatLowMv ∧ s.pwr.vbatLow = false) → t.evt = s.evt) ∧ changesOnly [.pwr, .evt] s t) ∧
  (∀ (s : State) (rail dir : Fin 2) (us : Nat) (active : Bool), s.powered = true →
    ∃ t, exec (.regWindowBreach rail dir us active) s = .next t ∧ t.pwr.breach = s.pwr.breach.set rail.val active ∧
      (s.pwr.breach.get rail.val = false → s.pwr.lastEv6.get rail.val = none → Raised 6 s t) ∧
      (s.pwr.breach.get rail.val = true → t.evt = s.evt) ∧ changesOnly [.pwr, .evt] s t)

/-- R300, R322: the start-up test of main SRAM is done and the journal is restored, once per cast-on. R349, R465: the image
check of the control island ends; with a good image, or with one to fall back to, the island serves; without either it stays
away. R347: an AO power-on reset loses the RTC, the secure SRAM, the disconnect sources and the AO log buffer; while the AO
rail is sound it cannot happen. -/
def Obligations.StartUpAndAoReset : Prop :=
  (∀ (s : State) (fails : List RowFail), (s.powered = false ∨ s.nvm.restored = true) →
    exec (.marchStartupDone fails) s = .next s) ∧
  (∀ (s : State) (fails : List RowFail), s.powered = true → s.nvm.restored = false → s.tamper.lostDue = false →
    s.tamper.restartDue = none → ∃ t, exec (.marchStartupDone fails) s = .next t ∧
      t.nvm.restored = true ∧ t.nvm.headFound = true ∧ t.tamper = { s.tamper with pendSet := [] } ∧
      t.pwr.restoredAt = s.now ∧ t.pwr.mode = s.pwr.mode ∧
      changesOnly [.dict, .clock, .eng, .accts, .pq, .acc, .bal, .pp, .cal, .nvm, .pwr, .evt, .mem, .tamper, .disp, .isl] s t) ∧
  (∀ (s : State) (ok retainedOk : Bool), (s.powered = false ∨ s.isl.control = none ∨ s.isl.cause ≠ 5) →
    exec (.imageCheckDone ok retainedOk) s = .next s) ∧
  (∀ (s : State) (ok retainedOk : Bool), s.powered = true → s.isl.control.isSome = true → s.isl.cause = 5 →
    (ok = true ∨ s.upd.restarting = true ∨ s.upd.backRestart = true ∨ s.upd.st = .trial) →
    ∃ t, exec (.imageCheckDone ok retainedOk) s = .next t ∧
      t.isl = { s.isl with control := none, served := true, kick := s.clock.clk } ∧
      (ok = true → s.upd.restarting = false → s.upd.backRestart = false → s.upd.st ≠ .trial → t = { s with isl := t.isl }) ∧
      changesOnly [.dict, .groups, .accts, .nvm, .evt, .upd, .isl] s t) ∧
  (∀ (s : State) (retainedOk : Bool), s.upd.restarting = false → s.upd.backRestart = false → s.upd.st ≠ .trial →
    exec (.imageCheckDone false retainedOk) s = .next s) ∧
  (∀ s : State, s.supplied = true → s.pwr.onVbat = false → exec .aoPowerOnReset s = .next s) ∧
  (∀ s : State, (s.supplied = false ∨ s.pwr.onVbat = true) → ∃ t, exec .aoPowerOnReset s = .next t ∧
    t.clock = { s.clock with rtc := 0, latch := s.clock.clk, slew := 0 } ∧ t.tamper = { lostDue := true } ∧
    t.pp.credit = [] ∧ t.pp.keyDevice = none ∧ t.pp.keys = [] ∧ t.pp.acct = [] ∧ t.mem.secure = 1 ∧
    t.pwr.backupLost = true ∧ t.pwr.mode = .backup ∧ t.pwr.good = false ∧ t.pwr.onVbat = false ∧
    t.disp.balance = [] ∧ changesOnly [.clock, .pp, .pwr, .mem, .tamper, .disp, .isl] s t)

/-- R85, R14: a modulator's next output sample is clamped to the range and written at its place of the channel's ring, as an
invalid sample while the lane settles or its fault is being decided. The rest of a sample's effects are left out of the clause by its
hypotheses: the channel has no spare, no pending stop or preset change and no threshold, the sample is not overrange, and no
cycle grid runs. R99: at the end of its minimum width a pin follows its source again. -/
def Obligations.SampleWritesRing : Prop :=
  (∀ (s : State) (stream : Fin 264) (x : Int), stream.val < 256 → s.powered = true → s.settled = true →
    (s.chans.get stream.val).running = true → (s.chans.get stream.val).uncovered = false →
    (s.chans.get stream.val).onSpare = none → (s.chans.get stream.val).stopIn = none →
    (s.chans.get stream.val).change = none → (s.spares.get (stream.val / 32)).ch ≠ some stream.val →
    (∀ g, (s.groups.get g).running = false) → s.cfgB (oThEnable stream.val) = false →
    x.natAbs * 100 < rangePeak (s.chans.get stream.val).preset * 105 →
    ∃ t, exec (.filterSample stream (s.chans.get stream.val).next x false) s = .next t ∧
      t.chans = s.chans.upd stream.val (fun c => c.write c.next
        (if c.next < max c.validFrom (if c.next = c.first then c.next + 24 else 0) ∨ c.faultAt.isSome = true then none
         else some (max (-(satCode c.preset)) (min (satCode c.preset) x)))) ∧
      t.pending = s.pending) ∧
  (∀ (s : State) (stream : Fin 264) (k : Nat) (x : Int) (flat : Bool), s.powered = false →
    exec (.filterSample stream k x flat) s = .next s) ∧
  (∀ (s : State) (pin : Fin 8), (s.ftrip.get pin.val).holding = true →
    (s.ftOn pin.val = false ∨ s.ftLatch pin.val = true ∨ (s.ftTripped pin.val).isSome = true) →
    exec (.ftripMinWidthEnd pin) s = .next { s with ftrip := s.ftrip.upd pin.val (fun f => { f with holding := false }) }) ∧
  (∀ (s : State) (pin : Fin 8), (s.ftrip.get pin.val).holding = true → s.ftOn pin.val = true → s.ftLatch pin.val = false →
    s.ftTripped pin.val = none → exec (.ftripMinWidthEnd pin) s = .next { s with
      ftrip := (s.ftrip.upd pin.val (fun f => { f with holding := false })).upd pin.val (fun f => { f with level := false }) }) ∧
  (∀ (s : State) (pin : Fin 8), (s.ftrip.get pin.val).holding = false → exec (.ftripMinWidthEnd pin) s = .next s)

/-- R128, R133, R132: a claim advances its stream's claim counter to the picked stitch and counts a stitch taken from another
queue; a suspended stitch whose commit gate has come to its number goes on, ready for its adds; R124: the issue buffer drains
in its order until it is empty or no queue has room for its head. -/
def Obligations.ClaimResumeAndIssue : Prop :=
  (∀ (s : State) (e : Fin 32) (q far : Nat) (st : Stitch), s.powered = true → s.settled = true →
    s.idleEngine e.val = true → (s.eng.engines.get e.val).draining = false →
    (s.eng.engines.get e.val).susp.any s.resumable = false → (s.eng.engines.get e.val).susp.length < 4 →
    s.pick e.val = some (q, far, st) → ∃ t, exec (.stitchClaim e) s = .next t ∧
      t.eng.streams = (if st.returned then s.eng.streams
        else s.eng.streams.upd (streamKey st.pat st.kind st.num) (fun x => { x with claim := st.seq })) ∧
      t.eng.stolenLocal = (if far = 1 then (s.eng.stolenLocal + 1) % 2 ^ 32 else s.eng.stolenLocal) ∧
      t.eng.stolenRemote = (if far = 2 then (s.eng.stolenRemote + 1) % 2 ^ 32 else s.eng.stolenRemote) ∧
      changesOnly [.dict, .clock, .eng, .contrib, .cal, .nvm, .pwr, .evt, .life, .disp, .upd] s t) ∧
  (∀ (s : State) (e : Fin 32) (h : Held) (t0 : Stitch), s.powered = true → s.settled = true → s.idleEngine e.val = true →
    (s.eng.engines.get e.val).susp.find? s.resumable = some h → h.wait = some .gate → (∀ r, h.pub ≠ .bill r) →
    s.entryOf h = some t0 → (s.cycAt t0.vg t0.bslot).isSome = true →
    (s.streamOf t0).gate + 1 = t0.seq → ∃ t quality, exec (.stitchResume e) s = .next t ∧
      t.eng.engines = (s.eng.engines.upd e.val (fun x => { x with susp := x.susp.erase h })).upd e.val
        (fun x => { x with run := some { h with ready := true, wait := none, quality := quality } }) ∧
      t.eng.streams = s.eng.streams ∧ changesOnly [.dict, .clock, .eng, .contrib, .cal, .nvm, .pwr, .evt, .life, .disp, .upd] s t) ∧
  (∀ s : State, s.eng.paused = [] → s.eng.buffer.length ≤ 64 → ∃ t, exec .issueResume s = .next t ∧
    t.eng.paused = [] ∧ (∃ l, s.eng.buffer = l ++ t.eng.buffer) ∧
    (∀ x rest, t.eng.buffer = x :: rest → t.eng.target (t.homeOf t x.pat x.kind x.num) = none) ∧
    changesOnly [.dict, .eng] s t)

/-- R19: the next add of the running stitch goes to its line where the stitch is newer than the line's marker, which then
becomes the stitch's number; otherwise the bank discards the add and counts it. R20: once every add is issued the stitch's gate
advances to its number and the engine counts one stitch. -/
def Obligations.SequencedAddAndGate : Prop :=
  (∀ (s : State) (e : Fin 32) (h : Held) (t0 : Stitch) (a : AddTo × Nat) (rest : List (AddTo × Nat)),
    s.powered = true → s.settled = true → (s.eng.engines.get e.val).run = some h → h.ready = true → h.adds = a :: rest →
    s.entryOf h = some t0 → (s.cycAt t0.vg t0.bslot).isSome = true → s.lineHeld a.1 = false →
    ∃ t, exec (.sequencedAdd e) s = .next t ∧
      t.eng.engines = s.eng.engines.upd e.val (fun x => { x with run := some { h with adds := rest } }) ∧
      t.eng.streams = s.eng.streams ∧
      (∀ n, a.1 = .line n → newer t0.seq (s.acc.lines.get n).marker = true →
        t.acc.lines = s.acc.lines.set n
          { value := (s.acc.lines.get n).value + BitVec.ofNat 96 a.2, marker := t0.seq } ∧ t.acc.applied = true) ∧
      (∀ n, a.1 = .quality n → newer t0.seq (s.acc.quality.get n).marker = true →
        t.acc.quality = s.acc.quality.set n
          { value := (s.acc.quality.get n).value + BitVec.ofNat 96 a.2, marker := t0.seq } ∧ t.acc.lines = s.acc.lines) ∧
      (∀ n, ((a.1 = .line n ∧ newer t0.seq (s.acc.lines.get n).marker = false) ∨
          (a.1 = .quality n ∧ newer t0.seq (s.acc.quality.get n).marker = false) ∨
          (a.1 = .energy n ∧ newer t0.seq (s.acc.energy.get n).marker = false)) →
        t.acc = s.acc ∧ t.eng.discarded = (s.eng.discarded + 1) % 2 ^ 32) ∧
      changesOnly [.dict, .clock, .eng, .acc, .pp, .cal, .nvm, .pwr, .evt, .life, .disp, .upd] s t) ∧
  (∀ (s : State) (e : Fin 32) (h : Held) (t0 : Stitch), s.powered = true → s.settled = true →
    (s.eng.engines.get e.val).run = some h → h.ready = true → h.adds = [] →
    s.entryOf h = some t0 → (s.cycAt t0.vg t0.bslot).isSome = true →
    (s.eng.streams.get (streamKey t0.pat t0.kind t0.num)).gate + 1 = t0.seq →
    ∃ t, exec (.gateAdvance e) s = .next t ∧
      t.eng.streams = s.eng.streams.upd (streamKey t0.pat t0.kind t0.num) (fun x => { x with gate := t0.seq }) ∧
      (s.eng.clusters = [] → (s.eng.engines.get e.val).draining = false →
        ((s.eng.engines.get e.val).done + 1) % 2 ^ 32 ≠ 0 → t.eng.engines = s.eng.engines.upd e.val (fun x => { x with
          run := none, done := (x.done + 1) % 2 ^ 32 })) ∧
      t.ports = s.ports ∧ t.life = s.life ∧ t.isl = s.isl ∧ t.pending = s.pending) ∧
  (∀ (s : State) (e : Fin 32), s.powered = false → exec (.sequencedAdd e) s = .next s ∧ exec (.gateAdvance e) s = .next s ∧
    exec (.stitchClaim e) s = .next s ∧ exec (.stitchResume e) s = .next s)

/-- R22, R135: a reset of an engine or a cluster gives every stitch it holds back to its queue, raises EV56 and leaves the unit
restarting until its built-in test. R10: a request to an island that restarts is held 5 ms; an engine's stitch then goes back to its queue,
any other request is answered ISLAND_RESTARTING. -/
def Obligations.ResetsGiveBack : Prop :=
  (∀ (s : State) (e : Fin 32) (c : Instr) (cause : Nat),
    ((c = .stitchTimeout e ∧ cause = 1 ∧ (s.eng.engines.get e.val).run.isSome = true) ∨
     (∃ k : Fin 8, c = .engineReset e k ∧ k.val = cause ∧ 1 ≤ cause ∧ cause ≤ 4 ∧ s.inService e.val = true)) →
    s.powered = true → ∃ t, exec c s = .next t ∧ (t.eng.engines.get e.val).st = .restarting ∧
      (t.eng.engines.get e.val).run = none ∧ (t.eng.engines.get e.val).susp = [] ∧
      (s.runsNewHalf e.val = false → t.evt.pending.get 56 = true ∧ changesOnly [.eng, .evt] s t) ∧
      changesOnly [.dict, .spares, .chans, .hk, .groups, .eng, .cal, .nvm, .evt, .upd, .isl] s t) ∧
  (∀ (s : State) (cl : Fin 4) (cause : Fin 8), s.powered = true → (s.eng.clusters.get cl.val).st = .inService → 5 ≤ cause.val →
    ∃ t, exec (.clusterReset cl cause) s = .next t ∧ Raised 56 s t ∧ (t.eng.clusters.get cl.val).st = .restarting ∧
      (t.eng.clusters.get cl.val).svc = decide (cause.val = 7) ∧ changesOnly [.eng, .evt] s t) ∧
  (∀ (s : State) (island : Fin 11) (k : Fin 32) (r : Req) (tag : Nat), s.powered = true →
    ∃ t, exec (.crossingTimeout island (some k) r tag) s = .next t ∧
      t.eng.wq = ((s.eng.engines.get k.val).run.toList ++ (s.eng.engines.get k.val).susp).foldl
        (fun m h => KMap.upd m h.q (fun l => l.map (fun x => if h.is x then
          { x with st := .waiting, returned := true, engine := 0 } else x))) s.eng.wq ∧
      t.eng.returned = (s.eng.returned +
        ((s.eng.engines.get k.val).run.toList ++ (s.eng.engines.get k.val).susp).length) % 2 ^ 32 ∧
      changesOnly [.eng] s t) ∧
  (∀ (s : State) (island : Fin 11) (r : Req) (tag : Nat), ∃ ms, exec (.crossingTimeout island none r tag) s =
    .next { s with ans := { status := stRestarting, retry := ms } })

/-- R137: a unit that restarts or starts returns to service after its built-in test: out of service when the test fails or its
resets have reached the limit, else in service, or off where its enable bit is 0; a cluster raises EV58 after a reset. R140,
R141: an admission evaluation takes the measured costs, counts 275 MMAC/s for each engine in service, and admits at most sixteen
sixteenths of each class. -/
def Obligations.ReturnToServiceAndAdmission : Prop :=
  (∀ (s : State) (n : Fin 36) (ok : Bool), s.powered = true → n.val < 32 →
    exec (.engineReturnToService n ok) s = .next { s with eng := { s.eng with engines := s.eng.engines.upd n.val (fun x =>
      if x.st = .starting ∨ x.st = .restarting then
        { x with st := (if ok = false ∨ s.atLimit x.resets = true then .outOfService else if s.engineOn n.val then .inService
                        else .off) }
      else x) } }) ∧
  (∀ (s : State) (n : Fin 36) (ok : Bool), s.powered = true → 32 ≤ n.val →
    ((s.eng.clusters.get (n.val - 32)).st = .starting ∨ (s.eng.clusters.get (n.val - 32)).st = .restarting) →
    ∃ t, exec (.engineReturnToService n ok) s = .next t ∧
      t.eng.clusters = s.eng.clusters.upd (n.val - 32) (fun x =>
        { x with svc := false, st := (if ok = false ∨ s.atLimit x.resets = true then .outOfService
                                      else if s.clusterOn (n.val - 32) then .inService else .off) }) ∧
      ((s.eng.clusters.get (n.val - 32)).st = .restarting → Raised 58 s t) ∧
      ((s.eng.clusters.get (n.val - 32)).st = .starting → t.evt = s.evt) ∧ changesOnly [.eng, .evt] s t) ∧
  (∀ (s : State) (n : Fin 36) (ok : Bool), s.powered = false → exec (.engineReturnToService n ok) s = .next s) ∧
  (∀ (s : State) (measured : List Nat), s.powered = true → ∃ t, exec (.admissionEvaluation measured) s = .next t ∧
    t.eng.capacity = 275 * s.enginesIn.length ∧ (∀ i, i < 10 → t.eng.cost.get (i + 1) = measured.getD i 0) ∧
    t.eng.p2 ≤ 16 ∧ t.eng.capt ≤ 16 ∧ t.eng.supra ≤ 16 ∧
    (s.eng.ovr = true → t.eng.ovr = true → t.evt = s.evt) ∧ (s.eng.ovr ≠ t.eng.ovr → Raised 57 s t) ∧
    changesOnly [.eng, .evt] s t)

/-- R68, R71: a channel's stuck bitstream connects its group's idle spare to examine it; a parked spare found stuck fails. R68,
R70: a toggling comparison converter proves the hard fault: the modulator is retired, for good once MOD_RETIRED is programmed; else the
input saturates and the spare parks. R261: a parked spare nulls its own offset. R64: a rejected substitution is tried again. -/
def Obligations.FaultsOfConverters : Prop :=
  (∀ (s : State) (m : Fin 264), m.val < 256 → (s.chans.get m.val).running = true → (s.chans.get m.val).onSpare = none →
    (s.mods.get m.val).retired = false → (s.spares.get (m.val / 32)).st = .idle → (s.spares.get (m.val / 32)).stage = .none →
    ∃ t, exec (.stuckBitstream m) s = .next t ∧ (t.spares.get (m.val / 32)).st = .parallel ∧
      (t.spares.get (m.val / 32)).ch = some m.val ∧ (t.spares.get (m.val / 32)).why = .fault ∧
      (t.spares.get (m.val / 32)).stage = .fill ∧ (t.spares.get (m.val / 32)).since = s.clock.clk ∧ changesOnly [.spares] s t) ∧
  (∀ (s : State) (m : Fin 264) (c : Instr), 256 ≤ m.val →
    ((c = .stuckBitstream m ∧ (s.spares.get (m.val - 256)).st = .idle ∧ (s.spares.get (m.val - 256)).stage = .none) ∨
     (c = .hardFaultDecision m true ∧ (s.spares.get (m.val - 256)).st ≠ .failed)) →
    ∃ t, exec c s = .next t ∧ (t.spares.get (m.val - 256)).st = .failed ∧ (t.spares.get (m.val - 256)).ch = none ∧
      (t.mods.get m.val).retired = true ∧ t.cfg oModRetired = Nat.lor (s.cfg oModRetired) (2 ^ m.val) ∧ Raised 25 s t ∧
      changesOnly [.dict, .mods, .spares, .chans, .nvm, .evt] s t) ∧
  (∀ (s : State) (m : Fin 264), m.val < 256 → (s.chans.get m.val).running = true → (s.mods.get m.val).retired = false →
    ∃ t, exec (.hardFaultDecision m true) s = .next t ∧ (t.mods.get m.val).retired = true ∧
      t.cfg oModRetired = Nat.lor (s.cfg oModRetired) (2 ^ m.val) ∧ t.evt.pending.get 25 = true ∧
      (t.chans.get m.val).stuck = true ∧ changesOnly [.dict, .mods, .spares, .chans, .hk, .cal, .nvm, .evt] s t) ∧
  (∀ (s : State) (m : Fin 264), m.val < 256 → (s.chans.get m.val).running = true → (s.mods.get m.val).retired = false →
    (s.spares.get (m.val / 32)).ch = some m.val → (s.spares.get (m.val / 32)).why = .fault →
    (s.spares.get (m.val / 32)).st = .parallel → exec (.hardFaultDecision m false) s = .next { s with
      spares := s.spares.upd (m.val / 32) (fun p => { p with st := .idle, stage := .none, ch := none, own := [], spare := [] }) }) ∧
  (∀ (s : State) (sp : Fin 8) (nv : Int), exec (.spareOffsetNull sp nv) s =
    .next (if (s.spares.get sp.val).st = .idle ∧ (s.spares.get sp.val).stage = .none then { s with
      mods := s.mods.upd (256 + sp.val) (fun m => { m with offset := clampOffset (m.offset - offsetCode nv) }) } else s)) ∧
  (∀ (s : State) (ch : Fin 256), (s.chans.get ch.val).retry = true → (s.chans.get ch.val).substitute = true →
    (s.chans.get ch.val).onSpare = none → (s.spares.get (ch.val / 32)).st = .idle → (s.spares.get (ch.val / 32)).stage = .none →
    ∃ t, exec (.substituteRetry ch) s = .next t ∧ (t.spares.get (ch.val / 32)).st = .parallel ∧
      (t.spares.get (ch.val / 32)).ch = some ch.val ∧ (t.spares.get (ch.val / 32)).why = .request ∧
      t.chans = s.chans.upd ch.val (fun x => { x with retry := false }) ∧ changesOnly [.spares, .chans] s t)

/-- R273: a recalibration pass starts when the temperature has moved, the interval is over or METERING asks for one, with no pass
or session in the way. R66: an idle spare begins the slot of an eligible channel. R63, R64: after 64 pairs an accepted fit gives the
spare the channel, a rejected one is counted. R67: the halves of a slot's measurement follow each other, and a channel without drift
beyond the limits begins its return; R65: it returns at the first boundary after the parallel run. -/
def Obligations.RotationSlot : Prop :=
  (∀ s : State, s.cfgB oSpareRotationEnable = true → s.cal.passRun = false → s.cal.owner = none →
    (s.cal.meterTrig = true ∨ (s.cfg oRecalMaxIntervalH ≠ 0 ∧ s.cal.lastTime + s.cfg oRecalMaxIntervalH * 3600 * 1024 ≤ s.now) ∨
      ((s.cfg oRecalDeltaMc : Int) < (s.cal.ta - s.cal.lastTemp).natAbs ∧ s.cal.split = false)) →
    ∃ t, exec .recalPassStart s = .next t ∧ t.cal = { s.cal with
        passRun := true, passDue := false, passConv := true, again := false, visited := [], nMeas := 0, nChanged := 0,
        nRetired := 0, meterTrig := false, lastTime := s.now } ∧
      t.hk.pendCal = true ∧ t.hk.posCal = 0 ∧ changesOnly [.spares, .hk, .cal] s t) ∧
  (∀ s : State, s.cfgB oSpareRotationEnable = false → exec .recalPassStart s = .next s) ∧
  (∀ (s : State) (sp : Fin 8) (ch : Fin 256), (s.spares.get sp.val).st = .idle → (s.spares.get sp.val).stage = .none →
    ch.val / 32 = sp.val → s.cal.running = false → s.cal.passRun = true → s.cal.passConv = false → s.cal.owner = none →
    s.cfgB oSpareRotationEnable = true → s.eligible ch.val = true → ∃ t, exec (.rotationSlotStart sp ch) s = .next t ∧
      (t.spares.get sp.val).st = .parallel ∧ (t.spares.get sp.val).ch = some ch.val ∧ (t.spares.get sp.val).why = .rotation ∧
      (t.spares.get sp.val).stage = .fill ∧ (t.spares.get sp.val).slotAt = s.clock.clk ∧ changesOnly [.spares] s t) ∧
  (∀ (s : State) (sp : Fin 8) (ch : Nat) (f : Int × Int × Bool), (s.spares.get sp.val).ch = some ch →
    (s.spares.get sp.val).stage = .pairs → 64 ≤ (s.spares.get sp.val).pairs.length →
    f = fitPairs ((s.spares.get sp.val).pairs.take 64) (rangePeak (s.chans.get ch).preset) ((s.spares.get sp.val).stored.get ch) →
    ∃ t, exec (.alignmentFit sp) s = .next t ∧
      (f.2.2 = true → (t.chans.get ch).onSpare = some sp.val ∧ (t.spares.get sp.val).g = f.1 ∧ (t.spares.get sp.val).c = f.2.1 ∧
        (t.spares.get sp.val).st = (if (s.spares.get sp.val).why = .request then .request else .rotation) ∧
        changesOnly [.spares, .chans, .evt] s t) ∧
      (f.2.2 = false → (t.chans.get ch).alignFail = min 255 ((s.chans.get ch).alignFail + 1) ∧
        changesOnly [.spares, .chans, .hk, .cal, .evt] s t)) ∧
  (∀ (s : State) (sp : Fin 8) (nv gain : Int), (s.spares.get sp.val).stage = .offsetMeas → (s.spares.get sp.val).ch.isSome = true →
    exec (.rotationMeasureEnd sp nv gain) s = .next { s with
      spares := s.spares.upd sp.val (fun p => { p with measOffset := nv, stage := .gainMeas, since := s.clock.clk }) }) ∧
  (∀ (s : State) (sp : Fin 8) (nv gain : Int), (s.spares.get sp.val).stage = .gainMeas → (s.spares.get sp.val).ch.isSome = true →
    ((s.spares.get sp.val).why ≠ .rotation ∨ (s.spares.get sp.val).measured = false) →
    ∃ t, exec (.rotationMeasureEnd sp nv gain) s = .next t ∧ (t.spares.get sp.val).stage = .ownFill ∧
      (t.spares.get sp.val).measGain = gain ∧ (t.spares.get sp.val).since = s.clock.clk ∧ changesOnly [.spares] s t) ∧
  (∀ (s : State) (sp : Fin 8) (ch : Nat), (s.spares.get sp.val).stage = .waitCross → (s.spares.get sp.val).ch = some ch →
    ((s.groups.get (s.vgOf ch)).running = false ∨
      (∃ b l, (s.groups.get (s.vgOf ch)).table = b :: l ∧ (s.spares.get sp.val).since ≤ b.at_)) →
    ∃ t, exec (.spareReturn sp) s = .next t ∧
      ((s.spares.get sp.val).next = none → t.chans = s.chans.upd ch (fun x => { x with onSpare := none })) ∧
      (∀ f, (s.spares.get sp.val).next = some f → (t.spares.get sp.val).st = .held ∧ (t.spares.get sp.val).ch = some f ∧
        (t.chans.get f).onSpare = some sp.val ∧ Raised 24 s t) ∧
      changesOnly [.spares, .chans, .cal, .evt] s t) ∧
  (∀ (s : State) (sp : Fin 8), (s.spares.get sp.val).stage = .done → s.cal.passRun = false →
    exec (.rotationSlotEnd sp) s = .next { s with spares := s.spares.upd sp.val (fun p => if p.st = .idle then
      { p with stage := .none, ch := none, own := [], spare := [] } else { p with stage := .serving }) }) ∧
  (∀ (s : State) (sp : Fin 8), (s.spares.get sp.val).stage ≠ .done → exec (.rotationSlotEnd sp) s = .next s)

/-- R78, R79, R81: a housekeeping conversion of a step with repetitions left is summed; the step's last one is stored, compared
with its limits, and the next step begins. R82, R83: an urgent request is entered and the one of the lowest order runs; its first conversion is kept, and
its last one goes to the requester. R351: a power verification within its limits sets HOLDUP_READY and arms the issue unit. -/
def Obligations.HousekeepingConversions : Prop :=
  (∀ (s : State) (v : Int), s.powered = true → s.hk.running = true → s.hk.active = none → s.hkDead s.hk.step = false →
    s.hkMode s.hk.step ≠ 0 → s.hk.reps + 1 ≤ s.hkRepeat s.hk.step →
    exec (.hkConversionDone v) s = .next { s with hk := { s.hk with reps := s.hk.reps + 1, sum := s.hk.sum + v } }) ∧
  (∀ (s : State) (v : Int), s.powered = true → s.hk.running = true → s.hk.active = none → s.hkDead s.hk.step = false →
    s.hkMode s.hk.step ≠ 0 → s.hkRepeat s.hk.step ≤ s.hk.reps → s.hkChan s.hk.step < 4 → bit (s.cfg (oHkStep s.hk.step)) 7 = false →
    bit (s.cfg (oHkStep s.hk.step)) 12 = false →
    ∃ t, exec (.hkConversionDone v) s = .next t ∧ t.hk.result = s.hk.result.set s.hk.step v ∧
      t.hk.outside = s.hk.outside.set s.hk.step
        (decide (v < s.cfgI 4 (oHkLimitLow s.hk.step)) || decide (s.cfgI 4 (oHkLimitHigh s.hk.step) < v)) ∧
      changesOnly [.hk] s t) ∧
  (∀ (s : State) (v : Int), (s.powered = false ∨ s.hk.running = false ∨ s.hk.active.isSome = true) →
    exec (.hkConversionDone v) s = .next s) ∧
  (∀ (s : State) (src : UrgentSrc), s.powered = true → ∃ t, exec (.urgentRequest src) s = .next t ∧
    t.hk = Hk.arbitrate (match src with
      | .power => { s.hk with pendPower := true, posPower := 0 }
      | .tamperGlitch => { s.hk with pendTamper := some false, posTamper := 0 }
      | .tamperTemp => { s.hk with pendTamper := some true, posTamper := 0 }
      | .calibration => { s.hk with pendCal := true, posCal := 0 }) ∧
    (src ≠ .calibration → t.spares = s.spares) ∧ changesOnly [.spares, .hk] s t) ∧
  (∀ (s : State) (src : UrgentSrc), s.powered = false → exec (.urgentRequest src) s = .next s) ∧
  (∀ (s : State) (v : Int), s.hk.active = some 0 → s.hk.posPower = 0 →
    exec (.urgentConversionDone v) s = .next { s with hk := { s.hk with vin := v, posPower := 1 } }) ∧
  (∀ (s : State) (v : Int), s.hk.active = some 0 → s.hk.posPower ≠ 0 → ∃ t, exec (.urgentConversionDone v) s = .next t ∧
    t.pwr.ready = (decide (3000000 ≤ s.hk.vin) && decide ((s.cfg oHoldupReadyMv : Int) * 1000 ≤ v)) ∧
    (t.pwr.ready = true → t.eng.armed = true ∧ t.pwr.onVbat = false) ∧ t.hk.pendPower = false ∧
    changesOnly [.hk, .eng, .pwr] s t) ∧
  (∀ (s : State) (v : Int), s.hk.active = some 1 → s.hk.pendTamper = some false → ∃ t, exec (.urgentConversionDone v) s = .next t ∧
    t.tamper = { s.tamper with vcore := v } ∧ t.hk = Hk.arbitrate { s.hk with pendTamper := none, posTamper := 0 } ∧
    changesOnly [.hk, .tamper] s t) ∧
  (∀ (s : State) (v : Int), s.hk.active = some 1 → s.hk.pendTamper ≠ some false → s.hk.posTamper = 0 →
    exec (.urgentConversionDone v) s = .next { s with hk := { s.hk with tampBg := v, posTamper := 1 } }) ∧
  (∀ (s : State) (v : Int), s.hk.active = some 2 → s.hk.posCal = 0 →
    exec (.urgentConversionDone v) s = .next { s with hk := { s.hk with calGap := v, posCal := 1 } }) ∧
  (∀ (s : State) (v : Int), s.hk.active = none → exec (.urgentConversionDone v) s = .next s)

/-- R262-R265, R268, R272: the commands of a calibration session, executed at once and past Table 2.4. OPEN gives the session to
the writing class in its mode and is refused BUSY_RETRY while one is open; START_STEP starts a step on the channels of
CS_CHANNELS when R264's conditions hold; CANCEL_STEP and CLOSE stop it. A session left alone closes unless a step runs; at the
end of the step's time each channel not converged is abandoned; a signature slot hands its two codes to its channel. -/
def Obligations.CalibrationSession : Prop :=
  (∀ (s : State) (r : Req) (c : Instr) (n : Fin 256), (c = .openNative r ∧ n = 1 ∨ c = .openCompat r ∧ n = 2) →
    s.allows r 0x9000 1 [BitVec.ofFin n] = true →
    (s.cal.owner = none → s.cal.passRun = false → ∃ t, exec c s = .next t ∧ Delivered (({ s with
      cal := { s.cal with owner := some r.cls, compat := decide (n = 2), lastWrite := s.clock.clk } }).answer stOk) t) ∧
    (s.cal.owner.isSome = true → ∃ t, exec c s = .next t ∧
      Delivered ((s.ownerWrote r.cls).answerRetry stBusy (s.cfg oCalTimeoutMs)) t)) ∧
  (∀ (s : State) (r : Req), s.allows r 0x9000 1 [3] = true →
    (s.cal.owner = none → ∃ t, exec (.startStep r) s = .next t ∧ Delivered (s.answer stRange) t) ∧
    (s.cal.owner.isSome = true → s.cal.running = false → s.stepOk = true → ∃ t, exec (.startStep r) s = .next t ∧
      t.cal.running = true ∧ t.cal.owner = s.cal.owner ∧ t.cal.steps = s.cal.steps + 1 ∧ t.cal.startT = none ∧
      t.cal.passed = [] ∧ t.cal.failed = [] ∧ t.hk.pendCal = true ∧ t.ans.status = stOk ∧
      (∀ ch, (KMap.get t.cal.chans ch).isSome = true ↔ ch ∈ s.csChannels) ∧
      changesOnly [.dict, .spares, .chans, .hk, .tracks, .groups, .accts, .acc, .bal, .pp, .cal, .nvm, .evt, .ports, .ans] s t)) ∧
  (∀ (s : State) (r : Req), s.allows r 0x9000 1 [4] = true → ∃ t, exec (.cancelStep r) s = .next t ∧
    t.cal.running = false ∧ t.cal.owner = s.cal.owner ∧ t.ans.status = stOk ∧
    (s.cal.running = false → Delivered ((s.ownerWrote r.cls).answer stOk) t)) ∧
  (∀ (s : State) (r : Req), s.allows r 0x9000 1 [5] = true → ∃ t, exec (.close r) s = .next t ∧
    (s.cal.owner = none → Delivered (s.answer stOk) t) ∧ t.cal.owner = none ∧ t.ans.status = stOk ∧
    (s.cal.owner.isSome = true → t.cal.running = false ∧ t.cal.compat = false)) ∧
  (∀ s : State, s.cal.owner.isSome = true → s.cal.running = false → ∃ t, exec .sessionIdleTimeout s = .next t ∧
    t.cal.owner = none ∧ t.cal.running = false ∧ changesOnly [.spares, .hk, .cal] s t ∧
    (s.cal.passDue = false → changesOnly [.cal] s t)) ∧
  (∀ s : State, (s.cal.owner = none ∨ s.cal.running = true) → exec .sessionIdleTimeout s = .next s) ∧
  (∀ s : State, s.cal.running = false → exec .calTimeout s = .next s) ∧
  (∀ s : State, s.cal.running = true → ∃ t, exec .calTimeout s = .next t ∧
    (∀ ch c, KMap.get s.cal.chans ch = some c → (c.st = .waitReturn ∨ c.st = .stabilising ∨ c.st = .measuring) →
      ∃ d, KMap.get t.cal.chans ch = some d ∧ d.st = .abandoned ∧ d.iters = c.iters) ∧
    changesOnly [.spares, .chans, .hk, .cal, .evt] s t) ∧
  (∀ (s : State) (ch : Fin 256) (gain off : Int) (c : StepCh), KMap.get s.cal.chans ch.val = some c → c.st = .signature →
    ∃ t, exec (.signatureSlotEnd ch gain off) s = .next t ∧
      KMap.get t.cal.chans ch.val = some { c with st := .converged, sigOk := true, sigG := gain, sigO := off } ∧
      changesOnly [.spares, .chans, .hk, .cal, .evt] s t)

/-- R233, R236-R238: a day start takes the daily charge of the tariff in force at its local midnight from the credit of every
enabled prepayment account that was charged up to the day before; the other accounts keep their credit. A schedule entry whose
instant has come becomes the one in force, and a change of band raises EV47; while a rebuilt schedule is awaited none does. The
rebuild writes the next changes of the calendar and takes what it says of the present time. -/
def Obligations.DayStartsAndSchedule : Prop :=
  (∀ s : State, (s.powered = false ∨ s.pp.frozen = true ∨ s.nvm.restored = false) → exec .dayStart s = .next s) ∧
  (∀ s : State, s.powered = true → s.pp.frozen = false → s.nvm.restored = true → ∃ t, exec .dayStart s = .next t ∧
    (∀ a, a ∈ s.enabledAccts → s.cfgB (oAccEnable a) = true → s.cfg (oPpMode a) = 1 →
      (KMap.get s.pp.credit a).chargeDay + 1 = (s.localDay s.now).toNat →
      (KMap.get t.pp.credit a).credit = (KMap.get s.pp.credit a).credit -
        BitVec.ofNat 64 (s.cfg (oTfDailyCharge (s.tariffAt a (s.midnight (s.localDay s.now).toNat)))) ∧
      (KMap.get t.pp.credit a).chargeDay = (s.localDay s.now).toNat ∧
      (KMap.get t.pp.credit a).residue = (KMap.get s.pp.credit a).residue) ∧
    (∀ a, (s.cfg (oPpMode a) ≠ 1 ∨ a ∉ s.enabledAccts) → KMap.get t.pp.credit a = KMap.get s.pp.credit a) ∧
    changesOnly [.pp, .nvm, .evt] s t) ∧
  (∀ (s : State) (e : SchedEntry) (rest : List SchedEntry), s.pp.sched = e :: rest → s.powered = true → s.pp.frozen = false →
    e.time ≤ s.now → ∃ t, exec .scheduleEntry s = .next t ∧ t.pp.sched = rest ∧
      (s.pp.now.same e = true → t = { s with pp := { s.pp with sched := rest } }) ∧
      (s.pp.now.same e = false → t.pp = { s.pp with sched := rest, prev := s.pp.now, now := e }) ∧
      (s.pp.now.same e = false → s.pp.now.time ≠ 0 → s.pp.now.band ≠ e.band → Raised 47 s t) ∧
      (s.pp.now.band = e.band → t.evt = s.evt) ∧ changesOnly [.pp, .evt] s t) ∧
  (∀ s : State, (s.pp.sched = [] ∨ s.powered = false ∨ s.pp.frozen = true ∨ (∀ e ∈ s.pp.sched.head?, s.now < e.time)) →
    exec .scheduleEntry s = .next s) ∧
  (∀ s : State, s.powered = true → s.isl.control = none → s.nvm.restored = true → ∃ t, exec .scheduleRebuild s = .next t ∧
    t.pp.sched = s.changes s.now ∧ t.pp.frozen = false ∧ t.pp.now.same (s.calendarAt s.now) = true ∧
    changesOnly [.pp, .nvm, .evt] s t) ∧
  (∀ s : State, (s.powered = false ∨ s.isl.control.isSome = true ∨ s.nvm.restored = false) →
    exec .scheduleRebuild s = .next s)

/-- R248: a credit transfer is checked in its order, and what the check of the MAC or of the counter refuses adds to the
account's count and raises EV43 with no effect on the credit; an accepted one adds its amount, keeps its counter and raises
EV42. The other accounts keep their credit. -/
def Obligations.CreditTransfer : Prop :=
  (∀ (s : State) (r : Req) (a : Fin 240) (b : Bytes), s.allows r (0x4100 + a.val) 0x10 b = true →
    (¬(fld b 0 8 = Config.serialNumber.toNat ∧ fld b 8 2 = a.val ∧ fld b 10 1 = 1 ∧ fld b 11 1 = 0 ∧ fld b 12 8 ≤ 10 ^ 15) →
      ∃ t, exec (.ppCreditTransfer r a b) s = .next t ∧ Delivered ((s.ownerWrote r.cls).answer stRange) t) ∧
    (fld b 0 8 = Config.serialNumber.toNat → fld b 8 2 = a.val → fld b 10 1 = 1 → fld b 11 1 = 0 → fld b 12 8 ≤ 10 ^ 15 →
      (∀ st, ((KMap.get s.pp.keys a.val = none ∧ st = stAuth) ∨
          (∃ k, KMap.get s.pp.keys a.val = some k ∧ cmac k (b.take 32) ≠ b.drop 32 ∧ st = stAuth) ∨
          (∃ k, KMap.get s.pp.keys a.val = some k ∧ cmac k (b.take 32) = b.drop 32 ∧ (KMap.get s.pp.credit a.val).gap = false ∧
            fld b 28 4 ≤ (KMap.get s.pp.credit a.val).xfer.toNat ∧ st = stStale)) →
        ∃ t, exec (.ppCreditTransfer r a b) s = .next t ∧ t.ans = { status := st } ∧ t.pp.credit = s.pp.credit ∧
          t.pp.acct = s.pp.acct.upd a.val (fun p => { p with authFails := sat (2 ^ 32 - 1) (p.authFails + 1) }) ∧
          Raised 43 s t ∧ changesOnly [.pp, .cal, .evt, .ports, .ans] s t) ∧
      (∀ k, KMap.get s.pp.keys a.val = some k → cmac k (b.take 32) = b.drop 32 → (KMap.get s.pp.credit a.val).gap = false →
        (KMap.get s.pp.credit a.val).xfer.toNat < fld b 28 4 → s.creditI a.val + fld b 12 8 ≤ 2 ^ 62 →
        ∃ t, exec (.ppCreditTransfer r a b) s = .next t ∧ t.ans = { status := stOk } ∧
          (KMap.get t.pp.credit a.val).credit = (KMap.get s.pp.credit a.val).credit + BitVec.ofNat 64 (fld b 12 8) ∧
          (KMap.get t.pp.credit a.val).xfer = BitVec.ofNat 32 (fld b 28 4) ∧
          (∀ x, x ≠ a.val → KMap.get t.pp.credit x = KMap.get s.pp.credit x) ∧
          KMap.get t.evt.pending 42 = true ∧ t.pp.keys = s.pp.keys ∧ changesOnly [.pp, .nvm, .cal, .evt, .ports, .ans] s t)))

/-- R250: KEY_DEVICE is written once; a plain write sets one account key; a wrapped key needs the device key, its integrity
check, a target between KEY_ACCOUNT[0] and KEY_ACCOUNT[239] and a counter above KEY_COUNTER, which it sets. No other state
changes but the answer. -/
def Obligations.KeysAreWritten : Prop :=
  (∀ (s : State) (r : Req) (b : Bytes), s.allows r 0x8200 1 b = true →
    ∃ t, exec (.keyDevice r b) s = .next t ∧
      (s.pp.keyDevice = none → Delivered (({ s.ownerWrote r.cls with pp := { s.pp with keyDevice := some b } }).answer stOk) t) ∧
      (s.pp.keyDevice.isSome = true → Delivered ((s.ownerWrote r.cls).answer stRange) t)) ∧
  (∀ (s : State) (r : Req) (a : Fin 240) (b : Bytes), s.allows r 0x8200 (a.val + 2) b = true →
    ∃ t, exec (.keyAccount r a b) s = .next t ∧
      Delivered (({ s.ownerWrote r.cls with pp := { s.pp with keys := s.pp.keys.set a.val (some b) } }).answer stOk) t) ∧
  (∀ (s : State) (r : Req) (b : Bytes), s.allows r 0x8200 0xF2 b = true →
    ((s.pp.keyDevice = none ∨ ∃ k, s.pp.keyDevice = some k ∧ kwUnwrap k b = none) →
      ∃ t, exec (.keyWrapped r b) s = .next t ∧ Delivered ((s.ownerWrote r.cls).answer stAuth) t) ∧
    (∀ k p, s.pp.keyDevice = some k → kwUnwrap k b = some p →
      ((fld p 16 4 < 2 ∨ 0xF1 < fld p 16 4) →
        ∃ t, exec (.keyWrapped r b) s = .next t ∧ Delivered ((s.ownerWrote r.cls).answer stRange) t) ∧
      (2 ≤ fld p 16 4 → fld p 16 4 ≤ 0xF1 → fld p 20 4 ≤ s.pp.keyCounter.toNat →
        ∃ t, exec (.keyWrapped r b) s = .next t ∧ Delivered ((s.ownerWrote r.cls).answer stStale) t) ∧
      (2 ≤ fld p 16 4 → fld p 16 4 ≤ 0xF1 → s.pp.keyCounter.toNat < fld p 20 4 →
        ∃ t, exec (.keyWrapped r b) s = .next t ∧ Delivered (({ s.ownerWrote r.cls with
          pp := { s.pp with keys := s.pp.keys.set (fld p 16 4 - 2) (some (p.take 16)),
                            keyCounter := BitVec.ofNat 32 (fld p 20 4) } }).answer stOk) t)))

/-- R240, R242, R251: PP_CREDIT sets an account's credit; emergency credit is granted on request to an account with option 2, a
credit below its low level and a limit, and lasts until the credit is positive again; an account that waits to be armed closes on
PP_RECONNECT_ARM; a host disconnect sets or clears the HOST source, and setting it queues the opening. -/
def Obligations.PrepaymentRequests : Prop :=
  (∀ (s : State) (r : Req) (a : Fin 240) (b : Bytes), s.allows r (0x4100 + a.val) 0x0C b = true → KMap.wf s.pp.credit = true →
    ∃ t, exec (.ppCredit r a b) s = .next t ∧ t.ans = { status := stOk } ∧
      (KMap.get t.pp.credit a.val).credit = BitVec.ofNat 64 (ofLe b) ∧
      (KMap.get t.pp.credit a.val).xfer = (KMap.get s.pp.credit a.val).xfer ∧
      (∀ x, x ≠ a.val → KMap.get t.pp.credit x = KMap.get s.pp.credit x) ∧
      changesOnly [.pp, .nvm, .cal, .evt, .ports, .ans] s t) ∧
  (∀ (s : State) (r : Req) (a : Fin 240) (b : Bytes), s.allows r (0x4100 + a.val) 0x12 b = true →
    ∃ t, exec (.ppEcRequest r a b) s = .next t ∧
      (ofLe b = 0 → Delivered ((s.ownerWrote r.cls).answer stOk) t) ∧
      (ofLe b ≠ 0 → (bits (s.cfg (oPpOptions a.val)) 5 4 ≠ 2 ∨ s.cfgI 8 (oPpLowLevel a.val) ≤ s.creditI a.val ∨
        (KMap.get s.pp.credit a.val).ec = true ∨ s.cfgI 8 (oPpEcLimit a.val) ≤ 0) →
        Delivered ((s.ownerWrote r.cls).answer stRange) t) ∧
      (ofLe b ≠ 0 → bits (s.cfg (oPpOptions a.val)) 5 4 = 2 → s.creditI a.val < s.cfgI 8 (oPpLowLevel a.val) →
        (KMap.get s.pp.credit a.val).ec = false → 0 < s.cfgI 8 (oPpEcLimit a.val) → KMap.wf s.pp.credit = true →
        s.cfg (oPpMode a.val) = 1 → t.ans = { status := stOk } ∧
        (KMap.get t.pp.credit a.val).ec = decide (s.creditI a.val ≤ 0) ∧
        (KMap.get t.pp.credit a.val).credit = (KMap.get s.pp.credit a.val).credit ∧
        changesOnly [.pp, .nvm, .cal, .evt, .ports, .ans] s t)) ∧
  (∀ (s : State) (r : Req) (a : Fin 240) (b : Bytes), s.allows r (0x4100 + a.val) 0x13 b = true →
    ∃ t, exec (.ppReconnectArm r a b) s = .next t ∧
      (ofLe b = 0 → Delivered ((s.ownerWrote r.cls).answer stOk) t) ∧
      (ofLe b ≠ 0 → s.ppState a.val ≠ 5 → Delivered ((s.ownerWrote r.cls).answer stRange) t) ∧
      (ofLe b ≠ 0 → s.ppState a.val = 5 → s.relaySlots a.val ≠ [] → a.val ∈ t.pp.relay.closeQ ∧ t.ans = { status := stOk } ∧
        t.pp.acct = s.pp.acct.upd a.val (fun p => { p with waitArm := false }) ∧
        t.pp.credit = s.pp.credit ∧ changesOnly [.pp, .cal, .evt, .ports, .ans] s t)) ∧
  (∀ (s : State) (r : Req) (a : Fin 240) (b : Bytes), s.allows r (0x4100 + a.val) 0x0B b = true →
    s.crossed r.cls (oPpHostDisconnect a.val) (ofLe b) = true → (s.storePut false (oPpHostDisconnect a.val) (ofLe b) 1).isSome = true →
    s.cfg (oPpHostDisconnect a.val) ≠ ofLe b → KMap.wf s.dict.active = true →
    ∃ t, exec (.ppHostDisconnect r a b) s = .next t ∧ t.ans = { status := stOk } ∧
      t.cfg (oPpHostDisconnect a.val) = ofLe b ∧ t.pp.credit = s.pp.credit ∧
      (ofLe b = 1 → a.val ∉ t.pp.relay.closeQ ∧ (s.relaySlots a.val ≠ [] → a.val ∈ t.pp.relay.openQ)) ∧
      (ofLe b = 0 → t.pp.relay.openQ = s.pp.relay.openQ))

/-- R245-R247: while the port sends frames, a scan between operations reads the contacts of the chain; a slot of an account absent
in two scans in a row goes to RLY_FAULT with EV44, a present slot that differs twice from its command is restored. A command frame
takes the next operation and latches its commands with EV45 or EV46 of its accounts; the release frame ends the coil pulse; the
capture compares: equal contacts end the operation, a different slot is tried again or goes to RLY_FAULT. Service clears fault bits. -/
def Obligations.RelayFrames : Prop :=
  (∀ (s : State) (p c : Bytes), (s.relayLive = false ∨ s.pp.relay.phase ≠ .idle) → exec (.relayScanFrame p c) s = .next s) ∧
  (∀ (s : State) (p c : Bytes), s.relayLive = true → s.pp.relay.phase = .idle → ∃ t, exec (.relayScanFrame p c) s = .next t ∧
    (∀ i, KMap.get t.pp.relay.present i = (decide (i < s.cfg oRlyChainLength) && imageBit p i)) ∧
    (∀ i, KMap.get t.pp.relay.closed i = (decide (i < s.cfg oRlyChainLength) && imageBit c i)) ∧
    t.pp.relay.scans = sat 2 (s.pp.relay.scans + 1) ∧ t.pp.relay.commanded = s.pp.relay.commanded ∧
    (∀ i, i < s.cfg oRlyChainLength → imageBit p i = false → (s.slotAcct i).isSome = true → s.pp.relay.absent.contains i = true →
      KMap.get s.pp.relay.fault i = false → KMap.get t.pp.relay.fault i = true ∧ KMap.get t.evt.pending 44 = true) ∧
    (∀ i, i < s.cfg oRlyChainLength → imageBit p i = true → imageBit c i ≠ KMap.get s.pp.relay.commanded i → s.slotBusy i = false →
      s.pp.relay.diff.contains i = true → (i, KMap.get s.pp.relay.commanded i) ∈ t.pp.relay.restoreQ) ∧
    changesOnly [.pp, .evt] s t) ∧
  (∀ s : State, (s.relayLive = false ∨ s.pp.relay.phase ≠ .idle ∨ s.pp.relay.scans < 2 ∨ s.nextOp = none) →
    exec .relayCommandFrame s = .next s) ∧
  (∀ (s : State) (o : RlyOp) (r : Relay) (again : Bool), s.relayLive = true → s.pp.relay.phase = .idle → 2 ≤ s.pp.relay.scans →
    s.pwr.bind = .none → s.nextOp = some (o, r, again) → ∃ t, exec .relayCommandFrame s = .next t ∧
      t.pp.relay = { r with
        op := some o, phase := .pulse
        commanded := o.slots.foldl (fun (m : KMap Bool) x => KMap.set m x.1 (!o.opens)) r.commanded
        lastClose := (if o.opens = true ∨ again = true then r.lastClose else some s.clock.clk) } ∧
      (again = true → t.evt = s.evt) ∧
      (again = false → ∀ a ∈ o.accts, KMap.get t.evt.pending (if o.opens then 45 else 46) = true ∧
        (o.opens = true → (KMap.get s.pp.acct a).srcOutage = true → (KMap.get t.pp.acct a).srcTamper = true)) ∧
      t.pp.credit = s.pp.credit ∧ changesOnly [.pp, .evt] s t) ∧
  (∀ s : State, s.relayLive = true → s.pp.relay.phase = .pulse →
    exec .relayReleaseFrame s = .next { s with pp := { s.pp with relay := { s.pp.relay with phase := .settle } } }) ∧
  (∀ s : State, (s.relayLive = false ∨ s.pp.relay.phase ≠ .pulse) → exec .relayReleaseFrame s = .next s) ∧
  (∀ (s : State) (p c : Bytes) (o : RlyOp), s.relayLive = true → s.pp.relay.phase = .settle → s.pp.relay.op = some o →
    s.pwr.bind = .none → ∃ t, exec (.relayCaptureFrame p c) s = .next t ∧
      t.pp.relay.phase = .idle ∧ t.pp.relay.op = none ∧ t.pp.relay.commanded = s.pp.relay.commanded ∧
      (∀ i, KMap.get t.pp.relay.closed i = (decide (i < s.cfg oRlyChainLength) && imageBit c i)) ∧
      ((∀ x ∈ o.slots, (decide (x.1 < s.cfg oRlyChainLength) && imageBit c x.1) = !o.opens) →
        t.pp.relay.retry = s.pp.relay.retry ∧ t.pp.relay.fault = s.pp.relay.fault ∧ t.evt = s.evt) ∧
      (∀ x ∈ o.slots, (decide (x.1 < s.cfg oRlyChainLength) && imageBit c x.1) = o.opens →
        (s.cfg oRlyRetries ≤ x.2 → KMap.get t.pp.relay.fault x.1 = true ∧ KMap.get t.evt.pending 44 = true) ∧
        (x.2 < s.cfg oRlyRetries → o.opens = true → (x.1, true, x.2 + 1) ∈ t.pp.relay.retry)) ∧
      changesOnly [.pp, .evt] s t) ∧
  (∀ (s : State) (p c : Bytes), (s.relayLive = false ∨ s.pp.relay.phase ≠ .settle) → exec (.relayCaptureFrame p c) s = .next s) ∧
  (∀ (s : State) (r : Req) (b : Bytes), s.allows r 0x2050 0x0B b = true → KMap.wf s.pp.relay.fault = true →
    ∃ t, exec (.rlyFaultClear r b) s = .next t ∧ t.ans = { status := stOk } ∧
      (∀ i, KMap.get t.pp.relay.fault i = (KMap.get s.pp.relay.fault i && !(setList (ofLe b) 256).contains i)) ∧
      t.pp = { s.pp with relay := { s.pp.relay with fault := t.pp.relay.fault } } ∧
      changesOnly [.pp, .cal, .evt, .ports, .ans] s t)

/-- R361-R366: a window of a watched clock that counts within its limits ends the clock's condemned run; one outside them is
condemned and waits as a flag of detector A; 1 ms of condemned windows is the loss of the clock, a flag of both detectors within
10 microseconds confirms an attack, which zeroizes. Either moves the main clock's reference to the RC oscillator with a stopped
clock tree, or the RTC to it with TIME_SUSPECT. The relock begins the restart; a crystal found clean releases the cast-on's wait; the
RTC goes back to its crystal. Clauses on a clock without flags waiting and without a restart due. -/
def Obligations.ClockMonitors : Prop :=
  (∀ (s : State) (c : Fin 2) (n a b : Nat), s.clkWatched c.val = false →
    exec (.detectorAWindow c n a b) s = .next s ∧ exec (.detectorBFlag c n a) s = .next s) ∧
  (∀ (s : State) (c : Fin 2) (n a b : Nat), s.clkWatched c.val = true → (s.clkMon c.val).pend = [] →
    (s.clkMon c.val).evA = none → (s.clkMon c.val).evB = none → s.tamper.restartDue = none →
    ((if c.val = 0 then 676 ≤ n ∧ n ≤ 860 else 29 ≤ n ∧ n ≤ 36) → exec (.detectorAWindow c n a b) s =
      .next (s.setClk c.val (fun m => { m with badSince := none, lost := false }))) ∧
    (¬(if c.val = 0 then 676 ≤ n ∧ n ≤ 860 else 29 ≤ n ∧ n ≤ 36) →
      (∀ since, since = (s.clkMon c.val).badSince.getD a → b < since + 1000000 → exec (.detectorAWindow c n a b) s =
        .next (s.setClk c.val (fun m => { m with win := some (a, b, n), badSince := some since, pend := [(0, b, n)] }))) ∧
      (∀ since, (s.clkMon c.val).badSince = some since → since + 1000000 ≤ b → (s.clkMon c.val).lost = false →
        ∃ t, exec (.detectorAWindow c n a b) s = .next t ∧ (t.clkMon c.val).lost = true ∧ t.tamper.mark = true ∧
          (c.val = 0 → t.tamper.mainOnRc = true ∧ t.tamper.needClean = true ∧ t.tamper.stopCause = 2 ∧
            (s.supplied = true → t.tamper.stopped = true)) ∧
          (c.val = 1 → t.tamper.rtcOnRc = true ∧ t.tamper.suspect = true ∧ t.tamper.stopped = s.tamper.stopped) ∧
          changesOnly [.evt, .tamper, .disp] s t))) ∧
  (∀ (s : State) (c : Fin 2) (at_ ph : Nat), s.clkWatched c.val = true → (s.clkMon c.val).pend = [] →
    (s.clkMon c.val).evA = none → (s.clkMon c.val).evB = none → s.tamper.restartDue = none →
    ((∀ w, (s.clkMon c.val).win = some w → at_ + 10000 < w.1 ∨ w.2.1 + 10000 < at_) →
      ∃ t, exec (.detectorBFlag c at_ ph) s = .next t ∧ (t.clkMon c.val).pend = [(1, at_, ph)] ∧
        (t.clkMon c.val).bAt = some at_ ∧ changesOnly [.tamper] s t) ∧
    (∀ w, (s.clkMon c.val).win = some w → w.1 ≤ at_ + 10000 → at_ ≤ w.2.1 + 10000 →
      ∃ t, exec (.detectorBFlag c at_ ph) s = .next t ∧ t.tamper.zeroized = true ∧ (s.powered = false ∨ c.val = 0 → t.pp.credit = []) ∧ t.pp.keyDevice = none ∧
        t.pp.keys = [] ∧ t.pp.keyCounter = 0 ∧ t.tamper.mark = true ∧
        (c.val = 0 → t.tamper.mainOnRc = true ∧ t.tamper.needClean = true ∧ (s.supplied = true → t.tamper.stopped = true)) ∧
        (c.val = 1 → t.tamper.rtcOnRc = true ∧ t.tamper.suspect = true ∧ (s.powered = true → s.pwr.onVbat = false →
          s.pwr.tripped = false → t.pwr.source = 5 ∧ t.pwr.nextCause = 5)))) ∧
  (∀ s : State, s.tamper.stopped = false → exec .pllRelock s = .next s) ∧
  (∀ s : State, s.tamper.stopped = true → s.supplied = true → ∃ t, exec .pllRelock s = .next t ∧ t.tamper.stopped = false ∧
    t.pwr.source = 5 ∧ t.pwr.nextCause = s.tamper.stopCause ∧ t.pwr.tripped = true ∧ t.tamper.needClean = s.tamper.needClean) ∧
  (∀ s : State, (s.tamper.needClean = false ∨ s.supplied = true) → exec .crystalClean s = .next s) ∧
  (∀ (s u : State), u = { s with tamper := { s.tamper with needClean := false, mainOnRc := false } } →
    s.tamper.needClean = true → s.supplied = false →
    (u.mayCastOn = false → exec .crystalClean s = .next u) ∧
    (u.mayCastOn = true → ∃ t, exec .crystalClean s = .next t ∧ t.pwr.mode = .castOn ∧ t.clock.castOn = s.clock.clk ∧
      t.isl.control = some s.clock.clk ∧ t.pp.credit = s.pp.credit)) ∧
  (∀ s : State, exec .rtcCrystalReturn s = .next { s with tamper := { s.tamper with rtcOnRc := false } })

/-- R367-R370, R372: glitch flags closer than 1 ms form one single glitch, which counts and asks for a verification; an
enclosure or magnetic input that is enabled changes only after its run of samples at the other condition, and becoming active is a
detection, which with a response set is logged; the once-a-second reading on VBAT within the span ends a run of readings
outside, and with VIN33 and a stopped sequencer it asks for the verification. -/
def Obligations.GlitchesAndInputs : Prop :=
  (∀ (s : State) (rail dir : Fin 2) (at_ : Nat), (s.pwr.onVbat = true ∨ s.pwr.tripped = true) →
    exec (.glitchFlag rail dir at_) s = .next s) ∧
  (∀ (s : State) (rail dir : Fin 2) (at_ x : Nat), s.pwr.onVbat = false → s.pwr.tripped = false →
    (KMap.get s.tamper.glitch rail.val).last = some x → at_ < x + 1000000 → exec (.glitchFlag rail dir at_) s =
      .next { s with tamper := { s.tamper with glitch := s.tamper.glitch.upd rail.val (fun g => { g with last := some at_ }) } }) ∧
  (∀ (s : State) (rail dir : Fin 2) (at_ : Nat), s.pwr.onVbat = false → s.pwr.tripped = false →
    (∀ x, (KMap.get s.tamper.glitch rail.val).last = some x → x + 1000000 ≤ at_) →
    ((at_ :: (KMap.get s.tamper.glitch rail.val).singles).filter
      (fun x => decide (at_ ≤ x + s.cfg oGlitchWindowMs * 1000000))).length < s.cfg oGlitchConfirmN →
    ∃ t, exec (.glitchFlag rail dir at_) s = .next t ∧
      (KMap.get t.tamper.glitch rail.val).n = ((KMap.get s.tamper.glitch rail.val).n + 1) % 2 ^ 32 ∧
      (KMap.get t.tamper.glitch rail.val).last = some at_ ∧ (s.powered = true → t.hk.pendTamper = some false) ∧
      changesOnly [.spares, .hk, .tamper] s t) ∧
  (∀ (s : State) (i : Fin 8) (h : Bool) (na : Nat), (bits (s.cfg (oTampInputCfg i.val)) 2 1 = 0 ∨
      (s.pwr.onVbat = true ∧ bit (s.cfg (oTampInputCfg i.val)) 4 = false)) → exec (.tampSample i h na) s = .next s) ∧
  (∀ (s : State) (i : Fin 8) (h : Bool) (na : Nat) (y : TampIn), bits (s.cfg (oTampInputCfg i.val)) 2 1 ≠ 0 →
    (s.pwr.onVbat = false ∨ bit (s.cfg (oTampInputCfg i.val)) 4 = true) →
    y = (KMap.get s.tamper.tamp i.val).sample (if bits (s.cfg (oTampInputCfg i.val)) 2 1 = 1
      then h == bit (s.cfg (oTampInputCfg i.val)) 3
      else decide (500 * (bits (s.cfg (oTampInputCfg i.val)) 11 8 + 1) < na)) (bits (s.cfg (oTampInputCfg i.val)) 23 16) →
    ((y.active = false ∨ (KMap.get s.tamper.tamp i.val).active = true) → exec (.tampSample i h na) s =
      .next { s with tamper := { s.tamper with tamp := s.tamper.tamp.set i.val y } }) ∧
    (y.active = true → (KMap.get s.tamper.tamp i.val).active = false → s.tamper.restartDue = none →
      bit (s.cfg (oTampResponse i.val)) 4 = false → bit (s.cfg (oTampResponse i.val)) 0 = true →
      s.tamper.buf.length < 64 → KMap.get s.tamper.holdoff (0x10 + i.val) = none →
      ∃ t e, exec (.tampSample i h na) s = .next t ∧ t.tamper.tamp = s.tamper.tamp.set i.val y ∧
        t.tamper.buf = s.tamper.buf ++ [e] ∧ e.source = 0x10 + i.val ∧ e.time = s.now ∧ e.lc = s.lc ∧
        (bit (s.cfg (oTampResponse i.val)) 2 = true → t.tamper.mark = true) ∧ changesOnly [.pp, .evt, .tamper, .disp] s t)) ∧
  (∀ (s : State) (i : Fin 4) (h : Bool), (bit (s.cfg oMagCfg) i.val = false ∨ s.pwr.onVbat = true) →
    exec (.magSample i h) s = .next s) ∧
  (∀ (s : State) (i : Fin 4) (h : Bool) (y : TampIn), bit (s.cfg oMagCfg) i.val = true → s.pwr.onVbat = false →
    y = (KMap.get s.tamper.mag i.val).sample (h == bit (s.cfg oMagCfg) (4 + i.val)) 3 →
    ((y.active = false ∨ (KMap.get s.tamper.mag i.val).active = true ∨ s.cfg (oTampResponse (8 + i.val)) = 0) →
      s.tamper.restartDue = none →
      exec (.magSample i h) s = .next { s with tamper := { s.tamper with mag := s.tamper.mag.set i.val y } })) ∧
  (∀ (s : State) (mc : Int), s.pwr.onVbat = true → s.tempOutside mc = false → s.tamper.tempAlarm = false →
    exec (.oscSensorReading mc) s = .next { s with cal := { s.cal with tOscAo := mc }, tamper := { s.tamper with tempRun := 0 } }) ∧
  (∀ (s : State) (mc : Int), s.pwr.onVbat = true → s.tempOutside mc = true → s.tamper.tempRun = 0 →
    exec (.oscSensorReading mc) s = .next { s with
      cal := { s.cal with tOscAo := mc }
      tamper := { s.tamper with tempRun := 1, tempIn := none } }) ∧
  (∀ (s : State) (mc : Int), s.pwr.onVbat = false → ∃ t, exec (.oscSensorReading mc) s = .next t ∧
    (s.powered = true ∧ s.cfgB oHkRun = false → t.hk.pendTamper = some true) ∧
    (s.powered = false ∨ s.cfgB oHkRun = true → t = s) ∧ changesOnly [.spares, .hk] s t)

/-- R380: a drain writes the oldest entry to the log, to ring SR5 and gives its event; R375: a release clears the TAMPER source of
accounts none of whose detections is active; R384-R386: an LC_COMMAND draws a new nonce each time, is refused in the order of its
checks, and an accepted one programs the cell of its target; KEY_RETURN is programmed once. -/
def Obligations.TamperLogAndLifeCycle : Prop :=
  (∀ s : State, (s.mayDrain = false ∨ s.tamper.buf = []) → exec .aoLogDrain s = .next s) ∧
  (∀ (s : State) (e : LogEntry) (rest : List LogEntry), s.mayDrain = true → s.tamper.buf = e :: rest → s.tamper.lostNow = 0 →
    ∃ t, exec .aoLogDrain s = .next t ∧ t.tamper.buf = rest ∧ t.tamper.lastEntry = e.bytes ∧
      (e.bytes ≠ s.tamper.lastSlot → s.scVal 1 < 4096 → t.tamper.lastSlot = e.bytes) ∧
      (e.evData.isSome = true → s.pwr.metering = true → KMap.get t.evt.pending e.event = true) ∧
      changesOnly [.nvm, .evt, .tamper] s t) ∧
  (∀ (s : State) (r : Req) (b : Bytes), s.allows r 0x8000 0x29 b = true →
    (((240 ≤ ofLe b ∧ ofLe b ≠ 0xFFFF) ∨ (ofLe b < 240 ∧ s.heldBy (ofLe b) = true) ∨
      (ofLe b = 0xFFFF ∧ ∃ a, a < 240 ∧ s.heldBy a = true)) →
      ∃ t, exec (.tamperRelease r b) s = .next t ∧ Delivered ((s.ownerWrote r.cls).answer stRange) t) ∧
    (∀ a, ofLe b = a → a < 240 → s.heldBy a = false → ∃ t, exec (.tamperRelease r b) s = .next t ∧
      t.ans = { status := stOk } ∧ (∀ x, x ≠ a → KMap.get t.pp.acct x = KMap.get s.pp.acct x) ∧
      (KMap.wf s.pp.acct = true → (KMap.get t.pp.acct a).srcTamper = false ∧
        (KMap.get t.pp.acct a).srcCredit = (KMap.get s.pp.acct a).srcCredit) ∧
      t.pp.credit = s.pp.credit ∧ changesOnly [.pp, .cal, .evt, .ports, .ans] s t)) ∧
  (∀ (s : State) (r : Req) (b : Bytes) (tgt : Nat), s.allows r 0x8100 2 b = true → tgt = fld b 8 1 → s.tamper.restartDue = none →
    ((s.lc = 5 ∨ (tgt ≠ s.lc + 1 ∧ tgt ≠ 5)) → ∃ t, exec (.lcCommand r b) s = .next t ∧ t.ans = { status := stLifecycle } ∧
      t.life = { s.life with nonce := s.life.nonce + 1 } ∧ changesOnly [.cal, .evt, .ports, .life, .ans] s t) ∧
    (s.lc ≠ 5 → (tgt = s.lc + 1 ∨ tgt = 5) → s.tamper.stopped = false →
      ((fld b 0 8 ≠ Config.serialNumber.toNat ∨ fld b 12 4 ≠ s.lcNonce ∨ fld b 9 3 ≠ 0) →
        ∃ t, exec (.lcCommand r b) s = .next t ∧ t.ans = { status := stRange } ∧
          t.life = { s.life with nonce := s.life.nonce + 1 } ∧ changesOnly [.cal, .evt, .ports, .life, .ans] s t) ∧
      (fld b 0 8 = Config.serialNumber.toNat → fld b 12 4 = s.lcNonce → fld b 9 3 = 0 →
        (tgt = 4 → s.tagBad b = false) → (tgt = 3 → s.life.keyReturn.isSome = true ∧ s.cal.owner = none) →
        ∃ t, exec (.lcCommand r b) s = .next t ∧ t.ans = { status := stOk } ∧
          t.life.cells = s.life.cells.set (tgt - 1) 3 ∧ t.life.nonce = s.life.nonce + 1 ∧
          t.life.due = some (s.lc, tgt, 2) ∧ t.life.keyReturn = s.life.keyReturn ∧
          t.pp.keyDevice = none ∧ t.pp.keys = [] ∧ t.tamper.restartDue = none ∧
          t.pwr.source = 5 ∧ t.pwr.nextCause = 4))) ∧
  (∀ (s : State) (r : Req) (b : Bytes), s.allows r 0x8100 4 b = true → ∃ t, exec (.keyReturn r b) s = .next t ∧
    (s.life.keyReturn.isSome = true → Delivered ((s.ownerWrote r.cls).answer stRange) t) ∧
    (s.life.keyReturn = none →
      Delivered (({ s.ownerWrote r.cls with life := { s.life with keyReturn := some b } }).answer stOk) t))

/-- R13, R450, R430, R433, R334, R405, R149: a kick is noted; an expiry of the watchdog restarts the control island with EV62, and
a second within 600 s the device; a restart of the control, port, NVM or display island begins it with EV58 and its own losses, and
its end brings the island back. Unpowered islands do not restart. The clauses on the control island are those outside a trial. -/
def Obligations.IslandsRestart : Prop :=
  (∀ (s : State) (r : Req) (b : Bytes), s.allows r 0xF000 2 b = true → ∃ t, exec (.watchdogKick r b) s = .next t ∧
    Delivered (({ s.ownerWrote r.cls with isl := { s.isl with kick := s.clock.clk } }).answer stOk) t) ∧
  (∀ s : State, s.controlAway = true → exec .watchdogExpiry s = .next s) ∧
  (∀ s : State, s.controlAway = false → s.upd.st ≠ .trial →
    (∀ c, s.isl.dogAt = some c → c + 600 * 1000 * clkMs ≤ s.clock.clk) → ∃ t, exec .watchdogExpiry s = .next t ∧
      t.isl = { s.isl with control := some s.clock.clk, cause := 2, dogs := s.isl.dogs + 1, dogAt := some s.clock.clk } ∧
      KMap.get t.evt.pending 62 = true ∧ KMap.get t.evt.pending 58 = true ∧ t.dict.owner = none ∧ t.cal.owner = none ∧
      changesOnly [.dict, .spares, .chans, .hk, .cal, .evt, .isl] s t) ∧
  (∀ (s : State) (c : Nat), s.controlAway = false → s.upd.st ≠ .trial → s.isl.dogAt = some c →
    s.clock.clk < c + 600 * 1000 * clkMs → ∃ t, exec .watchdogExpiry s = .next t ∧
      t.isl = { s.isl with dogs := s.isl.dogs + 1, dogAt := none } ∧ t.pwr.source = 5 ∧ t.pwr.nextCause = 3 ∧
      t.pwr.tripped = true) ∧
  (∀ (s : State) (cause : Fin 5), s.powered = false → exec (.controlIslandRestart cause) s = .next s ∧
    exec (.portIslandRestart cause) s = .next s ∧ exec (.nvmIslandRestart cause) s = .next s ∧
    exec (.displayIslandRestart cause) s = .next s) ∧
  (∀ (s : State) (cause : Fin 5), s.powered = true →
    (s.upd.st ≠ .trial → ∃ t, exec (.controlIslandRestart cause) s = .next t ∧
      t.isl = { s.isl with control := some s.clock.clk, cause := cause.val } ∧ KMap.get t.evt.pending 58 = true ∧
      t.dict.owner = none ∧ t.cal.owner = none ∧ changesOnly [.dict, .spares, .chans, .hk, .cal, .evt, .isl] s t) ∧
    (∃ t, exec (.portIslandRestart cause) s = .next t ∧ Raised 58 s t ∧ t.ports.restartAt = some s.clock.clk ∧
      t.ports.fWait = s.ports.fWait ∧
      t.pp = { s.pp with relay := { s.pp.relay with phase := .idle } } ∧ changesOnly [.pp, .evt, .ports] s t) ∧
    (∃ t, exec (.nvmIslandRestart cause) s = .next t ∧ Raised 58 s t ∧
      t.nvm = { s.nvm with restartAt := some s.clock.clk, jOff := 256 } ∧ changesOnly [.nvm, .evt] s t) ∧
    (∃ t, exec (.displayIslandRestart cause) s = .next t ∧ KMap.get t.evt.pending 58 = true ∧
      t.disp.restartAt = some s.clock.clk ∧ t.disp.pendClear = true ∧ t.disp.pumps = false ∧ t.disp.image = s.disp.image ∧
      changesOnly [.evt, .disp] s t)) ∧
  (∀ (s : State) (ok keep : Bool), (s.powered = false ∨ s.isl.control = none ∨ s.isl.cause = 5) →
    exec (.controlRestartDone ok keep) s = .next s) ∧
  (∀ (s : State) (ok keep : Bool), s.powered = true → s.isl.control.isSome = true → s.isl.cause ≠ 5 →
    s.upd.restarting = false → s.upd.backRestart = false → s.upd.st ≠ .trial →
    (ok = false → exec (.controlRestartDone ok keep) s = .next s) ∧
    (ok = true → ∃ t, exec (.controlRestartDone ok keep) s = .next t ∧
      t.isl = { s.isl with control := none, served := true, kick := s.clock.clk } ∧ changesOnly [.eng, .evt, .isl] s t)) ∧
  (∀ s : State, exec .portRestartDone s = .next { s with ports := { s.ports with restartAt := none } }) ∧
  (∀ s : State, s.disp.restartAt = none → exec .displayRestartDone s = .next s) ∧
  (∀ s : State, s.disp.restartAt.isSome = true → ∃ t, exec .displayRestartDone s = .next t ∧ t.disp.restartAt = none ∧
    (s.clearable = false → t = { s with disp := { s.disp with restartAt := none, pendClear := true, st := .waiting } }) ∧
    changesOnly [.evt, .disp] s t)

/-- R354, R393, R404, R13: the commands of POWER_COMMAND, executed at once and past Table 2.4, are answered OK; a bind-off ends an
open session and hold and begins with one more boundary of every running group, and one that runs already stays; the restarts
begin those of their islands. The rails that have discharged leave the display off; a power-off discharge ends with EV55, and in a bind-off the
islands are gated with source COMMAND. -/
def Obligations.PowerCommands : Prop :=
  (∀ (s : State) (r : Req) (c : Instr) (restart : Bool) (n : Fin 256),
    (c = .bindOffRest r ∧ restart = false ∧ n = 1 ∨ c = .bindOffRestart r ∧ restart = true ∧ n = 2) →
    s.allows r 0xE000 2 [BitVec.ofFin n] = true →
    (s.pwr.bind ≠ .none → ∃ t, exec c s = .next t ∧ Delivered ((s.ownerWrote r.cls).answer stOk) t) ∧
    (s.pwr.bind = .none → ∃ t, exec c s = .next t ∧ t.ans = { status := stOk } ∧ t.pwr.mode = .bindOff ∧
      t.pwr.bindRestart = restart ∧ t.pwr.bind ≠ .none ∧ t.cal.owner = none ∧ t.cal.running = false ∧ t.dict.owner = none ∧
      ((List.range 4).any (fun g => (s.groups.get g).running) = true → t.pwr.bind = .boundaries ∧
        t.pwr.bindGroups = (List.range 4).filter (fun g => (s.groups.get g).running) ∧ t.eng = s.eng ∧ t.nvm = s.nvm) ∧
      changesOnly [.dict, .eng, .cal, .nvm, .pwr, .evt, .ports, .disp, .ans] s t)) ∧
  (∀ (s : State) (r : Req), s.allows r 0xE000 2 [3] = true → s.upd.st ≠ .trial → ∃ t, exec (.restartControl r) s = .next t ∧
    t.ans = { status := stOk } ∧ t.isl = { s.isl with control := some s.clock.clk, cause := 1 } ∧
    KMap.get t.evt.pending 58 = true ∧ t.dict.owner = none ∧ t.cal.owner = none ∧
    changesOnly [.dict, .spares, .chans, .hk, .cal, .evt, .ports, .isl, .ans] s t) ∧
  (∀ (s : State) (r : Req), s.allows r 0xE000 2 [4] = true → ∃ t, exec (.restartPort r) s = .next t ∧
    t.ans = { status := stOk } ∧ t.ports.restartAt = some s.clock.clk ∧ KMap.get t.evt.pending 58 = true ∧
    t.pp = { s.pp with relay := { s.pp.relay with phase := .idle } } ∧ changesOnly [.pp, .cal, .evt, .ports, .ans] s t) ∧
  (∀ (s : State) (r : Req), s.allows r 0xE000 2 [5] = true → ∃ t, exec (.restartDisplay r) s = .next t ∧
    t.ans = { status := stOk } ∧ t.disp.restartAt = some s.clock.clk ∧ t.disp.pendClear = true ∧ t.disp.pumps = false ∧
    KMap.get t.evt.pending 58 = true ∧ changesOnly [.cal, .evt, .ports, .disp, .ans] s t) ∧
  (∀ s : State, s.disp.falling = false → exec .railDischargeDone s = .next s) ∧
  (∀ s : State, s.disp.falling = true → (s.disp.work ≠ .discharge ∨ s.disp.offStep ≠ 3) → exec .railDischargeDone s = .next { s with
    disp := { s.disp with
      falling := false
      st := (if s.disp.st = .abandoned ∨ s.disp.st = .hold then .off else s.disp.st) } }) ∧
  (∀ s : State, s.disp.falling = true → s.disp.work = .discharge → s.disp.offStep = 3 → ∃ t, exec .railDischargeDone s = .next t ∧
    t.disp = { s.disp with falling := false, st := .off, work := .none, offStep := 0 } ∧ Raised 55 s t ∧
    (s.pwr.bind ≠ .display → changesOnly [.evt, .disp] s t) ∧
    (s.pwr.bind = .display → t.pwr.bind = .off ∧ t.pwr.source = 4 ∧ t.pwr.pfdTime = s.now ∧ t.pwr.lastPfd = s.now ∧
      t.pwr.mode = (if s.pwr.bindRestart then .backup else .rest) ∧ t.pwr.nextCause = (if s.pwr.bindRestart then 6 else 7) ∧
      t.pwr.good = false ∧ changesOnly [.ftrip, .acc, .nvm, .pwr, .evt, .disp] s t))

/-- R319, R310, R317, R320, R323, R324, R333: a save leaves no group dirty and a newest mark that names the groups that were; a page
that fails twice is marked bad with EV23 and is never taken off; a compaction keeps every live record's value; a refresh counts the
pages that it reprograms with EV22; the daily check reports the wear once a day; a software counter steps by one. -/
def Obligations.NonVolatileStore : Prop :=
  (∀ s : State, s.mayNvm = false → exec .periodicSave s = .next s) ∧
  (∀ s : State, s.mayNvm = true → ∃ t, exec .periodicSave s = .next t ∧ t.nvm.dirty = [] ∧ t.nvm.dirtyC = [] ∧
    t.nvm.kept.marks.head?.map (fun m => (m.time, m.groups)) = some (s.now, trueKeys s.nvm.dirty) ∧ changesOnly [.nvm] s t) ∧
  (∀ (s : State) (r : Req) (b : Bytes), s.allows r 0xC000 0x22 b = true → ∃ t, exec (.saveRequest r b) s = .next t ∧
    t.ans = { status := stOk } ∧
    (ofLe b = 1 → s.mayNvm = true → t.nvm.dirty = [] ∧
      t.nvm.kept.marks.head?.map (fun m => (m.time, m.groups)) = some (s.now, trueKeys s.nvm.dirty)) ∧
    ((ofLe b ≠ 1 ∨ s.mayNvm = false) → Delivered ((s.ownerWrote r.cls).answer stOk) t) ∧
    changesOnly [.cal, .nvm, .evt, .ports, .ans] s t) ∧
  (∀ (s : State) (p : Nat) (m1 m2 : Bool), (m1 = true ∨ 16384 ≤ p ∨ s.powered = false) →
    exec (.nvmProgramDone p m1 m2) s = .next s) ∧
  (∀ (s : State) (p : Nat) (m2 : Bool), p < 16384 → s.powered = true → ∃ t, exec (.nvmProgramDone p false m2) s = .next t ∧
    ((m2 = true ∨ s.nvm.bad.contains p = true) →
      t = { s with nvm := { s.nvm with programs := s.nvm.programs.upd (p % 8) (· + 1) } }) ∧
    (m2 = false → s.nvm.bad.contains p = false → t.nvm.bad = s.nvm.bad ++ [p] ∧ KMap.get t.nvm.progFail (p % 8) = true ∧
      KMap.get t.evt.pending 23 = true) ∧
    (∀ q ∈ s.nvm.bad, q ∈ t.nvm.bad) ∧ changesOnly [.dict, .nvm, .evt, .upd] s t) ∧
  (∀ (s : State) (cal : Bool) (st : Store), st = (if cal then s.nvm.cal else s.nvm.cfg) → KMap.wf st.recs = true →
    ∃ t st', exec (.storeCompaction cal) s = .next t ∧ st' = (if cal then t.nvm.cal else t.nvm.cfg) ∧
      t.nvm = (if cal then { s.nvm with cal := st' } else { s.nvm with cfg := st' }) ∧
      (∀ k r, KMap.get st.recs k = some r → ∃ r', KMap.get st'.recs k = some r' ∧ r'.val = r.val ∧ r'.len = r.len) ∧
      changesOnly [.nvm] s t) ∧
  (∀ s : State, (s.powered = false ∨ s.nvm.jHead + 640 ≤ s.nvm.jTail + 4096) → exec .journalCompaction s = .next s) ∧
  (∀ s : State, s.powered = true → s.nvm.jTail + 4096 < s.nvm.jHead + 640 → ∃ t, exec .journalCompaction s = .next t ∧
    t.nvm.jTail = s.nvm.jTail + 1 ∧ t.nvm.kept = s.nvm.kept ∧ t.nvm.bad = s.nvm.bad ∧ changesOnly [.nvm] s t) ∧
  (∀ (s : State) (weak bad : List Nat), s.powered = false → exec (.refreshPass weak bad) s = .next s) ∧
  (∀ (s : State) (weak : List Nat), s.powered = true → ∃ t, exec (.refreshPass weak []) s = .next t ∧
    t.nvm.refreshed = s.nvm.refreshed + ((weak.map (fun a => a / 256)).eraseDups).length ∧ t.nvm.mem = s.nvm.mem ∧
    (weak ≠ [] → Raised 22 s t) ∧ (weak = [] → t = s) ∧ changesOnly [.nvm, .evt] s t) ∧
  (∀ (s : State) (a : Nat), s.powered = true → (a / 256 < 10240 ∨ 11776 ≤ a / 256) → ∃ t, exec (.refreshPass [] [a]) s = .next t ∧
    t.nvm = { s.nvm with lastError := s.errorRecord 2 0xFF a 0x11 0 0xFF } ∧ Raised 17 s t ∧ changesOnly [.nvm, .evt] s t) ∧
  (∀ s : State, s.powered = false → exec .nvmLifeCheck s = .next s) ∧
  (∀ s : State, s.powered = true → ∃ t, exec .nvmLifeCheck s = .next t ∧
    (s.lifeMonths < 12 * s.cfg oNvmWearYears → s.nvm.lifeDay ≠ some (dayOf s.now) → Raised 23 s t ∧
      t.nvm = { s.nvm with lifeDay := some (dayOf s.now), perDay := (0 :: s.nvm.perDay).take 30 }) ∧
    ((12 * s.cfg oNvmWearYears ≤ s.lifeMonths ∨ s.nvm.lifeDay = some (dayOf s.now)) →
      t = { s with nvm := { s.nvm with perDay := (0 :: s.nvm.perDay).take 30 } }) ∧ changesOnly [.nvm, .evt] s t) ∧
  (∀ (s : State) (r : Req) (b : Bytes), s.allows r 0xC000 0x2D b = true → ∃ t, exec (.spreadInc r b) s = .next t ∧
    (16 ≤ ofLe b → ofLe b ≤ 63 → t.ans = { status := stOk } ∧
      (∀ k, KMap.get t.nvm.sc k = KMap.get s.nvm.sc k + (if k = ofLe b then 1 else 0)) ∧
      changesOnly [.cal, .nvm, .evt, .ports, .ans] s t))

/-- R281, R290, R291, R286, R301-R304: the scrubber counts a corrected word of main SRAM for its bank and row, skips a poisoned
word, and poisons one with more than two bits in error with EV17; a recovered line ends its recovery with EV3; a row test that fails
counts a failed row with EV19, and its run goes on; a preserving march is begun once, answered BUSY_RETRY while one runs, a destructive
one restarts the device; a run ends with EV63. -/
def Obligations.MemoryTests : Prop :=
  (∀ (s : State) (a errs pos : Nat), ((0x400000 ≤ a / 8 * 8 ∧ a / 8 * 8 < 2 ^ 31) ∨ KMap.get s.mem.poison (a / 8 * 8) = true) →
    exec (.scrubWord a errs pos) s = .next s) ∧
  (∀ (s : State) (a errs pos : Nat), a < 0x400000 → KMap.get s.mem.poison (a / 8 * 8) = false → KMap.wf s.mem.banks = true →
    (errs = 0 → ∃ t, exec (.scrubWord a errs pos) s = .next t ∧
      (KMap.get t.mem.banks (bankOf a)).corrected = (KMap.get s.mem.banks (bankOf a)).corrected ∧ changesOnly [.mem] s t) ∧
    (errs = 1 ∨ errs = 2 → ∃ t, exec (.scrubWord a errs pos) s = .next t ∧
      (KMap.get t.mem.banks (bankOf a)).corrected = ((KMap.get s.mem.banks (bankOf a)).corrected + 1) % 2 ^ 32 ∧
      t.mem.lastError = s.errorRecord 1 0xFF (a / 8 * 8) (bankOf a) errs pos ∧ t.mem.poison = s.mem.poison ∧
      changesOnly [.evt, .mem] s t) ∧
    (2 < errs → ∃ t, exec (.scrubWord a errs pos) s = .next t ∧
      t.mem.uncorrectable = sat (2 ^ 32 - 1) (s.mem.uncorrectable + 1) ∧ t.mem.scrubQ.contains (bankOf a, rowOf a) = true ∧
      (keepsPoison (a / 8 * 8) = true → KMap.get t.mem.poison (a / 8 * 8) = true) ∧
      ((KMap.get s.mem.banks (bankOf a)).ev17At ≠ secOf s.now → KMap.get t.evt.pending 17 = true) ∧
      changesOnly [.chans, .eng, .evt, .mem] s t)) ∧
  (∀ (s : State) (n : Nat), (∀ x ∈ s.mem.recovering, x.1 ≠ n) → exec (.lineRecovery n) s = .next s) ∧
  (∀ (s : State) (n : Nat), (∃ x ∈ s.mem.recovering, x.1 = n) → ∃ t, exec (.lineRecovery n) s = .next t ∧
    (∀ x, x ∈ t.mem.recovering ↔ x ∈ s.mem.recovering ∧ x.1 ≠ n) ∧
    (s.lineKept n = true → t.acc = { s.acc with lines := s.acc.lines.set n (KMap.get s.nvm.kept.lines n) }) ∧
    KMap.get t.nvm.sc 7 = KMap.get s.nvm.sc 7 + 1 ∧ KMap.get t.evt.pending 3 = true ∧
    changesOnly [.acc, .nvm, .pwr, .evt, .mem] s t) ∧
  (∀ (s : State) (k : Fin 16) (row n : Nat), (s.marchSource = 0 ∨ (KMap.get s.mem.banks k.val).transitFailed = true ∨ 272 < row) →
    exec (.rowTest k row n) s = .next s) ∧
  (∀ (s : State) (k : Fin 16) (row : Nat), s.marchSource = 3 → (KMap.get s.mem.banks k.val).transitFailed = false → row ≤ 272 →
    exec (.rowTest k row 0) s = .next { s with
      mem := { s.mem with scrubQ := s.mem.scrubQ.filter (fun x => x ≠ (k.val, row)) } }) ∧
  (∀ (s : State) (k : Fin 16) (row n : Nat), s.marchSource = 1 → (KMap.get s.mem.banks k.val).transitFailed = false → row < 256 →
    0 < n → (KMap.get s.mem.banks k.val).physical row = row → ∃ t m, exec (.rowTest k row n) s = .next t ∧
      s.mem.request = some m ∧ t.mem.request = some { m with failed := m.failed + 1 } ∧
      t.mem.rowsFailed = sat 255 (s.mem.rowsFailed + 1) ∧ KMap.get t.evt.pending 19 = true ∧
      (∀ e, (KMap.get s.mem.banks k.val).freeSpare = some e →
        KMap.get (KMap.get t.mem.banks k.val).spares e = .serves row ∧ KMap.get t.evt.pending 20 = true) ∧
      ((KMap.get s.mem.banks k.val).freeSpare = none → (KMap.get t.mem.banks k.val).exhausted = true) ∧
      changesOnly [.dict, .nvm, .evt, .mem] s t) ∧
  (∀ (s : State) (r : Req) (b : Bytes) (c : Instr), (c = .marchPreserving r b ∨ c = .marchDestructive r b) →
    s.allows r 0xC000 0x1A b = true →
    (bits (ofLe b) 15 0 ≠ 0 → bit (ofLe b) 20 = false → ∃ t, exec c s = .next t ∧
      (∀ m, s.mem.request = some m → Delivered ((s.ownerWrote r.cls).answerRetry stBusy (s.marchLeft m)) t) ∧
      (s.mem.request = none → Delivered (({ s.ownerWrote r.cls with mem := { s.mem with request := some {
        banks := bits (ofLe b) 15 0, alg := bits (ofLe b) 17 16, bg := bits (ofLe b) 19 18, failed := 0,
        pending := bits (ofLe b) 15 0 } } }).answer stOk) t)) ∧
    (bits (ofLe b) 15 0 ≠ 0 → bit (ofLe b) 20 = true → ∃ t, exec c s = .next t ∧ t.ans = { status := stOk } ∧
      t.mem.destructive = some (ofLe b) ∧ t.pwr.source = 5 ∧ t.pwr.nextCause = 2 ∧ t.pwr.tripped = true)) ∧
  (∀ s : State, (s.cfg oMarchPeriodicH = 0 ∨ s.mem.periodic.isSome = true) → exec .marchPeriodic s = .next s) ∧
  (∀ s : State, s.cfg oMarchPeriodicH ≠ 0 → s.mem.periodic = none → exec .marchPeriodic s = .next { s with
    mem := { s.mem with periodic := some {
      banks := 0xFFFF, alg := bits (s.cfg oMarchStartup) 17 16, bg := bits (s.cfg oMarchStartup) 19 18, failed := 0,
      pending := 0xFFFF } } }) ∧
  (∀ s : State, s.mem.request = none → s.mem.periodic = none → exec .marchRunDone s = .next s) ∧
  (∀ s : State, (s.mem.request.isSome = true ∨ s.mem.periodic.isSome = true) → ∃ t, exec .marchRunDone s = .next t ∧
    Raised 63 s t ∧ t.mem = (if s.mem.request.isSome then { s.mem with request := none } else { s.mem with periodic := none }) ∧
    changesOnly [.evt, .mem] s t)

/-- R412-R417: a transaction of the H-port, ended by HCS_N or by its timeout alike. A frame too short, or one with a wrong CRC, is
counted and executes nothing; a sound ring command that repeats none enters SR0 with its bytes and is noted as accepted, and
executes nothing yet; with too little room it is refused BUSY_RETRY and counted, and SR0 stays; a repeat whose command
still waits is counted alone. A port that does not serve, outside the emergency order, takes nothing. -/
def Obligations.HportTransactions : Prop :=
  (∀ (s : State) (f : Bytes), exec (.hcsTimeout f) s = exec (.hportTransaction f) s) ∧
  (∀ (s : State) (f : Bytes), s.portServes 0 = false → s.emergencyPort = false → exec (.hportTransaction f) s = .next s) ∧
  (∀ (s : State) (f : Bytes), s.portServes 0 = true → KMap.wf s.ports.p = true →
    (f.length < 8 ∨ (inlineOp (fld f 0 1) = false ∧ (f.length ≠ 10 + fld f 4 2 ∨
      crc16 (f.take (8 + fld f 4 2)) ≠ fld f (8 + fld f 4 2) 2))) →
    ∃ t, exec (.hportTransaction f) s = .next t ∧ t.ans = { status := stCrc } ∧
      (KMap.get t.ports.p 0).crcErrors = (KMap.get s.ports.p 0).crcErrors + 1 ∧ (KMap.get t.ports.p 0).lastResult = 2 ∧
      ((KMap.get s.ports.p 0).lastEv50 = none → Raised 50 s t) ∧ (KMap.get t.evt.rings 0) = (KMap.get s.evt.rings 0) ∧
      (KMap.get t.ports.p 0).rep = (KMap.get s.ports.p 0).rep ∧ changesOnly [.evt, .ports, .ans] s t) ∧
  (∀ (s : State) (f : Bytes) (n : Nat), s.portServes 0 = true → KMap.wf s.ports.p = true → n = fld f 4 2 →
    ringOp (fld f 0 1) = true → f.length = 10 + n → n ≤ 4096 → (fld f 0 1 = 2 ∨ n = 0) → crc16 (f.take (8 + n)) = fld f (8 + n) 2 →
    ((∀ x ∈ (KMap.get s.ports.p 0).rep, x.tag ≠ fld f 6 2 ∨ x.crc ≠ fld f (8 + n) 2) →
      ((8 + n + 63) / 64 ≤ s.ringFree 0 → ∃ t e, exec (.hportTransaction f) s = .next t ∧
        (KMap.get t.evt.rings 0).entries = (KMap.get s.evt.rings 0).entries ++ [e] ∧
        (KMap.get t.evt.rings 0).seq = (KMap.get s.evt.rings 0).seq + 1 ∧ e.seq = (KMap.get s.evt.rings 0).seq + 1 ∧
        e.data = f.take (8 + n) ∧ e.port = 0 ∧ e.bcast = false ∧ e.bad = false ∧
        (KMap.get t.ports.p 0).accepted = (KMap.get s.ports.p 0).accepted + 1 ∧ (KMap.get t.ports.p 0).lastResult = 1 ∧
        (KMap.get t.ports.p 0).lastTag = fld f 6 2 ∧
        (∃ x, (KMap.get t.ports.p 0).rep.head? = some x ∧ x.tag = fld f 6 2 ∧ x.crc = fld f (8 + n) 2 ∧ x.resp = none) ∧
        t.evt.pending = s.evt.pending ∧ changesOnly [.evt, .ports] s t) ∧
      (s.ringFree 0 < (8 + n + 63) / 64 → ∃ t, exec (.hportTransaction f) s = .next t ∧
        t.ans = { status := stBusy, retry := s.ringRetry 0 } ∧ (KMap.get t.evt.rings 0).entries = (KMap.get s.evt.rings 0).entries ∧
        (KMap.get t.ports.p 0).busy = (KMap.get s.ports.p 0).busy + 1 ∧ (KMap.get t.ports.p 0).lastResult = 2 ∧
        (KMap.get t.ports.p 0).lastRetry = s.ringRetry 0 ∧
        ((KMap.get s.evt.rings 0).refused = false → Raised 48 s t) ∧ changesOnly [.evt, .ports, .ans] s t)) ∧
    (∀ x, (KMap.get s.ports.p 0).rep.find? (fun x => decide (x.tag = fld f 6 2) && decide (x.crc = fld f (8 + n) 2)) = some x →
      x.resp = none → ∃ t, exec (.hportTransaction f) s = .next t ∧
        (KMap.get t.ports.p 0).repeats = (KMap.get s.ports.p 0).repeats + 1 ∧ (KMap.get t.ports.p 0).lastResult = 3 ∧
        (KMap.get t.ports.p 0).rep = (KMap.get s.ports.p 0).rep ∧ changesOnly [.ports] s t))

/-- R419, R420, R441, R442: GET_RESPONSE answers with the oldest response of SR1 and releases it when it was delivered whole;
RING_READ returns the next whole entries of a class's position and moves no position; RING_ACK frees what the class had to
acknowledge up to the number and moves its position past it, and only to a number it has read; a response that expires is released
and counted. Clauses on a state without waiting port objects. -/
def Obligations.RingsAreReadAndAcknowledged : Prop :=
  (∀ (s : State) (d : Bool), s.portServes 0 = false → s.emergencyPort = false → exec (.getResponse d) s = .next s) ∧
  (∀ (s : State) (d : Bool), (s.portServes 0 = true ∨ s.emergencyPort = true) → s.ports.fWait = [] →
    ((KMap.get s.evt.rings 1).entries = [] → exec (.getResponse d) s = .next { s with ans := { status := stOk } }) ∧
    (∀ e rest, (KMap.get s.evt.rings 1).entries = e :: rest → exec (.getResponse d) s = .next (if d = true
      then { s with
        ans := { status := fld e.data 1 1, payload := e.data.drop 8, retry := fld e.data 6 2 }
        evt := { s.evt with rings := s.evt.rings.upd 1 (fun r => { r with entries := rest }) } }
      else { s with ans := { status := fld e.data 1 1, payload := e.data.drop 8, retry := fld e.data 6 2 } }))) ∧
  (∀ (s : State) (r : Req) (ring n : Nat) (q : W32), (r.cls = .c ∨ r.bcast = true) →
    exec (.ringRead r ring n) s = .next s ∧ exec (.ringAck r ring q) s = .next s) ∧
  (∀ (s : State) (r : Req) (ring n : Nat) (q : W32), r.cls ≠ .c → r.bcast = false → s.portServes (portOf r.cls) = true →
    ((ring < 4 ∨ 7 < ring) → exec (.ringRead r ring n) s = .next (s.answer stRange) ∧
      exec (.ringAck r ring q) s = .next (s.answer stRange)) ∧
    (ring = 7 → exec (.ringRead r ring n) s = .next (s.answerData stOk []) ∧
      exec (.ringAck r ring q) s = .next (s.answer stOk)) ∧
    (4 ≤ ring → ring ≤ 6 → ∃ t out, exec (.ringRead r ring n) s = .next t ∧
      t.ans = { status := stOk, payload := out.flatMap (fun e => e.data) } ∧ (out.flatMap (fun e => e.data)).length ≤ 4096 ∧
      (n ≠ 0 → out.length ≤ n) ∧
      out <+: (KMap.get s.evt.rings ring).entries.filter (fun e =>
        decide (KMap.get (KMap.get s.evt.rings ring).pos (clsNo r.cls) = 0) ||
          upTo (BitVec.ofNat 32 (KMap.get (KMap.get s.evt.rings ring).pos (clsNo r.cls) - 1)) e.seq) ∧
      t.evt.pending = s.evt.pending ∧
      t.evt.rings = (match out.getLast? with
        | none => s.evt.rings
        | some e => s.evt.rings.upd ring (fun x => { x with read := x.read.set (clsNo r.cls) (e.seq.toNat + 1) })) ∧
      changesOnly [.evt, .ans] s t) ∧
    (4 ≤ ring → ring ≤ 6 → (s.consumers ring).contains r.cls = true →
      (∀ last, KMap.get (KMap.get s.evt.rings ring).read (clsNo r.cls) = last →
        (last = 0 ∨ upTo q (BitVec.ofNat 32 (last - 1)) = false) → exec (.ringAck r ring q) s = .next (s.answer stRange)) ∧
      (∀ last, KMap.get (KMap.get s.evt.rings ring).read (clsNo r.cls) = last + 1 → upTo q (BitVec.ofNat 32 last) = true →
        KMap.get (KMap.get s.evt.rings ring).pos (clsNo r.cls) = 0 → ∃ t, exec (.ringAck r ring q) s = .next t ∧
          t.ans = { status := stOk } ∧ t.evt = { s.evt with rings := s.evt.rings.upd ring (fun x => { x with
            entries := (x.entries.map (fun e => if upTo e.seq q then { e with await := e.await.filter (· ≠ r.cls) } else e)).filter
              (fun e => e.await ≠ [])
            pos := x.pos.set (clsNo r.cls) ((q + 1).toNat + 1) }) } ∧ changesOnly [.evt, .ans] s t))) ∧
  (∀ (s : State) (b : Bool), (KMap.get s.evt.rings (if b then 3 else 1)).entries = [] → exec (.responseExpiry b) s = .next s) ∧
  (∀ (s : State) (b : Bool) (e : Entry) (rest : List Entry), (KMap.get s.evt.rings (if b then 3 else 1)).entries = e :: rest →
    s.ports.fWait = [] → exec (.responseExpiry b) s = .next { s with evt := { s.evt with
      rings := s.evt.rings.upd (if b then 3 else 1) (fun r => { r with entries := rest, lost := sat 4095 (r.lost + 1) }) } })

/-- R421, R422: BULK_SET replaces the window of its port when its area, place and size are in order, the area may be read and is not
locked away; a buffer takes the next burst while fewer than two are held; BULK_READ delivers the oldest buffer, answers BUSY_RETRY 1 ms
while none is filled, CRC_ERROR where the burst began at a poisoned word, and ends the window with EV51. -/
def Obligations.BulkWindow : Prop :=
  (∀ (s : State) (r : Req) (b : Bytes), (r.cls = .c ∨ r.bcast = true) → exec (.bulkSet r b) s = .next s ∧
    exec (.bulkRead r) s = .next s ∧ exec (.bulkBufferFill .c) s = .next s) ∧
  (∀ (s : State) (r : Req) (b : Bytes) (k : Nat), r.cls ≠ .c → r.bcast = false → k = portOf r.cls → s.portServes k = true →
    (b.length ≠ 12 → exec (.bulkSet r b) s = .next (s.answer stBadType)) ∧
    (b.length = 12 → bulkArea (fld b 0 1) = none → exec (.bulkSet r b) s = .next (s.answer stRange)) ∧
    (∀ base size, b.length = 12 → bulkArea (fld b 0 1) = some (base, size) →
      ((fld b 8 4 = 0 ∨ size < fld b 4 4 + fld b 8 4 ∨ (fld b 0 1 = 1 ∧ (fld b 4 4 % 16 ≠ 0 ∨ fld b 8 4 % 16 ≠ 0))) →
        exec (.bulkSet r b) s = .next (s.answer stRange)) ∧
      (fld b 8 4 ≠ 0 → fld b 4 4 + fld b 8 4 ≤ size → (fld b 0 1 = 1 → fld b 4 4 % 16 = 0 ∧ fld b 8 4 % 16 = 0) →
        ((if fld b 0 1 ≤ 2 then s.slotMayRead (7 + k) (base + fld b 4 4) else s.mem.locked) = true →
          exec (.bulkSet r b) s = .next (({ s with ports := { s.ports with p := s.ports.p.upd k (fun p => { p with
            bulk := { area := fld b 0 1, off := fld b 4 4, count := fld b 8 4, left := fld b 8 4 } }) } }).answer stOk)) ∧
        ((if fld b 0 1 ≤ 2 then s.slotMayRead (7 + k) (base + fld b 4 4) else s.mem.locked) = false →
          ∃ t, exec (.bulkSet r b) s = .next t ∧ t.ans = { status := stRights } ∧
            t.mem.violations = sat (2 ^ 32 - 1) (s.mem.violations + 1) ∧ t.ports = s.ports ∧
            (KMap.get s.mem.lastEv18 (7 + k) = none → Raised 18 s t) ∧ changesOnly [.evt, .mem, .ans] s t))) ∧
    (∀ x, KMap.get s.ports.p k = x →
      (x.bulk.left = 0 → exec (.bulkRead r) s = .next (s.answerData stOk [])) ∧
      (x.bulk.left ≠ 0 → x.bulk.buf = [] → exec (.bulkRead r) s = .next (s.answerRetry stBusy 1)) ∧
      (∀ rest, x.bulk.left ≠ 0 → x.bulk.buf = none :: rest → exec (.bulkRead r) s = .next (({ s with ports := { s.ports with
        p := s.ports.p.upd k (fun p => { p with bulk := { p.bulk with left := p.bulk.left - 8, buf := rest } }) } }).answer stCrc)) ∧
      (∀ d rest, x.bulk.left ≠ 0 → x.bulk.buf = some d :: rest → (k = 0 ∨ (8 + d.length + 63) / 64 ≤ s.ringFree 7) →
        ∃ t, exec (.bulkRead r) s = .next t ∧ t.ans = { status := stOk, payload := d } ∧
          t.ports = { s.ports with p := s.ports.p.upd k (fun p => { p with
            bulk := { p.bulk with left := p.bulk.left - d.length, buf := rest } }) } ∧
          (x.bulk.left ≤ d.length → Raised 51 s t) ∧ (d.length < x.bulk.left → t.evt.pending = s.evt.pending) ∧
          changesOnly [.evt, .ports, .ans] s t))) ∧
  (∀ (s : State) (q : Cls) (k base size : Nat) (w : Bulk), q ≠ .c → k = portOf q → w = (KMap.get s.ports.p k).bulk →
    (s.portServes k = false → exec (.bulkBufferFill q) s = .next s) ∧
    (s.portServes k = true → (w.left ≤ w.held ∨ 2 ≤ w.buf.length ∨ w.buf.contains none = true) →
      exec (.bulkBufferFill q) s = .next s) ∧
    (s.portServes k = true → bulkArea w.area = some (base, size) → w.held < w.left → w.buf.length < 2 → w.buf.contains none = false →
      ∀ d, d = s.burst (decide (w.area ≤ 2)) (base + w.off + (w.count - w.left) + w.held) (min 4096 (w.left - w.held)) →
      exec (.bulkBufferFill q) s = .next { s with ports := { s.ports with p := s.ports.p.upd k (fun p => { p with
        bulk := { p.bulk with buf := p.bulk.buf ++ [if d = [] then none else some d] } }) } }))

/-- R424-R426, R428: a GFP port takes frames with the delimiter while it serves; one with a bad CRC is counted; a good one for it
goes by its kind: a COMMAND enters SR2 and owes its first reply, a POLL sends the port's oldest response or EMPTY, a TIME_SYNC notes
its offset and slews a clock near enough; a reply deadline sends DEFERRED. -/
def Obligations.GfpFrames : Prop :=
  (∀ (s : State) (p : Bool) (f : Bytes) (l e : Nat), (s.portServes (gfpPort p) = false ∨ f.take 2 ≠ [0xC5, 0x3A]) →
    exec (.gfpCommand p f) s = .next s ∧ exec (.poll p f) s = .next s ∧ exec (.timeSync p f l e) s = .next s) ∧
  (∀ (s : State) (p : Bool), s.portServes (gfpPort p) = false → exec (.gfpInvalidFrame p) s = .next s ∧
    exec (.replyDeadline p) s = .next s) ∧
  (∀ (s : State) (p : Bool) (k : Nat) (c : Instr) (f : Bytes) (l e : Nat), k = gfpPort p → s.portServes k = true →
    KMap.wf s.ports.p = true →
    (c = .gfpInvalidFrame p ∨ (f.take 2 = [0xC5, 0x3A] ∧ gfpGood f = false ∧
      (c = .gfpCommand p f ∨ c = .poll p f ∨ c = .timeSync p f l e))) → ∃ t, exec c s = .next t ∧
      (KMap.get t.ports.p k).crcErrors = (KMap.get s.ports.p k).crcErrors + 1 ∧ t.clock = s.clock ∧
      ((KMap.get s.ports.p k).lastEv50 = none → Raised 50 s t) ∧ KMap.get t.evt.rings 2 = KMap.get s.evt.rings 2 ∧
      changesOnly [.evt, .ports] s t) ∧
  (∀ (s : State) (p : Bool) (k n : Nat) (f : Bytes), k = gfpPort p → s.portServes k = true → KMap.wf s.ports.p = true →
    f.take 2 = [0xC5, 0x3A] → gfpGood f = true → s.gfpMine k f = true → fld f 2 1 ≠ 0 → fld f 3 1 % 16 = 1 →
    n + 8 = fld f 4 2 → n = fld f 10 2 → n ≤ 4096 → ringOp (fld f 6 1) = true → (fld f 6 1 = 2 ∨ n = 0) →
    (∀ x ∈ (KMap.get s.ports.p k).rep, x.tag ≠ fld f 12 2 ∨ x.crc ≠ fld f (14 + n) 4) → (8 + n + 63) / 64 ≤ s.ringFree 2 →
    ∃ t e, exec (.gfpCommand p f) s = .next t ∧
      (KMap.get t.evt.rings 2).entries = (KMap.get s.evt.rings 2).entries ++ [e] ∧ e.data = slice f 6 (8 + n) ∧ e.port = k ∧
      e.bcast = false ∧ (KMap.get t.ports.p k).owes = some (fld f 12 2) ∧
      (KMap.get t.ports.p k).accepted = (KMap.get s.ports.p k).accepted + 1 ∧ (KMap.get t.ports.p k).sent = none ∧
      changesOnly [.evt, .ports] s t) ∧
  (∀ (s : State) (p : Bool) (k : Nat) (f : Bytes), k = gfpPort p → s.portServes k = true → KMap.wf s.ports.p = true →
    f.take 2 = [0xC5, 0x3A] → gfpGood f = true → s.gfpMine k f = true → fld f 2 1 ≠ 0 → fld f 3 1 % 16 = 4 → s.ports.fWait = [] →
    ((∀ e ∈ (KMap.get s.evt.rings 3).entries, e.port ≠ k) → ∃ t, exec (.poll p f) s = .next t ∧
      (KMap.get t.ports.p k).sent = some (s.gfpFrame 5 []) ∧ changesOnly [.ports] s t) ∧
    (∀ e, (KMap.get s.evt.rings 3).entries.find? (fun e => decide (e.port = k)) = some e → ∃ t, exec (.poll p f) s = .next t ∧
      (KMap.get t.ports.p k).sent = some (s.gfpFrame 2 e.data) ∧ t.evt = { s.evt with
        rings := s.evt.rings.upd 3 (fun r => { r with entries := r.entries.filter (fun x => x.seq ≠ e.seq) }) } ∧
      (KMap.get t.ports.p k).rep = (KMap.get s.ports.p k).rep ∧ changesOnly [.evt, .ports] s t)) ∧
  (∀ (s : State) (p : Bool) (k l e : Nat) (f : Bytes), k = gfpPort p → s.portServes k = true → f.take 2 = [0xC5, 0x3A] →
    gfpGood f = true → s.gfpMine k f = true → fld f 3 1 % 16 = 6 → fld f 4 2 = 8 → ∃ t act, exec (.timeSync p f l e) s = .next t ∧
      t.ports.lastSync = slice f 6 6 ++ le 4 (unsgn 4 (satI 4 (rdiv (syncOffset (fld f 6 6) l) 1024))) ++ le 1 act ++
        le 1 (if p then 1 else 0) ∧
      (s.cfgB oFSyncEnable = false → act = 3 ∧ t.clock = s.clock) ∧
      (s.cfgB oFSyncEnable = true → s.lc ≠ 5 → (syncOffset (fld f 6 6) l).natAbs < 1000000 →
        act = 0 ∧ t.clock = { s.clock with slew := 0 }) ∧
      (s.cfgB oFSyncEnable = true → s.lc ≠ 5 → 1000000 ≤ (syncOffset (fld f 6 6) l).natAbs →
        (syncOffset (fld f 6 6) l).natAbs ≤ s.cfg oFSyncSlewMs * 1024000 →
        act = 1 ∧ t.clock = { s.clock with slew := Int.tdiv (syncOffset (fld f 6 6) l) 1000000 }) ∧
      changesOnly [.clock, .pp, .evt, .ports, .tamper] s t) ∧
  (∀ (s : State) (p : Bool) (k tag : Nat), k = gfpPort p → s.portServes k = true →
    ((KMap.get s.ports.p k).owes = none → exec (.replyDeadline p) s = .next s) ∧
    ((KMap.get s.ports.p k).owes = some tag → exec (.replyDeadline p) s = .next { s with ports := { s.ports with
      p := s.ports.p.upd k (fun x => { x with
        owes := none, sent := some (s.gfpFrame 3 (le 2 tag ++ le 2 (sat 65535 (s.ringRetry 2)))) }) } }))

/-- R431, R432: a round of the I2C master takes the readings of the enabled sensors in ascending order, each valid within -55 to 150
degrees, an error otherwise; a stuck line marks them all. R434, R435: an instruction of the TAP comes into force, those that the
life-cycle state does not permit as BYPASS; EXTEST, CLAMP and HIGHZ take the pins; DBG_MEM reads one word through slot 10, refused
and counted where the tables give it no right. -/
def Obligations.I2cAndJport : Prop :=
  (∀ (s : State) (d : SdaState) (l : List I2cReading), (s.portServes 0 = false ∨ s.cfgB oI2cEnable = false) →
    exec (.i2cRound d l) s = .next s) ∧
  (∀ (s : State) (l : List I2cReading), s.portServes 0 = true → s.cfgB oI2cEnable = true → ∃ t,
    exec (.i2cRound .stuck l) s = .next t ∧
    t.ports.errors = s.ports.errors + ((List.range 4).filter (fun n => bit (s.cfg (oI2cSensor n)) 47)).length ∧
    t.ports.temp = s.ports.temp ∧ t.ports.recovered = s.ports.recovered ∧ changesOnly [.ports] s t) ∧
  (∀ (s : State) (d : SdaState) (x : I2cReading) (n : Nat) (m : Int), s.portServes 0 = true → s.cfgB oI2cEnable = true → d ≠ .stuck →
    (List.range 4).filter (fun n => bit (s.cfg (oI2cSensor n)) 47) = [n] → m = i2cTemp (s.cfg (oI2cSensor n)) x.data →
    ∃ t, exec (.i2cRound d [x]) s = .next t ∧
      (x.ack = true → x.inTime = true → -55000 ≤ m → m ≤ 150000 → KMap.get t.ports.valid n = true ∧ t.ports.errors = s.ports.errors ∧
        t.ports.temp = s.ports.temp.set n m ∧ (n = 0 → t.disp.extAt = some s.clock.clk)) ∧
      ((x.ack = false ∨ x.inTime = false ∨ m < -55000 ∨ 150000 < m) → t.ports.errors = s.ports.errors + 1 ∧
        t.ports.temp = s.ports.temp ∧ t.ports.valid = s.ports.valid.set n false ∧ t.ports.nack = s.ports.nack.set n (!x.ack)) ∧
      (d = .recovered → t.ports.recovered = true) ∧ t.ports.p = s.ports.p ∧ changesOnly [.evt, .ports, .disp] s t) ∧
  (∀ (s : State) (c : Instr) (code : Nat), ((c = .extest ∧ code = 0) ∨ (c = .samplePreload ∧ code = 1) ∨ (c = .idcode ∧ code = 2) ∨
      (c = .clamp ∧ code = 3) ∨ (c = .highz ∧ code = 4) ∨ (c = .tapReset ∧ code = 2) ∨
      (∃ b : Byte, c = .bypass b ∧ code = b.toNat)) →
    (s.portServes 0 = false → exec c s = .next s) ∧
    (s.portServes 0 = true → exec c s = .next { s with ports := { s.ports with
      tap := s.tapOf code
      pinsTaken := decide (s.tapOf code = .extest ∨ s.tapOf code = .clamp ∨ s.tapOf code = .highz)
      pinsFloat := decide (s.tapOf code = .highz) } })) ∧
  (∀ (s : State) (code : Nat), (s.lc = 2 ∨ s.lc = 3 ∨ s.lc = 5) →
    s.tapOf code = (if code = 1 then .sample else if code = 2 then .idcode else .bypass)) ∧
  (∀ (s : State) (a : W32), s.portServes 0 = false → exec (.dbgMem a) s = .next s) ∧
  (∀ (s : State) (a : W32), s.portServes 0 = true → (s.lc = 2 ∨ s.lc = 3 ∨ s.lc = 5) → exec (.dbgMem a) s = .next { s with
    ports := { s.ports with tap := .bypass, pinsTaken := false, pinsFloat := false } }) ∧
  (∀ (s : State) (a : W32) (w : Nat), s.portServes 0 = true → (s.lc = 0 ∨ s.lc = 1 ∨ s.lc = 4) → a.toNat < 2 ^ 31 →
    w = a.toNat / 8 * 8 →
    (w < 0x400000 → s.slotMayRead 10 w = true → s.isPoisoned w = false → exec (.dbgMem a) s = .next { s with ports := { s.ports with
      tap := .dbgMem, pinsTaken := false, pinsFloat := false
      dbgData := BitVec.ofNat 64 (ofLe ((rangeFrom w 8).map s.sramByte)), dbgAddr := a, dbgDone := true, dbgErr := false } }) ∧
    ((0x400000 ≤ w ∨ s.slotMayRead 10 w = false) → ∃ t, exec (.dbgMem a) s = .next t ∧ t.ports = { s.ports with
      tap := .dbgMem, pinsTaken := false, pinsFloat := false, dbgData := 0, dbgAddr := a, dbgDone := true, dbgErr := true } ∧
      t.mem.violations = sat (2 ^ 32 - 1) (s.mem.violations + 1) ∧ changesOnly [.evt, .ports, .mem] s t))

/-- R38, R46, R34, R36, R37, R33: a READ that its class may make answers the active value, with PENDING while another value waits;
READ_SHADOW answers the waiting value; neither changes a value in force. A WRITE past its checks of an object without a meaning of
its own is active before the answer with effect I, and goes to the shadow of a running block with effect Y, while the value in
force stays; a record that the store cannot take is answered STORE_FULL and leaves both. -/
def Obligations.ReadsAndPlainWrites : Prop :=
  (∀ (s : State) (r : Req) (i j : Nat) (sh : Bool) (c : Instr) (op : Nat),
    (c = .read r i j ∧ sh = false ∧ op = 1 ∨ c = .readShadow r i j ∧ sh = true ∧ op = 3) → s.serves r op i j [] = true →
    (cardOf i j = none → ∃ t, exec c s = .next t ∧ Delivered (s.answer stNoObject) t) ∧
    (∀ d, cardOf i j = some d → d.mayRead r.cls = false → ∃ t, exec c s = .next t ∧ Delivered (s.answer stRights) t) ∧
    (∀ d, cardOf i j = some d → d.mayRead r.cls = true → KMap.get s.dict.broken (okey i j) = true → ∃ t, exec c s = .next t ∧
      Delivered (s.answer stCrc) t) ∧
    (∀ d, cardOf i j = some d → d.mayRead r.cls = true → KMap.get s.dict.broken (okey i j) = false → ∃ t, exec c s = .next t ∧
      (s.waitingFor (okey i j) = none → t.ans = { status := stOk, payload := s.pulsesRun.readBytes d (okey i j) }) ∧
      (∀ v, s.waitingFor (okey i j) = some v → t.ans.status = stPending ∧
        (sh = true → t.ans.payload = le d.size v)) ∧
      t.dict = { s.dict with expired := t.dict.expired } ∧ changesOnly [.dict, .acc, .evt, .ports, .ans] s t)) ∧
  (∀ (s u : State) (r : Req) (i j : Nat) (b : Bytes) (c : Card) (k : Nat), s.allows r i j b = true → k = okey i j →
    cardOf i j = some c → u = s.ownerWrote r.cls → (i ≠ 0x8100 ∨ j ≠ 2) → u.writeBy r.cls c k (ofLe b) b = u.writePlain r.cls c k (ofLe b) →
    u.crossed r.cls k (ofLe b) = true → KMap.wf s.dict.active = true → s.cfg k ≠ ofLe b → s.holds r.cls = false →
    ((c.eff = .i ∨ c.eff = .s ∨ c.eff = .y) → u.persist c k (ofLe b) = none → ∃ t, exec (.write r i j b) s = .next t ∧
      Delivered (u.fullAnswer c) t) ∧
    ((c.eff = .i ∨ c.eff = .s) → (u.persist c k (ofLe b)).isSome = true → ∃ t, exec (.write r i j b) s = .next t ∧
      t.cfg k = ofLe b ∧ t.ans = { status := stOk } ∧ (∀ x, x ≠ k → t.cfg x = s.cfg x) ∧ t.dict.shadow = s.dict.shadow) ∧
    (∀ p, c.eff = .y → u.persist c k (ofLe b) = some p → p.blockStopped k (ofLe b) = false → portShadow k = false →
      ∃ t, exec (.write r i j b) s = .next t ∧
        Delivered (({ p with dict := { p.dict with shadow := p.dict.shadow.set k (some (ofLe b)) } }).answer stPending) t ∧
        t.cfg k = s.cfg k)) ∧
  (∀ (s : State) (r : Req) (i j : Nat) (b : Bytes) (e : Nat × Nat), (i ≠ 0x8100 ∨ j ≠ 2) → s.serves r 2 i j b = true →
    s.checkWrite r.cls i j b = .error e → ∃ t, exec (.write r i j b) s = .next t ∧
      Delivered ((s.ownerWrote r.cls).answerRetry e.1 e.2) t)

/-- R41, R413, R44: a request at the head of its command ring waits there, with nothing changed, while the control island is away or
the response ring has no room, and is answered CRC_ERROR when its entry's words are lost; one that came by no ring is answered
ISLAND_RESTARTING while the island is away. The checks of Table 2.4 are made in its order: object, rights, life cycle, busy, type,
range, running. -/
def Obligations.RequestsWaitAndAreChecked : Prop :=
  (∀ (s : State) (r : Req) (i j : Nat) (b : Bytes) (e : Entry), s.headIs r 2 i j b = some e →
    (s.controlAway = true ∨ s.noRoom r.cls = true) → (i ≠ 0x8100 ∨ j ≠ 2) → exec (.write r i j b) s = .next s) ∧
  (∀ (s : State) (r : Req) (i j : Nat) (e : Entry), s.headIs r 1 i j [] = some e →
    (s.controlAway = true ∨ s.noRoom r.cls = true) → exec (.read r i j) s = .next s) ∧
  (∀ (s : State) (r : Req) (i j : Nat) (e : Entry), s.headIs r 1 i j [] = some e → s.controlAway = false → s.noRoom r.cls = false →
    e.bad = true → s.ports.fWait = [] → ∃ t, exec (.read r i j) s = .next t ∧ Delivered (s.answer stCrc) t) ∧
  (∀ (s : State) (r : Req) (i j : Nat), s.headIs r 1 i j [] = none → s.controlAway = true →
    exec (.read r i j) s = .next (s.answerRetry stRestarting s.controlLeft)) ∧
  (∀ (s : State) (r : Req) (i j : Nat), s.headIs r 3 i j [] = none → s.controlAway = true →
    exec (.readShadow r i j) s = .next (s.answerRetry stRestarting s.controlLeft)) ∧
  (∀ (s : State) (q : Cls) (i j : Nat) (b : Bytes) (e : Nat × Nat), s.checkWrite q i j b = .error e →
    (cardOf i j = none ∧ e = (stNoObject, 0)) ∨
    (∃ c, cardOf i j = some c ∧
      ((c.mayWrite q = false ∧ e = (stRights, 0)) ∨
       (c.mayWrite q = true ∧ s.lcPermits q c (okey i j) b = false ∧ e = (stLifecycle, 0)) ∨
       (c.mayWrite q = true ∧ s.lcPermits q c (okey i j) b = true ∧ ∃ ms, s.busyFor q (okey i j) = some ms ∧ e = (stBusy, ms)) ∨
       (c.mayWrite q = true ∧ s.lcPermits q c (okey i j) b = true ∧ s.busyFor q (okey i j) = none ∧
        ((typeOk c.ty b = false ∧ e = (stBadType, 0)) ∨
         (typeOk c.ty b = true ∧ (c.fits (ofLe b) && s.valueOk (okey i j) (ofLe b)) = false ∧ e = (stRange, 0)) ∨
         (typeOk c.ty b = true ∧ (c.fits (ofLe b) && s.valueOk (okey i j) (ofLe b)) = true ∧ c.eff = .s ∧
          s.blockRuns (okey i j) = true ∧ e = (stRunning, 0)))))))

/-- R50, R158, R193, R189, R197: TIME_NOW sets the RTC at once, clears TIME_SUSPECT, freezes the schedule and raises EV54; the second tick
takes the RTC to its next whole second and latches the clock; a snapshot request waits for its cycle and a timeout takes it STALE;
ACC_CLEAR zeroes the line of a disabled entry; MD_RESET zeroes the maxima of its subject. Nothing else of the accumulators changes. -/
def Obligations.TimeSnapshotsAndClears : Prop :=
  (∀ (s : State) (r : Req) (b : Bytes), s.allows r 0x1101 1 b = true → ∃ t, exec (.timeNow r b) s = .next t ∧
    t.ans = { status := stOk } ∧ t.clock = { s.clock with
      prevRtc := s.clock.rtc, prevLatch := s.clock.latch, rtc := ofLe b, latch := s.clock.clk, slew := 0, lastSet := s.now,
      stepped := true } ∧ t.tamper = { s.tamper with suspect := false } ∧ t.pp = { s.pp with frozen := true } ∧
    KMap.get t.evt.pending 54 = true ∧ changesOnly [.clock, .pp, .cal, .evt, .ports, .tamper, .ans] s t) ∧
  (∀ s : State, ∃ t, exec .rtcSecondTick s = .next t ∧ t.clock = { s.clock with
      prevRtc := s.clock.rtc, prevLatch := s.clock.latch, rtc := (s.clock.rtc / 1024 + 1) * 1024, latch := s.clock.clk,
      stepped := false
      slew := (if 0 < s.clock.slew then s.clock.slew - 1 else if s.clock.slew < 0 then s.clock.slew + 1 else 0) } ∧
    (s.clock.stepped = false ∨ s.powered = false → changesOnly [.clock] s t) ∧
    changesOnly [.clock, .accts, .chres, .pq, .acc, .bal, .pp, .nvm, .evt, .mem, .tamper, .disp] s t) ∧
  (∀ (s : State) (r : Req) (b : Bytes), s.allows r 0xB000 (0x72 + clsNo r.cls) b = true → ∃ t, exec (.snapReq r b) s = .next t ∧
    Delivered (({ s.ownerWrote r.cls with acc := { s.acc with
      snaps := s.acc.snaps.set (clsNo r.cls) { state := 1, subject := ofLe b } } }).answer stOk) t) ∧
  (∀ (s : State) (q : Cls), (s.powered = false ∨ (KMap.get s.acc.snaps (clsNo q)).state ≠ 1) →
    exec (.snapshotTimeout q) s = .next s) ∧
  (∀ (s : State) (q : Cls), s.powered = true → (KMap.get s.acc.snaps (clsNo q)).state = 1 → ∃ t x,
    exec (.snapshotTimeout q) s = .next t ∧ t.acc = { s.acc with snaps := s.acc.snaps.set (clsNo q) x } ∧ x.state = 3 ∧
    x.subject = (KMap.get s.acc.snaps (clsNo q)).subject ∧
    (bits x.subject 15 14 ≠ 2 → x.seq = (KMap.get s.accts (bits x.subject 9 0)).lastCommitted) ∧ changesOnly [.acc] s t) ∧
  (∀ (s : State) (r : Req) (b : Bytes) (n : Nat), s.allows r 0xB000 0x78 b = true → n = ofLe b → ∃ t,
    exec (.accClear r b) s = .next t ∧
    (meEnable (s.cfg (oMapEntry n)) = true → Delivered ((s.ownerWrote r.cls).answer stRange) t) ∧
    (meEnable (s.cfg (oMapEntry n)) = false → t.ans = { status := stOk } ∧
      t.acc.lines = s.acc.lines.set n { KMap.get s.acc.lines n with value := 0 } ∧ t.acc.energy = s.acc.energy ∧
      t.acc.quality = s.acc.quality ∧ t.acc.demand = s.acc.demand ∧ changesOnly [.acc, .nvm, .cal, .evt, .ports, .ans] s t)) ∧
  (∀ (s : State) (r : Req) (b : Bytes) (v : Nat), s.allows r 0xB000 0x79 b = true → v = ofLe b → KMap.wf s.acc.demand = true → ∃ t,
    exec (.mdReset r b) s = .next t ∧ t.ans = { status := stOk } ∧ t.acc = { s.acc with demand := t.acc.demand } ∧
    (∀ e ∈ s.subjEntries (subjOf (bits v 15 14) (bits v 9 0)), meDemand e.2 = true →
      KMap.get t.acc.demand e.1 = { KMap.get s.acc.demand e.1 with max := 0, maxAt := s.now }) ∧
    (∀ n, (∀ e ∈ s.subjEntries (subjOf (bits v 15 14) (bits v 9 0)), e.1 = n → meDemand e.2 = false) →
      KMap.get t.acc.demand n = KMap.get s.acc.demand n) ∧ changesOnly [.acc, .nvm, .cal, .evt, .ports, .ans] s t)

/-- R203-R205, R447, R442, R99, R100, R95: a pulse output's edge comes due at its time; disabling an output drops what it owes; the
bits of EVENT_PENDING written 1 clear and no count does; new consumers withdraw the acknowledgements of the old; an accepted write of
FTRIP_ASSIGN, with a new value or the same, deasserts the pin and clears its latch; a latch cleared releases its pin; a written
TH_ENABLE leaves no threshold of its channel tripped and keeps the trip counts. -/
def Obligations.PulsesPinsAndEvents : Prop :=
  (∀ (s : State) (n : Fin 8), (s.powered = false ∨ ((KMap.get s.acc.pulses n.val).edges = [] ∧ (KMap.get s.acc.pulses n.val).owed = 0)) →
    exec (.pulseEdge n) s = .next s) ∧
  (∀ (s : State) (n : Fin 8) (t0 : Nat) (up : Bool) (rest : List (Nat × Bool)), s.powered = true →
    (KMap.get s.acc.pulses n.val).edges = (t0, up) :: rest → (KMap.get s.acc.pulses n.val).owed = 0 →
    ∃ t, exec (.pulseEdge n) s = .next t ∧ t.clock = { s.clock with clk := max s.clock.clk (usClk t0) } ∧
      t.acc = { s.acc with pulses := t.acc.pulses } ∧
      (∀ k, k ≠ n.val → KMap.get t.acc.pulses k = KMap.get s.acc.pulses k) ∧
      (s.pulseOn n.val = true → s.pulseHalf n.val = false → up = false → rest = [] → t.acc.pulses = s.acc.pulses.upd n.val
        (fun p => { p with edges := [], level := false, lastEdge := some t0 })) ∧ changesOnly [.clock, .acc] s t) ∧
  (∀ (s : State) (r : Req) (n : Fin 8) (cst : Bool) (b : Bytes) (key : Nat),
    key = (if cst then oPulseConst n.val else oPulseConfig n.val) → s.altersTo r 0xB000 (key % 256) b = true →
    KMap.wf s.acc.pulses = true → ∃ t, exec (.pulseConfig r n cst b) s = .next t ∧ t.cfg key = ofLe b ∧ t.ans = { status := stOk } ∧
      (t.pulseOn n.val = false → (KMap.get t.acc.pulses n.val).edges = [] ∧ (KMap.get t.acc.pulses n.val).owed = 0 ∧
        (KMap.get t.acc.pulses n.val).residue = 0 ∧ (KMap.get t.acc.pulses n.val).level = false) ∧
      (∀ k, k ≠ n.val → KMap.get t.acc.pulses k = KMap.get s.acc.pulses k) ∧ t.acc.lines = s.acc.lines) ∧
  (∀ (s : State) (r : Req) (b : Bytes), s.allows r 0x2100 1 b = true → KMap.wf s.evt.pending = true →
    ∃ t, exec (.eventPendingClear r b) s = .next t ∧ t.ans = { status := stOk } ∧
      (∀ n, KMap.get t.evt.pending n = (KMap.get s.evt.pending n && !(setList (ofLe b) 64).contains n)) ∧
      t.evt.count = s.evt.count ∧ changesOnly [.cal, .evt, .ports, .ans] s t) ∧
  (∀ (s : State) (r : Req) (b : Bytes), s.altersTo r 0x2100 5 b = true → KMap.wf s.evt.rings = true →
    ∃ t, exec (.ringConsumers r b) s = .next t ∧ t.cfg oRingConsumers = ofLe b ∧ t.ans = { status := stOk } ∧
      (∀ k, (k = 4 ∨ k = 5 ∨ k = 6) → (∀ e ∈ (KMap.get t.evt.rings k).entries, e.await ≠ [] ∧ ∀ q ∈ e.await, q ∈ t.consumers k) ∧
        (KMap.get t.evt.rings k).seq = (KMap.get s.evt.rings k).seq) ∧ t.evt.pending = s.evt.pending) ∧
  (∀ (s : State) (r : Req) (n : Fin 8) (b : Bytes),
    (s.altersTo r 0xB000 (0x21 + n.val) b = true → ∃ t, exec (.ftripAssign r n b) s = .next t ∧
      t.cfg (oFtripAssign n.val) = ofLe b ∧ t.ans = { status := stOk } ∧ t.ftrip = s.ftrip.upd n.val (fun _ => {})) ∧
    (s.allows r 0xB000 (0x21 + n.val) b = true → s.cfg (oFtripAssign n.val) = ofLe b →
      KMap.get s.dict.broken (oFtripAssign n.val) = false →
      (s.ownerWrote r.cls).crossed r.cls (oFtripAssign n.val) (ofLe b) = true → ∃ t, exec (.ftripAssign r n b) s = .next t ∧
        Delivered (({ s.ownerWrote r.cls with ftrip := s.ftrip.upd n.val (fun _ => {}) }).answer stOk) t)) ∧
  (∀ (s : State) (r : Req) (b : Bytes), s.allows r 0xB000 0x29 b = true → KMap.wf s.ftrip = true →
    ∃ t, exec (.ftripLatchClear r b) s = .next t ∧ t.ans = { status := stOk } ∧
      (∀ n, KMap.get t.ftrip n = (if decide (n < 8) && bit (ofLe b) (8 + n) && (KMap.get s.ftrip n).latched
        then { KMap.get s.ftrip n with level := false, latched := false } else KMap.get s.ftrip n)) ∧
      changesOnly [.ftrip, .cal, .evt, .ports, .ans] s t) ∧
  (∀ (s : State) (r : Req) (ch : Fin 256) (b : Bytes), s.altersTo r (0x3200 + ch.val) 1 b = true → KMap.wf s.th = true →
    ∃ t, exec (.thEnable r ch b) s = .next t ∧ t.cfg (oThEnable ch.val) = ofLe b ∧ t.ans = { status := stOk } ∧
      (KMap.get t.th ch.val).hi.tripped = false ∧ (KMap.get t.th ch.val).lo.tripped = false ∧
      (KMap.get t.th ch.val).hi.count = 0 ∧ (KMap.get t.th ch.val).lo.count = 0 ∧
      (KMap.get t.th ch.val).trips = (KMap.get s.th ch.val).trips ∧
      (∀ x, x ≠ ch.val → KMap.get t.th x = KMap.get s.th x))

/-- R59, R73, R80, R81, R150: CH_SUBSTITUTE asks for its group's spare when it can be had and gives it back; the bits of HK_LIMIT_FLAGS
written 1 clear; HK_RUN starts an armed sequencer at step 0, and stops one at the next boundary of its group or at once; an engine
or cluster whose bit is cleared leaves service as soon as it is idle, one whose bit is set restarts with EV56, and the others stay. -/
def Obligations.FrontEndAndEngineSwitches : Prop :=
  (∀ (s : State) (r : Req) (ch : Fin 256) (b : Bytes), s.allows r (0x3000 + ch.val) 6 b = true → KMap.wf s.chans = true →
    ∃ t, exec (.chSubstitute r ch b) s = .next t ∧
      (ofLe b = 0 → t.ans = { status := stOk } ∧ (KMap.get t.chans ch.val).substitute = false ∧
        (KMap.get t.chans ch.val).onSpare = (KMap.get s.chans ch.val).onSpare) ∧
      (∀ e, ofLe b ≠ 0 → s.substOn ch.val = some e → Delivered ((s.ownerWrote r.cls).answerRetry e.1 e.2) t) ∧
      (ofLe b ≠ 0 → s.substOn ch.val = none → t.ans = { status := stOk } ∧ (KMap.get t.chans ch.val).substitute = true ∧
        (∀ x, x ≠ ch.val / 32 → KMap.get t.spares x = KMap.get s.spares x) ∧
        ((KMap.get s.chans ch.val).onSpare ≠ some (ch.val / 32) → (KMap.get t.spares (ch.val / 32)).ch = some ch.val ∧
          (KMap.get t.spares (ch.val / 32)).stage = .fill ∧ (KMap.get t.spares (ch.val / 32)).why = .request)) ∧
      (∀ x, x ≠ ch.val → KMap.get t.chans x = KMap.get s.chans x) ∧ changesOnly [.spares, .chans, .cal, .evt, .ports, .ans] s t) ∧
  (∀ (s : State) (r : Req) (b : Bytes), s.allows r 0x3300 0x0B b = true → ∃ t, exec (.hkLimitFlagClear r b) s = .next t ∧
    Delivered (({ s.ownerWrote r.cls with
      hk := { s.hk with flags := s.hk.flags &&& ~~~(BitVec.ofNat 32 (ofLe b)) } }).answer stOk) t) ∧
  (∀ (s : State) (r : Req) (b : Bytes), s.altersTo r 0x3300 7 b = true → ∃ t, exec (.hkRun r b) s = .next t ∧
    t.cfg oHkRun = ofLe b ∧ t.ans = { status := stOk } ∧
    (ofLe b = 0 → (s.groups.get (s.cfg oHkSyncGroup)).running = true → s.hk.running = true →
      t.hk = { s.hk with stopping := true }) ∧
    (ofLe b = 0 → ((s.groups.get (s.cfg oHkSyncGroup)).running = false ∨ s.hk.running = false) → t.hk.running = false ∧
      t.hk.stopping = false) ∧
    (ofLe b = 1 → s.hk.running = true → t.hk = { s.hk with stopping := false }) ∧
    (ofLe b = 1 → s.hk.running = false → s.eng.armed = true → t.hk = { s.hk with
      running := true, stopping := false, step := 0, reps := 0, sum := 0 })) ∧
  (∀ (s : State) (r : Req) (b : Bytes), s.altersTo r 0x7000 1 b = true → KMap.wf s.eng.engines = true →
    ∃ t, exec (.engineEnable r b) s = .next t ∧ t.cfg oEngineEnable = ofLe b ∧ t.ans = { status := stOk } ∧
      (∀ k, k < 32 → bit (s.cfg oEngineEnable) k = bit (ofLe b) k → KMap.get t.eng.engines k = KMap.get s.eng.engines k) ∧
      (∀ k, k < 32 → bit (s.cfg oEngineEnable) k = true → bit (ofLe b) k = false → (KMap.get s.eng.engines k).st = .inService →
        (KMap.get s.eng.engines k).run = none → (KMap.get s.eng.engines k).susp = [] → (KMap.get t.eng.engines k).st = .off) ∧
      (∀ k, k < 32 → bit (s.cfg oEngineEnable) k = false → bit (ofLe b) k = true → s.clusterOn (k / 8) = true →
        (KMap.get t.eng.engines k).st = .restarting ∧ KMap.get t.evt.pending 56 = true)) ∧
  (∀ (s : State) (r : Req) (b : Bytes), s.altersTo r 0x7000 3 b = true → KMap.wf s.eng.engines = true → KMap.wf s.eng.clusters = true →
    ∃ t, exec (.clusterEnable r b) s = .next t ∧ t.cfg oClusterEnable = ofLe b ∧ t.ans = { status := stOk } ∧
      (∀ c, c < 4 → bit (s.cfg oClusterEnable) c = bit (ofLe b) c → KMap.get t.eng.clusters c = KMap.get s.eng.clusters c ∧
        ∀ k, k / 8 = c → KMap.get t.eng.engines k = KMap.get s.eng.engines k) ∧
      (∀ c, c < 4 → bit (s.cfg oClusterEnable) c = true → bit (ofLe b) c = false → (KMap.get s.eng.clusters c).st = .inService →
        (∀ k, k / 8 = c → (KMap.get s.eng.engines k).run = none ∧ (KMap.get s.eng.engines k).susp = []) →
        (KMap.get t.eng.clusters c).st = .off ∧
        ∀ k, k / 8 = c → (KMap.get s.eng.engines k).st = .inService → (KMap.get t.eng.engines k).st = .off) ∧
      (∀ c, c < 4 → bit (s.cfg oClusterEnable) c = false → bit (ofLe b) c = true → (KMap.get t.eng.clusters c).st = .restarting ∧
        (KMap.get t.eng.clusters c).svc = true ∧ KMap.get t.evt.pending 56 = true))

/-- R183: the commands of the capture slots. TRIGGER answers OK and takes a free slot for a selected channel that holds none, never one
that is busy or ready; STOP marks the slots that record; RELEASE_ALL empties the ready slots; CAPT_RELEASE empties one. R42, R43: a
hold belongs to the class that starts it; its release makes the held values go on when the checks hold and the store takes them,
and its end by time discards them. -/
def Obligations.CapturesAndHolds : Prop :=
  (∀ (s : State) (r : Req), s.allows r 0x6200 0x2A [1] = true → ∃ t, exec (.trigger r) s = .next t ∧ t.ans = { status := stOk } ∧
    (∀ k, ((KMap.get s.capt k).busy = true ∨ (KMap.get s.capt k).ready = true) → KMap.get t.capt k = KMap.get s.capt k) ∧
    (∀ ch k, s.captSet = [ch] → s.captOn ch = true → s.captStream = false → k < 8 →
      (∀ j, j < 8 → ((KMap.get s.capt j).busy = true ∨ (KMap.get s.capt j).ready = true) → (KMap.get s.capt j).ch ≠ ch) →
      (∀ j, j < k → (KMap.get s.capt j).busy = true ∨ (KMap.get s.capt j).ready = true) →
      (KMap.get s.capt k).busy = false → (KMap.get s.capt k).ready = false →
      (KMap.get t.capt k).busy = true ∧ (KMap.get t.capt k).ch = ch ∧ t.captMissed = s.captMissed) ∧
    changesOnly [.capt, .captMissed, .cal, .evt, .ports, .ans] s t) ∧
  (∀ (s : State) (r : Req), s.allows r 0x6200 0x2A [2] = true → ∃ t, exec (.stop r) s = .next t ∧ t.ans = { status := stOk } ∧
    (∀ k, (KMap.get s.capt k).busy = true → k < 8 → (KMap.get t.capt k).stopAt.isSome = true ∧ (KMap.get t.capt k).busy = true) ∧
    (∀ k, (KMap.get s.capt k).busy = false → KMap.get t.capt k = KMap.get s.capt k) ∧
    changesOnly [.capt, .cal, .evt, .ports, .ans] s t) ∧
  (∀ (s : State) (r : Req), s.allows r 0x6200 0x2A [3] = true → KMap.wf s.capt = true → ∃ t, exec (.releaseAll r) s = .next t ∧
    t.ans = { status := stOk } ∧ (∀ k, k < 8 → (KMap.get s.capt k).ready = true → KMap.get t.capt k = {}) ∧
    (∀ k, ((KMap.get s.capt k).ready = false ∨ 8 ≤ k) → KMap.get t.capt k = KMap.get s.capt k) ∧
    changesOnly [.capt, .cal, .evt, .ports, .ans] s t) ∧
  (∀ (s : State) (r : Req) (b : Bytes), s.allows r 0x6200 0x2B b = true → ∃ t, exec (.captRelease r b) s = .next t ∧
    (ofLe b < 8 → Delivered (({ s.ownerWrote r.cls with capt := s.capt.upd (ofLe b) (fun _ => {}) }).answer stOk) t)) ∧
  (∀ (s : State) (r : Req), s.allows r 0x1102 1 [1] = true → ∃ t, exec (.holdStart r) s = .next t ∧
    (s.dict.owner.isSome = true → Delivered ((s.ownerWrote r.cls).answer stOk) t) ∧
    (s.dict.owner = none → Delivered (({ s.ownerWrote r.cls with
      dict := { s.dict with owner := some r.cls, since := s.clock.clk } }).answer stOk) t)) ∧
  (∀ (s : State) (r : Req), s.allows r 0x1102 1 [0] = true → ∃ t, exec (.holdRelease r) s = .next t ∧
    (s.dict.owner ≠ some r.cls → Delivered ((s.ownerWrote r.cls).answer stOk) t) ∧
    (∀ u, u = s.ownerWrote r.cls → s.dict.owner = some r.cls →
      ((∃ e ∈ s.heldList, u.crossOk (u.view true) e.1 e.2 = false) → Delivered (u.answer stRange) t) ∧
      ((∀ e ∈ s.heldList, u.crossOk (u.view true) e.1 e.2 = true) → u.persistAll s.heldList = none →
        Delivered (u.answer stStoreFull) t) ∧
      (s.heldList = [] → t.dict.owner = none ∧ t.dict.held = [] ∧ t.dict.active = s.dict.active ∧ t.ans = { status := stOk } ∧
        changesOnly [.dict, .cal, .evt, .ports, .ans] s t) ∧
      (∀ k v c, s.heldList = [(k, v)] → cardOf (k / 256) (k % 256) = some c → c.eff = .b →
        u.crossOk (u.view true) k v = true → (u.persist c k v).isSome = true → v ≠ s.cfg k →
        t.dict.owner = none ∧ t.dict.held = [] ∧ KMap.get t.dict.nextStart k = some v ∧ t.cfg k = s.cfg k ∧
        t.ans = { status := stOk }))) ∧
  (∀ s : State, s.dict.owner = none → exec .holdTimeout s = .next s) ∧
  (∀ s : State, s.dict.owner.isSome = true → exec .holdTimeout s = .next { s with
    dict := { s.dict with owner := none, held := [], expired := true } })

/-- R398, R403, R404, R406, R409: the requests of the display, executed at once. UPDATE starts the pumps for the image in the
image register, with the table of the band in force, or waits for the running work; CLEAR and POWER_OFF alike; DISP_IMAGE writes the
image, and is an update by itself with the option set; the outage mark is cleared in its mode, and SELVEDGE_STATUS sets six
targets. -/
def Obligations.DisplayRequests : Prop :=
  (∀ (s : State) (r : Req), s.allows r 0xA000 3 [1] = true → ∃ t, exec (.update r) s = .next t ∧ t.ans = { status := stOk } ∧
    ((s.disp.busy = true ∨ s.disp.restartAt.isSome = true) →
      Delivered (({ s.ownerWrote r.cls with disp := { s.disp with pendUpdate := true } }).answer stOk) t) ∧
    (s.disp.busy = false → s.disp.restartAt = none → s.disp.dirty = false → phases (s.wf s.disp.band) ≠ 0 → s.disp.pumps = false →
      t.disp = { s.disp with
        bandRun := s.disp.band, frames := 0, invalid := false, work := .update, table := s.wf s.disp.band, copy := s.disp.image
        falling := false, pendUpdate := false, pendBal := false, st := .pumpUp, pumps := true } ∧ t.evt.pending = s.evt.pending) ∧
    (s.disp.busy = false → s.disp.restartAt = none → s.disp.dirty = false → phases (s.wf s.disp.band) = 0 → t.disp.invalid = true ∧
      t.disp.st = .waiting ∧ t.disp.pendUpdate = true ∧ t.disp.shown = s.disp.shown ∧ KMap.get t.evt.pending 55 = true) ∧
    changesOnly [.cal, .evt, .ports, .disp, .ans] s t) ∧
  (∀ (s : State) (r : Req), s.allows r 0xA000 3 [2] = true → ∃ t, exec (.clear r) s = .next t ∧ t.ans = { status := stOk } ∧
    ((s.disp.busy = true ∨ s.disp.restartAt.isSome = true ∨ s.clearable = false) →
      Delivered (({ s.ownerWrote r.cls with disp := { s.disp with pendClear := true } }).answer stOk) t) ∧
    (s.disp.busy = false → s.disp.restartAt = none → s.clearable = true → phases (s.wf s.disp.band) ≠ 0 → s.disp.pumps = false →
      t.disp.work = .clear ∧ t.disp.st = .pumpUp ∧ t.disp.pendClear = false ∧ t.disp.clearDue = false ∧ t.disp.shown = s.disp.shown) ∧
    changesOnly [.cal, .evt, .ports, .disp, .ans] s t) ∧
  (∀ (s : State) (r : Req), s.allows r 0xA000 3 [3] = true → ∃ t, exec (.powerOff r) s = .next t ∧ t.ans = { status := stOk } ∧
    ((s.disp.busy = true ∨ s.disp.restartAt.isSome = true) → Delivered (({ s.ownerWrote r.cls with
      disp := { s.disp with pendOff := true, pendUpdate := false } }).answer stOk) t) ∧
    (s.disp.busy = false → s.disp.restartAt = none → s.mainAbove (s.cfg oDcLimit / 2) = false → t.disp = { s.disp with
      pendUpdate := false, pendOff := false, st := .discharging, work := .discharge, pumps := true, offStep := 2 }) ∧
    changesOnly [.cal, .evt, .ports, .disp, .ans] s t) ∧
  (∀ (s : State) (r : Req) (b : Bytes), s.allows r 0xA000 2 b = true → ∃ t, exec (.dispImage r b) s = .next t ∧
    t.ans = { status := stOk } ∧ t.disp.image = ofLe b ∧ t.disp.shown = s.disp.shown ∧
    ((bit (s.cfg oDispOptions) 0 = false ∨ ofLe b % 2 ^ 88 = s.disp.shown) →
      Delivered (({ s.ownerWrote r.cls with disp := { s.disp with image := ofLe b } }).answer stOk) t) ∧
    (bit (s.cfg oDispOptions) 0 = true → ofLe b % 2 ^ 88 ≠ s.disp.shown → s.disp.busy = true → t.disp.pendUpdate = true) ∧
    changesOnly [.cal, .evt, .ports, .disp, .ans] s t) ∧
  (∀ (s : State) (r : Req) (b : Bytes), s.allows r 0xA000 0x20 b = true → ∃ t, exec (.outageMarkClear r b) s = .next t ∧
    ((s.pwr.onVbat = true ∨ s.outageMode ≠ 2) → Delivered ((s.ownerWrote r.cls).answer stRange) t) ∧
    (s.pwr.onVbat = false → s.outageMode = 2 → ofLe b = 0 → Delivered ((s.ownerWrote r.cls).answer stOk) t) ∧
    (s.pwr.onVbat = false → s.outageMode = 2 → ofLe b ≠ 0 → t.ans = { status := stOk } ∧ t.disp.outage = false ∧
      t.disp.balance = s.disp.balance ∧ (KMap.wf s.disp.selv = true → (KMap.get t.disp.selv 0).target = false) ∧
      changesOnly [.cal, .evt, .ports, .disp, .ans] s t)) ∧
  (∀ (s : State) (r : Req) (b : Bytes), s.altersTo r 0xA000 0x1F b = true → KMap.wf s.disp.selv = true →
    ∃ t, exec (.selvedgeStatus r b) s = .next t ∧ t.cfg oSelvedgeStatus = ofLe b ∧ t.ans = { status := stOk } ∧
      (∀ i, i < 6 → (KMap.get t.disp.selv (2 + i)).target = bit (ofLe b) i ∧
        (KMap.get t.disp.selv (2 + i)).shown = (KMap.get s.disp.selv (2 + i)).shown) ∧
      (∀ i, (i < 2 ∨ 7 < i) → KMap.get t.disp.selv i = KMap.get s.disp.selv i))

/-- R392, R393, R398-R405, R407: what the display does as its frames pass. Good rails begin frame 0, with balancing frames when a
segment lies above the limit; rails that fail abandon the work with EV55; the last frame of an update shows the copied image and
raises EV55; the hold's end stops the pumps; a balancing or clearing sequence that is due starts unless work runs; a selvedge
segment goes to its target frame by frame. Frame ends: clauses without waiting display objects. -/
def Obligations.DisplayFrames : Prop :=
  (∀ s : State, s.disp.st ≠ .pumpUp → exec .pumpGood s = .next s ∧ exec .pumpFail s = .next s) ∧
  (∀ s : State, s.disp.st = .pumpUp →
    ((∀ i, i < 88 → (KMap.get s.disp.balance i).natAbs ≤ s.cfg oDcLimit) → exec .pumpGood s = .next { s with disp := { s.disp with
      balNeed := [], balN := 0, frame := 0, half := 0, frameAt := s.clock.clk, st := s.disp.after, pumpFail := false } }) ∧
    (0 < s.cfg oBalPulseMs → 0 < s.cfg oBalMaxFrames → (∃ i, i < 88 ∧ s.cfg oDcLimit < (KMap.get s.disp.balance i).natAbs) →
      ∃ t, exec .pumpGood s = .next t ∧ t.disp.st = .balancing ∧ 0 < t.disp.balN ∧ t.disp.balN ≤ s.cfg oBalMaxFrames ∧
        t.disp.balance = s.disp.balance ∧ changesOnly [.disp] s t) ∧
    (∃ t, exec .pumpFail s = .next t ∧ Raised 55 s t ∧ t.disp = { s.disp with
      st := .abandoned, work := .none, pumps := false, falling := true, pumpFail := true, dirty := true, offStep := 0 } ∧
      changesOnly [.evt, .disp] s t)) ∧
  (∀ s : State, (s.disp.st ≠ .balancing ∧ s.disp.st ≠ .waveform ∧ s.disp.st ≠ .clearing) → exec .displayFrameEnd s = .next s) ∧
  (∀ s : State, s.disp.st = .balancing → s.dict.shadow = [] → ∃ t, exec .displayFrameEnd s = .next t ∧
    t.disp.frames = s.disp.frames + 1 ∧ t.disp.frameAt = s.clock.clk ∧ t.disp.shown = s.disp.shown ∧
    t.disp.st = (if s.disp.frame + 1 < s.disp.balN then .balancing else s.disp.after) ∧
    t.disp.frame = (if s.disp.frame + 1 < s.disp.balN then s.disp.frame + 1 else 0) ∧ changesOnly [.disp] s t) ∧
  (∀ s : State, s.disp.st = .waveform → s.dict.shadow = [] → s.disp.work = .update →
    (s.disp.frame + 1 < phases s.disp.table → ∃ t, exec .displayFrameEnd s = .next t ∧ t.disp.frame = s.disp.frame + 1 ∧
      t.disp.st = .waveform ∧ t.disp.shown = s.disp.shown ∧ t.disp.half = s.disp.half ∧ changesOnly [.disp] s t) ∧
    (phases s.disp.table ≤ s.disp.frame + 1 → s.disp.offStep ≠ 1 → s.disp.pendOff = false → s.disp.pendClear = false →
      s.disp.pendUpdate = false → ∃ t, exec .displayFrameEnd s = .next t ∧ t.disp.shown = s.disp.copy % 2 ^ 88 ∧
        t.disp.updates = (s.disp.updates + 1) % 2 ^ 32 ∧ t.disp.st = .hold ∧ t.disp.work = .none ∧ Raised 55 s t ∧
        changesOnly [.evt, .disp] s t)) ∧
  (∀ s : State, s.disp.st ≠ .hold → exec .pumpHoldExpiry s = .next s) ∧
  (∀ s : State, s.disp.st = .hold → exec .pumpHoldExpiry s = .next { s with
    disp := { s.disp with st := .off, pumps := false, falling := true } }) ∧
  (∀ s : State, (s.disp.pendBal = false ∨ s.disp.busy = true ∨ s.disp.dirty = true) → exec .balDelayExpiry s = .next s) ∧
  (∀ s : State, ((s.disp.clearDue = false ∧ s.disp.pendClear = false) ∨ s.clearable = false ∨ s.disp.busy = true) →
    exec .clearingStart s = .next s) ∧
  (∀ s : State, s.disp.busy = false → phases (s.wf s.disp.band) ≠ 0 → s.disp.pumps = false →
    (s.disp.pendBal = true → s.disp.dirty = false → ∃ t, exec .balDelayExpiry s = .next t ∧ t.disp.work = .balance ∧
      t.disp.st = .pumpUp ∧ t.disp.pendBal = false ∧ t.disp.pumps = true ∧ changesOnly [.disp] s t) ∧
    ((s.disp.clearDue = true ∨ s.disp.pendClear = true) → s.clearable = true → ∃ t, exec .clearingStart s = .next t ∧
      t.disp.work = .clear ∧ t.disp.st = .pumpUp ∧ t.disp.clearDue = false ∧ t.disp.pendClear = false ∧ changesOnly [.disp] s t)) ∧
  (∀ s : State, (s.disp.st ≠ .discharging ∨ s.disp.offStep ≠ 2) → exec .dischargeShortExpiry s = .next s) ∧
  (∀ s : State, s.disp.st = .discharging → s.disp.offStep = 2 → exec .dischargeShortExpiry s = .next { s with
    disp := { s.disp with pumps := false, falling := true, offStep := 3 } }) ∧
  (∀ (s : State) (i : Fin 8) (v : Selv), v = KMap.get s.disp.selv i.val →
    ((v.run.isSome = true ∨ (v.clear = 0 ∧ v.target = v.shown)) → exec (.selvedgeTransition i) s = .next s) ∧
    (v.run = none → v.clear = 0 → v.target ≠ v.shown → phases (s.wf s.disp.band) ≠ 0 → exec (.selvedgeTransition i) s = .next { s with
      disp := { s.disp with selv := s.disp.selv.set i.val { v with
        run := some (v.shown, v.target), table := s.wf s.disp.band, frame := 0, frameAt := s.clock.clk
        bal := s.balFrames (88 + i.val) } } }) ∧
    (v.run = none → exec (.selvedgeFrameEnd i) s = .next s) ∧
    (∀ old new, v.run = some (old, new) → v.bal = 0 → v.frame + 1 < phases v.table → ∃ t, exec (.selvedgeFrameEnd i) s = .next t ∧
      t.disp = { s.disp with
        balance := (s.addBal (88 + i.val) (level v.table v.frame old new * 20)).disp.balance
        selv := s.disp.selv.set i.val { v with frame := v.frame + 1, frameAt := s.clock.clk } } ∧ changesOnly [.disp] s t) ∧
    (∀ old new, v.run = some (old, new) → v.bal = 0 → phases v.table ≤ v.frame + 1 → v.clear ≤ 1 → v.target = new →
      KMap.wf s.disp.selv = true → ∃ t, exec (.selvedgeFrameEnd i) s = .next t ∧
        KMap.get t.disp.selv i.val = { v with run := none, shown := new, frame := 0, clear := 0 } ∧ changesOnly [.disp] s t))

/-- R455-R457, R461, R462, R464: the commands of an update, executed at once and past Table 2.4, each in the states that permit it and
OUT_OF_RANGE in the others: BEGIN erases the header page of the inactive slot, a chunk writes its bytes to the slot and to no
other page, VERIFY and REARM begin the check, ARM needs an instant 2 s ahead, ACTIVATE_NOW sets one, DISARM and ABORT go back,
FALLBACK ends a trial, UPD_CONFIRM is one of the conditions that end it well. -/
def Obligations.UpdateRequests : Prop :=
  (∀ (s : State) (r : Req), s.allows r 0xD000 2 [1] = true → ∃ t, exec (.begin r) s = .next t ∧
    ((s.upd.st = .idle ∨ s.upd.st = .staged ∨ s.upd.st = .rejected ∨ s.upd.st = .fallenBack) → t.ans = { status := stOk } ∧
      t.upd = { s.upd with st := .receiving, pages := [], reject := 0 } ∧
      (s.memWf = true → ∀ x, (slotBase s.freeSlot ≤ x → x < slotBase s.freeSlot + 256 → t.nvmByte x = 0xFF) ∧
        ((x < slotBase s.freeSlot ∨ slotBase s.freeSlot + 256 ≤ x) → t.nvmByte x = s.nvmByte x)) ∧
      changesOnly [.cal, .nvm, .evt, .ports, .upd, .ans] s t) ∧
    ((s.upd.st = .activating ∨ s.upd.st = .trial) → Delivered ((s.ownerWrote r.cls).answerRetry stBusy s.healthLeft) t) ∧
    ((s.upd.st = .receiving ∨ s.upd.st = .verifying ∨ s.upd.st = .armed) → Delivered ((s.ownerWrote r.cls).answer stRange) t)) ∧
  (∀ (s : State) (r : Req) (b : Bytes) (a : Nat), s.allows r 0xD000 3 b = true → a = slotBase s.freeSlot + fld b 0 4 →
    ∃ t, exec (.updChunk r b) s = .next t ∧
      ((s.upd.st ≠ .receiving ∨ fld b 0 4 % 256 ≠ 0 ∨ 786432 < fld b 0 4 + (b.drop 4).length) →
        Delivered ((s.ownerWrote r.cls).answer stRange) t) ∧
      (s.upd.st = .receiving → fld b 0 4 % 256 = 0 → fld b 0 4 + (b.drop 4).length ≤ 786432 → t.ans = { status := stOk } ∧
        t.upd = { s.upd with pages := t.upd.pages } ∧
        (∀ p, KMap.get t.upd.pages p = (KMap.get s.upd.pages p ||
          (decide (fld b 0 4 / 256 ≤ p) && decide (256 * p < fld b 0 4 + (b.drop 4).length)))) ∧
        (s.memWf = true → (∀ i, i < (b.drop 4).length → t.nvmByte (a + i) = (b.drop 4).getD i 0) ∧
          ∀ x, (x < a ∨ (a + (b.drop 4).length + 255) / 256 * 256 ≤ x) → t.nvmByte x = s.nvmByte x) ∧
        changesOnly [.cal, .nvm, .evt, .ports, .upd, .ans] s t)) ∧
  (∀ (s : State) (r : Req) (c : Instr) (n : Fin 256) (old new : UpdSt) (re : Bool),
    ((c = .verify r ∧ n = 2 ∧ old = .receiving ∧ new = .verifying ∧ re = false) ∨
     (c = .rearm r ∧ n = 7 ∧ old = .fallenBack ∧ new = .verifying ∧ re = true) ∨
     (c = .disarm r ∧ n = 5 ∧ old = .armed ∧ new = .staged ∧ re = s.upd.rearm) ∨
     (c = .arm r ∧ n = 3 ∧ old = .staged ∧ new = .armed ∧ re = s.upd.rearm ∧ s.now + 2048 ≤ s.cfg oUpdActivateAt)) →
    s.allows r 0xD000 2 [BitVec.ofFin n] = true → ∃ t, exec c s = .next t ∧
      (s.upd.st = old → Delivered (({ s.ownerWrote r.cls with upd := { s.upd with st := new, rearm := re } }).answer stOk) t) ∧
      (s.upd.st ≠ old → Delivered ((s.ownerWrote r.cls).answer stRange) t)) ∧
  (∀ (s : State) (r : Req), s.allows r 0xD000 2 [3] = true → s.cfg oUpdActivateAt < s.now + 2048 →
    ∃ t, exec (.arm r) s = .next t ∧ Delivered ((s.ownerWrote r.cls).answer stRange) t) ∧
  (∀ (s : State) (r : Req), s.allows r 0xD000 2 [4] = true → ∃ t, exec (.activateNow r) s = .next t ∧
    (s.upd.st ≠ .staged → Delivered ((s.ownerWrote r.cls).answer stRange) t) ∧
    (s.upd.st = .staged → (s.storePut false oUpdActivateAt s.activateSoon 6).isSome = true → KMap.wf s.dict.active = true →
      t.ans = { status := stOk } ∧ t.upd = { s.upd with st := .armed } ∧ t.cfg oUpdActivateAt = s.activateSoon ∧
      s.now + 2048 ≤ s.activateSoon ∧ s.activateSoon % 1024 = 0 ∧ changesOnly [.dict, .cal, .nvm, .evt, .ports, .upd, .ans] s t)) ∧
  (∀ (s : State) (r : Req), s.allows r 0xD000 2 [6] = true → ∃ t, exec (.abort r) s = .next t ∧
    ((s.upd.st = .receiving ∨ s.upd.st = .staged ∨ s.upd.st = .armed) → t.ans = { status := stOk } ∧
      t.upd = { s.upd with st := .idle } ∧
      (s.memWf = true → ∀ x, slotBase s.freeSlot ≤ x → x < slotBase s.freeSlot + 256 → t.nvmByte x = 0xFF) ∧
      changesOnly [.cal, .nvm, .evt, .ports, .upd, .ans] s t) ∧
    ((s.upd.st ≠ .receiving ∧ s.upd.st ≠ .staged ∧ s.upd.st ≠ .armed) → Delivered ((s.ownerWrote r.cls).answer stRange) t)) ∧
  (∀ (s : State) (r : Req), s.allows r 0xD000 2 [8] = true → ∃ t, exec (.fallback r) s = .next t ∧
    (s.upd.st ≠ .trial → Delivered ((s.ownerWrote r.cls).answer stRange) t) ∧
    (s.upd.st = .trial → t.ans = { status := stOk } ∧ t.upd.st = .activating ∧ t.upd.fallback = 7 ∧ t.upd.backRestart = true ∧
      t.upd.boot.run = 1 - s.upd.boot.run ∧ t.isl.control = some s.clock.clk ∧ t.isl.cause = 3)) ∧
  (∀ (s : State) (r : Req) (b : Bytes), s.allows r 0xD000 7 b = true → ∃ t, exec (.updConfirm r b) s = .next t ∧
    (s.upd.st ≠ .trial → Delivered ((s.ownerWrote r.cls).answer stRange) t) ∧
    (s.upd.st = .trial → t.ans = { status := stOk }) ∧
    (s.upd.st = .trial → ofLe b = 0 → Delivered ((s.ownerWrote r.cls).answer stOk) t) ∧
    (s.upd.st = .trial → ofLe b ≠ 0 → s.upd.switched = false →
      Delivered (({ s.ownerWrote r.cls with upd := { s.upd with confirm := true } }).answer stOk) t) ∧
    (s.upd.st = .trial → ofLe b ≠ 0 → s.upd.switched = true → (s.upd.billSeen = true ∨ s.billsSeen = true) → t.upd.st = .idle ∧
      t.upd.boot.state = 0 ∧ t.upd.boot.run = s.upd.boot.run ∧ KMap.get t.evt.pending 60 = true))

/-- R456, R457, R458, R459, R462: the check of an image ends in STAGED, or in REJECTED with its cause, and EV59; an armed image is
activated when its instant has come: the boot record names its slot as a trial and the control island restarts; a group takes the
new half at its first boundary at or after the switch instant; a trial whose deadline passes unconfirmed falls back. -/
def Obligations.UpdateEvents : Prop :=
  (∀ (s : State) (x : Bool), (s.powered = false ∨ s.upd.st ≠ .verifying) → exec (.imageVerifyDone x) s = .next s) ∧
  (∀ (s : State) (x : Bool) (c : Nat), s.powered = true → s.upd.st = .verifying → c = s.rejectCause s.freeSlot x s.upd.rearm →
    ∃ t, exec (.imageVerifyDone x) s = .next t ∧ Raised 59 s t ∧
      t.upd = { s.upd with st := (if c = 0 then .staged else .rejected), reject := c, rearm := false } ∧
      changesOnly [.evt, .upd] s t) ∧
  (∀ s : State, (s.powered = false ∨ s.upd.st ≠ .armed ∨ s.now < s.cfg oUpdActivateAt ∨ s.isl.control.isSome = true ∨
    s.pwr.metering = false) → exec .activation s = .next s) ∧
  (∀ s : State, s.powered = true → s.upd.st = .armed → s.cfg oUpdActivateAt ≤ s.now → s.isl.control = none → s.pwr.metering = true →
    ∃ t, exec .activation s = .next t ∧ t.upd.st = .activating ∧ t.upd.restarting = true ∧
      t.upd.boot.run = 1 - s.upd.boot.run ∧ t.upd.boot.pset = s.upd.boot.pset ∧ t.upd.boot.state = 1 ∧ t.upd.boot.starts = 1 ∧
      t.upd.boot.window = s.cfg oHealthWindowMin ∧ t.upd.boot.trialVer = s.imgFirmware s.freeSlot ∧
      KMap.get t.nvm.sc 5 = KMap.get s.nvm.sc 5 + 1 ∧ t.isl.control = some s.clock.clk ∧ t.isl.cause = 3 ∧
      KMap.get t.evt.pending 58 = true ∧ changesOnly [.dict, .spares, .chans, .hk, .cal, .nvm, .evt, .upd, .isl] s t) ∧
  (∀ (s : State) (g : Fin 4), (s.powered = false ∨ (KMap.get s.groups g.val).running = false ∨ s.upd.tsw = none ∨
      (KMap.get s.groups g.val).switched = true ∨ (KMap.get s.groups g.val).table = []) →
    exec (.patternSwitch g) s = .next s) ∧
  (∀ (s : State) (g : Fin 4) (b : Boundary) (rest : List Boundary) (sw : Stamp), s.powered = true →
    (KMap.get s.groups g.val).running = true → s.upd.tsw = some sw → (KMap.get s.groups g.val).switched = false →
    (KMap.get s.groups g.val).table = b :: rest →
    (s.stampOf b.pos < sw → exec (.patternSwitch g) s = .next s) ∧
    (sw ≤ s.stampOf b.pos → ∃ t, exec (.patternSwitch g) s = .next t ∧ (KMap.get t.groups g.val).half = s.upd.newHalf ∧
      (KMap.get t.groups g.val).switched = true ∧ (∀ h, h ≠ g.val → KMap.get t.groups h = KMap.get s.groups h))) ∧
  (∀ s : State, (s.powered = false ∨ s.upd.st ≠ .trial ∨ s.upd.noDeadline = true ∨ s.now < s.upd.boot.deadline) →
    exec .healthDeadline s = .next s) ∧
  (∀ s : State, s.powered = true → s.upd.st = .trial → s.upd.noDeadline = false → s.upd.boot.deadline ≤ s.now → ∃ t,
    exec .healthDeadline s = .next t ∧ t.upd.st = .activating ∧ t.upd.fallback = 1 ∧ t.upd.backRestart = true ∧
    t.upd.boot.run = 1 - s.upd.boot.run ∧ t.upd.boot.state = 2 ∧ KMap.get t.nvm.sc 6 = KMap.get s.nvm.sc 6 + 1 ∧
    t.isl.control = some s.clock.clk ∧ t.isl.cause = 3 ∧ KMap.get t.evt.pending 58 = true)

/-- The queue of a block: a step with a command in front is that command's effect on the state with the queue's rest. -/
def Obligations.StepTakesFrontCommand : Prop :=
  ∀ (s : State) (c : Instr) (rest : List Instr), s.pending = c :: rest → step s = exec c { s with pending := rest }

/-- The model's choice (log 3): a step on an empty queue advances the modulator clocks by one 1/1,024 s, and nothing else happens. -/
def Obligations.EmptyQueueTicks : Prop :=
  ∀ s : State, s.pending = [] → ∃ t, step s = .next t ∧ t.clock.clk = s.clock.clk + 4000 ∧
    t.clock = { s.clock with clk := t.clock.clk } ∧ changesOnly [.clock] s t

/-- The state at delivery that the tables give: every event clear and uncounted, the rings empty with their numbers before 1, no
session, hold or update in progress, the life cycle BLANK, no page bad, every trim DAC at its middle code, the credit and
accumulator lines 0, the TAP at IDCODE; the memories in canonical form and no command waiting. The device is without supply: the
model's choice (log 4). -/
def Obligations.ResetState : Prop :=
  (∀ n, KMap.get State.reset.evt.pending n = false ∧ KMap.get State.reset.evt.count n = 0) ∧
  (∀ k, (KMap.get State.reset.evt.rings k).entries = [] ∧ (KMap.get State.reset.evt.rings k).seq = 0) ∧
  (∀ m, (KMap.get State.reset.mods m).gain = 8192 ∧ (KMap.get State.reset.mods m).offset = 0 ∧
    (KMap.get State.reset.mods m).retired = false) ∧
  (∀ n, (KMap.get State.reset.acc.lines n).value = 0) ∧ (∀ a, (KMap.get State.reset.pp.credit a).credit = 0) ∧
  State.reset.cal.owner = none ∧ State.reset.dict.owner = none ∧ State.reset.upd.st = .idle ∧ State.reset.lc = 0 ∧
  State.reset.life.keyReturn = none ∧ State.reset.nvm.bad = [] ∧ State.reset.ports.tap = .idcode ∧
  State.reset.memWf = true ∧ State.reset.pending = [] ∧ State.reset.powered = false

/-- Whatever is commanded, the block goes on: every step answers a next state, keeps the byte arrays in their canonical form, and takes
back nothing that is programmed once: the life-cycle cells and KEY_RETURN, the pages marked bad, the values of the spread
counters. -/
def Obligations.EveryStepGoesOnAndKeeps : Prop :=
  ∀ s : State, ∃ t, step s = .next t ∧ (s.memWf = true → t.memWf = true) ∧ keepsProgrammed s t

/-- A command's effect leaves the queue alone, and no command stops the block: for every command and state there is a next state, with
the same commands waiting. -/
def Obligations.CommandsLeaveTheQueue : Prop :=
  ∀ (c : Instr) (s : State), ∃ t, exec c s = .next t ∧ t.pending = s.pending

/-- R383-R386, a rule over all commands: the life-cycle cells change by LC_COMMAND alone, and KEY_RETURN by its own write alone, or
by the WRITE that spells it. -/
def Obligations.OnlyLcCommandChangesTheLifeCycle : Prop :=
  ∀ (c : Instr) (s t : State), exec c s = .next t →
    (t.life.cells ≠ s.life.cells → (∃ r b, c = .lcCommand r b) ∨ (∃ r i j b, c = .write r i j b ∧ okey i j = okey 0x8100 2)) ∧
    (t.life.keyReturn ≠ s.life.keyReturn →
      (∃ r b, c = .keyReturn r b) ∨ (∃ r i j b, c = .write r i j b ∧ okey i j = okey 0x8100 4))

/-- R446, R440, R443: an event that is raised sets its pending bit and steps its count; past the METERING point one that the mask
takes is appended to SR4 under the ring's next number when there is room, and is counted lost when there is none; before it the
boot buffer takes up to 64. -/
def Obligations.EventsReachTheRingOrTheBootBuffer : Prop :=
  ∀ (s : State) (n : Nat) (d : Bytes) (t : State), n < 64 → KMap.wf s.evt.count = true → t = s.raise n d →
    KMap.get t.evt.pending n = true ∧ KMap.get t.evt.count n = (KMap.get s.evt.count n + 1) % 2 ^ 32 ∧
    (∀ m, m ≠ n → KMap.get t.evt.count m = KMap.get s.evt.count m) ∧
    (s.pwr.metering = true → (bit (s.cfg oEventRingMask) n = true ∨ n = 8 ∨ n = 14) → s.consumers 4 ≠ [] → 1 ≤ s.ringFree 4 →
      ∃ e, (KMap.get t.evt.rings 4).entries = (KMap.get s.evt.rings 4).entries ++ [e] ∧
        e.seq = (KMap.get s.evt.rings 4).seq + 1 ∧ (KMap.get t.evt.rings 4).seq = (KMap.get s.evt.rings 4).seq + 1 ∧
        e.data.take 11 = le 4 e.seq.toNat ++ le 6 s.now ++ le 1 n ∧ e.await = s.consumers 4) ∧
    (s.pwr.metering = true → (bit (s.cfg oEventRingMask) n = true ∨ n = 8 ∨ n = 14) → s.consumers 4 ≠ [] → s.ringFree 4 = 0 →
      (KMap.get t.evt.rings 4).entries = (KMap.get s.evt.rings 4).entries ∧
      (KMap.get t.evt.rings 4).lost = sat 4095 ((KMap.get s.evt.rings 4).lost + 1) ∧ (KMap.get t.evt.rings 4).mark = true) ∧
    (s.pwr.metering = true → bit (s.cfg oEventRingMask) n = false → n ≠ 8 → n ≠ 14 → t.evt.rings = s.evt.rings) ∧
    (s.pwr.metering = false → s.evt.boot.length < 64 → t.evt.rings = s.evt.rings ∧
      t.evt.boot = s.evt.boot ++ [{ time := s.now, src := n, count := 1, data := d }]) ∧
    (s.pwr.metering = false → 64 ≤ s.evt.boot.length → t.evt.boot = s.evt.boot ∧
      t.evt.bootLost = sat 65535 (s.evt.bootLost + 1)) ∧ changesOnly [.evt] s t

/-- R309 and the addressed memories: after bytes are written at an address of the NVM array each reads back there, every byte
of another page reads as before, and the array's canonical form is kept. -/
def Obligations.NvmBytesReadBack : Prop :=
  ∀ (s : State) (a : Nat) (b : Bytes) (t : State), s.memWf = true → t = s.nvmWrite a b →
    (∀ i, i < b.length → t.nvmByte (a + i) = b.getD i 0) ∧
    (∀ x, (x / 256 < a / 256 ∨ (a + b.length + 255) / 256 ≤ x / 256) → t.nvmByte x = s.nvmByte x) ∧
    (∀ x, 786432 ≤ x → (x < a ∨ a + b.length ≤ x) → t.nvmByte x = s.nvmByte x) ∧
    t.memWf = true ∧ changesOnly [.nvm] s t

/-- R45: a WRITE that is executed and refused leaves the active values, every waiting value and the records of both stores as they
were. -/
def Obligations.RefusedWriteChangesNothing : Prop :=
  ∀ (s t : State) (r : Req) (i j : Nat) (b : Bytes), s.serves r 2 i j b = true → s.tamper.restartDue = none →
    exec (.write r i j b) s = .next t → t.ans.status ≠ stOk → t.ans.status ≠ stPending →
    t.dict.active = s.dict.active ∧ t.dict.shadow = s.dict.shadow ∧ t.dict.held = s.dict.held ∧
    t.dict.nextStart = s.dict.nextStart ∧ t.nvm.cfg.recs = s.nvm.cfg.recs ∧ t.nvm.cal.recs = s.nvm.cal.recs

/-- R36: a write of an object of effect Y or F whose block is stopped is active at once and is answered OK. The write is one that is
executed, passes the checks of R44 with its record taken by the store, and is not kept by a hold of its class (R42). -/
def Obligations.StoppedBlockTakesWritesAtOnce : Prop :=
  ∀ (s u p : State) (r : Req) (i j : Nat) (b : Bytes) (c : Card), s.allows r i j b = true → cardOf i j = some c →
    (c.eff = .y ∨ c.eff = .f) → u = s.ownerWrote r.cls → s.holds r.cls = false → KMap.wf s.dict.active = true →
    u.crossed r.cls (okey i j) (ofLe b) = true → u.persist c (okey i j) (ofLe b) = some p →
    p.blockStopped (okey i j) (ofLe b) = true → ∃ t, exec (.write r i j b) s = .next t ∧
      t.cfg (okey i j) = ofLe b ∧ t.ans = { status := stOk }

/-- R94: with the values that a write of TH_HIGH_PPM, TH_LOW_PPM or TH_HYST_PPM would leave, waiting values included (R43), both
thresholds are on (neither level at the value that R93 calls off) and TH_LOW_PPM + 2 TH_HYST_PPM exceeds TH_HIGH_PPM: the
write is refused with OUT_OF_RANGE. -/
def Obligations.ThresholdsKeepTheirDistance : Prop :=
  ∀ (s v : State) (r : Req) (ch : Fin 256) (j : Nat) (b : Bytes), (j = 4 ∨ j = 5 ∨ j = 6) →
    s.allows r (0x3200 + ch.val) j b = true →
    v = (s.view (s.holds r.cls)).setCfg (okey (0x3200 + ch.val) j) (ofLe b) →
    v.cfg (oThHighPpm ch.val) ≠ 2000000 → v.cfg (oThLowPpm ch.val) ≠ 0 →
    v.cfg (oThHighPpm ch.val) < v.cfg (oThLowPpm ch.val) + 2 * v.cfg (oThHystPpm ch.val) →
    ∃ t, exec (.write r (0x3200 + ch.val) j b) s = .next t ∧ Delivered ((s.ownerWrote r.cls).answer stRange) t

/-- R464: in FALLEN_BACK, ARM and ACTIVATE_NOW are refused with OUT_OF_RANGE and no activation begins; REARM begins the check of the
slot again, which ends in STAGED or REJECTED; BEGIN starts a new image in its place. -/
def Obligations.FallenBackImageStaysBack : Prop :=
  (∀ (s : State) (r : Req), s.upd.st = .fallenBack →
    (s.allows r 0xD000 2 [3] = true → ∃ t, exec (.arm r) s = .next t ∧ Delivered ((s.ownerWrote r.cls).answer stRange) t) ∧
    (s.allows r 0xD000 2 [4] = true → ∃ t, exec (.activateNow r) s = .next t ∧
      Delivered ((s.ownerWrote r.cls).answer stRange) t) ∧
    exec .activation s = .next s ∧
    (s.allows r 0xD000 2 [7] = true → ∃ t, exec (.rearm r) s = .next t ∧ Delivered (({ s.ownerWrote r.cls with
      upd := { s.upd with st := .verifying, rearm := true } }).answer stOk) t) ∧
    (s.allows r 0xD000 2 [1] = true → ∃ t, exec (.begin r) s = .next t ∧ t.ans = { status := stOk } ∧
      t.upd = { s.upd with st := .receiving, pages := [], reject := 0 })) ∧
  (∀ (s : State) (x : Bool), s.powered = true → s.upd.st = .verifying → s.upd.rearm = true →
    ∃ t, exec (.imageVerifyDone x) s = .next t ∧ (t.upd.st = .staged ∨ t.upd.st = .rejected))

/-- R376: a write of 1 to MARK_CLEAR clears the selvedge tamper mark, and is refused with OUT_OF_RANGE while a detection with MARK in
its responses is active. A write of 0 is answered OK and changes nothing. -/
def Obligations.MarkClearWaitsForItsDetections : Prop :=
  ∀ (s : State) (r : Req) (b : Bytes), s.allows r 0x8000 0x28 b = true → ∃ t, exec (.markClear r b) s = .next t ∧
    (ofLe b = 0 → Delivered ((s.ownerWrote r.cls).answer stOk) t) ∧
    (ofLe b ≠ 0 → s.markActive = true → Delivered ((s.ownerWrote r.cls).answer stRange) t) ∧
    (ofLe b ≠ 0 → s.markActive = false → t.ans = { status := stOk } ∧ t.tamper = { s.tamper with mark := false } ∧
      changesOnly [.cal, .evt, .ports, .tamper, .disp, .ans] s t)
end

