-- ==== Sys2Proof/Laws/Kmap.lean ====
section
/-! SUPPORT. Every operation on a sparse table or a sparse byte array keeps its canonical form, a read after a write gives the
value written, and a write leaves every other place alone. -/
namespace Sys2Proof

variable {V : Type} [Inhabited V] [DecidableEq V]

/-- A canonical table above a bound is canonical above every smaller bound, and above none. -/
theorem KMap.wfFrom_weaken {m : KMap V} {a : Nat} (h : KMap.wfFrom (some a) m = true) :
    KMap.wfFrom none m = true ∧ ∀ b, b ≤ a → KMap.wfFrom (some b) m = true := by
  cases m with
  | nil => exact ⟨rfl, fun _ _ => rfl⟩
  | cons e t =>
    obtain ⟨k, v⟩ := e
    simp only [KMap.wfFrom, Bool.and_eq_true, decide_eq_true_eq] at h ⊢
    exact ⟨⟨⟨trivial, h.1.2⟩, h.2⟩, fun b hb => ⟨⟨by omega, h.1.2⟩, h.2⟩⟩

/-- Every key below a canonical table's bound holds the default. -/
theorem KMap.get_below {m : KMap V} {a : Nat} (h : KMap.wfFrom (some a) m = true) {k : Nat} (hk : k ≤ a) :
    KMap.get m k = default := by
  induction m generalizing a with
  | nil => rfl
  | cons e t ih =>
    obtain ⟨b, v⟩ := e
    simp only [KMap.wfFrom, Bool.and_eq_true, decide_eq_true_eq] at h
    have : b ≠ k := by omega
    simp only [KMap.get, this, if_false]
    exact ih h.2 (by omega)

/-- Writing above a bound keeps the canonical form above it. -/
theorem KMap.set_wfFrom {m : KMap V} {lo : Option Nat} (h : KMap.wfFrom lo m = true) (k : Nat) (v : V)
    (hk : ∀ l, lo = some l → l < k) : KMap.wfFrom lo (KMap.set m k v) = true := by
  induction m generalizing lo with
  | nil =>
    unfold KMap.set
    split
    · rfl
    · cases lo with
      | none => simpa [KMap.wfFrom]
      | some l => simpa [KMap.wfFrom] using ⟨hk l rfl, by assumption⟩
  | cons e t ih =>
    obtain ⟨a, w⟩ := e
    simp only [KMap.wfFrom, Bool.and_eq_true, decide_eq_true_eq] at h
    have ht := KMap.wfFrom_weaken h.2
    unfold KMap.set
    split
    · rename_i e
      subst e
      split
      · cases lo with
        | none => exact ht.1
        | some l => exact ht.2 l (Nat.le_of_lt (hk l rfl))
      · simp only [KMap.wfFrom, Bool.and_eq_true, decide_eq_true_eq]
        exact ⟨⟨h.1.1, by assumption⟩, h.2⟩
    · split
      · split
        · simp only [KMap.wfFrom, Bool.and_eq_true, decide_eq_true_eq]
          exact h
        · simp only [KMap.wfFrom, Bool.and_eq_true, decide_eq_true_eq]
          refine ⟨⟨?_, by assumption⟩, ⟨by assumption, h.1.2⟩, h.2⟩
          cases lo with
          | none => trivial
          | some l => simpa using hk l rfl
      · simp only [KMap.wfFrom, Bool.and_eq_true, decide_eq_true_eq]
        refine ⟨h.1, ih h.2 ?_⟩
        intro l e
        cases e
        omega

/-- A write keeps the canonical form. -/
theorem KMap.set_wf {m : KMap V} (h : KMap.wf m = true) (k : Nat) (v : V) : KMap.wf (KMap.set m k v) = true :=
  KMap.set_wfFrom h k v (fun _ e => nomatch e)

/-- A change of one key keeps the canonical form. -/
theorem KMap.upd_wf {m : KMap V} (h : KMap.wf m = true) (k : Nat) (f : V → V) : KMap.wf (KMap.upd m k f) = true :=
  KMap.set_wf h k _

/-- Removing a key keeps the canonical form. -/
theorem KMap.del_wfFrom {m : KMap V} {lo : Option Nat} (h : KMap.wfFrom lo m = true) (k : Nat) :
    KMap.wfFrom lo (KMap.del m k) = true := by
  induction m generalizing lo with
  | nil => rfl
  | cons e t ih =>
    obtain ⟨a, w⟩ := e
    simp only [KMap.wfFrom, Bool.and_eq_true, decide_eq_true_eq] at h
    unfold KMap.del
    split
    · have ht := KMap.wfFrom_weaken h.2
      cases lo with
      | none => exact ht.1
      | some l => exact ht.2 l (Nat.le_of_lt (by simpa using h.1.1))
    · simp only [KMap.wfFrom, Bool.and_eq_true, decide_eq_true_eq]
      exact ⟨h.1, ih h.2⟩

/-- Changing every listed value keeps the canonical form. -/
theorem KMap.mapV_wfFrom {m : KMap V} {lo : Option Nat} (h : KMap.wfFrom lo m = true) (f : V → V) :
    KMap.wfFrom lo (KMap.mapV m f) = true := by
  induction m generalizing lo with
  | nil => rfl
  | cons e t ih =>
    obtain ⟨a, w⟩ := e
    simp only [KMap.wfFrom, Bool.and_eq_true, decide_eq_true_eq] at h
    have step := ih h.2
    unfold KMap.mapV at step ⊢
    rw [List.filterMap_cons]
    by_cases hd : f w = default
    · simp only [hd, if_true]
      have ht := KMap.wfFrom_weaken step
      cases lo with
      | none => exact ht.1
      | some l => exact ht.2 l (Nat.le_of_lt (by simpa using h.1.1))
    · simp only [hd, if_false, KMap.wfFrom, Bool.and_eq_true, decide_eq_true_eq]
      exact ⟨⟨h.1.1, hd⟩, step⟩

/-- A read after a write of a value that is not the default. -/
theorem KMap.get_set_of_ne {m : KMap V} {k : Nat} {v : V} (hv : v ≠ default) (j : Nat) :
    KMap.get (KMap.set m k v) j = if j = k then v else KMap.get m j := by
  induction m with
  | nil =>
    by_cases h : k = j
    · simp [KMap.set, KMap.get, hv, h]
    · simp [KMap.set, KMap.get, hv, h, Ne.symm h]
  | cons e t ih =>
    obtain ⟨a, w⟩ := e
    unfold KMap.set
    by_cases ha : a = k
    · subst ha
      by_cases h : a = j
      · simp [KMap.get, hv, h]
      · simp [KMap.get, hv, h, Ne.symm h]
    · by_cases hk : k < a
      · by_cases h : k = j
        · subst h
          simp [KMap.get, hv, ha, hk]
        · simp [KMap.get, hv, ha, hk, h, Ne.symm h]
      · by_cases h : a = j
        · subst h
          simp [KMap.get, ha, hk]
        · simp [KMap.get, ha, hk, h, ih]

/-- A read after a write to a canonical table. -/
theorem KMap.get_set {m : KMap V} (h : KMap.wf m = true) (k : Nat) (v : V) (j : Nat) :
    KMap.get (KMap.set m k v) j = if j = k then v else KMap.get m j := by
  by_cases hv : v = default
  · subst hv
    suffices ∀ lo, KMap.wfFrom lo m = true →
        KMap.get (KMap.set m k default) j = if j = k then default else KMap.get m j from this none h
    clear h
    induction m with
    | nil => intro _ _; simp [KMap.set, KMap.get]
    | cons e t ih =>
      obtain ⟨a, w⟩ := e
      intro lo hw
      simp only [KMap.wfFrom, Bool.and_eq_true, decide_eq_true_eq] at hw
      unfold KMap.set
      by_cases ha : a = k
      · subst ha
        by_cases hj : j = a
        · simp [hj, KMap.get_below hw.2 (Nat.le_refl a)]
        · simp [KMap.get, hj, Ne.symm hj]
      · by_cases hk : k < a
        · by_cases hj : j = k
          · subst hj
            simp [KMap.get, ha, hk, KMap.get_below hw.2 (Nat.le_of_lt hk)]
          · simp [ha, hk, hj]
        · by_cases hj : a = j
          · subst hj
            simp [KMap.get, ha, hk]
          · simp [KMap.get, ha, hk, hj, ih _ hw.2]
  · exact KMap.get_set_of_ne hv j

/-- A read after a change of one key of a canonical table. -/
theorem KMap.get_upd {m : KMap V} (h : KMap.wf m = true) (k : Nat) (f : V → V) (j : Nat) :
    KMap.get (KMap.upd m k f) j = if j = k then f (KMap.get m k) else KMap.get m j := KMap.get_set h k _ j

namespace Machine

/-- A canonical byte array above a bound is canonical above every smaller bound, and above none. -/
theorem cellsWf_weaken {fill : Byte} {m : List Host.Cell} {a : Nat} (h : cellsWf fill (some a) m = true) :
    cellsWf fill none m = true ∧ ∀ b, b ≤ a → cellsWf fill (some b) m = true := by
  cases m with
  | nil => exact ⟨rfl, fun _ _ => rfl⟩
  | cons e t =>
    obtain ⟨k, v⟩ := e
    simp only [cellsWf, Bool.and_eq_true, decide_eq_true_eq] at h ⊢
    exact ⟨⟨⟨trivial, h.1.2⟩, h.2⟩, fun b hb => ⟨⟨by omega, h.1.2⟩, h.2⟩⟩

/-- Writing one byte above a bound keeps the canonical form above it. -/
theorem cellSet_wfFrom {fill : Byte} {m : List Host.Cell} {lo : Option Nat} (h : cellsWf fill lo m = true) (k : Nat)
    (v : Byte) (hk : ∀ l, lo = some l → l < k) : cellsWf fill lo (cellSet fill m k v) = true := by
  induction m generalizing lo with
  | nil =>
    unfold cellSet
    split
    · rfl
    · cases lo with
      | none => simpa [cellsWf]
      | some l => simpa [cellsWf] using ⟨hk l rfl, by assumption⟩
  | cons e t ih =>
    obtain ⟨a, w⟩ := e
    simp only [cellsWf, Bool.and_eq_true, decide_eq_true_eq] at h
    have ht := cellsWf_weaken h.2
    unfold cellSet
    split
    · rename_i e
      subst e
      split
      · cases lo with
        | none => exact ht.1
        | some l => exact ht.2 l (Nat.le_of_lt (hk l rfl))
      · simp only [cellsWf, Bool.and_eq_true, decide_eq_true_eq]
        exact ⟨⟨h.1.1, by assumption⟩, h.2⟩
    · split
      · split
        · simp only [cellsWf, Bool.and_eq_true, decide_eq_true_eq]
          exact h
        · simp only [cellsWf, Bool.and_eq_true, decide_eq_true_eq]
          refine ⟨⟨?_, by assumption⟩, ⟨by assumption, h.1.2⟩, h.2⟩
          cases lo with
          | none => trivial
          | some l => simpa using hk l rfl
      · simp only [cellsWf, Bool.and_eq_true, decide_eq_true_eq]
        refine ⟨h.1, ih h.2 ?_⟩
        intro l e
        cases e
        omega

/-- Writing one byte keeps the canonical form. -/
theorem cellSet_wf {fill : Byte} {m : List Host.Cell} (h : cellsWf fill none m = true) (k : Nat) (v : Byte) :
    cellsWf fill none (cellSet fill m k v) = true := cellSet_wfFrom h k v (fun _ e => nomatch e)

/-- Writing a run of bytes keeps the canonical form. -/
theorem cellsSet_wf {fill : Byte} {m : List Host.Cell} (h : cellsWf fill none m = true) (k : Nat) (b : Bytes) :
    cellsWf fill none (cellsSet fill m k b) = true := by
  induction b generalizing m k with
  | nil => exact h
  | cons v t ih => exact ih (cellSet_wf h k v) (k + 1)

end Machine
end Sys2Proof
end

