-- ==== Sys2Proof/Laws/Frame.lean ====
section
/-! SUPPORT. What every operation of the block may change, said once for each: Only m s t says that t agrees with s on every
component of State outside the mask m (bit i is the i-th field of State), that the queue is untouched, that the model's clock
has not run back, that the byte arrays keep their canonical form, and that what is programmed once stays programmed. -/
namespace Sys2Proof.Machine

/-- What no operation undoes in the NVM island: the canonical form of its bytes, a page marked bad, a spread counter's value. -/
structure NvmStep (a b : Nvm) : Prop where
  wf  : cellsWf 0xFF none a.mem = true → cellsWf 0xFF none b.mem = true
  bad : ∀ p ∈ a.bad, p ∈ b.bad
  sc  : ∀ k, KMap.get a.sc k ≤ KMap.get b.sc k

/-- What no operation undoes in the memory island: the canonical form of the capture buffer. -/
structure MemStep (a b : Mem) : Prop where
  wf : cellsWf 0 none a.capture = true → cellsWf 0 none b.capture = true

/-- What no operation undoes in the life-cycle cells: a programmed copy of a cell, and KEY_RETURN (R383, R386). -/
structure LifeStep (a b : Life) : Prop where
  len   : b.cells.length = a.cells.length
  three : (∀ c ∈ a.cells, c ≤ 3) → ∀ c ∈ b.cells, c ≤ 3
  up    : (∀ c ∈ a.cells, c ≤ 3) → ∀ i, a.cells.getD i 0 ≤ b.cells.getD i 0
  key   : ∀ k, a.keyReturn = some k → b.keyReturn = some k

/-- Nothing of the NVM island that NvmStep speaks of has changed. -/
theorem NvmStep.of {a b : Nvm} (h : b.mem = a.mem) (h' : b.bad = a.bad) (h'' : b.sc = a.sc) : NvmStep a b :=
  ⟨fun w => h ▸ w, fun _ p => h' ▸ p, fun k => h'' ▸ Nat.le_refl (KMap.get b.sc k)⟩

theorem NvmStep.trans {a b c : Nvm} (h : NvmStep a b) (k : NvmStep b c) : NvmStep a c :=
  ⟨fun w => k.wf (h.wf w), fun p hp => k.bad p (h.bad p hp), fun i => Nat.le_trans (h.sc i) (k.sc i)⟩

theorem MemStep.of {a b : Mem} (h : b.capture = a.capture) : MemStep a b := ⟨fun w => h ▸ w⟩

theorem MemStep.trans {a b c : Mem} (h : MemStep a b) (k : MemStep b c) : MemStep a c := ⟨fun w => k.wf (h.wf w)⟩

theorem LifeStep.of {a b : Life} (h : b.cells = a.cells) (h' : b.keyReturn = a.keyReturn) : LifeStep a b :=
  ⟨by rw [h], fun w => h ▸ w, fun _ i => h ▸ Nat.le_refl (b.cells.getD i 0), fun _ e => h'.trans e⟩

theorem LifeStep.trans {a b c : Life} (h : LifeStep a b) (k : LifeStep b c) : LifeStep a c :=
  ⟨k.len.trans h.len, fun w => k.three (h.three w), fun w i => Nat.le_trans (h.up w i) (k.up (h.three w) i),
    fun x e => k.key x (h.key x e)⟩

/-- t differs from s at most in the components of the mask, and in what no operation undoes not at all. -/
structure Only (m : Nat) (s t : State) : Prop where
  dict : m.testBit 0 = false → t.dict = s.dict
  clock : m.testBit 1 = false → t.clock = s.clock
  mods : m.testBit 2 = false → t.mods = s.mods
  spares : m.testBit 3 = false → t.spares = s.spares
  chans : m.testBit 4 = false → t.chans = s.chans
  hk : m.testBit 5 = false → t.hk = s.hk
  th : m.testBit 6 = false → t.th = s.th
  ftrip : m.testBit 7 = false → t.ftrip = s.ftrip
  tracks : m.testBit 8 = false → t.tracks = s.tracks
  groups : m.testBit 9 = false → t.groups = s.groups
  eng : m.testBit 10 = false → t.eng = s.eng
  accts : m.testBit 11 = false → t.accts = s.accts
  chres : m.testBit 12 = false → t.chres = s.chres
  pq : m.testBit 13 = false → t.pq = s.pq
  capt : m.testBit 14 = false → t.capt = s.capt
  captMissed : m.testBit 15 = false → t.captMissed = s.captMissed
  acc : m.testBit 16 = false → t.acc = s.acc
  bal : m.testBit 17 = false → t.bal = s.bal
  contrib : m.testBit 18 = false → t.contrib = s.contrib
  pp : m.testBit 19 = false → t.pp = s.pp
  cal : m.testBit 20 = false → t.cal = s.cal
  nvm : m.testBit 21 = false → t.nvm = s.nvm
  pwr : m.testBit 22 = false → t.pwr = s.pwr
  evt : m.testBit 23 = false → t.evt = s.evt
  ports : m.testBit 24 = false → t.ports = s.ports
  mem : m.testBit 25 = false → t.mem = s.mem
  tamper : m.testBit 26 = false → t.tamper = s.tamper
  life : m.testBit 27 = false → t.life = s.life
  disp : m.testBit 28 = false → t.disp = s.disp
  upd : m.testBit 29 = false → t.upd = s.upd
  isl : m.testBit 30 = false → t.isl = s.isl
  ans : m.testBit 31 = false → t.ans = s.ans
  pending : t.pending = s.pending
  clk : s.clock.clk ≤ t.clock.clk
  nvmStep : NvmStep s.nvm t.nvm
  memStep : MemStep s.mem t.mem
  lifeStep : LifeStep s.life t.life

theorem Only.refl (m : Nat) (s : State) : Only m s s := by
  constructor
  case dict => exact fun _ => rfl
  case clock => exact fun _ => rfl
  case mods => exact fun _ => rfl
  case spares => exact fun _ => rfl
  case chans => exact fun _ => rfl
  case hk => exact fun _ => rfl
  case th => exact fun _ => rfl
  case ftrip => exact fun _ => rfl
  case tracks => exact fun _ => rfl
  case groups => exact fun _ => rfl
  case eng => exact fun _ => rfl
  case accts => exact fun _ => rfl
  case chres => exact fun _ => rfl
  case pq => exact fun _ => rfl
  case capt => exact fun _ => rfl
  case captMissed => exact fun _ => rfl
  case acc => exact fun _ => rfl
  case bal => exact fun _ => rfl
  case contrib => exact fun _ => rfl
  case pp => exact fun _ => rfl
  case cal => exact fun _ => rfl
  case nvm => exact fun _ => rfl
  case pwr => exact fun _ => rfl
  case evt => exact fun _ => rfl
  case ports => exact fun _ => rfl
  case mem => exact fun _ => rfl
  case tamper => exact fun _ => rfl
  case life => exact fun _ => rfl
  case disp => exact fun _ => rfl
  case upd => exact fun _ => rfl
  case isl => exact fun _ => rfl
  case ans => exact fun _ => rfl
  case pending => rfl
  case clk => exact Nat.le_refl _
  case nvmStep => exact .of rfl rfl rfl
  case memStep => exact .of rfl
  case lifeStep => exact .of rfl rfl

theorem Only.trans {m : Nat} {a b c : State} (h : Only m a b) (k : Only m b c) : Only m a c := by
  constructor
  case dict => exact fun e => (k.dict e).trans (h.dict e)
  case clock => exact fun e => (k.clock e).trans (h.clock e)
  case mods => exact fun e => (k.mods e).trans (h.mods e)
  case spares => exact fun e => (k.spares e).trans (h.spares e)
  case chans => exact fun e => (k.chans e).trans (h.chans e)
  case hk => exact fun e => (k.hk e).trans (h.hk e)
  case th => exact fun e => (k.th e).trans (h.th e)
  case ftrip => exact fun e => (k.ftrip e).trans (h.ftrip e)
  case tracks => exact fun e => (k.tracks e).trans (h.tracks e)
  case groups => exact fun e => (k.groups e).trans (h.groups e)
  case eng => exact fun e => (k.eng e).trans (h.eng e)
  case accts => exact fun e => (k.accts e).trans (h.accts e)
  case chres => exact fun e => (k.chres e).trans (h.chres e)
  case pq => exact fun e => (k.pq e).trans (h.pq e)
  case capt => exact fun e => (k.capt e).trans (h.capt e)
  case captMissed => exact fun e => (k.captMissed e).trans (h.captMissed e)
  case acc => exact fun e => (k.acc e).trans (h.acc e)
  case bal => exact fun e => (k.bal e).trans (h.bal e)
  case contrib => exact fun e => (k.contrib e).trans (h.contrib e)
  case pp => exact fun e => (k.pp e).trans (h.pp e)
  case cal => exact fun e => (k.cal e).trans (h.cal e)
  case nvm => exact fun e => (k.nvm e).trans (h.nvm e)
  case pwr => exact fun e => (k.pwr e).trans (h.pwr e)
  case evt => exact fun e => (k.evt e).trans (h.evt e)
  case ports => exact fun e => (k.ports e).trans (h.ports e)
  case mem => exact fun e => (k.mem e).trans (h.mem e)
  case tamper => exact fun e => (k.tamper e).trans (h.tamper e)
  case life => exact fun e => (k.life e).trans (h.life e)
  case disp => exact fun e => (k.disp e).trans (h.disp e)
  case upd => exact fun e => (k.upd e).trans (h.upd e)
  case isl => exact fun e => (k.isl e).trans (h.isl e)
  case ans => exact fun e => (k.ans e).trans (h.ans e)
  case pending => exact k.pending.trans h.pending
  case clk => exact Nat.le_trans h.clk k.clk
  case nvmStep => exact h.nvmStep.trans k.nvmStep
  case memStep => exact h.memStep.trans k.memStep
  case lifeStep => exact h.lifeStep.trans k.lifeStep

/-- What keeps to a mask keeps to a larger one. -/
theorem Only.mono {m n : Nat} {a b : State} (h : Only m a b) (hm : m &&& n = m) : Only n a b := by
  have key : ∀ i, n.testBit i = false → m.testBit i = false := by
    intro i hi
    rw [← hm, Nat.testBit_and, hi, Bool.and_false]
  constructor
  case dict => exact fun e => h.dict (key _ e)
  case clock => exact fun e => h.clock (key _ e)
  case mods => exact fun e => h.mods (key _ e)
  case spares => exact fun e => h.spares (key _ e)
  case chans => exact fun e => h.chans (key _ e)
  case hk => exact fun e => h.hk (key _ e)
  case th => exact fun e => h.th (key _ e)
  case ftrip => exact fun e => h.ftrip (key _ e)
  case tracks => exact fun e => h.tracks (key _ e)
  case groups => exact fun e => h.groups (key _ e)
  case eng => exact fun e => h.eng (key _ e)
  case accts => exact fun e => h.accts (key _ e)
  case chres => exact fun e => h.chres (key _ e)
  case pq => exact fun e => h.pq (key _ e)
  case capt => exact fun e => h.capt (key _ e)
  case captMissed => exact fun e => h.captMissed (key _ e)
  case acc => exact fun e => h.acc (key _ e)
  case bal => exact fun e => h.bal (key _ e)
  case contrib => exact fun e => h.contrib (key _ e)
  case pp => exact fun e => h.pp (key _ e)
  case cal => exact fun e => h.cal (key _ e)
  case nvm => exact fun e => h.nvm (key _ e)
  case pwr => exact fun e => h.pwr (key _ e)
  case evt => exact fun e => h.evt (key _ e)
  case ports => exact fun e => h.ports (key _ e)
  case mem => exact fun e => h.mem (key _ e)
  case tamper => exact fun e => h.tamper (key _ e)
  case life => exact fun e => h.life (key _ e)
  case disp => exact fun e => h.disp (key _ e)
  case upd => exact fun e => h.upd (key _ e)
  case isl => exact fun e => h.isl (key _ e)
  case ans => exact fun e => h.ans (key _ e)
  case pending => exact h.pending
  case clk => exact h.clk
  case nvmStep => exact h.nvmStep
  case memStep => exact h.memStep
  case lifeStep => exact h.lifeStep

/-- Both branches of a choice. -/
theorem only_ite {m : Nat} {s a b : State} {c : Prop} [Decidable c] (h : c → Only m s a) (k : ¬ c → Only m s b) :
    Only m s (if c then a else b) := by
  split
  · exact h ‹_›
  · exact k ‹_›

/-- An operation done for every element of a list. -/
theorem only_foldl {α : Type} {m : Nat} {s t : State} {f : State → α → State} {l : List α}
    (h : Only m s t) (hf : ∀ u x, Only m u (f u x)) : Only m s (l.foldl f t) := by
  induction l generalizing t with
  | nil => exact h
  | cons x r ih => exact ih (h.trans (hf t x))

/-- A record that may be refused. -/
theorem only_getD {m : Nat} {s d : State} {o : Option State} (h : ∀ x, o = some x → Only m s x) (hd : Only m s d) :
    Only m s (o.getD d) := by
  cases o with
  | none => exact hd
  | some x => exact h x rfl

/-! ### One component replaced -/

variable {m : Nat} {s x t : State}

theorem only_set_dict {v : _} (h : Only m s x) (hm : 1 &&& m = 1) : Only m s { x with dict := v } := by
  refine h.trans (Only.mono (m := 1) ?_ hm)
  constructor
  case clk => exact Nat.le_refl _
  case nvmStep => exact .of rfl rfl rfl
  case memStep => exact .of rfl
  case lifeStep => exact .of rfl rfl
  case pending => rfl
  all_goals intro hb; first | rfl | exact absurd hb (by decide)

theorem only_set_clock {v : _} (h : Only m s x) (hv : x.clock.clk ≤ v.clk) (hm : 2 &&& m = 2) : Only m s { x with clock := v } := by
  refine h.trans (Only.mono (m := 2) ?_ hm)
  constructor
  case clk => exact hv
  case nvmStep => exact .of rfl rfl rfl
  case memStep => exact .of rfl
  case lifeStep => exact .of rfl rfl
  case pending => rfl
  all_goals intro hb; first | rfl | exact absurd hb (by decide)

theorem only_set_mods {v : _} (h : Only m s x) (hm : 4 &&& m = 4) : Only m s { x with mods := v } := by
  refine h.trans (Only.mono (m := 4) ?_ hm)
  constructor
  case clk => exact Nat.le_refl _
  case nvmStep => exact .of rfl rfl rfl
  case memStep => exact .of rfl
  case lifeStep => exact .of rfl rfl
  case pending => rfl
  all_goals intro hb; first | rfl | exact absurd hb (by decide)

theorem only_set_spares {v : _} (h : Only m s x) (hm : 8 &&& m = 8) : Only m s { x with spares := v } := by
  refine h.trans (Only.mono (m := 8) ?_ hm)
  constructor
  case clk => exact Nat.le_refl _
  case nvmStep => exact .of rfl rfl rfl
  case memStep => exact .of rfl
  case lifeStep => exact .of rfl rfl
  case pending => rfl
  all_goals intro hb; first | rfl | exact absurd hb (by decide)

theorem only_set_chans {v : _} (h : Only m s x) (hm : 16 &&& m = 16) : Only m s { x with chans := v } := by
  refine h.trans (Only.mono (m := 16) ?_ hm)
  constructor
  case clk => exact Nat.le_refl _
  case nvmStep => exact .of rfl rfl rfl
  case memStep => exact .of rfl
  case lifeStep => exact .of rfl rfl
  case pending => rfl
  all_goals intro hb; first | rfl | exact absurd hb (by decide)

theorem only_set_hk {v : _} (h : Only m s x) (hm : 32 &&& m = 32) : Only m s { x with hk := v } := by
  refine h.trans (Only.mono (m := 32) ?_ hm)
  constructor
  case clk => exact Nat.le_refl _
  case nvmStep => exact .of rfl rfl rfl
  case memStep => exact .of rfl
  case lifeStep => exact .of rfl rfl
  case pending => rfl
  all_goals intro hb; first | rfl | exact absurd hb (by decide)

theorem only_set_th {v : _} (h : Only m s x) (hm : 64 &&& m = 64) : Only m s { x with th := v } := by
  refine h.trans (Only.mono (m := 64) ?_ hm)
  constructor
  case clk => exact Nat.le_refl _
  case nvmStep => exact .of rfl rfl rfl
  case memStep => exact .of rfl
  case lifeStep => exact .of rfl rfl
  case pending => rfl
  all_goals intro hb; first | rfl | exact absurd hb (by decide)

theorem only_set_ftrip {v : _} (h : Only m s x) (hm : 128 &&& m = 128) : Only m s { x with ftrip := v } := by
  refine h.trans (Only.mono (m := 128) ?_ hm)
  constructor
  case clk => exact Nat.le_refl _
  case nvmStep => exact .of rfl rfl rfl
  case memStep => exact .of rfl
  case lifeStep => exact .of rfl rfl
  case pending => rfl
  all_goals intro hb; first | rfl | exact absurd hb (by decide)

theorem only_set_tracks {v : _} (h : Only m s x) (hm : 256 &&& m = 256) : Only m s { x with tracks := v } := by
  refine h.trans (Only.mono (m := 256) ?_ hm)
  constructor
  case clk => exact Nat.le_refl _
  case nvmStep => exact .of rfl rfl rfl
  case memStep => exact .of rfl
  case lifeStep => exact .of rfl rfl
  case pending => rfl
  all_goals intro hb; first | rfl | exact absurd hb (by decide)

theorem only_set_groups {v : _} (h : Only m s x) (hm : 512 &&& m = 512) : Only m s { x with groups := v } := by
  refine h.trans (Only.mono (m := 512) ?_ hm)
  constructor
  case clk => exact Nat.le_refl _
  case nvmStep => exact .of rfl rfl rfl
  case memStep => exact .of rfl
  case lifeStep => exact .of rfl rfl
  case pending => rfl
  all_goals intro hb; first | rfl | exact absurd hb (by decide)

theorem only_set_eng {v : _} (h : Only m s x) (hm : 1024 &&& m = 1024) : Only m s { x with eng := v } := by
  refine h.trans (Only.mono (m := 1024) ?_ hm)
  constructor
  case clk => exact Nat.le_refl _
  case nvmStep => exact .of rfl rfl rfl
  case memStep => exact .of rfl
  case lifeStep => exact .of rfl rfl
  case pending => rfl
  all_goals intro hb; first | rfl | exact absurd hb (by decide)

theorem only_set_accts {v : _} (h : Only m s x) (hm : 2048 &&& m = 2048) : Only m s { x with accts := v } := by
  refine h.trans (Only.mono (m := 2048) ?_ hm)
  constructor
  case clk => exact Nat.le_refl _
  case nvmStep => exact .of rfl rfl rfl
  case memStep => exact .of rfl
  case lifeStep => exact .of rfl rfl
  case pending => rfl
  all_goals intro hb; first | rfl | exact absurd hb (by decide)

theorem only_set_chres {v : _} (h : Only m s x) (hm : 4096 &&& m = 4096) : Only m s { x with chres := v } := by
  refine h.trans (Only.mono (m := 4096) ?_ hm)
  constructor
  case clk => exact Nat.le_refl _
  case nvmStep => exact .of rfl rfl rfl
  case memStep => exact .of rfl
  case lifeStep => exact .of rfl rfl
  case pending => rfl
  all_goals intro hb; first | rfl | exact absurd hb (by decide)

theorem only_set_pq {v : _} (h : Only m s x) (hm : 8192 &&& m = 8192) : Only m s { x with pq := v } := by
  refine h.trans (Only.mono (m := 8192) ?_ hm)
  constructor
  case clk => exact Nat.le_refl _
  case nvmStep => exact .of rfl rfl rfl
  case memStep => exact .of rfl
  case lifeStep => exact .of rfl rfl
  case pending => rfl
  all_goals intro hb; first | rfl | exact absurd hb (by decide)

theorem only_set_capt {v : _} (h : Only m s x) (hm : 16384 &&& m = 16384) : Only m s { x with capt := v } := by
  refine h.trans (Only.mono (m := 16384) ?_ hm)
  constructor
  case clk => exact Nat.le_refl _
  case nvmStep => exact .of rfl rfl rfl
  case memStep => exact .of rfl
  case lifeStep => exact .of rfl rfl
  case pending => rfl
  all_goals intro hb; first | rfl | exact absurd hb (by decide)

theorem only_set_captMissed {v : _} (h : Only m s x) (hm : 32768 &&& m = 32768) : Only m s { x with captMissed := v } := by
  refine h.trans (Only.mono (m := 32768) ?_ hm)
  constructor
  case clk => exact Nat.le_refl _
  case nvmStep => exact .of rfl rfl rfl
  case memStep => exact .of rfl
  case lifeStep => exact .of rfl rfl
  case pending => rfl
  all_goals intro hb; first | rfl | exact absurd hb (by decide)

theorem only_set_acc {v : _} (h : Only m s x) (hm : 65536 &&& m = 65536) : Only m s { x with acc := v } := by
  refine h.trans (Only.mono (m := 65536) ?_ hm)
  constructor
  case clk => exact Nat.le_refl _
  case nvmStep => exact .of rfl rfl rfl
  case memStep => exact .of rfl
  case lifeStep => exact .of rfl rfl
  case pending => rfl
  all_goals intro hb; first | rfl | exact absurd hb (by decide)

theorem only_set_bal {v : _} (h : Only m s x) (hm : 131072 &&& m = 131072) : Only m s { x with bal := v } := by
  refine h.trans (Only.mono (m := 131072) ?_ hm)
  constructor
  case clk => exact Nat.le_refl _
  case nvmStep => exact .of rfl rfl rfl
  case memStep => exact .of rfl
  case lifeStep => exact .of rfl rfl
  case pending => rfl
  all_goals intro hb; first | rfl | exact absurd hb (by decide)

theorem only_set_contrib {v : _} (h : Only m s x) (hm : 262144 &&& m = 262144) : Only m s { x with contrib := v } := by
  refine h.trans (Only.mono (m := 262144) ?_ hm)
  constructor
  case clk => exact Nat.le_refl _
  case nvmStep => exact .of rfl rfl rfl
  case memStep => exact .of rfl
  case lifeStep => exact .of rfl rfl
  case pending => rfl
  all_goals intro hb; first | rfl | exact absurd hb (by decide)

theorem only_set_pp {v : _} (h : Only m s x) (hm : 524288 &&& m = 524288) : Only m s { x with pp := v } := by
  refine h.trans (Only.mono (m := 524288) ?_ hm)
  constructor
  case clk => exact Nat.le_refl _
  case nvmStep => exact .of rfl rfl rfl
  case memStep => exact .of rfl
  case lifeStep => exact .of rfl rfl
  case pending => rfl
  all_goals intro hb; first | rfl | exact absurd hb (by decide)

theorem only_set_cal {v : _} (h : Only m s x) (hm : 1048576 &&& m = 1048576) : Only m s { x with cal := v } := by
  refine h.trans (Only.mono (m := 1048576) ?_ hm)
  constructor
  case clk => exact Nat.le_refl _
  case nvmStep => exact .of rfl rfl rfl
  case memStep => exact .of rfl
  case lifeStep => exact .of rfl rfl
  case pending => rfl
  all_goals intro hb; first | rfl | exact absurd hb (by decide)

theorem only_set_nvm {v : _} (h : Only m s x) (hv : NvmStep x.nvm v) (hm : 2097152 &&& m = 2097152) : Only m s { x with nvm := v } := by
  refine h.trans (Only.mono (m := 2097152) ?_ hm)
  constructor
  case clk => exact Nat.le_refl _
  case nvmStep => exact hv
  case memStep => exact .of rfl
  case lifeStep => exact .of rfl rfl
  case pending => rfl
  all_goals intro hb; first | rfl | exact absurd hb (by decide)

theorem only_set_pwr {v : _} (h : Only m s x) (hm : 4194304 &&& m = 4194304) : Only m s { x with pwr := v } := by
  refine h.trans (Only.mono (m := 4194304) ?_ hm)
  constructor
  case clk => exact Nat.le_refl _
  case nvmStep => exact .of rfl rfl rfl
  case memStep => exact .of rfl
  case lifeStep => exact .of rfl rfl
  case pending => rfl
  all_goals intro hb; first | rfl | exact absurd hb (by decide)

theorem only_set_evt {v : _} (h : Only m s x) (hm : 8388608 &&& m = 8388608) : Only m s { x with evt := v } := by
  refine h.trans (Only.mono (m := 8388608) ?_ hm)
  constructor
  case clk => exact Nat.le_refl _
  case nvmStep => exact .of rfl rfl rfl
  case memStep => exact .of rfl
  case lifeStep => exact .of rfl rfl
  case pending => rfl
  all_goals intro hb; first | rfl | exact absurd hb (by decide)

theorem only_set_ports {v : _} (h : Only m s x) (hm : 16777216 &&& m = 16777216) : Only m s { x with ports := v } := by
  refine h.trans (Only.mono (m := 16777216) ?_ hm)
  constructor
  case clk => exact Nat.le_refl _
  case nvmStep => exact .of rfl rfl rfl
  case memStep => exact .of rfl
  case lifeStep => exact .of rfl rfl
  case pending => rfl
  all_goals intro hb; first | rfl | exact absurd hb (by decide)

theorem only_set_mem {v : _} (h : Only m s x) (hv : MemStep x.mem v) (hm : 33554432 &&& m = 33554432) : Only m s { x with mem := v } := by
  refine h.trans (Only.mono (m := 33554432) ?_ hm)
  constructor
  case clk => exact Nat.le_refl _
  case nvmStep => exact .of rfl rfl rfl
  case memStep => exact hv
  case lifeStep => exact .of rfl rfl
  case pending => rfl
  all_goals intro hb; first | rfl | exact absurd hb (by decide)

theorem only_set_tamper {v : _} (h : Only m s x) (hm : 67108864 &&& m = 67108864) : Only m s { x with tamper := v } := by
  refine h.trans (Only.mono (m := 67108864) ?_ hm)
  constructor
  case clk => exact Nat.le_refl _
  case nvmStep => exact .of rfl rfl rfl
  case memStep => exact .of rfl
  case lifeStep => exact .of rfl rfl
  case pending => rfl
  all_goals intro hb; first | rfl | exact absurd hb (by decide)

theorem only_set_life {v : _} (h : Only m s x) (hv : LifeStep x.life v) (hm : 134217728 &&& m = 134217728) : Only m s { x with life := v } := by
  refine h.trans (Only.mono (m := 134217728) ?_ hm)
  constructor
  case clk => exact Nat.le_refl _
  case nvmStep => exact .of rfl rfl rfl
  case memStep => exact .of rfl
  case lifeStep => exact hv
  case pending => rfl
  all_goals intro hb; first | rfl | exact absurd hb (by decide)

theorem only_set_disp {v : _} (h : Only m s x) (hm : 268435456 &&& m = 268435456) : Only m s { x with disp := v } := by
  refine h.trans (Only.mono (m := 268435456) ?_ hm)
  constructor
  case clk => exact Nat.le_refl _
  case nvmStep => exact .of rfl rfl rfl
  case memStep => exact .of rfl
  case lifeStep => exact .of rfl rfl
  case pending => rfl
  all_goals intro hb; first | rfl | exact absurd hb (by decide)

theorem only_set_upd {v : _} (h : Only m s x) (hm : 536870912 &&& m = 536870912) : Only m s { x with upd := v } := by
  refine h.trans (Only.mono (m := 536870912) ?_ hm)
  constructor
  case clk => exact Nat.le_refl _
  case nvmStep => exact .of rfl rfl rfl
  case memStep => exact .of rfl
  case lifeStep => exact .of rfl rfl
  case pending => rfl
  all_goals intro hb; first | rfl | exact absurd hb (by decide)

theorem only_set_isl {v : _} (h : Only m s x) (hm : 1073741824 &&& m = 1073741824) : Only m s { x with isl := v } := by
  refine h.trans (Only.mono (m := 1073741824) ?_ hm)
  constructor
  case clk => exact Nat.le_refl _
  case nvmStep => exact .of rfl rfl rfl
  case memStep => exact .of rfl
  case lifeStep => exact .of rfl rfl
  case pending => rfl
  all_goals intro hb; first | rfl | exact absurd hb (by decide)

theorem only_set_ans {v : _} (h : Only m s x) (hm : 2147483648 &&& m = 2147483648) : Only m s { x with ans := v } := by
  refine h.trans (Only.mono (m := 2147483648) ?_ hm)
  constructor
  case clk => exact Nat.le_refl _
  case nvmStep => exact .of rfl rfl rfl
  case memStep => exact .of rfl
  case lifeStep => exact .of rfl rfl
  case pending => rfl
  all_goals intro hb; first | rfl | exact absurd hb (by decide)

end Sys2Proof.Machine
end

