-- ==== Sys2Proof/Laws/Frame1.lean ====
section
/-! SUPPORT. What each shared operation may change (Only of Laws/Frame.lean), one lemma each: the operations of Machine/Ops,
Machine/Wiring, Machine/Journal, Machine/DispOps, Machine/Bind, Machine/Trim, Machine/PrepayOps, Machine/Units,
Machine/Bill, Machine/HkOps, Machine/CalOps, Machine/Capture, Machine/TamperOps, Machine/PqOps. -/
namespace Sys2Proof.Machine

variable {m : Nat} {s x t : State}

theorem State.setCfg_only {a1 : _} {a2 : _} (h : Only m s t) (hm : 1 &&& m = 1) :
    Only m s (t.setCfg a1 a2) := by
  refine h.trans (Only.mono (m := 1) ?_ hm)
  unfold State.setCfg
  repeat' (first
    | (with_reducible exact Only.refl _ _)
    | (with_reducible refine only_ite (fun _ => ?_) (fun _ => ?_))
    | (with_reducible refine only_foldl ?_ (fun _ _ => ?_))
    | decide
    | (dsimp only)
    | ((with_reducible refine only_set_dict ?_ (by decide)); first | (with_reducible exact Only.refl _ _) | (with_reducible refine only_ite (fun _ => ?_) (fun _ => ?_)) | (with_reducible refine only_foldl ?_ (fun _ _ => ?_)))
    | split)

theorem State.toClk_only {c : Nat} (h : Only m s t) (hm : 2 &&& m = 2) : Only m s (t.toClk c) :=
  only_set_clock h (Nat.le_max_left _ _) hm

theorem State.program_only {a1 : _} (h : Only m s t) (hm : 2097152 &&& m = 2097152) :
    Only m s (t.program a1) := by
  refine h.trans (Only.mono (m := 2097152) ?_ hm)
  unfold State.program
  repeat' (first
    | (with_reducible exact Only.refl _ _)
    | (with_reducible refine only_ite (fun _ => ?_) (fun _ => ?_))
    | (with_reducible refine only_foldl ?_ (fun _ _ => ?_))
    | decide
    | exact ⟨fun w => cellsSet_wf w _ _⟩ | exact ⟨fun w => w, fun _ p => List.mem_append_left _ p, fun _ => Nat.le_refl _⟩ | exact .of rfl rfl rfl | exact .of rfl rfl | exact .of rfl | exact Nat.le_refl _
    | (dsimp only)
    | ((with_reducible refine only_set_nvm ?_ ?_ (by decide)); rotate_left; (first | exact ⟨fun w => cellsSet_wf w _ _⟩ | exact ⟨fun w => w, fun _ p => List.mem_append_left _ p, fun _ => Nat.le_refl _⟩ | exact .of rfl rfl rfl | exact .of rfl rfl | exact .of rfl | exact Nat.le_refl _); first | (with_reducible exact Only.refl _ _) | (with_reducible refine only_ite (fun _ => ?_) (fun _ => ?_)) | (with_reducible refine only_foldl ?_ (fun _ _ => ?_)))
    | split)

theorem State.programs_only {p n : Nat} (h : Only m s t) (hm : 2097152 &&& m = 2097152) : Only m s (t.programs p n) := by
  induction n generalizing t p with
  | zero => exact h
  | succ n ih => exact ih (State.program_only h hm)

theorem State.nvmWrite_only {a : Nat} {b : Bytes} (h : Only m s t) (hm : 2097152 &&& m = 2097152) : Only m s (t.nvmWrite a b) := by
  unfold State.nvmWrite
  exact only_set_nvm (State.programs_only h hm)
    ⟨fun w => cellsSet_wf w _ _, fun _ p => p, fun _ => Nat.le_refl _⟩ hm

theorem State.setRing_only {a1 : _} {a2 : _} (h : Only m s t) (hm : 8388608 &&& m = 8388608) :
    Only m s (t.setRing a1 a2) := by
  refine h.trans (Only.mono (m := 8388608) ?_ hm)
  unfold State.setRing
  repeat' (first
    | (with_reducible exact Only.refl _ _)
    | (with_reducible refine only_ite (fun _ => ?_) (fun _ => ?_))
    | (with_reducible refine only_foldl ?_ (fun _ _ => ?_))
    | decide
    | (dsimp only)
    | ((with_reducible refine only_set_evt ?_ (by decide)); first | (with_reducible exact Only.refl _ _) | (with_reducible refine only_ite (fun _ => ?_) (fun _ => ?_)) | (with_reducible refine only_foldl ?_ (fun _ _ => ?_)))
    | split)

theorem State.ringAdd_only {a1 : _} {a2 : _} (h : Only m s t) (hm : 8388608 &&& m = 8388608) :
    Only m s (t.ringAdd a1 a2) := by
  refine h.trans (Only.mono (m := 8388608) ?_ hm)
  unfold State.ringAdd
  repeat' (first
    | (with_reducible exact Only.refl _ _)
    | (with_reducible refine State.setRing_only ?_ ?_)
    | (with_reducible refine only_ite (fun _ => ?_) (fun _ => ?_))
    | (with_reducible refine only_foldl ?_ (fun _ _ => ?_))
    | decide
    | (dsimp only)
    | split)

theorem State.ringPut_only {a1 : _} {a2 : _} {a3 : _} (h : Only m s t) (hm : 8388608 &&& m = 8388608) :
    Only m s (t.ringPut a1 a2 a3) := by
  refine h.trans (Only.mono (m := 8388608) ?_ hm)
  unfold State.ringPut
  repeat' (first
    | (with_reducible exact Only.refl _ _)
    | (with_reducible refine State.ringAdd_only ?_ ?_)
    | (with_reducible refine State.setRing_only ?_ ?_)
    | (with_reducible refine only_ite (fun _ => ?_) (fun _ => ?_))
    | (with_reducible refine only_foldl ?_ (fun _ _ => ?_))
    | decide
    | (dsimp only)
    | split)

theorem State.eventLog_only {a1 : _} {a2 : _} (h : Only m s t) (hm : 2097152 &&& m = 2097152) :
    Only m s (t.eventLog a1 a2) := by
  refine h.trans (Only.mono (m := 2097152) ?_ hm)
  unfold State.eventLog
  repeat' (first
    | (with_reducible exact Only.refl _ _)
    | (with_reducible refine State.nvmWrite_only ?_ ?_)
    | (with_reducible refine only_ite (fun _ => ?_) (fun _ => ?_))
    | (with_reducible refine only_foldl ?_ (fun _ _ => ?_))
    | decide
    | exact ⟨fun w => cellsSet_wf w _ _⟩ | exact ⟨fun w => w, fun _ p => List.mem_append_left _ p, fun _ => Nat.le_refl _⟩ | exact .of rfl rfl rfl | exact .of rfl rfl | exact .of rfl | exact Nat.le_refl _
    | (dsimp only)
    | ((with_reducible refine only_set_nvm ?_ ?_ (by decide)); rotate_left; (first | exact ⟨fun w => cellsSet_wf w _ _⟩ | exact ⟨fun w => w, fun _ p => List.mem_append_left _ p, fun _ => Nat.le_refl _⟩ | exact .of rfl rfl rfl | exact .of rfl rfl | exact .of rfl | exact Nat.le_refl _); first | (with_reducible exact Only.refl _ _) | (with_reducible refine State.nvmWrite_only ?_ ?_) | (with_reducible refine only_ite (fun _ => ?_) (fun _ => ?_)) | (with_reducible refine only_foldl ?_ (fun _ _ => ?_)))
    | split)

theorem State.logPut_only {a1 : _} {a2 : _} {a3 : _} (h : Only m s t) (hm : 8388608 &&& m = 8388608) :
    Only m s (t.logPut a1 a2 a3) := by
  refine h.trans (Only.mono (m := 8388608) ?_ hm)
  unfold State.logPut
  repeat' (first
    | (with_reducible exact Only.refl _ _)
    | (with_reducible refine State.ringPut_only ?_ ?_)
    | (with_reducible refine only_ite (fun _ => ?_) (fun _ => ?_))
    | (with_reducible refine only_foldl ?_ (fun _ _ => ?_))
    | decide
    | (dsimp only)
    | split)

theorem State.logBoth_only {a1 : _} {a2 : _} (h : Only m s t) (hm : 10485760 &&& m = 10485760) :
    Only m s (t.logBoth a1 a2) := by
  refine h.trans (Only.mono (m := 10485760) ?_ hm)
  unfold State.logBoth
  repeat' (first
    | (with_reducible exact Only.refl _ _)
    | (with_reducible refine State.logPut_only ?_ ?_)
    | (with_reducible refine State.eventLog_only ?_ ?_)
    | (with_reducible refine only_ite (fun _ => ?_) (fun _ => ?_))
    | (with_reducible refine only_foldl ?_ (fun _ _ => ?_))
    | decide
    | (dsimp only)
    | split)

theorem State.archive_only {a1 : _} {a2 : _} {a3 : _} (h : Only m s t) (hm : 2097152 &&& m = 2097152) :
    Only m s (t.archive a1 a2 a3) := by
  refine h.trans (Only.mono (m := 2097152) ?_ hm)
  unfold State.archive
  repeat' (first
    | (with_reducible exact Only.refl _ _)
    | (with_reducible refine State.nvmWrite_only ?_ ?_)
    | (with_reducible refine only_ite (fun _ => ?_) (fun _ => ?_))
    | (with_reducible refine only_foldl ?_ (fun _ _ => ?_))
    | decide
    | exact ⟨fun w => cellsSet_wf w _ _⟩ | exact ⟨fun w => w, fun _ p => List.mem_append_left _ p, fun _ => Nat.le_refl _⟩ | exact .of rfl rfl rfl | exact .of rfl rfl | exact .of rfl | exact Nat.le_refl _
    | (dsimp only)
    | ((with_reducible refine only_set_nvm ?_ ?_ (by decide)); rotate_left; (first | exact ⟨fun w => cellsSet_wf w _ _⟩ | exact ⟨fun w => w, fun _ p => List.mem_append_left _ p, fun _ => Nat.le_refl _⟩ | exact .of rfl rfl rfl | exact .of rfl rfl | exact .of rfl | exact Nat.le_refl _); first | (with_reducible exact Only.refl _ _) | (with_reducible refine State.nvmWrite_only ?_ ?_) | (with_reducible refine only_ite (fun _ => ?_) (fun _ => ?_)) | (with_reducible refine only_foldl ?_ (fun _ _ => ?_)))
    | split)

theorem State.eventEntry_only {a1 : _} {a2 : _} {a3 : _} {a4 : _} {a5 : _} (h : Only m s t) (hm : 8388608 &&& m = 8388608) :
    Only m s (t.eventEntry a1 a2 a3 a4 a5) := by
  refine h.trans (Only.mono (m := 8388608) ?_ hm)
  unfold State.eventEntry
  repeat' (first
    | (with_reducible exact Only.refl _ _)
    | (with_reducible refine State.ringPut_only ?_ ?_)
    | (with_reducible refine only_ite (fun _ => ?_) (fun _ => ?_))
    | (with_reducible refine only_foldl ?_ (fun _ _ => ?_))
    | decide
    | (dsimp only)
    | split)

theorem State.eventMark_only {a1 : _} (h : Only m s t) (hm : 8388608 &&& m = 8388608) :
    Only m s (t.eventMark a1) := by
  refine h.trans (Only.mono (m := 8388608) ?_ hm)
  unfold State.eventMark
  repeat' (first
    | (with_reducible exact Only.refl _ _)
    | (with_reducible refine only_ite (fun _ => ?_) (fun _ => ?_))
    | (with_reducible refine only_foldl ?_ (fun _ _ => ?_))
    | decide
    | (dsimp only)
    | ((with_reducible refine only_set_evt ?_ (by decide)); first | (with_reducible exact Only.refl _ _) | (with_reducible refine only_ite (fun _ => ?_) (fun _ => ?_)) | (with_reducible refine only_foldl ?_ (fun _ _ => ?_)))
    | split)

theorem State.raiseAt_only {a1 : _} {a2 : _} {a3 : _} {a4 : _} (h : Only m s t) (hm : 8388608 &&& m = 8388608) :
    Only m s (t.raiseAt a1 a2 a3 a4) := by
  refine h.trans (Only.mono (m := 8388608) ?_ hm)
  unfold State.raiseAt
  repeat' (first
    | (with_reducible exact Only.refl _ _)
    | (with_reducible refine State.eventEntry_only ?_ ?_)
    | (with_reducible refine State.eventMark_only ?_ ?_)
    | (with_reducible refine only_ite (fun _ => ?_) (fun _ => ?_))
    | (with_reducible refine only_foldl ?_ (fun _ _ => ?_))
    | decide
    | (dsimp only)
    | ((with_reducible refine only_set_evt ?_ (by decide)); first | (with_reducible exact Only.refl _ _) | (with_reducible refine State.eventEntry_only ?_ ?_) | (with_reducible refine State.eventMark_only ?_ ?_) | (with_reducible refine only_ite (fun _ => ?_) (fun _ => ?_)) | (with_reducible refine only_foldl ?_ (fun _ _ => ?_)))
    | split)

theorem State.raise_only {a1 : _} {a2 : _} (h : Only m s t) (hm : 8388608 &&& m = 8388608) :
    Only m s (t.raise a1 a2) := by
  refine h.trans (Only.mono (m := 8388608) ?_ hm)
  unfold State.raise
  repeat' (first
    | (with_reducible exact Only.refl _ _)
    | (with_reducible refine State.raiseAt_only ?_ ?_)
    | (with_reducible refine only_ite (fun _ => ?_) (fun _ => ?_))
    | (with_reducible refine only_foldl ?_ (fun _ _ => ?_))
    | decide
    | (dsimp only)
    | split)

theorem State.deferEvent_only {a1 : _} {a2 : _} {a3 : _} (h : Only m s t) (hm : 8388608 &&& m = 8388608) :
    Only m s (t.deferEvent a1 a2 a3) := by
  refine h.trans (Only.mono (m := 8388608) ?_ hm)
  unfold State.deferEvent
  repeat' (first
    | (with_reducible exact Only.refl _ _)
    | (with_reducible refine only_ite (fun _ => ?_) (fun _ => ?_))
    | (with_reducible refine only_foldl ?_ (fun _ _ => ?_))
    | decide
    | (dsimp only)
    | ((with_reducible refine only_set_evt ?_ (by decide)); first | (with_reducible exact Only.refl _ _) | (with_reducible refine only_ite (fun _ => ?_) (fun _ => ?_)) | (with_reducible refine only_foldl ?_ (fun _ _ => ?_)))
    | split)

theorem State.storePut_only {c : Bool} {key v n : Nat} {x : State} (h : Only m s t) (hm : 2097153 &&& m = 2097153)
    (e : t.storePut c key v n = some x) : Only m s x := by
  refine h.trans (Only.mono (m := 2097153) ?_ hm)
  unfold State.storePut at e
  dsimp only at e
  split at e
  · cases e
  · rename_i st _
    injection e with e
    subst e
    have w : ∀ p, Only 2097153 t ((t.program p).program (p + 1)) := fun p =>
      State.program_only (State.program_only (Only.refl _ _) (by decide)) (by decide)
    have z : ∀ (u : State) (d : Dict) (n : Nvm), NvmStep u.nvm n → Only 2097153 u { u with dict := d, nvm := n } := fun u d n hn =>
      only_set_nvm (x := { u with dict := d }) (only_set_dict (Only.refl _ _) (by decide)) hn (by decide)
    refine (w (storePage c + 2 * st.pair)).trans (z _ _ _ ?_)
    split <;> exact .of rfl rfl rfl

theorem State.storeRefused_only {a1 : _} (h : Only m s t) (hm : 2097152 &&& m = 2097152) :
    Only m s (t.storeRefused a1) := by
  refine h.trans (Only.mono (m := 2097152) ?_ hm)
  unfold State.storeRefused
  repeat' (first
    | (with_reducible exact Only.refl _ _)
    | (with_reducible refine only_ite (fun _ => ?_) (fun _ => ?_))
    | (with_reducible refine only_foldl ?_ (fun _ _ => ?_))
    | decide
    | exact ⟨fun w => cellsSet_wf w _ _⟩ | exact ⟨fun w => w, fun _ p => List.mem_append_left _ p, fun _ => Nat.le_refl _⟩ | exact .of rfl rfl rfl | exact .of rfl rfl | exact .of rfl | exact Nat.le_refl _
    | (dsimp only)
    | ((with_reducible refine only_set_nvm ?_ ?_ (by decide)); rotate_left; (first | exact ⟨fun w => cellsSet_wf w _ _⟩ | exact ⟨fun w => w, fun _ p => List.mem_append_left _ p, fun _ => Nat.le_refl _⟩ | exact .of rfl rfl rfl | exact .of rfl rfl | exact .of rfl | exact Nat.le_refl _); first | (with_reducible exact Only.refl _ _) | (with_reducible refine only_ite (fun _ => ?_) (fun _ => ?_)) | (with_reducible refine only_foldl ?_ (fun _ _ => ?_)))
    | split)

theorem State.storeTry_only {c : Bool} {key v n : Nat} (h : Only m s t) (hm : 2097153 &&& m = 2097153) :
    Only m s (t.storeTry c key v n) := by
  refine h.trans (Only.mono (m := 2097153) ?_ hm)
  unfold State.storeTry
  exact only_getD (fun _ e => State.storePut_only (Only.refl _ _) (by decide) e) (State.storeRefused_only (Only.refl _ _) (by decide))

theorem State.jWriteFrom_only {l : List (Nat × Nat)} (h : Only m s t) (hm : 2097152 &&& m = 2097152) : Only m s (t.jWriteFrom l) := by
  induction l generalizing t with
  | nil => exact h
  | cons a r ih =>
    unfold State.jWriteFrom
    refine ih (only_set_nvm ?_ (.of rfl rfl rfl) hm)
    exact only_ite (fun _ => only_set_nvm (State.program_only h hm) (.of rfl rfl rfl) hm) (fun _ => h)

theorem State.jWrite_only {a1 : _} (h : Only m s t) (hm : 2097152 &&& m = 2097152) :
    Only m s (t.jWrite a1) := by
  refine h.trans (Only.mono (m := 2097152) ?_ hm)
  unfold State.jWrite
  repeat' (first
    | (with_reducible exact Only.refl _ _)
    | (with_reducible refine State.jWriteFrom_only ?_ ?_)
    | (with_reducible refine only_ite (fun _ => ?_) (fun _ => ?_))
    | (with_reducible refine only_foldl ?_ (fun _ _ => ?_))
    | decide
    | exact ⟨fun w => cellsSet_wf w _ _⟩ | exact ⟨fun w => w, fun _ p => List.mem_append_left _ p, fun _ => Nat.le_refl _⟩ | exact .of rfl rfl rfl | exact .of rfl rfl | exact .of rfl | exact Nat.le_refl _
    | (dsimp only)
    | ((with_reducible refine only_set_nvm ?_ ?_ (by decide)); rotate_left; (first | exact ⟨fun w => cellsSet_wf w _ _⟩ | exact ⟨fun w => w, fun _ p => List.mem_append_left _ p, fun _ => Nat.le_refl _⟩ | exact .of rfl rfl rfl | exact .of rfl rfl | exact .of rfl | exact Nat.le_refl _); first | (with_reducible exact Only.refl _ _) | (with_reducible refine State.jWriteFrom_only ?_ ?_) | (with_reducible refine only_ite (fun _ => ?_) (fun _ => ?_)) | (with_reducible refine only_foldl ?_ (fun _ _ => ?_)))
    | split)

theorem State.jCompact1_only (h : Only m s t) (hm : 2097152 &&& m = 2097152) :
    Only m s (t.jCompact1) := by
  refine h.trans (Only.mono (m := 2097152) ?_ hm)
  unfold State.jCompact1
  repeat' (first
    | (with_reducible exact Only.refl _ _)
    | (with_reducible refine State.jWrite_only ?_ ?_)
    | (with_reducible refine only_ite (fun _ => ?_) (fun _ => ?_))
    | (with_reducible refine only_foldl ?_ (fun _ _ => ?_))
    | decide
    | exact ⟨fun w => cellsSet_wf w _ _⟩ | exact ⟨fun w => w, fun _ p => List.mem_append_left _ p, fun _ => Nat.le_refl _⟩ | exact .of rfl rfl rfl | exact .of rfl rfl | exact .of rfl | exact Nat.le_refl _
    | (dsimp only)
    | ((with_reducible refine only_set_nvm ?_ ?_ (by decide)); rotate_left; (first | exact ⟨fun w => cellsSet_wf w _ _⟩ | exact ⟨fun w => w, fun _ p => List.mem_append_left _ p, fun _ => Nat.le_refl _⟩ | exact .of rfl rfl rfl | exact .of rfl rfl | exact .of rfl | exact Nat.le_refl _); first | (with_reducible exact Only.refl _ _) | (with_reducible refine State.jWrite_only ?_ ?_) | (with_reducible refine only_ite (fun _ => ?_) (fun _ => ?_)) | (with_reducible refine only_foldl ?_ (fun _ _ => ?_)))
    | split)

theorem State.jCompact_only {n : Nat} (h : Only m s t) (hm : 2097152 &&& m = 2097152) : Only m s (t.jCompact n) := by
  induction n generalizing t with
  | zero => exact h
  | succ n ih => exact only_ite (fun _ => h) (fun _ => ih (State.jCompact1_only h hm))

theorem State.scStep_only {k : Nat} (h : Only m s t) (hm : 2097152 &&& m = 2097152) : Only m s (t.scStep k) := by
  have up : ∀ u : State, u.nvm.sc = t.nvm.sc →
      NvmStep u.nvm { u.nvm with sc := KMap.set u.nvm.sc k (KMap.get t.nvm.sc k + 1) } := by
    intro u hu
    refine ⟨fun w => w, fun _ p => p, fun j => ?_⟩
    dsimp only
    rw [KMap.get_set_of_ne (Nat.succ_ne_zero _)]
    split
    · subst j
      rw [hu]
      exact Nat.le_succ _
    · exact Nat.le_refl _
  have sc : ∀ (u : State) (p n : Nat), (u.programs p n).nvm.sc = u.nvm.sc := by
    intro u p n
    induction n generalizing u p with
    | zero => rfl
    | succ n ih => exact (ih (u.program p) (p + 1)).trans rfl
  unfold State.scStep
  dsimp only
  split
  · exact only_set_nvm (State.programs_only h hm) (up _ (sc _ _ _)) hm
  · split
    · exact only_set_nvm (State.program_only (State.program_only h hm) hm) (up _ rfl) hm
    · exact only_set_nvm (State.program_only h hm) (up _ rfl) hm

theorem State.answer_only {a1 : _} (h : Only m s t) (hm : 2147483648 &&& m = 2147483648) :
    Only m s (t.answer a1) := by
  refine h.trans (Only.mono (m := 2147483648) ?_ hm)
  unfold State.answer
  repeat' (first
    | (with_reducible exact Only.refl _ _)
    | (with_reducible refine only_ite (fun _ => ?_) (fun _ => ?_))
    | (with_reducible refine only_foldl ?_ (fun _ _ => ?_))
    | decide
    | (dsimp only)
    | ((with_reducible refine only_set_ans ?_ (by decide)); first | (with_reducible exact Only.refl _ _) | (with_reducible refine only_ite (fun _ => ?_) (fun _ => ?_)) | (with_reducible refine only_foldl ?_ (fun _ _ => ?_)))
    | split)

theorem State.answerRetry_only {a1 : _} {a2 : _} (h : Only m s t) (hm : 2147483648 &&& m = 2147483648) :
    Only m s (t.answerRetry a1 a2) := by
  refine h.trans (Only.mono (m := 2147483648) ?_ hm)
  unfold State.answerRetry
  repeat' (first
    | (with_reducible exact Only.refl _ _)
    | (with_reducible refine only_ite (fun _ => ?_) (fun _ => ?_))
    | (with_reducible refine only_foldl ?_ (fun _ _ => ?_))
    | decide
    | (dsimp only)
    | ((with_reducible refine only_set_ans ?_ (by decide)); first | (with_reducible exact Only.refl _ _) | (with_reducible refine only_ite (fun _ => ?_) (fun _ => ?_)) | (with_reducible refine only_foldl ?_ (fun _ _ => ?_)))
    | split)

theorem State.answerData_only {a1 : _} {a2 : _} (h : Only m s t) (hm : 2147483648 &&& m = 2147483648) :
    Only m s (t.answerData a1 a2) := by
  refine h.trans (Only.mono (m := 2147483648) ?_ hm)
  unfold State.answerData
  repeat' (first
    | (with_reducible exact Only.refl _ _)
    | (with_reducible refine only_ite (fun _ => ?_) (fun _ => ?_))
    | (with_reducible refine only_foldl ?_ (fun _ _ => ?_))
    | decide
    | (dsimp only)
    | ((with_reducible refine only_set_ans ?_ (by decide)); first | (with_reducible exact Only.refl _ _) | (with_reducible refine only_ite (fun _ => ?_) (fun _ => ?_)) | (with_reducible refine only_foldl ?_ (fun _ _ => ?_)))
    | split)

theorem State.atEpoch_only {a1 : _} (h : Only m s t) (hm : 1 &&& m = 1) :
    Only m s (t.atEpoch a1) := by
  refine h.trans (Only.mono (m := 1) ?_ hm)
  unfold State.atEpoch
  repeat' (first
    | (with_reducible exact Only.refl _ _)
    | (with_reducible refine only_ite (fun _ => ?_) (fun _ => ?_))
    | (with_reducible refine only_foldl ?_ (fun _ _ => ?_))
    | decide
    | (dsimp only)
    | ((with_reducible refine only_set_dict ?_ (by decide)); first | (with_reducible exact Only.refl _ _) | (with_reducible refine only_ite (fun _ => ?_) (fun _ => ?_)) | (with_reducible refine only_foldl ?_ (fun _ _ => ?_)))
    | split)

theorem State.setChan_only {a1 : _} {a2 : _} (h : Only m s t) (hm : 16 &&& m = 16) :
    Only m s (t.setChan a1 a2) := by
  refine h.trans (Only.mono (m := 16) ?_ hm)
  unfold State.setChan
  repeat' (first
    | (with_reducible exact Only.refl _ _)
    | (with_reducible refine only_ite (fun _ => ?_) (fun _ => ?_))
    | (with_reducible refine only_foldl ?_ (fun _ _ => ?_))
    | decide
    | (dsimp only)
    | ((with_reducible refine only_set_chans ?_ (by decide)); first | (with_reducible exact Only.refl _ _) | (with_reducible refine only_ite (fun _ => ?_) (fun _ => ?_)) | (with_reducible refine only_foldl ?_ (fun _ _ => ?_)))
    | split)

theorem State.setMod_only {a1 : _} {a2 : _} (h : Only m s t) (hm : 4 &&& m = 4) :
    Only m s (t.setMod a1 a2) := by
  refine h.trans (Only.mono (m := 4) ?_ hm)
  unfold State.setMod
  repeat' (first
    | (with_reducible exact Only.refl _ _)
    | (with_reducible refine only_ite (fun _ => ?_) (fun _ => ?_))
    | (with_reducible refine only_foldl ?_ (fun _ _ => ?_))
    | decide
    | (dsimp only)
    | ((with_reducible refine only_set_mods ?_ (by decide)); first | (with_reducible exact Only.refl _ _) | (with_reducible refine only_ite (fun _ => ?_) (fun _ => ?_)) | (with_reducible refine only_foldl ?_ (fun _ _ => ?_)))
    | split)

theorem State.setSpare_only {a1 : _} {a2 : _} (h : Only m s t) (hm : 8 &&& m = 8) :
    Only m s (t.setSpare a1 a2) := by
  refine h.trans (Only.mono (m := 8) ?_ hm)
  unfold State.setSpare
  repeat' (first
    | (with_reducible exact Only.refl _ _)
    | (with_reducible refine only_ite (fun _ => ?_) (fun _ => ?_))
    | (with_reducible refine only_foldl ?_ (fun _ _ => ?_))
    | decide
    | (dsimp only)
    | ((with_reducible refine only_set_spares ?_ (by decide)); first | (with_reducible exact Only.refl _ _) | (with_reducible refine only_ite (fun _ => ?_) (fun _ => ?_)) | (with_reducible refine only_foldl ?_ (fun _ _ => ?_)))
    | split)

theorem State.setAcct_only {a1 : _} {a2 : _} (h : Only m s t) (hm : 2048 &&& m = 2048) :
    Only m s (t.setAcct a1 a2) := by
  refine h.trans (Only.mono (m := 2048) ?_ hm)
  unfold State.setAcct
  repeat' (first
    | (with_reducible exact Only.refl _ _)
    | (with_reducible refine only_ite (fun _ => ?_) (fun _ => ?_))
    | (with_reducible refine only_foldl ?_ (fun _ _ => ?_))
    | decide
    | (dsimp only)
    | ((with_reducible refine only_set_accts ?_ (by decide)); first | (with_reducible exact Only.refl _ _) | (with_reducible refine only_ite (fun _ => ?_) (fun _ => ?_)) | (with_reducible refine only_foldl ?_ (fun _ _ => ?_)))
    | split)

theorem State.setGroup_only {a1 : _} {a2 : _} (h : Only m s t) (hm : 512 &&& m = 512) :
    Only m s (t.setGroup a1 a2) := by
  refine h.trans (Only.mono (m := 512) ?_ hm)
  unfold State.setGroup
  repeat' (first
    | (with_reducible exact Only.refl _ _)
    | (with_reducible refine only_ite (fun _ => ?_) (fun _ => ?_))
    | (with_reducible refine only_foldl ?_ (fun _ _ => ?_))
    | decide
    | (dsimp only)
    | ((with_reducible refine only_set_groups ?_ (by decide)); first | (with_reducible exact Only.refl _ _) | (with_reducible refine only_ite (fun _ => ?_) (fun _ => ?_)) | (with_reducible refine only_foldl ?_ (fun _ _ => ?_)))
    | split)

theorem State.setHk_only {a1 : _} (h : Only m s t) (hm : 32 &&& m = 32) :
    Only m s (t.setHk a1) := by
  refine h.trans (Only.mono (m := 32) ?_ hm)
  unfold State.setHk
  repeat' (first
    | (with_reducible exact Only.refl _ _)
    | (with_reducible refine only_ite (fun _ => ?_) (fun _ => ?_))
    | (with_reducible refine only_foldl ?_ (fun _ _ => ?_))
    | decide
    | (dsimp only)
    | ((with_reducible refine only_set_hk ?_ (by decide)); first | (with_reducible exact Only.refl _ _) | (with_reducible refine only_ite (fun _ => ?_) (fun _ => ?_)) | (with_reducible refine only_foldl ?_ (fun _ _ => ?_)))
    | split)

theorem State.setCal_only {a1 : _} (h : Only m s t) (hm : 1048576 &&& m = 1048576) :
    Only m s (t.setCal a1) := by
  refine h.trans (Only.mono (m := 1048576) ?_ hm)
  unfold State.setCal
  repeat' (first
    | (with_reducible exact Only.refl _ _)
    | (with_reducible refine only_ite (fun _ => ?_) (fun _ => ?_))
    | (with_reducible refine only_foldl ?_ (fun _ _ => ?_))
    | decide
    | (dsimp only)
    | ((with_reducible refine only_set_cal ?_ (by decide)); first | (with_reducible exact Only.refl _ _) | (with_reducible refine only_ite (fun _ => ?_) (fun _ => ?_)) | (with_reducible refine only_foldl ?_ (fun _ _ => ?_)))
    | split)

theorem State.setEng_only {a1 : _} (h : Only m s t) (hm : 1024 &&& m = 1024) :
    Only m s (t.setEng a1) := by
  refine h.trans (Only.mono (m := 1024) ?_ hm)
  unfold State.setEng
  repeat' (first
    | (with_reducible exact Only.refl _ _)
    | (with_reducible refine only_ite (fun _ => ?_) (fun _ => ?_))
    | (with_reducible refine only_foldl ?_ (fun _ _ => ?_))
    | decide
    | (dsimp only)
    | ((with_reducible refine only_set_eng ?_ (by decide)); first | (with_reducible exact Only.refl _ _) | (with_reducible refine only_ite (fun _ => ?_) (fun _ => ?_)) | (with_reducible refine only_foldl ?_ (fun _ _ => ?_)))
    | split)

theorem State.setAcc_only {a1 : _} (h : Only m s t) (hm : 65536 &&& m = 65536) :
    Only m s (t.setAcc a1) := by
  refine h.trans (Only.mono (m := 65536) ?_ hm)
  unfold State.setAcc
  repeat' (first
    | (with_reducible exact Only.refl _ _)
    | (with_reducible refine only_ite (fun _ => ?_) (fun _ => ?_))
    | (with_reducible refine only_foldl ?_ (fun _ _ => ?_))
    | decide
    | (dsimp only)
    | ((with_reducible refine only_set_acc ?_ (by decide)); first | (with_reducible exact Only.refl _ _) | (with_reducible refine only_ite (fun _ => ?_) (fun _ => ?_)) | (with_reducible refine only_foldl ?_ (fun _ _ => ?_)))
    | split)

theorem State.setBal_only {a1 : _} {a2 : _} (h : Only m s t) (hm : 131072 &&& m = 131072) :
    Only m s (t.setBal a1 a2) := by
  refine h.trans (Only.mono (m := 131072) ?_ hm)
  unfold State.setBal
  repeat' (first
    | (with_reducible exact Only.refl _ _)
    | (with_reducible refine only_ite (fun _ => ?_) (fun _ => ?_))
    | (with_reducible refine only_foldl ?_ (fun _ _ => ?_))
    | decide
    | (dsimp only)
    | ((with_reducible refine only_set_bal ?_ (by decide)); first | (with_reducible exact Only.refl _ _) | (with_reducible refine only_ite (fun _ => ?_) (fun _ => ?_)) | (with_reducible refine only_foldl ?_ (fun _ _ => ?_)))
    | split)

theorem State.setPq_only {a1 : _} {a2 : _} (h : Only m s t) (hm : 8192 &&& m = 8192) :
    Only m s (t.setPq a1 a2) := by
  refine h.trans (Only.mono (m := 8192) ?_ hm)
  unfold State.setPq
  repeat' (first
    | (with_reducible exact Only.refl _ _)
    | (with_reducible refine only_ite (fun _ => ?_) (fun _ => ?_))
    | (with_reducible refine only_foldl ?_ (fun _ _ => ?_))
    | decide
    | (dsimp only)
    | ((with_reducible refine only_set_pq ?_ (by decide)); first | (with_reducible exact Only.refl _ _) | (with_reducible refine only_ite (fun _ => ?_) (fun _ => ?_)) | (with_reducible refine only_foldl ?_ (fun _ _ => ?_)))
    | split)

theorem State.setPwr_only {a1 : _} (h : Only m s t) (hm : 4194304 &&& m = 4194304) :
    Only m s (t.setPwr a1) := by
  refine h.trans (Only.mono (m := 4194304) ?_ hm)
  unfold State.setPwr
  repeat' (first
    | (with_reducible exact Only.refl _ _)
    | (with_reducible refine only_ite (fun _ => ?_) (fun _ => ?_))
    | (with_reducible refine only_foldl ?_ (fun _ _ => ?_))
    | decide
    | (dsimp only)
    | ((with_reducible refine only_set_pwr ?_ (by decide)); first | (with_reducible exact Only.refl _ _) | (with_reducible refine only_ite (fun _ => ?_) (fun _ => ?_)) | (with_reducible refine only_foldl ?_ (fun _ _ => ?_)))
    | split)

theorem State.setNvm_only {f : Nvm → Nvm} (h : Only m s t) (hf : NvmStep t.nvm (f t.nvm)) (hm : 2097152 &&& m = 2097152) :
    Only m s (t.setNvm f) := only_set_nvm h hf hm

theorem State.setPp_only {a1 : _} (h : Only m s t) (hm : 524288 &&& m = 524288) :
    Only m s (t.setPp a1) := by
  refine h.trans (Only.mono (m := 524288) ?_ hm)
  unfold State.setPp
  repeat' (first
    | (with_reducible exact Only.refl _ _)
    | (with_reducible refine only_ite (fun _ => ?_) (fun _ => ?_))
    | (with_reducible refine only_foldl ?_ (fun _ _ => ?_))
    | decide
    | (dsimp only)
    | ((with_reducible refine only_set_pp ?_ (by decide)); first | (with_reducible exact Only.refl _ _) | (with_reducible refine only_ite (fun _ => ?_) (fun _ => ?_)) | (with_reducible refine only_foldl ?_ (fun _ _ => ?_)))
    | split)

theorem State.setUpd_only {a1 : _} (h : Only m s t) (hm : 536870912 &&& m = 536870912) :
    Only m s (t.setUpd a1) := by
  refine h.trans (Only.mono (m := 536870912) ?_ hm)
  unfold State.setUpd
  repeat' (first
    | (with_reducible exact Only.refl _ _)
    | (with_reducible refine only_ite (fun _ => ?_) (fun _ => ?_))
    | (with_reducible refine only_foldl ?_ (fun _ _ => ?_))
    | decide
    | (dsimp only)
    | ((with_reducible refine only_set_upd ?_ (by decide)); first | (with_reducible exact Only.refl _ _) | (with_reducible refine only_ite (fun _ => ?_) (fun _ => ?_)) | (with_reducible refine only_foldl ?_ (fun _ _ => ?_)))
    | split)

theorem State.setIsl_only {a1 : _} (h : Only m s t) (hm : 1073741824 &&& m = 1073741824) :
    Only m s (t.setIsl a1) := by
  refine h.trans (Only.mono (m := 1073741824) ?_ hm)
  unfold State.setIsl
  repeat' (first
    | (with_reducible exact Only.refl _ _)
    | (with_reducible refine only_ite (fun _ => ?_) (fun _ => ?_))
    | (with_reducible refine only_foldl ?_ (fun _ _ => ?_))
    | decide
    | (dsimp only)
    | ((with_reducible refine only_set_isl ?_ (by decide)); first | (with_reducible exact Only.refl _ _) | (with_reducible refine only_ite (fun _ => ?_) (fun _ => ?_)) | (with_reducible refine only_foldl ?_ (fun _ _ => ?_)))
    | split)

theorem State.setMem_only {f : Mem → Mem} (h : Only m s t) (hf : MemStep t.mem (f t.mem)) (hm : 33554432 &&& m = 33554432) :
    Only m s (t.setMem f) := only_set_mem h hf hm

theorem State.setEvt_only {a1 : _} (h : Only m s t) (hm : 8388608 &&& m = 8388608) :
    Only m s (t.setEvt a1) := by
  refine h.trans (Only.mono (m := 8388608) ?_ hm)
  unfold State.setEvt
  repeat' (first
    | (with_reducible exact Only.refl _ _)
    | (with_reducible refine only_ite (fun _ => ?_) (fun _ => ?_))
    | (with_reducible refine only_foldl ?_ (fun _ _ => ?_))
    | decide
    | (dsimp only)
    | ((with_reducible refine only_set_evt ?_ (by decide)); first | (with_reducible exact Only.refl _ _) | (with_reducible refine only_ite (fun _ => ?_) (fun _ => ?_)) | (with_reducible refine only_foldl ?_ (fun _ _ => ?_)))
    | split)

theorem State.jSet_only {a1 : _} {a2 : _} (h : Only m s t) (hm : 1778690 &&& m = 1778690) :
    Only m s (t.jSet a1 a2) := by
  refine h.trans (Only.mono (m := 1778690) ?_ hm)
  unfold State.jSet
  repeat' (first
    | (with_reducible exact Only.refl _ _)
    | (with_reducible refine only_ite (fun _ => ?_) (fun _ => ?_))
    | (with_reducible refine only_foldl ?_ (fun _ _ => ?_))
    | decide
    | exact ⟨fun w => cellsSet_wf w _ _⟩ | exact ⟨fun w => w, fun _ p => List.mem_append_left _ p, fun _ => Nat.le_refl _⟩ | exact .of rfl rfl rfl | exact .of rfl rfl | exact .of rfl | exact Nat.le_refl _
    | (dsimp only)
    | ((with_reducible refine only_set_clock ?_ ?_ (by decide)); rotate_left; (first | exact ⟨fun w => cellsSet_wf w _ _⟩ | exact ⟨fun w => w, fun _ p => List.mem_append_left _ p, fun _ => Nat.le_refl _⟩ | exact .of rfl rfl rfl | exact .of rfl rfl | exact .of rfl | exact Nat.le_refl _); first | (with_reducible exact Only.refl _ _) | (with_reducible refine only_ite (fun _ => ?_) (fun _ => ?_)) | (with_reducible refine only_foldl ?_ (fun _ _ => ?_)))
    | ((with_reducible refine only_set_eng ?_ (by decide)); first | (with_reducible exact Only.refl _ _) | (with_reducible refine only_ite (fun _ => ?_) (fun _ => ?_)) | (with_reducible refine only_foldl ?_ (fun _ _ => ?_)))
    | ((with_reducible refine only_set_pq ?_ (by decide)); first | (with_reducible exact Only.refl _ _) | (with_reducible refine only_ite (fun _ => ?_) (fun _ => ?_)) | (with_reducible refine only_foldl ?_ (fun _ _ => ?_)))
    | ((with_reducible refine only_set_acc ?_ (by decide)); first | (with_reducible exact Only.refl _ _) | (with_reducible refine only_ite (fun _ => ?_) (fun _ => ?_)) | (with_reducible refine only_foldl ?_ (fun _ _ => ?_)))
    | ((with_reducible refine only_set_bal ?_ (by decide)); first | (with_reducible exact Only.refl _ _) | (with_reducible refine only_ite (fun _ => ?_) (fun _ => ?_)) | (with_reducible refine only_foldl ?_ (fun _ _ => ?_)))
    | ((with_reducible refine only_set_pp ?_ (by decide)); first | (with_reducible exact Only.refl _ _) | (with_reducible refine only_ite (fun _ => ?_) (fun _ => ?_)) | (with_reducible refine only_foldl ?_ (fun _ _ => ?_)))
    | ((with_reducible refine only_set_cal ?_ (by decide)); first | (with_reducible exact Only.refl _ _) | (with_reducible refine only_ite (fun _ => ?_) (fun _ => ?_)) | (with_reducible refine only_foldl ?_ (fun _ _ => ?_)))
    | split)

theorem State.keep_only {a1 : _} (h : Only m s t) (hm : 2097152 &&& m = 2097152) :
    Only m s (t.keep a1) := by
  refine h.trans (Only.mono (m := 2097152) ?_ hm)
  unfold State.keep
  repeat' (first
    | (with_reducible exact Only.refl _ _)
    | (with_reducible refine only_ite (fun _ => ?_) (fun _ => ?_))
    | (with_reducible refine only_foldl ?_ (fun _ _ => ?_))
    | decide
    | exact ⟨fun w => cellsSet_wf w _ _⟩ | exact ⟨fun w => w, fun _ p => List.mem_append_left _ p, fun _ => Nat.le_refl _⟩ | exact .of rfl rfl rfl | exact .of rfl rfl | exact .of rfl | exact Nat.le_refl _
    | (dsimp only)
    | ((with_reducible refine only_set_nvm ?_ ?_ (by decide)); rotate_left; (first | exact ⟨fun w => cellsSet_wf w _ _⟩ | exact ⟨fun w => w, fun _ p => List.mem_append_left _ p, fun _ => Nat.le_refl _⟩ | exact .of rfl rfl rfl | exact .of rfl rfl | exact .of rfl | exact Nat.le_refl _); first | (with_reducible exact Only.refl _ _) | (with_reducible refine only_ite (fun _ => ?_) (fun _ => ?_)) | (with_reducible refine only_foldl ?_ (fun _ _ => ?_)))
    | split)

theorem State.jSave_only {a1 : _} (h : Only m s t) (hm : 2097152 &&& m = 2097152) :
    Only m s (t.jSave a1) := by
  refine h.trans (Only.mono (m := 2097152) ?_ hm)
  unfold State.jSave
  repeat' (first
    | (with_reducible exact Only.refl _ _)
    | (with_reducible refine State.keep_only ?_ ?_)
    | (with_reducible refine State.jWrite_only ?_ ?_)
    | (with_reducible refine only_ite (fun _ => ?_) (fun _ => ?_))
    | (with_reducible refine only_foldl ?_ (fun _ _ => ?_))
    | decide
    | (dsimp only)
    | split)

theorem State.saveMark_only {a1 : _} {a2 : _} (h : Only m s t) (hm : 2097152 &&& m = 2097152) :
    Only m s (t.saveMark a1 a2) := by
  refine h.trans (Only.mono (m := 2097152) ?_ hm)
  unfold State.saveMark
  repeat' (first
    | (with_reducible exact Only.refl _ _)
    | (with_reducible refine State.jWrite_only ?_ ?_)
    | (with_reducible refine only_ite (fun _ => ?_) (fun _ => ?_))
    | (with_reducible refine only_foldl ?_ (fun _ _ => ?_))
    | decide
    | exact ⟨fun w => cellsSet_wf w _ _⟩ | exact ⟨fun w => w, fun _ p => List.mem_append_left _ p, fun _ => Nat.le_refl _⟩ | exact .of rfl rfl rfl | exact .of rfl rfl | exact .of rfl | exact Nat.le_refl _
    | (dsimp only)
    | ((with_reducible refine only_set_nvm ?_ ?_ (by decide)); rotate_left; (first | exact ⟨fun w => cellsSet_wf w _ _⟩ | exact ⟨fun w => w, fun _ p => List.mem_append_left _ p, fun _ => Nat.le_refl _⟩ | exact .of rfl rfl rfl | exact .of rfl rfl | exact .of rfl | exact Nat.le_refl _); first | (with_reducible exact Only.refl _ _) | (with_reducible refine State.jWrite_only ?_ ?_) | (with_reducible refine only_ite (fun _ => ?_) (fun _ => ?_)) | (with_reducible refine only_foldl ?_ (fun _ _ => ?_)))
    | split)

theorem State.save_only (h : Only m s t) (hm : 2097152 &&& m = 2097152) :
    Only m s (t.save) := by
  refine h.trans (Only.mono (m := 2097152) ?_ hm)
  unfold State.save
  repeat' (first
    | (lift_lets; intro x; (with_reducible refine Only.trans (b := x) ?_ ?_); rotate_left; (clear_value x); rotate_left; (dsimp only [x]))
    | (lift_lets; intro x; clear_value x)
    | (with_reducible exact Only.refl _ _)
    | (with_reducible refine State.saveMark_only ?_ ?_)
    | (with_reducible refine State.jSave_only ?_ ?_)
    | (with_reducible refine State.jCompact_only ?_ ?_)
    | (with_reducible refine only_ite (fun _ => ?_) (fun _ => ?_))
    | (with_reducible refine only_foldl ?_ (fun _ _ => ?_))
    | decide
    | exact ⟨fun w => cellsSet_wf w _ _⟩ | exact ⟨fun w => w, fun _ p => List.mem_append_left _ p, fun _ => Nat.le_refl _⟩ | exact .of rfl rfl rfl | exact .of rfl rfl | exact .of rfl | exact Nat.le_refl _
    | (dsimp only)
    | ((with_reducible refine only_set_nvm ?_ ?_ (by decide)); rotate_left; (first | exact ⟨fun w => cellsSet_wf w _ _⟩ | exact ⟨fun w => w, fun _ p => List.mem_append_left _ p, fun _ => Nat.le_refl _⟩ | exact .of rfl rfl rfl | exact .of rfl rfl | exact .of rfl | exact Nat.le_refl _); first | (with_reducible exact Only.refl _ _) | (with_reducible refine State.saveMark_only ?_ ?_) | (with_reducible refine State.jSave_only ?_ ?_) | (with_reducible refine State.jCompact_only ?_ ?_) | (with_reducible refine only_ite (fun _ => ?_) (fun _ => ?_)) | (with_reducible refine only_foldl ?_ (fun _ _ => ?_)))
    | split)

theorem State.fullSave_only (h : Only m s t) (hm : 2097152 &&& m = 2097152) :
    Only m s (t.fullSave) := by
  refine h.trans (Only.mono (m := 2097152) ?_ hm)
  unfold State.fullSave
  repeat' (first
    | (with_reducible exact Only.refl _ _)
    | (with_reducible refine State.save_only ?_ ?_)
    | (with_reducible refine only_ite (fun _ => ?_) (fun _ => ?_))
    | (with_reducible refine only_foldl ?_ (fun _ _ => ?_))
    | decide
    | exact ⟨fun w => cellsSet_wf w _ _⟩ | exact ⟨fun w => w, fun _ p => List.mem_append_left _ p, fun _ => Nat.le_refl _⟩ | exact .of rfl rfl rfl | exact .of rfl rfl | exact .of rfl | exact Nat.le_refl _
    | (dsimp only)
    | ((with_reducible refine only_set_nvm ?_ ?_ (by decide)); rotate_left; (first | exact ⟨fun w => cellsSet_wf w _ _⟩ | exact ⟨fun w => w, fun _ p => List.mem_append_left _ p, fun _ => Nat.le_refl _⟩ | exact .of rfl rfl rfl | exact .of rfl rfl | exact .of rfl | exact Nat.le_refl _); first | (with_reducible exact Only.refl _ _) | (with_reducible refine State.save_only ?_ ?_) | (with_reducible refine only_ite (fun _ => ?_) (fun _ => ?_)) | (with_reducible refine only_foldl ?_ (fun _ _ => ?_)))
    | split)

theorem State.sessionStart_only (h : Only m s t) (hm : 2097152 &&& m = 2097152) :
    Only m s (t.sessionStart) := by
  refine h.trans (Only.mono (m := 2097152) ?_ hm)
  unfold State.sessionStart
  repeat' (first
    | (with_reducible exact Only.refl _ _)
    | (with_reducible refine only_ite (fun _ => ?_) (fun _ => ?_))
    | (with_reducible refine only_foldl ?_ (fun _ _ => ?_))
    | decide
    | exact ⟨fun w => cellsSet_wf w _ _⟩ | exact ⟨fun w => w, fun _ p => List.mem_append_left _ p, fun _ => Nat.le_refl _⟩ | exact .of rfl rfl rfl | exact .of rfl rfl | exact .of rfl | exact Nat.le_refl _
    | (dsimp only)
    | ((with_reducible refine only_set_nvm ?_ ?_ (by decide)); rotate_left; (first | exact ⟨fun w => cellsSet_wf w _ _⟩ | exact ⟨fun w => w, fun _ p => List.mem_append_left _ p, fun _ => Nat.le_refl _⟩ | exact .of rfl rfl rfl | exact .of rfl rfl | exact .of rfl | exact Nat.le_refl _); first | (with_reducible exact Only.refl _ _) | (with_reducible refine only_ite (fun _ => ?_) (fun _ => ?_)) | (with_reducible refine only_foldl ?_ (fun _ _ => ?_)))
    | split)

theorem State.sessionValid_only {a1 : _} (h : Only m s t) (hm : 2097152 &&& m = 2097152) :
    Only m s (t.sessionValid a1) := by
  refine h.trans (Only.mono (m := 2097152) ?_ hm)
  unfold State.sessionValid
  repeat' (first
    | (with_reducible exact Only.refl _ _)
    | (with_reducible refine State.keep_only ?_ ?_)
    | (with_reducible refine State.jSave_only ?_ ?_)
    | (with_reducible refine only_ite (fun _ => ?_) (fun _ => ?_))
    | (with_reducible refine only_foldl ?_ (fun _ _ => ?_))
    | decide
    | exact ⟨fun w => cellsSet_wf w _ _⟩ | exact ⟨fun w => w, fun _ p => List.mem_append_left _ p, fun _ => Nat.le_refl _⟩ | exact .of rfl rfl rfl | exact .of rfl rfl | exact .of rfl | exact Nat.le_refl _
    | (dsimp only)
    | ((with_reducible refine only_set_nvm ?_ ?_ (by decide)); rotate_left; (first | exact ⟨fun w => cellsSet_wf w _ _⟩ | exact ⟨fun w => w, fun _ p => List.mem_append_left _ p, fun _ => Nat.le_refl _⟩ | exact .of rfl rfl rfl | exact .of rfl rfl | exact .of rfl | exact Nat.le_refl _); first | (with_reducible exact Only.refl _ _) | (with_reducible refine State.keep_only ?_ ?_) | (with_reducible refine State.jSave_only ?_ ?_) | (with_reducible refine only_ite (fun _ => ?_) (fun _ => ?_)) | (with_reducible refine only_foldl ?_ (fun _ _ => ?_)))
    | split)

theorem State.setDisp_only {a1 : _} (h : Only m s t) (hm : 268435456 &&& m = 268435456) :
    Only m s (t.setDisp a1) := by
  refine h.trans (Only.mono (m := 268435456) ?_ hm)
  unfold State.setDisp
  repeat' (first
    | (with_reducible exact Only.refl _ _)
    | (with_reducible refine only_ite (fun _ => ?_) (fun _ => ?_))
    | (with_reducible refine only_foldl ?_ (fun _ _ => ?_))
    | decide
    | (dsimp only)
    | ((with_reducible refine only_set_disp ?_ (by decide)); first | (with_reducible exact Only.refl _ _) | (with_reducible refine only_ite (fun _ => ?_) (fun _ => ?_)) | (with_reducible refine only_foldl ?_ (fun _ _ => ?_)))
    | split)

theorem State.addBal_only {a1 : _} {a2 : _} (h : Only m s t) (hm : 268435456 &&& m = 268435456) :
    Only m s (t.addBal a1 a2) := by
  refine h.trans (Only.mono (m := 268435456) ?_ hm)
  unfold State.addBal
  repeat' (first
    | (with_reducible exact Only.refl _ _)
    | (with_reducible refine State.setDisp_only ?_ ?_)
    | (with_reducible refine only_ite (fun _ => ?_) (fun _ => ?_))
    | (with_reducible refine only_foldl ?_ (fun _ _ => ?_))
    | decide
    | (dsimp only)
    | split)

theorem State.ev55_only {a1 : _} (h : Only m s t) (hm : 8388608 &&& m = 8388608) :
    Only m s (t.ev55 a1) := by
  refine h.trans (Only.mono (m := 8388608) ?_ hm)
  unfold State.ev55
  repeat' (first
    | (with_reducible exact Only.refl _ _)
    | (with_reducible refine State.raise_only ?_ ?_)
    | (with_reducible refine only_ite (fun _ => ?_) (fun _ => ?_))
    | (with_reducible refine only_foldl ?_ (fun _ _ => ?_))
    | decide
    | (dsimp only)
    | split)

theorem State.balFrame_only {a1 : _} (h : Only m s t) (hm : 268435456 &&& m = 268435456) :
    Only m s (t.balFrame a1) := by
  refine h.trans (Only.mono (m := 268435456) ?_ hm)
  unfold State.balFrame
  repeat' (first
    | (with_reducible exact Only.refl _ _)
    | (with_reducible refine State.addBal_only ?_ ?_)
    | (with_reducible refine only_ite (fun _ => ?_) (fun _ => ?_))
    | (with_reducible refine only_foldl ?_ (fun _ _ => ?_))
    | decide
    | (dsimp only)
    | split)

theorem State.waveFrame_only {a1 : _} (h : Only m s t) (hm : 268435456 &&& m = 268435456) :
    Only m s (t.waveFrame a1) := by
  refine h.trans (Only.mono (m := 268435456) ?_ hm)
  unfold State.waveFrame
  repeat' (first
    | (with_reducible exact Only.refl _ _)
    | (with_reducible refine State.addBal_only ?_ ?_)
    | (with_reducible refine only_ite (fun _ => ?_) (fun _ => ?_))
    | (with_reducible refine only_foldl ?_ (fun _ _ => ?_))
    | decide
    | (dsimp only)
    | split)

theorem State.firstFrame_only (h : Only m s t) (hm : 268435456 &&& m = 268435456) :
    Only m s (t.firstFrame) := by
  refine h.trans (Only.mono (m := 268435456) ?_ hm)
  unfold State.firstFrame
  repeat' (first
    | (with_reducible exact Only.refl _ _)
    | (with_reducible refine State.setDisp_only ?_ ?_)
    | (with_reducible refine only_ite (fun _ => ?_) (fun _ => ?_))
    | (with_reducible refine only_foldl ?_ (fun _ _ => ?_))
    | decide
    | (dsimp only)
    | split)

theorem State.dispStart_only {a1 : _} (h : Only m s t) (hm : 276824064 &&& m = 276824064) :
    Only m s (t.dispStart a1) := by
  refine h.trans (Only.mono (m := 276824064) ?_ hm)
  unfold State.dispStart
  repeat' (first
    | (with_reducible exact Only.refl _ _)
    | (with_reducible refine State.ev55_only ?_ ?_)
    | (with_reducible refine State.setDisp_only ?_ ?_)
    | (with_reducible refine State.firstFrame_only ?_ ?_)
    | (with_reducible refine only_ite (fun _ => ?_) (fun _ => ?_))
    | (with_reducible refine only_foldl ?_ (fun _ _ => ?_))
    | decide
    | (dsimp only)
    | split)

theorem State.dischargeHold_only (h : Only m s t) (hm : 268435456 &&& m = 268435456) :
    Only m s (t.dischargeHold) := by
  refine h.trans (Only.mono (m := 268435456) ?_ hm)
  unfold State.dischargeHold
  repeat' (first
    | (with_reducible exact Only.refl _ _)
    | (with_reducible refine State.setDisp_only ?_ ?_)
    | (with_reducible refine only_ite (fun _ => ?_) (fun _ => ?_))
    | (with_reducible refine only_foldl ?_ (fun _ _ => ?_))
    | decide
    | (dsimp only)
    | split)

theorem State.dispDischarge_only (h : Only m s t) (hm : 276824064 &&& m = 276824064) :
    Only m s (t.dispDischarge) := by
  refine h.trans (Only.mono (m := 276824064) ?_ hm)
  unfold State.dispDischarge
  repeat' (first
    | (with_reducible exact Only.refl _ _)
    | (with_reducible refine State.dischargeHold_only ?_ ?_)
    | (with_reducible refine State.setDisp_only ?_ ?_)
    | (with_reducible refine State.dispStart_only ?_ ?_)
    | (with_reducible refine only_ite (fun _ => ?_) (fun _ => ?_))
    | (with_reducible refine only_foldl ?_ (fun _ _ => ?_))
    | decide
    | (dsimp only)
    | split)

theorem State.dispNext_only (h : Only m s t) (hm : 276824064 &&& m = 276824064) :
    Only m s (t.dispNext) := by
  refine h.trans (Only.mono (m := 276824064) ?_ hm)
  unfold State.dispNext
  repeat' (first
    | (with_reducible exact Only.refl _ _)
    | (with_reducible refine State.dispStart_only ?_ ?_)
    | (with_reducible refine State.dispDischarge_only ?_ ?_)
    | (with_reducible refine only_ite (fun _ => ?_) (fun _ => ?_))
    | (with_reducible refine only_foldl ?_ (fun _ _ => ?_))
    | decide
    | (dsimp only)
    | split)

theorem State.dispFinish_only (h : Only m s t) (hm : 276824064 &&& m = 276824064) :
    Only m s (t.dispFinish) := by
  refine h.trans (Only.mono (m := 276824064) ?_ hm)
  unfold State.dispFinish
  repeat' (first
    | (with_reducible exact Only.refl _ _)
    | (with_reducible refine State.ev55_only ?_ ?_)
    | (with_reducible refine State.dischargeHold_only ?_ ?_)
    | (with_reducible refine State.dispNext_only ?_ ?_)
    | (with_reducible refine State.setDisp_only ?_ ?_)
    | (with_reducible refine only_ite (fun _ => ?_) (fun _ => ?_))
    | (with_reducible refine only_foldl ?_ (fun _ _ => ?_))
    | decide
    | (dsimp only)
    | split)

theorem State.requestUpdate_only (h : Only m s t) (hm : 276824064 &&& m = 276824064) :
    Only m s (t.requestUpdate) := by
  refine h.trans (Only.mono (m := 276824064) ?_ hm)
  unfold State.requestUpdate
  repeat' (first
    | (with_reducible exact Only.refl _ _)
    | (with_reducible refine State.setDisp_only ?_ ?_)
    | (with_reducible refine State.dispStart_only ?_ ?_)
    | (with_reducible refine only_ite (fun _ => ?_) (fun _ => ?_))
    | (with_reducible refine only_foldl ?_ (fun _ _ => ?_))
    | decide
    | (dsimp only)
    | split)

theorem State.dispAbandon_only {a1 : _} (h : Only m s t) (hm : 276824064 &&& m = 276824064) :
    Only m s (t.dispAbandon a1) := by
  refine h.trans (Only.mono (m := 276824064) ?_ hm)
  unfold State.dispAbandon
  repeat' (first
    | (with_reducible exact Only.refl _ _)
    | (with_reducible refine State.ev55_only ?_ ?_)
    | (with_reducible refine State.waveFrame_only ?_ ?_)
    | (with_reducible refine State.setDisp_only ?_ ?_)
    | (with_reducible refine State.balFrame_only ?_ ?_)
    | (with_reducible refine State.deferEvent_only ?_ ?_)
    | (with_reducible refine only_ite (fun _ => ?_) (fun _ => ?_))
    | (with_reducible refine only_foldl ?_ (fun _ _ => ?_))
    | decide
    | (dsimp only)
    | split)

theorem State.dispTempNew_only (h : Only m s t) (hm : 276824064 &&& m = 276824064) :
    Only m s (t.dispTempNew) := by
  refine h.trans (Only.mono (m := 276824064) ?_ hm)
  unfold State.dispTempNew
  repeat' (first
    | (with_reducible exact Only.refl _ _)
    | (with_reducible refine State.dispNext_only ?_ ?_)
    | (with_reducible refine State.setDisp_only ?_ ?_)
    | (with_reducible refine State.dispStart_only ?_ ?_)
    | (with_reducible refine only_ite (fun _ => ?_) (fun _ => ?_))
    | (with_reducible refine only_foldl ?_ (fun _ _ => ?_))
    | decide
    | (dsimp only)
    | split)

theorem State.setSelv_only {a1 : _} {a2 : _} (h : Only m s t) (hm : 268435456 &&& m = 268435456) :
    Only m s (t.setSelv a1 a2) := by
  refine h.trans (Only.mono (m := 268435456) ?_ hm)
  unfold State.setSelv
  repeat' (first
    | (with_reducible exact Only.refl _ _)
    | (with_reducible refine State.setDisp_only ?_ ?_)
    | (with_reducible refine only_ite (fun _ => ?_) (fun _ => ?_))
    | (with_reducible refine only_foldl ?_ (fun _ _ => ?_))
    | decide
    | (dsimp only)
    | split)

theorem State.selvStart_only {a1 : _} {a2 : _} {a3 : _} (h : Only m s t) (hm : 268435456 &&& m = 268435456) :
    Only m s (t.selvStart a1 a2 a3) := by
  refine h.trans (Only.mono (m := 268435456) ?_ hm)
  unfold State.selvStart
  repeat' (first
    | (with_reducible exact Only.refl _ _)
    | (with_reducible refine State.setSelv_only ?_ ?_)
    | (with_reducible refine only_ite (fun _ => ?_) (fun _ => ?_))
    | (with_reducible refine only_foldl ?_ (fun _ _ => ?_))
    | decide
    | (dsimp only)
    | split)

theorem State.selvAdd_only {a1 : _} {a2 : _} {a3 : _} {a4 : _} (h : Only m s t) (hm : 268435456 &&& m = 268435456) :
    Only m s (t.selvAdd a1 a2 a3 a4) := by
  refine h.trans (Only.mono (m := 268435456) ?_ hm)
  unfold State.selvAdd
  repeat' (first
    | (with_reducible exact Only.refl _ _)
    | (with_reducible refine State.addBal_only ?_ ?_)
    | (with_reducible refine only_ite (fun _ => ?_) (fun _ => ?_))
    | (with_reducible refine only_foldl ?_ (fun _ _ => ?_))
    | decide
    | (dsimp only)
    | split)

theorem State.selvTarget_only {a1 : _} {a2 : _} (h : Only m s t) (hm : 268435456 &&& m = 268435456) :
    Only m s (t.selvTarget a1 a2) := by
  refine h.trans (Only.mono (m := 268435456) ?_ hm)
  unfold State.selvTarget
  repeat' (first
    | (with_reducible exact Only.refl _ _)
    | (with_reducible refine State.selvStart_only ?_ ?_)
    | (with_reducible refine State.setSelv_only ?_ ?_)
    | (with_reducible refine State.selvAdd_only ?_ ?_)
    | (with_reducible refine only_ite (fun _ => ?_) (fun _ => ?_))
    | (with_reducible refine only_foldl ?_ (fun _ _ => ?_))
    | decide
    | (dsimp only)
    | split)

theorem State.selvStatus_only (h : Only m s t) (hm : 268435456 &&& m = 268435456) :
    Only m s (t.selvStatus) := by
  refine h.trans (Only.mono (m := 268435456) ?_ hm)
  unfold State.selvStatus
  repeat' (first
    | (with_reducible exact Only.refl _ _)
    | (with_reducible refine State.selvTarget_only ?_ ?_)
    | (with_reducible refine only_ite (fun _ => ?_) (fun _ => ?_))
    | (with_reducible refine only_foldl ?_ (fun _ _ => ?_))
    | decide
    | (dsimp only)
    | split)

theorem State.selvClear_only (h : Only m s t) (hm : 268435456 &&& m = 268435456) :
    Only m s (t.selvClear) := by
  refine h.trans (Only.mono (m := 268435456) ?_ hm)
  unfold State.selvClear
  repeat' (first
    | (with_reducible exact Only.refl _ _)
    | (with_reducible refine State.selvStart_only ?_ ?_)
    | (with_reducible refine State.setSelv_only ?_ ?_)
    | (with_reducible refine only_ite (fun _ => ?_) (fun _ => ?_))
    | (with_reducible refine only_foldl ?_ (fun _ _ => ?_))
    | decide
    | (dsimp only)
    | split)

theorem State.ev58_only {a1 : _} {a2 : _} (h : Only m s t) (hm : 8388608 &&& m = 8388608) :
    Only m s (t.ev58 a1 a2) := by
  refine h.trans (Only.mono (m := 8388608) ?_ hm)
  unfold State.ev58
  repeat' (first
    | (with_reducible exact Only.refl _ _)
    | (with_reducible refine State.raise_only ?_ ?_)
    | (with_reducible refine only_ite (fun _ => ?_) (fun _ => ?_))
    | (with_reducible refine only_foldl ?_ (fun _ _ => ?_))
    | decide
    | (dsimp only)
    | split)

theorem State.outputsOff_only (h : Only m s t) (hm : 65664 &&& m = 65664) :
    Only m s (t.outputsOff) := by
  refine h.trans (Only.mono (m := 65664) ?_ hm)
  unfold State.outputsOff
  repeat' (first
    | (lift_lets; intro x; (with_reducible refine Only.trans (b := x) ?_ ?_); rotate_left; (clear_value x); rotate_left; (dsimp only [x]))
    | (lift_lets; intro x; clear_value x)
    | (with_reducible exact Only.refl _ _)
    | (with_reducible refine only_ite (fun _ => ?_) (fun _ => ?_))
    | (with_reducible refine only_foldl ?_ (fun _ _ => ?_))
    | decide
    | (dsimp only)
    | ((with_reducible refine only_set_ftrip ?_ (by decide)); first | (with_reducible exact Only.refl _ _) | (with_reducible refine only_ite (fun _ => ?_) (fun _ => ?_)) | (with_reducible refine only_foldl ?_ (fun _ _ => ?_)))
    | ((with_reducible refine only_set_acc ?_ (by decide)); first | (with_reducible exact Only.refl _ _) | (with_reducible refine only_ite (fun _ => ?_) (fun _ => ?_)) | (with_reducible refine only_foldl ?_ (fun _ _ => ?_)))
    | split
    | (constructor <;> first | rfl | exact .of rfl rfl rfl | exact .of rfl rfl | exact .of rfl | exact Nat.le_refl _ | (intro hb; first | rfl | exact absurd hb (by decide))))

theorem State.bindGate_only (h : Only m s t) (hm : 6357120 &&& m = 6357120) :
    Only m s (t.bindGate) := by
  refine h.trans (Only.mono (m := 6357120) ?_ hm)
  unfold State.bindGate
  repeat' (first
    | (lift_lets; intro x; (with_reducible refine Only.trans (b := x) ?_ ?_); rotate_left; (clear_value x); rotate_left; (dsimp only [x]))
    | (lift_lets; intro x; clear_value x)
    | (with_reducible exact Only.refl _ _)
    | (with_reducible refine State.outputsOff_only ?_ ?_)
    | (with_reducible refine only_ite (fun _ => ?_) (fun _ => ?_))
    | (with_reducible refine only_foldl ?_ (fun _ _ => ?_))
    | decide
    | exact ⟨fun w => cellsSet_wf w _ _⟩ | exact ⟨fun w => w, fun _ p => List.mem_append_left _ p, fun _ => Nat.le_refl _⟩ | exact .of rfl rfl rfl | exact .of rfl rfl | exact .of rfl | exact Nat.le_refl _
    | (dsimp only)
    | ((with_reducible refine only_set_ftrip ?_ (by decide)); first | (with_reducible exact Only.refl _ _) | (with_reducible refine State.outputsOff_only ?_ ?_) | (with_reducible refine only_ite (fun _ => ?_) (fun _ => ?_)) | (with_reducible refine only_foldl ?_ (fun _ _ => ?_)))
    | ((with_reducible refine only_set_acc ?_ (by decide)); first | (with_reducible exact Only.refl _ _) | (with_reducible refine State.outputsOff_only ?_ ?_) | (with_reducible refine only_ite (fun _ => ?_) (fun _ => ?_)) | (with_reducible refine only_foldl ?_ (fun _ _ => ?_)))
    | ((with_reducible refine only_set_nvm ?_ ?_ (by decide)); rotate_left; (first | exact ⟨fun w => cellsSet_wf w _ _⟩ | exact ⟨fun w => w, fun _ p => List.mem_append_left _ p, fun _ => Nat.le_refl _⟩ | exact .of rfl rfl rfl | exact .of rfl rfl | exact .of rfl | exact Nat.le_refl _); first | (with_reducible exact Only.refl _ _) | (with_reducible refine State.outputsOff_only ?_ ?_) | (with_reducible refine only_ite (fun _ => ?_) (fun _ => ?_)) | (with_reducible refine only_foldl ?_ (fun _ _ => ?_)))
    | ((with_reducible refine only_set_pwr ?_ (by decide)); first | (with_reducible exact Only.refl _ _) | (with_reducible refine State.outputsOff_only ?_ ?_) | (with_reducible refine only_ite (fun _ => ?_) (fun _ => ?_)) | (with_reducible refine only_foldl ?_ (fun _ _ => ?_)))
    | split
    | (constructor <;> first | rfl | exact .of rfl rfl rfl | exact .of rfl rfl | exact .of rfl | exact Nat.le_refl _ | (intro hb; first | rfl | exact absurd hb (by decide))))

theorem State.bindProgress_only (h : Only m s t) (hm : 283116544 &&& m = 283116544) :
    Only m s (t.bindProgress) := by
  refine h.trans (Only.mono (m := 283116544) ?_ hm)
  unfold State.bindProgress
  repeat' (first
    | (lift_lets; intro x; (with_reducible refine Only.trans (b := x) ?_ ?_); rotate_left; (clear_value x); rotate_left; (dsimp only [x]))
    | (lift_lets; intro x; clear_value x)
    | (with_reducible exact Only.refl _ _)
    | (with_reducible refine State.fullSave_only ?_ ?_)
    | (with_reducible refine State.setDisp_only ?_ ?_)
    | (with_reducible refine State.dispDischarge_only ?_ ?_)
    | (with_reducible refine only_ite (fun _ => ?_) (fun _ => ?_))
    | (with_reducible refine only_foldl ?_ (fun _ _ => ?_))
    | decide
    | (dsimp only)
    | ((with_reducible refine only_set_eng ?_ (by decide)); first | (with_reducible exact Only.refl _ _) | (with_reducible refine State.fullSave_only ?_ ?_) | (with_reducible refine State.setDisp_only ?_ ?_) | (with_reducible refine State.dispDischarge_only ?_ ?_) | (with_reducible refine only_ite (fun _ => ?_) (fun _ => ?_)) | (with_reducible refine only_foldl ?_ (fun _ _ => ?_)))
    | ((with_reducible refine only_set_nvm ?_ ?_ (by decide)); rotate_left; (first | exact ⟨fun w => cellsSet_wf w _ _⟩ | exact ⟨fun w => w, fun _ p => List.mem_append_left _ p, fun _ => Nat.le_refl _⟩ | exact .of rfl rfl rfl | exact .of rfl rfl | exact .of rfl | exact Nat.le_refl _); first | (with_reducible exact Only.refl _ _) | (with_reducible refine State.fullSave_only ?_ ?_) | (with_reducible refine State.setDisp_only ?_ ?_) | (with_reducible refine State.dispDischarge_only ?_ ?_) | (with_reducible refine only_ite (fun _ => ?_) (fun _ => ?_)) | (with_reducible refine only_foldl ?_ (fun _ _ => ?_)))
    | ((with_reducible refine only_set_pwr ?_ (by decide)); first | (with_reducible exact Only.refl _ _) | (with_reducible refine State.fullSave_only ?_ ?_) | (with_reducible refine State.setDisp_only ?_ ?_) | (with_reducible refine State.dispDischarge_only ?_ ?_) | (with_reducible refine only_ite (fun _ => ?_) (fun _ => ?_)) | (with_reducible refine only_foldl ?_ (fun _ _ => ?_)))
    | ((with_reducible refine only_set_evt ?_ (by decide)); first | (with_reducible exact Only.refl _ _) | (with_reducible refine State.fullSave_only ?_ ?_) | (with_reducible refine State.setDisp_only ?_ ?_) | (with_reducible refine State.dispDischarge_only ?_ ?_) | (with_reducible refine only_ite (fun _ => ?_) (fun _ => ?_)) | (with_reducible refine only_foldl ?_ (fun _ _ => ?_)))
    | ((with_reducible refine only_set_disp ?_ (by decide)); first | (with_reducible exact Only.refl _ _) | (with_reducible refine State.fullSave_only ?_ ?_) | (with_reducible refine State.setDisp_only ?_ ?_) | (with_reducible refine State.dispDischarge_only ?_ ?_) | (with_reducible refine only_ite (fun _ => ?_) (fun _ => ?_)) | (with_reducible refine only_foldl ?_ (fun _ _ => ?_)))
    | split
    | (constructor <;> first | rfl | exact .of rfl rfl rfl | exact .of rfl rfl | exact .of rfl | exact Nat.le_refl _ | (intro hb; first | rfl | exact absurd hb (by decide))))

theorem State.bindStart_only {a1 : _} (h : Only m s t) (hm : 283116544 &&& m = 283116544) :
    Only m s (t.bindStart a1) := by
  refine h.trans (Only.mono (m := 283116544) ?_ hm)
  unfold State.bindStart
  repeat' (first
    | (with_reducible exact Only.refl _ _)
    | (with_reducible refine State.bindProgress_only ?_ ?_)
    | (with_reducible refine only_ite (fun _ => ?_) (fun _ => ?_))
    | (with_reducible refine only_foldl ?_ (fun _ _ => ?_))
    | decide
    | (dsimp only)
    | ((with_reducible refine only_set_eng ?_ (by decide)); first | (with_reducible exact Only.refl _ _) | (with_reducible refine State.bindProgress_only ?_ ?_) | (with_reducible refine only_ite (fun _ => ?_) (fun _ => ?_)) | (with_reducible refine only_foldl ?_ (fun _ _ => ?_)))
    | ((with_reducible refine only_set_nvm ?_ ?_ (by decide)); rotate_left; (first | exact ⟨fun w => cellsSet_wf w _ _⟩ | exact ⟨fun w => w, fun _ p => List.mem_append_left _ p, fun _ => Nat.le_refl _⟩ | exact .of rfl rfl rfl | exact .of rfl rfl | exact .of rfl | exact Nat.le_refl _); first | (with_reducible exact Only.refl _ _) | (with_reducible refine State.bindProgress_only ?_ ?_) | (with_reducible refine only_ite (fun _ => ?_) (fun _ => ?_)) | (with_reducible refine only_foldl ?_ (fun _ _ => ?_)))
    | ((with_reducible refine only_set_pwr ?_ (by decide)); first | (with_reducible exact Only.refl _ _) | (with_reducible refine State.bindProgress_only ?_ ?_) | (with_reducible refine only_ite (fun _ => ?_) (fun _ => ?_)) | (with_reducible refine only_foldl ?_ (fun _ _ => ?_)))
    | ((with_reducible refine only_set_evt ?_ (by decide)); first | (with_reducible exact Only.refl _ _) | (with_reducible refine State.bindProgress_only ?_ ?_) | (with_reducible refine only_ite (fun _ => ?_) (fun _ => ?_)) | (with_reducible refine only_foldl ?_ (fun _ _ => ?_)))
    | ((with_reducible refine only_set_disp ?_ (by decide)); first | (with_reducible exact Only.refl _ _) | (with_reducible refine State.bindProgress_only ?_ ?_) | (with_reducible refine only_ite (fun _ => ?_) (fun _ => ?_)) | (with_reducible refine only_foldl ?_ (fun _ _ => ?_)))
    | split)

theorem State.railsDown_only (h : Only m s t) (hm : 283181184 &&& m = 283181184) :
    Only m s (t.railsDown) := by
  refine h.trans (Only.mono (m := 283181184) ?_ hm)
  unfold State.railsDown
  repeat' (first
    | (with_reducible exact Only.refl _ _)
    | (with_reducible refine State.ev55_only ?_ ?_)
    | (with_reducible refine State.setDisp_only ?_ ?_)
    | (with_reducible refine State.bindGate_only ?_ ?_)
    | (with_reducible refine only_ite (fun _ => ?_) (fun _ => ?_))
    | (with_reducible refine only_foldl ?_ (fun _ _ => ?_))
    | decide
    | (dsimp only)
    | split)

theorem State.requestLoad_only {a1 : _} (h : Only m s t) (hm : 1048592 &&& m = 1048592) :
    Only m s (t.requestLoad a1) := by
  refine h.trans (Only.mono (m := 1048592) ?_ hm)
  unfold State.requestLoad
  repeat' (first
    | (with_reducible exact Only.refl _ _)
    | (with_reducible refine State.setChan_only ?_ ?_)
    | (with_reducible refine State.setCal_only ?_ ?_)
    | (with_reducible refine only_ite (fun _ => ?_) (fun _ => ?_))
    | (with_reducible refine only_foldl ?_ (fun _ _ => ?_))
    | decide
    | (dsimp only)
    | split)

theorem State.requestLoads_only (h : Only m s t) (hm : 1048592 &&& m = 1048592) :
    Only m s (t.requestLoads) := by
  refine h.trans (Only.mono (m := 1048592) ?_ hm)
  unfold State.requestLoads
  repeat' (first
    | (with_reducible exact Only.refl _ _)
    | (with_reducible refine State.requestLoad_only ?_ ?_)
    | (with_reducible refine only_ite (fun _ => ?_) (fun _ => ?_))
    | (with_reducible refine only_foldl ?_ (fun _ _ => ?_))
    | decide
    | (dsimp only)
    | split)

theorem State.fold_only {a1 : _} {a2 : _} (h : Only m s t) (hm : 3145741 &&& m = 3145741) :
    Only m s (t.fold a1 a2) := by
  refine h.trans (Only.mono (m := 3145741) ?_ hm)
  unfold State.fold
  repeat' (first
    | (with_reducible exact Only.refl _ _)
    | (with_reducible refine State.setCfg_only ?_ ?_)
    | (with_reducible refine State.setSpare_only ?_ ?_)
    | (with_reducible refine State.storeTry_only ?_ ?_)
    | (with_reducible refine State.setCal_only ?_ ?_)
    | (with_reducible refine State.setMod_only ?_ ?_)
    | (with_reducible refine only_ite (fun _ => ?_) (fun _ => ?_))
    | (with_reducible refine only_foldl ?_ (fun _ _ => ?_))
    | decide
    | (dsimp only)
    | split)

theorem State.spareTrim_only {a1 : _} {a2 : _} (h : Only m s t) (hm : 12 &&& m = 12) :
    Only m s (t.spareTrim a1 a2) := by
  refine h.trans (Only.mono (m := 12) ?_ hm)
  unfold State.spareTrim
  repeat' (first
    | (with_reducible exact Only.refl _ _)
    | (with_reducible refine State.setSpare_only ?_ ?_)
    | (with_reducible refine State.setMod_only ?_ ?_)
    | (with_reducible refine only_ite (fun _ => ?_) (fun _ => ?_))
    | (with_reducible refine only_foldl ?_ (fun _ _ => ?_))
    | decide
    | (dsimp only)
    | split)

theorem State.parallelRestart_only {a1 : _} (h : Only m s t) (hm : 8 &&& m = 8) :
    Only m s (t.parallelRestart a1) := by
  refine h.trans (Only.mono (m := 8) ?_ hm)
  unfold State.parallelRestart
  repeat' (first
    | (with_reducible exact Only.refl _ _)
    | (with_reducible refine State.setSpare_only ?_ ?_)
    | (with_reducible refine only_ite (fun _ => ?_) (fun _ => ?_))
    | (with_reducible refine only_foldl ?_ (fun _ _ => ?_))
    | decide
    | (dsimp only)
    | split)

theorem State.dacLoad_only {a1 : _} {a2 : _} (h : Only m s t) (hm : 3145757 &&& m = 3145757) :
    Only m s (t.dacLoad a1 a2) := by
  refine h.trans (Only.mono (m := 3145757) ?_ hm)
  unfold State.dacLoad
  repeat' (first
    | (with_reducible exact Only.refl _ _)
    | (with_reducible refine State.setChan_only ?_ ?_)
    | (with_reducible refine State.fold_only ?_ ?_)
    | (with_reducible refine State.spareTrim_only ?_ ?_)
    | (with_reducible refine State.setMod_only ?_ ?_)
    | (with_reducible refine State.parallelRestart_only ?_ ?_)
    | (with_reducible refine only_ite (fun _ => ?_) (fun _ => ?_))
    | (with_reducible refine only_foldl ?_ (fun _ _ => ?_))
    | decide
    | (dsimp only)
    | split)

theorem State.applyTemp_only {a1 : _} {a2 : _} (h : Only m s t) (hm : 277872656 &&& m = 277872656) :
    Only m s (t.applyTemp a1 a2) := by
  refine h.trans (Only.mono (m := 277872656) ?_ hm)
  unfold State.applyTemp
  repeat' (first
    | (with_reducible exact Only.refl _ _)
    | (with_reducible refine State.dispTempNew_only ?_ ?_)
    | (with_reducible refine State.setDisp_only ?_ ?_)
    | (with_reducible refine State.setCal_only ?_ ?_)
    | (with_reducible refine State.requestLoads_only ?_ ?_)
    | (with_reducible refine only_ite (fun _ => ?_) (fun _ => ?_))
    | (with_reducible refine only_foldl ?_ (fun _ _ => ?_))
    | decide
    | (dsimp only)
    | split)

theorem State.setPrepay_only {a1 : _} {a2 : _} (h : Only m s t) (hm : 524288 &&& m = 524288) :
    Only m s (t.setPrepay a1 a2) := by
  refine h.trans (Only.mono (m := 524288) ?_ hm)
  unfold State.setPrepay
  repeat' (first
    | (with_reducible exact Only.refl _ _)
    | (with_reducible refine State.setPp_only ?_ ?_)
    | (with_reducible refine only_ite (fun _ => ?_) (fun _ => ?_))
    | (with_reducible refine only_foldl ?_ (fun _ _ => ?_))
    | decide
    | (dsimp only)
    | split)

theorem State.setCredit_only {a1 : _} {a2 : _} (h : Only m s t) (hm : 2621440 &&& m = 2621440) :
    Only m s (t.setCredit a1 a2) := by
  refine h.trans (Only.mono (m := 2621440) ?_ hm)
  unfold State.setCredit
  repeat' (first
    | (with_reducible exact Only.refl _ _)
    | (with_reducible refine State.setPp_only ?_ ?_)
    | (with_reducible refine State.setNvm_only ?_ ?_ ?_)
    | (with_reducible refine only_ite (fun _ => ?_) (fun _ => ?_))
    | (with_reducible refine only_foldl ?_ (fun _ _ => ?_))
    | decide
    | exact ⟨fun w => cellsSet_wf w _ _⟩ | exact ⟨fun w => w, fun _ p => List.mem_append_left _ p, fun _ => Nat.le_refl _⟩ | exact .of rfl rfl rfl | exact .of rfl rfl | exact .of rfl | exact Nat.le_refl _
    | (dsimp only)
    | split)

theorem State.setRelay_only {a1 : _} (h : Only m s t) (hm : 524288 &&& m = 524288) :
    Only m s (t.setRelay a1) := by
  refine h.trans (Only.mono (m := 524288) ?_ hm)
  unfold State.setRelay
  repeat' (first
    | (with_reducible exact Only.refl _ _)
    | (with_reducible refine State.setPp_only ?_ ?_)
    | (with_reducible refine only_ite (fun _ => ?_) (fun _ => ?_))
    | (with_reducible refine only_foldl ?_ (fun _ _ => ?_))
    | decide
    | (dsimp only)
    | split)

theorem State.queueOpen_only {a1 : _} (h : Only m s t) (hm : 524288 &&& m = 524288) :
    Only m s (t.queueOpen a1) := by
  refine h.trans (Only.mono (m := 524288) ?_ hm)
  unfold State.queueOpen
  repeat' (first
    | (with_reducible exact Only.refl _ _)
    | (with_reducible refine State.setRelay_only ?_ ?_)
    | (with_reducible refine State.setPrepay_only ?_ ?_)
    | (with_reducible refine only_ite (fun _ => ?_) (fun _ => ?_))
    | (with_reducible refine only_foldl ?_ (fun _ _ => ?_))
    | decide
    | (dsimp only)
    | split)

theorem State.queueClose_only {a1 : _} (h : Only m s t) (hm : 524288 &&& m = 524288) :
    Only m s (t.queueClose a1) := by
  refine h.trans (Only.mono (m := 524288) ?_ hm)
  unfold State.queueClose
  repeat' (first
    | (with_reducible exact Only.refl _ _)
    | (with_reducible refine State.setRelay_only ?_ ?_)
    | (with_reducible refine State.setPrepay_only ?_ ?_)
    | (with_reducible refine only_ite (fun _ => ?_) (fun _ => ?_))
    | (with_reducible refine only_foldl ?_ (fun _ _ => ?_))
    | decide
    | (dsimp only)
    | split)

theorem State.sourceCleared_only {a1 : _} (h : Only m s t) (hm : 524288 &&& m = 524288) :
    Only m s (t.sourceCleared a1) := by
  refine h.trans (Only.mono (m := 524288) ?_ hm)
  unfold State.sourceCleared
  repeat' (first
    | (with_reducible exact Only.refl _ _)
    | (with_reducible refine State.queueClose_only ?_ ?_)
    | (with_reducible refine State.setPrepay_only ?_ ?_)
    | (with_reducible refine only_ite (fun _ => ?_) (fun _ => ?_))
    | (with_reducible refine only_foldl ?_ (fun _ _ => ?_))
    | decide
    | (dsimp only)
    | split)

theorem State.creditSource_only {a1 : _} {a2 : _} (h : Only m s t) (hm : 524288 &&& m = 524288) :
    Only m s (t.creditSource a1 a2) := by
  refine h.trans (Only.mono (m := 524288) ?_ hm)
  unfold State.creditSource
  repeat' (first
    | (with_reducible exact Only.refl _ _)
    | (with_reducible refine State.sourceCleared_only ?_ ?_)
    | (with_reducible refine State.setPrepay_only ?_ ?_)
    | (with_reducible refine State.queueOpen_only ?_ ?_)
    | (with_reducible refine only_ite (fun _ => ?_) (fun _ => ?_))
    | (with_reducible refine only_foldl ?_ (fun _ _ => ?_))
    | decide
    | (dsimp only)
    | split)

theorem State.tamperDisc_only {a1 : _} {a2 : _} (h : Only m s t) (hm : 524288 &&& m = 524288) :
    Only m s (t.tamperDisc a1 a2) := by
  refine h.trans (Only.mono (m := 524288) ?_ hm)
  unfold State.tamperDisc
  repeat' (first
    | (with_reducible exact Only.refl _ _)
    | (with_reducible refine State.setPrepay_only ?_ ?_)
    | (with_reducible refine State.queueOpen_only ?_ ?_)
    | (with_reducible refine only_ite (fun _ => ?_) (fun _ => ?_))
    | (with_reducible refine only_foldl ?_ (fun _ _ => ?_))
    | decide
    | (dsimp only)
    | split)

theorem State.tamperFree_only {a1 : _} (h : Only m s t) (hm : 524288 &&& m = 524288) :
    Only m s (t.tamperFree a1) := by
  refine h.trans (Only.mono (m := 524288) ?_ hm)
  unfold State.tamperFree
  repeat' (first
    | (with_reducible exact Only.refl _ _)
    | (with_reducible refine State.sourceCleared_only ?_ ?_)
    | (with_reducible refine State.setPrepay_only ?_ ?_)
    | (with_reducible refine only_ite (fun _ => ?_) (fun _ => ?_))
    | (with_reducible refine only_foldl ?_ (fun _ _ => ?_))
    | decide
    | (dsimp only)
    | split)

theorem State.levelLow_only {a1 : _} (h : Only m s t) (hm : 11010048 &&& m = 11010048) :
    Only m s (t.levelLow a1) := by
  refine h.trans (Only.mono (m := 11010048) ?_ hm)
  unfold State.levelLow
  repeat' (first
    | (with_reducible exact Only.refl _ _)
    | (with_reducible refine State.setCredit_only ?_ ?_)
    | (with_reducible refine State.raise_only ?_ ?_)
    | (with_reducible refine only_ite (fun _ => ?_) (fun _ => ?_))
    | (with_reducible refine only_foldl ?_ (fun _ _ => ?_))
    | decide
    | (dsimp only)
    | split)

theorem State.levelEc_only {a1 : _} (h : Only m s t) (hm : 2621440 &&& m = 2621440) :
    Only m s (t.levelEc a1) := by
  refine h.trans (Only.mono (m := 2621440) ?_ hm)
  unfold State.levelEc
  repeat' (first
    | (with_reducible exact Only.refl _ _)
    | (with_reducible refine State.setCredit_only ?_ ?_)
    | (with_reducible refine only_ite (fun _ => ?_) (fun _ => ?_))
    | (with_reducible refine only_foldl ?_ (fun _ _ => ?_))
    | decide
    | (dsimp only)
    | split)

theorem State.levelOut_only {a1 : _} {a2 : _} (h : Only m s t) (hm : 11010048 &&& m = 11010048) :
    Only m s (t.levelOut a1 a2) := by
  refine h.trans (Only.mono (m := 11010048) ?_ hm)
  unfold State.levelOut
  repeat' (first
    | (with_reducible exact Only.refl _ _)
    | (with_reducible refine State.setCredit_only ?_ ?_)
    | (with_reducible refine State.raise_only ?_ ?_)
    | (with_reducible refine State.creditSource_only ?_ ?_)
    | (with_reducible refine only_ite (fun _ => ?_) (fun _ => ?_))
    | (with_reducible refine only_foldl ?_ (fun _ _ => ?_))
    | decide
    | (dsimp only)
    | split)

theorem State.levelUp_only {a1 : _} (h : Only m s t) (hm : 2621440 &&& m = 2621440) :
    Only m s (t.levelUp a1) := by
  refine h.trans (Only.mono (m := 2621440) ?_ hm)
  unfold State.levelUp
  repeat' (first
    | (with_reducible exact Only.refl _ _)
    | (with_reducible refine State.setCredit_only ?_ ?_)
    | (with_reducible refine State.creditSource_only ?_ ?_)
    | (with_reducible refine only_ite (fun _ => ?_) (fun _ => ?_))
    | (with_reducible refine only_foldl ?_ (fun _ _ => ?_))
    | decide
    | (dsimp only)
    | split)

theorem State.levels_only {a1 : _} {a2 : _} (h : Only m s t) (hm : 11010048 &&& m = 11010048) :
    Only m s (t.levels a1 a2) := by
  refine h.trans (Only.mono (m := 11010048) ?_ hm)
  unfold State.levels
  repeat' (first
    | (with_reducible exact Only.refl _ _)
    | (with_reducible refine State.levelEc_only ?_ ?_)
    | (with_reducible refine State.levelUp_only ?_ ?_)
    | (with_reducible refine State.levelLow_only ?_ ?_)
    | (with_reducible refine State.levelOut_only ?_ ?_)
    | (with_reducible refine only_ite (fun _ => ?_) (fun _ => ?_))
    | (with_reducible refine only_foldl ?_ (fun _ _ => ?_))
    | decide
    | (dsimp only)
    | split)

theorem State.schedStart_only (h : Only m s t) (hm : 524288 &&& m = 524288) :
    Only m s (t.schedStart) := by
  refine h.trans (Only.mono (m := 524288) ?_ hm)
  unfold State.schedStart
  repeat' (first
    | (with_reducible exact Only.refl _ _)
    | (with_reducible refine State.setPp_only ?_ ?_)
    | (with_reducible refine only_ite (fun _ => ?_) (fun _ => ?_))
    | (with_reducible refine only_foldl ?_ (fun _ _ => ?_))
    | decide
    | (dsimp only)
    | split)

theorem State.tariffUsed_only {a1 : _} {a2 : _} (h : Only m s t) (hm : 8912896 &&& m = 8912896) :
    Only m s (t.tariffUsed a1 a2) := by
  refine h.trans (Only.mono (m := 8912896) ?_ hm)
  unfold State.tariffUsed
  repeat' (first
    | (with_reducible exact Only.refl _ _)
    | (with_reducible refine State.raise_only ?_ ?_)
    | (with_reducible refine State.setPrepay_only ?_ ?_)
    | (with_reducible refine only_ite (fun _ => ?_) (fun _ => ?_))
    | (with_reducible refine only_foldl ?_ (fun _ _ => ?_))
    | decide
    | (dsimp only)
    | split)

theorem State.debit_only {a1 : _} {a2 : _} {a3 : _} {a4 : _} {a5 : _} (h : Only m s t) (hm : 11010048 &&& m = 11010048) :
    Only m s (t.debit a1 a2 a3 a4 a5) := by
  refine h.trans (Only.mono (m := 11010048) ?_ hm)
  unfold State.debit
  repeat' (first
    | (with_reducible exact Only.refl _ _)
    | (with_reducible refine State.setCredit_only ?_ ?_)
    | (with_reducible refine State.tariffUsed_only ?_ ?_)
    | (with_reducible refine State.setPrepay_only ?_ ?_)
    | (with_reducible refine State.levels_only ?_ ?_)
    | (with_reducible refine only_ite (fun _ => ?_) (fun _ => ?_))
    | (with_reducible refine only_foldl ?_ (fun _ _ => ?_))
    | decide
    | (dsimp only)
    | split)

theorem State.charge_only {a1 : _} {a2 : _} (h : Only m s t) (hm : 11010048 &&& m = 11010048) :
    Only m s (t.charge a1 a2) := by
  refine h.trans (Only.mono (m := 11010048) ?_ hm)
  unfold State.charge
  repeat' (first
    | (with_reducible exact Only.refl _ _)
    | (with_reducible refine State.setCredit_only ?_ ?_)
    | (with_reducible refine State.tariffUsed_only ?_ ?_)
    | (with_reducible refine State.levels_only ?_ ?_)
    | (with_reducible refine only_ite (fun _ => ?_) (fun _ => ?_))
    | (with_reducible refine only_foldl ?_ (fun _ _ => ?_))
    | decide
    | (dsimp only)
    | split)

theorem State.chargeTo_only {a1 : _} {a2 : _} (h : Only m s t) (hm : 11010048 &&& m = 11010048) :
    Only m s (t.chargeTo a1 a2) := by
  refine h.trans (Only.mono (m := 11010048) ?_ hm)
  unfold State.chargeTo
  repeat' (first
    | (with_reducible exact Only.refl _ _)
    | (with_reducible refine State.charge_only ?_ ?_)
    | (with_reducible refine only_ite (fun _ => ?_) (fun _ => ?_))
    | (with_reducible refine only_foldl ?_ (fun _ _ => ?_))
    | decide
    | (dsimp only)
    | split)

theorem State.setPulse_only {a1 : _} {a2 : _} (h : Only m s t) (hm : 65536 &&& m = 65536) :
    Only m s (t.setPulse a1 a2) := by
  refine h.trans (Only.mono (m := 65536) ?_ hm)
  unfold State.setPulse
  repeat' (first
    | (with_reducible exact Only.refl _ _)
    | (with_reducible refine State.setAcc_only ?_ ?_)
    | (with_reducible refine only_ite (fun _ => ?_) (fun _ => ?_))
    | (with_reducible refine only_foldl ?_ (fun _ _ => ?_))
    | decide
    | (dsimp only)
    | split)

theorem State.pulseRun_only {a1 : _} {a2 : _} (h : Only m s t) (hm : 65536 &&& m = 65536) :
    Only m s (t.pulseRun a1 a2) := by
  refine h.trans (Only.mono (m := 65536) ?_ hm)
  unfold State.pulseRun
  repeat' (first
    | (with_reducible exact Only.refl _ _)
    | (with_reducible refine State.setPulse_only ?_ ?_)
    | (with_reducible refine only_ite (fun _ => ?_) (fun _ => ?_))
    | (with_reducible refine only_foldl ?_ (fun _ _ => ?_))
    | decide
    | (dsimp only)
    | split)

theorem State.pulsesRun_only (h : Only m s t) (hm : 65536 &&& m = 65536) :
    Only m s (t.pulsesRun) := by
  refine h.trans (Only.mono (m := 65536) ?_ hm)
  unfold State.pulsesRun
  repeat' (first
    | (with_reducible exact Only.refl _ _)
    | (with_reducible refine State.pulseRun_only ?_ ?_)
    | (with_reducible refine only_ite (fun _ => ?_) (fun _ => ?_))
    | (with_reducible refine only_foldl ?_ (fun _ _ => ?_))
    | decide
    | (dsimp only)
    | split)

theorem State.pulseAdd_only {a1 : _} {a2 : _} {a3 : _} (h : Only m s t) (hm : 65536 &&& m = 65536) :
    Only m s (t.pulseAdd a1 a2 a3) := by
  refine h.trans (Only.mono (m := 65536) ?_ hm)
  unfold State.pulseAdd
  repeat' (first
    | (with_reducible exact Only.refl _ _)
    | (with_reducible refine State.setPulse_only ?_ ?_)
    | (with_reducible refine State.pulseRun_only ?_ ?_)
    | (with_reducible refine only_ite (fun _ => ?_) (fun _ => ?_))
    | (with_reducible refine only_foldl ?_ (fun _ _ => ?_))
    | decide
    | (dsimp only)
    | split)

theorem State.setDemand_only {a1 : _} {a2 : _} (h : Only m s t) (hm : 2162688 &&& m = 2162688) :
    Only m s (t.setDemand a1 a2) := by
  refine h.trans (Only.mono (m := 2162688) ?_ hm)
  unfold State.setDemand
  repeat' (first
    | (with_reducible exact Only.refl _ _)
    | (with_reducible refine State.setAcc_only ?_ ?_)
    | (with_reducible refine State.setNvm_only ?_ ?_ ?_)
    | (with_reducible refine only_ite (fun _ => ?_) (fun _ => ?_))
    | (with_reducible refine only_foldl ?_ (fun _ _ => ?_))
    | decide
    | exact ⟨fun w => cellsSet_wf w _ _⟩ | exact ⟨fun w => w, fun _ p => List.mem_append_left _ p, fun _ => Nat.le_refl _⟩ | exact .of rfl rfl rfl | exact .of rfl rfl | exact .of rfl | exact Nat.le_refl _
    | (dsimp only)
    | split)

theorem State.demandGate_only {a1 : _} {a2 : _} (h : Only m s t) (hm : 2162688 &&& m = 2162688) :
    Only m s (t.demandGate a1 a2) := by
  refine h.trans (Only.mono (m := 2162688) ?_ hm)
  unfold State.demandGate
  repeat' (first
    | (with_reducible exact Only.refl _ _)
    | (with_reducible refine State.setDemand_only ?_ ?_)
    | (with_reducible refine only_ite (fun _ => ?_) (fun _ => ?_))
    | (with_reducible refine only_foldl ?_ (fun _ _ => ?_))
    | decide
    | (dsimp only)
    | split)

theorem State.demandForce_only (h : Only m s t) (hm : 2162688 &&& m = 2162688) :
    Only m s (t.demandForce) := by
  refine h.trans (Only.mono (m := 2162688) ?_ hm)
  unfold State.demandForce
  repeat' (first
    | (with_reducible exact Only.refl _ _)
    | (with_reducible refine State.setDemand_only ?_ ?_)
    | (with_reducible refine only_ite (fun _ => ?_) (fun _ => ?_))
    | (with_reducible refine only_foldl ?_ (fun _ _ => ?_))
    | decide
    | (dsimp only)
    | split)

theorem State.setProf_only {a1 : _} {a2 : _} (h : Only m s t) (hm : 65536 &&& m = 65536) :
    Only m s (t.setProf a1 a2) := by
  refine h.trans (Only.mono (m := 65536) ?_ hm)
  unfold State.setProf
  repeat' (first
    | (with_reducible exact Only.refl _ _)
    | (with_reducible refine State.setAcc_only ?_ ?_)
    | (with_reducible refine only_ite (fun _ => ?_) (fun _ => ?_))
    | (with_reducible refine only_foldl ?_ (fun _ _ => ?_))
    | decide
    | (dsimp only)
    | split)

theorem State.profRecord_only {a1 : _} {a2 : _} {a3 : _} {a4 : _} (h : Only m s t) (hm : 10551296 &&& m = 10551296) :
    Only m s (t.profRecord a1 a2 a3 a4) := by
  refine h.trans (Only.mono (m := 10551296) ?_ hm)
  unfold State.profRecord
  repeat' (first
    | (with_reducible exact Only.refl _ _)
    | (with_reducible refine State.logPut_only ?_ ?_)
    | (with_reducible refine State.setProf_only ?_ ?_)
    | (with_reducible refine State.setAcc_only ?_ ?_)
    | (with_reducible refine State.archive_only ?_ ?_)
    | (with_reducible refine only_ite (fun _ => ?_) (fun _ => ?_))
    | (with_reducible refine only_foldl ?_ (fun _ _ => ?_))
    | decide
    | (dsimp only)
    | split)

theorem State.profDone_only {a1 : _} (h : Only m s t) (hm : 8454144 &&& m = 8454144) :
    Only m s (t.profDone a1) := by
  refine h.trans (Only.mono (m := 8454144) ?_ hm)
  unfold State.profDone
  repeat' (first
    | (with_reducible exact Only.refl _ _)
    | (with_reducible refine State.setAcc_only ?_ ?_)
    | (with_reducible refine State.raise_only ?_ ?_)
    | (with_reducible refine only_ite (fun _ => ?_) (fun _ => ?_))
    | (with_reducible refine only_foldl ?_ (fun _ _ => ?_))
    | decide
    | (dsimp only)
    | split)

theorem State.profGate_only {a1 : _} {a2 : _} {a3 : _} (h : Only m s t) (hm : 10551296 &&& m = 10551296) :
    Only m s (t.profGate a1 a2 a3) := by
  refine h.trans (Only.mono (m := 10551296) ?_ hm)
  unfold State.profGate
  repeat' (first
    | (with_reducible exact Only.refl _ _)
    | (with_reducible refine State.setProf_only ?_ ?_)
    | (with_reducible refine State.profDone_only ?_ ?_)
    | (with_reducible refine State.setAcc_only ?_ ?_)
    | (with_reducible refine State.profRecord_only ?_ ?_)
    | (with_reducible refine only_ite (fun _ => ?_) (fun _ => ?_))
    | (with_reducible refine only_foldl ?_ (fun _ _ => ?_))
    | decide
    | (dsimp only)
    | split)

theorem State.profForce_only (h : Only m s t) (hm : 10551296 &&& m = 10551296) :
    Only m s (t.profForce) := by
  refine h.trans (Only.mono (m := 10551296) ?_ hm)
  unfold State.profForce
  repeat' (first
    | (with_reducible exact Only.refl _ _)
    | (with_reducible refine State.profDone_only ?_ ?_)
    | (with_reducible refine State.setAcc_only ?_ ?_)
    | (with_reducible refine State.profRecord_only ?_ ?_)
    | (with_reducible refine only_ite (fun _ => ?_) (fun _ => ?_))
    | (with_reducible refine only_foldl ?_ (fun _ _ => ?_))
    | decide
    | (dsimp only)
    | split)

theorem State.slotCycle_only {a1 : _} {a2 : _} {a3 : _} {a4 : _} (h : Only m s t) (hm : 8454144 &&& m = 8454144) :
    Only m s (t.slotCycle a1 a2 a3 a4) := by
  refine h.trans (Only.mono (m := 8454144) ?_ hm)
  unfold State.slotCycle
  repeat' (first
    | (with_reducible exact Only.refl _ _)
    | (with_reducible refine State.raiseAt_only ?_ ?_)
    | (with_reducible refine State.setAcc_only ?_ ?_)
    | (with_reducible refine only_ite (fun _ => ?_) (fun _ => ?_))
    | (with_reducible refine only_foldl ?_ (fun _ _ => ?_))
    | decide
    | (dsimp only)
    | split)

theorem State.snapTake_only {a1 : _} {a2 : _} {a3 : _} {a4 : _} (h : Only m s t) (hm : 65536 &&& m = 65536) :
    Only m s (t.snapTake a1 a2 a3 a4) := by
  refine h.trans (Only.mono (m := 65536) ?_ hm)
  unfold State.snapTake
  repeat' (first
    | (with_reducible exact Only.refl _ _)
    | (with_reducible refine State.setAcc_only ?_ ?_)
    | (with_reducible refine only_ite (fun _ => ?_) (fun _ => ?_))
    | (with_reducible refine only_foldl ?_ (fun _ _ => ?_))
    | decide
    | (dsimp only)
    | split)

theorem State.snapGate_only {a1 : _} {a2 : _} {a3 : _} (h : Only m s t) (hm : 65536 &&& m = 65536) :
    Only m s (t.snapGate a1 a2 a3) := by
  refine h.trans (Only.mono (m := 65536) ?_ hm)
  unfold State.snapGate
  repeat' (first
    | (with_reducible exact Only.refl _ _)
    | (with_reducible refine State.snapTake_only ?_ ?_)
    | (with_reducible refine only_ite (fun _ => ?_) (fun _ => ?_))
    | (with_reducible refine only_foldl ?_ (fun _ _ => ?_))
    | decide
    | (dsimp only)
    | split)

theorem State.unitsAdd_only {a1 : _} {a2 : _} {a3 : _} {a4 : _} (h : Only m s t) (hm : 10551296 &&& m = 10551296) :
    Only m s (t.unitsAdd a1 a2 a3 a4) := by
  refine h.trans (Only.mono (m := 10551296) ?_ hm)
  unfold State.unitsAdd
  repeat' (first
    | (with_reducible exact Only.refl _ _)
    | (with_reducible refine State.pulseAdd_only ?_ ?_)
    | (with_reducible refine State.setProf_only ?_ ?_)
    | (with_reducible refine State.slotCycle_only ?_ ?_)
    | (with_reducible refine State.setDemand_only ?_ ?_)
    | (with_reducible refine only_ite (fun _ => ?_) (fun _ => ?_))
    | (with_reducible refine only_foldl ?_ (fun _ _ => ?_))
    | decide
    | (dsimp only)
    | split)

theorem State.discardAdd_only (h : Only m s t) (hm : 1024 &&& m = 1024) :
    Only m s (t.discardAdd) := by
  refine h.trans (Only.mono (m := 1024) ?_ hm)
  unfold State.discardAdd
  repeat' (first
    | (with_reducible exact Only.refl _ _)
    | (with_reducible refine State.setEng_only ?_ ?_)
    | (with_reducible refine only_ite (fun _ => ?_) (fun _ => ?_))
    | (with_reducible refine only_foldl ?_ (fun _ _ => ?_))
    | decide
    | (dsimp only)
    | split)

theorem State.seqAdd_only {a1 : _} {a2 : _} {a3 : _} {a4 : _} {a5 : _} (h : Only m s t) (hm : 11076608 &&& m = 11076608) :
    Only m s (t.seqAdd a1 a2 a3 a4 a5) := by
  refine h.trans (Only.mono (m := 11076608) ?_ hm)
  unfold State.seqAdd
  repeat' (first
    | (with_reducible exact Only.refl _ _)
    | (with_reducible refine State.unitsAdd_only ?_ ?_)
    | (with_reducible refine State.debit_only ?_ ?_)
    | (with_reducible refine State.setAcc_only ?_ ?_)
    | (with_reducible refine State.discardAdd_only ?_ ?_)
    | (with_reducible refine State.setNvm_only ?_ ?_ ?_)
    | (with_reducible refine only_ite (fun _ => ?_) (fun _ => ?_))
    | (with_reducible refine only_foldl ?_ (fun _ _ => ?_))
    | decide
    | exact ⟨fun w => cellsSet_wf w _ _⟩ | exact ⟨fun w => w, fun _ p => List.mem_append_left _ p, fun _ => Nat.le_refl _⟩ | exact .of rfl rfl rfl | exact .of rfl rfl | exact .of rfl | exact Nat.le_refl _
    | (dsimp only)
    | split)

theorem State.unitsGate_only {a1 : _} {a2 : _} {a3 : _} {a4 : _} {a5 : _} (h : Only m s t) (hm : 10551296 &&& m = 10551296) :
    Only m s (t.unitsGate a1 a2 a3 a4 a5) := by
  refine h.trans (Only.mono (m := 10551296) ?_ hm)
  unfold State.unitsGate
  repeat' (first
    | (with_reducible exact Only.refl _ _)
    | (with_reducible refine State.demandGate_only ?_ ?_)
    | (with_reducible refine State.snapGate_only ?_ ?_)
    | (with_reducible refine State.slotCycle_only ?_ ?_)
    | (with_reducible refine State.profGate_only ?_ ?_)
    | (with_reducible refine only_ite (fun _ => ?_) (fun _ => ?_))
    | (with_reducible refine only_foldl ?_ (fun _ _ => ?_))
    | decide
    | (dsimp only)
    | split)

theorem State.contribute_only {a1 : _} {a2 : _} {a3 : _} {a4 : _} (h : Only m s t) (hm : 262144 &&& m = 262144) :
    Only m s (t.contribute a1 a2 a3 a4) := by
  refine h.trans (Only.mono (m := 262144) ?_ hm)
  unfold State.contribute
  repeat' (first
    | (with_reducible exact Only.refl _ _)
    | (with_reducible refine only_ite (fun _ => ?_) (fun _ => ?_))
    | (with_reducible refine only_foldl ?_ (fun _ _ => ?_))
    | decide
    | (dsimp only)
    | ((with_reducible refine only_set_contrib ?_ (by decide)); first | (with_reducible exact Only.refl _ _) | (with_reducible refine only_ite (fun _ => ?_) (fun _ => ?_)) | (with_reducible refine only_foldl ?_ (fun _ _ => ?_)))
    | split)

theorem State.urgent_only {a1 : _} (h : Only m s t) (hm : 40 &&& m = 40) :
    Only m s (t.urgent a1) := by
  refine h.trans (Only.mono (m := 40) ?_ hm)
  unfold State.urgent
  repeat' (first
    | (with_reducible exact Only.refl _ _)
    | (with_reducible refine State.parallelRestart_only ?_ ?_)
    | (with_reducible refine State.setHk_only ?_ ?_)
    | (with_reducible refine only_ite (fun _ => ?_) (fun _ => ?_))
    | (with_reducible refine only_foldl ?_ (fun _ _ => ?_))
    | decide
    | (dsimp only)
    | split)

theorem State.hkStop_only (h : Only m s t) (hm : 32 &&& m = 32) :
    Only m s (t.hkStop) := by
  refine h.trans (Only.mono (m := 32) ?_ hm)
  unfold State.hkStop
  repeat' (first
    | (with_reducible exact Only.refl _ _)
    | (with_reducible refine State.setHk_only ?_ ?_)
    | (with_reducible refine only_ite (fun _ => ?_) (fun _ => ?_))
    | (with_reducible refine only_foldl ?_ (fun _ _ => ?_))
    | decide
    | (dsimp only)
    | split)

theorem State.hkStart_only (h : Only m s t) (hm : 32 &&& m = 32) :
    Only m s (t.hkStart) := by
  refine h.trans (Only.mono (m := 32) ?_ hm)
  unfold State.hkStart
  repeat' (first
    | (with_reducible exact Only.refl _ _)
    | (with_reducible refine State.setHk_only ?_ ?_)
    | (with_reducible refine only_ite (fun _ => ?_) (fun _ => ?_))
    | (with_reducible refine only_foldl ?_ (fun _ _ => ?_))
    | decide
    | (dsimp only)
    | split)

theorem State.setStep_only {a1 : _} {a2 : _} (h : Only m s t) (hm : 1048576 &&& m = 1048576) :
    Only m s (t.setStep a1 a2) := by
  refine h.trans (Only.mono (m := 1048576) ?_ hm)
  unfold State.setStep
  repeat' (first
    | (with_reducible exact Only.refl _ _)
    | (with_reducible refine State.setCal_only ?_ ?_)
    | (with_reducible refine only_ite (fun _ => ?_) (fun _ => ?_))
    | (with_reducible refine only_foldl ?_ (fun _ _ => ?_))
    | decide
    | (dsimp only)
    | split)

theorem State.stepCheck_only (h : Only m s t) (hm : 1048616 &&& m = 1048616) :
    Only m s (t.stepCheck) := by
  refine h.trans (Only.mono (m := 1048616) ?_ hm)
  unfold State.stepCheck
  repeat' (first
    | (with_reducible exact Only.refl _ _)
    | (with_reducible refine State.setCal_only ?_ ?_)
    | (with_reducible refine State.urgent_only ?_ ?_)
    | (with_reducible refine only_ite (fun _ => ?_) (fun _ => ?_))
    | (with_reducible refine only_foldl ?_ (fun _ _ => ?_))
    | decide
    | (dsimp only)
    | split)

theorem State.abandon_only {a1 : _} {a2 : _} (h : Only m s t) (hm : 9437200 &&& m = 9437200) :
    Only m s (t.abandon a1 a2) := by
  refine h.trans (Only.mono (m := 9437200) ?_ hm)
  unfold State.abandon
  repeat' (first
    | (with_reducible exact Only.refl _ _)
    | (with_reducible refine State.setStep_only ?_ ?_)
    | (with_reducible refine State.raise_only ?_ ?_)
    | (with_reducible refine State.setCal_only ?_ ?_)
    | (with_reducible refine State.requestLoad_only ?_ ?_)
    | (with_reducible refine only_ite (fun _ => ?_) (fun _ => ?_))
    | (with_reducible refine only_foldl ?_ (fun _ _ => ?_))
    | decide
    | (dsimp only)
    | split)

theorem State.abandonAll_only {a1 : _} (h : Only m s t) (hm : 9437200 &&& m = 9437200) :
    Only m s (t.abandonAll a1) := by
  refine h.trans (Only.mono (m := 9437200) ?_ hm)
  unfold State.abandonAll
  repeat' (first
    | (with_reducible exact Only.refl _ _)
    | (with_reducible refine State.abandon_only ?_ ?_)
    | (with_reducible refine only_ite (fun _ => ?_) (fun _ => ?_))
    | (with_reducible refine only_foldl ?_ (fun _ _ => ?_))
    | decide
    | (dsimp only)
    | split)

theorem State.stepStop_only (h : Only m s t) (hm : 1048576 &&& m = 1048576) :
    Only m s (t.stepStop) := by
  refine h.trans (Only.mono (m := 1048576) ?_ hm)
  unfold State.stepStop
  repeat' (first
    | (with_reducible exact Only.refl _ _)
    | (with_reducible refine State.setCal_only ?_ ?_)
    | (with_reducible refine only_ite (fun _ => ?_) (fun _ => ?_))
    | (with_reducible refine only_foldl ?_ (fun _ _ => ?_))
    | decide
    | (dsimp only)
    | split)

theorem State.iterate_only {a1 : _} {a2 : _} (h : Only m s t) (hm : 9437240 &&& m = 9437240) :
    Only m s (t.iterate a1 a2) := by
  refine h.trans (Only.mono (m := 9437240) ?_ hm)
  unfold State.iterate
  repeat' (first
    | (with_reducible exact Only.refl _ _)
    | (with_reducible refine State.setStep_only ?_ ?_)
    | (with_reducible refine State.raise_only ?_ ?_)
    | (with_reducible refine State.abandon_only ?_ ?_)
    | (with_reducible refine State.stepCheck_only ?_ ?_)
    | (with_reducible refine State.requestLoad_only ?_ ?_)
    | (with_reducible refine only_ite (fun _ => ?_) (fun _ => ?_))
    | (with_reducible refine only_foldl ?_ (fun _ _ => ?_))
    | decide
    | (dsimp only)
    | split)

theorem State.calCycle_only {a1 : _} {a2 : _} {a3 : _} {a4 : _} {a5 : _} {a6 : _} (h : Only m s t) (hm : 9437240 &&& m = 9437240) :
    Only m s (t.calCycle a1 a2 a3 a4 a5 a6) := by
  refine h.trans (Only.mono (m := 9437240) ?_ hm)
  unfold State.calCycle
  repeat' (first
    | (with_reducible exact Only.refl _ _)
    | (with_reducible refine State.iterate_only ?_ ?_)
    | (with_reducible refine State.setStep_only ?_ ?_)
    | (with_reducible refine only_ite (fun _ => ?_) (fun _ => ?_))
    | (with_reducible refine only_foldl ?_ (fun _ _ => ?_))
    | decide
    | (dsimp only)
    | split)

theorem State.storePoint_only {a1 : _} {a2 : _} {a3 : _} {a4 : _} (h : Only m s t) (hm : 11534353 &&& m = 11534353) :
    Only m s (t.storePoint a1 a2 a3 a4) := by
  refine h.trans (Only.mono (m := 11534353) ?_ hm)
  unfold State.storePoint
  repeat' (first
    | (with_reducible exact Only.refl _ _)
    | (with_reducible refine State.setCfg_only ?_ ?_)
    | (with_reducible refine State.setStep_only ?_ ?_)
    | (with_reducible refine State.storeRefused_only ?_ ?_)
    | (with_reducible refine State.setCal_only ?_ ?_)
    | (with_reducible refine State.abandon_only ?_ ?_)
    | (with_reducible refine State.requestLoad_only ?_ ?_)
    | (with_reducible refine only_ite (fun _ => ?_) (fun _ => ?_))
    | (with_reducible refine only_foldl ?_ (fun _ _ => ?_))
    | decide
    | (dsimp only)
    | (with_reducible refine State.storePut_only ?_ ?_ ‹_›)
    | split)

theorem State.stepEnd_only {a1 : _} (h : Only m s t) (hm : 11534353 &&& m = 11534353) :
    Only m s (t.stepEnd a1) := by
  refine h.trans (Only.mono (m := 11534353) ?_ hm)
  unfold State.stepEnd
  repeat' (first
    | (with_reducible exact Only.refl _ _)
    | (with_reducible refine State.storePoint_only ?_ ?_)
    | (with_reducible refine State.raise_only ?_ ?_)
    | (with_reducible refine State.stepStop_only ?_ ?_)
    | (with_reducible refine only_ite (fun _ => ?_) (fun _ => ?_))
    | (with_reducible refine only_foldl ?_ (fun _ _ => ?_))
    | decide
    | (dsimp only)
    | split)

theorem State.stepStartTemp_only {a1 : _} (h : Only m s t) (hm : 9437240 &&& m = 9437240) :
    Only m s (t.stepStartTemp a1) := by
  refine h.trans (Only.mono (m := 9437240) ?_ hm)
  unfold State.stepStartTemp
  repeat' (first
    | (with_reducible exact Only.refl _ _)
    | (with_reducible refine State.abandonAll_only ?_ ?_)
    | (with_reducible refine State.setCal_only ?_ ?_)
    | (with_reducible refine State.stepCheck_only ?_ ?_)
    | (with_reducible refine only_ite (fun _ => ?_) (fun _ => ?_))
    | (with_reducible refine only_foldl ?_ (fun _ _ => ?_))
    | decide
    | (dsimp only)
    | split)

theorem State.passStart_only (h : Only m s t) (hm : 1048616 &&& m = 1048616) :
    Only m s (t.passStart) := by
  refine h.trans (Only.mono (m := 1048616) ?_ hm)
  unfold State.passStart
  repeat' (first
    | (with_reducible exact Only.refl _ _)
    | (with_reducible refine State.setCal_only ?_ ?_)
    | (with_reducible refine State.urgent_only ?_ ?_)
    | (with_reducible refine only_ite (fun _ => ?_) (fun _ => ?_))
    | (with_reducible refine only_foldl ?_ (fun _ _ => ?_))
    | decide
    | (dsimp only)
    | split)

theorem State.passCheck_only (h : Only m s t) (hm : 9437224 &&& m = 9437224) :
    Only m s (t.passCheck) := by
  refine h.trans (Only.mono (m := 9437224) ?_ hm)
  unfold State.passCheck
  repeat' (first
    | (with_reducible exact Only.refl _ _)
    | (with_reducible refine State.passStart_only ?_ ?_)
    | (with_reducible refine State.raise_only ?_ ?_)
    | (with_reducible refine State.setCal_only ?_ ?_)
    | (with_reducible refine only_ite (fun _ => ?_) (fun _ => ?_))
    | (with_reducible refine only_foldl ?_ (fun _ _ => ?_))
    | decide
    | (dsimp only)
    | split)

theorem State.calConverted_only {a1 : _} {a2 : _} {a3 : _} (h : Only m s t) (hm : 279969849 &&& m = 279969849) :
    Only m s (t.calConverted a1 a2 a3) := by
  refine h.trans (Only.mono (m := 279969849) ?_ hm)
  unfold State.calConverted
  repeat' (first
    | (with_reducible exact Only.refl _ _)
    | (with_reducible refine State.applyTemp_only ?_ ?_)
    | (with_reducible refine State.stepStartTemp_only ?_ ?_)
    | (with_reducible refine State.setCal_only ?_ ?_)
    | (with_reducible refine State.passCheck_only ?_ ?_)
    | (with_reducible refine State.stepEnd_only ?_ ?_)
    | (with_reducible refine State.setHk_only ?_ ?_)
    | (with_reducible refine only_ite (fun _ => ?_) (fun _ => ?_))
    | (with_reducible refine only_foldl ?_ (fun _ _ => ?_))
    | decide
    | (dsimp only)
    | split)

theorem State.sessionClose_only (h : Only m s t) (hm : 1048616 &&& m = 1048616) :
    Only m s (t.sessionClose) := by
  refine h.trans (Only.mono (m := 1048616) ?_ hm)
  unfold State.sessionClose
  repeat' (first
    | (with_reducible exact Only.refl _ _)
    | (with_reducible refine State.passStart_only ?_ ?_)
    | (with_reducible refine State.setCal_only ?_ ?_)
    | (with_reducible refine State.stepStop_only ?_ ?_)
    | (with_reducible refine only_ite (fun _ => ?_) (fun _ => ?_))
    | (with_reducible refine only_foldl ?_ (fun _ _ => ?_))
    | decide
    | (dsimp only)
    | split)

theorem State.setSlot_only {a1 : _} {a2 : _} (h : Only m s t) (hm : 16384 &&& m = 16384) :
    Only m s (t.setSlot a1 a2) := by
  refine h.trans (Only.mono (m := 16384) ?_ hm)
  unfold State.setSlot
  repeat' (first
    | (with_reducible exact Only.refl _ _)
    | (with_reducible refine only_ite (fun _ => ?_) (fun _ => ?_))
    | (with_reducible refine only_foldl ?_ (fun _ _ => ?_))
    | decide
    | (dsimp only)
    | ((with_reducible refine only_set_capt ?_ (by decide)); first | (with_reducible exact Only.refl _ _) | (with_reducible refine only_ite (fun _ => ?_) (fun _ => ?_)) | (with_reducible refine only_foldl ?_ (fun _ _ => ?_)))
    | split)

theorem State.captTrigger_only {a1 : _} {a2 : _} {a3 : _} (h : Only m s t) (hm : 49152 &&& m = 49152) :
    Only m s (t.captTrigger a1 a2 a3) := by
  refine h.trans (Only.mono (m := 49152) ?_ hm)
  unfold State.captTrigger
  repeat' (first
    | (with_reducible exact Only.refl _ _)
    | (with_reducible refine State.setSlot_only ?_ ?_)
    | (with_reducible refine only_ite (fun _ => ?_) (fun _ => ?_))
    | (with_reducible refine only_foldl ?_ (fun _ _ => ?_))
    | decide
    | (dsimp only)
    | ((with_reducible refine only_set_capt ?_ (by decide)); first | (with_reducible exact Only.refl _ _) | (with_reducible refine State.setSlot_only ?_ ?_) | (with_reducible refine only_ite (fun _ => ?_) (fun _ => ?_)) | (with_reducible refine only_foldl ?_ (fun _ _ => ?_)))
    | ((with_reducible refine only_set_captMissed ?_ (by decide)); first | (with_reducible exact Only.refl _ _) | (with_reducible refine State.setSlot_only ?_ ?_) | (with_reducible refine only_ite (fun _ => ?_) (fun _ => ?_)) | (with_reducible refine only_foldl ?_ (fun _ _ => ?_)))
    | split)

theorem State.captArchive_only {ch : Nat} {r : Bytes} {a b n : Nat} (h : Only m s t) (hm : 2097152 &&& m = 2097152) :
    Only m s (t.captArchive ch r a b n) := by
  induction n generalizing t a with
  | zero => exact h
  | succ n ih => exact only_ite (fun _ => h) (fun _ => ih (State.archive_only h hm))

theorem State.captEnd_only {a1 : _} (h : Only m s t) (hm : 10502144 &&& m = 10502144) :
    Only m s (t.captEnd a1) := by
  refine h.trans (Only.mono (m := 10502144) ?_ hm)
  unfold State.captEnd
  repeat' (first
    | (with_reducible exact Only.refl _ _)
    | (with_reducible refine State.logPut_only ?_ ?_)
    | (with_reducible refine State.setSlot_only ?_ ?_)
    | (with_reducible refine State.raise_only ?_ ?_)
    | (with_reducible refine State.captArchive_only ?_ ?_)
    | (with_reducible refine only_ite (fun _ => ?_) (fun _ => ?_))
    | (with_reducible refine only_foldl ?_ (fun _ _ => ?_))
    | decide
    | (dsimp only)
    | split)

theorem State.captBlock_only {a1 : _} {a2 : _} {a3 : _} {a4 : _} (h : Only m s t) (hm : 44056576 &&& m = 44056576) :
    Only m s (t.captBlock a1 a2 a3 a4) := by
  refine h.trans (Only.mono (m := 44056576) ?_ hm)
  unfold State.captBlock
  repeat' (first
    | (with_reducible refine only_ite (fun _ => ?_) (fun _ => ?_))
    | (lift_lets; intro x; (with_reducible refine Only.trans (b := x) ?_ ?_); rotate_left; (clear_value x); rotate_left; (dsimp only [x]))
    | (lift_lets; intro x; clear_value x)
    | (with_reducible exact Only.refl _ _)
    | (with_reducible refine State.setSlot_only ?_ ?_)
    | (with_reducible refine State.setMem_only ?_ ?_ ?_)
    | (with_reducible refine State.captEnd_only ?_ ?_)
    | (with_reducible refine only_foldl ?_ (fun _ _ => ?_))
    | decide
    | exact ⟨fun w => cellsSet_wf w _ _⟩ | exact ⟨fun w => w, fun _ p => List.mem_append_left _ p, fun _ => Nat.le_refl _⟩ | exact .of rfl rfl rfl | exact .of rfl rfl | exact .of rfl | exact Nat.le_refl _
    | (dsimp only)
    | ((with_reducible refine only_set_capt ?_ (by decide)); first | (with_reducible exact Only.refl _ _) | (with_reducible refine State.setSlot_only ?_ ?_) | (with_reducible refine State.setMem_only ?_ ?_ ?_) | (with_reducible refine State.captEnd_only ?_ ?_) | (with_reducible refine only_ite (fun _ => ?_) (fun _ => ?_)) | (with_reducible refine only_foldl ?_ (fun _ _ => ?_)))
    | ((with_reducible refine only_set_nvm ?_ ?_ (by decide)); rotate_left; (first | exact ⟨fun w => cellsSet_wf w _ _⟩ | exact ⟨fun w => w, fun _ p => List.mem_append_left _ p, fun _ => Nat.le_refl _⟩ | exact .of rfl rfl rfl | exact .of rfl rfl | exact .of rfl | exact Nat.le_refl _); first | (with_reducible exact Only.refl _ _) | (with_reducible refine State.setSlot_only ?_ ?_) | (with_reducible refine State.setMem_only ?_ ?_ ?_) | (with_reducible refine State.captEnd_only ?_ ?_) | (with_reducible refine only_ite (fun _ => ?_) (fun _ => ?_)) | (with_reducible refine only_foldl ?_ (fun _ _ => ?_)))
    | ((with_reducible refine only_set_evt ?_ (by decide)); first | (with_reducible exact Only.refl _ _) | (with_reducible refine State.setSlot_only ?_ ?_) | (with_reducible refine State.setMem_only ?_ ?_ ?_) | (with_reducible refine State.captEnd_only ?_ ?_) | (with_reducible refine only_ite (fun _ => ?_) (fun _ => ?_)) | (with_reducible refine only_foldl ?_ (fun _ _ => ?_)))
    | ((with_reducible refine only_set_mem ?_ ?_ (by decide)); rotate_left; (first | exact ⟨fun w => cellsSet_wf w _ _⟩ | exact ⟨fun w => w, fun _ p => List.mem_append_left _ p, fun _ => Nat.le_refl _⟩ | exact .of rfl rfl rfl | exact .of rfl rfl | exact .of rfl | exact Nat.le_refl _); first | (with_reducible exact Only.refl _ _) | (with_reducible refine State.setSlot_only ?_ ?_) | (with_reducible refine State.setMem_only ?_ ?_ ?_) | (with_reducible refine State.captEnd_only ?_ ?_) | (with_reducible refine only_ite (fun _ => ?_) (fun _ => ?_)) | (with_reducible refine only_foldl ?_ (fun _ _ => ?_)))
    | split
    | (constructor <;> first | rfl | exact .of rfl rfl rfl | exact .of rfl rfl | exact .of rfl | exact Nat.le_refl _ | (intro hb; first | rfl | exact absurd hb (by decide))))

theorem State.captPublish_only {a1 : _} {a2 : _} {a3 : _} {a4 : _} {a5 : _} (h : Only m s t) (hm : 44056576 &&& m = 44056576) :
    Only m s (t.captPublish a1 a2 a3 a4 a5) := by
  refine h.trans (Only.mono (m := 44056576) ?_ hm)
  unfold State.captPublish
  repeat' (first
    | (with_reducible exact Only.refl _ _)
    | (with_reducible refine State.logPut_only ?_ ?_)
    | (with_reducible refine State.captBlock_only ?_ ?_)
    | (with_reducible refine only_ite (fun _ => ?_) (fun _ => ?_))
    | (with_reducible refine only_foldl ?_ (fun _ _ => ?_))
    | decide
    | (dsimp only)
    | split)

theorem State.captStop_only (h : Only m s t) (hm : 16384 &&& m = 16384) :
    Only m s (t.captStop) := by
  refine h.trans (Only.mono (m := 16384) ?_ hm)
  unfold State.captStop
  repeat' (first
    | (with_reducible exact Only.refl _ _)
    | (with_reducible refine State.setSlot_only ?_ ?_)
    | (with_reducible refine only_ite (fun _ => ?_) (fun _ => ?_))
    | (with_reducible refine only_foldl ?_ (fun _ _ => ?_))
    | decide
    | (dsimp only)
    | split)

theorem State.captFree_only {a1 : _} (h : Only m s t) (hm : 16384 &&& m = 16384) :
    Only m s (t.captFree a1) := by
  refine h.trans (Only.mono (m := 16384) ?_ hm)
  unfold State.captFree
  repeat' (first
    | (with_reducible exact Only.refl _ _)
    | (with_reducible refine State.setSlot_only ?_ ?_)
    | (with_reducible refine only_ite (fun _ => ?_) (fun _ => ?_))
    | (with_reducible refine only_foldl ?_ (fun _ _ => ?_))
    | decide
    | (dsimp only)
    | split)

theorem State.captFreeAll_only (h : Only m s t) (hm : 16384 &&& m = 16384) :
    Only m s (t.captFreeAll) := by
  refine h.trans (Only.mono (m := 16384) ?_ hm)
  unfold State.captFreeAll
  repeat' (first
    | (with_reducible exact Only.refl _ _)
    | (with_reducible refine State.captFree_only ?_ ?_)
    | (with_reducible refine only_ite (fun _ => ?_) (fun _ => ?_))
    | (with_reducible refine only_foldl ?_ (fun _ _ => ?_))
    | decide
    | (dsimp only)
    | split)

theorem State.setTamper_only {a1 : _} (h : Only m s t) (hm : 67108864 &&& m = 67108864) :
    Only m s (t.setTamper a1) := by
  refine h.trans (Only.mono (m := 67108864) ?_ hm)
  unfold State.setTamper
  repeat' (first
    | (with_reducible exact Only.refl _ _)
    | (with_reducible refine only_ite (fun _ => ?_) (fun _ => ?_))
    | (with_reducible refine only_foldl ?_ (fun _ _ => ?_))
    | decide
    | (dsimp only)
    | ((with_reducible refine only_set_tamper ?_ (by decide)); first | (with_reducible exact Only.refl _ _) | (with_reducible refine only_ite (fun _ => ?_) (fun _ => ?_)) | (with_reducible refine only_foldl ?_ (fun _ _ => ?_)))
    | split)

theorem State.wipe_only (h : Only m s t) (hm : 34078720 &&& m = 34078720) :
    Only m s (t.wipe) := by
  refine h.trans (Only.mono (m := 34078720) ?_ hm)
  unfold State.wipe
  repeat' (first
    | (lift_lets; intro x; (with_reducible refine Only.trans (b := x) ?_ ?_); rotate_left; (clear_value x); rotate_left; (dsimp only [x]))
    | (lift_lets; intro x; clear_value x)
    | (with_reducible exact Only.refl _ _)
    | (with_reducible refine only_ite (fun _ => ?_) (fun _ => ?_))
    | (with_reducible refine only_foldl ?_ (fun _ _ => ?_))
    | decide
    | exact ⟨fun w => cellsSet_wf w _ _⟩ | exact ⟨fun w => w, fun _ p => List.mem_append_left _ p, fun _ => Nat.le_refl _⟩ | exact .of rfl rfl rfl | exact .of rfl rfl | exact .of rfl | exact Nat.le_refl _
    | (dsimp only)
    | ((with_reducible refine only_set_pp ?_ (by decide)); first | (with_reducible exact Only.refl _ _) | (with_reducible refine only_ite (fun _ => ?_) (fun _ => ?_)) | (with_reducible refine only_foldl ?_ (fun _ _ => ?_)))
    | ((with_reducible refine only_set_mem ?_ ?_ (by decide)); rotate_left; (first | exact ⟨fun w => cellsSet_wf w _ _⟩ | exact ⟨fun w => w, fun _ p => List.mem_append_left _ p, fun _ => Nat.le_refl _⟩ | exact .of rfl rfl rfl | exact .of rfl rfl | exact .of rfl | exact Nat.le_refl _); first | (with_reducible exact Only.refl _ _) | (with_reducible refine only_ite (fun _ => ?_) (fun _ => ?_)) | (with_reducible refine only_foldl ?_ (fun _ _ => ?_)))
    | split
    | (constructor <;> first | rfl | exact .of rfl rfl rfl | exact .of rfl rfl | exact .of rfl | exact Nat.le_refl _ | (intro hb; first | rfl | exact absurd hb (by decide))))

theorem State.zeroize_only (h : Only m s t) (hm : 101187584 &&& m = 101187584) :
    Only m s (t.zeroize) := by
  refine h.trans (Only.mono (m := 101187584) ?_ hm)
  unfold State.zeroize
  repeat' (first
    | (with_reducible exact Only.refl _ _)
    | (with_reducible refine State.wipe_only ?_ ?_)
    | (with_reducible refine State.setTamper_only ?_ ?_)
    | (with_reducible refine only_ite (fun _ => ?_) (fun _ => ?_))
    | (with_reducible refine only_foldl ?_ (fun _ _ => ?_))
    | decide
    | (dsimp only)
    | split)

theorem State.pushEntry_only {a1 : _} (h : Only m s t) (hm : 67108864 &&& m = 67108864) :
    Only m s (t.pushEntry a1) := by
  refine h.trans (Only.mono (m := 67108864) ?_ hm)
  unfold State.pushEntry
  repeat' (first
    | (with_reducible exact Only.refl _ _)
    | (with_reducible refine State.setTamper_only ?_ ?_)
    | (with_reducible refine only_ite (fun _ => ?_) (fun _ => ?_))
    | (with_reducible refine only_foldl ?_ (fun _ _ => ?_))
    | decide
    | (dsimp only)
    | split)

theorem State.respond_only {a1 : _} {a2 : _} {a3 : _} {a4 : _} {a5 : _} {a6 : _} (h : Only m s t) (hm : 378011648 &&& m = 378011648) :
    Only m s (t.respond a1 a2 a3 a4 a5 a6) := by
  refine h.trans (Only.mono (m := 378011648) ?_ hm)
  unfold State.respond
  repeat' (first
    | (with_reducible exact Only.refl _ _)
    | (with_reducible refine State.tamperDisc_only ?_ ?_)
    | (with_reducible refine State.pushEntry_only ?_ ?_)
    | (with_reducible refine State.raise_only ?_ ?_)
    | (with_reducible refine State.zeroize_only ?_ ?_)
    | (with_reducible refine State.setTamper_only ?_ ?_)
    | (with_reducible refine State.selvTarget_only ?_ ?_)
    | (with_reducible refine only_ite (fun _ => ?_) (fun _ => ?_))
    | (with_reducible refine only_foldl ?_ (fun _ _ => ?_))
    | decide
    | (dsimp only)
    | split)

theorem State.detect_only {a1 : _} {a2 : _} {a3 : _} {a4 : _} {a5 : _} (h : Only m s t) (hm : 378011648 &&& m = 378011648) :
    Only m s (t.detect a1 a2 a3 a4 a5) := by
  refine h.trans (Only.mono (m := 378011648) ?_ hm)
  unfold State.detect
  repeat' (first
    | (with_reducible exact Only.refl _ _)
    | (with_reducible refine State.respond_only ?_ ?_)
    | (with_reducible refine only_ite (fun _ => ?_) (fun _ => ?_))
    | (with_reducible refine only_foldl ?_ (fun _ _ => ?_))
    | decide
    | (dsimp only)
    | split)

theorem State.balanceDetection_only {a1 : _} {a2 : _} {a3 : _} (h : Only m s t) (hm : 378011648 &&& m = 378011648) :
    Only m s (t.balanceDetection a1 a2 a3) := by
  refine h.trans (Only.mono (m := 378011648) ?_ hm)
  unfold State.balanceDetection
  repeat' (first
    | (with_reducible exact Only.refl _ _)
    | (with_reducible refine State.detect_only ?_ ?_)
    | (with_reducible refine State.setTamper_only ?_ ?_)
    | (with_reducible refine only_ite (fun _ => ?_) (fun _ => ?_))
    | (with_reducible refine only_foldl ?_ (fun _ _ => ?_))
    | decide
    | (dsimp only)
    | split)

theorem State.plausDetection_only {a1 : _} {a2 : _} {a3 : _} (h : Only m s t) (hm : 378011648 &&& m = 378011648) :
    Only m s (t.plausDetection a1 a2 a3) := by
  refine h.trans (Only.mono (m := 378011648) ?_ hm)
  unfold State.plausDetection
  repeat' (first
    | (with_reducible exact Only.refl _ _)
    | (with_reducible refine State.detect_only ?_ ?_)
    | (with_reducible refine only_ite (fun _ => ?_) (fun _ => ?_))
    | (with_reducible refine only_foldl ?_ (fun _ _ => ?_))
    | decide
    | (dsimp only)
    | split)

theorem State.tempInside_only {a1 : _} (h : Only m s t) (hm : 67108864 &&& m = 67108864) :
    Only m s (t.tempInside a1) := by
  refine h.trans (Only.mono (m := 67108864) ?_ hm)
  unfold State.tempInside
  repeat' (first
    | (with_reducible exact Only.refl _ _)
    | (with_reducible refine State.setTamper_only ?_ ?_)
    | (with_reducible refine only_ite (fun _ => ?_) (fun _ => ?_))
    | (with_reducible refine only_foldl ?_ (fun _ _ => ?_))
    | decide
    | (dsimp only)
    | split)

theorem State.tempDetect_only {a1 : _} {a2 : _} (h : Only m s t) (hm : 378011648 &&& m = 378011648) :
    Only m s (t.tempDetect a1 a2) := by
  refine h.trans (Only.mono (m := 378011648) ?_ hm)
  unfold State.tempDetect
  repeat' (first
    | (with_reducible exact Only.refl _ _)
    | (with_reducible refine State.detect_only ?_ ?_)
    | (with_reducible refine State.setTamper_only ?_ ?_)
    | (with_reducible refine only_ite (fun _ => ?_) (fun _ => ?_))
    | (with_reducible refine only_foldl ?_ (fun _ _ => ?_))
    | decide
    | (dsimp only)
    | split)

theorem State.tempVerified_only {a1 : _} {a2 : _} (h : Only m s t) (hm : 378011648 &&& m = 378011648) :
    Only m s (t.tempVerified a1 a2) := by
  refine h.trans (Only.mono (m := 378011648) ?_ hm)
  unfold State.tempVerified
  repeat' (first
    | (with_reducible exact Only.refl _ _)
    | (with_reducible refine State.tempDetect_only ?_ ?_)
    | (with_reducible refine State.respond_only ?_ ?_)
    | (with_reducible refine only_ite (fun _ => ?_) (fun _ => ?_))
    | (with_reducible refine only_foldl ?_ (fun _ _ => ?_))
    | decide
    | (dsimp only)
    | split)

theorem State.pqRecord_only {a1 : _} {a2 : _} {a3 : _} {a4 : _} {a5 : _} (h : Only m s t) (hm : 10493952 &&& m = 10493952) :
    Only m s (t.pqRecord a1 a2 a3 a4 a5) := by
  refine h.trans (Only.mono (m := 10493952) ?_ hm)
  unfold State.pqRecord
  repeat' (first
    | (with_reducible exact Only.refl _ _)
    | (with_reducible refine State.setPq_only ?_ ?_)
    | (with_reducible refine State.logBoth_only ?_ ?_)
    | (with_reducible refine only_ite (fun _ => ?_) (fun _ => ?_))
    | (with_reducible refine only_foldl ?_ (fun _ _ => ?_))
    | decide
    | (dsimp only)
    | split)

theorem State.pqClose_only {a1 : _} {a2 : _} {a3 : _} {a4 : _} {a5 : _} (h : Only m s t) (hm : 10493952 &&& m = 10493952) :
    Only m s (t.pqClose a1 a2 a3 a4 a5) := by
  refine h.trans (Only.mono (m := 10493952) ?_ hm)
  unfold State.pqClose
  repeat' (first
    | (with_reducible exact Only.refl _ _)
    | (with_reducible refine State.pqRecord_only ?_ ?_)
    | (with_reducible refine State.setPq_only ?_ ?_)
    | (with_reducible refine only_ite (fun _ => ?_) (fun _ => ?_))
    | (with_reducible refine only_foldl ?_ (fun _ _ => ?_))
    | decide
    | (dsimp only)
    | split)

theorem State.pqTrigger_only {a1 : _} {a2 : _} (h : Only m s t) (hm : 49152 &&& m = 49152) :
    Only m s (t.pqTrigger a1 a2) := by
  refine h.trans (Only.mono (m := 49152) ?_ hm)
  unfold State.pqTrigger
  repeat' (first
    | (with_reducible exact Only.refl _ _)
    | (with_reducible refine State.captTrigger_only ?_ ?_)
    | (with_reducible refine only_ite (fun _ => ?_) (fun _ => ?_))
    | (with_reducible refine only_foldl ?_ (fun _ _ => ?_))
    | decide
    | (dsimp only)
    | split)

theorem State.pqInterrupt_only {a1 : _} {a2 : _} {a3 : _} {a4 : _} {a5 : _} (h : Only m s t) (hm : 10543104 &&& m = 10543104) :
    Only m s (t.pqInterrupt a1 a2 a3 a4 a5) := by
  refine h.trans (Only.mono (m := 10543104) ?_ hm)
  unfold State.pqInterrupt
  repeat' (first
    | (with_reducible exact Only.refl _ _)
    | (with_reducible refine State.pqTrigger_only ?_ ?_)
    | (with_reducible refine State.setPq_only ?_ ?_)
    | (with_reducible refine State.pqClose_only ?_ ?_)
    | (with_reducible refine only_ite (fun _ => ?_) (fun _ => ?_))
    | (with_reducible refine only_foldl ?_ (fun _ _ => ?_))
    | decide
    | (dsimp only)
    | split)

theorem State.pqDip_only {a1 : _} {a2 : _} {a3 : _} {a4 : _} {a5 : _} (h : Only m s t) (hm : 10543104 &&& m = 10543104) :
    Only m s (t.pqDip a1 a2 a3 a4 a5) := by
  refine h.trans (Only.mono (m := 10543104) ?_ hm)
  unfold State.pqDip
  repeat' (first
    | (with_reducible exact Only.refl _ _)
    | (with_reducible refine State.pqTrigger_only ?_ ?_)
    | (with_reducible refine State.setPq_only ?_ ?_)
    | (with_reducible refine State.pqClose_only ?_ ?_)
    | (with_reducible refine only_ite (fun _ => ?_) (fun _ => ?_))
    | (with_reducible refine only_foldl ?_ (fun _ _ => ?_))
    | decide
    | (dsimp only)
    | split)

theorem State.pqSwell_only {a1 : _} {a2 : _} {a3 : _} {a4 : _} {a5 : _} (h : Only m s t) (hm : 10543104 &&& m = 10543104) :
    Only m s (t.pqSwell a1 a2 a3 a4 a5) := by
  refine h.trans (Only.mono (m := 10543104) ?_ hm)
  unfold State.pqSwell
  repeat' (first
    | (with_reducible exact Only.refl _ _)
    | (with_reducible refine State.pqTrigger_only ?_ ?_)
    | (with_reducible refine State.setPq_only ?_ ?_)
    | (with_reducible refine State.pqClose_only ?_ ?_)
    | (with_reducible refine only_ite (fun _ => ?_) (fun _ => ?_))
    | (with_reducible refine only_foldl ?_ (fun _ _ => ?_))
    | decide
    | (dsimp only)
    | split)

theorem State.pqWindow_only {a1 : _} {a2 : _} {a3 : _} {a4 : _} {a5 : _} (h : Only m s t) (hm : 10543104 &&& m = 10543104) :
    Only m s (t.pqWindow a1 a2 a3 a4 a5) := by
  refine h.trans (Only.mono (m := 10543104) ?_ hm)
  unfold State.pqWindow
  repeat' (first
    | (with_reducible exact Only.refl _ _)
    | (with_reducible refine State.pqSwell_only ?_ ?_)
    | (with_reducible refine State.pqDip_only ?_ ?_)
    | (with_reducible refine State.pqInterrupt_only ?_ ?_)
    | (with_reducible refine only_ite (fun _ => ?_) (fun _ => ?_))
    | (with_reducible refine only_foldl ?_ (fun _ _ => ?_))
    | decide
    | (dsimp only)
    | split)

theorem State.pqOutage_only {a1 : _} {a2 : _} {a3 : _} (h : Only m s t) (hm : 10493952 &&& m = 10493952) :
    Only m s (t.pqOutage a1 a2 a3) := by
  refine h.trans (Only.mono (m := 10493952) ?_ hm)
  unfold State.pqOutage
  repeat' (first
    | (with_reducible exact Only.refl _ _)
    | (with_reducible refine State.pqRecord_only ?_ ?_)
    | (with_reducible refine State.setPq_only ?_ ?_)
    | (with_reducible refine only_ite (fun _ => ?_) (fun _ => ?_))
    | (with_reducible refine only_foldl ?_ (fun _ _ => ?_))
    | decide
    | (dsimp only)
    | split)

theorem State.pqTruncate_only {a1 : _} (h : Only m s t) (hm : 10493952 &&& m = 10493952) :
    Only m s (t.pqTruncate a1) := by
  refine h.trans (Only.mono (m := 10493952) ?_ hm)
  unfold State.pqTruncate
  repeat' (first
    | (with_reducible exact Only.refl _ _)
    | (with_reducible refine State.setPq_only ?_ ?_)
    | (with_reducible refine State.pqClose_only ?_ ?_)
    | (with_reducible refine only_ite (fun _ => ?_) (fun _ => ?_))
    | (with_reducible refine only_foldl ?_ (fun _ _ => ?_))
    | decide
    | (dsimp only)
    | split)

theorem State.pqSequence_only {a1 : _} {a2 : _} {a3 : _} (h : Only m s t) (hm : 8396800 &&& m = 8396800) :
    Only m s (t.pqSequence a1 a2 a3) := by
  refine h.trans (Only.mono (m := 8396800) ?_ hm)
  unfold State.pqSequence
  repeat' (first
    | (with_reducible exact Only.refl _ _)
    | (with_reducible refine State.setPq_only ?_ ?_)
    | (with_reducible refine State.raise_only ?_ ?_)
    | (with_reducible refine only_ite (fun _ => ?_) (fun _ => ?_))
    | (with_reducible refine only_foldl ?_ (fun _ _ => ?_))
    | decide
    | (dsimp only)
    | split)

theorem State.pqNeutral_only {a1 : _} {a2 : _} {a3 : _} (h : Only m s t) (hm : 8396800 &&& m = 8396800) :
    Only m s (t.pqNeutral a1 a2 a3) := by
  refine h.trans (Only.mono (m := 8396800) ?_ hm)
  unfold State.pqNeutral
  repeat' (first
    | (with_reducible exact Only.refl _ _)
    | (with_reducible refine State.setPq_only ?_ ?_)
    | (with_reducible refine State.raise_only ?_ ?_)
    | (with_reducible refine only_ite (fun _ => ?_) (fun _ => ?_))
    | (with_reducible refine only_foldl ?_ (fun _ _ => ?_))
    | decide
    | (dsimp only)
    | split)

theorem State.pqUnbalance_only {a1 : _} {a2 : _} {a3 : _} (h : Only m s t) (hm : 8192 &&& m = 8192) :
    Only m s (t.pqUnbalance a1 a2 a3) := by
  refine h.trans (Only.mono (m := 8192) ?_ hm)
  unfold State.pqUnbalance
  repeat' (first
    | (with_reducible exact Only.refl _ _)
    | (with_reducible refine State.setPq_only ?_ ?_)
    | (with_reducible refine only_ite (fun _ => ?_) (fun _ => ?_))
    | (with_reducible refine only_foldl ?_ (fun _ _ => ?_))
    | decide
    | (dsimp only)
    | split)

theorem State.pqCycle_only {a1 : _} {a2 : _} {a3 : _} {a4 : _} {a5 : _} (h : Only m s t) (hm : 10543104 &&& m = 10543104) :
    Only m s (t.pqCycle a1 a2 a3 a4 a5) := by
  refine h.trans (Only.mono (m := 10543104) ?_ hm)
  unfold State.pqCycle
  repeat' (first
    | (with_reducible exact Only.refl _ _)
    | (with_reducible refine State.pqWindow_only ?_ ?_)
    | (with_reducible refine State.pqSequence_only ?_ ?_)
    | (with_reducible refine State.setPq_only ?_ ?_)
    | (with_reducible refine State.pqUnbalance_only ?_ ?_)
    | (with_reducible refine State.pqNeutral_only ?_ ?_)
    | (with_reducible refine only_ite (fun _ => ?_) (fun _ => ?_))
    | (with_reducible refine only_foldl ?_ (fun _ _ => ?_))
    | decide
    | (dsimp only)
    | split)

theorem State.plausCheck_only {a1 : _} {a2 : _} {a3 : _} {a4 : _} {a5 : _} (h : Only m s t) (hm : 378013696 &&& m = 378013696) :
    Only m s (t.plausCheck a1 a2 a3 a4 a5) := by
  refine h.trans (Only.mono (m := 378013696) ?_ hm)
  unfold State.plausCheck
  repeat' (first
    | (with_reducible exact Only.refl _ _)
    | (with_reducible refine State.plausDetection_only ?_ ?_)
    | (with_reducible refine State.raise_only ?_ ?_)
    | (with_reducible refine State.setAcct_only ?_ ?_)
    | (with_reducible refine only_ite (fun _ => ?_) (fun _ => ?_))
    | (with_reducible refine only_foldl ?_ (fun _ _ => ?_))
    | decide
    | (dsimp only)
    | split)

theorem State.plausCycle_only {a1 : _} {a2 : _} {a3 : _} {a4 : _} (h : Only m s t) (hm : 378013696 &&& m = 378013696) :
    Only m s (t.plausCycle a1 a2 a3 a4) := by
  refine h.trans (Only.mono (m := 378013696) ?_ hm)
  unfold State.plausCycle
  repeat' (first
    | (with_reducible exact Only.refl _ _)
    | (with_reducible refine State.plausCheck_only ?_ ?_)
    | (with_reducible refine only_ite (fun _ => ?_) (fun _ => ?_))
    | (with_reducible refine only_foldl ?_ (fun _ _ => ?_))
    | decide
    | (dsimp only)
    | split)

theorem State.specRecord_only {a1 : _} {a2 : _} {a3 : _} {a4 : _} {a5 : _} {a6 : _} {a7 : _} (h : Only m s t) (hm : 10498048 &&& m = 10498048) :
    Only m s (t.specRecord a1 a2 a3 a4 a5 a6 a7) := by
  refine h.trans (Only.mono (m := 10498048) ?_ hm)
  unfold State.specRecord
  repeat' (first
    | (with_reducible exact Only.refl _ _)
    | (with_reducible refine State.logPut_only ?_ ?_)
    | (with_reducible refine State.setPq_only ?_ ?_)
    | (with_reducible refine State.raise_only ?_ ?_)
    | (with_reducible refine State.archive_only ?_ ?_)
    | (with_reducible refine only_ite (fun _ => ?_) (fun _ => ?_))
    | (with_reducible refine only_foldl ?_ (fun _ _ => ?_))
    | decide
    | (dsimp only)
    | ((with_reducible refine only_set_chres ?_ (by decide)); first | (with_reducible exact Only.refl _ _) | (with_reducible refine State.logPut_only ?_ ?_) | (with_reducible refine State.setPq_only ?_ ?_) | (with_reducible refine State.raise_only ?_ ?_) | (with_reducible refine State.archive_only ?_ ?_) | (with_reducible refine only_ite (fun _ => ?_) (fun _ => ?_)) | (with_reducible refine only_foldl ?_ (fun _ _ => ?_)))
    | ((with_reducible refine only_set_pq ?_ (by decide)); first | (with_reducible exact Only.refl _ _) | (with_reducible refine State.logPut_only ?_ ?_) | (with_reducible refine State.setPq_only ?_ ?_) | (with_reducible refine State.raise_only ?_ ?_) | (with_reducible refine State.archive_only ?_ ?_) | (with_reducible refine only_ite (fun _ => ?_) (fun _ => ?_)) | (with_reducible refine only_foldl ?_ (fun _ _ => ?_)))
    | ((with_reducible refine only_set_nvm ?_ ?_ (by decide)); rotate_left; (first | exact ⟨fun w => cellsSet_wf w _ _⟩ | exact ⟨fun w => w, fun _ p => List.mem_append_left _ p, fun _ => Nat.le_refl _⟩ | exact .of rfl rfl rfl | exact .of rfl rfl | exact .of rfl | exact Nat.le_refl _); first | (with_reducible exact Only.refl _ _) | (with_reducible refine State.logPut_only ?_ ?_) | (with_reducible refine State.setPq_only ?_ ?_) | (with_reducible refine State.raise_only ?_ ?_) | (with_reducible refine State.archive_only ?_ ?_) | (with_reducible refine only_ite (fun _ => ?_) (fun _ => ?_)) | (with_reducible refine only_foldl ?_ (fun _ _ => ?_)))
    | ((with_reducible refine only_set_evt ?_ (by decide)); first | (with_reducible exact Only.refl _ _) | (with_reducible refine State.logPut_only ?_ ?_) | (with_reducible refine State.setPq_only ?_ ?_) | (with_reducible refine State.raise_only ?_ ?_) | (with_reducible refine State.archive_only ?_ ?_) | (with_reducible refine only_ite (fun _ => ?_) (fun _ => ?_)) | (with_reducible refine only_foldl ?_ (fun _ _ => ?_)))
    | split)

theorem State.specPush_only {a1 : _} {a2 : _} {a3 : _} {a4 : _} {a5 : _} {a6 : _} {a7 : _} {a8 : _} {a9 : _} (h : Only m s t) (hm : 10498048 &&& m = 10498048) :
    Only m s (t.specPush a1 a2 a3 a4 a5 a6 a7 a8 a9) := by
  refine h.trans (Only.mono (m := 10498048) ?_ hm)
  unfold State.specPush
  repeat' (first
    | (with_reducible exact Only.refl _ _)
    | (with_reducible refine State.specRecord_only ?_ ?_)
    | (with_reducible refine only_ite (fun _ => ?_) (fun _ => ?_))
    | (with_reducible refine only_foldl ?_ (fun _ _ => ?_))
    | decide
    | (dsimp only)
    | ((with_reducible refine only_set_chres ?_ (by decide)); first | (with_reducible exact Only.refl _ _) | (with_reducible refine State.specRecord_only ?_ ?_) | (with_reducible refine only_ite (fun _ => ?_) (fun _ => ?_)) | (with_reducible refine only_foldl ?_ (fun _ _ => ?_)))
    | ((with_reducible refine only_set_pq ?_ (by decide)); first | (with_reducible exact Only.refl _ _) | (with_reducible refine State.specRecord_only ?_ ?_) | (with_reducible refine only_ite (fun _ => ?_) (fun _ => ?_)) | (with_reducible refine only_foldl ?_ (fun _ _ => ?_)))
    | ((with_reducible refine only_set_nvm ?_ ?_ (by decide)); rotate_left; (first | exact ⟨fun w => cellsSet_wf w _ _⟩ | exact ⟨fun w => w, fun _ p => List.mem_append_left _ p, fun _ => Nat.le_refl _⟩ | exact .of rfl rfl rfl | exact .of rfl rfl | exact .of rfl | exact Nat.le_refl _); first | (with_reducible exact Only.refl _ _) | (with_reducible refine State.specRecord_only ?_ ?_) | (with_reducible refine only_ite (fun _ => ?_) (fun _ => ?_)) | (with_reducible refine only_foldl ?_ (fun _ _ => ?_)))
    | ((with_reducible refine only_set_evt ?_ (by decide)); first | (with_reducible exact Only.refl _ _) | (with_reducible refine State.specRecord_only ?_ ?_) | (with_reducible refine only_ite (fun _ => ?_) (fun _ => ?_)) | (with_reducible refine only_foldl ?_ (fun _ _ => ?_)))
    | split)

theorem State.specWindow_only {a1 : _} {a2 : _} {a3 : _} {a4 : _} {a5 : _} {a6 : _} {a7 : _} {a8 : _} (h : Only m s t) (hm : 10498048 &&& m = 10498048) :
    Only m s (t.specWindow a1 a2 a3 a4 a5 a6 a7 a8) := by
  refine h.trans (Only.mono (m := 10498048) ?_ hm)
  unfold State.specWindow
  repeat' (first
    | (with_reducible exact Only.refl _ _)
    | (with_reducible refine State.specPush_only ?_ ?_)
    | (with_reducible refine only_ite (fun _ => ?_) (fun _ => ?_))
    | (with_reducible refine only_foldl ?_ (fun _ _ => ?_))
    | decide
    | (dsimp only)
    | split)

theorem State.aggForce_only (h : Only m s t) (hm : 10500096 &&& m = 10500096) :
    Only m s (t.aggForce) := by
  refine h.trans (Only.mono (m := 10500096) ?_ hm)
  unfold State.aggForce
  repeat' (first
    | (with_reducible exact Only.refl _ _)
    | (with_reducible refine State.setAcct_only ?_ ?_)
    | (with_reducible refine State.specRecord_only ?_ ?_)
    | (with_reducible refine only_ite (fun _ => ?_) (fun _ => ?_))
    | (with_reducible refine only_foldl ?_ (fun _ _ => ?_))
    | decide
    | (dsimp only)
    | ((with_reducible refine only_set_accts ?_ (by decide)); first | (with_reducible exact Only.refl _ _) | (with_reducible refine State.setAcct_only ?_ ?_) | (with_reducible refine State.specRecord_only ?_ ?_) | (with_reducible refine only_ite (fun _ => ?_) (fun _ => ?_)) | (with_reducible refine only_foldl ?_ (fun _ _ => ?_)))
    | ((with_reducible refine only_set_chres ?_ (by decide)); first | (with_reducible exact Only.refl _ _) | (with_reducible refine State.setAcct_only ?_ ?_) | (with_reducible refine State.specRecord_only ?_ ?_) | (with_reducible refine only_ite (fun _ => ?_) (fun _ => ?_)) | (with_reducible refine only_foldl ?_ (fun _ _ => ?_)))
    | ((with_reducible refine only_set_pq ?_ (by decide)); first | (with_reducible exact Only.refl _ _) | (with_reducible refine State.setAcct_only ?_ ?_) | (with_reducible refine State.specRecord_only ?_ ?_) | (with_reducible refine only_ite (fun _ => ?_) (fun _ => ?_)) | (with_reducible refine only_foldl ?_ (fun _ _ => ?_)))
    | ((with_reducible refine only_set_nvm ?_ ?_ (by decide)); rotate_left; (first | exact ⟨fun w => cellsSet_wf w _ _⟩ | exact ⟨fun w => w, fun _ p => List.mem_append_left _ p, fun _ => Nat.le_refl _⟩ | exact .of rfl rfl rfl | exact .of rfl rfl | exact .of rfl | exact Nat.le_refl _); first | (with_reducible exact Only.refl _ _) | (with_reducible refine State.setAcct_only ?_ ?_) | (with_reducible refine State.specRecord_only ?_ ?_) | (with_reducible refine only_ite (fun _ => ?_) (fun _ => ?_)) | (with_reducible refine only_foldl ?_ (fun _ _ => ?_)))
    | ((with_reducible refine only_set_evt ?_ (by decide)); first | (with_reducible exact Only.refl _ _) | (with_reducible refine State.setAcct_only ?_ ?_) | (with_reducible refine State.specRecord_only ?_ ?_) | (with_reducible refine only_ite (fun _ => ?_) (fun _ => ?_)) | (with_reducible refine only_foldl ?_ (fun _ _ => ?_)))
    | split)

theorem State.specPublish_only {a1 : _} {a2 : _} {a3 : _} {a4 : _} {a5 : _} {a6 : _} {a7 : _} (h : Only m s t) (hm : 10498048 &&& m = 10498048) :
    Only m s (t.specPublish a1 a2 a3 a4 a5 a6 a7) := by
  refine h.trans (Only.mono (m := 10498048) ?_ hm)
  unfold State.specPublish
  repeat' (first
    | (with_reducible exact Only.refl _ _)
    | (with_reducible refine State.specWindow_only ?_ ?_)
    | (with_reducible refine only_ite (fun _ => ?_) (fun _ => ?_))
    | (with_reducible refine only_foldl ?_ (fun _ _ => ?_))
    | decide
    | (dsimp only)
    | ((with_reducible refine only_set_chres ?_ (by decide)); first | (with_reducible exact Only.refl _ _) | (with_reducible refine State.specWindow_only ?_ ?_) | (with_reducible refine only_ite (fun _ => ?_) (fun _ => ?_)) | (with_reducible refine only_foldl ?_ (fun _ _ => ?_)))
    | ((with_reducible refine only_set_pq ?_ (by decide)); first | (with_reducible exact Only.refl _ _) | (with_reducible refine State.specWindow_only ?_ ?_) | (with_reducible refine only_ite (fun _ => ?_) (fun _ => ?_)) | (with_reducible refine only_foldl ?_ (fun _ _ => ?_)))
    | ((with_reducible refine only_set_nvm ?_ ?_ (by decide)); rotate_left; (first | exact ⟨fun w => cellsSet_wf w _ _⟩ | exact ⟨fun w => w, fun _ p => List.mem_append_left _ p, fun _ => Nat.le_refl _⟩ | exact .of rfl rfl rfl | exact .of rfl rfl | exact .of rfl | exact Nat.le_refl _); first | (with_reducible exact Only.refl _ _) | (with_reducible refine State.specWindow_only ?_ ?_) | (with_reducible refine only_ite (fun _ => ?_) (fun _ => ?_)) | (with_reducible refine only_foldl ?_ (fun _ _ => ?_)))
    | ((with_reducible refine only_set_evt ?_ (by decide)); first | (with_reducible exact Only.refl _ _) | (with_reducible refine State.specWindow_only ?_ ?_) | (with_reducible refine only_ite (fun _ => ?_) (fun _ => ?_)) | (with_reducible refine only_foldl ?_ (fun _ _ => ?_)))
    | split)

theorem State.specSkip_only {a1 : _} {a2 : _} {a3 : _} {a4 : _} {a5 : _} {a6 : _} (h : Only m s t) (hm : 10498048 &&& m = 10498048) :
    Only m s (t.specSkip a1 a2 a3 a4 a5 a6) := by
  refine h.trans (Only.mono (m := 10498048) ?_ hm)
  unfold State.specSkip
  repeat' (first
    | (with_reducible exact Only.refl _ _)
    | (with_reducible refine State.specWindow_only ?_ ?_)
    | (with_reducible refine only_ite (fun _ => ?_) (fun _ => ?_))
    | (with_reducible refine only_foldl ?_ (fun _ _ => ?_))
    | decide
    | (dsimp only)
    | ((with_reducible refine only_set_chres ?_ (by decide)); first | (with_reducible exact Only.refl _ _) | (with_reducible refine State.specWindow_only ?_ ?_) | (with_reducible refine only_ite (fun _ => ?_) (fun _ => ?_)) | (with_reducible refine only_foldl ?_ (fun _ _ => ?_)))
    | ((with_reducible refine only_set_pq ?_ (by decide)); first | (with_reducible exact Only.refl _ _) | (with_reducible refine State.specWindow_only ?_ ?_) | (with_reducible refine only_ite (fun _ => ?_) (fun _ => ?_)) | (with_reducible refine only_foldl ?_ (fun _ _ => ?_)))
    | ((with_reducible refine only_set_nvm ?_ ?_ (by decide)); rotate_left; (first | exact ⟨fun w => cellsSet_wf w _ _⟩ | exact ⟨fun w => w, fun _ p => List.mem_append_left _ p, fun _ => Nat.le_refl _⟩ | exact .of rfl rfl rfl | exact .of rfl rfl | exact .of rfl | exact Nat.le_refl _); first | (with_reducible exact Only.refl _ _) | (with_reducible refine State.specWindow_only ?_ ?_) | (with_reducible refine only_ite (fun _ => ?_) (fun _ => ?_)) | (with_reducible refine only_foldl ?_ (fun _ _ => ?_)))
    | ((with_reducible refine only_set_evt ?_ (by decide)); first | (with_reducible exact Only.refl _ _) | (with_reducible refine State.specWindow_only ?_ ?_) | (with_reducible refine only_ite (fun _ => ?_) (fun _ => ?_)) | (with_reducible refine only_foldl ?_ (fun _ _ => ?_)))
    | split)

theorem State.flickPublish_only {a1 : _} {a2 : _} {a3 : _} {a4 : _} {a5 : _} (h : Only m s t) (hm : 4096 &&& m = 4096) :
    Only m s (t.flickPublish a1 a2 a3 a4 a5) := by
  refine h.trans (Only.mono (m := 4096) ?_ hm)
  unfold State.flickPublish
  repeat' (first
    | (with_reducible exact Only.refl _ _)
    | (with_reducible refine only_ite (fun _ => ?_) (fun _ => ?_))
    | (with_reducible refine only_foldl ?_ (fun _ _ => ?_))
    | decide
    | (dsimp only)
    | ((with_reducible refine only_set_chres ?_ (by decide)); first | (with_reducible exact Only.refl _ _) | (with_reducible refine only_ite (fun _ => ?_) (fun _ => ?_)) | (with_reducible refine only_foldl ?_ (fun _ _ => ?_)))
    | split)

end Sys2Proof.Machine
end

