-- ==== Sys2Proof/Laws/Frame2.lean ====
section
/-! SUPPORT. What each shared operation may change (Only of Laws/Frame.lean), one lemma each: the operations of Machine/BalOps,
Machine/Publish, Machine/Issue, Machine/EngineOps, Machine/Rules, Machine/SpareOps, Machine/Shadow, Machine/Filter,
Machine/UpdOps. -/
namespace Sys2Proof.Machine

variable {m : Nat} {s x t : State}

theorem State.balNarrow_only {a1 : _} {a2 : _} (h : Only m s t) (hm : 131072 &&& m = 131072) :
    Only m s (t.balNarrow a1 a2) := by
  refine h.trans (Only.mono (m := 131072) ?_ hm)
  unfold State.balNarrow
  repeat' (first
    | (with_reducible exact Only.refl _ _)
    | (with_reducible refine State.setBal_only ?_ ?_)
    | (with_reducible refine only_ite (fun _ => ?_) (fun _ => ?_))
    | (with_reducible refine only_foldl ?_ (fun _ _ => ?_))
    | decide
    | (dsimp only)
    | split)

theorem State.ev38_only {a1 : _} {a2 : _} {a3 : _} (h : Only m s t) (hm : 8388608 &&& m = 8388608) :
    Only m s (t.ev38 a1 a2 a3) := by
  refine h.trans (Only.mono (m := 8388608) ?_ hm)
  unfold State.ev38
  repeat' (first
    | (with_reducible exact Only.refl _ _)
    | (with_reducible refine State.raiseAt_only ?_ ?_)
    | (with_reducible refine only_ite (fun _ => ?_) (fun _ => ?_))
    | (with_reducible refine only_foldl ?_ (fun _ _ => ?_))
    | decide
    | (dsimp only)
    | split)

theorem State.balAlarm_only {g : Nat} {c : BalClose} (h : Only m s t) (hm : 378142720 &&& m = 378142720) :
    Only m s (t.balAlarm g c).1 := by
  refine h.trans (Only.mono (m := 378142720) ?_ hm)
  have base : ∀ u : State, ∀ f, Only 378142720 u (u.setBal g f) := fun u f => State.setBal_only (Only.refl _ _) (by decide)
  have up : ∀ u : State, ∀ d, Only 378142720 u (u.ev38 g d c) := fun u d => State.ev38_only (Only.refl _ _) (by decide)
  have nar : ∀ u : State, ∀ n, Only 378142720 u (u.balNarrow g n) := fun u n => State.balNarrow_only (Only.refl _ _) (by decide)
  have det : ∀ u : State, ∀ n q, Only 378142720 u (u.balanceDetection g n q) := fun u n q =>
    State.balanceDetection_only (Only.refl _ _) (by decide)
  unfold State.balAlarm
  dsimp only
  split
  · have hs : Only 378142720 t (if c.items ≠ 0 then t.balNarrow g c.items else t) := only_ite (fun _ => nar _ _) (fun _ => Only.refl _ _)
    split
    · split
      · exact (hs.trans (base _ _)).trans (up _ _)
      · exact hs.trans (base _ _)
    · split
      · exact (hs.trans (base _ _)).trans (up _ _)
      · exact hs.trans (base _ _)
  · split
    · split
      · exact (((base _ _).trans (nar _ _)).trans (up _ _)).trans (det _ _ _)
      · exact base _ _
    · split
      · exact (((base _ _).trans (nar _ _)).trans (up _ _)).trans (det _ _ _)
      · exact base _ _

theorem State.balClose_only {a1 : _} {a2 : _} {a3 : _} {a4 : _} {a5 : _} (h : Only m s t) (hm : 378142720 &&& m = 378142720) :
    Only m s (t.balClose a1 a2 a3 a4 a5) := by
  refine h.trans (Only.mono (m := 378142720) ?_ hm)
  unfold State.balClose
  repeat' (first
    | (with_reducible exact Only.refl _ _)
    | (with_reducible refine State.balAlarm_only ?_ ?_)
    | (with_reducible refine State.logPut_only ?_ ?_)
    | (with_reducible refine State.setBal_only ?_ ?_)
    | (with_reducible refine only_ite (fun _ => ?_) (fun _ => ?_))
    | (with_reducible refine only_foldl ?_ (fun _ _ => ?_))
    | decide
    | (dsimp only)
    | split)

theorem State.balLast_only {a1 : _} {a2 : _} (h : Only m s t) (hm : 378142720 &&& m = 378142720) :
    Only m s (t.balLast a1 a2) := by
  refine h.trans (Only.mono (m := 378142720) ?_ hm)
  unfold State.balLast
  repeat' (first
    | (with_reducible exact Only.refl _ _)
    | (with_reducible refine State.balClose_only ?_ ?_)
    | (with_reducible refine State.setBal_only ?_ ?_)
    | (with_reducible refine only_ite (fun _ => ?_) (fun _ => ?_))
    | (with_reducible refine only_foldl ?_ (fun _ _ => ?_))
    | decide
    | (dsimp only)
    | split)

theorem State.balCycle_only {a1 : _} {a2 : _} {a3 : _} {a4 : _} {a5 : _} {a6 : _} {a7 : _} (h : Only m s t) (hm : 378142720 &&& m = 378142720) :
    Only m s (t.balCycle a1 a2 a3 a4 a5 a6 a7) := by
  refine h.trans (Only.mono (m := 378142720) ?_ hm)
  unfold State.balCycle
  repeat' (first
    | (with_reducible exact Only.refl _ _)
    | (with_reducible refine State.balLast_only ?_ ?_)
    | (with_reducible refine State.balClose_only ?_ ?_)
    | (with_reducible refine State.setBal_only ?_ ?_)
    | (with_reducible refine only_ite (fun _ => ?_) (fun _ => ?_))
    | (with_reducible refine only_foldl ?_ (fun _ _ => ?_))
    | decide
    | (dsimp only)
    | split)

theorem State.balForce_only (h : Only m s t) (hm : 378142720 &&& m = 378142720) :
    Only m s (t.balForce) := by
  refine h.trans (Only.mono (m := 378142720) ?_ hm)
  unfold State.balForce
  repeat' (first
    | (with_reducible exact Only.refl _ _)
    | (with_reducible refine State.balClose_only ?_ ?_)
    | (with_reducible refine only_ite (fun _ => ?_) (fun _ => ?_))
    | (with_reducible refine only_foldl ?_ (fun _ _ => ?_))
    | decide
    | (dsimp only)
    | split)

theorem State.balOutage_only (h : Only m s t) (hm : 378142720 &&& m = 378142720) :
    Only m s (t.balOutage) := by
  refine h.trans (Only.mono (m := 378142720) ?_ hm)
  unfold State.balOutage
  repeat' (first
    | (with_reducible exact Only.refl _ _)
    | (with_reducible refine State.balClose_only ?_ ?_)
    | (with_reducible refine State.setBal_only ?_ ?_)
    | (with_reducible refine only_ite (fun _ => ?_) (fun _ => ?_))
    | (with_reducible refine only_foldl ?_ (fun _ _ => ?_))
    | decide
    | (dsimp only)
    | split)

theorem State.direction_only {a1 : _} {a2 : _} {a3 : _} {a4 : _} (h : Only m s t) (hm : 8390656 &&& m = 8390656) :
    Only m s (t.direction a1 a2 a3 a4) := by
  refine h.trans (Only.mono (m := 8390656) ?_ hm)
  unfold State.direction
  repeat' (first
    | (with_reducible exact Only.refl _ _)
    | (with_reducible refine State.raise_only ?_ ?_)
    | (with_reducible refine State.setAcct_only ?_ ?_)
    | (with_reducible refine only_ite (fun _ => ?_) (fun _ => ?_))
    | (with_reducible refine only_foldl ?_ (fun _ _ => ?_))
    | decide
    | (dsimp only)
    | split)

theorem State.billPublish_only {a1 : _} {a2 : _} {a3 : _} {a4 : _} {a5 : _} (h : Only m s t) (hm : 8390656 &&& m = 8390656) :
    Only m s (t.billPublish a1 a2 a3 a4 a5) := by
  refine h.trans (Only.mono (m := 8390656) ?_ hm)
  unfold State.billPublish
  repeat' (first
    | (with_reducible exact Only.refl _ _)
    | (with_reducible refine State.direction_only ?_ ?_)
    | (with_reducible refine State.setAcct_only ?_ ?_)
    | (with_reducible refine only_ite (fun _ => ?_) (fun _ => ?_))
    | (with_reducible refine only_foldl ?_ (fun _ _ => ?_))
    | decide
    | (dsimp only)
    | split)

theorem State.rmsxPublish_only {a1 : _} {a2 : _} {a3 : _} {a4 : _} {a5 : _} {a6 : _} {a7 : _} {a8 : _} {a9 : _} (h : Only m s t) (hm : 380172288 &&& m = 380172288) :
    Only m s (t.rmsxPublish a1 a2 a3 a4 a5 a6 a7 a8 a9) := by
  refine h.trans (Only.mono (m := 380172288) ?_ hm)
  unfold State.rmsxPublish
  repeat' (first
    | (with_reducible exact Only.refl _ _)
    | (with_reducible refine State.pqCycle_only ?_ ?_)
    | (with_reducible refine State.plausCycle_only ?_ ?_)
    | (with_reducible refine State.setPq_only ?_ ?_)
    | (with_reducible refine State.setAcct_only ?_ ?_)
    | (with_reducible refine only_ite (fun _ => ?_) (fun _ => ?_))
    | (with_reducible refine only_foldl ?_ (fun _ _ => ?_))
    | decide
    | (dsimp only)
    | ((with_reducible refine only_set_accts ?_ (by decide)); first | (with_reducible exact Only.refl _ _) | (with_reducible refine State.pqCycle_only ?_ ?_) | (with_reducible refine State.plausCycle_only ?_ ?_) | (with_reducible refine State.setPq_only ?_ ?_) | (with_reducible refine State.setAcct_only ?_ ?_) | (with_reducible refine only_ite (fun _ => ?_) (fun _ => ?_)) | (with_reducible refine only_foldl ?_ (fun _ _ => ?_)))
    | ((with_reducible refine only_set_chres ?_ (by decide)); first | (with_reducible exact Only.refl _ _) | (with_reducible refine State.pqCycle_only ?_ ?_) | (with_reducible refine State.plausCycle_only ?_ ?_) | (with_reducible refine State.setPq_only ?_ ?_) | (with_reducible refine State.setAcct_only ?_ ?_) | (with_reducible refine only_ite (fun _ => ?_) (fun _ => ?_)) | (with_reducible refine only_foldl ?_ (fun _ _ => ?_)))
    | ((with_reducible refine only_set_pq ?_ (by decide)); first | (with_reducible exact Only.refl _ _) | (with_reducible refine State.pqCycle_only ?_ ?_) | (with_reducible refine State.plausCycle_only ?_ ?_) | (with_reducible refine State.setPq_only ?_ ?_) | (with_reducible refine State.setAcct_only ?_ ?_) | (with_reducible refine only_ite (fun _ => ?_) (fun _ => ?_)) | (with_reducible refine only_foldl ?_ (fun _ _ => ?_)))
    | ((with_reducible refine only_set_capt ?_ (by decide)); first | (with_reducible exact Only.refl _ _) | (with_reducible refine State.pqCycle_only ?_ ?_) | (with_reducible refine State.plausCycle_only ?_ ?_) | (with_reducible refine State.setPq_only ?_ ?_) | (with_reducible refine State.setAcct_only ?_ ?_) | (with_reducible refine only_ite (fun _ => ?_) (fun _ => ?_)) | (with_reducible refine only_foldl ?_ (fun _ _ => ?_)))
    | ((with_reducible refine only_set_captMissed ?_ (by decide)); first | (with_reducible exact Only.refl _ _) | (with_reducible refine State.pqCycle_only ?_ ?_) | (with_reducible refine State.plausCycle_only ?_ ?_) | (with_reducible refine State.setPq_only ?_ ?_) | (with_reducible refine State.setAcct_only ?_ ?_) | (with_reducible refine only_ite (fun _ => ?_) (fun _ => ?_)) | (with_reducible refine only_foldl ?_ (fun _ _ => ?_)))
    | ((with_reducible refine only_set_pp ?_ (by decide)); first | (with_reducible exact Only.refl _ _) | (with_reducible refine State.pqCycle_only ?_ ?_) | (with_reducible refine State.plausCycle_only ?_ ?_) | (with_reducible refine State.setPq_only ?_ ?_) | (with_reducible refine State.setAcct_only ?_ ?_) | (with_reducible refine only_ite (fun _ => ?_) (fun _ => ?_)) | (with_reducible refine only_foldl ?_ (fun _ _ => ?_)))
    | ((with_reducible refine only_set_nvm ?_ ?_ (by decide)); rotate_left; (first | exact ⟨fun w => cellsSet_wf w _ _⟩ | exact ⟨fun w => w, fun _ p => List.mem_append_left _ p, fun _ => Nat.le_refl _⟩ | exact .of rfl rfl rfl | exact .of rfl rfl | exact .of rfl | exact Nat.le_refl _); first | (with_reducible exact Only.refl _ _) | (with_reducible refine State.pqCycle_only ?_ ?_) | (with_reducible refine State.plausCycle_only ?_ ?_) | (with_reducible refine State.setPq_only ?_ ?_) | (with_reducible refine State.setAcct_only ?_ ?_) | (with_reducible refine only_ite (fun _ => ?_) (fun _ => ?_)) | (with_reducible refine only_foldl ?_ (fun _ _ => ?_)))
    | ((with_reducible refine only_set_evt ?_ (by decide)); first | (with_reducible exact Only.refl _ _) | (with_reducible refine State.pqCycle_only ?_ ?_) | (with_reducible refine State.plausCycle_only ?_ ?_) | (with_reducible refine State.setPq_only ?_ ?_) | (with_reducible refine State.setAcct_only ?_ ?_) | (with_reducible refine only_ite (fun _ => ?_) (fun _ => ?_)) | (with_reducible refine only_foldl ?_ (fun _ _ => ?_)))
    | ((with_reducible refine only_set_mem ?_ ?_ (by decide)); rotate_left; (first | exact ⟨fun w => cellsSet_wf w _ _⟩ | exact ⟨fun w => w, fun _ p => List.mem_append_left _ p, fun _ => Nat.le_refl _⟩ | exact .of rfl rfl rfl | exact .of rfl rfl | exact .of rfl | exact Nat.le_refl _); first | (with_reducible exact Only.refl _ _) | (with_reducible refine State.pqCycle_only ?_ ?_) | (with_reducible refine State.plausCycle_only ?_ ?_) | (with_reducible refine State.setPq_only ?_ ?_) | (with_reducible refine State.setAcct_only ?_ ?_) | (with_reducible refine only_ite (fun _ => ?_) (fun _ => ?_)) | (with_reducible refine only_foldl ?_ (fun _ _ => ?_)))
    | ((with_reducible refine only_set_tamper ?_ (by decide)); first | (with_reducible exact Only.refl _ _) | (with_reducible refine State.pqCycle_only ?_ ?_) | (with_reducible refine State.plausCycle_only ?_ ?_) | (with_reducible refine State.setPq_only ?_ ?_) | (with_reducible refine State.setAcct_only ?_ ?_) | (with_reducible refine only_ite (fun _ => ?_) (fun _ => ?_)) | (with_reducible refine only_foldl ?_ (fun _ _ => ?_)))
    | ((with_reducible refine only_set_disp ?_ (by decide)); first | (with_reducible exact Only.refl _ _) | (with_reducible refine State.pqCycle_only ?_ ?_) | (with_reducible refine State.plausCycle_only ?_ ?_) | (with_reducible refine State.setPq_only ?_ ?_) | (with_reducible refine State.setAcct_only ?_ ?_) | (with_reducible refine only_ite (fun _ => ?_) (fun _ => ?_)) | (with_reducible refine only_foldl ?_ (fun _ _ => ?_)))
    | split)

theorem State.winSkip_only {a1 : _} {a2 : _} {a3 : _} {a4 : _} (h : Only m s t) (hm : 10498048 &&& m = 10498048) :
    Only m s (t.winSkip a1 a2 a3 a4) := by
  refine h.trans (Only.mono (m := 10498048) ?_ hm)
  unfold State.winSkip
  repeat' (first
    | (with_reducible exact Only.refl _ _)
    | (with_reducible refine State.specSkip_only ?_ ?_)
    | (with_reducible refine only_ite (fun _ => ?_) (fun _ => ?_))
    | (with_reducible refine only_foldl ?_ (fun _ _ => ?_))
    | decide
    | (dsimp only)
    | split)

theorem State.specAll_only {a1 : _} {a2 : _} {a3 : _} {a4 : _} {a5 : _} {a6 : _} (h : Only m s t) (hm : 10498048 &&& m = 10498048) :
    Only m s (t.specAll a1 a2 a3 a4 a5 a6) := by
  refine h.trans (Only.mono (m := 10498048) ?_ hm)
  unfold State.specAll
  repeat' (first
    | (with_reducible exact Only.refl _ _)
    | (with_reducible refine State.specSkip_only ?_ ?_)
    | (with_reducible refine State.specPublish_only ?_ ?_)
    | (with_reducible refine only_ite (fun _ => ?_) (fun _ => ?_))
    | (with_reducible refine only_foldl ?_ (fun _ _ => ?_))
    | decide
    | (dsimp only)
    | split)

theorem State.selfPublish_only {a1 : _} {a2 : _} (h : Only m s t) (hm : 8 &&& m = 8) :
    Only m s (t.selfPublish a1 a2) := by
  refine h.trans (Only.mono (m := 8) ?_ hm)
  unfold State.selfPublish
  repeat' (first
    | (with_reducible exact Only.refl _ _)
    | (with_reducible refine State.setSpare_only ?_ ?_)
    | (with_reducible refine only_ite (fun _ => ?_) (fun _ => ?_))
    | (with_reducible refine only_foldl ?_ (fun _ _ => ?_))
    | decide
    | (dsimp only)
    | split)

theorem State.publish_only {a1 : _} {a2 : _} {a3 : _} {a4 : _} {a5 : _} {a6 : _} {a7 : _} (h : Only m s t) (hm : 381351992 &&& m = 381351992) :
    Only m s (t.publish a1 a2 a3 a4 a5 a6 a7) := by
  refine h.trans (Only.mono (m := 381351992) ?_ hm)
  unfold State.publish
  repeat' (first
    | (with_reducible exact Only.refl _ _)
    | (with_reducible refine State.captPublish_only ?_ ?_)
    | (with_reducible refine State.winSkip_only ?_ ?_)
    | (with_reducible refine State.flickPublish_only ?_ ?_)
    | (with_reducible refine State.specWindow_only ?_ ?_)
    | (with_reducible refine State.rmsxPublish_only ?_ ?_)
    | (with_reducible refine State.balCycle_only ?_ ?_)
    | (with_reducible refine State.specAll_only ?_ ?_)
    | (with_reducible refine State.billPublish_only ?_ ?_)
    | (with_reducible refine State.calCycle_only ?_ ?_)
    | (with_reducible refine State.selfPublish_only ?_ ?_)
    | (with_reducible refine only_ite (fun _ => ?_) (fun _ => ?_))
    | (with_reducible refine only_foldl ?_ (fun _ _ => ?_))
    | decide
    | (dsimp only)
    | ((with_reducible refine only_set_spares ?_ (by decide)); first | (with_reducible exact Only.refl _ _) | (with_reducible refine State.captPublish_only ?_ ?_) | (with_reducible refine State.winSkip_only ?_ ?_) | (with_reducible refine State.flickPublish_only ?_ ?_) | (with_reducible refine State.specWindow_only ?_ ?_) | (with_reducible refine State.rmsxPublish_only ?_ ?_) | (with_reducible refine State.balCycle_only ?_ ?_) | (with_reducible refine State.specAll_only ?_ ?_) | (with_reducible refine State.billPublish_only ?_ ?_) | (with_reducible refine State.calCycle_only ?_ ?_) | (with_reducible refine State.selfPublish_only ?_ ?_) | (with_reducible refine only_ite (fun _ => ?_) (fun _ => ?_)) | (with_reducible refine only_foldl ?_ (fun _ _ => ?_)))
    | ((with_reducible refine only_set_chans ?_ (by decide)); first | (with_reducible exact Only.refl _ _) | (with_reducible refine State.captPublish_only ?_ ?_) | (with_reducible refine State.winSkip_only ?_ ?_) | (with_reducible refine State.flickPublish_only ?_ ?_) | (with_reducible refine State.specWindow_only ?_ ?_) | (with_reducible refine State.rmsxPublish_only ?_ ?_) | (with_reducible refine State.balCycle_only ?_ ?_) | (with_reducible refine State.specAll_only ?_ ?_) | (with_reducible refine State.billPublish_only ?_ ?_) | (with_reducible refine State.calCycle_only ?_ ?_) | (with_reducible refine State.selfPublish_only ?_ ?_) | (with_reducible refine only_ite (fun _ => ?_) (fun _ => ?_)) | (with_reducible refine only_foldl ?_ (fun _ _ => ?_)))
    | ((with_reducible refine only_set_hk ?_ (by decide)); first | (with_reducible exact Only.refl _ _) | (with_reducible refine State.captPublish_only ?_ ?_) | (with_reducible refine State.winSkip_only ?_ ?_) | (with_reducible refine State.flickPublish_only ?_ ?_) | (with_reducible refine State.specWindow_only ?_ ?_) | (with_reducible refine State.rmsxPublish_only ?_ ?_) | (with_reducible refine State.balCycle_only ?_ ?_) | (with_reducible refine State.specAll_only ?_ ?_) | (with_reducible refine State.billPublish_only ?_ ?_) | (with_reducible refine State.calCycle_only ?_ ?_) | (with_reducible refine State.selfPublish_only ?_ ?_) | (with_reducible refine only_ite (fun _ => ?_) (fun _ => ?_)) | (with_reducible refine only_foldl ?_ (fun _ _ => ?_)))
    | ((with_reducible refine only_set_accts ?_ (by decide)); first | (with_reducible exact Only.refl _ _) | (with_reducible refine State.captPublish_only ?_ ?_) | (with_reducible refine State.winSkip_only ?_ ?_) | (with_reducible refine State.flickPublish_only ?_ ?_) | (with_reducible refine State.specWindow_only ?_ ?_) | (with_reducible refine State.rmsxPublish_only ?_ ?_) | (with_reducible refine State.balCycle_only ?_ ?_) | (with_reducible refine State.specAll_only ?_ ?_) | (with_reducible refine State.billPublish_only ?_ ?_) | (with_reducible refine State.calCycle_only ?_ ?_) | (with_reducible refine State.selfPublish_only ?_ ?_) | (with_reducible refine only_ite (fun _ => ?_) (fun _ => ?_)) | (with_reducible refine only_foldl ?_ (fun _ _ => ?_)))
    | ((with_reducible refine only_set_chres ?_ (by decide)); first | (with_reducible exact Only.refl _ _) | (with_reducible refine State.captPublish_only ?_ ?_) | (with_reducible refine State.winSkip_only ?_ ?_) | (with_reducible refine State.flickPublish_only ?_ ?_) | (with_reducible refine State.specWindow_only ?_ ?_) | (with_reducible refine State.rmsxPublish_only ?_ ?_) | (with_reducible refine State.balCycle_only ?_ ?_) | (with_reducible refine State.specAll_only ?_ ?_) | (with_reducible refine State.billPublish_only ?_ ?_) | (with_reducible refine State.calCycle_only ?_ ?_) | (with_reducible refine State.selfPublish_only ?_ ?_) | (with_reducible refine only_ite (fun _ => ?_) (fun _ => ?_)) | (with_reducible refine only_foldl ?_ (fun _ _ => ?_)))
    | ((with_reducible refine only_set_pq ?_ (by decide)); first | (with_reducible exact Only.refl _ _) | (with_reducible refine State.captPublish_only ?_ ?_) | (with_reducible refine State.winSkip_only ?_ ?_) | (with_reducible refine State.flickPublish_only ?_ ?_) | (with_reducible refine State.specWindow_only ?_ ?_) | (with_reducible refine State.rmsxPublish_only ?_ ?_) | (with_reducible refine State.balCycle_only ?_ ?_) | (with_reducible refine State.specAll_only ?_ ?_) | (with_reducible refine State.billPublish_only ?_ ?_) | (with_reducible refine State.calCycle_only ?_ ?_) | (with_reducible refine State.selfPublish_only ?_ ?_) | (with_reducible refine only_ite (fun _ => ?_) (fun _ => ?_)) | (with_reducible refine only_foldl ?_ (fun _ _ => ?_)))
    | ((with_reducible refine only_set_capt ?_ (by decide)); first | (with_reducible exact Only.refl _ _) | (with_reducible refine State.captPublish_only ?_ ?_) | (with_reducible refine State.winSkip_only ?_ ?_) | (with_reducible refine State.flickPublish_only ?_ ?_) | (with_reducible refine State.specWindow_only ?_ ?_) | (with_reducible refine State.rmsxPublish_only ?_ ?_) | (with_reducible refine State.balCycle_only ?_ ?_) | (with_reducible refine State.specAll_only ?_ ?_) | (with_reducible refine State.billPublish_only ?_ ?_) | (with_reducible refine State.calCycle_only ?_ ?_) | (with_reducible refine State.selfPublish_only ?_ ?_) | (with_reducible refine only_ite (fun _ => ?_) (fun _ => ?_)) | (with_reducible refine only_foldl ?_ (fun _ _ => ?_)))
    | ((with_reducible refine only_set_captMissed ?_ (by decide)); first | (with_reducible exact Only.refl _ _) | (with_reducible refine State.captPublish_only ?_ ?_) | (with_reducible refine State.winSkip_only ?_ ?_) | (with_reducible refine State.flickPublish_only ?_ ?_) | (with_reducible refine State.specWindow_only ?_ ?_) | (with_reducible refine State.rmsxPublish_only ?_ ?_) | (with_reducible refine State.balCycle_only ?_ ?_) | (with_reducible refine State.specAll_only ?_ ?_) | (with_reducible refine State.billPublish_only ?_ ?_) | (with_reducible refine State.calCycle_only ?_ ?_) | (with_reducible refine State.selfPublish_only ?_ ?_) | (with_reducible refine only_ite (fun _ => ?_) (fun _ => ?_)) | (with_reducible refine only_foldl ?_ (fun _ _ => ?_)))
    | ((with_reducible refine only_set_bal ?_ (by decide)); first | (with_reducible exact Only.refl _ _) | (with_reducible refine State.captPublish_only ?_ ?_) | (with_reducible refine State.winSkip_only ?_ ?_) | (with_reducible refine State.flickPublish_only ?_ ?_) | (with_reducible refine State.specWindow_only ?_ ?_) | (with_reducible refine State.rmsxPublish_only ?_ ?_) | (with_reducible refine State.balCycle_only ?_ ?_) | (with_reducible refine State.specAll_only ?_ ?_) | (with_reducible refine State.billPublish_only ?_ ?_) | (with_reducible refine State.calCycle_only ?_ ?_) | (with_reducible refine State.selfPublish_only ?_ ?_) | (with_reducible refine only_ite (fun _ => ?_) (fun _ => ?_)) | (with_reducible refine only_foldl ?_ (fun _ _ => ?_)))
    | ((with_reducible refine only_set_pp ?_ (by decide)); first | (with_reducible exact Only.refl _ _) | (with_reducible refine State.captPublish_only ?_ ?_) | (with_reducible refine State.winSkip_only ?_ ?_) | (with_reducible refine State.flickPublish_only ?_ ?_) | (with_reducible refine State.specWindow_only ?_ ?_) | (with_reducible refine State.rmsxPublish_only ?_ ?_) | (with_reducible refine State.balCycle_only ?_ ?_) | (with_reducible refine State.specAll_only ?_ ?_) | (with_reducible refine State.billPublish_only ?_ ?_) | (with_reducible refine State.calCycle_only ?_ ?_) | (with_reducible refine State.selfPublish_only ?_ ?_) | (with_reducible refine only_ite (fun _ => ?_) (fun _ => ?_)) | (with_reducible refine only_foldl ?_ (fun _ _ => ?_)))
    | ((with_reducible refine only_set_cal ?_ (by decide)); first | (with_reducible exact Only.refl _ _) | (with_reducible refine State.captPublish_only ?_ ?_) | (with_reducible refine State.winSkip_only ?_ ?_) | (with_reducible refine State.flickPublish_only ?_ ?_) | (with_reducible refine State.specWindow_only ?_ ?_) | (with_reducible refine State.rmsxPublish_only ?_ ?_) | (with_reducible refine State.balCycle_only ?_ ?_) | (with_reducible refine State.specAll_only ?_ ?_) | (with_reducible refine State.billPublish_only ?_ ?_) | (with_reducible refine State.calCycle_only ?_ ?_) | (with_reducible refine State.selfPublish_only ?_ ?_) | (with_reducible refine only_ite (fun _ => ?_) (fun _ => ?_)) | (with_reducible refine only_foldl ?_ (fun _ _ => ?_)))
    | ((with_reducible refine only_set_nvm ?_ ?_ (by decide)); rotate_left; (first | exact ⟨fun w => cellsSet_wf w _ _⟩ | exact ⟨fun w => w, fun _ p => List.mem_append_left _ p, fun _ => Nat.le_refl _⟩ | exact .of rfl rfl rfl | exact .of rfl rfl | exact .of rfl | exact Nat.le_refl _); first | (with_reducible exact Only.refl _ _) | (with_reducible refine State.captPublish_only ?_ ?_) | (with_reducible refine State.winSkip_only ?_ ?_) | (with_reducible refine State.flickPublish_only ?_ ?_) | (with_reducible refine State.specWindow_only ?_ ?_) | (with_reducible refine State.rmsxPublish_only ?_ ?_) | (with_reducible refine State.balCycle_only ?_ ?_) | (with_reducible refine State.specAll_only ?_ ?_) | (with_reducible refine State.billPublish_only ?_ ?_) | (with_reducible refine State.calCycle_only ?_ ?_) | (with_reducible refine State.selfPublish_only ?_ ?_) | (with_reducible refine only_ite (fun _ => ?_) (fun _ => ?_)) | (with_reducible refine only_foldl ?_ (fun _ _ => ?_)))
    | ((with_reducible refine only_set_evt ?_ (by decide)); first | (with_reducible exact Only.refl _ _) | (with_reducible refine State.captPublish_only ?_ ?_) | (with_reducible refine State.winSkip_only ?_ ?_) | (with_reducible refine State.flickPublish_only ?_ ?_) | (with_reducible refine State.specWindow_only ?_ ?_) | (with_reducible refine State.rmsxPublish_only ?_ ?_) | (with_reducible refine State.balCycle_only ?_ ?_) | (with_reducible refine State.specAll_only ?_ ?_) | (with_reducible refine State.billPublish_only ?_ ?_) | (with_reducible refine State.calCycle_only ?_ ?_) | (with_reducible refine State.selfPublish_only ?_ ?_) | (with_reducible refine only_ite (fun _ => ?_) (fun _ => ?_)) | (with_reducible refine only_foldl ?_ (fun _ _ => ?_)))
    | ((with_reducible refine only_set_mem ?_ ?_ (by decide)); rotate_left; (first | exact ⟨fun w => cellsSet_wf w _ _⟩ | exact ⟨fun w => w, fun _ p => List.mem_append_left _ p, fun _ => Nat.le_refl _⟩ | exact .of rfl rfl rfl | exact .of rfl rfl | exact .of rfl | exact Nat.le_refl _); first | (with_reducible exact Only.refl _ _) | (with_reducible refine State.captPublish_only ?_ ?_) | (with_reducible refine State.winSkip_only ?_ ?_) | (with_reducible refine State.flickPublish_only ?_ ?_) | (with_reducible refine State.specWindow_only ?_ ?_) | (with_reducible refine State.rmsxPublish_only ?_ ?_) | (with_reducible refine State.balCycle_only ?_ ?_) | (with_reducible refine State.specAll_only ?_ ?_) | (with_reducible refine State.billPublish_only ?_ ?_) | (with_reducible refine State.calCycle_only ?_ ?_) | (with_reducible refine State.selfPublish_only ?_ ?_) | (with_reducible refine only_ite (fun _ => ?_) (fun _ => ?_)) | (with_reducible refine only_foldl ?_ (fun _ _ => ?_)))
    | ((with_reducible refine only_set_tamper ?_ (by decide)); first | (with_reducible exact Only.refl _ _) | (with_reducible refine State.captPublish_only ?_ ?_) | (with_reducible refine State.winSkip_only ?_ ?_) | (with_reducible refine State.flickPublish_only ?_ ?_) | (with_reducible refine State.specWindow_only ?_ ?_) | (with_reducible refine State.rmsxPublish_only ?_ ?_) | (with_reducible refine State.balCycle_only ?_ ?_) | (with_reducible refine State.specAll_only ?_ ?_) | (with_reducible refine State.billPublish_only ?_ ?_) | (with_reducible refine State.calCycle_only ?_ ?_) | (with_reducible refine State.selfPublish_only ?_ ?_) | (with_reducible refine only_ite (fun _ => ?_) (fun _ => ?_)) | (with_reducible refine only_foldl ?_ (fun _ _ => ?_)))
    | ((with_reducible refine only_set_disp ?_ (by decide)); first | (with_reducible exact Only.refl _ _) | (with_reducible refine State.captPublish_only ?_ ?_) | (with_reducible refine State.winSkip_only ?_ ?_) | (with_reducible refine State.flickPublish_only ?_ ?_) | (with_reducible refine State.specWindow_only ?_ ?_) | (with_reducible refine State.rmsxPublish_only ?_ ?_) | (with_reducible refine State.balCycle_only ?_ ?_) | (with_reducible refine State.specAll_only ?_ ?_) | (with_reducible refine State.billPublish_only ?_ ?_) | (with_reducible refine State.calCycle_only ?_ ?_) | (with_reducible refine State.selfPublish_only ?_ ?_) | (with_reducible refine only_ite (fun _ => ?_) (fun _ => ?_)) | (with_reducible refine only_foldl ?_ (fun _ _ => ?_)))
    | split)

theorem State.setStream_only {a1 : _} {a2 : _} (h : Only m s t) (hm : 1024 &&& m = 1024) :
    Only m s (t.setStream a1 a2) := by
  refine h.trans (Only.mono (m := 1024) ?_ hm)
  unfold State.setStream
  repeat' (first
    | (with_reducible exact Only.refl _ _)
    | (with_reducible refine State.setEng_only ?_ ?_)
    | (with_reducible refine only_ite (fun _ => ?_) (fun _ => ?_))
    | (with_reducible refine only_foldl ?_ (fun _ _ => ?_))
    | decide
    | (dsimp only)
    | split)

theorem State.countSkip_only {a1 : _} {a2 : _} (h : Only m s t) (hm : 1024 &&& m = 1024) :
    Only m s (t.countSkip a1 a2) := by
  refine h.trans (Only.mono (m := 1024) ?_ hm)
  unfold State.countSkip
  repeat' (first
    | (with_reducible exact Only.refl _ _)
    | (with_reducible refine State.setEng_only ?_ ?_)
    | (with_reducible refine only_ite (fun _ => ?_) (fun _ => ?_))
    | (with_reducible refine only_foldl ?_ (fun _ _ => ?_))
    | decide
    | (dsimp only)
    | split)

theorem State.place_only {a1 : _} {a2 : _} (h : Only m s t) (hm : 1024 &&& m = 1024) :
    Only m s (t.place a1 a2) := by
  refine h.trans (Only.mono (m := 1024) ?_ hm)
  unfold State.place
  repeat' (first
    | (with_reducible exact Only.refl _ _)
    | (with_reducible refine State.countSkip_only ?_ ?_)
    | (with_reducible refine State.setEng_only ?_ ?_)
    | (with_reducible refine only_ite (fun _ => ?_) (fun _ => ?_))
    | (with_reducible refine only_foldl ?_ (fun _ _ => ?_))
    | decide
    | (dsimp only)
    | split)

theorem State.drainBuffer_only {n : Nat} (h : Only m s t) (hm : 1024 &&& m = 1024) : Only m s (t.drainBuffer n) := by
  induction n generalizing t with
  | zero => exact h
  | succ n ih =>
    unfold State.drainBuffer
    split
    · exact h
    · split
      · exact h
      · exact ih (State.setEng_only h hm)

theorem State.drainPaused_only {n : Nat} (h : Only m s t) (hm : 1025 &&& m = 1025) : Only m s (t.drainPaused n) := by
  have he : 1024 &&& m = 1024 := by rw [show 1024 = 1024 &&& 1025 from rfl, Nat.and_assoc, hm]
  induction n generalizing t with
  | zero => exact h
  | succ n ih =>
    unfold State.drainPaused
    split
    · exact h
    · exact only_ite (fun _ => h) (fun _ => ih (State.setEng_only (State.place_only (State.setEng_only h he) (by rw [show 1024 = 1024 &&& 1025 from rfl, Nat.and_assoc, hm])) he))

theorem State.advance_only (h : Only m s t) (hm : 1025 &&& m = 1025) :
    Only m s (t.advance) := by
  refine h.trans (Only.mono (m := 1025) ?_ hm)
  unfold State.advance
  repeat' (first
    | (with_reducible exact Only.refl _ _)
    | (with_reducible refine State.setEng_only ?_ ?_)
    | (with_reducible refine State.drainPaused_only ?_ ?_)
    | (with_reducible refine State.drainBuffer_only ?_ ?_)
    | (with_reducible refine only_ite (fun _ => ?_) (fun _ => ?_))
    | (with_reducible refine only_foldl ?_ (fun _ _ => ?_))
    | decide
    | (dsimp only)
    | split)

theorem State.issueOne_only {a1 : _} {a2 : _} {a3 : _} {a4 : _} {a5 : _} {a6 : _} {a7 : _} (h : Only m s t) (hm : 1024 &&& m = 1024) :
    Only m s (t.issueOne a1 a2 a3 a4 a5 a6 a7) := by
  refine h.trans (Only.mono (m := 1024) ?_ hm)
  unfold State.issueOne
  repeat' (first
    | (with_reducible exact Only.refl _ _)
    | (with_reducible refine State.setStream_only ?_ ?_)
    | (with_reducible refine State.place_only ?_ ?_)
    | (with_reducible refine State.countSkip_only ?_ ?_)
    | (with_reducible refine only_ite (fun _ => ?_) (fun _ => ?_))
    | (with_reducible refine only_foldl ?_ (fun _ _ => ?_))
    | decide
    | (dsimp only)
    | split)

theorem State.countSelf_only {a1 : _} (h : Only m s t) (hm : 8 &&& m = 8) :
    Only m s (t.countSelf a1) := by
  refine h.trans (Only.mono (m := 8) ?_ hm)
  unfold State.countSelf
  repeat' (first
    | (with_reducible exact Only.refl _ _)
    | (with_reducible refine State.setSpare_only ?_ ?_)
    | (with_reducible refine only_ite (fun _ => ?_) (fun _ => ?_))
    | (with_reducible refine only_foldl ?_ (fun _ _ => ?_))
    | decide
    | (dsimp only)
    | split)

theorem State.issueCapt_only {a1 : _} {a2 : _} {a3 : _} (h : Only m s t) (hm : 17408 &&& m = 17408) :
    Only m s (t.issueCapt a1 a2 a3) := by
  refine h.trans (Only.mono (m := 17408) ?_ hm)
  unfold State.issueCapt
  repeat' (first
    | (with_reducible exact Only.refl _ _)
    | (with_reducible refine State.setSlot_only ?_ ?_)
    | (with_reducible refine State.issueOne_only ?_ ?_)
    | (with_reducible refine only_ite (fun _ => ?_) (fun _ => ?_))
    | (with_reducible refine only_foldl ?_ (fun _ _ => ?_))
    | decide
    | (dsimp only)
    | split)

theorem State.captLeave_only {a1 : _} (h : Only m s t) (hm : 10502144 &&& m = 10502144) :
    Only m s (t.captLeave a1) := by
  refine h.trans (Only.mono (m := 10502144) ?_ hm)
  unfold State.captLeave
  repeat' (first
    | (with_reducible exact Only.refl _ _)
    | (with_reducible refine State.captEnd_only ?_ ?_)
    | (with_reducible refine only_ite (fun _ => ?_) (fun _ => ?_))
    | (with_reducible refine only_foldl ?_ (fun _ _ => ?_))
    | decide
    | (dsimp only)
    | split)

theorem State.issueAll_only {a1 : _} {a2 : _} {a3 : _} {a4 : _} (h : Only m s t) (hm : 10636296 &&& m = 10636296) :
    Only m s (t.issueAll a1 a2 a3 a4) := by
  refine h.trans (Only.mono (m := 10636296) ?_ hm)
  unfold State.issueAll
  repeat' (first
    | (with_reducible exact Only.refl _ _)
    | (with_reducible refine State.captLeave_only ?_ ?_)
    | (with_reducible refine State.setEng_only ?_ ?_)
    | (with_reducible refine State.setAcct_only ?_ ?_)
    | (with_reducible refine State.setBal_only ?_ ?_)
    | (with_reducible refine State.countSelf_only ?_ ?_)
    | (with_reducible refine State.issueCapt_only ?_ ?_)
    | (with_reducible refine State.issueOne_only ?_ ?_)
    | (with_reducible refine only_ite (fun _ => ?_) (fun _ => ?_))
    | (with_reducible refine only_foldl ?_ (fun _ _ => ?_))
    | decide
    | (dsimp only)
    | split)

theorem State.ev57_only {a1 : _} (h : Only m s t) (hm : 8388608 &&& m = 8388608) :
    Only m s (t.ev57 a1) := by
  refine h.trans (Only.mono (m := 8388608) ?_ hm)
  unfold State.ev57
  repeat' (first
    | (with_reducible exact Only.refl _ _)
    | (with_reducible refine State.raise_only ?_ ?_)
    | (with_reducible refine only_ite (fun _ => ?_) (fun _ => ?_))
    | (with_reducible refine only_foldl ?_ (fun _ _ => ?_))
    | decide
    | (dsimp only)
    | split)

theorem State.guardCheck_only {a1 : _} {a2 : _} (h : Only m s t) (hm : 8389632 &&& m = 8389632) :
    Only m s (t.guardCheck a1 a2) := by
  refine h.trans (Only.mono (m := 8389632) ?_ hm)
  unfold State.guardCheck
  repeat' (first
    | (with_reducible exact Only.refl _ _)
    | (with_reducible refine State.setEng_only ?_ ?_)
    | (with_reducible refine State.ev57_only ?_ ?_)
    | (with_reducible refine only_ite (fun _ => ?_) (fun _ => ?_))
    | (with_reducible refine only_foldl ?_ (fun _ _ => ?_))
    | decide
    | (dsimp only)
    | split)

theorem State.guardSecond_only (h : Only m s t) (hm : 8389632 &&& m = 8389632) :
    Only m s (t.guardSecond) := by
  refine h.trans (Only.mono (m := 8389632) ?_ hm)
  unfold State.guardSecond
  repeat' (first
    | (with_reducible exact Only.refl _ _)
    | (with_reducible refine State.setEng_only ?_ ?_)
    | (with_reducible refine State.ev57_only ?_ ?_)
    | (with_reducible refine only_ite (fun _ => ?_) (fun _ => ?_))
    | (with_reducible refine only_foldl ?_ (fun _ _ => ?_))
    | decide
    | (dsimp only)
    | split)

theorem State.applyAdds_only {a1 : _} {a2 : _} {a3 : _} {a4 : _} (h : Only m s t) (hm : 11076608 &&& m = 11076608) :
    Only m s (t.applyAdds a1 a2 a3 a4) := by
  refine h.trans (Only.mono (m := 11076608) ?_ hm)
  unfold State.applyAdds
  repeat' (first
    | (with_reducible exact Only.refl _ _)
    | (with_reducible refine State.seqAdd_only ?_ ?_)
    | (with_reducible refine only_ite (fun _ => ?_) (fun _ => ?_))
    | (with_reducible refine only_foldl ?_ (fun _ _ => ?_))
    | decide
    | (dsimp only)
    | split)

theorem State.cpCommitWith_only {a1 : _} (h : Only m s t) (hm : 381680697 &&& m = 381680697) :
    Only m s (t.cpCommitWith a1) := by
  refine h.trans (Only.mono (m := 381680697) ?_ hm)
  unfold State.cpCommitWith
  repeat' (first
    | (with_reducible exact Only.refl _ _)
    | (with_reducible refine State.setStream_only ?_ ?_)
    | (with_reducible refine State.applyAdds_only ?_ ?_)
    | (with_reducible refine State.atEpoch_only ?_ ?_)
    | (with_reducible refine State.publish_only ?_ ?_)
    | (with_reducible refine State.contribute_only ?_ ?_)
    | (with_reducible refine State.unitsGate_only ?_ ?_)
    | (with_reducible refine only_ite (fun _ => ?_) (fun _ => ?_))
    | (with_reducible refine only_foldl ?_ (fun _ _ => ?_))
    | decide
    | (dsimp only)
    | split)

theorem State.passClaim_only {a1 : _} {a2 : _} (h : Only m s t) (hm : 1024 &&& m = 1024) :
    Only m s (t.passClaim a1 a2) := by
  refine h.trans (Only.mono (m := 1024) ?_ hm)
  unfold State.passClaim
  repeat' (first
    | (with_reducible exact Only.refl _ _)
    | (with_reducible refine State.setStream_only ?_ ?_)
    | (with_reducible refine only_ite (fun _ => ?_) (fun _ => ?_))
    | (with_reducible refine only_foldl ?_ (fun _ _ => ?_))
    | decide
    | (dsimp only)
    | split)

theorem State.cpSkip_only {a1 : _} (h : Only m s t) (hm : 381353017 &&& m = 381353017) :
    Only m s (t.cpSkip a1) := by
  refine h.trans (Only.mono (m := 381353017) ?_ hm)
  unfold State.cpSkip
  repeat' (first
    | (with_reducible exact Only.refl _ _)
    | (with_reducible refine State.setStream_only ?_ ?_)
    | (with_reducible refine State.atEpoch_only ?_ ?_)
    | (with_reducible refine State.publish_only ?_ ?_)
    | (with_reducible refine only_ite (fun _ => ?_) (fun _ => ?_))
    | (with_reducible refine only_foldl ?_ (fun _ _ => ?_))
    | decide
    | (dsimp only)
    | split)

theorem State.cpCommit_only {a1 : _} {a2 : _} {a3 : _} (h : Only m s t) (hm : 381680697 &&& m = 381680697) :
    Only m s (t.cpCommit a1 a2 a3) := by
  refine h.trans (Only.mono (m := 381680697) ?_ hm)
  unfold State.cpCommit
  repeat' (first
    | (with_reducible exact Only.refl _ _)
    | (with_reducible refine State.passClaim_only ?_ ?_)
    | (with_reducible refine State.setEng_only ?_ ?_)
    | (with_reducible refine State.cpCommitWith_only ?_ ?_)
    | (with_reducible refine only_ite (fun _ => ?_) (fun _ => ?_))
    | (with_reducible refine only_foldl ?_ (fun _ _ => ?_))
    | decide
    | (dsimp only)
    | split)

theorem State.orphan_only {a1 : _} (h : Only m s t) (hm : 381680697 &&& m = 381680697) :
    Only m s (t.orphan a1) := by
  refine h.trans (Only.mono (m := 381680697) ?_ hm)
  unfold State.orphan
  repeat' (first
    | (with_reducible exact Only.refl _ _)
    | (with_reducible refine State.cpCommit_only ?_ ?_)
    | (with_reducible refine State.passClaim_only ?_ ?_)
    | (with_reducible refine State.cpSkip_only ?_ ?_)
    | (with_reducible refine only_ite (fun _ => ?_) (fun _ => ?_))
    | (with_reducible refine only_foldl ?_ (fun _ _ => ?_))
    | decide
    | (dsimp only)
    | split)

theorem State.orphans_only (h : Only m s t) (hm : 381680697 &&& m = 381680697) :
    Only m s (t.orphans) := by
  refine h.trans (Only.mono (m := 381680697) ?_ hm)
  unfold State.orphans
  repeat' (first
    | (with_reducible exact Only.refl _ _)
    | (with_reducible refine State.orphan_only ?_ ?_)
    | (with_reducible refine only_ite (fun _ => ?_) (fun _ => ?_))
    | (with_reducible refine only_foldl ?_ (fun _ _ => ?_))
    | decide
    | (dsimp only)
    | split)

theorem State.cpCommits_only {a1 : _} (h : Only m s t) (hm : 381680697 &&& m = 381680697) :
    Only m s (t.cpCommits a1) := by
  refine h.trans (Only.mono (m := 381680697) ?_ hm)
  unfold State.cpCommits
  repeat' (first
    | (with_reducible exact Only.refl _ _)
    | (with_reducible refine State.cpCommit_only ?_ ?_)
    | (with_reducible refine only_ite (fun _ => ?_) (fun _ => ?_))
    | (with_reducible refine only_foldl ?_ (fun _ _ => ?_))
    | decide
    | (dsimp only)
    | split)

theorem State.setEngine_only {a1 : _} {a2 : _} (h : Only m s t) (hm : 1024 &&& m = 1024) :
    Only m s (t.setEngine a1 a2) := by
  refine h.trans (Only.mono (m := 1024) ?_ hm)
  unfold State.setEngine
  repeat' (first
    | (with_reducible exact Only.refl _ _)
    | (with_reducible refine State.setEng_only ?_ ?_)
    | (with_reducible refine only_ite (fun _ => ?_) (fun _ => ?_))
    | (with_reducible refine only_foldl ?_ (fun _ _ => ?_))
    | decide
    | (dsimp only)
    | split)

theorem State.setCluster_only {a1 : _} {a2 : _} (h : Only m s t) (hm : 1024 &&& m = 1024) :
    Only m s (t.setCluster a1 a2) := by
  refine h.trans (Only.mono (m := 1024) ?_ hm)
  unfold State.setCluster
  repeat' (first
    | (with_reducible exact Only.refl _ _)
    | (with_reducible refine State.setEng_only ?_ ?_)
    | (with_reducible refine only_ite (fun _ => ?_) (fun _ => ?_))
    | (with_reducible refine only_foldl ?_ (fun _ _ => ?_))
    | decide
    | (dsimp only)
    | split)

theorem State.setEntry_only {a1 : _} {a2 : _} (h : Only m s t) (hm : 1024 &&& m = 1024) :
    Only m s (t.setEntry a1 a2) := by
  refine h.trans (Only.mono (m := 1024) ?_ hm)
  unfold State.setEntry
  repeat' (first
    | (with_reducible exact Only.refl _ _)
    | (with_reducible refine State.setEng_only ?_ ?_)
    | (with_reducible refine only_ite (fun _ => ?_) (fun _ => ?_))
    | (with_reducible refine only_foldl ?_ (fun _ _ => ?_))
    | decide
    | (dsimp only)
    | split)

theorem State.finish_only {a1 : _} {a2 : _} (h : Only m s t) (hm : 1025 &&& m = 1025) :
    Only m s (t.finish a1 a2) := by
  refine h.trans (Only.mono (m := 1025) ?_ hm)
  unfold State.finish
  repeat' (first
    | (with_reducible exact Only.refl _ _)
    | (with_reducible refine State.setEntry_only ?_ ?_)
    | (with_reducible refine State.setEngine_only ?_ ?_)
    | (with_reducible refine State.advance_only ?_ ?_)
    | (with_reducible refine only_ite (fun _ => ?_) (fun _ => ?_))
    | (with_reducible refine only_foldl ?_ (fun _ _ => ?_))
    | decide
    | (dsimp only)
    | split)

theorem State.suspend_only {a1 : _} {a2 : _} {a3 : _} (h : Only m s t) (hm : 1024 &&& m = 1024) :
    Only m s (t.suspend a1 a2 a3) := by
  refine h.trans (Only.mono (m := 1024) ?_ hm)
  unfold State.suspend
  repeat' (first
    | (with_reducible exact Only.refl _ _)
    | (with_reducible refine State.setEntry_only ?_ ?_)
    | (with_reducible refine State.setEngine_only ?_ ?_)
    | (with_reducible refine only_ite (fun _ => ?_) (fun _ => ?_))
    | (with_reducible refine only_foldl ?_ (fun _ _ => ?_))
    | decide
    | (dsimp only)
    | split)

theorem State.gatePass_only {a1 : _} {a2 : _} {a3 : _} {a4 : _} {a5 : _} (h : Only m s t) (hm : 263169 &&& m = 263169) :
    Only m s (t.gatePass a1 a2 a3 a4 a5) := by
  refine h.trans (Only.mono (m := 263169) ?_ hm)
  unfold State.gatePass
  repeat' (first
    | (with_reducible exact Only.refl _ _)
    | (with_reducible refine State.setEntry_only ?_ ?_)
    | (with_reducible refine State.atEpoch_only ?_ ?_)
    | (with_reducible refine State.setEngine_only ?_ ?_)
    | (with_reducible refine State.contribute_only ?_ ?_)
    | (with_reducible refine only_ite (fun _ => ?_) (fun _ => ?_))
    | (with_reducible refine only_foldl ?_ (fun _ _ => ?_))
    | decide
    | (dsimp only)
    | split)

theorem State.go_only {a1 : _} {a2 : _} (h : Only m s t) (hm : 263169 &&& m = 263169) :
    Only m s (t.go a1 a2) := by
  refine h.trans (Only.mono (m := 263169) ?_ hm)
  unfold State.go
  repeat' (first
    | (with_reducible exact Only.refl _ _)
    | (with_reducible refine State.atEpoch_only ?_ ?_)
    | (with_reducible refine State.finish_only ?_ ?_)
    | (with_reducible refine State.suspend_only ?_ ?_)
    | (with_reducible refine State.gatePass_only ?_ ?_)
    | (with_reducible refine State.setEngine_only ?_ ?_)
    | (with_reducible refine only_ite (fun _ => ?_) (fun _ => ?_))
    | (with_reducible refine only_foldl ?_ (fun _ _ => ?_))
    | decide
    | (dsimp only)
    | split)

theorem State.claim_only {a1 : _} {a2 : _} {a3 : _} {a4 : _} (h : Only m s t) (hm : 263169 &&& m = 263169) :
    Only m s (t.claim a1 a2 a3 a4) := by
  refine h.trans (Only.mono (m := 263169) ?_ hm)
  unfold State.claim
  repeat' (first
    | (with_reducible exact Only.refl _ _)
    | (with_reducible refine State.setEntry_only ?_ ?_)
    | (with_reducible refine State.setStream_only ?_ ?_)
    | (with_reducible refine State.setEng_only ?_ ?_)
    | (with_reducible refine State.go_only ?_ ?_)
    | (with_reducible refine only_ite (fun _ => ?_) (fun _ => ?_))
    | (with_reducible refine only_foldl ?_ (fun _ _ => ?_))
    | decide
    | (dsimp only)
    | split)

theorem State.resume_only {a1 : _} (h : Only m s t) (hm : 263169 &&& m = 263169) :
    Only m s (t.resume a1) := by
  refine h.trans (Only.mono (m := 263169) ?_ hm)
  unfold State.resume
  repeat' (first
    | (with_reducible exact Only.refl _ _)
    | (with_reducible refine State.setEntry_only ?_ ?_)
    | (with_reducible refine State.setEngine_only ?_ ?_)
    | (with_reducible refine State.go_only ?_ ?_)
    | (with_reducible refine only_ite (fun _ => ?_) (fun _ => ?_))
    | (with_reducible refine only_foldl ?_ (fun _ _ => ?_))
    | decide
    | (dsimp only)
    | split)

theorem State.addNext_only {a1 : _} (h : Only m s t) (hm : 11076609 &&& m = 11076609) :
    Only m s (t.addNext a1) := by
  refine h.trans (Only.mono (m := 11076609) ?_ hm)
  unfold State.addNext
  repeat' (first
    | (with_reducible exact Only.refl _ _)
    | (with_reducible refine State.seqAdd_only ?_ ?_)
    | (with_reducible refine State.setEntry_only ?_ ?_)
    | (with_reducible refine State.atEpoch_only ?_ ?_)
    | (with_reducible refine State.setEngine_only ?_ ?_)
    | (with_reducible refine only_ite (fun _ => ?_) (fun _ => ?_))
    | (with_reducible refine only_foldl ?_ (fun _ _ => ?_))
    | decide
    | (dsimp only)
    | split)

theorem State.gateAdvance_only {a1 : _} (h : Only m s t) (hm : 381418553 &&& m = 381418553) :
    Only m s (t.gateAdvance a1) := by
  refine h.trans (Only.mono (m := 381418553) ?_ hm)
  unfold State.gateAdvance
  repeat' (first
    | (with_reducible exact Only.refl _ _)
    | (with_reducible refine State.setStream_only ?_ ?_)
    | (with_reducible refine State.atEpoch_only ?_ ?_)
    | (with_reducible refine State.finish_only ?_ ?_)
    | (with_reducible refine State.publish_only ?_ ?_)
    | (with_reducible refine State.unitsGate_only ?_ ?_)
    | (with_reducible refine only_ite (fun _ => ?_) (fun _ => ?_))
    | (with_reducible refine only_foldl ?_ (fun _ _ => ?_))
    | decide
    | (dsimp only)
    | split)

theorem State.commitOne_only {a1 : _} (h : Only m s t) (hm : 381418553 &&& m = 381418553) :
    Only m s (t.commitOne a1) := by
  refine h.trans (Only.mono (m := 381418553) ?_ hm)
  unfold State.commitOne
  repeat' (first
    | (with_reducible exact Only.refl _ _)
    | (with_reducible refine State.addNext_only ?_ ?_)
    | (with_reducible refine State.gateAdvance_only ?_ ?_)
    | (with_reducible refine only_ite (fun _ => ?_) (fun _ => ?_))
    | (with_reducible refine only_foldl ?_ (fun _ _ => ?_))
    | decide
    | (dsimp only)
    | split)

theorem State.commitAll_only (h : Only m s t) (hm : 381418553 &&& m = 381418553) :
    Only m s (t.commitAll) := by
  refine h.trans (Only.mono (m := 381418553) ?_ hm)
  unfold State.commitAll
  repeat' (first
    | (with_reducible exact Only.refl _ _)
    | (with_reducible refine State.commitOne_only ?_ ?_)
    | (with_reducible refine only_ite (fun _ => ?_) (fun _ => ?_))
    | (with_reducible refine only_foldl ?_ (fun _ _ => ?_))
    | decide
    | (dsimp only)
    | split)

theorem State.giveBack_only {k : Nat} (h : Only m s t) (hm : 1024 &&& m = 1024) :
    Only m s (t.giveBack k).1 := by
  refine h.trans (Only.mono (m := 1024) ?_ hm)
  unfold State.giveBack
  dsimp only
  refine State.setEng_only (State.setEngine_only (only_foldl (Only.refl _ _) (fun _ _ => ?_)) (by decide)) (by decide)
  exact State.setEntry_only (Only.refl _ _) (by decide)

theorem State.resetCluster_only {a1 a2 : Nat} (h : Only m s t) (hm : 8389632 &&& m = 8389632) : Only m s (t.resetCluster a1 a2) := by
  have sub : ∀ k, k &&& 8389632 = k → k &&& m = k := by
    intro k hk
    rw [← hk, Nat.and_assoc, hm]
  have w : ∀ (l : List Nat) (p : State × Nat), Only m s p.1 → Only m s (l.foldl (fun (a : State × Nat) k =>
      let g := a.1.giveBack k
      (g.1.setEngine k (fun x => { x with st := if x.st = .inService ∨ x.st = .restarting then .restarting else x.st }), a.2 + g.2))
      p).1 := by
    intro l
    induction l with
    | nil => exact fun _ hp => hp
    | cons k r ih => exact fun p hp => ih _ (State.setEngine_only (State.giveBack_only hp (sub _ (by decide))) (sub _ (by decide)))
  unfold State.resetCluster
  exact State.raise_only (State.setCluster_only (w _ (t, 0) h) (sub _ (by decide))) (sub _ (by decide))

theorem State.resetEngine_only {a1 : _} {a2 : _} (h : Only m s t) (hm : 8389632 &&& m = 8389632) :
    Only m s (t.resetEngine a1 a2) := by
  refine h.trans (Only.mono (m := 8389632) ?_ hm)
  unfold State.resetEngine
  repeat' (first
    | (with_reducible exact Only.refl _ _)
    | (with_reducible refine State.giveBack_only ?_ ?_)
    | (with_reducible refine State.raise_only ?_ ?_)
    | (with_reducible refine State.resetCluster_only ?_ ?_)
    | (with_reducible refine State.setEngine_only ?_ ?_)
    | (with_reducible refine only_ite (fun _ => ?_) (fun _ => ?_))
    | (with_reducible refine only_foldl ?_ (fun _ _ => ?_))
    | decide
    | (dsimp only)
    | split)

theorem State.engineBack_only {a1 : _} {a2 : _} (h : Only m s t) (hm : 1024 &&& m = 1024) :
    Only m s (t.engineBack a1 a2) := by
  refine h.trans (Only.mono (m := 1024) ?_ hm)
  unfold State.engineBack
  repeat' (first
    | (with_reducible exact Only.refl _ _)
    | (with_reducible refine State.setEngine_only ?_ ?_)
    | (with_reducible refine only_ite (fun _ => ?_) (fun _ => ?_))
    | (with_reducible refine only_foldl ?_ (fun _ _ => ?_))
    | decide
    | (dsimp only)
    | split)

theorem State.clusterBack_only {a1 : _} {a2 : _} (h : Only m s t) (hm : 8389632 &&& m = 8389632) :
    Only m s (t.clusterBack a1 a2) := by
  refine h.trans (Only.mono (m := 8389632) ?_ hm)
  unfold State.clusterBack
  repeat' (first
    | (with_reducible exact Only.refl _ _)
    | (with_reducible refine State.setCluster_only ?_ ?_)
    | (with_reducible refine State.ev58_only ?_ ?_)
    | (with_reducible refine State.engineBack_only ?_ ?_)
    | (with_reducible refine only_ite (fun _ => ?_) (fun _ => ?_))
    | (with_reducible refine only_foldl ?_ (fun _ _ => ?_))
    | decide
    | (dsimp only)
    | split)

theorem State.drained_only {a1 : _} (h : Only m s t) (hm : 1024 &&& m = 1024) :
    Only m s (t.drained a1) := by
  refine h.trans (Only.mono (m := 1024) ?_ hm)
  unfold State.drained
  repeat' (first
    | (with_reducible exact Only.refl _ _)
    | (with_reducible refine State.setCluster_only ?_ ?_)
    | (with_reducible refine State.setEngine_only ?_ ?_)
    | (with_reducible refine only_ite (fun _ => ?_) (fun _ => ?_))
    | (with_reducible refine only_foldl ?_ (fun _ _ => ?_))
    | decide
    | (dsimp only)
    | split)

theorem State.engineOff_only {a1 : _} (h : Only m s t) (hm : 1024 &&& m = 1024) :
    Only m s (t.engineOff a1) := by
  refine h.trans (Only.mono (m := 1024) ?_ hm)
  unfold State.engineOff
  repeat' (first
    | (with_reducible exact Only.refl _ _)
    | (with_reducible refine State.setEngine_only ?_ ?_)
    | (with_reducible refine State.drained_only ?_ ?_)
    | (with_reducible refine only_ite (fun _ => ?_) (fun _ => ?_))
    | (with_reducible refine only_foldl ?_ (fun _ _ => ?_))
    | decide
    | (dsimp only)
    | split)

theorem State.engineReadmit_only {a1 : _} (h : Only m s t) (hm : 8389632 &&& m = 8389632) :
    Only m s (t.engineReadmit a1) := by
  refine h.trans (Only.mono (m := 8389632) ?_ hm)
  unfold State.engineReadmit
  repeat' (first
    | (with_reducible exact Only.refl _ _)
    | (with_reducible refine State.giveBack_only ?_ ?_)
    | (with_reducible refine State.raise_only ?_ ?_)
    | (with_reducible refine State.setEngine_only ?_ ?_)
    | (with_reducible refine only_ite (fun _ => ?_) (fun _ => ?_))
    | (with_reducible refine only_foldl ?_ (fun _ _ => ?_))
    | decide
    | (dsimp only)
    | split)

theorem State.clusterOff_only {a1 : _} (h : Only m s t) (hm : 1024 &&& m = 1024) :
    Only m s (t.clusterOff a1) := by
  refine h.trans (Only.mono (m := 1024) ?_ hm)
  unfold State.clusterOff
  repeat' (first
    | (with_reducible exact Only.refl _ _)
    | (with_reducible refine State.setCluster_only ?_ ?_)
    | (with_reducible refine State.engineOff_only ?_ ?_)
    | (with_reducible refine State.drained_only ?_ ?_)
    | (with_reducible refine only_ite (fun _ => ?_) (fun _ => ?_))
    | (with_reducible refine only_foldl ?_ (fun _ _ => ?_))
    | decide
    | (dsimp only)
    | split)

theorem State.clusterReadmit_only {a1 : _} (h : Only m s t) (hm : 8389632 &&& m = 8389632) :
    Only m s (t.clusterReadmit a1) := by
  refine h.trans (Only.mono (m := 8389632) ?_ hm)
  unfold State.clusterReadmit
  repeat' (first
    | (with_reducible exact Only.refl _ _)
    | (with_reducible refine State.setCluster_only ?_ ?_)
    | (with_reducible refine State.resetCluster_only ?_ ?_)
    | (with_reducible refine State.setEngine_only ?_ ?_)
    | (with_reducible refine only_ite (fun _ => ?_) (fun _ => ?_))
    | (with_reducible refine only_foldl ?_ (fun _ _ => ?_))
    | decide
    | (dsimp only)
    | split)

theorem State.evaluate_only {a1 : _} (h : Only m s t) (hm : 8389632 &&& m = 8389632) :
    Only m s (t.evaluate a1) := by
  refine h.trans (Only.mono (m := 8389632) ?_ hm)
  unfold State.evaluate
  repeat' (first
    | (with_reducible exact Only.refl _ _)
    | (with_reducible refine State.setEng_only ?_ ?_)
    | (with_reducible refine State.ev57_only ?_ ?_)
    | (with_reducible refine only_ite (fun _ => ?_) (fun _ => ?_))
    | (with_reducible refine only_foldl ?_ (fun _ _ => ?_))
    | decide
    | (dsimp only)
    | split)

theorem State.view_only {a1 : _} (h : Only m s t) (hm : 1 &&& m = 1) :
    Only m s (t.view a1) := by
  refine h.trans (Only.mono (m := 1) ?_ hm)
  unfold State.view
  repeat' (first
    | (with_reducible exact Only.refl _ _)
    | (with_reducible refine only_ite (fun _ => ?_) (fun _ => ?_))
    | (with_reducible refine only_foldl ?_ (fun _ _ => ?_))
    | decide
    | (dsimp only)
    | ((with_reducible refine only_set_dict ?_ (by decide)); first | (with_reducible exact Only.refl _ _) | (with_reducible refine only_ite (fun _ => ?_) (fun _ => ?_)) | (with_reducible refine only_foldl ?_ (fun _ _ => ?_)))
    | split)

theorem State.orView_only {u : State} (h : Only m s t) (hm : 1 &&& m = 1) : Only m s (u.orView t) := by
  unfold State.orView
  exact only_foldl h (fun _ _ => State.setCfg_only (Only.refl _ _) hm)

theorem State.ev24_only {a1 : _} {a2 : _} {a3 : _} (h : Only m s t) (hm : 8388608 &&& m = 8388608) :
    Only m s (t.ev24 a1 a2 a3) := by
  refine h.trans (Only.mono (m := 8388608) ?_ hm)
  unfold State.ev24
  repeat' (first
    | (with_reducible exact Only.refl _ _)
    | (with_reducible refine State.raise_only ?_ ?_)
    | (with_reducible refine only_ite (fun _ => ?_) (fun _ => ?_))
    | (with_reducible refine only_foldl ?_ (fun _ _ => ?_))
    | decide
    | (dsimp only)
    | split)

theorem State.ev25_only {a1 : _} {a2 : _} (h : Only m s t) (hm : 8388608 &&& m = 8388608) :
    Only m s (t.ev25 a1 a2) := by
  refine h.trans (Only.mono (m := 8388608) ?_ hm)
  unfold State.ev25
  repeat' (first
    | (with_reducible exact Only.refl _ _)
    | (with_reducible refine State.raise_only ?_ ?_)
    | (with_reducible refine only_ite (fun _ => ?_) (fun _ => ?_))
    | (with_reducible refine only_foldl ?_ (fun _ _ => ?_))
    | decide
    | (dsimp only)
    | split)

theorem State.retire_only {a1 : _} (h : Only m s t) (hm : 2097157 &&& m = 2097157) :
    Only m s (t.retire a1) := by
  refine h.trans (Only.mono (m := 2097157) ?_ hm)
  unfold State.retire
  repeat' (first
    | (with_reducible exact Only.refl _ _)
    | (with_reducible refine State.setCfg_only ?_ ?_)
    | (with_reducible refine State.storeTry_only ?_ ?_)
    | (with_reducible refine State.setMod_only ?_ ?_)
    | (with_reducible refine only_ite (fun _ => ?_) (fun _ => ?_))
    | (with_reducible refine only_foldl ?_ (fun _ _ => ?_))
    | decide
    | (dsimp only)
    | ((with_reducible refine only_set_dict ?_ (by decide)); first | (with_reducible exact Only.refl _ _) | (with_reducible refine State.setCfg_only ?_ ?_) | (with_reducible refine State.storeTry_only ?_ ?_) | (with_reducible refine State.setMod_only ?_ ?_) | (with_reducible refine only_ite (fun _ => ?_) (fun _ => ?_)) | (with_reducible refine only_foldl ?_ (fun _ _ => ?_)))
    | ((with_reducible refine only_set_mods ?_ (by decide)); first | (with_reducible exact Only.refl _ _) | (with_reducible refine State.setCfg_only ?_ ?_) | (with_reducible refine State.storeTry_only ?_ ?_) | (with_reducible refine State.setMod_only ?_ ?_) | (with_reducible refine only_ite (fun _ => ?_) (fun _ => ?_)) | (with_reducible refine only_foldl ?_ (fun _ _ => ?_)))
    | ((with_reducible refine only_set_nvm ?_ ?_ (by decide)); rotate_left; (first | exact ⟨fun w => cellsSet_wf w _ _⟩ | exact ⟨fun w => w, fun _ p => List.mem_append_left _ p, fun _ => Nat.le_refl _⟩ | exact .of rfl rfl rfl | exact .of rfl rfl | exact .of rfl | exact Nat.le_refl _); first | (with_reducible exact Only.refl _ _) | (with_reducible refine State.setCfg_only ?_ ?_) | (with_reducible refine State.storeTry_only ?_ ?_) | (with_reducible refine State.setMod_only ?_ ?_) | (with_reducible refine only_ite (fun _ => ?_) (fun _ => ?_)) | (with_reducible refine only_foldl ?_ (fun _ _ => ?_)))
    | split)

theorem State.park_only {a1 : _} {a2 : _} (h : Only m s t) (hm : 8 &&& m = 8) :
    Only m s (t.park a1 a2) := by
  refine h.trans (Only.mono (m := 8) ?_ hm)
  unfold State.park
  repeat' (first
    | (with_reducible exact Only.refl _ _)
    | (with_reducible refine State.setSpare_only ?_ ?_)
    | (with_reducible refine only_ite (fun _ => ?_) (fun _ => ?_))
    | (with_reducible refine only_foldl ?_ (fun _ _ => ?_))
    | decide
    | (dsimp only)
    | split)

theorem State.connect_only {a1 : _} {a2 : _} {a3 : _} (h : Only m s t) (hm : 8 &&& m = 8) :
    Only m s (t.connect a1 a2 a3) := by
  refine h.trans (Only.mono (m := 8) ?_ hm)
  unfold State.connect
  repeat' (first
    | (with_reducible exact Only.refl _ _)
    | (with_reducible refine State.setSpare_only ?_ ?_)
    | (with_reducible refine only_ite (fun _ => ?_) (fun _ => ?_))
    | (with_reducible refine only_foldl ?_ (fun _ _ => ?_))
    | decide
    | (dsimp only)
    | split)

theorem State.takeFailed_only {a1 : _} {a2 : _} (h : Only m s t) (hm : 8388632 &&& m = 8388632) :
    Only m s (t.takeFailed a1 a2) := by
  refine h.trans (Only.mono (m := 8388632) ?_ hm)
  unfold State.takeFailed
  repeat' (first
    | (with_reducible exact Only.refl _ _)
    | (with_reducible refine State.setSpare_only ?_ ?_)
    | (with_reducible refine State.setChan_only ?_ ?_)
    | (with_reducible refine State.ev24_only ?_ ?_)
    | (with_reducible refine only_ite (fun _ => ?_) (fun _ => ?_))
    | (with_reducible refine only_foldl ?_ (fun _ _ => ?_))
    | decide
    | (dsimp only)
    | split)

theorem State.spareFree_only {a1 : _} {a2 : _} (h : Only m s t) (hm : 8388632 &&& m = 8388632) :
    Only m s (t.spareFree a1 a2) := by
  refine h.trans (Only.mono (m := 8388632) ?_ hm)
  unfold State.spareFree
  repeat' (first
    | (with_reducible exact Only.refl _ _)
    | (with_reducible refine State.takeFailed_only ?_ ?_)
    | (with_reducible refine State.park_only ?_ ?_)
    | (with_reducible refine only_ite (fun _ => ?_) (fun _ => ?_))
    | (with_reducible refine only_foldl ?_ (fun _ _ => ?_))
    | decide
    | (dsimp only)
    | split)

theorem State.takeBack_only {a1 : _} {a2 : _} (h : Only m s t) (hm : 9437208 &&& m = 9437208) :
    Only m s (t.takeBack a1 a2) := by
  refine h.trans (Only.mono (m := 9437208) ?_ hm)
  unfold State.takeBack
  repeat' (first
    | (with_reducible exact Only.refl _ _)
    | (with_reducible refine State.setChan_only ?_ ?_)
    | (with_reducible refine State.setCal_only ?_ ?_)
    | (with_reducible refine State.spareFree_only ?_ ?_)
    | (with_reducible refine only_ite (fun _ => ?_) (fun _ => ?_))
    | (with_reducible refine only_foldl ?_ (fun _ _ => ?_))
    | decide
    | (dsimp only)
    | split)

theorem State.beginReturn_only {a1 : _} (h : Only m s t) (hm : 8 &&& m = 8) :
    Only m s (t.beginReturn a1) := by
  refine h.trans (Only.mono (m := 8) ?_ hm)
  unfold State.beginReturn
  repeat' (first
    | (with_reducible exact Only.refl _ _)
    | (with_reducible refine State.setSpare_only ?_ ?_)
    | (with_reducible refine only_ite (fun _ => ?_) (fun _ => ?_))
    | (with_reducible refine only_foldl ?_ (fun _ _ => ?_))
    | decide
    | (dsimp only)
    | split)

theorem State.retireDrift_only {a1 : _} {a2 : _} (h : Only m s t) (hm : 11534381 &&& m = 11534381) :
    Only m s (t.retireDrift a1 a2) := by
  refine h.trans (Only.mono (m := 11534381) ?_ hm)
  unfold State.retireDrift
  repeat' (first
    | (with_reducible exact Only.refl _ _)
    | (with_reducible refine State.retire_only ?_ ?_)
    | (with_reducible refine State.setSpare_only ?_ ?_)
    | (with_reducible refine State.ev25_only ?_ ?_)
    | (with_reducible refine State.ev24_only ?_ ?_)
    | (with_reducible refine State.setCal_only ?_ ?_)
    | (with_reducible refine State.passCheck_only ?_ ?_)
    | (with_reducible refine only_ite (fun _ => ?_) (fun _ => ?_))
    | (with_reducible refine only_foldl ?_ (fun _ _ => ?_))
    | decide
    | (dsimp only)
    | split)

theorem State.driftJudge_only {a1 : _} {a2 : _} (h : Only m s t) (hm : 11534397 &&& m = 11534397) :
    Only m s (t.driftJudge a1 a2) := by
  refine h.trans (Only.mono (m := 11534397) ?_ hm)
  unfold State.driftJudge
  repeat' (first
    | (with_reducible exact Only.refl _ _)
    | (with_reducible refine State.setChan_only ?_ ?_)
    | (with_reducible refine State.setCal_only ?_ ?_)
    | (with_reducible refine State.retireDrift_only ?_ ?_)
    | (with_reducible refine State.beginReturn_only ?_ ?_)
    | (with_reducible refine only_ite (fun _ => ?_) (fun _ => ?_))
    | (with_reducible refine only_foldl ?_ (fun _ _ => ?_))
    | decide
    | (dsimp only)
    | split)

theorem State.ownPairsDone_only {a1 : _} {a2 : _} (h : Only m s t) (hm : 11534397 &&& m = 11534397) :
    Only m s (t.ownPairsDone a1 a2) := by
  refine h.trans (Only.mono (m := 11534397) ?_ hm)
  unfold State.ownPairsDone
  repeat' (first
    | (with_reducible exact Only.refl _ _)
    | (with_reducible refine State.setSpare_only ?_ ?_)
    | (with_reducible refine State.takeBack_only ?_ ?_)
    | (with_reducible refine State.setCal_only ?_ ?_)
    | (with_reducible refine State.retireDrift_only ?_ ?_)
    | (with_reducible refine State.requestLoad_only ?_ ?_)
    | (with_reducible refine only_ite (fun _ => ?_) (fun _ => ?_))
    | (with_reducible refine only_foldl ?_ (fun _ _ => ?_))
    | decide
    | (dsimp only)
    | split)

theorem State.pairSample_only {a1 : _} {a2 : _} {a3 : _} {a4 : _} {a5 : _} (h : Only m s t) (hm : 11534397 &&& m = 11534397) :
    Only m s (t.pairSample a1 a2 a3 a4 a5) := by
  refine h.trans (Only.mono (m := 11534397) ?_ hm)
  unfold State.pairSample
  repeat' (first
    | (with_reducible exact Only.refl _ _)
    | (with_reducible refine State.setSpare_only ?_ ?_)
    | (with_reducible refine State.ownPairsDone_only ?_ ?_)
    | (with_reducible refine only_ite (fun _ => ?_) (fun _ => ?_))
    | (with_reducible refine only_foldl ?_ (fun _ _ => ?_))
    | decide
    | (dsimp only)
    | split)

theorem State.spareFail_only {a1 : _} (h : Only m s t) (hm : 10485789 &&& m = 10485789) :
    Only m s (t.spareFail a1) := by
  refine h.trans (Only.mono (m := 10485789) ?_ hm)
  unfold State.spareFail
  repeat' (first
    | (with_reducible exact Only.refl _ _)
    | (with_reducible refine State.retire_only ?_ ?_)
    | (with_reducible refine State.setSpare_only ?_ ?_)
    | (with_reducible refine State.setChan_only ?_ ?_)
    | (with_reducible refine State.ev25_only ?_ ?_)
    | (with_reducible refine only_ite (fun _ => ?_) (fun _ => ?_))
    | (with_reducible refine only_foldl ?_ (fun _ _ => ?_))
    | decide
    | (dsimp only)
    | split)

theorem State.invalidate_only {a1 : _} {a2 : _} (h : Only m s t) (hm : 16 &&& m = 16) :
    Only m s (t.invalidate a1 a2) := by
  refine h.trans (Only.mono (m := 16) ?_ hm)
  unfold State.invalidate
  repeat' (first
    | (with_reducible exact Only.refl _ _)
    | (with_reducible refine State.setChan_only ?_ ?_)
    | (with_reducible refine only_ite (fun _ => ?_) (fun _ => ?_))
    | (with_reducible refine only_foldl ?_ (fun _ _ => ?_))
    | decide
    | (dsimp only)
    | split)

theorem State.hardFault_only {a1 : _} (h : Only m s t) (hm : 11534397 &&& m = 11534397) :
    Only m s (t.hardFault a1) := by
  refine h.trans (Only.mono (m := 11534397) ?_ hm)
  unfold State.hardFault
  repeat' (first
    | (with_reducible exact Only.refl _ _)
    | (with_reducible refine State.retire_only ?_ ?_)
    | (with_reducible refine State.setSpare_only ?_ ?_)
    | (with_reducible refine State.invalidate_only ?_ ?_)
    | (with_reducible refine State.setChan_only ?_ ?_)
    | (with_reducible refine State.ev25_only ?_ ?_)
    | (with_reducible refine State.takeFailed_only ?_ ?_)
    | (with_reducible refine State.abandon_only ?_ ?_)
    | (with_reducible refine State.stepCheck_only ?_ ?_)
    | (with_reducible refine State.beginReturn_only ?_ ?_)
    | (with_reducible refine only_ite (fun _ => ?_) (fun _ => ?_))
    | (with_reducible refine only_foldl ?_ (fun _ _ => ?_))
    | decide
    | (dsimp only)
    | split)

theorem State.substStart_only {a1 : _} (h : Only m s t) (hm : 24 &&& m = 24) :
    Only m s (t.substStart a1) := by
  refine h.trans (Only.mono (m := 24) ?_ hm)
  unfold State.substStart
  repeat' (first
    | (with_reducible exact Only.refl _ _)
    | (with_reducible refine State.setSpare_only ?_ ?_)
    | (with_reducible refine State.setChan_only ?_ ?_)
    | (with_reducible refine State.connect_only ?_ ?_)
    | (with_reducible refine only_ite (fun _ => ?_) (fun _ => ?_))
    | (with_reducible refine only_foldl ?_ (fun _ _ => ?_))
    | decide
    | (dsimp only)
    | split)

theorem State.substEnd_only {a1 : _} (h : Only m s t) (hm : 24 &&& m = 24) :
    Only m s (t.substEnd a1) := by
  refine h.trans (Only.mono (m := 24) ?_ hm)
  unfold State.substEnd
  repeat' (first
    | (with_reducible exact Only.refl _ _)
    | (with_reducible refine State.setChan_only ?_ ?_)
    | (with_reducible refine State.beginReturn_only ?_ ?_)
    | (with_reducible refine State.park_only ?_ ?_)
    | (with_reducible refine only_ite (fun _ => ?_) (fun _ => ?_))
    | (with_reducible refine only_foldl ?_ (fun _ _ => ?_))
    | decide
    | (dsimp only)
    | split)

theorem State.spareLeave_only {a1 : _} (h : Only m s t) (hm : 8388632 &&& m = 8388632) :
    Only m s (t.spareLeave a1) := by
  refine h.trans (Only.mono (m := 8388632) ?_ hm)
  unfold State.spareLeave
  repeat' (first
    | (with_reducible exact Only.refl _ _)
    | (with_reducible refine State.setSpare_only ?_ ?_)
    | (with_reducible refine State.setChan_only ?_ ?_)
    | (with_reducible refine State.spareFree_only ?_ ?_)
    | (with_reducible refine only_ite (fun _ => ?_) (fun _ => ?_))
    | (with_reducible refine only_foldl ?_ (fun _ _ => ?_))
    | decide
    | (dsimp only)
    | split)

theorem State.laneRetired_only {a1 : _} (h : Only m s t) (hm : 24 &&& m = 24) :
    Only m s (t.laneRetired a1) := by
  refine h.trans (Only.mono (m := 24) ?_ hm)
  unfold State.laneRetired
  repeat' (first
    | (with_reducible exact Only.refl _ _)
    | (with_reducible refine State.setSpare_only ?_ ?_)
    | (with_reducible refine State.setChan_only ?_ ?_)
    | (with_reducible refine State.beginReturn_only ?_ ?_)
    | (with_reducible refine only_ite (fun _ => ?_) (fun _ => ?_))
    | (with_reducible refine only_foldl ?_ (fun _ _ => ?_))
    | decide
    | (dsimp only)
    | split)

theorem State.laneStart_only {a1 : _} (h : Only m s t) (hm : 16 &&& m = 16) :
    Only m s (t.laneStart a1) := by
  refine h.trans (Only.mono (m := 16) ?_ hm)
  unfold State.laneStart
  repeat' (first
    | (with_reducible exact Only.refl _ _)
    | (with_reducible refine State.setChan_only ?_ ?_)
    | (with_reducible refine only_ite (fun _ => ?_) (fun _ => ?_))
    | (with_reducible refine only_foldl ?_ (fun _ _ => ?_))
    | decide
    | (dsimp only)
    | split)

theorem State.laneOn_only {a1 : _} (h : Only m s t) (hm : 1048600 &&& m = 1048600) :
    Only m s (t.laneOn a1) := by
  refine h.trans (Only.mono (m := 1048600) ?_ hm)
  unfold State.laneOn
  repeat' (first
    | (with_reducible exact Only.refl _ _)
    | (with_reducible refine State.laneStart_only ?_ ?_)
    | (with_reducible refine State.laneRetired_only ?_ ?_)
    | (with_reducible refine State.requestLoad_only ?_ ?_)
    | (with_reducible refine only_ite (fun _ => ?_) (fun _ => ?_))
    | (with_reducible refine only_foldl ?_ (fun _ _ => ?_))
    | decide
    | (dsimp only)
    | split)

theorem State.laneStop_only {a1 : _} {a2 : _} (h : Only m s t) (hm : 8388632 &&& m = 8388632) :
    Only m s (t.laneStop a1 a2) := by
  refine h.trans (Only.mono (m := 8388632) ?_ hm)
  unfold State.laneStop
  repeat' (first
    | (with_reducible exact Only.refl _ _)
    | (with_reducible refine State.spareLeave_only ?_ ?_)
    | (with_reducible refine State.setChan_only ?_ ?_)
    | (with_reducible refine only_ite (fun _ => ?_) (fun _ => ?_))
    | (with_reducible refine only_foldl ?_ (fun _ _ => ?_))
    | decide
    | (dsimp only)
    | split)

theorem State.lanePreset_only {a1 : _} {a2 : _} (h : Only m s t) (hm : 16 &&& m = 16) :
    Only m s (t.lanePreset a1 a2) := by
  refine h.trans (Only.mono (m := 16) ?_ hm)
  unfold State.lanePreset
  repeat' (first
    | (with_reducible exact Only.refl _ _)
    | (with_reducible refine State.setChan_only ?_ ?_)
    | (with_reducible refine only_ite (fun _ => ?_) (fun _ => ?_))
    | (with_reducible refine only_foldl ?_ (fun _ _ => ?_))
    | decide
    | (dsimp only)
    | split)

theorem State.groupStart_only {a1 : _} (h : Only m s t) (hm : 768 &&& m = 768) :
    Only m s (t.groupStart a1) := by
  refine h.trans (Only.mono (m := 768) ?_ hm)
  unfold State.groupStart
  repeat' (first
    | (with_reducible exact Only.refl _ _)
    | (with_reducible refine State.setGroup_only ?_ ?_)
    | (with_reducible refine only_ite (fun _ => ?_) (fun _ => ?_))
    | (with_reducible refine only_foldl ?_ (fun _ _ => ?_))
    | decide
    | (dsimp only)
    | ((with_reducible refine only_set_tracks ?_ (by decide)); first | (with_reducible exact Only.refl _ _) | (with_reducible refine State.setGroup_only ?_ ?_) | (with_reducible refine only_ite (fun _ => ?_) (fun _ => ?_)) | (with_reducible refine only_foldl ?_ (fun _ _ => ?_)))
    | ((with_reducible refine only_set_groups ?_ (by decide)); first | (with_reducible exact Only.refl _ _) | (with_reducible refine State.setGroup_only ?_ ?_) | (with_reducible refine only_ite (fun _ => ?_) (fun _ => ?_)) | (with_reducible refine only_foldl ?_ (fun _ _ => ?_)))
    | split)

theorem State.groupSet_only {a1 : _} {a2 : _} (h : Only m s t) (hm : 768 &&& m = 768) :
    Only m s (t.groupSet a1 a2) := by
  refine h.trans (Only.mono (m := 768) ?_ hm)
  unfold State.groupSet
  repeat' (first
    | (with_reducible exact Only.refl _ _)
    | (with_reducible refine State.setGroup_only ?_ ?_)
    | (with_reducible refine State.groupStart_only ?_ ?_)
    | (with_reducible refine only_ite (fun _ => ?_) (fun _ => ?_))
    | (with_reducible refine only_foldl ?_ (fun _ _ => ?_))
    | decide
    | (dsimp only)
    | split)

theorem State.entrySet_only {a1 : _} {a2 : _} {a3 : _} (h : Only m s t) (hm : 2162688 &&& m = 2162688) :
    Only m s (t.entrySet a1 a2 a3) := by
  refine h.trans (Only.mono (m := 2162688) ?_ hm)
  unfold State.entrySet
  repeat' (first
    | (with_reducible exact Only.refl _ _)
    | (with_reducible refine State.setProf_only ?_ ?_)
    | (with_reducible refine State.setAcc_only ?_ ?_)
    | (with_reducible refine State.setDemand_only ?_ ?_)
    | (with_reducible refine only_ite (fun _ => ?_) (fun _ => ?_))
    | (with_reducible refine only_foldl ?_ (fun _ _ => ?_))
    | decide
    | (dsimp only)
    | split)

theorem State.modeSet_only {a1 : _} {a2 : _} (h : Only m s t) (hm : 11010048 &&& m = 11010048) :
    Only m s (t.modeSet a1 a2) := by
  refine h.trans (Only.mono (m := 11010048) ?_ hm)
  unfold State.modeSet
  repeat' (first
    | (with_reducible exact Only.refl _ _)
    | (with_reducible refine State.setCredit_only ?_ ?_)
    | (with_reducible refine State.creditSource_only ?_ ?_)
    | (with_reducible refine State.setPrepay_only ?_ ?_)
    | (with_reducible refine State.levels_only ?_ ?_)
    | (with_reducible refine only_ite (fun _ => ?_) (fun _ => ?_))
    | (with_reducible refine only_foldl ?_ (fun _ _ => ?_))
    | decide
    | (dsimp only)
    | split)

theorem State.activated_only {a1 : _} {a2 : _} {a3 : _} {a4 : _} {a5 : _} (h : Only m s t) (hm : 12258072 &&& m = 12258072) :
    Only m s (t.activated a1 a2 a3 a4 a5) := by
  refine h.trans (Only.mono (m := 12258072) ?_ hm)
  unfold State.activated
  repeat' (first
    | (with_reducible exact Only.refl _ _)
    | (with_reducible refine State.entrySet_only ?_ ?_)
    | (with_reducible refine State.groupSet_only ?_ ?_)
    | (with_reducible refine State.laneOn_only ?_ ?_)
    | (with_reducible refine State.laneStop_only ?_ ?_)
    | (with_reducible refine State.setAcct_only ?_ ?_)
    | (with_reducible refine State.setBal_only ?_ ?_)
    | (with_reducible refine State.requestLoad_only ?_ ?_)
    | (with_reducible refine State.lanePreset_only ?_ ?_)
    | (with_reducible refine State.modeSet_only ?_ ?_)
    | (with_reducible refine only_ite (fun _ => ?_) (fun _ => ?_))
    | (with_reducible refine only_foldl ?_ (fun _ _ => ?_))
    | decide
    | (dsimp only)
    | split)

theorem State.activate_only {a1 : _} {a2 : _} {a3 : _} {a4 : _} (h : Only m s t) (hm : 12258073 &&& m = 12258073) :
    Only m s (t.activate a1 a2 a3 a4) := by
  refine h.trans (Only.mono (m := 12258073) ?_ hm)
  unfold State.activate
  repeat' (first
    | (with_reducible exact Only.refl _ _)
    | (with_reducible refine State.activated_only ?_ ?_)
    | (with_reducible refine State.setCfg_only ?_ ?_)
    | (with_reducible refine only_ite (fun _ => ?_) (fun _ => ?_))
    | (with_reducible refine only_foldl ?_ (fun _ _ => ?_))
    | decide
    | (dsimp only)
    | split)

theorem State.rehome_only {a1 : _} (h : Only m s t) (hm : 1024 &&& m = 1024) :
    Only m s (t.rehome a1) := by
  refine h.trans (Only.mono (m := 1024) ?_ hm)
  unfold State.rehome
  repeat' (first
    | (with_reducible exact Only.refl _ _)
    | (with_reducible refine State.setEng_only ?_ ?_)
    | (with_reducible refine only_ite (fun _ => ?_) (fun _ => ?_))
    | (with_reducible refine only_foldl ?_ (fun _ _ => ?_))
    | decide
    | (dsimp only)
    | split)

theorem State.activateNow_only {a1 : _} {a2 : _} (h : Only m s t) (hm : 12259097 &&& m = 12259097) :
    Only m s (t.activateNow a1 a2) := by
  refine h.trans (Only.mono (m := 12259097) ?_ hm)
  unfold State.activateNow
  repeat' (first
    | (with_reducible exact Only.refl _ _)
    | (with_reducible refine State.rehome_only ?_ ?_)
    | (with_reducible refine State.activate_only ?_ ?_)
    | (with_reducible refine only_ite (fun _ => ?_) (fun _ => ?_))
    | (with_reducible refine only_foldl ?_ (fun _ _ => ?_))
    | decide
    | (dsimp only)
    | split)

theorem State.takeShadow_only {a1 : _} {a2 : _} {a3 : _} {a4 : _} (h : Only m s t) (hm : 12258073 &&& m = 12258073) :
    Only m s (t.takeShadow a1 a2 a3 a4) := by
  refine h.trans (Only.mono (m := 12258073) ?_ hm)
  unfold State.takeShadow
  repeat' (first
    | (with_reducible exact Only.refl _ _)
    | (with_reducible refine State.activate_only ?_ ?_)
    | (with_reducible refine only_ite (fun _ => ?_) (fun _ => ?_))
    | (with_reducible refine only_foldl ?_ (fun _ _ => ?_))
    | decide
    | (dsimp only)
    | ((with_reducible refine only_set_dict ?_ (by decide)); first | (with_reducible exact Only.refl _ _) | (with_reducible refine State.activate_only ?_ ?_) | (with_reducible refine only_ite (fun _ => ?_) (fun _ => ?_)) | (with_reducible refine only_foldl ?_ (fun _ _ => ?_)))
    | ((with_reducible refine only_set_spares ?_ (by decide)); first | (with_reducible exact Only.refl _ _) | (with_reducible refine State.activate_only ?_ ?_) | (with_reducible refine only_ite (fun _ => ?_) (fun _ => ?_)) | (with_reducible refine only_foldl ?_ (fun _ _ => ?_)))
    | ((with_reducible refine only_set_chans ?_ (by decide)); first | (with_reducible exact Only.refl _ _) | (with_reducible refine State.activate_only ?_ ?_) | (with_reducible refine only_ite (fun _ => ?_) (fun _ => ?_)) | (with_reducible refine only_foldl ?_ (fun _ _ => ?_)))
    | ((with_reducible refine only_set_tracks ?_ (by decide)); first | (with_reducible exact Only.refl _ _) | (with_reducible refine State.activate_only ?_ ?_) | (with_reducible refine only_ite (fun _ => ?_) (fun _ => ?_)) | (with_reducible refine only_foldl ?_ (fun _ _ => ?_)))
    | ((with_reducible refine only_set_groups ?_ (by decide)); first | (with_reducible exact Only.refl _ _) | (with_reducible refine State.activate_only ?_ ?_) | (with_reducible refine only_ite (fun _ => ?_) (fun _ => ?_)) | (with_reducible refine only_foldl ?_ (fun _ _ => ?_)))
    | ((with_reducible refine only_set_accts ?_ (by decide)); first | (with_reducible exact Only.refl _ _) | (with_reducible refine State.activate_only ?_ ?_) | (with_reducible refine only_ite (fun _ => ?_) (fun _ => ?_)) | (with_reducible refine only_foldl ?_ (fun _ _ => ?_)))
    | ((with_reducible refine only_set_acc ?_ (by decide)); first | (with_reducible exact Only.refl _ _) | (with_reducible refine State.activate_only ?_ ?_) | (with_reducible refine only_ite (fun _ => ?_) (fun _ => ?_)) | (with_reducible refine only_foldl ?_ (fun _ _ => ?_)))
    | ((with_reducible refine only_set_bal ?_ (by decide)); first | (with_reducible exact Only.refl _ _) | (with_reducible refine State.activate_only ?_ ?_) | (with_reducible refine only_ite (fun _ => ?_) (fun _ => ?_)) | (with_reducible refine only_foldl ?_ (fun _ _ => ?_)))
    | ((with_reducible refine only_set_pp ?_ (by decide)); first | (with_reducible exact Only.refl _ _) | (with_reducible refine State.activate_only ?_ ?_) | (with_reducible refine only_ite (fun _ => ?_) (fun _ => ?_)) | (with_reducible refine only_foldl ?_ (fun _ _ => ?_)))
    | ((with_reducible refine only_set_cal ?_ (by decide)); first | (with_reducible exact Only.refl _ _) | (with_reducible refine State.activate_only ?_ ?_) | (with_reducible refine only_ite (fun _ => ?_) (fun _ => ?_)) | (with_reducible refine only_foldl ?_ (fun _ _ => ?_)))
    | ((with_reducible refine only_set_nvm ?_ ?_ (by decide)); rotate_left; (first | exact ⟨fun w => cellsSet_wf w _ _⟩ | exact ⟨fun w => w, fun _ p => List.mem_append_left _ p, fun _ => Nat.le_refl _⟩ | exact .of rfl rfl rfl | exact .of rfl rfl | exact .of rfl | exact Nat.le_refl _); first | (with_reducible exact Only.refl _ _) | (with_reducible refine State.activate_only ?_ ?_) | (with_reducible refine only_ite (fun _ => ?_) (fun _ => ?_)) | (with_reducible refine only_foldl ?_ (fun _ _ => ?_)))
    | ((with_reducible refine only_set_evt ?_ (by decide)); first | (with_reducible exact Only.refl _ _) | (with_reducible refine State.activate_only ?_ ?_) | (with_reducible refine only_ite (fun _ => ?_) (fun _ => ?_)) | (with_reducible refine only_foldl ?_ (fun _ _ => ?_)))
    | split)

theorem State.frameShadows_only (h : Only m s t) (hm : 12258073 &&& m = 12258073) :
    Only m s (t.frameShadows) := by
  refine h.trans (Only.mono (m := 12258073) ?_ hm)
  unfold State.frameShadows
  repeat' (first
    | (with_reducible exact Only.refl _ _)
    | (with_reducible refine State.takeShadow_only ?_ ?_)
    | (with_reducible refine only_ite (fun _ => ?_) (fun _ => ?_))
    | (with_reducible refine only_foldl ?_ (fun _ _ => ?_))
    | decide
    | (dsimp only)
    | split)

theorem State.portShadows_only {a1 : _} {a2 : _} (h : Only m s t) (hm : 29035289 &&& m = 29035289) :
    Only m s (t.portShadows a1 a2) := by
  refine h.trans (Only.mono (m := 29035289) ?_ hm)
  unfold State.portShadows
  repeat' (first
    | (with_reducible exact Only.refl _ _)
    | (with_reducible refine State.takeShadow_only ?_ ?_)
    | (with_reducible refine only_ite (fun _ => ?_) (fun _ => ?_))
    | (with_reducible refine only_foldl ?_ (fun _ _ => ?_))
    | decide
    | (dsimp only)
    | ((with_reducible refine only_set_dict ?_ (by decide)); first | (with_reducible exact Only.refl _ _) | (with_reducible refine State.takeShadow_only ?_ ?_) | (with_reducible refine only_ite (fun _ => ?_) (fun _ => ?_)) | (with_reducible refine only_foldl ?_ (fun _ _ => ?_)))
    | ((with_reducible refine only_set_spares ?_ (by decide)); first | (with_reducible exact Only.refl _ _) | (with_reducible refine State.takeShadow_only ?_ ?_) | (with_reducible refine only_ite (fun _ => ?_) (fun _ => ?_)) | (with_reducible refine only_foldl ?_ (fun _ _ => ?_)))
    | ((with_reducible refine only_set_chans ?_ (by decide)); first | (with_reducible exact Only.refl _ _) | (with_reducible refine State.takeShadow_only ?_ ?_) | (with_reducible refine only_ite (fun _ => ?_) (fun _ => ?_)) | (with_reducible refine only_foldl ?_ (fun _ _ => ?_)))
    | ((with_reducible refine only_set_tracks ?_ (by decide)); first | (with_reducible exact Only.refl _ _) | (with_reducible refine State.takeShadow_only ?_ ?_) | (with_reducible refine only_ite (fun _ => ?_) (fun _ => ?_)) | (with_reducible refine only_foldl ?_ (fun _ _ => ?_)))
    | ((with_reducible refine only_set_groups ?_ (by decide)); first | (with_reducible exact Only.refl _ _) | (with_reducible refine State.takeShadow_only ?_ ?_) | (with_reducible refine only_ite (fun _ => ?_) (fun _ => ?_)) | (with_reducible refine only_foldl ?_ (fun _ _ => ?_)))
    | ((with_reducible refine only_set_accts ?_ (by decide)); first | (with_reducible exact Only.refl _ _) | (with_reducible refine State.takeShadow_only ?_ ?_) | (with_reducible refine only_ite (fun _ => ?_) (fun _ => ?_)) | (with_reducible refine only_foldl ?_ (fun _ _ => ?_)))
    | ((with_reducible refine only_set_acc ?_ (by decide)); first | (with_reducible exact Only.refl _ _) | (with_reducible refine State.takeShadow_only ?_ ?_) | (with_reducible refine only_ite (fun _ => ?_) (fun _ => ?_)) | (with_reducible refine only_foldl ?_ (fun _ _ => ?_)))
    | ((with_reducible refine only_set_bal ?_ (by decide)); first | (with_reducible exact Only.refl _ _) | (with_reducible refine State.takeShadow_only ?_ ?_) | (with_reducible refine only_ite (fun _ => ?_) (fun _ => ?_)) | (with_reducible refine only_foldl ?_ (fun _ _ => ?_)))
    | ((with_reducible refine only_set_pp ?_ (by decide)); first | (with_reducible exact Only.refl _ _) | (with_reducible refine State.takeShadow_only ?_ ?_) | (with_reducible refine only_ite (fun _ => ?_) (fun _ => ?_)) | (with_reducible refine only_foldl ?_ (fun _ _ => ?_)))
    | ((with_reducible refine only_set_cal ?_ (by decide)); first | (with_reducible exact Only.refl _ _) | (with_reducible refine State.takeShadow_only ?_ ?_) | (with_reducible refine only_ite (fun _ => ?_) (fun _ => ?_)) | (with_reducible refine only_foldl ?_ (fun _ _ => ?_)))
    | ((with_reducible refine only_set_nvm ?_ ?_ (by decide)); rotate_left; (first | exact ⟨fun w => cellsSet_wf w _ _⟩ | exact ⟨fun w => w, fun _ p => List.mem_append_left _ p, fun _ => Nat.le_refl _⟩ | exact .of rfl rfl rfl | exact .of rfl rfl | exact .of rfl | exact Nat.le_refl _); first | (with_reducible exact Only.refl _ _) | (with_reducible refine State.takeShadow_only ?_ ?_) | (with_reducible refine only_ite (fun _ => ?_) (fun _ => ?_)) | (with_reducible refine only_foldl ?_ (fun _ _ => ?_)))
    | ((with_reducible refine only_set_evt ?_ (by decide)); first | (with_reducible exact Only.refl _ _) | (with_reducible refine State.takeShadow_only ?_ ?_) | (with_reducible refine only_ite (fun _ => ?_) (fun _ => ?_)) | (with_reducible refine only_foldl ?_ (fun _ _ => ?_)))
    | ((with_reducible refine only_set_ports ?_ (by decide)); first | (with_reducible exact Only.refl _ _) | (with_reducible refine State.takeShadow_only ?_ ?_) | (with_reducible refine only_ite (fun _ => ?_) (fun _ => ?_)) | (with_reducible refine only_foldl ?_ (fun _ _ => ?_)))
    | split)

theorem State.dropEpoch_only {a1 : _} (h : Only m s t) (hm : 1024 &&& m = 1024) :
    Only m s (t.dropEpoch a1) := by
  refine h.trans (Only.mono (m := 1024) ?_ hm)
  unfold State.dropEpoch
  repeat' (first
    | (with_reducible exact Only.refl _ _)
    | (with_reducible refine State.setEng_only ?_ ?_)
    | (with_reducible refine only_ite (fun _ => ?_) (fun _ => ?_))
    | (with_reducible refine only_foldl ?_ (fun _ _ => ?_))
    | decide
    | (dsimp only)
    | split)

theorem State.nextEpoch_only {a1 : _} (h : Only m s t) (hm : 1025 &&& m = 1025) :
    Only m s (t.nextEpoch a1) := by
  refine h.trans (Only.mono (m := 1025) ?_ hm)
  unfold State.nextEpoch
  repeat' (first
    | (with_reducible exact Only.refl _ _)
    | (with_reducible refine State.dropEpoch_only ?_ ?_)
    | (with_reducible refine only_ite (fun _ => ?_) (fun _ => ?_))
    | (with_reducible refine only_foldl ?_ (fun _ _ => ?_))
    | decide
    | (dsimp only)
    | ((with_reducible refine only_set_dict ?_ (by decide)); first | (with_reducible exact Only.refl _ _) | (with_reducible refine State.dropEpoch_only ?_ ?_) | (with_reducible refine only_ite (fun _ => ?_) (fun _ => ?_)) | (with_reducible refine only_foldl ?_ (fun _ _ => ?_)))
    | ((with_reducible refine only_set_eng ?_ (by decide)); first | (with_reducible exact Only.refl _ _) | (with_reducible refine State.dropEpoch_only ?_ ?_) | (with_reducible refine only_ite (fun _ => ?_) (fun _ => ?_)) | (with_reducible refine only_foldl ?_ (fun _ _ => ?_)))
    | split)

theorem State.shadowCopy_only {a1 : _} {a2 : _} (h : Only m s t) (hm : 12259097 &&& m = 12259097) :
    Only m s (t.shadowCopy a1 a2) := by
  refine h.trans (Only.mono (m := 12259097) ?_ hm)
  unfold State.shadowCopy
  repeat' (first
    | (with_reducible exact Only.refl _ _)
    | (with_reducible refine State.takeShadow_only ?_ ?_)
    | (with_reducible refine State.rehome_only ?_ ?_)
    | (with_reducible refine State.nextEpoch_only ?_ ?_)
    | (with_reducible refine only_ite (fun _ => ?_) (fun _ => ?_))
    | (with_reducible refine only_foldl ?_ (fun _ _ => ?_))
    | decide
    | (dsimp only)
    | split)

theorem State.markLost_only {a1 : _} (h : Only m s t) (hm : 1024 &&& m = 1024) :
    Only m s (t.markLost a1) := by
  refine h.trans (Only.mono (m := 1024) ?_ hm)
  unfold State.markLost
  repeat' (first
    | (with_reducible exact Only.refl _ _)
    | (with_reducible refine State.setEng_only ?_ ?_)
    | (with_reducible refine only_ite (fun _ => ?_) (fun _ => ?_))
    | (with_reducible refine only_foldl ?_ (fun _ _ => ?_))
    | decide
    | (dsimp only)
    | split)

theorem State.ev60_only {a1 : _} (h : Only m s t) (hm : 8388608 &&& m = 8388608) :
    Only m s (t.ev60 a1) := by
  refine h.trans (Only.mono (m := 8388608) ?_ hm)
  unfold State.ev60
  repeat' (first
    | (with_reducible exact Only.refl _ _)
    | (with_reducible refine State.raise_only ?_ ?_)
    | (with_reducible refine only_ite (fun _ => ?_) (fun _ => ?_))
    | (with_reducible refine only_foldl ?_ (fun _ _ => ?_))
    | decide
    | (dsimp only)
    | split)

theorem State.programBoot_only {a1 : _} (h : Only m s t) (hm : 538968065 &&& m = 538968065) :
    Only m s (t.programBoot a1) := by
  refine h.trans (Only.mono (m := 538968065) ?_ hm)
  unfold State.programBoot
  repeat' (first
    | (with_reducible exact Only.refl _ _)
    | (with_reducible refine State.storeTry_only ?_ ?_)
    | (with_reducible refine State.setUpd_only ?_ ?_)
    | (with_reducible refine only_ite (fun _ => ?_) (fun _ => ?_))
    | (with_reducible refine only_foldl ?_ (fun _ _ => ?_))
    | decide
    | (dsimp only)
    | split)

theorem State.switchDone_only (h : Only m s t) (hm : 547356673 &&& m = 547356673) :
    Only m s (t.switchDone) := by
  refine h.trans (Only.mono (m := 547356673) ?_ hm)
  unfold State.switchDone
  repeat' (first
    | (with_reducible exact Only.refl _ _)
    | (with_reducible refine State.ev60_only ?_ ?_)
    | (with_reducible refine State.setUpd_only ?_ ?_)
    | (with_reducible refine State.programBoot_only ?_ ?_)
    | (with_reducible refine only_ite (fun _ => ?_) (fun _ => ?_))
    | (with_reducible refine only_foldl ?_ (fun _ _ => ?_))
    | decide
    | (dsimp only)
    | split)

theorem State.patternSwitch_only {a1 : _} (h : Only m s t) (hm : 547491329 &&& m = 547491329) :
    Only m s (t.patternSwitch a1) := by
  refine h.trans (Only.mono (m := 547491329) ?_ hm)
  unfold State.patternSwitch
  repeat' (first
    | (with_reducible exact Only.refl _ _)
    | (with_reducible refine State.setGroup_only ?_ ?_)
    | (with_reducible refine State.nextEpoch_only ?_ ?_)
    | (with_reducible refine State.setAcct_only ?_ ?_)
    | (with_reducible refine State.setBal_only ?_ ?_)
    | (with_reducible refine State.markLost_only ?_ ?_)
    | (with_reducible refine State.switchDone_only ?_ ?_)
    | (with_reducible refine only_ite (fun _ => ?_) (fun _ => ?_))
    | (with_reducible refine only_foldl ?_ (fun _ _ => ?_))
    | decide
    | (dsimp only)
    | split)

theorem State.beginCycle_only {a1 : _} {a2 : _} (h : Only m s t) (hm : 395264 &&& m = 395264) :
    Only m s (t.beginCycle a1 a2) := by
  refine h.trans (Only.mono (m := 395264) ?_ hm)
  unfold State.beginCycle
  repeat' (first
    | (with_reducible exact Only.refl _ _)
    | (with_reducible refine State.setAcct_only ?_ ?_)
    | (with_reducible refine State.setBal_only ?_ ?_)
    | (with_reducible refine only_ite (fun _ => ?_) (fun _ => ?_))
    | (with_reducible refine only_foldl ?_ (fun _ _ => ?_))
    | decide
    | (dsimp only)
    | ((with_reducible refine only_set_accts ?_ (by decide)); first | (with_reducible exact Only.refl _ _) | (with_reducible refine State.setAcct_only ?_ ?_) | (with_reducible refine State.setBal_only ?_ ?_) | (with_reducible refine only_ite (fun _ => ?_) (fun _ => ?_)) | (with_reducible refine only_foldl ?_ (fun _ _ => ?_)))
    | ((with_reducible refine only_set_bal ?_ (by decide)); first | (with_reducible exact Only.refl _ _) | (with_reducible refine State.setAcct_only ?_ ?_) | (with_reducible refine State.setBal_only ?_ ?_) | (with_reducible refine only_ite (fun _ => ?_) (fun _ => ?_)) | (with_reducible refine only_foldl ?_ (fun _ _ => ?_)))
    | ((with_reducible refine only_set_contrib ?_ (by decide)); first | (with_reducible exact Only.refl _ _) | (with_reducible refine State.setAcct_only ?_ ?_) | (with_reducible refine State.setBal_only ?_ ?_) | (with_reducible refine only_ite (fun _ => ?_) (fun _ => ?_)) | (with_reducible refine only_foldl ?_ (fun _ _ => ?_)))
    | split)

theorem State.overrange_only {a1 : _} {a2 : _} {a3 : _} {a4 : _} (h : Only m s t) (hm : 8388624 &&& m = 8388624) :
    Only m s (t.overrange a1 a2 a3 a4) := by
  refine h.trans (Only.mono (m := 8388624) ?_ hm)
  unfold State.overrange
  repeat' (first
    | (with_reducible exact Only.refl _ _)
    | (with_reducible refine State.setChan_only ?_ ?_)
    | (with_reducible refine State.raise_only ?_ ?_)
    | (with_reducible refine only_ite (fun _ => ?_) (fun _ => ?_))
    | (with_reducible refine only_foldl ?_ (fun _ _ => ?_))
    | decide
    | (dsimp only)
    | split)

theorem State.overCycle_only {a1 : _} (h : Only m s t) (hm : 16 &&& m = 16) :
    Only m s (t.overCycle a1) := by
  refine h.trans (Only.mono (m := 16) ?_ hm)
  unfold State.overCycle
  repeat' (first
    | (with_reducible exact Only.refl _ _)
    | (with_reducible refine State.setChan_only ?_ ?_)
    | (with_reducible refine only_ite (fun _ => ?_) (fun _ => ?_))
    | (with_reducible refine only_foldl ?_ (fun _ _ => ?_))
    | decide
    | (dsimp only)
    | split)

theorem State.setTh_only {a1 : _} {a2 : _} (h : Only m s t) (hm : 64 &&& m = 64) :
    Only m s (t.setTh a1 a2) := by
  refine h.trans (Only.mono (m := 64) ?_ hm)
  unfold State.setTh
  repeat' (first
    | (with_reducible exact Only.refl _ _)
    | (with_reducible refine only_ite (fun _ => ?_) (fun _ => ?_))
    | (with_reducible refine only_foldl ?_ (fun _ _ => ?_))
    | decide
    | (dsimp only)
    | ((with_reducible refine only_set_th ?_ (by decide)); first | (with_reducible exact Only.refl _ _) | (with_reducible refine only_ite (fun _ => ?_) (fun _ => ?_)) | (with_reducible refine only_foldl ?_ (fun _ _ => ?_)))
    | split)

theorem State.setFtrip_only {a1 : _} {a2 : _} (h : Only m s t) (hm : 128 &&& m = 128) :
    Only m s (t.setFtrip a1 a2) := by
  refine h.trans (Only.mono (m := 128) ?_ hm)
  unfold State.setFtrip
  repeat' (first
    | (with_reducible exact Only.refl _ _)
    | (with_reducible refine only_ite (fun _ => ?_) (fun _ => ?_))
    | (with_reducible refine only_foldl ?_ (fun _ _ => ?_))
    | decide
    | (dsimp only)
    | ((with_reducible refine only_set_ftrip ?_ (by decide)); first | (with_reducible exact Only.refl _ _) | (with_reducible refine only_ite (fun _ => ?_) (fun _ => ?_)) | (with_reducible refine only_foldl ?_ (fun _ _ => ?_)))
    | split)

theorem State.ftEval_only {a1 : _} (h : Only m s t) (hm : 8388736 &&& m = 8388736) :
    Only m s (t.ftEval a1) := by
  refine h.trans (Only.mono (m := 8388736) ?_ hm)
  unfold State.ftEval
  repeat' (first
    | (with_reducible exact Only.refl _ _)
    | (with_reducible refine State.setFtrip_only ?_ ?_)
    | (with_reducible refine State.raise_only ?_ ?_)
    | (with_reducible refine only_ite (fun _ => ?_) (fun _ => ?_))
    | (with_reducible refine only_foldl ?_ (fun _ _ => ?_))
    | decide
    | (dsimp only)
    | split)

theorem State.ftEvals_only {a1 : _} (h : Only m s t) (hm : 8388736 &&& m = 8388736) :
    Only m s (t.ftEvals a1) := by
  refine h.trans (Only.mono (m := 8388736) ?_ hm)
  unfold State.ftEvals
  repeat' (first
    | (with_reducible exact Only.refl _ _)
    | (with_reducible refine State.ftEval_only ?_ ?_)
    | (with_reducible refine only_ite (fun _ => ?_) (fun _ => ?_))
    | (with_reducible refine only_foldl ?_ (fun _ _ => ?_))
    | decide
    | (dsimp only)
    | split)

theorem State.ftRelease_only {a1 : _} (h : Only m s t) (hm : 8388736 &&& m = 8388736) :
    Only m s (t.ftRelease a1) := by
  refine h.trans (Only.mono (m := 8388736) ?_ hm)
  unfold State.ftRelease
  repeat' (first
    | (with_reducible exact Only.refl _ _)
    | (with_reducible refine State.ftEvals_only ?_ ?_)
    | (with_reducible refine only_ite (fun _ => ?_) (fun _ => ?_))
    | (with_reducible refine only_foldl ?_ (fun _ _ => ?_))
    | decide
    | (dsimp only)
    | split)

theorem State.thEvent_only {a1 : _} {a2 : _} {a3 : _} {a4 : _} {a5 : _} (h : Only m s t) (hm : 8388672 &&& m = 8388672) :
    Only m s (t.thEvent a1 a2 a3 a4 a5) := by
  refine h.trans (Only.mono (m := 8388672) ?_ hm)
  unfold State.thEvent
  repeat' (first
    | (with_reducible exact Only.refl _ _)
    | (with_reducible refine State.raiseAt_only ?_ ?_)
    | (with_reducible refine State.setTh_only ?_ ?_)
    | (with_reducible refine only_ite (fun _ => ?_) (fun _ => ?_))
    | (with_reducible refine only_foldl ?_ (fun _ _ => ?_))
    | decide
    | (dsimp only)
    | split)

theorem State.thChange_only {a1 : _} {a2 : _} {a3 : _} {a4 : _} {a5 : _} (h : Only m s t) (hm : 8437824 &&& m = 8437824) :
    Only m s (t.thChange a1 a2 a3 a4 a5) := by
  refine h.trans (Only.mono (m := 8437824) ?_ hm)
  unfold State.thChange
  repeat' (first
    | (with_reducible exact Only.refl _ _)
    | (with_reducible refine State.thEvent_only ?_ ?_)
    | (with_reducible refine State.captTrigger_only ?_ ?_)
    | (with_reducible refine State.setTh_only ?_ ?_)
    | (with_reducible refine only_ite (fun _ => ?_) (fun _ => ?_))
    | (with_reducible refine only_foldl ?_ (fun _ _ => ?_))
    | decide
    | (dsimp only)
    | split)

theorem State.thEval_only {a1 : _} {a2 : _} {a3 : _} (h : Only m s t) (hm : 8437952 &&& m = 8437952) :
    Only m s (t.thEval a1 a2 a3) := by
  refine h.trans (Only.mono (m := 8437952) ?_ hm)
  unfold State.thEval
  repeat' (first
    | (with_reducible exact Only.refl _ _)
    | (with_reducible refine State.thChange_only ?_ ?_)
    | (with_reducible refine State.ftEvals_only ?_ ?_)
    | (with_reducible refine State.setTh_only ?_ ?_)
    | (with_reducible refine only_ite (fun _ => ?_) (fun _ => ?_))
    | (with_reducible refine only_foldl ?_ (fun _ _ => ?_))
    | decide
    | (dsimp only)
    | split)

theorem State.halfClose_only {a1 : _} {a2 : _} (h : Only m s t) (hm : 8437952 &&& m = 8437952) :
    Only m s (t.halfClose a1 a2) := by
  refine h.trans (Only.mono (m := 8437952) ?_ hm)
  unfold State.halfClose
  repeat' (first
    | (with_reducible exact Only.refl _ _)
    | (with_reducible refine State.thEval_only ?_ ?_)
    | (with_reducible refine State.setTh_only ?_ ?_)
    | (with_reducible refine only_ite (fun _ => ?_) (fun _ => ?_))
    | (with_reducible refine only_foldl ?_ (fun _ _ => ?_))
    | decide
    | (dsimp only)
    | split)

theorem State.halfStep_only {a1 : _} {a2 : _} (h : Only m s t) (hm : 8437952 &&& m = 8437952) :
    Only m s (t.halfStep a1 a2) := by
  refine h.trans (Only.mono (m := 8437952) ?_ hm)
  unfold State.halfStep
  repeat' (first
    | (with_reducible exact Only.refl _ _)
    | (with_reducible refine State.halfClose_only ?_ ?_)
    | (with_reducible refine State.setTh_only ?_ ?_)
    | (with_reducible refine only_ite (fun _ => ?_) (fun _ => ?_))
    | (with_reducible refine only_foldl ?_ (fun _ _ => ?_))
    | decide
    | (dsimp only)
    | split)

theorem State.thSample_only {a1 : _} {a2 : _} {a3 : _} (h : Only m s t) (hm : 8437952 &&& m = 8437952) :
    Only m s (t.thSample a1 a2 a3) := by
  refine h.trans (Only.mono (m := 8437952) ?_ hm)
  unfold State.thSample
  repeat' (first
    | (with_reducible exact Only.refl _ _)
    | (with_reducible refine State.halfStep_only ?_ ?_)
    | (with_reducible refine State.thEval_only ?_ ?_)
    | (with_reducible refine State.setTh_only ?_ ?_)
    | (with_reducible refine only_ite (fun _ => ?_) (fun _ => ?_))
    | (with_reducible refine only_foldl ?_ (fun _ _ => ?_))
    | decide
    | (dsimp only)
    | split)

theorem State.setTrack_only {a1 : _} {a2 : _} (h : Only m s t) (hm : 256 &&& m = 256) :
    Only m s (t.setTrack a1 a2) := by
  refine h.trans (Only.mono (m := 256) ?_ hm)
  unfold State.setTrack
  repeat' (first
    | (with_reducible exact Only.refl _ _)
    | (with_reducible refine only_ite (fun _ => ?_) (fun _ => ?_))
    | (with_reducible refine only_foldl ?_ (fun _ _ => ?_))
    | decide
    | (dsimp only)
    | ((with_reducible refine only_set_tracks ?_ (by decide)); first | (with_reducible exact Only.refl _ _) | (with_reducible refine only_ite (fun _ => ?_) (fun _ => ?_)) | (with_reducible refine only_foldl ?_ (fun _ _ => ?_)))
    | split)

theorem State.candidate_only {a1 : _} {a2 : _} {a3 : _} {a4 : _} (h : Only m s t) (hm : 768 &&& m = 768) :
    Only m s (t.candidate a1 a2 a3 a4) := by
  refine h.trans (Only.mono (m := 768) ?_ hm)
  unfold State.candidate
  repeat' (first
    | (with_reducible exact Only.refl _ _)
    | (with_reducible refine State.setGroup_only ?_ ?_)
    | (with_reducible refine State.setTrack_only ?_ ?_)
    | (with_reducible refine only_ite (fun _ => ?_) (fun _ => ?_))
    | (with_reducible refine only_foldl ?_ (fun _ _ => ?_))
    | decide
    | (dsimp only)
    | split)

theorem State.track_only {a1 : _} {a2 : _} {a3 : _} {a4 : _} {a5 : _} (h : Only m s t) (hm : 768 &&& m = 768) :
    Only m s (t.track a1 a2 a3 a4 a5) := by
  refine h.trans (Only.mono (m := 768) ?_ hm)
  unfold State.track
  repeat' (first
    | (with_reducible exact Only.refl _ _)
    | (with_reducible refine State.candidate_only ?_ ?_)
    | (with_reducible refine State.setTrack_only ?_ ?_)
    | (with_reducible refine only_ite (fun _ => ?_) (fun _ => ?_))
    | (with_reducible refine only_foldl ?_ (fun _ _ => ?_))
    | decide
    | (dsimp only)
    | split)

theorem State.ev36_only {a1 : _} {a2 : _} (h : Only m s t) (hm : 8388608 &&& m = 8388608) :
    Only m s (t.ev36 a1 a2) := by
  refine h.trans (Only.mono (m := 8388608) ?_ hm)
  unfold State.ev36
  repeat' (first
    | (with_reducible exact Only.refl _ _)
    | (with_reducible refine State.raise_only ?_ ?_)
    | (with_reducible refine only_ite (fun _ => ?_) (fun _ => ?_))
    | (with_reducible refine only_foldl ?_ (fun _ _ => ?_))
    | decide
    | (dsimp only)
    | split)

theorem State.freqCycle_only {a1 : _} {a2 : _} {a3 : _} (h : Only m s t) (hm : 8192 &&& m = 8192) :
    Only m s (t.freqCycle a1 a2 a3) := by
  refine h.trans (Only.mono (m := 8192) ?_ hm)
  unfold State.freqCycle
  repeat' (first
    | (with_reducible exact Only.refl _ _)
    | (with_reducible refine State.setPq_only ?_ ?_)
    | (with_reducible refine only_ite (fun _ => ?_) (fun _ => ?_))
    | (with_reducible refine only_foldl ?_ (fun _ _ => ?_))
    | decide
    | (dsimp only)
    | split)

theorem State.cycleEnd_only {a1 : _} {a2 : _} {a3 : _} {a4 : _} (h : Only m s t) (hm : 381680697 &&& m = 381680697) :
    Only m s (t.cycleEnd a1 a2 a3 a4) := by
  refine h.trans (Only.mono (m := 381680697) ?_ hm)
  unfold State.cycleEnd
  repeat' (first
    | (with_reducible exact Only.refl _ _)
    | (with_reducible refine State.issueAll_only ?_ ?_)
    | (with_reducible refine State.pqOutage_only ?_ ?_)
    | (with_reducible refine State.atEpoch_only ?_ ?_)
    | (with_reducible refine State.freqCycle_only ?_ ?_)
    | (with_reducible refine State.markLost_only ?_ ?_)
    | (with_reducible refine State.cpCommits_only ?_ ?_)
    | (with_reducible refine State.overCycle_only ?_ ?_)
    | (with_reducible refine State.orphans_only ?_ ?_)
    | (with_reducible refine State.guardCheck_only ?_ ?_)
    | (with_reducible refine only_ite (fun _ => ?_) (fun _ => ?_))
    | (with_reducible refine only_foldl ?_ (fun _ _ => ?_))
    | decide
    | (dsimp only)
    | split)

theorem State.boundaryIn_only {a1 : _} {a2 : _} (h : Only m s t) (hm : 549130045 &&& m = 549130045) :
    Only m s (t.boundaryIn a1 a2) := by
  refine h.trans (Only.mono (m := 549130045) ?_ hm)
  unfold State.boundaryIn
  repeat' (first
    | (with_reducible exact Only.refl _ _)
    | (with_reducible refine State.shadowCopy_only ?_ ?_)
    | (with_reducible refine State.patternSwitch_only ?_ ?_)
    | (with_reducible refine State.dacLoad_only ?_ ?_)
    | (with_reducible refine State.hkStop_only ?_ ?_)
    | (with_reducible refine only_ite (fun _ => ?_) (fun _ => ?_))
    | (with_reducible refine only_foldl ?_ (fun _ _ => ?_))
    | decide
    | (dsimp only)
    | split)

theorem State.boundaryOut_only {a1 : _} {a2 : _} (h : Only m s t) (hm : 820383233 &&& m = 820383233) :
    Only m s (t.boundaryOut a1 a2) := by
  refine h.trans (Only.mono (m := 820383233) ?_ hm)
  unfold State.boundaryOut
  repeat' (first
    | (with_reducible exact Only.refl _ _)
    | (with_reducible refine State.bindProgress_only ?_ ?_)
    | (with_reducible refine State.setGroup_only ?_ ?_)
    | (with_reducible refine State.beginCycle_only ?_ ?_)
    | (with_reducible refine State.setPwr_only ?_ ?_)
    | (with_reducible refine State.switchDone_only ?_ ?_)
    | (with_reducible refine only_ite (fun _ => ?_) (fun _ => ?_))
    | (with_reducible refine only_foldl ?_ (fun _ _ => ?_))
    | decide
    | (dsimp only)
    | split)

theorem State.boundaryMarks_only {a1 : _} {a2 : _} {a3 : _} (h : Only m s t) (hm : 8389632 &&& m = 8389632) :
    Only m s (t.boundaryMarks a1 a2 a3) := by
  refine h.trans (Only.mono (m := 8389632) ?_ hm)
  unfold State.boundaryMarks
  repeat' (first
    | (with_reducible exact Only.refl _ _)
    | (with_reducible refine State.setEng_only ?_ ?_)
    | (with_reducible refine State.ev36_only ?_ ?_)
    | (with_reducible refine only_ite (fun _ => ?_) (fun _ => ?_))
    | (with_reducible refine only_foldl ?_ (fun _ _ => ?_))
    | decide
    | (dsimp only)
    | split)

theorem State.boundary_only {a1 : _} {a2 : _} (h : Only m s t) (hm : 922746685 &&& m = 922746685) :
    Only m s (t.boundary a1 a2) := by
  refine h.trans (Only.mono (m := 922746685) ?_ hm)
  unfold State.boundary
  repeat' (first
    | (with_reducible exact Only.refl _ _)
    | (with_reducible refine State.cycleEnd_only ?_ ?_)
    | (with_reducible refine State.setGroup_only ?_ ?_)
    | (with_reducible refine State.boundaryOut_only ?_ ?_)
    | (with_reducible refine State.boundaryMarks_only ?_ ?_)
    | (with_reducible refine State.boundaryIn_only ?_ ?_)
    | (with_reducible refine only_ite (fun _ => ?_) (fun _ => ?_))
    | (with_reducible refine only_foldl ?_ (fun _ _ => ?_))
    | decide
    | (dsimp only)
    | split)

theorem State.settle_only {g n : Nat} (h : Only m s t) (hm : 922746685 &&& m = 922746685) : Only m s (t.settle g n) := by
  induction n generalizing t with
  | zero => exact h
  | succ n ih =>
    unfold State.settle
    refine only_ite (fun _ => h) (fun _ => ?_)
    dsimp only
    split
    · exact h
    · exact ih (State.boundary_only h hm)

theorem State.laneSample_only {a1 : _} {a2 : _} {a3 : _} {a4 : _} (h : Only m s t) (hm : 922746877 &&& m = 922746877) :
    Only m s (t.laneSample a1 a2 a3 a4) := by
  refine h.trans (Only.mono (m := 922746877) ?_ hm)
  unfold State.laneSample
  repeat' (first
    | (with_reducible exact Only.refl _ _)
    | (with_reducible refine State.spareLeave_only ?_ ?_)
    | (with_reducible refine State.setChan_only ?_ ?_)
    | (with_reducible refine State.settle_only ?_ ?_)
    | (with_reducible refine State.ftRelease_only ?_ ?_)
    | (with_reducible refine State.overrange_only ?_ ?_)
    | (with_reducible refine State.thSample_only ?_ ?_)
    | (with_reducible refine State.track_only ?_ ?_)
    | (with_reducible refine State.setTh_only ?_ ?_)
    | (with_reducible refine only_ite (fun _ => ?_) (fun _ => ?_))
    | (with_reducible refine only_foldl ?_ (fun _ _ => ?_))
    | decide
    | (dsimp only)
    | split)

theorem State.holdDrop_only (h : Only m s t) (hm : 1 &&& m = 1) :
    Only m s (t.holdDrop) := by
  refine h.trans (Only.mono (m := 1) ?_ hm)
  unfold State.holdDrop
  repeat' (first
    | (with_reducible exact Only.refl _ _)
    | (with_reducible refine only_ite (fun _ => ?_) (fun _ => ?_))
    | (with_reducible refine only_foldl ?_ (fun _ _ => ?_))
    | decide
    | (dsimp only)
    | ((with_reducible refine only_set_dict ?_ (by decide)); first | (with_reducible exact Only.refl _ _) | (with_reducible refine only_ite (fun _ => ?_) (fun _ => ?_)) | (with_reducible refine only_foldl ?_ (fun _ _ => ?_)))
    | split)

theorem State.sessionLost_only (h : Only m s t) (hm : 9437241 &&& m = 9437241) :
    Only m s (t.sessionLost) := by
  refine h.trans (Only.mono (m := 9437241) ?_ hm)
  unfold State.sessionLost
  repeat' (first
    | (with_reducible exact Only.refl _ _)
    | (with_reducible refine State.setCfg_only ?_ ?_)
    | (with_reducible refine State.sessionClose_only ?_ ?_)
    | (with_reducible refine State.abandonAll_only ?_ ?_)
    | (with_reducible refine only_ite (fun _ => ?_) (fun _ => ?_))
    | (with_reducible refine only_foldl ?_ (fun _ _ => ?_))
    | decide
    | (dsimp only)
    | split)

theorem State.controlDown_only {a1 : _} (h : Only m s t) (hm : 1083179065 &&& m = 1083179065) :
    Only m s (t.controlDown a1) := by
  refine h.trans (Only.mono (m := 1083179065) ?_ hm)
  unfold State.controlDown
  repeat' (first
    | (with_reducible exact Only.refl _ _)
    | (with_reducible refine State.ev58_only ?_ ?_)
    | (with_reducible refine State.setIsl_only ?_ ?_)
    | (with_reducible refine State.sessionLost_only ?_ ?_)
    | (with_reducible refine State.holdDrop_only ?_ ?_)
    | (with_reducible refine only_ite (fun _ => ?_) (fun _ => ?_))
    | (with_reducible refine only_foldl ?_ (fun _ _ => ?_))
    | decide
    | (dsimp only)
    | split)

theorem State.ev61_only {a1 : _} {a2 : _} {a3 : _} {a4 : _} (h : Only m s t) (hm : 8388608 &&& m = 8388608) :
    Only m s (t.ev61 a1 a2 a3 a4) := by
  refine h.trans (Only.mono (m := 8388608) ?_ hm)
  unfold State.ev61
  repeat' (first
    | (with_reducible exact Only.refl _ _)
    | (with_reducible refine State.raise_only ?_ ?_)
    | (with_reducible refine only_ite (fun _ => ?_) (fun _ => ?_))
    | (with_reducible refine only_foldl ?_ (fun _ _ => ?_))
    | decide
    | (dsimp only)
    | split)

theorem State.halfBack_only {a1 : _} (h : Only m s t) (hm : 536871424 &&& m = 536871424) :
    Only m s (t.halfBack a1) := by
  refine h.trans (Only.mono (m := 536871424) ?_ hm)
  unfold State.halfBack
  repeat' (first
    | (with_reducible exact Only.refl _ _)
    | (with_reducible refine State.setGroup_only ?_ ?_)
    | (with_reducible refine State.setUpd_only ?_ ?_)
    | (with_reducible refine only_ite (fun _ => ?_) (fun _ => ?_))
    | (with_reducible refine only_foldl ?_ (fun _ _ => ?_))
    | decide
    | (dsimp only)
    | split)

theorem State.bootBack_only (h : Only m s t) (hm : 538968065 &&& m = 538968065) :
    Only m s (t.bootBack) := by
  refine h.trans (Only.mono (m := 538968065) ?_ hm)
  unfold State.bootBack
  repeat' (first
    | (with_reducible exact Only.refl _ _)
    | (with_reducible refine State.scStep_only ?_ ?_)
    | (with_reducible refine State.programBoot_only ?_ ?_)
    | (with_reducible refine only_ite (fun _ => ?_) (fun _ => ?_))
    | (with_reducible refine only_foldl ?_ (fun _ _ => ?_))
    | decide
    | (dsimp only)
    | split)

theorem State.fallbackStart_only {a1 : _} (h : Only m s t) (hm : 1622147641 &&& m = 1622147641) :
    Only m s (t.fallbackStart a1) := by
  refine h.trans (Only.mono (m := 1622147641) ?_ hm)
  unfold State.fallbackStart
  repeat' (first
    | (with_reducible exact Only.refl _ _)
    | (with_reducible refine State.bootBack_only ?_ ?_)
    | (with_reducible refine State.controlDown_only ?_ ?_)
    | (with_reducible refine State.halfBack_only ?_ ?_)
    | (with_reducible refine State.setUpd_only ?_ ?_)
    | (with_reducible refine State.switchDone_only ?_ ?_)
    | (with_reducible refine only_ite (fun _ => ?_) (fun _ => ?_))
    | (with_reducible refine only_foldl ?_ (fun _ _ => ?_))
    | decide
    | (dsimp only)
    | split)

theorem State.trialFails_only {a1 : _} (h : Only m s t) (hm : 1622147641 &&& m = 1622147641) :
    Only m s (t.trialFails a1) := by
  refine h.trans (Only.mono (m := 1622147641) ?_ hm)
  unfold State.trialFails
  repeat' (first
    | (with_reducible exact Only.refl _ _)
    | (with_reducible refine State.fallbackStart_only ?_ ?_)
    | (with_reducible refine only_ite (fun _ => ?_) (fun _ => ?_))
    | (with_reducible refine only_foldl ?_ (fun _ _ => ?_))
    | decide
    | (dsimp only)
    | split)

theorem State.windowStart_only (h : Only m s t) (hm : 538968065 &&& m = 538968065) :
    Only m s (t.windowStart) := by
  refine h.trans (Only.mono (m := 538968065) ?_ hm)
  unfold State.windowStart
  repeat' (first
    | (with_reducible exact Only.refl _ _)
    | (with_reducible refine State.programBoot_only ?_ ?_)
    | (with_reducible refine only_ite (fun _ => ?_) (fun _ => ?_))
    | (with_reducible refine only_foldl ?_ (fun _ _ => ?_))
    | decide
    | (dsimp only)
    | split)

theorem State.switchArm_only (h : Only m s t) (hm : 536871424 &&& m = 536871424) :
    Only m s (t.switchArm) := by
  refine h.trans (Only.mono (m := 536871424) ?_ hm)
  unfold State.switchArm
  repeat' (first
    | (with_reducible exact Only.refl _ _)
    | (with_reducible refine State.setGroup_only ?_ ?_)
    | (with_reducible refine State.setUpd_only ?_ ?_)
    | (with_reducible refine only_ite (fun _ => ?_) (fun _ => ?_))
    | (with_reducible refine only_foldl ?_ (fun _ _ => ?_))
    | decide
    | (dsimp only)
    | split)

theorem State.trialServes_only (h : Only m s t) (hm : 547359233 &&& m = 547359233) :
    Only m s (t.trialServes) := by
  refine h.trans (Only.mono (m := 547359233) ?_ hm)
  unfold State.trialServes
  repeat' (first
    | (with_reducible exact Only.refl _ _)
    | (with_reducible refine State.windowStart_only ?_ ?_)
    | (with_reducible refine State.switchArm_only ?_ ?_)
    | (with_reducible refine State.ev60_only ?_ ?_)
    | (with_reducible refine State.setUpd_only ?_ ?_)
    | (with_reducible refine only_ite (fun _ => ?_) (fun _ => ?_))
    | (with_reducible refine only_foldl ?_ (fun _ _ => ?_))
    | decide
    | (dsimp only)
    | ((with_reducible refine only_set_dict ?_ (by decide)); first | (with_reducible exact Only.refl _ _) | (with_reducible refine State.windowStart_only ?_ ?_) | (with_reducible refine State.switchArm_only ?_ ?_) | (with_reducible refine State.ev60_only ?_ ?_) | (with_reducible refine State.setUpd_only ?_ ?_) | (with_reducible refine only_ite (fun _ => ?_) (fun _ => ?_)) | (with_reducible refine only_foldl ?_ (fun _ _ => ?_)))
    | ((with_reducible refine only_set_groups ?_ (by decide)); first | (with_reducible exact Only.refl _ _) | (with_reducible refine State.windowStart_only ?_ ?_) | (with_reducible refine State.switchArm_only ?_ ?_) | (with_reducible refine State.ev60_only ?_ ?_) | (with_reducible refine State.setUpd_only ?_ ?_) | (with_reducible refine only_ite (fun _ => ?_) (fun _ => ?_)) | (with_reducible refine only_foldl ?_ (fun _ _ => ?_)))
    | ((with_reducible refine only_set_accts ?_ (by decide)); first | (with_reducible exact Only.refl _ _) | (with_reducible refine State.windowStart_only ?_ ?_) | (with_reducible refine State.switchArm_only ?_ ?_) | (with_reducible refine State.ev60_only ?_ ?_) | (with_reducible refine State.setUpd_only ?_ ?_) | (with_reducible refine only_ite (fun _ => ?_) (fun _ => ?_)) | (with_reducible refine only_foldl ?_ (fun _ _ => ?_)))
    | ((with_reducible refine only_set_nvm ?_ ?_ (by decide)); rotate_left; (first | exact ⟨fun w => cellsSet_wf w _ _⟩ | exact ⟨fun w => w, fun _ p => List.mem_append_left _ p, fun _ => Nat.le_refl _⟩ | exact .of rfl rfl rfl | exact .of rfl rfl | exact .of rfl | exact Nat.le_refl _); first | (with_reducible exact Only.refl _ _) | (with_reducible refine State.windowStart_only ?_ ?_) | (with_reducible refine State.switchArm_only ?_ ?_) | (with_reducible refine State.ev60_only ?_ ?_) | (with_reducible refine State.setUpd_only ?_ ?_) | (with_reducible refine only_ite (fun _ => ?_) (fun _ => ?_)) | (with_reducible refine only_foldl ?_ (fun _ _ => ?_)))
    | ((with_reducible refine only_set_evt ?_ (by decide)); first | (with_reducible exact Only.refl _ _) | (with_reducible refine State.windowStart_only ?_ ?_) | (with_reducible refine State.switchArm_only ?_ ?_) | (with_reducible refine State.ev60_only ?_ ?_) | (with_reducible refine State.setUpd_only ?_ ?_) | (with_reducible refine only_ite (fun _ => ?_) (fun _ => ?_)) | (with_reducible refine only_foldl ?_ (fun _ _ => ?_)))
    | ((with_reducible refine only_set_upd ?_ (by decide)); first | (with_reducible exact Only.refl _ _) | (with_reducible refine State.windowStart_only ?_ ?_) | (with_reducible refine State.switchArm_only ?_ ?_) | (with_reducible refine State.ev60_only ?_ ?_) | (with_reducible refine State.setUpd_only ?_ ?_) | (with_reducible refine only_ite (fun _ => ?_) (fun _ => ?_)) | (with_reducible refine only_foldl ?_ (fun _ _ => ?_)))
    | split)

theorem State.retainedServes_only (h : Only m s t) (hm : 545259520 &&& m = 545259520) :
    Only m s (t.retainedServes) := by
  refine h.trans (Only.mono (m := 545259520) ?_ hm)
  unfold State.retainedServes
  repeat' (first
    | (with_reducible exact Only.refl _ _)
    | (with_reducible refine State.setUpd_only ?_ ?_)
    | (with_reducible refine State.ev61_only ?_ ?_)
    | (with_reducible refine only_ite (fun _ => ?_) (fun _ => ?_))
    | (with_reducible refine only_foldl ?_ (fun _ _ => ?_))
    | decide
    | (dsimp only)
    | split)

theorem State.trialAgain_only (h : Only m s t) (hm : 547357185 &&& m = 547357185) :
    Only m s (t.trialAgain) := by
  refine h.trans (Only.mono (m := 547357185) ?_ hm)
  unfold State.trialAgain
  repeat' (first
    | (with_reducible exact Only.refl _ _)
    | (with_reducible refine State.halfBack_only ?_ ?_)
    | (with_reducible refine State.setUpd_only ?_ ?_)
    | (with_reducible refine State.ev61_only ?_ ?_)
    | (with_reducible refine State.programBoot_only ?_ ?_)
    | (with_reducible refine only_ite (fun _ => ?_) (fun _ => ?_))
    | (with_reducible refine only_foldl ?_ (fun _ _ => ?_))
    | decide
    | (dsimp only)
    | split)

theorem State.imageStart_only {a1 : _} {a2 : _} (h : Only m s t) (hm : 1621101057 &&& m = 1621101057) :
    Only m s (t.imageStart a1 a2) := by
  refine h.trans (Only.mono (m := 1621101057) ?_ hm)
  unfold State.imageStart
  repeat' (first
    | (with_reducible exact Only.refl _ _)
    | (with_reducible refine State.bootBack_only ?_ ?_)
    | (with_reducible refine State.halfBack_only ?_ ?_)
    | (with_reducible refine State.trialAgain_only ?_ ?_)
    | (with_reducible refine State.trialServes_only ?_ ?_)
    | (with_reducible refine State.windowStart_only ?_ ?_)
    | (with_reducible refine State.setIsl_only ?_ ?_)
    | (with_reducible refine State.retainedServes_only ?_ ?_)
    | (with_reducible refine State.switchArm_only ?_ ?_)
    | (with_reducible refine State.setUpd_only ?_ ?_)
    | (with_reducible refine State.switchDone_only ?_ ?_)
    | (with_reducible refine only_ite (fun _ => ?_) (fun _ => ?_))
    | (with_reducible refine only_foldl ?_ (fun _ _ => ?_))
    | decide
    | (dsimp only)
    | split)

theorem State.activateImage_only (h : Only m s t) (hm : 1622147129 &&& m = 1622147129) :
    Only m s (t.activateImage) := by
  refine h.trans (Only.mono (m := 1622147129) ?_ hm)
  unfold State.activateImage
  repeat' (first
    | (with_reducible exact Only.refl _ _)
    | (with_reducible refine State.controlDown_only ?_ ?_)
    | (with_reducible refine State.scStep_only ?_ ?_)
    | (with_reducible refine State.setUpd_only ?_ ?_)
    | (with_reducible refine State.programBoot_only ?_ ?_)
    | (with_reducible refine only_ite (fun _ => ?_) (fun _ => ?_))
    | (with_reducible refine only_foldl ?_ (fun _ _ => ?_))
    | decide
    | (dsimp only)
    | split)

theorem State.confirmCheck_only (h : Only m s t) (hm : 547356673 &&& m = 547356673) :
    Only m s (t.confirmCheck) := by
  refine h.trans (Only.mono (m := 547356673) ?_ hm)
  unfold State.confirmCheck
  repeat' (first
    | (with_reducible exact Only.refl _ _)
    | (with_reducible refine State.ev60_only ?_ ?_)
    | (with_reducible refine State.setUpd_only ?_ ?_)
    | (with_reducible refine State.programBoot_only ?_ ?_)
    | (with_reducible refine only_ite (fun _ => ?_) (fun _ => ?_))
    | (with_reducible refine only_foldl ?_ (fun _ _ => ?_))
    | decide
    | (dsimp only)
    | split)

end Sys2Proof.Machine
end

