-- ==== Sys2Proof/Laws/Frame3.lean ====
section
/-! SUPPORT. What each shared operation may change (Only of Laws/Frame.lean), one lemma each: the operations of Machine/Restore,
Machine/MemOps, Machine/PowerOps, Machine/Dict, Machine/FrontCmd, Machine/CalCmd, Machine/Display, Machine/DispCmd,
Machine/Engines, Machine/Hk, Machine/IslandCmd. -/
namespace Sys2Proof.Machine

variable {m : Nat} {s x t : State}

theorem State.freshLines_only {a1 : _} {a2 : _} {a3 : _} (h : Only m s t) (hm : 65536 &&& m = 65536) :
    Only m s (t.freshLines a1 a2 a3) := by
  refine h.trans (Only.mono (m := 65536) ?_ hm)
  unfold State.freshLines
  repeat' (first
    | (with_reducible exact Only.refl _ _)
    | (with_reducible refine State.setAcc_only ?_ ?_)
    | (with_reducible refine only_ite (fun _ => ?_) (fun _ => ?_))
    | (with_reducible refine only_foldl ?_ (fun _ _ => ?_))
    | decide
    | (dsimp only)
    | split)

theorem State.restoreAcct_only {a1 : _} (h : Only m s t) (hm : 67584 &&& m = 67584) :
    Only m s (t.restoreAcct a1) := by
  refine h.trans (Only.mono (m := 67584) ?_ hm)
  unfold State.restoreAcct
  repeat' (first
    | (with_reducible exact Only.refl _ _)
    | (with_reducible refine State.setAcc_only ?_ ?_)
    | (with_reducible refine State.setAcct_only ?_ ?_)
    | (with_reducible refine State.freshLines_only ?_ ?_)
    | (with_reducible refine only_ite (fun _ => ?_) (fun _ => ?_))
    | (with_reducible refine only_foldl ?_ (fun _ _ => ?_))
    | decide
    | (dsimp only)
    | split)

theorem State.restoreBal_only {a1 : _} {a2 : _} (h : Only m s t) (hm : 196608 &&& m = 196608) :
    Only m s (t.restoreBal a1 a2) := by
  refine h.trans (Only.mono (m := 196608) ?_ hm)
  unfold State.restoreBal
  repeat' (first
    | (with_reducible exact Only.refl _ _)
    | (with_reducible refine State.setBal_only ?_ ?_)
    | (with_reducible refine State.freshLines_only ?_ ?_)
    | (with_reducible refine only_ite (fun _ => ?_) (fun _ => ?_))
    | (with_reducible refine only_foldl ?_ (fun _ _ => ?_))
    | decide
    | (dsimp only)
    | split)

theorem State.creditRebuild_only {a1 : _} (h : Only m s t) (hm : 2621440 &&& m = 2621440) :
    Only m s (t.creditRebuild a1) := by
  refine h.trans (Only.mono (m := 2621440) ?_ hm)
  unfold State.creditRebuild
  repeat' (first
    | (with_reducible exact Only.refl _ _)
    | (with_reducible refine State.setCredit_only ?_ ?_)
    | (with_reducible refine State.setPrepay_only ?_ ?_)
    | (with_reducible refine only_ite (fun _ => ?_) (fun _ => ?_))
    | (with_reducible refine only_foldl ?_ (fun _ _ => ?_))
    | decide
    | (dsimp only)
    | split)

theorem State.gapOn_only {a1 : _} (h : Only m s t) (hm : 2621440 &&& m = 2621440) :
    Only m s (t.gapOn a1) := by
  refine h.trans (Only.mono (m := 2621440) ?_ hm)
  unfold State.gapOn
  repeat' (first
    | (with_reducible exact Only.refl _ _)
    | (with_reducible refine State.setCredit_only ?_ ?_)
    | (with_reducible refine only_ite (fun _ => ?_) (fun _ => ?_))
    | (with_reducible refine only_foldl ?_ (fun _ _ => ?_))
    | decide
    | (dsimp only)
    | split)

theorem State.ev43Gap_only (h : Only m s t) (hm : 8388608 &&& m = 8388608) :
    Only m s (t.ev43Gap) := by
  refine h.trans (Only.mono (m := 8388608) ?_ hm)
  unfold State.ev43Gap
  repeat' (first
    | (with_reducible exact Only.refl _ _)
    | (with_reducible refine State.raise_only ?_ ?_)
    | (with_reducible refine only_ite (fun _ => ?_) (fun _ => ?_))
    | (with_reducible refine only_foldl ?_ (fun _ _ => ?_))
    | decide
    | (dsimp only)
    | split)

theorem State.creditRestore_only (h : Only m s t) (hm : 44564480 &&& m = 44564480) :
    Only m s (t.creditRestore) := by
  refine h.trans (Only.mono (m := 44564480) ?_ hm)
  unfold State.creditRestore
  repeat' (first
    | (with_reducible exact Only.refl _ _)
    | (with_reducible refine State.gapOn_only ?_ ?_)
    | (with_reducible refine State.ev43Gap_only ?_ ?_)
    | (with_reducible refine State.creditRebuild_only ?_ ?_)
    | (with_reducible refine State.setMem_only ?_ ?_ ?_)
    | (with_reducible refine only_ite (fun _ => ?_) (fun _ => ?_))
    | (with_reducible refine only_foldl ?_ (fun _ _ => ?_))
    | decide
    | exact ⟨fun w => cellsSet_wf w _ _⟩ | exact ⟨fun w => w, fun _ p => List.mem_append_left _ p, fun _ => Nat.le_refl _⟩ | exact .of rfl rfl rfl | exact .of rfl rfl | exact .of rfl | exact Nat.le_refl _
    | (dsimp only)
    | split)

theorem State.restoreAo_only (h : Only m s t) (hm : 1414004736 &&& m = 1414004736) :
    Only m s t.restoreAo := by
  refine h.trans (Only.mono (m := 1414004736) ?_ hm)
  have a : ∀ (u : State) (x1 : Pp) (x2 : Tamper) (x3 : Disp) (x4 : Pwr) (x5 : Isl),
      Only 1414004736 u { u with pp := x1, tamper := x2, disp := x3, pwr := x4, isl := x5 } := by
    intro u x1 x2 x3 x4 x5
    have y1 : Only 1414004736 u { u with pp := x1 } := only_set_pp (Only.refl _ _) (by decide)
    have y2 : Only 1414004736 { u with pp := x1 } { u with pp := x1, tamper := x2 } := only_set_tamper (Only.refl _ _) (by decide)
    have y3 : Only 1414004736 { u with pp := x1, tamper := x2 } { u with pp := x1, tamper := x2, disp := x3 } :=
      only_set_disp (Only.refl _ _) (by decide)
    have y4 : Only 1414004736 { u with pp := x1, tamper := x2, disp := x3 } { u with pp := x1, tamper := x2, disp := x3, pwr := x4 } :=
      only_set_pwr (Only.refl _ _) (by decide)
    have y5 : Only 1414004736 { u with pp := x1, tamper := x2, disp := x3, pwr := x4 }
        { u with pp := x1, tamper := x2, disp := x3, pwr := x4, isl := x5 } := only_set_isl (Only.refl _ _) (by decide)
    exact (((y1.trans y2).trans y3).trans y4).trans y5
  unfold State.restoreAo
  exact a _ _ _ _ _ _

theorem State.restoreDemand_only (h : Only m s t) (hm : 10551296 &&& m = 10551296) :
    Only m s (t.restoreDemand) := by
  refine h.trans (Only.mono (m := 10551296) ?_ hm)
  unfold State.restoreDemand
  repeat' (first
    | (with_reducible exact Only.refl _ _)
    | (with_reducible refine State.demandForce_only ?_ ?_)
    | (with_reducible refine State.profDone_only ?_ ?_)
    | (with_reducible refine State.setAcc_only ?_ ?_)
    | (with_reducible refine State.setDemand_only ?_ ?_)
    | (with_reducible refine State.profRecord_only ?_ ?_)
    | (with_reducible refine only_ite (fun _ => ?_) (fun _ => ?_))
    | (with_reducible refine only_foldl ?_ (fun _ _ => ?_))
    | decide
    | (dsimp only)
    | split)

theorem State.restorePulse_only {a1 : _} (h : Only m s t) (hm : 65536 &&& m = 65536) :
    Only m s (t.restorePulse a1) := by
  refine h.trans (Only.mono (m := 65536) ?_ hm)
  unfold State.restorePulse
  repeat' (first
    | (with_reducible exact Only.refl _ _)
    | (with_reducible refine State.setPulse_only ?_ ?_)
    | (with_reducible refine only_ite (fun _ => ?_) (fun _ => ?_))
    | (with_reducible refine only_foldl ?_ (fun _ _ => ?_))
    | decide
    | (dsimp only)
    | split)

theorem State.restoreSources_only (h : Only m s t) (hm : 78118912 &&& m = 78118912) :
    Only m s (t.restoreSources) := by
  refine h.trans (Only.mono (m := 78118912) ?_ hm)
  unfold State.restoreSources
  repeat' (first
    | (with_reducible exact Only.refl _ _)
    | (with_reducible refine State.setTamper_only ?_ ?_)
    | (with_reducible refine State.setPrepay_only ?_ ?_)
    | (with_reducible refine State.levels_only ?_ ?_)
    | (with_reducible refine State.queueOpen_only ?_ ?_)
    | (with_reducible refine only_ite (fun _ => ?_) (fun _ => ?_))
    | (with_reducible refine only_foldl ?_ (fun _ _ => ?_))
    | decide
    | (dsimp only)
    | split)

theorem State.restoreAll_only {a1 : _} (h : Only m s t) (hm : 1459301378 &&& m = 1459301378) :
    Only m s (t.restoreAll a1) := by
  refine h.trans (Only.mono (m := 1459301378) ?_ hm)
  unfold State.restoreAll
  repeat' (first
    | (with_reducible exact Only.refl _ _)
    | (with_reducible refine State.restoreBal_only ?_ ?_)
    | (with_reducible refine State.restorePulse_only ?_ ?_)
    | (with_reducible refine State.jSet_only ?_ ?_)
    | (with_reducible refine State.creditRestore_only ?_ ?_)
    | (with_reducible refine State.restoreAcct_only ?_ ?_)
    | (with_reducible refine State.restoreAo_only ?_ ?_)
    | (with_reducible refine State.setAcc_only ?_ ?_)
    | (with_reducible refine State.restoreSources_only ?_ ?_)
    | (with_reducible refine State.restoreDemand_only ?_ ?_)
    | (with_reducible refine State.schedStart_only ?_ ?_)
    | (with_reducible refine State.chargeTo_only ?_ ?_)
    | (with_reducible refine State.setNvm_only ?_ ?_ ?_)
    | (with_reducible refine State.setPrepay_only ?_ ?_)
    | (with_reducible refine State.setPwr_only ?_ ?_)
    | (with_reducible refine only_ite (fun _ => ?_) (fun _ => ?_))
    | (with_reducible refine only_foldl ?_ (fun _ _ => ?_))
    | decide
    | exact ⟨fun w => cellsSet_wf w _ _⟩ | exact ⟨fun w => w, fun _ p => List.mem_append_left _ p, fun _ => Nat.le_refl _⟩ | exact .of rfl rfl rfl | exact .of rfl rfl | exact .of rfl | exact Nat.le_refl _
    | (dsimp only)
    | split)

theorem State.setBank_only {a1 : _} {a2 : _} (h : Only m s t) (hm : 33554432 &&& m = 33554432) :
    Only m s (t.setBank a1 a2) := by
  refine h.trans (Only.mono (m := 33554432) ?_ hm)
  unfold State.setBank
  repeat' (first
    | (with_reducible exact Only.refl _ _)
    | (with_reducible refine State.setMem_only ?_ ?_ ?_)
    | (with_reducible refine only_ite (fun _ => ?_) (fun _ => ?_))
    | (with_reducible refine only_foldl ?_ (fun _ _ => ?_))
    | decide
    | exact ⟨fun w => cellsSet_wf w _ _⟩ | exact ⟨fun w => w, fun _ p => List.mem_append_left _ p, fun _ => Nat.le_refl _⟩ | exact .of rfl rfl rfl | exact .of rfl rfl | exact .of rfl | exact Nat.le_refl _
    | (dsimp only)
    | split)

theorem State.remapStore_only (h : Only m s t) (hm : 2097153 &&& m = 2097153) :
    Only m s (t.remapStore) := by
  refine h.trans (Only.mono (m := 2097153) ?_ hm)
  unfold State.remapStore
  repeat' (first
    | (with_reducible exact Only.refl _ _)
    | (with_reducible refine State.setCfg_only ?_ ?_)
    | (with_reducible refine State.storeTry_only ?_ ?_)
    | (with_reducible refine only_ite (fun _ => ?_) (fun _ => ?_))
    | (with_reducible refine only_foldl ?_ (fun _ _ => ?_))
    | decide
    | (dsimp only)
    | split)

theorem State.remapLoad_only (h : Only m s t) (hm : 33554432 &&& m = 33554432) :
    Only m s (t.remapLoad) := by
  refine h.trans (Only.mono (m := 33554432) ?_ hm)
  unfold State.remapLoad
  repeat' (first
    | (with_reducible exact Only.refl _ _)
    | (with_reducible refine State.setBank_only ?_ ?_)
    | (with_reducible refine only_ite (fun _ => ?_) (fun _ => ?_))
    | (with_reducible refine only_foldl ?_ (fun _ _ => ?_))
    | decide
    | (dsimp only)
    | split)

theorem State.ev19_only {a1 : _} {a2 : _} {a3 : _} {a4 : _} {a5 : _} (h : Only m s t) (hm : 8388608 &&& m = 8388608) :
    Only m s (t.ev19 a1 a2 a3 a4 a5) := by
  refine h.trans (Only.mono (m := 8388608) ?_ hm)
  unfold State.ev19
  repeat' (first
    | (with_reducible exact Only.refl _ _)
    | (with_reducible refine State.raise_only ?_ ?_)
    | (with_reducible refine only_ite (fun _ => ?_) (fun _ => ?_))
    | (with_reducible refine only_foldl ?_ (fun _ _ => ?_))
    | decide
    | (dsimp only)
    | split)

theorem State.remap_only {a1 : _} {a2 : _} {a3 : _} {a4 : _} {a5 : _} (h : Only m s t) (hm : 44040193 &&& m = 44040193) :
    Only m s (t.remap a1 a2 a3 a4 a5) := by
  refine h.trans (Only.mono (m := 44040193) ?_ hm)
  unfold State.remap
  repeat' (first
    | (with_reducible exact Only.refl _ _)
    | (with_reducible refine State.ev19_only ?_ ?_)
    | (with_reducible refine State.setBank_only ?_ ?_)
    | (with_reducible refine State.remapStore_only ?_ ?_)
    | (with_reducible refine State.raise_only ?_ ?_)
    | (with_reducible refine only_ite (fun _ => ?_) (fun _ => ?_))
    | (with_reducible refine only_foldl ?_ (fun _ _ => ?_))
    | decide
    | (dsimp only)
    | split)

theorem State.newTransit_only {a1 : _} {a2 : _} {a3 : _} {a4 : _} (h : Only m s t) (hm : 44040193 &&& m = 44040193) :
    Only m s (t.newTransit a1 a2 a3 a4) := by
  refine h.trans (Only.mono (m := 44040193) ?_ hm)
  unfold State.newTransit
  repeat' (first
    | (with_reducible exact Only.refl _ _)
    | (with_reducible refine State.ev19_only ?_ ?_)
    | (with_reducible refine State.setBank_only ?_ ?_)
    | (with_reducible refine State.remapStore_only ?_ ?_)
    | (with_reducible refine only_ite (fun _ => ?_) (fun _ => ?_))
    | (with_reducible refine only_foldl ?_ (fun _ _ => ?_))
    | decide
    | (dsimp only)
    | split)

theorem State.rowFailed_only {a1 : _} {a2 : _} {a3 : _} {a4 : _} (h : Only m s t) (hm : 44040193 &&& m = 44040193) :
    Only m s (t.rowFailed a1 a2 a3 a4) := by
  refine h.trans (Only.mono (m := 44040193) ?_ hm)
  unfold State.rowFailed
  repeat' (first
    | (with_reducible exact Only.refl _ _)
    | (with_reducible refine State.newTransit_only ?_ ?_)
    | (with_reducible refine State.ev19_only ?_ ?_)
    | (with_reducible refine State.setBank_only ?_ ?_)
    | (with_reducible refine State.remapStore_only ?_ ?_)
    | (with_reducible refine State.setMem_only ?_ ?_ ?_)
    | (with_reducible refine State.remap_only ?_ ?_)
    | (with_reducible refine only_ite (fun _ => ?_) (fun _ => ?_))
    | (with_reducible refine only_foldl ?_ (fun _ _ => ?_))
    | decide
    | exact ⟨fun w => cellsSet_wf w _ _⟩ | exact ⟨fun w => w, fun _ p => List.mem_append_left _ p, fun _ => Nat.le_refl _⟩ | exact .of rfl rfl rfl | exact .of rfl rfl | exact .of rfl | exact Nat.le_refl _
    | (dsimp only)
    | split)

theorem State.queueRow_only {a1 : _} {a2 : _} (h : Only m s t) (hm : 33554432 &&& m = 33554432) :
    Only m s (t.queueRow a1 a2) := by
  refine h.trans (Only.mono (m := 33554432) ?_ hm)
  unfold State.queueRow
  repeat' (first
    | (with_reducible exact Only.refl _ _)
    | (with_reducible refine State.setMem_only ?_ ?_ ?_)
    | (with_reducible refine only_ite (fun _ => ?_) (fun _ => ?_))
    | (with_reducible refine only_foldl ?_ (fun _ _ => ?_))
    | decide
    | exact ⟨fun w => cellsSet_wf w _ _⟩ | exact ⟨fun w => w, fun _ p => List.mem_append_left _ p, fun _ => Nat.le_refl _⟩ | exact .of rfl rfl rfl | exact .of rfl rfl | exact .of rfl | exact Nat.le_refl _
    | (dsimp only)
    | split)

theorem State.corrected_only {a1 : _} {a2 : _} {a3 : _} {a4 : _} (h : Only m s t) (hm : 41943040 &&& m = 41943040) :
    Only m s (t.corrected a1 a2 a3 a4) := by
  refine h.trans (Only.mono (m := 41943040) ?_ hm)
  unfold State.corrected
  repeat' (first
    | (with_reducible exact Only.refl _ _)
    | (with_reducible refine State.raiseAt_only ?_ ?_)
    | (with_reducible refine State.setBank_only ?_ ?_)
    | (with_reducible refine State.setMem_only ?_ ?_ ?_)
    | (with_reducible refine only_ite (fun _ => ?_) (fun _ => ?_))
    | (with_reducible refine only_foldl ?_ (fun _ _ => ?_))
    | decide
    | exact ⟨fun w => cellsSet_wf w _ _⟩ | exact ⟨fun w => w, fun _ p => List.mem_append_left _ p, fun _ => Nat.le_refl _⟩ | exact .of rfl rfl rfl | exact .of rfl rfl | exact .of rfl | exact Nat.le_refl _
    | (dsimp only)
    | split)

theorem State.scrubCount_only {a1 : _} (h : Only m s t) (hm : 33554432 &&& m = 33554432) :
    Only m s (t.scrubCount a1) := by
  refine h.trans (Only.mono (m := 33554432) ?_ hm)
  unfold State.scrubCount
  repeat' (first
    | (with_reducible exact Only.refl _ _)
    | (with_reducible refine State.setBank_only ?_ ?_)
    | (with_reducible refine State.queueRow_only ?_ ?_)
    | (with_reducible refine only_ite (fun _ => ?_) (fun _ => ?_))
    | (with_reducible refine only_foldl ?_ (fun _ _ => ?_))
    | decide
    | (dsimp only)
    | split)

theorem State.poisonSample_only {a1 : _} (h : Only m s t) (hm : 16 &&& m = 16) :
    Only m s (t.poisonSample a1) := by
  refine h.trans (Only.mono (m := 16) ?_ hm)
  unfold State.poisonSample
  repeat' (first
    | (with_reducible exact Only.refl _ _)
    | (with_reducible refine State.setChan_only ?_ ?_)
    | (with_reducible refine only_ite (fun _ => ?_) (fun _ => ?_))
    | (with_reducible refine only_foldl ?_ (fun _ _ => ?_))
    | decide
    | (dsimp only)
    | split)

theorem State.poisonQueue_only {a1 : _} (h : Only m s t) (hm : 1024 &&& m = 1024) :
    Only m s (t.poisonQueue a1) := by
  refine h.trans (Only.mono (m := 1024) ?_ hm)
  unfold State.poisonQueue
  repeat' (first
    | (with_reducible exact Only.refl _ _)
    | (with_reducible refine State.setEng_only ?_ ?_)
    | (with_reducible refine only_ite (fun _ => ?_) (fun _ => ?_))
    | (with_reducible refine only_foldl ?_ (fun _ _ => ?_))
    | decide
    | (dsimp only)
    | split)

theorem State.poisonRing_only {a1 : _} (h : Only m s t) (hm : 8388608 &&& m = 8388608) :
    Only m s (t.poisonRing a1) := by
  refine h.trans (Only.mono (m := 8388608) ?_ hm)
  unfold State.poisonRing
  repeat' (first
    | (with_reducible exact Only.refl _ _)
    | (with_reducible refine State.setRing_only ?_ ?_)
    | (with_reducible refine only_ite (fun _ => ?_) (fun _ => ?_))
    | (with_reducible refine only_foldl ?_ (fun _ _ => ?_))
    | decide
    | (dsimp only)
    | split)

theorem State.poisonSecure_only {a1 : _} (h : Only m s t) (hm : 11010048 &&& m = 11010048) :
    Only m s (t.poisonSecure a1) := by
  refine h.trans (Only.mono (m := 11010048) ?_ hm)
  unfold State.poisonSecure
  repeat' (first
    | (with_reducible exact Only.refl _ _)
    | (with_reducible refine State.gapOn_only ?_ ?_)
    | (with_reducible refine State.ev43Gap_only ?_ ?_)
    | (with_reducible refine State.creditRebuild_only ?_ ?_)
    | (with_reducible refine State.setPp_only ?_ ?_)
    | (with_reducible refine only_ite (fun _ => ?_) (fun _ => ?_))
    | (with_reducible refine only_foldl ?_ (fun _ _ => ?_))
    | decide
    | (dsimp only)
    | split)

theorem State.poisonCapture_only {a1 : Nat} (h : Only m s t) (hm : 33554432 &&& m = 33554432) : Only m s (t.poisonCapture a1) := by
  unfold State.poisonCapture
  dsimp only
  split
  · exact h
  · exact State.setMem_only h ⟨fun w => cellsSet_wf w _ _⟩ hm

theorem State.poisonRegion_only {a1 : Nat} (h : Only m s t) (hm : 44565520 &&& m = 44565520) :
    Only m s (t.poisonRegion a1) := by
  refine h.trans (Only.mono (m := 44565520) ?_ hm)
  have p1 : ∀ u : State, ∀ a, Only 44565520 u (u.poisonSecure a) := fun u a => State.poisonSecure_only (Only.refl _ _) (by decide)
  have p2 : ∀ u : State, ∀ a, Only 44565520 u (u.poisonSample a) := fun u a => State.poisonSample_only (Only.refl _ _) (by decide)
  have p3 : ∀ u : State, ∀ a, Only 44565520 u (u.poisonQueue a) := fun u a => State.poisonQueue_only (Only.refl _ _) (by decide)
  have p4 : ∀ u : State, ∀ a, Only 44565520 u (u.poisonRing a) := fun u a => State.poisonRing_only (Only.refl _ _) (by decide)
  have p5 : ∀ u : State, ∀ a, Only 44565520 u (u.poisonCapture a) := fun u a => State.poisonCapture_only (Only.refl _ _) (by decide)
  have p6 : ∀ u : State, ∀ x, Only 44565520 u (u.setMem (fun m => { m with recovering := m.recovering ++ x })) := fun u _ =>
    State.setMem_only (Only.refl _ _) (.of rfl) (by decide)
  unfold State.poisonRegion
  exact only_ite (fun _ => p1 _ _) (fun _ => only_ite (fun _ => p2 _ _) (fun _ => only_ite
    (fun _ => only_ite (fun _ => Only.refl _ _) (fun _ => p6 _ _)) (fun _ => only_ite (fun _ => Only.refl _ _)
    (fun _ => only_ite (fun _ => p3 _ _) (fun _ => only_ite (fun _ => p4 _ _) (fun _ => only_ite (fun _ => p5 _ _)
    (fun _ => Only.refl _ _)))))))

theorem State.poisonWord_only {a1 : _} {a2 : _} (h : Only m s t) (hm : 44565520 &&& m = 44565520) :
    Only m s (t.poisonWord a1 a2) := by
  refine h.trans (Only.mono (m := 44565520) ?_ hm)
  unfold State.poisonWord
  repeat' (first
    | (with_reducible exact Only.refl _ _)
    | (with_reducible refine State.setBank_only ?_ ?_)
    | (with_reducible refine State.raise_only ?_ ?_)
    | (with_reducible refine State.setMem_only ?_ ?_ ?_)
    | (with_reducible refine State.queueRow_only ?_ ?_)
    | (with_reducible refine State.poisonRegion_only ?_ ?_)
    | (with_reducible refine only_ite (fun _ => ?_) (fun _ => ?_))
    | (with_reducible refine only_foldl ?_ (fun _ _ => ?_))
    | decide
    | exact ⟨fun w => cellsSet_wf w _ _⟩ | exact ⟨fun w => w, fun _ p => List.mem_append_left _ p, fun _ => Nat.le_refl _⟩ | exact .of rfl rfl rfl | exact .of rfl rfl | exact .of rfl | exact Nat.le_refl _
    | (dsimp only)
    | split)

theorem State.violate_only {a1 : _} {a2 : _} {a3 : _} {a4 : _} (h : Only m s t) (hm : 41943040 &&& m = 41943040) :
    Only m s (t.violate a1 a2 a3 a4) := by
  refine h.trans (Only.mono (m := 41943040) ?_ hm)
  unfold State.violate
  repeat' (first
    | (with_reducible exact Only.refl _ _)
    | (with_reducible refine State.raise_only ?_ ?_)
    | (with_reducible refine State.setMem_only ?_ ?_ ?_)
    | (with_reducible refine only_ite (fun _ => ?_) (fun _ => ?_))
    | (with_reducible refine only_foldl ?_ (fun _ _ => ?_))
    | decide
    | exact ⟨fun w => cellsSet_wf w _ _⟩ | exact ⟨fun w => w, fun _ p => List.mem_append_left _ p, fun _ => Nat.le_refl _⟩ | exact .of rfl rfl rfl | exact .of rfl rfl | exact .of rfl | exact Nat.le_refl _
    | (dsimp only)
    | split)

theorem State.outageOpen_only {a1 : _} (h : Only m s t) (hm : 4194304 &&& m = 4194304) :
    Only m s (t.outageOpen a1) := by
  refine h.trans (Only.mono (m := 4194304) ?_ hm)
  unfold State.outageOpen
  repeat' (first
    | (with_reducible exact Only.refl _ _)
    | (with_reducible refine State.setPwr_only ?_ ?_)
    | (with_reducible refine only_ite (fun _ => ?_) (fun _ => ?_))
    | (with_reducible refine only_foldl ?_ (fun _ _ => ?_))
    | decide
    | (dsimp only)
    | split)

theorem State.relayCut_only (h : Only m s t) (hm : 524288 &&& m = 524288) :
    Only m s (t.relayCut) := by
  refine h.trans (Only.mono (m := 524288) ?_ hm)
  unfold State.relayCut
  repeat' (first
    | (with_reducible exact Only.refl _ _)
    | (with_reducible refine State.setPp_only ?_ ?_)
    | (with_reducible refine only_ite (fun _ => ?_) (fun _ => ?_))
    | (with_reducible refine only_foldl ?_ (fun _ _ => ?_))
    | decide
    | (dsimp only)
    | split)

theorem State.gateIslands_only (h : Only m s t) (hm : 4194304 &&& m = 4194304) :
    Only m s (t.gateIslands) := by
  refine h.trans (Only.mono (m := 4194304) ?_ hm)
  unfold State.gateIslands
  repeat' (first
    | (with_reducible exact Only.refl _ _)
    | (with_reducible refine State.setPwr_only ?_ ?_)
    | (with_reducible refine only_ite (fun _ => ?_) (fun _ => ?_))
    | (with_reducible refine only_foldl ?_ (fun _ _ => ?_))
    | decide
    | (dsimp only)
    | split)

theorem State.emergency_only {a1 : _} {a2 : _} (h : Only m s t) (hm : 385612985 &&& m = 385612985) :
    Only m s (t.emergency a1 a2) := by
  refine h.trans (Only.mono (m := 385612985) ?_ hm)
  unfold State.emergency
  repeat' (first
    | (with_reducible exact Only.refl _ _)
    | (with_reducible refine State.outageOpen_only ?_ ?_)
    | (with_reducible refine State.sessionStart_only ?_ ?_)
    | (with_reducible refine State.gateIslands_only ?_ ?_)
    | (with_reducible refine State.relayCut_only ?_ ?_)
    | (with_reducible refine State.setEng_only ?_ ?_)
    | (with_reducible refine State.pqTruncate_only ?_ ?_)
    | (with_reducible refine State.dispAbandon_only ?_ ?_)
    | (with_reducible refine State.commitAll_only ?_ ?_)
    | (with_reducible refine State.raise_only ?_ ?_)
    | (with_reducible refine State.setCal_only ?_ ?_)
    | (with_reducible refine State.setTamper_only ?_ ?_)
    | (with_reducible refine State.holdDrop_only ?_ ?_)
    | (with_reducible refine State.outputsOff_only ?_ ?_)
    | (with_reducible refine State.setHk_only ?_ ?_)
    | (with_reducible refine State.setPwr_only ?_ ?_)
    | (with_reducible refine only_ite (fun _ => ?_) (fun _ => ?_))
    | (with_reducible refine only_foldl ?_ (fun _ _ => ?_))
    | decide
    | (dsimp only)
    | split)

theorem State.restartDevice_only {a1 : _} (h : Only m s t) (hm : 385612985 &&& m = 385612985) :
    Only m s (t.restartDevice a1) := by
  refine h.trans (Only.mono (m := 385612985) ?_ hm)
  unfold State.restartDevice
  repeat' (first
    | (with_reducible exact Only.refl _ _)
    | (with_reducible refine State.emergency_only ?_ ?_)
    | (with_reducible refine State.deferEvent_only ?_ ?_)
    | (with_reducible refine only_ite (fun _ => ?_) (fun _ => ?_))
    | (with_reducible refine only_foldl ?_ (fun _ _ => ?_))
    | decide
    | (dsimp only)
    | split)

theorem State.restartIfDue_only (h : Only m s t) (hm : 385612985 &&& m = 385612985) :
    Only m s (t.restartIfDue) := by
  refine h.trans (Only.mono (m := 385612985) ?_ hm)
  unfold State.restartIfDue
  repeat' (first
    | (with_reducible exact Only.refl _ _)
    | (with_reducible refine State.restartDevice_only ?_ ?_)
    | (with_reducible refine State.setTamper_only ?_ ?_)
    | (with_reducible refine only_ite (fun _ => ?_) (fun _ => ?_))
    | (with_reducible refine only_foldl ?_ (fun _ _ => ?_))
    | decide
    | (dsimp only)
    | split)

theorem State.toVbat_only (h : Only m s t) (hm : 272629760 &&& m = 272629760) :
    Only m s (t.toVbat) := by
  refine h.trans (Only.mono (m := 272629760) ?_ hm)
  unfold State.toVbat
  repeat' (first
    | (with_reducible exact Only.refl _ _)
    | (with_reducible refine State.setDisp_only ?_ ?_)
    | (with_reducible refine State.selvTarget_only ?_ ?_)
    | (with_reducible refine State.setPwr_only ?_ ?_)
    | (with_reducible refine only_ite (fun _ => ?_) (fun _ => ?_))
    | (with_reducible refine only_foldl ?_ (fun _ _ => ?_))
    | decide
    | (dsimp only)
    | split)

theorem State.vbatCompare_only {a1 : _} (h : Only m s t) (hm : 12582912 &&& m = 12582912) :
    Only m s (t.vbatCompare a1) := by
  refine h.trans (Only.mono (m := 12582912) ?_ hm)
  unfold State.vbatCompare
  repeat' (first
    | (with_reducible exact Only.refl _ _)
    | (with_reducible refine State.raise_only ?_ ?_)
    | (with_reducible refine State.deferEvent_only ?_ ?_)
    | (with_reducible refine State.setPwr_only ?_ ?_)
    | (with_reducible refine only_ite (fun _ => ?_) (fun _ => ?_))
    | (with_reducible refine only_foldl ?_ (fun _ _ => ?_))
    | decide
    | (dsimp only)
    | split)

theorem State.startRetired_only {a1 : _} (h : Only m s t) (hm : 28 &&& m = 28) :
    Only m s (t.startRetired a1) := by
  refine h.trans (Only.mono (m := 28) ?_ hm)
  unfold State.startRetired
  repeat' (first
    | (with_reducible exact Only.refl _ _)
    | (with_reducible refine State.setSpare_only ?_ ?_)
    | (with_reducible refine State.setChan_only ?_ ?_)
    | (with_reducible refine State.setMod_only ?_ ?_)
    | (with_reducible refine only_ite (fun _ => ?_) (fun _ => ?_))
    | (with_reducible refine only_foldl ?_ (fun _ _ => ?_))
    | decide
    | (dsimp only)
    | split)

theorem State.startFrontEnd_only (h : Only m s t) (hm : 3146525 &&& m = 3146525) :
    Only m s (t.startFrontEnd) := by
  refine h.trans (Only.mono (m := 3146525) ?_ hm)
  unfold State.startFrontEnd
  repeat' (first
    | (with_reducible exact Only.refl _ _)
    | (with_reducible refine State.laneStart_only ?_ ?_)
    | (with_reducible refine State.setSpare_only ?_ ?_)
    | (with_reducible refine State.startRetired_only ?_ ?_)
    | (with_reducible refine State.dacLoad_only ?_ ?_)
    | (with_reducible refine State.groupStart_only ?_ ?_)
    | (with_reducible refine State.setMod_only ?_ ?_)
    | (with_reducible refine State.requestLoad_only ?_ ?_)
    | (with_reducible refine only_ite (fun _ => ?_) (fun _ => ?_))
    | (with_reducible refine only_foldl ?_ (fun _ _ => ?_))
    | decide
    | (dsimp only)
    | split)

theorem State.startMetering_only {a1 : _} (h : Only m s t) (hm : 9216 &&& m = 9216) :
    Only m s (t.startMetering a1) := by
  refine h.trans (Only.mono (m := 9216) ?_ hm)
  unfold State.startMetering
  repeat' (first
    | (with_reducible exact Only.refl _ _)
    | (with_reducible refine State.setEng_only ?_ ?_)
    | (with_reducible refine State.setPq_only ?_ ?_)
    | (with_reducible refine only_ite (fun _ => ?_) (fun _ => ?_))
    | (with_reducible refine only_foldl ?_ (fun _ _ => ?_))
    | decide
    | (dsimp only)
    | split)

theorem State.startUpdate_only (h : Only m s t) (hm : 538968065 &&& m = 538968065) :
    Only m s (t.startUpdate) := by
  refine h.trans (Only.mono (m := 538968065) ?_ hm)
  unfold State.startUpdate
  repeat' (first
    | (with_reducible exact Only.refl _ _)
    | (with_reducible refine State.bootBack_only ?_ ?_)
    | (with_reducible refine State.setUpd_only ?_ ?_)
    | (with_reducible refine State.programBoot_only ?_ ?_)
    | (with_reducible refine only_ite (fun _ => ?_) (fun _ => ?_))
    | (with_reducible refine only_foldl ?_ (fun _ _ => ?_))
    | decide
    | (dsimp only)
    | ((with_reducible refine only_set_dict ?_ (by decide)); first | (with_reducible exact Only.refl _ _) | (with_reducible refine State.bootBack_only ?_ ?_) | (with_reducible refine State.setUpd_only ?_ ?_) | (with_reducible refine State.programBoot_only ?_ ?_) | (with_reducible refine only_ite (fun _ => ?_) (fun _ => ?_)) | (with_reducible refine only_foldl ?_ (fun _ _ => ?_)))
    | ((with_reducible refine only_set_nvm ?_ ?_ (by decide)); rotate_left; (first | exact ⟨fun w => cellsSet_wf w _ _⟩ | exact ⟨fun w => w, fun _ p => List.mem_append_left _ p, fun _ => Nat.le_refl _⟩ | exact .of rfl rfl rfl | exact .of rfl rfl | exact .of rfl | exact Nat.le_refl _); first | (with_reducible exact Only.refl _ _) | (with_reducible refine State.bootBack_only ?_ ?_) | (with_reducible refine State.setUpd_only ?_ ?_) | (with_reducible refine State.programBoot_only ?_ ?_) | (with_reducible refine only_ite (fun _ => ?_) (fun _ => ?_)) | (with_reducible refine only_foldl ?_ (fun _ _ => ?_)))
    | ((with_reducible refine only_set_upd ?_ (by decide)); first | (with_reducible exact Only.refl _ _) | (with_reducible refine State.bootBack_only ?_ ?_) | (with_reducible refine State.setUpd_only ?_ ?_) | (with_reducible refine State.programBoot_only ?_ ?_) | (with_reducible refine only_ite (fun _ => ?_) (fun _ => ?_)) | (with_reducible refine only_foldl ?_ (fun _ _ => ?_)))
    | split)

theorem State.startFresh_only (h : Only m s t) (hm : 1606418431 &&& m = 1606418431) :
    Only m s t.startFresh := by
  refine h.trans (Only.mono (m := 1606418431) ?_ hm)
  constructor
  case pending => rfl
  case clk => exact Nat.le_refl _
  case nvmStep => exact .of rfl rfl rfl
  case memStep => exact ⟨fun _ => rfl⟩
  case lifeStep => exact .of rfl rfl
  all_goals intro hb; first | rfl | exact absurd hb (by decide)

theorem State.partialCell_only (h : Only m s t) (hm : 8388608 &&& m = 8388608) :
    Only m s (t.partialCell) := by
  refine h.trans (Only.mono (m := 8388608) ?_ hm)
  unfold State.partialCell
  repeat' (first
    | (with_reducible exact Only.refl _ _)
    | (with_reducible refine State.raise_only ?_ ?_)
    | (with_reducible refine only_ite (fun _ => ?_) (fun _ => ?_))
    | (with_reducible refine only_foldl ?_ (fun _ _ => ?_))
    | decide
    | (dsimp only)
    | split)

theorem State.castOn_only (h : Only m s t) (hm : 2147483647 &&& m = 2147483647) :
    Only m s (t.castOn) := by
  refine h.trans (Only.mono (m := 2147483647) ?_ hm)
  unfold State.castOn
  repeat' (first
    | (with_reducible exact Only.refl _ _)
    | (with_reducible refine State.startFrontEnd_only ?_ ?_)
    | (with_reducible refine State.startUpdate_only ?_ ?_)
    | (with_reducible refine State.remapLoad_only ?_ ?_)
    | (with_reducible refine State.startMetering_only ?_ ?_)
    | (with_reducible refine State.setDisp_only ?_ ?_)
    | (with_reducible refine State.selvStatus_only ?_ ?_)
    | (with_reducible refine State.selvClear_only ?_ ?_)
    | (with_reducible refine State.startFresh_only ?_ ?_)
    | (with_reducible refine State.partialCell_only ?_ ?_)
    | (with_reducible refine State.setPwr_only ?_ ?_)
    | (with_reducible refine only_ite (fun _ => ?_) (fun _ => ?_))
    | (with_reducible refine only_foldl ?_ (fun _ _ => ?_))
    | decide
    | exact ⟨fun w => cellsSet_wf w _ _⟩ | exact ⟨fun w => w, fun _ p => List.mem_append_left _ p, fun _ => Nat.le_refl _⟩ | exact .of rfl rfl rfl | exact .of rfl rfl | exact .of rfl | exact Nat.le_refl _
    | (dsimp only)
    | ((with_reducible refine only_set_dict ?_ (by decide)); first | (with_reducible exact Only.refl _ _) | (with_reducible refine State.startFrontEnd_only ?_ ?_) | (with_reducible refine State.startUpdate_only ?_ ?_) | (with_reducible refine State.remapLoad_only ?_ ?_) | (with_reducible refine State.startMetering_only ?_ ?_) | (with_reducible refine State.setDisp_only ?_ ?_) | (with_reducible refine State.selvStatus_only ?_ ?_) | (with_reducible refine State.selvClear_only ?_ ?_) | (with_reducible refine State.startFresh_only ?_ ?_) | (with_reducible refine State.partialCell_only ?_ ?_) | (with_reducible refine State.setPwr_only ?_ ?_) | (with_reducible refine only_ite (fun _ => ?_) (fun _ => ?_)) | (with_reducible refine only_foldl ?_ (fun _ _ => ?_)))
    | ((with_reducible refine only_set_clock ?_ ?_ (by decide)); rotate_left; (first | exact ⟨fun w => cellsSet_wf w _ _⟩ | exact ⟨fun w => w, fun _ p => List.mem_append_left _ p, fun _ => Nat.le_refl _⟩ | exact .of rfl rfl rfl | exact .of rfl rfl | exact .of rfl | exact Nat.le_refl _); first | (with_reducible exact Only.refl _ _) | (with_reducible refine State.startFrontEnd_only ?_ ?_) | (with_reducible refine State.startUpdate_only ?_ ?_) | (with_reducible refine State.remapLoad_only ?_ ?_) | (with_reducible refine State.startMetering_only ?_ ?_) | (with_reducible refine State.setDisp_only ?_ ?_) | (with_reducible refine State.selvStatus_only ?_ ?_) | (with_reducible refine State.selvClear_only ?_ ?_) | (with_reducible refine State.startFresh_only ?_ ?_) | (with_reducible refine State.partialCell_only ?_ ?_) | (with_reducible refine State.setPwr_only ?_ ?_) | (with_reducible refine only_ite (fun _ => ?_) (fun _ => ?_)) | (with_reducible refine only_foldl ?_ (fun _ _ => ?_)))
    | ((with_reducible refine only_set_mods ?_ (by decide)); first | (with_reducible exact Only.refl _ _) | (with_reducible refine State.startFrontEnd_only ?_ ?_) | (with_reducible refine State.startUpdate_only ?_ ?_) | (with_reducible refine State.remapLoad_only ?_ ?_) | (with_reducible refine State.startMetering_only ?_ ?_) | (with_reducible refine State.setDisp_only ?_ ?_) | (with_reducible refine State.selvStatus_only ?_ ?_) | (with_reducible refine State.selvClear_only ?_ ?_) | (with_reducible refine State.startFresh_only ?_ ?_) | (with_reducible refine State.partialCell_only ?_ ?_) | (with_reducible refine State.setPwr_only ?_ ?_) | (with_reducible refine only_ite (fun _ => ?_) (fun _ => ?_)) | (with_reducible refine only_foldl ?_ (fun _ _ => ?_)))
    | ((with_reducible refine only_set_spares ?_ (by decide)); first | (with_reducible exact Only.refl _ _) | (with_reducible refine State.startFrontEnd_only ?_ ?_) | (with_reducible refine State.startUpdate_only ?_ ?_) | (with_reducible refine State.remapLoad_only ?_ ?_) | (with_reducible refine State.startMetering_only ?_ ?_) | (with_reducible refine State.setDisp_only ?_ ?_) | (with_reducible refine State.selvStatus_only ?_ ?_) | (with_reducible refine State.selvClear_only ?_ ?_) | (with_reducible refine State.startFresh_only ?_ ?_) | (with_reducible refine State.partialCell_only ?_ ?_) | (with_reducible refine State.setPwr_only ?_ ?_) | (with_reducible refine only_ite (fun _ => ?_) (fun _ => ?_)) | (with_reducible refine only_foldl ?_ (fun _ _ => ?_)))
    | ((with_reducible refine only_set_chans ?_ (by decide)); first | (with_reducible exact Only.refl _ _) | (with_reducible refine State.startFrontEnd_only ?_ ?_) | (with_reducible refine State.startUpdate_only ?_ ?_) | (with_reducible refine State.remapLoad_only ?_ ?_) | (with_reducible refine State.startMetering_only ?_ ?_) | (with_reducible refine State.setDisp_only ?_ ?_) | (with_reducible refine State.selvStatus_only ?_ ?_) | (with_reducible refine State.selvClear_only ?_ ?_) | (with_reducible refine State.startFresh_only ?_ ?_) | (with_reducible refine State.partialCell_only ?_ ?_) | (with_reducible refine State.setPwr_only ?_ ?_) | (with_reducible refine only_ite (fun _ => ?_) (fun _ => ?_)) | (with_reducible refine only_foldl ?_ (fun _ _ => ?_)))
    | ((with_reducible refine only_set_hk ?_ (by decide)); first | (with_reducible exact Only.refl _ _) | (with_reducible refine State.startFrontEnd_only ?_ ?_) | (with_reducible refine State.startUpdate_only ?_ ?_) | (with_reducible refine State.remapLoad_only ?_ ?_) | (with_reducible refine State.startMetering_only ?_ ?_) | (with_reducible refine State.setDisp_only ?_ ?_) | (with_reducible refine State.selvStatus_only ?_ ?_) | (with_reducible refine State.selvClear_only ?_ ?_) | (with_reducible refine State.startFresh_only ?_ ?_) | (with_reducible refine State.partialCell_only ?_ ?_) | (with_reducible refine State.setPwr_only ?_ ?_) | (with_reducible refine only_ite (fun _ => ?_) (fun _ => ?_)) | (with_reducible refine only_foldl ?_ (fun _ _ => ?_)))
    | ((with_reducible refine only_set_th ?_ (by decide)); first | (with_reducible exact Only.refl _ _) | (with_reducible refine State.startFrontEnd_only ?_ ?_) | (with_reducible refine State.startUpdate_only ?_ ?_) | (with_reducible refine State.remapLoad_only ?_ ?_) | (with_reducible refine State.startMetering_only ?_ ?_) | (with_reducible refine State.setDisp_only ?_ ?_) | (with_reducible refine State.selvStatus_only ?_ ?_) | (with_reducible refine State.selvClear_only ?_ ?_) | (with_reducible refine State.startFresh_only ?_ ?_) | (with_reducible refine State.partialCell_only ?_ ?_) | (with_reducible refine State.setPwr_only ?_ ?_) | (with_reducible refine only_ite (fun _ => ?_) (fun _ => ?_)) | (with_reducible refine only_foldl ?_ (fun _ _ => ?_)))
    | ((with_reducible refine only_set_ftrip ?_ (by decide)); first | (with_reducible exact Only.refl _ _) | (with_reducible refine State.startFrontEnd_only ?_ ?_) | (with_reducible refine State.startUpdate_only ?_ ?_) | (with_reducible refine State.remapLoad_only ?_ ?_) | (with_reducible refine State.startMetering_only ?_ ?_) | (with_reducible refine State.setDisp_only ?_ ?_) | (with_reducible refine State.selvStatus_only ?_ ?_) | (with_reducible refine State.selvClear_only ?_ ?_) | (with_reducible refine State.startFresh_only ?_ ?_) | (with_reducible refine State.partialCell_only ?_ ?_) | (with_reducible refine State.setPwr_only ?_ ?_) | (with_reducible refine only_ite (fun _ => ?_) (fun _ => ?_)) | (with_reducible refine only_foldl ?_ (fun _ _ => ?_)))
    | ((with_reducible refine only_set_tracks ?_ (by decide)); first | (with_reducible exact Only.refl _ _) | (with_reducible refine State.startFrontEnd_only ?_ ?_) | (with_reducible refine State.startUpdate_only ?_ ?_) | (with_reducible refine State.remapLoad_only ?_ ?_) | (with_reducible refine State.startMetering_only ?_ ?_) | (with_reducible refine State.setDisp_only ?_ ?_) | (with_reducible refine State.selvStatus_only ?_ ?_) | (with_reducible refine State.selvClear_only ?_ ?_) | (with_reducible refine State.startFresh_only ?_ ?_) | (with_reducible refine State.partialCell_only ?_ ?_) | (with_reducible refine State.setPwr_only ?_ ?_) | (with_reducible refine only_ite (fun _ => ?_) (fun _ => ?_)) | (with_reducible refine only_foldl ?_ (fun _ _ => ?_)))
    | ((with_reducible refine only_set_groups ?_ (by decide)); first | (with_reducible exact Only.refl _ _) | (with_reducible refine State.startFrontEnd_only ?_ ?_) | (with_reducible refine State.startUpdate_only ?_ ?_) | (with_reducible refine State.remapLoad_only ?_ ?_) | (with_reducible refine State.startMetering_only ?_ ?_) | (with_reducible refine State.setDisp_only ?_ ?_) | (with_reducible refine State.selvStatus_only ?_ ?_) | (with_reducible refine State.selvClear_only ?_ ?_) | (with_reducible refine State.startFresh_only ?_ ?_) | (with_reducible refine State.partialCell_only ?_ ?_) | (with_reducible refine State.setPwr_only ?_ ?_) | (with_reducible refine only_ite (fun _ => ?_) (fun _ => ?_)) | (with_reducible refine only_foldl ?_ (fun _ _ => ?_)))
    | ((with_reducible refine only_set_eng ?_ (by decide)); first | (with_reducible exact Only.refl _ _) | (with_reducible refine State.startFrontEnd_only ?_ ?_) | (with_reducible refine State.startUpdate_only ?_ ?_) | (with_reducible refine State.remapLoad_only ?_ ?_) | (with_reducible refine State.startMetering_only ?_ ?_) | (with_reducible refine State.setDisp_only ?_ ?_) | (with_reducible refine State.selvStatus_only ?_ ?_) | (with_reducible refine State.selvClear_only ?_ ?_) | (with_reducible refine State.startFresh_only ?_ ?_) | (with_reducible refine State.partialCell_only ?_ ?_) | (with_reducible refine State.setPwr_only ?_ ?_) | (with_reducible refine only_ite (fun _ => ?_) (fun _ => ?_)) | (with_reducible refine only_foldl ?_ (fun _ _ => ?_)))
    | ((with_reducible refine only_set_accts ?_ (by decide)); first | (with_reducible exact Only.refl _ _) | (with_reducible refine State.startFrontEnd_only ?_ ?_) | (with_reducible refine State.startUpdate_only ?_ ?_) | (with_reducible refine State.remapLoad_only ?_ ?_) | (with_reducible refine State.startMetering_only ?_ ?_) | (with_reducible refine State.setDisp_only ?_ ?_) | (with_reducible refine State.selvStatus_only ?_ ?_) | (with_reducible refine State.selvClear_only ?_ ?_) | (with_reducible refine State.startFresh_only ?_ ?_) | (with_reducible refine State.partialCell_only ?_ ?_) | (with_reducible refine State.setPwr_only ?_ ?_) | (with_reducible refine only_ite (fun _ => ?_) (fun _ => ?_)) | (with_reducible refine only_foldl ?_ (fun _ _ => ?_)))
    | ((with_reducible refine only_set_chres ?_ (by decide)); first | (with_reducible exact Only.refl _ _) | (with_reducible refine State.startFrontEnd_only ?_ ?_) | (with_reducible refine State.startUpdate_only ?_ ?_) | (with_reducible refine State.remapLoad_only ?_ ?_) | (with_reducible refine State.startMetering_only ?_ ?_) | (with_reducible refine State.setDisp_only ?_ ?_) | (with_reducible refine State.selvStatus_only ?_ ?_) | (with_reducible refine State.selvClear_only ?_ ?_) | (with_reducible refine State.startFresh_only ?_ ?_) | (with_reducible refine State.partialCell_only ?_ ?_) | (with_reducible refine State.setPwr_only ?_ ?_) | (with_reducible refine only_ite (fun _ => ?_) (fun _ => ?_)) | (with_reducible refine only_foldl ?_ (fun _ _ => ?_)))
    | ((with_reducible refine only_set_pq ?_ (by decide)); first | (with_reducible exact Only.refl _ _) | (with_reducible refine State.startFrontEnd_only ?_ ?_) | (with_reducible refine State.startUpdate_only ?_ ?_) | (with_reducible refine State.remapLoad_only ?_ ?_) | (with_reducible refine State.startMetering_only ?_ ?_) | (with_reducible refine State.setDisp_only ?_ ?_) | (with_reducible refine State.selvStatus_only ?_ ?_) | (with_reducible refine State.selvClear_only ?_ ?_) | (with_reducible refine State.startFresh_only ?_ ?_) | (with_reducible refine State.partialCell_only ?_ ?_) | (with_reducible refine State.setPwr_only ?_ ?_) | (with_reducible refine only_ite (fun _ => ?_) (fun _ => ?_)) | (with_reducible refine only_foldl ?_ (fun _ _ => ?_)))
    | ((with_reducible refine only_set_capt ?_ (by decide)); first | (with_reducible exact Only.refl _ _) | (with_reducible refine State.startFrontEnd_only ?_ ?_) | (with_reducible refine State.startUpdate_only ?_ ?_) | (with_reducible refine State.remapLoad_only ?_ ?_) | (with_reducible refine State.startMetering_only ?_ ?_) | (with_reducible refine State.setDisp_only ?_ ?_) | (with_reducible refine State.selvStatus_only ?_ ?_) | (with_reducible refine State.selvClear_only ?_ ?_) | (with_reducible refine State.startFresh_only ?_ ?_) | (with_reducible refine State.partialCell_only ?_ ?_) | (with_reducible refine State.setPwr_only ?_ ?_) | (with_reducible refine only_ite (fun _ => ?_) (fun _ => ?_)) | (with_reducible refine only_foldl ?_ (fun _ _ => ?_)))
    | ((with_reducible refine only_set_captMissed ?_ (by decide)); first | (with_reducible exact Only.refl _ _) | (with_reducible refine State.startFrontEnd_only ?_ ?_) | (with_reducible refine State.startUpdate_only ?_ ?_) | (with_reducible refine State.remapLoad_only ?_ ?_) | (with_reducible refine State.startMetering_only ?_ ?_) | (with_reducible refine State.setDisp_only ?_ ?_) | (with_reducible refine State.selvStatus_only ?_ ?_) | (with_reducible refine State.selvClear_only ?_ ?_) | (with_reducible refine State.startFresh_only ?_ ?_) | (with_reducible refine State.partialCell_only ?_ ?_) | (with_reducible refine State.setPwr_only ?_ ?_) | (with_reducible refine only_ite (fun _ => ?_) (fun _ => ?_)) | (with_reducible refine only_foldl ?_ (fun _ _ => ?_)))
    | ((with_reducible refine only_set_acc ?_ (by decide)); first | (with_reducible exact Only.refl _ _) | (with_reducible refine State.startFrontEnd_only ?_ ?_) | (with_reducible refine State.startUpdate_only ?_ ?_) | (with_reducible refine State.remapLoad_only ?_ ?_) | (with_reducible refine State.startMetering_only ?_ ?_) | (with_reducible refine State.setDisp_only ?_ ?_) | (with_reducible refine State.selvStatus_only ?_ ?_) | (with_reducible refine State.selvClear_only ?_ ?_) | (with_reducible refine State.startFresh_only ?_ ?_) | (with_reducible refine State.partialCell_only ?_ ?_) | (with_reducible refine State.setPwr_only ?_ ?_) | (with_reducible refine only_ite (fun _ => ?_) (fun _ => ?_)) | (with_reducible refine only_foldl ?_ (fun _ _ => ?_)))
    | ((with_reducible refine only_set_bal ?_ (by decide)); first | (with_reducible exact Only.refl _ _) | (with_reducible refine State.startFrontEnd_only ?_ ?_) | (with_reducible refine State.startUpdate_only ?_ ?_) | (with_reducible refine State.remapLoad_only ?_ ?_) | (with_reducible refine State.startMetering_only ?_ ?_) | (with_reducible refine State.setDisp_only ?_ ?_) | (with_reducible refine State.selvStatus_only ?_ ?_) | (with_reducible refine State.selvClear_only ?_ ?_) | (with_reducible refine State.startFresh_only ?_ ?_) | (with_reducible refine State.partialCell_only ?_ ?_) | (with_reducible refine State.setPwr_only ?_ ?_) | (with_reducible refine only_ite (fun _ => ?_) (fun _ => ?_)) | (with_reducible refine only_foldl ?_ (fun _ _ => ?_)))
    | ((with_reducible refine only_set_contrib ?_ (by decide)); first | (with_reducible exact Only.refl _ _) | (with_reducible refine State.startFrontEnd_only ?_ ?_) | (with_reducible refine State.startUpdate_only ?_ ?_) | (with_reducible refine State.remapLoad_only ?_ ?_) | (with_reducible refine State.startMetering_only ?_ ?_) | (with_reducible refine State.setDisp_only ?_ ?_) | (with_reducible refine State.selvStatus_only ?_ ?_) | (with_reducible refine State.selvClear_only ?_ ?_) | (with_reducible refine State.startFresh_only ?_ ?_) | (with_reducible refine State.partialCell_only ?_ ?_) | (with_reducible refine State.setPwr_only ?_ ?_) | (with_reducible refine only_ite (fun _ => ?_) (fun _ => ?_)) | (with_reducible refine only_foldl ?_ (fun _ _ => ?_)))
    | ((with_reducible refine only_set_pp ?_ (by decide)); first | (with_reducible exact Only.refl _ _) | (with_reducible refine State.startFrontEnd_only ?_ ?_) | (with_reducible refine State.startUpdate_only ?_ ?_) | (with_reducible refine State.remapLoad_only ?_ ?_) | (with_reducible refine State.startMetering_only ?_ ?_) | (with_reducible refine State.setDisp_only ?_ ?_) | (with_reducible refine State.selvStatus_only ?_ ?_) | (with_reducible refine State.selvClear_only ?_ ?_) | (with_reducible refine State.startFresh_only ?_ ?_) | (with_reducible refine State.partialCell_only ?_ ?_) | (with_reducible refine State.setPwr_only ?_ ?_) | (with_reducible refine only_ite (fun _ => ?_) (fun _ => ?_)) | (with_reducible refine only_foldl ?_ (fun _ _ => ?_)))
    | ((with_reducible refine only_set_cal ?_ (by decide)); first | (with_reducible exact Only.refl _ _) | (with_reducible refine State.startFrontEnd_only ?_ ?_) | (with_reducible refine State.startUpdate_only ?_ ?_) | (with_reducible refine State.remapLoad_only ?_ ?_) | (with_reducible refine State.startMetering_only ?_ ?_) | (with_reducible refine State.setDisp_only ?_ ?_) | (with_reducible refine State.selvStatus_only ?_ ?_) | (with_reducible refine State.selvClear_only ?_ ?_) | (with_reducible refine State.startFresh_only ?_ ?_) | (with_reducible refine State.partialCell_only ?_ ?_) | (with_reducible refine State.setPwr_only ?_ ?_) | (with_reducible refine only_ite (fun _ => ?_) (fun _ => ?_)) | (with_reducible refine only_foldl ?_ (fun _ _ => ?_)))
    | ((with_reducible refine only_set_nvm ?_ ?_ (by decide)); rotate_left; (first | exact ⟨fun w => cellsSet_wf w _ _⟩ | exact ⟨fun w => w, fun _ p => List.mem_append_left _ p, fun _ => Nat.le_refl _⟩ | exact .of rfl rfl rfl | exact .of rfl rfl | exact .of rfl | exact Nat.le_refl _); first | (with_reducible exact Only.refl _ _) | (with_reducible refine State.startFrontEnd_only ?_ ?_) | (with_reducible refine State.startUpdate_only ?_ ?_) | (with_reducible refine State.remapLoad_only ?_ ?_) | (with_reducible refine State.startMetering_only ?_ ?_) | (with_reducible refine State.setDisp_only ?_ ?_) | (with_reducible refine State.selvStatus_only ?_ ?_) | (with_reducible refine State.selvClear_only ?_ ?_) | (with_reducible refine State.startFresh_only ?_ ?_) | (with_reducible refine State.partialCell_only ?_ ?_) | (with_reducible refine State.setPwr_only ?_ ?_) | (with_reducible refine only_ite (fun _ => ?_) (fun _ => ?_)) | (with_reducible refine only_foldl ?_ (fun _ _ => ?_)))
    | ((with_reducible refine only_set_pwr ?_ (by decide)); first | (with_reducible exact Only.refl _ _) | (with_reducible refine State.startFrontEnd_only ?_ ?_) | (with_reducible refine State.startUpdate_only ?_ ?_) | (with_reducible refine State.remapLoad_only ?_ ?_) | (with_reducible refine State.startMetering_only ?_ ?_) | (with_reducible refine State.setDisp_only ?_ ?_) | (with_reducible refine State.selvStatus_only ?_ ?_) | (with_reducible refine State.selvClear_only ?_ ?_) | (with_reducible refine State.startFresh_only ?_ ?_) | (with_reducible refine State.partialCell_only ?_ ?_) | (with_reducible refine State.setPwr_only ?_ ?_) | (with_reducible refine only_ite (fun _ => ?_) (fun _ => ?_)) | (with_reducible refine only_foldl ?_ (fun _ _ => ?_)))
    | ((with_reducible refine only_set_evt ?_ (by decide)); first | (with_reducible exact Only.refl _ _) | (with_reducible refine State.startFrontEnd_only ?_ ?_) | (with_reducible refine State.startUpdate_only ?_ ?_) | (with_reducible refine State.remapLoad_only ?_ ?_) | (with_reducible refine State.startMetering_only ?_ ?_) | (with_reducible refine State.setDisp_only ?_ ?_) | (with_reducible refine State.selvStatus_only ?_ ?_) | (with_reducible refine State.selvClear_only ?_ ?_) | (with_reducible refine State.startFresh_only ?_ ?_) | (with_reducible refine State.partialCell_only ?_ ?_) | (with_reducible refine State.setPwr_only ?_ ?_) | (with_reducible refine only_ite (fun _ => ?_) (fun _ => ?_)) | (with_reducible refine only_foldl ?_ (fun _ _ => ?_)))
    | ((with_reducible refine only_set_ports ?_ (by decide)); first | (with_reducible exact Only.refl _ _) | (with_reducible refine State.startFrontEnd_only ?_ ?_) | (with_reducible refine State.startUpdate_only ?_ ?_) | (with_reducible refine State.remapLoad_only ?_ ?_) | (with_reducible refine State.startMetering_only ?_ ?_) | (with_reducible refine State.setDisp_only ?_ ?_) | (with_reducible refine State.selvStatus_only ?_ ?_) | (with_reducible refine State.selvClear_only ?_ ?_) | (with_reducible refine State.startFresh_only ?_ ?_) | (with_reducible refine State.partialCell_only ?_ ?_) | (with_reducible refine State.setPwr_only ?_ ?_) | (with_reducible refine only_ite (fun _ => ?_) (fun _ => ?_)) | (with_reducible refine only_foldl ?_ (fun _ _ => ?_)))
    | ((with_reducible refine only_set_mem ?_ ?_ (by decide)); rotate_left; (first | exact ⟨fun w => cellsSet_wf w _ _⟩ | exact ⟨fun w => w, fun _ p => List.mem_append_left _ p, fun _ => Nat.le_refl _⟩ | exact .of rfl rfl rfl | exact .of rfl rfl | exact .of rfl | exact Nat.le_refl _); first | (with_reducible exact Only.refl _ _) | (with_reducible refine State.startFrontEnd_only ?_ ?_) | (with_reducible refine State.startUpdate_only ?_ ?_) | (with_reducible refine State.remapLoad_only ?_ ?_) | (with_reducible refine State.startMetering_only ?_ ?_) | (with_reducible refine State.setDisp_only ?_ ?_) | (with_reducible refine State.selvStatus_only ?_ ?_) | (with_reducible refine State.selvClear_only ?_ ?_) | (with_reducible refine State.startFresh_only ?_ ?_) | (with_reducible refine State.partialCell_only ?_ ?_) | (with_reducible refine State.setPwr_only ?_ ?_) | (with_reducible refine only_ite (fun _ => ?_) (fun _ => ?_)) | (with_reducible refine only_foldl ?_ (fun _ _ => ?_)))
    | ((with_reducible refine only_set_tamper ?_ (by decide)); first | (with_reducible exact Only.refl _ _) | (with_reducible refine State.startFrontEnd_only ?_ ?_) | (with_reducible refine State.startUpdate_only ?_ ?_) | (with_reducible refine State.remapLoad_only ?_ ?_) | (with_reducible refine State.startMetering_only ?_ ?_) | (with_reducible refine State.setDisp_only ?_ ?_) | (with_reducible refine State.selvStatus_only ?_ ?_) | (with_reducible refine State.selvClear_only ?_ ?_) | (with_reducible refine State.startFresh_only ?_ ?_) | (with_reducible refine State.partialCell_only ?_ ?_) | (with_reducible refine State.setPwr_only ?_ ?_) | (with_reducible refine only_ite (fun _ => ?_) (fun _ => ?_)) | (with_reducible refine only_foldl ?_ (fun _ _ => ?_)))
    | ((with_reducible refine only_set_life ?_ ?_ (by decide)); rotate_left; (first | exact ⟨fun w => cellsSet_wf w _ _⟩ | exact ⟨fun w => w, fun _ p => List.mem_append_left _ p, fun _ => Nat.le_refl _⟩ | exact .of rfl rfl rfl | exact .of rfl rfl | exact .of rfl | exact Nat.le_refl _); first | (with_reducible exact Only.refl _ _) | (with_reducible refine State.startFrontEnd_only ?_ ?_) | (with_reducible refine State.startUpdate_only ?_ ?_) | (with_reducible refine State.remapLoad_only ?_ ?_) | (with_reducible refine State.startMetering_only ?_ ?_) | (with_reducible refine State.setDisp_only ?_ ?_) | (with_reducible refine State.selvStatus_only ?_ ?_) | (with_reducible refine State.selvClear_only ?_ ?_) | (with_reducible refine State.startFresh_only ?_ ?_) | (with_reducible refine State.partialCell_only ?_ ?_) | (with_reducible refine State.setPwr_only ?_ ?_) | (with_reducible refine only_ite (fun _ => ?_) (fun _ => ?_)) | (with_reducible refine only_foldl ?_ (fun _ _ => ?_)))
    | ((with_reducible refine only_set_disp ?_ (by decide)); first | (with_reducible exact Only.refl _ _) | (with_reducible refine State.startFrontEnd_only ?_ ?_) | (with_reducible refine State.startUpdate_only ?_ ?_) | (with_reducible refine State.remapLoad_only ?_ ?_) | (with_reducible refine State.startMetering_only ?_ ?_) | (with_reducible refine State.setDisp_only ?_ ?_) | (with_reducible refine State.selvStatus_only ?_ ?_) | (with_reducible refine State.selvClear_only ?_ ?_) | (with_reducible refine State.startFresh_only ?_ ?_) | (with_reducible refine State.partialCell_only ?_ ?_) | (with_reducible refine State.setPwr_only ?_ ?_) | (with_reducible refine only_ite (fun _ => ?_) (fun _ => ?_)) | (with_reducible refine only_foldl ?_ (fun _ _ => ?_)))
    | ((with_reducible refine only_set_upd ?_ (by decide)); first | (with_reducible exact Only.refl _ _) | (with_reducible refine State.startFrontEnd_only ?_ ?_) | (with_reducible refine State.startUpdate_only ?_ ?_) | (with_reducible refine State.remapLoad_only ?_ ?_) | (with_reducible refine State.startMetering_only ?_ ?_) | (with_reducible refine State.setDisp_only ?_ ?_) | (with_reducible refine State.selvStatus_only ?_ ?_) | (with_reducible refine State.selvClear_only ?_ ?_) | (with_reducible refine State.startFresh_only ?_ ?_) | (with_reducible refine State.partialCell_only ?_ ?_) | (with_reducible refine State.setPwr_only ?_ ?_) | (with_reducible refine only_ite (fun _ => ?_) (fun _ => ?_)) | (with_reducible refine only_foldl ?_ (fun _ _ => ?_)))
    | ((with_reducible refine only_set_isl ?_ (by decide)); first | (with_reducible exact Only.refl _ _) | (with_reducible refine State.startFrontEnd_only ?_ ?_) | (with_reducible refine State.startUpdate_only ?_ ?_) | (with_reducible refine State.remapLoad_only ?_ ?_) | (with_reducible refine State.startMetering_only ?_ ?_) | (with_reducible refine State.setDisp_only ?_ ?_) | (with_reducible refine State.selvStatus_only ?_ ?_) | (with_reducible refine State.selvClear_only ?_ ?_) | (with_reducible refine State.startFresh_only ?_ ?_) | (with_reducible refine State.partialCell_only ?_ ?_) | (with_reducible refine State.setPwr_only ?_ ?_) | (with_reducible refine only_ite (fun _ => ?_) (fun _ => ?_)) | (with_reducible refine only_foldl ?_ (fun _ _ => ?_)))
    | split)

theorem State.tryCastOn_only (h : Only m s t) (hm : 2147483647 &&& m = 2147483647) :
    Only m s (t.tryCastOn) := by
  refine h.trans (Only.mono (m := 2147483647) ?_ hm)
  unfold State.tryCastOn
  repeat' (first
    | (with_reducible exact Only.refl _ _)
    | (with_reducible refine State.castOn_only ?_ ?_)
    | (with_reducible refine only_ite (fun _ => ?_) (fun _ => ?_))
    | (with_reducible refine only_foldl ?_ (fun _ _ => ?_))
    | decide
    | (dsimp only)
    | split)

theorem State.writeDeferred_only (h : Only m s t) (hm : 8388608 &&& m = 8388608) :
    Only m s (t.writeDeferred) := by
  refine h.trans (Only.mono (m := 8388608) ?_ hm)
  unfold State.writeDeferred
  repeat' (first
    | (with_reducible exact Only.refl _ _)
    | (with_reducible refine State.eventEntry_only ?_ ?_)
    | (with_reducible refine State.eventMark_only ?_ ?_)
    | (with_reducible refine State.setEvt_only ?_ ?_)
    | (with_reducible refine only_ite (fun _ => ?_) (fun _ => ?_))
    | (with_reducible refine only_foldl ?_ (fun _ _ => ?_))
    | decide
    | (dsimp only)
    | split)

theorem State.writeLosses_only (h : Only m s t) (hm : 14680064 &&& m = 14680064) :
    Only m s (t.writeLosses) := by
  refine h.trans (Only.mono (m := 14680064) ?_ hm)
  unfold State.writeLosses
  repeat' (first
    | (with_reducible exact Only.refl _ _)
    | (with_reducible refine State.scStep_only ?_ ?_)
    | (with_reducible refine State.raise_only ?_ ?_)
    | (with_reducible refine State.setPwr_only ?_ ?_)
    | (with_reducible refine State.logBoth_only ?_ ?_)
    | (with_reducible refine only_ite (fun _ => ?_) (fun _ => ?_))
    | (with_reducible refine only_foldl ?_ (fun _ _ => ?_))
    | decide
    | (dsimp only)
    | split)

theorem State.lifeDue_only (h : Only m s t) (hm : 142606336 &&& m = 142606336) :
    Only m s (t.lifeDue) := by
  refine h.trans (Only.mono (m := 142606336) ?_ hm)
  unfold State.lifeDue
  repeat' (first
    | (with_reducible exact Only.refl _ _)
    | (with_reducible refine State.raise_only ?_ ?_)
    | (with_reducible refine only_ite (fun _ => ?_) (fun _ => ?_))
    | (with_reducible refine only_foldl ?_ (fun _ _ => ?_))
    | decide
    | exact ⟨fun w => cellsSet_wf w _ _⟩ | exact ⟨fun w => w, fun _ p => List.mem_append_left _ p, fun _ => Nat.le_refl _⟩ | exact .of rfl rfl rfl | exact .of rfl rfl | exact .of rfl | exact Nat.le_refl _
    | (dsimp only)
    | ((with_reducible refine only_set_evt ?_ (by decide)); first | (with_reducible exact Only.refl _ _) | (with_reducible refine State.raise_only ?_ ?_) | (with_reducible refine only_ite (fun _ => ?_) (fun _ => ?_)) | (with_reducible refine only_foldl ?_ (fun _ _ => ?_)))
    | ((with_reducible refine only_set_life ?_ ?_ (by decide)); rotate_left; (first | exact ⟨fun w => cellsSet_wf w _ _⟩ | exact ⟨fun w => w, fun _ p => List.mem_append_left _ p, fun _ => Nat.le_refl _⟩ | exact .of rfl rfl rfl | exact .of rfl rfl | exact .of rfl | exact Nat.le_refl _); first | (with_reducible exact Only.refl _ _) | (with_reducible refine State.raise_only ?_ ?_) | (with_reducible refine only_ite (fun _ => ?_) (fun _ => ?_)) | (with_reducible refine only_foldl ?_ (fun _ _ => ?_)))
    | split)

theorem State.meteringPoint_only (h : Only m s t) (hm : 418381826 &&& m = 418381826) :
    Only m s (t.meteringPoint) := by
  refine h.trans (Only.mono (m := 418381826) ?_ hm)
  unfold State.meteringPoint
  repeat' (first
    | (with_reducible exact Only.refl _ _)
    | (with_reducible refine State.saveMark_only ?_ ?_)
    | (with_reducible refine State.writeDeferred_only ?_ ?_)
    | (with_reducible refine State.scStep_only ?_ ?_)
    | (with_reducible refine State.setDisp_only ?_ ?_)
    | (with_reducible refine State.raise_only ?_ ?_)
    | (with_reducible refine State.writeLosses_only ?_ ?_)
    | (with_reducible refine State.setCal_only ?_ ?_)
    | (with_reducible refine State.setNvm_only ?_ ?_ ?_)
    | (with_reducible refine State.selvTarget_only ?_ ?_)
    | (with_reducible refine State.lifeDue_only ?_ ?_)
    | (with_reducible refine State.setPwr_only ?_ ?_)
    | (with_reducible refine only_ite (fun _ => ?_) (fun _ => ?_))
    | (with_reducible refine only_foldl ?_ (fun _ _ => ?_))
    | decide
    | exact ⟨fun w => cellsSet_wf w _ _⟩ | exact ⟨fun w => w, fun _ p => List.mem_append_left _ p, fun _ => Nat.le_refl _⟩ | exact .of rfl rfl rfl | exact .of rfl rfl | exact .of rfl | exact Nat.le_refl _
    | (dsimp only)
    | ((with_reducible refine only_set_clock ?_ ?_ (by decide)); rotate_left; (first | exact ⟨fun w => cellsSet_wf w _ _⟩ | exact ⟨fun w => w, fun _ p => List.mem_append_left _ p, fun _ => Nat.le_refl _⟩ | exact .of rfl rfl rfl | exact .of rfl rfl | exact .of rfl | exact Nat.le_refl _); first | (with_reducible exact Only.refl _ _) | (with_reducible refine State.saveMark_only ?_ ?_) | (with_reducible refine State.writeDeferred_only ?_ ?_) | (with_reducible refine State.scStep_only ?_ ?_) | (with_reducible refine State.setDisp_only ?_ ?_) | (with_reducible refine State.raise_only ?_ ?_) | (with_reducible refine State.writeLosses_only ?_ ?_) | (with_reducible refine State.setCal_only ?_ ?_) | (with_reducible refine State.setNvm_only ?_ ?_ ?_) | (with_reducible refine State.selvTarget_only ?_ ?_) | (with_reducible refine State.lifeDue_only ?_ ?_) | (with_reducible refine State.setPwr_only ?_ ?_) | (with_reducible refine only_ite (fun _ => ?_) (fun _ => ?_)) | (with_reducible refine only_foldl ?_ (fun _ _ => ?_)))
    | ((with_reducible refine only_set_cal ?_ (by decide)); first | (with_reducible exact Only.refl _ _) | (with_reducible refine State.saveMark_only ?_ ?_) | (with_reducible refine State.writeDeferred_only ?_ ?_) | (with_reducible refine State.scStep_only ?_ ?_) | (with_reducible refine State.setDisp_only ?_ ?_) | (with_reducible refine State.raise_only ?_ ?_) | (with_reducible refine State.writeLosses_only ?_ ?_) | (with_reducible refine State.setCal_only ?_ ?_) | (with_reducible refine State.setNvm_only ?_ ?_ ?_) | (with_reducible refine State.selvTarget_only ?_ ?_) | (with_reducible refine State.lifeDue_only ?_ ?_) | (with_reducible refine State.setPwr_only ?_ ?_) | (with_reducible refine only_ite (fun _ => ?_) (fun _ => ?_)) | (with_reducible refine only_foldl ?_ (fun _ _ => ?_)))
    | ((with_reducible refine only_set_nvm ?_ ?_ (by decide)); rotate_left; (first | exact ⟨fun w => cellsSet_wf w _ _⟩ | exact ⟨fun w => w, fun _ p => List.mem_append_left _ p, fun _ => Nat.le_refl _⟩ | exact .of rfl rfl rfl | exact .of rfl rfl | exact .of rfl | exact Nat.le_refl _); first | (with_reducible exact Only.refl _ _) | (with_reducible refine State.saveMark_only ?_ ?_) | (with_reducible refine State.writeDeferred_only ?_ ?_) | (with_reducible refine State.scStep_only ?_ ?_) | (with_reducible refine State.setDisp_only ?_ ?_) | (with_reducible refine State.raise_only ?_ ?_) | (with_reducible refine State.writeLosses_only ?_ ?_) | (with_reducible refine State.setCal_only ?_ ?_) | (with_reducible refine State.setNvm_only ?_ ?_ ?_) | (with_reducible refine State.selvTarget_only ?_ ?_) | (with_reducible refine State.lifeDue_only ?_ ?_) | (with_reducible refine State.setPwr_only ?_ ?_) | (with_reducible refine only_ite (fun _ => ?_) (fun _ => ?_)) | (with_reducible refine only_foldl ?_ (fun _ _ => ?_)))
    | ((with_reducible refine only_set_pwr ?_ (by decide)); first | (with_reducible exact Only.refl _ _) | (with_reducible refine State.saveMark_only ?_ ?_) | (with_reducible refine State.writeDeferred_only ?_ ?_) | (with_reducible refine State.scStep_only ?_ ?_) | (with_reducible refine State.setDisp_only ?_ ?_) | (with_reducible refine State.raise_only ?_ ?_) | (with_reducible refine State.writeLosses_only ?_ ?_) | (with_reducible refine State.setCal_only ?_ ?_) | (with_reducible refine State.setNvm_only ?_ ?_ ?_) | (with_reducible refine State.selvTarget_only ?_ ?_) | (with_reducible refine State.lifeDue_only ?_ ?_) | (with_reducible refine State.setPwr_only ?_ ?_) | (with_reducible refine only_ite (fun _ => ?_) (fun _ => ?_)) | (with_reducible refine only_foldl ?_ (fun _ _ => ?_)))
    | ((with_reducible refine only_set_evt ?_ (by decide)); first | (with_reducible exact Only.refl _ _) | (with_reducible refine State.saveMark_only ?_ ?_) | (with_reducible refine State.writeDeferred_only ?_ ?_) | (with_reducible refine State.scStep_only ?_ ?_) | (with_reducible refine State.setDisp_only ?_ ?_) | (with_reducible refine State.raise_only ?_ ?_) | (with_reducible refine State.writeLosses_only ?_ ?_) | (with_reducible refine State.setCal_only ?_ ?_) | (with_reducible refine State.setNvm_only ?_ ?_ ?_) | (with_reducible refine State.selvTarget_only ?_ ?_) | (with_reducible refine State.lifeDue_only ?_ ?_) | (with_reducible refine State.setPwr_only ?_ ?_) | (with_reducible refine only_ite (fun _ => ?_) (fun _ => ?_)) | (with_reducible refine only_foldl ?_ (fun _ _ => ?_)))
    | ((with_reducible refine only_set_life ?_ ?_ (by decide)); rotate_left; (first | exact ⟨fun w => cellsSet_wf w _ _⟩ | exact ⟨fun w => w, fun _ p => List.mem_append_left _ p, fun _ => Nat.le_refl _⟩ | exact .of rfl rfl rfl | exact .of rfl rfl | exact .of rfl | exact Nat.le_refl _); first | (with_reducible exact Only.refl _ _) | (with_reducible refine State.saveMark_only ?_ ?_) | (with_reducible refine State.writeDeferred_only ?_ ?_) | (with_reducible refine State.scStep_only ?_ ?_) | (with_reducible refine State.setDisp_only ?_ ?_) | (with_reducible refine State.raise_only ?_ ?_) | (with_reducible refine State.writeLosses_only ?_ ?_) | (with_reducible refine State.setCal_only ?_ ?_) | (with_reducible refine State.setNvm_only ?_ ?_ ?_) | (with_reducible refine State.selvTarget_only ?_ ?_) | (with_reducible refine State.lifeDue_only ?_ ?_) | (with_reducible refine State.setPwr_only ?_ ?_) | (with_reducible refine only_ite (fun _ => ?_) (fun _ => ?_)) | (with_reducible refine only_foldl ?_ (fun _ _ => ?_)))
    | ((with_reducible refine only_set_disp ?_ (by decide)); first | (with_reducible exact Only.refl _ _) | (with_reducible refine State.saveMark_only ?_ ?_) | (with_reducible refine State.writeDeferred_only ?_ ?_) | (with_reducible refine State.scStep_only ?_ ?_) | (with_reducible refine State.setDisp_only ?_ ?_) | (with_reducible refine State.raise_only ?_ ?_) | (with_reducible refine State.writeLosses_only ?_ ?_) | (with_reducible refine State.setCal_only ?_ ?_) | (with_reducible refine State.setNvm_only ?_ ?_ ?_) | (with_reducible refine State.selvTarget_only ?_ ?_) | (with_reducible refine State.lifeDue_only ?_ ?_) | (with_reducible refine State.setPwr_only ?_ ?_) | (with_reducible refine only_ite (fun _ => ?_) (fun _ => ?_)) | (with_reducible refine only_foldl ?_ (fun _ _ => ?_)))
    | split)

theorem State.after_only (h : Only m s t) (hm : 955253763 &&& m = 955253763) :
    Only m s (t.after) := by
  refine h.trans (Only.mono (m := 955253763) ?_ hm)
  unfold State.after
  repeat' (first
    | (with_reducible exact Only.refl _ _)
    | (with_reducible refine State.bindProgress_only ?_ ?_)
    | (with_reducible refine State.meteringPoint_only ?_ ?_)
    | (with_reducible refine State.confirmCheck_only ?_ ?_)
    | (with_reducible refine only_ite (fun _ => ?_) (fun _ => ?_))
    | (with_reducible refine only_foldl ?_ (fun _ _ => ?_))
    | decide
    | (dsimp only)
    | split)

theorem State.ownerWrote_only {a1 : _} (h : Only m s t) (hm : 1048576 &&& m = 1048576) :
    Only m s (t.ownerWrote a1) := by
  refine h.trans (Only.mono (m := 1048576) ?_ hm)
  unfold State.ownerWrote
  repeat' (first
    | (with_reducible exact Only.refl _ _)
    | (with_reducible refine State.setCal_only ?_ ?_)
    | (with_reducible refine only_ite (fun _ => ?_) (fun _ => ?_))
    | (with_reducible refine only_foldl ?_ (fun _ _ => ?_))
    | decide
    | (dsimp only)
    | split)

theorem State.checked_only {r : Req} {i j : Nat} {b : Bytes} {f : State → Card → Nat → State} (h : Only m s t)
    (hf : ∀ u c v, Only m u (f u c v)) (hm : 2148532224 &&& m = 2148532224) : Only m s (t.checked r i j b f) := by
  have sub : ∀ k, k &&& 2148532224 = k → k &&& m = k := by
    intro k hk
    rw [← hk, Nat.and_assoc, hm]
  have w := State.ownerWrote_only (a1 := r.cls) h (sub 1048576 (by decide))
  unfold State.checked
  split
  · exact State.answerRetry_only w (sub 2147483648 (by decide))
  · exact w.trans (hf _ _ _)

theorem State.persist_only {c : Card} {key v : Nat} {x : State} (h : Only m s t) (hm : 2097153 &&& m = 2097153)
    (e : t.persist c key v = some x) : Only m s x := by
  unfold State.persist at e
  split at e
  · exact State.storePut_only h hm e
  · exact State.storePut_only h hm e
  · injection e with e
    subst e
    exact only_set_dict h (by rw [show 1 = 1 &&& 2097153 from rfl, Nat.and_assoc, hm])

theorem State.fullAnswer_only {a1 : _} (h : Only m s t) (hm : 2149580800 &&& m = 2149580800) :
    Only m s (t.fullAnswer a1) := by
  refine h.trans (Only.mono (m := 2149580800) ?_ hm)
  unfold State.fullAnswer
  repeat' (first
    | (with_reducible exact Only.refl _ _)
    | (with_reducible refine State.answer_only ?_ ?_)
    | (with_reducible refine State.storeRefused_only ?_ ?_)
    | (with_reducible refine only_ite (fun _ => ?_) (fun _ => ?_))
    | (with_reducible refine only_foldl ?_ (fun _ _ => ?_))
    | decide
    | (dsimp only)
    | split)

theorem State.setShadow_only {a1 : _} {a2 : _} (h : Only m s t) (hm : 1 &&& m = 1) :
    Only m s (t.setShadow a1 a2) := by
  refine h.trans (Only.mono (m := 1) ?_ hm)
  unfold State.setShadow
  repeat' (first
    | (with_reducible exact Only.refl _ _)
    | (with_reducible refine only_ite (fun _ => ?_) (fun _ => ?_))
    | (with_reducible refine only_foldl ?_ (fun _ _ => ?_))
    | decide
    | (dsimp only)
    | ((with_reducible refine only_set_dict ?_ (by decide)); first | (with_reducible exact Only.refl _ _) | (with_reducible refine only_ite (fun _ => ?_) (fun _ => ?_)) | (with_reducible refine only_foldl ?_ (fun _ _ => ?_)))
    | split)

theorem State.setHeld_only {a1 : _} {a2 : _} (h : Only m s t) (hm : 1 &&& m = 1) :
    Only m s (t.setHeld a1 a2) := by
  refine h.trans (Only.mono (m := 1) ?_ hm)
  unfold State.setHeld
  repeat' (first
    | (with_reducible exact Only.refl _ _)
    | (with_reducible refine only_ite (fun _ => ?_) (fun _ => ?_))
    | (with_reducible refine only_foldl ?_ (fun _ _ => ?_))
    | decide
    | (dsimp only)
    | ((with_reducible refine only_set_dict ?_ (by decide)); first | (with_reducible exact Only.refl _ _) | (with_reducible refine only_ite (fun _ => ?_) (fun _ => ?_)) | (with_reducible refine only_foldl ?_ (fun _ _ => ?_)))
    | split)

theorem State.setNext_only {a1 : _} {a2 : _} (h : Only m s t) (hm : 1 &&& m = 1) :
    Only m s (t.setNext a1 a2) := by
  refine h.trans (Only.mono (m := 1) ?_ hm)
  unfold State.setNext
  repeat' (first
    | (with_reducible exact Only.refl _ _)
    | (with_reducible refine only_ite (fun _ => ?_) (fun _ => ?_))
    | (with_reducible refine only_foldl ?_ (fun _ _ => ?_))
    | decide
    | (dsimp only)
    | ((with_reducible refine only_set_dict ?_ (by decide)); first | (with_reducible exact Only.refl _ _) | (with_reducible refine only_ite (fun _ => ?_) (fun _ => ?_)) | (with_reducible refine only_foldl ?_ (fun _ _ => ?_)))
    | split)

theorem State.shadowed_only {a1 : _} {a2 : _} (h : Only m s t) (hm : 2176519961 &&& m = 2176519961) :
    Only m s (t.shadowed a1 a2) := by
  refine h.trans (Only.mono (m := 2176519961) ?_ hm)
  unfold State.shadowed
  repeat' (first
    | (with_reducible exact Only.refl _ _)
    | (with_reducible refine State.answer_only ?_ ?_)
    | (with_reducible refine State.setShadow_only ?_ ?_)
    | (with_reducible refine State.activateNow_only ?_ ?_)
    | (with_reducible refine only_ite (fun _ => ?_) (fun _ => ?_))
    | (with_reducible refine only_foldl ?_ (fun _ _ => ?_))
    | decide
    | (dsimp only)
    | ((with_reducible refine only_set_dict ?_ (by decide)); first | (with_reducible exact Only.refl _ _) | (with_reducible refine State.answer_only ?_ ?_) | (with_reducible refine State.setShadow_only ?_ ?_) | (with_reducible refine State.activateNow_only ?_ ?_) | (with_reducible refine only_ite (fun _ => ?_) (fun _ => ?_)) | (with_reducible refine only_foldl ?_ (fun _ _ => ?_)))
    | ((with_reducible refine only_set_spares ?_ (by decide)); first | (with_reducible exact Only.refl _ _) | (with_reducible refine State.answer_only ?_ ?_) | (with_reducible refine State.setShadow_only ?_ ?_) | (with_reducible refine State.activateNow_only ?_ ?_) | (with_reducible refine only_ite (fun _ => ?_) (fun _ => ?_)) | (with_reducible refine only_foldl ?_ (fun _ _ => ?_)))
    | ((with_reducible refine only_set_chans ?_ (by decide)); first | (with_reducible exact Only.refl _ _) | (with_reducible refine State.answer_only ?_ ?_) | (with_reducible refine State.setShadow_only ?_ ?_) | (with_reducible refine State.activateNow_only ?_ ?_) | (with_reducible refine only_ite (fun _ => ?_) (fun _ => ?_)) | (with_reducible refine only_foldl ?_ (fun _ _ => ?_)))
    | ((with_reducible refine only_set_tracks ?_ (by decide)); first | (with_reducible exact Only.refl _ _) | (with_reducible refine State.answer_only ?_ ?_) | (with_reducible refine State.setShadow_only ?_ ?_) | (with_reducible refine State.activateNow_only ?_ ?_) | (with_reducible refine only_ite (fun _ => ?_) (fun _ => ?_)) | (with_reducible refine only_foldl ?_ (fun _ _ => ?_)))
    | ((with_reducible refine only_set_groups ?_ (by decide)); first | (with_reducible exact Only.refl _ _) | (with_reducible refine State.answer_only ?_ ?_) | (with_reducible refine State.setShadow_only ?_ ?_) | (with_reducible refine State.activateNow_only ?_ ?_) | (with_reducible refine only_ite (fun _ => ?_) (fun _ => ?_)) | (with_reducible refine only_foldl ?_ (fun _ _ => ?_)))
    | ((with_reducible refine only_set_eng ?_ (by decide)); first | (with_reducible exact Only.refl _ _) | (with_reducible refine State.answer_only ?_ ?_) | (with_reducible refine State.setShadow_only ?_ ?_) | (with_reducible refine State.activateNow_only ?_ ?_) | (with_reducible refine only_ite (fun _ => ?_) (fun _ => ?_)) | (with_reducible refine only_foldl ?_ (fun _ _ => ?_)))
    | ((with_reducible refine only_set_accts ?_ (by decide)); first | (with_reducible exact Only.refl _ _) | (with_reducible refine State.answer_only ?_ ?_) | (with_reducible refine State.setShadow_only ?_ ?_) | (with_reducible refine State.activateNow_only ?_ ?_) | (with_reducible refine only_ite (fun _ => ?_) (fun _ => ?_)) | (with_reducible refine only_foldl ?_ (fun _ _ => ?_)))
    | ((with_reducible refine only_set_acc ?_ (by decide)); first | (with_reducible exact Only.refl _ _) | (with_reducible refine State.answer_only ?_ ?_) | (with_reducible refine State.setShadow_only ?_ ?_) | (with_reducible refine State.activateNow_only ?_ ?_) | (with_reducible refine only_ite (fun _ => ?_) (fun _ => ?_)) | (with_reducible refine only_foldl ?_ (fun _ _ => ?_)))
    | ((with_reducible refine only_set_bal ?_ (by decide)); first | (with_reducible exact Only.refl _ _) | (with_reducible refine State.answer_only ?_ ?_) | (with_reducible refine State.setShadow_only ?_ ?_) | (with_reducible refine State.activateNow_only ?_ ?_) | (with_reducible refine only_ite (fun _ => ?_) (fun _ => ?_)) | (with_reducible refine only_foldl ?_ (fun _ _ => ?_)))
    | ((with_reducible refine only_set_pp ?_ (by decide)); first | (with_reducible exact Only.refl _ _) | (with_reducible refine State.answer_only ?_ ?_) | (with_reducible refine State.setShadow_only ?_ ?_) | (with_reducible refine State.activateNow_only ?_ ?_) | (with_reducible refine only_ite (fun _ => ?_) (fun _ => ?_)) | (with_reducible refine only_foldl ?_ (fun _ _ => ?_)))
    | ((with_reducible refine only_set_cal ?_ (by decide)); first | (with_reducible exact Only.refl _ _) | (with_reducible refine State.answer_only ?_ ?_) | (with_reducible refine State.setShadow_only ?_ ?_) | (with_reducible refine State.activateNow_only ?_ ?_) | (with_reducible refine only_ite (fun _ => ?_) (fun _ => ?_)) | (with_reducible refine only_foldl ?_ (fun _ _ => ?_)))
    | ((with_reducible refine only_set_nvm ?_ ?_ (by decide)); rotate_left; (first | exact ⟨fun w => cellsSet_wf w _ _⟩ | exact ⟨fun w => w, fun _ p => List.mem_append_left _ p, fun _ => Nat.le_refl _⟩ | exact .of rfl rfl rfl | exact .of rfl rfl | exact .of rfl | exact Nat.le_refl _); first | (with_reducible exact Only.refl _ _) | (with_reducible refine State.answer_only ?_ ?_) | (with_reducible refine State.setShadow_only ?_ ?_) | (with_reducible refine State.activateNow_only ?_ ?_) | (with_reducible refine only_ite (fun _ => ?_) (fun _ => ?_)) | (with_reducible refine only_foldl ?_ (fun _ _ => ?_)))
    | ((with_reducible refine only_set_evt ?_ (by decide)); first | (with_reducible exact Only.refl _ _) | (with_reducible refine State.answer_only ?_ ?_) | (with_reducible refine State.setShadow_only ?_ ?_) | (with_reducible refine State.activateNow_only ?_ ?_) | (with_reducible refine only_ite (fun _ => ?_) (fun _ => ?_)) | (with_reducible refine only_foldl ?_ (fun _ _ => ?_)))
    | ((with_reducible refine only_set_ports ?_ (by decide)); first | (with_reducible exact Only.refl _ _) | (with_reducible refine State.answer_only ?_ ?_) | (with_reducible refine State.setShadow_only ?_ ?_) | (with_reducible refine State.activateNow_only ?_ ?_) | (with_reducible refine only_ite (fun _ => ?_) (fun _ => ?_)) | (with_reducible refine only_foldl ?_ (fun _ _ => ?_)))
    | ((with_reducible refine only_set_ans ?_ (by decide)); first | (with_reducible exact Only.refl _ _) | (with_reducible refine State.answer_only ?_ ?_) | (with_reducible refine State.setShadow_only ?_ ?_) | (with_reducible refine State.activateNow_only ?_ ?_) | (with_reducible refine only_ite (fun _ => ?_) (fun _ => ?_)) | (with_reducible refine only_foldl ?_ (fun _ _ => ?_)))
    | split)

theorem State.writeShadow_only {a1 : _} {a2 : _} {a3 : _} (h : Only m s t) (hm : 2176519961 &&& m = 2176519961) :
    Only m s (t.writeShadow a1 a2 a3) := by
  refine h.trans (Only.mono (m := 2176519961) ?_ hm)
  unfold State.writeShadow
  repeat' (first
    | (with_reducible exact Only.refl _ _)
    | (with_reducible refine State.fullAnswer_only ?_ ?_)
    | (with_reducible refine State.answer_only ?_ ?_)
    | (with_reducible refine State.shadowed_only ?_ ?_)
    | (with_reducible refine State.setShadow_only ?_ ?_)
    | (with_reducible refine only_ite (fun _ => ?_) (fun _ => ?_))
    | (with_reducible refine only_foldl ?_ (fun _ _ => ?_))
    | decide
    | (dsimp only)
    | (with_reducible refine State.persist_only ?_ ?_ ‹_›)
    | split)

theorem State.writeNext_only {a1 : _} {a2 : _} {a3 : _} (h : Only m s t) (hm : 2149580801 &&& m = 2149580801) :
    Only m s (t.writeNext a1 a2 a3) := by
  refine h.trans (Only.mono (m := 2149580801) ?_ hm)
  unfold State.writeNext
  repeat' (first
    | (with_reducible exact Only.refl _ _)
    | (with_reducible refine State.fullAnswer_only ?_ ?_)
    | (with_reducible refine State.answer_only ?_ ?_)
    | (with_reducible refine State.setNext_only ?_ ?_)
    | (with_reducible refine only_ite (fun _ => ?_) (fun _ => ?_))
    | (with_reducible refine only_foldl ?_ (fun _ _ => ?_))
    | decide
    | (dsimp only)
    | (with_reducible refine State.persist_only ?_ ?_ ‹_›)
    | split)

theorem State.writeNow_only {a1 : _} {a2 : _} {a3 : _} (h : Only m s t) (hm : 2159742745 &&& m = 2159742745) :
    Only m s (t.writeNow a1 a2 a3) := by
  refine h.trans (Only.mono (m := 2159742745) ?_ hm)
  unfold State.writeNow
  repeat' (first
    | (with_reducible exact Only.refl _ _)
    | (with_reducible refine State.fullAnswer_only ?_ ?_)
    | (with_reducible refine State.answer_only ?_ ?_)
    | (with_reducible refine State.activateNow_only ?_ ?_)
    | (with_reducible refine only_ite (fun _ => ?_) (fun _ => ?_))
    | (with_reducible refine only_foldl ?_ (fun _ _ => ?_))
    | decide
    | (dsimp only)
    | (with_reducible refine State.persist_only ?_ ?_ ‹_›)
    | split)

theorem State.writeHeld_only {a1 : _} {a2 : _} (h : Only m s t) (hm : 2147483649 &&& m = 2147483649) :
    Only m s (t.writeHeld a1 a2) := by
  refine h.trans (Only.mono (m := 2147483649) ?_ hm)
  unfold State.writeHeld
  repeat' (first
    | (with_reducible exact Only.refl _ _)
    | (with_reducible refine State.answer_only ?_ ?_)
    | (with_reducible refine State.setHeld_only ?_ ?_)
    | (with_reducible refine only_ite (fun _ => ?_) (fun _ => ?_))
    | (with_reducible refine only_foldl ?_ (fun _ _ => ?_))
    | decide
    | (dsimp only)
    | split)

theorem State.writePlain_only {a1 : _} {a2 : _} {a3 : _} {a4 : _} (h : Only m s t) (hm : 2176519961 &&& m = 2176519961) :
    Only m s (t.writePlain a1 a2 a3 a4) := by
  refine h.trans (Only.mono (m := 2176519961) ?_ hm)
  unfold State.writePlain
  repeat' (first
    | (with_reducible exact Only.refl _ _)
    | (with_reducible refine State.writeHeld_only ?_ ?_)
    | (with_reducible refine State.writeNext_only ?_ ?_)
    | (with_reducible refine State.answer_only ?_ ?_)
    | (with_reducible refine State.writeNow_only ?_ ?_)
    | (with_reducible refine State.writeShadow_only ?_ ?_)
    | (with_reducible refine only_ite (fun _ => ?_) (fun _ => ?_))
    | (with_reducible refine only_foldl ?_ (fun _ _ => ?_))
    | decide
    | (dsimp only)
    | split)

theorem State.readClears_only {a1 : _} (h : Only m s t) (hm : 16842753 &&& m = 16842753) :
    Only m s (t.readClears a1) := by
  refine h.trans (Only.mono (m := 16842753) ?_ hm)
  unfold State.readClears
  repeat' (first
    | (with_reducible exact Only.refl _ _)
    | (with_reducible refine State.setPulse_only ?_ ?_)
    | (with_reducible refine only_ite (fun _ => ?_) (fun _ => ?_))
    | (with_reducible refine only_foldl ?_ (fun _ _ => ?_))
    | decide
    | (dsimp only)
    | ((with_reducible refine only_set_dict ?_ (by decide)); first | (with_reducible exact Only.refl _ _) | (with_reducible refine State.setPulse_only ?_ ?_) | (with_reducible refine only_ite (fun _ => ?_) (fun _ => ?_)) | (with_reducible refine only_foldl ?_ (fun _ _ => ?_)))
    | ((with_reducible refine only_set_acc ?_ (by decide)); first | (with_reducible exact Only.refl _ _) | (with_reducible refine State.setPulse_only ?_ ?_) | (with_reducible refine only_ite (fun _ => ?_) (fun _ => ?_)) | (with_reducible refine only_foldl ?_ (fun _ _ => ?_)))
    | ((with_reducible refine only_set_ports ?_ (by decide)); first | (with_reducible exact Only.refl _ _) | (with_reducible refine State.setPulse_only ?_ ?_) | (with_reducible refine only_ite (fun _ => ?_) (fun _ => ?_)) | (with_reducible refine only_foldl ?_ (fun _ _ => ?_)))
    | split)

theorem State.doRead_only {a1 : _} {a2 : _} {a3 : _} {a4 : _} (h : Only m s t) (hm : 2164326401 &&& m = 2164326401) :
    Only m s (t.doRead a1 a2 a3 a4) := by
  refine h.trans (Only.mono (m := 2164326401) ?_ hm)
  unfold State.doRead
  repeat' (first
    | (with_reducible exact Only.refl _ _)
    | (with_reducible refine State.pulsesRun_only ?_ ?_)
    | (with_reducible refine State.answer_only ?_ ?_)
    | (with_reducible refine State.readClears_only ?_ ?_)
    | (with_reducible refine State.answerData_only ?_ ?_)
    | (with_reducible refine only_ite (fun _ => ?_) (fun _ => ?_))
    | (with_reducible refine only_foldl ?_ (fun _ _ => ?_))
    | decide
    | (dsimp only)
    | split)

theorem State.setPort_only {a1 : _} {a2 : _} (h : Only m s t) (hm : 16777216 &&& m = 16777216) :
    Only m s (t.setPort a1 a2) := by
  refine h.trans (Only.mono (m := 16777216) ?_ hm)
  unfold State.setPort
  repeat' (first
    | (with_reducible exact Only.refl _ _)
    | (with_reducible refine only_ite (fun _ => ?_) (fun _ => ?_))
    | (with_reducible refine only_foldl ?_ (fun _ _ => ?_))
    | decide
    | (dsimp only)
    | ((with_reducible refine only_set_ports ?_ (by decide)); first | (with_reducible exact Only.refl _ _) | (with_reducible refine only_ite (fun _ => ?_) (fun _ => ?_)) | (with_reducible refine only_foldl ?_ (fun _ _ => ?_)))
    | split)

theorem State.fAssign_only {a1 : _} (h : Only m s t) (hm : 29035289 &&& m = 29035289) :
    Only m s (t.fAssign a1) := by
  refine h.trans (Only.mono (m := 29035289) ?_ hm)
  unfold State.fAssign
  repeat' (first
    | (with_reducible exact Only.refl _ _)
    | (with_reducible refine State.takeShadow_only ?_ ?_)
    | (with_reducible refine only_ite (fun _ => ?_) (fun _ => ?_))
    | (with_reducible refine only_foldl ?_ (fun _ _ => ?_))
    | decide
    | (dsimp only)
    | ((with_reducible refine only_set_dict ?_ (by decide)); first | (with_reducible exact Only.refl _ _) | (with_reducible refine State.takeShadow_only ?_ ?_) | (with_reducible refine only_ite (fun _ => ?_) (fun _ => ?_)) | (with_reducible refine only_foldl ?_ (fun _ _ => ?_)))
    | ((with_reducible refine only_set_spares ?_ (by decide)); first | (with_reducible exact Only.refl _ _) | (with_reducible refine State.takeShadow_only ?_ ?_) | (with_reducible refine only_ite (fun _ => ?_) (fun _ => ?_)) | (with_reducible refine only_foldl ?_ (fun _ _ => ?_)))
    | ((with_reducible refine only_set_chans ?_ (by decide)); first | (with_reducible exact Only.refl _ _) | (with_reducible refine State.takeShadow_only ?_ ?_) | (with_reducible refine only_ite (fun _ => ?_) (fun _ => ?_)) | (with_reducible refine only_foldl ?_ (fun _ _ => ?_)))
    | ((with_reducible refine only_set_tracks ?_ (by decide)); first | (with_reducible exact Only.refl _ _) | (with_reducible refine State.takeShadow_only ?_ ?_) | (with_reducible refine only_ite (fun _ => ?_) (fun _ => ?_)) | (with_reducible refine only_foldl ?_ (fun _ _ => ?_)))
    | ((with_reducible refine only_set_groups ?_ (by decide)); first | (with_reducible exact Only.refl _ _) | (with_reducible refine State.takeShadow_only ?_ ?_) | (with_reducible refine only_ite (fun _ => ?_) (fun _ => ?_)) | (with_reducible refine only_foldl ?_ (fun _ _ => ?_)))
    | ((with_reducible refine only_set_accts ?_ (by decide)); first | (with_reducible exact Only.refl _ _) | (with_reducible refine State.takeShadow_only ?_ ?_) | (with_reducible refine only_ite (fun _ => ?_) (fun _ => ?_)) | (with_reducible refine only_foldl ?_ (fun _ _ => ?_)))
    | ((with_reducible refine only_set_acc ?_ (by decide)); first | (with_reducible exact Only.refl _ _) | (with_reducible refine State.takeShadow_only ?_ ?_) | (with_reducible refine only_ite (fun _ => ?_) (fun _ => ?_)) | (with_reducible refine only_foldl ?_ (fun _ _ => ?_)))
    | ((with_reducible refine only_set_bal ?_ (by decide)); first | (with_reducible exact Only.refl _ _) | (with_reducible refine State.takeShadow_only ?_ ?_) | (with_reducible refine only_ite (fun _ => ?_) (fun _ => ?_)) | (with_reducible refine only_foldl ?_ (fun _ _ => ?_)))
    | ((with_reducible refine only_set_pp ?_ (by decide)); first | (with_reducible exact Only.refl _ _) | (with_reducible refine State.takeShadow_only ?_ ?_) | (with_reducible refine only_ite (fun _ => ?_) (fun _ => ?_)) | (with_reducible refine only_foldl ?_ (fun _ _ => ?_)))
    | ((with_reducible refine only_set_cal ?_ (by decide)); first | (with_reducible exact Only.refl _ _) | (with_reducible refine State.takeShadow_only ?_ ?_) | (with_reducible refine only_ite (fun _ => ?_) (fun _ => ?_)) | (with_reducible refine only_foldl ?_ (fun _ _ => ?_)))
    | ((with_reducible refine only_set_nvm ?_ ?_ (by decide)); rotate_left; (first | exact ⟨fun w => cellsSet_wf w _ _⟩ | exact ⟨fun w => w, fun _ p => List.mem_append_left _ p, fun _ => Nat.le_refl _⟩ | exact .of rfl rfl rfl | exact .of rfl rfl | exact .of rfl | exact Nat.le_refl _); first | (with_reducible exact Only.refl _ _) | (with_reducible refine State.takeShadow_only ?_ ?_) | (with_reducible refine only_ite (fun _ => ?_) (fun _ => ?_)) | (with_reducible refine only_foldl ?_ (fun _ _ => ?_)))
    | ((with_reducible refine only_set_evt ?_ (by decide)); first | (with_reducible exact Only.refl _ _) | (with_reducible refine State.takeShadow_only ?_ ?_) | (with_reducible refine only_ite (fun _ => ?_) (fun _ => ?_)) | (with_reducible refine only_foldl ?_ (fun _ _ => ?_)))
    | ((with_reducible refine only_set_ports ?_ (by decide)); first | (with_reducible exact Only.refl _ _) | (with_reducible refine State.takeShadow_only ?_ ?_) | (with_reducible refine only_ite (fun _ => ?_) (fun _ => ?_)) | (with_reducible refine only_foldl ?_ (fun _ _ => ?_)))
    | split)

theorem State.respondTo_only {a1 : _} {a2 : _} {a3 : _} (h : Only m s t) (hm : 29035289 &&& m = 29035289) :
    Only m s (t.respondTo a1 a2 a3) := by
  refine h.trans (Only.mono (m := 29035289) ?_ hm)
  unfold State.respondTo
  repeat' (first
    | (with_reducible exact Only.refl _ _)
    | (with_reducible refine State.setPort_only ?_ ?_)
    | (with_reducible refine State.fAssign_only ?_ ?_)
    | (with_reducible refine State.ringAdd_only ?_ ?_)
    | (with_reducible refine State.setRing_only ?_ ?_)
    | (with_reducible refine State.portShadows_only ?_ ?_)
    | (with_reducible refine only_ite (fun _ => ?_) (fun _ => ?_))
    | (with_reducible refine only_foldl ?_ (fun _ _ => ?_))
    | decide
    | (dsimp only)
    | split)

theorem State.request_only {r : Req} {op i j : Nat} {b : Bytes} {f : State → State} (h : Only m s t)
    (hf : ∀ u, Only m u (f u)) (hm : 2176518937 &&& m = 2176518937) : Only m s (t.request r op i j b f) := by
  have sub : ∀ k, k &&& 2176518937 = k → k &&& m = k := by
    intro k hk
    rw [← hk, Nat.and_assoc, hm]
  unfold State.request
  split
  · exact only_ite (fun _ => State.answerRetry_only h (sub _ rfl)) (fun _ => State.fAssign_only (h.trans (hf _)) (sub _ rfl))
  · exact only_ite (fun _ => h) (fun _ => only_ite (fun _ => State.respondTo_only (State.answer_only h (sub _ rfl)) (sub _ rfl))
      (fun _ => State.respondTo_only (h.trans (hf _)) (sub _ rfl)))

theorem State.writeReq_only {r : Req} {i j : Nat} {b : Bytes} {f : State → Card → Nat → State} (h : Only m s t)
    (hf : ∀ u c v, Only m u (f u c v)) (hm : 2176518937 &&& m = 2176518937) : Only m s (t.writeReq r i j b f) :=
  State.request_only h (fun u => State.checked_only (Only.refl _ u) hf (by
    rw [show 2148532224 = 2148532224 &&& 2176518937 from rfl, Nat.and_assoc, hm])) hm

theorem State.holdOn_only {a1 : _} (h : Only m s t) (hm : 2147483649 &&& m = 2147483649) :
    Only m s (t.holdOn a1) := by
  refine h.trans (Only.mono (m := 2147483649) ?_ hm)
  unfold State.holdOn
  repeat' (first
    | (with_reducible exact Only.refl _ _)
    | (with_reducible refine State.answer_only ?_ ?_)
    | (with_reducible refine only_ite (fun _ => ?_) (fun _ => ?_))
    | (with_reducible refine only_foldl ?_ (fun _ _ => ?_))
    | decide
    | (dsimp only)
    | ((with_reducible refine only_set_dict ?_ (by decide)); first | (with_reducible exact Only.refl _ _) | (with_reducible refine State.answer_only ?_ ?_) | (with_reducible refine only_ite (fun _ => ?_) (fun _ => ?_)) | (with_reducible refine only_foldl ?_ (fun _ _ => ?_)))
    | ((with_reducible refine only_set_ans ?_ (by decide)); first | (with_reducible exact Only.refl _ _) | (with_reducible refine State.answer_only ?_ ?_) | (with_reducible refine only_ite (fun _ => ?_) (fun _ => ?_)) | (with_reducible refine only_foldl ?_ (fun _ _ => ?_)))
    | split)

theorem State.persistAll_only {l : List (Nat × Nat)} {x : State} (h : Only m s t) (hm : 2097153 &&& m = 2097153)
    (e : t.persistAll l = some x) : Only m s x := by
  induction l generalizing t with
  | nil =>
    injection e with e
    exact e ▸ h
  | cons a r ih =>
    unfold State.persistAll at e
    split at e
    · exact ih h e
    · split at e
      · cases e
      · exact ih (State.persist_only h hm ‹_›) e

theorem State.releaseOne_only {a1 : _} {a2 : _} (h : Only m s t) (hm : 2176519961 &&& m = 2176519961) :
    Only m s (t.releaseOne a1 a2) := by
  refine h.trans (Only.mono (m := 2176519961) ?_ hm)
  unfold State.releaseOne
  repeat' (first
    | (with_reducible exact Only.refl _ _)
    | (with_reducible refine State.shadowed_only ?_ ?_)
    | (with_reducible refine State.setNext_only ?_ ?_)
    | (with_reducible refine only_ite (fun _ => ?_) (fun _ => ?_))
    | (with_reducible refine only_foldl ?_ (fun _ _ => ?_))
    | decide
    | (dsimp only)
    | split)

theorem State.holdOff_only (h : Only m s t) (hm : 2176519961 &&& m = 2176519961) :
    Only m s t.holdOff := by
  refine h.trans (Only.mono (m := 2176519961) ?_ hm)
  have ans : ∀ u : State, ∀ a, Only 2176519961 u (u.answer a) := fun u a => State.answer_only (Only.refl _ _) (by decide)
  have cl : ∀ u : State, ∀ d, Only 2176519961 u { u with dict := d } := fun u d => only_set_dict (Only.refl _ _) (by decide)
  have rel : ∀ u : State, ∀ a b, Only 2176519961 u (u.releaseOne a b) := fun u a b => State.releaseOne_only (Only.refl _ _) (by decide)
  unfold State.holdOff
  dsimp only
  split
  · exact ans _ _
  · split
    · exact ans _ _
    · rename_i x e
      have w : Only 2176519961 t x := State.persistAll_only (Only.refl _ _) (by decide) e
      exact ((w.trans (cl _ _)).trans (only_foldl (Only.refl _ _) (fun _ _ => rel _ _ _))).trans (ans _ _)

theorem State.writeHold_only {a1 : _} {a2 : _} (h : Only m s t) (hm : 2176519961 &&& m = 2176519961) :
    Only m s (t.writeHold a1 a2) := by
  refine h.trans (Only.mono (m := 2176519961) ?_ hm)
  unfold State.writeHold
  repeat' (first
    | (with_reducible exact Only.refl _ _)
    | (with_reducible refine State.answer_only ?_ ?_)
    | (with_reducible refine State.holdOn_only ?_ ?_)
    | (with_reducible refine State.holdOff_only ?_ ?_)
    | (with_reducible refine only_ite (fun _ => ?_) (fun _ => ?_))
    | (with_reducible refine only_foldl ?_ (fun _ _ => ?_))
    | decide
    | (dsimp only)
    | split)

theorem State.writeThen_only {q : Cls} {c : Card} {key v : Nat} {f : State → State} (h : Only m s t) (hf : ∀ u, Only m u (f u))
    (hm : 2176519961 &&& m = 2176519961) : Only m s (t.writeThen q c key v f) := by
  have w := State.writePlain_only (a1 := q) (a2 := c) (a3 := key) (a4 := v) h hm
  unfold State.writeThen
  exact only_ite (fun _ => w.trans (hf _)) (fun _ => w)

theorem State.writeNew_only {q : Cls} {c : Card} {key v : Nat} {f : State → State} (h : Only m s t) (hf : ∀ u, Only m u (f u))
    (hm : 2176519961 &&& m = 2176519961) : Only m s (t.writeNew q c key v f) := by
  have w := State.writePlain_only (a1 := q) (a2 := c) (a3 := key) (a4 := v) h hm
  unfold State.writeNew
  exact only_ite (fun _ => w.trans (hf _)) (fun _ => w)

theorem State.keepAns_only {f : State → State} (h : Only m s t) (hf : ∀ u, Only m u (f u)) (hm : 2147483648 &&& m = 2147483648) :
    Only m s (t.keepAns f) := only_set_ans (h.trans (hf t)) hm

theorem State.wSubstitute_only {a1 : _} {a2 : _} (h : Only m s t) (hm : 2147483672 &&& m = 2147483672) :
    Only m s (t.wSubstitute a1 a2) := by
  refine h.trans (Only.mono (m := 2147483672) ?_ hm)
  unfold State.wSubstitute
  repeat' (first
    | (with_reducible exact Only.refl _ _)
    | (with_reducible refine State.answer_only ?_ ?_)
    | (with_reducible refine State.answerRetry_only ?_ ?_)
    | (with_reducible refine State.substEnd_only ?_ ?_)
    | (with_reducible refine State.substStart_only ?_ ?_)
    | (with_reducible refine only_ite (fun _ => ?_) (fun _ => ?_))
    | (with_reducible refine only_foldl ?_ (fun _ _ => ?_))
    | decide
    | (dsimp only)
    | split)

theorem State.wHkRun_only {a1 : _} {a2 : _} {a3 : _} (h : Only m s t) (hm : 2176519993 &&& m = 2176519993) :
    Only m s (t.wHkRun a1 a2 a3) := by
  refine h.trans (Only.mono (m := 2176519993) ?_ hm)
  unfold State.wHkRun
  repeat' (first
    | (with_reducible exact Only.refl _ _)
    | (with_reducible refine State.writeNew_only ?_ (fun _ => ?_) ?_)
    | (with_reducible refine State.hkStop_only ?_ ?_)
    | (with_reducible refine State.setHk_only ?_ ?_)
    | (with_reducible refine State.hkStart_only ?_ ?_)
    | (with_reducible refine only_ite (fun _ => ?_) (fun _ => ?_))
    | (with_reducible refine only_foldl ?_ (fun _ _ => ?_))
    | decide
    | (dsimp only)
    | split)

theorem State.wHkFlags_only {a1 : _} (h : Only m s t) (hm : 2147483680 &&& m = 2147483680) :
    Only m s (t.wHkFlags a1) := by
  refine h.trans (Only.mono (m := 2147483680) ?_ hm)
  unfold State.wHkFlags
  repeat' (first
    | (with_reducible exact Only.refl _ _)
    | (with_reducible refine State.answer_only ?_ ?_)
    | (with_reducible refine State.setHk_only ?_ ?_)
    | (with_reducible refine only_ite (fun _ => ?_) (fun _ => ?_))
    | (with_reducible refine only_foldl ?_ (fun _ _ => ?_))
    | decide
    | (dsimp only)
    | split)

theorem State.thSet_only {a1 : _} {a2 : _} (h : Only m s t) (hm : 8388800 &&& m = 8388800) :
    Only m s (t.thSet a1 a2) := by
  refine h.trans (Only.mono (m := 8388800) ?_ hm)
  unfold State.thSet
  repeat' (first
    | (with_reducible exact Only.refl _ _)
    | (with_reducible refine State.ftRelease_only ?_ ?_)
    | (with_reducible refine State.setTh_only ?_ ?_)
    | (with_reducible refine only_ite (fun _ => ?_) (fun _ => ?_))
    | (with_reducible refine only_foldl ?_ (fun _ _ => ?_))
    | decide
    | (dsimp only)
    | split)

theorem State.wThEnable_only {a1 : _} {a2 : _} {a3 : _} {a4 : _} (h : Only m s t) (hm : 2176520153 &&& m = 2176520153) :
    Only m s (t.wThEnable a1 a2 a3 a4) := by
  refine h.trans (Only.mono (m := 2176520153) ?_ hm)
  unfold State.wThEnable
  repeat' (first
    | (with_reducible exact Only.refl _ _)
    | (with_reducible refine State.writeNew_only ?_ (fun _ => ?_) ?_)
    | (with_reducible refine State.thSet_only ?_ ?_)
    | (with_reducible refine State.keepAns_only ?_ (fun _ => ?_) ?_)
    | (with_reducible refine only_ite (fun _ => ?_) (fun _ => ?_))
    | (with_reducible refine only_foldl ?_ (fun _ _ => ?_))
    | decide
    | (dsimp only)
    | split)

theorem State.wFtrip_only {a1 : _} {a2 : _} {a3 : _} {a4 : _} (h : Only m s t) (hm : 2176520089 &&& m = 2176520089) :
    Only m s (t.wFtrip a1 a2 a3 a4) := by
  refine h.trans (Only.mono (m := 2176520089) ?_ hm)
  unfold State.wFtrip
  repeat' (first
    | (with_reducible exact Only.refl _ _)
    | (with_reducible refine State.setFtrip_only ?_ ?_)
    | (with_reducible refine State.writeThen_only ?_ (fun _ => ?_) ?_)
    | (with_reducible refine only_ite (fun _ => ?_) (fun _ => ?_))
    | (with_reducible refine only_foldl ?_ (fun _ _ => ?_))
    | decide
    | (dsimp only)
    | split)

theorem State.wFtripState_only {a1 : _} (h : Only m s t) (hm : 2147483776 &&& m = 2147483776) :
    Only m s (t.wFtripState a1) := by
  refine h.trans (Only.mono (m := 2147483776) ?_ hm)
  unfold State.wFtripState
  repeat' (first
    | (with_reducible exact Only.refl _ _)
    | (with_reducible refine State.answer_only ?_ ?_)
    | (with_reducible refine State.setFtrip_only ?_ ?_)
    | (with_reducible refine only_ite (fun _ => ?_) (fun _ => ?_))
    | (with_reducible refine only_foldl ?_ (fun _ _ => ?_))
    | decide
    | (dsimp only)
    | split)

theorem State.wEngines_only {a1 : _} {a2 : _} {a3 : _} (h : Only m s t) (hm : 2176519961 &&& m = 2176519961) :
    Only m s (t.wEngines a1 a2 a3) := by
  refine h.trans (Only.mono (m := 2176519961) ?_ hm)
  unfold State.wEngines
  repeat' (first
    | (with_reducible exact Only.refl _ _)
    | (with_reducible refine State.writeNew_only ?_ (fun _ => ?_) ?_)
    | (with_reducible refine State.engineOff_only ?_ ?_)
    | (with_reducible refine State.engineReadmit_only ?_ ?_)
    | (with_reducible refine State.keepAns_only ?_ (fun _ => ?_) ?_)
    | (with_reducible refine only_ite (fun _ => ?_) (fun _ => ?_))
    | (with_reducible refine only_foldl ?_ (fun _ _ => ?_))
    | decide
    | (dsimp only)
    | split)

theorem State.wClusters_only {a1 : _} {a2 : _} {a3 : _} (h : Only m s t) (hm : 2176519961 &&& m = 2176519961) :
    Only m s (t.wClusters a1 a2 a3) := by
  refine h.trans (Only.mono (m := 2176519961) ?_ hm)
  unfold State.wClusters
  repeat' (first
    | (with_reducible exact Only.refl _ _)
    | (with_reducible refine State.writeNew_only ?_ (fun _ => ?_) ?_)
    | (with_reducible refine State.clusterReadmit_only ?_ ?_)
    | (with_reducible refine State.clusterOff_only ?_ ?_)
    | (with_reducible refine State.keepAns_only ?_ (fun _ => ?_) ?_)
    | (with_reducible refine only_ite (fun _ => ?_) (fun _ => ?_))
    | (with_reducible refine only_foldl ?_ (fun _ _ => ?_))
    | decide
    | (dsimp only)
    | split)

theorem State.wCapture_only {a1 : _} (h : Only m s t) (hm : 2147532800 &&& m = 2147532800) :
    Only m s (t.wCapture a1) := by
  refine h.trans (Only.mono (m := 2147532800) ?_ hm)
  unfold State.wCapture
  repeat' (first
    | (with_reducible exact Only.refl _ _)
    | (with_reducible refine State.answer_only ?_ ?_)
    | (with_reducible refine State.captFreeAll_only ?_ ?_)
    | (with_reducible refine State.captStop_only ?_ ?_)
    | (with_reducible refine State.captTrigger_only ?_ ?_)
    | (with_reducible refine only_ite (fun _ => ?_) (fun _ => ?_))
    | (with_reducible refine only_foldl ?_ (fun _ _ => ?_))
    | decide
    | (dsimp only)
    | split)

theorem State.wCaptFree_only {a1 : _} (h : Only m s t) (hm : 2147500032 &&& m = 2147500032) :
    Only m s (t.wCaptFree a1) := by
  refine h.trans (Only.mono (m := 2147500032) ?_ hm)
  unfold State.wCaptFree
  repeat' (first
    | (with_reducible exact Only.refl _ _)
    | (with_reducible refine State.answer_only ?_ ?_)
    | (with_reducible refine State.captFree_only ?_ ?_)
    | (with_reducible refine only_ite (fun _ => ?_) (fun _ => ?_))
    | (with_reducible refine only_foldl ?_ (fun _ _ => ?_))
    | decide
    | (dsimp only)
    | split)

theorem State.slotsEnd_only (h : Only m s t) (hm : 8 &&& m = 8) :
    Only m s (t.slotsEnd) := by
  refine h.trans (Only.mono (m := 8) ?_ hm)
  unfold State.slotsEnd
  repeat' (first
    | (with_reducible exact Only.refl _ _)
    | (with_reducible refine State.setSpare_only ?_ ?_)
    | (with_reducible refine State.beginReturn_only ?_ ?_)
    | (with_reducible refine State.park_only ?_ ?_)
    | (with_reducible refine only_ite (fun _ => ?_) (fun _ => ?_))
    | (with_reducible refine only_foldl ?_ (fun _ _ => ?_))
    | decide
    | (dsimp only)
    | split)

theorem State.calOpen_only {a1 : _} {a2 : _} (h : Only m s t) (hm : 2148532232 &&& m = 2148532232) :
    Only m s (t.calOpen a1 a2) := by
  refine h.trans (Only.mono (m := 2148532232) ?_ hm)
  unfold State.calOpen
  repeat' (first
    | (with_reducible exact Only.refl _ _)
    | (with_reducible refine State.answer_only ?_ ?_)
    | (with_reducible refine State.answerRetry_only ?_ ?_)
    | (with_reducible refine State.setCal_only ?_ ?_)
    | (with_reducible refine State.slotsEnd_only ?_ ?_)
    | (with_reducible refine only_ite (fun _ => ?_) (fun _ => ?_))
    | (with_reducible refine only_foldl ?_ (fun _ _ => ?_))
    | decide
    | (dsimp only)
    | split)

theorem State.stepStart_only (h : Only m s t) (hm : 2148532264 &&& m = 2148532264) :
    Only m s (t.stepStart) := by
  refine h.trans (Only.mono (m := 2148532264) ?_ hm)
  unfold State.stepStart
  repeat' (first
    | (with_reducible exact Only.refl _ _)
    | (with_reducible refine State.answer_only ?_ ?_)
    | (with_reducible refine State.setCal_only ?_ ?_)
    | (with_reducible refine State.urgent_only ?_ ?_)
    | (with_reducible refine only_ite (fun _ => ?_) (fun _ => ?_))
    | (with_reducible refine only_foldl ?_ (fun _ _ => ?_))
    | decide
    | (dsimp only)
    | split)

theorem State.stepCancel_only (h : Only m s t) (hm : 9437200 &&& m = 9437200) :
    Only m s (t.stepCancel) := by
  refine h.trans (Only.mono (m := 9437200) ?_ hm)
  unfold State.stepCancel
  repeat' (first
    | (with_reducible exact Only.refl _ _)
    | (with_reducible refine State.abandonAll_only ?_ ?_)
    | (with_reducible refine State.stepStop_only ?_ ?_)
    | (with_reducible refine only_ite (fun _ => ?_) (fun _ => ?_))
    | (with_reducible refine only_foldl ?_ (fun _ _ => ?_))
    | decide
    | (dsimp only)
    | split)

theorem State.wCsCommand_only {a1 : _} {a2 : _} (h : Only m s t) (hm : 2156920888 &&& m = 2156920888) :
    Only m s (t.wCsCommand a1 a2) := by
  refine h.trans (Only.mono (m := 2156920888) ?_ hm)
  unfold State.wCsCommand
  repeat' (first
    | (with_reducible exact Only.refl _ _)
    | (with_reducible refine State.answer_only ?_ ?_)
    | (with_reducible refine State.stepCancel_only ?_ ?_)
    | (with_reducible refine State.sessionClose_only ?_ ?_)
    | (with_reducible refine State.calOpen_only ?_ ?_)
    | (with_reducible refine State.stepStart_only ?_ ?_)
    | (with_reducible refine only_ite (fun _ => ?_) (fun _ => ?_))
    | (with_reducible refine only_foldl ?_ (fun _ _ => ?_))
    | decide
    | (dsimp only)
    | split)

theorem State.nextBal_only (h : Only m s t) (hm : 268435456 &&& m = 268435456) :
    Only m s (t.nextBal) := by
  refine h.trans (Only.mono (m := 268435456) ?_ hm)
  unfold State.nextBal
  repeat' (first
    | (with_reducible exact Only.refl _ _)
    | (with_reducible refine State.setDisp_only ?_ ?_)
    | (with_reducible refine State.balFrame_only ?_ ?_)
    | (with_reducible refine only_ite (fun _ => ?_) (fun _ => ?_))
    | (with_reducible refine only_foldl ?_ (fun _ _ => ?_))
    | decide
    | (dsimp only)
    | split)

theorem State.nextWave_only (h : Only m s t) (hm : 276824064 &&& m = 276824064) :
    Only m s (t.nextWave) := by
  refine h.trans (Only.mono (m := 276824064) ?_ hm)
  unfold State.nextWave
  repeat' (first
    | (with_reducible exact Only.refl _ _)
    | (with_reducible refine State.dispFinish_only ?_ ?_)
    | (with_reducible refine State.waveFrame_only ?_ ?_)
    | (with_reducible refine State.setDisp_only ?_ ?_)
    | (with_reducible refine only_ite (fun _ => ?_) (fun _ => ?_))
    | (with_reducible refine only_foldl ?_ (fun _ _ => ?_))
    | decide
    | (dsimp only)
    | split)

theorem State.displayRestart_only {a1 : _} (h : Only m s t) (hm : 276824064 &&& m = 276824064) :
    Only m s (t.displayRestart a1) := by
  refine h.trans (Only.mono (m := 276824064) ?_ hm)
  unfold State.displayRestart
  repeat' (first
    | (with_reducible exact Only.refl _ _)
    | (with_reducible refine State.setDisp_only ?_ ?_)
    | (with_reducible refine State.dispAbandon_only ?_ ?_)
    | (with_reducible refine State.ev58_only ?_ ?_)
    | (with_reducible refine only_ite (fun _ => ?_) (fun _ => ?_))
    | (with_reducible refine only_foldl ?_ (fun _ _ => ?_))
    | decide
    | (dsimp only)
    | split)

theorem State.selvFrame_only {a1 : _} {a2 : _} {a3 : _} (h : Only m s t) (hm : 268435456 &&& m = 268435456) :
    Only m s (t.selvFrame a1 a2 a3) := by
  refine h.trans (Only.mono (m := 268435456) ?_ hm)
  unfold State.selvFrame
  repeat' (first
    | (with_reducible exact Only.refl _ _)
    | (with_reducible refine State.selvStart_only ?_ ?_)
    | (with_reducible refine State.setSelv_only ?_ ?_)
    | (with_reducible refine State.selvAdd_only ?_ ?_)
    | (with_reducible refine only_ite (fun _ => ?_) (fun _ => ?_))
    | (with_reducible refine only_foldl ?_ (fun _ _ => ?_))
    | decide
    | (dsimp only)
    | split)

theorem State.requestClear_only (h : Only m s t) (hm : 276824064 &&& m = 276824064) :
    Only m s (t.requestClear) := by
  refine h.trans (Only.mono (m := 276824064) ?_ hm)
  unfold State.requestClear
  repeat' (first
    | (with_reducible exact Only.refl _ _)
    | (with_reducible refine State.setDisp_only ?_ ?_)
    | (with_reducible refine State.dispStart_only ?_ ?_)
    | (with_reducible refine only_ite (fun _ => ?_) (fun _ => ?_))
    | (with_reducible refine only_foldl ?_ (fun _ _ => ?_))
    | decide
    | (dsimp only)
    | split)

theorem State.requestOff_only (h : Only m s t) (hm : 276824064 &&& m = 276824064) :
    Only m s (t.requestOff) := by
  refine h.trans (Only.mono (m := 276824064) ?_ hm)
  unfold State.requestOff
  repeat' (first
    | (with_reducible exact Only.refl _ _)
    | (with_reducible refine State.setDisp_only ?_ ?_)
    | (with_reducible refine State.dispDischarge_only ?_ ?_)
    | (with_reducible refine only_ite (fun _ => ?_) (fun _ => ?_))
    | (with_reducible refine only_foldl ?_ (fun _ _ => ?_))
    | decide
    | (dsimp only)
    | split)

theorem State.wDisp_only {a1 : _} (h : Only m s t) (hm : 2424307712 &&& m = 2424307712) :
    Only m s (t.wDisp a1) := by
  refine h.trans (Only.mono (m := 2424307712) ?_ hm)
  unfold State.wDisp
  repeat' (first
    | (with_reducible exact Only.refl _ _)
    | (with_reducible refine State.answer_only ?_ ?_)
    | (with_reducible refine State.requestClear_only ?_ ?_)
    | (with_reducible refine State.requestOff_only ?_ ?_)
    | (with_reducible refine State.requestUpdate_only ?_ ?_)
    | (with_reducible refine State.keepAns_only ?_ (fun _ => ?_) ?_)
    | (with_reducible refine only_ite (fun _ => ?_) (fun _ => ?_))
    | (with_reducible refine only_foldl ?_ (fun _ _ => ?_))
    | decide
    | (dsimp only)
    | split)

theorem State.wImage_only {a1 : _} (h : Only m s t) (hm : 2424307712 &&& m = 2424307712) :
    Only m s (t.wImage a1) := by
  refine h.trans (Only.mono (m := 2424307712) ?_ hm)
  unfold State.wImage
  repeat' (first
    | (with_reducible exact Only.refl _ _)
    | (with_reducible refine State.answer_only ?_ ?_)
    | (with_reducible refine State.setDisp_only ?_ ?_)
    | (with_reducible refine State.requestUpdate_only ?_ ?_)
    | (with_reducible refine State.keepAns_only ?_ (fun _ => ?_) ?_)
    | (with_reducible refine only_ite (fun _ => ?_) (fun _ => ?_))
    | (with_reducible refine only_foldl ?_ (fun _ _ => ?_))
    | decide
    | (dsimp only)
    | split)

theorem State.wOutage_only {a1 : _} (h : Only m s t) (hm : 2415919104 &&& m = 2415919104) :
    Only m s (t.wOutage a1) := by
  refine h.trans (Only.mono (m := 2415919104) ?_ hm)
  unfold State.wOutage
  repeat' (first
    | (with_reducible exact Only.refl _ _)
    | (with_reducible refine State.answer_only ?_ ?_)
    | (with_reducible refine State.setDisp_only ?_ ?_)
    | (with_reducible refine State.selvTarget_only ?_ ?_)
    | (with_reducible refine only_ite (fun _ => ?_) (fun _ => ?_))
    | (with_reducible refine only_foldl ?_ (fun _ _ => ?_))
    | decide
    | (dsimp only)
    | split)

theorem State.wSelvedge_only {a1 : _} {a2 : _} {a3 : _} (h : Only m s t) (hm : 2444955417 &&& m = 2444955417) :
    Only m s (t.wSelvedge a1 a2 a3) := by
  refine h.trans (Only.mono (m := 2444955417) ?_ hm)
  unfold State.wSelvedge
  repeat' (first
    | (with_reducible exact Only.refl _ _)
    | (with_reducible refine State.writeNew_only ?_ (fun _ => ?_) ?_)
    | (with_reducible refine State.selvStatus_only ?_ ?_)
    | (with_reducible refine State.keepAns_only ?_ (fun _ => ?_) ?_)
    | (with_reducible refine only_ite (fun _ => ?_) (fun _ => ?_))
    | (with_reducible refine only_foldl ?_ (fun _ _ => ?_))
    | decide
    | (dsimp only)
    | split)

theorem State.engineFault_only {a1 : _} {a2 : _} (h : Only m s t) (hm : 1622148665 &&& m = 1622148665) :
    Only m s (t.engineFault a1 a2) := by
  refine h.trans (Only.mono (m := 1622148665) ?_ hm)
  unfold State.engineFault
  repeat' (first
    | (with_reducible exact Only.refl _ _)
    | (with_reducible refine State.trialFails_only ?_ ?_)
    | (with_reducible refine State.setUpd_only ?_ ?_)
    | (with_reducible refine State.resetEngine_only ?_ ?_)
    | (with_reducible refine only_ite (fun _ => ?_) (fun _ => ?_))
    | (with_reducible refine only_foldl ?_ (fun _ _ => ?_))
    | decide
    | (dsimp only)
    | split)

theorem State.thermal_only {a1 : _} {a2 : _} (h : Only m s t) (hm : 12582912 &&& m = 12582912) :
    Only m s (t.thermal a1 a2) := by
  refine h.trans (Only.mono (m := 12582912) ?_ hm)
  unfold State.thermal
  repeat' (first
    | (with_reducible exact Only.refl _ _)
    | (with_reducible refine State.raise_only ?_ ?_)
    | (with_reducible refine State.setPwr_only ?_ ?_)
    | (with_reducible refine only_ite (fun _ => ?_) (fun _ => ?_))
    | (with_reducible refine only_foldl ?_ (fun _ _ => ?_))
    | decide
    | (dsimp only)
    | split)

theorem State.dieTemp_only {a1 : _} {a2 : _} (h : Only m s t) (hm : 349175864 &&& m = 349175864) :
    Only m s (t.dieTemp a1 a2) := by
  refine h.trans (Only.mono (m := 349175864) ?_ hm)
  unfold State.dieTemp
  repeat' (first
    | (with_reducible exact Only.refl _ _)
    | (with_reducible refine State.thermal_only ?_ ?_)
    | (with_reducible refine State.applyTemp_only ?_ ?_)
    | (with_reducible refine State.tempInside_only ?_ ?_)
    | (with_reducible refine State.setHk_only ?_ ?_)
    | (with_reducible refine State.urgent_only ?_ ?_)
    | (with_reducible refine only_ite (fun _ => ?_) (fun _ => ?_))
    | (with_reducible refine only_foldl ?_ (fun _ _ => ?_))
    | decide
    | (dsimp only)
    | split)

theorem State.hkResult_only {a1 : _} {a2 : _} (h : Only m s t) (hm : 349175864 &&& m = 349175864) :
    Only m s (t.hkResult a1 a2) := by
  refine h.trans (Only.mono (m := 349175864) ?_ hm)
  unfold State.hkResult
  repeat' (first
    | (with_reducible exact Only.refl _ _)
    | (with_reducible refine State.vbatCompare_only ?_ ?_)
    | (with_reducible refine State.dieTemp_only ?_ ?_)
    | (with_reducible refine State.raise_only ?_ ?_)
    | (with_reducible refine State.setHk_only ?_ ?_)
    | (with_reducible refine only_ite (fun _ => ?_) (fun _ => ?_))
    | (with_reducible refine only_foldl ?_ (fun _ _ => ?_))
    | decide
    | (dsimp only)
    | split)

theorem State.hkNext_only {n : Nat} (h : Only m s t) (hm : 32 &&& m = 32) : Only m s (t.hkNext n) := by
  induction n generalizing t with
  | zero => exact h
  | succ n ih =>
    have w : ∀ f, Only m s (t.setHk f) := fun f => State.setHk_only h hm
    exact only_ite (fun _ => ih (w _)) (fun _ => w _)

theorem State.powerVerified_only {a1 : _} {a2 : _} (h : Only m s t) (hm : 4195360 &&& m = 4195360) :
    Only m s (t.powerVerified a1 a2) := by
  refine h.trans (Only.mono (m := 4195360) ?_ hm)
  unfold State.powerVerified
  repeat' (first
    | (with_reducible exact Only.refl _ _)
    | (with_reducible refine State.setEng_only ?_ ?_)
    | (with_reducible refine State.setPwr_only ?_ ?_)
    | (with_reducible refine State.hkStart_only ?_ ?_)
    | (with_reducible refine only_ite (fun _ => ?_) (fun _ => ?_))
    | (with_reducible refine only_foldl ?_ (fun _ _ => ?_))
    | decide
    | (dsimp only)
    | split)

theorem State.glitchVerified_only {a1 : _} (h : Only m s t) (hm : 67108864 &&& m = 67108864) :
    Only m s (t.glitchVerified a1) := by
  refine h.trans (Only.mono (m := 67108864) ?_ hm)
  unfold State.glitchVerified
  repeat' (first
    | (with_reducible exact Only.refl _ _)
    | (with_reducible refine State.setTamper_only ?_ ?_)
    | (with_reducible refine only_ite (fun _ => ?_) (fun _ => ?_))
    | (with_reducible refine only_foldl ?_ (fun _ _ => ?_))
    | decide
    | (dsimp only)
    | split)

theorem State.controlRestart_only {a1 : _} {a2 : _} (h : Only m s t) (hm : 1622147641 &&& m = 1622147641) :
    Only m s (t.controlRestart a1 a2) := by
  refine h.trans (Only.mono (m := 1622147641) ?_ hm)
  unfold State.controlRestart
  repeat' (first
    | (with_reducible exact Only.refl _ _)
    | (with_reducible refine State.fallbackStart_only ?_ ?_)
    | (with_reducible refine State.controlDown_only ?_ ?_)
    | (with_reducible refine only_ite (fun _ => ?_) (fun _ => ?_))
    | (with_reducible refine only_foldl ?_ (fun _ _ => ?_))
    | decide
    | (dsimp only)
    | split)

theorem State.portRestart_only {a1 : _} (h : Only m s t) (hm : 25690112 &&& m = 25690112) :
    Only m s (t.portRestart a1) := by
  refine h.trans (Only.mono (m := 25690112) ?_ hm)
  unfold State.portRestart
  repeat' (first
    | (with_reducible exact Only.refl _ _)
    | (with_reducible refine State.ev58_only ?_ ?_)
    | (with_reducible refine State.setRelay_only ?_ ?_)
    | (with_reducible refine only_ite (fun _ => ?_) (fun _ => ?_))
    | (with_reducible refine only_foldl ?_ (fun _ _ => ?_))
    | decide
    | (dsimp only)
    | ((with_reducible refine only_set_pp ?_ (by decide)); first | (with_reducible exact Only.refl _ _) | (with_reducible refine State.ev58_only ?_ ?_) | (with_reducible refine State.setRelay_only ?_ ?_) | (with_reducible refine only_ite (fun _ => ?_) (fun _ => ?_)) | (with_reducible refine only_foldl ?_ (fun _ _ => ?_)))
    | ((with_reducible refine only_set_evt ?_ (by decide)); first | (with_reducible exact Only.refl _ _) | (with_reducible refine State.ev58_only ?_ ?_) | (with_reducible refine State.setRelay_only ?_ ?_) | (with_reducible refine only_ite (fun _ => ?_) (fun _ => ?_)) | (with_reducible refine only_foldl ?_ (fun _ _ => ?_)))
    | ((with_reducible refine only_set_ports ?_ (by decide)); first | (with_reducible exact Only.refl _ _) | (with_reducible refine State.ev58_only ?_ ?_) | (with_reducible refine State.setRelay_only ?_ ?_) | (with_reducible refine only_ite (fun _ => ?_) (fun _ => ?_)) | (with_reducible refine only_foldl ?_ (fun _ _ => ?_)))
    | split)

theorem State.bindCommand_only {a1 : _} (h : Only m s t) (hm : 284165121 &&& m = 284165121) :
    Only m s (t.bindCommand a1) := by
  refine h.trans (Only.mono (m := 284165121) ?_ hm)
  unfold State.bindCommand
  repeat' (first
    | (with_reducible exact Only.refl _ _)
    | (with_reducible refine State.setCal_only ?_ ?_)
    | (with_reducible refine State.holdDrop_only ?_ ?_)
    | (with_reducible refine State.bindStart_only ?_ ?_)
    | (with_reducible refine only_ite (fun _ => ?_) (fun _ => ?_))
    | (with_reducible refine only_foldl ?_ (fun _ _ => ?_))
    | decide
    | (dsimp only)
    | split)

theorem State.wPower_only {a1 : _} (h : Only m s t) (hm : 4059563577 &&& m = 4059563577) :
    Only m s (t.wPower a1) := by
  refine h.trans (Only.mono (m := 4059563577) ?_ hm)
  unfold State.wPower
  repeat' (first
    | (with_reducible exact Only.refl _ _)
    | (with_reducible refine State.bindCommand_only ?_ ?_)
    | (with_reducible refine State.displayRestart_only ?_ ?_)
    | (with_reducible refine State.answer_only ?_ ?_)
    | (with_reducible refine State.portRestart_only ?_ ?_)
    | (with_reducible refine State.controlRestart_only ?_ ?_)
    | (with_reducible refine State.keepAns_only ?_ (fun _ => ?_) ?_)
    | (with_reducible refine only_ite (fun _ => ?_) (fun _ => ?_))
    | (with_reducible refine only_foldl ?_ (fun _ _ => ?_))
    | decide
    | (dsimp only)
    | split)

end Sys2Proof.Machine
end

