-- ==== Sys2Proof/Laws/Frame4.lean ====
section
/-! SUPPORT. What each shared operation may change (Only of Laws/Frame.lean), one lemma each: the operations of Machine/Mem,
Machine/MeterCmd, Machine/NvmCmd, Machine/PortOps, Machine/PortCmd, Machine/Power, Machine/PrepayCmd, Machine/RelayCmd,
Machine/TamperCmd, Machine/UpdCmd, Machine/Requests, Machine/Spares, Machine/Tick. -/
namespace Sys2Proof.Machine

variable {m : Nat} {s x t : State}

theorem State.scrubCursor_only {a1 : _} (h : Only m s t) (hm : 33554432 &&& m = 33554432) :
    Only m s (t.scrubCursor a1) := by
  refine h.trans (Only.mono (m := 33554432) ?_ hm)
  unfold State.scrubCursor
  repeat' (first
    | (with_reducible exact Only.refl _ _)
    | (with_reducible refine State.setBank_only ?_ ?_)
    | (with_reducible refine only_ite (fun _ => ?_) (fun _ => ?_))
    | (with_reducible refine only_foldl ?_ (fun _ _ => ?_))
    | decide
    | (dsimp only)
    | split)

theorem State.setTime_only {a1 : _} {a2 : _} (h : Only m s t) (hm : 76021762 &&& m = 76021762) :
    Only m s (t.setTime a1 a2) := by
  refine h.trans (Only.mono (m := 76021762) ?_ hm)
  unfold State.setTime
  repeat' (first
    | (with_reducible exact Only.refl _ _)
    | (with_reducible refine State.raise_only ?_ ?_)
    | (with_reducible refine State.setPp_only ?_ ?_)
    | (with_reducible refine State.setTamper_only ?_ ?_)
    | (with_reducible refine only_ite (fun _ => ?_) (fun _ => ?_))
    | (with_reducible refine only_foldl ?_ (fun _ _ => ?_))
    | decide
    | exact ⟨fun w => cellsSet_wf w _ _⟩ | exact ⟨fun w => w, fun _ p => List.mem_append_left _ p, fun _ => Nat.le_refl _⟩ | exact .of rfl rfl rfl | exact .of rfl rfl | exact .of rfl | exact Nat.le_refl _
    | (dsimp only)
    | ((with_reducible refine only_set_clock ?_ ?_ (by decide)); rotate_left; (first | exact ⟨fun w => cellsSet_wf w _ _⟩ | exact ⟨fun w => w, fun _ p => List.mem_append_left _ p, fun _ => Nat.le_refl _⟩ | exact .of rfl rfl rfl | exact .of rfl rfl | exact .of rfl | exact Nat.le_refl _); first | (with_reducible exact Only.refl _ _) | (with_reducible refine State.raise_only ?_ ?_) | (with_reducible refine State.setPp_only ?_ ?_) | (with_reducible refine State.setTamper_only ?_ ?_) | (with_reducible refine only_ite (fun _ => ?_) (fun _ => ?_)) | (with_reducible refine only_foldl ?_ (fun _ _ => ?_)))
    | ((with_reducible refine only_set_pp ?_ (by decide)); first | (with_reducible exact Only.refl _ _) | (with_reducible refine State.raise_only ?_ ?_) | (with_reducible refine State.setPp_only ?_ ?_) | (with_reducible refine State.setTamper_only ?_ ?_) | (with_reducible refine only_ite (fun _ => ?_) (fun _ => ?_)) | (with_reducible refine only_foldl ?_ (fun _ _ => ?_)))
    | ((with_reducible refine only_set_evt ?_ (by decide)); first | (with_reducible exact Only.refl _ _) | (with_reducible refine State.raise_only ?_ ?_) | (with_reducible refine State.setPp_only ?_ ?_) | (with_reducible refine State.setTamper_only ?_ ?_) | (with_reducible refine only_ite (fun _ => ?_) (fun _ => ?_)) | (with_reducible refine only_foldl ?_ (fun _ _ => ?_)))
    | ((with_reducible refine only_set_tamper ?_ (by decide)); first | (with_reducible exact Only.refl _ _) | (with_reducible refine State.raise_only ?_ ?_) | (with_reducible refine State.setPp_only ?_ ?_) | (with_reducible refine State.setTamper_only ?_ ?_) | (with_reducible refine only_ite (fun _ => ?_) (fun _ => ?_)) | (with_reducible refine only_foldl ?_ (fun _ _ => ?_)))
    | split)

theorem State.wSnap_only {a1 : _} {a2 : _} (h : Only m s t) (hm : 2147549184 &&& m = 2147549184) :
    Only m s (t.wSnap a1 a2) := by
  refine h.trans (Only.mono (m := 2147549184) ?_ hm)
  unfold State.wSnap
  repeat' (first
    | (with_reducible exact Only.refl _ _)
    | (with_reducible refine State.answer_only ?_ ?_)
    | (with_reducible refine State.setAcc_only ?_ ?_)
    | (with_reducible refine only_ite (fun _ => ?_) (fun _ => ?_))
    | (with_reducible refine only_foldl ?_ (fun _ _ => ?_))
    | decide
    | (dsimp only)
    | split)

theorem State.wAccClear_only {a1 : _} {a2 : _} (h : Only m s t) (hm : 2158034944 &&& m = 2158034944) :
    Only m s (t.wAccClear a1 a2) := by
  refine h.trans (Only.mono (m := 2158034944) ?_ hm)
  unfold State.wAccClear
  repeat' (first
    | (with_reducible exact Only.refl _ _)
    | (with_reducible refine State.answer_only ?_ ?_)
    | (with_reducible refine State.setProf_only ?_ ?_)
    | (with_reducible refine State.jSave_only ?_ ?_)
    | (with_reducible refine State.setAcc_only ?_ ?_)
    | (with_reducible refine State.logBoth_only ?_ ?_)
    | (with_reducible refine only_ite (fun _ => ?_) (fun _ => ?_))
    | (with_reducible refine only_foldl ?_ (fun _ _ => ?_))
    | decide
    | (dsimp only)
    | split)

theorem State.wMdReset_only {a1 : _} {a2 : _} (h : Only m s t) (hm : 2158034944 &&& m = 2158034944) :
    Only m s (t.wMdReset a1 a2) := by
  refine h.trans (Only.mono (m := 2158034944) ?_ hm)
  unfold State.wMdReset
  repeat' (first
    | (with_reducible exact Only.refl _ _)
    | (with_reducible refine State.answer_only ?_ ?_)
    | (with_reducible refine State.jSave_only ?_ ?_)
    | (with_reducible refine State.setDemand_only ?_ ?_)
    | (with_reducible refine State.logBoth_only ?_ ?_)
    | (with_reducible refine only_ite (fun _ => ?_) (fun _ => ?_))
    | (with_reducible refine only_foldl ?_ (fun _ _ => ?_))
    | decide
    | (dsimp only)
    | split)

theorem State.pulseNew_only {a1 : _} {a2 : _} (h : Only m s t) (hm : 65536 &&& m = 65536) :
    Only m s (t.pulseNew a1 a2) := by
  refine h.trans (Only.mono (m := 65536) ?_ hm)
  unfold State.pulseNew
  repeat' (first
    | (with_reducible exact Only.refl _ _)
    | (with_reducible refine State.setPulse_only ?_ ?_)
    | (with_reducible refine only_ite (fun _ => ?_) (fun _ => ?_))
    | (with_reducible refine only_foldl ?_ (fun _ _ => ?_))
    | decide
    | (dsimp only)
    | split)

theorem State.wPulse_only {a1 : _} {a2 : _} {a3 : _} {a4 : _} {a5 : _} (h : Only m s t) (hm : 2176519961 &&& m = 2176519961) :
    Only m s (t.wPulse a1 a2 a3 a4 a5) := by
  refine h.trans (Only.mono (m := 2176519961) ?_ hm)
  unfold State.wPulse
  repeat' (first
    | (with_reducible exact Only.refl _ _)
    | (with_reducible refine State.writeNew_only ?_ (fun _ => ?_) ?_)
    | (with_reducible refine State.pulseNew_only ?_ ?_)
    | (with_reducible refine State.pulseRun_only ?_ ?_)
    | (with_reducible refine only_ite (fun _ => ?_) (fun _ => ?_))
    | (with_reducible refine only_foldl ?_ (fun _ _ => ?_))
    | decide
    | (dsimp only)
    | split)

theorem State.wPending_only {a1 : _} (h : Only m s t) (hm : 2155872256 &&& m = 2155872256) :
    Only m s (t.wPending a1) := by
  refine h.trans (Only.mono (m := 2155872256) ?_ hm)
  unfold State.wPending
  repeat' (first
    | (with_reducible exact Only.refl _ _)
    | (with_reducible refine State.answer_only ?_ ?_)
    | (with_reducible refine only_ite (fun _ => ?_) (fun _ => ?_))
    | (with_reducible refine only_foldl ?_ (fun _ _ => ?_))
    | decide
    | (dsimp only)
    | ((with_reducible refine only_set_evt ?_ (by decide)); first | (with_reducible exact Only.refl _ _) | (with_reducible refine State.answer_only ?_ ?_) | (with_reducible refine only_ite (fun _ => ?_) (fun _ => ?_)) | (with_reducible refine only_foldl ?_ (fun _ _ => ?_)))
    | ((with_reducible refine only_set_ans ?_ (by decide)); first | (with_reducible exact Only.refl _ _) | (with_reducible refine State.answer_only ?_ ?_) | (with_reducible refine only_ite (fun _ => ?_) (fun _ => ?_)) | (with_reducible refine only_foldl ?_ (fun _ _ => ?_)))
    | split)

theorem State.consumersNew_only {a1 : _} {a2 : _} (h : Only m s t) (hm : 8388608 &&& m = 8388608) :
    Only m s (t.consumersNew a1 a2) := by
  refine h.trans (Only.mono (m := 8388608) ?_ hm)
  unfold State.consumersNew
  repeat' (first
    | (with_reducible exact Only.refl _ _)
    | (with_reducible refine State.setRing_only ?_ ?_)
    | (with_reducible refine only_ite (fun _ => ?_) (fun _ => ?_))
    | (with_reducible refine only_foldl ?_ (fun _ _ => ?_))
    | decide
    | (dsimp only)
    | split)

theorem State.wConsumers_only {a1 : _} {a2 : _} {a3 : _} (h : Only m s t) (hm : 2176519961 &&& m = 2176519961) :
    Only m s (t.wConsumers a1 a2 a3) := by
  refine h.trans (Only.mono (m := 2176519961) ?_ hm)
  unfold State.wConsumers
  repeat' (first
    | (with_reducible exact Only.refl _ _)
    | (with_reducible refine State.writeNew_only ?_ (fun _ => ?_) ?_)
    | (with_reducible refine State.consumersNew_only ?_ ?_)
    | (with_reducible refine only_ite (fun _ => ?_) (fun _ => ?_))
    | (with_reducible refine only_foldl ?_ (fun _ _ => ?_))
    | decide
    | (dsimp only)
    | split)

theorem State.wSave_only {a1 : _} (h : Only m s t) (hm : 2149580800 &&& m = 2149580800) :
    Only m s (t.wSave a1) := by
  refine h.trans (Only.mono (m := 2149580800) ?_ hm)
  unfold State.wSave
  repeat' (first
    | (with_reducible exact Only.refl _ _)
    | (with_reducible refine State.answer_only ?_ ?_)
    | (with_reducible refine State.save_only ?_ ?_)
    | (with_reducible refine only_ite (fun _ => ?_) (fun _ => ?_))
    | (with_reducible refine only_foldl ?_ (fun _ _ => ?_))
    | decide
    | (dsimp only)
    | split)

theorem State.rewriteElsewhere_only {a1 : Nat} (h : Only m s t) (hm : 538968064 &&& m = 538968064) :
    Only m s (t.rewriteElsewhere a1) := by
  refine h.trans (Only.mono (m := 538968064) ?_ hm)
  have up : ∀ u : State, ∀ f, Only 538968064 u (u.setUpd f) := fun u f => State.setUpd_only (Only.refl _ _) (by decide)
  have jw : ∀ u : State, ∀ l, Only 538968064 u (u.jWrite l) := fun u l => State.jWrite_only (Only.refl _ _) (by decide)
  have pr : ∀ u : State, ∀ a b, Only 538968064 u (u.programs a b) := fun u a b => State.programs_only (Only.refl _ _) (by decide)
  have nw : ∀ u : State, ∀ a b, Only 538968064 u (u.nvmWrite a b) := fun u a b => State.nvmWrite_only (Only.refl _ _) (by decide)
  have sn : ∀ (u : State) (f : Nvm → Nvm), NvmStep u.nvm (f u.nvm) → Only 538968064 u (u.setNvm f) := fun u f hf =>
    State.setNvm_only (Only.refl _ _) hf (by decide)
  have ev : ∀ (u : State) (v : Nvm → Nat), Only 538968064 u (u.setNvm (fun n => { n with evSlot := v n })) := fun u v => sn u _ (.of rfl rfl rfl)
  have cf : ∀ (u : State) (f : Nvm → Store), Only 538968064 u (u.setNvm (fun n => { n with cfg := f n })) := fun u f => sn u _ (.of rfl rfl rfl)
  have ca : ∀ (u : State) (f : Nvm → Store), Only 538968064 u (u.setNvm (fun n => { n with cal := f n })) := fun u f => sn u _ (.of rfl rfl rfl)
  unfold State.rewriteElsewhere
  exact only_ite (fun _ => only_ite (fun _ => up _ _) (fun _ => Only.refl _ _))
    (fun _ => only_ite (fun _ => jw _ _)
      (fun _ => only_ite (fun _ => cf _ _)
        (fun _ => only_ite (fun _ => ca _ _)
          (fun _ => only_ite (fun _ => only_ite (fun _ => (nw _ _ _).trans (ev _ _)) (fun _ => Only.refl _ _))
            (fun _ => only_ite (fun _ => pr _ _ _) (fun _ => Only.refl _ _))))))

theorem State.pageBad_only {a1 : _} (h : Only m s t) (hm : 547356673 &&& m = 547356673) :
    Only m s (t.pageBad a1) := by
  refine h.trans (Only.mono (m := 547356673) ?_ hm)
  unfold State.pageBad
  repeat' (first
    | (with_reducible exact Only.refl _ _)
    | (with_reducible refine State.rewriteElsewhere_only ?_ ?_)
    | (with_reducible refine State.storeTry_only ?_ ?_)
    | (with_reducible refine State.raise_only ?_ ?_)
    | (with_reducible refine State.setNvm_only ?_ ?_ ?_)
    | (with_reducible refine only_ite (fun _ => ?_) (fun _ => ?_))
    | (with_reducible refine only_foldl ?_ (fun _ _ => ?_))
    | decide
    | exact ⟨fun w => cellsSet_wf w _ _⟩ | exact ⟨fun w => w, fun _ p => List.mem_append_left _ p, fun _ => Nat.le_refl _⟩ | exact .of rfl rfl rfl | exact .of rfl rfl | exact .of rfl | exact Nat.le_refl _
    | (dsimp only)
    | split)

theorem State.ev21_only {a1 : _} {a2 : _} {a3 : _} (h : Only m s t) (hm : 8388608 &&& m = 8388608) :
    Only m s (t.ev21 a1 a2 a3) := by
  refine h.trans (Only.mono (m := 8388608) ?_ hm)
  unfold State.ev21
  repeat' (first
    | (with_reducible exact Only.refl _ _)
    | (with_reducible refine State.raise_only ?_ ?_)
    | (with_reducible refine only_ite (fun _ => ?_) (fun _ => ?_))
    | (with_reducible refine only_foldl ?_ (fun _ _ => ?_))
    | decide
    | (dsimp only)
    | split)

theorem State.pairBad_only {a1 : _} {a2 : _} {a3 : _} (h : Only m s t) (hm : 10485761 &&& m = 10485761) :
    Only m s (t.pairBad a1 a2 a3) := by
  refine h.trans (Only.mono (m := 10485761) ?_ hm)
  unfold State.pairBad
  repeat' (first
    | (with_reducible exact Only.refl _ _)
    | (with_reducible refine State.ev21_only ?_ ?_)
    | (with_reducible refine State.setNvm_only ?_ ?_ ?_)
    | (with_reducible refine only_ite (fun _ => ?_) (fun _ => ?_))
    | (with_reducible refine only_foldl ?_ (fun _ _ => ?_))
    | decide
    | exact ⟨fun w => cellsSet_wf w _ _⟩ | exact ⟨fun w => w, fun _ p => List.mem_append_left _ p, fun _ => Nat.le_refl _⟩ | exact .of rfl rfl rfl | exact .of rfl rfl | exact .of rfl | exact Nat.le_refl _
    | (dsimp only)
    | ((with_reducible refine only_set_dict ?_ (by decide)); first | (with_reducible exact Only.refl _ _) | (with_reducible refine State.ev21_only ?_ ?_) | (with_reducible refine State.setNvm_only ?_ ?_ ?_) | (with_reducible refine only_ite (fun _ => ?_) (fun _ => ?_)) | (with_reducible refine only_foldl ?_ (fun _ _ => ?_)))
    | ((with_reducible refine only_set_nvm ?_ ?_ (by decide)); rotate_left; (first | exact ⟨fun w => cellsSet_wf w _ _⟩ | exact ⟨fun w => w, fun _ p => List.mem_append_left _ p, fun _ => Nat.le_refl _⟩ | exact .of rfl rfl rfl | exact .of rfl rfl | exact .of rfl | exact Nat.le_refl _); first | (with_reducible exact Only.refl _ _) | (with_reducible refine State.ev21_only ?_ ?_) | (with_reducible refine State.setNvm_only ?_ ?_ ?_) | (with_reducible refine only_ite (fun _ => ?_) (fun _ => ?_)) | (with_reducible refine only_foldl ?_ (fun _ _ => ?_)))
    | ((with_reducible refine only_set_evt ?_ (by decide)); first | (with_reducible exact Only.refl _ _) | (with_reducible refine State.ev21_only ?_ ?_) | (with_reducible refine State.setNvm_only ?_ ?_ ?_) | (with_reducible refine only_ite (fun _ => ?_) (fun _ => ?_)) | (with_reducible refine only_foldl ?_ (fun _ _ => ?_)))
    | split)

theorem State.nvmWordBad_only {a1 : _} {a2 : _} (h : Only m s t) (hm : 10485761 &&& m = 10485761) :
    Only m s (t.nvmWordBad a1 a2) := by
  refine h.trans (Only.mono (m := 10485761) ?_ hm)
  unfold State.nvmWordBad
  repeat' (first
    | (with_reducible exact Only.refl _ _)
    | (with_reducible refine State.raise_only ?_ ?_)
    | (with_reducible refine State.setNvm_only ?_ ?_ ?_)
    | (with_reducible refine State.pairBad_only ?_ ?_)
    | (with_reducible refine only_ite (fun _ => ?_) (fun _ => ?_))
    | (with_reducible refine only_foldl ?_ (fun _ _ => ?_))
    | decide
    | exact ⟨fun w => cellsSet_wf w _ _⟩ | exact ⟨fun w => w, fun _ p => List.mem_append_left _ p, fun _ => Nat.le_refl _⟩ | exact .of rfl rfl rfl | exact .of rfl rfl | exact .of rfl | exact Nat.le_refl _
    | (dsimp only)
    | split)

theorem State.wSpread_only {a1 : _} (h : Only m s t) (hm : 2149580800 &&& m = 2149580800) :
    Only m s (t.wSpread a1) := by
  refine h.trans (Only.mono (m := 2149580800) ?_ hm)
  unfold State.wSpread
  repeat' (first
    | (with_reducible exact Only.refl _ _)
    | (with_reducible refine State.answer_only ?_ ?_)
    | (with_reducible refine State.scStep_only ?_ ?_)
    | (with_reducible refine only_ite (fun _ => ?_) (fun _ => ?_))
    | (with_reducible refine only_foldl ?_ (fun _ _ => ?_))
    | decide
    | (dsimp only)
    | split)

theorem State.wMarch_only {a1 : _} (h : Only m s t) (hm : 2533096633 &&& m = 2533096633) :
    Only m s (t.wMarch a1) := by
  refine h.trans (Only.mono (m := 2533096633) ?_ hm)
  unfold State.wMarch
  repeat' (first
    | (with_reducible exact Only.refl _ _)
    | (with_reducible refine State.answer_only ?_ ?_)
    | (with_reducible refine State.answerRetry_only ?_ ?_)
    | (with_reducible refine State.restartDevice_only ?_ ?_)
    | (with_reducible refine State.setMem_only ?_ ?_ ?_)
    | (with_reducible refine only_ite (fun _ => ?_) (fun _ => ?_))
    | (with_reducible refine only_foldl ?_ (fun _ _ => ?_))
    | decide
    | exact ⟨fun w => cellsSet_wf w _ _⟩ | exact ⟨fun w => w, fun _ p => List.mem_append_left _ p, fun _ => Nat.le_refl _⟩ | exact .of rfl rfl rfl | exact .of rfl rfl | exact .of rfl | exact Nat.le_refl _
    | (dsimp only)
    | ((with_reducible refine only_set_dict ?_ (by decide)); first | (with_reducible exact Only.refl _ _) | (with_reducible refine State.answer_only ?_ ?_) | (with_reducible refine State.answerRetry_only ?_ ?_) | (with_reducible refine State.restartDevice_only ?_ ?_) | (with_reducible refine State.setMem_only ?_ ?_ ?_) | (with_reducible refine only_ite (fun _ => ?_) (fun _ => ?_)) | (with_reducible refine only_foldl ?_ (fun _ _ => ?_)))
    | ((with_reducible refine only_set_spares ?_ (by decide)); first | (with_reducible exact Only.refl _ _) | (with_reducible refine State.answer_only ?_ ?_) | (with_reducible refine State.answerRetry_only ?_ ?_) | (with_reducible refine State.restartDevice_only ?_ ?_) | (with_reducible refine State.setMem_only ?_ ?_ ?_) | (with_reducible refine only_ite (fun _ => ?_) (fun _ => ?_)) | (with_reducible refine only_foldl ?_ (fun _ _ => ?_)))
    | ((with_reducible refine only_set_chans ?_ (by decide)); first | (with_reducible exact Only.refl _ _) | (with_reducible refine State.answer_only ?_ ?_) | (with_reducible refine State.answerRetry_only ?_ ?_) | (with_reducible refine State.restartDevice_only ?_ ?_) | (with_reducible refine State.setMem_only ?_ ?_ ?_) | (with_reducible refine only_ite (fun _ => ?_) (fun _ => ?_)) | (with_reducible refine only_foldl ?_ (fun _ _ => ?_)))
    | ((with_reducible refine only_set_hk ?_ (by decide)); first | (with_reducible exact Only.refl _ _) | (with_reducible refine State.answer_only ?_ ?_) | (with_reducible refine State.answerRetry_only ?_ ?_) | (with_reducible refine State.restartDevice_only ?_ ?_) | (with_reducible refine State.setMem_only ?_ ?_ ?_) | (with_reducible refine only_ite (fun _ => ?_) (fun _ => ?_)) | (with_reducible refine only_foldl ?_ (fun _ _ => ?_)))
    | ((with_reducible refine only_set_ftrip ?_ (by decide)); first | (with_reducible exact Only.refl _ _) | (with_reducible refine State.answer_only ?_ ?_) | (with_reducible refine State.answerRetry_only ?_ ?_) | (with_reducible refine State.restartDevice_only ?_ ?_) | (with_reducible refine State.setMem_only ?_ ?_ ?_) | (with_reducible refine only_ite (fun _ => ?_) (fun _ => ?_)) | (with_reducible refine only_foldl ?_ (fun _ _ => ?_)))
    | ((with_reducible refine only_set_eng ?_ (by decide)); first | (with_reducible exact Only.refl _ _) | (with_reducible refine State.answer_only ?_ ?_) | (with_reducible refine State.answerRetry_only ?_ ?_) | (with_reducible refine State.restartDevice_only ?_ ?_) | (with_reducible refine State.setMem_only ?_ ?_ ?_) | (with_reducible refine only_ite (fun _ => ?_) (fun _ => ?_)) | (with_reducible refine only_foldl ?_ (fun _ _ => ?_)))
    | ((with_reducible refine only_set_accts ?_ (by decide)); first | (with_reducible exact Only.refl _ _) | (with_reducible refine State.answer_only ?_ ?_) | (with_reducible refine State.answerRetry_only ?_ ?_) | (with_reducible refine State.restartDevice_only ?_ ?_) | (with_reducible refine State.setMem_only ?_ ?_ ?_) | (with_reducible refine only_ite (fun _ => ?_) (fun _ => ?_)) | (with_reducible refine only_foldl ?_ (fun _ _ => ?_)))
    | ((with_reducible refine only_set_chres ?_ (by decide)); first | (with_reducible exact Only.refl _ _) | (with_reducible refine State.answer_only ?_ ?_) | (with_reducible refine State.answerRetry_only ?_ ?_) | (with_reducible refine State.restartDevice_only ?_ ?_) | (with_reducible refine State.setMem_only ?_ ?_ ?_) | (with_reducible refine only_ite (fun _ => ?_) (fun _ => ?_)) | (with_reducible refine only_foldl ?_ (fun _ _ => ?_)))
    | ((with_reducible refine only_set_pq ?_ (by decide)); first | (with_reducible exact Only.refl _ _) | (with_reducible refine State.answer_only ?_ ?_) | (with_reducible refine State.answerRetry_only ?_ ?_) | (with_reducible refine State.restartDevice_only ?_ ?_) | (with_reducible refine State.setMem_only ?_ ?_ ?_) | (with_reducible refine only_ite (fun _ => ?_) (fun _ => ?_)) | (with_reducible refine only_foldl ?_ (fun _ _ => ?_)))
    | ((with_reducible refine only_set_capt ?_ (by decide)); first | (with_reducible exact Only.refl _ _) | (with_reducible refine State.answer_only ?_ ?_) | (with_reducible refine State.answerRetry_only ?_ ?_) | (with_reducible refine State.restartDevice_only ?_ ?_) | (with_reducible refine State.setMem_only ?_ ?_ ?_) | (with_reducible refine only_ite (fun _ => ?_) (fun _ => ?_)) | (with_reducible refine only_foldl ?_ (fun _ _ => ?_)))
    | ((with_reducible refine only_set_captMissed ?_ (by decide)); first | (with_reducible exact Only.refl _ _) | (with_reducible refine State.answer_only ?_ ?_) | (with_reducible refine State.answerRetry_only ?_ ?_) | (with_reducible refine State.restartDevice_only ?_ ?_) | (with_reducible refine State.setMem_only ?_ ?_ ?_) | (with_reducible refine only_ite (fun _ => ?_) (fun _ => ?_)) | (with_reducible refine only_foldl ?_ (fun _ _ => ?_)))
    | ((with_reducible refine only_set_acc ?_ (by decide)); first | (with_reducible exact Only.refl _ _) | (with_reducible refine State.answer_only ?_ ?_) | (with_reducible refine State.answerRetry_only ?_ ?_) | (with_reducible refine State.restartDevice_only ?_ ?_) | (with_reducible refine State.setMem_only ?_ ?_ ?_) | (with_reducible refine only_ite (fun _ => ?_) (fun _ => ?_)) | (with_reducible refine only_foldl ?_ (fun _ _ => ?_)))
    | ((with_reducible refine only_set_bal ?_ (by decide)); first | (with_reducible exact Only.refl _ _) | (with_reducible refine State.answer_only ?_ ?_) | (with_reducible refine State.answerRetry_only ?_ ?_) | (with_reducible refine State.restartDevice_only ?_ ?_) | (with_reducible refine State.setMem_only ?_ ?_ ?_) | (with_reducible refine only_ite (fun _ => ?_) (fun _ => ?_)) | (with_reducible refine only_foldl ?_ (fun _ _ => ?_)))
    | ((with_reducible refine only_set_pp ?_ (by decide)); first | (with_reducible exact Only.refl _ _) | (with_reducible refine State.answer_only ?_ ?_) | (with_reducible refine State.answerRetry_only ?_ ?_) | (with_reducible refine State.restartDevice_only ?_ ?_) | (with_reducible refine State.setMem_only ?_ ?_ ?_) | (with_reducible refine only_ite (fun _ => ?_) (fun _ => ?_)) | (with_reducible refine only_foldl ?_ (fun _ _ => ?_)))
    | ((with_reducible refine only_set_cal ?_ (by decide)); first | (with_reducible exact Only.refl _ _) | (with_reducible refine State.answer_only ?_ ?_) | (with_reducible refine State.answerRetry_only ?_ ?_) | (with_reducible refine State.restartDevice_only ?_ ?_) | (with_reducible refine State.setMem_only ?_ ?_ ?_) | (with_reducible refine only_ite (fun _ => ?_) (fun _ => ?_)) | (with_reducible refine only_foldl ?_ (fun _ _ => ?_)))
    | ((with_reducible refine only_set_nvm ?_ ?_ (by decide)); rotate_left; (first | exact ⟨fun w => cellsSet_wf w _ _⟩ | exact ⟨fun w => w, fun _ p => List.mem_append_left _ p, fun _ => Nat.le_refl _⟩ | exact .of rfl rfl rfl | exact .of rfl rfl | exact .of rfl | exact Nat.le_refl _); first | (with_reducible exact Only.refl _ _) | (with_reducible refine State.answer_only ?_ ?_) | (with_reducible refine State.answerRetry_only ?_ ?_) | (with_reducible refine State.restartDevice_only ?_ ?_) | (with_reducible refine State.setMem_only ?_ ?_ ?_) | (with_reducible refine only_ite (fun _ => ?_) (fun _ => ?_)) | (with_reducible refine only_foldl ?_ (fun _ _ => ?_)))
    | ((with_reducible refine only_set_pwr ?_ (by decide)); first | (with_reducible exact Only.refl _ _) | (with_reducible refine State.answer_only ?_ ?_) | (with_reducible refine State.answerRetry_only ?_ ?_) | (with_reducible refine State.restartDevice_only ?_ ?_) | (with_reducible refine State.setMem_only ?_ ?_ ?_) | (with_reducible refine only_ite (fun _ => ?_) (fun _ => ?_)) | (with_reducible refine only_foldl ?_ (fun _ _ => ?_)))
    | ((with_reducible refine only_set_evt ?_ (by decide)); first | (with_reducible exact Only.refl _ _) | (with_reducible refine State.answer_only ?_ ?_) | (with_reducible refine State.answerRetry_only ?_ ?_) | (with_reducible refine State.restartDevice_only ?_ ?_) | (with_reducible refine State.setMem_only ?_ ?_ ?_) | (with_reducible refine only_ite (fun _ => ?_) (fun _ => ?_)) | (with_reducible refine only_foldl ?_ (fun _ _ => ?_)))
    | ((with_reducible refine only_set_mem ?_ ?_ (by decide)); rotate_left; (first | exact ⟨fun w => cellsSet_wf w _ _⟩ | exact ⟨fun w => w, fun _ p => List.mem_append_left _ p, fun _ => Nat.le_refl _⟩ | exact .of rfl rfl rfl | exact .of rfl rfl | exact .of rfl | exact Nat.le_refl _); first | (with_reducible exact Only.refl _ _) | (with_reducible refine State.answer_only ?_ ?_) | (with_reducible refine State.answerRetry_only ?_ ?_) | (with_reducible refine State.restartDevice_only ?_ ?_) | (with_reducible refine State.setMem_only ?_ ?_ ?_) | (with_reducible refine only_ite (fun _ => ?_) (fun _ => ?_)) | (with_reducible refine only_foldl ?_ (fun _ _ => ?_)))
    | ((with_reducible refine only_set_tamper ?_ (by decide)); first | (with_reducible exact Only.refl _ _) | (with_reducible refine State.answer_only ?_ ?_) | (with_reducible refine State.answerRetry_only ?_ ?_) | (with_reducible refine State.restartDevice_only ?_ ?_) | (with_reducible refine State.setMem_only ?_ ?_ ?_) | (with_reducible refine only_ite (fun _ => ?_) (fun _ => ?_)) | (with_reducible refine only_foldl ?_ (fun _ _ => ?_)))
    | ((with_reducible refine only_set_disp ?_ (by decide)); first | (with_reducible exact Only.refl _ _) | (with_reducible refine State.answer_only ?_ ?_) | (with_reducible refine State.answerRetry_only ?_ ?_) | (with_reducible refine State.restartDevice_only ?_ ?_) | (with_reducible refine State.setMem_only ?_ ?_ ?_) | (with_reducible refine only_ite (fun _ => ?_) (fun _ => ?_)) | (with_reducible refine only_foldl ?_ (fun _ _ => ?_)))
    | ((with_reducible refine only_set_ans ?_ (by decide)); first | (with_reducible exact Only.refl _ _) | (with_reducible refine State.answer_only ?_ ?_) | (with_reducible refine State.answerRetry_only ?_ ?_) | (with_reducible refine State.restartDevice_only ?_ ?_) | (with_reducible refine State.setMem_only ?_ ?_ ?_) | (with_reducible refine only_ite (fun _ => ?_) (fun _ => ?_)) | (with_reducible refine only_foldl ?_ (fun _ _ => ?_)))
    | split)

theorem State.setPorts_only {a1 : _} (h : Only m s t) (hm : 16777216 &&& m = 16777216) :
    Only m s (t.setPorts a1) := by
  refine h.trans (Only.mono (m := 16777216) ?_ hm)
  unfold State.setPorts
  repeat' (first
    | (with_reducible exact Only.refl _ _)
    | (with_reducible refine only_ite (fun _ => ?_) (fun _ => ?_))
    | (with_reducible refine only_foldl ?_ (fun _ _ => ?_))
    | decide
    | (dsimp only)
    | ((with_reducible refine only_set_ports ?_ (by decide)); first | (with_reducible exact Only.refl _ _) | (with_reducible refine only_ite (fun _ => ?_) (fun _ => ?_)) | (with_reducible refine only_foldl ?_ (fun _ _ => ?_)))
    | split)

theorem State.answerEmergency_only (h : Only m s t) (hm : 2147483648 &&& m = 2147483648) :
    Only m s (t.answerEmergency) := by
  refine h.trans (Only.mono (m := 2147483648) ?_ hm)
  unfold State.answerEmergency
  repeat' (first
    | (with_reducible exact Only.refl _ _)
    | (with_reducible refine State.answerRetry_only ?_ ?_)
    | (with_reducible refine only_ite (fun _ => ?_) (fun _ => ?_))
    | (with_reducible refine only_foldl ?_ (fun _ _ => ?_))
    | decide
    | (dsimp only)
    | split)

theorem State.inline_only {r : Req} {b : Bool} {f : State → State} (h : Only m s t)
    (hf : ∀ u, Only m u (f u)) (hm : 2147483648 &&& m = 2147483648) : Only m s (t.inline r b f) := by
  unfold State.inline
  exact only_ite (fun _ => h) (fun _ => only_ite (fun _ => h.trans (hf _)) (fun _ => only_ite (fun _ => only_ite
    (fun _ => h.trans (hf _)) (fun _ => State.answerEmergency_only h hm)) (fun _ => h)))

theorem State.crcFail_only {a1 : _} (h : Only m s t) (hm : 25165824 &&& m = 25165824) :
    Only m s (t.crcFail a1) := by
  refine h.trans (Only.mono (m := 25165824) ?_ hm)
  unfold State.crcFail
  repeat' (first
    | (with_reducible exact Only.refl _ _)
    | (with_reducible refine State.setPort_only ?_ ?_)
    | (with_reducible refine State.raise_only ?_ ?_)
    | (with_reducible refine only_ite (fun _ => ?_) (fun _ => ?_))
    | (with_reducible refine only_foldl ?_ (fun _ _ => ?_))
    | decide
    | (dsimp only)
    | split)

theorem State.ringBusy_only {a1 : _} (h : Only m s t) (hm : 2172649472 &&& m = 2172649472) :
    Only m s (t.ringBusy a1) := by
  refine h.trans (Only.mono (m := 2172649472) ?_ hm)
  unfold State.ringBusy
  repeat' (first
    | (with_reducible exact Only.refl _ _)
    | (with_reducible refine State.setPort_only ?_ ?_)
    | (with_reducible refine State.raise_only ?_ ?_)
    | (with_reducible refine State.answerRetry_only ?_ ?_)
    | (with_reducible refine State.setRing_only ?_ ?_)
    | (with_reducible refine only_ite (fun _ => ?_) (fun _ => ?_))
    | (with_reducible refine only_foldl ?_ (fun _ _ => ?_))
    | decide
    | (dsimp only)
    | split)

theorem State.ringCommand_only {k : Nat} {q : Bool} {c : Bytes} {x : State} (h : Only m s t) (hm : 25165824 &&& m = 25165824)
    (e : t.ringCommand k q c = some x) : Only m s x := by
  refine h.trans (Only.mono (m := 25165824) ?_ hm)
  unfold State.ringCommand at e
  dsimp only at e
  split at e
  · cases e
  · injection e with e
    subst e
    exact State.setPort_only (State.setRing_only (State.ringAdd_only (Only.refl _ _) rfl) rfl) rfl

theorem State.newCommand_only {k : Nat} {q : Bool} {c : Bytes} {crc : Nat} (h : Only m s t) (hm : 2172649472 &&& m = 2172649472) :
    Only m s (t.newCommand k q c crc).1 := by
  refine h.trans (Only.mono (m := 2172649472) ?_ hm)
  unfold State.newCommand
  split
  · exact State.ringBusy_only (Only.refl _ _) rfl
  · exact State.setPort_only (State.ringCommand_only (Only.refl _ _) rfl ‹_›) rfl

theorem State.repeatCommand_only {k : Nat} {q : Bool} {c : Bytes} {y : Repeat} (h : Only m s t) (hm : 2172649472 &&& m = 2172649472) :
    Only m s (t.repeatCommand k q c y).1 := by
  refine h.trans (Only.mono (m := 2172649472) ?_ hm)
  have base : ∀ u : State, ∀ f, Only 2172649472 u (u.setPort k f) := fun u f => State.setPort_only (Only.refl _ _) (by decide)
  have ra : ∀ u : State, ∀ e, Only 2172649472 u (u.ringAdd 1 e) := fun u e => State.ringAdd_only (Only.refl _ _) (by decide)
  unfold State.repeatCommand
  dsimp only
  split
  · exact only_ite (fun _ => base _ _) (fun _ => (base _ _).trans (base _ _))
  · split
    · split
      · exact (base _ _).trans (State.ringBusy_only (Only.refl _ _) (by decide))
      · exact (base _ _).trans (State.ringCommand_only (Only.refl _ _) (by decide) ‹_›)
    · split
      · exact base _ _
      · split
        · split
          · exact (base _ _).trans (State.answerRetry_only (Only.refl _ _) (by decide))
          · dsimp only
            exact (base _ _).trans (ra _ _)
        · exact (base _ _).trans (base _ _)

theorem State.takeCommand_only {k : Nat} {q : Bool} {c : Bytes} {crc : Nat} (h : Only m s t) (hm : 2172649472 &&& m = 2172649472) :
    Only m s (t.takeCommand k q c crc).1 := by
  refine h.trans (Only.mono (m := 2172649472) ?_ hm)
  unfold State.takeCommand
  split
  · exact State.repeatCommand_only (Only.refl _ _) rfl
  · exact State.newCommand_only (Only.refl _ _) rfl

theorem State.getResponse_only {a1 : _} {a2 : _} (h : Only m s t) (hm : 2176518937 &&& m = 2176518937) :
    Only m s (t.getResponse a1 a2) := by
  refine h.trans (Only.mono (m := 2176518937) ?_ hm)
  unfold State.getResponse
  repeat' (first
    | (with_reducible exact Only.refl _ _)
    | (with_reducible refine State.setRing_only ?_ ?_)
    | (with_reducible refine State.portShadows_only ?_ ?_)
    | (with_reducible refine only_ite (fun _ => ?_) (fun _ => ?_))
    | (with_reducible refine only_foldl ?_ (fun _ _ => ?_))
    | decide
    | (dsimp only)
    | ((with_reducible refine only_set_dict ?_ (by decide)); first | (with_reducible exact Only.refl _ _) | (with_reducible refine State.setRing_only ?_ ?_) | (with_reducible refine State.portShadows_only ?_ ?_) | (with_reducible refine only_ite (fun _ => ?_) (fun _ => ?_)) | (with_reducible refine only_foldl ?_ (fun _ _ => ?_)))
    | ((with_reducible refine only_set_spares ?_ (by decide)); first | (with_reducible exact Only.refl _ _) | (with_reducible refine State.setRing_only ?_ ?_) | (with_reducible refine State.portShadows_only ?_ ?_) | (with_reducible refine only_ite (fun _ => ?_) (fun _ => ?_)) | (with_reducible refine only_foldl ?_ (fun _ _ => ?_)))
    | ((with_reducible refine only_set_chans ?_ (by decide)); first | (with_reducible exact Only.refl _ _) | (with_reducible refine State.setRing_only ?_ ?_) | (with_reducible refine State.portShadows_only ?_ ?_) | (with_reducible refine only_ite (fun _ => ?_) (fun _ => ?_)) | (with_reducible refine only_foldl ?_ (fun _ _ => ?_)))
    | ((with_reducible refine only_set_tracks ?_ (by decide)); first | (with_reducible exact Only.refl _ _) | (with_reducible refine State.setRing_only ?_ ?_) | (with_reducible refine State.portShadows_only ?_ ?_) | (with_reducible refine only_ite (fun _ => ?_) (fun _ => ?_)) | (with_reducible refine only_foldl ?_ (fun _ _ => ?_)))
    | ((with_reducible refine only_set_groups ?_ (by decide)); first | (with_reducible exact Only.refl _ _) | (with_reducible refine State.setRing_only ?_ ?_) | (with_reducible refine State.portShadows_only ?_ ?_) | (with_reducible refine only_ite (fun _ => ?_) (fun _ => ?_)) | (with_reducible refine only_foldl ?_ (fun _ _ => ?_)))
    | ((with_reducible refine only_set_accts ?_ (by decide)); first | (with_reducible exact Only.refl _ _) | (with_reducible refine State.setRing_only ?_ ?_) | (with_reducible refine State.portShadows_only ?_ ?_) | (with_reducible refine only_ite (fun _ => ?_) (fun _ => ?_)) | (with_reducible refine only_foldl ?_ (fun _ _ => ?_)))
    | ((with_reducible refine only_set_acc ?_ (by decide)); first | (with_reducible exact Only.refl _ _) | (with_reducible refine State.setRing_only ?_ ?_) | (with_reducible refine State.portShadows_only ?_ ?_) | (with_reducible refine only_ite (fun _ => ?_) (fun _ => ?_)) | (with_reducible refine only_foldl ?_ (fun _ _ => ?_)))
    | ((with_reducible refine only_set_bal ?_ (by decide)); first | (with_reducible exact Only.refl _ _) | (with_reducible refine State.setRing_only ?_ ?_) | (with_reducible refine State.portShadows_only ?_ ?_) | (with_reducible refine only_ite (fun _ => ?_) (fun _ => ?_)) | (with_reducible refine only_foldl ?_ (fun _ _ => ?_)))
    | ((with_reducible refine only_set_pp ?_ (by decide)); first | (with_reducible exact Only.refl _ _) | (with_reducible refine State.setRing_only ?_ ?_) | (with_reducible refine State.portShadows_only ?_ ?_) | (with_reducible refine only_ite (fun _ => ?_) (fun _ => ?_)) | (with_reducible refine only_foldl ?_ (fun _ _ => ?_)))
    | ((with_reducible refine only_set_cal ?_ (by decide)); first | (with_reducible exact Only.refl _ _) | (with_reducible refine State.setRing_only ?_ ?_) | (with_reducible refine State.portShadows_only ?_ ?_) | (with_reducible refine only_ite (fun _ => ?_) (fun _ => ?_)) | (with_reducible refine only_foldl ?_ (fun _ _ => ?_)))
    | ((with_reducible refine only_set_nvm ?_ ?_ (by decide)); rotate_left; (first | exact ⟨fun w => cellsSet_wf w _ _⟩ | exact ⟨fun w => w, fun _ p => List.mem_append_left _ p, fun _ => Nat.le_refl _⟩ | exact .of rfl rfl rfl | exact .of rfl rfl | exact .of rfl | exact Nat.le_refl _); first | (with_reducible exact Only.refl _ _) | (with_reducible refine State.setRing_only ?_ ?_) | (with_reducible refine State.portShadows_only ?_ ?_) | (with_reducible refine only_ite (fun _ => ?_) (fun _ => ?_)) | (with_reducible refine only_foldl ?_ (fun _ _ => ?_)))
    | ((with_reducible refine only_set_evt ?_ (by decide)); first | (with_reducible exact Only.refl _ _) | (with_reducible refine State.setRing_only ?_ ?_) | (with_reducible refine State.portShadows_only ?_ ?_) | (with_reducible refine only_ite (fun _ => ?_) (fun _ => ?_)) | (with_reducible refine only_foldl ?_ (fun _ _ => ?_)))
    | ((with_reducible refine only_set_ports ?_ (by decide)); first | (with_reducible exact Only.refl _ _) | (with_reducible refine State.setRing_only ?_ ?_) | (with_reducible refine State.portShadows_only ?_ ?_) | (with_reducible refine only_ite (fun _ => ?_) (fun _ => ?_)) | (with_reducible refine only_foldl ?_ (fun _ _ => ?_)))
    | ((with_reducible refine only_set_ans ?_ (by decide)); first | (with_reducible exact Only.refl _ _) | (with_reducible refine State.setRing_only ?_ ?_) | (with_reducible refine State.portShadows_only ?_ ?_) | (with_reducible refine only_ite (fun _ => ?_) (fun _ => ?_)) | (with_reducible refine only_foldl ?_ (fun _ _ => ?_)))
    | split)

theorem State.ringRead_only {a1 : _} {a2 : _} {a3 : _} (h : Only m s t) (hm : 2155872256 &&& m = 2155872256) :
    Only m s (t.ringRead a1 a2 a3) := by
  refine h.trans (Only.mono (m := 2155872256) ?_ hm)
  unfold State.ringRead
  repeat' (first
    | (with_reducible exact Only.refl _ _)
    | (with_reducible refine State.answer_only ?_ ?_)
    | (with_reducible refine State.answerData_only ?_ ?_)
    | (with_reducible refine State.setRing_only ?_ ?_)
    | (with_reducible refine only_ite (fun _ => ?_) (fun _ => ?_))
    | (with_reducible refine only_foldl ?_ (fun _ _ => ?_))
    | decide
    | (dsimp only)
    | split)

theorem State.ringAck_only {a1 : _} {a2 : _} {a3 : _} (h : Only m s t) (hm : 2155872256 &&& m = 2155872256) :
    Only m s (t.ringAck a1 a2 a3) := by
  refine h.trans (Only.mono (m := 2155872256) ?_ hm)
  unfold State.ringAck
  repeat' (first
    | (with_reducible exact Only.refl _ _)
    | (with_reducible refine State.answer_only ?_ ?_)
    | (with_reducible refine State.setRing_only ?_ ?_)
    | (with_reducible refine only_ite (fun _ => ?_) (fun _ => ?_))
    | (with_reducible refine only_foldl ?_ (fun _ _ => ?_))
    | decide
    | (dsimp only)
    | split)

theorem State.bulkSet_only {a1 : _} {a2 : _} (h : Only m s t) (hm : 2206203904 &&& m = 2206203904) :
    Only m s (t.bulkSet a1 a2) := by
  refine h.trans (Only.mono (m := 2206203904) ?_ hm)
  unfold State.bulkSet
  repeat' (first
    | (with_reducible exact Only.refl _ _)
    | (with_reducible refine State.answer_only ?_ ?_)
    | (with_reducible refine State.setPort_only ?_ ?_)
    | (with_reducible refine State.violate_only ?_ ?_)
    | (with_reducible refine only_ite (fun _ => ?_) (fun _ => ?_))
    | (with_reducible refine only_foldl ?_ (fun _ _ => ?_))
    | decide
    | (dsimp only)
    | split)

theorem State.bulkFill_only {a1 : _} (h : Only m s t) (hm : 16777216 &&& m = 16777216) :
    Only m s (t.bulkFill a1) := by
  refine h.trans (Only.mono (m := 16777216) ?_ hm)
  unfold State.bulkFill
  repeat' (first
    | (with_reducible exact Only.refl _ _)
    | (with_reducible refine State.setPort_only ?_ ?_)
    | (with_reducible refine only_ite (fun _ => ?_) (fun _ => ?_))
    | (with_reducible refine only_foldl ?_ (fun _ _ => ?_))
    | decide
    | (dsimp only)
    | split)

theorem State.throughSr7_only {a1 : _} {a2 : _} (h : Only m s t) (hm : 8388608 &&& m = 8388608) :
    Only m s (t.throughSr7 a1 a2) := by
  refine h.trans (Only.mono (m := 8388608) ?_ hm)
  unfold State.throughSr7
  repeat' (first
    | (with_reducible exact Only.refl _ _)
    | (with_reducible refine State.setRing_only ?_ ?_)
    | (with_reducible refine only_ite (fun _ => ?_) (fun _ => ?_))
    | (with_reducible refine only_foldl ?_ (fun _ _ => ?_))
    | decide
    | (dsimp only)
    | split)

theorem State.bulkRead_only {a1 : _} (h : Only m s t) (hm : 2172649472 &&& m = 2172649472) :
    Only m s (t.bulkRead a1) := by
  refine h.trans (Only.mono (m := 2172649472) ?_ hm)
  unfold State.bulkRead
  repeat' (first
    | (with_reducible exact Only.refl _ _)
    | (with_reducible refine State.answer_only ?_ ?_)
    | (with_reducible refine State.setPort_only ?_ ?_)
    | (with_reducible refine State.answerData_only ?_ ?_)
    | (with_reducible refine State.raise_only ?_ ?_)
    | (with_reducible refine State.answerRetry_only ?_ ?_)
    | (with_reducible refine State.throughSr7_only ?_ ?_)
    | (with_reducible refine only_ite (fun _ => ?_) (fun _ => ?_))
    | (with_reducible refine only_foldl ?_ (fun _ _ => ?_))
    | decide
    | (dsimp only)
    | split)

theorem State.inlineCmd_only {a1 : _} {a2 : _} {a3 : _} (h : Only m s t) (hm : 2210073369 &&& m = 2210073369) :
    Only m s (t.inlineCmd a1 a2 a3) := by
  refine h.trans (Only.mono (m := 2210073369) ?_ hm)
  unfold State.inlineCmd
  repeat' (first
    | (with_reducible exact Only.refl _ _)
    | (with_reducible refine State.bulkRead_only ?_ ?_)
    | (with_reducible refine State.ringAck_only ?_ ?_)
    | (with_reducible refine State.bulkSet_only ?_ ?_)
    | (with_reducible refine State.getResponse_only ?_ ?_)
    | (with_reducible refine State.ringRead_only ?_ ?_)
    | (with_reducible refine only_ite (fun _ => ?_) (fun _ => ?_))
    | (with_reducible refine only_foldl ?_ (fun _ _ => ?_))
    | decide
    | (dsimp only)
    | split)

theorem State.hDone_only {a1 : _} {a2 : _} {a3 : _} {a4 : _} (h : Only m s t) (hm : 16777216 &&& m = 16777216) :
    Only m s (t.hDone a1 a2 a3 a4) := by
  refine h.trans (Only.mono (m := 16777216) ?_ hm)
  unfold State.hDone
  repeat' (first
    | (with_reducible exact Only.refl _ _)
    | (with_reducible refine State.setPort_only ?_ ?_)
    | (with_reducible refine only_ite (fun _ => ?_) (fun _ => ?_))
    | (with_reducible refine only_foldl ?_ (fun _ _ => ?_))
    | decide
    | (dsimp only)
    | split)

theorem State.hport_only {a1 : _} (h : Only m s t) (hm : 2210073369 &&& m = 2210073369) :
    Only m s (t.hport a1) := by
  refine h.trans (Only.mono (m := 2210073369) ?_ hm)
  unfold State.hport
  repeat' (first
    | (with_reducible exact Only.refl _ _)
    | (with_reducible refine State.answer_only ?_ ?_)
    | (with_reducible refine State.answerEmergency_only ?_ ?_)
    | (with_reducible refine State.setPort_only ?_ ?_)
    | (with_reducible refine State.crcFail_only ?_ ?_)
    | (with_reducible refine State.takeCommand_only ?_ ?_)
    | (with_reducible refine State.inlineCmd_only ?_ ?_)
    | (with_reducible refine State.hDone_only ?_ ?_)
    | (with_reducible refine State.getResponse_only ?_ ?_)
    | (with_reducible refine only_ite (fun _ => ?_) (fun _ => ?_))
    | (with_reducible refine only_foldl ?_ (fun _ _ => ?_))
    | decide
    | (dsimp only)
    | split)

theorem State.gfp_only {p : Bool} {kind : Nat} {b : Bytes} {f : State → Bytes → Bool → State} (h : Only m s t)
    (hf : ∀ u c v, Only m u (f u c v)) (hm : 25165824 &&& m = 25165824) : Only m s (t.gfp p kind b f) := by
  have w : ∀ k g, Only m s (t.setPort k g) := fun k g => State.setPort_only h (by
    rw [show 16777216 = 16777216 &&& 25165824 from rfl, Nat.and_assoc, hm])
  unfold State.gfp
  exact only_ite (fun _ => h) (fun _ => only_ite (fun _ => State.crcFail_only (w _ _) hm) (fun _ => only_ite
    (fun _ => w _ _) (fun _ => (w _ _).trans (hf _ _ _))))

theorem State.sendAnswer_only {a1 : _} {a2 : _} {a3 : _} (h : Only m s t) (hm : 16777216 &&& m = 16777216) :
    Only m s (t.sendAnswer a1 a2 a3) := by
  refine h.trans (Only.mono (m := 16777216) ?_ hm)
  unfold State.sendAnswer
  repeat' (first
    | (with_reducible exact Only.refl _ _)
    | (with_reducible refine State.setPort_only ?_ ?_)
    | (with_reducible refine only_ite (fun _ => ?_) (fun _ => ?_))
    | (with_reducible refine only_foldl ?_ (fun _ _ => ?_))
    | decide
    | (dsimp only)
    | split)

theorem State.gfpCommand_only {a1 : _} {a2 : _} {a3 : _} {a4 : _} (h : Only m s t) (hm : 2210073369 &&& m = 2210073369) :
    Only m s (t.gfpCommand a1 a2 a3 a4) := by
  refine h.trans (Only.mono (m := 2210073369) ?_ hm)
  unfold State.gfpCommand
  repeat' (first
    | (with_reducible exact Only.refl _ _)
    | (with_reducible refine State.answer_only ?_ ?_)
    | (with_reducible refine State.takeCommand_only ?_ ?_)
    | (with_reducible refine State.sendAnswer_only ?_ ?_)
    | (with_reducible refine State.inlineCmd_only ?_ ?_)
    | (with_reducible refine only_ite (fun _ => ?_) (fun _ => ?_))
    | (with_reducible refine only_foldl ?_ (fun _ _ => ?_))
    | decide
    | (dsimp only)
    | split)

theorem State.gfpPoll_only {a1 : _} (h : Only m s t) (hm : 29035289 &&& m = 29035289) :
    Only m s (t.gfpPoll a1) := by
  refine h.trans (Only.mono (m := 29035289) ?_ hm)
  unfold State.gfpPoll
  repeat' (first
    | (with_reducible exact Only.refl _ _)
    | (with_reducible refine State.setPort_only ?_ ?_)
    | (with_reducible refine State.setRing_only ?_ ?_)
    | (with_reducible refine State.portShadows_only ?_ ?_)
    | (with_reducible refine only_ite (fun _ => ?_) (fun _ => ?_))
    | (with_reducible refine only_foldl ?_ (fun _ _ => ?_))
    | decide
    | (dsimp only)
    | split)

theorem State.syncBy_only {a b c : Nat} (h : Only m s t) (hm : 76021762 &&& m = 76021762) :
    Only m s (t.syncBy a b c).1 := by
  refine h.trans (Only.mono (m := 76021762) ?_ hm)
  unfold State.syncBy
  dsimp only
  split
  · exact Only.refl _ _
  · split
    · exact Only.refl _ _
    · split
      · exact only_set_clock (Only.refl _ _) (Nat.le_refl _) rfl
      · split
        · exact only_set_clock (Only.refl _ _) (Nat.le_refl _) rfl
        · split
          · exact Only.refl _ _
          · exact State.setTime_only (Only.refl _ _) rfl

theorem State.i2cTake_only {a1 : _} {a2 : _} (h : Only m s t) (hm : 285212672 &&& m = 285212672) :
    Only m s (t.i2cTake a1 a2) := by
  refine h.trans (Only.mono (m := 285212672) ?_ hm)
  unfold State.i2cTake
  repeat' (first
    | (with_reducible exact Only.refl _ _)
    | (with_reducible refine State.setDisp_only ?_ ?_)
    | (with_reducible refine State.setPorts_only ?_ ?_)
    | (with_reducible refine only_ite (fun _ => ?_) (fun _ => ?_))
    | (with_reducible refine only_foldl ?_ (fun _ _ => ?_))
    | decide
    | (dsimp only)
    | split)

theorem State.tapSelect_only {a1 : _} (h : Only m s t) (hm : 16777216 &&& m = 16777216) :
    Only m s (t.tapSelect a1) := by
  refine h.trans (Only.mono (m := 16777216) ?_ hm)
  unfold State.tapSelect
  repeat' (first
    | (with_reducible exact Only.refl _ _)
    | (with_reducible refine State.setPorts_only ?_ ?_)
    | (with_reducible refine only_ite (fun _ => ?_) (fun _ => ?_))
    | (with_reducible refine only_foldl ?_ (fun _ _ => ?_))
    | decide
    | (dsimp only)
    | split)

theorem State.dbgRead_only {a1 : _} (h : Only m s t) (hm : 58720256 &&& m = 58720256) :
    Only m s (t.dbgRead a1) := by
  refine h.trans (Only.mono (m := 58720256) ?_ hm)
  unfold State.dbgRead
  repeat' (first
    | (with_reducible exact Only.refl _ _)
    | (with_reducible refine State.setPorts_only ?_ ?_)
    | (with_reducible refine State.violate_only ?_ ?_)
    | (with_reducible refine only_ite (fun _ => ?_) (fun _ => ?_))
    | (with_reducible refine only_foldl ?_ (fun _ _ => ?_))
    | decide
    | (dsimp only)
    | split)

theorem State.backupDetection_only (h : Only m s t) (hm : 378011648 &&& m = 378011648) :
    Only m s (t.backupDetection) := by
  refine h.trans (Only.mono (m := 378011648) ?_ hm)
  unfold State.backupDetection
  repeat' (first
    | (with_reducible exact Only.refl _ _)
    | (with_reducible refine State.detect_only ?_ ?_)
    | (with_reducible refine State.setTamper_only ?_ ?_)
    | (with_reducible refine only_ite (fun _ => ?_) (fun _ => ?_))
    | (with_reducible refine only_foldl ?_ (fun _ _ => ?_))
    | decide
    | (dsimp only)
    | split)

theorem State.bandEvent_only {a1 : _} {a2 : _} (h : Only m s t) (hm : 8388608 &&& m = 8388608) :
    Only m s (t.bandEvent a1 a2) := by
  refine h.trans (Only.mono (m := 8388608) ?_ hm)
  unfold State.bandEvent
  repeat' (first
    | (with_reducible exact Only.refl _ _)
    | (with_reducible refine State.raise_only ?_ ?_)
    | (with_reducible refine only_ite (fun _ => ?_) (fun _ => ?_))
    | (with_reducible refine only_foldl ?_ (fun _ _ => ?_))
    | decide
    | (dsimp only)
    | split)

theorem State.schedTake_only {a1 : _} (h : Only m s t) (hm : 8912896 &&& m = 8912896) :
    Only m s (t.schedTake a1) := by
  refine h.trans (Only.mono (m := 8912896) ?_ hm)
  unfold State.schedTake
  repeat' (first
    | (with_reducible exact Only.refl _ _)
    | (with_reducible refine State.bandEvent_only ?_ ?_)
    | (with_reducible refine State.setPp_only ?_ ?_)
    | (with_reducible refine only_ite (fun _ => ?_) (fun _ => ?_))
    | (with_reducible refine only_foldl ?_ (fun _ _ => ?_))
    | decide
    | (dsimp only)
    | split)

theorem State.transferRefused_only {a1 : _} {a2 : _} (h : Only m s t) (hm : 2156396544 &&& m = 2156396544) :
    Only m s (t.transferRefused a1 a2) := by
  refine h.trans (Only.mono (m := 2156396544) ?_ hm)
  unfold State.transferRefused
  repeat' (first
    | (with_reducible exact Only.refl _ _)
    | (with_reducible refine State.answer_only ?_ ?_)
    | (with_reducible refine State.raise_only ?_ ?_)
    | (with_reducible refine State.setPrepay_only ?_ ?_)
    | (with_reducible refine only_ite (fun _ => ?_) (fun _ => ?_))
    | (with_reducible refine only_foldl ?_ (fun _ _ => ?_))
    | decide
    | (dsimp only)
    | split)

theorem State.transferRecord_only {a1 : _} {a2 : _} (h : Only m s t) (hm : 11010048 &&& m = 11010048) :
    Only m s (t.transferRecord a1 a2) := by
  refine h.trans (Only.mono (m := 11010048) ?_ hm)
  unfold State.transferRecord
  repeat' (first
    | (with_reducible exact Only.refl _ _)
    | (with_reducible refine State.jWrite_only ?_ ?_)
    | (with_reducible refine State.logPut_only ?_ ?_)
    | (with_reducible refine State.scStep_only ?_ ?_)
    | (with_reducible refine State.setNvm_only ?_ ?_ ?_)
    | (with_reducible refine State.setPrepay_only ?_ ?_)
    | (with_reducible refine only_ite (fun _ => ?_) (fun _ => ?_))
    | (with_reducible refine only_foldl ?_ (fun _ _ => ?_))
    | decide
    | exact ⟨fun w => cellsSet_wf w _ _⟩ | exact ⟨fun w => w, fun _ p => List.mem_append_left _ p, fun _ => Nat.le_refl _⟩ | exact .of rfl rfl rfl | exact .of rfl rfl | exact .of rfl | exact Nat.le_refl _
    | (dsimp only)
    | split)

theorem State.wTransfer_only {a1 : _} {a2 : _} (h : Only m s t) (hm : 2158493696 &&& m = 2158493696) :
    Only m s (t.wTransfer a1 a2) := by
  refine h.trans (Only.mono (m := 2158493696) ?_ hm)
  unfold State.wTransfer
  repeat' (first
    | (with_reducible exact Only.refl _ _)
    | (with_reducible refine State.transferRefused_only ?_ ?_)
    | (with_reducible refine State.answer_only ?_ ?_)
    | (with_reducible refine State.transferRecord_only ?_ ?_)
    | (with_reducible refine State.setCredit_only ?_ ?_)
    | (with_reducible refine State.raise_only ?_ ?_)
    | (with_reducible refine State.levels_only ?_ ?_)
    | (with_reducible refine only_ite (fun _ => ?_) (fun _ => ?_))
    | (with_reducible refine only_foldl ?_ (fun _ _ => ?_))
    | decide
    | (dsimp only)
    | split)

theorem State.wCredit_only {a1 : _} {a2 : _} (h : Only m s t) (hm : 2158493696 &&& m = 2158493696) :
    Only m s (t.wCredit a1 a2) := by
  refine h.trans (Only.mono (m := 2158493696) ?_ hm)
  unfold State.wCredit
  repeat' (first
    | (with_reducible exact Only.refl _ _)
    | (with_reducible refine State.answer_only ?_ ?_)
    | (with_reducible refine State.setCredit_only ?_ ?_)
    | (with_reducible refine State.levels_only ?_ ?_)
    | (with_reducible refine only_ite (fun _ => ?_) (fun _ => ?_))
    | (with_reducible refine only_foldl ?_ (fun _ _ => ?_))
    | decide
    | (dsimp only)
    | split)

theorem State.wEcRequest_only {a1 : _} {a2 : _} (h : Only m s t) (hm : 2158493696 &&& m = 2158493696) :
    Only m s (t.wEcRequest a1 a2) := by
  refine h.trans (Only.mono (m := 2158493696) ?_ hm)
  unfold State.wEcRequest
  repeat' (first
    | (with_reducible exact Only.refl _ _)
    | (with_reducible refine State.answer_only ?_ ?_)
    | (with_reducible refine State.setCredit_only ?_ ?_)
    | (with_reducible refine State.levels_only ?_ ?_)
    | (with_reducible refine only_ite (fun _ => ?_) (fun _ => ?_))
    | (with_reducible refine only_foldl ?_ (fun _ _ => ?_))
    | decide
    | (dsimp only)
    | split)

theorem State.wArm_only {a1 : _} {a2 : _} (h : Only m s t) (hm : 2148007936 &&& m = 2148007936) :
    Only m s (t.wArm a1 a2) := by
  refine h.trans (Only.mono (m := 2148007936) ?_ hm)
  unfold State.wArm
  repeat' (first
    | (with_reducible exact Only.refl _ _)
    | (with_reducible refine State.answer_only ?_ ?_)
    | (with_reducible refine State.queueClose_only ?_ ?_)
    | (with_reducible refine only_ite (fun _ => ?_) (fun _ => ?_))
    | (with_reducible refine only_foldl ?_ (fun _ _ => ?_))
    | decide
    | (dsimp only)
    | split)

theorem State.wHostDisconnect_only {a1 : _} {a2 : _} {a3 : _} {a4 : _} (h : Only m s t) (hm : 2176519961 &&& m = 2176519961) :
    Only m s (t.wHostDisconnect a1 a2 a3 a4) := by
  refine h.trans (Only.mono (m := 2176519961) ?_ hm)
  unfold State.wHostDisconnect
  repeat' (first
    | (with_reducible exact Only.refl _ _)
    | (with_reducible refine State.writeNew_only ?_ (fun _ => ?_) ?_)
    | (with_reducible refine State.sourceCleared_only ?_ ?_)
    | (with_reducible refine State.queueOpen_only ?_ ?_)
    | (with_reducible refine only_ite (fun _ => ?_) (fun _ => ?_))
    | (with_reducible refine only_foldl ?_ (fun _ _ => ?_))
    | decide
    | (dsimp only)
    | split)

theorem State.wKeyDevice_only {a1 : _} (h : Only m s t) (hm : 2148007936 &&& m = 2148007936) :
    Only m s (t.wKeyDevice a1) := by
  refine h.trans (Only.mono (m := 2148007936) ?_ hm)
  unfold State.wKeyDevice
  repeat' (first
    | (with_reducible exact Only.refl _ _)
    | (with_reducible refine State.answer_only ?_ ?_)
    | (with_reducible refine State.setPp_only ?_ ?_)
    | (with_reducible refine only_ite (fun _ => ?_) (fun _ => ?_))
    | (with_reducible refine only_foldl ?_ (fun _ _ => ?_))
    | decide
    | (dsimp only)
    | split)

theorem State.wKeyAccount_only {a1 : _} {a2 : _} (h : Only m s t) (hm : 2148007936 &&& m = 2148007936) :
    Only m s (t.wKeyAccount a1 a2) := by
  refine h.trans (Only.mono (m := 2148007936) ?_ hm)
  unfold State.wKeyAccount
  repeat' (first
    | (with_reducible exact Only.refl _ _)
    | (with_reducible refine State.answer_only ?_ ?_)
    | (with_reducible refine State.setPp_only ?_ ?_)
    | (with_reducible refine only_ite (fun _ => ?_) (fun _ => ?_))
    | (with_reducible refine only_foldl ?_ (fun _ _ => ?_))
    | decide
    | (dsimp only)
    | split)

theorem State.wKeyWrapped_only {a1 : _} (h : Only m s t) (hm : 2148007936 &&& m = 2148007936) :
    Only m s (t.wKeyWrapped a1) := by
  refine h.trans (Only.mono (m := 2148007936) ?_ hm)
  unfold State.wKeyWrapped
  repeat' (first
    | (with_reducible exact Only.refl _ _)
    | (with_reducible refine State.answer_only ?_ ?_)
    | (with_reducible refine State.setPp_only ?_ ?_)
    | (with_reducible refine only_ite (fun _ => ?_) (fun _ => ?_))
    | (with_reducible refine only_foldl ?_ (fun _ _ => ?_))
    | decide
    | (dsimp only)
    | split)

theorem State.contacts_only {a1 : _} {a2 : _} (h : Only m s t) (hm : 524288 &&& m = 524288) :
    Only m s (t.contacts a1 a2) := by
  refine h.trans (Only.mono (m := 524288) ?_ hm)
  unfold State.contacts
  repeat' (first
    | (with_reducible exact Only.refl _ _)
    | (with_reducible refine State.setRelay_only ?_ ?_)
    | (with_reducible refine only_ite (fun _ => ?_) (fun _ => ?_))
    | (with_reducible refine only_foldl ?_ (fun _ _ => ?_))
    | decide
    | (dsimp only)
    | split)

theorem State.ev44_only {a1 : _} {a2 : _} (h : Only m s t) (hm : 8388608 &&& m = 8388608) :
    Only m s (t.ev44 a1 a2) := by
  refine h.trans (Only.mono (m := 8388608) ?_ hm)
  unfold State.ev44
  repeat' (first
    | (with_reducible exact Only.refl _ _)
    | (with_reducible refine State.raise_only ?_ ?_)
    | (with_reducible refine only_ite (fun _ => ?_) (fun _ => ?_))
    | (with_reducible refine only_foldl ?_ (fun _ _ => ?_))
    | decide
    | (dsimp only)
    | split)

theorem State.slotFault_only {a1 : _} (h : Only m s t) (hm : 524288 &&& m = 524288) :
    Only m s (t.slotFault a1) := by
  refine h.trans (Only.mono (m := 524288) ?_ hm)
  unfold State.slotFault
  repeat' (first
    | (with_reducible exact Only.refl _ _)
    | (with_reducible refine State.setRelay_only ?_ ?_)
    | (with_reducible refine only_ite (fun _ => ?_) (fun _ => ?_))
    | (with_reducible refine only_foldl ?_ (fun _ _ => ?_))
    | decide
    | (dsimp only)
    | split)

theorem State.latchAcct_only {a1 : _} {a2 : _} (h : Only m s t) (hm : 8912896 &&& m = 8912896) :
    Only m s (t.latchAcct a1 a2) := by
  refine h.trans (Only.mono (m := 8912896) ?_ hm)
  unfold State.latchAcct
  repeat' (first
    | (with_reducible exact Only.refl _ _)
    | (with_reducible refine State.raise_only ?_ ?_)
    | (with_reducible refine State.setPrepay_only ?_ ?_)
    | (with_reducible refine only_ite (fun _ => ?_) (fun _ => ?_))
    | (with_reducible refine only_foldl ?_ (fun _ _ => ?_))
    | decide
    | (dsimp only)
    | split)

theorem State.slotCompare_only {a1 : _} {a2 : _} (h : Only m s t) (hm : 8912896 &&& m = 8912896) :
    Only m s (t.slotCompare a1 a2) := by
  refine h.trans (Only.mono (m := 8912896) ?_ hm)
  unfold State.slotCompare
  repeat' (first
    | (with_reducible exact Only.refl _ _)
    | (with_reducible refine State.ev44_only ?_ ?_)
    | (with_reducible refine State.setRelay_only ?_ ?_)
    | (with_reducible refine State.slotFault_only ?_ ?_)
    | (with_reducible refine only_ite (fun _ => ?_) (fun _ => ?_))
    | (with_reducible refine only_foldl ?_ (fun _ _ => ?_))
    | decide
    | (dsimp only)
    | split)

theorem State.wRelayFault_only {a1 : _} (h : Only m s t) (hm : 2148007936 &&& m = 2148007936) :
    Only m s (t.wRelayFault a1) := by
  refine h.trans (Only.mono (m := 2148007936) ?_ hm)
  unfold State.wRelayFault
  repeat' (first
    | (with_reducible exact Only.refl _ _)
    | (with_reducible refine State.answer_only ?_ ?_)
    | (with_reducible refine State.setRelay_only ?_ ?_)
    | (with_reducible refine only_ite (fun _ => ?_) (fun _ => ?_))
    | (with_reducible refine only_foldl ?_ (fun _ _ => ?_))
    | decide
    | (dsimp only)
    | split)

theorem State.wRelayEnable_only {a1 : _} {a2 : _} {a3 : _} (h : Only m s t) (hm : 2176519961 &&& m = 2176519961) :
    Only m s (t.wRelayEnable a1 a2 a3) := by
  refine h.trans (Only.mono (m := 2176519961) ?_ hm)
  unfold State.wRelayEnable
  repeat' (first
    | (with_reducible exact Only.refl _ _)
    | (with_reducible refine State.writeNew_only ?_ (fun _ => ?_) ?_)
    | (with_reducible refine State.setRelay_only ?_ ?_)
    | (with_reducible refine only_ite (fun _ => ?_) (fun _ => ?_))
    | (with_reducible refine only_foldl ?_ (fun _ _ => ?_))
    | decide
    | (dsimp only)
    | split)

theorem State.setClk_only {a1 : _} {a2 : _} (h : Only m s t) (hm : 67108864 &&& m = 67108864) :
    Only m s (t.setClk a1 a2) := by
  refine h.trans (Only.mono (m := 67108864) ?_ hm)
  unfold State.setClk
  repeat' (first
    | (with_reducible exact Only.refl _ _)
    | (with_reducible refine State.setTamper_only ?_ ?_)
    | (with_reducible refine only_ite (fun _ => ?_) (fun _ => ?_))
    | (with_reducible refine only_foldl ?_ (fun _ _ => ?_))
    | decide
    | (dsimp only)
    | split)

theorem State.stopMain_only {a1 : _} (h : Only m s t) (hm : 67108864 &&& m = 67108864) :
    Only m s (t.stopMain a1) := by
  refine h.trans (Only.mono (m := 67108864) ?_ hm)
  unfold State.stopMain
  repeat' (first
    | (with_reducible exact Only.refl _ _)
    | (with_reducible refine State.setTamper_only ?_ ?_)
    | (with_reducible refine only_ite (fun _ => ?_) (fun _ => ?_))
    | (with_reducible refine only_foldl ?_ (fun _ _ => ?_))
    | decide
    | (dsimp only)
    | split)

theorem State.rtcToRc_only (h : Only m s t) (hm : 67108864 &&& m = 67108864) :
    Only m s (t.rtcToRc) := by
  refine h.trans (Only.mono (m := 67108864) ?_ hm)
  unfold State.rtcToRc
  repeat' (first
    | (with_reducible exact Only.refl _ _)
    | (with_reducible refine State.setTamper_only ?_ ?_)
    | (with_reducible refine only_ite (fun _ => ?_) (fun _ => ?_))
    | (with_reducible refine only_foldl ?_ (fun _ _ => ?_))
    | decide
    | (dsimp only)
    | split)

theorem State.clkConfirm_only {a1 : _} {a2 : _} {a3 : _} {a4 : _} (h : Only m s t) (hm : 378011648 &&& m = 378011648) :
    Only m s (t.clkConfirm a1 a2 a3 a4) := by
  refine h.trans (Only.mono (m := 378011648) ?_ hm)
  unfold State.clkConfirm
  repeat' (first
    | (with_reducible exact Only.refl _ _)
    | (with_reducible refine State.rtcToRc_only ?_ ?_)
    | (with_reducible refine State.stopMain_only ?_ ?_)
    | (with_reducible refine State.respond_only ?_ ?_)
    | (with_reducible refine only_ite (fun _ => ?_) (fun _ => ?_))
    | (with_reducible refine only_foldl ?_ (fun _ _ => ?_))
    | decide
    | (dsimp only)
    | split)

theorem State.disagree_only {a1 : _} {a2 : _} (h : Only m s t) (hm : 378011648 &&& m = 378011648) :
    Only m s (t.disagree a1 a2) := by
  refine h.trans (Only.mono (m := 378011648) ?_ hm)
  unfold State.disagree
  repeat' (first
    | (with_reducible exact Only.refl _ _)
    | (with_reducible refine State.setClk_only ?_ ?_)
    | (with_reducible refine State.respond_only ?_ ?_)
    | (with_reducible refine only_ite (fun _ => ?_) (fun _ => ?_))
    | (with_reducible refine only_foldl ?_ (fun _ _ => ?_))
    | decide
    | (dsimp only)
    | split)

theorem State.single_only {a1 : _} {a2 : _} {a3 : _} (h : Only m s t) (hm : 378011648 &&& m = 378011648) :
    Only m s (t.single a1 a2 a3) := by
  refine h.trans (Only.mono (m := 378011648) ?_ hm)
  unfold State.single
  repeat' (first
    | (with_reducible exact Only.refl _ _)
    | (with_reducible refine State.setClk_only ?_ ?_)
    | (with_reducible refine State.clkConfirm_only ?_ ?_)
    | (with_reducible refine State.disagree_only ?_ ?_)
    | (with_reducible refine only_ite (fun _ => ?_) (fun _ => ?_))
    | (with_reducible refine only_foldl ?_ (fun _ _ => ?_))
    | decide
    | (dsimp only)
    | split)

theorem State.closeRun_only {a1 : _} {a2 : _} {a3 : _} (h : Only m s t) (hm : 75497472 &&& m = 75497472) :
    Only m s (t.closeRun a1 a2 a3) := by
  refine h.trans (Only.mono (m := 75497472) ?_ hm)
  unfold State.closeRun
  repeat' (first
    | (with_reducible exact Only.refl _ _)
    | (with_reducible refine State.setClk_only ?_ ?_)
    | (with_reducible refine State.raise_only ?_ ?_)
    | (with_reducible refine State.deferEvent_only ?_ ?_)
    | (with_reducible refine only_ite (fun _ => ?_) (fun _ => ?_))
    | (with_reducible refine only_foldl ?_ (fun _ _ => ?_))
    | decide
    | (dsimp only)
    | split)

theorem State.clkSettle_only {a1 : _} {a2 : _} {a3 : _} (h : Only m s t) (hm : 378011648 &&& m = 378011648) :
    Only m s (t.clkSettle a1 a2 a3) := by
  refine h.trans (Only.mono (m := 378011648) ?_ hm)
  unfold State.clkSettle
  repeat' (first
    | (with_reducible exact Only.refl _ _)
    | (with_reducible refine State.setClk_only ?_ ?_)
    | (with_reducible refine State.single_only ?_ ?_)
    | (with_reducible refine State.closeRun_only ?_ ?_)
    | (with_reducible refine only_ite (fun _ => ?_) (fun _ => ?_))
    | (with_reducible refine only_foldl ?_ (fun _ _ => ?_))
    | decide
    | (dsimp only)
    | split)

theorem State.clkLoss_only {a1 : _} {a2 : _} (h : Only m s t) (hm : 378011648 &&& m = 378011648) :
    Only m s (t.clkLoss a1 a2) := by
  refine h.trans (Only.mono (m := 378011648) ?_ hm)
  unfold State.clkLoss
  repeat' (first
    | (with_reducible exact Only.refl _ _)
    | (with_reducible refine State.setClk_only ?_ ?_)
    | (with_reducible refine State.rtcToRc_only ?_ ?_)
    | (with_reducible refine State.stopMain_only ?_ ?_)
    | (with_reducible refine State.respond_only ?_ ?_)
    | (with_reducible refine only_ite (fun _ => ?_) (fun _ => ?_))
    | (with_reducible refine only_foldl ?_ (fun _ _ => ?_))
    | decide
    | (dsimp only)
    | split)

theorem State.aFlag_only {a1 : _} {a2 : _} {a3 : _} {a4 : _} (h : Only m s t) (hm : 378011648 &&& m = 378011648) :
    Only m s (t.aFlag a1 a2 a3 a4) := by
  refine h.trans (Only.mono (m := 378011648) ?_ hm)
  unfold State.aFlag
  repeat' (first
    | (with_reducible exact Only.refl _ _)
    | (with_reducible refine State.clkLoss_only ?_ ?_)
    | (with_reducible refine State.setClk_only ?_ ?_)
    | (with_reducible refine State.clkConfirm_only ?_ ?_)
    | (with_reducible refine only_ite (fun _ => ?_) (fun _ => ?_))
    | (with_reducible refine only_foldl ?_ (fun _ _ => ?_))
    | decide
    | (dsimp only)
    | split)

theorem State.drainEvent_only {a1 : _} {a2 : _} {a3 : _} (h : Only m s t) (hm : 8388608 &&& m = 8388608) :
    Only m s (t.drainEvent a1 a2 a3) := by
  refine h.trans (Only.mono (m := 8388608) ?_ hm)
  unfold State.drainEvent
  repeat' (first
    | (with_reducible exact Only.refl _ _)
    | (with_reducible refine State.raiseAt_only ?_ ?_)
    | (with_reducible refine State.deferEvent_only ?_ ?_)
    | (with_reducible refine only_ite (fun _ => ?_) (fun _ => ?_))
    | (with_reducible refine only_foldl ?_ (fun _ _ => ?_))
    | decide
    | (dsimp only)
    | split)

theorem State.drainEntry_only {a1 : _} (h : Only m s t) (hm : 77594624 &&& m = 77594624) :
    Only m s (t.drainEntry a1) := by
  refine h.trans (Only.mono (m := 77594624) ?_ hm)
  unfold State.drainEntry
  repeat' (first
    | (with_reducible exact Only.refl _ _)
    | (with_reducible refine State.logPut_only ?_ ?_)
    | (with_reducible refine State.scStep_only ?_ ?_)
    | (with_reducible refine State.drainEvent_only ?_ ?_)
    | (with_reducible refine State.setTamper_only ?_ ?_)
    | (with_reducible refine State.nvmWrite_only ?_ ?_)
    | (with_reducible refine only_ite (fun _ => ?_) (fun _ => ?_))
    | (with_reducible refine only_foldl ?_ (fun _ _ => ?_))
    | decide
    | (dsimp only)
    | split)

theorem State.drainOne_only (h : Only m s t) (hm : 77594624 &&& m = 77594624) :
    Only m s (t.drainOne) := by
  refine h.trans (Only.mono (m := 77594624) ?_ hm)
  unfold State.drainOne
  repeat' (first
    | (with_reducible exact Only.refl _ _)
    | (with_reducible refine State.setTamper_only ?_ ?_)
    | (with_reducible refine State.drainEntry_only ?_ ?_)
    | (with_reducible refine only_ite (fun _ => ?_) (fun _ => ?_))
    | (with_reducible refine only_foldl ?_ (fun _ _ => ?_))
    | decide
    | (dsimp only)
    | split)

theorem State.wRelease_only {a1 : _} (h : Only m s t) (hm : 2148007936 &&& m = 2148007936) :
    Only m s (t.wRelease a1) := by
  refine h.trans (Only.mono (m := 2148007936) ?_ hm)
  unfold State.wRelease
  repeat' (first
    | (with_reducible exact Only.refl _ _)
    | (with_reducible refine State.answer_only ?_ ?_)
    | (with_reducible refine State.tamperFree_only ?_ ?_)
    | (with_reducible refine only_ite (fun _ => ?_) (fun _ => ?_))
    | (with_reducible refine only_foldl ?_ (fun _ _ => ?_))
    | decide
    | (dsimp only)
    | split)

theorem State.wMarkClear_only {a1 : _} (h : Only m s t) (hm : 2483027968 &&& m = 2483027968) :
    Only m s (t.wMarkClear a1) := by
  refine h.trans (Only.mono (m := 2483027968) ?_ hm)
  unfold State.wMarkClear
  repeat' (first
    | (with_reducible exact Only.refl _ _)
    | (with_reducible refine State.answer_only ?_ ?_)
    | (with_reducible refine State.setTamper_only ?_ ?_)
    | (with_reducible refine State.selvTarget_only ?_ ?_)
    | (with_reducible refine only_ite (fun _ => ?_) (fun _ => ?_))
    | (with_reducible refine only_foldl ?_ (fun _ _ => ?_))
    | decide
    | (dsimp only)
    | split)

theorem State.lcChange_only {a1 : Nat} (h : Only m s t) (hm : 2659713024 &&& m = 2659713024) :
    Only m s (t.lcChange a1) := by
  refine h.trans (Only.mono (m := 2659713024) ?_ hm)
  have cells : ∀ (u : State) (i : Nat) (d : Option (Nat × Nat × Nat)) (q : Bool),
      LifeStep u.life { u.life with cells := u.life.cells.set i 3, due := d, quiet := q } := by
    intro u i d q
    refine ⟨List.length_set, fun w c hc => ?_, fun w j => ?_, fun _ e => e⟩
    · rcases List.mem_or_eq_of_mem_set hc with hc | hc
      · exact w c hc
      · exact hc ▸ Nat.le_refl 3
    · have low : ∀ j, u.life.cells.getD j 0 ≤ 3 := by
        intro j
        rw [List.getD_eq_getElem?_getD]
        cases e : u.life.cells[j]? with
        | none => exact Nat.zero_le 3
        | some c => exact w c (List.mem_of_getElem? e)
      dsimp only
      rw [List.getD_eq_getElem?_getD (l := u.life.cells.set i 3), List.getElem?_set]
      split
      · subst j
        split
        · exact low _
        · rename_i hl
          rw [List.getD_eq_getElem?_getD, List.getElem?_eq_none (Nat.le_of_not_lt hl)] <;> exact Nat.le_refl _
      · rw [← List.getD_eq_getElem?_getD] <;> exact Nat.le_refl _
  have ans : ∀ u : State, ∀ a, Only 2659713024 u (u.answer a) := fun u a => State.answer_only (Only.refl _ _) (by decide)
  have resp : ∀ u : State, ∀ a b c d e f, Only 2659713024 u (u.respond a b c d e f) := fun u a b c d e f => State.respond_only (Only.refl _ _) (by decide)
  have wip : ∀ u : State, Only 2659713024 u u.wipe := fun u => State.wipe_only (Only.refl _ _) (by decide)
  have tam : ∀ u : State, ∀ f, Only 2659713024 u (u.setTamper f) := fun u f => State.setTamper_only (Only.refl _ _) (by decide)
  have lif : ∀ (u : State) (i : Nat) (d : Option (Nat × Nat × Nat)) (q : Bool),
      Only 2659713024 u { u with life := { u.life with cells := u.life.cells.set i 3, due := d, quiet := q } } :=
    fun u i d q => only_set_life (Only.refl _ _) (cells u i d q) (by decide)
  unfold State.lcChange
  exact ((((ans _ _).trans (resp _ _ _ _ _ _ _)).trans (wip _)).trans (lif _ _ _ _)).trans (tam _ _)

theorem State.wLifeCycle_only {a1 : _} (h : Only m s t) (hm : 2659713024 &&& m = 2659713024) :
    Only m s (t.wLifeCycle a1) := by
  refine h.trans (Only.mono (m := 2659713024) ?_ hm)
  unfold State.wLifeCycle
  repeat' (first
    | (with_reducible exact Only.refl _ _)
    | (with_reducible refine State.answer_only ?_ ?_)
    | (with_reducible refine State.lcChange_only ?_ ?_)
    | (with_reducible refine State.answerRetry_only ?_ ?_)
    | (with_reducible refine State.respond_only ?_ ?_)
    | (with_reducible refine only_ite (fun _ => ?_) (fun _ => ?_))
    | (with_reducible refine only_foldl ?_ (fun _ _ => ?_))
    | decide
    | (dsimp only)
    | split)

theorem State.lcWrite_only {a1 : _} {a2 : _} (h : Only m s t) (hm : 2660761600 &&& m = 2660761600) :
    Only m s (t.lcWrite a1 a2) := by
  refine h.trans (Only.mono (m := 2660761600) ?_ hm)
  unfold State.lcWrite
  repeat' (first
    | (lift_lets; intro x; (with_reducible refine Only.trans (b := x) ?_ ?_); rotate_left; (clear_value x); rotate_left; (dsimp only [x]))
    | (lift_lets; intro x; clear_value x)
    | (with_reducible exact Only.refl _ _)
    | (with_reducible refine State.wLifeCycle_only ?_ ?_)
    | (with_reducible refine State.checked_only ?_ (fun _ _ _ => ?_) ?_)
    | (with_reducible refine only_ite (fun _ => ?_) (fun _ => ?_))
    | (with_reducible refine only_foldl ?_ (fun _ _ => ?_))
    | decide
    | exact ⟨fun w => cellsSet_wf w _ _⟩ | exact ⟨fun w => w, fun _ p => List.mem_append_left _ p, fun _ => Nat.le_refl _⟩ | exact .of rfl rfl rfl | exact .of rfl rfl | exact .of rfl | exact Nat.le_refl _
    | (dsimp only)
    | ((with_reducible refine only_set_pp ?_ (by decide)); first | (with_reducible exact Only.refl _ _) | (with_reducible refine State.wLifeCycle_only ?_ ?_) | (with_reducible refine State.checked_only ?_ (fun _ _ _ => ?_) ?_) | (with_reducible refine only_ite (fun _ => ?_) (fun _ => ?_)) | (with_reducible refine only_foldl ?_ (fun _ _ => ?_)))
    | ((with_reducible refine only_set_cal ?_ (by decide)); first | (with_reducible exact Only.refl _ _) | (with_reducible refine State.wLifeCycle_only ?_ ?_) | (with_reducible refine State.checked_only ?_ (fun _ _ _ => ?_) ?_) | (with_reducible refine only_ite (fun _ => ?_) (fun _ => ?_)) | (with_reducible refine only_foldl ?_ (fun _ _ => ?_)))
    | ((with_reducible refine only_set_evt ?_ (by decide)); first | (with_reducible exact Only.refl _ _) | (with_reducible refine State.wLifeCycle_only ?_ ?_) | (with_reducible refine State.checked_only ?_ (fun _ _ _ => ?_) ?_) | (with_reducible refine only_ite (fun _ => ?_) (fun _ => ?_)) | (with_reducible refine only_foldl ?_ (fun _ _ => ?_)))
    | ((with_reducible refine only_set_mem ?_ ?_ (by decide)); rotate_left; (first | exact ⟨fun w => cellsSet_wf w _ _⟩ | exact ⟨fun w => w, fun _ p => List.mem_append_left _ p, fun _ => Nat.le_refl _⟩ | exact .of rfl rfl rfl | exact .of rfl rfl | exact .of rfl | exact Nat.le_refl _); first | (with_reducible exact Only.refl _ _) | (with_reducible refine State.wLifeCycle_only ?_ ?_) | (with_reducible refine State.checked_only ?_ (fun _ _ _ => ?_) ?_) | (with_reducible refine only_ite (fun _ => ?_) (fun _ => ?_)) | (with_reducible refine only_foldl ?_ (fun _ _ => ?_)))
    | ((with_reducible refine only_set_tamper ?_ (by decide)); first | (with_reducible exact Only.refl _ _) | (with_reducible refine State.wLifeCycle_only ?_ ?_) | (with_reducible refine State.checked_only ?_ (fun _ _ _ => ?_) ?_) | (with_reducible refine only_ite (fun _ => ?_) (fun _ => ?_)) | (with_reducible refine only_foldl ?_ (fun _ _ => ?_)))
    | ((with_reducible refine only_set_life ?_ ?_ (by decide)); rotate_left; (first | exact ⟨fun w => cellsSet_wf w _ _⟩ | exact ⟨fun w => w, fun _ p => List.mem_append_left _ p, fun _ => Nat.le_refl _⟩ | exact .of rfl rfl rfl | exact .of rfl rfl | exact .of rfl | exact Nat.le_refl _); first | (with_reducible exact Only.refl _ _) | (with_reducible refine State.wLifeCycle_only ?_ ?_) | (with_reducible refine State.checked_only ?_ (fun _ _ _ => ?_) ?_) | (with_reducible refine only_ite (fun _ => ?_) (fun _ => ?_)) | (with_reducible refine only_foldl ?_ (fun _ _ => ?_)))
    | ((with_reducible refine only_set_disp ?_ (by decide)); first | (with_reducible exact Only.refl _ _) | (with_reducible refine State.wLifeCycle_only ?_ ?_) | (with_reducible refine State.checked_only ?_ (fun _ _ _ => ?_) ?_) | (with_reducible refine only_ite (fun _ => ?_) (fun _ => ?_)) | (with_reducible refine only_foldl ?_ (fun _ _ => ?_)))
    | ((with_reducible refine only_set_ans ?_ (by decide)); first | (with_reducible exact Only.refl _ _) | (with_reducible refine State.wLifeCycle_only ?_ ?_) | (with_reducible refine State.checked_only ?_ (fun _ _ _ => ?_) ?_) | (with_reducible refine only_ite (fun _ => ?_) (fun _ => ?_)) | (with_reducible refine only_foldl ?_ (fun _ _ => ?_)))
    | split)

theorem State.wKeyReturn_only {b : Bytes} (h : Only m s t) (hm : 2281701376 &&& m = 2281701376) :
    Only m s (t.wKeyReturn b) := by
  refine h.trans (Only.mono (m := 2281701376) ?_ hm)
  unfold State.wKeyReturn
  split
  · exact State.answer_only (Only.refl _ _) (by decide)
  · rename_i hk
    refine State.answer_only (only_set_life (Only.refl _ _) ⟨rfl, fun w => w, fun _ _ => Nat.le_refl _, fun k e => ?_⟩ (by decide)) (by decide)
    exact absurd (by rw [e]; rfl) hk

theorem State.lcFinish_only (h : Only m s t) (hm : 385612985 &&& m = 385612985) :
    Only m s (t.lcFinish) := by
  refine h.trans (Only.mono (m := 385612985) ?_ hm)
  unfold State.lcFinish
  repeat' (first
    | (with_reducible exact Only.refl _ _)
    | (with_reducible refine State.restartIfDue_only ?_ ?_)
    | (with_reducible refine State.drainOne_only ?_ ?_)
    | (with_reducible refine only_ite (fun _ => ?_) (fun _ => ?_))
    | (with_reducible refine only_foldl ?_ (fun _ _ => ?_))
    | decide
    | (dsimp only)
    | split)

theorem State.headerOnes_only (h : Only m s t) (hm : 2097152 &&& m = 2097152) :
    Only m s (t.headerOnes) := by
  refine h.trans (Only.mono (m := 2097152) ?_ hm)
  unfold State.headerOnes
  repeat' (first
    | (with_reducible exact Only.refl _ _)
    | (with_reducible refine State.nvmWrite_only ?_ ?_)
    | (with_reducible refine only_ite (fun _ => ?_) (fun _ => ?_))
    | (with_reducible refine only_foldl ?_ (fun _ _ => ?_))
    | decide
    | (dsimp only)
    | split)

theorem State.updBegin_only (h : Only m s t) (hm : 2686451712 &&& m = 2686451712) :
    Only m s (t.updBegin) := by
  refine h.trans (Only.mono (m := 2686451712) ?_ hm)
  unfold State.updBegin
  repeat' (first
    | (with_reducible exact Only.refl _ _)
    | (with_reducible refine State.answer_only ?_ ?_)
    | (with_reducible refine State.headerOnes_only ?_ ?_)
    | (with_reducible refine State.answerRetry_only ?_ ?_)
    | (with_reducible refine State.setUpd_only ?_ ?_)
    | (with_reducible refine only_ite (fun _ => ?_) (fun _ => ?_))
    | (with_reducible refine only_foldl ?_ (fun _ _ => ?_))
    | decide
    | (dsimp only)
    | split)

theorem State.updNow_only (h : Only m s t) (hm : 2686451713 &&& m = 2686451713) :
    Only m s (t.updNow) := by
  refine h.trans (Only.mono (m := 2686451713) ?_ hm)
  unfold State.updNow
  repeat' (first
    | (with_reducible exact Only.refl _ _)
    | (with_reducible refine State.answer_only ?_ ?_)
    | (with_reducible refine State.setCfg_only ?_ ?_)
    | (with_reducible refine State.storeRefused_only ?_ ?_)
    | (with_reducible refine State.setUpd_only ?_ ?_)
    | (with_reducible refine only_ite (fun _ => ?_) (fun _ => ?_))
    | (with_reducible refine only_foldl ?_ (fun _ _ => ?_))
    | decide
    | (dsimp only)
    | (with_reducible refine State.storePut_only ?_ ?_ ‹_›)
    | split)

theorem State.wUpd_only {a1 : _} (h : Only m s t) (hm : 3769631289 &&& m = 3769631289) :
    Only m s (t.wUpd a1) := by
  refine h.trans (Only.mono (m := 3769631289) ?_ hm)
  unfold State.wUpd
  repeat' (first
    | (with_reducible exact Only.refl _ _)
    | (with_reducible refine State.answer_only ?_ ?_)
    | (with_reducible refine State.headerOnes_only ?_ ?_)
    | (with_reducible refine State.trialFails_only ?_ ?_)
    | (with_reducible refine State.setUpd_only ?_ ?_)
    | (with_reducible refine State.updNow_only ?_ ?_)
    | (with_reducible refine State.updBegin_only ?_ ?_)
    | (with_reducible refine State.keepAns_only ?_ (fun _ => ?_) ?_)
    | (with_reducible refine only_ite (fun _ => ?_) (fun _ => ?_))
    | (with_reducible refine only_foldl ?_ (fun _ _ => ?_))
    | decide
    | (dsimp only)
    | split)

theorem State.wChunk_only {a1 : _} (h : Only m s t) (hm : 2686451712 &&& m = 2686451712) :
    Only m s (t.wChunk a1) := by
  refine h.trans (Only.mono (m := 2686451712) ?_ hm)
  unfold State.wChunk
  repeat' (first
    | (with_reducible exact Only.refl _ _)
    | (with_reducible refine State.answer_only ?_ ?_)
    | (with_reducible refine State.setUpd_only ?_ ?_)
    | (with_reducible refine State.nvmWrite_only ?_ ?_)
    | (with_reducible refine only_ite (fun _ => ?_) (fun _ => ?_))
    | (with_reducible refine only_foldl ?_ (fun _ _ => ?_))
    | decide
    | (dsimp only)
    | split)

theorem State.wConfirm_only {a1 : _} (h : Only m s t) (hm : 2694840321 &&& m = 2694840321) :
    Only m s (t.wConfirm a1) := by
  refine h.trans (Only.mono (m := 2694840321) ?_ hm)
  unfold State.wConfirm
  repeat' (first
    | (with_reducible exact Only.refl _ _)
    | (with_reducible refine State.answer_only ?_ ?_)
    | (with_reducible refine State.confirmCheck_only ?_ ?_)
    | (with_reducible refine State.setUpd_only ?_ ?_)
    | (with_reducible refine State.keepAns_only ?_ (fun _ => ?_) ?_)
    | (with_reducible refine only_ite (fun _ => ?_) (fun _ => ?_))
    | (with_reducible refine only_foldl ?_ (fun _ _ => ?_))
    | decide
    | (dsimp only)
    | split)

theorem State.wTampInput_only {a1 : _} {a2 : _} {a3 : _} {a4 : _} (h : Only m s t) (hm : 2243628825 &&& m = 2243628825) :
    Only m s (t.wTampInput a1 a2 a3 a4) := by
  refine h.trans (Only.mono (m := 2243628825) ?_ hm)
  unfold State.wTampInput
  repeat' (first
    | (with_reducible exact Only.refl _ _)
    | (with_reducible refine State.writeNew_only ?_ (fun _ => ?_) ?_)
    | (with_reducible refine State.setTamper_only ?_ ?_)
    | (with_reducible refine only_ite (fun _ => ?_) (fun _ => ?_))
    | (with_reducible refine only_foldl ?_ (fun _ _ => ?_))
    | decide
    | (dsimp only)
    | split)

theorem State.wMagCfg_only {a1 : _} {a2 : _} {a3 : _} (h : Only m s t) (hm : 2243628825 &&& m = 2243628825) :
    Only m s (t.wMagCfg a1 a2 a3) := by
  refine h.trans (Only.mono (m := 2243628825) ?_ hm)
  unfold State.wMagCfg
  repeat' (first
    | (with_reducible exact Only.refl _ _)
    | (with_reducible refine State.writeNew_only ?_ (fun _ => ?_) ?_)
    | (with_reducible refine State.setTamper_only ?_ ?_)
    | (with_reducible refine only_ite (fun _ => ?_) (fun _ => ?_))
    | (with_reducible refine only_foldl ?_ (fun _ _ => ?_))
    | decide
    | (dsimp only)
    | split)

theorem State.writeBase_only {a1 : _} {a2 : _} {a3 : _} {a4 : _} (h : Only m s t) (hm : 2243628827 &&& m = 2243628827) :
    Only m s (t.writeBase a1 a2 a3 a4) := by
  refine h.trans (Only.mono (m := 2243628827) ?_ hm)
  unfold State.writeBase
  repeat' (first
    | (with_reducible exact Only.refl _ _)
    | (with_reducible refine State.answer_only ?_ ?_)
    | (with_reducible refine State.wRelayEnable_only ?_ ?_)
    | (with_reducible refine State.wPending_only ?_ ?_)
    | (with_reducible refine State.writePlain_only ?_ ?_)
    | (with_reducible refine State.writeHold_only ?_ ?_)
    | (with_reducible refine State.setTime_only ?_ ?_)
    | (with_reducible refine State.wRelayFault_only ?_ ?_)
    | (with_reducible refine State.wConsumers_only ?_ ?_)
    | (with_reducible refine only_ite (fun _ => ?_) (fun _ => ?_))
    | (with_reducible refine only_foldl ?_ (fun _ _ => ?_))
    | decide
    | (dsimp only)
    | split)

theorem State.writeFront_only {a1 : _} {a2 : _} {a3 : _} {a4 : _} (h : Only m s t) (hm : 2176520185 &&& m = 2176520185) :
    Only m s (t.writeFront a1 a2 a3 a4) := by
  refine h.trans (Only.mono (m := 2176520185) ?_ hm)
  unfold State.writeFront
  repeat' (first
    | (with_reducible exact Only.refl _ _)
    | (with_reducible refine State.wThEnable_only ?_ ?_)
    | (with_reducible refine State.writePlain_only ?_ ?_)
    | (with_reducible refine State.wHkFlags_only ?_ ?_)
    | (with_reducible refine State.wHkRun_only ?_ ?_)
    | (with_reducible refine State.wSubstitute_only ?_ ?_)
    | (with_reducible refine only_ite (fun _ => ?_) (fun _ => ?_))
    | (with_reducible refine only_foldl ?_ (fun _ _ => ?_))
    | decide
    | (dsimp only)
    | split)

theorem State.writePrepay_only {a1 : _} {a2 : _} {a3 : _} {a4 : _} {a5 : _} (h : Only m s t) (hm : 2176519961 &&& m = 2176519961) :
    Only m s (t.writePrepay a1 a2 a3 a4 a5) := by
  refine h.trans (Only.mono (m := 2176519961) ?_ hm)
  unfold State.writePrepay
  repeat' (first
    | (with_reducible exact Only.refl _ _)
    | (with_reducible refine State.wTransfer_only ?_ ?_)
    | (with_reducible refine State.wHostDisconnect_only ?_ ?_)
    | (with_reducible refine State.wArm_only ?_ ?_)
    | (with_reducible refine State.writePlain_only ?_ ?_)
    | (with_reducible refine State.wCredit_only ?_ ?_)
    | (with_reducible refine State.wEcRequest_only ?_ ?_)
    | (with_reducible refine only_ite (fun _ => ?_) (fun _ => ?_))
    | (with_reducible refine only_foldl ?_ (fun _ _ => ?_))
    | decide
    | (dsimp only)
    | split)

theorem State.writeEngines_only {a1 : _} {a2 : _} {a3 : _} {a4 : _} (h : Only m s t) (hm : 2176569113 &&& m = 2176569113) :
    Only m s (t.writeEngines a1 a2 a3 a4) := by
  refine h.trans (Only.mono (m := 2176569113) ?_ hm)
  unfold State.writeEngines
  repeat' (first
    | (with_reducible exact Only.refl _ _)
    | (with_reducible refine State.wCaptFree_only ?_ ?_)
    | (with_reducible refine State.writePlain_only ?_ ?_)
    | (with_reducible refine State.wCapture_only ?_ ?_)
    | (with_reducible refine State.wEngines_only ?_ ?_)
    | (with_reducible refine State.wClusters_only ?_ ?_)
    | (with_reducible refine only_ite (fun _ => ?_) (fun _ => ?_))
    | (with_reducible refine only_foldl ?_ (fun _ _ => ?_))
    | decide
    | (dsimp only)
    | split)

theorem State.writeSecure_only {a1 : _} {a2 : _} {a3 : _} {a4 : _} {a5 : _} (h : Only m s t) (hm : 2646282041 &&& m = 2646282041) :
    Only m s (t.writeSecure a1 a2 a3 a4 a5) := by
  refine h.trans (Only.mono (m := 2646282041) ?_ hm)
  unfold State.writeSecure
  repeat' (first
    | (with_reducible exact Only.refl _ _)
    | (with_reducible refine State.wMagCfg_only ?_ ?_)
    | (with_reducible refine State.answer_only ?_ ?_)
    | (with_reducible refine State.wRelease_only ?_ ?_)
    | (with_reducible refine State.wCsCommand_only ?_ ?_)
    | (with_reducible refine State.wKeyAccount_only ?_ ?_)
    | (with_reducible refine State.wKeyWrapped_only ?_ ?_)
    | (with_reducible refine State.writePlain_only ?_ ?_)
    | (with_reducible refine State.wMarkClear_only ?_ ?_)
    | (with_reducible refine State.wTampInput_only ?_ ?_)
    | (with_reducible refine State.wKeyDevice_only ?_ ?_)
    | (with_reducible refine State.setTamper_only ?_ ?_)
    | (with_reducible refine State.wKeyReturn_only ?_ ?_)
    | (with_reducible refine only_ite (fun _ => ?_) (fun _ => ?_))
    | (with_reducible refine only_foldl ?_ (fun _ _ => ?_))
    | decide
    | (dsimp only)
    | split)

theorem State.writeOutputs_only {a1 : _} {a2 : _} {a3 : _} {a4 : _} (h : Only m s t) (hm : 2444955545 &&& m = 2444955545) :
    Only m s (t.writeOutputs a1 a2 a3 a4) := by
  refine h.trans (Only.mono (m := 2444955545) ?_ hm)
  unfold State.writeOutputs
  repeat' (first
    | (with_reducible exact Only.refl _ _)
    | (with_reducible refine State.wFtripState_only ?_ ?_)
    | (with_reducible refine State.wOutage_only ?_ ?_)
    | (with_reducible refine State.wMdReset_only ?_ ?_)
    | (with_reducible refine State.wSnap_only ?_ ?_)
    | (with_reducible refine State.wDisp_only ?_ ?_)
    | (with_reducible refine State.writePlain_only ?_ ?_)
    | (with_reducible refine State.wPulse_only ?_ ?_)
    | (with_reducible refine State.wFtrip_only ?_ ?_)
    | (with_reducible refine State.wAccClear_only ?_ ?_)
    | (with_reducible refine State.wImage_only ?_ ?_)
    | (with_reducible refine State.wSelvedge_only ?_ ?_)
    | (with_reducible refine only_ite (fun _ => ?_) (fun _ => ?_))
    | (with_reducible refine only_foldl ?_ (fun _ _ => ?_))
    | decide
    | (dsimp only)
    | split)

theorem State.writeDevice_only {a1 : _} {a2 : _} {a3 : _} {a4 : _} {a5 : _} (h : Only m s t) (hm : 4160487353 &&& m = 4160487353) :
    Only m s (t.writeDevice a1 a2 a3 a4 a5) := by
  refine h.trans (Only.mono (m := 4160487353) ?_ hm)
  unfold State.writeDevice
  repeat' (first
    | (with_reducible exact Only.refl _ _)
    | (with_reducible refine State.wMarch_only ?_ ?_)
    | (with_reducible refine State.answer_only ?_ ?_)
    | (with_reducible refine State.wChunk_only ?_ ?_)
    | (with_reducible refine State.wPower_only ?_ ?_)
    | (with_reducible refine State.wConfirm_only ?_ ?_)
    | (with_reducible refine State.writePlain_only ?_ ?_)
    | (with_reducible refine State.setIsl_only ?_ ?_)
    | (with_reducible refine State.wSpread_only ?_ ?_)
    | (with_reducible refine State.wSave_only ?_ ?_)
    | (with_reducible refine State.wUpd_only ?_ ?_)
    | (with_reducible refine only_ite (fun _ => ?_) (fun _ => ?_))
    | (with_reducible refine only_foldl ?_ (fun _ _ => ?_))
    | decide
    | (dsimp only)
    | split)

theorem State.writeBy_only {a1 : _} {a2 : _} {a3 : _} {a4 : _} {a5 : _} (h : Only m s t) (hm : 4294705147 &&& m = 4294705147) :
    Only m s (t.writeBy a1 a2 a3 a4 a5) := by
  refine h.trans (Only.mono (m := 4294705147) ?_ hm)
  unfold State.writeBy
  repeat' (first
    | (with_reducible exact Only.refl _ _)
    | (with_reducible refine State.writeDevice_only ?_ ?_)
    | (with_reducible refine State.writePrepay_only ?_ ?_)
    | (with_reducible refine State.writeSecure_only ?_ ?_)
    | (with_reducible refine State.writeBase_only ?_ ?_)
    | (with_reducible refine State.writeFront_only ?_ ?_)
    | (with_reducible refine State.writeEngines_only ?_ ?_)
    | (with_reducible refine State.writeOutputs_only ?_ ?_)
    | (with_reducible refine only_ite (fun _ => ?_) (fun _ => ?_))
    | (with_reducible refine only_foldl ?_ (fun _ _ => ?_))
    | decide
    | (dsimp only)
    | split)

theorem State.alignAccept_only {a1 : _} {a2 : _} {a3 : _} {a4 : _} (h : Only m s t) (hm : 8388632 &&& m = 8388632) :
    Only m s (t.alignAccept a1 a2 a3 a4) := by
  refine h.trans (Only.mono (m := 8388632) ?_ hm)
  unfold State.alignAccept
  repeat' (first
    | (with_reducible exact Only.refl _ _)
    | (with_reducible refine State.setSpare_only ?_ ?_)
    | (with_reducible refine State.setChan_only ?_ ?_)
    | (with_reducible refine State.ev24_only ?_ ?_)
    | (with_reducible refine only_ite (fun _ => ?_) (fun _ => ?_))
    | (with_reducible refine only_foldl ?_ (fun _ _ => ?_))
    | decide
    | (dsimp only)
    | split)

theorem State.alignReject_only {a1 : _} {a2 : _} (h : Only m s t) (hm : 9437240 &&& m = 9437240) :
    Only m s (t.alignReject a1 a2) := by
  refine h.trans (Only.mono (m := 9437240) ?_ hm)
  unfold State.alignReject
  repeat' (first
    | (with_reducible exact Only.refl _ _)
    | (with_reducible refine State.setChan_only ?_ ?_)
    | (with_reducible refine State.setStep_only ?_ ?_)
    | (with_reducible refine State.setCal_only ?_ ?_)
    | (with_reducible refine State.spareFree_only ?_ ?_)
    | (with_reducible refine State.stepCheck_only ?_ ?_)
    | (with_reducible refine State.passCheck_only ?_ ?_)
    | (with_reducible refine only_ite (fun _ => ?_) (fun _ => ?_))
    | (with_reducible refine only_foldl ?_ (fun _ _ => ?_))
    | decide
    | (dsimp only)
    | split)

theorem idle_only (h : Only m s t) (hm : 2 &&& m = 2) :
    Only m s (idle t) := by
  refine h.trans (Only.mono (m := 2) ?_ hm)
  unfold idle
  repeat' (first
    | (with_reducible exact Only.refl _ _)
    | (with_reducible refine State.toClk_only ?_ ?_)
    | (with_reducible refine only_ite (fun _ => ?_) (fun _ => ?_))
    | (with_reducible refine only_foldl ?_ (fun _ _ => ?_))
    | decide
    | (dsimp only)
    | split)

end Sys2Proof.Machine
end

