-- ==== Sys2Proof/Laws/Commands.lean ====
section
/-! SUPPORT. What each command may change (Only of Laws/Frame.lean), one lemma for each meaning: it answers a next state, and
that state differs from the one before at most in the components of the mask. -/
namespace Sys2Proof.Machine

variable {m : Nat} {s x t : State}

/-- A meaning answers a next state that differs from s at most in the components of the mask. -/
def Gives (m : Nat) (s : State) (o : Host.Outcome State Fault Refusal) : Prop := ∃ t, o = .next t ∧ Only m s t

theorem Gives.next (h : Only m s t) : Gives m s (.next t) := ⟨t, rfl, h⟩

theorem Gives.ite {c : Prop} [Decidable c] {o p : Host.Outcome State Fault Refusal} (h : Gives m s o) (k : Gives m s p) :
    Gives m s (if c then o else p) := by
  split
  · exact h
  · exact k

/-- At most: dict, spares, chans, hk, ftrip, eng, accts, chres, pq, capt, captMissed, acc, bal, pp, cal, nvm, pwr, evt,
mem, tamper, disp. -/
theorem execPfdTrip_only : Gives 385612985 s (execPfdTrip s) := by
  refine ⟨_, rfl, ?_⟩
  repeat' (first
    | (with_reducible exact Only.refl _ _)
    | (with_reducible refine State.emergency_only ?_ ?_)
    | (with_reducible refine only_ite (fun _ => ?_) (fun _ => ?_))
    | (with_reducible refine only_foldl ?_ (fun _ _ => ?_))
    | decide
    | (dsimp only)
    | split)

/-- At most: dict, spares, chans, hk, ftrip, eng, accts, chres, pq, capt, captMissed, acc, bal, pp, cal, nvm, pwr, evt,
mem, tamper, disp. -/
theorem execRegulatorBrownOut_only {a1 : _} : Gives 385612985 s (execRegulatorBrownOut a1 s) := by
  refine ⟨_, rfl, ?_⟩
  repeat' (first
    | (with_reducible exact Only.refl _ _)
    | (with_reducible refine State.emergency_only ?_ ?_)
    | (with_reducible refine only_ite (fun _ => ?_) (fun _ => ?_))
    | (with_reducible refine only_foldl ?_ (fun _ _ => ?_))
    | decide
    | (dsimp only)
    | split)

/-- At most: spares, hk, nvm, pwr, evt. -/
theorem execEwarnAssert_only : Gives 14680104 s (execEwarnAssert s) := by
  unfold execEwarnAssert
  repeat' (first
    | (with_reducible refine Gives.ite ?_ ?_)
    | (with_reducible refine Gives.next ?_)
    | (with_reducible exact Only.refl _ _)
    | (with_reducible refine State.raise_only ?_ ?_)
    | (with_reducible refine State.save_only ?_ ?_)
    | (with_reducible refine State.setPwr_only ?_ ?_)
    | (with_reducible refine State.urgent_only ?_ ?_)
    | (with_reducible refine only_ite (fun _ => ?_) (fun _ => ?_))
    | (with_reducible refine only_foldl ?_ (fun _ _ => ?_))
    | decide
    | (dsimp only)
    | split)

/-- At most: dict, spares, chans, hk, ftrip, eng, accts, chres, pq, capt, captMissed, acc, bal, pp, cal, nvm, pwr, evt,
mem, tamper, disp. -/
theorem execEwarnQualified_only : Gives 385612985 s (execEwarnQualified s) := by
  refine ⟨_, rfl, ?_⟩
  repeat' (first
    | (with_reducible exact Only.refl _ _)
    | (with_reducible refine State.emergency_only ?_ ?_)
    | (with_reducible refine only_ite (fun _ => ?_) (fun _ => ?_))
    | (with_reducible refine only_foldl ?_ (fun _ _ => ?_))
    | decide
    | (dsimp only)
    | split)

/-- At most: dict, clock, mods, spares, chans, hk, th, ftrip, tracks, groups, eng, accts, chres, pq, capt, captMissed,
acc, bal, contrib, pp, cal, nvm, pwr, evt, ports, mem, tamper, life, disp, upd, isl. -/
theorem execEwarnRelease_only : Gives 2147483647 s (execEwarnRelease s) := by
  refine ⟨_, rfl, ?_⟩
  repeat' (first
    | (with_reducible exact Only.refl _ _)
    | (with_reducible refine State.tryCastOn_only ?_ ?_)
    | (with_reducible refine State.setPwr_only ?_ ?_)
    | (with_reducible refine only_ite (fun _ => ?_) (fun _ => ?_))
    | (with_reducible refine only_foldl ?_ (fun _ _ => ?_))
    | decide
    | (dsimp only)
    | split)

/-- At most: dict, clock, mods, spares, chans, hk, th, ftrip, tracks, groups, eng, accts, chres, pq, capt, captMissed,
acc, bal, contrib, pp, cal, nvm, pwr, evt, ports, mem, tamper, life, disp, upd, isl. -/
theorem execLastGaspDone_only {a1 : _} : Gives 2147483647 s (execLastGaspDone a1 s) := by
  unfold execLastGaspDone
  repeat' (first
    | (with_reducible refine Gives.ite ?_ ?_)
    | (with_reducible refine Gives.next ?_)
    | (with_reducible exact Only.refl _ _)
    | (with_reducible refine State.tryCastOn_only ?_ ?_)
    | (with_reducible refine State.toVbat_only ?_ ?_)
    | (with_reducible refine State.gateIslands_only ?_ ?_)
    | (with_reducible refine State.sessionValid_only ?_ ?_)
    | (with_reducible refine State.raise_only ?_ ?_)
    | (with_reducible refine State.setPwr_only ?_ ?_)
    | (with_reducible refine only_ite (fun _ => ?_) (fun _ => ?_))
    | (with_reducible refine only_foldl ?_ (fun _ _ => ?_))
    | decide
    | (dsimp only)
    | split)

/-- At most: nvm, pwr, disp. -/
theorem execHoldUpFloor_only {a1 : _} {a2 : _} : Gives 274726912 s (execHoldUpFloor a1 a2 s) := by
  unfold execHoldUpFloor
  repeat' (first
    | (with_reducible refine Gives.ite ?_ ?_)
    | (with_reducible refine Gives.next ?_)
    | (with_reducible exact Only.refl _ _)
    | (with_reducible refine State.toVbat_only ?_ ?_)
    | (with_reducible refine State.gateIslands_only ?_ ?_)
    | (with_reducible refine State.sessionValid_only ?_ ?_)
    | (with_reducible refine State.setPwr_only ?_ ?_)
    | (with_reducible refine only_ite (fun _ => ?_) (fun _ => ?_))
    | (with_reducible refine only_foldl ?_ (fun _ _ => ?_))
    | decide
    | (dsimp only)
    | split)

/-- At most: dict, clock, mods, spares, chans, hk, th, ftrip, tracks, groups, eng, accts, chres, pq, capt, captMissed,
acc, bal, contrib, pp, cal, nvm, pwr, evt, ports, mem, tamper, life, disp, upd, isl. -/
theorem execRestartHoldoffExpiry_only : Gives 2147483647 s (execRestartHoldoffExpiry s) := by
  refine ⟨_, rfl, ?_⟩
  repeat' (first
    | (with_reducible exact Only.refl _ _)
    | (with_reducible refine State.tryCastOn_only ?_ ?_)
    | (with_reducible refine State.setPwr_only ?_ ?_)
    | (with_reducible refine only_ite (fun _ => ?_) (fun _ => ?_))
    | (with_reducible refine only_foldl ?_ (fun _ _ => ?_))
    | decide
    | (dsimp only)
    | split)

/-- At most: dict, clock, mods, spares, chans, hk, th, ftrip, tracks, groups, eng, accts, chres, pq, capt, captMissed,
acc, bal, contrib, pp, cal, nvm, pwr, evt, ports, mem, tamper, life, disp, upd, isl. -/
theorem execSupplyGood_only : Gives 2147483647 s (execSupplyGood s) := by
  refine ⟨_, rfl, ?_⟩
  repeat' (first
    | (with_reducible exact Only.refl _ _)
    | (with_reducible refine State.tryCastOn_only ?_ ?_)
    | (with_reducible refine State.setPwr_only ?_ ?_)
    | (with_reducible refine only_ite (fun _ => ?_) (fun _ => ?_))
    | (with_reducible refine only_foldl ?_ (fun _ _ => ?_))
    | decide
    | (dsimp only)
    | split)

/-- At most: pwr. -/
theorem execStartTimeout_only : Gives 4194304 s (execStartTimeout s) := by
  refine ⟨_, rfl, ?_⟩
  repeat' (first
    | (with_reducible exact Only.refl _ _)
    | (with_reducible refine State.setPwr_only ?_ ?_)
    | (with_reducible refine only_ite (fun _ => ?_) (fun _ => ?_))
    | (with_reducible refine only_foldl ?_ (fun _ _ => ?_))
    | decide
    | (dsimp only)
    | split)

/-- At most: spares, hk. -/
theorem execPowerVerifyRetry_only : Gives 40 s (execPowerVerifyRetry s) := by
  refine ⟨_, rfl, ?_⟩
  repeat' (first
    | (with_reducible exact Only.refl _ _)
    | (with_reducible refine State.urgent_only ?_ ?_)
    | (with_reducible refine only_ite (fun _ => ?_) (fun _ => ?_))
    | (with_reducible refine only_foldl ?_ (fun _ _ => ?_))
    | decide
    | (dsimp only)
    | split)

/-- At most: dict, clock, spares, chans, hk, ftrip, eng, accts, chres, pq, capt, captMissed, acc, bal, pp, cal, nvm, pwr,
evt, mem, tamper, disp, isl. -/
theorem execMarchStartupDone_only {a1 : _} : Gives 1459354811 s (execMarchStartupDone a1 s) := by
  unfold execMarchStartupDone
  repeat' (first
    | (with_reducible refine Gives.ite ?_ ?_)
    | (with_reducible refine Gives.next ?_)
    | (with_reducible exact Only.refl _ _)
    | (with_reducible refine State.backupDetection_only ?_ ?_)
    | (with_reducible refine State.restoreAll_only ?_ ?_)
    | (with_reducible refine State.setBank_only ?_ ?_)
    | (with_reducible refine State.restartIfDue_only ?_ ?_)
    | (with_reducible refine State.setMem_only ?_ ?_ ?_)
    | (with_reducible refine State.rowFailed_only ?_ ?_)
    | (with_reducible refine only_ite (fun _ => ?_) (fun _ => ?_))
    | (with_reducible refine only_foldl ?_ (fun _ _ => ?_))
    | decide
    | exact ⟨fun w => cellsSet_wf w _ _⟩ | exact ⟨fun w => w, fun _ p => List.mem_append_left _ p, fun _ => Nat.le_refl _⟩ | exact .of rfl rfl rfl | exact .of rfl rfl | exact .of rfl | exact Nat.le_refl _
    | (dsimp only)
    | split)

/-- At most: dict, groups, accts, nvm, evt, upd, isl. -/
theorem execImageCheckDone_only {a1 : _} {a2 : _} : Gives 1621101057 s (execImageCheckDone a1 a2 s) := by
  refine ⟨_, rfl, ?_⟩
  repeat' (first
    | (with_reducible exact Only.refl _ _)
    | (with_reducible refine State.imageStart_only ?_ ?_)
    | (with_reducible refine only_ite (fun _ => ?_) (fun _ => ?_))
    | (with_reducible refine only_foldl ?_ (fun _ _ => ?_))
    | decide
    | (dsimp only)
    | split)

/-- At most: pwr, evt. -/
theorem execVbatCheck_only {a1 : _} : Gives 12582912 s (execVbatCheck a1 s) := by
  refine ⟨_, rfl, ?_⟩
  repeat' (first
    | (with_reducible exact Only.refl _ _)
    | (with_reducible refine State.vbatCompare_only ?_ ?_)
    | (with_reducible refine only_ite (fun _ => ?_) (fun _ => ?_))
    | (with_reducible refine only_foldl ?_ (fun _ _ => ?_))
    | decide
    | (dsimp only)
    | split)

/-- At most: pwr, evt. -/
theorem execRegWindowBreach_only {a1 : _} {a2 : _} {a3 : _} {a4 : _} : Gives 12582912 s (execRegWindowBreach a1 a2 a3 a4 s) := by
  unfold execRegWindowBreach
  repeat' (first
    | (with_reducible refine Gives.ite ?_ ?_)
    | (with_reducible refine Gives.next ?_)
    | (with_reducible exact Only.refl _ _)
    | (with_reducible refine State.raise_only ?_ ?_)
    | (with_reducible refine State.setPwr_only ?_ ?_)
    | (with_reducible refine only_ite (fun _ => ?_) (fun _ => ?_))
    | (with_reducible refine only_foldl ?_ (fun _ _ => ?_))
    | decide
    | (dsimp only)
    | split)

/-- At most: clock, pp, pwr, mem, tamper, disp, isl. -/
theorem execAoPowerOnReset_only : Gives 1447559170 s (execAoPowerOnReset s) := by
  have a : ∀ (u : State) (c : Clock) (x1 : Tamper) (x2 : Pp) (x3 : Disp) (x4 : Isl), u.clock.clk = c.clk →
      Only 1447559170 u { u with clock := c, tamper := x1, pp := x2, disp := x3, isl := x4 } := by
    intro u c x1 x2 x3 x4 hc
    have y0 : Only 1447559170 u { u with clock := c } := only_set_clock (Only.refl _ _) (Nat.le_of_eq hc) (by decide)
    have y1 : Only 1447559170 { u with clock := c } { u with clock := c, tamper := x1 } := only_set_tamper (Only.refl _ _) (by decide)
    have y2 : Only 1447559170 { u with clock := c, tamper := x1 } { u with clock := c, tamper := x1, pp := x2 } :=
      only_set_pp (Only.refl _ _) (by decide)
    have y3 : Only 1447559170 { u with clock := c, tamper := x1, pp := x2 } { u with clock := c, tamper := x1, pp := x2, disp := x3 } :=
      only_set_disp (Only.refl _ _) (by decide)
    have y4 : Only 1447559170 { u with clock := c, tamper := x1, pp := x2, disp := x3 }
        { u with clock := c, tamper := x1, pp := x2, disp := x3, isl := x4 } := only_set_isl (Only.refl _ _) (by decide)
    exact (((y0.trans y1).trans y2).trans y3).trans y4
  have w : ∀ u : State, Only 1447559170 u u.wipe := fun u => State.wipe_only (Only.refl _ _) (by decide)
  have p : ∀ u : State, ∀ f, Only 1447559170 u (u.setPwr f) := fun u f => State.setPwr_only (Only.refl _ _) (by decide)
  unfold execAoPowerOnReset
  refine Gives.ite (Gives.next (Only.refl _ _)) (Gives.next ?_)
  refine Only.trans (Only.trans (w s) (a s.wipe { s.wipe.clock with rtc := 0, latch := s.wipe.clock.clk, slew := 0 }
    { ({} : Tamper) with lostDue := true } { s.wipe.pp with acct := [] }
    { s.wipe.disp with balance := [], backup := true, selv := [], outage := false } { s.wipe.isl with dogAt := none } rfl)) ?_
  exact p _ _


/-- At most: dict, clock, mods, spares, chans, hk, th, ftrip, tracks, groups, eng, accts, chres, pq, capt, captMissed,
acc, bal, contrib, pp, cal, nvm, pwr, evt, mem, tamper, life, disp, upd. -/
theorem execFilterSample_only {a1 : _} {a2 : _} {a3 : _} {a4 : _} : Gives 1056964607 s (execFilterSample a1 a2 a3 a4 s) := by
  unfold execFilterSample
  repeat' (first
    | (with_reducible refine Gives.ite ?_ ?_)
    | (with_reducible refine Gives.next ?_)
    | (with_reducible exact Only.refl _ _)
    | (with_reducible refine State.pairSample_only ?_ ?_)
    | (with_reducible refine State.setChan_only ?_ ?_)
    | (with_reducible refine State.toClk_only ?_ ?_)
    | (with_reducible refine State.parallelRestart_only ?_ ?_)
    | (with_reducible refine State.laneSample_only ?_ ?_)
    | (with_reducible refine State.after_only ?_ ?_)
    | (with_reducible refine only_ite (fun _ => ?_) (fun _ => ?_))
    | (with_reducible refine only_foldl ?_ (fun _ _ => ?_))
    | decide
    | (dsimp only)
    | split)

/-- At most: ftrip. -/
theorem execFtripMinWidthEnd_only {a1 : _} : Gives 128 s (execFtripMinWidthEnd a1 s) := by
  refine ⟨_, rfl, ?_⟩
  repeat' (first
    | (with_reducible exact Only.refl _ _)
    | (with_reducible refine State.setFtrip_only ?_ ?_)
    | (with_reducible refine only_ite (fun _ => ?_) (fun _ => ?_))
    | (with_reducible refine only_foldl ?_ (fun _ _ => ?_))
    | decide
    | (dsimp only)
    | split)

/-- At most: dict, eng. -/
theorem execIssueResume_only : Gives 1025 s (execIssueResume s) := by
  refine ⟨_, rfl, ?_⟩
  repeat' (first
    | (with_reducible exact Only.refl _ _)
    | (with_reducible refine State.advance_only ?_ ?_)
    | (with_reducible refine only_ite (fun _ => ?_) (fun _ => ?_))
    | (with_reducible refine only_foldl ?_ (fun _ _ => ?_))
    | decide
    | (dsimp only)
    | split)

/-- At most: dict, clock, eng, contrib, cal, nvm, pwr, evt, life, disp, upd. -/
theorem execStitchClaim_only {a1 : _} : Gives 955515907 s (execStitchClaim a1 s) := by
  unfold execStitchClaim
  repeat' (first
    | (with_reducible refine Gives.ite ?_ ?_)
    | (with_reducible refine Gives.next ?_)
    | (with_reducible exact Only.refl _ _)
    | (with_reducible refine State.claim_only ?_ ?_)
    | (with_reducible refine State.after_only ?_ ?_)
    | (with_reducible refine only_ite (fun _ => ?_) (fun _ => ?_))
    | (with_reducible refine only_foldl ?_ (fun _ _ => ?_))
    | decide
    | (dsimp only)
    | split)

/-- At most: dict, clock, eng, contrib, cal, nvm, pwr, evt, life, disp, upd. -/
theorem execStitchResume_only {a1 : _} : Gives 955515907 s (execStitchResume a1 s) := by
  refine ⟨_, rfl, ?_⟩
  repeat' (first
    | (with_reducible exact Only.refl _ _)
    | (with_reducible refine State.resume_only ?_ ?_)
    | (with_reducible refine State.after_only ?_ ?_)
    | (with_reducible refine only_ite (fun _ => ?_) (fun _ => ?_))
    | (with_reducible refine only_foldl ?_ (fun _ _ => ?_))
    | decide
    | (dsimp only)
    | split)

/-- At most: dict, clock, eng, acc, pp, cal, nvm, pwr, evt, life, disp, upd. -/
theorem execSequencedAdd_only {a1 : _} : Gives 955843587 s (execSequencedAdd a1 s) := by
  refine ⟨_, rfl, ?_⟩
  repeat' (first
    | (with_reducible exact Only.refl _ _)
    | (with_reducible refine State.addNext_only ?_ ?_)
    | (with_reducible refine State.after_only ?_ ?_)
    | (with_reducible refine only_ite (fun _ => ?_) (fun _ => ?_))
    | (with_reducible refine only_foldl ?_ (fun _ _ => ?_))
    | decide
    | (dsimp only)
    | split)

/-- At most: dict, clock, spares, chans, hk, eng, accts, chres, pq, capt, captMissed, acc, bal, pp, cal, nvm, pwr, evt,
mem, tamper, life, disp, upd. -/
theorem execGateAdvance_only {a1 : _} : Gives 1056701499 s (execGateAdvance a1 s) := by
  refine ⟨_, rfl, ?_⟩
  repeat' (first
    | (with_reducible exact Only.refl _ _)
    | (with_reducible refine State.gateAdvance_only ?_ ?_)
    | (with_reducible refine State.after_only ?_ ?_)
    | (with_reducible refine State.drained_only ?_ ?_)
    | (with_reducible refine only_ite (fun _ => ?_) (fun _ => ?_))
    | (with_reducible refine only_foldl ?_ (fun _ _ => ?_))
    | decide
    | (dsimp only)
    | split)

/-- At most: dict, spares, chans, hk, groups, eng, cal, nvm, evt, upd, isl. -/
theorem execStitchTimeout_only {a1 : _} : Gives 1622148665 s (execStitchTimeout a1 s) := by
  refine ⟨_, rfl, ?_⟩
  repeat' (first
    | (with_reducible exact Only.refl _ _)
    | (with_reducible refine State.engineFault_only ?_ ?_)
    | (with_reducible refine only_ite (fun _ => ?_) (fun _ => ?_))
    | (with_reducible refine only_foldl ?_ (fun _ _ => ?_))
    | decide
    | (dsimp only)
    | split)

/-- At most: dict, spares, chans, hk, groups, eng, cal, nvm, evt, upd, isl. -/
theorem execEngineReset_only {a1 : _} {a2 : _} : Gives 1622148665 s (execEngineReset a1 a2 s) := by
  refine ⟨_, rfl, ?_⟩
  repeat' (first
    | (with_reducible exact Only.refl _ _)
    | (with_reducible refine State.engineFault_only ?_ ?_)
    | (with_reducible refine only_ite (fun _ => ?_) (fun _ => ?_))
    | (with_reducible refine only_foldl ?_ (fun _ _ => ?_))
    | decide
    | (dsimp only)
    | split)

/-- At most: eng, evt. -/
theorem execClusterReset_only {a1 : _} {a2 : _} : Gives 8389632 s (execClusterReset a1 a2 s) := by
  refine ⟨_, rfl, ?_⟩
  repeat' (first
    | (with_reducible exact Only.refl _ _)
    | (with_reducible refine State.resetCluster_only ?_ ?_)
    | (with_reducible refine only_ite (fun _ => ?_) (fun _ => ?_))
    | (with_reducible refine only_foldl ?_ (fun _ _ => ?_))
    | decide
    | (dsimp only)
    | split)

/-- At most: eng, evt. -/
theorem execEngineReturnToService_only {a1 : _} {a2 : _} : Gives 8389632 s (execEngineReturnToService a1 a2 s) := by
  refine ⟨_, rfl, ?_⟩
  repeat' (first
    | (with_reducible exact Only.refl _ _)
    | (with_reducible refine State.clusterBack_only ?_ ?_)
    | (with_reducible refine State.engineBack_only ?_ ?_)
    | (with_reducible refine only_ite (fun _ => ?_) (fun _ => ?_))
    | (with_reducible refine only_foldl ?_ (fun _ _ => ?_))
    | decide
    | (dsimp only)
    | split)

/-- At most: eng, evt. -/
theorem execAdmissionEvaluation_only {a1 : _} : Gives 8389632 s (execAdmissionEvaluation a1 s) := by
  refine ⟨_, rfl, ?_⟩
  repeat' (first
    | (with_reducible exact Only.refl _ _)
    | (with_reducible refine State.evaluate_only ?_ ?_)
    | (with_reducible refine only_ite (fun _ => ?_) (fun _ => ?_))
    | (with_reducible refine only_foldl ?_ (fun _ _ => ?_))
    | decide
    | (dsimp only)
    | split)

/-- At most: eng, ans. -/
theorem execCrossingTimeout_only {a1 : _} {a2 : _} {a3 : _} {a4 : _} : Gives 2147484672 s (execCrossingTimeout a1 a2 a3 a4 s) := by
  unfold execCrossingTimeout
  repeat' (first
    | (with_reducible refine Gives.ite ?_ ?_)
    | (with_reducible refine Gives.next ?_)
    | (with_reducible exact Only.refl _ _)
    | (with_reducible refine State.giveBack_only ?_ ?_)
    | (with_reducible refine State.answerRetry_only ?_ ?_)
    | (with_reducible refine State.drained_only ?_ ?_)
    | (with_reducible refine only_ite (fun _ => ?_) (fun _ => ?_))
    | (with_reducible refine only_foldl ?_ (fun _ _ => ?_))
    | decide
    | (dsimp only)
    | split)

/-- At most: dict, mods, spares, chans, nvm, evt. -/
theorem execStuckBitstream_only {a1 : _} : Gives 10485789 s (execStuckBitstream a1 s) := by
  refine ⟨_, rfl, ?_⟩
  repeat' (first
    | (with_reducible exact Only.refl _ _)
    | (with_reducible refine State.connect_only ?_ ?_)
    | (with_reducible refine State.spareFail_only ?_ ?_)
    | (with_reducible refine only_ite (fun _ => ?_) (fun _ => ?_))
    | (with_reducible refine only_foldl ?_ (fun _ _ => ?_))
    | decide
    | (dsimp only)
    | split)

/-- At most: dict, mods, spares, chans, hk, cal, nvm, evt. -/
theorem execHardFaultDecision_only {a1 : _} {a2 : _} : Gives 11534397 s (execHardFaultDecision a1 a2 s) := by
  refine ⟨_, rfl, ?_⟩
  repeat' (first
    | (with_reducible exact Only.refl _ _)
    | (with_reducible refine State.hardFault_only ?_ ?_)
    | (with_reducible refine State.spareFail_only ?_ ?_)
    | (with_reducible refine State.park_only ?_ ?_)
    | (with_reducible refine only_ite (fun _ => ?_) (fun _ => ?_))
    | (with_reducible refine only_foldl ?_ (fun _ _ => ?_))
    | decide
    | (dsimp only)
    | split)

/-- At most: spares, hk, cal. -/
theorem execRecalPassStart_only : Gives 1048616 s (execRecalPassStart s) := by
  unfold execRecalPassStart
  repeat' (first
    | (with_reducible refine Gives.ite ?_ ?_)
    | (with_reducible refine Gives.next ?_)
    | (with_reducible exact Only.refl _ _)
    | (with_reducible refine State.passStart_only ?_ ?_)
    | (with_reducible refine State.setCal_only ?_ ?_)
    | (with_reducible refine only_ite (fun _ => ?_) (fun _ => ?_))
    | (with_reducible refine only_foldl ?_ (fun _ _ => ?_))
    | decide
    | (dsimp only)
    | split)

/-- At most: spares. -/
theorem execRotationSlotStart_only {a1 : _} {a2 : _} : Gives 8 s (execRotationSlotStart a1 a2 s) := by
  unfold execRotationSlotStart
  repeat' (first
    | (with_reducible refine Gives.ite ?_ ?_)
    | (with_reducible refine Gives.next ?_)
    | (with_reducible exact Only.refl _ _)
    | (with_reducible refine State.connect_only ?_ ?_)
    | (with_reducible refine only_ite (fun _ => ?_) (fun _ => ?_))
    | (with_reducible refine only_foldl ?_ (fun _ _ => ?_))
    | decide
    | (dsimp only)
    | split)

/-- At most: spares, chans, hk, cal, evt. -/
theorem execAlignmentFit_only {a1 : _} : Gives 9437240 s (execAlignmentFit a1 s) := by
  unfold execAlignmentFit
  repeat' (first
    | (with_reducible refine Gives.ite ?_ ?_)
    | (with_reducible refine Gives.next ?_)
    | (with_reducible exact Only.refl _ _)
    | (with_reducible refine State.alignAccept_only ?_ ?_)
    | (with_reducible refine State.alignReject_only ?_ ?_)
    | (with_reducible refine only_ite (fun _ => ?_) (fun _ => ?_))
    | (with_reducible refine only_foldl ?_ (fun _ _ => ?_))
    | decide
    | (dsimp only)
    | split)

/-- At most: dict, mods, spares, chans, hk, cal, nvm, evt. -/
theorem execRotationMeasureEnd_only {a1 : _} {a2 : _} {a3 : _} : Gives 11534397 s (execRotationMeasureEnd a1 a2 a3 s) := by
  unfold execRotationMeasureEnd
  repeat' (first
    | (with_reducible refine Gives.ite ?_ ?_)
    | (with_reducible refine Gives.next ?_)
    | (with_reducible exact Only.refl _ _)
    | (with_reducible refine State.setSpare_only ?_ ?_)
    | (with_reducible refine State.driftJudge_only ?_ ?_)
    | (with_reducible refine State.beginReturn_only ?_ ?_)
    | (with_reducible refine only_ite (fun _ => ?_) (fun _ => ?_))
    | (with_reducible refine only_foldl ?_ (fun _ _ => ?_))
    | decide
    | (dsimp only)
    | split)

/-- At most: spares, chans, cal, evt. -/
theorem execSpareReturn_only {a1 : _} : Gives 9437208 s (execSpareReturn a1 s) := by
  unfold execSpareReturn
  repeat' (first
    | (with_reducible refine Gives.ite ?_ ?_)
    | (with_reducible refine Gives.next ?_)
    | (with_reducible exact Only.refl _ _)
    | (with_reducible refine State.setStep_only ?_ ?_)
    | (with_reducible refine State.takeBack_only ?_ ?_)
    | (with_reducible refine only_ite (fun _ => ?_) (fun _ => ?_))
    | (with_reducible refine only_foldl ?_ (fun _ _ => ?_))
    | decide
    | (dsimp only)
    | split)

/-- At most: spares, hk, cal, evt. -/
theorem execRotationSlotEnd_only {a1 : _} : Gives 9437224 s (execRotationSlotEnd a1 s) := by
  unfold execRotationSlotEnd
  repeat' (first
    | (with_reducible refine Gives.ite ?_ ?_)
    | (with_reducible refine Gives.next ?_)
    | (with_reducible exact Only.refl _ _)
    | (with_reducible refine State.setSpare_only ?_ ?_)
    | (with_reducible refine State.passCheck_only ?_ ?_)
    | (with_reducible refine State.park_only ?_ ?_)
    | (with_reducible refine only_ite (fun _ => ?_) (fun _ => ?_))
    | (with_reducible refine only_foldl ?_ (fun _ _ => ?_))
    | decide
    | (dsimp only)
    | split)

/-- At most: spares, chans. -/
theorem execSubstituteRetry_only {a1 : _} : Gives 24 s (execSubstituteRetry a1 s) := by
  unfold execSubstituteRetry
  repeat' (first
    | (with_reducible refine Gives.ite ?_ ?_)
    | (with_reducible refine Gives.next ?_)
    | (with_reducible exact Only.refl _ _)
    | (with_reducible refine State.setChan_only ?_ ?_)
    | (with_reducible refine State.connect_only ?_ ?_)
    | (with_reducible refine only_ite (fun _ => ?_) (fun _ => ?_))
    | (with_reducible refine only_foldl ?_ (fun _ _ => ?_))
    | decide
    | (dsimp only)
    | split)

/-- At most: mods. -/
theorem execSpareOffsetNull_only {a1 : _} {a2 : _} : Gives 4 s (execSpareOffsetNull a1 a2 s) := by
  unfold execSpareOffsetNull
  repeat' (first
    | (with_reducible refine Gives.ite ?_ ?_)
    | (with_reducible refine Gives.next ?_)
    | (with_reducible exact Only.refl _ _)
    | (with_reducible refine State.setMod_only ?_ ?_)
    | (with_reducible refine only_ite (fun _ => ?_) (fun _ => ?_))
    | (with_reducible refine only_foldl ?_ (fun _ _ => ?_))
    | decide
    | (dsimp only)
    | split)

/-- At most: spares, chans, hk, cal, pwr, evt, tamper, disp. -/
theorem execHkConversionDone_only {a1 : _} : Gives 349175864 s (execHkConversionDone a1 s) := by
  unfold execHkConversionDone
  repeat' (first
    | (with_reducible refine Gives.ite ?_ ?_)
    | (with_reducible refine Gives.next ?_)
    | (with_reducible exact Only.refl _ _)
    | (with_reducible refine State.hkNext_only ?_ ?_)
    | (with_reducible refine State.hkResult_only ?_ ?_)
    | (with_reducible refine State.setHk_only ?_ ?_)
    | (with_reducible refine only_ite (fun _ => ?_) (fun _ => ?_))
    | (with_reducible refine only_foldl ?_ (fun _ _ => ?_))
    | decide
    | (dsimp only)
    | split)

/-- At most: spares, hk. -/
theorem execUrgentRequest_only {a1 : _} : Gives 40 s (execUrgentRequest a1 s) := by
  refine ⟨_, rfl, ?_⟩
  repeat' (first
    | (with_reducible exact Only.refl _ _)
    | (with_reducible refine State.urgent_only ?_ ?_)
    | (with_reducible refine only_ite (fun _ => ?_) (fun _ => ?_))
    | (with_reducible refine only_foldl ?_ (fun _ _ => ?_))
    | decide
    | (dsimp only)
    | split)

/-- At most: dict, spares, chans, hk, ftrip, eng, accts, chres, pq, capt, captMissed, acc, bal, pp, cal, nvm, pwr, evt,
mem, tamper, disp. -/
theorem execUrgentConversionDone_only {a1 : _} : Gives 385612985 s (execUrgentConversionDone a1 s) := by
  unfold execUrgentConversionDone
  repeat' (first
    | (with_reducible refine Gives.ite ?_ ?_)
    | (with_reducible refine Gives.next ?_)
    | (with_reducible exact Only.refl _ _)
    | (with_reducible refine State.calConverted_only ?_ ?_)
    | (with_reducible refine State.restartIfDue_only ?_ ?_)
    | (with_reducible refine State.tempVerified_only ?_ ?_)
    | (with_reducible refine State.powerVerified_only ?_ ?_)
    | (with_reducible refine State.setHk_only ?_ ?_)
    | (with_reducible refine State.glitchVerified_only ?_ ?_)
    | (with_reducible refine only_ite (fun _ => ?_) (fun _ => ?_))
    | (with_reducible refine only_foldl ?_ (fun _ _ => ?_))
    | decide
    | (dsimp only)
    | split)

/-- At most: dict, spares, chans, hk, tracks, groups, accts, acc, bal, pp, cal, nvm, evt, ports, ans. -/
theorem execOpenNative_only {a1 : _} : Gives 2176518969 s (execOpenNative a1 s) := by
  refine ⟨_, rfl, ?_⟩
  repeat' (first
    | (with_reducible exact Only.refl _ _)
    | (with_reducible refine State.wCsCommand_only ?_ ?_)
    | (with_reducible refine State.writeReq_only ?_ (fun _ _ _ => ?_) ?_)
    | (with_reducible refine only_ite (fun _ => ?_) (fun _ => ?_))
    | (with_reducible refine only_foldl ?_ (fun _ _ => ?_))
    | decide
    | (dsimp only)
    | split)

/-- At most: dict, spares, chans, hk, tracks, groups, accts, acc, bal, pp, cal, nvm, evt, ports, ans. -/
theorem execOpenCompat_only {a1 : _} : Gives 2176518969 s (execOpenCompat a1 s) := by
  refine ⟨_, rfl, ?_⟩
  repeat' (first
    | (with_reducible exact Only.refl _ _)
    | (with_reducible refine State.wCsCommand_only ?_ ?_)
    | (with_reducible refine State.writeReq_only ?_ (fun _ _ _ => ?_) ?_)
    | (with_reducible refine only_ite (fun _ => ?_) (fun _ => ?_))
    | (with_reducible refine only_foldl ?_ (fun _ _ => ?_))
    | decide
    | (dsimp only)
    | split)

/-- At most: dict, spares, chans, hk, tracks, groups, accts, acc, bal, pp, cal, nvm, evt, ports, ans. -/
theorem execStartStep_only {a1 : _} : Gives 2176518969 s (execStartStep a1 s) := by
  refine ⟨_, rfl, ?_⟩
  repeat' (first
    | (with_reducible exact Only.refl _ _)
    | (with_reducible refine State.wCsCommand_only ?_ ?_)
    | (with_reducible refine State.writeReq_only ?_ (fun _ _ _ => ?_) ?_)
    | (with_reducible refine only_ite (fun _ => ?_) (fun _ => ?_))
    | (with_reducible refine only_foldl ?_ (fun _ _ => ?_))
    | decide
    | (dsimp only)
    | split)

/-- At most: dict, spares, chans, hk, tracks, groups, accts, acc, bal, pp, cal, nvm, evt, ports, ans. -/
theorem execCancelStep_only {a1 : _} : Gives 2176518969 s (execCancelStep a1 s) := by
  refine ⟨_, rfl, ?_⟩
  repeat' (first
    | (with_reducible exact Only.refl _ _)
    | (with_reducible refine State.wCsCommand_only ?_ ?_)
    | (with_reducible refine State.writeReq_only ?_ (fun _ _ _ => ?_) ?_)
    | (with_reducible refine only_ite (fun _ => ?_) (fun _ => ?_))
    | (with_reducible refine only_foldl ?_ (fun _ _ => ?_))
    | decide
    | (dsimp only)
    | split)

/-- At most: dict, spares, chans, hk, tracks, groups, accts, acc, bal, pp, cal, nvm, evt, ports, ans. -/
theorem execClose_only {a1 : _} : Gives 2176518969 s (execClose a1 s) := by
  refine ⟨_, rfl, ?_⟩
  repeat' (first
    | (with_reducible exact Only.refl _ _)
    | (with_reducible refine State.wCsCommand_only ?_ ?_)
    | (with_reducible refine State.writeReq_only ?_ (fun _ _ _ => ?_) ?_)
    | (with_reducible refine only_ite (fun _ => ?_) (fun _ => ?_))
    | (with_reducible refine only_foldl ?_ (fun _ _ => ?_))
    | decide
    | (dsimp only)
    | split)

/-- At most: spares, hk, cal. -/
theorem execSessionIdleTimeout_only : Gives 1048616 s (execSessionIdleTimeout s) := by
  refine ⟨_, rfl, ?_⟩
  repeat' (first
    | (with_reducible exact Only.refl _ _)
    | (with_reducible refine State.sessionClose_only ?_ ?_)
    | (with_reducible refine only_ite (fun _ => ?_) (fun _ => ?_))
    | (with_reducible refine only_foldl ?_ (fun _ _ => ?_))
    | decide
    | (dsimp only)
    | split)

/-- At most: spares, chans, hk, cal, evt. -/
theorem execCalTimeout_only : Gives 9437240 s (execCalTimeout s) := by
  refine ⟨_, rfl, ?_⟩
  repeat' (first
    | (with_reducible exact Only.refl _ _)
    | (with_reducible refine State.abandon_only ?_ ?_)
    | (with_reducible refine State.stepCheck_only ?_ ?_)
    | (with_reducible refine only_ite (fun _ => ?_) (fun _ => ?_))
    | (with_reducible refine only_foldl ?_ (fun _ _ => ?_))
    | decide
    | (dsimp only)
    | split)

/-- At most: spares, chans, hk, cal, evt. -/
theorem execSignatureSlotEnd_only {a1 : _} {a2 : _} {a3 : _} : Gives 9437240 s (execSignatureSlotEnd a1 a2 a3 s) := by
  unfold execSignatureSlotEnd
  repeat' (first
    | (with_reducible refine Gives.ite ?_ ?_)
    | (with_reducible refine Gives.next ?_)
    | (with_reducible exact Only.refl _ _)
    | (with_reducible refine State.setChan_only ?_ ?_)
    | (with_reducible refine State.setStep_only ?_ ?_)
    | (with_reducible refine State.spareFree_only ?_ ?_)
    | (with_reducible refine State.stepCheck_only ?_ ?_)
    | (with_reducible refine only_ite (fun _ => ?_) (fun _ => ?_))
    | (with_reducible refine only_foldl ?_ (fun _ _ => ?_))
    | decide
    | (dsimp only)
    | split)

/-- At most: pp, nvm, evt. -/
theorem execDayStart_only : Gives 11010048 s (execDayStart s) := by
  refine ⟨_, rfl, ?_⟩
  repeat' (first
    | (with_reducible exact Only.refl _ _)
    | (with_reducible refine State.chargeTo_only ?_ ?_)
    | (with_reducible refine only_ite (fun _ => ?_) (fun _ => ?_))
    | (with_reducible refine only_foldl ?_ (fun _ _ => ?_))
    | decide
    | (dsimp only)
    | split)

/-- At most: pp, evt. -/
theorem execScheduleEntry_only : Gives 8912896 s (execScheduleEntry s) := by
  refine ⟨_, rfl, ?_⟩
  repeat' (first
    | (with_reducible exact Only.refl _ _)
    | (with_reducible refine State.schedTake_only ?_ ?_)
    | (with_reducible refine State.setPp_only ?_ ?_)
    | (with_reducible refine only_ite (fun _ => ?_) (fun _ => ?_))
    | (with_reducible refine only_foldl ?_ (fun _ _ => ?_))
    | decide
    | (dsimp only)
    | split)

/-- At most: pp, nvm, evt. -/
theorem execScheduleRebuild_only : Gives 11010048 s (execScheduleRebuild s) := by
  refine ⟨_, rfl, ?_⟩
  repeat' (first
    | (with_reducible exact Only.refl _ _)
    | (with_reducible refine State.schedTake_only ?_ ?_)
    | (with_reducible refine State.setPp_only ?_ ?_)
    | (with_reducible refine State.chargeTo_only ?_ ?_)
    | (with_reducible refine only_ite (fun _ => ?_) (fun _ => ?_))
    | (with_reducible refine only_foldl ?_ (fun _ _ => ?_))
    | decide
    | (dsimp only)
    | split)

/-- At most: dict, spares, chans, tracks, groups, accts, acc, bal, pp, cal, nvm, evt, ports, ans. -/
theorem execPpCreditTransfer_only {a1 : _} {a2 : _} {a3 : _} : Gives 2176518937 s (execPpCreditTransfer a1 a2 a3 s) := by
  refine ⟨_, rfl, ?_⟩
  repeat' (first
    | (with_reducible exact Only.refl _ _)
    | (with_reducible refine State.wTransfer_only ?_ ?_)
    | (with_reducible refine State.writeReq_only ?_ (fun _ _ _ => ?_) ?_)
    | (with_reducible refine only_ite (fun _ => ?_) (fun _ => ?_))
    | (with_reducible refine only_foldl ?_ (fun _ _ => ?_))
    | decide
    | (dsimp only)
    | split)

/-- At most: dict, spares, chans, tracks, groups, accts, acc, bal, pp, cal, nvm, evt, ports, ans. -/
theorem execPpCredit_only {a1 : _} {a2 : _} {a3 : _} : Gives 2176518937 s (execPpCredit a1 a2 a3 s) := by
  refine ⟨_, rfl, ?_⟩
  repeat' (first
    | (with_reducible exact Only.refl _ _)
    | (with_reducible refine State.writeReq_only ?_ (fun _ _ _ => ?_) ?_)
    | (with_reducible refine State.wCredit_only ?_ ?_)
    | (with_reducible refine only_ite (fun _ => ?_) (fun _ => ?_))
    | (with_reducible refine only_foldl ?_ (fun _ _ => ?_))
    | decide
    | (dsimp only)
    | split)

/-- At most: dict, spares, chans, tracks, groups, accts, acc, bal, pp, cal, nvm, evt, ports, ans. -/
theorem execPpEcRequest_only {a1 : _} {a2 : _} {a3 : _} : Gives 2176518937 s (execPpEcRequest a1 a2 a3 s) := by
  refine ⟨_, rfl, ?_⟩
  repeat' (first
    | (with_reducible exact Only.refl _ _)
    | (with_reducible refine State.writeReq_only ?_ (fun _ _ _ => ?_) ?_)
    | (with_reducible refine State.wEcRequest_only ?_ ?_)
    | (with_reducible refine only_ite (fun _ => ?_) (fun _ => ?_))
    | (with_reducible refine only_foldl ?_ (fun _ _ => ?_))
    | decide
    | (dsimp only)
    | split)

/-- At most: dict, spares, chans, tracks, groups, accts, acc, bal, pp, cal, nvm, evt, ports, ans. -/
theorem execPpReconnectArm_only {a1 : _} {a2 : _} {a3 : _} : Gives 2176518937 s (execPpReconnectArm a1 a2 a3 s) := by
  refine ⟨_, rfl, ?_⟩
  repeat' (first
    | (with_reducible exact Only.refl _ _)
    | (with_reducible refine State.wArm_only ?_ ?_)
    | (with_reducible refine State.writeReq_only ?_ (fun _ _ _ => ?_) ?_)
    | (with_reducible refine only_ite (fun _ => ?_) (fun _ => ?_))
    | (with_reducible refine only_foldl ?_ (fun _ _ => ?_))
    | decide
    | (dsimp only)
    | split)

/-- At most: dict, spares, chans, tracks, groups, eng, accts, acc, bal, pp, cal, nvm, evt, ports, ans. -/
theorem execPpHostDisconnect_only {a1 : _} {a2 : _} {a3 : _} : Gives 2176519961 s (execPpHostDisconnect a1 a2 a3 s) := by
  refine ⟨_, rfl, ?_⟩
  repeat' (first
    | (with_reducible exact Only.refl _ _)
    | (with_reducible refine State.wHostDisconnect_only ?_ ?_)
    | (with_reducible refine State.writeReq_only ?_ (fun _ _ _ => ?_) ?_)
    | (with_reducible refine only_ite (fun _ => ?_) (fun _ => ?_))
    | (with_reducible refine only_foldl ?_ (fun _ _ => ?_))
    | decide
    | (dsimp only)
    | split)

/-- At most: dict, spares, chans, tracks, groups, accts, acc, bal, pp, cal, nvm, evt, ports, ans. -/
theorem execKeyDevice_only {a1 : _} {a2 : _} : Gives 2176518937 s (execKeyDevice a1 a2 s) := by
  refine ⟨_, rfl, ?_⟩
  repeat' (first
    | (with_reducible exact Only.refl _ _)
    | (with_reducible refine State.wKeyDevice_only ?_ ?_)
    | (with_reducible refine State.writeReq_only ?_ (fun _ _ _ => ?_) ?_)
    | (with_reducible refine only_ite (fun _ => ?_) (fun _ => ?_))
    | (with_reducible refine only_foldl ?_ (fun _ _ => ?_))
    | decide
    | (dsimp only)
    | split)

/-- At most: dict, spares, chans, tracks, groups, accts, acc, bal, pp, cal, nvm, evt, ports, ans. -/
theorem execKeyAccount_only {a1 : _} {a2 : _} {a3 : _} : Gives 2176518937 s (execKeyAccount a1 a2 a3 s) := by
  refine ⟨_, rfl, ?_⟩
  repeat' (first
    | (with_reducible exact Only.refl _ _)
    | (with_reducible refine State.wKeyAccount_only ?_ ?_)
    | (with_reducible refine State.writeReq_only ?_ (fun _ _ _ => ?_) ?_)
    | (with_reducible refine only_ite (fun _ => ?_) (fun _ => ?_))
    | (with_reducible refine only_foldl ?_ (fun _ _ => ?_))
    | decide
    | (dsimp only)
    | split)

/-- At most: dict, spares, chans, tracks, groups, accts, acc, bal, pp, cal, nvm, evt, ports, ans. -/
theorem execKeyWrapped_only {a1 : _} {a2 : _} : Gives 2176518937 s (execKeyWrapped a1 a2 s) := by
  refine ⟨_, rfl, ?_⟩
  repeat' (first
    | (with_reducible exact Only.refl _ _)
    | (with_reducible refine State.wKeyWrapped_only ?_ ?_)
    | (with_reducible refine State.writeReq_only ?_ (fun _ _ _ => ?_) ?_)
    | (with_reducible refine only_ite (fun _ => ?_) (fun _ => ?_))
    | (with_reducible refine only_foldl ?_ (fun _ _ => ?_))
    | decide
    | (dsimp only)
    | split)

/-- At most: pp, evt. -/
theorem execRelayScanFrame_only {a1 : _} {a2 : _} : Gives 8912896 s (execRelayScanFrame a1 a2 s) := by
  refine ⟨_, rfl, ?_⟩
  repeat' (first
    | (with_reducible exact Only.refl _ _)
    | (with_reducible refine State.ev44_only ?_ ?_)
    | (with_reducible refine State.contacts_only ?_ ?_)
    | (with_reducible refine State.setRelay_only ?_ ?_)
    | (with_reducible refine State.slotFault_only ?_ ?_)
    | (with_reducible refine only_ite (fun _ => ?_) (fun _ => ?_))
    | (with_reducible refine only_foldl ?_ (fun _ _ => ?_))
    | decide
    | (dsimp only)
    | split)

/-- At most: pp, evt. -/
theorem execRelayCommandFrame_only : Gives 8912896 s (execRelayCommandFrame s) := by
  refine ⟨_, rfl, ?_⟩
  repeat' (first
    | (with_reducible exact Only.refl _ _)
    | (with_reducible refine State.latchAcct_only ?_ ?_)
    | (with_reducible refine State.setRelay_only ?_ ?_)
    | (with_reducible refine only_ite (fun _ => ?_) (fun _ => ?_))
    | (with_reducible refine only_foldl ?_ (fun _ _ => ?_))
    | decide
    | (dsimp only)
    | split)

/-- At most: pp. -/
theorem execRelayReleaseFrame_only : Gives 524288 s (execRelayReleaseFrame s) := by
  refine ⟨_, rfl, ?_⟩
  repeat' (first
    | (with_reducible exact Only.refl _ _)
    | (with_reducible refine State.setRelay_only ?_ ?_)
    | (with_reducible refine only_ite (fun _ => ?_) (fun _ => ?_))
    | (with_reducible refine only_foldl ?_ (fun _ _ => ?_))
    | decide
    | (dsimp only)
    | split)

/-- At most: eng, pp, nvm, pwr, evt, disp. -/
theorem execRelayCaptureFrame_only {a1 : _} {a2 : _} : Gives 283640832 s (execRelayCaptureFrame a1 a2 s) := by
  refine ⟨_, rfl, ?_⟩
  repeat' (first
    | (with_reducible exact Only.refl _ _)
    | (with_reducible refine State.bindProgress_only ?_ ?_)
    | (with_reducible refine State.sourceCleared_only ?_ ?_)
    | (with_reducible refine State.contacts_only ?_ ?_)
    | (with_reducible refine State.setRelay_only ?_ ?_)
    | (with_reducible refine State.slotCompare_only ?_ ?_)
    | (with_reducible refine only_ite (fun _ => ?_) (fun _ => ?_))
    | (with_reducible refine only_foldl ?_ (fun _ _ => ?_))
    | decide
    | (dsimp only)
    | split)

/-- At most: dict, spares, chans, tracks, groups, accts, acc, bal, pp, cal, nvm, evt, ports, ans. -/
theorem execRlyFaultClear_only {a1 : _} {a2 : _} : Gives 2176518937 s (execRlyFaultClear a1 a2 s) := by
  refine ⟨_, rfl, ?_⟩
  repeat' (first
    | (with_reducible exact Only.refl _ _)
    | (with_reducible refine State.writeReq_only ?_ (fun _ _ _ => ?_) ?_)
    | (with_reducible refine State.wRelayFault_only ?_ ?_)
    | (with_reducible refine only_ite (fun _ => ?_) (fun _ => ?_))
    | (with_reducible refine only_foldl ?_ (fun _ _ => ?_))
    | decide
    | (dsimp only)
    | split)

/-- At most: dict, spares, chans, hk, ftrip, eng, accts, chres, pq, capt, captMissed, acc, bal, pp, cal, nvm, pwr, evt,
mem, tamper, disp. -/
theorem execDetectorAWindow_only {a1 : _} {a2 : _} {a3 : _} {a4 : _} : Gives 385612985 s (execDetectorAWindow a1 a2 a3 a4 s) := by
  unfold execDetectorAWindow
  repeat' (first
    | (with_reducible refine Gives.ite ?_ ?_)
    | (with_reducible refine Gives.next ?_)
    | (with_reducible exact Only.refl _ _)
    | (with_reducible refine State.clkSettle_only ?_ ?_)
    | (with_reducible refine State.setClk_only ?_ ?_)
    | (with_reducible refine State.restartIfDue_only ?_ ?_)
    | (with_reducible refine State.aFlag_only ?_ ?_)
    | (with_reducible refine only_ite (fun _ => ?_) (fun _ => ?_))
    | (with_reducible refine only_foldl ?_ (fun _ _ => ?_))
    | decide
    | (dsimp only)
    | split)

/-- At most: dict, spares, chans, hk, ftrip, eng, accts, chres, pq, capt, captMissed, acc, bal, pp, cal, nvm, pwr, evt,
mem, tamper, disp. -/
theorem execDetectorBFlag_only {a1 : _} {a2 : _} {a3 : _} : Gives 385612985 s (execDetectorBFlag a1 a2 a3 s) := by
  unfold execDetectorBFlag
  repeat' (first
    | (with_reducible refine Gives.ite ?_ ?_)
    | (with_reducible refine Gives.next ?_)
    | (with_reducible exact Only.refl _ _)
    | (with_reducible refine State.clkSettle_only ?_ ?_)
    | (with_reducible refine State.setClk_only ?_ ?_)
    | (with_reducible refine State.clkConfirm_only ?_ ?_)
    | (with_reducible refine State.restartIfDue_only ?_ ?_)
    | (with_reducible refine only_ite (fun _ => ?_) (fun _ => ?_))
    | (with_reducible refine only_foldl ?_ (fun _ _ => ?_))
    | decide
    | (dsimp only)
    | split)

/-- At most: dict, spares, chans, hk, ftrip, eng, accts, chres, pq, capt, captMissed, acc, bal, pp, cal, nvm, pwr, evt,
mem, tamper, disp. -/
theorem execPllRelock_only : Gives 385612985 s (execPllRelock s) := by
  refine ⟨_, rfl, ?_⟩
  repeat' (first
    | (with_reducible exact Only.refl _ _)
    | (with_reducible refine State.emergency_only ?_ ?_)
    | (with_reducible refine State.deferEvent_only ?_ ?_)
    | (with_reducible refine State.setTamper_only ?_ ?_)
    | (with_reducible refine only_ite (fun _ => ?_) (fun _ => ?_))
    | (with_reducible refine only_foldl ?_ (fun _ _ => ?_))
    | decide
    | (dsimp only)
    | split)

/-- At most: dict, clock, mods, spares, chans, hk, th, ftrip, tracks, groups, eng, accts, chres, pq, capt, captMissed,
acc, bal, contrib, pp, cal, nvm, pwr, evt, ports, mem, tamper, life, disp, upd, isl. -/
theorem execCrystalClean_only : Gives 2147483647 s (execCrystalClean s) := by
  refine ⟨_, rfl, ?_⟩
  repeat' (first
    | (with_reducible exact Only.refl _ _)
    | (with_reducible refine State.tryCastOn_only ?_ ?_)
    | (with_reducible refine State.setTamper_only ?_ ?_)
    | (with_reducible refine only_ite (fun _ => ?_) (fun _ => ?_))
    | (with_reducible refine only_foldl ?_ (fun _ _ => ?_))
    | decide
    | (dsimp only)
    | split)

/-- At most: tamper. -/
theorem execRtcCrystalReturn_only : Gives 67108864 s (execRtcCrystalReturn s) := by
  refine ⟨_, rfl, ?_⟩
  repeat' (first
    | (with_reducible exact Only.refl _ _)
    | (with_reducible refine State.setTamper_only ?_ ?_)
    | (with_reducible refine only_ite (fun _ => ?_) (fun _ => ?_))
    | (with_reducible refine only_foldl ?_ (fun _ _ => ?_))
    | decide
    | (dsimp only)
    | split)

/-- At most: dict, spares, chans, hk, ftrip, eng, accts, chres, pq, capt, captMissed, acc, bal, pp, cal, nvm, pwr, evt,
mem, tamper, disp. -/
theorem execGlitchFlag_only {a1 : _} {a2 : _} {a3 : _} : Gives 385612985 s (execGlitchFlag a1 a2 a3 s) := by
  unfold execGlitchFlag
  repeat' (first
    | (with_reducible refine Gives.ite ?_ ?_)
    | (with_reducible refine Gives.next ?_)
    | (with_reducible exact Only.refl _ _)
    | (with_reducible refine State.detect_only ?_ ?_)
    | (with_reducible refine State.restartIfDue_only ?_ ?_)
    | (with_reducible refine State.setTamper_only ?_ ?_)
    | (with_reducible refine State.urgent_only ?_ ?_)
    | (with_reducible refine only_ite (fun _ => ?_) (fun _ => ?_))
    | (with_reducible refine only_foldl ?_ (fun _ _ => ?_))
    | decide
    | (dsimp only)
    | split)

/-- At most: dict, spares, chans, hk, ftrip, eng, accts, chres, pq, capt, captMissed, acc, bal, pp, cal, nvm, pwr, evt,
mem, tamper, disp. -/
theorem execTampSample_only {a1 : _} {a2 : _} {a3 : _} : Gives 385612985 s (execTampSample a1 a2 a3 s) := by
  unfold execTampSample
  repeat' (first
    | (with_reducible refine Gives.ite ?_ ?_)
    | (with_reducible refine Gives.next ?_)
    | (with_reducible exact Only.refl _ _)
    | (with_reducible refine State.detect_only ?_ ?_)
    | (with_reducible refine State.restartIfDue_only ?_ ?_)
    | (with_reducible refine State.setTamper_only ?_ ?_)
    | (with_reducible refine only_ite (fun _ => ?_) (fun _ => ?_))
    | (with_reducible refine only_foldl ?_ (fun _ _ => ?_))
    | decide
    | (dsimp only)
    | split)

/-- At most: dict, spares, chans, hk, ftrip, eng, accts, chres, pq, capt, captMissed, acc, bal, pp, cal, nvm, pwr, evt,
mem, tamper, disp. -/
theorem execMagSample_only {a1 : _} {a2 : _} : Gives 385612985 s (execMagSample a1 a2 s) := by
  unfold execMagSample
  repeat' (first
    | (with_reducible refine Gives.ite ?_ ?_)
    | (with_reducible refine Gives.next ?_)
    | (with_reducible exact Only.refl _ _)
    | (with_reducible refine State.detect_only ?_ ?_)
    | (with_reducible refine State.restartIfDue_only ?_ ?_)
    | (with_reducible refine State.setTamper_only ?_ ?_)
    | (with_reducible refine only_ite (fun _ => ?_) (fun _ => ?_))
    | (with_reducible refine only_foldl ?_ (fun _ _ => ?_))
    | decide
    | (dsimp only)
    | split)

/-- At most: nvm, evt, tamper. -/
theorem execAoLogDrain_only : Gives 77594624 s (execAoLogDrain s) := by
  refine ⟨_, rfl, ?_⟩
  repeat' (first
    | (with_reducible exact Only.refl _ _)
    | (with_reducible refine State.drainOne_only ?_ ?_)
    | (with_reducible refine only_ite (fun _ => ?_) (fun _ => ?_))
    | (with_reducible refine only_foldl ?_ (fun _ _ => ?_))
    | decide
    | (dsimp only)
    | split)

/-- At most: dict, spares, chans, tracks, groups, accts, acc, bal, pp, cal, nvm, evt, ports, ans. -/
theorem execTamperRelease_only {a1 : _} {a2 : _} : Gives 2176518937 s (execTamperRelease a1 a2 s) := by
  refine ⟨_, rfl, ?_⟩
  repeat' (first
    | (with_reducible exact Only.refl _ _)
    | (with_reducible refine State.wRelease_only ?_ ?_)
    | (with_reducible refine State.writeReq_only ?_ (fun _ _ _ => ?_) ?_)
    | (with_reducible refine only_ite (fun _ => ?_) (fun _ => ?_))
    | (with_reducible refine only_foldl ?_ (fun _ _ => ?_))
    | decide
    | (dsimp only)
    | split)

/-- At most: dict, spares, chans, tracks, groups, accts, acc, bal, pp, cal, nvm, evt, ports, tamper, disp, ans. -/
theorem execMarkClear_only {a1 : _} {a2 : _} : Gives 2512063257 s (execMarkClear a1 a2 s) := by
  refine ⟨_, rfl, ?_⟩
  repeat' (first
    | (with_reducible exact Only.refl _ _)
    | (with_reducible refine State.wMarkClear_only ?_ ?_)
    | (with_reducible refine State.writeReq_only ?_ (fun _ _ _ => ?_) ?_)
    | (with_reducible refine only_ite (fun _ => ?_) (fun _ => ?_))
    | (with_reducible refine only_foldl ?_ (fun _ _ => ?_))
    | decide
    | (dsimp only)
    | split)

/-- At most: dict, spares, chans, hk, ftrip, tracks, groups, eng, accts, chres, pq, capt, captMissed, acc, bal, pp, cal,
nvm, pwr, evt, ports, mem, tamper, life, disp, ans. -/
theorem execLcCommand_only {a1 : _} {a2 : _} : Gives 2684092345 s (execLcCommand a1 a2 s) := by
  refine ⟨_, rfl, ?_⟩
  repeat' (first
    | (with_reducible exact Only.refl _ _)
    | (with_reducible refine State.lcFinish_only ?_ ?_)
    | (with_reducible refine State.lcWrite_only ?_ ?_)
    | (with_reducible refine State.request_only ?_ (fun _ => ?_) ?_)
    | (with_reducible refine only_ite (fun _ => ?_) (fun _ => ?_))
    | (with_reducible refine only_foldl ?_ (fun _ _ => ?_))
    | decide
    | (dsimp only)
    | split)

/-- At most: dict, spares, chans, tracks, groups, accts, acc, bal, pp, cal, nvm, evt, ports, life, ans. -/
theorem execKeyReturn_only {a1 : _} {a2 : _} : Gives 2310736665 s (execKeyReturn a1 a2 s) := by
  refine ⟨_, rfl, ?_⟩
  repeat' (first
    | (with_reducible exact Only.refl _ _)
    | (with_reducible refine State.writeReq_only ?_ (fun _ _ _ => ?_) ?_)
    | (with_reducible refine State.wKeyReturn_only ?_ ?_)
    | (with_reducible refine only_ite (fun _ => ?_) (fun _ => ?_))
    | (with_reducible refine only_foldl ?_ (fun _ _ => ?_))
    | decide
    | (dsimp only)
    | split)

/-- At most: dict, spares, chans, tracks, groups, accts, acc, bal, pp, cal, nvm, evt, ports, isl, ans. -/
theorem execWatchdogKick_only {a1 : _} {a2 : _} : Gives 3250260761 s (execWatchdogKick a1 a2 s) := by
  refine ⟨_, rfl, ?_⟩
  repeat' (first
    | (with_reducible exact Only.refl _ _)
    | (with_reducible refine State.answer_only ?_ ?_)
    | (with_reducible refine State.writeReq_only ?_ (fun _ _ _ => ?_) ?_)
    | (with_reducible refine State.setIsl_only ?_ ?_)
    | (with_reducible refine only_ite (fun _ => ?_) (fun _ => ?_))
    | (with_reducible refine only_foldl ?_ (fun _ _ => ?_))
    | decide
    | (dsimp only)
    | split)

/-- At most: dict, spares, chans, hk, ftrip, groups, eng, accts, chres, pq, capt, captMissed, acc, bal, pp, cal, nvm, pwr,
evt, mem, tamper, disp, upd, isl. -/
theorem execWatchdogExpiry_only : Gives 1996226233 s (execWatchdogExpiry s) := by
  unfold execWatchdogExpiry
  repeat' (first
    | (with_reducible refine Gives.ite ?_ ?_)
    | (with_reducible refine Gives.next ?_)
    | (with_reducible exact Only.refl _ _)
    | (with_reducible refine State.controlRestart_only ?_ ?_)
    | (with_reducible refine State.raise_only ?_ ?_)
    | (with_reducible refine State.setIsl_only ?_ ?_)
    | (with_reducible refine State.restartDevice_only ?_ ?_)
    | (with_reducible refine State.deferEvent_only ?_ ?_)
    | (with_reducible refine State.trialFails_only ?_ ?_)
    | (with_reducible refine only_ite (fun _ => ?_) (fun _ => ?_))
    | (with_reducible refine only_foldl ?_ (fun _ _ => ?_))
    | decide
    | (dsimp only)
    | split)

/-- At most: dict, spares, chans, hk, groups, cal, nvm, evt, upd, isl. -/
theorem execControlIslandRestart_only {a1 : _} : Gives 1622147641 s (execControlIslandRestart a1 s) := by
  refine ⟨_, rfl, ?_⟩
  repeat' (first
    | (with_reducible exact Only.refl _ _)
    | (with_reducible refine State.controlRestart_only ?_ ?_)
    | (with_reducible refine only_ite (fun _ => ?_) (fun _ => ?_))
    | (with_reducible refine only_foldl ?_ (fun _ _ => ?_))
    | decide
    | (dsimp only)
    | split)

/-- At most: dict, groups, eng, accts, nvm, evt, upd, isl. -/
theorem execControlRestartDone_only {a1 : _} {a2 : _} : Gives 1621102081 s (execControlRestartDone a1 a2 s) := by
  unfold execControlRestartDone
  repeat' (first
    | (with_reducible refine Gives.ite ?_ ?_)
    | (with_reducible refine Gives.next ?_)
    | (with_reducible exact Only.refl _ _)
    | (with_reducible refine State.imageStart_only ?_ ?_)
    | (with_reducible refine State.evaluate_only ?_ ?_)
    | (with_reducible refine only_ite (fun _ => ?_) (fun _ => ?_))
    | (with_reducible refine only_foldl ?_ (fun _ _ => ?_))
    | decide
    | (dsimp only)
    | split)

/-- At most: pp, evt, ports. -/
theorem execPortIslandRestart_only {a1 : _} : Gives 25690112 s (execPortIslandRestart a1 s) := by
  refine ⟨_, rfl, ?_⟩
  repeat' (first
    | (with_reducible exact Only.refl _ _)
    | (with_reducible refine State.portRestart_only ?_ ?_)
    | (with_reducible refine only_ite (fun _ => ?_) (fun _ => ?_))
    | (with_reducible refine only_foldl ?_ (fun _ _ => ?_))
    | decide
    | (dsimp only)
    | split)

/-- At most: evt, disp. -/
theorem execDisplayIslandRestart_only {a1 : _} : Gives 276824064 s (execDisplayIslandRestart a1 s) := by
  refine ⟨_, rfl, ?_⟩
  repeat' (first
    | (with_reducible exact Only.refl _ _)
    | (with_reducible refine State.displayRestart_only ?_ ?_)
    | (with_reducible refine only_ite (fun _ => ?_) (fun _ => ?_))
    | (with_reducible refine only_foldl ?_ (fun _ _ => ?_))
    | decide
    | (dsimp only)
    | split)

/-- At most: nvm. -/
theorem execPeriodicSave_only : Gives 2097152 s (execPeriodicSave s) := by
  refine ⟨_, rfl, ?_⟩
  repeat' (first
    | (with_reducible exact Only.refl _ _)
    | (with_reducible refine State.save_only ?_ ?_)
    | (with_reducible refine only_ite (fun _ => ?_) (fun _ => ?_))
    | (with_reducible refine only_foldl ?_ (fun _ _ => ?_))
    | decide
    | (dsimp only)
    | split)

/-- At most: dict, spares, chans, tracks, groups, accts, acc, bal, pp, cal, nvm, evt, ports, ans. -/
theorem execSaveRequest_only {a1 : _} {a2 : _} : Gives 2176518937 s (execSaveRequest a1 a2 s) := by
  refine ⟨_, rfl, ?_⟩
  repeat' (first
    | (with_reducible exact Only.refl _ _)
    | (with_reducible refine State.writeReq_only ?_ (fun _ _ _ => ?_) ?_)
    | (with_reducible refine State.wSave_only ?_ ?_)
    | (with_reducible refine only_ite (fun _ => ?_) (fun _ => ?_))
    | (with_reducible refine only_foldl ?_ (fun _ _ => ?_))
    | decide
    | (dsimp only)
    | split)

/-- At most: dict, nvm, evt, upd. -/
theorem execNvmProgramDone_only {a1 : _} {a2 : _} {a3 : _} : Gives 547356673 s (execNvmProgramDone a1 a2 a3 s) := by
  refine ⟨_, rfl, ?_⟩
  repeat' (first
    | (with_reducible exact Only.refl _ _)
    | (with_reducible refine State.pageBad_only ?_ ?_)
    | (with_reducible refine State.program_only ?_ ?_)
    | (with_reducible refine only_ite (fun _ => ?_) (fun _ => ?_))
    | (with_reducible refine only_foldl ?_ (fun _ _ => ?_))
    | decide
    | (dsimp only)
    | split)

/-- At most: nvm. -/
theorem execStoreCompaction_only {a1 : _} : Gives 2097152 s (execStoreCompaction a1 s) := by
  refine ⟨_, rfl, ?_⟩
  repeat' (first
    | (with_reducible exact Only.refl _ _)
    | (with_reducible refine State.setNvm_only ?_ ?_ ?_)
    | (with_reducible refine only_ite (fun _ => ?_) (fun _ => ?_))
    | (with_reducible refine only_foldl ?_ (fun _ _ => ?_))
    | decide
    | exact ⟨fun w => cellsSet_wf w _ _⟩ | exact ⟨fun w => w, fun _ p => List.mem_append_left _ p, fun _ => Nat.le_refl _⟩ | exact .of rfl rfl rfl | exact .of rfl rfl | exact .of rfl | exact Nat.le_refl _
    | (dsimp only)
    | split)

/-- At most: nvm. -/
theorem execJournalCompaction_only : Gives 2097152 s (execJournalCompaction s) := by
  refine ⟨_, rfl, ?_⟩
  repeat' (first
    | (with_reducible exact Only.refl _ _)
    | (with_reducible refine State.jCompact_only ?_ ?_)
    | (with_reducible refine only_ite (fun _ => ?_) (fun _ => ?_))
    | (with_reducible refine only_foldl ?_ (fun _ _ => ?_))
    | decide
    | (dsimp only)
    | split)

/-- At most: dict, nvm, evt. -/
theorem execRefreshPass_only {a1 : _} {a2 : _} : Gives 10485761 s (execRefreshPass a1 a2 s) := by
  unfold execRefreshPass
  repeat' (first
    | (with_reducible refine Gives.ite ?_ ?_)
    | (with_reducible refine Gives.next ?_)
    | (with_reducible exact Only.refl _ _)
    | (with_reducible refine State.nvmWordBad_only ?_ ?_)
    | (with_reducible refine State.raise_only ?_ ?_)
    | (with_reducible refine State.setNvm_only ?_ ?_ ?_)
    | (with_reducible refine State.program_only ?_ ?_)
    | (with_reducible refine only_ite (fun _ => ?_) (fun _ => ?_))
    | (with_reducible refine only_foldl ?_ (fun _ _ => ?_))
    | decide
    | exact ⟨fun w => cellsSet_wf w _ _⟩ | exact ⟨fun w => w, fun _ p => List.mem_append_left _ p, fun _ => Nat.le_refl _⟩ | exact .of rfl rfl rfl | exact .of rfl rfl | exact .of rfl | exact Nat.le_refl _
    | (dsimp only)
    | split)

/-- At most: dict, spares, chans, tracks, groups, accts, acc, bal, pp, cal, nvm, evt, ports, ans. -/
theorem execSpreadInc_only {a1 : _} {a2 : _} : Gives 2176518937 s (execSpreadInc a1 a2 s) := by
  refine ⟨_, rfl, ?_⟩
  repeat' (first
    | (with_reducible exact Only.refl _ _)
    | (with_reducible refine State.writeReq_only ?_ (fun _ _ _ => ?_) ?_)
    | (with_reducible refine State.wSpread_only ?_ ?_)
    | (with_reducible refine only_ite (fun _ => ?_) (fun _ => ?_))
    | (with_reducible refine only_foldl ?_ (fun _ _ => ?_))
    | decide
    | (dsimp only)
    | split)

/-- At most: chans, eng, pp, nvm, evt, mem. -/
theorem execScrubWord_only {a1 : _} {a2 : _} {a3 : _} : Gives 44565520 s (execScrubWord a1 a2 a3 s) := by
  unfold execScrubWord
  repeat' (first
    | (with_reducible refine Gives.ite ?_ ?_)
    | (with_reducible refine Gives.next ?_)
    | (with_reducible exact Only.refl _ _)
    | (with_reducible refine State.scrubCursor_only ?_ ?_)
    | (with_reducible refine State.corrected_only ?_ ?_)
    | (with_reducible refine State.scrubCount_only ?_ ?_)
    | (with_reducible refine State.poisonWord_only ?_ ?_)
    | (with_reducible refine only_ite (fun _ => ?_) (fun _ => ?_))
    | (with_reducible refine only_foldl ?_ (fun _ _ => ?_))
    | decide
    | (dsimp only)
    | split)

/-- At most: acc, nvm, pwr, evt, mem. -/
theorem execLineRecovery_only {a1 : _} : Gives 48300032 s (execLineRecovery a1 s) := by
  unfold execLineRecovery
  repeat' (first
    | (with_reducible refine Gives.ite ?_ ?_)
    | (with_reducible refine Gives.next ?_)
    | (with_reducible exact Only.refl _ _)
    | (with_reducible refine State.scStep_only ?_ ?_)
    | (with_reducible refine State.setAcc_only ?_ ?_)
    | (with_reducible refine State.raise_only ?_ ?_)
    | (with_reducible refine State.setMem_only ?_ ?_ ?_)
    | (with_reducible refine State.setPwr_only ?_ ?_)
    | (with_reducible refine State.logBoth_only ?_ ?_)
    | (with_reducible refine only_ite (fun _ => ?_) (fun _ => ?_))
    | (with_reducible refine only_foldl ?_ (fun _ _ => ?_))
    | decide
    | exact ⟨fun w => cellsSet_wf w _ _⟩ | exact ⟨fun w => w, fun _ p => List.mem_append_left _ p, fun _ => Nat.le_refl _⟩ | exact .of rfl rfl rfl | exact .of rfl rfl | exact .of rfl | exact Nat.le_refl _
    | (dsimp only)
    | split)

/-- At most: dict, nvm, evt, mem. -/
theorem execRowTest_only {a1 : _} {a2 : _} {a3 : _} : Gives 44040193 s (execRowTest a1 a2 a3 s) := by
  unfold execRowTest
  repeat' (first
    | (with_reducible refine Gives.ite ?_ ?_)
    | (with_reducible refine Gives.next ?_)
    | (with_reducible exact Only.refl _ _)
    | (with_reducible refine State.setMem_only ?_ ?_ ?_)
    | (with_reducible refine State.rowFailed_only ?_ ?_)
    | (with_reducible refine only_ite (fun _ => ?_) (fun _ => ?_))
    | (with_reducible refine only_foldl ?_ (fun _ _ => ?_))
    | decide
    | exact ⟨fun w => cellsSet_wf w _ _⟩ | exact ⟨fun w => w, fun _ p => List.mem_append_left _ p, fun _ => Nat.le_refl _⟩ | exact .of rfl rfl rfl | exact .of rfl rfl | exact .of rfl | exact Nat.le_refl _
    | (dsimp only)
    | split)

/-- At most: dict, spares, chans, hk, ftrip, tracks, groups, eng, accts, chres, pq, capt, captMissed, acc, bal, pp, cal,
nvm, pwr, evt, ports, mem, tamper, disp, ans. -/
theorem execMarchPreserving_only {a1 : _} {a2 : _} : Gives 2549874617 s (execMarchPreserving a1 a2 s) := by
  refine ⟨_, rfl, ?_⟩
  repeat' (first
    | (with_reducible exact Only.refl _ _)
    | (with_reducible refine State.wMarch_only ?_ ?_)
    | (with_reducible refine State.writeReq_only ?_ (fun _ _ _ => ?_) ?_)
    | (with_reducible refine only_ite (fun _ => ?_) (fun _ => ?_))
    | (with_reducible refine only_foldl ?_ (fun _ _ => ?_))
    | decide
    | (dsimp only)
    | split)

/-- At most: dict, spares, chans, hk, ftrip, tracks, groups, eng, accts, chres, pq, capt, captMissed, acc, bal, pp, cal,
nvm, pwr, evt, ports, mem, tamper, disp, ans. -/
theorem execMarchDestructive_only {a1 : _} {a2 : _} : Gives 2549874617 s (execMarchDestructive a1 a2 s) := by
  refine ⟨_, rfl, ?_⟩
  repeat' (first
    | (with_reducible exact Only.refl _ _)
    | (with_reducible refine State.wMarch_only ?_ ?_)
    | (with_reducible refine State.writeReq_only ?_ (fun _ _ _ => ?_) ?_)
    | (with_reducible refine only_ite (fun _ => ?_) (fun _ => ?_))
    | (with_reducible refine only_foldl ?_ (fun _ _ => ?_))
    | decide
    | (dsimp only)
    | split)

/-- At most: mem. -/
theorem execMarchPeriodic_only : Gives 33554432 s (execMarchPeriodic s) := by
  unfold execMarchPeriodic
  repeat' (first
    | (with_reducible refine Gives.ite ?_ ?_)
    | (with_reducible refine Gives.next ?_)
    | (with_reducible exact Only.refl _ _)
    | (with_reducible refine State.setMem_only ?_ ?_ ?_)
    | (with_reducible refine only_ite (fun _ => ?_) (fun _ => ?_))
    | (with_reducible refine only_foldl ?_ (fun _ _ => ?_))
    | decide
    | exact ⟨fun w => cellsSet_wf w _ _⟩ | exact ⟨fun w => w, fun _ p => List.mem_append_left _ p, fun _ => Nat.le_refl _⟩ | exact .of rfl rfl rfl | exact .of rfl rfl | exact .of rfl | exact Nat.le_refl _
    | (dsimp only)
    | split)

/-- At most: evt, mem. -/
theorem execMarchRunDone_only : Gives 41943040 s (execMarchRunDone s) := by
  unfold execMarchRunDone
  repeat' (first
    | (with_reducible refine Gives.ite ?_ ?_)
    | (with_reducible refine Gives.next ?_)
    | (with_reducible exact Only.refl _ _)
    | (with_reducible refine State.raise_only ?_ ?_)
    | (with_reducible refine State.setMem_only ?_ ?_ ?_)
    | (with_reducible refine only_ite (fun _ => ?_) (fun _ => ?_))
    | (with_reducible refine only_foldl ?_ (fun _ _ => ?_))
    | decide
    | exact ⟨fun w => cellsSet_wf w _ _⟩ | exact ⟨fun w => w, fun _ p => List.mem_append_left _ p, fun _ => Nat.le_refl _⟩ | exact .of rfl rfl rfl | exact .of rfl rfl | exact .of rfl | exact Nat.le_refl _
    | (dsimp only)
    | split)

/-- At most: dict, spares, chans, tracks, groups, accts, acc, bal, pp, cal, nvm, evt, ports, mem, ans. -/
theorem execHportTransaction_only {a1 : _} : Gives 2210073369 s (execHportTransaction a1 s) := by
  refine ⟨_, rfl, ?_⟩
  repeat' (first
    | (with_reducible exact Only.refl _ _)
    | (with_reducible refine State.hport_only ?_ ?_)
    | (with_reducible refine only_ite (fun _ => ?_) (fun _ => ?_))
    | (with_reducible refine only_foldl ?_ (fun _ _ => ?_))
    | decide
    | (dsimp only)
    | split)

/-- At most: dict, spares, chans, tracks, groups, accts, acc, bal, pp, cal, nvm, evt, ports, mem, ans. -/
theorem execHcsTimeout_only {a1 : _} : Gives 2210073369 s (execHcsTimeout a1 s) := by
  refine ⟨_, rfl, ?_⟩
  repeat' (first
    | (with_reducible exact Only.refl _ _)
    | (with_reducible refine State.hport_only ?_ ?_)
    | (with_reducible refine only_ite (fun _ => ?_) (fun _ => ?_))
    | (with_reducible refine only_foldl ?_ (fun _ _ => ?_))
    | decide
    | (dsimp only)
    | split)

/-- At most: dict, spares, chans, tracks, groups, accts, acc, bal, pp, cal, nvm, evt, ports, ans. -/
theorem execRead_only {a1 : _} {a2 : _} {a3 : _} : Gives 2176518937 s (execRead a1 a2 a3 s) := by
  refine ⟨_, rfl, ?_⟩
  repeat' (first
    | (with_reducible exact Only.refl _ _)
    | (with_reducible refine State.doRead_only ?_ ?_)
    | (with_reducible refine State.request_only ?_ (fun _ => ?_) ?_)
    | (with_reducible refine only_ite (fun _ => ?_) (fun _ => ?_))
    | (with_reducible refine only_foldl ?_ (fun _ _ => ?_))
    | decide
    | (dsimp only)
    | split)

/-- At most: dict, clock, spares, chans, hk, th, ftrip, tracks, groups, eng, accts, chres, pq, capt, captMissed, acc, bal,
pp, cal, nvm, pwr, evt, ports, mem, tamper, life, disp, upd, isl, ans. -/
theorem execWrite_only {a1 : _} {a2 : _} {a3 : _} {a4 : _} : Gives 4294705147 s (execWrite a1 a2 a3 a4 s) := by
  refine ⟨_, rfl, ?_⟩
  repeat' (first
    | (with_reducible exact Only.refl _ _)
    | (with_reducible refine State.lcFinish_only ?_ ?_)
    | (with_reducible refine State.lcWrite_only ?_ ?_)
    | (with_reducible refine State.writeBy_only ?_ ?_)
    | (with_reducible refine State.writeReq_only ?_ (fun _ _ _ => ?_) ?_)
    | (with_reducible refine State.request_only ?_ (fun _ => ?_) ?_)
    | (with_reducible refine only_ite (fun _ => ?_) (fun _ => ?_))
    | (with_reducible refine only_foldl ?_ (fun _ _ => ?_))
    | decide
    | (dsimp only)
    | split)

/-- At most: dict, spares, chans, tracks, groups, accts, acc, bal, pp, cal, nvm, evt, ports, ans. -/
theorem execReadShadow_only {a1 : _} {a2 : _} {a3 : _} : Gives 2176518937 s (execReadShadow a1 a2 a3 s) := by
  refine ⟨_, rfl, ?_⟩
  repeat' (first
    | (with_reducible exact Only.refl _ _)
    | (with_reducible refine State.doRead_only ?_ ?_)
    | (with_reducible refine State.request_only ?_ (fun _ => ?_) ?_)
    | (with_reducible refine only_ite (fun _ => ?_) (fun _ => ?_))
    | (with_reducible refine only_foldl ?_ (fun _ _ => ?_))
    | decide
    | (dsimp only)
    | split)

/-- At most: dict, spares, chans, tracks, groups, accts, acc, bal, pp, cal, nvm, evt, ports, ans. -/
theorem execGetResponse_only {a1 : _} : Gives 2176518937 s (execGetResponse a1 s) := by
  refine ⟨_, rfl, ?_⟩
  repeat' (first
    | (with_reducible exact Only.refl _ _)
    | (with_reducible refine State.inline_only ?_ (fun _ => ?_) ?_)
    | (with_reducible refine State.getResponse_only ?_ ?_)
    | (with_reducible refine only_ite (fun _ => ?_) (fun _ => ?_))
    | (with_reducible refine only_foldl ?_ (fun _ _ => ?_))
    | decide
    | (dsimp only)
    | split)

/-- At most: evt, ans. -/
theorem execRingRead_only {a1 : _} {a2 : _} {a3 : _} : Gives 2155872256 s (execRingRead a1 a2 a3 s) := by
  refine ⟨_, rfl, ?_⟩
  repeat' (first
    | (with_reducible exact Only.refl _ _)
    | (with_reducible refine State.inline_only ?_ (fun _ => ?_) ?_)
    | (with_reducible refine State.ringRead_only ?_ ?_)
    | (with_reducible refine only_ite (fun _ => ?_) (fun _ => ?_))
    | (with_reducible refine only_foldl ?_ (fun _ _ => ?_))
    | decide
    | (dsimp only)
    | split)

/-- At most: evt, ans. -/
theorem execRingAck_only {a1 : _} {a2 : _} {a3 : _} : Gives 2155872256 s (execRingAck a1 a2 a3 s) := by
  refine ⟨_, rfl, ?_⟩
  repeat' (first
    | (with_reducible exact Only.refl _ _)
    | (with_reducible refine State.ringAck_only ?_ ?_)
    | (with_reducible refine State.inline_only ?_ (fun _ => ?_) ?_)
    | (with_reducible refine only_ite (fun _ => ?_) (fun _ => ?_))
    | (with_reducible refine only_foldl ?_ (fun _ _ => ?_))
    | decide
    | (dsimp only)
    | split)

/-- At most: evt, ports, mem, ans. -/
theorem execBulkSet_only {a1 : _} {a2 : _} : Gives 2206203904 s (execBulkSet a1 a2 s) := by
  refine ⟨_, rfl, ?_⟩
  repeat' (first
    | (with_reducible exact Only.refl _ _)
    | (with_reducible refine State.inline_only ?_ (fun _ => ?_) ?_)
    | (with_reducible refine State.bulkSet_only ?_ ?_)
    | (with_reducible refine only_ite (fun _ => ?_) (fun _ => ?_))
    | (with_reducible refine only_foldl ?_ (fun _ _ => ?_))
    | decide
    | (dsimp only)
    | split)

/-- At most: evt, ports, ans. -/
theorem execBulkRead_only {a1 : _} : Gives 2172649472 s (execBulkRead a1 s) := by
  refine ⟨_, rfl, ?_⟩
  repeat' (first
    | (with_reducible exact Only.refl _ _)
    | (with_reducible refine State.bulkRead_only ?_ ?_)
    | (with_reducible refine State.inline_only ?_ (fun _ => ?_) ?_)
    | (with_reducible refine only_ite (fun _ => ?_) (fun _ => ?_))
    | (with_reducible refine only_foldl ?_ (fun _ _ => ?_))
    | decide
    | (dsimp only)
    | split)

/-- At most: ports. -/
theorem execBulkBufferFill_only {a1 : _} : Gives 16777216 s (execBulkBufferFill a1 s) := by
  refine ⟨_, rfl, ?_⟩
  repeat' (first
    | (with_reducible exact Only.refl _ _)
    | (with_reducible refine State.bulkFill_only ?_ ?_)
    | (with_reducible refine only_ite (fun _ => ?_) (fun _ => ?_))
    | (with_reducible refine only_foldl ?_ (fun _ _ => ?_))
    | decide
    | (dsimp only)
    | split)

/-- At most: dict, spares, chans, tracks, groups, accts, acc, bal, pp, cal, nvm, evt, ports. -/
theorem execResponseExpiry_only {a1 : _} : Gives 29035289 s (execResponseExpiry a1 s) := by
  unfold execResponseExpiry
  repeat' (first
    | (with_reducible refine Gives.ite ?_ ?_)
    | (with_reducible refine Gives.next ?_)
    | (with_reducible exact Only.refl _ _)
    | (with_reducible refine State.setRing_only ?_ ?_)
    | (with_reducible refine State.portShadows_only ?_ ?_)
    | (with_reducible refine only_ite (fun _ => ?_) (fun _ => ?_))
    | (with_reducible refine only_foldl ?_ (fun _ _ => ?_))
    | decide
    | (dsimp only)
    | split)

/-- At most: dict, spares, chans, tracks, groups, accts, acc, bal, pp, cal, nvm, evt, ports, mem, ans. -/
theorem execGfpCommand_only {a1 : _} {a2 : _} : Gives 2210073369 s (execGfpCommand a1 a2 s) := by
  refine ⟨_, rfl, ?_⟩
  repeat' (first
    | (with_reducible exact Only.refl _ _)
    | (with_reducible refine State.gfp_only ?_ (fun _ _ _ => ?_) ?_)
    | (with_reducible refine State.gfpCommand_only ?_ ?_)
    | (with_reducible refine only_ite (fun _ => ?_) (fun _ => ?_))
    | (with_reducible refine only_foldl ?_ (fun _ _ => ?_))
    | decide
    | (dsimp only)
    | split)

/-- At most: dict, spares, chans, tracks, groups, accts, acc, bal, pp, cal, nvm, evt, ports. -/
theorem execPoll_only {a1 : _} {a2 : _} : Gives 29035289 s (execPoll a1 a2 s) := by
  refine ⟨_, rfl, ?_⟩
  repeat' (first
    | (with_reducible exact Only.refl _ _)
    | (with_reducible refine State.gfp_only ?_ (fun _ _ _ => ?_) ?_)
    | (with_reducible refine State.gfpPoll_only ?_ ?_)
    | (with_reducible refine only_ite (fun _ => ?_) (fun _ => ?_))
    | (with_reducible refine only_foldl ?_ (fun _ _ => ?_))
    | decide
    | (dsimp only)
    | split)

/-- At most: clock, pp, evt, ports, tamper. -/
theorem execTimeSync_only {a1 : _} {a2 : _} {a3 : _} {a4 : _} : Gives 92798978 s (execTimeSync a1 a2 a3 a4 s) := by
  refine ⟨_, rfl, ?_⟩
  repeat' (first
    | (with_reducible exact Only.refl _ _)
    | (with_reducible refine State.gfp_only ?_ (fun _ _ _ => ?_) ?_)
    | (with_reducible refine State.syncBy_only ?_ ?_)
    | (with_reducible refine State.setPorts_only ?_ ?_)
    | (with_reducible refine only_ite (fun _ => ?_) (fun _ => ?_))
    | (with_reducible refine only_foldl ?_ (fun _ _ => ?_))
    | decide
    | (dsimp only)
    | split)

/-- At most: ports. -/
theorem execReplyDeadline_only {a1 : _} : Gives 16777216 s (execReplyDeadline a1 s) := by
  unfold execReplyDeadline
  repeat' (first
    | (with_reducible refine Gives.ite ?_ ?_)
    | (with_reducible refine Gives.next ?_)
    | (with_reducible exact Only.refl _ _)
    | (with_reducible refine State.setPort_only ?_ ?_)
    | (with_reducible refine only_ite (fun _ => ?_) (fun _ => ?_))
    | (with_reducible refine only_foldl ?_ (fun _ _ => ?_))
    | decide
    | (dsimp only)
    | split)

/-- At most: evt, ports, disp. -/
theorem execI2cRound_only {a1 : _} {a2 : _} : Gives 293601280 s (execI2cRound a1 a2 s) := by
  unfold execI2cRound
  repeat' (first
    | (with_reducible refine Gives.ite ?_ ?_)
    | (with_reducible refine Gives.next ?_)
    | (with_reducible exact Only.refl _ _)
    | (with_reducible refine State.dispTempNew_only ?_ ?_)
    | (with_reducible refine State.setPorts_only ?_ ?_)
    | (with_reducible refine State.i2cTake_only ?_ ?_)
    | (with_reducible refine only_ite (fun _ => ?_) (fun _ => ?_))
    | (with_reducible refine only_foldl ?_ (fun _ _ => ?_))
    | decide
    | (dsimp only)
    | split)

/-- At most: ports. -/
theorem execExtest_only : Gives 16777216 s (execExtest s) := by
  refine ⟨_, rfl, ?_⟩
  repeat' (first
    | (with_reducible exact Only.refl _ _)
    | (with_reducible refine State.tapSelect_only ?_ ?_)
    | (with_reducible refine only_ite (fun _ => ?_) (fun _ => ?_))
    | (with_reducible refine only_foldl ?_ (fun _ _ => ?_))
    | decide
    | (dsimp only)
    | split)

/-- At most: ports. -/
theorem execSamplePreload_only : Gives 16777216 s (execSamplePreload s) := by
  refine ⟨_, rfl, ?_⟩
  repeat' (first
    | (with_reducible exact Only.refl _ _)
    | (with_reducible refine State.tapSelect_only ?_ ?_)
    | (with_reducible refine only_ite (fun _ => ?_) (fun _ => ?_))
    | (with_reducible refine only_foldl ?_ (fun _ _ => ?_))
    | decide
    | (dsimp only)
    | split)

/-- At most: ports. -/
theorem execIdcode_only : Gives 16777216 s (execIdcode s) := by
  refine ⟨_, rfl, ?_⟩
  repeat' (first
    | (with_reducible exact Only.refl _ _)
    | (with_reducible refine State.tapSelect_only ?_ ?_)
    | (with_reducible refine only_ite (fun _ => ?_) (fun _ => ?_))
    | (with_reducible refine only_foldl ?_ (fun _ _ => ?_))
    | decide
    | (dsimp only)
    | split)

/-- At most: ports. -/
theorem execClamp_only : Gives 16777216 s (execClamp s) := by
  refine ⟨_, rfl, ?_⟩
  repeat' (first
    | (with_reducible exact Only.refl _ _)
    | (with_reducible refine State.tapSelect_only ?_ ?_)
    | (with_reducible refine only_ite (fun _ => ?_) (fun _ => ?_))
    | (with_reducible refine only_foldl ?_ (fun _ _ => ?_))
    | decide
    | (dsimp only)
    | split)

/-- At most: ports. -/
theorem execHighz_only : Gives 16777216 s (execHighz s) := by
  refine ⟨_, rfl, ?_⟩
  repeat' (first
    | (with_reducible exact Only.refl _ _)
    | (with_reducible refine State.tapSelect_only ?_ ?_)
    | (with_reducible refine only_ite (fun _ => ?_) (fun _ => ?_))
    | (with_reducible refine only_foldl ?_ (fun _ _ => ?_))
    | decide
    | (dsimp only)
    | split)

/-- At most: ports. -/
theorem execBypass_only {a1 : _} : Gives 16777216 s (execBypass a1 s) := by
  refine ⟨_, rfl, ?_⟩
  repeat' (first
    | (with_reducible exact Only.refl _ _)
    | (with_reducible refine State.tapSelect_only ?_ ?_)
    | (with_reducible refine only_ite (fun _ => ?_) (fun _ => ?_))
    | (with_reducible refine only_foldl ?_ (fun _ _ => ?_))
    | decide
    | (dsimp only)
    | split)

/-- At most: evt, ports, mem. -/
theorem execDbgMem_only {a1 : _} : Gives 58720256 s (execDbgMem a1 s) := by
  unfold execDbgMem
  repeat' (first
    | (with_reducible refine Gives.ite ?_ ?_)
    | (with_reducible refine Gives.next ?_)
    | (with_reducible exact Only.refl _ _)
    | (with_reducible refine State.dbgRead_only ?_ ?_)
    | (with_reducible refine State.tapSelect_only ?_ ?_)
    | (with_reducible refine only_ite (fun _ => ?_) (fun _ => ?_))
    | (with_reducible refine only_foldl ?_ (fun _ _ => ?_))
    | decide
    | (dsimp only)
    | split)

/-- At most: ports. -/
theorem execTapReset_only : Gives 16777216 s (execTapReset s) := by
  refine ⟨_, rfl, ?_⟩
  repeat' (first
    | (with_reducible exact Only.refl _ _)
    | (with_reducible refine State.tapSelect_only ?_ ?_)
    | (with_reducible refine only_ite (fun _ => ?_) (fun _ => ?_))
    | (with_reducible refine only_foldl ?_ (fun _ _ => ?_))
    | decide
    | (dsimp only)
    | split)

/-- At most: dict, spares, chans, tracks, groups, accts, acc, bal, pp, cal, nvm, evt, ports, ans. -/
theorem execEventPendingClear_only {a1 : _} {a2 : _} : Gives 2176518937 s (execEventPendingClear a1 a2 s) := by
  refine ⟨_, rfl, ?_⟩
  repeat' (first
    | (with_reducible exact Only.refl _ _)
    | (with_reducible refine State.wPending_only ?_ ?_)
    | (with_reducible refine State.writeReq_only ?_ (fun _ _ _ => ?_) ?_)
    | (with_reducible refine only_ite (fun _ => ?_) (fun _ => ?_))
    | (with_reducible refine only_foldl ?_ (fun _ _ => ?_))
    | decide
    | (dsimp only)
    | split)

/-- At most: dict, spares, chans, tracks, groups, eng, accts, acc, bal, pp, cal, nvm, evt, ports, ans. -/
theorem execRingConsumers_only {a1 : _} {a2 : _} : Gives 2176519961 s (execRingConsumers a1 a2 s) := by
  refine ⟨_, rfl, ?_⟩
  repeat' (first
    | (with_reducible exact Only.refl _ _)
    | (with_reducible refine State.writeReq_only ?_ (fun _ _ _ => ?_) ?_)
    | (with_reducible refine State.wConsumers_only ?_ ?_)
    | (with_reducible refine only_ite (fun _ => ?_) (fun _ => ?_))
    | (with_reducible refine only_foldl ?_ (fun _ _ => ?_))
    | decide
    | (dsimp only)
    | split)

/-- At most: dict, spares, chans, tracks, groups, accts, acc, bal, pp, cal, nvm, evt, ports, disp, ans. -/
theorem execUpdate_only {a1 : _} : Gives 2444954393 s (execUpdate a1 s) := by
  refine ⟨_, rfl, ?_⟩
  repeat' (first
    | (with_reducible exact Only.refl _ _)
    | (with_reducible refine State.wDisp_only ?_ ?_)
    | (with_reducible refine State.writeReq_only ?_ (fun _ _ _ => ?_) ?_)
    | (with_reducible refine only_ite (fun _ => ?_) (fun _ => ?_))
    | (with_reducible refine only_foldl ?_ (fun _ _ => ?_))
    | decide
    | (dsimp only)
    | split)

/-- At most: dict, spares, chans, tracks, groups, accts, acc, bal, pp, cal, nvm, evt, ports, disp, ans. -/
theorem execClear_only {a1 : _} : Gives 2444954393 s (execClear a1 s) := by
  refine ⟨_, rfl, ?_⟩
  repeat' (first
    | (with_reducible exact Only.refl _ _)
    | (with_reducible refine State.wDisp_only ?_ ?_)
    | (with_reducible refine State.writeReq_only ?_ (fun _ _ _ => ?_) ?_)
    | (with_reducible refine only_ite (fun _ => ?_) (fun _ => ?_))
    | (with_reducible refine only_foldl ?_ (fun _ _ => ?_))
    | decide
    | (dsimp only)
    | split)

/-- At most: dict, spares, chans, tracks, groups, accts, acc, bal, pp, cal, nvm, evt, ports, disp, ans. -/
theorem execPowerOff_only {a1 : _} : Gives 2444954393 s (execPowerOff a1 s) := by
  refine ⟨_, rfl, ?_⟩
  repeat' (first
    | (with_reducible exact Only.refl _ _)
    | (with_reducible refine State.wDisp_only ?_ ?_)
    | (with_reducible refine State.writeReq_only ?_ (fun _ _ _ => ?_) ?_)
    | (with_reducible refine only_ite (fun _ => ?_) (fun _ => ?_))
    | (with_reducible refine only_foldl ?_ (fun _ _ => ?_))
    | decide
    | (dsimp only)
    | split)

/-- At most: dict, spares, chans, tracks, groups, accts, acc, bal, pp, cal, nvm, evt, ports, disp, ans. -/
theorem execDispImage_only {a1 : _} {a2 : _} : Gives 2444954393 s (execDispImage a1 a2 s) := by
  refine ⟨_, rfl, ?_⟩
  repeat' (first
    | (with_reducible exact Only.refl _ _)
    | (with_reducible refine State.writeReq_only ?_ (fun _ _ _ => ?_) ?_)
    | (with_reducible refine State.wImage_only ?_ ?_)
    | (with_reducible refine only_ite (fun _ => ?_) (fun _ => ?_))
    | (with_reducible refine only_foldl ?_ (fun _ _ => ?_))
    | decide
    | (dsimp only)
    | split)

/-- At most: disp. -/
theorem execPumpGood_only : Gives 268435456 s (execPumpGood s) := by
  refine ⟨_, rfl, ?_⟩
  repeat' (first
    | (with_reducible exact Only.refl _ _)
    | (with_reducible refine State.setDisp_only ?_ ?_)
    | (with_reducible refine State.firstFrame_only ?_ ?_)
    | (with_reducible refine only_ite (fun _ => ?_) (fun _ => ?_))
    | (with_reducible refine only_foldl ?_ (fun _ _ => ?_))
    | decide
    | (dsimp only)
    | split)

/-- At most: evt, disp. -/
theorem execPumpFail_only : Gives 276824064 s (execPumpFail s) := by
  refine ⟨_, rfl, ?_⟩
  repeat' (first
    | (with_reducible exact Only.refl _ _)
    | (with_reducible refine State.ev55_only ?_ ?_)
    | (with_reducible refine State.setDisp_only ?_ ?_)
    | (with_reducible refine only_ite (fun _ => ?_) (fun _ => ?_))
    | (with_reducible refine only_foldl ?_ (fun _ _ => ?_))
    | decide
    | (dsimp only)
    | split)

/-- At most: dict, spares, chans, tracks, groups, accts, acc, bal, pp, cal, nvm, evt, disp. -/
theorem execDisplayFrameEnd_only : Gives 280693529 s (execDisplayFrameEnd s) := by
  refine ⟨_, rfl, ?_⟩
  repeat' (first
    | (with_reducible exact Only.refl _ _)
    | (with_reducible refine State.nextBal_only ?_ ?_)
    | (with_reducible refine State.nextWave_only ?_ ?_)
    | (with_reducible refine State.frameShadows_only ?_ ?_)
    | (with_reducible refine only_ite (fun _ => ?_) (fun _ => ?_))
    | (with_reducible refine only_foldl ?_ (fun _ _ => ?_))
    | decide
    | (dsimp only)
    | split)

/-- At most: disp. -/
theorem execPumpHoldExpiry_only : Gives 268435456 s (execPumpHoldExpiry s) := by
  refine ⟨_, rfl, ?_⟩
  repeat' (first
    | (with_reducible exact Only.refl _ _)
    | (with_reducible refine State.setDisp_only ?_ ?_)
    | (with_reducible refine only_ite (fun _ => ?_) (fun _ => ?_))
    | (with_reducible refine only_foldl ?_ (fun _ _ => ?_))
    | decide
    | (dsimp only)
    | split)

/-- At most: evt, disp. -/
theorem execBalDelayExpiry_only : Gives 276824064 s (execBalDelayExpiry s) := by
  refine ⟨_, rfl, ?_⟩
  repeat' (first
    | (with_reducible exact Only.refl _ _)
    | (with_reducible refine State.dispStart_only ?_ ?_)
    | (with_reducible refine only_ite (fun _ => ?_) (fun _ => ?_))
    | (with_reducible refine only_foldl ?_ (fun _ _ => ?_))
    | decide
    | (dsimp only)
    | split)

/-- At most: evt, disp. -/
theorem execClearingStart_only : Gives 276824064 s (execClearingStart s) := by
  refine ⟨_, rfl, ?_⟩
  repeat' (first
    | (with_reducible exact Only.refl _ _)
    | (with_reducible refine State.dispStart_only ?_ ?_)
    | (with_reducible refine only_ite (fun _ => ?_) (fun _ => ?_))
    | (with_reducible refine only_foldl ?_ (fun _ _ => ?_))
    | decide
    | (dsimp only)
    | split)

/-- At most: disp. -/
theorem execSelvedgeTransition_only {a1 : _} : Gives 268435456 s (execSelvedgeTransition a1 s) := by
  unfold execSelvedgeTransition
  repeat' (first
    | (with_reducible refine Gives.ite ?_ ?_)
    | (with_reducible refine Gives.next ?_)
    | (with_reducible exact Only.refl _ _)
    | (with_reducible refine State.selvStart_only ?_ ?_)
    | (with_reducible refine only_ite (fun _ => ?_) (fun _ => ?_))
    | (with_reducible refine only_foldl ?_ (fun _ _ => ?_))
    | decide
    | (dsimp only)
    | split)

/-- At most: dict, spares, chans, tracks, groups, accts, acc, bal, pp, cal, nvm, evt, ports, disp, ans. -/
theorem execOutageMarkClear_only {a1 : _} {a2 : _} : Gives 2444954393 s (execOutageMarkClear a1 a2 s) := by
  refine ⟨_, rfl, ?_⟩
  repeat' (first
    | (with_reducible exact Only.refl _ _)
    | (with_reducible refine State.wOutage_only ?_ ?_)
    | (with_reducible refine State.writeReq_only ?_ (fun _ _ _ => ?_) ?_)
    | (with_reducible refine only_ite (fun _ => ?_) (fun _ => ?_))
    | (with_reducible refine only_foldl ?_ (fun _ _ => ?_))
    | decide
    | (dsimp only)
    | split)

/-- At most: dict, spares, chans, tracks, groups, eng, accts, acc, bal, pp, cal, nvm, evt, ports, disp, ans. -/
theorem execSelvedgeStatus_only {a1 : _} {a2 : _} : Gives 2444955417 s (execSelvedgeStatus a1 a2 s) := by
  refine ⟨_, rfl, ?_⟩
  repeat' (first
    | (with_reducible exact Only.refl _ _)
    | (with_reducible refine State.writeReq_only ?_ (fun _ _ _ => ?_) ?_)
    | (with_reducible refine State.wSelvedge_only ?_ ?_)
    | (with_reducible refine only_ite (fun _ => ?_) (fun _ => ?_))
    | (with_reducible refine only_foldl ?_ (fun _ _ => ?_))
    | decide
    | (dsimp only)
    | split)

/-- At most: dict, spares, chans, hk, tracks, groups, accts, acc, bal, pp, cal, nvm, evt, ports, upd, isl, ans. -/
theorem execBegin_only {a1 : _} : Gives 3787131705 s (execBegin a1 s) := by
  refine ⟨_, rfl, ?_⟩
  repeat' (first
    | (with_reducible exact Only.refl _ _)
    | (with_reducible refine State.writeReq_only ?_ (fun _ _ _ => ?_) ?_)
    | (with_reducible refine State.wUpd_only ?_ ?_)
    | (with_reducible refine only_ite (fun _ => ?_) (fun _ => ?_))
    | (with_reducible refine only_foldl ?_ (fun _ _ => ?_))
    | decide
    | (dsimp only)
    | split)

/-- At most: dict, spares, chans, tracks, groups, accts, acc, bal, pp, cal, nvm, evt, ports, upd, ans. -/
theorem execUpdChunk_only {a1 : _} {a2 : _} : Gives 2713389849 s (execUpdChunk a1 a2 s) := by
  refine ⟨_, rfl, ?_⟩
  repeat' (first
    | (with_reducible exact Only.refl _ _)
    | (with_reducible refine State.wChunk_only ?_ ?_)
    | (with_reducible refine State.writeReq_only ?_ (fun _ _ _ => ?_) ?_)
    | (with_reducible refine only_ite (fun _ => ?_) (fun _ => ?_))
    | (with_reducible refine only_foldl ?_ (fun _ _ => ?_))
    | decide
    | (dsimp only)
    | split)

/-- At most: dict, spares, chans, hk, tracks, groups, accts, acc, bal, pp, cal, nvm, evt, ports, upd, isl, ans. -/
theorem execVerify_only {a1 : _} : Gives 3787131705 s (execVerify a1 s) := by
  refine ⟨_, rfl, ?_⟩
  repeat' (first
    | (with_reducible exact Only.refl _ _)
    | (with_reducible refine State.writeReq_only ?_ (fun _ _ _ => ?_) ?_)
    | (with_reducible refine State.wUpd_only ?_ ?_)
    | (with_reducible refine only_ite (fun _ => ?_) (fun _ => ?_))
    | (with_reducible refine only_foldl ?_ (fun _ _ => ?_))
    | decide
    | (dsimp only)
    | split)

/-- At most: evt, upd. -/
theorem execImageVerifyDone_only {a1 : _} : Gives 545259520 s (execImageVerifyDone a1 s) := by
  unfold execImageVerifyDone
  repeat' (first
    | (with_reducible refine Gives.ite ?_ ?_)
    | (with_reducible refine Gives.next ?_)
    | (with_reducible exact Only.refl _ _)
    | (with_reducible refine State.raise_only ?_ ?_)
    | (with_reducible refine State.setUpd_only ?_ ?_)
    | (with_reducible refine only_ite (fun _ => ?_) (fun _ => ?_))
    | (with_reducible refine only_foldl ?_ (fun _ _ => ?_))
    | decide
    | (dsimp only)
    | split)

/-- At most: dict, spares, chans, hk, tracks, groups, accts, acc, bal, pp, cal, nvm, evt, ports, upd, isl, ans. -/
theorem execArm_only {a1 : _} : Gives 3787131705 s (execArm a1 s) := by
  refine ⟨_, rfl, ?_⟩
  repeat' (first
    | (with_reducible exact Only.refl _ _)
    | (with_reducible refine State.writeReq_only ?_ (fun _ _ _ => ?_) ?_)
    | (with_reducible refine State.wUpd_only ?_ ?_)
    | (with_reducible refine only_ite (fun _ => ?_) (fun _ => ?_))
    | (with_reducible refine only_foldl ?_ (fun _ _ => ?_))
    | decide
    | (dsimp only)
    | split)

/-- At most: dict, spares, chans, hk, tracks, groups, accts, acc, bal, pp, cal, nvm, evt, ports, upd, isl, ans. -/
theorem execActivateNow_only {a1 : _} : Gives 3787131705 s (execActivateNow a1 s) := by
  refine ⟨_, rfl, ?_⟩
  repeat' (first
    | (with_reducible exact Only.refl _ _)
    | (with_reducible refine State.writeReq_only ?_ (fun _ _ _ => ?_) ?_)
    | (with_reducible refine State.wUpd_only ?_ ?_)
    | (with_reducible refine only_ite (fun _ => ?_) (fun _ => ?_))
    | (with_reducible refine only_foldl ?_ (fun _ _ => ?_))
    | decide
    | (dsimp only)
    | split)

/-- At most: dict, spares, chans, hk, tracks, groups, accts, acc, bal, pp, cal, nvm, evt, ports, upd, isl, ans. -/
theorem execDisarm_only {a1 : _} : Gives 3787131705 s (execDisarm a1 s) := by
  refine ⟨_, rfl, ?_⟩
  repeat' (first
    | (with_reducible exact Only.refl _ _)
    | (with_reducible refine State.writeReq_only ?_ (fun _ _ _ => ?_) ?_)
    | (with_reducible refine State.wUpd_only ?_ ?_)
    | (with_reducible refine only_ite (fun _ => ?_) (fun _ => ?_))
    | (with_reducible refine only_foldl ?_ (fun _ _ => ?_))
    | decide
    | (dsimp only)
    | split)

/-- At most: dict, spares, chans, hk, tracks, groups, accts, acc, bal, pp, cal, nvm, evt, ports, upd, isl, ans. -/
theorem execAbort_only {a1 : _} : Gives 3787131705 s (execAbort a1 s) := by
  refine ⟨_, rfl, ?_⟩
  repeat' (first
    | (with_reducible exact Only.refl _ _)
    | (with_reducible refine State.writeReq_only ?_ (fun _ _ _ => ?_) ?_)
    | (with_reducible refine State.wUpd_only ?_ ?_)
    | (with_reducible refine only_ite (fun _ => ?_) (fun _ => ?_))
    | (with_reducible refine only_foldl ?_ (fun _ _ => ?_))
    | decide
    | (dsimp only)
    | split)

/-- At most: dict, spares, chans, hk, tracks, groups, accts, acc, bal, pp, cal, nvm, evt, ports, upd, isl, ans. -/
theorem execRearm_only {a1 : _} : Gives 3787131705 s (execRearm a1 s) := by
  refine ⟨_, rfl, ?_⟩
  repeat' (first
    | (with_reducible exact Only.refl _ _)
    | (with_reducible refine State.writeReq_only ?_ (fun _ _ _ => ?_) ?_)
    | (with_reducible refine State.wUpd_only ?_ ?_)
    | (with_reducible refine only_ite (fun _ => ?_) (fun _ => ?_))
    | (with_reducible refine only_foldl ?_ (fun _ _ => ?_))
    | decide
    | (dsimp only)
    | split)

/-- At most: dict, spares, chans, hk, tracks, groups, accts, acc, bal, pp, cal, nvm, evt, ports, upd, isl, ans. -/
theorem execFallback_only {a1 : _} : Gives 3787131705 s (execFallback a1 s) := by
  refine ⟨_, rfl, ?_⟩
  repeat' (first
    | (with_reducible exact Only.refl _ _)
    | (with_reducible refine State.writeReq_only ?_ (fun _ _ _ => ?_) ?_)
    | (with_reducible refine State.wUpd_only ?_ ?_)
    | (with_reducible refine only_ite (fun _ => ?_) (fun _ => ?_))
    | (with_reducible refine only_foldl ?_ (fun _ _ => ?_))
    | decide
    | (dsimp only)
    | split)

/-- At most: dict, spares, chans, tracks, groups, accts, acc, bal, pp, cal, nvm, evt, ports, upd, ans. -/
theorem execUpdConfirm_only {a1 : _} {a2 : _} : Gives 2713389849 s (execUpdConfirm a1 a2 s) := by
  refine ⟨_, rfl, ?_⟩
  repeat' (first
    | (with_reducible exact Only.refl _ _)
    | (with_reducible refine State.wConfirm_only ?_ ?_)
    | (with_reducible refine State.writeReq_only ?_ (fun _ _ _ => ?_) ?_)
    | (with_reducible refine only_ite (fun _ => ?_) (fun _ => ?_))
    | (with_reducible refine only_foldl ?_ (fun _ _ => ?_))
    | decide
    | (dsimp only)
    | split)

/-- At most: dict, spares, chans, hk, cal, nvm, evt, upd, isl. -/
theorem execActivation_only : Gives 1622147129 s (execActivation s) := by
  refine ⟨_, rfl, ?_⟩
  repeat' (first
    | (with_reducible exact Only.refl _ _)
    | (with_reducible refine State.activateImage_only ?_ ?_)
    | (with_reducible refine only_ite (fun _ => ?_) (fun _ => ?_))
    | (with_reducible refine only_foldl ?_ (fun _ _ => ?_))
    | decide
    | (dsimp only)
    | split)

/-- At most: dict, clock, groups, eng, accts, bal, cal, nvm, pwr, evt, life, disp, upd. -/
theorem execPatternSwitch_only {a1 : _} : Gives 955387395 s (execPatternSwitch a1 s) := by
  unfold execPatternSwitch
  repeat' (first
    | (with_reducible refine Gives.ite ?_ ?_)
    | (with_reducible refine Gives.next ?_)
    | (with_reducible exact Only.refl _ _)
    | (with_reducible refine State.patternSwitch_only ?_ ?_)
    | (with_reducible refine State.after_only ?_ ?_)
    | (with_reducible refine only_ite (fun _ => ?_) (fun _ => ?_))
    | (with_reducible refine only_foldl ?_ (fun _ _ => ?_))
    | decide
    | (dsimp only)
    | split)

/-- At most: dict, spares, chans, hk, groups, cal, nvm, evt, upd, isl. -/
theorem execHealthDeadline_only : Gives 1622147641 s (execHealthDeadline s) := by
  refine ⟨_, rfl, ?_⟩
  repeat' (first
    | (with_reducible exact Only.refl _ _)
    | (with_reducible refine State.trialFails_only ?_ ?_)
    | (with_reducible refine only_ite (fun _ => ?_) (fun _ => ?_))
    | (with_reducible refine only_foldl ?_ (fun _ _ => ?_))
    | decide
    | (dsimp only)
    | split)

/-- At most: dict, spares, chans, tracks, groups, eng, accts, acc, bal, pp, cal, nvm, evt, ports, ans. -/
theorem execHoldStart_only {a1 : _} : Gives 2176519961 s (execHoldStart a1 s) := by
  refine ⟨_, rfl, ?_⟩
  repeat' (first
    | (with_reducible exact Only.refl _ _)
    | (with_reducible refine State.writeHold_only ?_ ?_)
    | (with_reducible refine State.writeReq_only ?_ (fun _ _ _ => ?_) ?_)
    | (with_reducible refine only_ite (fun _ => ?_) (fun _ => ?_))
    | (with_reducible refine only_foldl ?_ (fun _ _ => ?_))
    | decide
    | (dsimp only)
    | split)

/-- At most: dict, spares, chans, tracks, groups, eng, accts, acc, bal, pp, cal, nvm, evt, ports, ans. -/
theorem execHoldRelease_only {a1 : _} : Gives 2176519961 s (execHoldRelease a1 s) := by
  refine ⟨_, rfl, ?_⟩
  repeat' (first
    | (with_reducible exact Only.refl _ _)
    | (with_reducible refine State.writeHold_only ?_ ?_)
    | (with_reducible refine State.writeReq_only ?_ (fun _ _ _ => ?_) ?_)
    | (with_reducible refine only_ite (fun _ => ?_) (fun _ => ?_))
    | (with_reducible refine only_foldl ?_ (fun _ _ => ?_))
    | decide
    | (dsimp only)
    | split)

/-- At most: dict. -/
theorem execHoldTimeout_only : Gives 1 s (execHoldTimeout s) := by
  refine ⟨_, rfl, ?_⟩
  repeat' (first
    | (with_reducible exact Only.refl _ _)
    | (with_reducible refine State.holdDrop_only ?_ ?_)
    | (with_reducible refine only_ite (fun _ => ?_) (fun _ => ?_))
    | (with_reducible refine only_foldl ?_ (fun _ _ => ?_))
    | decide
    | (dsimp only)
    | split)

/-- At most: dict, clock, spares, chans, tracks, groups, accts, acc, bal, pp, cal, nvm, evt, ports, tamper, ans. -/
theorem execTimeNow_only {a1 : _} {a2 : _} : Gives 2243627803 s (execTimeNow a1 a2 s) := by
  refine ⟨_, rfl, ?_⟩
  repeat' (first
    | (with_reducible exact Only.refl _ _)
    | (with_reducible refine State.answer_only ?_ ?_)
    | (with_reducible refine State.writeReq_only ?_ (fun _ _ _ => ?_) ?_)
    | (with_reducible refine State.setTime_only ?_ ?_)
    | (with_reducible refine only_ite (fun _ => ?_) (fun _ => ?_))
    | (with_reducible refine only_foldl ?_ (fun _ _ => ?_))
    | decide
    | (dsimp only)
    | split)

/-- At most: clock, accts, chres, pq, acc, bal, pp, nvm, evt, mem, tamper, disp. -/
theorem execRtcSecondTick_only : Gives 380319746 s (execRtcSecondTick s) := by
  unfold execRtcSecondTick
  repeat' (first
    | (with_reducible refine Gives.ite ?_ ?_)
    | (with_reducible refine Gives.next ?_)
    | (with_reducible exact Only.refl _ _)
    | (with_reducible refine State.demandForce_only ?_ ?_)
    | (with_reducible refine State.balForce_only ?_ ?_)
    | (with_reducible refine State.profForce_only ?_ ?_)
    | (with_reducible refine State.aggForce_only ?_ ?_)
    | (with_reducible refine only_ite (fun _ => ?_) (fun _ => ?_))
    | (with_reducible refine only_foldl ?_ (fun _ _ => ?_))
    | decide
    | exact ⟨fun w => cellsSet_wf w _ _⟩ | exact ⟨fun w => w, fun _ p => List.mem_append_left _ p, fun _ => Nat.le_refl _⟩ | exact .of rfl rfl rfl | exact .of rfl rfl | exact .of rfl | exact Nat.le_refl _
    | (dsimp only)
    | ((with_reducible refine only_set_clock ?_ ?_ (by decide)); rotate_left; (first | exact ⟨fun w => cellsSet_wf w _ _⟩ | exact ⟨fun w => w, fun _ p => List.mem_append_left _ p, fun _ => Nat.le_refl _⟩ | exact .of rfl rfl rfl | exact .of rfl rfl | exact .of rfl | exact Nat.le_refl _); first | (with_reducible exact Only.refl _ _) | (with_reducible refine State.demandForce_only ?_ ?_) | (with_reducible refine State.balForce_only ?_ ?_) | (with_reducible refine State.profForce_only ?_ ?_) | (with_reducible refine State.aggForce_only ?_ ?_) | (with_reducible refine only_ite (fun _ => ?_) (fun _ => ?_)) | (with_reducible refine only_foldl ?_ (fun _ _ => ?_)))
    | ((with_reducible refine only_set_accts ?_ (by decide)); first | (with_reducible exact Only.refl _ _) | (with_reducible refine State.demandForce_only ?_ ?_) | (with_reducible refine State.balForce_only ?_ ?_) | (with_reducible refine State.profForce_only ?_ ?_) | (with_reducible refine State.aggForce_only ?_ ?_) | (with_reducible refine only_ite (fun _ => ?_) (fun _ => ?_)) | (with_reducible refine only_foldl ?_ (fun _ _ => ?_)))
    | ((with_reducible refine only_set_chres ?_ (by decide)); first | (with_reducible exact Only.refl _ _) | (with_reducible refine State.demandForce_only ?_ ?_) | (with_reducible refine State.balForce_only ?_ ?_) | (with_reducible refine State.profForce_only ?_ ?_) | (with_reducible refine State.aggForce_only ?_ ?_) | (with_reducible refine only_ite (fun _ => ?_) (fun _ => ?_)) | (with_reducible refine only_foldl ?_ (fun _ _ => ?_)))
    | ((with_reducible refine only_set_pq ?_ (by decide)); first | (with_reducible exact Only.refl _ _) | (with_reducible refine State.demandForce_only ?_ ?_) | (with_reducible refine State.balForce_only ?_ ?_) | (with_reducible refine State.profForce_only ?_ ?_) | (with_reducible refine State.aggForce_only ?_ ?_) | (with_reducible refine only_ite (fun _ => ?_) (fun _ => ?_)) | (with_reducible refine only_foldl ?_ (fun _ _ => ?_)))
    | ((with_reducible refine only_set_acc ?_ (by decide)); first | (with_reducible exact Only.refl _ _) | (with_reducible refine State.demandForce_only ?_ ?_) | (with_reducible refine State.balForce_only ?_ ?_) | (with_reducible refine State.profForce_only ?_ ?_) | (with_reducible refine State.aggForce_only ?_ ?_) | (with_reducible refine only_ite (fun _ => ?_) (fun _ => ?_)) | (with_reducible refine only_foldl ?_ (fun _ _ => ?_)))
    | ((with_reducible refine only_set_bal ?_ (by decide)); first | (with_reducible exact Only.refl _ _) | (with_reducible refine State.demandForce_only ?_ ?_) | (with_reducible refine State.balForce_only ?_ ?_) | (with_reducible refine State.profForce_only ?_ ?_) | (with_reducible refine State.aggForce_only ?_ ?_) | (with_reducible refine only_ite (fun _ => ?_) (fun _ => ?_)) | (with_reducible refine only_foldl ?_ (fun _ _ => ?_)))
    | ((with_reducible refine only_set_pp ?_ (by decide)); first | (with_reducible exact Only.refl _ _) | (with_reducible refine State.demandForce_only ?_ ?_) | (with_reducible refine State.balForce_only ?_ ?_) | (with_reducible refine State.profForce_only ?_ ?_) | (with_reducible refine State.aggForce_only ?_ ?_) | (with_reducible refine only_ite (fun _ => ?_) (fun _ => ?_)) | (with_reducible refine only_foldl ?_ (fun _ _ => ?_)))
    | ((with_reducible refine only_set_nvm ?_ ?_ (by decide)); rotate_left; (first | exact ⟨fun w => cellsSet_wf w _ _⟩ | exact ⟨fun w => w, fun _ p => List.mem_append_left _ p, fun _ => Nat.le_refl _⟩ | exact .of rfl rfl rfl | exact .of rfl rfl | exact .of rfl | exact Nat.le_refl _); first | (with_reducible exact Only.refl _ _) | (with_reducible refine State.demandForce_only ?_ ?_) | (with_reducible refine State.balForce_only ?_ ?_) | (with_reducible refine State.profForce_only ?_ ?_) | (with_reducible refine State.aggForce_only ?_ ?_) | (with_reducible refine only_ite (fun _ => ?_) (fun _ => ?_)) | (with_reducible refine only_foldl ?_ (fun _ _ => ?_)))
    | ((with_reducible refine only_set_evt ?_ (by decide)); first | (with_reducible exact Only.refl _ _) | (with_reducible refine State.demandForce_only ?_ ?_) | (with_reducible refine State.balForce_only ?_ ?_) | (with_reducible refine State.profForce_only ?_ ?_) | (with_reducible refine State.aggForce_only ?_ ?_) | (with_reducible refine only_ite (fun _ => ?_) (fun _ => ?_)) | (with_reducible refine only_foldl ?_ (fun _ _ => ?_)))
    | ((with_reducible refine only_set_mem ?_ ?_ (by decide)); rotate_left; (first | exact ⟨fun w => cellsSet_wf w _ _⟩ | exact ⟨fun w => w, fun _ p => List.mem_append_left _ p, fun _ => Nat.le_refl _⟩ | exact .of rfl rfl rfl | exact .of rfl rfl | exact .of rfl | exact Nat.le_refl _); first | (with_reducible exact Only.refl _ _) | (with_reducible refine State.demandForce_only ?_ ?_) | (with_reducible refine State.balForce_only ?_ ?_) | (with_reducible refine State.profForce_only ?_ ?_) | (with_reducible refine State.aggForce_only ?_ ?_) | (with_reducible refine only_ite (fun _ => ?_) (fun _ => ?_)) | (with_reducible refine only_foldl ?_ (fun _ _ => ?_)))
    | ((with_reducible refine only_set_tamper ?_ (by decide)); first | (with_reducible exact Only.refl _ _) | (with_reducible refine State.demandForce_only ?_ ?_) | (with_reducible refine State.balForce_only ?_ ?_) | (with_reducible refine State.profForce_only ?_ ?_) | (with_reducible refine State.aggForce_only ?_ ?_) | (with_reducible refine only_ite (fun _ => ?_) (fun _ => ?_)) | (with_reducible refine only_foldl ?_ (fun _ _ => ?_)))
    | ((with_reducible refine only_set_disp ?_ (by decide)); first | (with_reducible exact Only.refl _ _) | (with_reducible refine State.demandForce_only ?_ ?_) | (with_reducible refine State.balForce_only ?_ ?_) | (with_reducible refine State.profForce_only ?_ ?_) | (with_reducible refine State.aggForce_only ?_ ?_) | (with_reducible refine only_ite (fun _ => ?_) (fun _ => ?_)) | (with_reducible refine only_foldl ?_ (fun _ _ => ?_)))
    | split)

/-- At most: dict, spares, chans, tracks, groups, accts, acc, bal, pp, cal, nvm, evt, ports, ans. -/
theorem execSnapReq_only {a1 : _} {a2 : _} : Gives 2176518937 s (execSnapReq a1 a2 s) := by
  refine ⟨_, rfl, ?_⟩
  repeat' (first
    | (with_reducible exact Only.refl _ _)
    | (with_reducible refine State.wSnap_only ?_ ?_)
    | (with_reducible refine State.writeReq_only ?_ (fun _ _ _ => ?_) ?_)
    | (with_reducible refine only_ite (fun _ => ?_) (fun _ => ?_))
    | (with_reducible refine only_foldl ?_ (fun _ _ => ?_))
    | decide
    | (dsimp only)
    | split)

/-- At most: acc. -/
theorem execSnapshotTimeout_only {a1 : _} : Gives 65536 s (execSnapshotTimeout a1 s) := by
  unfold execSnapshotTimeout
  repeat' (first
    | (with_reducible refine Gives.ite ?_ ?_)
    | (with_reducible refine Gives.next ?_)
    | (with_reducible exact Only.refl _ _)
    | (with_reducible refine State.snapTake_only ?_ ?_)
    | (with_reducible refine only_ite (fun _ => ?_) (fun _ => ?_))
    | (with_reducible refine only_foldl ?_ (fun _ _ => ?_))
    | decide
    | (dsimp only)
    | split)

/-- At most: dict, spares, chans, tracks, groups, accts, acc, bal, pp, cal, nvm, evt, ports, ans. -/
theorem execAccClear_only {a1 : _} {a2 : _} : Gives 2176518937 s (execAccClear a1 a2 s) := by
  refine ⟨_, rfl, ?_⟩
  repeat' (first
    | (with_reducible exact Only.refl _ _)
    | (with_reducible refine State.writeReq_only ?_ (fun _ _ _ => ?_) ?_)
    | (with_reducible refine State.wAccClear_only ?_ ?_)
    | (with_reducible refine only_ite (fun _ => ?_) (fun _ => ?_))
    | (with_reducible refine only_foldl ?_ (fun _ _ => ?_))
    | decide
    | (dsimp only)
    | split)

/-- At most: dict, spares, chans, tracks, groups, accts, acc, bal, pp, cal, nvm, evt, ports, ans. -/
theorem execMdReset_only {a1 : _} {a2 : _} : Gives 2176518937 s (execMdReset a1 a2 s) := by
  refine ⟨_, rfl, ?_⟩
  repeat' (first
    | (with_reducible exact Only.refl _ _)
    | (with_reducible refine State.wMdReset_only ?_ ?_)
    | (with_reducible refine State.writeReq_only ?_ (fun _ _ _ => ?_) ?_)
    | (with_reducible refine only_ite (fun _ => ?_) (fun _ => ?_))
    | (with_reducible refine only_foldl ?_ (fun _ _ => ?_))
    | decide
    | (dsimp only)
    | split)

/-- At most: clock, acc. -/
theorem execPulseEdge_only {a1 : _} : Gives 65538 s (execPulseEdge a1 s) := by
  unfold execPulseEdge
  repeat' (first
    | (with_reducible refine Gives.ite ?_ ?_)
    | (with_reducible refine Gives.next ?_)
    | (with_reducible exact Only.refl _ _)
    | (with_reducible refine State.pulseRun_only ?_ ?_)
    | (with_reducible refine State.toClk_only ?_ ?_)
    | (with_reducible refine only_ite (fun _ => ?_) (fun _ => ?_))
    | (with_reducible refine only_foldl ?_ (fun _ _ => ?_))
    | decide
    | (dsimp only)
    | split)

/-- At most: dict, spares, chans, tracks, groups, eng, accts, acc, bal, pp, cal, nvm, evt, ports, ans. -/
theorem execPulseConfig_only {a1 : _} {a2 : _} {a3 : _} {a4 : _} : Gives 2176519961 s (execPulseConfig a1 a2 a3 a4 s) := by
  unfold execPulseConfig
  repeat' (first
    | (with_reducible refine Gives.ite ?_ ?_)
    | (with_reducible refine Gives.next ?_)
    | (with_reducible exact Only.refl _ _)
    | (with_reducible refine State.writeReq_only ?_ (fun _ _ _ => ?_) ?_)
    | (with_reducible refine State.wPulse_only ?_ ?_)
    | (with_reducible refine only_ite (fun _ => ?_) (fun _ => ?_))
    | (with_reducible refine only_foldl ?_ (fun _ _ => ?_))
    | decide
    | (dsimp only)
    | split)

/-- At most: dict, spares, chans, ftrip, tracks, groups, eng, accts, acc, bal, pp, cal, nvm, evt, ports, ans. -/
theorem execFtripAssign_only {a1 : _} {a2 : _} {a3 : _} : Gives 2176520089 s (execFtripAssign a1 a2 a3 s) := by
  refine ⟨_, rfl, ?_⟩
  repeat' (first
    | (with_reducible exact Only.refl _ _)
    | (with_reducible refine State.writeReq_only ?_ (fun _ _ _ => ?_) ?_)
    | (with_reducible refine State.wFtrip_only ?_ ?_)
    | (with_reducible refine only_ite (fun _ => ?_) (fun _ => ?_))
    | (with_reducible refine only_foldl ?_ (fun _ _ => ?_))
    | decide
    | (dsimp only)
    | split)

/-- At most: dict, spares, chans, ftrip, tracks, groups, accts, acc, bal, pp, cal, nvm, evt, ports, ans. -/
theorem execFtripLatchClear_only {a1 : _} {a2 : _} : Gives 2176519065 s (execFtripLatchClear a1 a2 s) := by
  refine ⟨_, rfl, ?_⟩
  repeat' (first
    | (with_reducible exact Only.refl _ _)
    | (with_reducible refine State.wFtripState_only ?_ ?_)
    | (with_reducible refine State.writeReq_only ?_ (fun _ _ _ => ?_) ?_)
    | (with_reducible refine only_ite (fun _ => ?_) (fun _ => ?_))
    | (with_reducible refine only_foldl ?_ (fun _ _ => ?_))
    | decide
    | (dsimp only)
    | split)

/-- At most: dict, spares, chans, hk, tracks, groups, accts, acc, bal, pp, cal, nvm, evt, ports, ans. -/
theorem execHkLimitFlagClear_only {a1 : _} {a2 : _} : Gives 2176518969 s (execHkLimitFlagClear a1 a2 s) := by
  refine ⟨_, rfl, ?_⟩
  repeat' (first
    | (with_reducible exact Only.refl _ _)
    | (with_reducible refine State.writeReq_only ?_ (fun _ _ _ => ?_) ?_)
    | (with_reducible refine State.wHkFlags_only ?_ ?_)
    | (with_reducible refine only_ite (fun _ => ?_) (fun _ => ?_))
    | (with_reducible refine only_foldl ?_ (fun _ _ => ?_))
    | decide
    | (dsimp only)
    | split)

/-- At most: dict, spares, chans, hk, tracks, groups, eng, accts, acc, bal, pp, cal, nvm, evt, ports, ans. -/
theorem execHkRun_only {a1 : _} {a2 : _} : Gives 2176519993 s (execHkRun a1 a2 s) := by
  refine ⟨_, rfl, ?_⟩
  repeat' (first
    | (with_reducible exact Only.refl _ _)
    | (with_reducible refine State.writeReq_only ?_ (fun _ _ _ => ?_) ?_)
    | (with_reducible refine State.wHkRun_only ?_ ?_)
    | (with_reducible refine only_ite (fun _ => ?_) (fun _ => ?_))
    | (with_reducible refine only_foldl ?_ (fun _ _ => ?_))
    | decide
    | (dsimp only)
    | split)

/-- At most: dict, spares, chans, tracks, groups, accts, acc, bal, pp, cal, nvm, evt, ports, ans. -/
theorem execChSubstitute_only {a1 : _} {a2 : _} {a3 : _} : Gives 2176518937 s (execChSubstitute a1 a2 a3 s) := by
  refine ⟨_, rfl, ?_⟩
  repeat' (first
    | (with_reducible exact Only.refl _ _)
    | (with_reducible refine State.writeReq_only ?_ (fun _ _ _ => ?_) ?_)
    | (with_reducible refine State.wSubstitute_only ?_ ?_)
    | (with_reducible refine only_ite (fun _ => ?_) (fun _ => ?_))
    | (with_reducible refine only_foldl ?_ (fun _ _ => ?_))
    | decide
    | (dsimp only)
    | split)

/-- At most: dict, spares, chans, th, ftrip, tracks, groups, eng, accts, acc, bal, pp, cal, nvm, evt, ports, ans. -/
theorem execThEnable_only {a1 : _} {a2 : _} {a3 : _} : Gives 2176520153 s (execThEnable a1 a2 a3 s) := by
  refine ⟨_, rfl, ?_⟩
  repeat' (first
    | (with_reducible exact Only.refl _ _)
    | (with_reducible refine State.wThEnable_only ?_ ?_)
    | (with_reducible refine State.writeReq_only ?_ (fun _ _ _ => ?_) ?_)
    | (with_reducible refine only_ite (fun _ => ?_) (fun _ => ?_))
    | (with_reducible refine only_foldl ?_ (fun _ _ => ?_))
    | decide
    | (dsimp only)
    | split)

/-- At most: dict, spares, chans, tracks, groups, eng, accts, acc, bal, pp, cal, nvm, evt, ports, ans. -/
theorem execEngineEnable_only {a1 : _} {a2 : _} : Gives 2176519961 s (execEngineEnable a1 a2 s) := by
  refine ⟨_, rfl, ?_⟩
  repeat' (first
    | (with_reducible exact Only.refl _ _)
    | (with_reducible refine State.wEngines_only ?_ ?_)
    | (with_reducible refine State.writeReq_only ?_ (fun _ _ _ => ?_) ?_)
    | (with_reducible refine only_ite (fun _ => ?_) (fun _ => ?_))
    | (with_reducible refine only_foldl ?_ (fun _ _ => ?_))
    | decide
    | (dsimp only)
    | split)

/-- At most: dict, spares, chans, tracks, groups, eng, accts, acc, bal, pp, cal, nvm, evt, ports, ans. -/
theorem execClusterEnable_only {a1 : _} {a2 : _} : Gives 2176519961 s (execClusterEnable a1 a2 s) := by
  refine ⟨_, rfl, ?_⟩
  repeat' (first
    | (with_reducible exact Only.refl _ _)
    | (with_reducible refine State.writeReq_only ?_ (fun _ _ _ => ?_) ?_)
    | (with_reducible refine State.wClusters_only ?_ ?_)
    | (with_reducible refine only_ite (fun _ => ?_) (fun _ => ?_))
    | (with_reducible refine only_foldl ?_ (fun _ _ => ?_))
    | decide
    | (dsimp only)
    | split)

/-- At most: dict, spares, chans, tracks, groups, accts, capt, captMissed, acc, bal, pp, cal, nvm, evt, ports, ans. -/
theorem execTrigger_only {a1 : _} : Gives 2176568089 s (execTrigger a1 s) := by
  refine ⟨_, rfl, ?_⟩
  repeat' (first
    | (with_reducible exact Only.refl _ _)
    | (with_reducible refine State.wCapture_only ?_ ?_)
    | (with_reducible refine State.writeReq_only ?_ (fun _ _ _ => ?_) ?_)
    | (with_reducible refine only_ite (fun _ => ?_) (fun _ => ?_))
    | (with_reducible refine only_foldl ?_ (fun _ _ => ?_))
    | decide
    | (dsimp only)
    | split)

/-- At most: dict, spares, chans, tracks, groups, accts, capt, captMissed, acc, bal, pp, cal, nvm, evt, ports, ans. -/
theorem execStop_only {a1 : _} : Gives 2176568089 s (execStop a1 s) := by
  refine ⟨_, rfl, ?_⟩
  repeat' (first
    | (with_reducible exact Only.refl _ _)
    | (with_reducible refine State.wCapture_only ?_ ?_)
    | (with_reducible refine State.writeReq_only ?_ (fun _ _ _ => ?_) ?_)
    | (with_reducible refine only_ite (fun _ => ?_) (fun _ => ?_))
    | (with_reducible refine only_foldl ?_ (fun _ _ => ?_))
    | decide
    | (dsimp only)
    | split)

/-- At most: dict, spares, chans, tracks, groups, accts, capt, captMissed, acc, bal, pp, cal, nvm, evt, ports, ans. -/
theorem execReleaseAll_only {a1 : _} : Gives 2176568089 s (execReleaseAll a1 s) := by
  refine ⟨_, rfl, ?_⟩
  repeat' (first
    | (with_reducible exact Only.refl _ _)
    | (with_reducible refine State.wCapture_only ?_ ?_)
    | (with_reducible refine State.writeReq_only ?_ (fun _ _ _ => ?_) ?_)
    | (with_reducible refine only_ite (fun _ => ?_) (fun _ => ?_))
    | (with_reducible refine only_foldl ?_ (fun _ _ => ?_))
    | decide
    | (dsimp only)
    | split)

/-- At most: dict, spares, chans, tracks, groups, accts, capt, acc, bal, pp, cal, nvm, evt, ports, ans. -/
theorem execCaptRelease_only {a1 : _} {a2 : _} : Gives 2176535321 s (execCaptRelease a1 a2 s) := by
  refine ⟨_, rfl, ?_⟩
  repeat' (first
    | (with_reducible exact Only.refl _ _)
    | (with_reducible refine State.wCaptFree_only ?_ ?_)
    | (with_reducible refine State.writeReq_only ?_ (fun _ _ _ => ?_) ?_)
    | (with_reducible refine only_ite (fun _ => ?_) (fun _ => ?_))
    | (with_reducible refine only_foldl ?_ (fun _ _ => ?_))
    | decide
    | (dsimp only)
    | split)

/-- At most: dict, spares, chans, hk, tracks, groups, eng, accts, acc, bal, pp, cal, nvm, pwr, evt, ports, disp, upd, isl,
ans. -/
theorem execBindOffRest_only {a1 : _} : Gives 4059762489 s (execBindOffRest a1 s) := by
  refine ⟨_, rfl, ?_⟩
  repeat' (first
    | (with_reducible exact Only.refl _ _)
    | (with_reducible refine State.wPower_only ?_ ?_)
    | (with_reducible refine State.writeReq_only ?_ (fun _ _ _ => ?_) ?_)
    | (with_reducible refine only_ite (fun _ => ?_) (fun _ => ?_))
    | (with_reducible refine only_foldl ?_ (fun _ _ => ?_))
    | decide
    | (dsimp only)
    | split)

/-- At most: dict, spares, chans, hk, tracks, groups, eng, accts, acc, bal, pp, cal, nvm, pwr, evt, ports, disp, upd, isl,
ans. -/
theorem execBindOffRestart_only {a1 : _} : Gives 4059762489 s (execBindOffRestart a1 s) := by
  refine ⟨_, rfl, ?_⟩
  repeat' (first
    | (with_reducible exact Only.refl _ _)
    | (with_reducible refine State.wPower_only ?_ ?_)
    | (with_reducible refine State.writeReq_only ?_ (fun _ _ _ => ?_) ?_)
    | (with_reducible refine only_ite (fun _ => ?_) (fun _ => ?_))
    | (with_reducible refine only_foldl ?_ (fun _ _ => ?_))
    | decide
    | (dsimp only)
    | split)

/-- At most: dict, spares, chans, hk, tracks, groups, eng, accts, acc, bal, pp, cal, nvm, pwr, evt, ports, disp, upd, isl,
ans. -/
theorem execRestartControl_only {a1 : _} : Gives 4059762489 s (execRestartControl a1 s) := by
  refine ⟨_, rfl, ?_⟩
  repeat' (first
    | (with_reducible exact Only.refl _ _)
    | (with_reducible refine State.wPower_only ?_ ?_)
    | (with_reducible refine State.writeReq_only ?_ (fun _ _ _ => ?_) ?_)
    | (with_reducible refine only_ite (fun _ => ?_) (fun _ => ?_))
    | (with_reducible refine only_foldl ?_ (fun _ _ => ?_))
    | decide
    | (dsimp only)
    | split)

/-- At most: dict, spares, chans, hk, tracks, groups, eng, accts, acc, bal, pp, cal, nvm, pwr, evt, ports, disp, upd, isl,
ans. -/
theorem execRestartPort_only {a1 : _} : Gives 4059762489 s (execRestartPort a1 s) := by
  refine ⟨_, rfl, ?_⟩
  repeat' (first
    | (with_reducible exact Only.refl _ _)
    | (with_reducible refine State.wPower_only ?_ ?_)
    | (with_reducible refine State.writeReq_only ?_ (fun _ _ _ => ?_) ?_)
    | (with_reducible refine only_ite (fun _ => ?_) (fun _ => ?_))
    | (with_reducible refine only_foldl ?_ (fun _ _ => ?_))
    | decide
    | (dsimp only)
    | split)

/-- At most: dict, spares, chans, hk, tracks, groups, eng, accts, acc, bal, pp, cal, nvm, pwr, evt, ports, disp, upd, isl,
ans. -/
theorem execRestartDisplay_only {a1 : _} : Gives 4059762489 s (execRestartDisplay a1 s) := by
  refine ⟨_, rfl, ?_⟩
  repeat' (first
    | (with_reducible exact Only.refl _ _)
    | (with_reducible refine State.wPower_only ?_ ?_)
    | (with_reducible refine State.writeReq_only ?_ (fun _ _ _ => ?_) ?_)
    | (with_reducible refine only_ite (fun _ => ?_) (fun _ => ?_))
    | (with_reducible refine only_foldl ?_ (fun _ _ => ?_))
    | decide
    | (dsimp only)
    | split)

/-- At most: pwr. -/
theorem execVin33Return_only : Gives 4194304 s (execVin33Return s) := by
  refine ⟨_, rfl, ?_⟩
  repeat' (first
    | (with_reducible exact Only.refl _ _)
    | (with_reducible refine State.setPwr_only ?_ ?_)
    | (with_reducible refine only_ite (fun _ => ?_) (fun _ => ?_))
    | (with_reducible refine only_foldl ?_ (fun _ _ => ?_))
    | decide
    | (dsimp only)
    | split)

/-- At most: nvm, evt. -/
theorem execNvmIslandRestart_only {a1 : _} : Gives 10485760 s (execNvmIslandRestart a1 s) := by
  refine ⟨_, rfl, ?_⟩
  repeat' (first
    | (with_reducible exact Only.refl _ _)
    | (with_reducible refine State.ev58_only ?_ ?_)
    | (with_reducible refine State.setNvm_only ?_ ?_ ?_)
    | (with_reducible refine only_ite (fun _ => ?_) (fun _ => ?_))
    | (with_reducible refine only_foldl ?_ (fun _ _ => ?_))
    | decide
    | exact ⟨fun w => cellsSet_wf w _ _⟩ | exact ⟨fun w => w, fun _ p => List.mem_append_left _ p, fun _ => Nat.le_refl _⟩ | exact .of rfl rfl rfl | exact .of rfl rfl | exact .of rfl | exact Nat.le_refl _
    | (dsimp only)
    | split)

/-- At most: ports. -/
theorem execPortRestartDone_only : Gives 16777216 s (execPortRestartDone s) := by
  refine ⟨_, rfl, ?_⟩
  repeat' (first
    | (with_reducible exact Only.refl _ _)
    | (with_reducible refine only_ite (fun _ => ?_) (fun _ => ?_))
    | (with_reducible refine only_foldl ?_ (fun _ _ => ?_))
    | decide
    | (dsimp only)
    | ((with_reducible refine only_set_ports ?_ (by decide)); first | (with_reducible exact Only.refl _ _) | (with_reducible refine only_ite (fun _ => ?_) (fun _ => ?_)) | (with_reducible refine only_foldl ?_ (fun _ _ => ?_)))
    | split)

/-- At most: evt, disp. -/
theorem execDisplayRestartDone_only : Gives 276824064 s (execDisplayRestartDone s) := by
  refine ⟨_, rfl, ?_⟩
  repeat' (first
    | (with_reducible exact Only.refl _ _)
    | (with_reducible refine State.setDisp_only ?_ ?_)
    | (with_reducible refine State.dispStart_only ?_ ?_)
    | (with_reducible refine only_ite (fun _ => ?_) (fun _ => ?_))
    | (with_reducible refine only_foldl ?_ (fun _ _ => ?_))
    | decide
    | (dsimp only)
    | split)

/-- At most: disp. -/
theorem execDischargeShortExpiry_only : Gives 268435456 s (execDischargeShortExpiry s) := by
  refine ⟨_, rfl, ?_⟩
  repeat' (first
    | (with_reducible exact Only.refl _ _)
    | (with_reducible refine State.setDisp_only ?_ ?_)
    | (with_reducible refine only_ite (fun _ => ?_) (fun _ => ?_))
    | (with_reducible refine only_foldl ?_ (fun _ _ => ?_))
    | decide
    | (dsimp only)
    | split)

/-- At most: ftrip, acc, nvm, pwr, evt, disp. -/
theorem execRailDischargeDone_only : Gives 283181184 s (execRailDischargeDone s) := by
  refine ⟨_, rfl, ?_⟩
  repeat' (first
    | (with_reducible exact Only.refl _ _)
    | (with_reducible refine State.railsDown_only ?_ ?_)
    | (with_reducible refine only_ite (fun _ => ?_) (fun _ => ?_))
    | (with_reducible refine only_foldl ?_ (fun _ _ => ?_))
    | decide
    | (dsimp only)
    | split)

/-- At most: disp. -/
theorem execSelvedgeFrameEnd_only {a1 : _} : Gives 268435456 s (execSelvedgeFrameEnd a1 s) := by
  refine ⟨_, rfl, ?_⟩
  repeat' (first
    | (with_reducible exact Only.refl _ _)
    | (with_reducible refine State.selvFrame_only ?_ ?_)
    | (with_reducible refine only_ite (fun _ => ?_) (fun _ => ?_))
    | (with_reducible refine only_foldl ?_ (fun _ _ => ?_))
    | decide
    | (dsimp only)
    | split)

/-- At most: dict, spares, chans, hk, ftrip, eng, accts, chres, pq, capt, captMissed, acc, bal, pp, cal, nvm, pwr, evt,
mem, tamper, disp. -/
theorem execOscSensorReading_only {a1 : _} : Gives 385612985 s (execOscSensorReading a1 s) := by
  unfold execOscSensorReading
  repeat' (first
    | (with_reducible refine Gives.ite ?_ ?_)
    | (with_reducible refine Gives.next ?_)
    | (with_reducible exact Only.refl _ _)
    | (with_reducible refine State.restartIfDue_only ?_ ?_)
    | (with_reducible refine State.tempDetect_only ?_ ?_)
    | (with_reducible refine State.tempInside_only ?_ ?_)
    | (with_reducible refine State.setCal_only ?_ ?_)
    | (with_reducible refine State.setTamper_only ?_ ?_)
    | (with_reducible refine State.urgent_only ?_ ?_)
    | (with_reducible refine only_ite (fun _ => ?_) (fun _ => ?_))
    | (with_reducible refine only_foldl ?_ (fun _ _ => ?_))
    | decide
    | (dsimp only)
    | split)

/-- At most: evt, ports. -/
theorem execGfpInvalidFrame_only {a1 : _} : Gives 25165824 s (execGfpInvalidFrame a1 s) := by
  refine ⟨_, rfl, ?_⟩
  repeat' (first
    | (with_reducible exact Only.refl _ _)
    | (with_reducible refine State.crcFail_only ?_ ?_)
    | (with_reducible refine only_ite (fun _ => ?_) (fun _ => ?_))
    | (with_reducible refine only_foldl ?_ (fun _ _ => ?_))
    | decide
    | (dsimp only)
    | split)

/-- At most: nvm, evt. -/
theorem execNvmLifeCheck_only : Gives 10485760 s (execNvmLifeCheck s) := by
  unfold execNvmLifeCheck
  repeat' (first
    | (with_reducible refine Gives.ite ?_ ?_)
    | (with_reducible refine Gives.next ?_)
    | (with_reducible exact Only.refl _ _)
    | (with_reducible refine State.raise_only ?_ ?_)
    | (with_reducible refine State.setNvm_only ?_ ?_ ?_)
    | (with_reducible refine only_ite (fun _ => ?_) (fun _ => ?_))
    | (with_reducible refine only_foldl ?_ (fun _ _ => ?_))
    | decide
    | exact ⟨fun w => cellsSet_wf w _ _⟩ | exact ⟨fun w => w, fun _ p => List.mem_append_left _ p, fun _ => Nat.le_refl _⟩ | exact .of rfl rfl rfl | exact .of rfl rfl | exact .of rfl | exact Nat.le_refl _
    | (dsimp only)
    | split)

end Sys2Proof.Machine
end

