-- ==== Sys2Proof/Laws/Journal.lean ====
section
/-! SUPPORT. What a journal write leaves alone within the NVM island, and what a save leaves: no dirty group, and a new SAVE_MARK
that names the groups that were dirty (R319). -/
namespace Sys2Proof.Machine

/-- What a journal write does not touch: the groups' dirty bits, the kept values, the last-gasp session and the stores. -/
structure JSame (a b : Nvm) : Prop where
  dirty  : b.dirty = a.dirty
  dirtyQ : b.dirtyQ = a.dirtyQ
  dirtyD : b.dirtyD = a.dirtyD
  dirtyC : b.dirtyC = a.dirtyC
  marks  : b.kept.marks = a.kept.marks
  session : b.session = a.session

theorem JSame.refl (a : Nvm) : JSame a a := ⟨rfl, rfl, rfl, rfl, rfl, rfl⟩

theorem JSame.trans {a b c : Nvm} (h : JSame a b) (k : JSame b c) : JSame a c :=
  ⟨k.dirty.trans h.dirty, k.dirtyQ.trans h.dirtyQ, k.dirtyD.trans h.dirtyD, k.dirtyC.trans h.dirtyC, k.marks.trans h.marks,
   k.session.trans h.session⟩

theorem jWriteFrom_same (l : List (Nat × Nat)) (s : State) : JSame s.nvm (s.jWriteFrom l).nvm := by
  induction l generalizing s with
  | nil => exact .refl _
  | cons a r ih =>
    unfold State.jWriteFrom
    refine JSame.trans ?_ (ih _)
    dsimp only
    split <;> exact ⟨rfl, rfl, rfl, rfl, rfl, rfl⟩

theorem jWrite_same (l : List (Nat × Nat)) (s : State) : JSame s.nvm (s.jWrite l).nvm := by
  unfold State.jWrite
  split
  · exact .refl _
  · refine JSame.trans ?_ (jWriteFrom_same l _)
    exact ⟨rfl, rfl, rfl, rfl, rfl, rfl⟩

theorem keep_same (k : Nat) (s : State) : JSame s.nvm (s.keep k).nvm := by
  refine ⟨rfl, rfl, rfl, rfl, ?_, rfl⟩
  unfold State.keep
  dsimp only
  repeat' (first | rfl | split)

theorem jSave_same (l : List Nat) (s : State) : JSame s.nvm (s.jSave l).nvm := by
  unfold State.jSave
  dsimp only
  refine JSame.trans (jWrite_same (l.map (fun k => (k, jLen k))) s) ?_
  generalize s.jWrite _ = t
  induction l generalizing t with
  | nil => exact .refl _
  | cons a r ih => exact JSame.trans (keep_same a t) (ih _)

theorem jCompact_same (n : Nat) (s : State) : JSame s.nvm (s.jCompact n).nvm := by
  induction n generalizing s with
  | zero => exact .refl _
  | succ n ih =>
    unfold State.jCompact
    split
    · exact .refl _
    · refine JSame.trans ?_ (ih _)
      unfold State.jCompact1
      refine JSame.trans ?_ (jWrite_same _ _)
      exact ⟨rfl, rfl, rfl, rfl, rfl, rfl⟩

/-- The time depends on the clock alone. -/
theorem now_congr {s t : State} (h : t.clock = s.clock) : t.now = s.now := by
  unfold State.now
  rw [h]

/-- A journal operation changes the NVM island alone; in particular the time stands. -/
theorem now_of {s t : State} (h : Only 2097152 s t) : t.now = s.now :=
  now_congr (h.clock (by decide))

/-- A save mark is the newest mark. -/
theorem saveMark_marks (s : State) (g : List Nat) (x : Stamp) :
    (s.saveMark g x).nvm.kept.marks.head?.map (fun m => (m.time, m.groups)) = some (x, g) := rfl

/-- After a save no group is dirty, and the newest mark names the groups that were, at the time of the save. -/
theorem save_spec (s : State) :
    s.save.nvm.dirty = [] ∧ s.save.nvm.dirtyQ = [] ∧ s.save.nvm.dirtyD = [] ∧ s.save.nvm.dirtyC = [] ∧
    s.save.nvm.kept.marks.head?.map (fun m => (m.time, m.groups)) = some (s.now, trueKeys s.nvm.dirty) ∧
    s.save.nvm.session = s.nvm.session := by
  unfold State.save
  extract_lets a low lg groups b n k c d
  have ha : JSame s.nvm a.nvm := jCompact_same 640 s
  have hb : JSame a.nvm b.nvm := jSave_same _ a
  have hd : JSame c.nvm d.nvm := by
    by_cases h : low
    · simp only [d, h, if_true]
      exact .refl _
    · simp only [d, h]
      exact jSave_same _ c
  have hm : ∀ u : State, ∀ g x, (u.saveMark g x).nvm.dirty = u.nvm.dirty ∧ (u.saveMark g x).nvm.dirtyQ = u.nvm.dirtyQ ∧
      (u.saveMark g x).nvm.dirtyD = u.nvm.dirtyD ∧ (u.saveMark g x).nvm.dirtyC = u.nvm.dirtyC ∧
      (u.saveMark g x).nvm.session = u.nvm.session := by
    intro u g x
    have := jWrite_same [(jMark, 81)] u
    exact ⟨this.dirty, this.dirtyQ, this.dirtyD, this.dirtyC, this.session⟩
  obtain ⟨h1, h2, h3, h4, h5⟩ := hm d lg d.now
  have k1 : a.now = s.now := now_of (State.jCompact_only (Only.refl _ _) (by decide))
  have k2 : b.now = a.now := now_of (State.jSave_only (Only.refl _ _) (by decide))
  clear_value b
  have k3 : c.now = b.now := now_congr rfl
  have k4 : d.now = c.now := by
    by_cases h : low
    · simp only [d, h, if_true]
    · simp only [d, h]
      exact now_of (State.jSave_only (Only.refl _ _) (by decide))
  have hn : d.now = s.now := by rw [k4, k3, k2, k1]
  refine ⟨h1.trans hd.dirty, h2.trans hd.dirtyQ, h3.trans hd.dirtyD, h4.trans hd.dirtyC, ?_,
    h5.trans (hd.session.trans (hb.session.trans ha.session))⟩
  have hl : lg = trueKeys s.nvm.dirty := congrArg trueKeys ha.dirty
  clear_value d
  refine (saveMark_marks d lg d.now).trans ?_
  rw [hn, hl]

end Sys2Proof.Machine
end

