-- ==== Sys2Proof/Laws/Request.lean ====
section
/-! SUPPORT. The envelope of a request, said once: a request that is executed at once has its own effect, and then its answer is
delivered; and the words of Machine/Safety connected with the frame lemmas. -/
namespace Sys2Proof.Machine

theorem Delivered.refl (x : State) : Delivered x x := rfl

theorem Delivered.trans {a b c : State} (h : Delivered a b) (k : Delivered b c) : Delivered a c := by
  unfold Delivered at *
  rw [k, h]

/-- A ring changed. -/
theorem Delivered.setRing {x t : State} (h : Delivered x t) (k : Nat) (f : Ring → Ring) : Delivered x (t.setRing k f) := by
  unfold Delivered at *
  rw [h]
  rfl

/-- A port's record changed. -/
theorem Delivered.setPort {x t : State} (h : Delivered x t) (k : Nat) (f : Port → Port) : Delivered x (t.setPort k f) := by
  unfold Delivered at *
  rw [h]
  rfl

theorem Delivered.fWait {x t : State} (h : Delivered x t) : t.ports.fWait = x.ports.fWait := by
  rw [h]

theorem waiting_nil (s : State) : s.waiting (fun k _ => ([] : List Nat).contains k) = [] := by
  unfold State.waiting
  rw [List.filterMap_eq_nil_iff]
  intro e _
  split <;> rfl

/-- Where no port object waits, none is assigned to an answer. -/
theorem fAssign_nil {s : State} (h : s.ports.fWait = []) (o : Option Nat) : s.fAssign o = s := by
  cases o with
  | none =>
    unfold State.fAssign
    simp only [h, List.filter_nil, List.map_nil, waiting_nil, List.foldl_nil]
    rw [← h]
  | some t =>
    unfold State.fAssign
    simp only [h, List.map_nil]
    rw [← h]

/-- Where no port object waits, none becomes active with an answer. -/
theorem portShadows_nil {s : State} (h : s.ports.fWait = []) (a b : Nat) : s.portShadows a b = s := by
  unfold State.portShadows
  simp only [h, List.filter_nil, List.map_nil, waiting_nil, List.foldl_nil]
  rw [← h]

/-- The response to a request is delivered. -/
theorem respondTo_delivered {s : State} (h : s.ports.fWait = []) (e : Entry) (r : Req) (op : Nat) :
    Delivered s (s.respondTo e r op) := by
  have key : ∀ x, Delivered s x → ∀ o, x.fAssign o = x := fun x hx o => fAssign_nil (hx.fWait.trans h) o
  have key' : ∀ x, Delivered s x → ∀ a b, x.portShadows a b = x := fun x hx a b => portShadows_nil (hx.fWait.trans h) a b
  unfold State.respondTo
  dsimp only
  split
  · rw [key _ (.setRing (.refl s) _ _)]
    exact .setRing (.refl s) _ _
  · have w : ∀ g g' g'', Delivered s ((((s.setRing (cmdRing r.cls) g).ringAdd (cmdRing r.cls + 1) g')).setPort (portOf r.cls) g'') :=
      fun g g' g'' => .setPort (.setRing (.setRing (.refl s) _ _) _ _) _ _
    rw [key _ (w _ _ _)]
    split
    · rw [key' _ (.setRing (.setPort (w _ _ _) _ _) _ _)]
      exact .setRing (.setPort (w _ _ _) _ _) _ _
    · exact w _ _ _

/-- A request that is executed at once has its own effect, and its answer is delivered. -/
theorem request_delivered {s : State} {r : Req} {op i j : Nat} {b : Bytes} {f : State → State}
    (h : s.serves r op i j b = true) (hf : (f s).ports.fWait = []) : Delivered (f s) (s.request r op i j b f) := by
  unfold State.serves at h
  simp only [Bool.and_eq_true, Bool.not_eq_true'] at h
  unfold State.request
  cases e : s.headIs r op i j b with
  | none =>
    rw [e] at h
    simp only [h.1.1, fAssign_nil hf]
    exact .refl _
  | some x =>
    rw [e] at h
    simp only [Bool.and_eq_true, Bool.not_eq_true'] at h
    simp only [h.1.1, h.2.1, h.2.2]
    exact respondTo_delivered hf _ _ _

theorem serves_fWait {s : State} {r : Req} {op i j : Nat} {b : Bytes} (h : s.serves r op i j b = true) : s.ports.fWait = [] := by
  unfold State.serves at h
  simp only [Bool.and_eq_true, List.isEmpty_iff] at h
  exact h.1.2

/-- The value that a write's checks hand on is the payload's. -/
theorem checkWrite_ok {s : State} {q : Cls} {i j : Nat} {b : Bytes} {c : Card} {v : Nat}
    (h : s.checkWrite q i j b = .ok (c, v)) : v = ofLe b ∧ cardOf i j = some c := by
  unfold State.checkWrite at h
  split at h
  · cases h
  · rename_i d hd
    dsimp only at h
    split at h
    · cases h
    · split at h
      · cases h
      · split at h
        · cases h
        · split at h
          · cases h
          · split at h
            · cases h
            · split at h
              · cases h
              · cases h
                exact ⟨rfl, hd⟩

/-- A write that is allowed has its own effect, on the state in which the session's owner has written, and its answer is
delivered. -/
theorem writeReq_delivered {s : State} {r : Req} {i j : Nat} {b : Bytes} {f : State → Card → Nat → State}
    (h : s.allows r i j b = true)
    (hf : ∀ c, cardOf i j = some c → (f (s.ownerWrote r.cls) c (ofLe b)).ports.fWait = []) :
    ∃ c, cardOf i j = some c ∧ Delivered (f (s.ownerWrote r.cls) c (ofLe b)) (s.writeReq r i j b f) := by
  unfold State.allows at h
  rw [Bool.and_eq_true] at h
  cases e : s.checkWrite r.cls i j b with
  | error x =>
    rw [e] at h
    exact absurd h.2 (fun k => Bool.noConfusion k)
  | ok x =>
    obtain ⟨c, v⟩ := x
    have hc := checkWrite_ok e
    refine ⟨c, hc.2, ?_⟩
    have hf' : s.checked r i j b f = f (s.ownerWrote r.cls) c (ofLe b) := by
      unfold State.checked
      rw [e]
      dsimp only
      rw [hc.1]
    have k := request_delivered (f := fun s => s.checked r i j b f) h.1 (by rw [hf']; exact hf c hc.2)
    rw [hf'] at k
    exact k

/-- The bit of a component in the masks of the frame lemmas. -/
def Part.bit : Part → Nat
  | .dict => 0 | .clock => 1 | .mods => 2 | .spares => 3 | .chans => 4 | .hk => 5 | .th => 6 | .ftrip => 7 | .tracks => 8
  | .groups => 9 | .eng => 10 | .accts => 11 | .chres => 12 | .pq => 13 | .capt => 14 | .captMissed => 15 | .acc => 16
  | .bal => 17 | .contrib => 18 | .pp => 19 | .cal => 20 | .nvm => 21 | .pwr => 22 | .evt => 23 | .ports => 24 | .mem => 25
  | .tamper => 26 | .life => 27 | .disp => 28 | .upd => 29 | .isl => 30 | .ans => 31 | .pending => 32

/-- Every component. -/
def Part.all : List Part :=
  [.dict, .clock, .mods, .spares, .chans, .hk, .th, .ftrip, .tracks, .groups, .eng, .accts, .chres, .pq, .capt, .captMissed,
   .acc, .bal, .contrib, .pp, .cal, .nvm, .pwr, .evt, .ports, .mem, .tamper, .life, .disp, .upd, .isl, .ans, .pending]

theorem Part.mem_all (p : Part) : p ∈ Part.all := by cases p <;> decide

/-- The mask changes only components of the list; evaluated on numerals. -/
def Part.covers (l : List Part) (m : Nat) : Bool := Part.all.all (fun p => l.contains p || p == .pending || !m.testBit p.bit)

/-- A frame lemma's mask read as a list of components. -/
theorem Only.changesOnly {m : Nat} {s t : State} {l : List Part} (h : Only m s t) (hc : Part.covers l m = true) :
    changesOnly l s t := by
  have hl : ∀ p : Part, p ∉ l → p ≠ .pending → m.testBit p.bit = false := by
    intro p hp hq
    have k := List.all_eq_true.mp hc p p.mem_all
    simpa [hp, hq] using k
  intro p hp
  cases p
  case pending => exact h.pending
  case dict => exact h.dict (hl .dict hp (by decide))
  case clock => exact h.clock (hl .clock hp (by decide))
  case mods => exact h.mods (hl .mods hp (by decide))
  case spares => exact h.spares (hl .spares hp (by decide))
  case chans => exact h.chans (hl .chans hp (by decide))
  case hk => exact h.hk (hl .hk hp (by decide))
  case th => exact h.th (hl .th hp (by decide))
  case ftrip => exact h.ftrip (hl .ftrip hp (by decide))
  case tracks => exact h.tracks (hl .tracks hp (by decide))
  case groups => exact h.groups (hl .groups hp (by decide))
  case eng => exact h.eng (hl .eng hp (by decide))
  case accts => exact h.accts (hl .accts hp (by decide))
  case chres => exact h.chres (hl .chres hp (by decide))
  case pq => exact h.pq (hl .pq hp (by decide))
  case capt => exact h.capt (hl .capt hp (by decide))
  case captMissed => exact h.captMissed (hl .captMissed hp (by decide))
  case acc => exact h.acc (hl .acc hp (by decide))
  case bal => exact h.bal (hl .bal hp (by decide))
  case contrib => exact h.contrib (hl .contrib hp (by decide))
  case pp => exact h.pp (hl .pp hp (by decide))
  case cal => exact h.cal (hl .cal hp (by decide))
  case nvm => exact h.nvm (hl .nvm hp (by decide))
  case pwr => exact h.pwr (hl .pwr hp (by decide))
  case evt => exact h.evt (hl .evt hp (by decide))
  case ports => exact h.ports (hl .ports hp (by decide))
  case mem => exact h.mem (hl .mem hp (by decide))
  case tamper => exact h.tamper (hl .tamper hp (by decide))
  case life => exact h.life (hl .life hp (by decide))
  case disp => exact h.disp (hl .disp hp (by decide))
  case upd => exact h.upd (hl .upd hp (by decide))
  case isl => exact h.isl (hl .isl hp (by decide))
  case ans => exact h.ans (hl .ans hp (by decide))

end Sys2Proof.Machine
end

