-- ==== Sys2Proof/Laws/State.lean ====
section
/-! SUPPORT. What each update of one component of State does to every component: one lemma for each field and each update, true
by unfolding, so that no proof has to unfold a record update. -/
namespace Sys2Proof.Machine

/-! `setCfg` changes `dict`. -/

@[simp] theorem State.setCfg_dict (s : State) (key val : Nat) : (s.setCfg key val).dict = { s.dict with active := s.dict.active.set key (if val = dfltOf key then none else some val) } := rfl
@[simp] theorem State.setCfg_clock (s : State) (key val : Nat) : (s.setCfg key val).clock = s.clock := rfl
@[simp] theorem State.setCfg_mods (s : State) (key val : Nat) : (s.setCfg key val).mods = s.mods := rfl
@[simp] theorem State.setCfg_spares (s : State) (key val : Nat) : (s.setCfg key val).spares = s.spares := rfl
@[simp] theorem State.setCfg_chans (s : State) (key val : Nat) : (s.setCfg key val).chans = s.chans := rfl
@[simp] theorem State.setCfg_hk (s : State) (key val : Nat) : (s.setCfg key val).hk = s.hk := rfl
@[simp] theorem State.setCfg_th (s : State) (key val : Nat) : (s.setCfg key val).th = s.th := rfl
@[simp] theorem State.setCfg_ftrip (s : State) (key val : Nat) : (s.setCfg key val).ftrip = s.ftrip := rfl
@[simp] theorem State.setCfg_tracks (s : State) (key val : Nat) : (s.setCfg key val).tracks = s.tracks := rfl
@[simp] theorem State.setCfg_groups (s : State) (key val : Nat) : (s.setCfg key val).groups = s.groups := rfl
@[simp] theorem State.setCfg_eng (s : State) (key val : Nat) : (s.setCfg key val).eng = s.eng := rfl
@[simp] theorem State.setCfg_accts (s : State) (key val : Nat) : (s.setCfg key val).accts = s.accts := rfl
@[simp] theorem State.setCfg_chres (s : State) (key val : Nat) : (s.setCfg key val).chres = s.chres := rfl
@[simp] theorem State.setCfg_pq (s : State) (key val : Nat) : (s.setCfg key val).pq = s.pq := rfl
@[simp] theorem State.setCfg_capt (s : State) (key val : Nat) : (s.setCfg key val).capt = s.capt := rfl
@[simp] theorem State.setCfg_captMissed (s : State) (key val : Nat) : (s.setCfg key val).captMissed = s.captMissed := rfl
@[simp] theorem State.setCfg_acc (s : State) (key val : Nat) : (s.setCfg key val).acc = s.acc := rfl
@[simp] theorem State.setCfg_bal (s : State) (key val : Nat) : (s.setCfg key val).bal = s.bal := rfl
@[simp] theorem State.setCfg_contrib (s : State) (key val : Nat) : (s.setCfg key val).contrib = s.contrib := rfl
@[simp] theorem State.setCfg_pp (s : State) (key val : Nat) : (s.setCfg key val).pp = s.pp := rfl
@[simp] theorem State.setCfg_cal (s : State) (key val : Nat) : (s.setCfg key val).cal = s.cal := rfl
@[simp] theorem State.setCfg_nvm (s : State) (key val : Nat) : (s.setCfg key val).nvm = s.nvm := rfl
@[simp] theorem State.setCfg_pwr (s : State) (key val : Nat) : (s.setCfg key val).pwr = s.pwr := rfl
@[simp] theorem State.setCfg_evt (s : State) (key val : Nat) : (s.setCfg key val).evt = s.evt := rfl
@[simp] theorem State.setCfg_ports (s : State) (key val : Nat) : (s.setCfg key val).ports = s.ports := rfl
@[simp] theorem State.setCfg_mem (s : State) (key val : Nat) : (s.setCfg key val).mem = s.mem := rfl
@[simp] theorem State.setCfg_tamper (s : State) (key val : Nat) : (s.setCfg key val).tamper = s.tamper := rfl
@[simp] theorem State.setCfg_life (s : State) (key val : Nat) : (s.setCfg key val).life = s.life := rfl
@[simp] theorem State.setCfg_disp (s : State) (key val : Nat) : (s.setCfg key val).disp = s.disp := rfl
@[simp] theorem State.setCfg_upd (s : State) (key val : Nat) : (s.setCfg key val).upd = s.upd := rfl
@[simp] theorem State.setCfg_isl (s : State) (key val : Nat) : (s.setCfg key val).isl = s.isl := rfl
@[simp] theorem State.setCfg_ans (s : State) (key val : Nat) : (s.setCfg key val).ans = s.ans := rfl
@[simp] theorem State.setCfg_pending (s : State) (key val : Nat) : (s.setCfg key val).pending = s.pending := rfl

/-! `setRing` changes `evt`. -/

@[simp] theorem State.setRing_dict (s : State) (k : Nat) (f : Ring → Ring) : (s.setRing k f).dict = s.dict := rfl
@[simp] theorem State.setRing_clock (s : State) (k : Nat) (f : Ring → Ring) : (s.setRing k f).clock = s.clock := rfl
@[simp] theorem State.setRing_mods (s : State) (k : Nat) (f : Ring → Ring) : (s.setRing k f).mods = s.mods := rfl
@[simp] theorem State.setRing_spares (s : State) (k : Nat) (f : Ring → Ring) : (s.setRing k f).spares = s.spares := rfl
@[simp] theorem State.setRing_chans (s : State) (k : Nat) (f : Ring → Ring) : (s.setRing k f).chans = s.chans := rfl
@[simp] theorem State.setRing_hk (s : State) (k : Nat) (f : Ring → Ring) : (s.setRing k f).hk = s.hk := rfl
@[simp] theorem State.setRing_th (s : State) (k : Nat) (f : Ring → Ring) : (s.setRing k f).th = s.th := rfl
@[simp] theorem State.setRing_ftrip (s : State) (k : Nat) (f : Ring → Ring) : (s.setRing k f).ftrip = s.ftrip := rfl
@[simp] theorem State.setRing_tracks (s : State) (k : Nat) (f : Ring → Ring) : (s.setRing k f).tracks = s.tracks := rfl
@[simp] theorem State.setRing_groups (s : State) (k : Nat) (f : Ring → Ring) : (s.setRing k f).groups = s.groups := rfl
@[simp] theorem State.setRing_eng (s : State) (k : Nat) (f : Ring → Ring) : (s.setRing k f).eng = s.eng := rfl
@[simp] theorem State.setRing_accts (s : State) (k : Nat) (f : Ring → Ring) : (s.setRing k f).accts = s.accts := rfl
@[simp] theorem State.setRing_chres (s : State) (k : Nat) (f : Ring → Ring) : (s.setRing k f).chres = s.chres := rfl
@[simp] theorem State.setRing_pq (s : State) (k : Nat) (f : Ring → Ring) : (s.setRing k f).pq = s.pq := rfl
@[simp] theorem State.setRing_capt (s : State) (k : Nat) (f : Ring → Ring) : (s.setRing k f).capt = s.capt := rfl
@[simp] theorem State.setRing_captMissed (s : State) (k : Nat) (f : Ring → Ring) : (s.setRing k f).captMissed = s.captMissed := rfl
@[simp] theorem State.setRing_acc (s : State) (k : Nat) (f : Ring → Ring) : (s.setRing k f).acc = s.acc := rfl
@[simp] theorem State.setRing_bal (s : State) (k : Nat) (f : Ring → Ring) : (s.setRing k f).bal = s.bal := rfl
@[simp] theorem State.setRing_contrib (s : State) (k : Nat) (f : Ring → Ring) : (s.setRing k f).contrib = s.contrib := rfl
@[simp] theorem State.setRing_pp (s : State) (k : Nat) (f : Ring → Ring) : (s.setRing k f).pp = s.pp := rfl
@[simp] theorem State.setRing_cal (s : State) (k : Nat) (f : Ring → Ring) : (s.setRing k f).cal = s.cal := rfl
@[simp] theorem State.setRing_nvm (s : State) (k : Nat) (f : Ring → Ring) : (s.setRing k f).nvm = s.nvm := rfl
@[simp] theorem State.setRing_pwr (s : State) (k : Nat) (f : Ring → Ring) : (s.setRing k f).pwr = s.pwr := rfl
@[simp] theorem State.setRing_evt (s : State) (k : Nat) (f : Ring → Ring) : (s.setRing k f).evt = { s.evt with rings := s.evt.rings.upd k f } := rfl
@[simp] theorem State.setRing_ports (s : State) (k : Nat) (f : Ring → Ring) : (s.setRing k f).ports = s.ports := rfl
@[simp] theorem State.setRing_mem (s : State) (k : Nat) (f : Ring → Ring) : (s.setRing k f).mem = s.mem := rfl
@[simp] theorem State.setRing_tamper (s : State) (k : Nat) (f : Ring → Ring) : (s.setRing k f).tamper = s.tamper := rfl
@[simp] theorem State.setRing_life (s : State) (k : Nat) (f : Ring → Ring) : (s.setRing k f).life = s.life := rfl
@[simp] theorem State.setRing_disp (s : State) (k : Nat) (f : Ring → Ring) : (s.setRing k f).disp = s.disp := rfl
@[simp] theorem State.setRing_upd (s : State) (k : Nat) (f : Ring → Ring) : (s.setRing k f).upd = s.upd := rfl
@[simp] theorem State.setRing_isl (s : State) (k : Nat) (f : Ring → Ring) : (s.setRing k f).isl = s.isl := rfl
@[simp] theorem State.setRing_ans (s : State) (k : Nat) (f : Ring → Ring) : (s.setRing k f).ans = s.ans := rfl
@[simp] theorem State.setRing_pending (s : State) (k : Nat) (f : Ring → Ring) : (s.setRing k f).pending = s.pending := rfl

/-! `setChan` changes `chans`. -/

@[simp] theorem State.setChan_dict (s : State) (ch : Nat) (f : Chan → Chan) : (s.setChan ch f).dict = s.dict := rfl
@[simp] theorem State.setChan_clock (s : State) (ch : Nat) (f : Chan → Chan) : (s.setChan ch f).clock = s.clock := rfl
@[simp] theorem State.setChan_mods (s : State) (ch : Nat) (f : Chan → Chan) : (s.setChan ch f).mods = s.mods := rfl
@[simp] theorem State.setChan_spares (s : State) (ch : Nat) (f : Chan → Chan) : (s.setChan ch f).spares = s.spares := rfl
@[simp] theorem State.setChan_chans (s : State) (ch : Nat) (f : Chan → Chan) : (s.setChan ch f).chans = s.chans.upd ch f := rfl
@[simp] theorem State.setChan_hk (s : State) (ch : Nat) (f : Chan → Chan) : (s.setChan ch f).hk = s.hk := rfl
@[simp] theorem State.setChan_th (s : State) (ch : Nat) (f : Chan → Chan) : (s.setChan ch f).th = s.th := rfl
@[simp] theorem State.setChan_ftrip (s : State) (ch : Nat) (f : Chan → Chan) : (s.setChan ch f).ftrip = s.ftrip := rfl
@[simp] theorem State.setChan_tracks (s : State) (ch : Nat) (f : Chan → Chan) : (s.setChan ch f).tracks = s.tracks := rfl
@[simp] theorem State.setChan_groups (s : State) (ch : Nat) (f : Chan → Chan) : (s.setChan ch f).groups = s.groups := rfl
@[simp] theorem State.setChan_eng (s : State) (ch : Nat) (f : Chan → Chan) : (s.setChan ch f).eng = s.eng := rfl
@[simp] theorem State.setChan_accts (s : State) (ch : Nat) (f : Chan → Chan) : (s.setChan ch f).accts = s.accts := rfl
@[simp] theorem State.setChan_chres (s : State) (ch : Nat) (f : Chan → Chan) : (s.setChan ch f).chres = s.chres := rfl
@[simp] theorem State.setChan_pq (s : State) (ch : Nat) (f : Chan → Chan) : (s.setChan ch f).pq = s.pq := rfl
@[simp] theorem State.setChan_capt (s : State) (ch : Nat) (f : Chan → Chan) : (s.setChan ch f).capt = s.capt := rfl
@[simp] theorem State.setChan_captMissed (s : State) (ch : Nat) (f : Chan → Chan) : (s.setChan ch f).captMissed = s.captMissed := rfl
@[simp] theorem State.setChan_acc (s : State) (ch : Nat) (f : Chan → Chan) : (s.setChan ch f).acc = s.acc := rfl
@[simp] theorem State.setChan_bal (s : State) (ch : Nat) (f : Chan → Chan) : (s.setChan ch f).bal = s.bal := rfl
@[simp] theorem State.setChan_contrib (s : State) (ch : Nat) (f : Chan → Chan) : (s.setChan ch f).contrib = s.contrib := rfl
@[simp] theorem State.setChan_pp (s : State) (ch : Nat) (f : Chan → Chan) : (s.setChan ch f).pp = s.pp := rfl
@[simp] theorem State.setChan_cal (s : State) (ch : Nat) (f : Chan → Chan) : (s.setChan ch f).cal = s.cal := rfl
@[simp] theorem State.setChan_nvm (s : State) (ch : Nat) (f : Chan → Chan) : (s.setChan ch f).nvm = s.nvm := rfl
@[simp] theorem State.setChan_pwr (s : State) (ch : Nat) (f : Chan → Chan) : (s.setChan ch f).pwr = s.pwr := rfl
@[simp] theorem State.setChan_evt (s : State) (ch : Nat) (f : Chan → Chan) : (s.setChan ch f).evt = s.evt := rfl
@[simp] theorem State.setChan_ports (s : State) (ch : Nat) (f : Chan → Chan) : (s.setChan ch f).ports = s.ports := rfl
@[simp] theorem State.setChan_mem (s : State) (ch : Nat) (f : Chan → Chan) : (s.setChan ch f).mem = s.mem := rfl
@[simp] theorem State.setChan_tamper (s : State) (ch : Nat) (f : Chan → Chan) : (s.setChan ch f).tamper = s.tamper := rfl
@[simp] theorem State.setChan_life (s : State) (ch : Nat) (f : Chan → Chan) : (s.setChan ch f).life = s.life := rfl
@[simp] theorem State.setChan_disp (s : State) (ch : Nat) (f : Chan → Chan) : (s.setChan ch f).disp = s.disp := rfl
@[simp] theorem State.setChan_upd (s : State) (ch : Nat) (f : Chan → Chan) : (s.setChan ch f).upd = s.upd := rfl
@[simp] theorem State.setChan_isl (s : State) (ch : Nat) (f : Chan → Chan) : (s.setChan ch f).isl = s.isl := rfl
@[simp] theorem State.setChan_ans (s : State) (ch : Nat) (f : Chan → Chan) : (s.setChan ch f).ans = s.ans := rfl
@[simp] theorem State.setChan_pending (s : State) (ch : Nat) (f : Chan → Chan) : (s.setChan ch f).pending = s.pending := rfl

/-! `setMod` changes `mods`. -/

@[simp] theorem State.setMod_dict (s : State) (m : Nat) (f : Modulator → Modulator) : (s.setMod m f).dict = s.dict := rfl
@[simp] theorem State.setMod_clock (s : State) (m : Nat) (f : Modulator → Modulator) : (s.setMod m f).clock = s.clock := rfl
@[simp] theorem State.setMod_mods (s : State) (m : Nat) (f : Modulator → Modulator) : (s.setMod m f).mods = s.mods.upd m f := rfl
@[simp] theorem State.setMod_spares (s : State) (m : Nat) (f : Modulator → Modulator) : (s.setMod m f).spares = s.spares := rfl
@[simp] theorem State.setMod_chans (s : State) (m : Nat) (f : Modulator → Modulator) : (s.setMod m f).chans = s.chans := rfl
@[simp] theorem State.setMod_hk (s : State) (m : Nat) (f : Modulator → Modulator) : (s.setMod m f).hk = s.hk := rfl
@[simp] theorem State.setMod_th (s : State) (m : Nat) (f : Modulator → Modulator) : (s.setMod m f).th = s.th := rfl
@[simp] theorem State.setMod_ftrip (s : State) (m : Nat) (f : Modulator → Modulator) : (s.setMod m f).ftrip = s.ftrip := rfl
@[simp] theorem State.setMod_tracks (s : State) (m : Nat) (f : Modulator → Modulator) : (s.setMod m f).tracks = s.tracks := rfl
@[simp] theorem State.setMod_groups (s : State) (m : Nat) (f : Modulator → Modulator) : (s.setMod m f).groups = s.groups := rfl
@[simp] theorem State.setMod_eng (s : State) (m : Nat) (f : Modulator → Modulator) : (s.setMod m f).eng = s.eng := rfl
@[simp] theorem State.setMod_accts (s : State) (m : Nat) (f : Modulator → Modulator) : (s.setMod m f).accts = s.accts := rfl
@[simp] theorem State.setMod_chres (s : State) (m : Nat) (f : Modulator → Modulator) : (s.setMod m f).chres = s.chres := rfl
@[simp] theorem State.setMod_pq (s : State) (m : Nat) (f : Modulator → Modulator) : (s.setMod m f).pq = s.pq := rfl
@[simp] theorem State.setMod_capt (s : State) (m : Nat) (f : Modulator → Modulator) : (s.setMod m f).capt = s.capt := rfl
@[simp] theorem State.setMod_captMissed (s : State) (m : Nat) (f : Modulator → Modulator) : (s.setMod m f).captMissed = s.captMissed := rfl
@[simp] theorem State.setMod_acc (s : State) (m : Nat) (f : Modulator → Modulator) : (s.setMod m f).acc = s.acc := rfl
@[simp] theorem State.setMod_bal (s : State) (m : Nat) (f : Modulator → Modulator) : (s.setMod m f).bal = s.bal := rfl
@[simp] theorem State.setMod_contrib (s : State) (m : Nat) (f : Modulator → Modulator) : (s.setMod m f).contrib = s.contrib := rfl
@[simp] theorem State.setMod_pp (s : State) (m : Nat) (f : Modulator → Modulator) : (s.setMod m f).pp = s.pp := rfl
@[simp] theorem State.setMod_cal (s : State) (m : Nat) (f : Modulator → Modulator) : (s.setMod m f).cal = s.cal := rfl
@[simp] theorem State.setMod_nvm (s : State) (m : Nat) (f : Modulator → Modulator) : (s.setMod m f).nvm = s.nvm := rfl
@[simp] theorem State.setMod_pwr (s : State) (m : Nat) (f : Modulator → Modulator) : (s.setMod m f).pwr = s.pwr := rfl
@[simp] theorem State.setMod_evt (s : State) (m : Nat) (f : Modulator → Modulator) : (s.setMod m f).evt = s.evt := rfl
@[simp] theorem State.setMod_ports (s : State) (m : Nat) (f : Modulator → Modulator) : (s.setMod m f).ports = s.ports := rfl
@[simp] theorem State.setMod_mem (s : State) (m : Nat) (f : Modulator → Modulator) : (s.setMod m f).mem = s.mem := rfl
@[simp] theorem State.setMod_tamper (s : State) (m : Nat) (f : Modulator → Modulator) : (s.setMod m f).tamper = s.tamper := rfl
@[simp] theorem State.setMod_life (s : State) (m : Nat) (f : Modulator → Modulator) : (s.setMod m f).life = s.life := rfl
@[simp] theorem State.setMod_disp (s : State) (m : Nat) (f : Modulator → Modulator) : (s.setMod m f).disp = s.disp := rfl
@[simp] theorem State.setMod_upd (s : State) (m : Nat) (f : Modulator → Modulator) : (s.setMod m f).upd = s.upd := rfl
@[simp] theorem State.setMod_isl (s : State) (m : Nat) (f : Modulator → Modulator) : (s.setMod m f).isl = s.isl := rfl
@[simp] theorem State.setMod_ans (s : State) (m : Nat) (f : Modulator → Modulator) : (s.setMod m f).ans = s.ans := rfl
@[simp] theorem State.setMod_pending (s : State) (m : Nat) (f : Modulator → Modulator) : (s.setMod m f).pending = s.pending := rfl

/-! `setSpare` changes `spares`. -/

@[simp] theorem State.setSpare_dict (s : State) (k : Nat) (f : Spare → Spare) : (s.setSpare k f).dict = s.dict := rfl
@[simp] theorem State.setSpare_clock (s : State) (k : Nat) (f : Spare → Spare) : (s.setSpare k f).clock = s.clock := rfl
@[simp] theorem State.setSpare_mods (s : State) (k : Nat) (f : Spare → Spare) : (s.setSpare k f).mods = s.mods := rfl
@[simp] theorem State.setSpare_spares (s : State) (k : Nat) (f : Spare → Spare) : (s.setSpare k f).spares = s.spares.upd k f := rfl
@[simp] theorem State.setSpare_chans (s : State) (k : Nat) (f : Spare → Spare) : (s.setSpare k f).chans = s.chans := rfl
@[simp] theorem State.setSpare_hk (s : State) (k : Nat) (f : Spare → Spare) : (s.setSpare k f).hk = s.hk := rfl
@[simp] theorem State.setSpare_th (s : State) (k : Nat) (f : Spare → Spare) : (s.setSpare k f).th = s.th := rfl
@[simp] theorem State.setSpare_ftrip (s : State) (k : Nat) (f : Spare → Spare) : (s.setSpare k f).ftrip = s.ftrip := rfl
@[simp] theorem State.setSpare_tracks (s : State) (k : Nat) (f : Spare → Spare) : (s.setSpare k f).tracks = s.tracks := rfl
@[simp] theorem State.setSpare_groups (s : State) (k : Nat) (f : Spare → Spare) : (s.setSpare k f).groups = s.groups := rfl
@[simp] theorem State.setSpare_eng (s : State) (k : Nat) (f : Spare → Spare) : (s.setSpare k f).eng = s.eng := rfl
@[simp] theorem State.setSpare_accts (s : State) (k : Nat) (f : Spare → Spare) : (s.setSpare k f).accts = s.accts := rfl
@[simp] theorem State.setSpare_chres (s : State) (k : Nat) (f : Spare → Spare) : (s.setSpare k f).chres = s.chres := rfl
@[simp] theorem State.setSpare_pq (s : State) (k : Nat) (f : Spare → Spare) : (s.setSpare k f).pq = s.pq := rfl
@[simp] theorem State.setSpare_capt (s : State) (k : Nat) (f : Spare → Spare) : (s.setSpare k f).capt = s.capt := rfl
@[simp] theorem State.setSpare_captMissed (s : State) (k : Nat) (f : Spare → Spare) : (s.setSpare k f).captMissed = s.captMissed := rfl
@[simp] theorem State.setSpare_acc (s : State) (k : Nat) (f : Spare → Spare) : (s.setSpare k f).acc = s.acc := rfl
@[simp] theorem State.setSpare_bal (s : State) (k : Nat) (f : Spare → Spare) : (s.setSpare k f).bal = s.bal := rfl
@[simp] theorem State.setSpare_contrib (s : State) (k : Nat) (f : Spare → Spare) : (s.setSpare k f).contrib = s.contrib := rfl
@[simp] theorem State.setSpare_pp (s : State) (k : Nat) (f : Spare → Spare) : (s.setSpare k f).pp = s.pp := rfl
@[simp] theorem State.setSpare_cal (s : State) (k : Nat) (f : Spare → Spare) : (s.setSpare k f).cal = s.cal := rfl
@[simp] theorem State.setSpare_nvm (s : State) (k : Nat) (f : Spare → Spare) : (s.setSpare k f).nvm = s.nvm := rfl
@[simp] theorem State.setSpare_pwr (s : State) (k : Nat) (f : Spare → Spare) : (s.setSpare k f).pwr = s.pwr := rfl
@[simp] theorem State.setSpare_evt (s : State) (k : Nat) (f : Spare → Spare) : (s.setSpare k f).evt = s.evt := rfl
@[simp] theorem State.setSpare_ports (s : State) (k : Nat) (f : Spare → Spare) : (s.setSpare k f).ports = s.ports := rfl
@[simp] theorem State.setSpare_mem (s : State) (k : Nat) (f : Spare → Spare) : (s.setSpare k f).mem = s.mem := rfl
@[simp] theorem State.setSpare_tamper (s : State) (k : Nat) (f : Spare → Spare) : (s.setSpare k f).tamper = s.tamper := rfl
@[simp] theorem State.setSpare_life (s : State) (k : Nat) (f : Spare → Spare) : (s.setSpare k f).life = s.life := rfl
@[simp] theorem State.setSpare_disp (s : State) (k : Nat) (f : Spare → Spare) : (s.setSpare k f).disp = s.disp := rfl
@[simp] theorem State.setSpare_upd (s : State) (k : Nat) (f : Spare → Spare) : (s.setSpare k f).upd = s.upd := rfl
@[simp] theorem State.setSpare_isl (s : State) (k : Nat) (f : Spare → Spare) : (s.setSpare k f).isl = s.isl := rfl
@[simp] theorem State.setSpare_ans (s : State) (k : Nat) (f : Spare → Spare) : (s.setSpare k f).ans = s.ans := rfl
@[simp] theorem State.setSpare_pending (s : State) (k : Nat) (f : Spare → Spare) : (s.setSpare k f).pending = s.pending := rfl

/-! `setAcct` changes `accts`. -/

@[simp] theorem State.setAcct_dict (s : State) (a : Nat) (f : Acct → Acct) : (s.setAcct a f).dict = s.dict := rfl
@[simp] theorem State.setAcct_clock (s : State) (a : Nat) (f : Acct → Acct) : (s.setAcct a f).clock = s.clock := rfl
@[simp] theorem State.setAcct_mods (s : State) (a : Nat) (f : Acct → Acct) : (s.setAcct a f).mods = s.mods := rfl
@[simp] theorem State.setAcct_spares (s : State) (a : Nat) (f : Acct → Acct) : (s.setAcct a f).spares = s.spares := rfl
@[simp] theorem State.setAcct_chans (s : State) (a : Nat) (f : Acct → Acct) : (s.setAcct a f).chans = s.chans := rfl
@[simp] theorem State.setAcct_hk (s : State) (a : Nat) (f : Acct → Acct) : (s.setAcct a f).hk = s.hk := rfl
@[simp] theorem State.setAcct_th (s : State) (a : Nat) (f : Acct → Acct) : (s.setAcct a f).th = s.th := rfl
@[simp] theorem State.setAcct_ftrip (s : State) (a : Nat) (f : Acct → Acct) : (s.setAcct a f).ftrip = s.ftrip := rfl
@[simp] theorem State.setAcct_tracks (s : State) (a : Nat) (f : Acct → Acct) : (s.setAcct a f).tracks = s.tracks := rfl
@[simp] theorem State.setAcct_groups (s : State) (a : Nat) (f : Acct → Acct) : (s.setAcct a f).groups = s.groups := rfl
@[simp] theorem State.setAcct_eng (s : State) (a : Nat) (f : Acct → Acct) : (s.setAcct a f).eng = s.eng := rfl
@[simp] theorem State.setAcct_accts (s : State) (a : Nat) (f : Acct → Acct) : (s.setAcct a f).accts = s.accts.upd a f := rfl
@[simp] theorem State.setAcct_chres (s : State) (a : Nat) (f : Acct → Acct) : (s.setAcct a f).chres = s.chres := rfl
@[simp] theorem State.setAcct_pq (s : State) (a : Nat) (f : Acct → Acct) : (s.setAcct a f).pq = s.pq := rfl
@[simp] theorem State.setAcct_capt (s : State) (a : Nat) (f : Acct → Acct) : (s.setAcct a f).capt = s.capt := rfl
@[simp] theorem State.setAcct_captMissed (s : State) (a : Nat) (f : Acct → Acct) : (s.setAcct a f).captMissed = s.captMissed := rfl
@[simp] theorem State.setAcct_acc (s : State) (a : Nat) (f : Acct → Acct) : (s.setAcct a f).acc = s.acc := rfl
@[simp] theorem State.setAcct_bal (s : State) (a : Nat) (f : Acct → Acct) : (s.setAcct a f).bal = s.bal := rfl
@[simp] theorem State.setAcct_contrib (s : State) (a : Nat) (f : Acct → Acct) : (s.setAcct a f).contrib = s.contrib := rfl
@[simp] theorem State.setAcct_pp (s : State) (a : Nat) (f : Acct → Acct) : (s.setAcct a f).pp = s.pp := rfl
@[simp] theorem State.setAcct_cal (s : State) (a : Nat) (f : Acct → Acct) : (s.setAcct a f).cal = s.cal := rfl
@[simp] theorem State.setAcct_nvm (s : State) (a : Nat) (f : Acct → Acct) : (s.setAcct a f).nvm = s.nvm := rfl
@[simp] theorem State.setAcct_pwr (s : State) (a : Nat) (f : Acct → Acct) : (s.setAcct a f).pwr = s.pwr := rfl
@[simp] theorem State.setAcct_evt (s : State) (a : Nat) (f : Acct → Acct) : (s.setAcct a f).evt = s.evt := rfl
@[simp] theorem State.setAcct_ports (s : State) (a : Nat) (f : Acct → Acct) : (s.setAcct a f).ports = s.ports := rfl
@[simp] theorem State.setAcct_mem (s : State) (a : Nat) (f : Acct → Acct) : (s.setAcct a f).mem = s.mem := rfl
@[simp] theorem State.setAcct_tamper (s : State) (a : Nat) (f : Acct → Acct) : (s.setAcct a f).tamper = s.tamper := rfl
@[simp] theorem State.setAcct_life (s : State) (a : Nat) (f : Acct → Acct) : (s.setAcct a f).life = s.life := rfl
@[simp] theorem State.setAcct_disp (s : State) (a : Nat) (f : Acct → Acct) : (s.setAcct a f).disp = s.disp := rfl
@[simp] theorem State.setAcct_upd (s : State) (a : Nat) (f : Acct → Acct) : (s.setAcct a f).upd = s.upd := rfl
@[simp] theorem State.setAcct_isl (s : State) (a : Nat) (f : Acct → Acct) : (s.setAcct a f).isl = s.isl := rfl
@[simp] theorem State.setAcct_ans (s : State) (a : Nat) (f : Acct → Acct) : (s.setAcct a f).ans = s.ans := rfl
@[simp] theorem State.setAcct_pending (s : State) (a : Nat) (f : Acct → Acct) : (s.setAcct a f).pending = s.pending := rfl

/-! `setGroup` changes `groups`. -/

@[simp] theorem State.setGroup_dict (s : State) (g : Nat) (f : Group → Group) : (s.setGroup g f).dict = s.dict := rfl
@[simp] theorem State.setGroup_clock (s : State) (g : Nat) (f : Group → Group) : (s.setGroup g f).clock = s.clock := rfl
@[simp] theorem State.setGroup_mods (s : State) (g : Nat) (f : Group → Group) : (s.setGroup g f).mods = s.mods := rfl
@[simp] theorem State.setGroup_spares (s : State) (g : Nat) (f : Group → Group) : (s.setGroup g f).spares = s.spares := rfl
@[simp] theorem State.setGroup_chans (s : State) (g : Nat) (f : Group → Group) : (s.setGroup g f).chans = s.chans := rfl
@[simp] theorem State.setGroup_hk (s : State) (g : Nat) (f : Group → Group) : (s.setGroup g f).hk = s.hk := rfl
@[simp] theorem State.setGroup_th (s : State) (g : Nat) (f : Group → Group) : (s.setGroup g f).th = s.th := rfl
@[simp] theorem State.setGroup_ftrip (s : State) (g : Nat) (f : Group → Group) : (s.setGroup g f).ftrip = s.ftrip := rfl
@[simp] theorem State.setGroup_tracks (s : State) (g : Nat) (f : Group → Group) : (s.setGroup g f).tracks = s.tracks := rfl
@[simp] theorem State.setGroup_groups (s : State) (g : Nat) (f : Group → Group) : (s.setGroup g f).groups = s.groups.upd g f := rfl
@[simp] theorem State.setGroup_eng (s : State) (g : Nat) (f : Group → Group) : (s.setGroup g f).eng = s.eng := rfl
@[simp] theorem State.setGroup_accts (s : State) (g : Nat) (f : Group → Group) : (s.setGroup g f).accts = s.accts := rfl
@[simp] theorem State.setGroup_chres (s : State) (g : Nat) (f : Group → Group) : (s.setGroup g f).chres = s.chres := rfl
@[simp] theorem State.setGroup_pq (s : State) (g : Nat) (f : Group → Group) : (s.setGroup g f).pq = s.pq := rfl
@[simp] theorem State.setGroup_capt (s : State) (g : Nat) (f : Group → Group) : (s.setGroup g f).capt = s.capt := rfl
@[simp] theorem State.setGroup_captMissed (s : State) (g : Nat) (f : Group → Group) : (s.setGroup g f).captMissed = s.captMissed := rfl
@[simp] theorem State.setGroup_acc (s : State) (g : Nat) (f : Group → Group) : (s.setGroup g f).acc = s.acc := rfl
@[simp] theorem State.setGroup_bal (s : State) (g : Nat) (f : Group → Group) : (s.setGroup g f).bal = s.bal := rfl
@[simp] theorem State.setGroup_contrib (s : State) (g : Nat) (f : Group → Group) : (s.setGroup g f).contrib = s.contrib := rfl
@[simp] theorem State.setGroup_pp (s : State) (g : Nat) (f : Group → Group) : (s.setGroup g f).pp = s.pp := rfl
@[simp] theorem State.setGroup_cal (s : State) (g : Nat) (f : Group → Group) : (s.setGroup g f).cal = s.cal := rfl
@[simp] theorem State.setGroup_nvm (s : State) (g : Nat) (f : Group → Group) : (s.setGroup g f).nvm = s.nvm := rfl
@[simp] theorem State.setGroup_pwr (s : State) (g : Nat) (f : Group → Group) : (s.setGroup g f).pwr = s.pwr := rfl
@[simp] theorem State.setGroup_evt (s : State) (g : Nat) (f : Group → Group) : (s.setGroup g f).evt = s.evt := rfl
@[simp] theorem State.setGroup_ports (s : State) (g : Nat) (f : Group → Group) : (s.setGroup g f).ports = s.ports := rfl
@[simp] theorem State.setGroup_mem (s : State) (g : Nat) (f : Group → Group) : (s.setGroup g f).mem = s.mem := rfl
@[simp] theorem State.setGroup_tamper (s : State) (g : Nat) (f : Group → Group) : (s.setGroup g f).tamper = s.tamper := rfl
@[simp] theorem State.setGroup_life (s : State) (g : Nat) (f : Group → Group) : (s.setGroup g f).life = s.life := rfl
@[simp] theorem State.setGroup_disp (s : State) (g : Nat) (f : Group → Group) : (s.setGroup g f).disp = s.disp := rfl
@[simp] theorem State.setGroup_upd (s : State) (g : Nat) (f : Group → Group) : (s.setGroup g f).upd = s.upd := rfl
@[simp] theorem State.setGroup_isl (s : State) (g : Nat) (f : Group → Group) : (s.setGroup g f).isl = s.isl := rfl
@[simp] theorem State.setGroup_ans (s : State) (g : Nat) (f : Group → Group) : (s.setGroup g f).ans = s.ans := rfl
@[simp] theorem State.setGroup_pending (s : State) (g : Nat) (f : Group → Group) : (s.setGroup g f).pending = s.pending := rfl

/-! `setHk` changes `hk`. -/

@[simp] theorem State.setHk_dict (s : State) (f : Hk → Hk) : (s.setHk f).dict = s.dict := rfl
@[simp] theorem State.setHk_clock (s : State) (f : Hk → Hk) : (s.setHk f).clock = s.clock := rfl
@[simp] theorem State.setHk_mods (s : State) (f : Hk → Hk) : (s.setHk f).mods = s.mods := rfl
@[simp] theorem State.setHk_spares (s : State) (f : Hk → Hk) : (s.setHk f).spares = s.spares := rfl
@[simp] theorem State.setHk_chans (s : State) (f : Hk → Hk) : (s.setHk f).chans = s.chans := rfl
@[simp] theorem State.setHk_hk (s : State) (f : Hk → Hk) : (s.setHk f).hk = f s.hk := rfl
@[simp] theorem State.setHk_th (s : State) (f : Hk → Hk) : (s.setHk f).th = s.th := rfl
@[simp] theorem State.setHk_ftrip (s : State) (f : Hk → Hk) : (s.setHk f).ftrip = s.ftrip := rfl
@[simp] theorem State.setHk_tracks (s : State) (f : Hk → Hk) : (s.setHk f).tracks = s.tracks := rfl
@[simp] theorem State.setHk_groups (s : State) (f : Hk → Hk) : (s.setHk f).groups = s.groups := rfl
@[simp] theorem State.setHk_eng (s : State) (f : Hk → Hk) : (s.setHk f).eng = s.eng := rfl
@[simp] theorem State.setHk_accts (s : State) (f : Hk → Hk) : (s.setHk f).accts = s.accts := rfl
@[simp] theorem State.setHk_chres (s : State) (f : Hk → Hk) : (s.setHk f).chres = s.chres := rfl
@[simp] theorem State.setHk_pq (s : State) (f : Hk → Hk) : (s.setHk f).pq = s.pq := rfl
@[simp] theorem State.setHk_capt (s : State) (f : Hk → Hk) : (s.setHk f).capt = s.capt := rfl
@[simp] theorem State.setHk_captMissed (s : State) (f : Hk → Hk) : (s.setHk f).captMissed = s.captMissed := rfl
@[simp] theorem State.setHk_acc (s : State) (f : Hk → Hk) : (s.setHk f).acc = s.acc := rfl
@[simp] theorem State.setHk_bal (s : State) (f : Hk → Hk) : (s.setHk f).bal = s.bal := rfl
@[simp] theorem State.setHk_contrib (s : State) (f : Hk → Hk) : (s.setHk f).contrib = s.contrib := rfl
@[simp] theorem State.setHk_pp (s : State) (f : Hk → Hk) : (s.setHk f).pp = s.pp := rfl
@[simp] theorem State.setHk_cal (s : State) (f : Hk → Hk) : (s.setHk f).cal = s.cal := rfl
@[simp] theorem State.setHk_nvm (s : State) (f : Hk → Hk) : (s.setHk f).nvm = s.nvm := rfl
@[simp] theorem State.setHk_pwr (s : State) (f : Hk → Hk) : (s.setHk f).pwr = s.pwr := rfl
@[simp] theorem State.setHk_evt (s : State) (f : Hk → Hk) : (s.setHk f).evt = s.evt := rfl
@[simp] theorem State.setHk_ports (s : State) (f : Hk → Hk) : (s.setHk f).ports = s.ports := rfl
@[simp] theorem State.setHk_mem (s : State) (f : Hk → Hk) : (s.setHk f).mem = s.mem := rfl
@[simp] theorem State.setHk_tamper (s : State) (f : Hk → Hk) : (s.setHk f).tamper = s.tamper := rfl
@[simp] theorem State.setHk_life (s : State) (f : Hk → Hk) : (s.setHk f).life = s.life := rfl
@[simp] theorem State.setHk_disp (s : State) (f : Hk → Hk) : (s.setHk f).disp = s.disp := rfl
@[simp] theorem State.setHk_upd (s : State) (f : Hk → Hk) : (s.setHk f).upd = s.upd := rfl
@[simp] theorem State.setHk_isl (s : State) (f : Hk → Hk) : (s.setHk f).isl = s.isl := rfl
@[simp] theorem State.setHk_ans (s : State) (f : Hk → Hk) : (s.setHk f).ans = s.ans := rfl
@[simp] theorem State.setHk_pending (s : State) (f : Hk → Hk) : (s.setHk f).pending = s.pending := rfl

/-! `setCal` changes `cal`. -/

@[simp] theorem State.setCal_dict (s : State) (f : Cal → Cal) : (s.setCal f).dict = s.dict := rfl
@[simp] theorem State.setCal_clock (s : State) (f : Cal → Cal) : (s.setCal f).clock = s.clock := rfl
@[simp] theorem State.setCal_mods (s : State) (f : Cal → Cal) : (s.setCal f).mods = s.mods := rfl
@[simp] theorem State.setCal_spares (s : State) (f : Cal → Cal) : (s.setCal f).spares = s.spares := rfl
@[simp] theorem State.setCal_chans (s : State) (f : Cal → Cal) : (s.setCal f).chans = s.chans := rfl
@[simp] theorem State.setCal_hk (s : State) (f : Cal → Cal) : (s.setCal f).hk = s.hk := rfl
@[simp] theorem State.setCal_th (s : State) (f : Cal → Cal) : (s.setCal f).th = s.th := rfl
@[simp] theorem State.setCal_ftrip (s : State) (f : Cal → Cal) : (s.setCal f).ftrip = s.ftrip := rfl
@[simp] theorem State.setCal_tracks (s : State) (f : Cal → Cal) : (s.setCal f).tracks = s.tracks := rfl
@[simp] theorem State.setCal_groups (s : State) (f : Cal → Cal) : (s.setCal f).groups = s.groups := rfl
@[simp] theorem State.setCal_eng (s : State) (f : Cal → Cal) : (s.setCal f).eng = s.eng := rfl
@[simp] theorem State.setCal_accts (s : State) (f : Cal → Cal) : (s.setCal f).accts = s.accts := rfl
@[simp] theorem State.setCal_chres (s : State) (f : Cal → Cal) : (s.setCal f).chres = s.chres := rfl
@[simp] theorem State.setCal_pq (s : State) (f : Cal → Cal) : (s.setCal f).pq = s.pq := rfl
@[simp] theorem State.setCal_capt (s : State) (f : Cal → Cal) : (s.setCal f).capt = s.capt := rfl
@[simp] theorem State.setCal_captMissed (s : State) (f : Cal → Cal) : (s.setCal f).captMissed = s.captMissed := rfl
@[simp] theorem State.setCal_acc (s : State) (f : Cal → Cal) : (s.setCal f).acc = s.acc := rfl
@[simp] theorem State.setCal_bal (s : State) (f : Cal → Cal) : (s.setCal f).bal = s.bal := rfl
@[simp] theorem State.setCal_contrib (s : State) (f : Cal → Cal) : (s.setCal f).contrib = s.contrib := rfl
@[simp] theorem State.setCal_pp (s : State) (f : Cal → Cal) : (s.setCal f).pp = s.pp := rfl
@[simp] theorem State.setCal_cal (s : State) (f : Cal → Cal) : (s.setCal f).cal = f s.cal := rfl
@[simp] theorem State.setCal_nvm (s : State) (f : Cal → Cal) : (s.setCal f).nvm = s.nvm := rfl
@[simp] theorem State.setCal_pwr (s : State) (f : Cal → Cal) : (s.setCal f).pwr = s.pwr := rfl
@[simp] theorem State.setCal_evt (s : State) (f : Cal → Cal) : (s.setCal f).evt = s.evt := rfl
@[simp] theorem State.setCal_ports (s : State) (f : Cal → Cal) : (s.setCal f).ports = s.ports := rfl
@[simp] theorem State.setCal_mem (s : State) (f : Cal → Cal) : (s.setCal f).mem = s.mem := rfl
@[simp] theorem State.setCal_tamper (s : State) (f : Cal → Cal) : (s.setCal f).tamper = s.tamper := rfl
@[simp] theorem State.setCal_life (s : State) (f : Cal → Cal) : (s.setCal f).life = s.life := rfl
@[simp] theorem State.setCal_disp (s : State) (f : Cal → Cal) : (s.setCal f).disp = s.disp := rfl
@[simp] theorem State.setCal_upd (s : State) (f : Cal → Cal) : (s.setCal f).upd = s.upd := rfl
@[simp] theorem State.setCal_isl (s : State) (f : Cal → Cal) : (s.setCal f).isl = s.isl := rfl
@[simp] theorem State.setCal_ans (s : State) (f : Cal → Cal) : (s.setCal f).ans = s.ans := rfl
@[simp] theorem State.setCal_pending (s : State) (f : Cal → Cal) : (s.setCal f).pending = s.pending := rfl

/-! `setEng` changes `eng`. -/

@[simp] theorem State.setEng_dict (s : State) (f : Eng → Eng) : (s.setEng f).dict = s.dict := rfl
@[simp] theorem State.setEng_clock (s : State) (f : Eng → Eng) : (s.setEng f).clock = s.clock := rfl
@[simp] theorem State.setEng_mods (s : State) (f : Eng → Eng) : (s.setEng f).mods = s.mods := rfl
@[simp] theorem State.setEng_spares (s : State) (f : Eng → Eng) : (s.setEng f).spares = s.spares := rfl
@[simp] theorem State.setEng_chans (s : State) (f : Eng → Eng) : (s.setEng f).chans = s.chans := rfl
@[simp] theorem State.setEng_hk (s : State) (f : Eng → Eng) : (s.setEng f).hk = s.hk := rfl
@[simp] theorem State.setEng_th (s : State) (f : Eng → Eng) : (s.setEng f).th = s.th := rfl
@[simp] theorem State.setEng_ftrip (s : State) (f : Eng → Eng) : (s.setEng f).ftrip = s.ftrip := rfl
@[simp] theorem State.setEng_tracks (s : State) (f : Eng → Eng) : (s.setEng f).tracks = s.tracks := rfl
@[simp] theorem State.setEng_groups (s : State) (f : Eng → Eng) : (s.setEng f).groups = s.groups := rfl
@[simp] theorem State.setEng_eng (s : State) (f : Eng → Eng) : (s.setEng f).eng = f s.eng := rfl
@[simp] theorem State.setEng_accts (s : State) (f : Eng → Eng) : (s.setEng f).accts = s.accts := rfl
@[simp] theorem State.setEng_chres (s : State) (f : Eng → Eng) : (s.setEng f).chres = s.chres := rfl
@[simp] theorem State.setEng_pq (s : State) (f : Eng → Eng) : (s.setEng f).pq = s.pq := rfl
@[simp] theorem State.setEng_capt (s : State) (f : Eng → Eng) : (s.setEng f).capt = s.capt := rfl
@[simp] theorem State.setEng_captMissed (s : State) (f : Eng → Eng) : (s.setEng f).captMissed = s.captMissed := rfl
@[simp] theorem State.setEng_acc (s : State) (f : Eng → Eng) : (s.setEng f).acc = s.acc := rfl
@[simp] theorem State.setEng_bal (s : State) (f : Eng → Eng) : (s.setEng f).bal = s.bal := rfl
@[simp] theorem State.setEng_contrib (s : State) (f : Eng → Eng) : (s.setEng f).contrib = s.contrib := rfl
@[simp] theorem State.setEng_pp (s : State) (f : Eng → Eng) : (s.setEng f).pp = s.pp := rfl
@[simp] theorem State.setEng_cal (s : State) (f : Eng → Eng) : (s.setEng f).cal = s.cal := rfl
@[simp] theorem State.setEng_nvm (s : State) (f : Eng → Eng) : (s.setEng f).nvm = s.nvm := rfl
@[simp] theorem State.setEng_pwr (s : State) (f : Eng → Eng) : (s.setEng f).pwr = s.pwr := rfl
@[simp] theorem State.setEng_evt (s : State) (f : Eng → Eng) : (s.setEng f).evt = s.evt := rfl
@[simp] theorem State.setEng_ports (s : State) (f : Eng → Eng) : (s.setEng f).ports = s.ports := rfl
@[simp] theorem State.setEng_mem (s : State) (f : Eng → Eng) : (s.setEng f).mem = s.mem := rfl
@[simp] theorem State.setEng_tamper (s : State) (f : Eng → Eng) : (s.setEng f).tamper = s.tamper := rfl
@[simp] theorem State.setEng_life (s : State) (f : Eng → Eng) : (s.setEng f).life = s.life := rfl
@[simp] theorem State.setEng_disp (s : State) (f : Eng → Eng) : (s.setEng f).disp = s.disp := rfl
@[simp] theorem State.setEng_upd (s : State) (f : Eng → Eng) : (s.setEng f).upd = s.upd := rfl
@[simp] theorem State.setEng_isl (s : State) (f : Eng → Eng) : (s.setEng f).isl = s.isl := rfl
@[simp] theorem State.setEng_ans (s : State) (f : Eng → Eng) : (s.setEng f).ans = s.ans := rfl
@[simp] theorem State.setEng_pending (s : State) (f : Eng → Eng) : (s.setEng f).pending = s.pending := rfl

/-! `setAcc` changes `acc`. -/

@[simp] theorem State.setAcc_dict (s : State) (f : Acc → Acc) : (s.setAcc f).dict = s.dict := rfl
@[simp] theorem State.setAcc_clock (s : State) (f : Acc → Acc) : (s.setAcc f).clock = s.clock := rfl
@[simp] theorem State.setAcc_mods (s : State) (f : Acc → Acc) : (s.setAcc f).mods = s.mods := rfl
@[simp] theorem State.setAcc_spares (s : State) (f : Acc → Acc) : (s.setAcc f).spares = s.spares := rfl
@[simp] theorem State.setAcc_chans (s : State) (f : Acc → Acc) : (s.setAcc f).chans = s.chans := rfl
@[simp] theorem State.setAcc_hk (s : State) (f : Acc → Acc) : (s.setAcc f).hk = s.hk := rfl
@[simp] theorem State.setAcc_th (s : State) (f : Acc → Acc) : (s.setAcc f).th = s.th := rfl
@[simp] theorem State.setAcc_ftrip (s : State) (f : Acc → Acc) : (s.setAcc f).ftrip = s.ftrip := rfl
@[simp] theorem State.setAcc_tracks (s : State) (f : Acc → Acc) : (s.setAcc f).tracks = s.tracks := rfl
@[simp] theorem State.setAcc_groups (s : State) (f : Acc → Acc) : (s.setAcc f).groups = s.groups := rfl
@[simp] theorem State.setAcc_eng (s : State) (f : Acc → Acc) : (s.setAcc f).eng = s.eng := rfl
@[simp] theorem State.setAcc_accts (s : State) (f : Acc → Acc) : (s.setAcc f).accts = s.accts := rfl
@[simp] theorem State.setAcc_chres (s : State) (f : Acc → Acc) : (s.setAcc f).chres = s.chres := rfl
@[simp] theorem State.setAcc_pq (s : State) (f : Acc → Acc) : (s.setAcc f).pq = s.pq := rfl
@[simp] theorem State.setAcc_capt (s : State) (f : Acc → Acc) : (s.setAcc f).capt = s.capt := rfl
@[simp] theorem State.setAcc_captMissed (s : State) (f : Acc → Acc) : (s.setAcc f).captMissed = s.captMissed := rfl
@[simp] theorem State.setAcc_acc (s : State) (f : Acc → Acc) : (s.setAcc f).acc = f s.acc := rfl
@[simp] theorem State.setAcc_bal (s : State) (f : Acc → Acc) : (s.setAcc f).bal = s.bal := rfl
@[simp] theorem State.setAcc_contrib (s : State) (f : Acc → Acc) : (s.setAcc f).contrib = s.contrib := rfl
@[simp] theorem State.setAcc_pp (s : State) (f : Acc → Acc) : (s.setAcc f).pp = s.pp := rfl
@[simp] theorem State.setAcc_cal (s : State) (f : Acc → Acc) : (s.setAcc f).cal = s.cal := rfl
@[simp] theorem State.setAcc_nvm (s : State) (f : Acc → Acc) : (s.setAcc f).nvm = s.nvm := rfl
@[simp] theorem State.setAcc_pwr (s : State) (f : Acc → Acc) : (s.setAcc f).pwr = s.pwr := rfl
@[simp] theorem State.setAcc_evt (s : State) (f : Acc → Acc) : (s.setAcc f).evt = s.evt := rfl
@[simp] theorem State.setAcc_ports (s : State) (f : Acc → Acc) : (s.setAcc f).ports = s.ports := rfl
@[simp] theorem State.setAcc_mem (s : State) (f : Acc → Acc) : (s.setAcc f).mem = s.mem := rfl
@[simp] theorem State.setAcc_tamper (s : State) (f : Acc → Acc) : (s.setAcc f).tamper = s.tamper := rfl
@[simp] theorem State.setAcc_life (s : State) (f : Acc → Acc) : (s.setAcc f).life = s.life := rfl
@[simp] theorem State.setAcc_disp (s : State) (f : Acc → Acc) : (s.setAcc f).disp = s.disp := rfl
@[simp] theorem State.setAcc_upd (s : State) (f : Acc → Acc) : (s.setAcc f).upd = s.upd := rfl
@[simp] theorem State.setAcc_isl (s : State) (f : Acc → Acc) : (s.setAcc f).isl = s.isl := rfl
@[simp] theorem State.setAcc_ans (s : State) (f : Acc → Acc) : (s.setAcc f).ans = s.ans := rfl
@[simp] theorem State.setAcc_pending (s : State) (f : Acc → Acc) : (s.setAcc f).pending = s.pending := rfl

/-! `setBal` changes `bal`. -/

@[simp] theorem State.setBal_dict (s : State) (g : Nat) (f : BalGroup → BalGroup) : (s.setBal g f).dict = s.dict := rfl
@[simp] theorem State.setBal_clock (s : State) (g : Nat) (f : BalGroup → BalGroup) : (s.setBal g f).clock = s.clock := rfl
@[simp] theorem State.setBal_mods (s : State) (g : Nat) (f : BalGroup → BalGroup) : (s.setBal g f).mods = s.mods := rfl
@[simp] theorem State.setBal_spares (s : State) (g : Nat) (f : BalGroup → BalGroup) : (s.setBal g f).spares = s.spares := rfl
@[simp] theorem State.setBal_chans (s : State) (g : Nat) (f : BalGroup → BalGroup) : (s.setBal g f).chans = s.chans := rfl
@[simp] theorem State.setBal_hk (s : State) (g : Nat) (f : BalGroup → BalGroup) : (s.setBal g f).hk = s.hk := rfl
@[simp] theorem State.setBal_th (s : State) (g : Nat) (f : BalGroup → BalGroup) : (s.setBal g f).th = s.th := rfl
@[simp] theorem State.setBal_ftrip (s : State) (g : Nat) (f : BalGroup → BalGroup) : (s.setBal g f).ftrip = s.ftrip := rfl
@[simp] theorem State.setBal_tracks (s : State) (g : Nat) (f : BalGroup → BalGroup) : (s.setBal g f).tracks = s.tracks := rfl
@[simp] theorem State.setBal_groups (s : State) (g : Nat) (f : BalGroup → BalGroup) : (s.setBal g f).groups = s.groups := rfl
@[simp] theorem State.setBal_eng (s : State) (g : Nat) (f : BalGroup → BalGroup) : (s.setBal g f).eng = s.eng := rfl
@[simp] theorem State.setBal_accts (s : State) (g : Nat) (f : BalGroup → BalGroup) : (s.setBal g f).accts = s.accts := rfl
@[simp] theorem State.setBal_chres (s : State) (g : Nat) (f : BalGroup → BalGroup) : (s.setBal g f).chres = s.chres := rfl
@[simp] theorem State.setBal_pq (s : State) (g : Nat) (f : BalGroup → BalGroup) : (s.setBal g f).pq = s.pq := rfl
@[simp] theorem State.setBal_capt (s : State) (g : Nat) (f : BalGroup → BalGroup) : (s.setBal g f).capt = s.capt := rfl
@[simp] theorem State.setBal_captMissed (s : State) (g : Nat) (f : BalGroup → BalGroup) : (s.setBal g f).captMissed = s.captMissed := rfl
@[simp] theorem State.setBal_acc (s : State) (g : Nat) (f : BalGroup → BalGroup) : (s.setBal g f).acc = s.acc := rfl
@[simp] theorem State.setBal_bal (s : State) (g : Nat) (f : BalGroup → BalGroup) : (s.setBal g f).bal = s.bal.upd g f := rfl
@[simp] theorem State.setBal_contrib (s : State) (g : Nat) (f : BalGroup → BalGroup) : (s.setBal g f).contrib = s.contrib := rfl
@[simp] theorem State.setBal_pp (s : State) (g : Nat) (f : BalGroup → BalGroup) : (s.setBal g f).pp = s.pp := rfl
@[simp] theorem State.setBal_cal (s : State) (g : Nat) (f : BalGroup → BalGroup) : (s.setBal g f).cal = s.cal := rfl
@[simp] theorem State.setBal_nvm (s : State) (g : Nat) (f : BalGroup → BalGroup) : (s.setBal g f).nvm = s.nvm := rfl
@[simp] theorem State.setBal_pwr (s : State) (g : Nat) (f : BalGroup → BalGroup) : (s.setBal g f).pwr = s.pwr := rfl
@[simp] theorem State.setBal_evt (s : State) (g : Nat) (f : BalGroup → BalGroup) : (s.setBal g f).evt = s.evt := rfl
@[simp] theorem State.setBal_ports (s : State) (g : Nat) (f : BalGroup → BalGroup) : (s.setBal g f).ports = s.ports := rfl
@[simp] theorem State.setBal_mem (s : State) (g : Nat) (f : BalGroup → BalGroup) : (s.setBal g f).mem = s.mem := rfl
@[simp] theorem State.setBal_tamper (s : State) (g : Nat) (f : BalGroup → BalGroup) : (s.setBal g f).tamper = s.tamper := rfl
@[simp] theorem State.setBal_life (s : State) (g : Nat) (f : BalGroup → BalGroup) : (s.setBal g f).life = s.life := rfl
@[simp] theorem State.setBal_disp (s : State) (g : Nat) (f : BalGroup → BalGroup) : (s.setBal g f).disp = s.disp := rfl
@[simp] theorem State.setBal_upd (s : State) (g : Nat) (f : BalGroup → BalGroup) : (s.setBal g f).upd = s.upd := rfl
@[simp] theorem State.setBal_isl (s : State) (g : Nat) (f : BalGroup → BalGroup) : (s.setBal g f).isl = s.isl := rfl
@[simp] theorem State.setBal_ans (s : State) (g : Nat) (f : BalGroup → BalGroup) : (s.setBal g f).ans = s.ans := rfl
@[simp] theorem State.setBal_pending (s : State) (g : Nat) (f : BalGroup → BalGroup) : (s.setBal g f).pending = s.pending := rfl

/-! `setPq` changes `pq`. -/

@[simp] theorem State.setPq_dict (s : State) (g : Nat) (f : PqGroup → PqGroup) : (s.setPq g f).dict = s.dict := rfl
@[simp] theorem State.setPq_clock (s : State) (g : Nat) (f : PqGroup → PqGroup) : (s.setPq g f).clock = s.clock := rfl
@[simp] theorem State.setPq_mods (s : State) (g : Nat) (f : PqGroup → PqGroup) : (s.setPq g f).mods = s.mods := rfl
@[simp] theorem State.setPq_spares (s : State) (g : Nat) (f : PqGroup → PqGroup) : (s.setPq g f).spares = s.spares := rfl
@[simp] theorem State.setPq_chans (s : State) (g : Nat) (f : PqGroup → PqGroup) : (s.setPq g f).chans = s.chans := rfl
@[simp] theorem State.setPq_hk (s : State) (g : Nat) (f : PqGroup → PqGroup) : (s.setPq g f).hk = s.hk := rfl
@[simp] theorem State.setPq_th (s : State) (g : Nat) (f : PqGroup → PqGroup) : (s.setPq g f).th = s.th := rfl
@[simp] theorem State.setPq_ftrip (s : State) (g : Nat) (f : PqGroup → PqGroup) : (s.setPq g f).ftrip = s.ftrip := rfl
@[simp] theorem State.setPq_tracks (s : State) (g : Nat) (f : PqGroup → PqGroup) : (s.setPq g f).tracks = s.tracks := rfl
@[simp] theorem State.setPq_groups (s : State) (g : Nat) (f : PqGroup → PqGroup) : (s.setPq g f).groups = s.groups := rfl
@[simp] theorem State.setPq_eng (s : State) (g : Nat) (f : PqGroup → PqGroup) : (s.setPq g f).eng = s.eng := rfl
@[simp] theorem State.setPq_accts (s : State) (g : Nat) (f : PqGroup → PqGroup) : (s.setPq g f).accts = s.accts := rfl
@[simp] theorem State.setPq_chres (s : State) (g : Nat) (f : PqGroup → PqGroup) : (s.setPq g f).chres = s.chres := rfl
@[simp] theorem State.setPq_pq (s : State) (g : Nat) (f : PqGroup → PqGroup) : (s.setPq g f).pq = s.pq.upd g f := rfl
@[simp] theorem State.setPq_capt (s : State) (g : Nat) (f : PqGroup → PqGroup) : (s.setPq g f).capt = s.capt := rfl
@[simp] theorem State.setPq_captMissed (s : State) (g : Nat) (f : PqGroup → PqGroup) : (s.setPq g f).captMissed = s.captMissed := rfl
@[simp] theorem State.setPq_acc (s : State) (g : Nat) (f : PqGroup → PqGroup) : (s.setPq g f).acc = s.acc := rfl
@[simp] theorem State.setPq_bal (s : State) (g : Nat) (f : PqGroup → PqGroup) : (s.setPq g f).bal = s.bal := rfl
@[simp] theorem State.setPq_contrib (s : State) (g : Nat) (f : PqGroup → PqGroup) : (s.setPq g f).contrib = s.contrib := rfl
@[simp] theorem State.setPq_pp (s : State) (g : Nat) (f : PqGroup → PqGroup) : (s.setPq g f).pp = s.pp := rfl
@[simp] theorem State.setPq_cal (s : State) (g : Nat) (f : PqGroup → PqGroup) : (s.setPq g f).cal = s.cal := rfl
@[simp] theorem State.setPq_nvm (s : State) (g : Nat) (f : PqGroup → PqGroup) : (s.setPq g f).nvm = s.nvm := rfl
@[simp] theorem State.setPq_pwr (s : State) (g : Nat) (f : PqGroup → PqGroup) : (s.setPq g f).pwr = s.pwr := rfl
@[simp] theorem State.setPq_evt (s : State) (g : Nat) (f : PqGroup → PqGroup) : (s.setPq g f).evt = s.evt := rfl
@[simp] theorem State.setPq_ports (s : State) (g : Nat) (f : PqGroup → PqGroup) : (s.setPq g f).ports = s.ports := rfl
@[simp] theorem State.setPq_mem (s : State) (g : Nat) (f : PqGroup → PqGroup) : (s.setPq g f).mem = s.mem := rfl
@[simp] theorem State.setPq_tamper (s : State) (g : Nat) (f : PqGroup → PqGroup) : (s.setPq g f).tamper = s.tamper := rfl
@[simp] theorem State.setPq_life (s : State) (g : Nat) (f : PqGroup → PqGroup) : (s.setPq g f).life = s.life := rfl
@[simp] theorem State.setPq_disp (s : State) (g : Nat) (f : PqGroup → PqGroup) : (s.setPq g f).disp = s.disp := rfl
@[simp] theorem State.setPq_upd (s : State) (g : Nat) (f : PqGroup → PqGroup) : (s.setPq g f).upd = s.upd := rfl
@[simp] theorem State.setPq_isl (s : State) (g : Nat) (f : PqGroup → PqGroup) : (s.setPq g f).isl = s.isl := rfl
@[simp] theorem State.setPq_ans (s : State) (g : Nat) (f : PqGroup → PqGroup) : (s.setPq g f).ans = s.ans := rfl
@[simp] theorem State.setPq_pending (s : State) (g : Nat) (f : PqGroup → PqGroup) : (s.setPq g f).pending = s.pending := rfl

/-! `setPwr` changes `pwr`. -/

@[simp] theorem State.setPwr_dict (s : State) (f : Pwr → Pwr) : (s.setPwr f).dict = s.dict := rfl
@[simp] theorem State.setPwr_clock (s : State) (f : Pwr → Pwr) : (s.setPwr f).clock = s.clock := rfl
@[simp] theorem State.setPwr_mods (s : State) (f : Pwr → Pwr) : (s.setPwr f).mods = s.mods := rfl
@[simp] theorem State.setPwr_spares (s : State) (f : Pwr → Pwr) : (s.setPwr f).spares = s.spares := rfl
@[simp] theorem State.setPwr_chans (s : State) (f : Pwr → Pwr) : (s.setPwr f).chans = s.chans := rfl
@[simp] theorem State.setPwr_hk (s : State) (f : Pwr → Pwr) : (s.setPwr f).hk = s.hk := rfl
@[simp] theorem State.setPwr_th (s : State) (f : Pwr → Pwr) : (s.setPwr f).th = s.th := rfl
@[simp] theorem State.setPwr_ftrip (s : State) (f : Pwr → Pwr) : (s.setPwr f).ftrip = s.ftrip := rfl
@[simp] theorem State.setPwr_tracks (s : State) (f : Pwr → Pwr) : (s.setPwr f).tracks = s.tracks := rfl
@[simp] theorem State.setPwr_groups (s : State) (f : Pwr → Pwr) : (s.setPwr f).groups = s.groups := rfl
@[simp] theorem State.setPwr_eng (s : State) (f : Pwr → Pwr) : (s.setPwr f).eng = s.eng := rfl
@[simp] theorem State.setPwr_accts (s : State) (f : Pwr → Pwr) : (s.setPwr f).accts = s.accts := rfl
@[simp] theorem State.setPwr_chres (s : State) (f : Pwr → Pwr) : (s.setPwr f).chres = s.chres := rfl
@[simp] theorem State.setPwr_pq (s : State) (f : Pwr → Pwr) : (s.setPwr f).pq = s.pq := rfl
@[simp] theorem State.setPwr_capt (s : State) (f : Pwr → Pwr) : (s.setPwr f).capt = s.capt := rfl
@[simp] theorem State.setPwr_captMissed (s : State) (f : Pwr → Pwr) : (s.setPwr f).captMissed = s.captMissed := rfl
@[simp] theorem State.setPwr_acc (s : State) (f : Pwr → Pwr) : (s.setPwr f).acc = s.acc := rfl
@[simp] theorem State.setPwr_bal (s : State) (f : Pwr → Pwr) : (s.setPwr f).bal = s.bal := rfl
@[simp] theorem State.setPwr_contrib (s : State) (f : Pwr → Pwr) : (s.setPwr f).contrib = s.contrib := rfl
@[simp] theorem State.setPwr_pp (s : State) (f : Pwr → Pwr) : (s.setPwr f).pp = s.pp := rfl
@[simp] theorem State.setPwr_cal (s : State) (f : Pwr → Pwr) : (s.setPwr f).cal = s.cal := rfl
@[simp] theorem State.setPwr_nvm (s : State) (f : Pwr → Pwr) : (s.setPwr f).nvm = s.nvm := rfl
@[simp] theorem State.setPwr_pwr (s : State) (f : Pwr → Pwr) : (s.setPwr f).pwr = f s.pwr := rfl
@[simp] theorem State.setPwr_evt (s : State) (f : Pwr → Pwr) : (s.setPwr f).evt = s.evt := rfl
@[simp] theorem State.setPwr_ports (s : State) (f : Pwr → Pwr) : (s.setPwr f).ports = s.ports := rfl
@[simp] theorem State.setPwr_mem (s : State) (f : Pwr → Pwr) : (s.setPwr f).mem = s.mem := rfl
@[simp] theorem State.setPwr_tamper (s : State) (f : Pwr → Pwr) : (s.setPwr f).tamper = s.tamper := rfl
@[simp] theorem State.setPwr_life (s : State) (f : Pwr → Pwr) : (s.setPwr f).life = s.life := rfl
@[simp] theorem State.setPwr_disp (s : State) (f : Pwr → Pwr) : (s.setPwr f).disp = s.disp := rfl
@[simp] theorem State.setPwr_upd (s : State) (f : Pwr → Pwr) : (s.setPwr f).upd = s.upd := rfl
@[simp] theorem State.setPwr_isl (s : State) (f : Pwr → Pwr) : (s.setPwr f).isl = s.isl := rfl
@[simp] theorem State.setPwr_ans (s : State) (f : Pwr → Pwr) : (s.setPwr f).ans = s.ans := rfl
@[simp] theorem State.setPwr_pending (s : State) (f : Pwr → Pwr) : (s.setPwr f).pending = s.pending := rfl

/-! `setNvm` changes `nvm`. -/

@[simp] theorem State.setNvm_dict (s : State) (f : Nvm → Nvm) : (s.setNvm f).dict = s.dict := rfl
@[simp] theorem State.setNvm_clock (s : State) (f : Nvm → Nvm) : (s.setNvm f).clock = s.clock := rfl
@[simp] theorem State.setNvm_mods (s : State) (f : Nvm → Nvm) : (s.setNvm f).mods = s.mods := rfl
@[simp] theorem State.setNvm_spares (s : State) (f : Nvm → Nvm) : (s.setNvm f).spares = s.spares := rfl
@[simp] theorem State.setNvm_chans (s : State) (f : Nvm → Nvm) : (s.setNvm f).chans = s.chans := rfl
@[simp] theorem State.setNvm_hk (s : State) (f : Nvm → Nvm) : (s.setNvm f).hk = s.hk := rfl
@[simp] theorem State.setNvm_th (s : State) (f : Nvm → Nvm) : (s.setNvm f).th = s.th := rfl
@[simp] theorem State.setNvm_ftrip (s : State) (f : Nvm → Nvm) : (s.setNvm f).ftrip = s.ftrip := rfl
@[simp] theorem State.setNvm_tracks (s : State) (f : Nvm → Nvm) : (s.setNvm f).tracks = s.tracks := rfl
@[simp] theorem State.setNvm_groups (s : State) (f : Nvm → Nvm) : (s.setNvm f).groups = s.groups := rfl
@[simp] theorem State.setNvm_eng (s : State) (f : Nvm → Nvm) : (s.setNvm f).eng = s.eng := rfl
@[simp] theorem State.setNvm_accts (s : State) (f : Nvm → Nvm) : (s.setNvm f).accts = s.accts := rfl
@[simp] theorem State.setNvm_chres (s : State) (f : Nvm → Nvm) : (s.setNvm f).chres = s.chres := rfl
@[simp] theorem State.setNvm_pq (s : State) (f : Nvm → Nvm) : (s.setNvm f).pq = s.pq := rfl
@[simp] theorem State.setNvm_capt (s : State) (f : Nvm → Nvm) : (s.setNvm f).capt = s.capt := rfl
@[simp] theorem State.setNvm_captMissed (s : State) (f : Nvm → Nvm) : (s.setNvm f).captMissed = s.captMissed := rfl
@[simp] theorem State.setNvm_acc (s : State) (f : Nvm → Nvm) : (s.setNvm f).acc = s.acc := rfl
@[simp] theorem State.setNvm_bal (s : State) (f : Nvm → Nvm) : (s.setNvm f).bal = s.bal := rfl
@[simp] theorem State.setNvm_contrib (s : State) (f : Nvm → Nvm) : (s.setNvm f).contrib = s.contrib := rfl
@[simp] theorem State.setNvm_pp (s : State) (f : Nvm → Nvm) : (s.setNvm f).pp = s.pp := rfl
@[simp] theorem State.setNvm_cal (s : State) (f : Nvm → Nvm) : (s.setNvm f).cal = s.cal := rfl
@[simp] theorem State.setNvm_nvm (s : State) (f : Nvm → Nvm) : (s.setNvm f).nvm = f s.nvm := rfl
@[simp] theorem State.setNvm_pwr (s : State) (f : Nvm → Nvm) : (s.setNvm f).pwr = s.pwr := rfl
@[simp] theorem State.setNvm_evt (s : State) (f : Nvm → Nvm) : (s.setNvm f).evt = s.evt := rfl
@[simp] theorem State.setNvm_ports (s : State) (f : Nvm → Nvm) : (s.setNvm f).ports = s.ports := rfl
@[simp] theorem State.setNvm_mem (s : State) (f : Nvm → Nvm) : (s.setNvm f).mem = s.mem := rfl
@[simp] theorem State.setNvm_tamper (s : State) (f : Nvm → Nvm) : (s.setNvm f).tamper = s.tamper := rfl
@[simp] theorem State.setNvm_life (s : State) (f : Nvm → Nvm) : (s.setNvm f).life = s.life := rfl
@[simp] theorem State.setNvm_disp (s : State) (f : Nvm → Nvm) : (s.setNvm f).disp = s.disp := rfl
@[simp] theorem State.setNvm_upd (s : State) (f : Nvm → Nvm) : (s.setNvm f).upd = s.upd := rfl
@[simp] theorem State.setNvm_isl (s : State) (f : Nvm → Nvm) : (s.setNvm f).isl = s.isl := rfl
@[simp] theorem State.setNvm_ans (s : State) (f : Nvm → Nvm) : (s.setNvm f).ans = s.ans := rfl
@[simp] theorem State.setNvm_pending (s : State) (f : Nvm → Nvm) : (s.setNvm f).pending = s.pending := rfl

/-! `setPp` changes `pp`. -/

@[simp] theorem State.setPp_dict (s : State) (f : Pp → Pp) : (s.setPp f).dict = s.dict := rfl
@[simp] theorem State.setPp_clock (s : State) (f : Pp → Pp) : (s.setPp f).clock = s.clock := rfl
@[simp] theorem State.setPp_mods (s : State) (f : Pp → Pp) : (s.setPp f).mods = s.mods := rfl
@[simp] theorem State.setPp_spares (s : State) (f : Pp → Pp) : (s.setPp f).spares = s.spares := rfl
@[simp] theorem State.setPp_chans (s : State) (f : Pp → Pp) : (s.setPp f).chans = s.chans := rfl
@[simp] theorem State.setPp_hk (s : State) (f : Pp → Pp) : (s.setPp f).hk = s.hk := rfl
@[simp] theorem State.setPp_th (s : State) (f : Pp → Pp) : (s.setPp f).th = s.th := rfl
@[simp] theorem State.setPp_ftrip (s : State) (f : Pp → Pp) : (s.setPp f).ftrip = s.ftrip := rfl
@[simp] theorem State.setPp_tracks (s : State) (f : Pp → Pp) : (s.setPp f).tracks = s.tracks := rfl
@[simp] theorem State.setPp_groups (s : State) (f : Pp → Pp) : (s.setPp f).groups = s.groups := rfl
@[simp] theorem State.setPp_eng (s : State) (f : Pp → Pp) : (s.setPp f).eng = s.eng := rfl
@[simp] theorem State.setPp_accts (s : State) (f : Pp → Pp) : (s.setPp f).accts = s.accts := rfl
@[simp] theorem State.setPp_chres (s : State) (f : Pp → Pp) : (s.setPp f).chres = s.chres := rfl
@[simp] theorem State.setPp_pq (s : State) (f : Pp → Pp) : (s.setPp f).pq = s.pq := rfl
@[simp] theorem State.setPp_capt (s : State) (f : Pp → Pp) : (s.setPp f).capt = s.capt := rfl
@[simp] theorem State.setPp_captMissed (s : State) (f : Pp → Pp) : (s.setPp f).captMissed = s.captMissed := rfl
@[simp] theorem State.setPp_acc (s : State) (f : Pp → Pp) : (s.setPp f).acc = s.acc := rfl
@[simp] theorem State.setPp_bal (s : State) (f : Pp → Pp) : (s.setPp f).bal = s.bal := rfl
@[simp] theorem State.setPp_contrib (s : State) (f : Pp → Pp) : (s.setPp f).contrib = s.contrib := rfl
@[simp] theorem State.setPp_pp (s : State) (f : Pp → Pp) : (s.setPp f).pp = f s.pp := rfl
@[simp] theorem State.setPp_cal (s : State) (f : Pp → Pp) : (s.setPp f).cal = s.cal := rfl
@[simp] theorem State.setPp_nvm (s : State) (f : Pp → Pp) : (s.setPp f).nvm = s.nvm := rfl
@[simp] theorem State.setPp_pwr (s : State) (f : Pp → Pp) : (s.setPp f).pwr = s.pwr := rfl
@[simp] theorem State.setPp_evt (s : State) (f : Pp → Pp) : (s.setPp f).evt = s.evt := rfl
@[simp] theorem State.setPp_ports (s : State) (f : Pp → Pp) : (s.setPp f).ports = s.ports := rfl
@[simp] theorem State.setPp_mem (s : State) (f : Pp → Pp) : (s.setPp f).mem = s.mem := rfl
@[simp] theorem State.setPp_tamper (s : State) (f : Pp → Pp) : (s.setPp f).tamper = s.tamper := rfl
@[simp] theorem State.setPp_life (s : State) (f : Pp → Pp) : (s.setPp f).life = s.life := rfl
@[simp] theorem State.setPp_disp (s : State) (f : Pp → Pp) : (s.setPp f).disp = s.disp := rfl
@[simp] theorem State.setPp_upd (s : State) (f : Pp → Pp) : (s.setPp f).upd = s.upd := rfl
@[simp] theorem State.setPp_isl (s : State) (f : Pp → Pp) : (s.setPp f).isl = s.isl := rfl
@[simp] theorem State.setPp_ans (s : State) (f : Pp → Pp) : (s.setPp f).ans = s.ans := rfl
@[simp] theorem State.setPp_pending (s : State) (f : Pp → Pp) : (s.setPp f).pending = s.pending := rfl

/-! `setUpd` changes `upd`. -/

@[simp] theorem State.setUpd_dict (s : State) (f : Upd → Upd) : (s.setUpd f).dict = s.dict := rfl
@[simp] theorem State.setUpd_clock (s : State) (f : Upd → Upd) : (s.setUpd f).clock = s.clock := rfl
@[simp] theorem State.setUpd_mods (s : State) (f : Upd → Upd) : (s.setUpd f).mods = s.mods := rfl
@[simp] theorem State.setUpd_spares (s : State) (f : Upd → Upd) : (s.setUpd f).spares = s.spares := rfl
@[simp] theorem State.setUpd_chans (s : State) (f : Upd → Upd) : (s.setUpd f).chans = s.chans := rfl
@[simp] theorem State.setUpd_hk (s : State) (f : Upd → Upd) : (s.setUpd f).hk = s.hk := rfl
@[simp] theorem State.setUpd_th (s : State) (f : Upd → Upd) : (s.setUpd f).th = s.th := rfl
@[simp] theorem State.setUpd_ftrip (s : State) (f : Upd → Upd) : (s.setUpd f).ftrip = s.ftrip := rfl
@[simp] theorem State.setUpd_tracks (s : State) (f : Upd → Upd) : (s.setUpd f).tracks = s.tracks := rfl
@[simp] theorem State.setUpd_groups (s : State) (f : Upd → Upd) : (s.setUpd f).groups = s.groups := rfl
@[simp] theorem State.setUpd_eng (s : State) (f : Upd → Upd) : (s.setUpd f).eng = s.eng := rfl
@[simp] theorem State.setUpd_accts (s : State) (f : Upd → Upd) : (s.setUpd f).accts = s.accts := rfl
@[simp] theorem State.setUpd_chres (s : State) (f : Upd → Upd) : (s.setUpd f).chres = s.chres := rfl
@[simp] theorem State.setUpd_pq (s : State) (f : Upd → Upd) : (s.setUpd f).pq = s.pq := rfl
@[simp] theorem State.setUpd_capt (s : State) (f : Upd → Upd) : (s.setUpd f).capt = s.capt := rfl
@[simp] theorem State.setUpd_captMissed (s : State) (f : Upd → Upd) : (s.setUpd f).captMissed = s.captMissed := rfl
@[simp] theorem State.setUpd_acc (s : State) (f : Upd → Upd) : (s.setUpd f).acc = s.acc := rfl
@[simp] theorem State.setUpd_bal (s : State) (f : Upd → Upd) : (s.setUpd f).bal = s.bal := rfl
@[simp] theorem State.setUpd_contrib (s : State) (f : Upd → Upd) : (s.setUpd f).contrib = s.contrib := rfl
@[simp] theorem State.setUpd_pp (s : State) (f : Upd → Upd) : (s.setUpd f).pp = s.pp := rfl
@[simp] theorem State.setUpd_cal (s : State) (f : Upd → Upd) : (s.setUpd f).cal = s.cal := rfl
@[simp] theorem State.setUpd_nvm (s : State) (f : Upd → Upd) : (s.setUpd f).nvm = s.nvm := rfl
@[simp] theorem State.setUpd_pwr (s : State) (f : Upd → Upd) : (s.setUpd f).pwr = s.pwr := rfl
@[simp] theorem State.setUpd_evt (s : State) (f : Upd → Upd) : (s.setUpd f).evt = s.evt := rfl
@[simp] theorem State.setUpd_ports (s : State) (f : Upd → Upd) : (s.setUpd f).ports = s.ports := rfl
@[simp] theorem State.setUpd_mem (s : State) (f : Upd → Upd) : (s.setUpd f).mem = s.mem := rfl
@[simp] theorem State.setUpd_tamper (s : State) (f : Upd → Upd) : (s.setUpd f).tamper = s.tamper := rfl
@[simp] theorem State.setUpd_life (s : State) (f : Upd → Upd) : (s.setUpd f).life = s.life := rfl
@[simp] theorem State.setUpd_disp (s : State) (f : Upd → Upd) : (s.setUpd f).disp = s.disp := rfl
@[simp] theorem State.setUpd_upd (s : State) (f : Upd → Upd) : (s.setUpd f).upd = f s.upd := rfl
@[simp] theorem State.setUpd_isl (s : State) (f : Upd → Upd) : (s.setUpd f).isl = s.isl := rfl
@[simp] theorem State.setUpd_ans (s : State) (f : Upd → Upd) : (s.setUpd f).ans = s.ans := rfl
@[simp] theorem State.setUpd_pending (s : State) (f : Upd → Upd) : (s.setUpd f).pending = s.pending := rfl

/-! `setIsl` changes `isl`. -/

@[simp] theorem State.setIsl_dict (s : State) (f : Isl → Isl) : (s.setIsl f).dict = s.dict := rfl
@[simp] theorem State.setIsl_clock (s : State) (f : Isl → Isl) : (s.setIsl f).clock = s.clock := rfl
@[simp] theorem State.setIsl_mods (s : State) (f : Isl → Isl) : (s.setIsl f).mods = s.mods := rfl
@[simp] theorem State.setIsl_spares (s : State) (f : Isl → Isl) : (s.setIsl f).spares = s.spares := rfl
@[simp] theorem State.setIsl_chans (s : State) (f : Isl → Isl) : (s.setIsl f).chans = s.chans := rfl
@[simp] theorem State.setIsl_hk (s : State) (f : Isl → Isl) : (s.setIsl f).hk = s.hk := rfl
@[simp] theorem State.setIsl_th (s : State) (f : Isl → Isl) : (s.setIsl f).th = s.th := rfl
@[simp] theorem State.setIsl_ftrip (s : State) (f : Isl → Isl) : (s.setIsl f).ftrip = s.ftrip := rfl
@[simp] theorem State.setIsl_tracks (s : State) (f : Isl → Isl) : (s.setIsl f).tracks = s.tracks := rfl
@[simp] theorem State.setIsl_groups (s : State) (f : Isl → Isl) : (s.setIsl f).groups = s.groups := rfl
@[simp] theorem State.setIsl_eng (s : State) (f : Isl → Isl) : (s.setIsl f).eng = s.eng := rfl
@[simp] theorem State.setIsl_accts (s : State) (f : Isl → Isl) : (s.setIsl f).accts = s.accts := rfl
@[simp] theorem State.setIsl_chres (s : State) (f : Isl → Isl) : (s.setIsl f).chres = s.chres := rfl
@[simp] theorem State.setIsl_pq (s : State) (f : Isl → Isl) : (s.setIsl f).pq = s.pq := rfl
@[simp] theorem State.setIsl_capt (s : State) (f : Isl → Isl) : (s.setIsl f).capt = s.capt := rfl
@[simp] theorem State.setIsl_captMissed (s : State) (f : Isl → Isl) : (s.setIsl f).captMissed = s.captMissed := rfl
@[simp] theorem State.setIsl_acc (s : State) (f : Isl → Isl) : (s.setIsl f).acc = s.acc := rfl
@[simp] theorem State.setIsl_bal (s : State) (f : Isl → Isl) : (s.setIsl f).bal = s.bal := rfl
@[simp] theorem State.setIsl_contrib (s : State) (f : Isl → Isl) : (s.setIsl f).contrib = s.contrib := rfl
@[simp] theorem State.setIsl_pp (s : State) (f : Isl → Isl) : (s.setIsl f).pp = s.pp := rfl
@[simp] theorem State.setIsl_cal (s : State) (f : Isl → Isl) : (s.setIsl f).cal = s.cal := rfl
@[simp] theorem State.setIsl_nvm (s : State) (f : Isl → Isl) : (s.setIsl f).nvm = s.nvm := rfl
@[simp] theorem State.setIsl_pwr (s : State) (f : Isl → Isl) : (s.setIsl f).pwr = s.pwr := rfl
@[simp] theorem State.setIsl_evt (s : State) (f : Isl → Isl) : (s.setIsl f).evt = s.evt := rfl
@[simp] theorem State.setIsl_ports (s : State) (f : Isl → Isl) : (s.setIsl f).ports = s.ports := rfl
@[simp] theorem State.setIsl_mem (s : State) (f : Isl → Isl) : (s.setIsl f).mem = s.mem := rfl
@[simp] theorem State.setIsl_tamper (s : State) (f : Isl → Isl) : (s.setIsl f).tamper = s.tamper := rfl
@[simp] theorem State.setIsl_life (s : State) (f : Isl → Isl) : (s.setIsl f).life = s.life := rfl
@[simp] theorem State.setIsl_disp (s : State) (f : Isl → Isl) : (s.setIsl f).disp = s.disp := rfl
@[simp] theorem State.setIsl_upd (s : State) (f : Isl → Isl) : (s.setIsl f).upd = s.upd := rfl
@[simp] theorem State.setIsl_isl (s : State) (f : Isl → Isl) : (s.setIsl f).isl = f s.isl := rfl
@[simp] theorem State.setIsl_ans (s : State) (f : Isl → Isl) : (s.setIsl f).ans = s.ans := rfl
@[simp] theorem State.setIsl_pending (s : State) (f : Isl → Isl) : (s.setIsl f).pending = s.pending := rfl

/-! `setMem` changes `mem`. -/

@[simp] theorem State.setMem_dict (s : State) (f : Mem → Mem) : (s.setMem f).dict = s.dict := rfl
@[simp] theorem State.setMem_clock (s : State) (f : Mem → Mem) : (s.setMem f).clock = s.clock := rfl
@[simp] theorem State.setMem_mods (s : State) (f : Mem → Mem) : (s.setMem f).mods = s.mods := rfl
@[simp] theorem State.setMem_spares (s : State) (f : Mem → Mem) : (s.setMem f).spares = s.spares := rfl
@[simp] theorem State.setMem_chans (s : State) (f : Mem → Mem) : (s.setMem f).chans = s.chans := rfl
@[simp] theorem State.setMem_hk (s : State) (f : Mem → Mem) : (s.setMem f).hk = s.hk := rfl
@[simp] theorem State.setMem_th (s : State) (f : Mem → Mem) : (s.setMem f).th = s.th := rfl
@[simp] theorem State.setMem_ftrip (s : State) (f : Mem → Mem) : (s.setMem f).ftrip = s.ftrip := rfl
@[simp] theorem State.setMem_tracks (s : State) (f : Mem → Mem) : (s.setMem f).tracks = s.tracks := rfl
@[simp] theorem State.setMem_groups (s : State) (f : Mem → Mem) : (s.setMem f).groups = s.groups := rfl
@[simp] theorem State.setMem_eng (s : State) (f : Mem → Mem) : (s.setMem f).eng = s.eng := rfl
@[simp] theorem State.setMem_accts (s : State) (f : Mem → Mem) : (s.setMem f).accts = s.accts := rfl
@[simp] theorem State.setMem_chres (s : State) (f : Mem → Mem) : (s.setMem f).chres = s.chres := rfl
@[simp] theorem State.setMem_pq (s : State) (f : Mem → Mem) : (s.setMem f).pq = s.pq := rfl
@[simp] theorem State.setMem_capt (s : State) (f : Mem → Mem) : (s.setMem f).capt = s.capt := rfl
@[simp] theorem State.setMem_captMissed (s : State) (f : Mem → Mem) : (s.setMem f).captMissed = s.captMissed := rfl
@[simp] theorem State.setMem_acc (s : State) (f : Mem → Mem) : (s.setMem f).acc = s.acc := rfl
@[simp] theorem State.setMem_bal (s : State) (f : Mem → Mem) : (s.setMem f).bal = s.bal := rfl
@[simp] theorem State.setMem_contrib (s : State) (f : Mem → Mem) : (s.setMem f).contrib = s.contrib := rfl
@[simp] theorem State.setMem_pp (s : State) (f : Mem → Mem) : (s.setMem f).pp = s.pp := rfl
@[simp] theorem State.setMem_cal (s : State) (f : Mem → Mem) : (s.setMem f).cal = s.cal := rfl
@[simp] theorem State.setMem_nvm (s : State) (f : Mem → Mem) : (s.setMem f).nvm = s.nvm := rfl
@[simp] theorem State.setMem_pwr (s : State) (f : Mem → Mem) : (s.setMem f).pwr = s.pwr := rfl
@[simp] theorem State.setMem_evt (s : State) (f : Mem → Mem) : (s.setMem f).evt = s.evt := rfl
@[simp] theorem State.setMem_ports (s : State) (f : Mem → Mem) : (s.setMem f).ports = s.ports := rfl
@[simp] theorem State.setMem_mem (s : State) (f : Mem → Mem) : (s.setMem f).mem = f s.mem := rfl
@[simp] theorem State.setMem_tamper (s : State) (f : Mem → Mem) : (s.setMem f).tamper = s.tamper := rfl
@[simp] theorem State.setMem_life (s : State) (f : Mem → Mem) : (s.setMem f).life = s.life := rfl
@[simp] theorem State.setMem_disp (s : State) (f : Mem → Mem) : (s.setMem f).disp = s.disp := rfl
@[simp] theorem State.setMem_upd (s : State) (f : Mem → Mem) : (s.setMem f).upd = s.upd := rfl
@[simp] theorem State.setMem_isl (s : State) (f : Mem → Mem) : (s.setMem f).isl = s.isl := rfl
@[simp] theorem State.setMem_ans (s : State) (f : Mem → Mem) : (s.setMem f).ans = s.ans := rfl
@[simp] theorem State.setMem_pending (s : State) (f : Mem → Mem) : (s.setMem f).pending = s.pending := rfl

/-! `setEvt` changes `evt`. -/

@[simp] theorem State.setEvt_dict (s : State) (f : Evt → Evt) : (s.setEvt f).dict = s.dict := rfl
@[simp] theorem State.setEvt_clock (s : State) (f : Evt → Evt) : (s.setEvt f).clock = s.clock := rfl
@[simp] theorem State.setEvt_mods (s : State) (f : Evt → Evt) : (s.setEvt f).mods = s.mods := rfl
@[simp] theorem State.setEvt_spares (s : State) (f : Evt → Evt) : (s.setEvt f).spares = s.spares := rfl
@[simp] theorem State.setEvt_chans (s : State) (f : Evt → Evt) : (s.setEvt f).chans = s.chans := rfl
@[simp] theorem State.setEvt_hk (s : State) (f : Evt → Evt) : (s.setEvt f).hk = s.hk := rfl
@[simp] theorem State.setEvt_th (s : State) (f : Evt → Evt) : (s.setEvt f).th = s.th := rfl
@[simp] theorem State.setEvt_ftrip (s : State) (f : Evt → Evt) : (s.setEvt f).ftrip = s.ftrip := rfl
@[simp] theorem State.setEvt_tracks (s : State) (f : Evt → Evt) : (s.setEvt f).tracks = s.tracks := rfl
@[simp] theorem State.setEvt_groups (s : State) (f : Evt → Evt) : (s.setEvt f).groups = s.groups := rfl
@[simp] theorem State.setEvt_eng (s : State) (f : Evt → Evt) : (s.setEvt f).eng = s.eng := rfl
@[simp] theorem State.setEvt_accts (s : State) (f : Evt → Evt) : (s.setEvt f).accts = s.accts := rfl
@[simp] theorem State.setEvt_chres (s : State) (f : Evt → Evt) : (s.setEvt f).chres = s.chres := rfl
@[simp] theorem State.setEvt_pq (s : State) (f : Evt → Evt) : (s.setEvt f).pq = s.pq := rfl
@[simp] theorem State.setEvt_capt (s : State) (f : Evt → Evt) : (s.setEvt f).capt = s.capt := rfl
@[simp] theorem State.setEvt_captMissed (s : State) (f : Evt → Evt) : (s.setEvt f).captMissed = s.captMissed := rfl
@[simp] theorem State.setEvt_acc (s : State) (f : Evt → Evt) : (s.setEvt f).acc = s.acc := rfl
@[simp] theorem State.setEvt_bal (s : State) (f : Evt → Evt) : (s.setEvt f).bal = s.bal := rfl
@[simp] theorem State.setEvt_contrib (s : State) (f : Evt → Evt) : (s.setEvt f).contrib = s.contrib := rfl
@[simp] theorem State.setEvt_pp (s : State) (f : Evt → Evt) : (s.setEvt f).pp = s.pp := rfl
@[simp] theorem State.setEvt_cal (s : State) (f : Evt → Evt) : (s.setEvt f).cal = s.cal := rfl
@[simp] theorem State.setEvt_nvm (s : State) (f : Evt → Evt) : (s.setEvt f).nvm = s.nvm := rfl
@[simp] theorem State.setEvt_pwr (s : State) (f : Evt → Evt) : (s.setEvt f).pwr = s.pwr := rfl
@[simp] theorem State.setEvt_evt (s : State) (f : Evt → Evt) : (s.setEvt f).evt = f s.evt := rfl
@[simp] theorem State.setEvt_ports (s : State) (f : Evt → Evt) : (s.setEvt f).ports = s.ports := rfl
@[simp] theorem State.setEvt_mem (s : State) (f : Evt → Evt) : (s.setEvt f).mem = s.mem := rfl
@[simp] theorem State.setEvt_tamper (s : State) (f : Evt → Evt) : (s.setEvt f).tamper = s.tamper := rfl
@[simp] theorem State.setEvt_life (s : State) (f : Evt → Evt) : (s.setEvt f).life = s.life := rfl
@[simp] theorem State.setEvt_disp (s : State) (f : Evt → Evt) : (s.setEvt f).disp = s.disp := rfl
@[simp] theorem State.setEvt_upd (s : State) (f : Evt → Evt) : (s.setEvt f).upd = s.upd := rfl
@[simp] theorem State.setEvt_isl (s : State) (f : Evt → Evt) : (s.setEvt f).isl = s.isl := rfl
@[simp] theorem State.setEvt_ans (s : State) (f : Evt → Evt) : (s.setEvt f).ans = s.ans := rfl
@[simp] theorem State.setEvt_pending (s : State) (f : Evt → Evt) : (s.setEvt f).pending = s.pending := rfl

/-! `setStep` changes `cal`. -/

@[simp] theorem State.setStep_dict (s : State) (ch : Nat) (f : StepCh → StepCh) : (s.setStep ch f).dict = s.dict := rfl
@[simp] theorem State.setStep_clock (s : State) (ch : Nat) (f : StepCh → StepCh) : (s.setStep ch f).clock = s.clock := rfl
@[simp] theorem State.setStep_mods (s : State) (ch : Nat) (f : StepCh → StepCh) : (s.setStep ch f).mods = s.mods := rfl
@[simp] theorem State.setStep_spares (s : State) (ch : Nat) (f : StepCh → StepCh) : (s.setStep ch f).spares = s.spares := rfl
@[simp] theorem State.setStep_chans (s : State) (ch : Nat) (f : StepCh → StepCh) : (s.setStep ch f).chans = s.chans := rfl
@[simp] theorem State.setStep_hk (s : State) (ch : Nat) (f : StepCh → StepCh) : (s.setStep ch f).hk = s.hk := rfl
@[simp] theorem State.setStep_th (s : State) (ch : Nat) (f : StepCh → StepCh) : (s.setStep ch f).th = s.th := rfl
@[simp] theorem State.setStep_ftrip (s : State) (ch : Nat) (f : StepCh → StepCh) : (s.setStep ch f).ftrip = s.ftrip := rfl
@[simp] theorem State.setStep_tracks (s : State) (ch : Nat) (f : StepCh → StepCh) : (s.setStep ch f).tracks = s.tracks := rfl
@[simp] theorem State.setStep_groups (s : State) (ch : Nat) (f : StepCh → StepCh) : (s.setStep ch f).groups = s.groups := rfl
@[simp] theorem State.setStep_eng (s : State) (ch : Nat) (f : StepCh → StepCh) : (s.setStep ch f).eng = s.eng := rfl
@[simp] theorem State.setStep_accts (s : State) (ch : Nat) (f : StepCh → StepCh) : (s.setStep ch f).accts = s.accts := rfl
@[simp] theorem State.setStep_chres (s : State) (ch : Nat) (f : StepCh → StepCh) : (s.setStep ch f).chres = s.chres := rfl
@[simp] theorem State.setStep_pq (s : State) (ch : Nat) (f : StepCh → StepCh) : (s.setStep ch f).pq = s.pq := rfl
@[simp] theorem State.setStep_capt (s : State) (ch : Nat) (f : StepCh → StepCh) : (s.setStep ch f).capt = s.capt := rfl
@[simp] theorem State.setStep_captMissed (s : State) (ch : Nat) (f : StepCh → StepCh) : (s.setStep ch f).captMissed = s.captMissed := rfl
@[simp] theorem State.setStep_acc (s : State) (ch : Nat) (f : StepCh → StepCh) : (s.setStep ch f).acc = s.acc := rfl
@[simp] theorem State.setStep_bal (s : State) (ch : Nat) (f : StepCh → StepCh) : (s.setStep ch f).bal = s.bal := rfl
@[simp] theorem State.setStep_contrib (s : State) (ch : Nat) (f : StepCh → StepCh) : (s.setStep ch f).contrib = s.contrib := rfl
@[simp] theorem State.setStep_pp (s : State) (ch : Nat) (f : StepCh → StepCh) : (s.setStep ch f).pp = s.pp := rfl
@[simp] theorem State.setStep_cal (s : State) (ch : Nat) (f : StepCh → StepCh) : (s.setStep ch f).cal = { s.cal with chans := s.cal.chans.upd ch (fun x => x.map f) } := rfl
@[simp] theorem State.setStep_nvm (s : State) (ch : Nat) (f : StepCh → StepCh) : (s.setStep ch f).nvm = s.nvm := rfl
@[simp] theorem State.setStep_pwr (s : State) (ch : Nat) (f : StepCh → StepCh) : (s.setStep ch f).pwr = s.pwr := rfl
@[simp] theorem State.setStep_evt (s : State) (ch : Nat) (f : StepCh → StepCh) : (s.setStep ch f).evt = s.evt := rfl
@[simp] theorem State.setStep_ports (s : State) (ch : Nat) (f : StepCh → StepCh) : (s.setStep ch f).ports = s.ports := rfl
@[simp] theorem State.setStep_mem (s : State) (ch : Nat) (f : StepCh → StepCh) : (s.setStep ch f).mem = s.mem := rfl
@[simp] theorem State.setStep_tamper (s : State) (ch : Nat) (f : StepCh → StepCh) : (s.setStep ch f).tamper = s.tamper := rfl
@[simp] theorem State.setStep_life (s : State) (ch : Nat) (f : StepCh → StepCh) : (s.setStep ch f).life = s.life := rfl
@[simp] theorem State.setStep_disp (s : State) (ch : Nat) (f : StepCh → StepCh) : (s.setStep ch f).disp = s.disp := rfl
@[simp] theorem State.setStep_upd (s : State) (ch : Nat) (f : StepCh → StepCh) : (s.setStep ch f).upd = s.upd := rfl
@[simp] theorem State.setStep_isl (s : State) (ch : Nat) (f : StepCh → StepCh) : (s.setStep ch f).isl = s.isl := rfl
@[simp] theorem State.setStep_ans (s : State) (ch : Nat) (f : StepCh → StepCh) : (s.setStep ch f).ans = s.ans := rfl
@[simp] theorem State.setStep_pending (s : State) (ch : Nat) (f : StepCh → StepCh) : (s.setStep ch f).pending = s.pending := rfl

/-! `setSlot` changes `capt`. -/

@[simp] theorem State.setSlot_dict (s : State) (k : Nat) (f : CaptSlot → CaptSlot) : (s.setSlot k f).dict = s.dict := rfl
@[simp] theorem State.setSlot_clock (s : State) (k : Nat) (f : CaptSlot → CaptSlot) : (s.setSlot k f).clock = s.clock := rfl
@[simp] theorem State.setSlot_mods (s : State) (k : Nat) (f : CaptSlot → CaptSlot) : (s.setSlot k f).mods = s.mods := rfl
@[simp] theorem State.setSlot_spares (s : State) (k : Nat) (f : CaptSlot → CaptSlot) : (s.setSlot k f).spares = s.spares := rfl
@[simp] theorem State.setSlot_chans (s : State) (k : Nat) (f : CaptSlot → CaptSlot) : (s.setSlot k f).chans = s.chans := rfl
@[simp] theorem State.setSlot_hk (s : State) (k : Nat) (f : CaptSlot → CaptSlot) : (s.setSlot k f).hk = s.hk := rfl
@[simp] theorem State.setSlot_th (s : State) (k : Nat) (f : CaptSlot → CaptSlot) : (s.setSlot k f).th = s.th := rfl
@[simp] theorem State.setSlot_ftrip (s : State) (k : Nat) (f : CaptSlot → CaptSlot) : (s.setSlot k f).ftrip = s.ftrip := rfl
@[simp] theorem State.setSlot_tracks (s : State) (k : Nat) (f : CaptSlot → CaptSlot) : (s.setSlot k f).tracks = s.tracks := rfl
@[simp] theorem State.setSlot_groups (s : State) (k : Nat) (f : CaptSlot → CaptSlot) : (s.setSlot k f).groups = s.groups := rfl
@[simp] theorem State.setSlot_eng (s : State) (k : Nat) (f : CaptSlot → CaptSlot) : (s.setSlot k f).eng = s.eng := rfl
@[simp] theorem State.setSlot_accts (s : State) (k : Nat) (f : CaptSlot → CaptSlot) : (s.setSlot k f).accts = s.accts := rfl
@[simp] theorem State.setSlot_chres (s : State) (k : Nat) (f : CaptSlot → CaptSlot) : (s.setSlot k f).chres = s.chres := rfl
@[simp] theorem State.setSlot_pq (s : State) (k : Nat) (f : CaptSlot → CaptSlot) : (s.setSlot k f).pq = s.pq := rfl
@[simp] theorem State.setSlot_capt (s : State) (k : Nat) (f : CaptSlot → CaptSlot) : (s.setSlot k f).capt = s.capt.upd k f := rfl
@[simp] theorem State.setSlot_captMissed (s : State) (k : Nat) (f : CaptSlot → CaptSlot) : (s.setSlot k f).captMissed = s.captMissed := rfl
@[simp] theorem State.setSlot_acc (s : State) (k : Nat) (f : CaptSlot → CaptSlot) : (s.setSlot k f).acc = s.acc := rfl
@[simp] theorem State.setSlot_bal (s : State) (k : Nat) (f : CaptSlot → CaptSlot) : (s.setSlot k f).bal = s.bal := rfl
@[simp] theorem State.setSlot_contrib (s : State) (k : Nat) (f : CaptSlot → CaptSlot) : (s.setSlot k f).contrib = s.contrib := rfl
@[simp] theorem State.setSlot_pp (s : State) (k : Nat) (f : CaptSlot → CaptSlot) : (s.setSlot k f).pp = s.pp := rfl
@[simp] theorem State.setSlot_cal (s : State) (k : Nat) (f : CaptSlot → CaptSlot) : (s.setSlot k f).cal = s.cal := rfl
@[simp] theorem State.setSlot_nvm (s : State) (k : Nat) (f : CaptSlot → CaptSlot) : (s.setSlot k f).nvm = s.nvm := rfl
@[simp] theorem State.setSlot_pwr (s : State) (k : Nat) (f : CaptSlot → CaptSlot) : (s.setSlot k f).pwr = s.pwr := rfl
@[simp] theorem State.setSlot_evt (s : State) (k : Nat) (f : CaptSlot → CaptSlot) : (s.setSlot k f).evt = s.evt := rfl
@[simp] theorem State.setSlot_ports (s : State) (k : Nat) (f : CaptSlot → CaptSlot) : (s.setSlot k f).ports = s.ports := rfl
@[simp] theorem State.setSlot_mem (s : State) (k : Nat) (f : CaptSlot → CaptSlot) : (s.setSlot k f).mem = s.mem := rfl
@[simp] theorem State.setSlot_tamper (s : State) (k : Nat) (f : CaptSlot → CaptSlot) : (s.setSlot k f).tamper = s.tamper := rfl
@[simp] theorem State.setSlot_life (s : State) (k : Nat) (f : CaptSlot → CaptSlot) : (s.setSlot k f).life = s.life := rfl
@[simp] theorem State.setSlot_disp (s : State) (k : Nat) (f : CaptSlot → CaptSlot) : (s.setSlot k f).disp = s.disp := rfl
@[simp] theorem State.setSlot_upd (s : State) (k : Nat) (f : CaptSlot → CaptSlot) : (s.setSlot k f).upd = s.upd := rfl
@[simp] theorem State.setSlot_isl (s : State) (k : Nat) (f : CaptSlot → CaptSlot) : (s.setSlot k f).isl = s.isl := rfl
@[simp] theorem State.setSlot_ans (s : State) (k : Nat) (f : CaptSlot → CaptSlot) : (s.setSlot k f).ans = s.ans := rfl
@[simp] theorem State.setSlot_pending (s : State) (k : Nat) (f : CaptSlot → CaptSlot) : (s.setSlot k f).pending = s.pending := rfl

/-! `setDisp` changes `disp`. -/

@[simp] theorem State.setDisp_dict (s : State) (f : Disp → Disp) : (s.setDisp f).dict = s.dict := rfl
@[simp] theorem State.setDisp_clock (s : State) (f : Disp → Disp) : (s.setDisp f).clock = s.clock := rfl
@[simp] theorem State.setDisp_mods (s : State) (f : Disp → Disp) : (s.setDisp f).mods = s.mods := rfl
@[simp] theorem State.setDisp_spares (s : State) (f : Disp → Disp) : (s.setDisp f).spares = s.spares := rfl
@[simp] theorem State.setDisp_chans (s : State) (f : Disp → Disp) : (s.setDisp f).chans = s.chans := rfl
@[simp] theorem State.setDisp_hk (s : State) (f : Disp → Disp) : (s.setDisp f).hk = s.hk := rfl
@[simp] theorem State.setDisp_th (s : State) (f : Disp → Disp) : (s.setDisp f).th = s.th := rfl
@[simp] theorem State.setDisp_ftrip (s : State) (f : Disp → Disp) : (s.setDisp f).ftrip = s.ftrip := rfl
@[simp] theorem State.setDisp_tracks (s : State) (f : Disp → Disp) : (s.setDisp f).tracks = s.tracks := rfl
@[simp] theorem State.setDisp_groups (s : State) (f : Disp → Disp) : (s.setDisp f).groups = s.groups := rfl
@[simp] theorem State.setDisp_eng (s : State) (f : Disp → Disp) : (s.setDisp f).eng = s.eng := rfl
@[simp] theorem State.setDisp_accts (s : State) (f : Disp → Disp) : (s.setDisp f).accts = s.accts := rfl
@[simp] theorem State.setDisp_chres (s : State) (f : Disp → Disp) : (s.setDisp f).chres = s.chres := rfl
@[simp] theorem State.setDisp_pq (s : State) (f : Disp → Disp) : (s.setDisp f).pq = s.pq := rfl
@[simp] theorem State.setDisp_capt (s : State) (f : Disp → Disp) : (s.setDisp f).capt = s.capt := rfl
@[simp] theorem State.setDisp_captMissed (s : State) (f : Disp → Disp) : (s.setDisp f).captMissed = s.captMissed := rfl
@[simp] theorem State.setDisp_acc (s : State) (f : Disp → Disp) : (s.setDisp f).acc = s.acc := rfl
@[simp] theorem State.setDisp_bal (s : State) (f : Disp → Disp) : (s.setDisp f).bal = s.bal := rfl
@[simp] theorem State.setDisp_contrib (s : State) (f : Disp → Disp) : (s.setDisp f).contrib = s.contrib := rfl
@[simp] theorem State.setDisp_pp (s : State) (f : Disp → Disp) : (s.setDisp f).pp = s.pp := rfl
@[simp] theorem State.setDisp_cal (s : State) (f : Disp → Disp) : (s.setDisp f).cal = s.cal := rfl
@[simp] theorem State.setDisp_nvm (s : State) (f : Disp → Disp) : (s.setDisp f).nvm = s.nvm := rfl
@[simp] theorem State.setDisp_pwr (s : State) (f : Disp → Disp) : (s.setDisp f).pwr = s.pwr := rfl
@[simp] theorem State.setDisp_evt (s : State) (f : Disp → Disp) : (s.setDisp f).evt = s.evt := rfl
@[simp] theorem State.setDisp_ports (s : State) (f : Disp → Disp) : (s.setDisp f).ports = s.ports := rfl
@[simp] theorem State.setDisp_mem (s : State) (f : Disp → Disp) : (s.setDisp f).mem = s.mem := rfl
@[simp] theorem State.setDisp_tamper (s : State) (f : Disp → Disp) : (s.setDisp f).tamper = s.tamper := rfl
@[simp] theorem State.setDisp_life (s : State) (f : Disp → Disp) : (s.setDisp f).life = s.life := rfl
@[simp] theorem State.setDisp_disp (s : State) (f : Disp → Disp) : (s.setDisp f).disp = f s.disp := rfl
@[simp] theorem State.setDisp_upd (s : State) (f : Disp → Disp) : (s.setDisp f).upd = s.upd := rfl
@[simp] theorem State.setDisp_isl (s : State) (f : Disp → Disp) : (s.setDisp f).isl = s.isl := rfl
@[simp] theorem State.setDisp_ans (s : State) (f : Disp → Disp) : (s.setDisp f).ans = s.ans := rfl
@[simp] theorem State.setDisp_pending (s : State) (f : Disp → Disp) : (s.setDisp f).pending = s.pending := rfl

/-! `setSelv` changes `disp`. -/

@[simp] theorem State.setSelv_dict (s : State) (i : Nat) (f : Selv → Selv) : (s.setSelv i f).dict = s.dict := rfl
@[simp] theorem State.setSelv_clock (s : State) (i : Nat) (f : Selv → Selv) : (s.setSelv i f).clock = s.clock := rfl
@[simp] theorem State.setSelv_mods (s : State) (i : Nat) (f : Selv → Selv) : (s.setSelv i f).mods = s.mods := rfl
@[simp] theorem State.setSelv_spares (s : State) (i : Nat) (f : Selv → Selv) : (s.setSelv i f).spares = s.spares := rfl
@[simp] theorem State.setSelv_chans (s : State) (i : Nat) (f : Selv → Selv) : (s.setSelv i f).chans = s.chans := rfl
@[simp] theorem State.setSelv_hk (s : State) (i : Nat) (f : Selv → Selv) : (s.setSelv i f).hk = s.hk := rfl
@[simp] theorem State.setSelv_th (s : State) (i : Nat) (f : Selv → Selv) : (s.setSelv i f).th = s.th := rfl
@[simp] theorem State.setSelv_ftrip (s : State) (i : Nat) (f : Selv → Selv) : (s.setSelv i f).ftrip = s.ftrip := rfl
@[simp] theorem State.setSelv_tracks (s : State) (i : Nat) (f : Selv → Selv) : (s.setSelv i f).tracks = s.tracks := rfl
@[simp] theorem State.setSelv_groups (s : State) (i : Nat) (f : Selv → Selv) : (s.setSelv i f).groups = s.groups := rfl
@[simp] theorem State.setSelv_eng (s : State) (i : Nat) (f : Selv → Selv) : (s.setSelv i f).eng = s.eng := rfl
@[simp] theorem State.setSelv_accts (s : State) (i : Nat) (f : Selv → Selv) : (s.setSelv i f).accts = s.accts := rfl
@[simp] theorem State.setSelv_chres (s : State) (i : Nat) (f : Selv → Selv) : (s.setSelv i f).chres = s.chres := rfl
@[simp] theorem State.setSelv_pq (s : State) (i : Nat) (f : Selv → Selv) : (s.setSelv i f).pq = s.pq := rfl
@[simp] theorem State.setSelv_capt (s : State) (i : Nat) (f : Selv → Selv) : (s.setSelv i f).capt = s.capt := rfl
@[simp] theorem State.setSelv_captMissed (s : State) (i : Nat) (f : Selv → Selv) : (s.setSelv i f).captMissed = s.captMissed := rfl
@[simp] theorem State.setSelv_acc (s : State) (i : Nat) (f : Selv → Selv) : (s.setSelv i f).acc = s.acc := rfl
@[simp] theorem State.setSelv_bal (s : State) (i : Nat) (f : Selv → Selv) : (s.setSelv i f).bal = s.bal := rfl
@[simp] theorem State.setSelv_contrib (s : State) (i : Nat) (f : Selv → Selv) : (s.setSelv i f).contrib = s.contrib := rfl
@[simp] theorem State.setSelv_pp (s : State) (i : Nat) (f : Selv → Selv) : (s.setSelv i f).pp = s.pp := rfl
@[simp] theorem State.setSelv_cal (s : State) (i : Nat) (f : Selv → Selv) : (s.setSelv i f).cal = s.cal := rfl
@[simp] theorem State.setSelv_nvm (s : State) (i : Nat) (f : Selv → Selv) : (s.setSelv i f).nvm = s.nvm := rfl
@[simp] theorem State.setSelv_pwr (s : State) (i : Nat) (f : Selv → Selv) : (s.setSelv i f).pwr = s.pwr := rfl
@[simp] theorem State.setSelv_evt (s : State) (i : Nat) (f : Selv → Selv) : (s.setSelv i f).evt = s.evt := rfl
@[simp] theorem State.setSelv_ports (s : State) (i : Nat) (f : Selv → Selv) : (s.setSelv i f).ports = s.ports := rfl
@[simp] theorem State.setSelv_mem (s : State) (i : Nat) (f : Selv → Selv) : (s.setSelv i f).mem = s.mem := rfl
@[simp] theorem State.setSelv_tamper (s : State) (i : Nat) (f : Selv → Selv) : (s.setSelv i f).tamper = s.tamper := rfl
@[simp] theorem State.setSelv_life (s : State) (i : Nat) (f : Selv → Selv) : (s.setSelv i f).life = s.life := rfl
@[simp] theorem State.setSelv_disp (s : State) (i : Nat) (f : Selv → Selv) : (s.setSelv i f).disp = { s.disp with selv := s.disp.selv.upd i f } := rfl
@[simp] theorem State.setSelv_upd (s : State) (i : Nat) (f : Selv → Selv) : (s.setSelv i f).upd = s.upd := rfl
@[simp] theorem State.setSelv_isl (s : State) (i : Nat) (f : Selv → Selv) : (s.setSelv i f).isl = s.isl := rfl
@[simp] theorem State.setSelv_ans (s : State) (i : Nat) (f : Selv → Selv) : (s.setSelv i f).ans = s.ans := rfl
@[simp] theorem State.setSelv_pending (s : State) (i : Nat) (f : Selv → Selv) : (s.setSelv i f).pending = s.pending := rfl

/-! `setEngine` changes `eng`. -/

@[simp] theorem State.setEngine_dict (s : State) (k : Nat) (f : Engine → Engine) : (s.setEngine k f).dict = s.dict := rfl
@[simp] theorem State.setEngine_clock (s : State) (k : Nat) (f : Engine → Engine) : (s.setEngine k f).clock = s.clock := rfl
@[simp] theorem State.setEngine_mods (s : State) (k : Nat) (f : Engine → Engine) : (s.setEngine k f).mods = s.mods := rfl
@[simp] theorem State.setEngine_spares (s : State) (k : Nat) (f : Engine → Engine) : (s.setEngine k f).spares = s.spares := rfl
@[simp] theorem State.setEngine_chans (s : State) (k : Nat) (f : Engine → Engine) : (s.setEngine k f).chans = s.chans := rfl
@[simp] theorem State.setEngine_hk (s : State) (k : Nat) (f : Engine → Engine) : (s.setEngine k f).hk = s.hk := rfl
@[simp] theorem State.setEngine_th (s : State) (k : Nat) (f : Engine → Engine) : (s.setEngine k f).th = s.th := rfl
@[simp] theorem State.setEngine_ftrip (s : State) (k : Nat) (f : Engine → Engine) : (s.setEngine k f).ftrip = s.ftrip := rfl
@[simp] theorem State.setEngine_tracks (s : State) (k : Nat) (f : Engine → Engine) : (s.setEngine k f).tracks = s.tracks := rfl
@[simp] theorem State.setEngine_groups (s : State) (k : Nat) (f : Engine → Engine) : (s.setEngine k f).groups = s.groups := rfl
@[simp] theorem State.setEngine_eng (s : State) (k : Nat) (f : Engine → Engine) : (s.setEngine k f).eng = { s.eng with engines := s.eng.engines.upd k f } := rfl
@[simp] theorem State.setEngine_accts (s : State) (k : Nat) (f : Engine → Engine) : (s.setEngine k f).accts = s.accts := rfl
@[simp] theorem State.setEngine_chres (s : State) (k : Nat) (f : Engine → Engine) : (s.setEngine k f).chres = s.chres := rfl
@[simp] theorem State.setEngine_pq (s : State) (k : Nat) (f : Engine → Engine) : (s.setEngine k f).pq = s.pq := rfl
@[simp] theorem State.setEngine_capt (s : State) (k : Nat) (f : Engine → Engine) : (s.setEngine k f).capt = s.capt := rfl
@[simp] theorem State.setEngine_captMissed (s : State) (k : Nat) (f : Engine → Engine) : (s.setEngine k f).captMissed = s.captMissed := rfl
@[simp] theorem State.setEngine_acc (s : State) (k : Nat) (f : Engine → Engine) : (s.setEngine k f).acc = s.acc := rfl
@[simp] theorem State.setEngine_bal (s : State) (k : Nat) (f : Engine → Engine) : (s.setEngine k f).bal = s.bal := rfl
@[simp] theorem State.setEngine_contrib (s : State) (k : Nat) (f : Engine → Engine) : (s.setEngine k f).contrib = s.contrib := rfl
@[simp] theorem State.setEngine_pp (s : State) (k : Nat) (f : Engine → Engine) : (s.setEngine k f).pp = s.pp := rfl
@[simp] theorem State.setEngine_cal (s : State) (k : Nat) (f : Engine → Engine) : (s.setEngine k f).cal = s.cal := rfl
@[simp] theorem State.setEngine_nvm (s : State) (k : Nat) (f : Engine → Engine) : (s.setEngine k f).nvm = s.nvm := rfl
@[simp] theorem State.setEngine_pwr (s : State) (k : Nat) (f : Engine → Engine) : (s.setEngine k f).pwr = s.pwr := rfl
@[simp] theorem State.setEngine_evt (s : State) (k : Nat) (f : Engine → Engine) : (s.setEngine k f).evt = s.evt := rfl
@[simp] theorem State.setEngine_ports (s : State) (k : Nat) (f : Engine → Engine) : (s.setEngine k f).ports = s.ports := rfl
@[simp] theorem State.setEngine_mem (s : State) (k : Nat) (f : Engine → Engine) : (s.setEngine k f).mem = s.mem := rfl
@[simp] theorem State.setEngine_tamper (s : State) (k : Nat) (f : Engine → Engine) : (s.setEngine k f).tamper = s.tamper := rfl
@[simp] theorem State.setEngine_life (s : State) (k : Nat) (f : Engine → Engine) : (s.setEngine k f).life = s.life := rfl
@[simp] theorem State.setEngine_disp (s : State) (k : Nat) (f : Engine → Engine) : (s.setEngine k f).disp = s.disp := rfl
@[simp] theorem State.setEngine_upd (s : State) (k : Nat) (f : Engine → Engine) : (s.setEngine k f).upd = s.upd := rfl
@[simp] theorem State.setEngine_isl (s : State) (k : Nat) (f : Engine → Engine) : (s.setEngine k f).isl = s.isl := rfl
@[simp] theorem State.setEngine_ans (s : State) (k : Nat) (f : Engine → Engine) : (s.setEngine k f).ans = s.ans := rfl
@[simp] theorem State.setEngine_pending (s : State) (k : Nat) (f : Engine → Engine) : (s.setEngine k f).pending = s.pending := rfl

/-! `setCluster` changes `eng`. -/

@[simp] theorem State.setCluster_dict (s : State) (k : Nat) (f : Cluster → Cluster) : (s.setCluster k f).dict = s.dict := rfl
@[simp] theorem State.setCluster_clock (s : State) (k : Nat) (f : Cluster → Cluster) : (s.setCluster k f).clock = s.clock := rfl
@[simp] theorem State.setCluster_mods (s : State) (k : Nat) (f : Cluster → Cluster) : (s.setCluster k f).mods = s.mods := rfl
@[simp] theorem State.setCluster_spares (s : State) (k : Nat) (f : Cluster → Cluster) : (s.setCluster k f).spares = s.spares := rfl
@[simp] theorem State.setCluster_chans (s : State) (k : Nat) (f : Cluster → Cluster) : (s.setCluster k f).chans = s.chans := rfl
@[simp] theorem State.setCluster_hk (s : State) (k : Nat) (f : Cluster → Cluster) : (s.setCluster k f).hk = s.hk := rfl
@[simp] theorem State.setCluster_th (s : State) (k : Nat) (f : Cluster → Cluster) : (s.setCluster k f).th = s.th := rfl
@[simp] theorem State.setCluster_ftrip (s : State) (k : Nat) (f : Cluster → Cluster) : (s.setCluster k f).ftrip = s.ftrip := rfl
@[simp] theorem State.setCluster_tracks (s : State) (k : Nat) (f : Cluster → Cluster) : (s.setCluster k f).tracks = s.tracks := rfl
@[simp] theorem State.setCluster_groups (s : State) (k : Nat) (f : Cluster → Cluster) : (s.setCluster k f).groups = s.groups := rfl
@[simp] theorem State.setCluster_eng (s : State) (k : Nat) (f : Cluster → Cluster) : (s.setCluster k f).eng = { s.eng with clusters := s.eng.clusters.upd k f } := rfl
@[simp] theorem State.setCluster_accts (s : State) (k : Nat) (f : Cluster → Cluster) : (s.setCluster k f).accts = s.accts := rfl
@[simp] theorem State.setCluster_chres (s : State) (k : Nat) (f : Cluster → Cluster) : (s.setCluster k f).chres = s.chres := rfl
@[simp] theorem State.setCluster_pq (s : State) (k : Nat) (f : Cluster → Cluster) : (s.setCluster k f).pq = s.pq := rfl
@[simp] theorem State.setCluster_capt (s : State) (k : Nat) (f : Cluster → Cluster) : (s.setCluster k f).capt = s.capt := rfl
@[simp] theorem State.setCluster_captMissed (s : State) (k : Nat) (f : Cluster → Cluster) : (s.setCluster k f).captMissed = s.captMissed := rfl
@[simp] theorem State.setCluster_acc (s : State) (k : Nat) (f : Cluster → Cluster) : (s.setCluster k f).acc = s.acc := rfl
@[simp] theorem State.setCluster_bal (s : State) (k : Nat) (f : Cluster → Cluster) : (s.setCluster k f).bal = s.bal := rfl
@[simp] theorem State.setCluster_contrib (s : State) (k : Nat) (f : Cluster → Cluster) : (s.setCluster k f).contrib = s.contrib := rfl
@[simp] theorem State.setCluster_pp (s : State) (k : Nat) (f : Cluster → Cluster) : (s.setCluster k f).pp = s.pp := rfl
@[simp] theorem State.setCluster_cal (s : State) (k : Nat) (f : Cluster → Cluster) : (s.setCluster k f).cal = s.cal := rfl
@[simp] theorem State.setCluster_nvm (s : State) (k : Nat) (f : Cluster → Cluster) : (s.setCluster k f).nvm = s.nvm := rfl
@[simp] theorem State.setCluster_pwr (s : State) (k : Nat) (f : Cluster → Cluster) : (s.setCluster k f).pwr = s.pwr := rfl
@[simp] theorem State.setCluster_evt (s : State) (k : Nat) (f : Cluster → Cluster) : (s.setCluster k f).evt = s.evt := rfl
@[simp] theorem State.setCluster_ports (s : State) (k : Nat) (f : Cluster → Cluster) : (s.setCluster k f).ports = s.ports := rfl
@[simp] theorem State.setCluster_mem (s : State) (k : Nat) (f : Cluster → Cluster) : (s.setCluster k f).mem = s.mem := rfl
@[simp] theorem State.setCluster_tamper (s : State) (k : Nat) (f : Cluster → Cluster) : (s.setCluster k f).tamper = s.tamper := rfl
@[simp] theorem State.setCluster_life (s : State) (k : Nat) (f : Cluster → Cluster) : (s.setCluster k f).life = s.life := rfl
@[simp] theorem State.setCluster_disp (s : State) (k : Nat) (f : Cluster → Cluster) : (s.setCluster k f).disp = s.disp := rfl
@[simp] theorem State.setCluster_upd (s : State) (k : Nat) (f : Cluster → Cluster) : (s.setCluster k f).upd = s.upd := rfl
@[simp] theorem State.setCluster_isl (s : State) (k : Nat) (f : Cluster → Cluster) : (s.setCluster k f).isl = s.isl := rfl
@[simp] theorem State.setCluster_ans (s : State) (k : Nat) (f : Cluster → Cluster) : (s.setCluster k f).ans = s.ans := rfl
@[simp] theorem State.setCluster_pending (s : State) (k : Nat) (f : Cluster → Cluster) : (s.setCluster k f).pending = s.pending := rfl

/-! `setEntry` changes `eng`. -/

@[simp] theorem State.setEntry_dict (s : State) (h : Held) (f : Stitch → Stitch) : (s.setEntry h f).dict = s.dict := rfl
@[simp] theorem State.setEntry_clock (s : State) (h : Held) (f : Stitch → Stitch) : (s.setEntry h f).clock = s.clock := rfl
@[simp] theorem State.setEntry_mods (s : State) (h : Held) (f : Stitch → Stitch) : (s.setEntry h f).mods = s.mods := rfl
@[simp] theorem State.setEntry_spares (s : State) (h : Held) (f : Stitch → Stitch) : (s.setEntry h f).spares = s.spares := rfl
@[simp] theorem State.setEntry_chans (s : State) (h : Held) (f : Stitch → Stitch) : (s.setEntry h f).chans = s.chans := rfl
@[simp] theorem State.setEntry_hk (s : State) (h : Held) (f : Stitch → Stitch) : (s.setEntry h f).hk = s.hk := rfl
@[simp] theorem State.setEntry_th (s : State) (h : Held) (f : Stitch → Stitch) : (s.setEntry h f).th = s.th := rfl
@[simp] theorem State.setEntry_ftrip (s : State) (h : Held) (f : Stitch → Stitch) : (s.setEntry h f).ftrip = s.ftrip := rfl
@[simp] theorem State.setEntry_tracks (s : State) (h : Held) (f : Stitch → Stitch) : (s.setEntry h f).tracks = s.tracks := rfl
@[simp] theorem State.setEntry_groups (s : State) (h : Held) (f : Stitch → Stitch) : (s.setEntry h f).groups = s.groups := rfl
@[simp] theorem State.setEntry_eng (s : State) (h : Held) (f : Stitch → Stitch) : (s.setEntry h f).eng = { s.eng with wq := s.eng.wq.upd h.q (fun l => l.map (fun t => if h.is t then f t else t)) } := rfl
@[simp] theorem State.setEntry_accts (s : State) (h : Held) (f : Stitch → Stitch) : (s.setEntry h f).accts = s.accts := rfl
@[simp] theorem State.setEntry_chres (s : State) (h : Held) (f : Stitch → Stitch) : (s.setEntry h f).chres = s.chres := rfl
@[simp] theorem State.setEntry_pq (s : State) (h : Held) (f : Stitch → Stitch) : (s.setEntry h f).pq = s.pq := rfl
@[simp] theorem State.setEntry_capt (s : State) (h : Held) (f : Stitch → Stitch) : (s.setEntry h f).capt = s.capt := rfl
@[simp] theorem State.setEntry_captMissed (s : State) (h : Held) (f : Stitch → Stitch) : (s.setEntry h f).captMissed = s.captMissed := rfl
@[simp] theorem State.setEntry_acc (s : State) (h : Held) (f : Stitch → Stitch) : (s.setEntry h f).acc = s.acc := rfl
@[simp] theorem State.setEntry_bal (s : State) (h : Held) (f : Stitch → Stitch) : (s.setEntry h f).bal = s.bal := rfl
@[simp] theorem State.setEntry_contrib (s : State) (h : Held) (f : Stitch → Stitch) : (s.setEntry h f).contrib = s.contrib := rfl
@[simp] theorem State.setEntry_pp (s : State) (h : Held) (f : Stitch → Stitch) : (s.setEntry h f).pp = s.pp := rfl
@[simp] theorem State.setEntry_cal (s : State) (h : Held) (f : Stitch → Stitch) : (s.setEntry h f).cal = s.cal := rfl
@[simp] theorem State.setEntry_nvm (s : State) (h : Held) (f : Stitch → Stitch) : (s.setEntry h f).nvm = s.nvm := rfl
@[simp] theorem State.setEntry_pwr (s : State) (h : Held) (f : Stitch → Stitch) : (s.setEntry h f).pwr = s.pwr := rfl
@[simp] theorem State.setEntry_evt (s : State) (h : Held) (f : Stitch → Stitch) : (s.setEntry h f).evt = s.evt := rfl
@[simp] theorem State.setEntry_ports (s : State) (h : Held) (f : Stitch → Stitch) : (s.setEntry h f).ports = s.ports := rfl
@[simp] theorem State.setEntry_mem (s : State) (h : Held) (f : Stitch → Stitch) : (s.setEntry h f).mem = s.mem := rfl
@[simp] theorem State.setEntry_tamper (s : State) (h : Held) (f : Stitch → Stitch) : (s.setEntry h f).tamper = s.tamper := rfl
@[simp] theorem State.setEntry_life (s : State) (h : Held) (f : Stitch → Stitch) : (s.setEntry h f).life = s.life := rfl
@[simp] theorem State.setEntry_disp (s : State) (h : Held) (f : Stitch → Stitch) : (s.setEntry h f).disp = s.disp := rfl
@[simp] theorem State.setEntry_upd (s : State) (h : Held) (f : Stitch → Stitch) : (s.setEntry h f).upd = s.upd := rfl
@[simp] theorem State.setEntry_isl (s : State) (h : Held) (f : Stitch → Stitch) : (s.setEntry h f).isl = s.isl := rfl
@[simp] theorem State.setEntry_ans (s : State) (h : Held) (f : Stitch → Stitch) : (s.setEntry h f).ans = s.ans := rfl
@[simp] theorem State.setEntry_pending (s : State) (h : Held) (f : Stitch → Stitch) : (s.setEntry h f).pending = s.pending := rfl

/-! `setTh` changes `th`. -/

@[simp] theorem State.setTh_dict (s : State) (ch : Nat) (f : ThPair → ThPair) : (s.setTh ch f).dict = s.dict := rfl
@[simp] theorem State.setTh_clock (s : State) (ch : Nat) (f : ThPair → ThPair) : (s.setTh ch f).clock = s.clock := rfl
@[simp] theorem State.setTh_mods (s : State) (ch : Nat) (f : ThPair → ThPair) : (s.setTh ch f).mods = s.mods := rfl
@[simp] theorem State.setTh_spares (s : State) (ch : Nat) (f : ThPair → ThPair) : (s.setTh ch f).spares = s.spares := rfl
@[simp] theorem State.setTh_chans (s : State) (ch : Nat) (f : ThPair → ThPair) : (s.setTh ch f).chans = s.chans := rfl
@[simp] theorem State.setTh_hk (s : State) (ch : Nat) (f : ThPair → ThPair) : (s.setTh ch f).hk = s.hk := rfl
@[simp] theorem State.setTh_th (s : State) (ch : Nat) (f : ThPair → ThPair) : (s.setTh ch f).th = s.th.upd ch f := rfl
@[simp] theorem State.setTh_ftrip (s : State) (ch : Nat) (f : ThPair → ThPair) : (s.setTh ch f).ftrip = s.ftrip := rfl
@[simp] theorem State.setTh_tracks (s : State) (ch : Nat) (f : ThPair → ThPair) : (s.setTh ch f).tracks = s.tracks := rfl
@[simp] theorem State.setTh_groups (s : State) (ch : Nat) (f : ThPair → ThPair) : (s.setTh ch f).groups = s.groups := rfl
@[simp] theorem State.setTh_eng (s : State) (ch : Nat) (f : ThPair → ThPair) : (s.setTh ch f).eng = s.eng := rfl
@[simp] theorem State.setTh_accts (s : State) (ch : Nat) (f : ThPair → ThPair) : (s.setTh ch f).accts = s.accts := rfl
@[simp] theorem State.setTh_chres (s : State) (ch : Nat) (f : ThPair → ThPair) : (s.setTh ch f).chres = s.chres := rfl
@[simp] theorem State.setTh_pq (s : State) (ch : Nat) (f : ThPair → ThPair) : (s.setTh ch f).pq = s.pq := rfl
@[simp] theorem State.setTh_capt (s : State) (ch : Nat) (f : ThPair → ThPair) : (s.setTh ch f).capt = s.capt := rfl
@[simp] theorem State.setTh_captMissed (s : State) (ch : Nat) (f : ThPair → ThPair) : (s.setTh ch f).captMissed = s.captMissed := rfl
@[simp] theorem State.setTh_acc (s : State) (ch : Nat) (f : ThPair → ThPair) : (s.setTh ch f).acc = s.acc := rfl
@[simp] theorem State.setTh_bal (s : State) (ch : Nat) (f : ThPair → ThPair) : (s.setTh ch f).bal = s.bal := rfl
@[simp] theorem State.setTh_contrib (s : State) (ch : Nat) (f : ThPair → ThPair) : (s.setTh ch f).contrib = s.contrib := rfl
@[simp] theorem State.setTh_pp (s : State) (ch : Nat) (f : ThPair → ThPair) : (s.setTh ch f).pp = s.pp := rfl
@[simp] theorem State.setTh_cal (s : State) (ch : Nat) (f : ThPair → ThPair) : (s.setTh ch f).cal = s.cal := rfl
@[simp] theorem State.setTh_nvm (s : State) (ch : Nat) (f : ThPair → ThPair) : (s.setTh ch f).nvm = s.nvm := rfl
@[simp] theorem State.setTh_pwr (s : State) (ch : Nat) (f : ThPair → ThPair) : (s.setTh ch f).pwr = s.pwr := rfl
@[simp] theorem State.setTh_evt (s : State) (ch : Nat) (f : ThPair → ThPair) : (s.setTh ch f).evt = s.evt := rfl
@[simp] theorem State.setTh_ports (s : State) (ch : Nat) (f : ThPair → ThPair) : (s.setTh ch f).ports = s.ports := rfl
@[simp] theorem State.setTh_mem (s : State) (ch : Nat) (f : ThPair → ThPair) : (s.setTh ch f).mem = s.mem := rfl
@[simp] theorem State.setTh_tamper (s : State) (ch : Nat) (f : ThPair → ThPair) : (s.setTh ch f).tamper = s.tamper := rfl
@[simp] theorem State.setTh_life (s : State) (ch : Nat) (f : ThPair → ThPair) : (s.setTh ch f).life = s.life := rfl
@[simp] theorem State.setTh_disp (s : State) (ch : Nat) (f : ThPair → ThPair) : (s.setTh ch f).disp = s.disp := rfl
@[simp] theorem State.setTh_upd (s : State) (ch : Nat) (f : ThPair → ThPair) : (s.setTh ch f).upd = s.upd := rfl
@[simp] theorem State.setTh_isl (s : State) (ch : Nat) (f : ThPair → ThPair) : (s.setTh ch f).isl = s.isl := rfl
@[simp] theorem State.setTh_ans (s : State) (ch : Nat) (f : ThPair → ThPair) : (s.setTh ch f).ans = s.ans := rfl
@[simp] theorem State.setTh_pending (s : State) (ch : Nat) (f : ThPair → ThPair) : (s.setTh ch f).pending = s.pending := rfl

/-! `setFtrip` changes `ftrip`. -/

@[simp] theorem State.setFtrip_dict (s : State) (n : Nat) (f : Ftrip → Ftrip) : (s.setFtrip n f).dict = s.dict := rfl
@[simp] theorem State.setFtrip_clock (s : State) (n : Nat) (f : Ftrip → Ftrip) : (s.setFtrip n f).clock = s.clock := rfl
@[simp] theorem State.setFtrip_mods (s : State) (n : Nat) (f : Ftrip → Ftrip) : (s.setFtrip n f).mods = s.mods := rfl
@[simp] theorem State.setFtrip_spares (s : State) (n : Nat) (f : Ftrip → Ftrip) : (s.setFtrip n f).spares = s.spares := rfl
@[simp] theorem State.setFtrip_chans (s : State) (n : Nat) (f : Ftrip → Ftrip) : (s.setFtrip n f).chans = s.chans := rfl
@[simp] theorem State.setFtrip_hk (s : State) (n : Nat) (f : Ftrip → Ftrip) : (s.setFtrip n f).hk = s.hk := rfl
@[simp] theorem State.setFtrip_th (s : State) (n : Nat) (f : Ftrip → Ftrip) : (s.setFtrip n f).th = s.th := rfl
@[simp] theorem State.setFtrip_ftrip (s : State) (n : Nat) (f : Ftrip → Ftrip) : (s.setFtrip n f).ftrip = s.ftrip.upd n f := rfl
@[simp] theorem State.setFtrip_tracks (s : State) (n : Nat) (f : Ftrip → Ftrip) : (s.setFtrip n f).tracks = s.tracks := rfl
@[simp] theorem State.setFtrip_groups (s : State) (n : Nat) (f : Ftrip → Ftrip) : (s.setFtrip n f).groups = s.groups := rfl
@[simp] theorem State.setFtrip_eng (s : State) (n : Nat) (f : Ftrip → Ftrip) : (s.setFtrip n f).eng = s.eng := rfl
@[simp] theorem State.setFtrip_accts (s : State) (n : Nat) (f : Ftrip → Ftrip) : (s.setFtrip n f).accts = s.accts := rfl
@[simp] theorem State.setFtrip_chres (s : State) (n : Nat) (f : Ftrip → Ftrip) : (s.setFtrip n f).chres = s.chres := rfl
@[simp] theorem State.setFtrip_pq (s : State) (n : Nat) (f : Ftrip → Ftrip) : (s.setFtrip n f).pq = s.pq := rfl
@[simp] theorem State.setFtrip_capt (s : State) (n : Nat) (f : Ftrip → Ftrip) : (s.setFtrip n f).capt = s.capt := rfl
@[simp] theorem State.setFtrip_captMissed (s : State) (n : Nat) (f : Ftrip → Ftrip) : (s.setFtrip n f).captMissed = s.captMissed := rfl
@[simp] theorem State.setFtrip_acc (s : State) (n : Nat) (f : Ftrip → Ftrip) : (s.setFtrip n f).acc = s.acc := rfl
@[simp] theorem State.setFtrip_bal (s : State) (n : Nat) (f : Ftrip → Ftrip) : (s.setFtrip n f).bal = s.bal := rfl
@[simp] theorem State.setFtrip_contrib (s : State) (n : Nat) (f : Ftrip → Ftrip) : (s.setFtrip n f).contrib = s.contrib := rfl
@[simp] theorem State.setFtrip_pp (s : State) (n : Nat) (f : Ftrip → Ftrip) : (s.setFtrip n f).pp = s.pp := rfl
@[simp] theorem State.setFtrip_cal (s : State) (n : Nat) (f : Ftrip → Ftrip) : (s.setFtrip n f).cal = s.cal := rfl
@[simp] theorem State.setFtrip_nvm (s : State) (n : Nat) (f : Ftrip → Ftrip) : (s.setFtrip n f).nvm = s.nvm := rfl
@[simp] theorem State.setFtrip_pwr (s : State) (n : Nat) (f : Ftrip → Ftrip) : (s.setFtrip n f).pwr = s.pwr := rfl
@[simp] theorem State.setFtrip_evt (s : State) (n : Nat) (f : Ftrip → Ftrip) : (s.setFtrip n f).evt = s.evt := rfl
@[simp] theorem State.setFtrip_ports (s : State) (n : Nat) (f : Ftrip → Ftrip) : (s.setFtrip n f).ports = s.ports := rfl
@[simp] theorem State.setFtrip_mem (s : State) (n : Nat) (f : Ftrip → Ftrip) : (s.setFtrip n f).mem = s.mem := rfl
@[simp] theorem State.setFtrip_tamper (s : State) (n : Nat) (f : Ftrip → Ftrip) : (s.setFtrip n f).tamper = s.tamper := rfl
@[simp] theorem State.setFtrip_life (s : State) (n : Nat) (f : Ftrip → Ftrip) : (s.setFtrip n f).life = s.life := rfl
@[simp] theorem State.setFtrip_disp (s : State) (n : Nat) (f : Ftrip → Ftrip) : (s.setFtrip n f).disp = s.disp := rfl
@[simp] theorem State.setFtrip_upd (s : State) (n : Nat) (f : Ftrip → Ftrip) : (s.setFtrip n f).upd = s.upd := rfl
@[simp] theorem State.setFtrip_isl (s : State) (n : Nat) (f : Ftrip → Ftrip) : (s.setFtrip n f).isl = s.isl := rfl
@[simp] theorem State.setFtrip_ans (s : State) (n : Nat) (f : Ftrip → Ftrip) : (s.setFtrip n f).ans = s.ans := rfl
@[simp] theorem State.setFtrip_pending (s : State) (n : Nat) (f : Ftrip → Ftrip) : (s.setFtrip n f).pending = s.pending := rfl

/-! `setTrack` changes `tracks`. -/

@[simp] theorem State.setTrack_dict (s : State) (ch : Nat) (f : Tracker → Tracker) : (s.setTrack ch f).dict = s.dict := rfl
@[simp] theorem State.setTrack_clock (s : State) (ch : Nat) (f : Tracker → Tracker) : (s.setTrack ch f).clock = s.clock := rfl
@[simp] theorem State.setTrack_mods (s : State) (ch : Nat) (f : Tracker → Tracker) : (s.setTrack ch f).mods = s.mods := rfl
@[simp] theorem State.setTrack_spares (s : State) (ch : Nat) (f : Tracker → Tracker) : (s.setTrack ch f).spares = s.spares := rfl
@[simp] theorem State.setTrack_chans (s : State) (ch : Nat) (f : Tracker → Tracker) : (s.setTrack ch f).chans = s.chans := rfl
@[simp] theorem State.setTrack_hk (s : State) (ch : Nat) (f : Tracker → Tracker) : (s.setTrack ch f).hk = s.hk := rfl
@[simp] theorem State.setTrack_th (s : State) (ch : Nat) (f : Tracker → Tracker) : (s.setTrack ch f).th = s.th := rfl
@[simp] theorem State.setTrack_ftrip (s : State) (ch : Nat) (f : Tracker → Tracker) : (s.setTrack ch f).ftrip = s.ftrip := rfl
@[simp] theorem State.setTrack_tracks (s : State) (ch : Nat) (f : Tracker → Tracker) : (s.setTrack ch f).tracks = s.tracks.upd ch f := rfl
@[simp] theorem State.setTrack_groups (s : State) (ch : Nat) (f : Tracker → Tracker) : (s.setTrack ch f).groups = s.groups := rfl
@[simp] theorem State.setTrack_eng (s : State) (ch : Nat) (f : Tracker → Tracker) : (s.setTrack ch f).eng = s.eng := rfl
@[simp] theorem State.setTrack_accts (s : State) (ch : Nat) (f : Tracker → Tracker) : (s.setTrack ch f).accts = s.accts := rfl
@[simp] theorem State.setTrack_chres (s : State) (ch : Nat) (f : Tracker → Tracker) : (s.setTrack ch f).chres = s.chres := rfl
@[simp] theorem State.setTrack_pq (s : State) (ch : Nat) (f : Tracker → Tracker) : (s.setTrack ch f).pq = s.pq := rfl
@[simp] theorem State.setTrack_capt (s : State) (ch : Nat) (f : Tracker → Tracker) : (s.setTrack ch f).capt = s.capt := rfl
@[simp] theorem State.setTrack_captMissed (s : State) (ch : Nat) (f : Tracker → Tracker) : (s.setTrack ch f).captMissed = s.captMissed := rfl
@[simp] theorem State.setTrack_acc (s : State) (ch : Nat) (f : Tracker → Tracker) : (s.setTrack ch f).acc = s.acc := rfl
@[simp] theorem State.setTrack_bal (s : State) (ch : Nat) (f : Tracker → Tracker) : (s.setTrack ch f).bal = s.bal := rfl
@[simp] theorem State.setTrack_contrib (s : State) (ch : Nat) (f : Tracker → Tracker) : (s.setTrack ch f).contrib = s.contrib := rfl
@[simp] theorem State.setTrack_pp (s : State) (ch : Nat) (f : Tracker → Tracker) : (s.setTrack ch f).pp = s.pp := rfl
@[simp] theorem State.setTrack_cal (s : State) (ch : Nat) (f : Tracker → Tracker) : (s.setTrack ch f).cal = s.cal := rfl
@[simp] theorem State.setTrack_nvm (s : State) (ch : Nat) (f : Tracker → Tracker) : (s.setTrack ch f).nvm = s.nvm := rfl
@[simp] theorem State.setTrack_pwr (s : State) (ch : Nat) (f : Tracker → Tracker) : (s.setTrack ch f).pwr = s.pwr := rfl
@[simp] theorem State.setTrack_evt (s : State) (ch : Nat) (f : Tracker → Tracker) : (s.setTrack ch f).evt = s.evt := rfl
@[simp] theorem State.setTrack_ports (s : State) (ch : Nat) (f : Tracker → Tracker) : (s.setTrack ch f).ports = s.ports := rfl
@[simp] theorem State.setTrack_mem (s : State) (ch : Nat) (f : Tracker → Tracker) : (s.setTrack ch f).mem = s.mem := rfl
@[simp] theorem State.setTrack_tamper (s : State) (ch : Nat) (f : Tracker → Tracker) : (s.setTrack ch f).tamper = s.tamper := rfl
@[simp] theorem State.setTrack_life (s : State) (ch : Nat) (f : Tracker → Tracker) : (s.setTrack ch f).life = s.life := rfl
@[simp] theorem State.setTrack_disp (s : State) (ch : Nat) (f : Tracker → Tracker) : (s.setTrack ch f).disp = s.disp := rfl
@[simp] theorem State.setTrack_upd (s : State) (ch : Nat) (f : Tracker → Tracker) : (s.setTrack ch f).upd = s.upd := rfl
@[simp] theorem State.setTrack_isl (s : State) (ch : Nat) (f : Tracker → Tracker) : (s.setTrack ch f).isl = s.isl := rfl
@[simp] theorem State.setTrack_ans (s : State) (ch : Nat) (f : Tracker → Tracker) : (s.setTrack ch f).ans = s.ans := rfl
@[simp] theorem State.setTrack_pending (s : State) (ch : Nat) (f : Tracker → Tracker) : (s.setTrack ch f).pending = s.pending := rfl

/-! `setStream` changes `eng`. -/

@[simp] theorem State.setStream_dict (s : State) (k : Nat) (f : Stream → Stream) : (s.setStream k f).dict = s.dict := rfl
@[simp] theorem State.setStream_clock (s : State) (k : Nat) (f : Stream → Stream) : (s.setStream k f).clock = s.clock := rfl
@[simp] theorem State.setStream_mods (s : State) (k : Nat) (f : Stream → Stream) : (s.setStream k f).mods = s.mods := rfl
@[simp] theorem State.setStream_spares (s : State) (k : Nat) (f : Stream → Stream) : (s.setStream k f).spares = s.spares := rfl
@[simp] theorem State.setStream_chans (s : State) (k : Nat) (f : Stream → Stream) : (s.setStream k f).chans = s.chans := rfl
@[simp] theorem State.setStream_hk (s : State) (k : Nat) (f : Stream → Stream) : (s.setStream k f).hk = s.hk := rfl
@[simp] theorem State.setStream_th (s : State) (k : Nat) (f : Stream → Stream) : (s.setStream k f).th = s.th := rfl
@[simp] theorem State.setStream_ftrip (s : State) (k : Nat) (f : Stream → Stream) : (s.setStream k f).ftrip = s.ftrip := rfl
@[simp] theorem State.setStream_tracks (s : State) (k : Nat) (f : Stream → Stream) : (s.setStream k f).tracks = s.tracks := rfl
@[simp] theorem State.setStream_groups (s : State) (k : Nat) (f : Stream → Stream) : (s.setStream k f).groups = s.groups := rfl
@[simp] theorem State.setStream_eng (s : State) (k : Nat) (f : Stream → Stream) : (s.setStream k f).eng = { s.eng with streams := s.eng.streams.upd k f } := rfl
@[simp] theorem State.setStream_accts (s : State) (k : Nat) (f : Stream → Stream) : (s.setStream k f).accts = s.accts := rfl
@[simp] theorem State.setStream_chres (s : State) (k : Nat) (f : Stream → Stream) : (s.setStream k f).chres = s.chres := rfl
@[simp] theorem State.setStream_pq (s : State) (k : Nat) (f : Stream → Stream) : (s.setStream k f).pq = s.pq := rfl
@[simp] theorem State.setStream_capt (s : State) (k : Nat) (f : Stream → Stream) : (s.setStream k f).capt = s.capt := rfl
@[simp] theorem State.setStream_captMissed (s : State) (k : Nat) (f : Stream → Stream) : (s.setStream k f).captMissed = s.captMissed := rfl
@[simp] theorem State.setStream_acc (s : State) (k : Nat) (f : Stream → Stream) : (s.setStream k f).acc = s.acc := rfl
@[simp] theorem State.setStream_bal (s : State) (k : Nat) (f : Stream → Stream) : (s.setStream k f).bal = s.bal := rfl
@[simp] theorem State.setStream_contrib (s : State) (k : Nat) (f : Stream → Stream) : (s.setStream k f).contrib = s.contrib := rfl
@[simp] theorem State.setStream_pp (s : State) (k : Nat) (f : Stream → Stream) : (s.setStream k f).pp = s.pp := rfl
@[simp] theorem State.setStream_cal (s : State) (k : Nat) (f : Stream → Stream) : (s.setStream k f).cal = s.cal := rfl
@[simp] theorem State.setStream_nvm (s : State) (k : Nat) (f : Stream → Stream) : (s.setStream k f).nvm = s.nvm := rfl
@[simp] theorem State.setStream_pwr (s : State) (k : Nat) (f : Stream → Stream) : (s.setStream k f).pwr = s.pwr := rfl
@[simp] theorem State.setStream_evt (s : State) (k : Nat) (f : Stream → Stream) : (s.setStream k f).evt = s.evt := rfl
@[simp] theorem State.setStream_ports (s : State) (k : Nat) (f : Stream → Stream) : (s.setStream k f).ports = s.ports := rfl
@[simp] theorem State.setStream_mem (s : State) (k : Nat) (f : Stream → Stream) : (s.setStream k f).mem = s.mem := rfl
@[simp] theorem State.setStream_tamper (s : State) (k : Nat) (f : Stream → Stream) : (s.setStream k f).tamper = s.tamper := rfl
@[simp] theorem State.setStream_life (s : State) (k : Nat) (f : Stream → Stream) : (s.setStream k f).life = s.life := rfl
@[simp] theorem State.setStream_disp (s : State) (k : Nat) (f : Stream → Stream) : (s.setStream k f).disp = s.disp := rfl
@[simp] theorem State.setStream_upd (s : State) (k : Nat) (f : Stream → Stream) : (s.setStream k f).upd = s.upd := rfl
@[simp] theorem State.setStream_isl (s : State) (k : Nat) (f : Stream → Stream) : (s.setStream k f).isl = s.isl := rfl
@[simp] theorem State.setStream_ans (s : State) (k : Nat) (f : Stream → Stream) : (s.setStream k f).ans = s.ans := rfl
@[simp] theorem State.setStream_pending (s : State) (k : Nat) (f : Stream → Stream) : (s.setStream k f).pending = s.pending := rfl

/-! `setBank` changes `mem`. -/

@[simp] theorem State.setBank_dict (s : State) (b : Nat) (f : Bank → Bank) : (s.setBank b f).dict = s.dict := rfl
@[simp] theorem State.setBank_clock (s : State) (b : Nat) (f : Bank → Bank) : (s.setBank b f).clock = s.clock := rfl
@[simp] theorem State.setBank_mods (s : State) (b : Nat) (f : Bank → Bank) : (s.setBank b f).mods = s.mods := rfl
@[simp] theorem State.setBank_spares (s : State) (b : Nat) (f : Bank → Bank) : (s.setBank b f).spares = s.spares := rfl
@[simp] theorem State.setBank_chans (s : State) (b : Nat) (f : Bank → Bank) : (s.setBank b f).chans = s.chans := rfl
@[simp] theorem State.setBank_hk (s : State) (b : Nat) (f : Bank → Bank) : (s.setBank b f).hk = s.hk := rfl
@[simp] theorem State.setBank_th (s : State) (b : Nat) (f : Bank → Bank) : (s.setBank b f).th = s.th := rfl
@[simp] theorem State.setBank_ftrip (s : State) (b : Nat) (f : Bank → Bank) : (s.setBank b f).ftrip = s.ftrip := rfl
@[simp] theorem State.setBank_tracks (s : State) (b : Nat) (f : Bank → Bank) : (s.setBank b f).tracks = s.tracks := rfl
@[simp] theorem State.setBank_groups (s : State) (b : Nat) (f : Bank → Bank) : (s.setBank b f).groups = s.groups := rfl
@[simp] theorem State.setBank_eng (s : State) (b : Nat) (f : Bank → Bank) : (s.setBank b f).eng = s.eng := rfl
@[simp] theorem State.setBank_accts (s : State) (b : Nat) (f : Bank → Bank) : (s.setBank b f).accts = s.accts := rfl
@[simp] theorem State.setBank_chres (s : State) (b : Nat) (f : Bank → Bank) : (s.setBank b f).chres = s.chres := rfl
@[simp] theorem State.setBank_pq (s : State) (b : Nat) (f : Bank → Bank) : (s.setBank b f).pq = s.pq := rfl
@[simp] theorem State.setBank_capt (s : State) (b : Nat) (f : Bank → Bank) : (s.setBank b f).capt = s.capt := rfl
@[simp] theorem State.setBank_captMissed (s : State) (b : Nat) (f : Bank → Bank) : (s.setBank b f).captMissed = s.captMissed := rfl
@[simp] theorem State.setBank_acc (s : State) (b : Nat) (f : Bank → Bank) : (s.setBank b f).acc = s.acc := rfl
@[simp] theorem State.setBank_bal (s : State) (b : Nat) (f : Bank → Bank) : (s.setBank b f).bal = s.bal := rfl
@[simp] theorem State.setBank_contrib (s : State) (b : Nat) (f : Bank → Bank) : (s.setBank b f).contrib = s.contrib := rfl
@[simp] theorem State.setBank_pp (s : State) (b : Nat) (f : Bank → Bank) : (s.setBank b f).pp = s.pp := rfl
@[simp] theorem State.setBank_cal (s : State) (b : Nat) (f : Bank → Bank) : (s.setBank b f).cal = s.cal := rfl
@[simp] theorem State.setBank_nvm (s : State) (b : Nat) (f : Bank → Bank) : (s.setBank b f).nvm = s.nvm := rfl
@[simp] theorem State.setBank_pwr (s : State) (b : Nat) (f : Bank → Bank) : (s.setBank b f).pwr = s.pwr := rfl
@[simp] theorem State.setBank_evt (s : State) (b : Nat) (f : Bank → Bank) : (s.setBank b f).evt = s.evt := rfl
@[simp] theorem State.setBank_ports (s : State) (b : Nat) (f : Bank → Bank) : (s.setBank b f).ports = s.ports := rfl
@[simp] theorem State.setBank_mem (s : State) (b : Nat) (f : Bank → Bank) : (s.setBank b f).mem = { s.mem with banks := s.mem.banks.upd b f } := rfl
@[simp] theorem State.setBank_tamper (s : State) (b : Nat) (f : Bank → Bank) : (s.setBank b f).tamper = s.tamper := rfl
@[simp] theorem State.setBank_life (s : State) (b : Nat) (f : Bank → Bank) : (s.setBank b f).life = s.life := rfl
@[simp] theorem State.setBank_disp (s : State) (b : Nat) (f : Bank → Bank) : (s.setBank b f).disp = s.disp := rfl
@[simp] theorem State.setBank_upd (s : State) (b : Nat) (f : Bank → Bank) : (s.setBank b f).upd = s.upd := rfl
@[simp] theorem State.setBank_isl (s : State) (b : Nat) (f : Bank → Bank) : (s.setBank b f).isl = s.isl := rfl
@[simp] theorem State.setBank_ans (s : State) (b : Nat) (f : Bank → Bank) : (s.setBank b f).ans = s.ans := rfl
@[simp] theorem State.setBank_pending (s : State) (b : Nat) (f : Bank → Bank) : (s.setBank b f).pending = s.pending := rfl

/-! `setPorts` changes `ports`. -/

@[simp] theorem State.setPorts_dict (s : State) (f : Ports → Ports) : (s.setPorts f).dict = s.dict := rfl
@[simp] theorem State.setPorts_clock (s : State) (f : Ports → Ports) : (s.setPorts f).clock = s.clock := rfl
@[simp] theorem State.setPorts_mods (s : State) (f : Ports → Ports) : (s.setPorts f).mods = s.mods := rfl
@[simp] theorem State.setPorts_spares (s : State) (f : Ports → Ports) : (s.setPorts f).spares = s.spares := rfl
@[simp] theorem State.setPorts_chans (s : State) (f : Ports → Ports) : (s.setPorts f).chans = s.chans := rfl
@[simp] theorem State.setPorts_hk (s : State) (f : Ports → Ports) : (s.setPorts f).hk = s.hk := rfl
@[simp] theorem State.setPorts_th (s : State) (f : Ports → Ports) : (s.setPorts f).th = s.th := rfl
@[simp] theorem State.setPorts_ftrip (s : State) (f : Ports → Ports) : (s.setPorts f).ftrip = s.ftrip := rfl
@[simp] theorem State.setPorts_tracks (s : State) (f : Ports → Ports) : (s.setPorts f).tracks = s.tracks := rfl
@[simp] theorem State.setPorts_groups (s : State) (f : Ports → Ports) : (s.setPorts f).groups = s.groups := rfl
@[simp] theorem State.setPorts_eng (s : State) (f : Ports → Ports) : (s.setPorts f).eng = s.eng := rfl
@[simp] theorem State.setPorts_accts (s : State) (f : Ports → Ports) : (s.setPorts f).accts = s.accts := rfl
@[simp] theorem State.setPorts_chres (s : State) (f : Ports → Ports) : (s.setPorts f).chres = s.chres := rfl
@[simp] theorem State.setPorts_pq (s : State) (f : Ports → Ports) : (s.setPorts f).pq = s.pq := rfl
@[simp] theorem State.setPorts_capt (s : State) (f : Ports → Ports) : (s.setPorts f).capt = s.capt := rfl
@[simp] theorem State.setPorts_captMissed (s : State) (f : Ports → Ports) : (s.setPorts f).captMissed = s.captMissed := rfl
@[simp] theorem State.setPorts_acc (s : State) (f : Ports → Ports) : (s.setPorts f).acc = s.acc := rfl
@[simp] theorem State.setPorts_bal (s : State) (f : Ports → Ports) : (s.setPorts f).bal = s.bal := rfl
@[simp] theorem State.setPorts_contrib (s : State) (f : Ports → Ports) : (s.setPorts f).contrib = s.contrib := rfl
@[simp] theorem State.setPorts_pp (s : State) (f : Ports → Ports) : (s.setPorts f).pp = s.pp := rfl
@[simp] theorem State.setPorts_cal (s : State) (f : Ports → Ports) : (s.setPorts f).cal = s.cal := rfl
@[simp] theorem State.setPorts_nvm (s : State) (f : Ports → Ports) : (s.setPorts f).nvm = s.nvm := rfl
@[simp] theorem State.setPorts_pwr (s : State) (f : Ports → Ports) : (s.setPorts f).pwr = s.pwr := rfl
@[simp] theorem State.setPorts_evt (s : State) (f : Ports → Ports) : (s.setPorts f).evt = s.evt := rfl
@[simp] theorem State.setPorts_ports (s : State) (f : Ports → Ports) : (s.setPorts f).ports = f s.ports := rfl
@[simp] theorem State.setPorts_mem (s : State) (f : Ports → Ports) : (s.setPorts f).mem = s.mem := rfl
@[simp] theorem State.setPorts_tamper (s : State) (f : Ports → Ports) : (s.setPorts f).tamper = s.tamper := rfl
@[simp] theorem State.setPorts_life (s : State) (f : Ports → Ports) : (s.setPorts f).life = s.life := rfl
@[simp] theorem State.setPorts_disp (s : State) (f : Ports → Ports) : (s.setPorts f).disp = s.disp := rfl
@[simp] theorem State.setPorts_upd (s : State) (f : Ports → Ports) : (s.setPorts f).upd = s.upd := rfl
@[simp] theorem State.setPorts_isl (s : State) (f : Ports → Ports) : (s.setPorts f).isl = s.isl := rfl
@[simp] theorem State.setPorts_ans (s : State) (f : Ports → Ports) : (s.setPorts f).ans = s.ans := rfl
@[simp] theorem State.setPorts_pending (s : State) (f : Ports → Ports) : (s.setPorts f).pending = s.pending := rfl

/-! `setPrepay` changes `pp`. -/

@[simp] theorem State.setPrepay_dict (s : State) (a : Nat) (f : Prepay → Prepay) : (s.setPrepay a f).dict = s.dict := rfl
@[simp] theorem State.setPrepay_clock (s : State) (a : Nat) (f : Prepay → Prepay) : (s.setPrepay a f).clock = s.clock := rfl
@[simp] theorem State.setPrepay_mods (s : State) (a : Nat) (f : Prepay → Prepay) : (s.setPrepay a f).mods = s.mods := rfl
@[simp] theorem State.setPrepay_spares (s : State) (a : Nat) (f : Prepay → Prepay) : (s.setPrepay a f).spares = s.spares := rfl
@[simp] theorem State.setPrepay_chans (s : State) (a : Nat) (f : Prepay → Prepay) : (s.setPrepay a f).chans = s.chans := rfl
@[simp] theorem State.setPrepay_hk (s : State) (a : Nat) (f : Prepay → Prepay) : (s.setPrepay a f).hk = s.hk := rfl
@[simp] theorem State.setPrepay_th (s : State) (a : Nat) (f : Prepay → Prepay) : (s.setPrepay a f).th = s.th := rfl
@[simp] theorem State.setPrepay_ftrip (s : State) (a : Nat) (f : Prepay → Prepay) : (s.setPrepay a f).ftrip = s.ftrip := rfl
@[simp] theorem State.setPrepay_tracks (s : State) (a : Nat) (f : Prepay → Prepay) : (s.setPrepay a f).tracks = s.tracks := rfl
@[simp] theorem State.setPrepay_groups (s : State) (a : Nat) (f : Prepay → Prepay) : (s.setPrepay a f).groups = s.groups := rfl
@[simp] theorem State.setPrepay_eng (s : State) (a : Nat) (f : Prepay → Prepay) : (s.setPrepay a f).eng = s.eng := rfl
@[simp] theorem State.setPrepay_accts (s : State) (a : Nat) (f : Prepay → Prepay) : (s.setPrepay a f).accts = s.accts := rfl
@[simp] theorem State.setPrepay_chres (s : State) (a : Nat) (f : Prepay → Prepay) : (s.setPrepay a f).chres = s.chres := rfl
@[simp] theorem State.setPrepay_pq (s : State) (a : Nat) (f : Prepay → Prepay) : (s.setPrepay a f).pq = s.pq := rfl
@[simp] theorem State.setPrepay_capt (s : State) (a : Nat) (f : Prepay → Prepay) : (s.setPrepay a f).capt = s.capt := rfl
@[simp] theorem State.setPrepay_captMissed (s : State) (a : Nat) (f : Prepay → Prepay) : (s.setPrepay a f).captMissed = s.captMissed := rfl
@[simp] theorem State.setPrepay_acc (s : State) (a : Nat) (f : Prepay → Prepay) : (s.setPrepay a f).acc = s.acc := rfl
@[simp] theorem State.setPrepay_bal (s : State) (a : Nat) (f : Prepay → Prepay) : (s.setPrepay a f).bal = s.bal := rfl
@[simp] theorem State.setPrepay_contrib (s : State) (a : Nat) (f : Prepay → Prepay) : (s.setPrepay a f).contrib = s.contrib := rfl
@[simp] theorem State.setPrepay_pp (s : State) (a : Nat) (f : Prepay → Prepay) : (s.setPrepay a f).pp = { s.pp with acct := s.pp.acct.upd a f } := rfl
@[simp] theorem State.setPrepay_cal (s : State) (a : Nat) (f : Prepay → Prepay) : (s.setPrepay a f).cal = s.cal := rfl
@[simp] theorem State.setPrepay_nvm (s : State) (a : Nat) (f : Prepay → Prepay) : (s.setPrepay a f).nvm = s.nvm := rfl
@[simp] theorem State.setPrepay_pwr (s : State) (a : Nat) (f : Prepay → Prepay) : (s.setPrepay a f).pwr = s.pwr := rfl
@[simp] theorem State.setPrepay_evt (s : State) (a : Nat) (f : Prepay → Prepay) : (s.setPrepay a f).evt = s.evt := rfl
@[simp] theorem State.setPrepay_ports (s : State) (a : Nat) (f : Prepay → Prepay) : (s.setPrepay a f).ports = s.ports := rfl
@[simp] theorem State.setPrepay_mem (s : State) (a : Nat) (f : Prepay → Prepay) : (s.setPrepay a f).mem = s.mem := rfl
@[simp] theorem State.setPrepay_tamper (s : State) (a : Nat) (f : Prepay → Prepay) : (s.setPrepay a f).tamper = s.tamper := rfl
@[simp] theorem State.setPrepay_life (s : State) (a : Nat) (f : Prepay → Prepay) : (s.setPrepay a f).life = s.life := rfl
@[simp] theorem State.setPrepay_disp (s : State) (a : Nat) (f : Prepay → Prepay) : (s.setPrepay a f).disp = s.disp := rfl
@[simp] theorem State.setPrepay_upd (s : State) (a : Nat) (f : Prepay → Prepay) : (s.setPrepay a f).upd = s.upd := rfl
@[simp] theorem State.setPrepay_isl (s : State) (a : Nat) (f : Prepay → Prepay) : (s.setPrepay a f).isl = s.isl := rfl
@[simp] theorem State.setPrepay_ans (s : State) (a : Nat) (f : Prepay → Prepay) : (s.setPrepay a f).ans = s.ans := rfl
@[simp] theorem State.setPrepay_pending (s : State) (a : Nat) (f : Prepay → Prepay) : (s.setPrepay a f).pending = s.pending := rfl

/-! `setRelay` changes `pp`. -/

@[simp] theorem State.setRelay_dict (s : State) (f : Relay → Relay) : (s.setRelay f).dict = s.dict := rfl
@[simp] theorem State.setRelay_clock (s : State) (f : Relay → Relay) : (s.setRelay f).clock = s.clock := rfl
@[simp] theorem State.setRelay_mods (s : State) (f : Relay → Relay) : (s.setRelay f).mods = s.mods := rfl
@[simp] theorem State.setRelay_spares (s : State) (f : Relay → Relay) : (s.setRelay f).spares = s.spares := rfl
@[simp] theorem State.setRelay_chans (s : State) (f : Relay → Relay) : (s.setRelay f).chans = s.chans := rfl
@[simp] theorem State.setRelay_hk (s : State) (f : Relay → Relay) : (s.setRelay f).hk = s.hk := rfl
@[simp] theorem State.setRelay_th (s : State) (f : Relay → Relay) : (s.setRelay f).th = s.th := rfl
@[simp] theorem State.setRelay_ftrip (s : State) (f : Relay → Relay) : (s.setRelay f).ftrip = s.ftrip := rfl
@[simp] theorem State.setRelay_tracks (s : State) (f : Relay → Relay) : (s.setRelay f).tracks = s.tracks := rfl
@[simp] theorem State.setRelay_groups (s : State) (f : Relay → Relay) : (s.setRelay f).groups = s.groups := rfl
@[simp] theorem State.setRelay_eng (s : State) (f : Relay → Relay) : (s.setRelay f).eng = s.eng := rfl
@[simp] theorem State.setRelay_accts (s : State) (f : Relay → Relay) : (s.setRelay f).accts = s.accts := rfl
@[simp] theorem State.setRelay_chres (s : State) (f : Relay → Relay) : (s.setRelay f).chres = s.chres := rfl
@[simp] theorem State.setRelay_pq (s : State) (f : Relay → Relay) : (s.setRelay f).pq = s.pq := rfl
@[simp] theorem State.setRelay_capt (s : State) (f : Relay → Relay) : (s.setRelay f).capt = s.capt := rfl
@[simp] theorem State.setRelay_captMissed (s : State) (f : Relay → Relay) : (s.setRelay f).captMissed = s.captMissed := rfl
@[simp] theorem State.setRelay_acc (s : State) (f : Relay → Relay) : (s.setRelay f).acc = s.acc := rfl
@[simp] theorem State.setRelay_bal (s : State) (f : Relay → Relay) : (s.setRelay f).bal = s.bal := rfl
@[simp] theorem State.setRelay_contrib (s : State) (f : Relay → Relay) : (s.setRelay f).contrib = s.contrib := rfl
@[simp] theorem State.setRelay_pp (s : State) (f : Relay → Relay) : (s.setRelay f).pp = { s.pp with relay := f s.pp.relay } := rfl
@[simp] theorem State.setRelay_cal (s : State) (f : Relay → Relay) : (s.setRelay f).cal = s.cal := rfl
@[simp] theorem State.setRelay_nvm (s : State) (f : Relay → Relay) : (s.setRelay f).nvm = s.nvm := rfl
@[simp] theorem State.setRelay_pwr (s : State) (f : Relay → Relay) : (s.setRelay f).pwr = s.pwr := rfl
@[simp] theorem State.setRelay_evt (s : State) (f : Relay → Relay) : (s.setRelay f).evt = s.evt := rfl
@[simp] theorem State.setRelay_ports (s : State) (f : Relay → Relay) : (s.setRelay f).ports = s.ports := rfl
@[simp] theorem State.setRelay_mem (s : State) (f : Relay → Relay) : (s.setRelay f).mem = s.mem := rfl
@[simp] theorem State.setRelay_tamper (s : State) (f : Relay → Relay) : (s.setRelay f).tamper = s.tamper := rfl
@[simp] theorem State.setRelay_life (s : State) (f : Relay → Relay) : (s.setRelay f).life = s.life := rfl
@[simp] theorem State.setRelay_disp (s : State) (f : Relay → Relay) : (s.setRelay f).disp = s.disp := rfl
@[simp] theorem State.setRelay_upd (s : State) (f : Relay → Relay) : (s.setRelay f).upd = s.upd := rfl
@[simp] theorem State.setRelay_isl (s : State) (f : Relay → Relay) : (s.setRelay f).isl = s.isl := rfl
@[simp] theorem State.setRelay_ans (s : State) (f : Relay → Relay) : (s.setRelay f).ans = s.ans := rfl
@[simp] theorem State.setRelay_pending (s : State) (f : Relay → Relay) : (s.setRelay f).pending = s.pending := rfl

/-! `setClk` changes `tamper`. -/

@[simp] theorem State.setClk_dict (s : State) (c : Nat) (f : ClkMon → ClkMon) : (s.setClk c f).dict = s.dict := rfl
@[simp] theorem State.setClk_clock (s : State) (c : Nat) (f : ClkMon → ClkMon) : (s.setClk c f).clock = s.clock := rfl
@[simp] theorem State.setClk_mods (s : State) (c : Nat) (f : ClkMon → ClkMon) : (s.setClk c f).mods = s.mods := rfl
@[simp] theorem State.setClk_spares (s : State) (c : Nat) (f : ClkMon → ClkMon) : (s.setClk c f).spares = s.spares := rfl
@[simp] theorem State.setClk_chans (s : State) (c : Nat) (f : ClkMon → ClkMon) : (s.setClk c f).chans = s.chans := rfl
@[simp] theorem State.setClk_hk (s : State) (c : Nat) (f : ClkMon → ClkMon) : (s.setClk c f).hk = s.hk := rfl
@[simp] theorem State.setClk_th (s : State) (c : Nat) (f : ClkMon → ClkMon) : (s.setClk c f).th = s.th := rfl
@[simp] theorem State.setClk_ftrip (s : State) (c : Nat) (f : ClkMon → ClkMon) : (s.setClk c f).ftrip = s.ftrip := rfl
@[simp] theorem State.setClk_tracks (s : State) (c : Nat) (f : ClkMon → ClkMon) : (s.setClk c f).tracks = s.tracks := rfl
@[simp] theorem State.setClk_groups (s : State) (c : Nat) (f : ClkMon → ClkMon) : (s.setClk c f).groups = s.groups := rfl
@[simp] theorem State.setClk_eng (s : State) (c : Nat) (f : ClkMon → ClkMon) : (s.setClk c f).eng = s.eng := rfl
@[simp] theorem State.setClk_accts (s : State) (c : Nat) (f : ClkMon → ClkMon) : (s.setClk c f).accts = s.accts := rfl
@[simp] theorem State.setClk_chres (s : State) (c : Nat) (f : ClkMon → ClkMon) : (s.setClk c f).chres = s.chres := rfl
@[simp] theorem State.setClk_pq (s : State) (c : Nat) (f : ClkMon → ClkMon) : (s.setClk c f).pq = s.pq := rfl
@[simp] theorem State.setClk_capt (s : State) (c : Nat) (f : ClkMon → ClkMon) : (s.setClk c f).capt = s.capt := rfl
@[simp] theorem State.setClk_captMissed (s : State) (c : Nat) (f : ClkMon → ClkMon) : (s.setClk c f).captMissed = s.captMissed := rfl
@[simp] theorem State.setClk_acc (s : State) (c : Nat) (f : ClkMon → ClkMon) : (s.setClk c f).acc = s.acc := rfl
@[simp] theorem State.setClk_bal (s : State) (c : Nat) (f : ClkMon → ClkMon) : (s.setClk c f).bal = s.bal := rfl
@[simp] theorem State.setClk_contrib (s : State) (c : Nat) (f : ClkMon → ClkMon) : (s.setClk c f).contrib = s.contrib := rfl
@[simp] theorem State.setClk_pp (s : State) (c : Nat) (f : ClkMon → ClkMon) : (s.setClk c f).pp = s.pp := rfl
@[simp] theorem State.setClk_cal (s : State) (c : Nat) (f : ClkMon → ClkMon) : (s.setClk c f).cal = s.cal := rfl
@[simp] theorem State.setClk_nvm (s : State) (c : Nat) (f : ClkMon → ClkMon) : (s.setClk c f).nvm = s.nvm := rfl
@[simp] theorem State.setClk_pwr (s : State) (c : Nat) (f : ClkMon → ClkMon) : (s.setClk c f).pwr = s.pwr := rfl
@[simp] theorem State.setClk_evt (s : State) (c : Nat) (f : ClkMon → ClkMon) : (s.setClk c f).evt = s.evt := rfl
@[simp] theorem State.setClk_ports (s : State) (c : Nat) (f : ClkMon → ClkMon) : (s.setClk c f).ports = s.ports := rfl
@[simp] theorem State.setClk_mem (s : State) (c : Nat) (f : ClkMon → ClkMon) : (s.setClk c f).mem = s.mem := rfl
@[simp] theorem State.setClk_tamper (s : State) (c : Nat) (f : ClkMon → ClkMon) : (s.setClk c f).tamper = if c = 0 then { s.tamper with main := f s.tamper.main } else { s.tamper with rtc := f s.tamper.rtc } := rfl
@[simp] theorem State.setClk_life (s : State) (c : Nat) (f : ClkMon → ClkMon) : (s.setClk c f).life = s.life := rfl
@[simp] theorem State.setClk_disp (s : State) (c : Nat) (f : ClkMon → ClkMon) : (s.setClk c f).disp = s.disp := rfl
@[simp] theorem State.setClk_upd (s : State) (c : Nat) (f : ClkMon → ClkMon) : (s.setClk c f).upd = s.upd := rfl
@[simp] theorem State.setClk_isl (s : State) (c : Nat) (f : ClkMon → ClkMon) : (s.setClk c f).isl = s.isl := rfl
@[simp] theorem State.setClk_ans (s : State) (c : Nat) (f : ClkMon → ClkMon) : (s.setClk c f).ans = s.ans := rfl
@[simp] theorem State.setClk_pending (s : State) (c : Nat) (f : ClkMon → ClkMon) : (s.setClk c f).pending = s.pending := rfl

/-! `setTamper` changes `tamper`. -/

@[simp] theorem State.setTamper_dict (s : State) (f : Tamper → Tamper) : (s.setTamper f).dict = s.dict := rfl
@[simp] theorem State.setTamper_clock (s : State) (f : Tamper → Tamper) : (s.setTamper f).clock = s.clock := rfl
@[simp] theorem State.setTamper_mods (s : State) (f : Tamper → Tamper) : (s.setTamper f).mods = s.mods := rfl
@[simp] theorem State.setTamper_spares (s : State) (f : Tamper → Tamper) : (s.setTamper f).spares = s.spares := rfl
@[simp] theorem State.setTamper_chans (s : State) (f : Tamper → Tamper) : (s.setTamper f).chans = s.chans := rfl
@[simp] theorem State.setTamper_hk (s : State) (f : Tamper → Tamper) : (s.setTamper f).hk = s.hk := rfl
@[simp] theorem State.setTamper_th (s : State) (f : Tamper → Tamper) : (s.setTamper f).th = s.th := rfl
@[simp] theorem State.setTamper_ftrip (s : State) (f : Tamper → Tamper) : (s.setTamper f).ftrip = s.ftrip := rfl
@[simp] theorem State.setTamper_tracks (s : State) (f : Tamper → Tamper) : (s.setTamper f).tracks = s.tracks := rfl
@[simp] theorem State.setTamper_groups (s : State) (f : Tamper → Tamper) : (s.setTamper f).groups = s.groups := rfl
@[simp] theorem State.setTamper_eng (s : State) (f : Tamper → Tamper) : (s.setTamper f).eng = s.eng := rfl
@[simp] theorem State.setTamper_accts (s : State) (f : Tamper → Tamper) : (s.setTamper f).accts = s.accts := rfl
@[simp] theorem State.setTamper_chres (s : State) (f : Tamper → Tamper) : (s.setTamper f).chres = s.chres := rfl
@[simp] theorem State.setTamper_pq (s : State) (f : Tamper → Tamper) : (s.setTamper f).pq = s.pq := rfl
@[simp] theorem State.setTamper_capt (s : State) (f : Tamper → Tamper) : (s.setTamper f).capt = s.capt := rfl
@[simp] theorem State.setTamper_captMissed (s : State) (f : Tamper → Tamper) : (s.setTamper f).captMissed = s.captMissed := rfl
@[simp] theorem State.setTamper_acc (s : State) (f : Tamper → Tamper) : (s.setTamper f).acc = s.acc := rfl
@[simp] theorem State.setTamper_bal (s : State) (f : Tamper → Tamper) : (s.setTamper f).bal = s.bal := rfl
@[simp] theorem State.setTamper_contrib (s : State) (f : Tamper → Tamper) : (s.setTamper f).contrib = s.contrib := rfl
@[simp] theorem State.setTamper_pp (s : State) (f : Tamper → Tamper) : (s.setTamper f).pp = s.pp := rfl
@[simp] theorem State.setTamper_cal (s : State) (f : Tamper → Tamper) : (s.setTamper f).cal = s.cal := rfl
@[simp] theorem State.setTamper_nvm (s : State) (f : Tamper → Tamper) : (s.setTamper f).nvm = s.nvm := rfl
@[simp] theorem State.setTamper_pwr (s : State) (f : Tamper → Tamper) : (s.setTamper f).pwr = s.pwr := rfl
@[simp] theorem State.setTamper_evt (s : State) (f : Tamper → Tamper) : (s.setTamper f).evt = s.evt := rfl
@[simp] theorem State.setTamper_ports (s : State) (f : Tamper → Tamper) : (s.setTamper f).ports = s.ports := rfl
@[simp] theorem State.setTamper_mem (s : State) (f : Tamper → Tamper) : (s.setTamper f).mem = s.mem := rfl
@[simp] theorem State.setTamper_tamper (s : State) (f : Tamper → Tamper) : (s.setTamper f).tamper = f s.tamper := rfl
@[simp] theorem State.setTamper_life (s : State) (f : Tamper → Tamper) : (s.setTamper f).life = s.life := rfl
@[simp] theorem State.setTamper_disp (s : State) (f : Tamper → Tamper) : (s.setTamper f).disp = s.disp := rfl
@[simp] theorem State.setTamper_upd (s : State) (f : Tamper → Tamper) : (s.setTamper f).upd = s.upd := rfl
@[simp] theorem State.setTamper_isl (s : State) (f : Tamper → Tamper) : (s.setTamper f).isl = s.isl := rfl
@[simp] theorem State.setTamper_ans (s : State) (f : Tamper → Tamper) : (s.setTamper f).ans = s.ans := rfl
@[simp] theorem State.setTamper_pending (s : State) (f : Tamper → Tamper) : (s.setTamper f).pending = s.pending := rfl

/-! `setPulse` changes `acc`. -/

@[simp] theorem State.setPulse_dict (s : State) (k : Nat) (f : Pulse → Pulse) : (s.setPulse k f).dict = s.dict := rfl
@[simp] theorem State.setPulse_clock (s : State) (k : Nat) (f : Pulse → Pulse) : (s.setPulse k f).clock = s.clock := rfl
@[simp] theorem State.setPulse_mods (s : State) (k : Nat) (f : Pulse → Pulse) : (s.setPulse k f).mods = s.mods := rfl
@[simp] theorem State.setPulse_spares (s : State) (k : Nat) (f : Pulse → Pulse) : (s.setPulse k f).spares = s.spares := rfl
@[simp] theorem State.setPulse_chans (s : State) (k : Nat) (f : Pulse → Pulse) : (s.setPulse k f).chans = s.chans := rfl
@[simp] theorem State.setPulse_hk (s : State) (k : Nat) (f : Pulse → Pulse) : (s.setPulse k f).hk = s.hk := rfl
@[simp] theorem State.setPulse_th (s : State) (k : Nat) (f : Pulse → Pulse) : (s.setPulse k f).th = s.th := rfl
@[simp] theorem State.setPulse_ftrip (s : State) (k : Nat) (f : Pulse → Pulse) : (s.setPulse k f).ftrip = s.ftrip := rfl
@[simp] theorem State.setPulse_tracks (s : State) (k : Nat) (f : Pulse → Pulse) : (s.setPulse k f).tracks = s.tracks := rfl
@[simp] theorem State.setPulse_groups (s : State) (k : Nat) (f : Pulse → Pulse) : (s.setPulse k f).groups = s.groups := rfl
@[simp] theorem State.setPulse_eng (s : State) (k : Nat) (f : Pulse → Pulse) : (s.setPulse k f).eng = s.eng := rfl
@[simp] theorem State.setPulse_accts (s : State) (k : Nat) (f : Pulse → Pulse) : (s.setPulse k f).accts = s.accts := rfl
@[simp] theorem State.setPulse_chres (s : State) (k : Nat) (f : Pulse → Pulse) : (s.setPulse k f).chres = s.chres := rfl
@[simp] theorem State.setPulse_pq (s : State) (k : Nat) (f : Pulse → Pulse) : (s.setPulse k f).pq = s.pq := rfl
@[simp] theorem State.setPulse_capt (s : State) (k : Nat) (f : Pulse → Pulse) : (s.setPulse k f).capt = s.capt := rfl
@[simp] theorem State.setPulse_captMissed (s : State) (k : Nat) (f : Pulse → Pulse) : (s.setPulse k f).captMissed = s.captMissed := rfl
@[simp] theorem State.setPulse_acc (s : State) (k : Nat) (f : Pulse → Pulse) : (s.setPulse k f).acc = { s.acc with pulses := s.acc.pulses.upd k f } := rfl
@[simp] theorem State.setPulse_bal (s : State) (k : Nat) (f : Pulse → Pulse) : (s.setPulse k f).bal = s.bal := rfl
@[simp] theorem State.setPulse_contrib (s : State) (k : Nat) (f : Pulse → Pulse) : (s.setPulse k f).contrib = s.contrib := rfl
@[simp] theorem State.setPulse_pp (s : State) (k : Nat) (f : Pulse → Pulse) : (s.setPulse k f).pp = s.pp := rfl
@[simp] theorem State.setPulse_cal (s : State) (k : Nat) (f : Pulse → Pulse) : (s.setPulse k f).cal = s.cal := rfl
@[simp] theorem State.setPulse_nvm (s : State) (k : Nat) (f : Pulse → Pulse) : (s.setPulse k f).nvm = s.nvm := rfl
@[simp] theorem State.setPulse_pwr (s : State) (k : Nat) (f : Pulse → Pulse) : (s.setPulse k f).pwr = s.pwr := rfl
@[simp] theorem State.setPulse_evt (s : State) (k : Nat) (f : Pulse → Pulse) : (s.setPulse k f).evt = s.evt := rfl
@[simp] theorem State.setPulse_ports (s : State) (k : Nat) (f : Pulse → Pulse) : (s.setPulse k f).ports = s.ports := rfl
@[simp] theorem State.setPulse_mem (s : State) (k : Nat) (f : Pulse → Pulse) : (s.setPulse k f).mem = s.mem := rfl
@[simp] theorem State.setPulse_tamper (s : State) (k : Nat) (f : Pulse → Pulse) : (s.setPulse k f).tamper = s.tamper := rfl
@[simp] theorem State.setPulse_life (s : State) (k : Nat) (f : Pulse → Pulse) : (s.setPulse k f).life = s.life := rfl
@[simp] theorem State.setPulse_disp (s : State) (k : Nat) (f : Pulse → Pulse) : (s.setPulse k f).disp = s.disp := rfl
@[simp] theorem State.setPulse_upd (s : State) (k : Nat) (f : Pulse → Pulse) : (s.setPulse k f).upd = s.upd := rfl
@[simp] theorem State.setPulse_isl (s : State) (k : Nat) (f : Pulse → Pulse) : (s.setPulse k f).isl = s.isl := rfl
@[simp] theorem State.setPulse_ans (s : State) (k : Nat) (f : Pulse → Pulse) : (s.setPulse k f).ans = s.ans := rfl
@[simp] theorem State.setPulse_pending (s : State) (k : Nat) (f : Pulse → Pulse) : (s.setPulse k f).pending = s.pending := rfl

/-! `setProf` changes `acc`. -/

@[simp] theorem State.setProf_dict (s : State) (n : Nat) (f : Profile → Profile) : (s.setProf n f).dict = s.dict := rfl
@[simp] theorem State.setProf_clock (s : State) (n : Nat) (f : Profile → Profile) : (s.setProf n f).clock = s.clock := rfl
@[simp] theorem State.setProf_mods (s : State) (n : Nat) (f : Profile → Profile) : (s.setProf n f).mods = s.mods := rfl
@[simp] theorem State.setProf_spares (s : State) (n : Nat) (f : Profile → Profile) : (s.setProf n f).spares = s.spares := rfl
@[simp] theorem State.setProf_chans (s : State) (n : Nat) (f : Profile → Profile) : (s.setProf n f).chans = s.chans := rfl
@[simp] theorem State.setProf_hk (s : State) (n : Nat) (f : Profile → Profile) : (s.setProf n f).hk = s.hk := rfl
@[simp] theorem State.setProf_th (s : State) (n : Nat) (f : Profile → Profile) : (s.setProf n f).th = s.th := rfl
@[simp] theorem State.setProf_ftrip (s : State) (n : Nat) (f : Profile → Profile) : (s.setProf n f).ftrip = s.ftrip := rfl
@[simp] theorem State.setProf_tracks (s : State) (n : Nat) (f : Profile → Profile) : (s.setProf n f).tracks = s.tracks := rfl
@[simp] theorem State.setProf_groups (s : State) (n : Nat) (f : Profile → Profile) : (s.setProf n f).groups = s.groups := rfl
@[simp] theorem State.setProf_eng (s : State) (n : Nat) (f : Profile → Profile) : (s.setProf n f).eng = s.eng := rfl
@[simp] theorem State.setProf_accts (s : State) (n : Nat) (f : Profile → Profile) : (s.setProf n f).accts = s.accts := rfl
@[simp] theorem State.setProf_chres (s : State) (n : Nat) (f : Profile → Profile) : (s.setProf n f).chres = s.chres := rfl
@[simp] theorem State.setProf_pq (s : State) (n : Nat) (f : Profile → Profile) : (s.setProf n f).pq = s.pq := rfl
@[simp] theorem State.setProf_capt (s : State) (n : Nat) (f : Profile → Profile) : (s.setProf n f).capt = s.capt := rfl
@[simp] theorem State.setProf_captMissed (s : State) (n : Nat) (f : Profile → Profile) : (s.setProf n f).captMissed = s.captMissed := rfl
@[simp] theorem State.setProf_acc (s : State) (n : Nat) (f : Profile → Profile) : (s.setProf n f).acc = { s.acc with profile := s.acc.profile.upd n f } := rfl
@[simp] theorem State.setProf_bal (s : State) (n : Nat) (f : Profile → Profile) : (s.setProf n f).bal = s.bal := rfl
@[simp] theorem State.setProf_contrib (s : State) (n : Nat) (f : Profile → Profile) : (s.setProf n f).contrib = s.contrib := rfl
@[simp] theorem State.setProf_pp (s : State) (n : Nat) (f : Profile → Profile) : (s.setProf n f).pp = s.pp := rfl
@[simp] theorem State.setProf_cal (s : State) (n : Nat) (f : Profile → Profile) : (s.setProf n f).cal = s.cal := rfl
@[simp] theorem State.setProf_nvm (s : State) (n : Nat) (f : Profile → Profile) : (s.setProf n f).nvm = s.nvm := rfl
@[simp] theorem State.setProf_pwr (s : State) (n : Nat) (f : Profile → Profile) : (s.setProf n f).pwr = s.pwr := rfl
@[simp] theorem State.setProf_evt (s : State) (n : Nat) (f : Profile → Profile) : (s.setProf n f).evt = s.evt := rfl
@[simp] theorem State.setProf_ports (s : State) (n : Nat) (f : Profile → Profile) : (s.setProf n f).ports = s.ports := rfl
@[simp] theorem State.setProf_mem (s : State) (n : Nat) (f : Profile → Profile) : (s.setProf n f).mem = s.mem := rfl
@[simp] theorem State.setProf_tamper (s : State) (n : Nat) (f : Profile → Profile) : (s.setProf n f).tamper = s.tamper := rfl
@[simp] theorem State.setProf_life (s : State) (n : Nat) (f : Profile → Profile) : (s.setProf n f).life = s.life := rfl
@[simp] theorem State.setProf_disp (s : State) (n : Nat) (f : Profile → Profile) : (s.setProf n f).disp = s.disp := rfl
@[simp] theorem State.setProf_upd (s : State) (n : Nat) (f : Profile → Profile) : (s.setProf n f).upd = s.upd := rfl
@[simp] theorem State.setProf_isl (s : State) (n : Nat) (f : Profile → Profile) : (s.setProf n f).isl = s.isl := rfl
@[simp] theorem State.setProf_ans (s : State) (n : Nat) (f : Profile → Profile) : (s.setProf n f).ans = s.ans := rfl
@[simp] theorem State.setProf_pending (s : State) (n : Nat) (f : Profile → Profile) : (s.setProf n f).pending = s.pending := rfl

/-! `setShadow` changes `dict`. -/

@[simp] theorem State.setShadow_dict (s : State) (key : Nat) (v : Option Nat) : (s.setShadow key v).dict = { s.dict with shadow := s.dict.shadow.set key v } := rfl
@[simp] theorem State.setShadow_clock (s : State) (key : Nat) (v : Option Nat) : (s.setShadow key v).clock = s.clock := rfl
@[simp] theorem State.setShadow_mods (s : State) (key : Nat) (v : Option Nat) : (s.setShadow key v).mods = s.mods := rfl
@[simp] theorem State.setShadow_spares (s : State) (key : Nat) (v : Option Nat) : (s.setShadow key v).spares = s.spares := rfl
@[simp] theorem State.setShadow_chans (s : State) (key : Nat) (v : Option Nat) : (s.setShadow key v).chans = s.chans := rfl
@[simp] theorem State.setShadow_hk (s : State) (key : Nat) (v : Option Nat) : (s.setShadow key v).hk = s.hk := rfl
@[simp] theorem State.setShadow_th (s : State) (key : Nat) (v : Option Nat) : (s.setShadow key v).th = s.th := rfl
@[simp] theorem State.setShadow_ftrip (s : State) (key : Nat) (v : Option Nat) : (s.setShadow key v).ftrip = s.ftrip := rfl
@[simp] theorem State.setShadow_tracks (s : State) (key : Nat) (v : Option Nat) : (s.setShadow key v).tracks = s.tracks := rfl
@[simp] theorem State.setShadow_groups (s : State) (key : Nat) (v : Option Nat) : (s.setShadow key v).groups = s.groups := rfl
@[simp] theorem State.setShadow_eng (s : State) (key : Nat) (v : Option Nat) : (s.setShadow key v).eng = s.eng := rfl
@[simp] theorem State.setShadow_accts (s : State) (key : Nat) (v : Option Nat) : (s.setShadow key v).accts = s.accts := rfl
@[simp] theorem State.setShadow_chres (s : State) (key : Nat) (v : Option Nat) : (s.setShadow key v).chres = s.chres := rfl
@[simp] theorem State.setShadow_pq (s : State) (key : Nat) (v : Option Nat) : (s.setShadow key v).pq = s.pq := rfl
@[simp] theorem State.setShadow_capt (s : State) (key : Nat) (v : Option Nat) : (s.setShadow key v).capt = s.capt := rfl
@[simp] theorem State.setShadow_captMissed (s : State) (key : Nat) (v : Option Nat) : (s.setShadow key v).captMissed = s.captMissed := rfl
@[simp] theorem State.setShadow_acc (s : State) (key : Nat) (v : Option Nat) : (s.setShadow key v).acc = s.acc := rfl
@[simp] theorem State.setShadow_bal (s : State) (key : Nat) (v : Option Nat) : (s.setShadow key v).bal = s.bal := rfl
@[simp] theorem State.setShadow_contrib (s : State) (key : Nat) (v : Option Nat) : (s.setShadow key v).contrib = s.contrib := rfl
@[simp] theorem State.setShadow_pp (s : State) (key : Nat) (v : Option Nat) : (s.setShadow key v).pp = s.pp := rfl
@[simp] theorem State.setShadow_cal (s : State) (key : Nat) (v : Option Nat) : (s.setShadow key v).cal = s.cal := rfl
@[simp] theorem State.setShadow_nvm (s : State) (key : Nat) (v : Option Nat) : (s.setShadow key v).nvm = s.nvm := rfl
@[simp] theorem State.setShadow_pwr (s : State) (key : Nat) (v : Option Nat) : (s.setShadow key v).pwr = s.pwr := rfl
@[simp] theorem State.setShadow_evt (s : State) (key : Nat) (v : Option Nat) : (s.setShadow key v).evt = s.evt := rfl
@[simp] theorem State.setShadow_ports (s : State) (key : Nat) (v : Option Nat) : (s.setShadow key v).ports = s.ports := rfl
@[simp] theorem State.setShadow_mem (s : State) (key : Nat) (v : Option Nat) : (s.setShadow key v).mem = s.mem := rfl
@[simp] theorem State.setShadow_tamper (s : State) (key : Nat) (v : Option Nat) : (s.setShadow key v).tamper = s.tamper := rfl
@[simp] theorem State.setShadow_life (s : State) (key : Nat) (v : Option Nat) : (s.setShadow key v).life = s.life := rfl
@[simp] theorem State.setShadow_disp (s : State) (key : Nat) (v : Option Nat) : (s.setShadow key v).disp = s.disp := rfl
@[simp] theorem State.setShadow_upd (s : State) (key : Nat) (v : Option Nat) : (s.setShadow key v).upd = s.upd := rfl
@[simp] theorem State.setShadow_isl (s : State) (key : Nat) (v : Option Nat) : (s.setShadow key v).isl = s.isl := rfl
@[simp] theorem State.setShadow_ans (s : State) (key : Nat) (v : Option Nat) : (s.setShadow key v).ans = s.ans := rfl
@[simp] theorem State.setShadow_pending (s : State) (key : Nat) (v : Option Nat) : (s.setShadow key v).pending = s.pending := rfl

/-! `setHeld` changes `dict`. -/

@[simp] theorem State.setHeld_dict (s : State) (key : Nat) (v : Option Nat) : (s.setHeld key v).dict = { s.dict with held := s.dict.held.set key v } := rfl
@[simp] theorem State.setHeld_clock (s : State) (key : Nat) (v : Option Nat) : (s.setHeld key v).clock = s.clock := rfl
@[simp] theorem State.setHeld_mods (s : State) (key : Nat) (v : Option Nat) : (s.setHeld key v).mods = s.mods := rfl
@[simp] theorem State.setHeld_spares (s : State) (key : Nat) (v : Option Nat) : (s.setHeld key v).spares = s.spares := rfl
@[simp] theorem State.setHeld_chans (s : State) (key : Nat) (v : Option Nat) : (s.setHeld key v).chans = s.chans := rfl
@[simp] theorem State.setHeld_hk (s : State) (key : Nat) (v : Option Nat) : (s.setHeld key v).hk = s.hk := rfl
@[simp] theorem State.setHeld_th (s : State) (key : Nat) (v : Option Nat) : (s.setHeld key v).th = s.th := rfl
@[simp] theorem State.setHeld_ftrip (s : State) (key : Nat) (v : Option Nat) : (s.setHeld key v).ftrip = s.ftrip := rfl
@[simp] theorem State.setHeld_tracks (s : State) (key : Nat) (v : Option Nat) : (s.setHeld key v).tracks = s.tracks := rfl
@[simp] theorem State.setHeld_groups (s : State) (key : Nat) (v : Option Nat) : (s.setHeld key v).groups = s.groups := rfl
@[simp] theorem State.setHeld_eng (s : State) (key : Nat) (v : Option Nat) : (s.setHeld key v).eng = s.eng := rfl
@[simp] theorem State.setHeld_accts (s : State) (key : Nat) (v : Option Nat) : (s.setHeld key v).accts = s.accts := rfl
@[simp] theorem State.setHeld_chres (s : State) (key : Nat) (v : Option Nat) : (s.setHeld key v).chres = s.chres := rfl
@[simp] theorem State.setHeld_pq (s : State) (key : Nat) (v : Option Nat) : (s.setHeld key v).pq = s.pq := rfl
@[simp] theorem State.setHeld_capt (s : State) (key : Nat) (v : Option Nat) : (s.setHeld key v).capt = s.capt := rfl
@[simp] theorem State.setHeld_captMissed (s : State) (key : Nat) (v : Option Nat) : (s.setHeld key v).captMissed = s.captMissed := rfl
@[simp] theorem State.setHeld_acc (s : State) (key : Nat) (v : Option Nat) : (s.setHeld key v).acc = s.acc := rfl
@[simp] theorem State.setHeld_bal (s : State) (key : Nat) (v : Option Nat) : (s.setHeld key v).bal = s.bal := rfl
@[simp] theorem State.setHeld_contrib (s : State) (key : Nat) (v : Option Nat) : (s.setHeld key v).contrib = s.contrib := rfl
@[simp] theorem State.setHeld_pp (s : State) (key : Nat) (v : Option Nat) : (s.setHeld key v).pp = s.pp := rfl
@[simp] theorem State.setHeld_cal (s : State) (key : Nat) (v : Option Nat) : (s.setHeld key v).cal = s.cal := rfl
@[simp] theorem State.setHeld_nvm (s : State) (key : Nat) (v : Option Nat) : (s.setHeld key v).nvm = s.nvm := rfl
@[simp] theorem State.setHeld_pwr (s : State) (key : Nat) (v : Option Nat) : (s.setHeld key v).pwr = s.pwr := rfl
@[simp] theorem State.setHeld_evt (s : State) (key : Nat) (v : Option Nat) : (s.setHeld key v).evt = s.evt := rfl
@[simp] theorem State.setHeld_ports (s : State) (key : Nat) (v : Option Nat) : (s.setHeld key v).ports = s.ports := rfl
@[simp] theorem State.setHeld_mem (s : State) (key : Nat) (v : Option Nat) : (s.setHeld key v).mem = s.mem := rfl
@[simp] theorem State.setHeld_tamper (s : State) (key : Nat) (v : Option Nat) : (s.setHeld key v).tamper = s.tamper := rfl
@[simp] theorem State.setHeld_life (s : State) (key : Nat) (v : Option Nat) : (s.setHeld key v).life = s.life := rfl
@[simp] theorem State.setHeld_disp (s : State) (key : Nat) (v : Option Nat) : (s.setHeld key v).disp = s.disp := rfl
@[simp] theorem State.setHeld_upd (s : State) (key : Nat) (v : Option Nat) : (s.setHeld key v).upd = s.upd := rfl
@[simp] theorem State.setHeld_isl (s : State) (key : Nat) (v : Option Nat) : (s.setHeld key v).isl = s.isl := rfl
@[simp] theorem State.setHeld_ans (s : State) (key : Nat) (v : Option Nat) : (s.setHeld key v).ans = s.ans := rfl
@[simp] theorem State.setHeld_pending (s : State) (key : Nat) (v : Option Nat) : (s.setHeld key v).pending = s.pending := rfl

/-! `setNext` changes `dict`. -/

@[simp] theorem State.setNext_dict (s : State) (key : Nat) (v : Option Nat) : (s.setNext key v).dict = { s.dict with nextStart := s.dict.nextStart.set key v } := rfl
@[simp] theorem State.setNext_clock (s : State) (key : Nat) (v : Option Nat) : (s.setNext key v).clock = s.clock := rfl
@[simp] theorem State.setNext_mods (s : State) (key : Nat) (v : Option Nat) : (s.setNext key v).mods = s.mods := rfl
@[simp] theorem State.setNext_spares (s : State) (key : Nat) (v : Option Nat) : (s.setNext key v).spares = s.spares := rfl
@[simp] theorem State.setNext_chans (s : State) (key : Nat) (v : Option Nat) : (s.setNext key v).chans = s.chans := rfl
@[simp] theorem State.setNext_hk (s : State) (key : Nat) (v : Option Nat) : (s.setNext key v).hk = s.hk := rfl
@[simp] theorem State.setNext_th (s : State) (key : Nat) (v : Option Nat) : (s.setNext key v).th = s.th := rfl
@[simp] theorem State.setNext_ftrip (s : State) (key : Nat) (v : Option Nat) : (s.setNext key v).ftrip = s.ftrip := rfl
@[simp] theorem State.setNext_tracks (s : State) (key : Nat) (v : Option Nat) : (s.setNext key v).tracks = s.tracks := rfl
@[simp] theorem State.setNext_groups (s : State) (key : Nat) (v : Option Nat) : (s.setNext key v).groups = s.groups := rfl
@[simp] theorem State.setNext_eng (s : State) (key : Nat) (v : Option Nat) : (s.setNext key v).eng = s.eng := rfl
@[simp] theorem State.setNext_accts (s : State) (key : Nat) (v : Option Nat) : (s.setNext key v).accts = s.accts := rfl
@[simp] theorem State.setNext_chres (s : State) (key : Nat) (v : Option Nat) : (s.setNext key v).chres = s.chres := rfl
@[simp] theorem State.setNext_pq (s : State) (key : Nat) (v : Option Nat) : (s.setNext key v).pq = s.pq := rfl
@[simp] theorem State.setNext_capt (s : State) (key : Nat) (v : Option Nat) : (s.setNext key v).capt = s.capt := rfl
@[simp] theorem State.setNext_captMissed (s : State) (key : Nat) (v : Option Nat) : (s.setNext key v).captMissed = s.captMissed := rfl
@[simp] theorem State.setNext_acc (s : State) (key : Nat) (v : Option Nat) : (s.setNext key v).acc = s.acc := rfl
@[simp] theorem State.setNext_bal (s : State) (key : Nat) (v : Option Nat) : (s.setNext key v).bal = s.bal := rfl
@[simp] theorem State.setNext_contrib (s : State) (key : Nat) (v : Option Nat) : (s.setNext key v).contrib = s.contrib := rfl
@[simp] theorem State.setNext_pp (s : State) (key : Nat) (v : Option Nat) : (s.setNext key v).pp = s.pp := rfl
@[simp] theorem State.setNext_cal (s : State) (key : Nat) (v : Option Nat) : (s.setNext key v).cal = s.cal := rfl
@[simp] theorem State.setNext_nvm (s : State) (key : Nat) (v : Option Nat) : (s.setNext key v).nvm = s.nvm := rfl
@[simp] theorem State.setNext_pwr (s : State) (key : Nat) (v : Option Nat) : (s.setNext key v).pwr = s.pwr := rfl
@[simp] theorem State.setNext_evt (s : State) (key : Nat) (v : Option Nat) : (s.setNext key v).evt = s.evt := rfl
@[simp] theorem State.setNext_ports (s : State) (key : Nat) (v : Option Nat) : (s.setNext key v).ports = s.ports := rfl
@[simp] theorem State.setNext_mem (s : State) (key : Nat) (v : Option Nat) : (s.setNext key v).mem = s.mem := rfl
@[simp] theorem State.setNext_tamper (s : State) (key : Nat) (v : Option Nat) : (s.setNext key v).tamper = s.tamper := rfl
@[simp] theorem State.setNext_life (s : State) (key : Nat) (v : Option Nat) : (s.setNext key v).life = s.life := rfl
@[simp] theorem State.setNext_disp (s : State) (key : Nat) (v : Option Nat) : (s.setNext key v).disp = s.disp := rfl
@[simp] theorem State.setNext_upd (s : State) (key : Nat) (v : Option Nat) : (s.setNext key v).upd = s.upd := rfl
@[simp] theorem State.setNext_isl (s : State) (key : Nat) (v : Option Nat) : (s.setNext key v).isl = s.isl := rfl
@[simp] theorem State.setNext_ans (s : State) (key : Nat) (v : Option Nat) : (s.setNext key v).ans = s.ans := rfl
@[simp] theorem State.setNext_pending (s : State) (key : Nat) (v : Option Nat) : (s.setNext key v).pending = s.pending := rfl

/-! `setPort` changes `ports`. -/

@[simp] theorem State.setPort_dict (s : State) (k : Nat) (f : Port → Port) : (s.setPort k f).dict = s.dict := rfl
@[simp] theorem State.setPort_clock (s : State) (k : Nat) (f : Port → Port) : (s.setPort k f).clock = s.clock := rfl
@[simp] theorem State.setPort_mods (s : State) (k : Nat) (f : Port → Port) : (s.setPort k f).mods = s.mods := rfl
@[simp] theorem State.setPort_spares (s : State) (k : Nat) (f : Port → Port) : (s.setPort k f).spares = s.spares := rfl
@[simp] theorem State.setPort_chans (s : State) (k : Nat) (f : Port → Port) : (s.setPort k f).chans = s.chans := rfl
@[simp] theorem State.setPort_hk (s : State) (k : Nat) (f : Port → Port) : (s.setPort k f).hk = s.hk := rfl
@[simp] theorem State.setPort_th (s : State) (k : Nat) (f : Port → Port) : (s.setPort k f).th = s.th := rfl
@[simp] theorem State.setPort_ftrip (s : State) (k : Nat) (f : Port → Port) : (s.setPort k f).ftrip = s.ftrip := rfl
@[simp] theorem State.setPort_tracks (s : State) (k : Nat) (f : Port → Port) : (s.setPort k f).tracks = s.tracks := rfl
@[simp] theorem State.setPort_groups (s : State) (k : Nat) (f : Port → Port) : (s.setPort k f).groups = s.groups := rfl
@[simp] theorem State.setPort_eng (s : State) (k : Nat) (f : Port → Port) : (s.setPort k f).eng = s.eng := rfl
@[simp] theorem State.setPort_accts (s : State) (k : Nat) (f : Port → Port) : (s.setPort k f).accts = s.accts := rfl
@[simp] theorem State.setPort_chres (s : State) (k : Nat) (f : Port → Port) : (s.setPort k f).chres = s.chres := rfl
@[simp] theorem State.setPort_pq (s : State) (k : Nat) (f : Port → Port) : (s.setPort k f).pq = s.pq := rfl
@[simp] theorem State.setPort_capt (s : State) (k : Nat) (f : Port → Port) : (s.setPort k f).capt = s.capt := rfl
@[simp] theorem State.setPort_captMissed (s : State) (k : Nat) (f : Port → Port) : (s.setPort k f).captMissed = s.captMissed := rfl
@[simp] theorem State.setPort_acc (s : State) (k : Nat) (f : Port → Port) : (s.setPort k f).acc = s.acc := rfl
@[simp] theorem State.setPort_bal (s : State) (k : Nat) (f : Port → Port) : (s.setPort k f).bal = s.bal := rfl
@[simp] theorem State.setPort_contrib (s : State) (k : Nat) (f : Port → Port) : (s.setPort k f).contrib = s.contrib := rfl
@[simp] theorem State.setPort_pp (s : State) (k : Nat) (f : Port → Port) : (s.setPort k f).pp = s.pp := rfl
@[simp] theorem State.setPort_cal (s : State) (k : Nat) (f : Port → Port) : (s.setPort k f).cal = s.cal := rfl
@[simp] theorem State.setPort_nvm (s : State) (k : Nat) (f : Port → Port) : (s.setPort k f).nvm = s.nvm := rfl
@[simp] theorem State.setPort_pwr (s : State) (k : Nat) (f : Port → Port) : (s.setPort k f).pwr = s.pwr := rfl
@[simp] theorem State.setPort_evt (s : State) (k : Nat) (f : Port → Port) : (s.setPort k f).evt = s.evt := rfl
@[simp] theorem State.setPort_ports (s : State) (k : Nat) (f : Port → Port) : (s.setPort k f).ports = { s.ports with p := s.ports.p.upd k f } := rfl
@[simp] theorem State.setPort_mem (s : State) (k : Nat) (f : Port → Port) : (s.setPort k f).mem = s.mem := rfl
@[simp] theorem State.setPort_tamper (s : State) (k : Nat) (f : Port → Port) : (s.setPort k f).tamper = s.tamper := rfl
@[simp] theorem State.setPort_life (s : State) (k : Nat) (f : Port → Port) : (s.setPort k f).life = s.life := rfl
@[simp] theorem State.setPort_disp (s : State) (k : Nat) (f : Port → Port) : (s.setPort k f).disp = s.disp := rfl
@[simp] theorem State.setPort_upd (s : State) (k : Nat) (f : Port → Port) : (s.setPort k f).upd = s.upd := rfl
@[simp] theorem State.setPort_isl (s : State) (k : Nat) (f : Port → Port) : (s.setPort k f).isl = s.isl := rfl
@[simp] theorem State.setPort_ans (s : State) (k : Nat) (f : Port → Port) : (s.setPort k f).ans = s.ans := rfl
@[simp] theorem State.setPort_pending (s : State) (k : Nat) (f : Port → Port) : (s.setPort k f).pending = s.pending := rfl

end Sys2Proof.Machine
end

