-- ==== Sys2Proof/WellFormed.lean ====
section
/-! DEFINITION. Which terms of Instr are commands that the outside can send: an operand lies within the range that the
spec gives its field (log 5). exec is total all the same. -/
namespace Sys2Proof

/-- A TAG is 16 bits (Table 16.2), and only the field and service ports broadcast (R425) (DEDUCED, log 5; DEDUCED, log 60). -/
def Req.wellFormed (r : Req) : Bool := decide (r.tag < 2 ^ 16) && (!r.bcast || decide (r.cls = .s) || decide (r.cls = .f))

/-- A failing row lies among the 256 rows, the 16 spare rows and the transit row of a bank; a row holds 128 words (R298) (DEDUCED, log 5). -/
def RowFail.wellFormed (f : RowFail) : Bool := decide (f.row ≤ 272 ∧ f.words ≤ 128)

/-- INDEX is 16 bits and SUBINDEX 8 bits (Table 16.2) (DEDUCED, log 5). -/
def indexFits (index sub : Nat) : Bool := decide (index < 2 ^ 16 ∧ sub < 2 ^ 8)

/-- A command carries at most 4,096 payload bytes (Table 16.2) (DEDUCED, log 5). -/
def payloadFits (p : Bytes) : Bool := decide (p.length ≤ 4096)

/-- A command within the ranges of the spec's fields. Frames of a port are any bytes: the port itself refuses a bad one (DEDUCED, log 5). -/
def Instr.wellFormed : Instr → Bool
  | .pfdTrip => true
  | .regulatorBrownOut _ => true
  | .ewarnAssert => true
  | .ewarnQualified => true
  | .ewarnRelease => true
  | .lastGaspDone _ => true
  | .holdUpFloor _ _ => true
  | .restartHoldoffExpiry => true
  | .supplyGood => true
  | .startTimeout => true
  | .powerVerifyRetry => true
  | .marchStartupDone fails => fails.all RowFail.wellFormed
  | .imageCheckDone _ _ => true
  | .vbatCheck _ => true
  | .regWindowBreach _ _ _ _ => true
  | .aoPowerOnReset => true
  | .filterSample _ _ _ _ => true
  | .ftripMinWidthEnd _ => true
  | .issueResume => true
  | .stitchClaim _ => true
  | .stitchResume _ => true
  | .sequencedAdd _ => true
  | .gateAdvance _ => true
  | .stitchTimeout _ => true
  | .engineReset _ _ => true
  | .clusterReset _ _ => true
  | .engineReturnToService _ _ => true
  | .admissionEvaluation measured => measured.length == 10
  | .crossingTimeout _ _ r tag => r.wellFormed && decide (tag < 2 ^ 16)
  | .stuckBitstream _ => true
  | .hardFaultDecision _ _ => true
  | .recalPassStart => true
  | .rotationSlotStart _ _ => true
  | .alignmentFit _ => true
  | .rotationMeasureEnd _ _ _ => true
  | .spareReturn _ => true
  | .rotationSlotEnd _ => true
  | .substituteRetry _ => true
  | .spareOffsetNull _ _ => true
  | .hkConversionDone _ => true
  | .urgentRequest _ => true
  | .urgentConversionDone _ => true
  | .openNative r => r.wellFormed
  | .openCompat r => r.wellFormed
  | .startStep r => r.wellFormed
  | .cancelStep r => r.wellFormed
  | .close r => r.wellFormed
  | .sessionIdleTimeout => true
  | .calTimeout => true
  | .signatureSlotEnd _ _ _ => true
  | .dayStart => true
  | .scheduleEntry => true
  | .scheduleRebuild => true
  | .ppCreditTransfer r _ p => r.wellFormed && payloadFits p
  | .ppCredit r _ p => r.wellFormed && payloadFits p
  | .ppEcRequest r _ p => r.wellFormed && payloadFits p
  | .ppReconnectArm r _ p => r.wellFormed && payloadFits p
  | .ppHostDisconnect r _ p => r.wellFormed && payloadFits p
  | .keyDevice r p => r.wellFormed && payloadFits p
  | .keyAccount r _ p => r.wellFormed && payloadFits p
  | .keyWrapped r p => r.wellFormed && payloadFits p
  | .relayScanFrame present closed => present.length == 32 && closed.length == 32
  | .relayCommandFrame => true
  | .relayReleaseFrame => true
  | .relayCaptureFrame present closed => present.length == 32 && closed.length == 32
  | .rlyFaultClear r p => r.wellFormed && payloadFits p
  | .detectorAWindow _ _ start fin => decide (start ≤ fin)
  | .detectorBFlag _ _ _ => true
  | .pllRelock => true
  | .crystalClean => true
  | .rtcCrystalReturn => true
  | .glitchFlag _ _ _ => true
  | .tampSample _ _ _ => true
  | .magSample _ _ => true
  | .aoLogDrain => true
  | .tamperRelease r p => r.wellFormed && payloadFits p
  | .markClear r p => r.wellFormed && payloadFits p
  | .lcCommand r p => r.wellFormed && payloadFits p
  | .keyReturn r p => r.wellFormed && payloadFits p
  | .watchdogKick r p => r.wellFormed && payloadFits p
  | .watchdogExpiry => true
  | .controlIslandRestart _ => true
  | .controlRestartDone _ _ => true
  | .portIslandRestart _ => true
  | .displayIslandRestart _ => true
  | .periodicSave => true
  | .saveRequest r p => r.wellFormed && payloadFits p
  | .nvmProgramDone page _ _ => decide (page < 16384)
  | .storeCompaction _ => true
  | .journalCompaction => true
  | .refreshPass weak bad => weak.all (fun a => decide (a < 2 ^ 22)) && bad.all (fun a => decide (a < 2 ^ 22))
  | .spreadInc r p => r.wellFormed && payloadFits p
  | .scrubWord addr _ pos => decide (addr < 2 ^ 32 ∧ pos < 72)
  | .lineRecovery line => decide (line < 8192)
  | .rowTest _ row failWords => decide (row ≤ 272 ∧ failWords ≤ 128)
  | .marchPreserving r p => r.wellFormed && payloadFits p
  | .marchDestructive r p => r.wellFormed && payloadFits p
  | .marchPeriodic => true
  | .marchRunDone => true
  | .hportTransaction _ => true
  | .hcsTimeout _ => true
  | .read r index sub => r.wellFormed && indexFits index sub
  | .write r index sub payload => r.wellFormed && indexFits index sub && payloadFits payload
  | .readShadow r index sub => r.wellFormed && indexFits index sub
  | .getResponse _ => true
  | .ringRead r ring max => r.wellFormed && decide (ring < 2 ^ 16 ∧ max < 2 ^ 8)
  | .ringAck r ring _ => r.wellFormed && decide (ring < 2 ^ 16)
  | .bulkSet r p => r.wellFormed && payloadFits p
  | .bulkRead r => r.wellFormed
  | .bulkBufferFill _ => true
  | .responseExpiry _ => true
  | .gfpCommand _ _ => true
  | .poll _ _ => true
  | .timeSync _ _ _ _ => true
  | .replyDeadline _ => true
  | .i2cRound _ readings => decide (readings.length ≤ 4)
  | .extest => true
  | .samplePreload => true
  | .idcode => true
  | .clamp => true
  | .highz => true
  | .bypass _ => true
  | .dbgMem _ => true
  | .tapReset => true
  | .eventPendingClear r p => r.wellFormed && payloadFits p
  | .ringConsumers r p => r.wellFormed && payloadFits p
  | .update r => r.wellFormed
  | .clear r => r.wellFormed
  | .powerOff r => r.wellFormed
  | .dispImage r p => r.wellFormed && payloadFits p
  | .pumpGood => true
  | .pumpFail => true
  | .displayFrameEnd => true
  | .pumpHoldExpiry => true
  | .balDelayExpiry => true
  | .clearingStart => true
  | .selvedgeTransition _ => true
  | .outageMarkClear r p => r.wellFormed && payloadFits p
  | .selvedgeStatus r p => r.wellFormed && payloadFits p
  | .begin r => r.wellFormed
  | .updChunk r p => r.wellFormed && payloadFits p
  | .verify r => r.wellFormed
  | .imageVerifyDone _ => true
  | .arm r => r.wellFormed
  | .activateNow r => r.wellFormed
  | .disarm r => r.wellFormed
  | .abort r => r.wellFormed
  | .rearm r => r.wellFormed
  | .fallback r => r.wellFormed
  | .updConfirm r p => r.wellFormed && payloadFits p
  | .activation => true
  | .patternSwitch _ => true
  | .healthDeadline => true
  | .holdStart r => r.wellFormed
  | .holdRelease r => r.wellFormed
  | .holdTimeout => true
  | .timeNow r p => r.wellFormed && payloadFits p
  | .rtcSecondTick => true
  | .snapReq r p => r.wellFormed && payloadFits p
  | .snapshotTimeout _ => true
  | .accClear r p => r.wellFormed && payloadFits p
  | .mdReset r p => r.wellFormed && payloadFits p
  | .pulseEdge _ => true
  | .pulseConfig r _ _ p => r.wellFormed && payloadFits p
  | .ftripAssign r _ p => r.wellFormed && payloadFits p
  | .ftripLatchClear r p => r.wellFormed && payloadFits p
  | .hkLimitFlagClear r p => r.wellFormed && payloadFits p
  | .hkRun r p => r.wellFormed && payloadFits p
  | .chSubstitute r _ p => r.wellFormed && payloadFits p
  | .thEnable r _ p => r.wellFormed && payloadFits p
  | .engineEnable r p => r.wellFormed && payloadFits p
  | .clusterEnable r p => r.wellFormed && payloadFits p
  | .trigger r => r.wellFormed
  | .stop r => r.wellFormed
  | .releaseAll r => r.wellFormed
  | .captRelease r p => r.wellFormed && payloadFits p
  | .bindOffRest r => r.wellFormed
  | .bindOffRestart r => r.wellFormed
  | .restartControl r => r.wellFormed
  | .restartPort r => r.wellFormed
  | .restartDisplay r => r.wellFormed
  | .vin33Return => true
  | .nvmIslandRestart _ => true
  | .portRestartDone => true
  | .displayRestartDone => true
  | .dischargeShortExpiry => true
  | .railDischargeDone => true
  | .selvedgeFrameEnd _ => true
  | .oscSensorReading _ => true
  | .gfpInvalidFrame _ => true
  | .nvmLifeCheck => true

end Sys2Proof
end

