-- ==== Sys2Proof/Tests/Slice0.lean ====
section
/-! SUPPORT. The package's own tests: an ill-formed term for each check of WellFormed, the check values and worked examples that
the manual and the named standards print, single steps on small states, and for every statement with hypotheses the states
and operands that meet them, one group for each clause. -/
namespace Sys2Proof.Tests
open Sys2Proof Sys2Proof.Machine
set_option Elab.async false

/-! ### WellFormed refuses -/

theorem test_tag_too_long : (Instr.update { tag := 65536 }).wellFormed = false := by decide
theorem test_host_does_not_broadcast : (Instr.update { cls := .h, bcast := true }).wellFormed = false := by decide
theorem test_field_broadcasts : (Instr.update { cls := .f, bcast := true }).wellFormed = true := by decide
theorem test_payload_too_long : (Instr.dispImage {} (List.replicate 4097 0)).wellFormed = false := by decide +kernel
theorem test_index_too_long : (Instr.read {} 65536 0).wellFormed = false := by decide
theorem test_subindex_too_long : (Instr.readShadow {} 0 256).wellFormed = false := by decide
theorem test_write_payload_too_long : (Instr.write {} 0 0 (List.replicate 4097 0)).wellFormed = false := by decide +kernel
theorem test_ring_number_too_long : (Instr.ringAck {} 65536 0).wellFormed = false := by decide
theorem test_ring_count_too_long : (Instr.ringRead {} 4 256).wellFormed = false := by decide
theorem test_failing_row_outside : (Instr.marchStartupDone [{ bank := 0, row := 273, words := 1 }]).wellFormed = false := by decide
theorem test_failing_words_outside : (Instr.marchStartupDone [{ bank := 0, row := 0, words := 129 }]).wellFormed = false := by decide
theorem test_tested_row_outside : (Instr.rowTest 0 273 0).wellFormed = false := by decide
theorem test_ten_costs : (Instr.admissionEvaluation [1, 2]).wellFormed = false := by decide
theorem test_crossing_tag_too_long : (Instr.crossingTimeout 0 none {} 65536).wellFormed = false := by decide
theorem test_scan_frame_length : (Instr.relayScanFrame [1] (List.replicate 32 0)).wellFormed = false := by decide
theorem test_capture_frame_length : (Instr.relayCaptureFrame (List.replicate 32 0) [1]).wellFormed = false := by decide
theorem test_window_ends_before_start : (Instr.detectorAWindow 0 700 5 4).wellFormed = false := by decide
theorem test_page_outside : (Instr.nvmProgramDone 16384 true true).wellFormed = false := by decide
theorem test_weak_word_outside : (Instr.refreshPass [2 ^ 22] []).wellFormed = false := by decide
theorem test_bad_word_outside : (Instr.refreshPass [] [2 ^ 22]).wellFormed = false := by decide
theorem test_bit_outside : (Instr.scrubWord 0 1 72).wellFormed = false := by decide
theorem test_line_outside : (Instr.lineRecovery 8192).wellFormed = false := by decide
theorem test_five_readings : (Instr.i2cRound .free (List.replicate 5 { ack := true, inTime := true, data := [] })).wellFormed = false := by
  decide

/-! ### Check values and worked examples -/

/-- Over the string 123456789: the check value of R416, and that of the IEEE CRC-32 (PRESUMED, from the standard). -/
theorem test_crc16_check : crc16 (be 9 0x313233343536373839) = 0x29B1 := by decide +kernel
theorem test_crc32_check : crc32 (be 9 0x313233343536373839) = 0xCBF43926 := by decide +kernel
/-- FIPS 197, appendix B, and its inverse; RFC 4493, example 2; FIPS 180-4, the message abc. -/
theorem test_aes : aesEnc (be 16 0x2b7e151628aed2a6abf7158809cf4f3c) (be 16 0x3243f6a8885a308d313198a2e0370734) =
    be 16 0x3925841d02dc09fbdc118597196a0b32 := by decide +kernel
theorem test_aes_inverse : aesDec (be 16 0x2b7e151628aed2a6abf7158809cf4f3c) (be 16 0x3925841d02dc09fbdc118597196a0b32) =
    be 16 0x3243f6a8885a308d313198a2e0370734 := by decide +kernel
theorem test_cmac : cmac (be 16 0x2b7e151628aed2a6abf7158809cf4f3c) (be 16 0x6bc1bee22e409f96e93d7e117393172a) =
    be 16 0x070a16b46b4d4144f79bdd9dd04a287c := by decide +kernel
theorem test_sha256 : sha256 [0x61, 0x62, 0x63] =
    be 32 0xba7816bf8f01cfea414140de5dae2223b00361a396177a9cb410ff61f20015ad := by decide +kernel
/-- The example of R257: the codes of CH37 at 41.30 degrees. -/
theorem test_codes_of_ch37 : gainCode (-442880) = 7285 ∧ offsetCode (-3812) = -8 ∧ phaseShift 353 = 5264318 := by decide +kernel
/-- The example of Table 15.5: the sums of the white to black and black to white sequences of TB5, in ms at 15 V. -/
def tb5 : Bytes := [12, 0, 0, 0] ++ List.replicate 8 0x24 ++ List.replicate 24 0
theorem test_waveform_sums :
    ((List.range 12).map (fun k => level tb5 k false true * 20)).sum = 160 ∧
    ((List.range 12).map (fun k => level tb5 k true false * 20)).sum = -160 ∧
    ((List.range 12).map (fun k => level tb5 k false false)).sum = 0 := by decide +kernel

/-! ### States for the tests and witnesses -/


def liveS : State := { State.reset with
  pwr := { State.reset.pwr with mode := .run, good := true, started := true, metering := true }
  isl := { State.reset.isl with served := true }
  nvm := { State.reset.nvm with restored := true } }
def put (s : State) (k v : Nat) : State := { s with dict := { s.dict with active := KMap.set s.dict.active k (some v) } }
def s01a : State := { put liveS oEwarnMode 2 with pwr := { liveS.pwr with ewarn := true } }
def restS : State := State.reset
def s02a : State := put liveS oEwarnMode 1
def grp (_n : Nat) : Group := { running := true, start := 100, period := 40000, table := [{ cycle := 3, pos := 12000, at_ := 12500 }, { cycle := 2, pos := 9000, at_ := 9100 }], winCycles := 10 }
def fullA (s : State) : State := { s with
  clock := { s.clock with clk := 5000000000, castOn := 1000, rtc := 900000 * 1024, latch := 4999000000, slew := 3, prevRtc := 800000, prevLatch := 70000 }
  mods := [(0, {}), (3, { gain := 8000, offset := 5 })]
  chans := [(0, { running := true, next := 30, ring := [(0, some 5), (1, none)], substitute := true, retry := true }), (1, { running := true, onSpare := some 0 }), (32, { running := true })]
  spares := [(0, { st := .rotation, ch := some 1, stage := .serving }), (2, { st := .parallel, stage := .pairs, ch := some 65 })]
  hk := { s.hk with running := true, step := 2, reps := 1, sum := 77, active := some 0, posPower := 1, pendPower := true }
  th := [(0, { trips := 4 })]
  ftrip := [(0, { level := true, latched := true }), (1, { holding := true, level := true })]
  groups := [(0, grp 0), (2, grp 2)]
  accts := [(0, { running := true, cycle := 55 }), (7, { running := true })]
  capt := [(0, { ch := 5, busy := true, first := 4, blocks := 2 }), (1, { ch := 6, ready := true })]
  bal := [(0, { running := true })]
  captMissed := 3
  pp := { s.pp with credit := [(3, { credit := 500, xfer := 4, chargeDay := 10 }), (5, { ec := true })], acct := [(3, { srcCredit := true }), (5, { srcTamper := true, tamperBy := [0x10] })], keyDevice := some (List.replicate 16 7), keys := [(1, some (List.replicate 16 3))], keyCounter := 5, relay := { s.pp.relay with phase := .settle, op := some { accts := [3], slots := [(2, 0)] }, commanded := [(1, true)], closed := [(1, true), (4, true)], present := [(1, true)], fault := [(9, true)], openQ := [4], closeQ := [6], scans := 2 } }
  cal := { s.cal with owner := some .s, running := true, chans := [(4, some { st := .measuring, iters := 2 }), (5, some { st := .signature }), (6, some { st := .converged }), (7, some { st := .waitReturn })], steps := 3, lastWrite := 4000000000, passDue := false }
  nvm := { s.nvm with dirty := [(3, true), (7, true)], dirtyQ := [(3, true)], dirtyC := [(4, true)], sc := [(5, 3), (7, 9)], bad := [12, 99], jHead := 5, programs := [(4, 7)] }
  evt := { s.evt with pending := [(1, true), (44, true)], count := [(1, 4)], rings := [(1, { entries := [{ seq := 1, data := [1,0,0,0,0,0,0,0,9,9] }], seq := 1 }), (4, { entries := [{ seq := 7, units := 1, await := [.h, .f], data := [7,0,0,0] }, { seq := 8, units := 1, await := [.h], data := [8,0,0,0] }], seq := 8 })], deferred := [{ src := 4 }] }
  mem := { s.mem with banks := [(2, { corrected := 4, rows := [(3, 4)] })], recovering := [(4, 7), (8, 1)], poison := [(64, true)] }
  tamper := { s.tamper with tamp := [(0, { active := true, run := 3 })], buf := [{ time := 4, source := 0x12, event := 11 }], glitch := [(0, { last := some 9000, singles := [9000], n := 2 })] }
  disp := { s.disp with st := .waveform, work := .update, pumps := true, copy := 12345, shown := 77, balance := [(0, 40), (90, 7)] }
  eng := { s.eng with armed := true, stolenLocal := 4, engines := [(0, { run := some { q := 0, seq := 9, pat := 1, kind := 0, num := 3, ready := true, adds := [(.line 3, 77), (.quality 2, 4)] }, susp := [{ q := 0, seq := 10, pat := 1, kind := 0, num := 3, wait := some .gate }], done := 6 }), (9, { st := .restarting })], clusters := [(3, { st := .restarting })] , wq := [(0, [{ seq := 9, kind := 0, num := 3, pat := 1, st := .claimed, vg := 0 }, { seq := 10, kind := 0, num := 3, pat := 1, st := .suspended }])], streams := [(0, { live := true })] }
  acc := { s.acc with lines := [(3, { value := 1000, marker := 4 })], pulses := [(0, { edges := [(70, true)], owed := 2, residue := 9, level := true })], snaps := [(0, { state := 1, subject := 5 })] }
  ports := { s.ports with p := [(0, { rep := [{ tag := 5, crc := 6, seq := 1, op := 1 }], accepted := 3, lastTag := 5 })], temp := [(1, 44)] }
  dict := { s.dict with held := [(1, some 3)], owner := some .f, since := 77 }
  life := { s.life with cells := [3, 3, 0, 0, 0], nonce := 4 } }
def fullS : State := fullA liveS
def s02c : State := { put fullS oEwarnMode 1 with nvm := { fullS.nvm with restored := false } }
def lgS : State := { liveS with pwr := { liveS.pwr with mode := .powerFail, good := false, source := 1, vbat := 2500 }, nvm := { liveS.nvm with session := some {} } }
def lgH : State := { restS with pwr := { restS.pwr with outHold := 0xFFFFFFFF } }
def upA (s : State) : State := { s with pwr := { s.pwr with good := true, started := true } }
def offS : State := fullA restS
def bkE : State := { put offS oEwarnMode 2 with pwr := { offS.pwr with mode := .backup, ewarn := true, good := true } }
def upC (s : State) : State := { s with pwr := { s.pwr with ewarn := false } }
def bkW : State := { offS with pwr := { offS.pwr with mode := .backup, gaspEnded := true, holdoffDone := false, good := true } }
def upB (s : State) : State := { s with pwr := { s.pwr with holdoffDone := true } }
def s05a : State := { fullS with pwr := { fullS.pwr with ready := true, breach := [(1, true)] } }
def s06b : State := { liveS with nvm := { liveS.nvm with restored := false } }
def s06c : State := { liveS with isl := { liveS.isl with control := some 0, cause := 5 } }
def smpS : State := { liveS with chans := [(5, { running := true, next := 40, ring := [(3, some 4)] }), (6, { running := true, next := 0 })], th := [(5, { trips := 3 })] }
def ftS : State := put { fullS with ftrip := [(0, { holding := true, level := true }), (1, { holding := true, level := true })] } (oFtripAssign 1) 0
def ft1S : State := put ftS (oFtripAssign 0) 1
def stitchC : Stitch := { seq := 9, kind := 0, num := 3, pat := 1, st := .waiting, vg := 0, bslot := 3 }
def enS : State := put { liveS with groups := [(0, grp 0)], eng := { liveS.eng with armed := true, wq := [(0, [stitchC])], streams := [(streamKey 1 0 3, { live := true, gate := 8, claim := 8 })], engines := [] } } oEngineEnable 0xFFFFFFFF
def stitchB : Stitch := { seq := 9, kind := 0, num := 3, pat := 1, st := .suspended, vg := 0, bslot := 3 }
def runE : Held := { q := 0, seq := 9, pat := 1, kind := 0, num := 3, wait := some .gate, adds := [(.line 3, 4)] }
def enG : State := { enS with eng := { enS.eng with wq := [(0, [stitchB])], engines := [(4, { susp := [runE] })] } }
def stitchA : Stitch := { seq := 9, kind := 0, num := 3, pat := 1, st := .claimed, vg := 0, bslot := 3 }
def runA : Held := { q := 0, seq := 9, pat := 1, kind := 0, num := 3, ready := true, adds := [(.line 3, 77), (.quality 2, 4)] }
def runB : Held := { q := 0, seq := 9, pat := 1, kind := 0, num := 3, ready := true, adds := [] }
def runC : Held := { q := 0, seq := 9, pat := 1, kind := 0, num := 3, ready := true, adds := [(.quality 3, 77)] }
def runD : Held := { q := 0, seq := 9, pat := 1, kind := 0, num := 3, ready := true, adds := [(.energy 0, 77)] }
def enR : State := { enS with eng := { enS.eng with wq := [(0, [stitchA])], engines := [(4, { run := some runA }), (5, { run := some runB, done := 7 }), (6, { run := some runC }), (7, { run := some runD })] }, acc := { enS.acc with lines := [(3, { value := 2 ^ 96 - 2, marker := 8 })] } }
def s09c : State := { enR with acc := { enR.acc with energy := [(0, { marker := 10 })] } }
def s11d : State := { liveS with eng := { liveS.eng with ovr := true, exitCount := 1000 } }
def s11c : State := { fullS with eng := { fullS.eng with ovr := true } }
def s11b : State := { fullS with eng := { fullS.eng with clusters := [(3, { st := .starting, svc := true })] } }
def fcS : State := { liveS with chans := [(0, { running := true, substitute := true, retry := true }), (33, { running := true }), (65, { running := true, onSpare := some 2 }), (96, { running := true })], spares := [(1, { st := .parallel, ch := some 33, why := .fault, stage := .fill }), (2, { st := .rotation, ch := some 65, stage := .serving }), (3, { st := .failed })] }
def rcS : State := put { liveS with cal := { liveS.cal with meterTrig := true } } oSpareRotationEnable 1
def rotS : State := put { fcS with groups := [(0, grp 0)], spares := [(0, {}), (1, { st := .rotation, ch := some 33, stage := .pairs, own := [], spare := [] }), (2, { st := .rotation, ch := some 65, stage := .offsetMeas }), (3, { st := .rotation, ch := some 96, stage := .gainMeas }), (4, { st := .rotation, ch := some 128, stage := .waitCross, since := 8000 }), (5, { st := .idle, ch := some 160, stage := .done }), (6, { st := .rotation, ch := some 192, stage := .done }), (7, { st := .rotation, ch := some 224, stage := .waitCross, next := some 225 })], chans := fcS.chans ++ [(128, { running := true, onSpare := some 4 }), (225, { running := true })], cal := { fcS.cal with passRun := true } } oSpareRotationEnable 1
def s13f : State := { rotS with chans := [(0, { running := true })] }
def s13h : State := { rotS with spares := [(3, { st := .rotation, ch := some 96, stage := .gainMeas, why := .request })] }
def mkPairs (n : Nat) : List (Nat × Int) := (List.range n).map (fun k => (k, (k : Int) * 30000000 - 900000000))
def prS : State := { rotS with spares := [(1, { st := .parallel, ch := some 33, stage := .pairs, own := mkPairs 64, spare := mkPairs 64 }), (2, { st := .parallel, ch := some 65, stage := .pairs, own := mkPairs 64, spare := (mkPairs 64).map (fun x => (x.1, x.2 / 2)), why := .request })] }
def s13d : State := put liveS oSpareRotationEnable 0
def s13j : State := { rotS with cal := { rotS.cal with passRun := false } }
def s14h : State := { liveS with hk := { liveS.hk with active := some 1, pendTamper := some false, pendCal := true } }
def puts (s : State) (l : List (Nat × Nat)) : State := l.foldl (fun s x => put s x.1 x.2) s
def hkS : State := puts { liveS with eng := { liveS.eng with armed := true }, hk := { liveS.hk with running := true, reps := 2, sum := 5 } } [(oHkStep 0, 0x320), (oHkProgramLength, 3), (oHkStep 1, 0x21)]
def s14a : State := { hkS with hk := { hkS.hk with reps := 3 } }
def s14f : State := { fullS with hk := { fullS.hk with vin := 3100000 } }
def s14j : State := { fullS with hk := { fullS.hk with pendPower := false, active := some 2, pendCal := true } }
def s14d : State := { fullS with hk := { fullS.hk with posPower := 0 } }
def s14i : State := { fullS with hk := { fullS.hk with pendPower := false, active := some 1, pendTamper := some true } }
def lcS (s : State) (l : List Nat) : State := { s with life := { s.life with cells := l } }
def calS : State := { lcS liveS [3,3,0,0,0] with cal := { liveS.cal with } }
def calO : State := { calS with cal := { calS.cal with owner := some .s } }
def stS : State := puts { calO with chans := [(4, { running := true }), (5, { running := true })] } [(oCsChannels, 0x30), (oCsStep, 0x71), (oChEnable 4, 1), (oChEnable 5, 1), (oCalFullScale 4, 0x41200000), (oCalFullScale 5, 0x41200000), (oCsRefVRms, 0x40A00000), (oCsRefIRms, 0x40A00000)]
def scS : State := { fullS with pp := { fullS.pp with now := { time := 7, band := 1 }, sched := [{ time := 9, band := 2 }, { time := 10, band := 2 }] } }
def ppS : State := puts { fullS with nvm := { fullS.nvm with restored := true } } [(oAccEnable 3, 1), (oPpMode 3, 1), (oPpTariff 3, 2), (oTfDailyCharge 2, 77)]
def ppT : State := { ppS with pp := { ppS.pp with credit := [(3, { credit := 500, chargeDay := (ppS.localDay ppS.now).toNat - 1, residue := 4 })] } }
def s16b : State := { scS with pp := { scS.pp with now := { time := 0, band := 2 } } }
def rqF : State := { fullS with dict := { fullS.dict with owner := none, held := [] }, cal := {} }
def ecS : State := puts { rqF with pp := { rqF.pp with credit := [(3, { credit := 5, xfer := 4 })] } } [(oAccEnable 3, 1), (oPpMode 3, 1), (oPpOptions 3, 0x20), (oPpLowLevel 3, 1000), (oPpEcLimit 3, 500), (oPpRelay 3, 0x102), (oPpRelay 5, 0x105)]
def ecT : State := { ecS with pp := { ecS.pp with credit := [(3, { credit := -5, xfer := 4 })], acct := [(3, { waitArm := true })], relay := {} } }
def s19b : State := put ecT (oPpHostDisconnect 3) 1
def rlS : State := puts { rqF with pp := { rqF.pp with relay := { rqF.pp.relay with phase := .idle, op := none } } } [(oRlyEnable, 1), (oRlyChainLength, 8), (oAccEnable 3, 1), (oPpRelay 3, 0x202), (oPpRelay 4, 0x104), (oPpMode 3, 1), (oRlyRetries, 1)]
def rlT : State := { rlS with pp := { rlS.pp with relay := { commanded := [(2, true)], closed := [(1, true)], present := [(1, true)], absent := [2, 3], diff := [2], openQ := [3], scans := 5, retry := [(6, true, 1)] }, acct := [(3, { srcCredit := true, srcOutage := true })] } }
def rlC : State := { rlT with pp := { rlT.pp with relay := { rlT.pp.relay with phase := .settle, op := some { opens := true, accts := [3], slots := [(2,0),(3,1)] } } } }
def rlP : State := { rlT with pp := { rlT.pp with relay := { rlT.pp.relay with phase := .pulse } } }
def rlU : State := { rlT with pp := { rlT.pp with relay := { rlT.pp.relay with openQ := [] } } }
def s20a : State := { rlT with pp := { rlT.pp with relay := { rlT.pp.relay with op := some { accts := [3], slots := [(2,0),(3,0)] } } } }
def s21f : State := { liveS with tamper := { liveS.tamper with stopped := true, stopCause := 2, needClean := true } }
def s21e : State := { restS with tamper := { main := { win := some (5000, 6000, 3) }, rtc := { win := some (5000, 6000, 3) } } }
def s21b : State := { liveS with tamper := { main := { badSince := some 1000 }, rtc := { badSince := some 1000 } } }
def s21c : State := { liveS with tamper := { main := { win := some (5000, 6000, 3) }, rtc := { win := some (5000, 6000, 3) } } }
def bkF : State := { offS with pwr := { offS.pwr with mode := .backup, gaspEnded := true, holdoffDone := true, metering := false } }
def s21j : State := { bkF with pwr := { bkF.pwr with good := true }, tamper := { bkF.tamper with needClean := true } }
def upD (s : State) : State := { s with tamper := { s.tamper with needClean := false, mainOnRc := false } }
def s21i : State := { restS with tamper := { restS.tamper with needClean := true, mainOnRc := true } }
def s21a : State := { offS with pwr := { offS.pwr with onVbat := true } }
def tpS : State := puts { liveS with tamper := { liveS.tamper with tamp := [(0, { run := 2 }), (1, { active := true, run := 0 })], mag := [(0, { run := 2 })] } } [(oTampInputCfg 0, 0x3001A), (oTampInputCfg 1, 0x3001C), (oTampInputCfg 2, 0x10014), (oTampResponse 0, 0x5), (oTampResponse 2, 0x1), (oMagCfg, 0x11)]
def s22a : State := { restS with pwr := { restS.pwr with onVbat := true } }
def s22f : State := { restS with pwr := { restS.pwr with onVbat := true } }
def s22d : State := { restS with pwr := { restS.pwr with onVbat := true } }
def s22h : State := put liveS oHkRun 0
def lcB (s : State) (t : Nat) : Bytes := le 8 Config.serialNumber.toNat ++ le 4 t ++ le 4 s.lcNonce ++ List.replicate 16 0
def s23l : State := { lcS rqF [3,0,0,0,0] with life := { cells := [3,0,0,0,0], keyReturn := some (List.replicate 16 9), nonce := 3 } }
def s23a : State := { fullS with tamper := { fullS.tamper with buf := [{ time := 4, source := 0x12, event := 11, evData := some [1,2] }, { }] } }
def s24j : State := { liveS with disp := { liveS.disp with restartAt := some 0 } }
def s24d : State := { liveS with isl := { liveS.isl with dogAt := some 0 } }
def s24g : State := { liveS with isl := { liveS.isl with control := some 4, cause := 1 } }
def s25j : State := { fullS with disp := { fullS.disp with falling := true, work := .discharge, offStep := 3, st := .discharging }, pwr := { fullS.pwr with mode := .bindOff, bind := .display } }
def s25c : State := { rqF with pwr := { rqF.pwr with mode := .bindOff, bind := .gates } }
def s25f : State := { rqF with pwr := { rqF.pwr with mode := .bindOff, bind := .gates } }
def s25g : State := { fullS with disp := { fullS.disp with falling := true } }
def s25i : State := { fullS with disp := { fullS.disp with falling := true, work := .discharge, offStep := 3, st := .discharging } }
def s26d : State := { liveS with nvm := { liveS.nvm with jHead := 4000 } }
def s26c : State := { fullS with nvm := { fullS.nvm with cfg := { recs := [(3, some { val := 7, len := 4, pair := 2, seq := 3 }), (9, some { val := 1, len := 1, pair := 1 })], off := 300 } } }
def s26g : State := { fullS with nvm := { fullS.nvm with jHead := 4096 * 1000000 - 1000, perDay := [100000] } }
def s27i : State := { liveS with mem := { liveS.mem with periodic := some {} } }
def mtS : State := { fullS with mem := { fullS.mem with request := some { banks := 3, pending := 3, alg := 1, bg := 2 } } }
def s27e : State := { liveS with mem := { liveS.mem with periodic := some {} } }
def s27f : State := put liveS oMarchPeriodicH 5
def s27a : State := { fullS with nvm := { fullS.nvm with jrn := [(jLines 0, some { seq := 3 })], kept := { fullS.nvm.kept with lines := [(4, { value := 99, marker := 4 })] } } }
def s27b : State := { mtS with mem := { mtS.mem with scrubQ := [(0, 5), (1, 5)] } }
def mtF : State := { mtS with mem := { mtS.mem with banks := [(2, { corrected := 4, spares := (List.range 16).map (fun k => (k, .bad)) })] } }
def s27c : State := { rqF with mem := mtS.mem }
def hf (op i j tag : Nat) (b : Bytes) : Bytes := let h := le 1 op ++ le 2 i ++ le 1 j ++ le 2 b.length ++ le 2 tag ++ b; h ++ le 2 (crc16 h)
def hrF : State := { fullS with evt := { fullS.evt with rings := [(0, { entries := [{ seq := 4, units := 4090 }], seq := 5 })] } }
def s28b : State := { hrF with ports := { hrF.ports with p := [(0, { rep := [{ tag := 6, crc := fld (hf 2 4 5 6 [1,2]) 10 2 }] })] } }
def rgS : State := { fullS with evt := { fullS.evt with rings := [(4, { entries := [{ seq := 7, units := 1, await := [.h, .f], data := [7,0,0,0] }, { seq := 8, units := 1, await := [.h], data := [8,0,0,0,1] }, { seq := 9, await := [.h], data := [9,9] }], seq := 9, read := [(0, 9)] })] } }
def s29c : State := { fullS with evt := { fullS.evt with rings := [(1, { entries := [{ seq := 1, data := le 1 7 ++ le 1 3 ++ le 6 99 ++ [5,6] }, { seq := 2 }], seq := 2 }), (3, { entries := [{ seq := 1 }], lost := 4095 })] } }
def bkA : State := { liveS with mem := { liveS.mem with locked := true } }
def bkB (w : Bulk) : State := { bkA with ports := { bkA.ports with p := [(0, { bulk := w })] } }
def s30d : State := bkB { area := 1, count := 5000, left := 3, buf := [some [1,2,3]] }
def s30a : State := bkB { area := 1, count := 100, left := 100 }
def s30b : State := bkB { area := 1, count := 5000, left := 5000, buf := [none] }
def s30c : State := bkB { area := 1, count := 5000, left := 5000, buf := [some [1,2,3]] }
def s30f : State := bkB { area := 3, count := 50, left := 50 }
def gfS : State := puts { rqF with ports := {} } [(oFEnable, 1), (oSEnable, 1), (oFAddress, 9), (oFSyncSlewMs, 100)]
def gfp (a k : Nat) (b : Bytes) : Bytes := let h := le 1 a ++ le 1 k ++ le 2 b.length ++ b; [0xC5, 0x3A] ++ h ++ le 4 (crc32 h)
def gc (op i j tag : Nat) (b : Bytes) : Bytes := le 1 op ++ le 2 i ++ le 1 j ++ le 2 b.length ++ le 2 tag ++ b
def gfR : State := { gfS with evt := { gfS.evt with rings := [(3, { entries := [{ seq := 1, port := 1, data := [1,2,3,4,5,6,7,8] }, { seq := 2, port := 2, data := [9] }] })] }, ports := { gfS.ports with p := [(1, { owes := some 7 }), (2, { owes := some 9 })] } }
def s31b : State := put gfS oFSyncEnable 0
def icS : State := puts rqF [(oI2cEnable, 1), (oI2cSensor 0, 2 ^ 47 + 0x80100), (oI2cSensor 2, 0)]
def s32q : State := lcS fullS [3,3,0,0,0]
def cd (i j : Nat) : Card := (cardOf i j).getD ⟨0,1,0,0,.u 1,[],0,.n,.i,none,none⟩
def er (x : Except (Nat × Nat) (Card × Nat)) : Nat × Nat := (match x with | .error e => e | .ok _ => (0,0))
def s33b : State := { liveS with groups := [(0, grp 0)], chans := [(3, { running := true })] }
def stFull : State := { lcS liveS [3,0,0,0,0] with nvm := { liveS.nvm with cal := { recs := [(0, some { pair := 0, len := 240 * 250 })], pair := 254, off := 256, used := 0 :: List.replicate 249 252 } } }
def s33c : State := lcS stFull [3,3,0,0,0]
def wS : State := { lcS rqF [3,3,0,0,0] with dict := { rqF.dict with shadow := [(okey 0x3000 2, some 5)], nextStart := [(oEwarnMode, some 1)], broken := [(okey 0x1102 2, true)] } }
def hdR (op : Nat) (bad : Bool) (full : Bool) : State := { rqF with evt := { rqF.evt with rings := (0, { entries := [{ seq := 1, units := 1, data := gc op 0x3003 1 7 (if op = 2 then [1] else []), bad := bad }], seq := 1 }) :: (if full then [(1, { entries := [{ units := 4096 }], seq := 1 })] else []) } }
def s34e : State := hdR 1 true false
def awy (s : State) : State := { s with isl := { s.isl with control := some 4999990000, cause := 1 } }
def s34c : State := awy (hdR 1 false false)
def s34a : State := awy (hdR 2 false false)
def mapS : State := puts (lcS rqF [3,3,3,0,0]) [(oMapEntry 3, 0x300000000)]
def puS : State := puts { rqF with acc := { rqF.acc with pulses := [(0, { edges := [(70, false)], level := true }), (1, { edges := [(1250000000, true), (5000, false)], owed := 2 }), (2, { edges := [(1250100000, true), (5000, false)] })] } } [(oPulseConfig 0, 1), (oPulseConfig 2, 1)]
def s36a : State := put rqF (oFtripAssign 0) 7
def egS : State := puts { liveS with groups := [], eng := { liveS.eng with engines := [(3, { st := .restarting }), (4, { run := some {} })] } } [(oEngineEnable, 0xFFFFFFFF), (oClusterEnable, 0xF)]
def s37h : State := put egS oClusterEnable 0xE
def s37g : State := put egS oEngineEnable 0x0F
def s37c : State := put rqF oHkRun 0
def s37d : State := put { rqF with hk := { rqF.hk with running := false } } oHkRun 0
def hoS (l : List (Nat × Nat)) : State := { rqF with dict := { rqF.dict with owner := some .h, held := l.map (fun x => (x.1, some x.2)) } }
def s38e : State := hoS []
def s38g : State := hoS [(okey 0xB000 0x2A, 600)]
def s38c : State := puts { rqF with chans := [(7, { running := true })] } [(oCaptChannels, 2 ^ 7), (oCaptOptions, 1)]
def hoF : State := { lcS stFull [3,3,0,0,0] with dict := { liveS.dict with owner := some .s, held := [(okey 0x3100 1, some 0x41200000)] } }
def s38d : State := hoS []
def s38i : State := hoS [(oVgEnable 0, 1)]
def dsS : State := { rqF with disp := { rqF.disp with st := .off, work := .none, pumps := false }, dict := { rqF.dict with shadow := [] } }
def dsR : State := { dsS with disp := { dsS.disp with measured := true }, pwr := { dsS.pwr with ready := true } }
def s39g : State := put dsR oDispOptions 0x82
def s39c : State := put dsR (oWfTable 0) 3
def s39a : State := put dsR (oWfTable 0) 3
def s39f : State := put rqF oDispOptions 0x43
def dspS (st : DispSt) (w : DispWork) : State := { fullS with disp := { fullS.disp with st := st, work := w, table := [3, 0, 0, 0, 0x55, 0xAA, 0x12], frame := 2, balN := 5 }, dict := { fullS.dict with shadow := [] } }
def s40b : State := { dspS .pumpUp .update with disp := { (dspS .pumpUp .update).disp with balance := [(3, 100000), (7, -20000)] } }
def slS : State := { liveS with disp := { liveS.disp with balance := [(90, 77)], selv := [(0, { target := true }), (1, { run := some (false, true), table := [3, 0, 0, 0, 0x55, 0xAA, 0x12], frame := 1, target := true }), (2, { run := some (false, true), table := [3, 0, 0, 0, 0x55, 0xAA, 0x12], frame := 2, target := true }), (3, { run := some (false, true), table := [3, 0, 0, 0, 0x55, 0xAA, 0x12], frame := 2, target := true, clear := 1 })] } }
def s40d : State := dspS .balancing .update
def s40f : State := dspS .waveform .update
def s40g : State := { dspS .waveform .update with disp := { (dspS .waveform .update).disp with frame := 0 } }
def s40i : State := put { dsR with disp := { dsR.disp with pendBal := true } } (oWfTable 0) 3
def s40j : State := put { dsR with disp := { dsR.disp with pendClear := true } } (oWfTable 0) 3
def s40m : State := put slS (oWfTable 0) 3
def s40h : State := dspS .hold .none
def s40l : State := { dspS .discharging .discharge with disp := { (dspS .discharging .discharge).disp with offStep := 2 } }
def s40a : State := dspS .pumpUp .update
def upS (st : UpdSt) : State := { lcS rqF [3,3,0,0,0] with upd := { rqF.upd with st := st } }
def s41x : State := upS .trial
def s41r : State := upS .staged
def upT : State := { upS .trial with upd := { (upS .trial).upd with switched := true, billSeen := true } }
def s41g : State := upS .receiving
def s41t : State := upS .staged
def s41o : State := put (upS .armed) oUpdActivateAt (2 ^ 40)
def s41k : State := upS .fallenBack
def s41i : State := upS .receiving
def s41m : State := upS .armed
def s41c : State := upS .activating
def s41z : State := upS .trial
def s41e : State := upS .armed
def s41p : State := put (upS .staged) oUpdActivateAt (2 ^ 40)
def s41l : State := upS .staged
def s41j : State := upS .staged
def s41n : State := upS .staged
def s42e : State := put { liveS with upd := { liveS.upd with st := .armed } } oUpdActivateAt 0
def trialS : State := { liveS with upd := { liveS.upd with st := .trial } }
def s42i : State := { trialS with upd := { trialS.upd with boot := { deadline := 0 } } }
def s42a : State := upS .verifying
def s42f : State := { fullS with upd := { fullS.upd with tsw := some 0, st := .trial, newHalf := true } }
def s42g : State := { fullS with upd := { fullS.upd with tsw := some (2 ^ 46), st := .trial, newHalf := true } }
def s49b : State := { restS with evt := { restS.evt with boot := List.replicate 64 {} } }
def s49c : State := put liveS oEventRingMask 0
def s49a : State := { fullS with evt := { fullS.evt with rings := [(4, { entries := [{ units := 1024 }], lost := 4095 })] } }
def s18a : State := lcS liveS [3,0,0,0,0]
def s18b : State := lcS liveS [3,0,0,0,0]
def s18e : State := lcS rqF [3,0,0,0,0]
def xk : Bytes := List.replicate 16 3
def xfS : State := { ppT with dict := { ppT.dict with owner := none, held := [] }, cal := {}, pp := { ppT.pp with credit := [(3, { credit := 500, xfer := 4, chargeDay := 77 })], keys := [(3, some xk)] } }
def xm (a c n : Nat) : Bytes := le 8 Config.serialNumber.toNat ++ le 2 a ++ le 1 1 ++ le 1 0 ++ le 8 c ++ le 8 0 ++ le 4 n
def xf (a c n : Nat) : Bytes := xm a c n ++ cmac xk (xm a c n)

/-- A wrapped account key for a target subindex under the device key 07...07, with the counter 6: targets 2 and 1. -/
def wrapped (t : Nat) : Bytes :=
  be 32 (if t = 2 then 40830104310827569111765851127653382385202378887862634803553926280062302482809
         else 86955733423840240018725750524470190471554892855376769629281363116201740712648)
def plain (t : Nat) : Bytes := List.replicate 16 5 ++ le 4 t ++ le 4 6
theorem test_unwrap_2 : kwUnwrap (List.replicate 16 7) (wrapped 2) = some (plain 2) := by decide +kernel
theorem test_unwrap_1 : kwUnwrap (List.replicate 16 7) (wrapped 1) = some (plain 1) := by decide +kernel
theorem ofLe_le (n v : Nat) (h : v < 256 ^ n) : ofLe (le n v) = v := by
  induction n generalizing v with
  | zero => simp at h; simp [le, ofLe, h]
  | succ n ih =>
    have h2 : v / 256 < 256 ^ n := by rw [Nat.div_lt_iff_lt_mul (by decide)]; rwa [Nat.pow_succ] at h
    simp only [le, ofLe, ih _ h2, BitVec.toNat_ofNat]
    omega
theorem serial_back : ofLe (le 8 Config.serialNumber.toNat) = Config.serialNumber.toNat :=
  ofLe_le 8 _ (by have := Config.serialNumber.isLt; simpa using this)
theorem nonce_back (s : State) : ofLe (le 4 s.lcNonce) = s.lcNonce :=
  ofLe_le 4 _ (by have := (Config.nonce s.life.nonce).isLt; simpa [State.lcNonce] using this)
theorem mac_back (a c n : Nat) : cmac xk ((xf a c n).take 32) = (xf a c n).drop 32 := by
  have h1 : (xf a c n).take 32 = xm a c n := rfl
  have h2 : (xf a c n).drop 32 = cmac xk (xm a c n) := rfl
  rw [h1, h2]
theorem egS_idle (k : Nat) (h : k / 8 = 1) : (egS.eng.engines.get k).run = none ∧ (egS.eng.engines.get k).susp = [] := by
  have h3 : ¬ 3 = k := by omega
  have h4 : ¬ 4 = k := by omega
  have he : egS.eng.engines = [(3, { st := .restarting }), (4, { run := some {} })] := rfl
  simp only [he, KMap.get, h3, h4, if_false]
  exact ⟨rfl, rfl⟩
def s18f : State := { rqF with pp := { rqF.pp with keyDevice := none } }
def s18g : State := { rqF with pp := { rqF.pp with keyCounter := 6 } }
def xfN : State := { xfS with pp := { xfS.pp with keys := [] } }

/-! ### Single steps -/

/-- What a command makes of a component. -/
def after {α : Type} (c : Instr) (s : State) (f : State → α) : Option α := match exec c s with
  | .next t => some (f t)
  | _ => none

theorem test_empty_queue_ticks : (match step restS with | .next t => t.clock.clk | _ => 0) = 4000 := by decide +kernel
theorem test_front_is_taken : (match step { restS with pending := [.vin33Return, .idcode] } with
    | .next t => (t.pwr.started, t.pending)
    | _ => (false, [])) = (true, [.idcode]) := by decide +kernel
theorem test_first_supply_casts_on : after .supplyGood restS (fun t => (t.pwr.mode, t.isl.cause)) = some (.castOn, 5) := by decide +kernel
/-- PART_NUMBER and VENDOR_ID of Table 2.7, least significant byte first (R7). -/
theorem test_read_vendor : after (.read {} 0x1000 1) liveS (fun t => (t.ans.status, t.ans.payload)) = some (stOk, [0x00, 0x5A, 0x41, 0x44]) := by
  decide +kernel
theorem test_read_above_entry_count : after (.read {} 0x1102 3) liveS (fun t => t.ans.status) = some stNoObject := by decide +kernel
theorem test_write_without_right : after (.write {} 0x1000 1 [1]) liveS (fun t => t.ans.status) = some stRights := by decide +kernel
theorem test_bool_encoding : after (.write {} 0x1102 2 [1, 0]) liveS (fun t => t.ans.status) = some stBadType := by decide +kernel
theorem test_time_now_raises_ev54 : after (.timeNow {} (le 6 5000)) liveS (fun t => (t.clock.rtc, KMap.get t.evt.count 54)) = some (5000, 1) := by
  decide +kernel
theorem test_bypass_code : after (.bypass 0x7F) liveS (fun t => t.ports.tap) = some .bypass := by decide +kernel
theorem test_short_frame_is_counted : after (.hportTransaction [1, 2, 3]) liveS (fun t => (KMap.get t.ports.p 0).crcErrors) = some 1 := by
  decide +kernel
theorem test_begin_receives : after (.begin {}) liveS (fun t => t.upd.st) = some .receiving := by decide +kernel
theorem test_no_word_spells_a_command : decodeTableWord 8 0 = none := rfl
theorem test_fetch_word_changes_nothing : State.reset.withFetchWord 8 0 = State.reset := by decide +kernel

/-! ### Witnesses: what meets the hypotheses of each statement, clause by clause -/


theorem witness_TripRunsEmergencyOrder :
    (liveS.supplied = true ∧ liveS.pwr.metering = true) ∧
    (s01a.cfg oEwarnMode = 2 ∧ s01a.pwr.ewarn = true ∧ s01a.supplied = true ∧ s01a.pwr.metering = true) ∧
    (restS.supplied = false) :=
  ⟨by decide +kernel,
   by decide +kernel,
   by decide +kernel⟩
theorem witness_EwarnPin :
    (s02a.cfg oEwarnMode ≠ 0 ∧ s02a.powered = true ∧ s02a.nvm.restored = true) ∧
    (s02a.supplied = true) ∧
    ((liveS.cfg oEwarnMode = 0 ∨ liveS.powered = false)) ∧
    (s02c.cfg oEwarnMode ≠ 0 ∧ s02c.powered = true ∧ s02c.nvm.restored = false) :=
  ⟨by decide +kernel,
   by decide +kernel,
   by decide +kernel,
   by decide +kernel⟩
theorem witness_SessionEndGatesIslands :
    (lgS.nvm.session.isSome = true ∧ lgS.pwr.mode = PwrMode.powerFail ∧ lgS.pwr.good = false) ∧
    (liveS.supplied = true) ∧
    ((liveS.nvm.session = none ∨ liveS.pwr.mode ≠ PwrMode.powerFail)) ∧
    (lgH.supplied = false ∧ lgH.pwr.onVbat = false ∧ lgH.pwr.outTrip = lgH.pwr.pfdTime ∧ lgH.pwr.outHold = 4294967295) :=
  ⟨by decide +kernel,
   by decide +kernel,
   by decide +kernel,
   by decide +kernel⟩
theorem witness_CastOnBegins :
    (restS.supplied = false ∧ (upA restS).mayCastOn = true ∧ (upA restS).supplied = false) ∧
    (bkE.supplied = false ∧ (upC bkE).mayCastOn = true ∧ (upC bkE).supplied = false) ∧
    (bkW.supplied = false ∧ (upB bkW).mayCastOn = true ∧ (upB bkW).supplied = false) ∧
    (liveS.supplied = true) ∧
    (bkW.supplied = false ∧ ((upC bkW).mayCastOn = false ∨ (upC bkW).supplied = true)) ∧
    (bkE.supplied = false ∧ ((upB bkE).mayCastOn = false ∨ (upB bkE).supplied = true)) ∧
    (bkW.supplied = false ∧ ((upA bkW).mayCastOn = false ∨ (upA bkW).supplied = true)) :=
  ⟨by decide +kernel,
   by decide +kernel,
   by decide +kernel,
   by decide +kernel,
   by decide +kernel,
   by decide +kernel,
   by decide +kernel⟩
theorem witness_SupplyEvents :
    (liveS.powered = true ∧ liveS.pwr.ready = false) ∧
    ((offS.powered = false ∨ offS.pwr.ready = true)) ∧
    ((¬(2400 < offS.cfg oVbatLowMv ∧ offS.pwr.vbatLow = false))) ∧
    (liveS.powered = true ∧ liveS.pwr.breach.get 0 = false ∧ liveS.pwr.lastEv6.get 0 = none) ∧
    (0 < liveS.cfg oVbatLowMv ∧ liveS.pwr.vbatLow = false ∧ liveS.powered = true ∧ liveS.pwr.onVbat = false) ∧
    (s05a.powered = true ∧ s05a.pwr.breach.get 1 = true) :=
  ⟨by decide +kernel,
   by decide +kernel,
   by decide +kernel,
   by decide +kernel,
   by decide +kernel,
   by decide +kernel⟩
theorem witness_StartUpAndAoReset :
    ((offS.supplied = false ∨ offS.pwr.onVbat = true)) ∧
    (s06b.powered = true ∧ s06b.nvm.restored = false ∧ s06b.tamper.lostDue = false ∧ s06b.tamper.restartDue = none) ∧
    (s06c.powered = true ∧ s06c.isl.control.isSome = true ∧ s06c.isl.cause = 5 ∧
      (true = true ∨ s06c.upd.restarting = true ∨ s06c.upd.backRestart = true ∨ s06c.upd.st = UpdSt.trial) ∧
      s06c.upd.restarting = false ∧ s06c.upd.backRestart = false ∧ s06c.upd.st ≠ UpdSt.trial) ∧
    (s06b.supplied = true ∧ s06b.pwr.onVbat = false) ∧
    ((offS.powered = false ∨ offS.nvm.restored = true)) ∧
    ((offS.powered = false ∨ offS.isl.control = none ∨ offS.isl.cause ≠ 5)) :=
  ⟨by decide +kernel,
   by decide +kernel,
   by decide +kernel,
   by decide +kernel,
   by decide +kernel,
   by decide +kernel⟩
theorem witness_SampleWritesRing :
    (offS.powered = false) ∧
    ((fullS.ftrip.get 0).holding = false) ∧
    (5 < 256 ∧ smpS.powered = true ∧ smpS.settled = true ∧ (smpS.chans.get 5).running = true ∧
      (smpS.chans.get 5).uncovered = false ∧ (smpS.chans.get 5).onSpare = none ∧ (smpS.chans.get 5).stopIn = none ∧
      (smpS.chans.get 5).change = none ∧ (smpS.spares.get (5 / 32)).ch ≠ some 5 ∧
      (∀ (g : Nat), (smpS.groups.get g).running = false) ∧ smpS.cfgB (oThEnable 5) = false ∧
      Int.natAbs 0 * 100 < rangePeak (smpS.chans.get 5).preset * 105) ∧
    ((fullS.ftrip.get 1).holding = true ∧
      (fullS.ftOn 1 = false ∨ fullS.ftLatch 1 = true ∨ (fullS.ftTripped 1).isSome = true)) ∧
    ((ft1S.ftrip.get 0).holding = true ∧ ft1S.ftOn 0 = true ∧ ft1S.ftLatch 0 = false ∧ ft1S.ftTripped 0 = none) :=
  ⟨by decide +kernel,
   by decide +kernel,
   ⟨by decide +kernel, by decide +kernel, by decide +kernel, by decide +kernel, by decide +kernel, by decide +kernel, by decide +kernel, by decide +kernel, by decide +kernel, fun _ => rfl, by decide +kernel, by decide +kernel⟩,
   by decide +kernel,
   by decide +kernel⟩
theorem witness_ClaimResumeAndIssue :
    (offS.eng.paused = [] ∧ offS.eng.buffer.length ≤ 64) ∧
    (enS.powered = true ∧ enS.settled = true ∧ enS.idleEngine 0 = true ∧ (enS.eng.engines.get 0).draining = false ∧
      (enS.eng.engines.get 0).susp.any enS.resumable = false ∧ (enS.eng.engines.get 0).susp.length < 4 ∧
      enS.pick 0 = some (((enS.pick 0).getD (0, 0, { })).fst, ((enS.pick 0).getD (0, 0, { })).snd.fst, ((enS.pick 0).getD (0, 0, { })).snd.snd)) ∧
    (enG.powered = true ∧ enG.settled = true ∧ enG.idleEngine 4 = true ∧
      List.find? enG.resumable (enG.eng.engines.get 4).susp = some runE ∧ runE.wait = some Wait.gate ∧
      (∀ (r : BillRes), runE.pub ≠ Pub.bill r) ∧ enG.entryOf runE = some stitchB ∧
      (enG.cycAt stitchB.vg stitchB.bslot).isSome = true ∧ (enG.streamOf stitchB).gate + 1 = stitchB.seq) :=
  ⟨by decide +kernel,
   by decide +kernel,
   ⟨by decide +kernel, by decide +kernel, by decide +kernel, by decide +kernel, by decide +kernel, by intro r h; simp [runE] at h, by decide +kernel, by decide +kernel, by decide +kernel⟩⟩
theorem witness_SequencedAddAndGate :
    (offS.powered = false) ∧
    (enR.powered = true ∧ enR.settled = true ∧ (enR.eng.engines.get 5).run = some runB ∧ runB.ready = true ∧
      runB.adds = [] ∧ enR.entryOf runB = some stitchA ∧ (enR.cycAt stitchA.vg stitchA.bslot).isSome = true ∧
      (enR.eng.streams.get (streamKey stitchA.pat stitchA.kind stitchA.num)).gate + 1 = stitchA.seq ∧
      enR.eng.clusters = [] ∧ (enR.eng.engines.get 5).draining = false ∧ ((enR.eng.engines.get 5).done + 1) % 2 ^ 32 ≠ 0) ∧
    (enR.powered = true ∧ enR.settled = true ∧ (enR.eng.engines.get 6).run = some runC ∧ runC.ready = true ∧
      runC.adds = [(AddTo.quality 3, 77)] ∧ enR.entryOf runC = some stitchA ∧
      (enR.cycAt stitchA.vg stitchA.bslot).isSome = true ∧ enR.lineHeld (AddTo.quality 3, 77).fst = false ∧
      (AddTo.quality 3, 77).fst = AddTo.quality 3 ∧ newer stitchA.seq (enR.acc.quality.get 3).marker = true) ∧
    (enR.powered = true ∧ enR.settled = true ∧ (enR.eng.engines.get 4).run = some runA ∧ runA.ready = true ∧
      runA.adds = [(AddTo.line 3, 77), (AddTo.quality 2, 4)] ∧ enR.entryOf runA = some stitchA ∧
      (enR.cycAt stitchA.vg stitchA.bslot).isSome = true ∧ enR.lineHeld (AddTo.line 3, 77).fst = false ∧
      (AddTo.line 3, 77).fst = AddTo.line 3 ∧ newer stitchA.seq (enR.acc.lines.get 3).marker = true) ∧
    (s09c.powered = true ∧ s09c.settled = true ∧ (s09c.eng.engines.get 7).run = some runD ∧ runD.ready = true ∧
      runD.adds = [(AddTo.energy 0, 77)] ∧ s09c.entryOf runD = some stitchA ∧
      (s09c.cycAt stitchA.vg stitchA.bslot).isSome = true ∧ s09c.lineHeld (AddTo.energy 0, 77).fst = false ∧
      ((AddTo.energy 0, 77).fst = AddTo.line 0 ∧
      newer stitchA.seq (s09c.acc.lines.get 0).marker = false ∨ (AddTo.energy 0, 77).fst = AddTo.quality 0 ∧
      newer stitchA.seq (s09c.acc.quality.get 0).marker = false ∨ (AddTo.energy 0, 77).fst = AddTo.energy 0 ∧
      newer stitchA.seq (s09c.acc.energy.get 0).marker = false)) :=
  ⟨by decide +kernel,
   by decide +kernel,
   by decide +kernel,
   by decide +kernel,
   by decide +kernel⟩
theorem witness_ResetsGiveBack :
    (enR.powered = true ∧ (enR.eng.clusters.get 0).st = UnitSt.inService ∧ 5 ≤ 5) ∧
    ((enR.eng.engines.get 4).run.isSome = true ∧ enR.powered = true ∧ enR.runsNewHalf 4 = false) ∧
    (enR.inService 4 = true ∧ enR.powered = true ∧ enR.runsNewHalf 4 = false) :=
  ⟨by decide +kernel,
   by decide +kernel,
   by decide +kernel⟩
theorem witness_ReturnToServiceAndAdmission :
    (liveS.powered = true ∧ 0 < 32) ∧
    (fullS.powered = true ∧ 32 ≤ 35 ∧
      ((fullS.eng.clusters.get (35 - 32)).st = UnitSt.starting ∨
      (fullS.eng.clusters.get (35 - 32)).st = UnitSt.restarting) ∧
      (fullS.eng.clusters.get (35 - 32)).st = UnitSt.restarting) ∧
    (s11d.powered = true ∧ 0 < 10) ∧
    (offS.powered = false) ∧
    (s11c.powered = true ∧ s11c.eng.ovr = true) ∧
    (s11b.powered = true ∧ 32 ≤ 35 ∧
      ((s11b.eng.clusters.get (35 - 32)).st = UnitSt.starting ∨ (s11b.eng.clusters.get (35 - 32)).st = UnitSt.restarting) ∧
      (s11b.eng.clusters.get (35 - 32)).st = UnitSt.starting) :=
  ⟨by decide +kernel,
   by decide +kernel,
   by decide +kernel,
   by decide +kernel,
   by decide +kernel,
   by decide +kernel⟩
theorem witness_FaultsOfConverters :
    (256 ≤ 259 ∧ (fullS.spares.get (259 - 256)).st = SpareState.idle ∧
      (fullS.spares.get (259 - 256)).stage = SpareStage.none) ∧
    (0 < 256 ∧ (fcS.chans.get 0).running = true ∧ (fcS.chans.get 0).onSpare = none ∧ (fcS.mods.get 0).retired = false ∧
      (fcS.spares.get (0 / 32)).st = SpareState.idle ∧ (fcS.spares.get (0 / 32)).stage = SpareStage.none) ∧
    ((fcS.chans.get 0).retry = true ∧ (fcS.chans.get 0).substitute = true ∧ (fcS.chans.get 0).onSpare = none ∧
      (fcS.spares.get (0 / 32)).st = SpareState.idle ∧ (fcS.spares.get (0 / 32)).stage = SpareStage.none) ∧
    (33 < 256 ∧ (fcS.chans.get 33).running = true ∧ (fcS.mods.get 33).retired = false ∧
      (fcS.spares.get (33 / 32)).ch = some 33 ∧ (fcS.spares.get (33 / 32)).why = SpareWhy.fault ∧
      (fcS.spares.get (33 / 32)).st = SpareState.parallel) :=
  ⟨by decide +kernel,
   by decide +kernel,
   by decide +kernel,
   by decide +kernel⟩
theorem witness_RotationSlot :
    (rcS.cfgB oSpareRotationEnable = true ∧ rcS.cal.passRun = false ∧ rcS.cal.owner = none ∧
      (rcS.cal.meterTrig = true ∨ rcS.cfg oRecalMaxIntervalH ≠ 0 ∧
      rcS.cal.lastTime + rcS.cfg oRecalMaxIntervalH * 3600 * 1024 ≤ rcS.now ∨
      ↑(rcS.cfg oRecalDeltaMc) < ↑(rcS.cal.ta - rcS.cal.lastTemp).natAbs ∧ rcS.cal.split = false)) ∧
    ((s13f.spares.get 0).st = SpareState.idle ∧ (s13f.spares.get 0).stage = SpareStage.none ∧ 0 / 32 = 0 ∧
      s13f.cal.running = false ∧ s13f.cal.passRun = true ∧ s13f.cal.passConv = false ∧ s13f.cal.owner = none ∧
      s13f.cfgB oSpareRotationEnable = true ∧ s13f.eligible 0 = true) ∧
    ((rotS.spares.get 7).stage = SpareStage.waitCross ∧ (rotS.spares.get 7).ch = some 224 ∧
      ((rotS.groups.get (rotS.vgOf 224)).running = false ∨ ∃ b l, (rotS.groups.get (rotS.vgOf 224)).table = b :: l ∧
      (rotS.spares.get 7).since ≤ b.at_) ∧ (rotS.spares.get 7).next = some 225) ∧
    ((s13h.spares.get 3).stage = SpareStage.gainMeas ∧ (s13h.spares.get 3).ch.isSome = true ∧
      ((s13h.spares.get 3).why ≠ SpareWhy.rotation ∨ (s13h.spares.get 3).measured = false)) ∧
    ((rotS.spares.get 0).stage ≠ SpareStage.done) ∧
    ((prS.spares.get 1).ch = some 33 ∧ (prS.spares.get 1).stage = SpareStage.pairs ∧ 64 ≤ (prS.spares.get 1).pairs.length ∧
      (fitPairs (List.take 64 (prS.spares.get 1).pairs) (rangePeak (prS.chans.get 33).preset) ((prS.spares.get 1).stored.get 33)).snd.snd = true) ∧
    ((rotS.spares.get 2).stage = SpareStage.offsetMeas ∧ (rotS.spares.get 2).ch.isSome = true) ∧
    (s13d.cfgB oSpareRotationEnable = false) ∧
    ((prS.spares.get 2).ch = some 65 ∧ (prS.spares.get 2).stage = SpareStage.pairs ∧ 64 ≤ (prS.spares.get 2).pairs.length ∧
      (fitPairs (List.take 64 (prS.spares.get 2).pairs) (rangePeak (prS.chans.get 65).preset) ((prS.spares.get 2).stored.get 65)).snd.snd = false) ∧
    ((rotS.spares.get 4).stage = SpareStage.waitCross ∧ (rotS.spares.get 4).ch = some 128 ∧
      ((rotS.groups.get (rotS.vgOf 128)).running = false ∨ ∃ b l, (rotS.groups.get (rotS.vgOf 128)).table = b :: l ∧
      (rotS.spares.get 4).since ≤ b.at_) ∧ (rotS.spares.get 4).next = none) ∧
    ((s13j.spares.get 5).stage = SpareStage.done ∧ s13j.cal.passRun = false) :=
  ⟨by decide +kernel,
   by decide +kernel,
   ⟨by decide +kernel, by decide +kernel, Or.inr ⟨_, _, rfl, by decide +kernel⟩, by decide +kernel⟩,
   by decide +kernel,
   by decide +kernel,
   by decide +kernel,
   by decide +kernel,
   by decide +kernel,
   by decide +kernel,
   ⟨by decide +kernel, by decide +kernel, Or.inr ⟨_, _, rfl, by decide +kernel⟩, by decide +kernel⟩,
   by decide +kernel⟩
theorem witness_HousekeepingConversions :
    (liveS.powered = true ∧ UrgentSrc.power ≠ UrgentSrc.calibration) ∧
    (s14h.hk.active = some 1 ∧ s14h.hk.pendTamper = some false) ∧
    (s14a.powered = true ∧ s14a.hk.running = true ∧ s14a.hk.active = none ∧ s14a.hkDead s14a.hk.step = false ∧
      s14a.hkMode s14a.hk.step ≠ 0 ∧ s14a.hkRepeat s14a.hk.step ≤ s14a.hk.reps ∧ s14a.hkChan s14a.hk.step < 4 ∧
      bit (s14a.cfg (oHkStep s14a.hk.step)) 7 = false ∧ bit (s14a.cfg (oHkStep s14a.hk.step)) 12 = false) ∧
    (offS.powered = false) ∧
    (liveS.hk.active = none) ∧
    ((offS.powered = false ∨ offS.hk.running = false ∨ offS.hk.active.isSome = true)) ∧
    (hkS.powered = true ∧ hkS.hk.running = true ∧ hkS.hk.active = none ∧ hkS.hkDead hkS.hk.step = false ∧
      hkS.hkMode hkS.hk.step ≠ 0 ∧ hkS.hk.reps + 1 ≤ hkS.hkRepeat hkS.hk.step) ∧
    (s14f.hk.active = some 0 ∧ s14f.hk.posPower ≠ 0) ∧
    (s14j.hk.active = some 2 ∧ s14j.hk.posCal = 0) ∧
    (s14d.hk.active = some 0 ∧ s14d.hk.posPower = 0) ∧
    (s14i.hk.active = some 1 ∧ s14i.hk.pendTamper ≠ some false ∧ s14i.hk.posTamper = 0) :=
  ⟨by decide +kernel,
   by decide +kernel,
   by decide +kernel,
   by decide +kernel,
   by decide +kernel,
   by decide +kernel,
   by decide +kernel,
   by decide +kernel,
   by decide +kernel,
   by decide +kernel,
   by decide +kernel⟩
theorem witness_CalibrationSession :
    (stS.allows { cls := Cls.s } 0x9000 1 [3] = true ∧ stS.cal.owner.isSome = true ∧ stS.cal.running = false ∧
      stS.stepOk = true) ∧
    (calO.cal.owner.isSome = true ∧ calO.cal.running = false ∧ calO.cal.passDue = false) ∧
    (calS.allows { } 0x9000 1 [4] = true ∧ calS.cal.running = false) ∧
    (stS.allows { cls := Cls.s } 0x9000 1 [5] = true ∧ stS.cal.owner.isSome = true) ∧
    (fullS.cal.chans.get 5 = some ((fullS.cal.chans.get 5).getD { }) ∧
      ((fullS.cal.chans.get 5).getD { }).st = StepSt.signature) ∧
    (calS.allows { } 0x9000 1 [3] = true ∧ calS.cal.owner = none) ∧
    (calS.allows { } 0x9000 1 [{ toFin := 1 }] = true ∧ calS.cal.owner = none ∧ calS.cal.passRun = false) ∧
    (calS.allows { } 0x9000 1 [{ toFin := 2 }] = true ∧ calS.cal.owner = none ∧ calS.cal.passRun = false) ∧
    ((offS.cal.owner = none ∨ offS.cal.running = true)) ∧
    (calO.allows { cls := Cls.s } 0x9000 1 [{ toFin := 1 }] = true ∧ calO.cal.owner.isSome = true) ∧
    (calO.allows { cls := Cls.s } 0x9000 1 [{ toFin := 2 }] = true ∧ calO.cal.owner.isSome = true) ∧
    (calS.allows { } 0x9000 1 [5] = true ∧ calS.cal.owner = none) ∧
    (offS.cal.running = true ∧ offS.cal.chans.get 4 = some ((offS.cal.chans.get 4).getD { }) ∧
      (((offS.cal.chans.get 4).getD { }).st = StepSt.waitReturn ∨
      ((offS.cal.chans.get 4).getD { }).st = StepSt.stabilising ∨
      ((offS.cal.chans.get 4).getD { }).st = StepSt.measuring)) :=
  ⟨by decide +kernel,
   by decide +kernel,
   by decide +kernel,
   by decide +kernel,
   by decide +kernel,
   by decide +kernel,
   by decide +kernel,
   by decide +kernel,
   by decide +kernel,
   by decide +kernel,
   by decide +kernel,
   by decide +kernel,
   by decide +kernel⟩
theorem witness_DayStartsAndSchedule :
    (liveS.powered = true ∧ liveS.isl.control = none ∧ liveS.nvm.restored = true) ∧
    (liveS.powered = true ∧ liveS.pp.frozen = false ∧ liveS.nvm.restored = true ∧
      (liveS.cfg (oPpMode 0) ≠ 1 ∨ ¬0 ∈ liveS.enabledAccts)) ∧
    ((offS.powered = false ∨ offS.pp.frozen = true ∨ offS.nvm.restored = false)) ∧
    ((offS.powered = false ∨ offS.isl.control.isSome = true ∨ offS.nvm.restored = false)) ∧
    ((offS.pp.sched = [] ∨ offS.powered = false ∨ offS.pp.frozen = true ∨
      ∀ (e : SchedEntry), e ∈ offS.pp.sched.head? → offS.now < e.time)) ∧
    (scS.pp.sched = scS.pp.sched.headD { } :: scS.pp.sched.tail ∧ scS.powered = true ∧ scS.pp.frozen = false ∧
      (scS.pp.sched.headD { }).time ≤ scS.now ∧ scS.pp.now.same (scS.pp.sched.headD { }) = false ∧ scS.pp.now.time ≠ 0 ∧
      scS.pp.now.band ≠ (scS.pp.sched.headD { }).band) ∧
    (ppT.powered = true ∧ ppT.pp.frozen = false ∧ ppT.nvm.restored = true ∧ 3 ∈ ppT.enabledAccts ∧
      ppT.cfgB (oAccEnable 3) = true ∧ ppT.cfg (oPpMode 3) = 1 ∧
      (ppT.pp.credit.get 3).chargeDay + 1 = (ppT.localDay ppT.now).toNat) ∧
    (s16b.pp.sched = s16b.pp.sched.headD { } :: s16b.pp.sched.tail ∧ s16b.powered = true ∧ s16b.pp.frozen = false ∧
      (s16b.pp.sched.headD { }).time ≤ s16b.now ∧ s16b.pp.now.same (s16b.pp.sched.headD { }) = true) ∧
    (s16b.pp.sched = s16b.pp.sched.headD { } :: s16b.pp.sched.tail ∧ s16b.powered = true ∧ s16b.pp.frozen = false ∧
      (s16b.pp.sched.headD { }).time ≤ s16b.now ∧ s16b.pp.now.band = (s16b.pp.sched.headD { }).band) :=
  ⟨by decide +kernel,
   by decide +kernel,
   by decide +kernel,
   by decide +kernel,
   by decide +kernel,
   by decide +kernel,
   by decide +kernel,
   by decide +kernel,
   by decide +kernel⟩
theorem witness_CreditTransfer :
    (ppT.allows { cls := .f } (0x4100 + 3) 0x10 (List.replicate 48 0) = true ∧
      ¬(fld (List.replicate 48 0) 0 8 = Config.serialNumber.toNat ∧ fld (List.replicate 48 0) 8 2 = 3 ∧
        fld (List.replicate 48 0) 10 1 = 1 ∧ fld (List.replicate 48 0) 11 1 = 0 ∧
          fld (List.replicate 48 0) 12 8 ≤ 10 ^ 15)) ∧
    (xfN.allows {} (0x4100 + 3) 0x10 (xf 3 1000 5) = true ∧ KMap.get xfN.pp.keys 3 = none) ∧
    (xfS.allows {} (0x4100 + 3) 0x10 (xf 3 1000 4) = true ∧ KMap.get xfS.pp.keys 3 = some xk ∧
      cmac xk ((xf 3 1000 4).take 32) = (xf 3 1000 4).drop 32 ∧
      ((KMap.get xfS.pp.credit 3).gap = false ∧ fld (xf 3 1000 4) 28 4 ≤ (KMap.get xfS.pp.credit 3).xfer.toNat)) ∧
    (xfS.allows {} (0x4100 + 3) 0x10 (xf 3 1000 5) = true ∧ fld (xf 3 1000 5) 0 8 = Config.serialNumber.toNat ∧
      (fld (xf 3 1000 5) 8 2 = 3 ∧ fld (xf 3 1000 5) 10 1 = 1 ∧ fld (xf 3 1000 5) 11 1 = 0 ∧
        fld (xf 3 1000 5) 12 8 ≤ 10 ^ 15) ∧
      KMap.get xfS.pp.keys 3 = some xk ∧ cmac xk ((xf 3 1000 5).take 32) = (xf 3 1000 5).drop 32 ∧
      ((KMap.get xfS.pp.credit 3).gap = false ∧ (KMap.get xfS.pp.credit 3).xfer.toNat < fld (xf 3 1000 5) 28 4 ∧
        xfS.creditI 3 + fld (xf 3 1000 5) 12 8 ≤ 2 ^ 62)) :=
  ⟨⟨by decide +kernel, fun h => absurd h.2.1 (by decide +kernel)⟩, by decide +kernel,
   ⟨by decide +kernel, by decide +kernel, mac_back 3 1000 4, by decide +kernel⟩,
   ⟨by decide +kernel, serial_back, by decide +kernel, by decide +kernel, mac_back 3 1000 5, by decide +kernel⟩⟩
theorem witness_KeysAreWritten :
    (s18a.allows { cls := .s } 0x8200 1 (List.replicate 16 4) = true ∧ s18a.pp.keyDevice = none) ∧
    (s18e.allows { cls := .s } 0x8200 1 (List.replicate 16 4) = true ∧ s18e.pp.keyDevice.isSome = true) ∧
    (s18b.allows { cls := .s } 0x8200 (0 + 2) (List.replicate 16 4) = true) ∧
    (s18f.allows {} 0x8200 0xF2 (List.replicate 32 4) = true ∧ s18f.pp.keyDevice = none) ∧
    (rqF.allows {} 0x8200 0xF2 (wrapped 1) = true ∧ rqF.pp.keyDevice = some (List.replicate 16 7) ∧
      kwUnwrap (List.replicate 16 7) (wrapped 1) = some (plain 1) ∧ (fld (plain 1) 16 4 < 2 ∨ 0xF1 < fld (plain 1) 16 4)) ∧
    (rqF.allows {} 0x8200 0xF2 (wrapped 2) = true ∧ rqF.pp.keyDevice = some (List.replicate 16 7) ∧
      kwUnwrap (List.replicate 16 7) (wrapped 2) = some (plain 2) ∧ 2 ≤ fld (plain 2) 16 4 ∧ fld (plain 2) 16 4 ≤ 0xF1 ∧
      rqF.pp.keyCounter.toNat < fld (plain 2) 20 4) ∧
    (s18g.allows {} 0x8200 0xF2 (wrapped 2) = true ∧ s18g.pp.keyDevice = some (List.replicate 16 7) ∧
      kwUnwrap (List.replicate 16 7) (wrapped 2) = some (plain 2) ∧ 2 ≤ fld (plain 2) 16 4 ∧ fld (plain 2) 16 4 ≤ 0xF1 ∧
      fld (plain 2) 20 4 ≤ s18g.pp.keyCounter.toNat) :=
  ⟨by decide +kernel, by decide +kernel, by decide +kernel, by decide +kernel,
   ⟨by decide +kernel, by decide +kernel, test_unwrap_1, by decide +kernel⟩,
   ⟨by decide +kernel, by decide +kernel, test_unwrap_2, by decide +kernel⟩,
   ⟨by decide +kernel, by decide +kernel, test_unwrap_2, by decide +kernel⟩⟩
theorem witness_PrepaymentRequests :
    (rqF.allows { cls := Cls.s } (0x4100 + 3) 12 (le 8 1000) = true ∧ rqF.pp.credit.wf = true ∧ 0 ≠ 3) ∧
    (rqF.allows { } (0x4100 + 3) 18 [0] = true ∧ ofLe [0] = 0) ∧
    (rqF.allows { } (0x4100 + 3) 19 [0] = true ∧ ofLe [0] = 0) ∧
    (rqF.allows { } (0x4100 + 3) 19 [1] = true ∧ ofLe [1] ≠ 0 ∧ rqF.ppState 3 ≠ 5) ∧
    (ecT.allows { } (0x4100 + 3) 19 [1] = true ∧ ofLe [1] ≠ 0 ∧ ecT.ppState 3 = 5 ∧ ecT.relaySlots 3 ≠ []) ∧
    (ecS.allows { } (0x4100 + 3) 18 [1] = true ∧ ofLe [1] ≠ 0 ∧ bits (ecS.cfg (oPpOptions 3)) 5 4 = 2 ∧
      ecS.creditI 3 < ecS.cfgI 8 (oPpLowLevel 3) ∧ (ecS.pp.credit.get 3).ec = false ∧ 0 < ecS.cfgI 8 (oPpEcLimit 3) ∧
      ecS.pp.credit.wf = true ∧ ecS.cfg (oPpMode 3) = 1) ∧
    (rqF.allows { } (0x4100 + 3) 18 [1] = true ∧ ofLe [1] ≠ 0 ∧
      (bits (rqF.cfg (oPpOptions 3)) 5 4 ≠ 2 ∨ rqF.cfgI 8 (oPpLowLevel 3) ≤ rqF.creditI 3 ∨
      (rqF.pp.credit.get 3).ec = true ∨ rqF.cfgI 8 (oPpEcLimit 3) ≤ 0)) ∧
    (ecS.allows { } (0x4100 + 3) 11 [1] = true ∧ ecS.crossed Cls.h (oPpHostDisconnect 3) (ofLe [1]) = true ∧
      (ecS.storePut false (oPpHostDisconnect 3) (ofLe [1]) 1).isSome = true ∧ ecS.cfg (oPpHostDisconnect 3) ≠ ofLe [1] ∧
      ecS.dict.active.wf = true ∧ ofLe [1] = 1 ∧ ecS.relaySlots 3 ≠ []) ∧
    (s19b.allows { } (0x4100 + 3) 11 [0] = true ∧ s19b.crossed Cls.h (oPpHostDisconnect 3) (ofLe [0]) = true ∧
      (s19b.storePut false (oPpHostDisconnect 3) (ofLe [0]) 1).isSome = true ∧ s19b.cfg (oPpHostDisconnect 3) ≠ ofLe [0] ∧
      s19b.dict.active.wf = true ∧ ofLe [0] = 0) :=
  ⟨by decide +kernel,
   by decide +kernel,
   by decide +kernel,
   by decide +kernel,
   by decide +kernel,
   by decide +kernel,
   by decide +kernel,
   by decide +kernel,
   by decide +kernel⟩
theorem witness_RelayFrames :
    (rqF.allows { cls := Cls.s } 0x2050 11 (le 32 0) = true ∧ rqF.pp.relay.fault.wf = true) ∧
    (rlT.relayLive = true ∧ rlT.pp.relay.phase = RlyPhase.idle ∧ 2 ≤ rlT.pp.relay.scans ∧ rlT.pwr.bind = BindStep.none ∧
      rlT.nextOp = some ((rlT.nextOp.getD ({ }, { }, false)).fst, (rlT.nextOp.getD ({ }, { }, false)).snd.fst, (rlT.nextOp.getD ({ }, { }, false)).snd.snd) ∧ (rlT.nextOp.getD ({ }, { }, false)).snd.snd = false ∧ 3 ∈ (rlT.nextOp.getD ({ }, { }, false)).fst.accts ∧ (rlT.nextOp.getD ({ }, { }, false)).fst.opens = true ∧ (rlT.pp.acct.get 3).srcOutage = true) ∧
    (rlT.relayLive = true ∧ rlT.pp.relay.phase = RlyPhase.idle ∧ 3 < rlT.cfg oRlyChainLength ∧ imageBit [4] 3 = false ∧
      (rlT.slotAcct 3).isSome = true ∧ rlT.pp.relay.absent.contains 3 = true ∧ rlT.pp.relay.fault.get 3 = false) ∧
    (rlC.relayLive = true ∧ rlC.pp.relay.phase = RlyPhase.settle ∧ rlC.pp.relay.op = some (rlC.pp.relay.op.getD { }) ∧
      rlC.pwr.bind = BindStep.none ∧
      (∀ (x : Nat × Nat), x ∈ (rlC.pp.relay.op.getD { }).slots →
      (decide (x.fst < rlC.cfg oRlyChainLength) && imageBit [0] x.fst) = !(rlC.pp.relay.op.getD { }).opens)) ∧
    ((rlC.relayLive = false ∨ rlC.pp.relay.phase ≠ RlyPhase.pulse)) ∧
    ((rlT.relayLive = false ∨ rlT.pp.relay.phase ≠ RlyPhase.settle)) ∧
    ((restS.relayLive = false ∨ restS.pp.relay.phase ≠ RlyPhase.idle)) ∧
    (rlC.relayLive = true ∧ rlC.pp.relay.phase = RlyPhase.settle ∧ rlC.pp.relay.op = some (rlC.pp.relay.op.getD { }) ∧
      rlC.pwr.bind = BindStep.none ∧ (3, 1) ∈ (rlC.pp.relay.op.getD { }).slots ∧
      (decide ((3, 1).fst < rlC.cfg oRlyChainLength) && imageBit [255] (3, 1).fst) = (rlC.pp.relay.op.getD { }).opens ∧
      rlC.cfg oRlyRetries ≤ (3, 1).snd) ∧
    ((offS.relayLive = false ∨ offS.pp.relay.phase ≠ RlyPhase.idle ∨ offS.pp.relay.scans < 2 ∨ offS.nextOp = none)) ∧
    (rlC.relayLive = true ∧ rlC.pp.relay.phase = RlyPhase.settle ∧ rlC.pp.relay.op = some (rlC.pp.relay.op.getD { }) ∧
      rlC.pwr.bind = BindStep.none ∧ (2, 0) ∈ (rlC.pp.relay.op.getD { }).slots ∧
      (decide ((2, 0).fst < rlC.cfg oRlyChainLength) && imageBit [4] (2, 0).fst) = (rlC.pp.relay.op.getD { }).opens ∧
      (2, 0).snd < rlC.cfg oRlyRetries ∧ (rlC.pp.relay.op.getD { }).opens = true) ∧
    (rlP.relayLive = true ∧ rlP.pp.relay.phase = RlyPhase.pulse) ∧
    (rlU.relayLive = true ∧ rlU.pp.relay.phase = RlyPhase.idle ∧ 2 < rlU.cfg oRlyChainLength ∧ imageBit [4] 2 = true ∧
      imageBit [0] 2 ≠ rlU.pp.relay.commanded.get 2 ∧ rlU.slotBusy 2 = false ∧ rlU.pp.relay.diff.contains 2 = true) ∧
    (s20a.relayLive = true ∧ s20a.pp.relay.phase = RlyPhase.idle ∧ 2 ≤ s20a.pp.relay.scans ∧
      s20a.pwr.bind = BindStep.none ∧
      s20a.nextOp = some ((s20a.nextOp.getD ({ }, { }, false)).fst, (s20a.nextOp.getD ({ }, { }, false)).snd.fst, (s20a.nextOp.getD ({ }, { }, false)).snd.snd) ∧ (s20a.nextOp.getD ({ }, { }, false)).snd.snd = true) :=
  ⟨by decide +kernel,
   by decide +kernel,
   by decide +kernel,
   by decide +kernel,
   by decide +kernel,
   by decide +kernel,
   by decide +kernel,
   by decide +kernel,
   by decide +kernel,
   by decide +kernel,
   by decide +kernel,
   by decide +kernel,
   by decide +kernel⟩
theorem witness_ClockMonitors :
    (s21f.tamper.stopped = true ∧ s21f.supplied = true) ∧
    (s21e.clkWatched 0 = true ∧ (s21e.clkMon 0).pend = [] ∧ (s21e.clkMon 0).evA = none ∧ (s21e.clkMon 0).evB = none ∧
      s21e.tamper.restartDue = none ∧ (s21e.clkMon 0).win = some (5000, 6000, 3) ∧ (5000, 6000, 3).fst ≤ 0 + 10000 ∧
      0 ≤ (5000, 6000, 3).snd.fst + 10000 ∧ (s21e.powered = false ∨ 0 = 0)) ∧
    (s21b.clkWatched 0 = true ∧ (s21b.clkMon 0).pend = [] ∧ (s21b.clkMon 0).evA = none ∧ (s21b.clkMon 0).evB = none ∧
      s21b.tamper.restartDue = none ∧ (¬if 0 = 0 then 676 ≤ 29 ∧ 29 ≤ 860 else 29 ≤ 29 ∧ 29 ≤ 36) ∧
      (s21b.clkMon 0).badSince = some 1000 ∧ 1000 + 1000000 ≤ 2000077 ∧ (s21b.clkMon 0).lost = false ∧
      s21b.supplied = true) ∧
    (liveS.clkWatched 0 = true ∧ (liveS.clkMon 0).pend = [] ∧ (liveS.clkMon 0).evA = none ∧ (liveS.clkMon 0).evB = none ∧
      liveS.tamper.restartDue = none ∧
      (∀ (w : Nat × Nat × Nat), (liveS.clkMon 0).win = some w → 0 + 10000 < w.fst ∨ w.snd.fst + 10000 < 0)) ∧
    (s21c.clkWatched 1 = true ∧ (s21c.clkMon 1).pend = [] ∧ (s21c.clkMon 1).evA = none ∧ (s21c.clkMon 1).evB = none ∧
      s21c.tamper.restartDue = none ∧ (s21c.clkMon 1).win = some (5000, 6000, 3) ∧ (5000, 6000, 3).fst ≤ 0 + 10000 ∧
      0 ≤ (5000, 6000, 3).snd.fst + 10000 ∧ s21c.powered = true ∧ s21c.pwr.onVbat = false ∧ s21c.pwr.tripped = false) ∧
    (s21b.clkWatched 1 = true ∧ (s21b.clkMon 1).pend = [] ∧ (s21b.clkMon 1).evA = none ∧ (s21b.clkMon 1).evB = none ∧
      s21b.tamper.restartDue = none ∧ (¬if 1 = 0 then 676 ≤ 28 ∧ 28 ≤ 860 else 29 ≤ 28 ∧ 28 ≤ 36) ∧
      (s21b.clkMon 1).badSince = some 1000 ∧ 1000 + 1000000 ≤ 2000077 ∧ (s21b.clkMon 1).lost = false) ∧
    (offS.tamper.stopped = false) ∧
    ((offS.tamper.needClean = false ∨ offS.supplied = true)) ∧
    (s21j.tamper.needClean = true ∧ s21j.supplied = false ∧ (upD s21j).mayCastOn = true) ∧
    (s21b.clkWatched 1 = true ∧ (s21b.clkMon 1).pend = [] ∧ (s21b.clkMon 1).evA = none ∧ (s21b.clkMon 1).evB = none ∧
      s21b.tamper.restartDue = none ∧ (if 1 = 0 then 676 ≤ 29 ∧ 29 ≤ 860 else 29 ≤ 29 ∧ 29 ≤ 36)) ∧
    (s21i.tamper.needClean = true ∧ s21i.supplied = false ∧ (upD s21i).mayCastOn = false) ∧
    (liveS.clkWatched 0 = true ∧ (liveS.clkMon 0).pend = [] ∧ (liveS.clkMon 0).evA = none ∧ (liveS.clkMon 0).evB = none ∧
      liveS.tamper.restartDue = none ∧ (¬if 0 = 0 then 676 ≤ 29 ∧ 29 ≤ 860 else 29 ≤ 29 ∧ 29 ≤ 36) ∧
      5 = (liveS.clkMon 0).badSince.getD 5 ∧ 6 < 5 + 1000000) ∧
    (s21c.clkWatched 0 = true ∧ (s21c.clkMon 0).pend = [] ∧ (s21c.clkMon 0).evA = none ∧ (s21c.clkMon 0).evB = none ∧
      s21c.tamper.restartDue = none ∧ (s21c.clkMon 0).win = some (5000, 6000, 3) ∧ (5000, 6000, 3).fst ≤ 0 + 10000 ∧
      0 ≤ (5000, 6000, 3).snd.fst + 10000 ∧ s21c.supplied = true) ∧
    (s21a.clkWatched 0 = false) :=
  ⟨by decide +kernel,
   by decide +kernel,
   by decide +kernel,
   ⟨by decide +kernel, by decide +kernel, by decide +kernel, by decide +kernel, by decide +kernel, fun _ h => nomatch h⟩,
   by decide +kernel,
   by decide +kernel,
   by decide +kernel,
   by decide +kernel,
   by decide +kernel,
   by decide +kernel,
   by decide +kernel,
   by decide +kernel,
   by decide +kernel,
   by decide +kernel⟩
theorem witness_GlitchesAndInputs :
    (fullS.pwr.onVbat = false ∧ fullS.pwr.tripped = false ∧
      (∀ (x : Nat), (fullS.tamper.glitch.get 1).last = some x → x + 1000000 ≤ 9001) ∧
      (List.filter (fun x => decide (9001 ≤ x + fullS.cfg oGlitchWindowMs * 1000000)) (9001 :: (fullS.tamper.glitch.get 1).singles)).length < fullS.cfg oGlitchConfirmN ∧ fullS.powered = true) ∧
    (bits (tpS.cfg (oTampInputCfg 0)) 2 1 ≠ 0 ∧ (tpS.pwr.onVbat = false ∨ bit (tpS.cfg (oTampInputCfg 0)) 4 = true) ∧
      (tpS.tamper.tamp.get 0).sample (if bits (tpS.cfg (oTampInputCfg 0)) 2 1 =
      1 then true == bit (tpS.cfg (oTampInputCfg 0)) 3 else decide (500 * (bits (tpS.cfg (oTampInputCfg 0)) 11 8 + 1) < 400)) (bits (tpS.cfg (oTampInputCfg 0)) 23 16) = (tpS.tamper.tamp.get 0).sample (if bits (tpS.cfg (oTampInputCfg 0)) 2 1 = 1 then true == bit (tpS.cfg (oTampInputCfg 0)) 3 else decide (500 * (bits (tpS.cfg (oTampInputCfg 0)) 11 8 + 1) < 400)) (bits (tpS.cfg (oTampInputCfg 0)) 23 16) ∧ ((tpS.tamper.tamp.get 0).sample (if bits (tpS.cfg (oTampInputCfg 0)) 2 1 = 1 then true == bit (tpS.cfg (oTampInputCfg 0)) 3 else decide (500 * (bits (tpS.cfg (oTampInputCfg 0)) 11 8 + 1) < 400)) (bits (tpS.cfg (oTampInputCfg 0)) 23 16)).active = true ∧ (tpS.tamper.tamp.get 0).active = false ∧ tpS.tamper.restartDue = none ∧ bit (tpS.cfg (oTampResponse 0)) 4 = false ∧ bit (tpS.cfg (oTampResponse 0)) 0 = true ∧ tpS.tamper.buf.length < 64 ∧ tpS.tamper.holdoff.get (16 + 0) = none ∧ bit (tpS.cfg (oTampResponse 0)) 2 = true) ∧
    ((bit (tpS.cfg oMagCfg) 1 = false ∨ tpS.pwr.onVbat = true)) ∧
    (fullS.pwr.onVbat = false ∧ (fullS.powered = false ∨ fullS.cfgB oHkRun = true)) ∧
    ((s22a.pwr.onVbat = true ∨ s22a.pwr.tripped = true)) ∧
    (s22f.pwr.onVbat = true ∧ s22f.tempOutside 200000 = true ∧ s22f.tamper.tempRun = 0) ∧
    ((bits (liveS.cfg (oTampInputCfg 0)) 2 1 = 0 ∨ liveS.pwr.onVbat = true ∧ bit (liveS.cfg (oTampInputCfg 0)) 4 = false)) ∧
    (s22d.pwr.onVbat = true ∧ s22d.tempOutside 25000 = false ∧ s22d.tamper.tempAlarm = false) ∧
    (fullS.pwr.onVbat = false ∧ fullS.pwr.tripped = false ∧ (fullS.tamper.glitch.get 0).last = some 9000 ∧
      9001 < 9000 + 1000000) ∧
    (s22h.pwr.onVbat = false ∧ (s22h.powered = true ∧ s22h.cfgB oHkRun = false)) ∧
    (bit (tpS.cfg oMagCfg) 0 = true ∧ tpS.pwr.onVbat = false ∧
      (((tpS.tamper.mag.get 0).sample (false == bit (tpS.cfg oMagCfg) (4 + 0)) 3).active = false ∨
      (tpS.tamper.mag.get 0).active = true ∨ tpS.cfg (oTampResponse (8 + 0)) = 0) ∧ tpS.tamper.restartDue = none) ∧
    (bits (tpS.cfg (oTampInputCfg 1)) 2 1 ≠ 0 ∧ (tpS.pwr.onVbat = false ∨ bit (tpS.cfg (oTampInputCfg 1)) 4 = true) ∧
      (tpS.tamper.tamp.get 1).sample (if bits (tpS.cfg (oTampInputCfg 1)) 2 1 =
      1 then true == bit (tpS.cfg (oTampInputCfg 1)) 3 else decide (500 * (bits (tpS.cfg (oTampInputCfg 1)) 11 8 + 1) < 400)) (bits (tpS.cfg (oTampInputCfg 1)) 23 16) = (tpS.tamper.tamp.get 1).sample (if bits (tpS.cfg (oTampInputCfg 1)) 2 1 = 1 then true == bit (tpS.cfg (oTampInputCfg 1)) 3 else decide (500 * (bits (tpS.cfg (oTampInputCfg 1)) 11 8 + 1) < 400)) (bits (tpS.cfg (oTampInputCfg 1)) 23 16) ∧ (((tpS.tamper.tamp.get 1).sample (if bits (tpS.cfg (oTampInputCfg 1)) 2 1 = 1 then true == bit (tpS.cfg (oTampInputCfg 1)) 3 else decide (500 * (bits (tpS.cfg (oTampInputCfg 1)) 11 8 + 1) < 400)) (bits (tpS.cfg (oTampInputCfg 1)) 23 16)).active = false ∨ (tpS.tamper.tamp.get 1).active = true)) :=
  ⟨by decide +kernel,
   by decide +kernel,
   by decide +kernel,
   by decide +kernel,
   by decide +kernel,
   by decide +kernel,
   by decide +kernel,
   by decide +kernel,
   by decide +kernel,
   by decide +kernel,
   by decide +kernel,
   by decide +kernel⟩
theorem witness_TamperLogAndLifeCycle :
    (rqF.allows { } 0x8000 41 [3, 0] = true ∧ ofLe [3, 0] < 240 ∧ rqF.heldBy (ofLe [3, 0]) = false ∧
      rqF.pp.acct.wf = true) ∧
    (liveS.allows { cls := Cls.s } 0x8100 2 (lcB liveS 1) = true ∧ liveS.tamper.restartDue = none ∧ liveS.lc ≠ 5 ∧
      (fld (lcB liveS 1) 8 1 = liveS.lc + 1 ∨ fld (lcB liveS 1) 8 1 = 5) ∧ liveS.tamper.stopped = false ∧
      fld (lcB liveS 1) 0 8 = Config.serialNumber.toNat ∧ fld (lcB liveS 1) 12 4 = liveS.lcNonce ∧
      fld (lcB liveS 1) 9 3 = 0 ∧ (fld (lcB liveS 1) 8 1 = 4 → liveS.tagBad (lcB liveS 1) = false) ∧
      (fld (lcB liveS 1) 8 1 = 3 → liveS.life.keyReturn.isSome = true ∧ liveS.cal.owner = none)) ∧
    (liveS.allows { cls := Cls.s } 0x8100 2 (lcB liveS 2) = true ∧ liveS.tamper.restartDue = none ∧
      (liveS.lc = 5 ∨ fld (lcB liveS 2) 8 1 ≠ liveS.lc + 1 ∧ fld (lcB liveS 2) 8 1 ≠ 5)) ∧
    (liveS.allows { cls := Cls.s } 0x8100 4 (List.replicate 16 8) = true ∧ liveS.life.keyReturn = none) ∧
    (liveS.allows { cls := Cls.s } 0x8100 2 (List.replicate 32 1) = true ∧ liveS.tamper.restartDue = none ∧ liveS.lc ≠ 5 ∧
      (fld (List.replicate 32 1) 8 1 = liveS.lc + 1 ∨ fld (List.replicate 32 1) 8 1 = 5) ∧ liveS.tamper.stopped = false ∧
      (fld (List.replicate 32 1) 0 8 ≠ Config.serialNumber.toNat ∨ fld (List.replicate 32 1) 12 4 ≠ liveS.lcNonce ∨
      fld (List.replicate 32 1) 9 3 ≠ 0)) ∧
    (rqF.allows { } 0x8000 41 [5, 0] = true ∧ (240 ≤ ofLe [5, 0] ∧ ofLe [5, 0] ≠ 65535 ∨ ofLe [5, 0] < 240 ∧
      rqF.heldBy (ofLe [5, 0]) = true ∨ ofLe [5, 0] = 65535 ∧ ∃ a, a < 240 ∧ rqF.heldBy a = true)) ∧
    ((offS.mayDrain = false ∨ offS.tamper.buf = [])) ∧
    (rqF.allows { } 0x8000 41 [3, 0] = true ∧ ofLe [3, 0] < 240 ∧ rqF.heldBy (ofLe [3, 0]) = false ∧ 0 ≠ ofLe [3, 0]) ∧
    (fullS.mayDrain = true ∧ fullS.tamper.buf = fullS.tamper.buf.head?.getD { } :: fullS.tamper.buf.tail ∧
      fullS.tamper.lostNow = 0 ∧ (fullS.tamper.buf.head?.getD { }).bytes ≠ fullS.tamper.lastSlot ∧ fullS.scVal 1 < 4096) ∧
    (s23l.allows { cls := Cls.s } 0x8100 4 (List.replicate 16 8) = true ∧ s23l.life.keyReturn.isSome = true) ∧
    (s23a.mayDrain = true ∧ s23a.tamper.buf = s23a.tamper.buf.head?.getD { } :: s23a.tamper.buf.tail ∧
      s23a.tamper.lostNow = 0 ∧ (s23a.tamper.buf.head?.getD { }).evData.isSome = true ∧ s23a.pwr.metering = true) :=
  ⟨by decide +kernel,
   ⟨by decide +kernel, by decide +kernel, by decide +kernel, by decide +kernel, by decide +kernel, serial_back, nonce_back liveS, by decide +kernel, by decide +kernel, by decide +kernel⟩,
   by decide +kernel,
   by decide +kernel,
   ⟨by decide +kernel, by decide +kernel, by decide +kernel, by decide +kernel, by decide +kernel, Or.inr (Or.inr (by decide +kernel))⟩,
   by decide +kernel,
   by decide +kernel,
   by decide +kernel,
   by decide +kernel,
   by decide +kernel,
   by decide +kernel⟩
theorem witness_IslandsRestart :
    (rlP.powered = true ∧ rlP.upd.st ≠ UpdSt.trial) ∧
    (liveS.controlAway = false ∧ liveS.upd.st ≠ UpdSt.trial ∧
      (∀ (c : Nat), liveS.isl.dogAt = some c → c + 600 * 1000 * clkMs ≤ liveS.clock.clk)) ∧
    (offS.powered = false) ∧
    (s24j.disp.restartAt.isSome = true ∧ s24j.clearable = false) ∧
    (s24d.controlAway = false ∧ s24d.upd.st ≠ UpdSt.trial ∧ s24d.isl.dogAt = some (s24d.isl.dogAt.getD 0) ∧
      s24d.clock.clk < s24d.isl.dogAt.getD 0 + 600 * 1000 * clkMs) ∧
    (rqF.allows { cls := Cls.c } 0xF000 2 [0] = true) ∧
    (s24g.powered = true ∧ s24g.isl.control.isSome = true ∧ s24g.isl.cause ≠ 5 ∧ s24g.upd.restarting = false ∧
      s24g.upd.backRestart = false ∧ s24g.upd.st ≠ UpdSt.trial) ∧
    (offS.controlAway = true) ∧
    (offS.disp.restartAt = none) ∧
    ((liveS.powered = false ∨ liveS.isl.control = none ∨ liveS.isl.cause = 5)) :=
  ⟨by decide +kernel,
   by decide +kernel,
   by decide +kernel,
   by decide +kernel,
   by decide +kernel,
   by decide +kernel,
   by decide +kernel,
   by decide +kernel,
   by decide +kernel,
   by decide +kernel⟩
theorem witness_PowerCommands :
    (rqF.allows { } 0xE000 2 [5] = true) ∧
    (rqF.allows { } 0xE000 2 [3] = true ∧ rqF.upd.st ≠ UpdSt.trial) ∧
    (rqF.allows { } 0xE000 2 [4] = true) ∧
    (rqF.allows { } 0xE000 2 [{ toFin := 1 }] = true ∧ rqF.pwr.bind = BindStep.none ∧
      ((List.range 4).any fun g => (rqF.groups.get g).running) = true) ∧
    (rqF.allows { } 0xE000 2 [{ toFin := 2 }] = true ∧ rqF.pwr.bind = BindStep.none ∧
      ((List.range 4).any fun g => (rqF.groups.get g).running) = true) ∧
    (s25j.disp.falling = true ∧ s25j.disp.work = DispWork.discharge ∧ s25j.disp.offStep = 3 ∧
      s25j.pwr.bind = BindStep.display) ∧
    (offS.disp.falling = false) ∧
    (s25c.allows { } 0xE000 2 [{ toFin := 1 }] = true ∧ s25c.pwr.bind ≠ BindStep.none) ∧
    (s25f.allows { } 0xE000 2 [{ toFin := 2 }] = true ∧ s25f.pwr.bind ≠ BindStep.none) ∧
    (s25g.disp.falling = true ∧ (s25g.disp.work ≠ DispWork.discharge ∨ s25g.disp.offStep ≠ 3)) ∧
    (s25i.disp.falling = true ∧ s25i.disp.work = DispWork.discharge ∧ s25i.disp.offStep = 3 ∧
      s25i.pwr.bind ≠ BindStep.display) :=
  ⟨by decide +kernel,
   by decide +kernel,
   by decide +kernel,
   by decide +kernel,
   by decide +kernel,
   by decide +kernel,
   by decide +kernel,
   by decide +kernel,
   by decide +kernel,
   by decide +kernel,
   by decide +kernel⟩
theorem witness_NonVolatileStore :
    (4 < 16384 ∧ liveS.powered = true ∧ liveS.nvm.bad.contains 4 = false) ∧
    (liveS.allows { } 0xC000 34 [1] = true ∧ ofLe [1] = 1 ∧ liveS.mayNvm = true) ∧
    (liveS.powered = true ∧ (5 / 256 < 10240 ∨ 11776 ≤ 5 / 256)) ∧
    (rqF.allows { } 0xC000 45 [16] = true ∧ 16 ≤ ofLe [16] ∧ ofLe [16] ≤ 63) ∧
    (s26d.powered = true ∧ s26d.nvm.jTail + 4096 < s26d.nvm.jHead + 640) ∧
    (offS.powered = false) ∧
    (offS.mayNvm = false) ∧
    (liveS.powered = true ∧ [1, 2, 900] ≠ []) ∧
    ((true = true ∨ 16384 ≤ 5 ∨ offS.powered = false)) ∧
    (4 < 16384 ∧ fullS.powered = true ∧ 12 ∈ fullS.nvm.bad) ∧
    ((offS.powered = false ∨ offS.nvm.jHead + 640 ≤ offS.nvm.jTail + 4096)) ∧
    (rqF.allows { } 0xC000 34 [0] = true ∧ (ofLe [0] ≠ 1 ∨ rqF.mayNvm = false)) ∧
    (4 < 16384 ∧ liveS.powered = true ∧ (true = true ∨ liveS.nvm.bad.contains 4 = true)) ∧
    (liveS.powered = true ∧
      (12 * liveS.cfg oNvmWearYears ≤ liveS.lifeMonths ∨ liveS.nvm.lifeDay = some (dayOf liveS.now))) ∧
    (s26c.nvm.cfg.recs.wf = true ∧ s26c.nvm.cfg.recs.get 3 = some ((s26c.nvm.cfg.recs.get 3).getD { })) ∧
    (s26g.powered = true ∧ s26g.lifeMonths < 12 * s26g.cfg oNvmWearYears ∧ s26g.nvm.lifeDay ≠ some (dayOf s26g.now)) :=
  ⟨by decide +kernel,
   by decide +kernel,
   by decide +kernel,
   by decide +kernel,
   by decide +kernel,
   by decide +kernel,
   by decide +kernel,
   by decide +kernel,
   by decide +kernel,
   by decide +kernel,
   by decide +kernel,
   by decide +kernel,
   by decide +kernel,
   by decide +kernel,
   by decide +kernel,
   by decide +kernel⟩
theorem witness_MemoryTests :
    (0 < 4194304 ∧ liveS.mem.poison.get (0 / 8 * 8) = false ∧ liveS.mem.banks.wf = true ∧ (1 = 1 ∨ 1 = 2)) ∧
    (0 < 4194304 ∧ liveS.mem.poison.get (0 / 8 * 8) = false ∧ liveS.mem.banks.wf = true ∧ 2 < 3 ∧
      keepsPoison (0 / 8 * 8) = true) ∧
    (liveS.allows { } 0xC000 26 (le 4 1048579) = true ∧ bits (ofLe (le 4 1048579)) 15 0 ≠ 0 ∧
      bit (ofLe (le 4 1048579)) 20 = true) ∧
    ((s27i.mem.request.isSome = true ∨ s27i.mem.periodic.isSome = true)) ∧
    (mtS.marchSource = 1 ∧ (mtS.mem.banks.get 0).transitFailed = false ∧ 5 < 256 ∧ 0 < 1 ∧
      (mtS.mem.banks.get 0).physical 5 = 5 ∧ (mtS.mem.banks.get 0).freeSpare = some 0) ∧
    (offS.mem.request = none ∧ offS.mem.periodic = none) ∧
    ((∀ (x : Nat × Stamp), x ∈ offS.mem.recovering → x.fst ≠ 3)) ∧
    (rqF.allows { } 0xC000 26 (le 4 65539) = true ∧ bits (ofLe (le 4 65539)) 15 0 ≠ 0 ∧
      bit (ofLe (le 4 65539)) 20 = false ∧ rqF.mem.request = none) ∧
    ((offS.marchSource = 0 ∨ (offS.mem.banks.get 0).transitFailed = true ∨ 272 < 5)) ∧
    ((4194304 ≤ 64 / 8 * 8 ∧ 64 / 8 * 8 < 2 ^ 31 ∨ offS.mem.poison.get (64 / 8 * 8) = true)) ∧
    (0 < 4194304 ∧ fullS.mem.poison.get (0 / 8 * 8) = false ∧ fullS.mem.banks.wf = true ∧ 2 < 3 ∧
      (fullS.mem.banks.get (bankOf 0)).ev17At ≠ secOf fullS.now) ∧
    ((s27e.cfg oMarchPeriodicH = 0 ∨ s27e.mem.periodic.isSome = true)) ∧
    (s27f.cfg oMarchPeriodicH ≠ 0 ∧ s27f.mem.periodic = none) ∧
    ((∃ x, x ∈ s27a.mem.recovering ∧ x.fst = 4) ∧ s27a.lineKept 4 = true) ∧
    (s27b.marchSource = 3 ∧ (s27b.mem.banks.get 0).transitFailed = false ∧ 5 ≤ 272) ∧
    (mtF.marchSource = 1 ∧ (mtF.mem.banks.get 2).transitFailed = false ∧ 5 < 256 ∧ 0 < 1 ∧
      (mtF.mem.banks.get 2).physical 5 = 5 ∧ (mtF.mem.banks.get 2).freeSpare = none) ∧
    (s27c.allows { } 0xC000 26 (le 4 65539) = true ∧ bits (ofLe (le 4 65539)) 15 0 ≠ 0 ∧
      bit (ofLe (le 4 65539)) 20 = false ∧ s27c.mem.request = some (s27c.mem.request.getD { })) :=
  ⟨by decide +kernel,
   by decide +kernel,
   by decide +kernel,
   by decide +kernel,
   by decide +kernel,
   by decide +kernel,
   by decide +kernel,
   by decide +kernel,
   by decide +kernel,
   by decide +kernel,
   by decide +kernel,
   by decide +kernel,
   by decide +kernel,
   by decide +kernel,
   by decide +kernel,
   by decide +kernel,
   by decide +kernel⟩
theorem witness_HportTransactions :
    (liveS.portServes 0 = true ∧ liveS.ports.p.wf = true ∧ ringOp (fld (hf 1 4 5 6 []) 0 1) = true ∧
      List.length (hf 1 4 5 6 []) = 10 + fld (hf 1 4 5 6 []) 4 2 ∧ fld (hf 1 4 5 6 []) 4 2 ≤ 4096 ∧
      (fld (hf 1 4 5 6 []) 0 1 = 2 ∨ fld (hf 1 4 5 6 []) 4 2 = 0) ∧
      crc16 (List.take (8 + fld (hf 1 4 5 6 []) 4 2) (hf 1 4 5 6 [])) =
      fld (hf 1 4 5 6 []) (8 + fld (hf 1 4 5 6 []) 4 2) 2 ∧
      (∀ (x : Repeat), x ∈ (liveS.ports.p.get 0).rep → x.tag ≠ fld (hf 1 4 5 6 []) 6 2 ∨
      x.crc ≠ fld (hf 1 4 5 6 []) (8 + fld (hf 1 4 5 6 []) 4 2) 2) ∧
      (8 + fld (hf 1 4 5 6 []) 4 2 + 63) / 64 ≤ liveS.ringFree 0) ∧
    (liveS.portServes 0 = true ∧ liveS.ports.p.wf = true ∧ (([] : Bytes).length < 8 ∨ inlineOp (fld [] 0 1) = false ∧
      (([] : Bytes).length ≠ 10 + fld [] 4 2 ∨ crc16 (List.take (8 + fld [] 4 2) []) ≠ fld [] (8 + fld [] 4 2) 2)) ∧
      (liveS.ports.p.get 0).lastEv50 = none) ∧
    (restS.portServes 0 = false ∧ restS.emergencyPort = false) ∧
    (hrF.portServes 0 = true ∧ hrF.ports.p.wf = true ∧ ringOp (fld (hf 1 4 5 6 []) 0 1) = true ∧
      List.length (hf 1 4 5 6 []) = 10 + fld (hf 1 4 5 6 []) 4 2 ∧ fld (hf 1 4 5 6 []) 4 2 ≤ 4096 ∧
      (fld (hf 1 4 5 6 []) 0 1 = 2 ∨ fld (hf 1 4 5 6 []) 4 2 = 0) ∧
      crc16 (List.take (8 + fld (hf 1 4 5 6 []) 4 2) (hf 1 4 5 6 [])) =
      fld (hf 1 4 5 6 []) (8 + fld (hf 1 4 5 6 []) 4 2) 2 ∧
      (∀ (x : Repeat), x ∈ (hrF.ports.p.get 0).rep → x.tag ≠ fld (hf 1 4 5 6 []) 6 2 ∨
      x.crc ≠ fld (hf 1 4 5 6 []) (8 + fld (hf 1 4 5 6 []) 4 2) 2) ∧
      hrF.ringFree 0 < (8 + fld (hf 1 4 5 6 []) 4 2 + 63) / 64 ∧ (hrF.evt.rings.get 0).refused = false) ∧
    (s28b.portServes 0 = true ∧ s28b.ports.p.wf = true ∧ ringOp (fld (hf 2 4 5 6 [1, 2]) 0 1) = true ∧
      List.length (hf 2 4 5 6 [1, 2]) = 10 + fld (hf 2 4 5 6 [1, 2]) 4 2 ∧ fld (hf 2 4 5 6 [1, 2]) 4 2 ≤ 4096 ∧
      (fld (hf 2 4 5 6 [1, 2]) 0 1 = 2 ∨ fld (hf 2 4 5 6 [1, 2]) 4 2 = 0) ∧
      crc16 (List.take (8 + fld (hf 2 4 5 6 [1, 2]) 4 2) (hf 2 4 5 6 [1, 2])) =
      fld (hf 2 4 5 6 [1, 2]) (8 + fld (hf 2 4 5 6 [1, 2]) 4 2) 2 ∧
      List.find? (fun x => decide (x.tag = fld (hf 2 4 5 6 [1, 2]) 6 2) && decide (x.crc =
      fld (hf 2 4 5 6 [1, 2]) (8 + fld (hf 2 4 5 6 [1, 2]) 4 2) 2)) (s28b.ports.p.get 0).rep =
      some ((s28b.ports.p.get 0).rep.headD { }) ∧ ((s28b.ports.p.get 0).rep.headD { }).resp = none) :=
  ⟨by decide +kernel,
   by decide +kernel,
   by decide +kernel,
   by decide +kernel,
   by decide +kernel⟩
theorem witness_RingsAreReadAndAcknowledged :
    (Cls.h ≠ Cls.c ∧ liveS.portServes (portOf Cls.h) = true ∧ 4 ≤ 4 ∧ 4 ≤ 6 ∧ 1 ≠ 0) ∧
    (Cls.h ≠ Cls.c ∧ liveS.portServes (portOf Cls.h) = true ∧ (0 < 4 ∨ 7 < 0)) ∧
    (restS.portServes 0 = false ∧ restS.emergencyPort = false) ∧
    ((offS.evt.rings.get (3)).entries = []) ∧
    ((liveS.portServes 0 = true ∨ liveS.emergencyPort = true) ∧ liveS.ports.fWait = [] ∧
      (liveS.evt.rings.get 1).entries = []) ∧
    ((fullS.portServes 0 = true ∨ fullS.emergencyPort = true) ∧ fullS.ports.fWait = [] ∧
      (fullS.evt.rings.get 1).entries = (fullS.evt.rings.get 1).entries.headD { } :: (fullS.evt.rings.get 1).entries.tail) ∧
    (Cls.h ≠ Cls.c ∧ liveS.portServes (portOf Cls.h) = true ∧ 4 ≤ 4 ∧ 4 ≤ 6 ∧ (liveS.consumers 4).contains Cls.h = true ∧
      (liveS.evt.rings.get 4).read.get (clsNo Cls.h) = 0 ∧ (0 = 0 ∨ upTo 6 (BitVec.ofNat 32 (0 - 1)) = false)) ∧
    (Cls.h ≠ Cls.c ∧ rgS.portServes (portOf Cls.h) = true ∧ 4 ≤ 4 ∧ 4 ≤ 6 ∧ (rgS.consumers 4).contains Cls.h = true ∧
      (rgS.evt.rings.get 4).read.get (clsNo Cls.h) = 8 + 1 ∧ upTo 6 8#32 = true ∧
      (rgS.evt.rings.get 4).pos.get (clsNo Cls.h) = 0) ∧
    ((s29c.evt.rings.get (3)).entries =
      (s29c.evt.rings.get (3)).entries.headD { } :: (s29c.evt.rings.get (3)).entries.tail ∧ s29c.ports.fWait = []) :=
  ⟨by decide +kernel,
   by decide +kernel,
   by decide +kernel,
   by decide +kernel,
   by decide +kernel,
   by decide +kernel,
   by decide +kernel,
   by decide +kernel,
   by decide +kernel⟩
theorem witness_BulkWindow :
    (Cls.h ≠ Cls.c ∧ s30d.portServes (portOf Cls.h) = true ∧ (s30d.ports.p.get (portOf Cls.h)).bulk.left ≠ 0 ∧
      (s30d.ports.p.get (portOf Cls.h)).bulk.buf = [some [1, 2, 3]] ∧
      (portOf Cls.h = 0 ∨ (8 + [1, 2, 3].length + 63) / 64 ≤ s30d.ringFree 7) ∧
      (s30d.ports.p.get (portOf Cls.h)).bulk.left ≤ [1, 2, 3].length) ∧
    (Cls.h ≠ Cls.c ∧ liveS.portServes (portOf Cls.h) = true ∧ List.length (le 4 3 ++ le 4 0 ++ le 4 5) = 12 ∧
      bulkArea (fld (le 4 3 ++ le 4 0 ++ le 4 5) 0 1) =
      some (((bulkArea (fld (le 4 3 ++ le 4 0 ++ le 4 5) 0 1)).getD (0, 0)).fst, ((bulkArea (fld (le 4 3 ++ le 4 0 ++ le 4 5) 0 1)).getD (0, 0)).snd) ∧ fld (le 4 3 ++ le 4 0 ++ le 4 5) 8 4 ≠ 0 ∧ fld (le 4 3 ++ le 4 0 ++ le 4 5) 4 4 + fld (le 4 3 ++ le 4 0 ++ le 4 5) 8 4 ≤ ((bulkArea (fld (le 4 3 ++ le 4 0 ++ le 4 5) 0 1)).getD (0, 0)).snd ∧ (fld (le 4 3 ++ le 4 0 ++ le 4 5) 0 1 = 1 → fld (le 4 3 ++ le 4 0 ++ le 4 5) 4 4 % 16 = 0 ∧ fld (le 4 3 ++ le 4 0 ++ le 4 5) 8 4 % 16 = 0) ∧ (if fld (le 4 3 ++ le 4 0 ++ le 4 5) 0 1 ≤ 2 then liveS.slotMayRead (7 + portOf Cls.h) (((bulkArea (fld (le 4 3 ++ le 4 0 ++ le 4 5) 0 1)).getD (0, 0)).fst + fld (le 4 3 ++ le 4 0 ++ le 4 5) 4 4) else liveS.mem.locked) = false ∧ liveS.mem.lastEv18.get (7 + portOf Cls.h) = none) ∧
    (Cls.h ≠ Cls.c ∧ restS.portServes (portOf Cls.h) = false) ∧
    (Cls.h ≠ Cls.c ∧ bkA.portServes (portOf Cls.h) = true ∧ [0].length ≠ 12) ∧
    (Cls.h ≠ Cls.c ∧ bkA.portServes (portOf Cls.h) = true ∧ (bkA.ports.p.get (portOf Cls.h)).bulk.left = 0) ∧
    (Cls.h ≠ Cls.c ∧ bkA.portServes (portOf Cls.h) = true ∧ List.length (le 12 0) = 12 ∧
      bulkArea (fld (le 12 0) 0 1) = none) ∧
    (Cls.h ≠ Cls.c ∧ liveS.portServes (portOf Cls.h) = true ∧
      ((liveS.ports.p.get (portOf Cls.h)).bulk.left ≤ (liveS.ports.p.get (portOf Cls.h)).bulk.held ∨
      2 ≤ (liveS.ports.p.get (portOf Cls.h)).bulk.buf.length ∨
      (liveS.ports.p.get (portOf Cls.h)).bulk.buf.contains none = true)) ∧
    (Cls.h ≠ Cls.c ∧ s30a.portServes (portOf Cls.h) = true ∧ (s30a.ports.p.get (portOf Cls.h)).bulk.left ≠ 0 ∧
      (s30a.ports.p.get (portOf Cls.h)).bulk.buf = []) ∧
    (Cls.h ≠ Cls.c ∧ s30b.portServes (portOf Cls.h) = true ∧ (s30b.ports.p.get (portOf Cls.h)).bulk.left ≠ 0 ∧
      (s30b.ports.p.get (portOf Cls.h)).bulk.buf = [none]) ∧
    (Cls.h ≠ Cls.c ∧ s30c.portServes (portOf Cls.h) = true ∧ (s30c.ports.p.get (portOf Cls.h)).bulk.left ≠ 0 ∧
      (s30c.ports.p.get (portOf Cls.h)).bulk.buf = [some [1, 2, 3]] ∧
      (portOf Cls.h = 0 ∨ (8 + [1, 2, 3].length + 63) / 64 ≤ s30c.ringFree 7) ∧
      [1, 2, 3].length < (s30c.ports.p.get (portOf Cls.h)).bulk.left) ∧
    (Cls.h ≠ Cls.c ∧ bkA.portServes (portOf Cls.h) = true ∧ List.length (le 4 2 ++ le 4 7 ++ le 4 0) = 12 ∧
      bulkArea (fld (le 4 2 ++ le 4 7 ++ le 4 0) 0 1) =
      some (((bulkArea (fld (le 4 2 ++ le 4 7 ++ le 4 0) 0 1)).getD (0, 0)).fst, ((bulkArea (fld (le 4 2 ++ le 4 7 ++ le 4 0) 0 1)).getD (0, 0)).snd) ∧ (fld (le 4 2 ++ le 4 7 ++ le 4 0) 8 4 = 0 ∨ ((bulkArea (fld (le 4 2 ++ le 4 7 ++ le 4 0) 0 1)).getD (0, 0)).snd < fld (le 4 2 ++ le 4 7 ++ le 4 0) 4 4 + fld (le 4 2 ++ le 4 7 ++ le 4 0) 8 4 ∨ fld (le 4 2 ++ le 4 7 ++ le 4 0) 0 1 = 1 ∧ (fld (le 4 2 ++ le 4 7 ++ le 4 0) 4 4 % 16 ≠ 0 ∨ fld (le 4 2 ++ le 4 7 ++ le 4 0) 8 4 % 16 ≠ 0))) ∧
    (Cls.h ≠ Cls.c ∧ bkA.portServes (portOf Cls.h) = true ∧ List.length (le 4 3 ++ le 4 0 ++ le 4 5) = 12 ∧
      bulkArea (fld (le 4 3 ++ le 4 0 ++ le 4 5) 0 1) =
      some (((bulkArea (fld (le 4 3 ++ le 4 0 ++ le 4 5) 0 1)).getD (0, 0)).fst, ((bulkArea (fld (le 4 3 ++ le 4 0 ++ le 4 5) 0 1)).getD (0, 0)).snd) ∧ fld (le 4 3 ++ le 4 0 ++ le 4 5) 8 4 ≠ 0 ∧ fld (le 4 3 ++ le 4 0 ++ le 4 5) 4 4 + fld (le 4 3 ++ le 4 0 ++ le 4 5) 8 4 ≤ ((bulkArea (fld (le 4 3 ++ le 4 0 ++ le 4 5) 0 1)).getD (0, 0)).snd ∧ (fld (le 4 3 ++ le 4 0 ++ le 4 5) 0 1 = 1 → fld (le 4 3 ++ le 4 0 ++ le 4 5) 4 4 % 16 = 0 ∧ fld (le 4 3 ++ le 4 0 ++ le 4 5) 8 4 % 16 = 0) ∧ (if fld (le 4 3 ++ le 4 0 ++ le 4 5) 0 1 ≤ 2 then bkA.slotMayRead (7 + portOf Cls.h) (((bulkArea (fld (le 4 3 ++ le 4 0 ++ le 4 5) 0 1)).getD (0, 0)).fst + fld (le 4 3 ++ le 4 0 ++ le 4 5) 4 4) else bkA.mem.locked) = true) ∧
    (Cls.h ≠ Cls.c ∧ s30f.portServes (portOf Cls.h) = true ∧
      bulkArea (s30f.ports.p.get (portOf Cls.h)).bulk.area =
      some (((bulkArea (s30f.ports.p.get (portOf Cls.h)).bulk.area).getD (0, 0)).fst, ((bulkArea (s30f.ports.p.get (portOf Cls.h)).bulk.area).getD (0, 0)).snd) ∧ (s30f.ports.p.get (portOf Cls.h)).bulk.held < (s30f.ports.p.get (portOf Cls.h)).bulk.left ∧ (s30f.ports.p.get (portOf Cls.h)).bulk.buf.length < 2 ∧ (s30f.ports.p.get (portOf Cls.h)).bulk.buf.contains none = false) :=
  ⟨by decide +kernel,
   by decide +kernel,
   by decide +kernel,
   by decide +kernel,
   by decide +kernel,
   by decide +kernel,
   by decide +kernel,
   by decide +kernel,
   by decide +kernel,
   by decide +kernel,
   by decide +kernel,
   by decide +kernel,
   by decide +kernel⟩
theorem witness_GfpFrames :
    ((restS.portServes (gfpPort true) = false ∨ List.take 2 [1, 2, 3] ≠ [197, 58])) ∧
    (offS.portServes (gfpPort true) = false) ∧
    (gfS.portServes (gfpPort true) = true ∧ gfS.ports.p.wf = true ∧ List.take 2 (gfp 9 1 (gc 1 4 5 6 [])) = [197, 58] ∧
      gfpGood (gfp 9 1 (gc 1 4 5 6 [])) = true ∧ gfS.gfpMine (gfpPort true) (gfp 9 1 (gc 1 4 5 6 [])) = true ∧
      fld (gfp 9 1 (gc 1 4 5 6 [])) 2 1 ≠ 0 ∧ fld (gfp 9 1 (gc 1 4 5 6 [])) 3 1 % 16 = 1 ∧
      0 + 8 = fld (gfp 9 1 (gc 1 4 5 6 [])) 4 2 ∧ 0 = fld (gfp 9 1 (gc 1 4 5 6 [])) 10 2 ∧ 0 ≤ 4096 ∧
      ringOp (fld (gfp 9 1 (gc 1 4 5 6 [])) 6 1) = true ∧ (fld (gfp 9 1 (gc 1 4 5 6 [])) 6 1 = 2 ∨ 0 = 0) ∧
      (∀ (x : Repeat), x ∈ (gfS.ports.p.get (gfpPort true)).rep → x.tag ≠ fld (gfp 9 1 (gc 1 4 5 6 [])) 12 2 ∨
      x.crc ≠ fld (gfp 9 1 (gc 1 4 5 6 [])) (14 + 0) 4) ∧ (8 + 0 + 63) / 64 ≤ gfS.ringFree 2) ∧
    (gfS.portServes (gfpPort true) = true ∧ gfS.ports.p.wf = true ∧ (gfS.ports.p.get (gfpPort true)).lastEv50 = none) ∧
    (gfS.portServes (gfpPort true) = true ∧ List.take 2 (gfp 9 6 (le 8 1000000)) = [197, 58] ∧
      gfpGood (gfp 9 6 (le 8 1000000)) = true ∧ gfS.gfpMine (gfpPort true) (gfp 9 6 (le 8 1000000)) = true ∧
      fld (gfp 9 6 (le 8 1000000)) 3 1 % 16 = 6 ∧ fld (gfp 9 6 (le 8 1000000)) 4 2 = 8 ∧ gfS.cfgB oFSyncEnable = true ∧
      gfS.lc ≠ 5 ∧ (syncOffset (fld (gfp 9 6 (le 8 1000000)) 6 6) 976562500).natAbs < 1000000) ∧
    (gfS.portServes (gfpPort true) = true ∧ gfS.ports.p.wf = true ∧ List.take 2 (gfp 9 4 []) = [197, 58] ∧
      gfpGood (gfp 9 4 []) = true ∧ gfS.gfpMine (gfpPort true) (gfp 9 4 []) = true ∧ fld (gfp 9 4 []) 2 1 ≠ 0 ∧
      fld (gfp 9 4 []) 3 1 % 16 = 4 ∧ gfS.ports.fWait = [] ∧
      (∀ (e : Entry), e ∈ (gfS.evt.rings.get 3).entries → e.port ≠ gfpPort true)) ∧
    (gfS.portServes (gfpPort true) = true ∧ (gfS.ports.p.get (gfpPort true)).owes = none) ∧
    (gfS.portServes (gfpPort true) = true ∧ List.take 2 (gfp 9 6 (le 8 1000000)) = [197, 58] ∧
      gfpGood (gfp 9 6 (le 8 1000000)) = true ∧ gfS.gfpMine (gfpPort true) (gfp 9 6 (le 8 1000000)) = true ∧
      fld (gfp 9 6 (le 8 1000000)) 3 1 % 16 = 6 ∧ fld (gfp 9 6 (le 8 1000000)) 4 2 = 8 ∧ gfS.cfgB oFSyncEnable = true ∧
      gfS.lc ≠ 5 ∧ 1000000 ≤ (syncOffset (fld (gfp 9 6 (le 8 1000000)) 6 6) 976500000).natAbs ∧
      (syncOffset (fld (gfp 9 6 (le 8 1000000)) 6 6) 976500000).natAbs ≤ gfS.cfg oFSyncSlewMs * 1024000) ∧
    (gfR.portServes (gfpPort true) = true ∧ gfR.ports.p.wf = true ∧ List.take 2 (gfp 9 4 []) = [197, 58] ∧
      gfpGood (gfp 9 4 []) = true ∧ gfR.gfpMine (gfpPort true) (gfp 9 4 []) = true ∧ fld (gfp 9 4 []) 2 1 ≠ 0 ∧
      fld (gfp 9 4 []) 3 1 % 16 = 4 ∧ gfR.ports.fWait = [] ∧
      List.find? (fun e => decide (e.port = gfpPort true)) (gfR.evt.rings.get 3).entries =
      some ((List.find? (fun e => decide (e.port = gfpPort true)) (gfR.evt.rings.get 3).entries).getD { })) ∧
    (gfR.portServes (gfpPort true) = true ∧ (gfR.ports.p.get (gfpPort true)).owes = some 9) ∧
    (s31b.portServes (gfpPort true) = true ∧ List.take 2 (gfp 9 6 (le 8 1000000)) = [197, 58] ∧
      gfpGood (gfp 9 6 (le 8 1000000)) = true ∧ s31b.gfpMine (gfpPort true) (gfp 9 6 (le 8 1000000)) = true ∧
      fld (gfp 9 6 (le 8 1000000)) 3 1 % 16 = 6 ∧ fld (gfp 9 6 (le 8 1000000)) 4 2 = 8 ∧ s31b.cfgB oFSyncEnable = false) :=
  ⟨by decide +kernel,
   by decide +kernel,
   by decide +kernel,
   by decide +kernel,
   by decide +kernel,
   by decide +kernel,
   by decide +kernel,
   by decide +kernel,
   by decide +kernel,
   by decide +kernel,
   by decide +kernel⟩
theorem witness_I2cAndJport :
    (liveS.portServes 0 = true ∧ (liveS.lc = 0 ∨ liveS.lc = 1 ∨ liveS.lc = 4) ∧ BitVec.toNat (5 : W32) < 2 ^ 31 ∧
      (4194304 ≤ BitVec.toNat (5 : W32) / 8 * 8 ∨ liveS.slotMayRead 10 (BitVec.toNat (5 : W32) / 8 * 8) = false)) ∧
    ((offS.lc = 2 ∨ offS.lc = 3 ∨ offS.lc = 5)) ∧
    ((restS.portServes 0 = false ∨ restS.cfgB oI2cEnable = false)) ∧
    (icS.portServes 0 = true ∧ icS.cfgB oI2cEnable = true ∧ SdaState.recovered ≠ SdaState.stuck ∧
      List.filter (fun n => bit (icS.cfg (oI2cSensor n)) 47) (List.range 4) = [0] ∧
      -55000 ≤ i2cTemp (icS.cfg (oI2cSensor 0)) [1, 2] ∧ i2cTemp (icS.cfg (oI2cSensor 0)) [1, 2] ≤ 150000) ∧
    (icS.portServes 0 = true ∧ icS.cfgB oI2cEnable = true ∧ SdaState.free ≠ SdaState.stuck ∧
      List.filter (fun n => bit (icS.cfg (oI2cSensor n)) 47) (List.range 4) = [0] ∧
      (false = false ∨ true = false ∨ i2cTemp (icS.cfg (oI2cSensor 0)) [1, 2] < -55000 ∨
      150000 < i2cTemp (icS.cfg (oI2cSensor 0)) [1, 2])) ∧
    (bkA.portServes 0 = true ∧ (bkA.lc = 0 ∨ bkA.lc = 1 ∨ bkA.lc = 4) ∧ BitVec.toNat (5 : W32) < 2 ^ 31 ∧
      BitVec.toNat (5 : W32) / 8 * 8 < 4194304 ∧ bkA.slotMayRead 10 (BitVec.toNat (5 : W32) / 8 * 8) = true ∧
      bkA.isPoisoned (BitVec.toNat (5 : W32) / 8 * 8) = false) ∧
    (liveS.portServes 0 = true) ∧
    (restS.portServes 0 = false) ∧
    (s32q.portServes 0 = true ∧ (s32q.lc = 2 ∨ s32q.lc = 3 ∨ s32q.lc = 5)) :=
  ⟨by decide +kernel,
   by decide +kernel,
   by decide +kernel,
   by decide +kernel,
   by decide +kernel,
   by decide +kernel,
   by decide +kernel,
   by decide +kernel,
   by decide +kernel⟩
theorem witness_ReadsAndPlainWrites :
    (liveS.serves { } 1 0x1000 1 [] = true ∧ cardOf 0x1000 1 = some (cd 0x1000 1) ∧ (cd 0x1000 1).mayRead Cls.h = true ∧
      liveS.dict.broken.get (okey 0x1000 1) = false ∧ liveS.waitingFor (okey 0x1000 1) = none) ∧
    (liveS.serves { } 3 0x1000 1 [] = true ∧ cardOf 0x1000 1 = some (cd 0x1000 1) ∧ (cd 0x1000 1).mayRead Cls.h = true ∧
      liveS.dict.broken.get (okey 0x1000 1) = false ∧ liveS.waitingFor (okey 0x1000 1) = none) ∧
    (calO.allows { } 0x2010 6 [0] = true ∧ cardOf 0x2010 6 = some (cd 0x2010 6) ∧ (8208 ≠ 33024 ∨ 6 ≠ 2) ∧
      (calO.ownerWrote Cls.h).writeBy Cls.h (cd 0x2010 6) (okey 0x2010 6) (ofLe [0]) [0] =
      (calO.ownerWrote Cls.h).writePlain Cls.h (cd 0x2010 6) (okey 0x2010 6) (ofLe [0]) ∧
      (calO.ownerWrote Cls.h).crossed Cls.h (okey 0x2010 6) (ofLe [0]) = true ∧ calO.dict.active.wf = true ∧
      calO.cfg (okey 0x2010 6) ≠ ofLe [0] ∧ calO.holds Cls.h = false ∧
      ((cd 0x2010 6).eff = Eff.i ∨ (cd 0x2010 6).eff = Eff.s) ∧
      ((calO.ownerWrote Cls.h).persist (cd 0x2010 6) (okey 0x2010 6) (ofLe [0])).isSome = true ∧ 0 ≠ okey 0x2010 6) ∧
    ((4096 ≠ 33024 ∨ 1 ≠ 2) ∧ liveS.serves { } 2 0x1000 1 [] = true ∧
      liveS.checkWrite Cls.h 0x1000 1 [] = Except.error (er (liveS.checkWrite Cls.h 0x1000 1 []))) ∧
    (liveS.serves { } 1 0x1102 3 [] = true ∧ cardOf 0x1102 3 = none) ∧
    (liveS.serves { } 3 0x1102 3 [] = true ∧ cardOf 0x1102 3 = none) ∧
    (liveS.serves { } 1 0x8200 1 [] = true ∧ cardOf 0x8200 1 = some (cd 0x8200 1) ∧ (cd 0x8200 1).mayRead Cls.h = false) ∧
    (liveS.serves { } 3 0x8200 1 [] = true ∧ cardOf 0x8200 1 = some (cd 0x8200 1) ∧ (cd 0x8200 1).mayRead Cls.h = false) ∧
    (s33b.allows { } 0x3003 4 [0] = true ∧ cardOf 0x3003 4 = some (cd 0x3003 4) ∧ (12291 ≠ 33024 ∨ 4 ≠ 2) ∧
      (s33b.ownerWrote Cls.h).writeBy Cls.h (cd 0x3003 4) (okey 0x3003 4) (ofLe [0]) [0] =
      (s33b.ownerWrote Cls.h).writePlain Cls.h (cd 0x3003 4) (okey 0x3003 4) (ofLe [0]) ∧
      (s33b.ownerWrote Cls.h).crossed Cls.h (okey 0x3003 4) (ofLe [0]) = true ∧ s33b.dict.active.wf = true ∧
      s33b.cfg (okey 0x3003 4) ≠ ofLe [0] ∧ s33b.holds Cls.h = false ∧ (cd 0x3003 4).eff = Eff.y ∧
      (s33b.ownerWrote Cls.h).persist (cd 0x3003 4) (okey 0x3003 4) (ofLe [0]) =
      some (((s33b.ownerWrote Cls.h).persist (cd 0x3003 4) (okey 0x3003 4) (ofLe [0])).getD (s33b.ownerWrote Cls.h)) ∧
      (((s33b.ownerWrote Cls.h).persist (cd 0x3003 4) (okey 0x3003 4) (ofLe [0])).getD (s33b.ownerWrote Cls.h)).blockStopped (okey 0x3003 4) (ofLe [0]) = false ∧ portShadow (okey 0x3003 4) = false) ∧
    (s33c.allows { cls := Cls.s } 0x3100 1 [0, 0, 32, 65] = true ∧ cardOf 0x3100 1 = some (cd 0x3100 1) ∧
      (12544 ≠ 33024 ∨ 1 ≠ 2) ∧
      (s33c.ownerWrote Cls.s).writeBy Cls.s (cd 0x3100 1) (okey 0x3100 1) (ofLe [0, 0, 32, 65]) [0, 0, 32, 65] =
      (s33c.ownerWrote Cls.s).writePlain Cls.s (cd 0x3100 1) (okey 0x3100 1) (ofLe [0, 0, 32, 65]) ∧
      (s33c.ownerWrote Cls.s).crossed Cls.s (okey 0x3100 1) (ofLe [0, 0, 32, 65]) = true ∧ s33c.dict.active.wf = true ∧
      s33c.cfg (okey 0x3100 1) ≠ ofLe [0, 0, 32, 65] ∧ s33c.holds Cls.s = false ∧
      ((cd 0x3100 1).eff = Eff.i ∨ (cd 0x3100 1).eff = Eff.s ∨ (cd 0x3100 1).eff = Eff.y) ∧
      (s33c.ownerWrote Cls.s).persist (cd 0x3100 1) (okey 0x3100 1) (ofLe [0, 0, 32, 65]) = none) ∧
    (wS.serves { } 1 0x1102 2 [] = true ∧ cardOf 0x1102 2 = some (cd 0x1102 2) ∧ (cd 0x1102 2).mayRead Cls.h = true ∧
      wS.dict.broken.get (okey 0x1102 2) = true) ∧
    (wS.serves { } 3 0x1102 2 [] = true ∧ cardOf 0x1102 2 = some (cd 0x1102 2) ∧ (cd 0x1102 2).mayRead Cls.h = true ∧
      wS.dict.broken.get (okey 0x1102 2) = true) ∧
    (wS.serves { } 3 0xE000 3 [] = true ∧ cardOf 0xE000 3 = some (cd 0xE000 3) ∧ (cd 0xE000 3).mayRead Cls.h = true ∧
      wS.dict.broken.get (okey 0xE000 3) = false ∧
      wS.waitingFor (okey 0xE000 3) = some ((wS.waitingFor (okey 0xE000 3)).getD 0)) ∧
    (wS.serves { } 1 0xE000 3 [] = true ∧ cardOf 0xE000 3 = some (cd 0xE000 3) ∧ (cd 0xE000 3).mayRead Cls.h = true ∧
      wS.dict.broken.get (okey 0xE000 3) = false ∧
      wS.waitingFor (okey 0xE000 3) = some ((wS.waitingFor (okey 0xE000 3)).getD 0)) :=
  ⟨by decide +kernel,
   by decide +kernel,
   by decide +kernel,
   ⟨by decide +kernel, by decide +kernel, rfl⟩,
   by decide +kernel,
   by decide +kernel,
   by decide +kernel,
   by decide +kernel,
   by decide +kernel,
   by decide +kernel,
   by decide +kernel,
   by decide +kernel,
   by decide +kernel,
   by decide +kernel⟩
theorem witness_RequestsWaitAndAreChecked :
    (restS.headIs { } 1 0x3003 1 [] = none ∧ restS.controlAway = true) ∧
    (restS.headIs { } 3 0x3003 1 [] = none ∧ restS.controlAway = true) ∧
    (wS.checkWrite Cls.h 0x1000 1 [] = Except.error (er (wS.checkWrite Cls.h 0x1000 1 []))) ∧
    (s34e.headIs { tag := 7 } 1 0x3003 1 [] = some ((s34e.headIs { tag := 7 } 1 0x3003 1 []).getD { }) ∧
      s34e.controlAway = false ∧ s34e.noRoom Cls.h = false ∧
      ((s34e.headIs { tag := 7 } 1 0x3003 1 []).getD { }).bad = true ∧ s34e.ports.fWait = []) ∧
    (s34c.headIs { tag := 7 } 1 0x3003 1 [] = some ((s34c.headIs { tag := 7 } 1 0x3003 1 []).getD { }) ∧
      (s34c.controlAway = true ∨ s34c.noRoom Cls.h = true)) ∧
    (s34a.headIs { tag := 7 } 2 0x3003 1 [1] = some ((s34a.headIs { tag := 7 } 2 0x3003 1 [1]).getD { }) ∧
      (s34a.controlAway = true ∨ s34a.noRoom Cls.h = true) ∧ (12291 ≠ 33024 ∨ 1 ≠ 2)) :=
  ⟨by decide +kernel,
   by decide +kernel,
   rfl,
   by decide +kernel,
   by decide +kernel,
   by decide +kernel⟩
theorem witness_TimeSnapshotsAndClears :
    (rqF.allows { } 0x1101 1 (le 6 77777777) = true) ∧
    (rqF.allows { } 0xB000 120 [3, 0] = true ∧ meEnable (rqF.cfg (oMapEntry (ofLe [3, 0]))) = false) ∧
    (fullS.powered = true ∧ (fullS.acc.snaps.get (clsNo Cls.h)).state = 1) ∧
    (rqF.allows { } 0xB000 (114 + clsNo Cls.h) [5, 0] = true) ∧
    ((offS.clock.stepped = false ∨ offS.powered = false)) ∧
    ((offS.powered = false ∨ (offS.acc.snaps.get (clsNo Cls.h)).state ≠ 1)) ∧
    (rqF.allows { } 0xB000 121 [0, 0] = true ∧ rqF.acc.demand.wf = true ∧
      (∀ (e : Nat × Nat), e ∈ rqF.subjEntries (subjOf (bits (ofLe [0, 0]) 15 14) (bits (ofLe [0, 0]) 9 0)) → e.fst = 0 →
      meDemand e.snd = false)) ∧
    (mapS.allows { } 0xB000 120 [3, 0] = true ∧ meEnable (mapS.cfg (oMapEntry (ofLe [3, 0]))) = true) ∧
    (mapS.allows { } 0xB000 121 [0, 0] = true ∧ mapS.acc.demand.wf = true ∧
      (3, mapS.cfg (oMapEntry 3)) ∈ mapS.subjEntries (subjOf (bits (ofLe [0, 0]) 15 14) (bits (ofLe [0, 0]) 9 0)) ∧
      meDemand (3, mapS.cfg (oMapEntry 3)).snd = true) :=
  ⟨by decide +kernel,
   by decide +kernel,
   by decide +kernel,
   by decide +kernel,
   by decide +kernel,
   by decide +kernel,
   by decide +kernel,
   by decide +kernel,
   by decide +kernel⟩
theorem witness_PulsesPinsAndEvents :
    (rqF.altersTo { } (0x3200 + 0) 1 [1] = true ∧ rqF.th.wf = true ∧ 1 ≠ 0) ∧
    (liveS.allows { } 0x2100 1 (le 8 0) = true ∧ liveS.evt.pending.wf = true) ∧
    ((oPulseConst 0) = oPulseConst 0 ∧ liveS.altersTo { } 0xB000 ((oPulseConst 0) % 256) (le 4 1) = true ∧
      liveS.acc.pulses.wf = true ∧ 1 ≠ 0) ∧
    (rqF.altersTo { } 0xB000 (33 + 0) (le 4 0) = true) ∧
    (rqF.allows { } 0xB000 41 (le 4 0) = true ∧ rqF.ftrip.wf = true) ∧
    ((liveS.powered = false ∨ (liveS.acc.pulses.get 0).edges = [] ∧ (liveS.acc.pulses.get 0).owed = 0)) ∧
    (puS.powered = true ∧ (puS.acc.pulses.get 0).edges =
      (((puS.acc.pulses.get 0).edges.headD (0, false)).fst, ((puS.acc.pulses.get 0).edges.headD (0, false)).snd) :: (puS.acc.pulses.get 0).edges.tail ∧ (puS.acc.pulses.get 0).owed = 0 ∧ 1 ≠ 0) ∧
    (puS.altersTo { } 0x2100 5 (le 2 531) = true ∧ puS.evt.rings.wf = true ∧ (4 = 4 ∨ 4 = 5 ∨ 4 = 6)) ∧
    (puS.powered = true ∧ (puS.acc.pulses.get 0).edges =
      (((puS.acc.pulses.get 0).edges.headD (0, false)).fst, ((puS.acc.pulses.get 0).edges.headD (0, false)).snd) :: (puS.acc.pulses.get 0).edges.tail ∧ (puS.acc.pulses.get 0).owed = 0 ∧ puS.pulseOn 0 = true ∧ puS.pulseHalf 0 = false ∧ ((puS.acc.pulses.get 0).edges.headD (0, false)).snd = false ∧ (puS.acc.pulses.get 0).edges.tail = []) ∧
    (s36a.allows { } 0xB000 (33 + 0) (le 4 7) = true ∧ s36a.cfg (oFtripAssign 0) = ofLe (le 4 7) ∧
      s36a.dict.broken.get (oFtripAssign 0) = false ∧
      (s36a.ownerWrote Cls.h).crossed Cls.h (oFtripAssign 0) (ofLe (le 4 7)) = true) :=
  ⟨by decide +kernel,
   by decide +kernel,
   by decide +kernel,
   by decide +kernel,
   by decide +kernel,
   by decide +kernel,
   by decide +kernel,
   by decide +kernel,
   by decide +kernel,
   by decide +kernel⟩
theorem witness_FrontEndAndEngineSwitches :
    (rqF.allows { } (0x3000 + 33) 6 [1] = true ∧ rqF.chans.wf = true ∧ ofLe [1] ≠ 0 ∧ rqF.substOn 33 = none ∧
      (rqF.chans.get 33).onSpare ≠ some (33 / 32)) ∧
    (liveS.altersTo { } 0x3300 7 [0] = true ∧ ofLe [0] = 0 ∧
      ((liveS.groups.get (liveS.cfg oHkSyncGroup)).running = false ∨ liveS.hk.running = false)) ∧
    (liveS.altersTo { cls := Cls.s } 0x7000 3 [7] = true ∧ liveS.eng.engines.wf = true ∧ liveS.eng.clusters.wf = true ∧
      0 < 4 ∧ bit (liveS.cfg oClusterEnable) 0 = bit (ofLe [7]) 0 ∧ 0 / 8 = 0) ∧
    (rqF.allows { } (0x3000 + 0) 6 [0] = true ∧ rqF.chans.wf = true ∧ ofLe [0] = 0) ∧
    (liveS.altersTo { cls := Cls.s } 0x7000 1 (le 4 255) = true ∧ liveS.eng.engines.wf = true ∧ 0 < 32 ∧
      bit (liveS.cfg oEngineEnable) 0 = bit (ofLe (le 4 255)) 0) ∧
    (liveS.allows { } 0x3300 11 (le 4 0) = true) ∧
    (s37h.altersTo { cls := Cls.s } 0x7000 3 [7] = true ∧ s37h.eng.engines.wf = true ∧ s37h.eng.clusters.wf = true ∧
      0 < 4 ∧ bit (s37h.cfg oClusterEnable) 0 = false ∧ bit (ofLe [7]) 0 = true) ∧
    (rqF.allows { } (0x3000 + 0) 6 [0] = true ∧ rqF.chans.wf = true ∧ 1 ≠ 0) ∧
    (rqF.allows { } (0x3000 + 33) 6 [1] = true ∧ rqF.chans.wf = true ∧ ofLe [1] ≠ 0 ∧ rqF.substOn 33 = none ∧ 0 ≠ 33 / 32) ∧
    (egS.altersTo { cls := Cls.s } 0x7000 3 [1] = true ∧ egS.eng.engines.wf = true ∧ egS.eng.clusters.wf = true ∧ 1 < 4 ∧
      bit (egS.cfg oClusterEnable) 1 = true ∧ bit (ofLe [1]) 1 = false ∧ (egS.eng.clusters.get 1).st = UnitSt.inService ∧
      (∀ (k : Nat), k / 8 = 1 → (egS.eng.engines.get k).run = none ∧ (egS.eng.engines.get k).susp = []) ∧ 8 / 8 = 1 ∧
      (egS.eng.engines.get 8).st = UnitSt.inService) ∧
    (rqF.allows { } (0x3000 + 0) 6 [1] = true ∧ rqF.chans.wf = true ∧ ofLe [1] ≠ 0 ∧
      rqF.substOn 0 = some ((rqF.substOn 0).getD (0, 0))) ∧
    (s37g.altersTo { cls := Cls.s } 0x7000 1 (le 4 255) = true ∧ s37g.eng.engines.wf = true ∧ 5 < 32 ∧
      bit (s37g.cfg oEngineEnable) 5 = false ∧ bit (ofLe (le 4 255)) 5 = true ∧ s37g.clusterOn (5 / 8) = true) ∧
    (rqF.altersTo { } 0x3300 7 [0] = true ∧ ofLe [0] = 0 ∧ (rqF.groups.get (rqF.cfg oHkSyncGroup)).running = true ∧
      rqF.hk.running = true) ∧
    (egS.altersTo { cls := Cls.s } 0x7000 1 (le 4 255) = true ∧ egS.eng.engines.wf = true ∧ 8 < 32 ∧
      bit (egS.cfg oEngineEnable) 8 = true ∧ bit (ofLe (le 4 255)) 8 = false ∧
      (egS.eng.engines.get 8).st = UnitSt.inService ∧ (egS.eng.engines.get 8).run = none ∧
      (egS.eng.engines.get 8).susp = []) ∧
    (s37c.altersTo { } 0x3300 7 [1] = true ∧ ofLe [1] = 1 ∧ s37c.hk.running = true) ∧
    (s37d.altersTo { } 0x3300 7 [1] = true ∧ ofLe [1] = 1 ∧ s37d.hk.running = false ∧ s37d.eng.armed = true) :=
  ⟨by decide +kernel,
   by decide +kernel,
   by decide +kernel,
   by decide +kernel,
   by decide +kernel,
   by decide +kernel,
   by decide +kernel,
   by decide +kernel,
   by decide +kernel,
   ⟨by decide +kernel, by decide +kernel, by decide +kernel, by decide +kernel, by decide +kernel, by decide +kernel, by decide +kernel, egS_idle, by decide +kernel, by decide +kernel⟩,
   by decide +kernel,
   by decide +kernel,
   by decide +kernel,
   by decide +kernel,
   by decide +kernel,
   by decide +kernel⟩
theorem witness_CapturesAndHolds :
    (rqF.allows { } 0x6200 42 [2] = true ∧ (rqF.capt.get 0).busy = true ∧ 0 < 8) ∧
    (rqF.allows { } 0x6200 42 [3] = true ∧ rqF.capt.wf = true ∧ 1 < 8 ∧ (rqF.capt.get 1).ready = true) ∧
    (rqF.allows { } 0x6200 42 [1] = true ∧ ((rqF.capt.get 0).busy = true ∨ (rqF.capt.get 0).ready = true)) ∧
    (liveS.allows { } 0x1102 1 [1] = true ∧ liveS.dict.owner = none) ∧
    (rqF.allows { } 0x6200 43 [0] = true ∧ ofLe [0] < 8) ∧
    (rqF.allows { } 0x1102 1 [0] = true ∧ rqF.dict.owner ≠ some Cls.h) ∧
    (fullS.dict.owner.isSome = true) ∧
    (rqF.allows { } 0x6200 42 [2] = true ∧ (rqF.capt.get 1).busy = false) ∧
    (rqF.allows { } 0x6200 42 [3] = true ∧ rqF.capt.wf = true ∧ ((rqF.capt.get 0).ready = false ∨ 8 ≤ 0)) ∧
    (s38e.allows { } 0x1102 1 [0] = true ∧ s38e.dict.owner = some Cls.h ∧ s38e.heldList = []) ∧
    (s38g.allows { } 0x1102 1 [0] = true ∧ s38g.dict.owner = some Cls.h ∧
      s38g.heldList = [((s38g.heldList.headD (0, 0)).fst, (s38g.heldList.headD (0, 0)).snd)] ∧
      cardOf ((s38g.heldList.headD (0, 0)).fst / 256) ((s38g.heldList.headD (0, 0)).fst % 256) =
      some ((cardOf ((s38g.heldList.headD (0, 0)).fst / 256) ((s38g.heldList.headD (0, 0)).fst % 256)).getD { idx := 0, n := 1, sub0 := 0, sub1 := 0, ty := Ty.u 1, acc := [], dflt := 0, pers := Pers.n, eff := Eff.i, rng := none, mask := none }) ∧ ((cardOf ((s38g.heldList.headD (0, 0)).fst / 256) ((s38g.heldList.headD (0, 0)).fst % 256)).getD { idx := 0, n := 1, sub0 := 0, sub1 := 0, ty := Ty.u 1, acc := [], dflt := 0, pers := Pers.n, eff := Eff.i, rng := none, mask := none }).eff = Eff.b ∧ (s38g.ownerWrote Cls.h).crossOk ((s38g.ownerWrote Cls.h).view true) (s38g.heldList.headD (0, 0)).fst (s38g.heldList.headD (0, 0)).snd = true ∧ ((s38g.ownerWrote Cls.h).persist ((cardOf ((s38g.heldList.headD (0, 0)).fst / 256) ((s38g.heldList.headD (0, 0)).fst % 256)).getD { idx := 0, n := 1, sub0 := 0, sub1 := 0, ty := Ty.u 1, acc := [], dflt := 0, pers := Pers.n, eff := Eff.i, rng := none, mask := none }) (s38g.heldList.headD (0, 0)).fst (s38g.heldList.headD (0, 0)).snd).isSome = true ∧ (s38g.heldList.headD (0, 0)).snd ≠ s38g.cfg (s38g.heldList.headD (0, 0)).fst) ∧
    (s38c.allows { } 0x6200 42 [1] = true ∧ s38c.captSet = [7] ∧ s38c.captOn 7 = true ∧ s38c.captStream = false ∧ 2 < 8 ∧
      (∀ (j : Nat), j < 8 → (s38c.capt.get j).busy = true ∨ (s38c.capt.get j).ready = true → (s38c.capt.get j).ch ≠ 7) ∧
      (∀ (j : Nat), j < 2 → (s38c.capt.get j).busy = true ∨ (s38c.capt.get j).ready = true) ∧
      (s38c.capt.get 2).busy = false ∧ (s38c.capt.get 2).ready = false) ∧
    (hoF.allows { cls := Cls.s } 0x1102 1 [0] = true ∧ hoF.dict.owner = some Cls.s ∧
      (∀ (e : Nat × Nat), e ∈ hoF.heldList →
      (hoF.ownerWrote Cls.s).crossOk ((hoF.ownerWrote Cls.s).view true) e.fst e.snd = true) ∧
      (hoF.ownerWrote Cls.s).persistAll hoF.heldList = none) ∧
    (s38d.allows { } 0x1102 1 [1] = true ∧ s38d.dict.owner.isSome = true) ∧
    (s38i.allows { } 0x1102 1 [0] = true ∧ s38i.dict.owner = some Cls.h ∧ (∃ e, e ∈ s38i.heldList ∧
      (s38i.ownerWrote Cls.h).crossOk ((s38i.ownerWrote Cls.h).view true) e.fst e.snd = false)) :=
  ⟨by decide +kernel,
   by decide +kernel,
   by decide +kernel,
   by decide +kernel,
   by decide +kernel,
   by decide +kernel,
   by decide +kernel,
   by decide +kernel,
   by decide +kernel,
   by decide +kernel,
   by decide +kernel,
   by decide +kernel,
   by decide +kernel,
   by decide +kernel,
   by decide +kernel⟩
theorem witness_DisplayRequests :
    (liveS.allows { } 0xA000 3 [1] = true ∧ liveS.disp.busy = false ∧ liveS.disp.restartAt = none ∧
      liveS.disp.dirty = false ∧ phases (liveS.wf liveS.disp.band) = 0) ∧
    (liveS.altersTo { } 0xA000 31 [5] = true ∧ liveS.disp.selv.wf = true ∧ 0 < 6) ∧
    (rqF.allows { } 0xA000 3 [3] = true ∧ (rqF.disp.busy = true ∨ rqF.disp.restartAt.isSome = true)) ∧
    (liveS.allows { } 0xA000 32 [0] = true ∧ (liveS.pwr.onVbat = true ∨ liveS.outageMode ≠ 2)) ∧
    (liveS.altersTo { } 0xA000 31 [5] = true ∧ liveS.disp.selv.wf = true ∧ (0 < 2 ∨ 7 < 0)) ∧
    (rqF.allows { } 0xA000 3 [1] = true ∧ (rqF.disp.busy = true ∨ rqF.disp.restartAt.isSome = true)) ∧
    (rqF.allows { } 0xA000 3 [2] = true ∧
      (rqF.disp.busy = true ∨ rqF.disp.restartAt.isSome = true ∨ rqF.clearable = false)) ∧
    (rqF.allows { } 0xA000 2 (le 11 77) = true ∧
      (bit (rqF.cfg oDispOptions) 0 = false ∨ ofLe (le 11 77) % 2 ^ 88 = rqF.disp.shown)) ∧
    (liveS.allows { } 0xA000 3 [3] = true ∧ liveS.disp.busy = false ∧ liveS.disp.restartAt = none ∧
      liveS.mainAbove (liveS.cfg oDcLimit / 2) = false) ∧
    (s39g.allows { } 0xA000 32 [1] = true ∧ s39g.pwr.onVbat = false ∧ s39g.outageMode = 2 ∧ ofLe [1] ≠ 0 ∧
      s39g.disp.selv.wf = true) ∧
    (s39g.allows { } 0xA000 32 [0] = true ∧ s39g.pwr.onVbat = false ∧ s39g.outageMode = 2 ∧ ofLe [0] = 0) ∧
    (s39c.allows { } 0xA000 3 [2] = true ∧ s39c.disp.busy = false ∧ s39c.disp.restartAt = none ∧ s39c.clearable = true ∧
      phases (s39c.wf s39c.disp.band) ≠ 0 ∧ s39c.disp.pumps = false) ∧
    (s39a.allows { } 0xA000 3 [1] = true ∧ s39a.disp.busy = false ∧ s39a.disp.restartAt = none ∧ s39a.disp.dirty = false ∧
      phases (s39a.wf s39a.disp.band) ≠ 0 ∧ s39a.disp.pumps = false) ∧
    (s39f.allows { } 0xA000 2 (le 11 99) = true ∧ bit (s39f.cfg oDispOptions) 0 = true ∧
      ofLe (le 11 99) % 2 ^ 88 ≠ s39f.disp.shown ∧ s39f.disp.busy = true) :=
  ⟨by decide +kernel,
   by decide +kernel,
   by decide +kernel,
   by decide +kernel,
   by decide +kernel,
   by decide +kernel,
   by decide +kernel,
   by decide +kernel,
   by decide +kernel,
   by decide +kernel,
   by decide +kernel,
   by decide +kernel,
   by decide +kernel,
   by decide +kernel⟩
theorem witness_DisplayFrames :
    (liveS.disp.st ≠ DispSt.pumpUp) ∧
    (s40b.disp.st = DispSt.pumpUp ∧ 0 < s40b.cfg oBalPulseMs ∧ 0 < s40b.cfg oBalMaxFrames ∧ (∃ i, i < 88 ∧
      s40b.cfg oDcLimit < (s40b.disp.balance.get i).natAbs)) ∧
    ((slS.disp.selv.get 1).run = some (false, true) ∧ (slS.disp.selv.get 1).bal = 0 ∧
      (slS.disp.selv.get 1).frame + 1 < phases (slS.disp.selv.get 1).table) ∧
    ((slS.disp.selv.get 2).run = some (false, true) ∧ (slS.disp.selv.get 2).bal = 0 ∧
      phases (slS.disp.selv.get 2).table ≤ (slS.disp.selv.get 2).frame + 1 ∧ (slS.disp.selv.get 2).clear ≤ 1 ∧
      (slS.disp.selv.get 2).target = true ∧ slS.disp.selv.wf = true) ∧
    (liveS.disp.st ≠ DispSt.hold) ∧
    (s40d.disp.st = DispSt.balancing ∧ s40d.dict.shadow = []) ∧
    ((liveS.disp.st ≠ DispSt.discharging ∨ liveS.disp.offStep ≠ 2)) ∧
    (s40f.disp.st = DispSt.waveform ∧ s40f.dict.shadow = [] ∧ s40f.disp.work = DispWork.update ∧
      phases s40f.disp.table ≤ s40f.disp.frame + 1 ∧ s40f.disp.offStep ≠ 1 ∧ s40f.disp.pendOff = false ∧
      s40f.disp.pendClear = false ∧ s40f.disp.pendUpdate = false) ∧
    ((liveS.disp.pendBal = false ∨ liveS.disp.busy = true ∨ liveS.disp.dirty = true)) ∧
    (s40g.disp.st = DispSt.waveform ∧ s40g.dict.shadow = [] ∧ s40g.disp.work = DispWork.update ∧
      s40g.disp.frame + 1 < phases s40g.disp.table) ∧
    (s40i.disp.busy = false ∧ phases (s40i.wf s40i.disp.band) ≠ 0 ∧ s40i.disp.pumps = false ∧ s40i.disp.pendBal = true ∧
      s40i.disp.dirty = false) ∧
    ((liveS.disp.st ≠ DispSt.balancing ∧ liveS.disp.st ≠ DispSt.waveform ∧ liveS.disp.st ≠ DispSt.clearing)) ∧
    (s40j.disp.busy = false ∧ phases (s40j.wf s40j.disp.band) ≠ 0 ∧ s40j.disp.pumps = false ∧
      (s40j.disp.clearDue = true ∨ s40j.disp.pendClear = true) ∧ s40j.clearable = true) ∧
    ((liveS.disp.clearDue = false ∧ liveS.disp.pendClear = false ∨ liveS.clearable = false ∨ liveS.disp.busy = true)) ∧
    (((slS.disp.selv.get 1).run.isSome = true ∨ (slS.disp.selv.get 1).clear = 0 ∧
      (slS.disp.selv.get 1).target = (slS.disp.selv.get 1).shown)) ∧
    ((s40m.disp.selv.get 0).run = none ∧ (s40m.disp.selv.get 0).clear = 0 ∧
      (s40m.disp.selv.get 0).target ≠ (s40m.disp.selv.get 0).shown ∧ phases (s40m.wf s40m.disp.band) ≠ 0) ∧
    (s40h.disp.st = DispSt.hold) ∧
    (s40l.disp.st = DispSt.discharging ∧ s40l.disp.offStep = 2) ∧
    (s40a.disp.st = DispSt.pumpUp ∧ (∀ (i : Nat), i < 88 → (s40a.disp.balance.get i).natAbs ≤ s40a.cfg oDcLimit)) :=
  ⟨by decide +kernel,
   by decide +kernel,
   by decide +kernel,
   by decide +kernel,
   by decide +kernel,
   by decide +kernel,
   by decide +kernel,
   by decide +kernel,
   by decide +kernel,
   by decide +kernel,
   by decide +kernel,
   by decide +kernel,
   by decide +kernel,
   by decide +kernel,
   by decide +kernel,
   by decide +kernel,
   by decide +kernel,
   by decide +kernel,
   by decide +kernel⟩
theorem witness_UpdateRequests :
    (liveS.allows { } 0xD000 2 [8] = true ∧ liveS.upd.st ≠ UpdSt.trial) ∧
    (liveS.allows { } 0xD000 7 [0] = true ∧ liveS.upd.st ≠ UpdSt.trial) ∧
    (liveS.allows { } 0xD000 2 [4] = true ∧ liveS.upd.st ≠ UpdSt.staged) ∧
    (liveS.allows { } 0xD000 2 [3] = true ∧ liveS.cfg oUpdActivateAt < liveS.now + 2048) ∧
    (liveS.allows { } 0xD000 2 [6] = true ∧ (liveS.upd.st ≠ UpdSt.receiving ∧ liveS.upd.st ≠ UpdSt.staged ∧
      liveS.upd.st ≠ UpdSt.armed)) ∧
    (liveS.allows { } 0xD000 3 (le 4 255 ++ [1]) = true ∧
      (liveS.upd.st ≠ UpdSt.receiving ∨ fld (le 4 255 ++ [1]) 0 4 % 256 ≠ 0 ∨
      786432 < fld (le 4 255 ++ [1]) 0 4 + (List.drop 4 (le 4 255 ++ [1])).length)) ∧
    (s41x.allows { } 0xD000 2 [8] = true ∧ s41x.upd.st = UpdSt.trial) ∧
    (s41r.allows { } 0xD000 2 [4] = true ∧ s41r.upd.st = UpdSt.staged ∧
      (s41r.storePut false oUpdActivateAt s41r.activateSoon 6).isSome = true ∧ s41r.dict.active.wf = true) ∧
    (upT.allows { } 0xD000 7 [1] = true ∧ upT.upd.st = UpdSt.trial ∧ ofLe [1] ≠ 0 ∧ upT.upd.switched = true ∧
      (upT.upd.billSeen = true ∨ upT.billsSeen = true)) ∧
    (upT.allows { } 0xD000 7 [0] = true ∧ upT.upd.st = UpdSt.trial ∧ ofLe [0] = 0) ∧
    (s41g.allows { } 0xD000 3 (le 4 0 ++ [1, 2, 3]) = true ∧ s41g.upd.st = UpdSt.receiving ∧
      fld (le 4 0 ++ [1, 2, 3]) 0 4 % 256 = 0 ∧
      fld (le 4 0 ++ [1, 2, 3]) 0 4 + (List.drop 4 (le 4 0 ++ [1, 2, 3])).length ≤ 786432 ∧ s41g.memWf = true ∧
      0 < (List.drop 4 (le 4 0 ++ [1, 2, 3])).length) ∧
    (s41t.allows { } 0xD000 2 [6] = true ∧
      (s41t.upd.st = UpdSt.receiving ∨ s41t.upd.st = UpdSt.staged ∨ s41t.upd.st = UpdSt.armed) ∧ s41t.memWf = true ∧
      slotBase s41t.freeSlot ≤ 786432 ∧ 786432 < slotBase s41t.freeSlot + 256) ∧
    (liveS.allows { } 0xD000 2 [1] = true ∧
      (liveS.upd.st = UpdSt.idle ∨ liveS.upd.st = UpdSt.staged ∨ liveS.upd.st = UpdSt.rejected ∨
      liveS.upd.st = UpdSt.fallenBack) ∧ liveS.memWf = true ∧
      (5 < slotBase liveS.freeSlot ∨ slotBase liveS.freeSlot + 256 ≤ 5)) ∧
    (liveS.allows { } 0xD000 2 [1] = true ∧
      (liveS.upd.st = UpdSt.idle ∨ liveS.upd.st = UpdSt.staged ∨ liveS.upd.st = UpdSt.rejected ∨
      liveS.upd.st = UpdSt.fallenBack) ∧ liveS.memWf = true ∧ slotBase liveS.freeSlot ≤ 786432 ∧
      786432 < slotBase liveS.freeSlot + 256) ∧
    (s41g.allows { } 0xD000 3 (le 4 0 ++ [1, 2, 3]) = true ∧ s41g.upd.st = UpdSt.receiving ∧
      fld (le 4 0 ++ [1, 2, 3]) 0 4 % 256 = 0 ∧
      fld (le 4 0 ++ [1, 2, 3]) 0 4 + (List.drop 4 (le 4 0 ++ [1, 2, 3])).length ≤ 786432 ∧ s41g.memWf = true ∧
      (0 < slotBase s41g.freeSlot + fld (le 4 0 ++ [1, 2, 3]) 0 4 ∨
      (slotBase s41g.freeSlot + fld (le 4 0 ++ [1, 2, 3]) 0 4 + (List.drop 4 (le 4 0 ++ [1, 2, 3])).length + 255) / 256 * 256 ≤ 0)) ∧
    (s41o.now + 2048 ≤ s41o.cfg oUpdActivateAt ∧ s41o.allows { } 0xD000 2 [{ toFin := 3 }] = true ∧
      s41o.upd.st ≠ UpdSt.staged) ∧
    (s41k.allows { } 0xD000 2 [{ toFin := 7 }] = true ∧ s41k.upd.st = UpdSt.fallenBack) ∧
    (s41i.allows { } 0xD000 2 [{ toFin := 2 }] = true ∧ s41i.upd.st = UpdSt.receiving) ∧
    (s41m.allows { } 0xD000 2 [{ toFin := 5 }] = true ∧ s41m.upd.st = UpdSt.armed) ∧
    (s41c.allows { } 0xD000 2 [1] = true ∧ (s41c.upd.st = UpdSt.activating ∨ s41c.upd.st = UpdSt.trial)) ∧
    (s41z.allows { } 0xD000 7 [1] = true ∧ s41z.upd.st = UpdSt.trial ∧ ofLe [1] ≠ 0 ∧ s41z.upd.switched = false) ∧
    (s41e.allows { } 0xD000 2 [1] = true ∧
      (s41e.upd.st = UpdSt.receiving ∨ s41e.upd.st = UpdSt.verifying ∨ s41e.upd.st = UpdSt.armed)) ∧
    (s41p.now + 2048 ≤ s41p.cfg oUpdActivateAt ∧ s41p.allows { } 0xD000 2 [{ toFin := 3 }] = true ∧
      s41p.upd.st = UpdSt.staged) ∧
    (s41l.allows { } 0xD000 2 [{ toFin := 7 }] = true ∧ s41l.upd.st ≠ UpdSt.fallenBack) ∧
    (s41j.allows { } 0xD000 2 [{ toFin := 2 }] = true ∧ s41j.upd.st ≠ UpdSt.receiving) ∧
    (s41n.allows { } 0xD000 2 [{ toFin := 5 }] = true ∧ s41n.upd.st ≠ UpdSt.armed) :=
  ⟨by decide +kernel,
   by decide +kernel,
   by decide +kernel,
   by decide +kernel,
   by decide +kernel,
   by decide +kernel,
   by decide +kernel,
   by decide +kernel,
   by decide +kernel,
   by decide +kernel,
   by decide +kernel,
   by decide +kernel,
   by decide +kernel,
   by decide +kernel,
   by decide +kernel,
   by decide +kernel,
   by decide +kernel,
   by decide +kernel,
   by decide +kernel,
   by decide +kernel,
   by decide +kernel,
   by decide +kernel,
   by decide +kernel,
   by decide +kernel,
   by decide +kernel,
   by decide +kernel⟩
theorem witness_UpdateEvents :
    (s42e.powered = true ∧ s42e.upd.st = UpdSt.armed ∧ s42e.cfg oUpdActivateAt ≤ s42e.now ∧ s42e.isl.control = none ∧
      s42e.pwr.metering = true) ∧
    (s42i.powered = true ∧ s42i.upd.st = UpdSt.trial ∧ s42i.upd.noDeadline = false ∧ s42i.upd.boot.deadline ≤ s42i.now) ∧
    ((offS.powered = false ∨ offS.upd.st ≠ UpdSt.verifying)) ∧
    ((offS.powered = false ∨ offS.upd.st ≠ UpdSt.trial ∨ offS.upd.noDeadline = true ∨ offS.now < offS.upd.boot.deadline)) ∧
    ((offS.powered = false ∨ offS.upd.st ≠ UpdSt.armed ∨ offS.now < offS.cfg oUpdActivateAt ∨
      offS.isl.control.isSome = true ∨ offS.pwr.metering = false)) ∧
    ((offS.powered = false ∨ (offS.groups.get 0).running = false ∨ offS.upd.tsw = none ∨
      (offS.groups.get 0).switched = true ∨ (offS.groups.get 0).table = [])) ∧
    (s42a.powered = true ∧ s42a.upd.st = UpdSt.verifying) ∧
    (s42f.powered = true ∧ (s42f.groups.get 0).running = true ∧ s42f.upd.tsw = some (s42f.upd.tsw.getD 0) ∧
      (s42f.groups.get 0).switched = false ∧
      (s42f.groups.get 0).table = (s42f.groups.get 0).table.headD { } :: (s42f.groups.get 0).table.tail ∧
      s42f.upd.tsw.getD 0 ≤ s42f.stampOf ((s42f.groups.get 0).table.headD { }).pos ∧ 1 ≠ 0) ∧
    (s42g.powered = true ∧ (s42g.groups.get 0).running = true ∧ s42g.upd.tsw = some (s42g.upd.tsw.getD 0) ∧
      (s42g.groups.get 0).switched = false ∧
      (s42g.groups.get 0).table = (s42g.groups.get 0).table.headD { } :: (s42g.groups.get 0).table.tail ∧
      s42g.stampOf ((s42g.groups.get 0).table.headD { }).pos < s42g.upd.tsw.getD 0) :=
  ⟨by decide +kernel,
   by decide +kernel,
   by decide +kernel,
   by decide +kernel,
   by decide +kernel,
   by decide +kernel,
   by decide +kernel,
   by decide +kernel,
   by decide +kernel⟩
theorem witness_EventsReachTheRingOrTheBootBuffer :
    (0 < 64 ∧ liveS.evt.count.wf = true ∧ liveS.pwr.metering = true ∧
      (bit (liveS.cfg oEventRingMask) 0 = true ∨ 0 = 8 ∨ 0 = 14) ∧ liveS.consumers 4 ≠ [] ∧ 1 ≤ liveS.ringFree 4) ∧
    (0 < 64 ∧ offS.evt.count.wf = true ∧ offS.pwr.metering = false ∧ offS.evt.boot.length < 64) ∧
    (0 < 64 ∧ s49b.evt.count.wf = true ∧ s49b.pwr.metering = false ∧ 64 ≤ s49b.evt.boot.length) ∧
    (0 < 64 ∧ offS.evt.count.wf = true ∧ 1 ≠ 0) ∧
    (0 < 64 ∧ s49c.evt.count.wf = true ∧ s49c.pwr.metering = true ∧ bit (s49c.cfg oEventRingMask) 0 = false ∧ 0 ≠ 8 ∧
      0 ≠ 14) ∧
    (0 < 64 ∧ s49a.evt.count.wf = true ∧ s49a.pwr.metering = true ∧
      (bit (s49a.cfg oEventRingMask) 0 = true ∨ 0 = 8 ∨ 0 = 14) ∧ s49a.consumers 4 ≠ [] ∧ s49a.ringFree 4 = 0) :=
  ⟨by decide +kernel,
   by decide +kernel,
   by decide +kernel,
   by decide +kernel,
   by decide +kernel,
   by decide +kernel⟩
theorem witness_NvmBytesReadBack :
    (offS.memWf = true ∧ 0 < [255, 7].length) ∧
    (offS.memWf = true ∧ 786432 ≤ 786432 ∧ (786432 < 0 ∨ 0 + ([] : Bytes).length ≤ 786432)) ∧
    (offS.memWf = true ∧ (0 / 256 < 0 / 256 ∨ (0 + ([] : Bytes).length + 255) / 256 ≤ 0 / 256)) :=
  ⟨by decide +kernel,
   by decide +kernel,
   by decide +kernel⟩
theorem witness_MarkClearWaitsForItsDetections :
    (liveS.allows { } 0x8000 40 [1] = true ∧ ofLe [1] ≠ 0 ∧ liveS.markActive = false) ∧
    (rqF.allows { } 0x8000 40 [0] = true ∧ ofLe [0] = 0) ∧
    (rqF.allows { } 0x8000 40 [1] = true ∧ ofLe [1] ≠ 0 ∧ rqF.markActive = true) :=
  ⟨by decide +kernel,
   by decide +kernel,
   by decide +kernel⟩

theorem witness_StepTakesFrontCommand : ({ restS with pending := [.supplyGood, .idcode] }).pending = .supplyGood :: [.idcode] := rfl
theorem witness_EmptyQueueTicks : restS.pending = [] := rfl
theorem witness_EveryStepGoesOnAndKeeps : restS.memWf = true := by decide +kernel
theorem witness_OnlyLcCommandChangesTheLifeCycle :
    ∃ t, exec (.keyReturn { cls := .s } (List.replicate 16 8)) liveS = .next t ∧ t.life.keyReturn ≠ liveS.life.keyReturn :=
  ⟨_, rfl, by decide +kernel⟩
theorem witness_RefusedWriteChangesNothing :
    liveS.serves {} 2 0x1000 1 [1] = true ∧ liveS.tamper.restartDue = none ∧
    ∃ t, exec (.write {} 0x1000 1 [1]) liveS = .next t ∧ t.ans.status ≠ stOk ∧ t.ans.status ≠ stPending :=
  ⟨by decide +kernel, rfl, _, rfl, by decide +kernel⟩
theorem witness_StoppedBlockTakesWritesAtOnce :
    (liveS.allows {} 0x3000 4 [1] = true ∧ cardOf 0x3000 4 = some (cd 0x3000 4) ∧ (cd 0x3000 4).eff = .y ∧
      liveS.holds .h = false ∧ KMap.wf liveS.dict.active = true ∧ (liveS.ownerWrote .h).crossed .h (okey 0x3000 4) 1 = true ∧
      ((liveS.ownerWrote .h).persist (cd 0x3000 4) (okey 0x3000 4) 1).map (fun p => p.blockStopped (okey 0x3000 4) 1) =
        some true) ∧
    (liveS.allows { cls := .s } 0xA000 6 (le 36 1) = true ∧ cardOf 0xA000 6 = some (cd 0xA000 6) ∧ (cd 0xA000 6).eff = .f ∧
      (liveS.ownerWrote .s).crossed .s (okey 0xA000 6) 1 = true ∧
      ((liveS.ownerWrote .s).persist (cd 0xA000 6) (okey 0xA000 6) 1).map (fun p => p.blockStopped (okey 0xA000 6) 1) =
        some true) :=
  ⟨by decide +kernel, by decide +kernel⟩
def thS : State := puts liveS [(oThHighPpm 3, 100000), (oThLowPpm 3, 80000)]
theorem witness_ThresholdsKeepTheirDistance :
    (thS.allows {} (0x3200 + 3) 4 (le 4 99999) = true ∧
      ((thS.view (thS.holds .h)).setCfg (okey (0x3200 + 3) 4) 99999).cfg (oThHighPpm 3) <
        ((thS.view (thS.holds .h)).setCfg (okey (0x3200 + 3) 4) 99999).cfg (oThLowPpm 3) +
          2 * ((thS.view (thS.holds .h)).setCfg (okey (0x3200 + 3) 4) 99999).cfg (oThHystPpm 3)) ∧
    (thS.allows {} (0x3200 + 3) 5 (le 4 80001) = true ∧
      ((thS.view (thS.holds .h)).setCfg (okey (0x3200 + 3) 5) 80001).cfg (oThHighPpm 3) = 100000 ∧
      ((thS.view (thS.holds .h)).setCfg (okey (0x3200 + 3) 5) 80001).cfg (oThHystPpm 3) = 10000) ∧
    thS.allows {} (0x3200 + 3) 6 (le 4 10001) = true :=
  ⟨by decide +kernel, by decide +kernel, by decide +kernel⟩
def fbS : State := { liveS with upd := { liveS.upd with st := .fallenBack } }
theorem witness_FallenBackImageStaysBack :
    fbS.upd.st = .fallenBack ∧ fbS.allows {} 0xD000 2 [3] = true ∧ fbS.allows {} 0xD000 2 [4] = true ∧
    fbS.allows {} 0xD000 2 [7] = true ∧ fbS.allows {} 0xD000 2 [1] = true ∧
    (let s := { liveS with upd := { liveS.upd with st := .verifying, rearm := true } }
     s.powered = true ∧ s.upd.st = .verifying ∧ s.upd.rearm = true) := by decide +kernel

end Sys2Proof.Tests
end

section
/-! PROOFS. A refused WRITE leaves the dictionary's values and both stores as they were (R45): the relation of a meaning that
either accepts its write or leaves all of that alone, its rules, and one lemma for each meaning of an object's write. -/
namespace Sys2Proof.Machine

/-- What a refused write leaves as it was: the active values, every waiting value and the records of both stores (R45), and
with them the port objects that wait for an answer and the restart that is due, on which the end of the request turns. -/
structure Untouched (s t : State) : Prop where
  active : t.dict.active = s.dict.active
  shadow : t.dict.shadow = s.dict.shadow
  held   : t.dict.held = s.dict.held
  next   : t.dict.nextStart = s.dict.nextStart
  cfg    : t.nvm.cfg.recs = s.nvm.cfg.recs
  cal    : t.nvm.cal.recs = s.nvm.cal.recs
  fWait  : t.ports.fWait = s.ports.fWait
  due    : t.tamper.restartDue = s.tamper.restartDue

/-- A write of a state that ends in another one is answered OK or PENDING, or leaves everything untouched. -/
inductive RefusalKeeps (s t : State) : Prop where
  | ok (h : t.ans.status = stOk)
  | pending (h : t.ans.status = stPending)
  | refused (h : Untouched s t)

section
variable {s t u : State} {m : Nat}

theorem Untouched.refl (s : State) : Untouched s s := ⟨rfl, rfl, rfl, rfl, rfl, rfl, rfl, rfl⟩

theorem Untouched.trans (h : Untouched s t) (k : Untouched t u) : Untouched s u :=
  ⟨k.active.trans h.active, k.shadow.trans h.shadow, k.held.trans h.held, k.next.trans h.next, k.cfg.trans h.cfg,
   k.cal.trans h.cal, k.fWait.trans h.fWait, k.due.trans h.due⟩

/-- Two masks without a common bit. -/
theorem testBit_of_disjoint {m k i : Nat} (h : m &&& k = 0) (hi : k.testBit i = true) : m.testBit i = false := by
  have e := congrArg (Nat.testBit · i) h
  simpa only [Nat.testBit_and, hi, Bool.and_true, Nat.zero_testBit] using e

/-- An operation outside the dictionary, the NVM island and the ports that leaves the restart that is due alone. -/
theorem Untouched.of_only_due (h : Only m s t) (hm : m &&& 0x1200001 = 0) (hd : t.tamper.restartDue = s.tamper.restartDue) :
    Untouched s t := by
  have dict := h.dict (testBit_of_disjoint hm rfl)
  have nvm := h.nvm (testBit_of_disjoint hm rfl)
  have ports := h.ports (testBit_of_disjoint hm rfl)
  exact ⟨by rw [dict], by rw [dict], by rw [dict], by rw [dict], by rw [nvm], by rw [nvm], by rw [ports], hd⟩

/-- An operation outside the dictionary, the NVM island, the ports and the tamper unit. -/
theorem Untouched.of_only (h : Only m s t) (hm : m &&& 0x5200001 = 0) : Untouched s t := by
  have k : m &&& 0x1200001 = 0 := by
    rw [show 0x1200001 = 0x5200001 &&& 0x1200001 from rfl, ← Nat.and_assoc, hm, Nat.zero_and]
  exact .of_only_due h k (by rw [h.tamper (testBit_of_disjoint hm rfl)])

theorem Untouched.answer (h : Untouched s t) (n : Nat) : Untouched s (t.answer n) :=
  ⟨h.active, h.shadow, h.held, h.next, h.cfg, h.cal, h.fWait, h.due⟩

theorem Untouched.answerRetry (h : Untouched s t) (n ms : Nat) : Untouched s (t.answerRetry n ms) :=
  ⟨h.active, h.shadow, h.held, h.next, h.cfg, h.cal, h.fWait, h.due⟩

/-- A store that remembers a refusal keeps its records. -/
theorem Untouched.storeRefused (s : State) (cal : Bool) : Untouched s (s.storeRefused cal) := by
  cases cal <;> exact ⟨rfl, rfl, rfl, rfl, rfl, rfl, rfl, rfl⟩

/-- The delivery of an answer. -/
theorem Delivered.untouched (h : Delivered s t) : Untouched s t := by
  rw [h]
  exact ⟨rfl, rfl, rfl, rfl, rfl, rfl, rfl, rfl⟩

@[simp] theorem State.keepAns_ans (s : State) (f : State → State) : (s.keepAns f).ans = s.ans := rfl

theorem RefusalKeeps.accepted (s t : State) : RefusalKeeps s (t.answer stOk) := .ok rfl

/-- What a command does behind its answer OK. -/
theorem RefusalKeeps.acceptedThen (s t : State) (f : State → State) : RefusalKeeps s ((t.answer stOk).keepAns f) := .ok rfl

theorem RefusalKeeps.answer (s : State) (n : Nat) : RefusalKeeps s (s.answer n) := .refused (.answer (.refl s) n)

theorem RefusalKeeps.answerRetry (s : State) (n ms : Nat) : RefusalKeeps s (s.answerRetry n ms) :=
  .refused (.answerRetry (.refl s) n ms)

/-- A write behind a step that leaves everything untouched. -/
theorem RefusalKeeps.after (h : Untouched s t) (k : RefusalKeeps t u) : RefusalKeeps s u := by
  cases k with
  | ok k => exact .ok k
  | pending k => exact .pending k
  | refused k => exact .refused (h.trans k)

theorem RefusalKeeps.ite {c : Prop} [Decidable c] (h : RefusalKeeps s t) (k : RefusalKeeps s u) :
    RefusalKeeps s (if c then t else u) := by
  split
  · exact h
  · exact k

/-- What a refused write comes to. -/
theorem RefusalKeeps.untouched (h : RefusalKeeps s t) (ho : t.ans.status ≠ stOk) (hp : t.ans.status ≠ stPending) :
    Untouched s t := by
  cases h with
  | ok k => exact absurd k ho
  | pending k => exact absurd k hp
  | refused k => exact k

end

/-! ### A plain write (R33-R43) -/

section
variable {s : State} {q : Cls} {c : Card} {key v : Nat} {f : State → State}

theorem fullAnswer_untouched (s : State) (c : Card) : Untouched s (s.fullAnswer c) := .answer (.storeRefused s _) _

/-- A programmed value is answered OK or PENDING. -/
theorem shadowed_refusalKeeps {t : State} : RefusalKeeps s (t.shadowed key v) := by
  unfold State.shadowed
  exact .ite (.ok rfl) (.pending rfl)

theorem writeShadow_refusalKeeps : RefusalKeeps s (s.writeShadow c key v) := by
  unfold State.writeShadow
  refine .ite (.ok rfl) ?_
  cases s.persist c key v with
  | none => exact .refused (fullAnswer_untouched s c)
  | some t => exact .ite (.ok rfl) shadowed_refusalKeeps

theorem writeNext_refusalKeeps : RefusalKeeps s (s.writeNext c key v) := by
  unfold State.writeNext
  refine .ite (.ok rfl) ?_
  cases s.persist c key v with
  | none => exact .refused (fullAnswer_untouched s c)
  | some t => exact .ite (.ok rfl) (.pending rfl)

theorem writeNow_refusalKeeps : RefusalKeeps s (s.writeNow c key v) := by
  unfold State.writeNow
  refine .ite (.ok rfl) ?_
  cases s.persist c key v with
  | none => exact .refused (fullAnswer_untouched s c)
  | some t => exact .ok rfl

theorem writeHeld_refusalKeeps : RefusalKeeps s (s.writeHeld key v) := by
  unfold State.writeHeld
  exact .ite (.ok rfl) (.pending rfl)

theorem writePlain_refusalKeeps : RefusalKeeps s (s.writePlain q c key v) := by
  unfold State.writePlain
  refine .ite writeHeld_refusalKeeps (.ite (.answer s _) ?_)
  cases c.eff with
  | y => exact writeShadow_refusalKeeps
  | f => exact writeShadow_refusalKeeps
  | b => exact writeNext_refusalKeeps
  | i => exact writeNow_refusalKeeps
  | s => exact writeNow_refusalKeeps

/-- What a write does once it has been answered OK leaves that answer. -/
theorem writeThen_refusalKeeps (hf : ∀ u, (f u).ans = u.ans) : RefusalKeeps s (s.writeThen q c key v f) := by
  unfold State.writeThen
  dsimp only
  split
  case isTrue h => exact .ok (by rw [hf, h])
  case isFalse => exact writePlain_refusalKeeps

/-- What a write does once it has changed the active value leaves its answer OK. -/
theorem writeNew_refusalKeeps (hf : ∀ u, (f u).ans = u.ans) : RefusalKeeps s (s.writeNew q c key v f) := by
  unfold State.writeNew
  dsimp only
  split
  case isTrue h => exact .ok (by rw [hf, h.1])
  case isFalse => exact writePlain_refusalKeeps

end
end Sys2Proof.Machine
end

section
/-! PROOFS. One lemma for each meaning of an object's write, in the order of the index map: a refusal leaves everything R45
speaks of untouched. -/
namespace Sys2Proof.Machine

variable {s : State} {q : Cls} {c : Card} {key v : Nat} {b : Bytes}

/-! ### The device, its ports and its relays -/

theorem writeHold_refusalKeeps : RefusalKeeps s (s.writeHold q v) := by
  unfold State.writeHold State.holdOn State.holdOff
  refine .ite (.ite (.ok rfl) (.ok rfl)) (.ite (.ite (.answer s _) ?_) (.ok rfl))
  split
  · exact .answer s _
  · exact .ok rfl

theorem wRelayEnable_refusalKeeps : RefusalKeeps s (s.wRelayEnable q c v) :=
  writeNew_refusalKeeps fun u => by split <;> rfl

theorem wConsumers_refusalKeeps : RefusalKeeps s (s.wConsumers q c v) := by
  unfold State.wConsumers
  exact writeNew_refusalKeeps fun u =>
    (only_foldl (m := 8388608) (.refl _ u) fun t _ => State.consumersNew_only (.refl _ t) rfl).ans rfl

theorem writeBase_refusalKeeps : RefusalKeeps s (s.writeBase q c key v) := by
  unfold State.writeBase
  exact .ite (.ok rfl) <| .ite writeHold_refusalKeeps <| .ite (.ok rfl) <| .ite wRelayEnable_refusalKeeps <|
    .ite (.ok rfl) <| .ite wConsumers_refusalKeeps writePlain_refusalKeeps

/-! ### The front end -/

theorem wSubstitute_refusalKeeps {ch : Nat} : RefusalKeeps s (s.wSubstitute ch v) := by
  unfold State.wSubstitute
  refine .ite (.ok rfl) ?_
  split
  · exact .answerRetry s _ _
  · exact .ok rfl

theorem wThEnable_refusalKeeps {ch : Nat} : RefusalKeeps s (s.wThEnable q c ch v) := by
  unfold State.wThEnable
  exact writeNew_refusalKeeps fun u => State.keepAns_ans u _

theorem wHkRun_refusalKeeps : RefusalKeeps s (s.wHkRun q c v) :=
  writeNew_refusalKeeps fun u => by
    have only : ∀ {t : State}, Only 32 u t → t.ans = u.ans := fun h => h.ans rfl
    split
    · split
      · rfl
      · exact only (State.hkStop_only (.refl _ u) rfl)
    · split
      · rfl
      · split
        · exact only (State.hkStart_only (.refl _ u) rfl)
        · rfl

theorem writeFront_refusalKeeps : RefusalKeeps s (s.writeFront q c key v) := by
  unfold State.writeFront
  exact .ite wSubstitute_refusalKeeps <| .ite wThEnable_refusalKeeps <| .ite wHkRun_refusalKeeps <| .ite (.ok rfl)
    writePlain_refusalKeeps

/-! ### Accounts -/

theorem wHostDisconnect_refusalKeeps {a : Nat} : RefusalKeeps s (s.wHostDisconnect q c a v) :=
  writeNew_refusalKeeps fun u =>
    (only_ite (fun _ => State.queueOpen_only (.refl 524288 u) rfl) fun _ => State.sourceCleared_only (.refl 524288 u) rfl).ans rfl

/-- A transfer refused for its authentication or its counter is counted and raises EV43; no more. -/
theorem transferRefused_untouched (s : State) (a st : Nat) : Untouched s (s.transferRefused a st) :=
  .answer (.of_only (State.raise_only (m := 8912896) (State.setPrepay_only (.refl _ s) rfl) rfl) rfl) st

theorem wTransfer_refusalKeeps {a : Nat} : RefusalKeeps s (s.wTransfer a b) := by
  unfold State.wTransfer
  refine .ite (.answer s _) ?_
  split
  · exact .refused (transferRefused_untouched s a _)
  · refine .ite (.refused (transferRefused_untouched s a _)) <| .ite (.refused (transferRefused_untouched s a _)) <|
      .ite (.answer s _) (.ok ?_)
    have same : ∀ (t : State) (x n : Nat) (y : Bytes), ((t.raise x y).levels a n).ans = t.ans := fun t _ _ _ =>
      (State.levels_only (State.raise_only (Only.refl 11010048 t) rfl) rfl).ans rfl
    exact congrArg Answer.status (same _ _ _ _)

theorem wEcRequest_refusalKeeps {a : Nat} : RefusalKeeps s (s.wEcRequest a v) := by
  unfold State.wEcRequest
  exact .ite (.ok rfl) (.ite (.ok rfl) (.answer s _))

theorem wArm_refusalKeeps {a : Nat} : RefusalKeeps s (s.wArm a v) := by
  unfold State.wArm
  exact .ite (.ok rfl) (.ite (.ok rfl) (.answer s _))

theorem writePrepay_refusalKeeps : RefusalKeeps s (s.writePrepay q c key v b) := by
  unfold State.writePrepay
  exact .ite writePlain_refusalKeeps <| .ite wHostDisconnect_refusalKeeps <| .ite (.ok rfl) <| .ite wTransfer_refusalKeeps <|
    .ite wEcRequest_refusalKeeps <| .ite wArm_refusalKeeps writePlain_refusalKeeps

/-! ### Capture and engines -/

theorem wCapture_refusalKeeps : RefusalKeeps s (s.wCapture v) := by
  unfold State.wCapture
  exact .ite (.ok rfl) <| .ite (.ok rfl) <| .ite (.ok rfl) (.answer s _)

/-- Engines leave and enter service behind the answer of the plain write. -/
theorem wEngines_refusalKeeps : RefusalKeeps s (s.wEngines q c v) := by
  unfold State.wEngines
  exact writeNew_refusalKeeps fun u => State.keepAns_ans u _

theorem wClusters_refusalKeeps : RefusalKeeps s (s.wClusters q c v) := by
  unfold State.wClusters
  exact writeNew_refusalKeeps fun u => State.keepAns_ans u _

theorem writeEngines_refusalKeeps : RefusalKeeps s (s.writeEngines q c key v) := by
  unfold State.writeEngines State.wCaptFree
  exact .ite wCapture_refusalKeeps <| .ite (.ite (.ok rfl) (.answer s _)) <|
    .ite wEngines_refusalKeeps <| .ite wClusters_refusalKeeps writePlain_refusalKeeps

/-! ### Tamper, keys and calibration -/

theorem wTampInput_refusalKeeps : RefusalKeeps s (s.wTampInput q c key v) :=
  writeNew_refusalKeeps fun u => by split <;> rfl

theorem wMarkClear_refusalKeeps : RefusalKeeps s (s.wMarkClear v) := by
  unfold State.wMarkClear
  exact .ite (.ok rfl) <| .ite (.answer s _) (.ok rfl)

theorem wRelease_refusalKeeps : RefusalKeeps s (s.wRelease v) := by
  unfold State.wRelease
  exact .ite (.answer s _) <| .ite (.answer s _) (.ok rfl)

theorem wKeyWrapped_refusalKeeps : RefusalKeeps s (s.wKeyWrapped b) := by
  unfold State.wKeyWrapped
  split
  · exact .answer s _
  · split
    · exact .answer s _
    · exact .ite (.answer s _) <| .ite (.answer s _) (.ok rfl)

theorem wCsCommand_refusalKeeps : RefusalKeeps s (s.wCsCommand q v) := by
  have opened : ∀ compat, RefusalKeeps s (s.calOpen q compat) := fun compat => by
    unfold State.calOpen
    exact .ite (.answerRetry s _ _) (.ok rfl)
  have started : RefusalKeeps s s.stepStart := by
    unfold State.stepStart
    exact .ite (.answer s _) <| .ite (.answer s _) <| .ite (.answer s _) (.ok rfl)
  unfold State.wCsCommand
  exact .ite (opened false) <| .ite (opened true) <| .ite started <| .ite (.ok rfl) <| .ite (.ok rfl) (.answer s _)

theorem writeSecure_refusalKeeps : RefusalKeeps s (s.writeSecure q c key v b) := by
  unfold State.writeSecure State.wKeyReturn State.wKeyDevice
  exact .ite wTampInput_refusalKeeps <| .ite (writeNew_refusalKeeps fun _ => rfl) <| .ite (.ok rfl) <|
    .ite wMarkClear_refusalKeeps <| .ite wRelease_refusalKeeps <| .ite (.ite (.answer s _) (.ok rfl)) <|
    .ite (.ite (.answer s _) (.ok rfl)) <| .ite (.ok rfl) <| .ite wKeyWrapped_refusalKeeps <| .ite wCsCommand_refusalKeeps
    writePlain_refusalKeeps

/-! ### Display, pulses, snapshots and clears -/

theorem wDisp_refusalKeeps : RefusalKeeps s (s.wDisp v) := by
  unfold State.wDisp
  exact .ite (.ok rfl) <| .ite (.ok rfl) <| .ite (.ok rfl) (.answer s _)

theorem wImage_refusalKeeps : RefusalKeeps s (s.wImage v) := by
  unfold State.wImage
  exact .ite (.ok rfl) (.ok rfl)

theorem wOutage_refusalKeeps : RefusalKeeps s (s.wOutage v) := by
  unfold State.wOutage
  exact .ite (.answer s _) <| .ite (.ok rfl) (.ok rfl)

theorem wSelvedge_refusalKeeps : RefusalKeeps s (s.wSelvedge q c v) := by
  unfold State.wSelvedge
  exact writeNew_refusalKeeps fun u => State.keepAns_ans u _

theorem wFtrip_refusalKeeps {n : Nat} : RefusalKeeps s (s.wFtrip q c n v) :=
  writeThen_refusalKeeps fun _ => rfl

/-- The output is brought to the present time before its object is written. -/
theorem wPulse_refusalKeeps {n : Nat} : RefusalKeeps s (s.wPulse q c key n v) :=
  .after (.of_only (State.pulseRun_only (.refl 65536 s) rfl) rfl) <|
    writeNew_refusalKeeps fun u => (State.pulseNew_only (.refl 65536 u) rfl).ans rfl

theorem wAccClear_refusalKeeps : RefusalKeeps s (s.wAccClear q v) := by
  unfold State.wAccClear
  exact .ite (.answer s _) (.ok rfl)

theorem writeOutputs_refusalKeeps : RefusalKeeps s (s.writeOutputs q c key v) := by
  unfold State.writeOutputs State.wFtripState State.wSnap State.wMdReset
  exact .ite wDisp_refusalKeeps <| .ite wImage_refusalKeeps <| .ite wSelvedge_refusalKeeps <| .ite wOutage_refusalKeeps <|
    .ite wFtrip_refusalKeeps <| .ite (.accepted s _) <| .ite wPulse_refusalKeeps <| .ite wPulse_refusalKeeps <|
    .ite (.accepted s _) <| .ite (.accepted s _) <| .ite (.accepted s _) <| .ite wAccClear_refusalKeeps <|
    .ite (.accepted s _) writePlain_refusalKeeps

/-! ### Memory, updates and power -/

theorem wMarch_refusalKeeps : RefusalKeeps s (s.wMarch v) := by
  unfold State.wMarch
  refine .ite (.answer s _) (.ite (.ok rfl) ?_)
  split
  · exact .answerRetry s _ _
  · exact .ok rfl

theorem updBegin_refusalKeeps : RefusalKeeps s s.updBegin := by
  unfold State.updBegin
  cases s.upd.st with
  | idle | staged | rejected | fallenBack => exact .ok rfl
  | activating | trial => exact .answerRetry s _ _
  | receiving | verifying | armed => exact .answer s _

theorem updNow_refusalKeeps : RefusalKeeps s s.updNow := by
  unfold State.updNow
  dsimp only
  split
  · exact .refused (.answer (.storeRefused s false) _)
  · exact .ok rfl

theorem wUpd_refusalKeeps : RefusalKeeps s (s.wUpd v) := by
  unfold State.wUpd
  exact .ite updBegin_refusalKeeps <| .ite (.ok rfl) <| .ite (.ok rfl) <| .ite updNow_refusalKeeps <| .ite (.ok rfl) <|
    .ite (.ok rfl) <| .ite (.ok rfl) <| .ite (.ok rfl) (.answer s _)

theorem wChunk_refusalKeeps : RefusalKeeps s (s.wChunk b) := by
  unfold State.wChunk
  exact .ite (.answer s _) (.ok rfl)

theorem wConfirm_refusalKeeps : RefusalKeeps s (s.wConfirm v) := by
  unfold State.wConfirm
  exact .ite (.answer s _) <| .ite (.ok rfl) (.ok rfl)

theorem wPower_refusalKeeps : RefusalKeeps s (s.wPower v) := by
  unfold State.wPower
  exact .ite (.ok rfl) <| .ite (.ok rfl) <| .ite (.ok rfl) <| .ite (.ok rfl) <| .ite (.ok rfl) (.answer s _)

theorem writeDevice_refusalKeeps : RefusalKeeps s (s.writeDevice q c key v b) := by
  unfold State.writeDevice State.wSpread
  exact .ite wMarch_refusalKeeps <| .ite (.ok rfl) <| .ite (.ite (.ok rfl) (.answer s _)) <| .ite wUpd_refusalKeeps <|
    .ite wChunk_refusalKeeps <| .ite wConfirm_refusalKeeps <| .ite wPower_refusalKeeps <| .ite (.ok rfl) writePlain_refusalKeeps

/-- Whatever the object, its write is answered OK or PENDING or leaves everything untouched. -/
theorem writeBy_refusalKeeps : RefusalKeeps s (s.writeBy q c key v b) := by
  unfold State.writeBy
  exact .ite writeBase_refusalKeeps <| .ite writeFront_refusalKeeps <| .ite writePrepay_refusalKeeps <|
    .ite writeEngines_refusalKeeps <| .ite writeSecure_refusalKeeps <| .ite writeOutputs_refusalKeeps writeDevice_refusalKeeps

end Sys2Proof.Machine
end

section
/-! PROOFS. A refusal through the envelope of a request, the life-cycle command, and R45 over every WRITE. -/
namespace Sys2Proof.Machine

variable {s t : State} {r : Req} {op i j : Nat} {b : Bytes}

/-- The delivery of a request's answer leaves the answer. -/
theorem request_ans {f : State → State} (h : s.serves r op i j b = true) : (s.request r op i j b f).ans = (f s).ans := by
  unfold State.serves at h
  simp only [Bool.and_eq_true, Bool.not_eq_true'] at h
  obtain ⟨⟨here, -⟩, head⟩ := h
  unfold State.request
  cases e : s.headIs r op i j b with
  | none =>
    simp only [here, Bool.false_eq_true, if_false]
    exact (State.fAssign_only (.refl 29035289 (f s)) rfl).ans rfl
  | some x =>
    simp only [e, Bool.and_eq_true, Bool.not_eq_true'] at head
    simp only [here, head.1, head.2]
    exact (State.respondTo_only (.refl 29035289 (f s)) rfl).ans rfl

theorem request_refusalKeeps {f : State → State} (h : s.serves r op i j b = true) (hf : RefusalKeeps s (f s)) :
    RefusalKeeps s (s.request r op i j b f) := by
  cases hf with
  | ok k => exact .ok (by rw [request_ans h, k])
  | pending k => exact .pending (by rw [request_ans h, k])
  | refused k => exact .refused (k.trans (request_delivered h (k.fWait.trans (serves_fWait h))).untouched)

/-- A write refused by the checks of R44 changes at most the time of the session owner's last write. -/
theorem checked_refusalKeeps {f : State → Card → Nat → State} (hf : ∀ u c v, RefusalKeeps u (f u c v)) :
    RefusalKeeps s (s.checked r i j b f) := by
  have owner : Untouched s (s.ownerWrote r.cls) := .of_only (State.ownerWrote_only (.refl 1048576 s) rfl) rfl
  unfold State.checked
  split
  · exact .refused (owner.answerRetry _ _)
  · exact .after owner (hf _ _ _)

theorem pushEntry_restartDue (s : State) (e : LogEntry) : (s.pushEntry e).tamper.restartDue = s.tamper.restartDue := by
  unfold State.pushEntry
  rw [State.setTamper_tamper]
  split <;> rfl

/-- A detection whose one response is its log entry leaves the restart that is due. -/
theorem respond_log_restartDue (s : State) (code sev : Nat) (d : Bytes) :
    (s.respond code sev 1 d none []).tamper.restartDue = s.tamper.restartDue := by
  unfold State.respond
  simp only [show bit 1 0 = true from rfl, show bit 1 2 = false from rfl, show bit 1 3 = false from rfl,
    show bit 1 4 = false from rfl, Bool.not_true, Bool.false_eq_true, if_false, apply_ite State.tamper,
    apply_ite Tamper.restartDue, State.setTamper_tamper, pushEntry_restartDue, ite_self]

/-- An accepted life-cycle command is answered OK before its restart. -/
theorem lcChange_ans (s : State) (target : Nat) : (s.lcChange target).ans = { status := stOk } := by
  unfold State.lcChange
  exact (State.respond_only (.refl 378011648 (s.answer stOk)) rfl).ans rfl

theorem wLifeCycle_refusalKeeps : RefusalKeeps s (s.wLifeCycle b) := by
  have logged : ∀ d, Untouched s (s.respond 0x43 2 1 d none []) := fun d =>
    .of_only_due (State.respond_only (.refl 378011648 s) rfl) rfl (respond_log_restartDue s _ _ d)
  unfold State.wLifeCycle
  exact .ite (.answer s _) <| .ite (.answerRetry s _ _) <| .ite (.answer s _) <| .ite (.refused ((logged _).answer _)) <|
    .ite (.answer s _) (.ok (congrArg Answer.status (lcChange_ans s _)))

/-- Refused or accepted, an LC_COMMAND takes a new nonce (R384), which is nothing R45 speaks of. -/
theorem lcWrite_refusalKeeps : RefusalKeeps s (s.lcWrite r b) := by
  have k : RefusalKeeps s (s.checked r 0x8100 2 b (fun s _ _ => s.wLifeCycle b)) :=
    checked_refusalKeeps fun _ _ _ => wLifeCycle_refusalKeeps
  unfold State.lcWrite
  generalize s.checked r 0x8100 2 b (fun s _ _ => s.wLifeCycle b) = u at k
  refine .ite k ?_
  cases k with
  | ok k => exact .ok k
  | pending k => exact .pending k
  | refused k => exact .refused ⟨k.active, k.shadow, k.held, k.next, k.cfg, k.cal, k.fWait, k.due⟩

/-- The restart behind an LC_COMMAND leaves its answer; without a restart due, nothing follows a refusal. -/
theorem lcFinish_refusalKeeps (h : RefusalKeeps s t) (hd : s.tamper.restartDue = none) : RefusalKeeps s t.lcFinish := by
  have ans : t.lcFinish.ans = t.ans := (State.lcFinish_only (.refl 385612985 t) rfl).ans rfl
  cases h with
  | ok k => exact .ok (by rw [ans, k])
  | pending k => exact .pending (by rw [ans, k])
  | refused k =>
    have due : t.tamper.restartDue ≠ some 4 := by simp [k.due, hd]
    rw [State.lcFinish, if_neg due]
    exact .refused k

/-- A WRITE that is executed at once is answered OK or PENDING, or leaves everything untouched (R45). -/
theorem execWrite_refusalKeeps (h : s.serves r 2 i j b = true) (hd : s.tamper.restartDue = none)
    (e : execWrite r i j b s = .next t) : RefusalKeeps s t := by
  unfold execWrite at e
  obtain rfl := Host.Outcome.next.inj e
  exact .ite (lcFinish_refusalKeeps (request_refusalKeeps h lcWrite_refusalKeeps) hd)
    (request_refusalKeeps h (checked_refusalKeeps fun _ _ _ => writeBy_refusalKeeps))

end Sys2Proof.Machine

open Sys2Proof Sys2Proof.Machine

/-- Settles O51: every meaning of an object's write is answered OK or PENDING or leaves untouched what R45 speaks of, and the
request around it only delivers the answer. -/
theorem refusedWriteChangesNothing : Obligations.RefusedWriteChangesNothing := by
  unfold Obligations.RefusedWriteChangesNothing
  intro s t r i j b serves due e notOk notPending
  have k := (execWrite_refusalKeeps serves due e).untouched notOk notPending
  exact ⟨k.active, k.shadow, k.held, k.next, k.cfg, k.cal⟩
end

section
/-! PROOFS. The objects whose write has no meaning of its own: the dispatch of a WRITE by its record ends in the plain write for
them, and every object of effect Y or F is one of them. -/
namespace Sys2Proof.Machine

/-- The objects whose writes have a meaning of their own: first index, number of indices, first subindex, number of
subindices. -/
def ownMeanings : List (Nat × Nat × Nat × Nat) := [
  (0x1101, 1, 1, 1), (0x1102, 1, 1, 1), (0x2050, 1, 0x01, 1), (0x2050, 1, 0x0B, 1), (0x2100, 1, 1, 1), (0x2100, 1, 5, 1),
  (0x3000, 256, 6, 1), (0x3200, 256, 1, 1), (0x3300, 1, 7, 1), (0x3300, 1, 0x0B, 1),
  (0x4100, 240, 0x0B, 2), (0x4100, 240, 0x10, 1), (0x4100, 240, 0x12, 2),
  (0x6200, 1, 0x2A, 2), (0x7000, 1, 1, 1), (0x7000, 1, 3, 1),
  (0x8000, 1, 0x02, 9), (0x8000, 1, 0x27, 3), (0x8100, 1, 2, 1), (0x8100, 1, 4, 1), (0x8200, 1, 1, 0xF2), (0x9000, 1, 1, 1),
  (0xA000, 1, 2, 2), (0xA000, 1, 0x1F, 2), (0xB000, 1, 0x01, 0x10), (0xB000, 1, 0x21, 9), (0xB000, 1, 0x72, 3),
  (0xB000, 1, 0x78, 2),
  (0xC000, 1, 0x1A, 1), (0xC000, 1, 0x22, 1), (0xC000, 1, 0x2D, 1), (0xD000, 1, 2, 2), (0xD000, 1, 7, 1), (0xE000, 1, 2, 1),
  (0xF000, 1, 2, 1)]

/-- Whether the write of an object has a meaning of its own. -/
def hasMeaning (key : Nat) : Bool :=
  ownMeanings.any (fun x => within (key / 256) x.1 x.2.1 && within (key % 256) x.2.2.1 x.2.2.2)

section
variable {key k n : Nat} {s : State} {q : Cls} {c : Card} {v : Nat} {b : Bytes}

theorem ne_of_plain (h : hasMeaning key = false) (hk : hasMeaning k = true) : key ≠ k := by
  rintro rfl
  exact absurd h (by simp [hk])

/-- An object without a meaning of its own lies in none of their ranges. -/
theorem outside_of_plain (h : hasMeaning key = false) {i n j m : Nat} (hx : (i, n, j, m) ∈ ownMeanings) :
    ¬ ((i ≤ key / 256 ∧ key / 256 < i + n) ∧ j ≤ key % 256 ∧ key % 256 < j + m) := by
  simpa only [within, Bool.and_eq_true, decide_eq_true_eq] using List.any_eq_false.mp h _ hx

theorem writeBase_plain (h : hasMeaning key = false) : s.writeBase q c key v = s.writePlain q c key v := by
  have ne : ∀ {k}, hasMeaning k = true → key ≠ k := fun hk => ne_of_plain h hk
  unfold State.writeBase
  rw [if_neg (ne rfl), if_neg (ne rfl), if_neg (ne rfl), if_neg (ne rfl), if_neg (ne rfl), if_neg (ne rfl)]

theorem writeFront_plain (h : hasMeaning key = false) : s.writeFront q c key v = s.writePlain q c key v := by
  have ne : ∀ {k}, hasMeaning k = true → key ≠ k := fun hk => ne_of_plain h hk
  have substitute := outside_of_plain h (show (0x3000, 256, 6, 1) ∈ ownMeanings by decide)
  have enable := outside_of_plain h (show (0x3200, 256, 1, 1) ∈ ownMeanings by decide)
  unfold State.writeFront
  dsimp only
  rw [if_neg, if_neg, if_neg (ne rfl), if_neg (ne rfl)]
  all_goals
    simp only [within, Bool.and_eq_true, decide_eq_true_eq]
    omega

theorem writePrepay_plain (h : hasMeaning key = false) : s.writePrepay q c key v b = s.writePlain q c key v := by
  unfold State.writePrepay
  dsimp only
  by_cases hi : within (key / 256) 0x4100 240 = false
  · rw [if_pos hi]
  · have first := outside_of_plain h (show (0x4100, 240, 0x0B, 2) ∈ ownMeanings by decide)
    have transfer := outside_of_plain h (show (0x4100, 240, 0x10, 1) ∈ ownMeanings by decide)
    have last := outside_of_plain h (show (0x4100, 240, 0x12, 2) ∈ ownMeanings by decide)
    have account : 0x4100 ≤ key / 256 ∧ key / 256 < 0x4100 + 240 := by
      simpa only [within, Bool.not_eq_false, Bool.and_eq_true, decide_eq_true_eq] using hi
    rw [if_neg hi, if_neg, if_neg, if_neg, if_neg, if_neg]
    all_goals omega

theorem writeEngines_plain (h : hasMeaning key = false) : s.writeEngines q c key v = s.writePlain q c key v := by
  have ne : ∀ {k}, hasMeaning k = true → key ≠ k := fun hk => ne_of_plain h hk
  unfold State.writeEngines
  rw [if_neg (ne rfl), if_neg (ne rfl), if_neg (ne rfl), if_neg (ne rfl)]

theorem writeSecure_plain (h : hasMeaning key = false) : s.writeSecure q c key v b = s.writePlain q c key v := by
  have ne : ∀ {k}, hasMeaning k = true → key ≠ k := fun hk => ne_of_plain h hk
  have inputs := outside_of_plain h (show (0x8000, 1, 0x02, 9) ∈ ownMeanings by decide)
  have keys := outside_of_plain h (show (0x8200, 1, 1, 0xF2) ∈ ownMeanings by decide)
  unfold State.writeSecure
  rw [if_neg, if_neg (ne rfl), if_neg (ne rfl), if_neg (ne rfl), if_neg (ne rfl), if_neg (ne rfl), if_neg (ne rfl), if_neg,
    if_neg (ne rfl), if_neg (ne rfl)]
  · simp only [within, oKeyAccount, Bool.and_eq_true, decide_eq_true_eq]
    omega
  · simp only [within, oTampInputCfg, Bool.and_eq_true, decide_eq_true_eq]
    omega

theorem writeOutputs_plain (h : hasMeaning key = false) : s.writeOutputs q c key v = s.writePlain q c key v := by
  have ne : ∀ {k}, hasMeaning k = true → key ≠ k := fun hk => ne_of_plain h hk
  have pulses := outside_of_plain h (show (0xB000, 1, 0x01, 0x10) ∈ ownMeanings by decide)
  have pins := outside_of_plain h (show (0xB000, 1, 0x21, 9) ∈ ownMeanings by decide)
  unfold State.writeOutputs
  rw [if_neg (ne rfl), if_neg (ne rfl), if_neg (ne rfl), if_neg (ne rfl), if_neg, if_neg (ne rfl), if_neg, if_neg,
    if_neg (ne rfl), if_neg (ne rfl), if_neg (ne rfl), if_neg (ne rfl), if_neg (ne rfl)]
  all_goals
    simp only [within, oFtripAssign, oPulseConfig, oPulseConst, Bool.and_eq_true, decide_eq_true_eq]
    omega

theorem writeDevice_plain (h : hasMeaning key = false) : s.writeDevice q c key v b = s.writePlain q c key v := by
  have ne : ∀ {k}, hasMeaning k = true → key ≠ k := fun hk => ne_of_plain h hk
  unfold State.writeDevice
  rw [if_neg (ne rfl), if_neg (ne rfl), if_neg (ne rfl), if_neg (ne rfl), if_neg (ne rfl), if_neg (ne rfl), if_neg (ne rfl),
    if_neg (ne rfl)]

/-- The write of an object without a meaning of its own is the plain write. -/
theorem writeBy_plain (h : hasMeaning key = false) : s.writeBy q c key v b = s.writePlain q c key v := by
  unfold State.writeBy
  dsimp only
  rw [writeBase_plain h, writeFront_plain h, writePrepay_plain h, writeEngines_plain h, writeSecure_plain h, writeOutputs_plain h,
    writeDevice_plain h]
  simp only [ite_self]

end

/-- A card row lies apart from every object whose write has a meaning of its own, with subindices of one byte. -/
def liesApart (c : Card) : Bool :=
  decide (c.sub1 < 256) && ownMeanings.all (fun x =>
    decide (c.idx + c.n ≤ x.1) || decide (x.1 + x.2.1 ≤ c.idx) || decide (c.sub1 < x.2.2.1) || decide (x.2.2.1 + x.2.2.2 ≤ c.sub0))

/-- The rows of effects Y and F lie apart (Tables 2.7 to 18.6). -/
theorem shadowRows_lieApart : cards.all (fun c => (c.eff != .y && c.eff != .f) || liesApart c) = true := by
  decide +kernel

/-- The objects of a row that lies apart have no meaning of their own. -/
theorem hasMeaning_of_liesApart {c : Card} {i j : Nat} (h : liesApart c = true) (hc : c.holds i j = true) :
    hasMeaning (okey i j) = false := by
  simp only [liesApart, Bool.and_eq_true, decide_eq_true_eq, List.all_eq_true, Bool.or_eq_true] at h
  simp only [Card.holds, Bool.and_eq_true, decide_eq_true_eq] at hc
  have index : okey i j / 256 = i := by unfold okey; omega
  have subindex : okey i j % 256 = j := by unfold okey; omega
  refine List.any_eq_false.mpr fun x hx => ?_
  have apart := h.2 x hx
  simp only [index, subindex, within, Bool.and_eq_true, decide_eq_true_eq]
  omega

/-- An object of effect Y or F has no meaning of its own. -/
theorem hasMeaning_of_shadowed {c : Card} {i j : Nat} (h : cardOf i j = some c) (he : c.eff = .y ∨ c.eff = .f) :
    hasMeaning (okey i j) = false := by
  unfold cardOf at h
  have row := List.all_eq_true.mp shadowRows_lieApart c (List.mem_of_find?_eq_some h)
  have apart : liesApart c = true := by
    rcases he with he | he
    · simpa [he] using row
    · simpa [he] using row
  exact hasMeaning_of_liesApart apart (List.find?_some (p := fun d : Card => d.holds i j) h)

end Sys2Proof.Machine
end

section
/-! PROOFS. A value of effect Y or F of a stopped block becomes the active value with the write, answered OK (R36). -/
namespace Sys2Proof.Machine

section
variable {s t p : State} {c : Card} {key v : Nat}

/-- An active value depends on the table of active values alone. -/
theorem cfg_congr (h : t.dict.active = s.dict.active) (k : Nat) : t.cfg k = s.cfg k := by
  unfold State.cfg
  rw [h]

/-- An active value read back. -/
theorem cfg_setCfg_same (h : KMap.wf s.dict.active = true) : (s.setCfg key v).cfg key = v := by
  unfold State.cfg
  rw [State.setCfg_dict, KMap.get_set h, if_pos rfl]
  split
  case isTrue e => exact e.symm
  case isFalse => rfl

/-- What follows a change of an active value changes no active value. -/
theorem activate_cfg (h : KMap.wf s.dict.active = true) (pos : Option Nat) (next : Option W32) :
    (s.activate pos next key v).cfg key = v := by
  unfold State.activate
  dsimp only
  split
  case isTrue same => exact same
  case isFalse =>
    have dict := (State.activated_only (a1 := pos) (a2 := next) (a3 := key) (a4 := s.cfg key) (a5 := v)
      (.refl 12258072 (s.setCfg key v)) rfl).dict rfl
    exact (cfg_congr (by rw [dict]) key).trans (cfg_setCfg_same h)

theorem activateNow_cfg (h : KMap.wf s.dict.active = true) : (s.activateNow key v).cfg key = v := by
  have dict := (State.rehome_only (a1 := s) (.refl 1024 (s.activate none none key v)) rfl).dict rfl
  unfold State.activateNow
  exact (cfg_congr (by rw [dict]) key).trans (activate_cfg h _ _)

/-- Programming a record changes no active value. -/
theorem storePut_active {cal : Bool} {n : Nat} (h : s.storePut cal key v n = some p) : p.dict.active = s.dict.active := by
  unfold State.storePut at h
  dsimp only at h
  split at h
  · cases h
  · cases h
    rfl

theorem persist_active (h : s.persist c key v = some p) : p.dict.active = s.dict.active := by
  unfold State.persist at h
  split at h
  · exact storePut_active h
  · exact storePut_active h
  · cases h
    rfl

theorem Delivered.dict (h : Delivered s t) : t.dict = s.dict := by
  rw [h]

theorem Delivered.ans (h : Delivered s t) : t.ans = s.ans := by
  rw [h]

/-- What a write of a value comes to when it is active at once (R36): the value is in force, the answer is OK, and the ports
are as they were. -/
structure TakenAtOnce (s : State) (key v : Nat) (t : State) : Prop where
  cfg   : t.cfg key = v
  ans   : t.ans = { status := stOk }
  ports : t.ports = s.ports

theorem TakenAtOnce.answered (cfg : t.cfg key = v) (ports : t.ports = s.ports) : TakenAtOnce s key v (t.answer stOk) :=
  ⟨cfg, rfl, ports⟩

/-- A programmed value of a stopped block becomes active at once. -/
theorem shadowed_takenAtOnce (wf : KMap.wf s.dict.active = true) (stopped : s.blockStopped key v = true) :
    TakenAtOnce s key v (s.shadowed key v) := by
  unfold State.shadowed
  rw [if_pos stopped]
  exact .answered (activateNow_cfg (s := s.setShadow key none) wf)
    ((State.activateNow_only (.refl 12259097 (s.setShadow key none)) rfl).ports rfl)

theorem writeShadow_takenAtOnce (wf : KMap.wf s.dict.active = true) (taken : s.persist c key v = some p)
    (stopped : p.blockStopped key v = true) : TakenAtOnce s key v (s.writeShadow c key v) := by
  have active := persist_active taken
  have ports := (State.persist_only (.refl 2097153 s) rfl taken).ports rfl
  unfold State.writeShadow
  dsimp only
  split
  case isTrue same => exact .answered same.1.symm rfl
  case isFalse =>
    rw [taken]
    dsimp only
    split
    case isTrue same => exact .answered (t := p.setShadow key none) ((cfg_congr active key).trans same.symm) ports
    case isFalse =>
      have done := shadowed_takenAtOnce (by rwa [active]) stopped
      exact ⟨done.cfg, done.ans, done.ports.trans ports⟩

/-- Without a hold of its class, and past the checks, a plain write of effect Y or F is the write of a shadow. -/
theorem writePlain_of_shadow {q : Cls} (he : c.eff = .y ∨ c.eff = .f) (hold : s.holds q = false)
    (crossed : s.crossed q key v = true) : s.writePlain q c key v = s.writeShadow c key v := by
  unfold State.writePlain
  dsimp only
  rw [if_neg (by simp [hold]), if_neg (by simp [crossed])]
  rcases he with he | he
  · rw [he]
  · rw [he]

/-- The owner's note of its last write leaves the dictionary and the ports. -/
theorem ownerWrote_dict (s : State) (q : Cls) : (s.ownerWrote q).dict = s.dict :=
  (State.ownerWrote_only (.refl 1048576 s) rfl).dict rfl

theorem ownerWrote_ports (s : State) (q : Cls) : (s.ownerWrote q).ports = s.ports :=
  (State.ownerWrote_only (.refl 1048576 s) rfl).ports rfl

/-- An allowed write of an object that has no meaning of its own is its plain write, and then its answer is delivered. -/
theorem execWrite_plain {r : Req} {i j : Nat} {b : Bytes} (allowed : s.allows r i j b = true) (card : cardOf i j = some c)
    (plain : hasMeaning (okey i j) = false)
    (ports : ((s.ownerWrote r.cls).writePlain r.cls c (okey i j) (ofLe b)).ports.fWait = []) :
    ∃ t, execWrite r i j b s = .next t ∧ Delivered ((s.ownerWrote r.cls).writePlain r.cls c (okey i j) (ofLe b)) t := by
  have notLc : ¬ (i = 0x8100 ∧ j = 2) := by
    rintro ⟨rfl, rfl⟩
    exact absurd plain (by decide)
  have write : ∀ d, cardOf i j = some d →
      (s.ownerWrote r.cls).writeBy r.cls d (okey i j) (ofLe b) b = (s.ownerWrote r.cls).writePlain r.cls c (okey i j) (ofLe b) :=
    fun d hd => by rw [writeBy_plain plain, Option.some.inj (hd.symm.trans card)]
  obtain ⟨d, hd, delivered⟩ := writeReq_delivered (f := fun s c v => s.writeBy r.cls c (okey i j) v b) allowed
    (fun d hd => by rw [write d hd, ports])
  refine ⟨_, rfl, ?_⟩
  rw [if_neg notLc]
  rwa [write d hd] at delivered

end
end Sys2Proof.Machine

open Sys2Proof Sys2Proof.Machine

/-- Settles O52: an object of effect Y or F has no meaning of its own, so its write is the plain write, whose programmed value
becomes active at once when the block is stopped. -/
theorem stoppedBlockTakesWritesAtOnce : Obligations.StoppedBlockTakesWritesAtOnce := by
  unfold Obligations.StoppedBlockTakesWritesAtOnce
  rintro s u p r i j b c allowed card eff rfl hold wf crossed taken stopped
  have plain := hasMeaning_of_shadowed card eff
  have hold' : (s.ownerWrote r.cls).holds r.cls = false := by rwa [State.holds, ownerWrote_dict]
  have done := writeShadow_takenAtOnce (by rwa [ownerWrote_dict]) taken stopped
  rw [← writePlain_of_shadow eff hold' crossed] at done
  have allowed' := allowed
  rw [State.allows, Bool.and_eq_true] at allowed'
  have idle := serves_fWait allowed'.1
  obtain ⟨t, e, delivered⟩ := execWrite_plain allowed card plain (by rw [done.ports, ownerWrote_ports, idle])
  exact ⟨t, e, (cfg_congr (by rw [delivered.dict]) _).trans done.cfg, delivered.ans.trans done.ans⟩
end

section
/-! PROOFS. A write that would bring the two thresholds of a channel too close fails step 9 of Table 2.4 and is refused (R94,
R43). -/
namespace Sys2Proof.Machine

section
variable {s t : State} {q : Cls} {c : Card} {r : Req} {i j key val ch : Nat} {b : Bytes}

/-! ### The objects of the two levels and their hysteresis -/

/-- A card row that shares no object with TH_HIGH_PPM, TH_LOW_PPM and TH_HYST_PPM. -/
def offThresholds (c : Card) : Bool :=
  decide (c.idx + c.n ≤ 0x3200) || decide (0x3300 ≤ c.idx) || decide (c.sub1 < 4) || decide (6 < c.sub0)

/-- The rows of the two levels and their hysteresis are of effect I, and their writes have no meaning of their own
(Table 4.3). -/
theorem thresholdRows_immediate : cards.all (fun c => offThresholds c || (c.eff == .i && liesApart c)) = true := by
  decide +kernel

theorem thresholdCard_immediate_plain (hi : 0x3200 ≤ i ∧ i < 0x3300) (hj : 4 ≤ j ∧ j ≤ 6) (card : cardOf i j = some c) :
    c.eff = .i ∧ hasMeaning (okey i j) = false := by
  unfold cardOf at card
  have holds : c.holds i j = true := List.find?_some (p := fun d : Card => d.holds i j) card
  have touches : offThresholds c = false := by
    simp only [Card.holds, Bool.and_eq_true, decide_eq_true_eq] at holds
    simp only [offThresholds, Bool.or_eq_false_iff, decide_eq_false_iff_not]
    omega
  have row := List.all_eq_true.mp thresholdRows_immediate c (List.mem_of_find?_eq_some card)
  simp only [touches, Bool.false_or, Bool.and_eq_true, beq_iff_eq] at row
  exact ⟨row.1, hasMeaning_of_liesApart row.2 holds⟩

/-! ### The check of step 9 -/

/-- The check depends on the table of active values alone. -/
theorem threshOk_congr (h : t.dict.active = s.dict.active) (ch : Nat) : t.threshOk ch = s.threshOk ch := by
  unfold State.threshOk
  rw [cfg_congr h, cfg_congr h, cfg_congr h]

/-- Two levels that are on and closer than twice the hysteresis break R94. -/
theorem threshOk_eq_false (high : s.cfg (oThHighPpm ch) ≠ 2000000) (low : s.cfg (oThLowPpm ch) ≠ 0)
    (close : s.cfg (oThHighPpm ch) < s.cfg (oThLowPpm ch) + 2 * s.cfg (oThHystPpm ch)) : s.threshOk ch = false := by
  simp only [State.threshOk, Bool.or_eq_false_iff, decide_eq_false_iff_not]
  exact ⟨⟨high, low⟩, by omega⟩

/-- Step 9 for a level or a hysteresis is the rule of R94. -/
theorem crossOk_threshold (hc : ch < 256) (hj : 4 ≤ j ∧ j ≤ 6) :
    s.crossOk t (okey (0x3200 + ch) j) val = t.threshOk ch := by
  have index : okey (0x3200 + ch) j / 256 = 0x3200 + ch := by unfold okey; omega
  have subindex : okey (0x3200 + ch) j % 256 = j := by unfold okey; omega
  have notChannel : ¬ within (0x3200 + ch) 0x3000 256 = true := by
    simp only [within, Bool.and_eq_true, decide_eq_true_eq]
    omega
  have threshold : within (0x3200 + ch) 0x3200 256 = true := by
    simp only [within, Bool.and_eq_true, decide_eq_true_eq]
    omega
  have checked : (decide (j < 4) || decide (6 < j)) = false := by
    simp only [Bool.or_eq_false_iff, decide_eq_false_iff_not]
    omega
  unfold State.crossOk
  dsimp only
  rw [index, subindex, if_neg notChannel, if_pos threshold, checked, Bool.false_or, Nat.add_sub_cancel_left]

/-- The view that step 9 judges is the same before and after the owner's note of its last write. -/
theorem view_ownerWrote_active : (((s.ownerWrote q).view ((s.ownerWrote q).holds q)).setCfg key val).dict.active =
    ((s.view (s.holds q)).setCfg key val).dict.active := by
  have holds : (s.ownerWrote q).holds q = s.holds q := by
    unfold State.holds
    rw [ownerWrote_dict]
  rw [holds]
  simp only [State.setCfg, State.view, ownerWrote_dict]

/-! ### The refusal -/

/-- A value of effect I is checked under a hold as well (R42), and one that fails step 9 is answered OUT_OF_RANGE. -/
theorem writePlain_refused (eff : c.eff = .i) (fails : s.crossed q key val = false) :
    s.writePlain q c key val = s.answer stRange := by
  unfold State.writePlain
  dsimp only
  rw [if_neg (by simp [eff]), if_pos fails]

/-- An allowed write is of an object that exists. -/
theorem card_of_allows (allowed : s.allows r i j b = true) : ∃ c, cardOf i j = some c := by
  unfold State.allows at allowed
  split at allowed
  case h_1 x passed => exact ⟨x.1, (checkWrite_ok passed).2⟩
  case h_2 => simp at allowed

theorem fWait_of_allows (allowed : s.allows r i j b = true) : s.ports.fWait = [] := by
  rw [State.allows, Bool.and_eq_true] at allowed
  exact serves_fWait allowed.1

end
end Sys2Proof.Machine

open Sys2Proof Sys2Proof.Machine

/-- Settles O53: the objects of the levels and the hysteresis are of effect I and have no meaning of their own, so their write
is the plain write, whose step 9 is the rule of R94 on the view with the value. -/
theorem thresholdsKeepTheirDistance : Obligations.ThresholdsKeepTheirDistance := by
  unfold Obligations.ThresholdsKeepTheirDistance
  rintro s v r ch j b hj allowed rfl high low close
  have sub : 4 ≤ j ∧ j ≤ 6 := by omega
  have hc := ch.isLt
  obtain ⟨c, card⟩ := card_of_allows allowed
  obtain ⟨eff, plain⟩ := thresholdCard_immediate_plain (by omega) sub card
  have fails : (s.ownerWrote r.cls).crossed r.cls (okey (0x3200 + ch.val) j) (ofLe b) = false := by
    rw [State.crossed, crossOk_threshold hc sub, threshOk_congr view_ownerWrote_active]
    exact threshOk_eq_false high low close
  have refused := writePlain_refused eff fails
  have idle : ((s.ownerWrote r.cls).answer stRange).ports.fWait = [] :=
    (congrArg Ports.fWait (ownerWrote_ports s r.cls)).trans (fWait_of_allows allowed)
  obtain ⟨t, done, delivered⟩ := execWrite_plain allowed card plain (by rw [refused, idle])
  rw [refused] at delivered
  exact ⟨t, done, delivered⟩
end

section
/-! PROOFS. MARK_CLEAR (R376): its meaning in the three cases of the value and of the detections, and what the write leaves
alone. -/
namespace Sys2Proof.Machine

section
variable {s t : State} {v : Nat}

/-- A delivery changes the rings and the port records alone. -/
theorem Delivered.only (h : Delivered s t) : Only 0x1800000 s t := by
  have written : ∀ e p, Only 0x1800000 s { s with evt := e, ports := p } := fun e p =>
    only_set_ports (v := p) (only_set_evt (v := e) (.refl _ s) rfl) rfl
  rw [h]
  exact written _ _

/-- The owner's note of its last write is no part of a detection. -/
theorem ownerWrote_markActive (s : State) (q : Cls) : (s.ownerWrote q).markActive = s.markActive := by
  unfold State.ownerWrote
  split
  · rfl
  · rfl

theorem ownerWrote_tamper (s : State) (q : Cls) : (s.ownerWrote q).tamper = s.tamper :=
  (State.ownerWrote_only (.refl 1048576 s) rfl).tamper rfl

/-! ### The meaning of the write -/

theorem wMarkClear_zero (hv : v = 0) : s.wMarkClear v = s.answer stOk := if_pos hv

theorem wMarkClear_active (hv : v ≠ 0) (active : s.markActive = true) : s.wMarkClear v = s.answer stRange := by
  unfold State.wMarkClear
  rw [if_neg hv, if_pos active]

/-- With no such detection active the write clears the mark and gives SEG89 the target white. -/
theorem wMarkClear_inactive (hv : v ≠ 0) (inactive : s.markActive = false) :
    s.wMarkClear v = ((s.setTamper (fun t => { t with mark := false })).selvTarget 1 false).answer stOk := by
  unfold State.wMarkClear
  rw [if_neg hv, inactive, if_neg Bool.false_ne_true]

/-- The target of a segment is no part of the tamper unit. -/
theorem wMarkClear_inactive_tamper (hv : v ≠ 0) (inactive : s.markActive = false) :
    (s.wMarkClear v).tamper = { s.tamper with mark := false } := by
  rw [wMarkClear_inactive hv inactive]
  exact (State.selvTarget_only (.refl 268435456 (s.setTamper (fun t => { t with mark := false }))) rfl).tamper rfl

theorem wMarkClear_ports : (s.wMarkClear v).ports = s.ports := (State.wMarkClear_only (.refl 2483027968 s) rfl).ports rfl

/-! ### The request -/

/-- An allowed MARK_CLEAR has its meaning on the state in which the session's owner has written, and its answer is
delivered. -/
theorem execMarkClear_delivered {r : Req} {b : Bytes} (allowed : s.allows r 0x8000 0x28 b = true) :
    ∃ t, execMarkClear r b s = .next t ∧ Delivered ((s.ownerWrote r.cls).wMarkClear (ofLe b)) t := by
  have idle : ((s.ownerWrote r.cls).wMarkClear (ofLe b)).ports.fWait = [] := by
    rw [wMarkClear_ports, ownerWrote_ports, fWait_of_allows allowed]
  obtain ⟨_, _, delivered⟩ := writeReq_delivered (f := fun s _ v => s.wMarkClear v) allowed (fun _ _ => idle)
  exact ⟨_, rfl, delivered⟩

/-- From the owner's note over the meaning to the delivery, no more than calibration, events, ports, tamper, display and
answer changes. -/
theorem wMarkClear_changesOnly {q : Cls} (delivered : Delivered ((s.ownerWrote q).wMarkClear v) t) :
    changesOnly [.cal, .evt, .ports, .tamper, .disp, .ans] s t := by
  have written : Only 0x95900000 s ((s.ownerWrote q).wMarkClear v) :=
    State.wMarkClear_only (State.ownerWrote_only (.refl _ s) rfl) rfl
  exact (written.trans (delivered.only.mono rfl)).changesOnly (by decide)

end
end Sys2Proof.Machine

open Sys2Proof Sys2Proof.Machine

/-- Settles O55: an allowed MARK_CLEAR has its own meaning, which answers a 0 OK, refuses while a marking detection is active,
and else clears the mark. -/
theorem markClearWaitsForItsDetections : Obligations.MarkClearWaitsForItsDetections := by
  unfold Obligations.MarkClearWaitsForItsDetections
  intro s r b allowed
  obtain ⟨t, done, delivered⟩ := execMarkClear_delivered allowed
  have detections := ownerWrote_markActive s r.cls
  refine ⟨t, done, fun zero => ?_, fun nonzero active => ?_, fun nonzero inactive => ⟨?_, ?_, wMarkClear_changesOnly delivered⟩⟩
  · rwa [wMarkClear_zero zero] at delivered
  · rwa [wMarkClear_active nonzero (detections.trans active)] at delivered
  · rw [delivered.ans, wMarkClear_inactive nonzero (detections.trans inactive)]
    rfl
  · have tamper : t.tamper = ((s.ownerWrote r.cls).wMarkClear (ofLe b)).tamper := delivered.only.tamper rfl
    rw [tamper, wMarkClear_inactive_tamper nonzero (detections.trans inactive), ownerWrote_tamper]
end

section
/-! PROOFS. A fallen-back image (R464): what the commands of UPD_COMMAND mean to it, that no activation begins, and how the check
of its slot ends. -/
namespace Sys2Proof.Machine

section
variable {s : State} {v : Nat}

/-! ### The commands in FALLEN_BACK -/

/-- ARM (3) and ACTIVATE_NOW (4) are for a staged image alone (R457). -/
theorem wUpd_fallenBack_refused (st : s.upd.st = .fallenBack) (hv : v = 3 ∨ v = 4) : s.wUpd v = s.answer stRange := by
  obtain rfl | rfl := hv
  · simp [State.wUpd, st]
  · simp [State.wUpd, st]

theorem wUpd_fallenBack_rearm (st : s.upd.st = .fallenBack) :
    s.wUpd 7 = (s.setUpd (fun u => { u with st := .verifying, rearm := true })).answer stOk := by
  simp [State.wUpd, st]

/-- BEGIN programs the header page of the slot and receives anew. -/
theorem wUpd_fallenBack_begin (st : s.upd.st = .fallenBack) :
    s.wUpd 1 = ((s.headerOnes).setUpd (fun u => { u with st := .receiving, pages := [], reject := 0 })).answer stOk := by
  simp [State.wUpd, State.updBegin, st]

/-- The header page is in the NVM island, the update unit's state is not. -/
theorem headerOnes_upd (s : State) : (s.headerOnes).upd = s.upd := (State.headerOnes_only (.refl 2097152 s) rfl).upd rfl

theorem wUpd_fallenBack_begin_upd (st : s.upd.st = .fallenBack) :
    (s.wUpd 1).upd = { s.upd with st := .receiving, pages := [], reject := 0 } := by
  rw [wUpd_fallenBack_begin st, ← headerOnes_upd s]
  rfl

/-! ### The request -/

theorem ownerWrote_upd (s : State) (q : Cls) : (s.ownerWrote q).upd = s.upd :=
  (State.ownerWrote_only (.refl 1048576 s) rfl).upd rfl

theorem wUpd_ports : (s.wUpd v).ports = s.ports := (State.wUpd_only (.refl 3769631289 s) rfl).ports rfl

/-- An allowed UPD_COMMAND has its meaning on the state in which the session's owner has written, and its answer is
delivered. -/
theorem wUpd_delivered {r : Req} {b : Bytes} (allowed : s.allows r 0xD000 2 b = true) :
    Delivered ((s.ownerWrote r.cls).wUpd (ofLe b)) (s.writeReq r 0xD000 2 b (fun s _ v => s.wUpd v)) := by
  have idle : ((s.ownerWrote r.cls).wUpd (ofLe b)).ports.fWait = [] := by
    rw [wUpd_ports, ownerWrote_ports, fWait_of_allows allowed]
  obtain ⟨_, _, delivered⟩ := writeReq_delivered (f := fun s _ v => s.wUpd v) allowed (fun _ _ => idle)
  exact delivered

/-! ### The events -/

/-- No activation is due but of an armed image (R457). -/
theorem execActivation_not_armed (st : s.upd.st ≠ .armed) : execActivation s = .next s := by
  simp [execActivation, State.activationDue, st]

/-- The check of a slot ends in STAGED or REJECTED (R456). -/
theorem execImageVerifyDone_ends {readable : Bool} (powered : s.powered = true) (st : s.upd.st = .verifying) :
    ∃ t, execImageVerifyDone readable s = .next t ∧ (t.upd.st = .staged ∨ t.upd.st = .rejected) := by
  have runs : ¬ (s.upd.st ≠ .verifying ∨ (!s.powered) = true) := by simp [st, powered]
  unfold execImageVerifyDone
  rw [if_neg runs]
  refine ⟨_, rfl, ?_⟩
  rw [(State.raise_only (.refl 8388608 _) rfl).upd rfl, State.setUpd_upd]
  dsimp only
  split
  · exact .inl rfl
  · exact .inr rfl

end
end Sys2Proof.Machine

open Sys2Proof Sys2Proof.Machine

/-- Settles O54: in FALLEN_BACK an UPD_COMMAND has the meaning that its value has there, ACTIVATION finds no armed image, and the
check that REARM begins ends as every check does. -/
theorem fallenBackImageStaysBack : Obligations.FallenBackImageStaysBack := by
  unfold Obligations.FallenBackImageStaysBack
  refine ⟨fun s r st => ?_, fun s x powered st _ => execImageVerifyDone_ends powered st⟩
  have unit := ownerWrote_upd s r.cls
  have back : (s.ownerWrote r.cls).upd.st = .fallenBack := by rw [unit, st]
  refine ⟨fun allowed => ⟨_, rfl, ?_⟩, fun allowed => ⟨_, rfl, ?_⟩, execActivation_not_armed (by simp [st]),
    fun allowed => ⟨_, rfl, ?_⟩, fun allowed => ⟨_, rfl, ?_⟩⟩
  · exact wUpd_fallenBack_refused back (.inl rfl) ▸ wUpd_delivered allowed
  · exact wUpd_fallenBack_refused back (.inr rfl) ▸ wUpd_delivered allowed
  · have delivered := wUpd_fallenBack_rearm back ▸ wUpd_delivered allowed
    rwa [State.setUpd, unit] at delivered
  · have delivered := wUpd_delivered allowed
    refine ⟨?_, ?_⟩
    · rw [delivered.ans]
      exact congrArg State.ans (wUpd_fallenBack_begin back)
    · rw [delivered.only.upd rfl, ← unit]
      exact wUpd_fallenBack_begin_upd back
end

section
/-! PROOFS. What holds of every command and so of every step: it answers a next state, leaves the queue alone, keeps the byte
arrays canonical and takes back nothing programmed once; and a step is the front command, or a tick. -/
namespace Sys2Proof.Machine

/-- A meaning keeps to every mask above its own. -/
theorem Gives.mono {m n : Nat} {s : State} {o : Host.Outcome State Fault Refusal} (h : Gives m s o) (hm : m &&& n = m) :
    Gives n s o := by
  obtain ⟨t, answer, frame⟩ := h
  exact ⟨t, answer, frame.mono hm⟩

/-- The mask of every component but the queue. -/
def everyPart : Nat := 2 ^ 32 - 1

/-- The commands that may write the life component: those that may begin a cast-on (its nonce, R384) or reach the METERING
point (its history, R385), and the writes of the secure objects. -/
def writesLife : Instr → Bool
  | .ewarnRelease | .lastGaspDone _ | .restartHoldoffExpiry | .supplyGood | .crystalClean => true
  | .filterSample _ _ _ _ | .stitchClaim _ | .stitchResume _ | .sequencedAdd _ | .gateAdvance _ | .patternSwitch _ => true
  | .lcCommand _ _ | .keyReturn _ _ | .write _ _ _ _ => true
  | _ => false

/-- The mask of every component but the queue and the life cycle. -/
def lifeless : Nat := everyPart - 2 ^ 27

/-- What exec_gives says of one command: the next state, and the life cycle left alone unless the command may write it. -/
def GivesFrame (writes : Bool) (s : State) (o : Host.Outcome State Fault Refusal) : Prop :=
  Gives everyPart s o ∧ (writes = false → Gives lifeless s o)

theorem Gives.both {m : Nat} {s : State} {o : Host.Outcome State Fault Refusal} {writes : Bool} (h : Gives m s o)
    (hm : m &&& lifeless = m) : GivesFrame writes s o :=
  ⟨(h.mono hm).mono rfl, fun _ => h.mono hm⟩

theorem Gives.every {m : Nat} {s : State} {o : Host.Outcome State Fault Refusal} (h : Gives m s o)
    (hm : m &&& everyPart = m) : GivesFrame true s o :=
  ⟨h.mono hm, fun no => Bool.noConfusion no⟩

/-- Every command answers a next state, by the frame lemma of its meaning. -/
theorem exec_givesFrame (c : Instr) (s : State) : GivesFrame (writesLife c) s (exec c s) := by
  cases c with
  | pfdTrip => exact execPfdTrip_only.both rfl
  | regulatorBrownOut rail => exact (execRegulatorBrownOut_only (a1 := rail)).both rfl
  | ewarnAssert => exact execEwarnAssert_only.both rfl
  | ewarnQualified => exact execEwarnQualified_only.both rfl
  | ewarnRelease => exact execEwarnRelease_only.every rfl
  | lastGaspDone => exact execLastGaspDone_only.every rfl
  | holdUpFloor => exact execHoldUpFloor_only.both rfl
  | restartHoldoffExpiry => exact execRestartHoldoffExpiry_only.every rfl
  | supplyGood => exact execSupplyGood_only.every rfl
  | startTimeout => exact execStartTimeout_only.both rfl
  | powerVerifyRetry => exact execPowerVerifyRetry_only.both rfl
  | marchStartupDone => exact execMarchStartupDone_only.both rfl
  | imageCheckDone => exact execImageCheckDone_only.both rfl
  | vbatCheck => exact execVbatCheck_only.both rfl
  | regWindowBreach => exact execRegWindowBreach_only.both rfl
  | aoPowerOnReset => exact execAoPowerOnReset_only.both rfl
  | filterSample => exact execFilterSample_only.every rfl
  | ftripMinWidthEnd => exact execFtripMinWidthEnd_only.both rfl
  | issueResume => exact execIssueResume_only.both rfl
  | stitchClaim => exact execStitchClaim_only.every rfl
  | stitchResume => exact execStitchResume_only.every rfl
  | sequencedAdd => exact execSequencedAdd_only.every rfl
  | gateAdvance => exact execGateAdvance_only.every rfl
  | stitchTimeout => exact execStitchTimeout_only.both rfl
  | engineReset => exact execEngineReset_only.both rfl
  | clusterReset => exact execClusterReset_only.both rfl
  | engineReturnToService => exact execEngineReturnToService_only.both rfl
  | admissionEvaluation => exact execAdmissionEvaluation_only.both rfl
  | crossingTimeout island eng req tag => exact (execCrossingTimeout_only (a3 := req) (a4 := tag)).both rfl
  | stuckBitstream => exact execStuckBitstream_only.both rfl
  | hardFaultDecision => exact execHardFaultDecision_only.both rfl
  | recalPassStart => exact execRecalPassStart_only.both rfl
  | rotationSlotStart => exact execRotationSlotStart_only.both rfl
  | alignmentFit => exact execAlignmentFit_only.both rfl
  | rotationMeasureEnd => exact execRotationMeasureEnd_only.both rfl
  | spareReturn => exact execSpareReturn_only.both rfl
  | rotationSlotEnd => exact execRotationSlotEnd_only.both rfl
  | substituteRetry => exact execSubstituteRetry_only.both rfl
  | spareOffsetNull => exact execSpareOffsetNull_only.both rfl
  | hkConversionDone => exact execHkConversionDone_only.both rfl
  | urgentRequest => exact execUrgentRequest_only.both rfl
  | urgentConversionDone => exact execUrgentConversionDone_only.both rfl
  | openNative => exact execOpenNative_only.both rfl
  | openCompat => exact execOpenCompat_only.both rfl
  | startStep => exact execStartStep_only.both rfl
  | cancelStep => exact execCancelStep_only.both rfl
  | close => exact execClose_only.both rfl
  | sessionIdleTimeout => exact execSessionIdleTimeout_only.both rfl
  | calTimeout => exact execCalTimeout_only.both rfl
  | signatureSlotEnd => exact execSignatureSlotEnd_only.both rfl
  | dayStart => exact execDayStart_only.both rfl
  | scheduleEntry => exact execScheduleEntry_only.both rfl
  | scheduleRebuild => exact execScheduleRebuild_only.both rfl
  | ppCreditTransfer => exact execPpCreditTransfer_only.both rfl
  | ppCredit => exact execPpCredit_only.both rfl
  | ppEcRequest => exact execPpEcRequest_only.both rfl
  | ppReconnectArm => exact execPpReconnectArm_only.both rfl
  | ppHostDisconnect => exact execPpHostDisconnect_only.both rfl
  | keyDevice => exact execKeyDevice_only.both rfl
  | keyAccount => exact execKeyAccount_only.both rfl
  | keyWrapped => exact execKeyWrapped_only.both rfl
  | relayScanFrame => exact execRelayScanFrame_only.both rfl
  | relayCommandFrame => exact execRelayCommandFrame_only.both rfl
  | relayReleaseFrame => exact execRelayReleaseFrame_only.both rfl
  | relayCaptureFrame => exact execRelayCaptureFrame_only.both rfl
  | rlyFaultClear => exact execRlyFaultClear_only.both rfl
  | detectorAWindow => exact execDetectorAWindow_only.both rfl
  | detectorBFlag => exact execDetectorBFlag_only.both rfl
  | pllRelock => exact execPllRelock_only.both rfl
  | crystalClean => exact execCrystalClean_only.every rfl
  | rtcCrystalReturn => exact execRtcCrystalReturn_only.both rfl
  | glitchFlag => exact execGlitchFlag_only.both rfl
  | tampSample => exact execTampSample_only.both rfl
  | magSample => exact execMagSample_only.both rfl
  | aoLogDrain => exact execAoLogDrain_only.both rfl
  | tamperRelease => exact execTamperRelease_only.both rfl
  | markClear => exact execMarkClear_only.both rfl
  | lcCommand => exact execLcCommand_only.every rfl
  | keyReturn => exact execKeyReturn_only.every rfl
  | watchdogKick => exact execWatchdogKick_only.both rfl
  | watchdogExpiry => exact execWatchdogExpiry_only.both rfl
  | controlIslandRestart => exact execControlIslandRestart_only.both rfl
  | controlRestartDone => exact execControlRestartDone_only.both rfl
  | portIslandRestart => exact execPortIslandRestart_only.both rfl
  | displayIslandRestart => exact execDisplayIslandRestart_only.both rfl
  | periodicSave => exact execPeriodicSave_only.both rfl
  | saveRequest => exact execSaveRequest_only.both rfl
  | nvmProgramDone => exact execNvmProgramDone_only.both rfl
  | storeCompaction => exact execStoreCompaction_only.both rfl
  | journalCompaction => exact execJournalCompaction_only.both rfl
  | refreshPass => exact execRefreshPass_only.both rfl
  | spreadInc => exact execSpreadInc_only.both rfl
  | scrubWord => exact execScrubWord_only.both rfl
  | lineRecovery => exact execLineRecovery_only.both rfl
  | rowTest => exact execRowTest_only.both rfl
  | marchPreserving => exact execMarchPreserving_only.both rfl
  | marchDestructive => exact execMarchDestructive_only.both rfl
  | marchPeriodic => exact execMarchPeriodic_only.both rfl
  | marchRunDone => exact execMarchRunDone_only.both rfl
  | hportTransaction => exact execHportTransaction_only.both rfl
  | hcsTimeout => exact execHcsTimeout_only.both rfl
  | read => exact execRead_only.both rfl
  | write => exact execWrite_only.every rfl
  | readShadow => exact execReadShadow_only.both rfl
  | getResponse => exact execGetResponse_only.both rfl
  | ringRead => exact execRingRead_only.both rfl
  | ringAck => exact execRingAck_only.both rfl
  | bulkSet => exact execBulkSet_only.both rfl
  | bulkRead => exact execBulkRead_only.both rfl
  | bulkBufferFill => exact execBulkBufferFill_only.both rfl
  | responseExpiry => exact execResponseExpiry_only.both rfl
  | gfpCommand => exact execGfpCommand_only.both rfl
  | poll => exact execPoll_only.both rfl
  | timeSync => exact execTimeSync_only.both rfl
  | replyDeadline => exact execReplyDeadline_only.both rfl
  | i2cRound => exact execI2cRound_only.both rfl
  | extest => exact execExtest_only.both rfl
  | samplePreload => exact execSamplePreload_only.both rfl
  | idcode => exact execIdcode_only.both rfl
  | clamp => exact execClamp_only.both rfl
  | highz => exact execHighz_only.both rfl
  | bypass => exact execBypass_only.both rfl
  | dbgMem => exact execDbgMem_only.both rfl
  | tapReset => exact execTapReset_only.both rfl
  | eventPendingClear => exact execEventPendingClear_only.both rfl
  | ringConsumers => exact execRingConsumers_only.both rfl
  | update => exact execUpdate_only.both rfl
  | clear => exact execClear_only.both rfl
  | powerOff => exact execPowerOff_only.both rfl
  | dispImage => exact execDispImage_only.both rfl
  | pumpGood => exact execPumpGood_only.both rfl
  | pumpFail => exact execPumpFail_only.both rfl
  | displayFrameEnd => exact execDisplayFrameEnd_only.both rfl
  | pumpHoldExpiry => exact execPumpHoldExpiry_only.both rfl
  | balDelayExpiry => exact execBalDelayExpiry_only.both rfl
  | clearingStart => exact execClearingStart_only.both rfl
  | selvedgeTransition => exact execSelvedgeTransition_only.both rfl
  | outageMarkClear => exact execOutageMarkClear_only.both rfl
  | selvedgeStatus => exact execSelvedgeStatus_only.both rfl
  | begin => exact execBegin_only.both rfl
  | updChunk => exact execUpdChunk_only.both rfl
  | verify => exact execVerify_only.both rfl
  | imageVerifyDone => exact execImageVerifyDone_only.both rfl
  | arm => exact execArm_only.both rfl
  | activateNow => exact execActivateNow_only.both rfl
  | disarm => exact execDisarm_only.both rfl
  | abort => exact execAbort_only.both rfl
  | rearm => exact execRearm_only.both rfl
  | fallback => exact execFallback_only.both rfl
  | updConfirm => exact execUpdConfirm_only.both rfl
  | activation => exact execActivation_only.both rfl
  | patternSwitch => exact execPatternSwitch_only.every rfl
  | healthDeadline => exact execHealthDeadline_only.both rfl
  | holdStart => exact execHoldStart_only.both rfl
  | holdRelease => exact execHoldRelease_only.both rfl
  | holdTimeout => exact execHoldTimeout_only.both rfl
  | timeNow => exact execTimeNow_only.both rfl
  | rtcSecondTick => exact execRtcSecondTick_only.both rfl
  | snapReq => exact execSnapReq_only.both rfl
  | snapshotTimeout => exact execSnapshotTimeout_only.both rfl
  | accClear => exact execAccClear_only.both rfl
  | mdReset => exact execMdReset_only.both rfl
  | pulseEdge => exact execPulseEdge_only.both rfl
  | pulseConfig => exact execPulseConfig_only.both rfl
  | ftripAssign => exact execFtripAssign_only.both rfl
  | ftripLatchClear => exact execFtripLatchClear_only.both rfl
  | hkLimitFlagClear => exact execHkLimitFlagClear_only.both rfl
  | hkRun => exact execHkRun_only.both rfl
  | chSubstitute => exact execChSubstitute_only.both rfl
  | thEnable => exact execThEnable_only.both rfl
  | engineEnable => exact execEngineEnable_only.both rfl
  | clusterEnable => exact execClusterEnable_only.both rfl
  | trigger => exact execTrigger_only.both rfl
  | stop => exact execStop_only.both rfl
  | releaseAll => exact execReleaseAll_only.both rfl
  | captRelease => exact execCaptRelease_only.both rfl
  | bindOffRest => exact execBindOffRest_only.both rfl
  | bindOffRestart => exact execBindOffRestart_only.both rfl
  | restartControl => exact execRestartControl_only.both rfl
  | restartPort => exact execRestartPort_only.both rfl
  | restartDisplay => exact execRestartDisplay_only.both rfl
  | vin33Return => exact execVin33Return_only.both rfl
  | nvmIslandRestart => exact execNvmIslandRestart_only.both rfl
  | portRestartDone => exact execPortRestartDone_only.both rfl
  | displayRestartDone => exact execDisplayRestartDone_only.both rfl
  | dischargeShortExpiry => exact execDischargeShortExpiry_only.both rfl
  | railDischargeDone => exact execRailDischargeDone_only.both rfl
  | selvedgeFrameEnd => exact execSelvedgeFrameEnd_only.both rfl
  | oscSensorReading => exact execOscSensorReading_only.both rfl
  | gfpInvalidFrame => exact execGfpInvalidFrame_only.both rfl
  | nvmLifeCheck => exact execNvmLifeCheck_only.both rfl

theorem exec_gives (c : Instr) (s : State) : Gives everyPart s (exec c s) := (exec_givesFrame c s).1

/-- What the frame lemmas carry beside the mask is what a safe step keeps. -/
theorem Only.keepsProgrammed {m : Nat} {s t : State} (h : Only m s t) : keepsProgrammed s t :=
  ⟨h.lifeStep.len, fun three => ⟨h.lifeStep.three three, h.lifeStep.up three⟩, h.lifeStep.key, h.nvmStep.bad, h.nvmStep.sc⟩

theorem Only.memWf {m : Nat} {s t : State} (h : Only m s t) (wf : s.memWf = true) : t.memWf = true := by
  obtain ⟨nvm, capture⟩ := (Bool.and_eq_true _ _).mp wf
  exact (Bool.and_eq_true _ _).mpr ⟨h.nvmStep.wf nvm, h.memStep.wf capture⟩

theorem step_nil {s : State} (h : s.pending = []) : step s = .next (idle s) := by
  rw [step, h]

theorem step_cons {s : State} {c : Instr} {rest : List Instr} (h : s.pending = c :: rest) :
    step s = exec c { s with pending := rest } := by
  rw [step, h]

/-- Time never runs back, so the tick's 4,000 clocks are all there. -/
theorem idle_clk (s : State) : (idle s).clock.clk = s.clock.clk + 4000 := Nat.max_eq_right (Nat.le_add_right _ _)

end Sys2Proof.Machine

open Sys2Proof Sys2Proof.Machine

/-- Settles O47: the frame lemma of every command leaves the queue out. -/
theorem commandsLeaveTheQueue : Obligations.CommandsLeaveTheQueue := by
  unfold Obligations.CommandsLeaveTheQueue
  intro c s
  obtain ⟨t, answer, frame⟩ := exec_gives c s
  exact ⟨t, answer, frame.pending⟩

/-- Settles O43, by the equation of step. -/
theorem stepTakesFrontCommand : Obligations.StepTakesFrontCommand := by
  unfold Obligations.StepTakesFrontCommand
  exact fun _ _ _ => step_cons

/-- Settles O44: the tick is a write of the clock alone. -/
theorem emptyQueueTicks : Obligations.EmptyQueueTicks := by
  unfold Obligations.EmptyQueueTicks
  exact fun s empty => ⟨idle s, step_nil empty, idle_clk s, rfl, (idle_only (.refl 2 s) rfl).changesOnly rfl⟩

/-- Settles O46: a step is a command on the queue's rest or a tick, and the frame lemma of either carries what is kept. -/
theorem everyStepGoesOnAndKeeps : Obligations.EveryStepGoesOnAndKeeps := by
  unfold Obligations.EveryStepGoesOnAndKeeps
  intro s
  cases queue : s.pending with
  | nil =>
    have tick : Only 2 s (idle s) := idle_only (.refl 2 s) rfl
    exact ⟨idle s, step_nil queue, tick.memWf, tick.keepsProgrammed⟩
  | cons c rest =>
    obtain ⟨t, answer, frame⟩ := exec_gives c { s with pending := rest }
    exact ⟨t, (step_cons queue).trans answer, frame.memWf (s := { s with pending := rest }), frame.keepsProgrammed (s := { s with pending := rest })⟩

/-- Settles O45, each value read off State.reset. -/
theorem resetState : Obligations.ResetState := by
  unfold Obligations.ResetState
  refine ⟨fun _ => ⟨rfl, rfl⟩, fun _ => ⟨rfl, rfl⟩, fun _ => ⟨rfl, rfl, rfl⟩, fun _ => rfl, fun _ => rfl, rfl, rfl, rfl, ?_⟩
  decide
end

section
/-! PROOFS. The life-cycle cells and KEY_RETURN over every command (R383-R386): the operations that write the life component at
all, what each leaves of the two, and the commands that call them. -/
namespace Sys2Proof.Machine

variable {s t : State}

/-! ### Operations that leave the life component -/

@[simp] theorem State.partialCell_life {s : State} : (s.partialCell).life = s.life :=
  (State.partialCell_only (.refl 8388608 s) rfl).life rfl
@[simp] theorem State.selvStatus_life {s : State} : (s.selvStatus).life = s.life :=
  (State.selvStatus_only (.refl 268435456 s) rfl).life rfl
@[simp] theorem State.selvClear_life {s : State} : (s.selvClear).life = s.life :=
  (State.selvClear_only (.refl 268435456 s) rfl).life rfl
@[simp] theorem State.startMetering_life {s : State} {a1 : _} : (s.startMetering a1).life = s.life :=
  (State.startMetering_only (.refl 9216 s) rfl).life rfl
@[simp] theorem State.startFrontEnd_life {s : State} : (s.startFrontEnd).life = s.life :=
  (State.startFrontEnd_only (.refl 3146525 s) rfl).life rfl
@[simp] theorem State.startUpdate_life {s : State} : (s.startUpdate).life = s.life :=
  (State.startUpdate_only (.refl 538968065 s) rfl).life rfl
@[simp] theorem State.remapLoad_life {s : State} : (s.remapLoad).life = s.life :=
  (State.remapLoad_only (.refl 33554432 s) rfl).life rfl
@[simp] theorem State.writeDeferred_life {s : State} : (s.writeDeferred).life = s.life :=
  (State.writeDeferred_only (.refl 8388608 s) rfl).life rfl
@[simp] theorem State.scStep_life {s : State} {k : Nat} : (s.scStep k).life = s.life :=
  (State.scStep_only (.refl 2097152 s) rfl).life rfl
@[simp] theorem State.writeLosses_life {s : State} : (s.writeLosses).life = s.life :=
  (State.writeLosses_only (.refl 14680064 s) rfl).life rfl
@[simp] theorem State.saveMark_life {s : State} {a1 : _} {a2 : _} : (s.saveMark a1 a2).life = s.life :=
  (State.saveMark_only (.refl 2097152 s) rfl).life rfl
@[simp] theorem State.raise_life {s : State} {a1 : _} {a2 : _} : (s.raise a1 a2).life = s.life :=
  (State.raise_only (.refl 8388608 s) rfl).life rfl
@[simp] theorem State.selvTarget_life {s : State} {a1 : _} {a2 : _} : (s.selvTarget a1 a2).life = s.life :=
  (State.selvTarget_only (.refl 268435456 s) rfl).life rfl
@[simp] theorem State.confirmCheck_life {s : State} : (s.confirmCheck).life = s.life :=
  (State.confirmCheck_only (.refl 547356673 s) rfl).life rfl
@[simp] theorem State.bindProgress_life {s : State} : (s.bindProgress).life = s.life :=
  (State.bindProgress_only (.refl 283116544 s) rfl).life rfl
@[simp] theorem State.pairSample_life {s : State} {a1 : _} {a2 : _} {a3 : _} {a4 : _} {a5 : _} : (s.pairSample a1 a2 a3 a4 a5).life = s.life :=
  (State.pairSample_only (.refl 11534397 s) rfl).life rfl
@[simp] theorem State.parallelRestart_life {s : State} {a1 : _} : (s.parallelRestart a1).life = s.life :=
  (State.parallelRestart_only (.refl 8 s) rfl).life rfl
@[simp] theorem State.laneSample_life {s : State} {a1 : _} {a2 : _} {a3 : _} {a4 : _} : (s.laneSample a1 a2 a3 a4).life = s.life :=
  (State.laneSample_only (.refl 922746877 s) rfl).life rfl
@[simp] theorem State.claim_life {s : State} {a1 : _} {a2 : _} {a3 : _} {a4 : _} : (s.claim a1 a2 a3 a4).life = s.life :=
  (State.claim_only (.refl 263169 s) rfl).life rfl
@[simp] theorem State.resume_life {s : State} {a1 : _} : (s.resume a1).life = s.life :=
  (State.resume_only (.refl 263169 s) rfl).life rfl
@[simp] theorem State.addNext_life {s : State} {a1 : _} : (s.addNext a1).life = s.life :=
  (State.addNext_only (.refl 11076609 s) rfl).life rfl
@[simp] theorem State.gateAdvance_life {s : State} {a1 : _} : (s.gateAdvance a1).life = s.life :=
  (State.gateAdvance_only (.refl 381418553 s) rfl).life rfl
@[simp] theorem State.drained_life {s : State} {a1 : _} : (s.drained a1).life = s.life :=
  (State.drained_only (.refl 1024 s) rfl).life rfl
@[simp] theorem State.patternSwitch_life {s : State} {a1 : _} : (s.patternSwitch a1).life = s.life :=
  (State.patternSwitch_only (.refl 547491329 s) rfl).life rfl
@[simp] theorem State.sessionValid_life {s : State} {a1 : _} : (s.sessionValid a1).life = s.life :=
  (State.sessionValid_only (.refl 2097152 s) rfl).life rfl
@[simp] theorem State.toVbat_life {s : State} : (s.toVbat).life = s.life :=
  (State.toVbat_only (.refl 272629760 s) rfl).life rfl
@[simp] theorem State.gateIslands_life {s : State} : (s.gateIslands).life = s.life :=
  (State.gateIslands_only (.refl 4194304 s) rfl).life rfl
@[simp] theorem State.fAssign_life {s : State} {a1 : _} : (s.fAssign a1).life = s.life :=
  (State.fAssign_only (.refl 29035289 s) rfl).life rfl
@[simp] theorem State.respondTo_life {s : State} {a1 : _} {a2 : _} {a3 : _} : (s.respondTo a1 a2 a3).life = s.life :=
  (State.respondTo_only (.refl 29035289 s) rfl).life rfl
@[simp] theorem State.ownerWrote_life {s : State} {a1 : _} : (s.ownerWrote a1).life = s.life :=
  (State.ownerWrote_only (.refl 1048576 s) rfl).life rfl
@[simp] theorem State.answerRetry_life {s : State} {a1 : _} {a2 : _} : (s.answerRetry a1 a2).life = s.life :=
  (State.answerRetry_only (.refl 2147483648 s) rfl).life rfl
@[simp] theorem State.wipe_life {s : State} : (s.wipe).life = s.life :=
  (State.wipe_only (.refl 34078720 s) rfl).life rfl
@[simp] theorem State.respond_life {s : State} {a1 : _} {a2 : _} {a3 : _} {a4 : _} {a5 : _} {a6 : _} : (s.respond a1 a2 a3 a4 a5 a6).life = s.life :=
  (State.respond_only (.refl 378011648 s) rfl).life rfl
@[simp] theorem State.lcFinish_life {s : State} : (s.lcFinish).life = s.life :=
  (State.lcFinish_only (.refl 385612985 s) rfl).life rfl

@[simp] theorem State.answer_life {s : State} {a1 : _} : (s.answer a1).life = s.life :=
  (State.answer_only (.refl 2147483648 s) rfl).life rfl
@[simp] theorem State.wTampInput_life {s : State} {a1 : _} {a2 : _} {a3 : _} {a4 : _} : (s.wTampInput a1 a2 a3 a4).life = s.life :=
  (State.wTampInput_only (.refl 2243628825 s) rfl).life rfl
@[simp] theorem State.wMagCfg_life {s : State} {a1 : _} {a2 : _} {a3 : _} : (s.wMagCfg a1 a2 a3).life = s.life :=
  (State.wMagCfg_only (.refl 2243628825 s) rfl).life rfl
@[simp] theorem State.wMarkClear_life {s : State} {a1 : _} : (s.wMarkClear a1).life = s.life :=
  (State.wMarkClear_only (.refl 2483027968 s) rfl).life rfl
@[simp] theorem State.wRelease_life {s : State} {a1 : _} : (s.wRelease a1).life = s.life :=
  (State.wRelease_only (.refl 2148007936 s) rfl).life rfl
@[simp] theorem State.wKeyDevice_life {s : State} {a1 : _} : (s.wKeyDevice a1).life = s.life :=
  (State.wKeyDevice_only (.refl 2148007936 s) rfl).life rfl
@[simp] theorem State.wKeyAccount_life {s : State} {a1 : _} {a2 : _} : (s.wKeyAccount a1 a2).life = s.life :=
  (State.wKeyAccount_only (.refl 2148007936 s) rfl).life rfl
@[simp] theorem State.wKeyWrapped_life {s : State} {a1 : _} : (s.wKeyWrapped a1).life = s.life :=
  (State.wKeyWrapped_only (.refl 2148007936 s) rfl).life rfl
@[simp] theorem State.wCsCommand_life {s : State} {a1 : _} {a2 : _} : (s.wCsCommand a1 a2).life = s.life :=
  (State.wCsCommand_only (.refl 2156920888 s) rfl).life rfl
@[simp] theorem State.writePlain_life {s : State} {a1 : _} {a2 : _} {a3 : _} {a4 : _} : (s.writePlain a1 a2 a3 a4).life = s.life :=
  (State.writePlain_only (.refl 2176519961 s) rfl).life rfl
@[simp] theorem State.writeBase_life {s : State} {a1 : _} {a2 : _} {a3 : _} {a4 : _} : (s.writeBase a1 a2 a3 a4).life = s.life :=
  (State.writeBase_only (.refl 2243628827 s) rfl).life rfl
@[simp] theorem State.writeFront_life {s : State} {a1 : _} {a2 : _} {a3 : _} {a4 : _} : (s.writeFront a1 a2 a3 a4).life = s.life :=
  (State.writeFront_only (.refl 2176520185 s) rfl).life rfl
@[simp] theorem State.writePrepay_life {s : State} {a1 : _} {a2 : _} {a3 : _} {a4 : _} {a5 : _} : (s.writePrepay a1 a2 a3 a4 a5).life = s.life :=
  (State.writePrepay_only (.refl 2176519961 s) rfl).life rfl
@[simp] theorem State.writeEngines_life {s : State} {a1 : _} {a2 : _} {a3 : _} {a4 : _} : (s.writeEngines a1 a2 a3 a4).life = s.life :=
  (State.writeEngines_only (.refl 2176569113 s) rfl).life rfl
@[simp] theorem State.writeOutputs_life {s : State} {a1 : _} {a2 : _} {a3 : _} {a4 : _} : (s.writeOutputs a1 a2 a3 a4).life = s.life :=
  (State.writeOutputs_only (.refl 2444955545 s) rfl).life rfl
@[simp] theorem State.writeDevice_life {s : State} {a1 : _} {a2 : _} {a3 : _} {a4 : _} {a5 : _} : (s.writeDevice a1 a2 a3 a4 a5).life = s.life :=
  (State.writeDevice_only (.refl 4160487353 s) rfl).life rfl
@[simp] theorem State.toClk_life {s : State} {c : Nat} : (s.toClk c).life = s.life :=
  (State.toClk_only (.refl 2 s) rfl).life rfl

/-! ### The operations that write it -/

/-- The life-cycle cells and KEY_RETURN stand. -/
def SameLock (s t : State) : Prop := t.life.cells = s.life.cells ∧ t.life.keyReturn = s.life.keyReturn

theorem SameLock.of_life (h : t.life = s.life) : SameLock s t := ⟨by rw [h], by rw [h]⟩

theorem SameLock.ite {u : State} {c : Prop} [Decidable c] (h : SameLock s t) (k : SameLock s u) :
    SameLock s (if c then t else u) := by
  split
  · exact h
  · exact k

/-- A cast-on draws a new nonce and keeps the rest (R384, Table 13.4). -/
theorem castOn_life (s : State) : s.castOn.life = { s.life with nonce := s.life.nonce + 1 } := by
  unfold State.castOn
  simp only [apply_ite State.life, State.partialCell_life, State.selvStatus_life, State.selvClear_life, State.setDisp_life,
    State.startMetering_life, State.startFrontEnd_life, State.remapLoad_life, State.startUpdate_life, State.setPwr_life, ite_self]
  rfl

theorem tryCastOn_sameLock (s : State) : SameLock s s.tryCastOn := by
  have started : SameLock s s.castOn := ⟨by rw [castOn_life], by rw [castOn_life]⟩
  unfold State.tryCastOn
  exact .ite (.of_life rfl) (.ite started (.of_life rfl))

/-- The entry of a life-cycle change goes to the history. -/
theorem lifeDue_sameLock (s : State) : SameLock s s.lifeDue := by
  unfold State.lifeDue
  cases s.life.due with
  | none => exact .of_life rfl
  | some d =>
    have entered : (if s.life.quiet then s else s.raise 15 (le 1 0 ++ le 1 d.1 ++ le 1 d.2.1 ++ le 1 d.2.2)).life = s.life := by
      rw [apply_ite State.life, State.raise_life, ite_self]
    exact ⟨(congrArg Life.cells entered :), (congrArg Life.keyReturn entered :)⟩

theorem SameLock.trans {u : State} (h : SameLock s t) (k : SameLock t u) : SameLock s u :=
  ⟨k.1.trans h.1, k.2.trans h.2⟩

theorem meteringPoint_sameLock (s : State) : SameLock s s.meteringPoint := by
  unfold State.meteringPoint SameLock
  simp only [apply_ite State.life, apply_ite Life.cells, apply_ite Life.keyReturn, State.setPwr_life, State.setCal_life,
    State.setNvm_life, State.selvTarget_life, State.setDisp_life, (lifeDue_sameLock _).1, (lifeDue_sameLock _).2,
    State.raise_life, State.saveMark_life, State.writeLosses_life, State.scStep_life, State.writeDeferred_life, ite_self,
    and_self]

theorem after_sameLock (s : State) : SameLock s s.after := by
  have metered := meteringPoint_sameLock s
  unfold State.after SameLock
  simp only [apply_ite State.life, apply_ite Life.cells, apply_ite Life.keyReturn, State.bindProgress_life,
    State.confirmCheck_life, metered.1, metered.2, ite_self, and_self]

/-! ### The requests -/

/-- What a request leaves of the life component is what its own effect leaves. -/
theorem request_life {α : Type} (g : Life → α) {r : Req} {op i j : Nat} {b : Bytes} {f : State → State}
    (hf : ∀ u, g (f u).life = g u.life) : g (s.request r op i j b f).life = g s.life := by
  unfold State.request
  cases s.headIs r op i j b with
  | none => simp only [apply_ite State.life, apply_ite g, State.answerRetry_life, State.fAssign_life, hf, ite_self]
  | some e =>
    simp only [apply_ite State.life, apply_ite g, State.respondTo_life, State.answer_life, hf, ite_self]

theorem checked_life {α : Type} (g : Life → α) {r : Req} {i j : Nat} {b : Bytes} {f : State → Card → Nat → State}
    (hf : ∀ u c v, g (f u c v).life = g u.life) : g (s.checked r i j b f).life = g s.life := by
  unfold State.checked
  cases s.checkWrite r.cls i j b with
  | error e => rw [State.answerRetry_life, State.ownerWrote_life]
  | ok x => rw [hf, State.ownerWrote_life]

/-- LC_COMMAND leaves KEY_RETURN. -/
theorem lcWrite_keyReturn {r : Req} {b : Bytes} : (s.lcWrite r b).life.keyReturn = s.life.keyReturn := by
  have change : ∀ u : State, ∀ n, (u.lcChange n).life.keyReturn = u.life.keyReturn := by
    intro u n
    unfold State.lcChange
    simp only [State.setTamper_life, State.wipe_life, State.respond_life, State.answer_life]
  have meaning : ∀ u : State, (u.wLifeCycle b).life.keyReturn = u.life.keyReturn := by
    intro u
    unfold State.wLifeCycle
    simp only [apply_ite State.life, apply_ite Life.keyReturn, State.answer_life, State.answerRetry_life, State.respond_life,
      change, ite_self]
  unfold State.lcWrite
  simp only [apply_ite State.life, apply_ite Life.keyReturn, checked_life Life.keyReturn (fun u _ _ => meaning u), ite_self]

/-- KEY_RETURN's own write leaves the cells. -/
theorem wKeyReturn_cells {b : Bytes} : (s.wKeyReturn b).life.cells = s.life.cells := by
  unfold State.wKeyReturn
  simp only [apply_ite State.life, apply_ite Life.cells, State.answer_life, ite_self]


/-! ### The commands -/

/-- A meaning answers a next state with the same life-cycle cells and the same KEY_RETURN. -/
def KeepsLock (s : State) (o : Host.Outcome State Fault Refusal) : Prop := ∃ t, o = .next t ∧ SameLock s t

theorem SameLock.keeps (h : SameLock s t) : KeepsLock s (.next t) := ⟨t, rfl, h⟩

/-- A meaning that acts under a condition. -/
theorem KeepsLock.ite {u : State} {c : Prop} [Decidable c] (h : SameLock s t) (k : SameLock s u) :
    KeepsLock s (.next (if c then t else u)) := (SameLock.ite h k).keeps

/-- A power event that may begin a cast-on. -/
theorem tryCastOn_keepsLock (h : t.life = s.life) : SameLock s t.tryCastOn := (SameLock.of_life h).trans (tryCastOn_sameLock t)

/-- A metering command, with what follows a commit or a boundary. -/
theorem after_keepsLock (h : t.life = s.life) : SameLock s t.after := (SameLock.of_life h).trans (after_sameLock t)

theorem execLastGaspDone_keepsLock (us : Nat) : KeepsLock s (execLastGaspDone us s) := by
  unfold execLastGaspDone
  cases s.nvm.session with
  | none => exact (SameLock.of_life rfl).keeps
  | some x =>
    dsimp only
    split
    · exact (SameLock.of_life rfl).keeps
    · refine (tryCastOn_keepsLock ?_).keeps
      simp only [apply_ite State.life, State.toVbat_life, State.gateIslands_life, State.setPwr_life, State.raise_life,
        State.sessionValid_life, ite_self]

theorem execFilterSample_keepsLock (stream : Fin 264) (k : Nat) (x : Int) (flat : Bool) :
    KeepsLock s (execFilterSample stream k x flat s) := by
  unfold execFilterSample
  split
  · exact (SameLock.of_life rfl).keeps
  · refine (after_keepsLock ?_).keeps
    dsimp only
    split
    · rfl
    · simp only [apply_ite State.life, State.laneSample_life, State.setChan_life, State.parallelRestart_life,
        State.pairSample_life, State.toClk_life, ite_self]

theorem execStitchClaim_keepsLock (eng : Fin 32) : KeepsLock s (execStitchClaim eng s) := by
  unfold execStitchClaim
  dsimp only
  split
  · exact (SameLock.of_life rfl).keeps
  · cases s.pick eng.val with
    | none => exact (SameLock.of_life rfl).keeps
    | some p => exact (after_keepsLock State.claim_life).keeps

theorem execPatternSwitch_keepsLock (group : Fin 4) : KeepsLock s (execPatternSwitch group s) := by
  unfold execPatternSwitch
  dsimp only
  split
  · exact (SameLock.ite (after_keepsLock State.patternSwitch_life) (.of_life rfl)).keeps
  · exact (SameLock.of_life rfl).keeps

/-- A write whose object is not KEY_RETURN; LC_COMMAND's is its own. -/
theorem writeBy_life {q : Cls} {c : Card} {key v : Nat} {b : Bytes} (h : key ≠ oKeyReturn) :
    (s.writeBy q c key v b).life = s.life := by
  have secure : (s.writeSecure q c key v b).life = s.life := by
    unfold State.writeSecure
    rw [if_neg h]
    simp only [apply_ite State.life, State.wTampInput_life, State.wMagCfg_life, State.answer_life, State.setTamper_life,
      State.wMarkClear_life, State.wRelease_life, State.wKeyDevice_life, State.wKeyAccount_life, State.wKeyWrapped_life,
      State.wCsCommand_life, State.writePlain_life, ite_self]
  unfold State.writeBy
  simp only [apply_ite State.life, State.writeBase_life, State.writeFront_life, State.writePrepay_life, State.writeEngines_life,
    secure, State.writeOutputs_life, State.writeDevice_life, ite_self]

/-- A write through the checks leaves the cells, whatever its object. -/
theorem writeBy_cells {q : Cls} {c : Card} {key v : Nat} {b : Bytes} :
    (s.writeBy q c key v b).life.cells = s.life.cells := by
  by_cases h : key = oKeyReturn
  · subst h
    exact wKeyReturn_cells
  · rw [writeBy_life h]

/-- But for the writes of the secure objects, every command keeps the cells and KEY_RETURN. -/
theorem exec_keepsLock {c : Instr} (lc : ∀ r b, c ≠ .lcCommand r b) (key : ∀ r b, c ≠ .keyReturn r b)
    (write : ∀ r i j b, c ≠ .write r i j b) (s : State) : KeepsLock s (exec c s) := by
  cases writes : writesLife c with
  | false =>
    obtain ⟨t, answer, frame⟩ := (exec_givesFrame c s).2 writes
    exact ⟨t, answer, .of_life (frame.life rfl)⟩
  | true =>
    cases c
    case ewarnRelease => exact (tryCastOn_keepsLock rfl).keeps
    case lastGaspDone us => exact execLastGaspDone_keepsLock us
    case restartHoldoffExpiry => exact .ite (.of_life rfl) (tryCastOn_keepsLock (t := s.setPwr _) rfl)
    case supplyGood => exact .ite (.of_life rfl) (tryCastOn_keepsLock (t := s.setPwr _) rfl)
    case crystalClean => exact .ite (tryCastOn_keepsLock (t := s.setTamper _) rfl) (.of_life rfl)
    case filterSample stream k x flat => exact execFilterSample_keepsLock stream k x flat
    case stitchClaim eng => exact execStitchClaim_keepsLock eng
    case stitchResume eng => exact .ite (after_keepsLock State.resume_life) (.of_life rfl)
    case sequencedAdd eng => exact .ite (after_keepsLock State.addNext_life) (.of_life rfl)
    case gateAdvance eng =>
      have gate : ((s.gateAdvance eng.val).drained eng.val).life = s.life := by rw [State.drained_life, State.gateAdvance_life]
      exact .ite (after_keepsLock gate) (.of_life rfl)
    case patternSwitch group => exact execPatternSwitch_keepsLock group
    case lcCommand r b => exact absurd rfl (lc r b)
    case keyReturn r b => exact absurd rfl (key r b)
    case write r i j b => exact absurd rfl (write r i j b)
    all_goals cases writes

theorem execLcCommand_keyReturn {r : Req} {b : Bytes} (h : execLcCommand r b s = .next t) :
    t.life.keyReturn = s.life.keyReturn := by
  obtain rfl := Host.Outcome.next.inj h
  rw [State.lcFinish_life]
  exact request_life Life.keyReturn fun _ => lcWrite_keyReturn

theorem execKeyReturn_cells {r : Req} {b : Bytes} (h : execKeyReturn r b s = .next t) : t.life.cells = s.life.cells := by
  obtain rfl := Host.Outcome.next.inj h
  exact request_life Life.cells fun _ => checked_life Life.cells fun _ _ _ => wKeyReturn_cells

/-- A WRITE changes the cells as the LC_COMMAND that it spells, and KEY_RETURN as its own write. -/
theorem execWrite_lock {r : Req} {i j : Nat} {b : Bytes} (h : execWrite r i j b s = .next t) :
    (okey i j ≠ okey 0x8100 2 → t.life.cells = s.life.cells) ∧
    (okey i j ≠ okey 0x8100 4 → t.life.keyReturn = s.life.keyReturn) := by
  obtain rfl := Host.Outcome.next.inj h
  split
  case isTrue lc =>
    obtain ⟨rfl, rfl⟩ := lc
    refine ⟨fun other => absurd rfl other, fun _ => ?_⟩
    rw [State.lcFinish_life]
    exact request_life Life.keyReturn fun _ => lcWrite_keyReturn
  case isFalse =>
    refine ⟨fun _ => ?_, fun other => ?_⟩
    · exact request_life Life.cells fun _ => checked_life Life.cells fun _ _ _ => writeBy_cells
    · exact request_life Life.keyReturn fun _ => checked_life Life.keyReturn fun u _ _ => congrArg Life.keyReturn
        (writeBy_life other)

end Sys2Proof.Machine

open Sys2Proof Sys2Proof.Machine

/-- Settles O48: only the writes of LC_COMMAND and of KEY_RETURN do more to the life component than a cast-on's nonce and the
METERING point's history. -/
theorem onlyLcCommandChangesTheLifeCycle : Obligations.OnlyLcCommandChangesTheLifeCycle := by
  unfold Obligations.OnlyLcCommandChangesTheLifeCycle
  intro c s t run
  by_cases lc : ∃ r b, c = .lcCommand r b
  · obtain ⟨r, b, rfl⟩ := lc
    exact ⟨fun _ => .inl ⟨r, b, rfl⟩, fun changed => absurd (execLcCommand_keyReturn run) changed⟩
  by_cases key : ∃ r b, c = .keyReturn r b
  · obtain ⟨r, b, rfl⟩ := key
    exact ⟨fun changed => absurd (execKeyReturn_cells run) changed, fun _ => .inl ⟨r, b, rfl⟩⟩
  by_cases write : ∃ r i j b, c = .write r i j b
  · obtain ⟨r, i, j, b, rfl⟩ := write
    obtain ⟨cells, keyReturn⟩ := execWrite_lock run
    exact ⟨fun changed => .inr ⟨r, i, j, b, rfl, Classical.byContradiction (fun kept => changed (cells kept))⟩,
      fun changed => .inr ⟨r, i, j, b, rfl, Classical.byContradiction (fun kept => changed (keyReturn kept))⟩⟩
  obtain ⟨u, answer, same⟩ := exec_keepsLock (fun r b e => lc ⟨r, b, e⟩) (fun r b e => key ⟨r, b, e⟩)
    (fun r i j b e => write ⟨r, i, j, b, e⟩) s
  obtain rfl := Host.Outcome.next.inj (answer.symm.trans run)
  exact ⟨fun changed => absurd same.1 changed, fun changed => absurd same.2 changed⟩
end

section
/-! PROOFS. A raised event (R446): its pending bit and its count, and its entry in SR4 (R440, R443) or in the boot buffer. -/
namespace Sys2Proof.Machine

variable {s : State} {n : Nat} {d : Bytes}

/-! ### A service ring -/

/-- What an operation of the service rings leaves of the events: everything but the rings. -/
def RingsOnly (a b : Evt) : Prop := b = { a with rings := b.rings }

theorem ringPut_ringsOnly (k units : Nat) (mk : W32 → Bool → Bytes) : RingsOnly s.evt (s.ringPut k units mk).evt := by
  unfold State.ringPut
  dsimp only
  split
  · exact rfl
  · split <;> exact rfl

theorem eventEntry_ringsOnly (time : Stamp) (count : Nat) (deferred : Bool) :
    RingsOnly s.evt (s.eventEntry n d time count deferred).evt := by
  unfold State.eventEntry
  split
  · exact ringPut_ringsOnly _ _ _
  · exact rfl

/-- A ring with room takes an entry for its consumers under its next number. -/
theorem ringPut_room {k units : Nat} {mk : W32 → Bool → Bytes} (consumed : s.consumers k ≠ []) (room : units ≤ s.ringFree k) :
    s.ringPut k units mk = s.ringAdd k (fun q => {
      units := units, await := s.consumers k, data := mk q (KMap.get s.evt.rings k).mark, at_ := s.clock.clk }) := by
  unfold State.ringPut
  dsimp only
  rw [if_neg consumed, if_neg (Nat.not_lt.mpr room)]

/-- A consumed ring without room counts the loss. -/
theorem ringPut_full {k units : Nat} {mk : W32 → Bool → Bytes} (consumed : s.consumers k ≠ []) (full : s.ringFree k < units) :
    s.ringPut k units mk = s.setRing k (fun r => { r with lost := sat 4095 (r.lost + 1), mark := true }) := by
  unfold State.ringPut
  dsimp only
  rw [if_neg consumed, if_pos full]

/-- A ring changed to one that is not empty reads as changed. -/
theorem setRing_get {k : Nat} {f : Ring → Ring} (h : f (KMap.get s.evt.rings k) ≠ default) :
    KMap.get (s.setRing k f).evt.rings k = f (KMap.get s.evt.rings k) :=
  (KMap.get_set_of_ne h k).trans (if_pos rfl)

/-- The entry that a ring takes is its newest. -/
theorem ringAdd_get {k : Nat} {e : W32 → Entry} : ∃ x : Entry,
    x = { e ((KMap.get s.evt.rings k).seq + 1) with
      seq := (KMap.get s.evt.rings k).seq + 1, unit := (KMap.get s.evt.rings k).next } ∧
    (KMap.get (s.ringAdd k e).evt.rings k).entries = (KMap.get s.evt.rings k).entries ++ [x] ∧
    (KMap.get (s.ringAdd k e).evt.rings k).seq = (KMap.get s.evt.rings k).seq + 1 := by
  refine ⟨_, rfl, ?_⟩
  unfold State.ringAdd
  rw [setRing_get]
  · exact ⟨rfl, rfl⟩
  · intro empty
    exact absurd (congrArg Ring.entries empty) (by simp [default, instInhabitedRing.default])

/-! ### The event -/

/-- An event raised past the METERING point is entered, one before it goes to the boot buffer. -/
theorem raise_eq : s.raise n d = (if s.pwr.metering then (s.eventMark n).eventEntry n d s.now 1 false
    else if s.evt.boot.length < 64 then { s.eventMark n with evt := { (s.eventMark n).evt with
      boot := s.evt.boot ++ [{ time := s.now, src := n, count := 1, data := d }] } }
    else { s.eventMark n with evt := { (s.eventMark n).evt with bootLost := sat 65535 (s.evt.bootLost + 1) } }) := rfl

theorem raise_pending : (s.raise n d).evt.pending = s.evt.pending.set n true := by
  rw [raise_eq]
  split
  · rw [eventEntry_ringsOnly]
    rfl
  · split <;> rfl

theorem raise_count : (s.raise n d).evt.count = s.evt.count.upd n (fun k => (k + 1) % 2 ^ 32) := by
  rw [raise_eq]
  split
  · rw [eventEntry_ringsOnly]
    rfl
  · split <;> rfl

theorem raise_deferred : (s.raise n d).evt.deferred = s.evt.deferred := by
  rw [raise_eq]
  split
  · rw [eventEntry_ringsOnly]
    rfl
  · split <;> rfl

/-- A raised event is pending and counted once (R446). -/
theorem raise_raised (s : State) (n : Nat) (d : Bytes) : Raised n s (s.raise n d) := ⟨raise_pending, raise_count⟩

/-- The pending bit of the event itself reads as set. -/
theorem Raised.pending {t : State} (h : Raised n s t) : KMap.get t.evt.pending n = true := by
  rw [h.1, KMap.get_set_of_ne (by decide), if_pos rfl]

/-- Whether an event was raised is a matter of the two events components. -/
theorem Raised.congr {a b u v : State} (h : Raised n a b) (before : a.evt = u.evt) (after : v.evt = b.evt) : Raised n u v := by
  unfold Raised at h ⊢
  rwa [after, ← before]

theorem le_length (k v : Nat) : (le k v).length = k := by
  induction k generalizing v with
  | zero => rfl
  | succ k ih => rw [le, List.length_cons, ih]

/-- The first bytes of an SR4 entry: its number, its time and its source (Table 17.2). -/
theorem eventBytes_take (q : W32) (time : Stamp) (src flags count : Nat) (data : Bytes) :
    (eventBytes q time src flags count data).take 11 = le 4 q.toNat ++ le 6 time ++ le 1 src := by
  unfold eventBytes
  simp only [List.append_assoc]
  rw [← List.append_assoc (le 6 time), ← List.append_assoc (le 4 q.toNat)]
  exact List.take_left' (by simp only [List.length_append, le_length])

/-- An event that the mask takes, raised past the METERING point, is put into SR4. -/
theorem raise_masked (metering : s.pwr.metering = true) (mask : bit (s.cfg oEventRingMask) n = true ∨ n = 8 ∨ n = 14) :
    s.raise n d = (s.eventMark n).ringPut 4 1 (fun q lost => eventBytes q s.now n
      (flag false 0 + flag lost 1 + flag s.tamper.suspect 2) 1 d) := by
  rw [raise_eq, if_pos metering]
  exact if_pos mask

end Sys2Proof.Machine

open Sys2Proof Sys2Proof.Machine

/-- Settles O49: the bit and the count are set before the entry is placed, and the entry's place follows the METERING point, the
mask and the room. -/
theorem eventsReachTheRingOrTheBootBuffer : Obligations.EventsReachTheRingOrTheBootBuffer := by
  unfold Obligations.EventsReachTheRingOrTheBootBuffer
  rintro s n d t - wf rfl
  have frame : Only 8388608 s (s.raise n d) := State.raise_only (.refl _ s) rfl
  refine ⟨(raise_raised s n d).pending, ?_, fun m other => ?_, fun metering mask consumed room => ?_,
    fun metering mask consumed full => ?_, fun metering mask no8 no14 => ?_, fun early room => ?_, fun early full => ?_,
    frame.changesOnly rfl⟩
  · rw [raise_count, KMap.get_upd wf, if_pos rfl]
  · rw [raise_count, KMap.get_upd wf, if_neg other]
  · rw [raise_masked metering mask, ringPut_room (s := s.eventMark n) consumed room]
    obtain ⟨e, rfl, entries, seq⟩ := ringAdd_get (s := s.eventMark n) (k := 4)
    exact ⟨_, entries, rfl, seq, eventBytes_take _ _ _ _ _ _, rfl⟩
  · rw [raise_masked metering mask, ringPut_full (s := s.eventMark n) consumed (Nat.lt_one_iff.mpr full), setRing_get]
    · exact ⟨rfl, rfl, rfl⟩
    · exact fun empty => absurd (congrArg Ring.mark empty) (by simp [default, instInhabitedRing.default])
  · have unmasked : ¬ (bit ((s.eventMark n).cfg oEventRingMask) n = true ∨ n = 8 ∨ n = 14) := by
      rintro (taken | always | always)
      · exact Bool.noConfusion (mask.symm.trans taken)
      · exact no8 always
      · exact no14 always
    rw [raise_eq, if_pos metering, State.eventEntry, if_neg unmasked]
    rfl
  · rw [raise_eq, if_neg (by simp [early]), if_pos room]
    exact ⟨rfl, rfl⟩
  · rw [raise_eq, if_neg (by simp [early]), if_neg (Nat.not_lt.mpr full)]
    exact ⟨rfl, rfl⟩
end

section
/-! PROOFS. The emergency order of a trip (R338, R342): what it records, what it stops, and where it leaves the device. -/
namespace Sys2Proof.Machine

variable {s : State}

/-! ### What the steps of the order leave alone -/

@[simp] theorem State.raise_pwr {s : State} {a1 : _} {a2 : _} : (s.raise a1 a2).pwr = s.pwr :=
  (State.raise_only (.refl 8388608 s) rfl).pwr rfl
@[simp] theorem State.raise_clock {s : State} {a1 : _} {a2 : _} : (s.raise a1 a2).clock = s.clock :=
  (State.raise_only (.refl 8388608 s) rfl).clock rfl
@[simp] theorem State.dispAbandon_pwr {s : State} {a1 : _} : (s.dispAbandon a1).pwr = s.pwr :=
  (State.dispAbandon_only (.refl 276824064 s) rfl).pwr rfl
@[simp] theorem State.dispAbandon_clock {s : State} {a1 : _} : (s.dispAbandon a1).clock = s.clock :=
  (State.dispAbandon_only (.refl 276824064 s) rfl).clock rfl
@[simp] theorem State.commitAll_pwr {s : State} : (s.commitAll).pwr = s.pwr :=
  (State.commitAll_only (.refl 381418553 s) rfl).pwr rfl
@[simp] theorem State.pqTruncate_pwr {s : State} {a1 : _} : (s.pqTruncate a1).pwr = s.pwr :=
  (State.pqTruncate_only (.refl 10493952 s) rfl).pwr rfl
@[simp] theorem State.outputsOff_pwr {s : State} : (s.outputsOff).pwr = s.pwr :=
  (State.outputsOff_only (.refl 65664 s) rfl).pwr rfl
@[simp] theorem State.relayCut_pwr {s : State} : (s.relayCut).pwr = s.pwr :=
  (State.relayCut_only (.refl 524288 s) rfl).pwr rfl
@[simp] theorem State.holdDrop_pwr {s : State} : (s.holdDrop).pwr = s.pwr :=
  (State.holdDrop_only (.refl 1 s) rfl).pwr rfl
@[simp] theorem State.holdDrop_pp {s : State} : (s.holdDrop).pp = s.pp :=
  (State.holdDrop_only (.refl 1 s) rfl).pp rfl
@[simp] theorem State.holdDrop_hk {s : State} : (s.holdDrop).hk = s.hk :=
  (State.holdDrop_only (.refl 1 s) rfl).hk rfl
@[simp] theorem State.holdDrop_cal {s : State} : (s.holdDrop).cal = s.cal :=
  (State.holdDrop_only (.refl 1 s) rfl).cal rfl
@[simp] theorem State.sessionStart_pwr {s : State} : (s.sessionStart).pwr = s.pwr :=
  (State.sessionStart_only (.refl 2097152 s) rfl).pwr rfl
@[simp] theorem State.sessionStart_pp {s : State} : (s.sessionStart).pp = s.pp :=
  (State.sessionStart_only (.refl 2097152 s) rfl).pp rfl
@[simp] theorem State.sessionStart_hk {s : State} : (s.sessionStart).hk = s.hk :=
  (State.sessionStart_only (.refl 2097152 s) rfl).hk rfl
@[simp] theorem State.sessionStart_cal {s : State} : (s.sessionStart).cal = s.cal :=
  (State.sessionStart_only (.refl 2097152 s) rfl).cal rfl
@[simp] theorem State.sessionStart_dict {s : State} : (s.sessionStart).dict = s.dict :=
  (State.sessionStart_only (.refl 2097152 s) rfl).dict rfl
@[simp] theorem State.gateIslands_pp {s : State} : (s.gateIslands).pp = s.pp :=
  (State.gateIslands_only (.refl 4194304 s) rfl).pp rfl
@[simp] theorem State.gateIslands_hk {s : State} : (s.gateIslands).hk = s.hk :=
  (State.gateIslands_only (.refl 4194304 s) rfl).hk rfl
@[simp] theorem State.gateIslands_cal {s : State} : (s.gateIslands).cal = s.cal :=
  (State.gateIslands_only (.refl 4194304 s) rfl).cal rfl
@[simp] theorem State.gateIslands_dict {s : State} : (s.gateIslands).dict = s.dict :=
  (State.gateIslands_only (.refl 4194304 s) rfl).dict rfl
@[simp] theorem State.outageOpen_clock {s : State} {a1 : _} : (s.outageOpen a1).clock = s.clock :=
  (State.outageOpen_only (.refl 4194304 s) rfl).clock rfl

/-- The outage record takes none of the fields of the trip itself. -/
@[simp] theorem outageOpen_pfdTime (s : State) (src : Nat) : (s.outageOpen src).pwr.pfdTime = s.pwr.pfdTime := by
  unfold State.outageOpen
  split <;> rfl

@[simp] theorem relayCut_pp (s : State) :
    s.relayCut.pp = { s.pp with relay := { s.pp.relay with phase := .idle, op := none, retry := [] } } := rfl

@[simp] theorem sessionStart_session (s : State) : s.sessionStart.nvm.session.isSome = true := rfl

/-- No hold outlives its end. -/
@[simp] theorem holdDrop_owner (s : State) : s.holdDrop.dict.owner = none := by
  unfold State.holdDrop
  split
  case isTrue h => exact Option.isNone_iff_eq_none.mp h
  case isFalse => rfl

/-- What the trip finds of the state once supply-good has been reached: its last step is the session or the gating. -/
theorem emergency_eq (supplied : s.supplied = true) (src cause : Nat) : ∃ u : State,
    s.emergency src cause = (if s.pwr.metering then u.sessionStart else u.gateIslands) ∧
    u.pwr.source = src ∧ u.pwr.nextCause = tripCause src cause ∧ u.pwr.pfdTime = s.now ∧ u.pwr.tripAt = s.clock.clk ∧
    u.pwr.good = false ∧ u.pwr.started = false ∧ u.pwr.mode = .powerFail ∧
    u.hk.running = false ∧ u.hk.active = none ∧ u.cal.owner = none ∧ u.cal.running = false ∧
    u.pp.relay.phase = .idle ∧ u.pp.relay.op = none ∧ u.dict.owner = none := by
  unfold State.emergency
  simp only [supplied, Bool.not_true, Bool.false_eq_true, if_false]
  refine ⟨_, rfl, ?_⟩
  simp

/-- After the last step, the islands work for the session or are gated. -/
theorem emergency_spec (supplied : s.supplied = true) (src cause : Nat) :
    let t := s.emergency src cause
    t.pwr.source = src ∧ t.pwr.nextCause = tripCause src cause ∧ t.pwr.pfdTime = s.now ∧ t.pwr.tripAt = s.clock.clk ∧
    t.pwr.good = false ∧ t.pwr.started = false ∧ t.pwr.mode = (if s.pwr.metering then .powerFail else .backup) ∧
    (s.pwr.metering = true → t.nvm.session.isSome = true) ∧
    t.hk.running = false ∧ t.hk.active = none ∧ t.cal.owner = none ∧ t.cal.running = false ∧
    t.pp.relay.phase = .idle ∧ t.pp.relay.op = none ∧ t.dict.owner = none := by
  obtain ⟨u, last, source, nextCause, pfdTime, tripAt, good, started, mode, hk⟩ := emergency_eq supplied src cause
  dsimp only
  rw [last]
  cases s.pwr.metering with
  | true => simp [*]
  | false => simp [*, State.gateIslands]

/-- Without supply there is nothing to trip. -/
theorem emergency_unsupplied (unsupplied : s.supplied = false) (src cause : Nat) : s.emergency src cause = s := by
  rw [State.emergency, unsupplied]
  rfl

end Sys2Proof.Machine

open Sys2Proof Sys2Proof.Machine

/-- Settles O1: the three sources of a trip are the emergency order under their numbers. -/
theorem tripRunsEmergencyOrder : Obligations.TripRunsEmergencyOrder := by
  unfold Obligations.TripRunsEmergencyOrder
  intro s c src cause trip
  have order : exec c s = .next (s.emergency src cause) ∧ tripCause src cause = cause := by
    rcases trip with ⟨rfl, rfl, rfl⟩ | ⟨rail, rfl, rfl, rfl⟩ | ⟨rfl, rfl, rfl, mode, pin⟩
    · exact ⟨rfl, rfl⟩
    · exact ⟨rfl, rfl⟩
    · exact ⟨congrArg Host.Outcome.next (if_pos ⟨mode, pin⟩), rfl⟩
  obtain ⟨run, code⟩ := order
  refine ⟨fun unsupplied => by rw [run, emergency_unsupplied unsupplied], fun supplied => ⟨_, run, ?_⟩⟩
  obtain ⟨source, nextCause, pfdTime, tripAt, good, started, mode, session, running, active, owner, step, phase, op, hold⟩ :=
    emergency_spec supplied src cause
  exact ⟨source, nextCause.trans code, pfdTime, tripAt, good, started, mode, session, running, active, owner, step, phase, op,
    hold, (State.emergency_only (.refl 385612985 s) rfl).changesOnly rfl⟩
end

section
/-! PROOFS. EWARN (R339, R340), the end of the last-gasp session and the hold-up floor (R344). -/
namespace Sys2Proof.Machine

variable {s : State}

@[simp] theorem State.save_pwr {s : State} : (s.save).pwr = s.pwr :=
  (State.save_only (.refl 2097152 s) rfl).pwr rfl
@[simp] theorem State.save_evt {s : State} : (s.save).evt = s.evt :=
  (State.save_only (.refl 2097152 s) rfl).evt rfl
@[simp] theorem State.save_hk {s : State} : (s.save).hk = s.hk :=
  (State.save_only (.refl 2097152 s) rfl).hk rfl
@[simp] theorem State.urgent_pwr {s : State} {a1 : _} : (s.urgent a1).pwr = s.pwr :=
  (State.urgent_only (.refl 40 s) rfl).pwr rfl
@[simp] theorem State.urgent_evt {s : State} {a1 : _} : (s.urgent a1).evt = s.evt :=
  (State.urgent_only (.refl 40 s) rfl).evt rfl
@[simp] theorem State.urgent_nvm {s : State} {a1 : _} : (s.urgent a1).nvm = s.nvm :=
  (State.urgent_only (.refl 40 s) rfl).nvm rfl
@[simp] theorem State.urgent_clock {s : State} {a1 : _} : (s.urgent a1).clock = s.clock :=
  (State.urgent_only (.refl 40 s) rfl).clock rfl
@[simp] theorem State.raise_hk {s : State} {a1 : _} {a2 : _} : (s.raise a1 a2).hk = s.hk :=
  (State.raise_only (.refl 8388608 s) rfl).hk rfl
@[simp] theorem State.raise_nvm {s : State} {a1 : _} {a2 : _} : (s.raise a1 a2).nvm = s.nvm :=
  (State.raise_only (.refl 8388608 s) rfl).nvm rfl
@[simp] theorem State.raise_disp {s : State} {a1 : _} {a2 : _} : (s.raise a1 a2).disp = s.disp :=
  (State.raise_only (.refl 8388608 s) rfl).disp rfl
@[simp] theorem State.sessionValid_pwr {s : State} {a1 : _} : (s.sessionValid a1).pwr = s.pwr :=
  (State.sessionValid_only (.refl 2097152 s) rfl).pwr rfl
@[simp] theorem State.sessionValid_evt {s : State} {a1 : _} : (s.sessionValid a1).evt = s.evt :=
  (State.sessionValid_only (.refl 2097152 s) rfl).evt rfl
@[simp] theorem State.toVbat_evt {s : State} : (s.toVbat).evt = s.evt :=
  (State.toVbat_only (.refl 272629760 s) rfl).evt rfl
@[simp] theorem State.selvTarget_pwr {s : State} {a1 : _} {a2 : _} : (s.selvTarget a1 a2).pwr = s.pwr :=
  (State.selvTarget_only (.refl 268435456 s) rfl).pwr rfl

/-! ### EWARN -/

/-- A power verification is pending from its first measurement on (R82, R83). -/
theorem urgent_power_hk (s : State) : (s.urgent .power).hk = Hk.arbitrate { s.hk with pendPower := true, posPower := 0 } := rfl

/-- With supply or without the last of its conditions no cast-on begins. -/
theorem tryCastOn_stays (h : s.supplied = true ∨ s.mayCastOn = false) : s.tryCastOn = s := by
  unfold State.tryCastOn
  rcases h with h | h
  · rw [if_pos h]
  · have missing : ¬ (s.mayCastOn = true) := by simp [h]
    exact (ite_congr rfl (fun _ => rfl) (fun _ => if_neg missing)).trans (ite_self s)

/-- The state in which EV0 has been raised and the verification requested. -/
def State.ewarned (s : State) : State :=
  ((s.setPwr (fun p => { p with ewarn := true })).raise 0 (le 1 (s.cfg oEwarnMode))).urgent .power

theorem execEwarnAssert_silent (h : s.cfg oEwarnMode = 0 ∨ s.powered = false) :
    execEwarnAssert s = .next { s with pwr := { s.pwr with ewarn := true } } := by
  refine if_pos ?_
  rcases h with h | h
  · exact .inl h
  · exact .inr (by rw [show (s.setPwr _).powered = s.powered from rfl, h]; rfl)

theorem execEwarnAssert_ewarned (mode : s.cfg oEwarnMode ≠ 0) (powered : s.powered = true) :
    execEwarnAssert s = .next (if s.nvm.restored then s.ewarned.save else s.ewarned) := by
  refine (if_neg ?_).trans ?_
  · rintro (off | dark)
    · exact mode off
    · rw [show (s.setPwr _).powered = s.powered from rfl, powered] at dark
      exact absurd dark (by decide)
  · have restored : s.ewarned.nvm = s.nvm := by simp [State.ewarned]
    exact congrArg (fun n : Nvm => Host.Outcome.next (if n.restored then s.ewarned.save else s.ewarned)) restored

/-! ### The end of the session -/

/-- The AO island goes over to VBAT unless the cell is known to be too low. -/
theorem toVbat_pwr (s : State) : s.toVbat.pwr = (if s.pwr.onVbat = true ∨ (0 < s.pwr.vbat ∧ s.pwr.vbat < 2000) then s.pwr else
    { s.pwr with
      onVbat := true, vbatAt := s.clock.clk, vbatMin := if s.pwr.vbat = 0 then none else some s.pwr.vbat
      outFlags := Nat.lor s.pwr.outFlags 4 }) := by
  unfold State.toVbat
  split
  · rfl
  · simp only [apply_ite State.pwr, State.selvTarget_pwr, State.setDisp_pwr, State.setPwr_pwr, ite_self]

@[simp] theorem toVbat_mode (s : State) : s.toVbat.pwr.mode = s.pwr.mode := by
  rw [toVbat_pwr]
  split <;> rfl

@[simp] theorem toVbat_outHold (s : State) : s.toVbat.pwr.outHold = s.pwr.outHold := by
  rw [toVbat_pwr]
  split <;> rfl

theorem toVbat_onVbat (s : State) :
    s.toVbat.pwr.onVbat = (s.pwr.onVbat || !decide (0 < s.pwr.vbat ∧ s.pwr.vbat < 2000)) := by
  rw [toVbat_pwr]
  split <;> rename_i h
  · rcases h with h | h <;> simp [h]
  · simp only [not_or] at h
    simp [h.1, h.2]

/-- The state that the end of the session leaves before a cast-on is thought of. -/
def State.gaspEnd (s : State) (us : Nat) (x : Session) : State :=
  let u := (((s.sessionValid x.keys.length).raise 2 (le 4 us ++ le 2 x.keys.length)).setPwr (fun p => { p with
    outGasp := us, outFlags := Nat.lor p.outFlags 1 })).gateIslands
  if s.pwr.source = 1 ∨ s.pwr.source = 3 then u.toVbat else u

theorem execLastGaspDone_eq {us : Nat} {x : Session} (session : s.nvm.session = some x) (mode : s.pwr.mode = .powerFail) :
    execLastGaspDone us s = .next (s.gaspEnd us x).tryCastOn := by
  have source : (s.sessionValid x.keys.length).pwr.source = s.pwr.source := by rw [State.sessionValid_pwr]
  unfold execLastGaspDone
  simp only [session, mode, State.gaspEnd, State.gateIslands, State.setPwr_pwr, State.raise_pwr, source]
  rfl

theorem execLastGaspDone_idle {us : Nat} (h : s.nvm.session = none ∨ s.pwr.mode ≠ .powerFail) :
    execLastGaspDone us s = .next s := by
  unfold execLastGaspDone
  cases session : s.nvm.session with
  | none => rfl
  | some x =>
    rcases h with h | h
    · exact absurd (session.symm.trans h) (by simp)
    · exact if_pos h

theorem gaspEnd_pwr (s : State) (us : Nat) (x : Session) :
    (s.gaspEnd us x).pwr.mode = .backup ∧ (s.gaspEnd us x).pwr.metering = false ∧ (s.gaspEnd us x).pwr.gaspEnded = true ∧
    (s.gaspEnd us x).pwr.outGasp = us ∧ (s.gaspEnd us x).pwr.good = s.pwr.good ∧ (s.gaspEnd us x).pwr.onVbat = (s.pwr.onVbat ||
      (decide (s.pwr.source = 1 ∨ s.pwr.source = 3) && !decide (0 < s.pwr.vbat ∧ s.pwr.vbat < 2000))) := by
  unfold State.gaspEnd
  by_cases source : s.pwr.source = 1 ∨ s.pwr.source = 3
  · simp only [source, if_true, toVbat_onVbat]
    simp only [toVbat_pwr, State.gateIslands, State.setPwr_pwr, State.raise_pwr, State.sessionValid_pwr]
    split <;> simp
  · simp [source, State.gateIslands]

theorem gaspEnd_raised (s : State) (us : Nat) (x : Session) : Raised 2 s (s.gaspEnd us x) := by
  refine (raise_raised _ 2 (le 4 us ++ le 2 x.keys.length)).congr (a := s.sessionValid x.keys.length) State.sessionValid_evt ?_
  unfold State.gaspEnd
  simp only [apply_ite State.evt, State.toVbat_evt, State.gateIslands, State.setPwr_evt, ite_self]

theorem gaspEnd_only (s : State) (us : Nat) (x : Session) : Only 283115520 s (s.gaspEnd us x) := by
  unfold State.gaspEnd
  have gated := State.gateIslands_only (State.setPwr_only (a1 := fun p => { p with
    outGasp := us, outFlags := Nat.lor p.outFlags 1 }) (State.raise_only (a1 := 2) (a2 := le 4 us ++ le 2 x.keys.length)
      (State.sessionValid_only (a1 := x.keys.length) (.refl 283115520 s) rfl) rfl) rfl) rfl
  exact only_ite (fun _ => State.toVbat_only gated rfl) (fun _ => gated)

/-- The state in which the floor leaves the outage record and the session. -/
def State.floored (s : State) (us pages : Nat) : State :=
  let own := decide (s.pwr.outTrip = s.pwr.pfdTime)
  let u := if !s.pwr.onVbat ∧ own ∧ s.pwr.outHold = 0xFFFFFFFF then s.setPwr (fun p => { p with outHold := us }) else s
  if u.pwr.mode = .powerFail then
    ((u.setPwr (fun p => { p with
      short := true, outFlags := if own then Nat.lor p.outFlags 2 else p.outFlags })).sessionValid pages).gateIslands
  else u

theorem execHoldUpFloor_eq {us pages : Nat} (dark : s.supplied = false) :
    execHoldUpFloor us pages s = .next (s.floored us pages).toVbat :=
  if_neg (by simp [dark])

theorem floored_pwr (s : State) (us pages : Nat) :
    (s.floored us pages).pwr.mode = (if s.pwr.mode = .powerFail then .backup else s.pwr.mode) ∧
    (s.floored us pages).pwr.onVbat = s.pwr.onVbat ∧ (s.floored us pages).pwr.vbat = s.pwr.vbat ∧
    (s.pwr.onVbat = false → s.pwr.outTrip = s.pwr.pfdTime → s.pwr.outHold = 0xFFFFFFFF →
      (s.floored us pages).pwr.outHold = us) := by
  have mode : (if !s.pwr.onVbat ∧ decide (s.pwr.outTrip = s.pwr.pfdTime) ∧ s.pwr.outHold = 0xFFFFFFFF then
      s.setPwr (fun p => { p with outHold := us }) else s).pwr.mode = s.pwr.mode := by split <;> rfl
  unfold State.floored
  dsimp only
  simp only [mode]
  by_cases failing : s.pwr.mode = .powerFail
  · simp only [failing, if_true, State.gateIslands, State.setPwr_pwr, State.sessionValid_pwr]
    split <;> simp_all
  · simp only [failing, if_false]
    split <;> simp_all

end Sys2Proof.Machine

open Sys2Proof Sys2Proof.Machine

/-- Settles O2: below mode 1 or without power the pin is all; else the event, the request and the save touch different components. -/
theorem ewarnPin : Obligations.EwarnPin := by
  unfold Obligations.EwarnPin
  refine ⟨fun s h => execEwarnAssert_silent h, fun s mode powered => ?_, fun s supplied => ?_⟩
  · refine ⟨_, execEwarnAssert_ewarned mode powered, ?_⟩
    have nvm : s.ewarned.nvm = s.nvm := by simp [State.ewarned]
    have now : s.ewarned.now = s.now := now_congr (by simp [State.ewarned])
    have raised : Raised 0 s s.ewarned := raise_raised (s.setPwr _) 0 _
    have frame : Only 14680104 s (if s.nvm.restored then s.ewarned.save else s.ewarned) := by
      obtain ⟨t, answer, frame⟩ := execEwarnAssert_only (s := s)
      rw [execEwarnAssert_ewarned mode powered] at answer
      exact Host.Outcome.next.inj answer ▸ frame
    refine ⟨?_, ?_, ?_, fun restored => ?_, fun restored => ?_, frame.changesOnly rfl⟩
    · simp only [apply_ite State.pwr, State.save_pwr, ite_self]
      simp [State.ewarned]
    · have events : (if s.nvm.restored then s.ewarned.save else s.ewarned).evt = s.ewarned.evt := by
        simp only [apply_ite State.evt, State.save_evt, ite_self]
      exact raised.congr rfl events
    · simp only [apply_ite State.hk, State.save_hk, ite_self]
      simp [State.ewarned, urgent_power_hk]
    · obtain ⟨dirty, dirtyQ, dirtyD, dirtyC, mark, -⟩ := save_spec s.ewarned
      rw [nvm, now] at mark
      simp only [restored, if_true]
      exact ⟨dirty, dirtyQ, dirtyD, dirtyC, mark⟩
    · simp only [restored, Bool.false_eq_true, if_false, nvm]
  · exact congrArg Host.Outcome.next (tryCastOn_stays (.inl supplied))

/-- Settles O3: the session's end and the floor gate the islands first, and the move to VBAT then writes its own fields alone. -/
theorem sessionEndGatesIslands : Obligations.SessionEndGatesIslands := by
  unfold Obligations.SessionEndGatesIslands
  refine ⟨fun s us open_ mode good => ?_, fun s us h => execLastGaspDone_idle h, fun s us pages supplied => if_pos supplied,
    fun s us pages dark => ⟨_, execHoldUpFloor_eq dark, ?_⟩⟩
  · obtain ⟨x, session⟩ := Option.isSome_iff_exists.mp open_
    obtain ⟨backup, metering, ended, gasp, stillGood, onVbat⟩ := gaspEnd_pwr s us x
    have stays : (s.gaspEnd us x).tryCastOn = s.gaspEnd us x :=
      tryCastOn_stays (.inr (by simp [State.mayCastOn, stillGood, good]))
    have run : exec (.lastGaspDone us) s = .next (s.gaspEnd us x) := by
      rw [← stays]
      exact execLastGaspDone_eq session mode
    refine ⟨_, run, gaspEnd_raised s us x, backup, metering, ended, gasp, onVbat, ?_⟩
    exact (gaspEnd_only s us x).changesOnly rfl
  · obtain ⟨mode, onVbat, vbat, hold⟩ := floored_pwr s us pages
    refine ⟨?_, ?_, fun own trip unset => ?_, ?_⟩
    · rw [toVbat_mode, mode]
    · rw [toVbat_onVbat, onVbat, vbat]
    · rw [toVbat_outHold, hold own trip unset]
    · obtain ⟨t, answer, frame⟩ := execHoldUpFloor_only (a1 := us) (a2 := pages) (s := s)
      rw [execHoldUpFloor_eq dark] at answer
      exact Host.Outcome.next.inj answer ▸ frame.changesOnly rfl
end

section
/-! PROOFS. The cast-on (R345, R348, R349): when it begins, and what it begins with. -/
namespace Sys2Proof.Machine

variable {s : State}

@[simp] theorem State.partialCell_pwr {s : State} : (s.partialCell).pwr = s.pwr :=
  (State.partialCell_only (.refl 8388608 s) rfl).pwr rfl
@[simp] theorem State.partialCell_isl {s : State} : (s.partialCell).isl = s.isl :=
  (State.partialCell_only (.refl 8388608 s) rfl).isl rfl
@[simp] theorem State.partialCell_clock {s : State} : (s.partialCell).clock = s.clock :=
  (State.partialCell_only (.refl 8388608 s) rfl).clock rfl
@[simp] theorem State.partialCell_hk {s : State} : (s.partialCell).hk = s.hk :=
  (State.partialCell_only (.refl 8388608 s) rfl).hk rfl
@[simp] theorem State.partialCell_th {s : State} : (s.partialCell).th = s.th :=
  (State.partialCell_only (.refl 8388608 s) rfl).th rfl
@[simp] theorem State.partialCell_ftrip {s : State} : (s.partialCell).ftrip = s.ftrip :=
  (State.partialCell_only (.refl 8388608 s) rfl).ftrip rfl
@[simp] theorem State.partialCell_accts {s : State} : (s.partialCell).accts = s.accts :=
  (State.partialCell_only (.refl 8388608 s) rfl).accts rfl
@[simp] theorem State.partialCell_capt {s : State} : (s.partialCell).capt = s.capt :=
  (State.partialCell_only (.refl 8388608 s) rfl).capt rfl
@[simp] theorem State.partialCell_bal {s : State} : (s.partialCell).bal = s.bal :=
  (State.partialCell_only (.refl 8388608 s) rfl).bal rfl
@[simp] theorem State.partialCell_ports {s : State} : (s.partialCell).ports = s.ports :=
  (State.partialCell_only (.refl 8388608 s) rfl).ports rfl
@[simp] theorem State.partialCell_pp {s : State} : (s.partialCell).pp = s.pp :=
  (State.partialCell_only (.refl 8388608 s) rfl).pp rfl
@[simp] theorem State.selvStatus_pwr {s : State} : (s.selvStatus).pwr = s.pwr :=
  (State.selvStatus_only (.refl 268435456 s) rfl).pwr rfl
@[simp] theorem State.selvStatus_isl {s : State} : (s.selvStatus).isl = s.isl :=
  (State.selvStatus_only (.refl 268435456 s) rfl).isl rfl
@[simp] theorem State.selvStatus_clock {s : State} : (s.selvStatus).clock = s.clock :=
  (State.selvStatus_only (.refl 268435456 s) rfl).clock rfl
@[simp] theorem State.selvStatus_hk {s : State} : (s.selvStatus).hk = s.hk :=
  (State.selvStatus_only (.refl 268435456 s) rfl).hk rfl
@[simp] theorem State.selvStatus_th {s : State} : (s.selvStatus).th = s.th :=
  (State.selvStatus_only (.refl 268435456 s) rfl).th rfl
@[simp] theorem State.selvStatus_ftrip {s : State} : (s.selvStatus).ftrip = s.ftrip :=
  (State.selvStatus_only (.refl 268435456 s) rfl).ftrip rfl
@[simp] theorem State.selvStatus_accts {s : State} : (s.selvStatus).accts = s.accts :=
  (State.selvStatus_only (.refl 268435456 s) rfl).accts rfl
@[simp] theorem State.selvStatus_capt {s : State} : (s.selvStatus).capt = s.capt :=
  (State.selvStatus_only (.refl 268435456 s) rfl).capt rfl
@[simp] theorem State.selvStatus_bal {s : State} : (s.selvStatus).bal = s.bal :=
  (State.selvStatus_only (.refl 268435456 s) rfl).bal rfl
@[simp] theorem State.selvStatus_ports {s : State} : (s.selvStatus).ports = s.ports :=
  (State.selvStatus_only (.refl 268435456 s) rfl).ports rfl
@[simp] theorem State.selvStatus_pp {s : State} : (s.selvStatus).pp = s.pp :=
  (State.selvStatus_only (.refl 268435456 s) rfl).pp rfl
@[simp] theorem State.selvStatus_evt {s : State} : (s.selvStatus).evt = s.evt :=
  (State.selvStatus_only (.refl 268435456 s) rfl).evt rfl
@[simp] theorem State.selvClear_pwr {s : State} : (s.selvClear).pwr = s.pwr :=
  (State.selvClear_only (.refl 268435456 s) rfl).pwr rfl
@[simp] theorem State.selvClear_isl {s : State} : (s.selvClear).isl = s.isl :=
  (State.selvClear_only (.refl 268435456 s) rfl).isl rfl
@[simp] theorem State.selvClear_clock {s : State} : (s.selvClear).clock = s.clock :=
  (State.selvClear_only (.refl 268435456 s) rfl).clock rfl
@[simp] theorem State.selvClear_hk {s : State} : (s.selvClear).hk = s.hk :=
  (State.selvClear_only (.refl 268435456 s) rfl).hk rfl
@[simp] theorem State.selvClear_th {s : State} : (s.selvClear).th = s.th :=
  (State.selvClear_only (.refl 268435456 s) rfl).th rfl
@[simp] theorem State.selvClear_ftrip {s : State} : (s.selvClear).ftrip = s.ftrip :=
  (State.selvClear_only (.refl 268435456 s) rfl).ftrip rfl
@[simp] theorem State.selvClear_accts {s : State} : (s.selvClear).accts = s.accts :=
  (State.selvClear_only (.refl 268435456 s) rfl).accts rfl
@[simp] theorem State.selvClear_capt {s : State} : (s.selvClear).capt = s.capt :=
  (State.selvClear_only (.refl 268435456 s) rfl).capt rfl
@[simp] theorem State.selvClear_bal {s : State} : (s.selvClear).bal = s.bal :=
  (State.selvClear_only (.refl 268435456 s) rfl).bal rfl
@[simp] theorem State.selvClear_ports {s : State} : (s.selvClear).ports = s.ports :=
  (State.selvClear_only (.refl 268435456 s) rfl).ports rfl
@[simp] theorem State.selvClear_pp {s : State} : (s.selvClear).pp = s.pp :=
  (State.selvClear_only (.refl 268435456 s) rfl).pp rfl
@[simp] theorem State.selvClear_evt {s : State} : (s.selvClear).evt = s.evt :=
  (State.selvClear_only (.refl 268435456 s) rfl).evt rfl
@[simp] theorem State.startMetering_pwr {s : State} {a1 : _} : (s.startMetering a1).pwr = s.pwr :=
  (State.startMetering_only (.refl 9216 s) rfl).pwr rfl
@[simp] theorem State.startMetering_isl {s : State} {a1 : _} : (s.startMetering a1).isl = s.isl :=
  (State.startMetering_only (.refl 9216 s) rfl).isl rfl
@[simp] theorem State.startMetering_clock {s : State} {a1 : _} : (s.startMetering a1).clock = s.clock :=
  (State.startMetering_only (.refl 9216 s) rfl).clock rfl
@[simp] theorem State.startMetering_hk {s : State} {a1 : _} : (s.startMetering a1).hk = s.hk :=
  (State.startMetering_only (.refl 9216 s) rfl).hk rfl
@[simp] theorem State.startMetering_th {s : State} {a1 : _} : (s.startMetering a1).th = s.th :=
  (State.startMetering_only (.refl 9216 s) rfl).th rfl
@[simp] theorem State.startMetering_ftrip {s : State} {a1 : _} : (s.startMetering a1).ftrip = s.ftrip :=
  (State.startMetering_only (.refl 9216 s) rfl).ftrip rfl
@[simp] theorem State.startMetering_accts {s : State} {a1 : _} : (s.startMetering a1).accts = s.accts :=
  (State.startMetering_only (.refl 9216 s) rfl).accts rfl
@[simp] theorem State.startMetering_capt {s : State} {a1 : _} : (s.startMetering a1).capt = s.capt :=
  (State.startMetering_only (.refl 9216 s) rfl).capt rfl
@[simp] theorem State.startMetering_bal {s : State} {a1 : _} : (s.startMetering a1).bal = s.bal :=
  (State.startMetering_only (.refl 9216 s) rfl).bal rfl
@[simp] theorem State.startMetering_ports {s : State} {a1 : _} : (s.startMetering a1).ports = s.ports :=
  (State.startMetering_only (.refl 9216 s) rfl).ports rfl
@[simp] theorem State.startMetering_pp {s : State} {a1 : _} : (s.startMetering a1).pp = s.pp :=
  (State.startMetering_only (.refl 9216 s) rfl).pp rfl
@[simp] theorem State.startMetering_evt {s : State} {a1 : _} : (s.startMetering a1).evt = s.evt :=
  (State.startMetering_only (.refl 9216 s) rfl).evt rfl
@[simp] theorem State.startFrontEnd_pwr {s : State} : (s.startFrontEnd).pwr = s.pwr :=
  (State.startFrontEnd_only (.refl 3146525 s) rfl).pwr rfl
@[simp] theorem State.startFrontEnd_isl {s : State} : (s.startFrontEnd).isl = s.isl :=
  (State.startFrontEnd_only (.refl 3146525 s) rfl).isl rfl
@[simp] theorem State.startFrontEnd_clock {s : State} : (s.startFrontEnd).clock = s.clock :=
  (State.startFrontEnd_only (.refl 3146525 s) rfl).clock rfl
@[simp] theorem State.startFrontEnd_hk {s : State} : (s.startFrontEnd).hk = s.hk :=
  (State.startFrontEnd_only (.refl 3146525 s) rfl).hk rfl
@[simp] theorem State.startFrontEnd_th {s : State} : (s.startFrontEnd).th = s.th :=
  (State.startFrontEnd_only (.refl 3146525 s) rfl).th rfl
@[simp] theorem State.startFrontEnd_ftrip {s : State} : (s.startFrontEnd).ftrip = s.ftrip :=
  (State.startFrontEnd_only (.refl 3146525 s) rfl).ftrip rfl
@[simp] theorem State.startFrontEnd_accts {s : State} : (s.startFrontEnd).accts = s.accts :=
  (State.startFrontEnd_only (.refl 3146525 s) rfl).accts rfl
@[simp] theorem State.startFrontEnd_capt {s : State} : (s.startFrontEnd).capt = s.capt :=
  (State.startFrontEnd_only (.refl 3146525 s) rfl).capt rfl
@[simp] theorem State.startFrontEnd_bal {s : State} : (s.startFrontEnd).bal = s.bal :=
  (State.startFrontEnd_only (.refl 3146525 s) rfl).bal rfl
@[simp] theorem State.startFrontEnd_ports {s : State} : (s.startFrontEnd).ports = s.ports :=
  (State.startFrontEnd_only (.refl 3146525 s) rfl).ports rfl
@[simp] theorem State.startFrontEnd_pp {s : State} : (s.startFrontEnd).pp = s.pp :=
  (State.startFrontEnd_only (.refl 3146525 s) rfl).pp rfl
@[simp] theorem State.startFrontEnd_evt {s : State} : (s.startFrontEnd).evt = s.evt :=
  (State.startFrontEnd_only (.refl 3146525 s) rfl).evt rfl
@[simp] theorem State.remapLoad_pwr {s : State} : (s.remapLoad).pwr = s.pwr :=
  (State.remapLoad_only (.refl 33554432 s) rfl).pwr rfl
@[simp] theorem State.remapLoad_isl {s : State} : (s.remapLoad).isl = s.isl :=
  (State.remapLoad_only (.refl 33554432 s) rfl).isl rfl
@[simp] theorem State.remapLoad_clock {s : State} : (s.remapLoad).clock = s.clock :=
  (State.remapLoad_only (.refl 33554432 s) rfl).clock rfl
@[simp] theorem State.remapLoad_hk {s : State} : (s.remapLoad).hk = s.hk :=
  (State.remapLoad_only (.refl 33554432 s) rfl).hk rfl
@[simp] theorem State.remapLoad_th {s : State} : (s.remapLoad).th = s.th :=
  (State.remapLoad_only (.refl 33554432 s) rfl).th rfl
@[simp] theorem State.remapLoad_ftrip {s : State} : (s.remapLoad).ftrip = s.ftrip :=
  (State.remapLoad_only (.refl 33554432 s) rfl).ftrip rfl
@[simp] theorem State.remapLoad_accts {s : State} : (s.remapLoad).accts = s.accts :=
  (State.remapLoad_only (.refl 33554432 s) rfl).accts rfl
@[simp] theorem State.remapLoad_capt {s : State} : (s.remapLoad).capt = s.capt :=
  (State.remapLoad_only (.refl 33554432 s) rfl).capt rfl
@[simp] theorem State.remapLoad_bal {s : State} : (s.remapLoad).bal = s.bal :=
  (State.remapLoad_only (.refl 33554432 s) rfl).bal rfl
@[simp] theorem State.remapLoad_ports {s : State} : (s.remapLoad).ports = s.ports :=
  (State.remapLoad_only (.refl 33554432 s) rfl).ports rfl
@[simp] theorem State.remapLoad_pp {s : State} : (s.remapLoad).pp = s.pp :=
  (State.remapLoad_only (.refl 33554432 s) rfl).pp rfl
@[simp] theorem State.remapLoad_evt {s : State} : (s.remapLoad).evt = s.evt :=
  (State.remapLoad_only (.refl 33554432 s) rfl).evt rfl
@[simp] theorem State.startUpdate_pwr {s : State} : (s.startUpdate).pwr = s.pwr :=
  (State.startUpdate_only (.refl 538968065 s) rfl).pwr rfl
@[simp] theorem State.startUpdate_isl {s : State} : (s.startUpdate).isl = s.isl :=
  (State.startUpdate_only (.refl 538968065 s) rfl).isl rfl
@[simp] theorem State.startUpdate_clock {s : State} : (s.startUpdate).clock = s.clock :=
  (State.startUpdate_only (.refl 538968065 s) rfl).clock rfl
@[simp] theorem State.startUpdate_hk {s : State} : (s.startUpdate).hk = s.hk :=
  (State.startUpdate_only (.refl 538968065 s) rfl).hk rfl
@[simp] theorem State.startUpdate_th {s : State} : (s.startUpdate).th = s.th :=
  (State.startUpdate_only (.refl 538968065 s) rfl).th rfl
@[simp] theorem State.startUpdate_ftrip {s : State} : (s.startUpdate).ftrip = s.ftrip :=
  (State.startUpdate_only (.refl 538968065 s) rfl).ftrip rfl
@[simp] theorem State.startUpdate_accts {s : State} : (s.startUpdate).accts = s.accts :=
  (State.startUpdate_only (.refl 538968065 s) rfl).accts rfl
@[simp] theorem State.startUpdate_capt {s : State} : (s.startUpdate).capt = s.capt :=
  (State.startUpdate_only (.refl 538968065 s) rfl).capt rfl
@[simp] theorem State.startUpdate_bal {s : State} : (s.startUpdate).bal = s.bal :=
  (State.startUpdate_only (.refl 538968065 s) rfl).bal rfl
@[simp] theorem State.startUpdate_ports {s : State} : (s.startUpdate).ports = s.ports :=
  (State.startUpdate_only (.refl 538968065 s) rfl).ports rfl
@[simp] theorem State.startUpdate_pp {s : State} : (s.startUpdate).pp = s.pp :=
  (State.startUpdate_only (.refl 538968065 s) rfl).pp rfl
@[simp] theorem State.startUpdate_evt {s : State} : (s.startUpdate).evt = s.evt :=
  (State.startUpdate_only (.refl 538968065 s) rfl).evt rfl

/-- The event of a partly programmed cell leaves the events held for METERING (R383). -/
theorem partialCell_deferred (s : State) : s.partialCell.evt.deferred = s.evt.deferred := by
  unfold State.partialCell
  split
  · rfl
  · exact raise_deferred

/-- Every condition met, the event that brought the last one begins the cast-on. -/
theorem tryCastOn_begins (dark : s.supplied = false) (may : s.mayCastOn = true) : s.tryCastOn = s.castOn := by
  unfold State.tryCastOn
  rw [if_neg (by simp [dark])]
  exact if_pos may

theorem castOn_pwr (s : State) : s.castOn.pwr.mode = .castOn ∧ s.castOn.pwr.metering = false ∧ s.castOn.pwr.tripped = false ∧
    s.castOn.pwr.ready = false := by
  unfold State.castOn
  simp [apply_ite State.pwr]

/-- The islands begin at their reset values, the control island with its image check due (Table 13.4). -/
theorem castOn_islands (s : State) : s.castOn.isl.control = some s.clock.clk ∧ s.castOn.isl.cause = 5 ∧
    s.castOn.clock.castOn = s.clock.clk ∧ s.castOn.hk = {} ∧ s.castOn.th = [] ∧ s.castOn.ftrip = [] ∧ s.castOn.accts = [] ∧
    s.castOn.capt = [] ∧ s.castOn.bal = [] ∧ s.castOn.ports = {} := by
  unfold State.castOn
  simp [apply_ite State.isl, apply_ite State.clock, apply_ite State.hk, apply_ite State.th, apply_ite State.ftrip,
    apply_ite State.accts, apply_ite State.capt, apply_ite State.bal, apply_ite State.ports, State.startFresh]

/-- What a cast-on keeps of the accounts and of the events. -/
theorem castOn_kept (s : State) : s.castOn.pp.credit = s.pp.credit ∧ s.castOn.evt.deferred = s.evt.deferred := by
  unfold State.castOn
  simp [apply_ite State.pp, apply_ite State.evt, State.startFresh, partialCell_deferred]

end Sys2Proof.Machine

open Sys2Proof Sys2Proof.Machine

/-- Settles O4: each of the three events writes its condition and then tries the cast-on. -/
theorem castOnBegins : Obligations.CastOnBegins := by
  unfold Obligations.CastOnBegins
  refine ⟨fun s c u event dark => ?_, fun s supplied => ?_⟩
  · have tried : exec c s = .next u.tryCastOn ∧ u.clock = s.clock ∧ u.pp = s.pp ∧ u.evt = s.evt ∧
        u.life = s.life ∧ u.pending = s.pending := by
      rcases event with ⟨rfl, rfl⟩ | ⟨rfl, rfl⟩ | ⟨rfl, rfl⟩
      · exact ⟨congrArg Host.Outcome.next (if_neg (by simp [dark])), rfl, rfl, rfl, rfl, rfl⟩
      · exact ⟨congrArg Host.Outcome.next (if_neg (by simp [dark])), rfl, rfl, rfl, rfl, rfl⟩
      · exact ⟨rfl, rfl, rfl, rfl, rfl, rfl⟩
    obtain ⟨run, clock, pp, evt, lives, queue⟩ := tried
    refine ⟨fun stays => ?_, fun may dark' => ⟨u.castOn, ?_, ?_⟩⟩
    · rw [run, tryCastOn_stays stays.symm]
    · rw [run, tryCastOn_begins dark' may]
    · obtain ⟨mode, metering, tripped, ready⟩ := castOn_pwr u
      obtain ⟨control, cause, at_, hk, th, ftrip, accts, capt, bal, ports⟩ := castOn_islands u
      obtain ⟨credit, deferred⟩ := castOn_kept u
      have life := castOn_life u
      have pending := (State.castOn_only (.refl 2147483647 u) rfl).pending
      rw [clock] at control at_
      rw [pp] at credit
      rw [evt] at deferred
      rw [lives] at life
      exact ⟨mode, metering, tripped, ready, control, cause, at_, hk, th, ftrip, accts, capt, bal, ports, credit, deferred,
        by rw [life], by rw [life], pending.trans queue⟩
  · exact ⟨congrArg Host.Outcome.next (if_pos supplied), congrArg Host.Outcome.next (if_pos supplied)⟩
end

section
/-! PROOFS. The start-up test and the restoration (R300, R322), the image check (R349, R465), and the AO power-on reset (R347). -/
namespace Sys2Proof.Machine

variable {s : State}

/-- A component that every round of a loop leaves alone. -/
theorem foldl_field {α β : Type} (g : State → β) {f : State → α → State} (hf : ∀ u x, g (f u x) = g u) (l : List α) (s : State) :
    g (l.foldl f s) = g s := by
  induction l generalizing s with
  | nil => rfl
  | cons x l ih => rw [List.foldl_cons, ih, hf]

/-! ### The restoration -/

@[simp] theorem State.jSet_tamper {s : State} {a1 : _} {a2 : _} : (s.jSet a1 a2).tamper = s.tamper :=
  (State.jSet_only (.refl 1778690 s) rfl).tamper rfl
@[simp] theorem State.jSet_pwr {s : State} {a1 : _} {a2 : _} : (s.jSet a1 a2).pwr = s.pwr :=
  (State.jSet_only (.refl 1778690 s) rfl).pwr rfl
@[simp] theorem State.restoreAcct_clock {s : State} {a1 : _} : (s.restoreAcct a1).clock = s.clock :=
  (State.restoreAcct_only (.refl 67584 s) rfl).clock rfl
@[simp] theorem State.restoreAcct_tamper {s : State} {a1 : _} : (s.restoreAcct a1).tamper = s.tamper :=
  (State.restoreAcct_only (.refl 67584 s) rfl).tamper rfl
@[simp] theorem State.restoreAcct_pwr {s : State} {a1 : _} : (s.restoreAcct a1).pwr = s.pwr :=
  (State.restoreAcct_only (.refl 67584 s) rfl).pwr rfl
@[simp] theorem State.restoreBal_clock {s : State} {a1 : _} {a2 : _} : (s.restoreBal a1 a2).clock = s.clock :=
  (State.restoreBal_only (.refl 196608 s) rfl).clock rfl
@[simp] theorem State.restoreBal_tamper {s : State} {a1 : _} {a2 : _} : (s.restoreBal a1 a2).tamper = s.tamper :=
  (State.restoreBal_only (.refl 196608 s) rfl).tamper rfl
@[simp] theorem State.restoreBal_pwr {s : State} {a1 : _} {a2 : _} : (s.restoreBal a1 a2).pwr = s.pwr :=
  (State.restoreBal_only (.refl 196608 s) rfl).pwr rfl
@[simp] theorem State.creditRestore_clock {s : State} : (s.creditRestore).clock = s.clock :=
  (State.creditRestore_only (.refl 44564480 s) rfl).clock rfl
@[simp] theorem State.creditRestore_tamper {s : State} : (s.creditRestore).tamper = s.tamper :=
  (State.creditRestore_only (.refl 44564480 s) rfl).tamper rfl
@[simp] theorem State.creditRestore_pwr {s : State} : (s.creditRestore).pwr = s.pwr :=
  (State.creditRestore_only (.refl 44564480 s) rfl).pwr rfl
@[simp] theorem State.restorePulse_clock {s : State} {a1 : _} : (s.restorePulse a1).clock = s.clock :=
  (State.restorePulse_only (.refl 65536 s) rfl).clock rfl
@[simp] theorem State.restorePulse_tamper {s : State} {a1 : _} : (s.restorePulse a1).tamper = s.tamper :=
  (State.restorePulse_only (.refl 65536 s) rfl).tamper rfl
@[simp] theorem State.restorePulse_pwr {s : State} {a1 : _} : (s.restorePulse a1).pwr = s.pwr :=
  (State.restorePulse_only (.refl 65536 s) rfl).pwr rfl
@[simp] theorem State.schedStart_clock {s : State} : (s.schedStart).clock = s.clock :=
  (State.schedStart_only (.refl 524288 s) rfl).clock rfl
@[simp] theorem State.schedStart_tamper {s : State} : (s.schedStart).tamper = s.tamper :=
  (State.schedStart_only (.refl 524288 s) rfl).tamper rfl
@[simp] theorem State.schedStart_pwr {s : State} : (s.schedStart).pwr = s.pwr :=
  (State.schedStart_only (.refl 524288 s) rfl).pwr rfl
@[simp] theorem State.restoreSources_clock {s : State} : (s.restoreSources).clock = s.clock :=
  (State.restoreSources_only (.refl 78118912 s) rfl).clock rfl
@[simp] theorem State.restoreSources_pwr {s : State} : (s.restoreSources).pwr = s.pwr :=
  (State.restoreSources_only (.refl 78118912 s) rfl).pwr rfl
@[simp] theorem State.chargeTo_clock {s : State} {a1 : _} {a2 : _} : (s.chargeTo a1 a2).clock = s.clock :=
  (State.chargeTo_only (.refl 11010048 s) rfl).clock rfl
@[simp] theorem State.chargeTo_tamper {s : State} {a1 : _} {a2 : _} : (s.chargeTo a1 a2).tamper = s.tamper :=
  (State.chargeTo_only (.refl 11010048 s) rfl).tamper rfl
@[simp] theorem State.chargeTo_pwr {s : State} {a1 : _} {a2 : _} : (s.chargeTo a1 a2).pwr = s.pwr :=
  (State.chargeTo_only (.refl 11010048 s) rfl).pwr rfl
@[simp] theorem State.restoreDemand_clock {s : State} : (s.restoreDemand).clock = s.clock :=
  (State.restoreDemand_only (.refl 10551296 s) rfl).clock rfl
@[simp] theorem State.restoreDemand_tamper {s : State} : (s.restoreDemand).tamper = s.tamper :=
  (State.restoreDemand_only (.refl 10551296 s) rfl).tamper rfl
@[simp] theorem State.restoreDemand_pwr {s : State} : (s.restoreDemand).pwr = s.pwr :=
  (State.restoreDemand_only (.refl 10551296 s) rfl).pwr rfl
@[simp] theorem State.levels_tamper {s : State} {a1 : _} {a2 : _} : (s.levels a1 a2).tamper = s.tamper :=
  (State.levels_only (.refl 11010048 s) rfl).tamper rfl
@[simp] theorem State.queueOpen_tamper {s : State} {a1 : _} : (s.queueOpen a1).tamper = s.tamper :=
  (State.queueOpen_only (.refl 524288 s) rfl).tamper rfl
@[simp] theorem State.rowFailed_clock {s : State} {a1 : _} {a2 : _} {a3 : _} {a4 : _} : (s.rowFailed a1 a2 a3 a4).clock = s.clock :=
  (State.rowFailed_only (.refl 44040193 s) rfl).clock rfl
@[simp] theorem State.rowFailed_tamper {s : State} {a1 : _} {a2 : _} {a3 : _} {a4 : _} : (s.rowFailed a1 a2 a3 a4).tamper = s.tamper :=
  (State.rowFailed_only (.refl 44040193 s) rfl).tamper rfl
@[simp] theorem State.rowFailed_pwr {s : State} {a1 : _} {a2 : _} {a3 : _} {a4 : _} : (s.rowFailed a1 a2 a3 a4).pwr = s.pwr :=
  (State.rowFailed_only (.refl 44040193 s) rfl).pwr rfl
@[simp] theorem State.restoreAll_dict {s : State} {a1 : _} : (s.restoreAll a1).dict = s.dict :=
  (State.restoreAll_only (.refl 1459301378 s) rfl).dict rfl

/-- Of the clock, the journal objects are the count of cast-ons and the time of the last setting. -/
theorem jSet_clock (s : State) (key v : Nat) : (s.jSet key v).clock =
    (if key = oCastOnCount then { s.clock with castOns := BitVec.ofNat 32 v }
      else if key = oTimeLastSet then { s.clock with lastSet := v } else s.clock) := by
  unfold State.jSet
  simp only [apply_ite State.clock, ite_self]

/-- No journal object sets the time. -/
theorem jSet_now (s : State) (key v : Nat) : (s.jSet key v).now = s.now := by
  unfold State.now
  rw [jSet_clock]
  split
  · rfl
  · split <;> rfl

/-- The sources that the AO island held for the cast-on are taken (R379). -/
theorem restoreSources_tamper (s : State) : s.restoreSources.tamper = { s.tamper with pendSet := [] } := by
  unfold State.restoreSources
  simp only [foldl_field State.tamper (fun _ _ => State.queueOpen_tamper), foldl_field State.tamper (fun _ _ => State.levels_tamper),
    foldl_field State.tamper (fun _ _ => State.setPrepay_tamper _ _ _), State.setTamper_tamper]

/-- What the restoration leaves alone until it takes the sources: the tamper unit, the time and the power unit. -/
structure Steady (s t : State) : Prop where
  tamper : t.tamper = s.tamper
  now    : t.now = s.now
  pwr    : t.pwr = s.pwr

theorem Steady.trans {a b c : State} (h : Steady a b) (k : Steady b c) : Steady a c :=
  ⟨k.tamper.trans h.tamper, k.now.trans h.now, k.pwr.trans h.pwr⟩

/-- An operation outside the clock, the power unit and the tamper unit. -/
theorem Steady.of_only {m : Nat} {s t : State} (h : Only m s t) (hm : m &&& 0x4400002 = 0) : Steady s t :=
  ⟨h.tamper (testBit_of_disjoint hm rfl), now_congr (h.clock (testBit_of_disjoint hm rfl)), h.pwr (testBit_of_disjoint hm rfl)⟩

theorem Steady.foldl {α : Type} {f : State → α → State} (hf : ∀ u x, Steady u (f u x)) (l : List α) (s : State) :
    Steady s (l.foldl f s) :=
  ⟨foldl_field State.tamper (fun u x => (hf u x).tamper) l s, foldl_field State.now (fun u x => (hf u x).now) l s,
    foldl_field State.pwr (fun u x => (hf u x).pwr) l s⟩

theorem Steady.ite {s t u : State} {c : Prop} [Decidable c] (h : Steady s t) (k : Steady s u) : Steady s (if c then t else u) := by
  split
  · exact h
  · exact k

theorem jSet_steady (s : State) (key v : Nat) : Steady s (s.jSet key v) := ⟨State.jSet_tamper, jSet_now s key v, State.jSet_pwr⟩

theorem restoreAll_spec (sound : s.tamper.lostDue = false) (after : Bool) :
    (s.restoreAll after).nvm.restored = true ∧ (s.restoreAll after).nvm.headFound = true ∧
    (s.restoreAll after).tamper = { s.tamper with pendSet := [] } ∧ (s.restoreAll after).pwr.restoredAt = s.now ∧
    (s.restoreAll after).pwr.mode = s.pwr.mode := by
  unfold State.restoreAll
  extract_lets k ao lines objs accts bals xfers credit pulses pfd losses sched charged demand partial_ report done
  have ao_steady : Steady s ao := by
    simp only [ao, sound, Bool.false_eq_true, if_false]
    exact ⟨rfl, rfl, rfl⟩
  have lines_steady : Steady ao lines := ⟨rfl, rfl, rfl⟩
  have objs_steady : Steady lines objs := Steady.foldl (fun u e => by
    cases e.2 with
    | none => exact ⟨rfl, rfl, rfl⟩
    | some v => exact jSet_steady u e.1 v) _ _
  have accts_steady : Steady objs accts := .foldl (fun u _ => .of_only (State.restoreAcct_only (.refl 67584 u) rfl) rfl) _ _
  have bals_steady : Steady accts bals := .foldl (fun u _ => .of_only (State.restoreBal_only (.refl 196608 u) rfl) rfl) _ _
  have xfers_steady : Steady bals xfers := .foldl (fun u _ => .of_only (State.setPrepay_only (.refl 524288 u) rfl) rfl) _ _
  have credit_steady : Steady xfers credit := .of_only (State.creditRestore_only (.refl 44564480 xfers) rfl) rfl
  have pulses_steady : Steady credit pulses := .foldl (fun u _ => .of_only (State.restorePulse_only (.refl 65536 u) rfl) rfl) _ _
  have before : Steady s pulses := ao_steady.trans <| lines_steady.trans <| objs_steady.trans <| accts_steady.trans <|
    bals_steady.trans <| xfers_steady.trans <| credit_steady.trans pulses_steady
  have charged_steady : Steady sched charged := .foldl (fun u _ => .of_only (State.chargeTo_only (.refl 11010048 u) rfl) rfl) _ _
  have demand_steady : Steady charged demand :=
    .ite (.of_only (State.restoreDemand_only (.refl 10551296 charged) rfl) rfl) ⟨rfl, rfl, rfl⟩
  have behind : Steady sched demand := charged_steady.trans demand_steady
  have sched_tamper : sched.tamper = { s.tamper with pendSet := [] } := by
    rw [restoreSources_tamper, State.schedStart_tamper, before.tamper]
  have sched_now : sched.now = s.now := (now_congr (by simp only [sched, State.restoreSources_clock, State.schedStart_clock])).trans before.now
  have sched_pwr : sched.pwr = s.pwr := by rw [State.restoreSources_pwr, State.schedStart_pwr, before.pwr]
  refine ⟨rfl, rfl, behind.tamper.trans sched_tamper, behind.now.trans sched_now, ?_⟩
  exact (congrArg Pwr.mode (behind.pwr.trans sched_pwr) :)

/-- With the AO island sound and no restart due, nothing follows the restoration. -/
theorem backupDetection_sound (h : s.tamper.lostDue = false) : s.backupDetection = s := by
  rw [State.backupDetection, h]
  rfl

theorem restartIfDue_none (h : s.tamper.restartDue = none) : s.restartIfDue = s := by
  rw [State.restartIfDue, h]

/-- The rows that failed the start-up test are remapped, and the banks go online (R300, R302). -/
def State.banksUp (s : State) (fails : List RowFail) : State :=
  (List.range 16).foldl (fun s b => s.setBank b (fun x => { x with online := true, locked := true }))
    ((fails.foldl (fun s f => s.rowFailed f.bank.val f.row f.words 0) s).setMem (fun m => {
      m with startupFail := !fails.isEmpty, destructive := none }))

theorem banksUp_only (s : State) (fails : List RowFail) : Only 44040193 s (s.banksUp fails) := by
  refine only_foldl (State.setMem_only (only_foldl (.refl _ s) fun u f => ?_) (.of rfl) rfl) fun u b => ?_
  · exact State.rowFailed_only (.refl 44040193 u) rfl
  · exact State.setBank_only (.refl 44040193 u) rfl

theorem execMarchStartupDone_runs (fails : List RowFail) (powered : s.powered = true) (first : s.nvm.restored = false) :
    execMarchStartupDone fails s = .next (((s.banksUp fails).restoreAll
      (decide ((s.banksUp fails).pwr.outSource ≠ 0))).backupDetection.restartIfDue) :=
  if_neg (by simp [powered, first])

/-! ### The image check -/

@[simp] theorem State.trialServes_isl {s : State} : (s.trialServes).isl = s.isl :=
  (State.trialServes_only (.refl 547359233 s) rfl).isl rfl
@[simp] theorem State.trialServes_clock {s : State} : (s.trialServes).clock = s.clock :=
  (State.trialServes_only (.refl 547359233 s) rfl).clock rfl
@[simp] theorem State.retainedServes_isl {s : State} : (s.retainedServes).isl = s.isl :=
  (State.retainedServes_only (.refl 545259520 s) rfl).isl rfl
@[simp] theorem State.retainedServes_clock {s : State} : (s.retainedServes).clock = s.clock :=
  (State.retainedServes_only (.refl 545259520 s) rfl).clock rfl
@[simp] theorem State.trialAgain_isl {s : State} : (s.trialAgain).isl = s.isl :=
  (State.trialAgain_only (.refl 547357185 s) rfl).isl rfl
@[simp] theorem State.trialAgain_clock {s : State} : (s.trialAgain).clock = s.clock :=
  (State.trialAgain_only (.refl 547357185 s) rfl).clock rfl
@[simp] theorem State.windowStart_isl {s : State} : (s.windowStart).isl = s.isl :=
  (State.windowStart_only (.refl 538968065 s) rfl).isl rfl
@[simp] theorem State.windowStart_clock {s : State} : (s.windowStart).clock = s.clock :=
  (State.windowStart_only (.refl 538968065 s) rfl).clock rfl
@[simp] theorem State.switchArm_isl {s : State} : (s.switchArm).isl = s.isl :=
  (State.switchArm_only (.refl 536871424 s) rfl).isl rfl
@[simp] theorem State.switchArm_clock {s : State} : (s.switchArm).clock = s.clock :=
  (State.switchArm_only (.refl 536871424 s) rfl).clock rfl
@[simp] theorem State.bootBack_isl {s : State} : (s.bootBack).isl = s.isl :=
  (State.bootBack_only (.refl 538968065 s) rfl).isl rfl
@[simp] theorem State.bootBack_clock {s : State} : (s.bootBack).clock = s.clock :=
  (State.bootBack_only (.refl 538968065 s) rfl).clock rfl
@[simp] theorem State.halfBack_isl {s : State} {a1 : _} : (s.halfBack a1).isl = s.isl :=
  (State.halfBack_only (.refl 536871424 s) rfl).isl rfl
@[simp] theorem State.halfBack_clock {s : State} {a1 : _} : (s.halfBack a1).clock = s.clock :=
  (State.halfBack_only (.refl 536871424 s) rfl).clock rfl
@[simp] theorem State.switchDone_isl {s : State} : (s.switchDone).isl = s.isl :=
  (State.switchDone_only (.refl 547356673 s) rfl).isl rfl
@[simp] theorem State.switchDone_clock {s : State} : (s.switchDone).clock = s.clock :=
  (State.switchDone_only (.refl 547356673 s) rfl).clock rfl

/-- Without an image to run, the control island stays away. -/
theorem imageStart_none (retainedOk : Bool) (first : s.upd.restarting = false) (back : s.upd.backRestart = false)
    (trial : s.upd.st ≠ .trial) : s.imageStart false retainedOk = s := by
  unfold State.imageStart
  simp [first, back, trial]

/-- A good image outside a trial just serves. -/
theorem imageStart_plain (retainedOk : Bool) (first : s.upd.restarting = false) (back : s.upd.backRestart = false)
    (trial : s.upd.st ≠ .trial) :
    s.imageStart true retainedOk = s.setIsl (fun i => { i with control := none, served := true, kick := s.clock.clk }) := by
  unfold State.imageStart
  simp [first, back, trial]

/-- Whichever image runs, the island serves with it. -/
theorem imageStart_isl {ok : Bool} (retainedOk : Bool)
    (image : ok = true ∨ s.upd.restarting = true ∨ s.upd.backRestart = true ∨ s.upd.st = .trial) :
    (s.imageStart ok retainedOk).isl = { s.isl with control := none, served := true, kick := s.clock.clk } := by
  unfold State.imageStart
  dsimp only
  simp only [apply_ite State.isl, State.switchArm_isl, State.windowStart_isl, ite_self]
  simp only [State.setIsl_isl, State.trialServes_isl, State.trialServes_clock, State.retainedServes_isl,
    State.retainedServes_clock, State.trialAgain_isl, State.trialAgain_clock, State.switchDone_isl, State.switchDone_clock,
    State.halfBack_isl, State.halfBack_clock, State.bootBack_isl, State.bootBack_clock, State.setUpd_isl, State.setUpd_clock,
    ite_self]
  split
  · rfl
  · split
    · rfl
    · split
      · rfl
      · split
        · rfl
        · simp_all

/-! ### The AO power-on reset -/

/-- What the failure of the AO rail leaves. -/
def State.aoLost (s : State) : State :=
  ({ s.wipe with
    clock := { s.clock with rtc := 0, latch := s.clock.clk, slew := 0 }
    tamper := { ({} : Tamper) with lostDue := true }
    pp := { s.wipe.pp with acct := [] }
    disp := { s.disp with balance := [], backup := true, selv := [], outage := false }
    isl := { s.isl with dogAt := none } }).setPwr (fun p => { p with
      backupLost := true, onVbat := false, mode := .backup, metering := false, tripped := false, bind := .none, good := false
      started := false, gaspEnded := true, holdoffDone := true, nextCause := 0, ewarn := false, vbat := 0, vbatLow := false
      vbatMin := none, outFlags := Nat.lor p.outFlags 8 })

theorem execAoPowerOnReset_lost (h : s.supplied = false ∨ s.pwr.onVbat = true) : execAoPowerOnReset s = .next s.aoLost := by
  refine if_neg ?_
  rintro ⟨supplied, main⟩
  rcases h with h | h
  · simp [h] at supplied
  · simp [h] at main

end Sys2Proof.Machine

open Sys2Proof Sys2Proof.Machine

/-- Settles O6: the three events act under their conditions alone, the restoration by its steps, the image check by its branches. -/
theorem startUpAndAoReset : Obligations.StartUpAndAoReset := by
  unfold Obligations.StartUpAndAoReset
  refine ⟨fun s fails h => if_pos (by simpa using h), fun s fails powered first sound quiet => ?_, fun s ok retainedOk h => ?_,
    fun s ok retainedOk powered away start image => ?_, fun s retainedOk first back trial => ?_,
    fun s supplied main => if_pos ⟨supplied, main⟩, fun s h => ⟨_, execAoPowerOnReset_lost h, ?_⟩⟩
  · have rows := banksUp_only s fails
    have up : Steady s (s.banksUp fails) := .of_only rows rfl
    obtain ⟨restored, head, tamper, at_, mode⟩ := restoreAll_spec (s := s.banksUp fails) (by rw [up.tamper, sound])
      (decide ((s.banksUp fails).pwr.outSource ≠ 0))
    rw [up.tamper] at tamper
    have run := execMarchStartupDone_runs fails powered first
    rw [backupDetection_sound (by rw [tamper, sound]), restartIfDue_none (by rw [tamper, quiet])] at run
    have frame : Only 1459301378 (s.banksUp fails) _ := State.restoreAll_only
      (a1 := decide ((s.banksUp fails).pwr.outSource ≠ 0)) (.refl _ _) rfl
    exact ⟨_, run, restored, head, tamper, at_.trans up.now, mode.trans (congrArg Pwr.mode up.pwr),
      ((rows.mono rfl).trans (frame.mono rfl) : Only 1459301379 s _).changesOnly rfl⟩
  · refine congrArg Host.Outcome.next (if_neg ?_)
    rintro ⟨powered, away, start⟩
    rcases h with h | h | h
    · simp [h] at powered
    · simp [h] at away
    · exact h start
  · have run : exec (.imageCheckDone ok retainedOk) s = .next (s.imageStart ok retainedOk) :=
      congrArg Host.Outcome.next (if_pos ⟨powered, away, start⟩)
    refine ⟨_, run, imageStart_isl retainedOk image, fun good first back trial => ?_,
      (State.imageStart_only (.refl 1621101057 s) rfl).changesOnly rfl⟩
    rw [good, imageStart_plain retainedOk first back trial]
    rfl
  · have stays := imageStart_none retainedOk first back trial
    exact congrArg Host.Outcome.next ((ite_congr rfl (fun _ => stays) (fun _ => rfl)).trans (ite_self s))
  · obtain ⟨t, answer, frame⟩ := execAoPowerOnReset_only (s := s)
    obtain rfl := Host.Outcome.next.inj (answer.symm.trans (execAoPowerOnReset_lost h))
    exact ⟨rfl, rfl, rfl, rfl, rfl, rfl, rfl, rfl, rfl, rfl, rfl, rfl, frame.changesOnly rfl⟩
end

section
/-! PROOFS. The bytes of the NVM array (R309): a write reads back, and no other place reads differently. -/
namespace Sys2Proof.Machine

variable {fill : Byte} {m : List Host.Cell}

/-! ### Sparse byte arrays -/

/-- Below the bound of a canonical array every byte is the fill. -/
theorem cellGet_below {lo : Nat} (h : cellsWf fill (some lo) m = true) {k : Nat} (hk : k ≤ lo) : cellGet fill m k = fill := by
  induction m generalizing lo with
  | nil => rfl
  | cons e rest ih =>
    obtain ⟨a, b⟩ := e
    simp only [cellsWf, Bool.and_eq_true, decide_eq_true_eq] at h
    obtain ⟨⟨above, -⟩, tail⟩ := h
    rw [cellGet, if_neg (by omega)]
    exact ih tail (by omega)

/-- The byte written reads back, and no other byte changes. -/
theorem cellGet_cellSet {lo : Option Nat} (h : cellsWf fill lo m = true) (k : Nat) (v : Byte) (j : Nat) :
    cellGet fill (cellSet fill m k v) j = if j = k then v else cellGet fill m j := by
  induction m generalizing lo with
  | nil =>
    unfold cellSet
    by_cases blank : v = fill
    · simp [blank, cellGet]
    · simp [blank, cellGet, eq_comm]
  | cons e rest ih =>
    obtain ⟨a, b⟩ := e
    simp only [cellsWf, Bool.and_eq_true, decide_eq_true_eq] at h
    obtain ⟨-, tail⟩ := h
    unfold cellSet
    by_cases here : a = k
    · subst here
      by_cases blank : v = fill
      · by_cases same : j = a
        · simp [blank, same, cellGet_below tail (Nat.le_refl a)]
        · simp [blank, same, cellGet, Ne.symm same]
      · simp only [blank, if_true, if_false, cellGet, eq_comm (a := a)]
        split <;> rfl
    · by_cases before : k < a
      · by_cases blank : v = fill
        · by_cases same : j = k
          · simp [here, before, blank, same, cellGet, cellGet_below tail (Nat.le_of_lt before)]
          · simp [here, before, blank, same]
        · simp only [here, before, blank, if_true, if_false, cellGet, eq_comm (a := k)]
      · simp only [here, before, if_false, cellGet, ih tail]
        split <;> simp_all

/-- A run of bytes reads back where it lies, and the bytes before and behind it stand. -/
theorem ite_of_iff {α : Type} {b c : Prop} [Decidable b] [Decidable c] {x y : α} (h : b ↔ c) :
    (if b then x else y) = if c then x else y := ite_congr (propext h) (fun _ => rfl) (fun _ => rfl)

theorem cellGet_cellsSet (h : cellsWf fill none m = true) (a : Nat) (b : Bytes) (j : Nat) :
    cellGet fill (cellsSet fill m a b) j = if a ≤ j ∧ j < a + b.length then b.getD (j - a) 0 else cellGet fill m j := by
  induction b generalizing m a with
  | nil => rw [cellsSet, if_neg (by rw [List.length_nil]; omega)]
  | cons v rest ih =>
    rw [cellsSet, ih (cellSet_wf h a v), cellGet_cellSet h]
    rcases Nat.lt_trichotomy j a with below | rfl | above
    · rw [if_neg (by omega), if_neg (by omega), if_neg (by omega)]
    · rw [if_neg (by omega), if_pos rfl, if_pos (by simp), Nat.sub_self]
      rfl
    · obtain ⟨d, rfl⟩ := Nat.exists_eq_add_of_lt above
      simp only [List.length_cons]
      by_cases inside : a + d + 1 < a + (rest.length + 1)
      · rw [if_pos (by omega), if_pos (by omega), show a + d + 1 - (a + 1) = d by omega, show a + d + 1 - a = d + 1 by omega]
        rfl
      · rw [if_neg (by omega), if_neg (by omega), if_neg (by omega)]

/-! ### The NVM array -/

theorem mem_rangeFrom {a n x : Nat} : x ∈ rangeFrom a n ↔ a ≤ x ∧ x < a + n := by
  simp only [rangeFrom, List.mem_map, List.mem_range]
  constructor
  · rintro ⟨i, hi, rfl⟩
    omega
  · intro h
    exact ⟨x - a, by omega, by omega⟩

/-- Keys set to a value other than the default read so, and the others as before. -/
theorem get_foldl_set {V : Type} [Inhabited V] [DecidableEq V] {v : V} (hv : v ≠ default) (l : List Nat) (k : KMap V) (x : Nat) :
    KMap.get (l.foldl (fun (m : KMap V) p => KMap.set m p v) k) x = if x ∈ l then v else KMap.get k x := by
  induction l generalizing k with
  | nil => simp
  | cons p l ih =>
    rw [List.foldl_cons, ih, KMap.get_set_of_ne hv]
    by_cases here : x = p <;> by_cases there : x ∈ l <;> simp [here, there]

theorem programs_nvm (s : State) (p n : Nat) : (s.programs p n).nvm = { s.nvm with programs := (s.programs p n).nvm.programs } := by
  induction n generalizing s p with
  | zero => rfl
  | succ n ih =>
    rw [State.programs, ih]
    rfl

/-- The pages of slot A that a write touches no longer read as delivered. -/
theorem nvmWrite_aOver (s : State) (a : Nat) (b : Bytes) (p : Nat) : KMap.get (s.nvmWrite a b).nvm.aOver p =
    if (a / 256 ≤ p ∧ p < (a + b.length + 255) / 256) ∧ p < 3072 then true else KMap.get s.nvm.aOver p := by
  have touched : ∀ x, x ∈ (rangeFrom (a / 256) ((a + b.length + 255) / 256 - a / 256)).filter (fun p => decide (p < 3072)) ↔
      (a / 256 ≤ x ∧ x < (a + b.length + 255) / 256) ∧ x < 3072 := by
    intro x
    rw [List.mem_filter, mem_rangeFrom, decide_eq_true_eq]
    omega
  have kept : (s.programs (a / 256) ((a + b.length + 255) / 256 - a / 256)).nvm.aOver = s.nvm.aOver := by
    rw [programs_nvm]
  unfold State.nvmWrite
  dsimp only
  rw [get_foldl_set (by decide), kept]
  exact ite_of_iff (touched p)

theorem nvmWrite_mem (s : State) (a : Nat) (b : Bytes) : (s.nvmWrite a b).nvm.mem = cellsSet 0xFF s.nvm.mem a b := by
  unfold State.nvmWrite
  dsimp only
  rw [programs_nvm]

/-- The bytes written read back. -/
theorem nvmByte_nvmWrite_in {s : State} (wf : s.memWf = true) (a : Nat) (b : Bytes) {i : Nat} (hi : i < b.length) :
    (s.nvmWrite a b).nvmByte (a + i) = b.getD i 0 := by
  have cells := ((Bool.and_eq_true _ _).mp wf).1
  unfold State.nvmByte
  rw [nvmWrite_aOver, nvmWrite_mem, cellGet_cellsSet cells, if_neg, if_pos (by omega), Nat.add_sub_cancel_left]
  rintro ⟨slotA, delivered⟩
  rw [if_pos (by omega)] at delivered
  cases delivered

/-- A byte outside the run reads as before, in slot A when its page is not one of the run's. -/
theorem nvmByte_nvmWrite_out {s : State} (wf : s.memWf = true) {a x : Nat} {b : Bytes} (outside : x < a ∨ a + b.length ≤ x)
    (page : x < 786432 → x / 256 < a / 256 ∨ (a + b.length + 255) / 256 ≤ x / 256) : (s.nvmWrite a b).nvmByte x = s.nvmByte x := by
  have cells := ((Bool.and_eq_true _ _).mp wf).1
  unfold State.nvmByte
  rw [nvmWrite_aOver, nvmWrite_mem, cellGet_cellsSet cells, if_neg (by omega : ¬ (a ≤ x ∧ x < a + b.length))]
  by_cases slotA : x < 786432
  · have other := page slotA
    rw [if_neg (by omega : ¬ ((a / 256 ≤ x / 256 ∧ x / 256 < (a + b.length + 255) / 256) ∧ x / 256 < 3072))]
  · rw [if_neg (fun h => slotA h.1), if_neg (fun h => slotA h.1)]

end Sys2Proof.Machine

open Sys2Proof Sys2Proof.Machine

/-- Settles O50, by the reading of a sparse array after a run of bytes and the pages that the run marks as written. -/
theorem nvmBytesReadBack : Obligations.NvmBytesReadBack := by
  unfold Obligations.NvmBytesReadBack
  rintro s a b t wf rfl
  have frame : Only 2097152 s (s.nvmWrite a b) := State.nvmWrite_only (.refl _ s) rfl
  exact ⟨fun i hi => nvmByte_nvmWrite_in wf a b hi,
    fun x page => nvmByte_nvmWrite_out wf (by omega) fun _ => page,
    fun x slotB outside => nvmByte_nvmWrite_out wf outside fun slotA => absurd slotA (by omega), frame.memWf wf, frame.changesOnly rfl⟩
end

section
/-! PROOFS. Claim, resumption and issue of stitches (R124, R128, R132, R133), the sequenced adds and the gates (R19, R20). -/
namespace Sys2Proof.Machine

variable {s : State}

@[simp] theorem State.claim_pwr {s : State} {a1 : _} {a2 : _} {a3 : _} {a4 : _} : (s.claim a1 a2 a3 a4).pwr = s.pwr :=
  (State.claim_only (.refl 263169 s) rfl).pwr rfl
@[simp] theorem State.claim_upd {s : State} {a1 : _} {a2 : _} {a3 : _} {a4 : _} : (s.claim a1 a2 a3 a4).upd = s.upd :=
  (State.claim_only (.refl 263169 s) rfl).upd rfl
@[simp] theorem State.resume_pwr {s : State} {a1 : _} : (s.resume a1).pwr = s.pwr :=
  (State.resume_only (.refl 263169 s) rfl).pwr rfl
@[simp] theorem State.resume_upd {s : State} {a1 : _} : (s.resume a1).upd = s.upd :=
  (State.resume_only (.refl 263169 s) rfl).upd rfl
@[simp] theorem State.addNext_pwr {s : State} {a1 : _} : (s.addNext a1).pwr = s.pwr :=
  (State.addNext_only (.refl 11076609 s) rfl).pwr rfl
@[simp] theorem State.addNext_upd {s : State} {a1 : _} : (s.addNext a1).upd = s.upd :=
  (State.addNext_only (.refl 11076609 s) rfl).upd rfl
@[simp] theorem State.gateAdvance_pwr {s : State} {a1 : _} : (s.gateAdvance a1).pwr = s.pwr :=
  (State.gateAdvance_only (.refl 381418553 s) rfl).pwr rfl
@[simp] theorem State.gateAdvance_upd {s : State} {a1 : _} : (s.gateAdvance a1).upd = s.upd :=
  (State.gateAdvance_only (.refl 381418553 s) rfl).upd rfl
@[simp] theorem State.gateAdvance_ports {s : State} {a1 : _} : (s.gateAdvance a1).ports = s.ports :=
  (State.gateAdvance_only (.refl 381418553 s) rfl).ports rfl
@[simp] theorem State.gateAdvance_isl {s : State} {a1 : _} : (s.gateAdvance a1).isl = s.isl :=
  (State.gateAdvance_only (.refl 381418553 s) rfl).isl rfl
@[simp] theorem State.drained_pwr {s : State} {a1 : _} : (s.drained a1).pwr = s.pwr :=
  (State.drained_only (.refl 1024 s) rfl).pwr rfl
@[simp] theorem State.drained_upd {s : State} {a1 : _} : (s.drained a1).upd = s.upd :=
  (State.drained_only (.refl 1024 s) rfl).upd rfl
@[simp] theorem State.drained_acc {s : State} {a1 : _} : (s.drained a1).acc = s.acc :=
  (State.drained_only (.refl 1024 s) rfl).acc rfl
@[simp] theorem State.drained_ports {s : State} {a1 : _} : (s.drained a1).ports = s.ports :=
  (State.drained_only (.refl 1024 s) rfl).ports rfl
@[simp] theorem State.drained_isl {s : State} {a1 : _} : (s.drained a1).isl = s.isl :=
  (State.drained_only (.refl 1024 s) rfl).isl rfl
@[simp] theorem State.publish_eng {s : State} {a1 : _} {a2 : _} {a3 : _} {a4 : _} {a5 : _} {a6 : _} {a7 : _} : (s.publish a1 a2 a3 a4 a5 a6 a7).eng = s.eng :=
  (State.publish_only (.refl 381351992 s) rfl).eng rfl
@[simp] theorem State.contribute_eng {s : State} {a1 : _} {a2 : _} {a3 : _} {a4 : _} : (s.contribute a1 a2 a3 a4).eng = s.eng :=
  (State.contribute_only (.refl 262144 s) rfl).eng rfl
@[simp] theorem State.unitsAdd_eng {s : State} {a1 : _} {a2 : _} {a3 : _} {a4 : _} : (s.unitsAdd a1 a2 a3 a4).eng = s.eng :=
  (State.unitsAdd_only (.refl 10551296 s) rfl).eng rfl
@[simp] theorem State.unitsGate_eng {s : State} {a1 : _} {a2 : _} {a3 : _} {a4 : _} {a5 : _} : (s.unitsGate a1 a2 a3 a4 a5).eng = s.eng :=
  (State.unitsGate_only (.refl 10551296 s) rfl).eng rfl
@[simp] theorem State.debit_eng {s : State} {a1 : _} {a2 : _} {a3 : _} {a4 : _} {a5 : _} : (s.debit a1 a2 a3 a4 a5).eng = s.eng :=
  (State.debit_only (.refl 11010048 s) rfl).eng rfl
@[simp] theorem State.debit_acc {s : State} {a1 : _} {a2 : _} {a3 : _} {a4 : _} {a5 : _} : (s.debit a1 a2 a3 a4 a5).acc = s.acc :=
  (State.debit_only (.refl 11010048 s) rfl).acc rfl
@[simp] theorem State.raiseAt_acc {s : State} {a1 : _} {a2 : _} {a3 : _} {a4 : _} : (s.raiseAt a1 a2 a3 a4).acc = s.acc :=
  (State.raiseAt_only (.refl 8388608 s) rfl).acc rfl

theorem settled_congr {t : State} (hp : t.pwr = s.pwr) (hu : t.upd = s.upd) : t.settled = s.settled := by
  unfold State.settled
  rw [hp, hu]

/-- Nothing follows a commit of a settled state. -/
theorem after_settled (h : s.settled = true) : s.after = s := by
  simp only [State.settled, Bool.and_eq_true, decide_eq_true_eq] at h
  obtain ⟨⟨metering, trial⟩, bind⟩ := h
  have point : s.meteringPoint = s := if_pos (.inl metering)
  have confirm : s.confirmCheck = s := if_neg trial
  unfold State.after
  rw [point, ite_self]
  dsimp only
  rw [confirm]
  exact if_pos bind

/-! ### The issue unit's part of the engines' state -/

/-- The engines' state without its queues, the issue buffer and the skip counts. -/
def Eng.offQueues (x : Eng) : Eng := { x with wq := [], head := [], buffer := [], paused := [], skip2 := [], skip3 := [] }

theorem countSkip_offQueues (s e : State) (x : Stitch) : (s.countSkip e x).eng.offQueues = s.eng.offQueues := rfl

theorem place_offQueues (s e : State) (x : Stitch) : (s.place e x).eng.offQueues = s.eng.offQueues := by
  unfold State.place
  extract_lets turn x' u target
  have base : u.eng.offQueues = s.eng.offQueues := by
    simp only [u, apply_ite State.eng, apply_ite Eng.offQueues, countSkip_offQueues, ite_self]
  clear_value u target
  split
  · rfl
  · split
    · split <;> exact base
    · cases target with
      | some q => exact base
      | none => dsimp only; split <;> exact base

theorem drainBuffer_offQueues (s : State) (n : Nat) : (s.drainBuffer n).eng.offQueues = s.eng.offQueues := by
  induction n generalizing s with
  | zero => rfl
  | succ n ih =>
    unfold State.drainBuffer
    split
    · rfl
    · split
      · rfl
      · exact ih _

theorem drainPaused_offQueues (s : State) (n : Nat) : (s.drainPaused n).eng.offQueues = s.eng.offQueues := by
  induction n generalizing s with
  | zero => rfl
  | succ n ih =>
    unfold State.drainPaused
    split
    · rfl
    · extract_lets t
      split
      · rfl
      · exact (ih _).trans (place_offQueues _ _ _)

theorem advance_offQueues (s : State) : s.advance.eng.offQueues = s.eng.offQueues :=
  (drainPaused_offQueues _ _).trans (drainBuffer_offQueues _ _)

/-- Advancing the heads leaves what is not a queue, a buffer or a skip count. -/
theorem advance_eng {α : Type} (f : Eng → α) (h : ∀ x, f x = f x.offQueues) : f s.advance.eng = f s.eng := by
  rw [h, advance_offQueues, ← h]

@[simp] theorem advance_engines : s.advance.eng.engines = s.eng.engines := advance_eng (·.engines) fun _ => rfl
@[simp] theorem advance_clusters : s.advance.eng.clusters = s.eng.clusters := advance_eng (·.clusters) fun _ => rfl
@[simp] theorem advance_streams : s.advance.eng.streams = s.eng.streams := advance_eng (·.streams) fun _ => rfl

theorem finish_engines (k : Nat) (h : Held) : (s.finish k h).eng.engines =
    s.eng.engines.upd k (fun x => { x with run := none, done := (x.done + 1) % 2 ^ 32 }) := advance_engines

theorem finish_clusters (k : Nat) (h : Held) : (s.finish k h).eng.clusters = s.eng.clusters := advance_clusters

@[simp] theorem finish_streams (k : Nat) (h : Held) : (s.finish k h).eng.streams = s.eng.streams := advance_streams

/-! ### Going on with a stitch -/

/-- The gate streams and the counts of the engines' state. -/
def Eng.counts (x : Eng) : KMap Stream × Nat × Nat := (x.streams, x.stolenLocal, x.stolenRemote)

theorem advance_counts : s.advance.eng.counts = s.eng.counts := advance_eng Eng.counts fun _ => rfl

theorem finish_counts (k : Nat) (h : Held) : (s.finish k h).eng.counts = s.eng.counts := advance_counts

theorem gatePass_counts (k : Nat) (h : Held) (x : Stitch) (b : Boundary) (c : Cyc) :
    (s.gatePass k h x b c).eng.counts = s.eng.counts := by
  unfold State.gatePass
  extract_lets e late est x' u
  split
  · extract_lets r p
    have kept : (u.contribute e x'.num c p.1).eng = u.eng := State.contribute_eng
    show (u.contribute e x'.num c p.1).eng.counts = _
    rw [kept]
    rfl
  · rfl

/-- Going on with a stitch moves no gate stream and counts no stolen stitch. -/
theorem go_counts (k : Nat) (h : Held) : (s.go k h).eng.counts = s.eng.counts := by
  unfold State.go
  split
  · rfl
  · extract_lets x e
    split
    · exact finish_counts k h
    · split
      · exact finish_counts k h
      · split
        · rfl
        · extract_lets h'
          split
          · exact gatePass_counts _ _ _ _ _
          · rfl

theorem newer_succ (g : W32) : newer (g + 1) g = true := by
  unfold newer
  rw [show g + 1 - g = 1 by bv_omega]
  decide

/-- A stitch that waited for its gate, whose result is no bill, is ready for its adds. -/
theorem gatePass_engines (k : Nat) (h : Held) (x : Stitch) (b : Boundary) (c : Cyc) (unbilled : ∀ r, h.pub ≠ .bill r) :
    ∃ quality, (s.gatePass k h x b c).eng.engines =
      s.eng.engines.upd k (fun y => { y with run := some { h with ready := true, wait := none, quality := quality } }) := by
  unfold State.gatePass
  extract_lets e late est x' u
  split
  · rename_i r billed
    exact absurd billed (unbilled r)
  · exact ⟨_, rfl⟩

theorem go_gate {k : Nat} {h : Held} {x : Stitch} (entry : s.entryOf h = some x) (wait : h.wait = some .gate)
    (gate : (s.streamOf x).gate + 1 = x.seq) (cycle : (s.cycAt x.vg x.bslot).isSome = true) :
    ∃ b c, s.go k h = s.gatePass k h x b c := by
  obtain ⟨⟨b0, b1, c⟩, records⟩ := Option.isSome_iff_exists.mp cycle
  have fresh : newer x.seq (s.streamOf x).gate = true := gate ▸ newer_succ _
  refine ⟨b1, c, ?_⟩
  unfold State.go
  rw [entry]
  simp only [fresh, records, wait, gate, Bool.not_true, Bool.false_eq_true, if_true, if_false]

/-! ### Entries of the queues -/

/-- The entry of a held stitch after a change of it that leaves its name. -/
theorem setEntry_entryOf {h : Held} {x : Stitch} {f : Stitch → Stitch} (entry : s.entryOf h = some x)
    (named : ∀ y, h.is y = true → h.is (f y) = true) : (s.setEntry h f).entryOf h = some (f x) := by
  have changed : ∀ l : List Stitch, (l.map (fun y => if h.is y = true then f y else y)).find? h.is = (l.find? h.is).map f := by
    intro l
    induction l with
    | nil => rfl
    | cons y l ih =>
      by_cases hy : h.is y = true
      · simp [hy, named y hy]
      · simpa [hy] using ih
  have found : (s.eng.wq.get h.q).find? h.is = some x := entry
  have filled : (s.eng.wq.get h.q).map (fun y => if h.is y = true then f y else y) ≠ default := by
    intro empty
    rw [List.map_eq_nil_iff.mp empty] at found
    exact absurd found (by simp)
  show ((s.eng.wq.upd h.q _).get h.q).find? h.is = some (f x)
  unfold KMap.upd
  rw [KMap.get_set_of_ne filled, if_pos rfl, changed, found]
  rfl

theorem cycAt_congr {t : State} (hg : t.groups = s.groups) (vg b : Nat) : (t.cycAt vg b).isSome = (s.cycAt vg b).isSome := by
  unfold State.cycAt
  rw [hg]
  split <;> rfl

/-! ### Claim -/

theorem execStitchClaim_claims {e : Fin 32} {q far : Nat} {x : Stitch} (powered : s.powered = true) (settled : s.settled = true)
    (idle : s.idleEngine e.val = true) (serves : (s.eng.engines.get e.val).draining = false)
    (none_waits : (s.eng.engines.get e.val).susp.any s.resumable = false) (room : (s.eng.engines.get e.val).susp.length < 4)
    (pick : s.pick e.val = some (q, far, x)) : execStitchClaim e s = .next (s.claim e.val q far x) := by
  unfold execStitchClaim
  simp only [powered, idle, serves, none_waits, pick, Bool.not_true, Bool.or_false, Bool.false_or, decide_eq_true_eq]
  exact (if_neg (Nat.not_le.mpr room)).trans (congrArg Host.Outcome.next
    (after_settled ((settled_congr State.claim_pwr State.claim_upd).trans settled)))

theorem claim_counts (k q far : Nat) (x : Stitch) : (s.claim k q far x).eng.counts =
    (if x.returned then s.eng.streams else s.eng.streams.upd (streamKey x.pat x.kind x.num) (fun y => { y with claim := x.seq }),
      if far = 1 then (s.eng.stolenLocal + 1) % 2 ^ 32 else s.eng.stolenLocal,
      if far = 2 then (s.eng.stolenRemote + 1) % 2 ^ 32 else s.eng.stolenRemote) := by
  unfold State.claim
  refine (go_counts _ _).trans ?_
  cases x.returned <;> rfl

/-! ### Resumption -/

/-- The state in which a suspended stitch is taken off its slot and goes on. -/
def State.taken (s : State) (k : Nat) (h : Held) : State :=
  (s.setEngine k (fun x => { x with susp := x.susp.erase h })).setEntry h (fun y => { y with st := .claimed })

theorem execStitchResume_goes {e : Fin 32} {h : Held} (powered : s.powered = true) (settled : s.settled = true)
    (idle : s.idleEngine e.val = true) (found : (s.eng.engines.get e.val).susp.find? s.resumable = some h) :
    execStitchResume e s = .next ((s.taken e.val h).go e.val h) := by
  have resumed : s.resume e.val = (s.taken e.val h).go e.val h := by
    unfold State.resume
    rw [found]
    rfl
  have plain : (s.resume e.val).after = s.resume e.val :=
    after_settled ((settled_congr State.resume_pwr State.resume_upd).trans settled)
  refine congrArg Host.Outcome.next ((if_pos (by rw [powered, idle]; rfl)).trans ?_)
  rw [plain, resumed]

/-! ### The issue buffer -/

/-- The buffer drains from its front until it is empty or its head finds no queue. -/
theorem drainBuffer_drains (n : Nat) (fits : s.eng.buffer.length ≤ n) :
    (∃ l, s.eng.buffer = l ++ (s.drainBuffer n).eng.buffer) ∧
    (∀ x rest, (s.drainBuffer n).eng.buffer = x :: rest →
      (s.drainBuffer n).eng.target ((s.drainBuffer n).homeOf (s.drainBuffer n) x.pat x.kind x.num) = none) := by
  induction n generalizing s with
  | zero =>
    have empty : s.eng.buffer = [] := List.length_eq_zero_iff.mp (Nat.le_zero.mp fits)
    refine ⟨⟨[], rfl⟩, fun x rest head => ?_⟩
    rw [show s.drainBuffer 0 = s from rfl, empty] at head
    cases head
  | succ n ih =>
    unfold State.drainBuffer
    split
    · rename_i empty
      refine ⟨⟨[], rfl⟩, fun x rest head => ?_⟩
      rw [empty] at head
      cases head
    · rename_i x rest head
      split
      · rename_i full
        refine ⟨⟨[], rfl⟩, fun y rest' head' => ?_⟩
        obtain ⟨rfl, -⟩ := List.cons.inj (head.symm.trans head')
        exact full
      · rename_i q _
        have shorter : rest.length ≤ n := by
          rw [head] at fits
          exact Nat.le_of_succ_le_succ fits
        obtain ⟨⟨l, split⟩, stop⟩ := ih (s := s.setEng fun y =>
          { y with buffer := rest, wq := y.wq.upd q (fun l => l ++ [x]) }) shorter
        exact ⟨⟨x :: l, head.trans (congrArg (x :: ·) split)⟩, stop⟩

theorem drainBuffer_paused (n : Nat) : (s.drainBuffer n).eng.paused = s.eng.paused := by
  induction n generalizing s with
  | zero => rfl
  | succ n ih =>
    unfold State.drainBuffer
    split
    · rfl
    · split
      · rfl
      · exact ih

/-- Without a paused issue the heads advance and the buffer drains. -/
theorem advance_unpaused (h : s.eng.paused = []) :
    ∃ u : State, u.eng.buffer = s.eng.buffer ∧ u.eng.paused = [] ∧ s.advance = u.drainBuffer 64 := by
  unfold State.advance
  extract_lets n u
  refine ⟨u, rfl, h, ?_⟩
  rw [show u.eng.paused.length = 0 from congrArg List.length h]
  rfl

/-! ### The sequenced adds -/

/-- An applied add moves neither the engines nor the gate streams; a discarded one is counted. -/
theorem seqAdd_engines (e : State) (a : AddTo) (d : Nat) (q : W32) (c : Cyc) :
    (s.seqAdd e a d q c).eng.engines = s.eng.engines ∧ (s.seqAdd e a d q c).eng.streams = s.eng.streams := by
  unfold State.seqAdd
  cases a <;> dsimp only <;> split
  · exact ⟨rfl, rfl⟩
  · exact ⟨congrArg Eng.engines State.unitsAdd_eng, congrArg Eng.streams State.unitsAdd_eng⟩
  · exact ⟨rfl, rfl⟩
  · exact ⟨rfl, rfl⟩
  · exact ⟨rfl, rfl⟩
  · exact ⟨congrArg Eng.engines State.debit_eng, congrArg Eng.streams State.debit_eng⟩

/-- The lines and the applied flag of the accumulators. -/
def Acc.bank (a : Acc) : KMap Line × Bool := (a.lines, a.applied)

theorem setDemand_bank (n : Nat) (f : Demand → Demand) : (s.setDemand n f).acc.bank = s.acc.bank := by
  unfold State.setDemand
  extract_lets x y u
  split
  · rfl
  · rfl

theorem slotCycle_bank (k n : Nat) (r : Rat) (endT : Stamp) : (s.slotCycle k n r endT).acc.bank = s.acc.bank := by
  unfold State.slotCycle
  extract_lets x lim low hit run u
  split
  · rw [State.raiseAt_acc]
    rfl
  · rfl

theorem pulseRun_bank (k t : Nat) : (s.pulseRun k t).acc.bank = s.acc.bank := by
  unfold State.pulseRun
  split <;> rfl

theorem pulseAdd_bank (k d : Nat) (c : Cyc) : (s.pulseAdd k d c).acc.bank = s.acc.bank := by
  unfold State.pulseAdd
  split
  · rfl
  · extract_lets u q now half v r ups downs w
    have start : w.acc.bank = s.acc.bank := pulseRun_bank k 0
    exact (pulseRun_bank k now).trans start

theorem unitsAdd_bank (n w d : Nat) (c : Cyc) : (s.unitsAdd n w d c).acc.bank = s.acc.bank := by
  unfold State.unitsAdd
  extract_lets len u v w
  have demand : u.acc.bank = s.acc.bank := by
    simp only [u, apply_ite State.acc, apply_ite Acc.bank, setDemand_bank, ite_self]
  have profile : v.acc.bank = u.acc.bank := by
    simp only [v, apply_ite State.acc, apply_ite Acc.bank]
    exact ite_self _
  have slot : w.acc.bank = v.acc.bank := by
    simp only [w]
    split
    · rfl
    · exact slotCycle_bank _ _ _ _
  split
  · exact slot.trans (profile.trans demand)
  · exact (pulseAdd_bank _ _ _).trans (slot.trans (profile.trans demand))

theorem Line.add_newer {l : Line} {q : W32} (h : newer q l.marker = true) (d : Nat) :
    l.add d q = some { value := l.value + BitVec.ofNat 96 d, marker := q } := if_pos h

theorem Line.add_older {l : Line} {q : W32} (h : newer q l.marker = false) (d : Nat) : l.add d q = none :=
  if_neg (by rw [h]; exact Bool.false_ne_true)

theorem seqAdd_line (e : State) (d : Nat) {q : W32} {c : Cyc} {n : Nat} (h : newer q (s.acc.lines.get n).marker = true) :
    (s.seqAdd e (.line n) d q c).acc.bank =
      (s.acc.lines.set n { value := (s.acc.lines.get n).value + BitVec.ofNat 96 d, marker := q }, true) := by
  unfold State.seqAdd
  simp only [Line.add_newer h]
  exact unitsAdd_bank _ _ _ _

theorem seqAdd_quality (e : State) (d : Nat) {q : W32} {c : Cyc} {n : Nat} (h : newer q (s.acc.quality.get n).marker = true) :
    (s.seqAdd e (.quality n) d q c).acc.quality =
      s.acc.quality.set n { value := (s.acc.quality.get n).value + BitVec.ofNat 96 d, marker := q } ∧
    (s.seqAdd e (.quality n) d q c).acc.lines = s.acc.lines := by
  unfold State.seqAdd
  simp only [Line.add_newer h]
  exact ⟨rfl, rfl⟩

theorem seqAdd_discards (e : State) (d : Nat) {a : AddTo} {q : W32} {c : Cyc} {n : Nat}
    (h : (a = .line n ∧ newer q (s.acc.lines.get n).marker = false) ∨
      (a = .quality n ∧ newer q (s.acc.quality.get n).marker = false) ∨
      (a = .energy n ∧ newer q (s.acc.energy.get n).marker = false)) : s.seqAdd e a d q c = s.discardAdd := by
  unfold State.seqAdd
  obtain ⟨rfl, old⟩ | ⟨rfl, old⟩ | ⟨rfl, old⟩ := h <;> simp only [Line.add_older old]

/-- The state in which the entry of the running stitch is committing. -/
def State.committing (s : State) (h : Held) : State := s.setEntry h (fun x => { x with st := .committing })

theorem execSequencedAdd_adds {e : Fin 32} {h : Held} {x : Stitch} {a : AddTo × Nat} {rest : List (AddTo × Nat)}
    (powered : s.powered = true) (settled : s.settled = true) (run : (s.eng.engines.get e.val).run = some h)
    (ready : h.ready = true) (adds : h.adds = a :: rest) (entry : s.entryOf h = some x)
    (cycle : (s.cycAt x.vg x.bslot).isSome = true) (free : s.lineHeld a.1 = false) :
    ∃ v c, execSequencedAdd e s = .next (((s.committing h).seqAdd v a.1 a.2 x.seq c).setEngine e.val
      (fun y => { y with run := some { h with adds := rest } })) := by
  obtain ⟨⟨b0, b1, c⟩, records⟩ := Option.isSome_iff_exists.mp cycle
  refine ⟨(s.committing h).atEpoch x.epoch, c, congrArg Host.Outcome.next ((if_pos powered).trans ?_)⟩
  refine (after_settled ((settled_congr State.addNext_pwr State.addNext_upd).trans settled)).trans ?_
  unfold State.addNext
  simp only [run, ready, adds, entry, records, free]
  rfl

/-! ### The gate -/

theorem gateAdvance_finishes {k : Nat} {h : Held} {x : Stitch} (run : (s.eng.engines.get k).run = some h)
    (ready : h.ready = true) (adds : h.adds = []) (entry : s.entryOf h = some x)
    (cycle : (s.cycAt x.vg x.bslot).isSome = true)
    (gate : (s.eng.streams.get (streamKey x.pat x.kind x.num)).gate + 1 = x.seq) :
    ∃ v : State, v.eng = (s.setStream (streamKey x.pat x.kind x.num) (fun y => { y with gate := x.seq })).eng ∧
      s.gateAdvance k = v.finish k h := by
  obtain ⟨⟨b0, b1, c⟩, records⟩ := Option.isSome_iff_exists.mp cycle
  have passes : ¬ (s.eng.streams.get (streamKey x.pat x.kind x.num)).gate + 1 ≠ x.seq := not_not_intro gate
  unfold State.gateAdvance
  simp only [run, ready, adds, entry, records]
  rw [if_neg passes]
  refine ⟨_, ?_, rfl⟩
  simp only [apply_ite State.eng, State.unitsGate_eng, State.publish_eng, ite_self]

/-- With engines and clusters that stay in service an engine's drain changes nothing. -/
theorem drained_serves {k : Nat} (engine : (s.eng.engines.get k).draining = false) (clusters : s.eng.clusters = []) :
    s.drained k = s := by
  have cluster : (s.eng.clusters.get (k / 8)).draining = false := by rw [clusters]; rfl
  unfold State.drained
  simp only [engine, Bool.false_eq_true, false_and, if_false, cluster]

@[simp] theorem drained_streams (k : Nat) : (s.drained k).eng.streams = s.eng.streams := by
  unfold State.drained
  extract_lets x u c
  have base : u.eng.streams = s.eng.streams := by
    simp only [u]
    split <;> rfl
  split
  · exact base
  · exact base

theorem execGateAdvance_advances {e : Fin 32} (powered : s.powered = true) (settled : s.settled = true) :
    execGateAdvance e s = .next ((s.gateAdvance e.val).drained e.val) := by
  refine congrArg Host.Outcome.next ((if_pos powered).trans (after_settled ?_))
  exact (settled_congr (by simp) (by simp)).trans settled

end Sys2Proof.Machine

open Sys2Proof Sys2Proof.Machine

/-- Settles O8: going on with a stitch moves no gate stream and counts no stolen stitch, so the claim's own changes stand. -/
theorem claimResumeAndIssue : Obligations.ClaimResumeAndIssue := by
  unfold Obligations.ClaimResumeAndIssue
  refine ⟨?_, ?_, ?_⟩
  · intro s e q far x powered settled idle serves noneWaits room pick
    have answer := execStitchClaim_claims powered settled idle serves noneWaits room pick
    have counts := claim_counts (s := s) e.val q far x
    refine ⟨_, answer, congrArg (·.1) counts, congrArg (·.2.1) counts, congrArg (·.2.2) counts, ?_⟩
    obtain ⟨t, run, frame⟩ := execStitchClaim_only (a1 := e) (s := s)
    obtain rfl := Host.Outcome.next.inj (run.symm.trans answer)
    exact frame.changesOnly rfl
  · intro s e h x powered settled idle found wait unbilled entry cycle gate
    have answer := execStitchResume_goes powered settled idle found
    have entry' : (s.taken e.val h).entryOf h = some { x with st := .claimed } :=
      setEntry_entryOf (s := s.setEngine e.val (fun y => { y with susp := y.susp.erase h })) entry fun _ named => named
    obtain ⟨b, c, goes⟩ := go_gate (k := e.val) entry' wait gate ((cycAt_congr (t := s.taken e.val h) rfl x.vg x.bslot).trans cycle)
    obtain ⟨quality, engines⟩ := gatePass_engines (s := s.taken e.val h) e.val h { x with st := .claimed } b c unbilled
    have counts := go_counts (s := s.taken e.val h) e.val h
    refine ⟨_, quality, answer, (congrArg (·.eng.engines) goes).trans engines, congrArg (·.1) counts, ?_⟩
    obtain ⟨t, run, frame⟩ := execStitchResume_only (a1 := e) (s := s)
    obtain rfl := Host.Outcome.next.inj (run.symm.trans answer)
    exact frame.changesOnly rfl
  · intro s paused fits
    obtain ⟨u, buffer, unpaused, drains⟩ := advance_unpaused paused
    obtain ⟨front, stop⟩ := drainBuffer_drains (s := u) 64 (buffer ▸ fits)
    refine ⟨s.advance, rfl, ?_, ?_, ?_, (State.advance_only (.refl 1025 s) rfl).changesOnly rfl⟩
    · rw [drains, drainBuffer_paused, unpaused]
    · rw [drains, ← buffer]
      exact front
    · rw [drains]
      exact stop

/-- Settles O9: by the case of the add, and for the gate through the state that the publication leaves. -/
theorem sequencedAddAndGate : Obligations.SequencedAddAndGate := by
  unfold Obligations.SequencedAddAndGate
  refine ⟨?_, ?_, ?_⟩
  · intro s e h x a rest powered settled run ready adds entry cycle free
    obtain ⟨v, c, answer⟩ := execSequencedAdd_adds powered settled run ready adds entry cycle free
    obtain ⟨engines, streams⟩ := seqAdd_engines (s := s.committing h) v a.1 a.2 x.seq c
    refine ⟨_, answer, congrArg (fun m : KMap Engine => m.upd e.val (fun y => { y with run := some { h with adds := rest } })) engines, streams, ?_, ?_, ?_, ?_⟩
    · intro n line fresh
      have bank := seqAdd_line (s := s.committing h) v a.2 (c := c) fresh
      rw [← line] at bank
      exact ⟨congrArg (·.1) bank, congrArg (·.2) bank⟩
    · intro n line fresh
      have bank := seqAdd_quality (s := s.committing h) v a.2 (c := c) fresh
      rw [← line] at bank
      exact bank
    · intro n old
      have discards := seqAdd_discards (s := s.committing h) v a.2 (c := c) old
      exact ⟨(congrArg State.acc discards :), (congrArg (·.eng.discarded) discards :)⟩
    · obtain ⟨t, run', frame⟩ := execSequencedAdd_only (a1 := e) (s := s)
      obtain rfl := Host.Outcome.next.inj (run'.symm.trans answer)
      exact frame.changesOnly rfl
  · intro s e h x powered settled run ready adds entry cycle gate
    obtain ⟨v, eng, finishes⟩ := gateAdvance_finishes run ready adds entry cycle gate
    have engines : (s.gateAdvance e.val).eng.engines =
        s.eng.engines.upd e.val (fun y => { y with run := none, done := (y.done + 1) % 2 ^ 32 }) := by
      rw [finishes, finish_engines, eng]
      rfl
    refine ⟨_, execGateAdvance_advances powered settled, ?_, ?_, by simp, by simp, by simp, ?_⟩
    · rw [drained_streams, finishes, finish_streams, eng]
      rfl
    · intro clusters stays counted
      have fresh : ({ s.eng.engines.get e.val with
          run := none, done := ((s.eng.engines.get e.val).done + 1) % 2 ^ 32 } : Engine) ≠ default :=
        fun empty => counted (congrArg Engine.done empty)
      have serves : ((s.gateAdvance e.val).eng.engines.get e.val).draining = false := by
        rw [engines, KMap.upd, KMap.get_set_of_ne fresh, if_pos rfl]
        exact stays
      have off : (s.gateAdvance e.val).eng.clusters = [] := by
        rw [finishes, finish_clusters, eng]
        exact clusters
      rw [drained_serves serves off]
      exact engines
    · exact ((State.drained_only (.refl 1024 _) rfl).pending).trans (State.gateAdvance_only (.refl 381418553 s) rfl).pending
  · intro s e dark
    have off : ¬ s.powered = true := by rw [dark]; exact Bool.false_ne_true
    refine ⟨congrArg Host.Outcome.next (if_neg off), congrArg Host.Outcome.next (if_neg off), ?_, ?_⟩
    · exact if_pos (by simp [dark])
    · exact congrArg Host.Outcome.next (if_neg (by simp [dark]))

end

section
/-! PROOFS. Return to service and the admission evaluation (R137, R140, R141). -/
namespace Sys2Proof.Machine

variable {s : State}

@[simp] theorem State.engineBack_evt {s : State} {a1 : _} {a2 : _} : (s.engineBack a1 a2).evt = s.evt :=
  (State.engineBack_only (.refl 1024 s) rfl).evt rfl
@[simp] theorem State.engineBack_dict {s : State} {a1 : _} {a2 : _} : (s.engineBack a1 a2).dict = s.dict :=
  (State.engineBack_only (.refl 1024 s) rfl).dict rfl
@[simp] theorem State.ev57_eng {s : State} {a1 : _} : (s.ev57 a1).eng = s.eng :=
  (State.ev57_only (.refl 8388608 s) rfl).eng rfl
@[simp] theorem State.ev58_eng {s : State} {a1 : _} {a2 : _} : (s.ev58 a1 a2).eng = s.eng :=
  (State.ev58_only (.refl 8388608 s) rfl).eng rfl

/-! ### Return to service -/

theorem engineBack_clusters (k : Nat) (ok : Bool) : (s.engineBack k ok).eng.clusters = s.eng.clusters := rfl

/-- What a cluster is at the end of its restart. -/
def Cluster.back (s : State) (c : Nat) (ok : Bool) (x : Cluster) : Cluster :=
  { x with svc := false, st := (if ok = false ∨ s.atLimit x.resets = true then .outOfService
                                else if s.clusterOn c then .inService else .off) }

/-- A cluster's engines end their restart before it. -/
def State.enginesBack (s : State) (c : Nat) (ok : Bool) : State := (rangeFrom (8 * c) 8).foldl (fun s k => s.engineBack k ok) s

@[simp] theorem enginesBack_evt (c : Nat) (ok : Bool) : (s.enginesBack c ok).evt = s.evt :=
  foldl_field State.evt (fun _ _ => State.engineBack_evt) _ _

@[simp] theorem enginesBack_dict (c : Nat) (ok : Bool) : (s.enginesBack c ok).dict = s.dict :=
  foldl_field State.dict (fun _ _ => State.engineBack_dict) _ _

@[simp] theorem enginesBack_clusters (c : Nat) (ok : Bool) : (s.enginesBack c ok).eng.clusters = s.eng.clusters :=
  foldl_field (fun u => u.eng.clusters) (fun _ _ => engineBack_clusters _ _) _ _

/-- The state in which a cluster and its engines have ended their restart. -/
def State.clusterUp (s : State) (c : Nat) (ok : Bool) : State :=
  (s.enginesBack c ok).setCluster c (Cluster.back s c ok)

theorem clusterUp_clusters (c : Nat) (ok : Bool) :
    (s.clusterUp c ok).eng.clusters = s.eng.clusters.upd c (Cluster.back s c ok) := by
  unfold State.clusterUp State.setCluster
  simp

theorem clusterUp_evt (c : Nat) (ok : Bool) : (s.clusterUp c ok).evt = s.evt := by
  unfold State.clusterUp State.setCluster
  simp

theorem clusterBack_restarts {c : Nat} {ok : Bool}
    (h : (s.eng.clusters.get c).st = .starting ∨ (s.eng.clusters.get c).st = .restarting) :
    ∃ cause, s.clusterBack c ok =
      if (s.eng.clusters.get c).st = .starting then s.clusterUp c ok else (s.clusterUp c ok).ev58 (2 + c) cause := by
  have goes : ¬ ((s.eng.clusters.get c).st ≠ .starting ∧ (s.eng.clusters.get c).st ≠ .restarting) := by
    rw [Classical.not_and_iff_not_or_not, Classical.not_not, Classical.not_not]
    exact h
  have on : (s.enginesBack c ok).clusterOn c = s.clusterOn c := by
    unfold State.clusterOn State.cfg
    rw [enginesBack_dict]
  have up : (s.enginesBack c ok).setCluster c (fun x => { x with
      st := if (!ok || s.atLimit (s.eng.clusters.get c).resets) = true then .outOfService
        else if (s.enginesBack c ok).clusterOn c = true then .inService else .off, svc := false }) = s.clusterUp c ok := by
    unfold State.clusterUp State.setCluster State.setEng KMap.upd Cluster.back
    simp only [on, enginesBack_clusters, Bool.or_eq_true, Bool.not_eq_true']
  unfold State.clusterBack
  refine ⟨if s.atLimit (s.eng.clusters.get c).resets then 4 else if (s.eng.clusters.get c).svc then 1 else 0, ?_⟩
  extract_lets x out limit u v
  rw [← up]
  exact if_neg goes

/-! ### The admission evaluation -/

theorem share_le (r d : Rat) : (if d = 0 then 16 else min 16 ((16 * r / d).floor.toNat)) ≤ 16 := by
  split
  · exact Nat.le_refl _
  · exact Nat.min_le_left _ _

/-- At most sixteen sixteenths of each class are admitted (R141). -/
theorem admission_le (target p01 p2 capt supra : Rat) (first : Bool) :
    (admission target p01 p2 capt supra first).1 ≤ 16 ∧ (admission target p01 p2 capt supra first).2.1 ≤ 16 ∧
      (admission target p01 p2 capt supra first).2.2 ≤ 16 := by
  unfold admission
  dsimp only
  split
  · cases first
    · exact ⟨Nat.le_refl _, share_le _ _, share_le _ _⟩
    · exact ⟨Nat.le_refl _, share_le _ _, share_le _ _⟩
  · exact ⟨Nat.le_trans (Nat.min_le_left _ _) (by decide), Nat.zero_le _, Nat.zero_le _⟩

/-- Keys of a list written one by one read back. -/
theorem get_foldl_set_of {V : Type} [Inhabited V] [DecidableEq V] {g : Nat → Nat} (hg : Function.Injective g) (v : Nat → V)
    (l : List Nat) {m : KMap V} (wf : KMap.wf m = true) (j : Nat) :
    KMap.get (l.foldl (fun (m : KMap V) i => KMap.set m (g i) (v i)) m) (g j) = if j ∈ l then v j else KMap.get m (g j) := by
  induction l generalizing m with
  | nil => simp
  | cons i l ih =>
    rw [List.foldl_cons, ih (KMap.set_wf wf _ _), KMap.get_set wf]
    by_cases here : j = i <;> by_cases there : j ∈ l <;> simp [here, there, hg.eq_iff]

/-- What the evaluation of a second takes before it judges the overload. -/
structure Evaluated (s : State) (measured : List Nat) (x : Eng) : Prop where
  capacity : x.capacity = 275 * s.enginesIn.length
  cost     : ∀ i, i < 10 → x.cost.get (i + 1) = measured.getD i 0
  p2       : x.p2 ≤ 16
  capt     : x.capt ≤ 16
  supra    : x.supra ≤ 16

theorem Evaluated.free {measured : List Nat} {x : Eng} (h : Evaluated s measured x) (o : Bool) (n : Nat) :
    Evaluated s measured { x with ovr := o, exitCount := n, p2 := 16, capt := 16, supra := 16 } :=
  ⟨h.capacity, h.cost, Nat.le_refl _, Nat.le_refl _, Nat.le_refl _⟩

/-- An evaluation takes the costs, the capacity and the admission, and an overload begins or ends with EV57. -/
theorem evaluate_spec (measured : List Nat) : Evaluated s measured (s.evaluate measured).eng ∧
    ((s.evaluate measured).eng.ovr = s.eng.ovr → (s.evaluate measured).evt = s.evt) ∧
    (s.eng.ovr ≠ (s.evaluate measured).eng.ovr → Raised 57 s (s.evaluate measured)) := by
  unfold State.evaluate
  extract_lets cost n cap target d p01 p2 capt supra all a got u k
  have taken : Evaluated s measured u.eng := by
    obtain ⟨h2, hc, hs⟩ := admission_le target p01 p2 capt supra (decide (s.cfg oP3Order = 0))
    refine ⟨rfl, fun i hi => ?_, h2, hc, hs⟩
    refine (get_foldl_set_of (g := (· + 1)) (fun _ _ => Nat.succ.inj) (fun i => measured.getD i 0) _ rfl i).trans ?_
    rw [if_pos (List.mem_range.mpr hi)]
  have ovr : u.eng.ovr = s.eng.ovr := rfl
  have evt : u.evt = s.evt := rfl
  clear_value u
  split <;> rename_i loaded
  · split
    · split
      · have raised : ∀ v : State, v.evt = s.evt → Raised 57 s (v.ev57 1) := fun v hv => (raise_raised v 57 _).congr hv rfl
        refine ⟨?_, fun same => ?_, fun _ => raised _ evt⟩
        · rw [State.ev57_eng]
          exact taken.free _ _
        · rw [State.ev57_eng, ← ovr, loaded] at same
          cases same
      · exact ⟨⟨taken.capacity, taken.cost, taken.p2, taken.capt, taken.supra⟩, fun _ => evt, fun h => absurd ovr.symm h⟩
    · exact ⟨⟨taken.capacity, taken.cost, taken.p2, taken.capt, taken.supra⟩, fun _ => evt, fun h => absurd ovr.symm h⟩
  · split
    · have raised : ∀ v : State, v.evt = s.evt → Raised 57 s (v.ev57 0) := fun v hv => (raise_raised v 57 _).congr hv rfl
      refine ⟨?_, fun same => ?_, fun _ => raised _ evt⟩
      · rw [State.ev57_eng]
        exact ⟨taken.capacity, taken.cost, taken.p2, taken.capt, taken.supra⟩
      · rw [State.ev57_eng, ← ovr] at same
        exact absurd same.symm loaded
    · exact ⟨taken, fun _ => evt, fun h => absurd ovr.symm h⟩

end Sys2Proof.Machine

open Sys2Proof Sys2Proof.Machine

/-- Settles O11: by the kind of the unit, and for the evaluation through what it takes before it judges the overload. -/
theorem returnToServiceAndAdmission : Obligations.ReturnToServiceAndAdmission := by
  unfold Obligations.ReturnToServiceAndAdmission
  refine ⟨?_, ?_, ?_, ?_⟩
  · intro s n ok powered engine
    refine congrArg Host.Outcome.next ((if_neg (by simp [powered])).trans ((if_pos engine).trans ?_))
    unfold State.engineBack State.setEngine State.setEng
    simp only [Bool.or_eq_true, Bool.not_eq_true']
  · intro s n ok powered cluster restarts
    obtain ⟨cause, back⟩ := clusterBack_restarts (ok := ok) restarts
    have answer : execEngineReturnToService n ok s = .next (s.clusterBack (n.val - 32) ok) :=
      congrArg Host.Outcome.next ((if_neg (by simp [powered])).trans (if_neg (Nat.not_lt.mpr cluster)))
    refine ⟨_, answer, ?_, ?_, ?_, (State.clusterBack_only (.refl 8389632 s) rfl).changesOnly rfl⟩
    · rw [back]
      split
      · exact clusterUp_clusters _ _
      · rw [State.ev58_eng]
        exact clusterUp_clusters _ _
    · intro restarting
      rw [back, if_neg (by rw [restarting]; decide)]
      exact (raise_raised _ 58 _).congr (clusterUp_evt _ _) rfl
    · intro starting
      rw [back, if_pos starting]
      exact clusterUp_evt _ _
  · intro s n ok dark
    exact congrArg Host.Outcome.next (if_pos (by simp [dark]))
  · intro s measured powered
    obtain ⟨taken, silent, raised⟩ := evaluate_spec (s := s) measured
    refine ⟨s.evaluate measured, congrArg Host.Outcome.next (if_pos powered), taken.capacity, taken.cost, taken.p2,
      taken.capt, taken.supra, fun before after => silent (after.trans before.symm), raised,
      (State.evaluate_only (.refl 8389632 s) rfl).changesOnly rfl⟩

end

section
/-! PROOFS. Faults of the converters: stuck bitstreams, retirement, failed spares (R64, R68, R70, R71, R76, R261). -/
namespace Sys2Proof.Machine

variable {s t u : State}

@[simp] theorem State.retire_spares {s : State} {a1 : _} : (s.retire a1).spares = s.spares :=
  (State.retire_only (.refl 2097157 s) rfl).spares rfl
@[simp] theorem State.retire_evt {s : State} {a1 : _} : (s.retire a1).evt = s.evt :=
  (State.retire_only (.refl 2097157 s) rfl).evt rfl
@[simp] theorem State.retire_chans {s : State} {a1 : _} : (s.retire a1).chans = s.chans :=
  (State.retire_only (.refl 2097157 s) rfl).chans rfl
@[simp] theorem State.ev25_dict {s : State} {a1 : _} {a2 : _} : (s.ev25 a1 a2).dict = s.dict :=
  (State.ev25_only (.refl 8388608 s) rfl).dict rfl
@[simp] theorem State.ev25_mods {s : State} {a1 : _} {a2 : _} : (s.ev25 a1 a2).mods = s.mods :=
  (State.ev25_only (.refl 8388608 s) rfl).mods rfl
@[simp] theorem State.ev25_spares {s : State} {a1 : _} {a2 : _} : (s.ev25 a1 a2).spares = s.spares :=
  (State.ev25_only (.refl 8388608 s) rfl).spares rfl
@[simp] theorem State.ev25_chans {s : State} {a1 : _} {a2 : _} : (s.ev25 a1 a2).chans = s.chans :=
  (State.ev25_only (.refl 8388608 s) rfl).chans rfl
@[simp] theorem State.abandon_dict {s : State} {a1 : _} {a2 : _} : (s.abandon a1 a2).dict = s.dict :=
  (State.abandon_only (.refl 9437200 s) rfl).dict rfl
@[simp] theorem State.abandon_mods {s : State} {a1 : _} {a2 : _} : (s.abandon a1 a2).mods = s.mods :=
  (State.abandon_only (.refl 9437200 s) rfl).mods rfl
@[simp] theorem State.abandon_spares {s : State} {a1 : _} {a2 : _} : (s.abandon a1 a2).spares = s.spares :=
  (State.abandon_only (.refl 9437200 s) rfl).spares rfl
@[simp] theorem State.stepCheck_dict {s : State} : (s.stepCheck).dict = s.dict :=
  (State.stepCheck_only (.refl 1048616 s) rfl).dict rfl
@[simp] theorem State.stepCheck_mods {s : State} : (s.stepCheck).mods = s.mods :=
  (State.stepCheck_only (.refl 1048616 s) rfl).mods rfl
@[simp] theorem State.stepCheck_evt {s : State} : (s.stepCheck).evt = s.evt :=
  (State.stepCheck_only (.refl 1048616 s) rfl).evt rfl
@[simp] theorem State.stepCheck_chans {s : State} : (s.stepCheck).chans = s.chans :=
  (State.stepCheck_only (.refl 1048616 s) rfl).chans rfl
@[simp] theorem State.takeFailed_dict {s : State} {a1 : _} {a2 : _} : (s.takeFailed a1 a2).dict = s.dict :=
  (State.takeFailed_only (.refl 8388632 s) rfl).dict rfl
@[simp] theorem State.takeFailed_mods {s : State} {a1 : _} {a2 : _} : (s.takeFailed a1 a2).mods = s.mods :=
  (State.takeFailed_only (.refl 8388632 s) rfl).mods rfl
@[simp] theorem State.beginReturn_dict {s : State} {a1 : _} : (s.beginReturn a1).dict = s.dict :=
  (State.beginReturn_only (.refl 8 s) rfl).dict rfl
@[simp] theorem State.beginReturn_mods {s : State} {a1 : _} : (s.beginReturn a1).mods = s.mods :=
  (State.beginReturn_only (.refl 8 s) rfl).mods rfl
@[simp] theorem State.beginReturn_evt {s : State} {a1 : _} : (s.beginReturn a1).evt = s.evt :=
  (State.beginReturn_only (.refl 8 s) rfl).evt rfl
@[simp] theorem State.beginReturn_chans {s : State} {a1 : _} : (s.beginReturn a1).chans = s.chans :=
  (State.beginReturn_only (.refl 8 s) rfl).chans rfl
@[simp] theorem State.connect_chans {s : State} {a1 : _} {a2 : _} {a3 : _} : (s.connect a1 a2 a3).chans = s.chans :=
  (State.connect_only (.refl 8 s) rfl).chans rfl

/-! ### Retirement -/

theorem storeTry_active {cal : Bool} {key v n : Nat} : (s.storeTry cal key v n).dict.active = s.dict.active := by
  unfold State.storeTry
  cases h : s.storePut cal key v n with
  | none => rfl
  | some p => exact storePut_active h

theorem lor_pow_ne_zero (a m : Nat) : Nat.lor a (2 ^ m) ≠ 0 := by
  intro zero
  have bit := congrArg (Nat.testBit · m) zero
  rw [show Nat.lor a (2 ^ m) = a ||| 2 ^ m from rfl, Nat.testBit_or, Nat.testBit_two_pow_self] at bit
  simp at bit

/-- A retired converter has its bit in MOD_RETIRED (R76). -/
theorem retire_cfg (m : Nat) : (s.retire m).cfg oModRetired = Nat.lor (s.cfg oModRetired) (2 ^ m) := by
  have listed : ¬ Nat.lor (s.cfg oModRetired) (2 ^ m) = dfltOf oModRetired := lor_pow_ne_zero _ _
  have active : (s.retire m).dict.active =
      s.dict.active.set oModRetired (some (Nat.lor (s.cfg oModRetired) (2 ^ m))) := by
    unfold State.retire
    simp only [State.setMod_dict, State.setCfg_dict, storeTry_active]
    rw [if_neg listed]
  unfold State.cfg at active ⊢
  rw [active, KMap.get_set_of_ne (by exact Option.some_ne_none _), if_pos rfl]
  rfl

theorem retire_retired (m : Nat) : ((s.retire m).mods.get m).retired = true := by
  have mods : (s.retire m).mods = s.mods.upd m (fun x => { x with retired := true }) := by
    have kept : (s.storeTry false oModRetired (Nat.lor (s.cfg oModRetired) (2 ^ m)) 33).mods = s.mods :=
      (State.storeTry_only (.refl 2097153 s) rfl).mods rfl
    unfold State.retire
    simp only [State.setMod_mods, State.setCfg_mods, kept]
  rw [mods, KMap.upd, KMap.get_set_of_ne fun same => Bool.noConfusion (show true = false from congrArg Modulator.retired same), if_pos rfl]

/-! ### Connection of a spare -/

theorem connect_spare {k ch : Nat} {why : SpareWhy} : ((s.connect k ch why).spares.get k).st = .parallel ∧
    ((s.connect k ch why).spares.get k).ch = some ch ∧ ((s.connect k ch why).spares.get k).why = why ∧
    ((s.connect k ch why).spares.get k).stage = .fill ∧ ((s.connect k ch why).spares.get k).since = s.clock.clk := by
  unfold State.connect
  rw [State.setSpare_spares, KMap.upd,
    KMap.get_set_of_ne fun same => absurd (congrArg Spare.st same) (by exact SpareState.noConfusion), if_pos rfl]
  exact ⟨rfl, rfl, rfl, rfl, rfl⟩

/-! ### A spare that fails -/

/-- The state in which a failed spare is retired and told of. -/
def State.spareGone (s : State) (k : Nat) : State :=
  ((s.retire (256 + k)).setSpare k (fun p => { p with
    st := .failed, ch := none, stage := .none, own := [], spare := [], next := none })).ev25 (0x100 + k) 2

/-- After that only the channel that it served changes. -/
theorem spareFail_chans (k : Nat) : Only 16 (s.spareGone k) (s.spareFail k) := by
  unfold State.spareFail
  extract_lets p u v
  split
  · exact .refl _ _
  · split
    · exact .refl _ _
    · split
      · exact State.setChan_only (.refl 16 _) rfl
      · exact State.setChan_only (.refl 16 _) rfl

theorem spareGone_spare (k : Nat) : ((s.spareGone k).spares.get k).st = .failed ∧ ((s.spareGone k).spares.get k).ch = none := by
  have spares : (s.spareGone k).spares = s.spares.upd k (fun p => { p with
      st := .failed, ch := none, stage := .none, own := [], spare := [], next := none }) := by
    unfold State.spareGone
    simp
  rw [spares, KMap.upd,
    KMap.get_set_of_ne fun same => absurd (congrArg Spare.st same) (by exact SpareState.noConfusion), if_pos rfl]
  exact ⟨rfl, rfl⟩

theorem spareGone_retired (k : Nat) : ((s.spareGone k).mods.get (256 + k)).retired = true ∧
    (s.spareGone k).cfg oModRetired = Nat.lor (s.cfg oModRetired) (2 ^ (256 + k)) := by
  have mods : (s.spareGone k).mods = (s.retire (256 + k)).mods := by
    unfold State.spareGone
    simp
  have active : (s.spareGone k).dict.active = (s.retire (256 + k)).dict.active := by
    unfold State.spareGone
    simp
  exact ⟨by rw [mods]; exact retire_retired _, (cfg_congr active _).trans (retire_cfg _)⟩

theorem spareGone_raised (k : Nat) : Raised 25 s (s.spareGone k) :=
  (raise_raised _ 25 _).congr (by simp) rfl

/-! ### A hard fault of a channel's own modulator -/

/-- What the handover after a hard fault leaves: the retirement, EV25 and the STUCK flag of the channel. -/
structure FaultKept (ch : Nat) (s t : State) : Prop where
  dict  : t.dict = s.dict
  mods  : t.mods = s.mods
  event : s.evt.pending.get 25 = true → t.evt.pending.get 25 = true
  stuck : (s.chans.get ch).stuck = true → (t.chans.get ch).stuck = true

theorem FaultKept.refl (ch : Nat) (s : State) : FaultKept ch s s := ⟨rfl, rfl, id, id⟩

theorem FaultKept.trans {ch : Nat} (a : FaultKept ch s t) (b : FaultKept ch t u) : FaultKept ch s u :=
  ⟨b.dict.trans a.dict, b.mods.trans a.mods, b.event ∘ a.event, b.stuck ∘ a.stuck⟩

/-- An event that is pending stays so when another is raised. -/
theorem raise_keeps_pending {m n : Nat} {d : Bytes} (h : s.evt.pending.get m = true) :
    (s.raise n d).evt.pending.get m = true := by
  rw [raise_pending, KMap.get_set_of_ne (by decide), h, ite_self]

/-- A channel changed without its STUCK flag. -/
theorem setChan_stuck {k : Nat} {f : Chan → Chan} (hf : ∀ x, (f x).stuck = x.stuck)
    (h : (s.chans.get k).stuck = true) : ((s.setChan k f).chans.get k).stuck = true := by
  rw [State.setChan_chans, KMap.upd, KMap.get_set_of_ne fun same => ?_, if_pos rfl, hf, h]
  have clear := congrArg Chan.stuck same
  rw [hf, h] at clear
  exact absurd clear (by decide)

theorem FaultKept.setChan {k : Nat} {f : Chan → Chan} (hf : ∀ x, (f x).stuck = x.stuck) : FaultKept k s (s.setChan k f) :=
  ⟨rfl, rfl, id, setChan_stuck hf⟩

theorem FaultKept.raise {k n : Nat} {d : Bytes} : FaultKept k s (s.raise n d) :=
  ⟨(State.raise_only (.refl 8388608 s) rfl).dict rfl, (State.raise_only (.refl 8388608 s) rfl).mods rfl, raise_keeps_pending,
    fun h => by rwa [(State.raise_only (.refl 8388608 s) rfl).chans rfl]⟩

theorem FaultKept.requestLoad {k : Nat} : FaultKept k s (s.requestLoad k) := by
  unfold State.requestLoad
  split
  · exact .refl _ _
  · extract_lets c m u
    have base : FaultKept k s u := ⟨rfl, rfl, id, id⟩
    split
    · exact base.trans (.setChan fun _ => rfl)
    · exact base.trans (.setChan fun _ => rfl)

theorem FaultKept.abandon {k cause : Nat} : FaultKept k s (s.abandon k cause) := by
  unfold State.abandon
  split
  · exact .refl _ _
  · rename_i c _
    split
    · exact .refl _ _
    · extract_lets q u v
      have base : FaultKept k s v := (show FaultKept k s u from ⟨rfl, rfl, id, id⟩).trans .requestLoad
      split
      · exact base
      · exact base.trans .raise

theorem FaultKept.stepCheck {k : Nat} : FaultKept k s s.stepCheck :=
  ⟨State.stepCheck_dict, State.stepCheck_mods, fun h => by rwa [State.stepCheck_evt], fun h => by rwa [State.stepCheck_chans]⟩

theorem FaultKept.takeFailed {k ch : Nat} : FaultKept ch s (s.takeFailed k ch) := by
  unfold State.takeFailed State.ev24
  extract_lets g u v
  have base : FaultKept ch s u := ⟨rfl, rfl, id, id⟩
  exact base.trans ((FaultKept.setChan (f := fun x => { x with onSpare := some k, uncovered := false }) fun _ => rfl).trans .raise)

theorem FaultKept.waits {k ch : Nat} : FaultKept ch s ((s.beginReturn k).setSpare k (fun p => { p with next := some ch })) :=
  ⟨rfl, rfl, id, id⟩

/-- The state in which a hard fault is told of: retired, STUCK, EV25. -/
def State.faulted (s : State) (ch : Nat) : State :=
  ((((s.invalidate ch (s.clock.clk - 4352)).setChan ch
    (fun x => { x with stuck := true, faultAt := some (s.clock.clk - 4352) })).retire ch).ev25 ch 2)

theorem hardFault_kept (ch : Nat) : FaultKept ch (s.faulted ch) (s.hardFault ch) := by
  unfold State.hardFault
  extract_lets k onset u v w p
  have base : FaultKept ch (s.faulted ch) w := by
    simp only [w]
    split
    · exact (FaultKept.abandon (k := ch) (cause := 4)).trans .stepCheck
    · exact .refl _ _
  have uncovered : FaultKept ch (s.faulted ch) (w.setChan ch (fun x => { x with uncovered := true })) :=
    base.trans (.setChan fun _ => rfl)
  clear_value w
  split
  · exact base.trans .takeFailed
  · exact base.trans .takeFailed
  · split
    · exact base.trans .takeFailed
    · split
      · exact uncovered
      · exact base.trans .waits
  · split
    · exact uncovered
    · exact base.trans .waits
  · split
    · exact uncovered
    · exact base.trans .waits
  · exact uncovered
  · exact uncovered

theorem faulted_stuck (ch : Nat) : ((s.faulted ch).chans.get ch).stuck = true := by
  unfold State.faulted
  rw [State.ev25_chans, State.retire_chans, State.setChan_chans, KMap.upd,
    KMap.get_set_of_ne fun same => Bool.noConfusion (show true = false from congrArg Chan.stuck same), if_pos rfl]

theorem faulted_retired (ch : Nat) : ((s.faulted ch).mods.get ch).retired = true := by
  unfold State.faulted
  rw [State.ev25_mods]
  exact retire_retired _

theorem faulted_cfg (ch : Nat) : (s.faulted ch).cfg oModRetired = Nat.lor (s.cfg oModRetired) (2 ^ ch) := by
  have active : (s.faulted ch).dict.active = (((s.invalidate ch (s.clock.clk - 4352)).setChan ch
      (fun x => { x with stuck := true, faultAt := some (s.clock.clk - 4352) })).retire ch).dict.active := by
    unfold State.faulted
    rw [State.ev25_dict]
  exact (cfg_congr active _).trans (retire_cfg _)

theorem faulted_event (ch : Nat) : (s.faulted ch).evt.pending.get 25 = true := (raise_raised _ 25 _).pending

end Sys2Proof.Machine

open Sys2Proof Sys2Proof.Machine

/-- Settles O12: a fault's record is made first, and the handover that follows keeps it. -/
theorem faultsOfConverters : Obligations.FaultsOfConverters := by
  unfold Obligations.FaultsOfConverters
  refine ⟨?_, ?_, ?_, ?_, ?_, ?_⟩
  · intro s m own runs alone sound idle closed
    have answer : execStuckBitstream m s = .next (s.connect (m.val / 32) m.val .fault) :=
      congrArg Host.Outcome.next ((if_neg (Nat.not_le.mpr own)).trans
        (if_pos ⟨runs, by rw [alone]; rfl, sound, idle, closed⟩))
    obtain ⟨st, ch, why, stage, since⟩ := connect_spare (s := s) (k := m.val / 32) (ch := m.val) (why := .fault)
    exact ⟨_, answer, st, ch, why, stage, since, (State.connect_only (.refl 8 s) rfl).changesOnly rfl⟩
  · intro s m c spare h
    have answer : exec c s = .next (s.spareFail (m.val - 256)) := by
      obtain ⟨rfl, idle⟩ | ⟨rfl, working⟩ := h
      · exact congrArg Host.Outcome.next ((if_pos spare).trans (if_pos idle))
      · exact congrArg Host.Outcome.next ((if_pos spare).trans (if_pos ⟨rfl, working⟩))
    have frame := spareFail_chans (s := s) (m.val - 256)
    obtain ⟨st, ch⟩ := spareGone_spare (s := s) (m.val - 256)
    obtain ⟨retired, cfg⟩ := spareGone_retired (s := s) (m.val - 256)
    rw [Nat.add_sub_cancel' spare] at retired cfg
    refine ⟨_, answer, ?_, ?_, ?_, ?_, ?_, (State.spareFail_only (.refl 10485789 s) rfl).changesOnly rfl⟩
    · rw [frame.spares rfl, st]
    · rw [frame.spares rfl, ch]
    · rw [frame.mods rfl, retired]
    · rw [cfg_congr (congrArg Dict.active (frame.dict rfl)), cfg]
    · exact (spareGone_raised _).congr rfl (frame.evt rfl)
  · intro s m own runs sound
    have answer : execHardFaultDecision m true s = .next (s.hardFault m.val) :=
      congrArg Host.Outcome.next ((if_neg (Nat.not_le.mpr own)).trans ((if_neg (by simp [runs, sound])).trans (if_pos rfl)))
    have kept := hardFault_kept (s := s) m.val
    refine ⟨_, answer, ?_, ?_, kept.event (faulted_event _), kept.stuck (faulted_stuck _), ?_⟩
    · rw [kept.mods, faulted_retired]
    · rw [cfg_congr (congrArg Dict.active kept.dict), faulted_cfg]
    · obtain ⟨t, run, frame⟩ := execHardFaultDecision_only (a1 := m) (a2 := true) (s := s)
      obtain rfl := Host.Outcome.next.inj (run.symm.trans answer)
      exact frame.changesOnly rfl
  · intro s m own runs sound served why parallel
    refine congrArg Host.Outcome.next ((if_neg (Nat.not_le.mpr own)).trans ((if_neg (by simp [runs, sound])).trans
      ((if_neg Bool.false_ne_true).trans ((if_pos ⟨served, why, parallel⟩).trans ?_))))
    unfold State.park State.setSpare KMap.upd
    simp only [parallel]
    rfl
  · intro s sp nv
    rfl
  · intro s ch waits wanted alone idle closed
    have answer : execSubstituteRetry ch s =
        .next ((s.connect (ch.val / 32) ch.val .request).setChan ch.val (fun x => { x with retry := false })) :=
      congrArg Host.Outcome.next (if_pos ⟨waits, wanted, by rw [alone]; rfl, idle, closed⟩)
    obtain ⟨st, on, why, -, -⟩ := connect_spare (s := s) (k := ch.val / 32) (ch := ch.val) (why := .request)
    refine ⟨_, answer, st, on, why, rfl, ?_⟩
    obtain ⟨t, run, frame⟩ := execSubstituteRetry_only (a1 := ch) (s := s)
    obtain rfl := Host.Outcome.next.inj (run.symm.trans answer)
    exact frame.changesOnly rfl

end

section
/-! PROOFS. Housekeeping conversions and urgent requests (R78-R83, R351). -/
namespace Sys2Proof.Machine

variable {s : State}

@[simp] theorem State.hkNext_dict {s : State} {n : Nat} : (s.hkNext n).dict = s.dict :=
  (State.hkNext_only (.refl 32 s) rfl).dict rfl
@[simp] theorem State.parallelRestart_hk {s : State} {a1 : _} : (s.parallelRestart a1).hk = s.hk :=
  (State.parallelRestart_only (.refl 8 s) rfl).hk rfl

/-! ### The sequencer's step -/

/-- The results that the sequencer has stored. -/
def Hk.stored (h : Hk) : KMap Int × KMap Bool := (h.result, h.outside)

/-- Going to the next step stores nothing. -/
theorem hkNext_stored (n : Nat) : (s.hkNext n).hk.stored = s.hk.stored := by
  induction n generalizing s with
  | zero => rfl
  | succ n ih =>
    unfold State.hkNext
    extract_lets u
    split
    · exact ih
    · rfl

/-- The result of a step on an input channel without an alarm bit is stored and compared, and that is all. -/
theorem hkResult_input {i : Nat} {v : Int} (input : s.hkChan i < 4) (quiet : bit (s.cfg (oHkStep i)) 12 = false) :
    (s.hkResult i v).hk.stored = (s.hk.result.set i v, s.hk.outside.set i
      (decide (v < s.cfgI 4 (oHkLimitLow i)) || decide (s.cfgI 4 (oHkLimitHigh i) < v))) ∧ Only 32 s (s.hkResult i v) := by
  unfold State.hkResult
  extract_lets out was u w
  have kept : w = u := if_neg (by rw [show u.cfg (oHkStep i) = s.cfg (oHkStep i) from rfl, quiet]; simp)
  have chan : w.hkChan i = s.hkChan i := by rw [kept]; rfl
  rw [if_neg (by omega), if_neg (by omega), if_neg (by omega), kept]
  exact ⟨rfl, State.setHk_only (.refl 32 s) rfl⟩

theorem execHkConversionDone_converts {v : Int} (powered : s.powered = true) (runs : s.hk.running = true)
    (free : s.hk.active = none) (live : s.hkDead s.hk.step = false) (mode : s.hkMode s.hk.step ≠ 0) :
    execHkConversionDone v s = if s.hk.reps + 1 ≤ s.hkRepeat s.hk.step then
        .next (s.setHk (fun h => { h with reps := s.hk.reps + 1, sum := s.hk.sum + v }))
      else .next ((s.hkNext 32).hkResult s.hk.step
        (if bit (s.cfg (oHkStep s.hk.step)) 7 then rdiv (s.hk.sum + v) (s.hk.reps + 1) else v)) := by
  refine (if_neg (by simp [powered, runs, free])).trans ((if_neg (by simp [live])).trans ?_)
  rw [if_neg mode]
  rfl

/-! ### Urgent requests -/

theorem urgent_hk (src : UrgentSrc) : (s.urgent src).hk = Hk.arbitrate (match src with
    | .power => { s.hk with pendPower := true, posPower := 0 }
    | .tamperGlitch => { s.hk with pendTamper := some false, posTamper := 0 }
    | .tamperTemp => { s.hk with pendTamper := some true, posTamper := 0 }
    | .calibration => { s.hk with pendCal := true, posCal := 0 }) := by
  cases src with
  | power => rfl
  | tamperGlitch => rfl
  | tamperTemp => rfl
  | calibration =>
    unfold State.urgent
    rw [if_pos rfl]
    refine foldl_field State.hk (fun u k => ?_) _ _
    split
    · rw [apply_ite State.hk, State.parallelRestart_hk, ite_self]
    · rfl

theorem urgent_spares {src : UrgentSrc} (h : src ≠ .calibration) : (s.urgent src).spares = s.spares := by
  unfold State.urgent
  rw [if_neg h]
  rfl

@[simp] theorem arbitrate_pendPower (h : Hk) : h.arbitrate.pendPower = h.pendPower := by
  unfold Hk.arbitrate
  split <;> rfl

/-! ### The power verification -/

theorem powerVerified_ready (vin hold : Int) : (s.powerVerified vin hold).pwr.ready =
    (decide (3000000 ≤ vin) && decide ((s.cfg oHoldupReadyMv : Int) * 1000 ≤ hold)) := by
  unfold State.powerVerified
  extract_lets ok first u v
  by_cases passes : ok = true
  · have ready : v.pwr.ready = true := by
      show (if s.pwr.onVbat = true then _ else _ : Pwr).ready = true
      split <;> rfl
    rw [if_neg (by simp [passes]), apply_ite State.pwr, show v.hkStart.pwr = v.pwr from rfl, ite_self, ready]
    exact passes.symm
  · rw [if_pos (by simp [passes])]
    exact (Bool.eq_false_iff.mpr passes).symm

/-- When the verification passes, the issue unit is armed and the AO island leaves VBAT (R351). -/
theorem powerVerified_arms {vin hold : Int} (h : (s.powerVerified vin hold).pwr.ready = true) :
    (s.powerVerified vin hold).eng.armed = true ∧ (s.powerVerified vin hold).pwr.onVbat = false := by
  rw [powerVerified_ready] at h
  unfold State.powerVerified
  extract_lets ok first u v
  have off : v.pwr.onVbat = false := by
    show (if s.pwr.onVbat = true then _ else _ : Pwr).onVbat = false
    split
    · rfl
    · exact Bool.eq_false_iff.mpr ‹_›
  rw [if_neg (by simp [ok, h])]
  split
  · exact ⟨rfl, off⟩
  · exact ⟨rfl, off⟩

theorem powerVerified_pendPower (vin hold : Int) : (s.powerVerified vin hold).hk.pendPower = s.hk.pendPower := by
  unfold State.powerVerified
  extract_lets ok first u v
  split
  · rfl
  · split <;> rfl

end Sys2Proof.Machine

open Sys2Proof Sys2Proof.Machine

/-- Settles O14: by the request that runs and the conversion that it has reached. -/
theorem housekeepingConversions : Obligations.HousekeepingConversions := by
  unfold Obligations.HousekeepingConversions
  refine ⟨?_, ?_, ?_, ?_, ?_, ?_, ?_, ?_, ?_, ?_, ?_⟩
  · intro s v powered runs free live mode more
    exact (execHkConversionDone_converts powered runs free live mode).trans (if_pos more)
  · intro s v powered runs free live mode last input plain quiet
    have answer := (execHkConversionDone_converts (v := v) powered runs free live mode).trans (if_neg (by omega))
    rw [if_neg (by simp [plain])] at answer
    have cfg : ∀ k, (s.hkNext 32).cfg k = s.cfg k := cfg_congr (congrArg Dict.active State.hkNext_dict)
    have input' : (s.hkNext 32).hkChan s.hk.step < 4 := by
      unfold State.hkChan at input ⊢
      rwa [cfg]
    obtain ⟨stored, frame⟩ := hkResult_input (v := v) input' ((congrArg (bit · 12) (cfg _)).trans quiet)
    have before := hkNext_stored (s := s) 32
    have cfgI : ∀ n k, (s.hkNext 32).cfgI n k = s.cfgI n k := fun n k => congrArg (sgn n) (cfg k)
    refine ⟨_, answer, ?_, ?_, ((State.hkNext_only (.refl 32 s) rfl).trans frame).changesOnly rfl⟩
    · exact (congrArg Prod.fst stored).trans (congrArg (KMap.set · s.hk.step v) (congrArg Prod.fst before))
    · rw [cfgI, cfgI] at stored
      exact (congrArg Prod.snd stored).trans (congrArg (KMap.set · s.hk.step _) (congrArg Prod.snd before))
  · intro s v h
    refine if_pos ?_
    rcases h with h | h | h <;> simp [h]
  · intro s src powered
    exact ⟨s.urgent src, congrArg Host.Outcome.next (if_pos powered), urgent_hk src, urgent_spares,
      (State.urgent_only (.refl 40 s) rfl).changesOnly rfl⟩
  · intro s src dark
    exact congrArg Host.Outcome.next (if_neg (by simp [dark]))
  · intro s v active first
    have answer : execUrgentConversionDone v s = .next (s.setHk (fun h => { h with vin := v, posPower := 1 })) := by
      unfold execUrgentConversionDone
      simp only [active, first, if_true]
    exact answer
  · intro s v active last
    have answer : execUrgentConversionDone v s = .next ((s.setHk (fun h =>
        ({ h with pendPower := false, posPower := 0 } : Hk).arbitrate)).powerVerified s.hk.vin v) := by
      unfold execUrgentConversionDone
      simp only [active, if_neg last]
    refine ⟨_, answer, powerVerified_ready _ _, powerVerified_arms, ?_, ?_⟩
    · exact (powerVerified_pendPower _ _).trans (arbitrate_pendPower _)
    · exact (State.powerVerified_only (State.setHk_only (.refl 4195360 s) rfl) rfl).changesOnly rfl
  · intro s v active glitch
    have answer : execUrgentConversionDone v s = .next ((s.setHk (fun h =>
        ({ h with pendTamper := none, posTamper := 0 } : Hk).arbitrate)).glitchVerified v) := by
      unfold execUrgentConversionDone
      simp only [active, glitch, if_true]
    refine ⟨_, answer, rfl, rfl, ?_⟩
    exact (State.glitchVerified_only (State.setHk_only (.refl 67108896 s) rfl) rfl).changesOnly rfl
  · intro s v active other first
    have answer : execUrgentConversionDone v s = .next (s.setHk (fun h => { h with tampBg := v, posTamper := 1 })) := by
      unfold execUrgentConversionDone
      simp only [active, if_neg other, first, if_true]
    exact answer
  · intro s v active first
    have answer : execUrgentConversionDone v s = .next (s.setHk (fun h => { h with calGap := v, posCal := 1 })) := by
      unfold execUrgentConversionDone
      simp only [active, first, if_true]
    exact answer
  · intro s v active
    show execUrgentConversionDone v s = _
    unfold execUrgentConversionDone
    simp only [active]

end

section
/-! PROOFS. Allowed writes (R44) and the calibration session (R262-R272). -/
namespace Sys2Proof.Machine

variable {s t : State}

@[simp] theorem State.answer_cal {s : State} {a1 : _} : (s.answer a1).cal = s.cal :=
  (State.answer_only (.refl 2147483648 s) rfl).cal rfl
@[simp] theorem State.answer_pp {s : State} {a1 : _} : (s.answer a1).pp = s.pp :=
  (State.answer_only (.refl 2147483648 s) rfl).pp rfl
@[simp] theorem State.answer_evt {s : State} {a1 : _} : (s.answer a1).evt = s.evt :=
  (State.answer_only (.refl 2147483648 s) rfl).evt rfl
@[simp] theorem State.answer_dict {s : State} {a1 : _} : (s.answer a1).dict = s.dict :=
  (State.answer_only (.refl 2147483648 s) rfl).dict rfl
@[simp] theorem State.answer_nvm {s : State} {a1 : _} : (s.answer a1).nvm = s.nvm :=
  (State.answer_only (.refl 2147483648 s) rfl).nvm rfl
@[simp] theorem State.answer_ports {s : State} {a1 : _} : (s.answer a1).ports = s.ports :=
  (State.answer_only (.refl 2147483648 s) rfl).ports rfl
@[simp] theorem State.answer_hk {s : State} {a1 : _} : (s.answer a1).hk = s.hk :=
  (State.answer_only (.refl 2147483648 s) rfl).hk rfl
@[simp] theorem State.answer_eng {s : State} {a1 : _} : (s.answer a1).eng = s.eng :=
  (State.answer_only (.refl 2147483648 s) rfl).eng rfl
@[simp] theorem State.answer_disp {s : State} {a1 : _} : (s.answer a1).disp = s.disp :=
  (State.answer_only (.refl 2147483648 s) rfl).disp rfl
@[simp] theorem State.answer_upd {s : State} {a1 : _} : (s.answer a1).upd = s.upd :=
  (State.answer_only (.refl 2147483648 s) rfl).upd rfl
@[simp] theorem State.answer_chans {s : State} {a1 : _} : (s.answer a1).chans = s.chans :=
  (State.answer_only (.refl 2147483648 s) rfl).chans rfl
@[simp] theorem State.answer_spares {s : State} {a1 : _} : (s.answer a1).spares = s.spares :=
  (State.answer_only (.refl 2147483648 s) rfl).spares rfl
@[simp] theorem State.answer_acc {s : State} {a1 : _} : (s.answer a1).acc = s.acc :=
  (State.answer_only (.refl 2147483648 s) rfl).acc rfl
@[simp] theorem State.answer_capt {s : State} {a1 : _} : (s.answer a1).capt = s.capt :=
  (State.answer_only (.refl 2147483648 s) rfl).capt rfl
@[simp] theorem State.answer_pwr {s : State} {a1 : _} : (s.answer a1).pwr = s.pwr :=
  (State.answer_only (.refl 2147483648 s) rfl).pwr rfl
@[simp] theorem State.answer_isl {s : State} {a1 : _} : (s.answer a1).isl = s.isl :=
  (State.answer_only (.refl 2147483648 s) rfl).isl rfl
@[simp] theorem State.answer_mem {s : State} {a1 : _} : (s.answer a1).mem = s.mem :=
  (State.answer_only (.refl 2147483648 s) rfl).mem rfl
@[simp] theorem State.answer_tamper {s : State} {a1 : _} : (s.answer a1).tamper = s.tamper :=
  (State.answer_only (.refl 2147483648 s) rfl).tamper rfl
@[simp] theorem State.answer_clock {s : State} {a1 : _} : (s.answer a1).clock = s.clock :=
  (State.answer_only (.refl 2147483648 s) rfl).clock rfl
@[simp] theorem State.ownerWrote_dict {s : State} {a1 : _} : (s.ownerWrote a1).dict = s.dict :=
  (State.ownerWrote_only (.refl 1048576 s) rfl).dict rfl
@[simp] theorem State.ownerWrote_clock {s : State} {a1 : _} : (s.ownerWrote a1).clock = s.clock :=
  (State.ownerWrote_only (.refl 1048576 s) rfl).clock rfl
@[simp] theorem State.ownerWrote_mods {s : State} {a1 : _} : (s.ownerWrote a1).mods = s.mods :=
  (State.ownerWrote_only (.refl 1048576 s) rfl).mods rfl
@[simp] theorem State.ownerWrote_spares {s : State} {a1 : _} : (s.ownerWrote a1).spares = s.spares :=
  (State.ownerWrote_only (.refl 1048576 s) rfl).spares rfl
@[simp] theorem State.ownerWrote_chans {s : State} {a1 : _} : (s.ownerWrote a1).chans = s.chans :=
  (State.ownerWrote_only (.refl 1048576 s) rfl).chans rfl
@[simp] theorem State.ownerWrote_hk {s : State} {a1 : _} : (s.ownerWrote a1).hk = s.hk :=
  (State.ownerWrote_only (.refl 1048576 s) rfl).hk rfl
@[simp] theorem State.ownerWrote_eng {s : State} {a1 : _} : (s.ownerWrote a1).eng = s.eng :=
  (State.ownerWrote_only (.refl 1048576 s) rfl).eng rfl
@[simp] theorem State.ownerWrote_acc {s : State} {a1 : _} : (s.ownerWrote a1).acc = s.acc :=
  (State.ownerWrote_only (.refl 1048576 s) rfl).acc rfl
@[simp] theorem State.ownerWrote_pp {s : State} {a1 : _} : (s.ownerWrote a1).pp = s.pp :=
  (State.ownerWrote_only (.refl 1048576 s) rfl).pp rfl
@[simp] theorem State.ownerWrote_nvm {s : State} {a1 : _} : (s.ownerWrote a1).nvm = s.nvm :=
  (State.ownerWrote_only (.refl 1048576 s) rfl).nvm rfl
@[simp] theorem State.ownerWrote_pwr {s : State} {a1 : _} : (s.ownerWrote a1).pwr = s.pwr :=
  (State.ownerWrote_only (.refl 1048576 s) rfl).pwr rfl
@[simp] theorem State.ownerWrote_evt {s : State} {a1 : _} : (s.ownerWrote a1).evt = s.evt :=
  (State.ownerWrote_only (.refl 1048576 s) rfl).evt rfl
@[simp] theorem State.ownerWrote_ports {s : State} {a1 : _} : (s.ownerWrote a1).ports = s.ports :=
  (State.ownerWrote_only (.refl 1048576 s) rfl).ports rfl
@[simp] theorem State.ownerWrote_mem {s : State} {a1 : _} : (s.ownerWrote a1).mem = s.mem :=
  (State.ownerWrote_only (.refl 1048576 s) rfl).mem rfl
@[simp] theorem State.ownerWrote_tamper {s : State} {a1 : _} : (s.ownerWrote a1).tamper = s.tamper :=
  (State.ownerWrote_only (.refl 1048576 s) rfl).tamper rfl
@[simp] theorem State.ownerWrote_disp {s : State} {a1 : _} : (s.ownerWrote a1).disp = s.disp :=
  (State.ownerWrote_only (.refl 1048576 s) rfl).disp rfl
@[simp] theorem State.ownerWrote_upd {s : State} {a1 : _} : (s.ownerWrote a1).upd = s.upd :=
  (State.ownerWrote_only (.refl 1048576 s) rfl).upd rfl
@[simp] theorem State.ownerWrote_isl {s : State} {a1 : _} : (s.ownerWrote a1).isl = s.isl :=
  (State.ownerWrote_only (.refl 1048576 s) rfl).isl rfl
@[simp] theorem State.ownerWrote_ans {s : State} {a1 : _} : (s.ownerWrote a1).ans = s.ans :=
  (State.ownerWrote_only (.refl 1048576 s) rfl).ans rfl
@[simp] theorem State.ownerWrote_groups {s : State} {a1 : _} : (s.ownerWrote a1).groups = s.groups :=
  (State.ownerWrote_only (.refl 1048576 s) rfl).groups rfl
@[simp] theorem State.ownerWrote_capt {s : State} {a1 : _} : (s.ownerWrote a1).capt = s.capt :=
  (State.ownerWrote_only (.refl 1048576 s) rfl).capt rfl
@[simp] theorem State.urgent_cal {s : State} {a1 : _} : (s.urgent a1).cal = s.cal :=
  (State.urgent_only (.refl 40 s) rfl).cal rfl
@[simp] theorem State.urgent_ans {s : State} {a1 : _} : (s.urgent a1).ans = s.ans :=
  (State.urgent_only (.refl 40 s) rfl).ans rfl
@[simp] theorem State.wCsCommand_ports {s : State} {a1 : _} {a2 : _} : (s.wCsCommand a1 a2).ports = s.ports :=
  (State.wCsCommand_only (.refl 2156920888 s) rfl).ports rfl
@[simp] theorem State.requestLoad_evt {s : State} {a1 : _} : (s.requestLoad a1).evt = s.evt :=
  (State.requestLoad_only (.refl 1048592 s) rfl).evt rfl
@[simp] theorem State.abandon_ports {s : State} {a1 : _} {a2 : _} : (s.abandon a1 a2).ports = s.ports :=
  (State.abandon_only (.refl 9437200 s) rfl).ports rfl
@[simp] theorem State.spareFree_cal {s : State} {a1 : _} {a2 : _} : (s.spareFree a1 a2).cal = s.cal :=
  (State.spareFree_only (.refl 8388632 s) rfl).cal rfl
@[simp] theorem State.stepStop_evt {s : State} : (s.stepStop).evt = s.evt :=
  (State.stepStop_only (.refl 1048576 s) rfl).evt rfl

/-! ### Allowed writes -/

/-- An allowed write comes to its meaning on the state in which the session's owner has written, and its answer is
delivered. -/
theorem writeReq_delivers {r : Req} {i j : Nat} {b : Bytes} {F : State → Nat → State} (allowed : s.allows r i j b = true)
    (ports : ∀ u v, (F u v).ports = u.ports) :
    Delivered (F (s.ownerWrote r.cls) (ofLe b)) (s.writeReq r i j b (fun s _ v => F s v)) := by
  have idle : (F (s.ownerWrote r.cls) (ofLe b)).ports.fWait = [] := by
    rw [ports, ownerWrote_ports, fWait_of_allows allowed]
  obtain ⟨_, _, delivered⟩ := writeReq_delivered (f := fun s _ v => F s v) allowed (fun _ _ => idle)
  exact delivered

theorem Delivered.status (h : Delivered s t) : t.ans.status = s.ans.status := congrArg (fun a => a.status) h.ans

@[simp] theorem ownerWrote_cfg (q : Cls) (k : Nat) : (s.ownerWrote q).cfg k = s.cfg k := cfg_congr (by simp) k

/-- What an owner's write leaves of the calibration unit: everything but the instant of its last write. -/
theorem ownerWrote_cal (q : Cls) : ∃ x, (s.ownerWrote q).cal = { s.cal with lastWrite := x } := by
  unfold State.ownerWrote
  split
  · exact ⟨_, rfl⟩
  · exact ⟨_, rfl⟩

@[simp] theorem ownerWrote_owner (q : Cls) : (s.ownerWrote q).cal.owner = s.cal.owner := by
  obtain ⟨x, h⟩ := ownerWrote_cal (s := s) q
  rw [h]

@[simp] theorem ownerWrote_running (q : Cls) : (s.ownerWrote q).cal.running = s.cal.running := by
  obtain ⟨x, h⟩ := ownerWrote_cal (s := s) q
  rw [h]

@[simp] theorem ownerWrote_steps (q : Cls) : (s.ownerWrote q).cal.steps = s.cal.steps := by
  obtain ⟨x, h⟩ := ownerWrote_cal (s := s) q
  rw [h]

/-- Without a session nobody's write is its owner's. -/
theorem ownerWrote_unowned {q : Cls} (h : s.cal.owner = none) : s.ownerWrote q = s := if_neg (by simp [h])

/-! ### The channels of a step -/

/-- A listed key that does not hold the default is in the table. -/
theorem mem_of_get {V : Type} [Inhabited V] {m : KMap V} {k : Nat} {v : V} (h : m.get k = v) (hv : v ≠ default) : (k, v) ∈ m := by
  induction m with
  | nil => exact absurd h.symm hv
  | cons x m ih =>
    obtain ⟨a, w⟩ := x
    unfold KMap.get at h
    split at h
    · subst_vars
      exact List.mem_cons_self
    · exact List.mem_cons_of_mem _ (ih h)

/-- What abandoning a channel makes of the step's channels. -/
def abandonIn (m : KMap (Option StepCh)) (k : Nat) : KMap (Option StepCh) := match m.get k with
  | none => m
  | some c => if c.st = .abandoned ∨ c.st = .stored then m else m.upd k (fun x => x.map (fun c => { c with st := .abandoned }))

theorem abandon_chans (k cause : Nat) : (s.abandon k cause).cal.chans = abandonIn s.cal.chans k := by
  have load : ∀ u : State, (u.requestLoad k).cal.chans = u.cal.chans := by
    intro u
    unfold State.requestLoad
    split
    · rfl
    · extract_lets c m v
      split <;> rfl
  have kept : ∀ (u : State) (c : StepCh) (n : Nat) (d : Bytes),
      (if c.implausible = true then u else u.raise n d).cal.chans = u.cal.chans := by
    intro u c n d
    split
    · rfl
    · exact congrArg Cal.chans ((State.raise_only (.refl 8388608 u) rfl).cal rfl)
  unfold State.abandon abandonIn
  cases found : s.cal.chans.get k with
  | none => simp only
  | some c =>
    simp only
    split
    · rfl
    · exact (kept _ _ _ _).trans (load _)

theorem abandonIn_get_same {m : KMap (Option StepCh)} {k : Nat} {c : StepCh} (h : m.get k = some c) (stored : c.st ≠ .stored) :
    (abandonIn m k).get k = some { c with st := .abandoned } := by
  unfold abandonIn
  rw [h]
  dsimp only
  split
  · rename_i over_
    have st : c.st = .abandoned := over_.resolve_right stored
    rw [h, ← st]
  · rw [KMap.upd, h, KMap.get_set_of_ne (by exact Option.some_ne_none _), if_pos rfl]
    rfl

theorem abandonIn_get_other {m : KMap (Option StepCh)} {k j : Nat} (h : j ≠ k) : (abandonIn m k).get j = m.get j := by
  unfold abandonIn
  split
  · rfl
  · rename_i c found
    split
    · rfl
    · rw [KMap.upd, found, KMap.get_set_of_ne (by exact Option.some_ne_none _), if_neg h]

/-- A channel at work that is abandoned, or left as it is, keeps its iterations. -/
theorem abandonIn_foldl {m : KMap (Option StepCh)} {k : Nat} {c : StepCh} (h : m.get k = some c) (open_ : c.st ≠ .stored)
    (l : List Nat) : (l.foldl abandonIn m).get k = some (if k ∈ l then { c with st := .abandoned } else c) := by
  induction l generalizing m c with
  | nil => simpa using h
  | cons j l ih =>
    by_cases here : k = j
    · subst here
      rw [List.foldl_cons, ih (abandonIn_get_same h open_) (by simp)]
      simp
    · rw [List.foldl_cons, ih ((abandonIn_get_other here).trans h) open_]
      simp [here]

theorem foldl_abandon_chans (l : List (Nat × Nat)) :
    (l.foldl (fun s x => s.abandon x.1 x.2) s).cal.chans = (l.map Prod.fst).foldl abandonIn s.cal.chans := by
  induction l generalizing s with
  | nil => rfl
  | cons x l ih => rw [List.foldl_cons, ih, abandon_chans]; rfl

@[simp] theorem stepCheck_stepChans : s.stepCheck.cal.chans = s.cal.chans := by
  unfold State.stepCheck
  rw [apply_ite State.cal, State.urgent_cal, apply_ite Cal.chans]
  exact ite_self _

/-! ### The session's commands -/

theorem abandon_owner (k cause : Nat) : (s.abandon k cause).cal.owner = s.cal.owner := by
  have load : ∀ u : State, (u.requestLoad k).cal.owner = u.cal.owner := by
    intro u
    unfold State.requestLoad
    split
    · rfl
    · extract_lets c m v
      split <;> rfl
  unfold State.abandon
  split
  · rfl
  · rename_i c _
    split
    · rfl
    · have kept : ∀ (u : State) (n : Nat) (d : Bytes), (if c.implausible = true then u else u.raise n d).cal.owner = u.cal.owner := by
        intro u n d
        split
        · rfl
        · exact congrArg Cal.owner ((State.raise_only (.refl 8388608 u) rfl).cal rfl)
      exact (kept _ _ _).trans (load _)

theorem stepCancel_owner : s.stepCancel.cal.owner = s.cal.owner := by
  unfold State.stepCancel State.abandonAll
  split
  · exact foldl_field (fun u => u.cal.owner) (fun _ _ => abandon_owner _ _) _ _
  · rfl

theorem stepCancel_running : s.stepCancel.cal.running = false := by
  unfold State.stepCancel
  split
  · rfl
  · exact Bool.eq_false_iff.mpr ‹_›

theorem stepCancel_idle (h : s.cal.running = false) : s.stepCancel = s := if_neg (by simp [h])

/-- A closed session has no owner, no step and no compatibility. -/
theorem sessionClose_closed : s.sessionClose.cal.owner = none ∧ s.sessionClose.cal.running = false ∧
    s.sessionClose.cal.compat = false := by
  unfold State.sessionClose State.passStart
  extract_lets u
  split
  · rw [State.urgent_cal]
    exact ⟨rfl, rfl, rfl⟩
  · exact ⟨rfl, rfl, rfl⟩

theorem sessionClose_undue (h : s.cal.passDue = false) : Only 1048576 s s.sessionClose := by
  unfold State.sessionClose
  extract_lets u
  rw [if_neg (by rw [show u.cal.passDue = s.cal.passDue from rfl, h]; simp)]
  exact State.setCal_only (State.stepStop_only (.refl 1048576 s) rfl) rfl

theorem calOpen_free {q : Cls} {compat : Bool} (free : s.cal.owner = none) (still : s.cal.passRun = false) :
    s.calOpen q compat = { s with cal := { s.cal with owner := some q, compat := compat, lastWrite := s.clock.clk } }.answer stOk := by
  unfold State.calOpen
  rw [if_neg (by simp [free])]
  extract_lets u
  rw [if_neg (by rw [show u.cal.passRun = s.cal.passRun from rfl, still]; simp)]
  rfl

theorem calOpen_busy {q : Cls} {compat : Bool} (owned : s.cal.owner.isSome = true) :
    s.calOpen q compat = s.answerRetry stBusy (s.cfg oCalTimeoutMs) := if_pos owned

/-- A command of the session that is allowed, with the value that it writes. -/
theorem csCommand_delivers {r : Req} {b : Bytes} {v : Nat} (allowed : s.allows r 0x9000 1 b = true) (value : ofLe b = v) :
    Delivered ((s.ownerWrote r.cls).wCsCommand r.cls v) (s.writeReq r 0x9000 1 b (fun s _ v => s.wCsCommand r.cls v)) := by
  have delivered := writeReq_delivers (F := fun s v => s.wCsCommand r.cls v) allowed fun _ _ => State.wCsCommand_ports
  rwa [value] at delivered

/-- The state of a started step before its first conversion is requested. -/
def State.stepBegun (s : State) : State :=
  s.setCal (fun c => { c with
    running := true
    chans := s.csChannels.foldl (fun (m : KMap (Option StepCh)) ch =>
      KMap.set m ch (some ((s.setCal (fun c => { c with chans := [] })).stepFirst ch))) []
    point := 7, startT := none, endDue := false, steps := c.steps + 1, passed := [], failed := [] })

theorem stepStart_unowned (h : s.cal.owner = none) : s.stepStart = s.answer stRange := if_pos (by rw [h]; rfl)

theorem stepStart_starts (owned : s.cal.owner.isSome = true) (idle : s.cal.running = false) (ok : s.stepOk = true) :
    s.stepStart = (s.stepBegun.urgent .calibration).answer stOk := by
  unfold State.stepStart
  rw [if_neg (by simp [Option.isSome_iff_ne_none.mp owned]), if_neg (by simp [idle]), if_neg (by simp [ok])]
  rfl

theorem stepBegun_cal : s.stepBegun.cal.running = true ∧ s.stepBegun.cal.owner = s.cal.owner ∧
    s.stepBegun.cal.steps = s.cal.steps + 1 ∧ s.stepBegun.cal.startT = none ∧ s.stepBegun.cal.passed = [] ∧
    s.stepBegun.cal.failed = [] := ⟨rfl, rfl, rfl, rfl, rfl, rfl⟩

theorem started_cal : ((s.stepBegun.urgent .calibration).answer stOk).cal = s.stepBegun.cal := by
  rw [State.answer_cal, State.urgent_cal]

theorem urgent_pendCal : (s.urgent .calibration).hk.pendCal = true := by
  rw [urgent_hk]
  unfold Hk.arbitrate
  split <;> rfl

/-- The channels of a started step are those of CS_CHANNELS. -/
theorem stepBegun_chans (ch : Nat) : (KMap.get s.stepBegun.cal.chans ch).isSome = true ↔ ch ∈ s.csChannels := by
  have listed := get_foldl_set_of (V := Option StepCh) (g := id) Function.injective_id
    (fun ch => some ((s.setCal (fun c => { c with chans := [] })).stepFirst ch)) s.csChannels (m := []) rfl ch
  have read : KMap.get s.stepBegun.cal.chans ch =
      if ch ∈ s.csChannels then some ((s.setCal (fun c => { c with chans := [] })).stepFirst ch) else none := listed
  rw [read]
  split <;> simp_all

theorem ownerWrote_stepOk (q : Cls) : (s.ownerWrote q).stepOk = s.stepOk := by
  unfold State.ownerWrote
  split <;> rfl

theorem ownerWrote_csChannels (q : Cls) : (s.ownerWrote q).csChannels = s.csChannels := by
  unfold State.csChannels
  rw [ownerWrote_cfg]

/-! ### The ends of a step -/

/-- The channels that a step's deadline abandons, each with its cause. -/
def Cal.unfinished (c : Cal) : List (Nat × Nat) := c.chans.filterMap (fun e => match e.2 with
  | none => none
  | some c => if c.st = .waitReturn ∨ c.st = .stabilising ∨ c.st = .measuring then some (e.1, if c.iters = 0 then 2 else 1) else none)

theorem unfinished_mem {x : Cal} {ch : Nat} {c : StepCh} (h : KMap.get x.chans ch = some c)
    (work : c.st = .waitReturn ∨ c.st = .stabilising ∨ c.st = .measuring) : ch ∈ x.unfinished.map Prod.fst := by
  refine List.mem_map.mpr ⟨(ch, if c.iters = 0 then 2 else 1), List.mem_filterMap.mpr ⟨(ch, some c), ?_, ?_⟩, rfl⟩
  · exact mem_of_get h (by exact Option.some_ne_none _)
  · exact if_pos work

theorem execCalTimeout_abandons (h : s.cal.running = true) :
    execCalTimeout s = .next ((s.cal.unfinished.foldl (fun s x => s.abandon x.1 x.2) s).stepCheck) :=
  congrArg Host.Outcome.next (if_neg (by simp [h]))

theorem execSignatureSlotEnd_converges {ch : Fin 256} {gain off : Int} {c : StepCh} (found : KMap.get s.cal.chans ch.val = some c)
    (st : c.st = .signature) : ∃ u : State, execSignatureSlotEnd ch gain off s = .next u.stepCheck ∧ u.cal.chans =
      s.cal.chans.upd ch.val (fun x => x.map fun c => { c with st := .converged, sigOk := true, sigG := gain, sigO := off }) := by
  unfold execSignatureSlotEnd
  simp only [found]
  rw [if_neg (by simp [st])]
  refine ⟨_, rfl, ?_⟩
  split
  · rw [State.spareFree_cal]
    rfl
  · rfl

end Sys2Proof.Machine

open Sys2Proof Sys2Proof.Machine

/-- Settles O15: by the value of CS_COMMAND, and for the ends of a step by what abandoning does to its channels. -/
theorem calibrationSession : Obligations.CalibrationSession := by
  unfold Obligations.CalibrationSession
  refine ⟨?_, ?_, ?_, ?_, ?_, ?_, ?_, ?_, ?_⟩
  · intro s r c n h allowed
    have answer : ∃ t, exec c s = .next t ∧ Delivered ((s.ownerWrote r.cls).calOpen r.cls (decide (n = 2))) t := by
      obtain ⟨rfl, rfl⟩ | ⟨rfl, rfl⟩ := h
      · exact ⟨_, rfl, csCommand_delivers (v := 1) allowed rfl⟩
      · exact ⟨_, rfl, csCommand_delivers (v := 2) allowed rfl⟩
    obtain ⟨t, run, delivered⟩ := answer
    refine ⟨fun free still => ⟨t, run, ?_⟩, fun owned => ⟨t, run, ?_⟩⟩
    · rwa [ownerWrote_unowned free, calOpen_free free still] at delivered
    · rwa [calOpen_busy ((congrArg Option.isSome (ownerWrote_owner _)).trans owned), ownerWrote_cfg] at delivered
  · intro s r allowed
    have delivered := csCommand_delivers (v := 3) allowed rfl
    refine ⟨fun free => ⟨_, rfl, ?_⟩, fun owned idle ok => ⟨_, rfl, ?_⟩⟩
    · rw [ownerWrote_unowned free] at delivered
      rwa [show s.wCsCommand r.cls 3 = s.stepStart from rfl, stepStart_unowned free] at delivered
    · have starts := stepStart_starts (s := s.ownerWrote r.cls) ((congrArg Option.isSome (ownerWrote_owner _)).trans owned)
        ((ownerWrote_running _).trans idle) ((ownerWrote_stepOk _).trans ok)
      rw [show (s.ownerWrote r.cls).wCsCommand r.cls 3 = (s.ownerWrote r.cls).stepStart from rfl, starts] at delivered
      have cal := (delivered.only.cal rfl).trans started_cal
      have hk := delivered.only.hk rfl
      obtain ⟨running, owner, steps, startT, passed, failed⟩ := stepBegun_cal (s := s.ownerWrote r.cls)
      rw [← cal] at running owner steps startT passed failed
      refine ⟨running, owner.trans (ownerWrote_owner _), ?_, startT, passed, failed, ?_, delivered.status, fun ch => ?_, ?_⟩
      · rw [steps, ownerWrote_steps]
      · exact (congrArg Hk.pendCal hk).trans (urgent_pendCal (s := (s.ownerWrote r.cls).stepBegun))
      · rw [cal, stepBegun_chans, ownerWrote_csChannels]
      · obtain ⟨t, run, frame⟩ := execStartStep_only (a1 := r) (s := s)
        obtain rfl := Host.Outcome.next.inj run.symm
        exact frame.changesOnly rfl
  · intro s r allowed
    have delivered := csCommand_delivers (v := 4) allowed rfl
    have cal := delivered.only.cal rfl
    refine ⟨_, rfl, (congrArg Cal.running cal).trans stepCancel_running,
      (congrArg Cal.owner cal).trans (stepCancel_owner.trans (ownerWrote_owner _)), delivered.status, fun idle => ?_⟩
    have still := stepCancel_idle ((ownerWrote_running r.cls).trans idle)
    rwa [show (s.ownerWrote r.cls).wCsCommand r.cls 4 = (s.ownerWrote r.cls).stepCancel.answer stOk from rfl, still] at delivered
  · intro s r allowed
    have delivered := csCommand_delivers (v := 5) allowed rfl
    have cal := delivered.only.cal rfl
    have means : (s.ownerWrote r.cls).wCsCommand r.cls 5 =
        (if s.cal.owner.isSome then (s.ownerWrote r.cls).stepCancel.sessionClose else s.ownerWrote r.cls).answer stOk := by
      rw [← ownerWrote_owner (s := s) r.cls]
      rfl
    rw [means] at delivered cal
    obtain ⟨unowned, stopped, native⟩ := sessionClose_closed (s := (s.ownerWrote r.cls).stepCancel)
    refine ⟨_, rfl, fun free => ?_, ?_, delivered.status, fun owned => ?_⟩
    · rwa [if_neg (by simp [free]), ownerWrote_unowned free] at delivered
    · refine (congrArg Cal.owner cal).trans ?_
      by_cases owned : s.cal.owner.isSome = true
      · rw [if_pos owned]
        exact unowned
      · rw [if_neg owned]
        exact (ownerWrote_owner _).trans (Option.not_isSome_iff_eq_none.mp owned)
    · rw [if_pos owned] at cal
      exact ⟨(congrArg Cal.running cal).trans stopped, (congrArg Cal.compat cal).trans native⟩
  · intro s owned idle
    obtain ⟨unowned, stopped, -⟩ := sessionClose_closed (s := s)
    exact ⟨_, congrArg Host.Outcome.next (if_pos ⟨owned, idle⟩), unowned, stopped,
      (State.sessionClose_only (.refl 1048616 s) rfl).changesOnly rfl, fun undue => (sessionClose_undue undue).changesOnly rfl⟩
  · intro s h
    refine congrArg Host.Outcome.next (if_neg ?_)
    rcases h with h | h <;> simp [h]
  · intro s idle
    exact congrArg Host.Outcome.next (if_pos idle)
  · intro s runs
    refine ⟨_, execCalTimeout_abandons runs, fun ch c found work => ?_, ?_⟩
    · have open_ : c.st ≠ .stored := by
        rcases work with st | st | st <;> rw [st] <;> decide
      refine ⟨{ c with st := .abandoned }, ?_, rfl, rfl⟩
      rw [stepCheck_stepChans, foldl_abandon_chans, abandonIn_foldl found open_, if_pos (unfinished_mem found work)]
    · obtain ⟨t, run, frame⟩ := execCalTimeout_only (s := s)
      obtain rfl := Host.Outcome.next.inj (run.symm.trans (execCalTimeout_abandons runs))
      exact frame.changesOnly rfl
  · intro s ch gain off c found st
    obtain ⟨u, answer, chans⟩ := execSignatureSlotEnd_converges (gain := gain) (off := off) found st
    refine ⟨_, answer, ?_, ?_⟩
    · rw [stepCheck_stepChans, chans, KMap.upd, found, KMap.get_set_of_ne (by exact Option.some_ne_none _), if_pos rfl]
      rfl
    · obtain ⟨t, run, frame⟩ := execSignatureSlotEnd_only (a1 := ch) (a2 := gain) (a3 := off) (s := s)
      obtain rfl := Host.Outcome.next.inj (run.symm.trans answer)
      exact frame.changesOnly rfl

end

section
/-! PROOFS. Credit lines, levels, day starts and the schedule (R233, R236-R239). -/
namespace Sys2Proof.Machine

variable {s t u : State} {a : Nat}

@[simp] theorem State.raise_pp {s : State} {a1 : _} {a2 : _} : (s.raise a1 a2).pp = s.pp :=
  (State.raise_only (.refl 8388608 s) rfl).pp rfl
@[simp] theorem State.setCredit_evt {s : State} {a1 : _} {a2 : _} : (s.setCredit a1 a2).evt = s.evt :=
  (State.setCredit_only (.refl 2621440 s) rfl).evt rfl
@[simp] theorem State.setCredit_dict {s : State} {a1 : _} {a2 : _} : (s.setCredit a1 a2).dict = s.dict :=
  (State.setCredit_only (.refl 2621440 s) rfl).dict rfl
@[simp] theorem State.creditSource_evt {s : State} {a1 : _} {a2 : _} : (s.creditSource a1 a2).evt = s.evt :=
  (State.creditSource_only (.refl 524288 s) rfl).evt rfl
@[simp] theorem State.creditSource_dict {s : State} {a1 : _} {a2 : _} : (s.creditSource a1 a2).dict = s.dict :=
  (State.creditSource_only (.refl 524288 s) rfl).dict rfl
@[simp] theorem State.tariffUsed_dict {s : State} {a1 : _} {a2 : _} : (s.tariffUsed a1 a2).dict = s.dict :=
  (State.tariffUsed_only (.refl 8912896 s) rfl).dict rfl
@[simp] theorem State.schedTake_dict {s : State} {a1 : _} : (s.schedTake a1).dict = s.dict :=
  (State.schedTake_only (.refl 8912896 s) rfl).dict rfl
@[simp] theorem State.chargeTo_dict {s : State} {a1 : _} {a2 : _} : (s.chargeTo a1 a2).dict = s.dict :=
  (State.chargeTo_only (.refl 11010048 s) rfl).dict rfl
@[simp] theorem State.charge_dict {s : State} {a1 : _} {a2 : _} : (s.charge a1 a2).dict = s.dict :=
  (State.charge_only (.refl 11010048 s) rfl).dict rfl
@[simp] theorem State.queueOpen_evt {s : State} {a1 : _} : (s.queueOpen a1).evt = s.evt :=
  (State.queueOpen_only (.refl 524288 s) rfl).evt rfl
@[simp] theorem State.queueOpen_nvm {s : State} {a1 : _} : (s.queueOpen a1).nvm = s.nvm :=
  (State.queueOpen_only (.refl 524288 s) rfl).nvm rfl
@[simp] theorem State.sourceCleared_evt {s : State} {a1 : _} : (s.sourceCleared a1).evt = s.evt :=
  (State.sourceCleared_only (.refl 524288 s) rfl).evt rfl

/-! ### The line of one account -/

/-- A write of one key leaves the others, in canonical form or not. -/
theorem get_set_other {V : Type} [Inhabited V] [DecidableEq V] {m : KMap V} {k j : Nat} {v : V} (h : j ≠ k) :
    (m.set k v).get j = m.get j := by
  by_cases hv : v = default
  · subst hv
    induction m with
    | nil =>
      unfold KMap.set
      rw [if_pos rfl]
    | cons x m ih =>
      obtain ⟨i, w⟩ := x
      unfold KMap.set
      rw [if_pos rfl, if_pos rfl]
      by_cases here : i = k
      · rw [if_pos here]
        exact (if_neg (fun same : i = j => h (same ▸ here))).symm
      · rw [if_neg here]
        split
        · rfl
        · unfold KMap.get
          rw [ih]
  · rw [KMap.get_set_of_ne hv, if_neg h]

/-- A credit line without its flags of R239. -/
def Credit.figures (l : Credit) : Credit := { l with ec := false, lowRep := false, exhRep := false }

/-- The prepayment unit without its lines, accounts and relays. -/
def Pp.book (p : Pp) : Pp := { p with credit := [], acct := [], relay := {} }

/-- A line that a change of its flags cannot remove from the table: the table is canonical, or the line holds more. -/
def Sound (e : Credit → Credit) (a : Nat) (s : State) : Prop :=
  KMap.wf s.pp.credit = true ∨ e (s.pp.credit.get a) ≠ e default

/-- What an operation on one account's levels keeps: the other lines, its own line up to e, the book, and pending events. -/
structure Levelled (e : Credit → Credit) (a : Nat) (s t : State) : Prop where
  other : ∀ x, x ≠ a → t.pp.credit.get x = s.pp.credit.get x
  own   : Sound e a s → Sound e a t ∧ e (t.pp.credit.get a) = e (s.pp.credit.get a)
  book  : t.pp.book = s.pp.book
  event : ∀ n, s.evt.pending.get n = true → t.evt.pending.get n = true

section
variable {e : Credit → Credit}

theorem Levelled.refl : Levelled e a s s := ⟨fun _ _ => rfl, fun h => ⟨h, rfl⟩, rfl, fun _ => id⟩

theorem Levelled.trans (h : Levelled e a s t) (k : Levelled e a t u) : Levelled e a s u where
  other x hx := (k.other x hx).trans (h.other x hx)
  own sound := by
    obtain ⟨soundT, ownT⟩ := h.own sound
    obtain ⟨soundU, ownU⟩ := k.own soundT
    exact ⟨soundU, ownU.trans ownT⟩
  book := k.book.trans h.book
  event n := k.event n ∘ h.event n

theorem Levelled.of_credit (hc : t.pp.credit = s.pp.credit) (hb : t.pp.book = s.pp.book) (he : t.evt = s.evt) :
    Levelled e a s t where
  other x _ := by rw [hc]
  own sound := by
    unfold Sound at sound ⊢
    rw [hc]
    exact ⟨sound, rfl⟩
  book := hb
  event n := by rw [he]; exact id

theorem Levelled.setCredit {f : Credit → Credit} (hf : ∀ l, e (f l) = e l) : Levelled e a s (s.setCredit a f) where
  other x hx := get_set_other hx
  own sound := by
    have read : (s.setCredit a f).pp.credit.get a = f (s.pp.credit.get a) := by
      rcases sound with wf | more
      · exact (KMap.get_upd wf a f a).trans (if_pos rfl)
      · refine (KMap.get_set_of_ne (fun empty => more ?_) a).trans (if_pos rfl)
        rw [← hf, empty]
    have same : e ((s.setCredit a f).pp.credit.get a) = e (s.pp.credit.get a) := by rw [read, hf]
    refine ⟨?_, same⟩
    rcases sound with wf | more
    · exact .inl (KMap.upd_wf wf a f)
    · exact .inr (by rw [same]; exact more)
  book := rfl
  event n := by rw [State.setCredit_evt]; exact id

theorem Levelled.raise {n : Nat} {d : Bytes} : Levelled e a s (s.raise n d) where
  other x _ := by rw [State.raise_pp]
  own sound := by
    unfold Sound at sound ⊢
    rw [State.raise_pp]
    exact ⟨sound, rfl⟩
  book := by rw [State.raise_pp]
  event m := raise_keeps_pending

theorem Levelled.setPrepay {k : Nat} {f : Prepay → Prepay} : Levelled e a s (s.setPrepay k f) := .of_credit rfl rfl rfl

theorem Levelled.setRelay {f : Relay → Relay} : Levelled e a s (s.setRelay f) := .of_credit rfl rfl rfl

theorem Levelled.queueOpen {k : Nat} : Levelled e a s (s.queueOpen k) := by
  unfold State.queueOpen
  extract_lets u v
  have base : Levelled e a s v := Levelled.setPrepay.trans .setRelay
  split
  · exact base
  · exact base.trans .setRelay

theorem Levelled.queueClose {k : Nat} : Levelled e a s (s.queueClose k) := by
  unfold State.queueClose
  extract_lets u
  split
  · exact .setPrepay
  · exact Levelled.setPrepay.trans .setRelay

theorem Levelled.sourceCleared {k : Nat} : Levelled e a s (s.sourceCleared k) := by
  unfold State.sourceCleared
  split
  · exact .refl
  · split
    · exact .setPrepay
    · exact .queueClose

theorem Levelled.creditSource {k : Nat} {on : Bool} : Levelled e a s (s.creditSource k on) := by
  unfold State.creditSource
  split
  · exact .refl
  · extract_lets u
    split
    · exact Levelled.setPrepay.trans .queueOpen
    · exact Levelled.setPrepay.trans .sourceCleared

theorem Levelled.levelLow (low : ∀ l b, e { l with lowRep := b } = e l) : Levelled e a s (s.levelLow a) := by
  unfold State.levelLow
  extract_lets c
  split
  · split
    · exact .refl
    · exact (Levelled.setCredit fun l => low l true).trans .raise
  · split
    · exact .setCredit fun l => low l false
    · exact .refl

theorem Levelled.levelOut {i : Nat} (exh : ∀ l b, e { l with exhRep := b } = e l) : Levelled e a s (s.levelOut a i) := by
  unfold State.levelOut
  extract_lets c x debt deferred u
  have told : Levelled e a s u := by
    simp only [u]
    split
    · exact .refl
    · exact (Levelled.setCredit fun l => exh l true).trans .raise
  split
  · exact .refl
  · split
    · exact told
    · exact told.trans .creditSource

/-- The first part of step 4 of R239: what was exhausted has recovered. -/
def State.recovered (s : State) (a : Nat) : State :=
  if max (s.cfgI 8 (oPpReconnectLevel a)) (s.exhaustLevel a) < s.creditI a then
    (if (s.pp.credit.get a).exhRep then s.setCredit a (fun l => { l with exhRep := false }) else s).creditSource a false
  else s

theorem Levelled.recovered (exh : ∀ l b, e { l with exhRep := b } = e l) : Levelled e a s (s.recovered a) := by
  unfold State.recovered
  split
  · split
    · exact (Levelled.setCredit fun l => exh l false).trans .creditSource
    · exact .creditSource
  · exact .refl

theorem levelUp_eq : s.levelUp a = if 0 < s.creditI a ∧ ((s.recovered a).pp.credit.get a).ec then
    (s.recovered a).setCredit a (fun l => { l with ec := false }) else s.recovered a := rfl

end

/-- The levels change no figure of the account's line and nothing of the others' (R239). -/
theorem levels_levelled {e : Credit → Credit} (low : ∀ l b, e { l with lowRep := b } = e l)
    (exh : ∀ l b, e { l with exhRep := b } = e l) (emergency : ∀ l b, e { l with ec := b } = e l) (i : Nat) :
    Levelled e a s (s.levels a i) := by
  unfold State.levels
  split
  · have granted : Levelled e a (s.levelLow a) ((s.levelLow a).levelEc a) := by
      unfold State.levelEc
      split
      · exact .setCredit fun l => emergency l true
      · exact .refl
    have up : ∀ v : State, Levelled e a v (v.levelUp a) := by
      intro v
      rw [levelUp_eq]
      split
      · exact (Levelled.recovered exh).trans (.setCredit fun l => emergency l false)
      · exact .recovered exh
    exact (Levelled.levelLow low).trans (granted.trans ((Levelled.levelOut exh).trans (up _)))
  · exact .refl

theorem levels_figures (i : Nat) : Levelled Credit.figures a s (s.levels a i) :=
  levels_levelled (fun _ _ => rfl) (fun _ _ => rfl) (fun _ _ => rfl) i

/-! ### The daily charge -/

/-- An operation on one account leaves the other lines, the book and pending events. -/
abbrev Elsewhere (a : Nat) (s t : State) : Prop := Levelled (fun _ => default) a s t

theorem tariffUsed_credit (tf : Nat) : (s.tariffUsed a tf).pp.credit = s.pp.credit := by
  unfold State.tariffUsed
  extract_lets old u
  split
  · rw [State.raise_pp]
    rfl
  · rfl

theorem tariffUsed_elsewhere (tf : Nat) : Elsewhere a s (s.tariffUsed a tf) := by
  unfold State.tariffUsed
  extract_lets old u
  split
  · exact Levelled.setPrepay.trans .raise
  · exact .setPrepay

theorem charge_elsewhere (day : Nat) : Elsewhere a s (s.charge a day) := by
  unfold State.charge
  extract_lets i tf u v
  have used : Elsewhere a s u := tariffUsed_elsewhere tf
  have debited : Elsewhere a u v := .setCredit fun _ => rfl
  exact used.trans (debited.trans (levels_levelled (fun _ _ => rfl) (fun _ _ => rfl) (fun _ _ => rfl) i))

theorem chargeTo_elsewhere (day : Nat) : Elsewhere a s (s.chargeTo a day) := by
  unfold State.chargeTo
  split
  · have all : ∀ (l : List Nat) (v : State), Elsewhere a v (l.foldl (fun s d => s.charge a d) v) := by
      intro l
      induction l with
      | nil => exact fun _ => .refl
      | cons d l ih => exact fun v => (charge_elsewhere d).trans (ih _)
    exact all _ _
  · exact .refl

/-- The daily charge of an account's tariff at the midnight of a day. -/
def State.dailyCharge (s : State) (a day : Nat) : Nat := s.cfg (oTfDailyCharge (s.tariffAt a (s.midnight day)))

theorem dailyCharge_congr (h : t.dict = s.dict) (a day : Nat) : t.dailyCharge a day = s.dailyCharge a day := by
  unfold State.dailyCharge State.tariffAt State.midnight State.dstAt State.cfgI State.cfg
  rw [h]

/-- A line that a day's charge has been taken from. -/
def Credit.charged (l : Credit) (c day : Nat) : Credit := { l with credit := l.credit - BitVec.ofNat 64 c, chargeDay := day }

theorem charge_line (day : Nat) (h : day ≠ 0) : ((s.charge a day).pp.credit.get a).figures =
    ((s.pp.credit.get a).charged (s.dailyCharge a day) day).figures := by
  unfold State.charge
  extract_lets i tf u v
  have dict : u.dict = s.dict := State.tariffUsed_dict
  have line : v.pp.credit.get a = (s.pp.credit.get a).charged (s.dailyCharge a day) day := by
    have day_ne : ∀ l : Credit, l.chargeDay = day → l ≠ default := fun l hl same => h (hl ▸ same ▸ rfl)
    have kept : u.pp.credit = s.pp.credit := tariffUsed_credit tf
    have written : v.pp.credit = u.pp.credit.upd a (fun l => { l with
        credit := l.credit - BitVec.ofNat 64 (u.cfg (oTfDailyCharge tf)), chargeDay := day }) := rfl
    rw [written, KMap.upd, KMap.get_set_of_ne (day_ne _ rfl), if_pos rfl, kept, cfg_congr (congrArg Dict.active dict)]
    rfl
  have sound : Sound Credit.figures a v := by
    refine .inr fun same => h ?_
    rw [line] at same
    exact congrArg Credit.chargeDay same
  rw [← line]
  exact ((levels_figures i).own sound).2

theorem chargeTo_next {day : Nat} (mode : s.cfg (oPpMode a) = 1) (on : s.cfgB (oAccEnable a) = true)
    (due : (s.pp.credit.get a).chargeDay + 1 = day) : s.chargeTo a day = s.charge a day := by
  have once : rangeFrom ((s.pp.credit.get a).chargeDay + 1) (day - (s.pp.credit.get a).chargeDay) = [day] := by
    rw [← due, Nat.add_sub_cancel_left]
    simp [rangeFrom]
  unfold State.chargeTo
  rw [if_pos ⟨mode, on⟩]
  dsimp only
  rw [once]
  rfl

theorem chargeTo_done {day : Nat} (h : (s.pp.credit.get a).chargeDay = day) : s.chargeTo a day = s := by
  unfold State.chargeTo
  split
  · dsimp only
    rw [h, Nat.sub_self]
    rfl
  · rfl

theorem chargeTo_off {day : Nat} (h : s.cfg (oPpMode a) ≠ 1) : s.chargeTo a day = s := if_neg fun on => h on.1

/-- Charging some accounts changes no active value and nothing of the book. -/
theorem chargeAll_kept (l : List Nat) (day : Nat) : (l.foldl (fun s a => s.chargeTo a day) s).dict = s.dict ∧
    (l.foldl (fun s a => s.chargeTo a day) s).pp.book = s.pp.book :=
  ⟨foldl_field State.dict (fun _ _ => State.chargeTo_dict) _ _, foldl_field (fun u => u.pp.book) (fun _ _ => (chargeTo_elsewhere _).book) _ _⟩

/-- Each account is charged up to the day that the first one is. -/
theorem chargeAll_day {day : State → Nat} (h : ∀ u a d, day (u.chargeTo a d) = day u) (l : List Nat) :
    l.foldl (fun s a => s.chargeTo a (day s)) s = l.foldl (fun u a => u.chargeTo a (day s)) s := by
  induction l generalizing s with
  | nil => rfl
  | cons b l ih => rw [List.foldl_cons, List.foldl_cons, ih, h]

theorem chargeTo_localDay (b d : Nat) : ((s.chargeTo b d).localDay (s.chargeTo b d).now).toNat = (s.localDay s.now).toNat := by
  have dict : (s.chargeTo b d).dict = s.dict := State.chargeTo_dict
  have clock : (s.chargeTo b d).now = s.now := now_congr State.chargeTo_clock
  unfold State.localDay State.localSec State.dstAt State.cfgI State.cfg
  rw [dict, clock]

theorem chargeAll_other {x : Nat} (l : List Nat) (day : Nat)
    (h : x ∉ l ∨ s.cfg (oPpMode x) ≠ 1 ∨ (s.pp.credit.get x).chargeDay = day) :
    (l.foldl (fun s a => s.chargeTo a day) s).pp.credit.get x = s.pp.credit.get x := by
  induction l generalizing s with
  | nil => rfl
  | cons b l ih =>
    have step : (s.chargeTo b day).pp.credit.get x = s.pp.credit.get x := by
      by_cases here : x = b
      · subst here
        rcases h with out | off | done
        · exact absurd List.mem_cons_self out
        · rw [chargeTo_off off]
        · rw [chargeTo_done done]
      · exact (chargeTo_elsewhere day).other x here
    rw [List.foldl_cons, ih, step]
    rw [cfg_congr (congrArg Dict.active State.chargeTo_dict), step]
    exact h.imp_left fun out there => out (List.mem_cons_of_mem _ there)

/-- An account that was charged up to the day before is charged once. -/
theorem chargeAll_due {l : List Nat} {day : Nat} (listed : a ∈ l) (mode : s.cfg (oPpMode a) = 1)
    (on : s.cfgB (oAccEnable a) = true) (due : (s.pp.credit.get a).chargeDay + 1 = day) :
    ((l.foldl (fun s a => s.chargeTo a day) s).pp.credit.get a).figures =
      ((s.pp.credit.get a).charged (s.dailyCharge a day) day).figures := by
  induction l generalizing s with
  | nil => cases listed
  | cons b l ih =>
    rw [List.foldl_cons]
    by_cases here : a = b
    · subst here
      have line := charge_line (s := s) (a := a) day (due ▸ Nat.succ_ne_zero _)
      rw [← chargeTo_next mode on due] at line
      have done : ((s.chargeTo a day).pp.credit.get a).chargeDay = day := congrArg Credit.chargeDay line
      rw [chargeAll_other _ _ (.inr (.inr done)), line]
    · have dict : (s.chargeTo b day).dict = s.dict := State.chargeTo_dict
      have same := (chargeTo_elsewhere (s := s) (a := b) day).other a here
      have cfg : ∀ k, (s.chargeTo b day).cfg k = s.cfg k := cfg_congr (congrArg Dict.active dict)
      have on' : (s.chargeTo b day).cfgB (oAccEnable a) = true := by
        unfold State.cfgB at on ⊢
        rwa [cfg]
      rw [ih (List.mem_of_ne_of_mem here listed) ((cfg _).trans mode) on' (by rw [same]; exact due), same,
        dailyCharge_congr dict]

/-! ### The schedule -/

theorem SchedEntry.same_self (x : SchedEntry) : x.same x = true := decide_eq_true rfl

theorem schedTake_same {x : SchedEntry} (h : s.pp.now.same x = true) : s.schedTake x = s := if_pos h

/-- A new schedule entry comes into force; a change of its band after the first entry is EV47 (R238). -/
theorem schedTake_new {x : SchedEntry} (h : s.pp.now.same x = false) :
    (s.schedTake x).pp = { s.pp with prev := s.pp.now, now := x } ∧
    (s.pp.now.time ≠ 0 → s.pp.now.band ≠ x.band → Raised 47 s (s.schedTake x)) ∧
    (s.pp.now.band = x.band → (s.schedTake x).evt = s.evt) := by
  unfold State.schedTake State.bandEvent
  rw [if_neg (by simp [h])]
  refine ⟨?_, fun later changed => ?_, fun same => ?_⟩
  · simp only [apply_ite State.pp, State.raise_pp, ite_self]
    rfl
  · simp only [if_neg later, if_neg changed]
    exact (raise_raised (s.setPp fun p => { p with prev := s.pp.now, now := x }) 47 _).congr rfl rfl
  · simp only [if_pos same, ite_self]
    rfl

theorem schedTake_now (x : SchedEntry) : (s.schedTake x).pp.now.same x = true := by
  by_cases h : s.pp.now.same x = true
  · rw [schedTake_same h, h]
  · rw [(schedTake_new (Bool.eq_false_iff.mpr h)).1]
    exact SchedEntry.same_self x

theorem schedTake_sched (x : SchedEntry) : (s.schedTake x).pp.sched = s.pp.sched ∧ (s.schedTake x).pp.frozen = s.pp.frozen := by
  by_cases h : s.pp.now.same x = true
  · rw [schedTake_same h]
    exact ⟨rfl, rfl⟩
  · rw [(schedTake_new (Bool.eq_false_iff.mpr h)).1]
    exact ⟨rfl, rfl⟩

theorem Gives.changesOnly {m : Nat} {l : List Part} {o : Host.Outcome State Fault Refusal} (h : Gives m s o)
    (answer : o = .next t) (hc : Part.covers l m = true) : changesOnly l s t := by
  obtain ⟨v, run, frame⟩ := h
  obtain rfl := Host.Outcome.next.inj (run.symm.trans answer)
  exact frame.changesOnly hc

end Sys2Proof.Machine

open Sys2Proof Sys2Proof.Machine

/-- Settles O16: each account's charge touches its own line alone, and an account that is charged is not due again. -/
theorem dayStartsAndSchedule : Obligations.DayStartsAndSchedule := by
  unfold Obligations.DayStartsAndSchedule
  refine ⟨?_, ?_, ?_, ?_, ?_, ?_⟩
  · intro s h
    have off : (!s.powered) = true ∨ s.pp.frozen = true ∨ (!s.nvm.restored) = true := by
      rwa [Bool.not_eq_true', Bool.not_eq_true']
    exact congrArg Host.Outcome.next (if_pos off)
  · intro s powered thawed restored
    have on : ¬ ((!s.powered) = true ∨ s.pp.frozen = true ∨ (!s.nvm.restored) = true) := by simp [powered, thawed, restored]
    have answer : execDayStart s = .next (s.enabledAccts.foldl (fun u a => u.chargeTo a (s.localDay s.now).toNat) s) :=
      congrArg Host.Outcome.next ((if_neg on).trans (chargeAll_day (fun _ _ _ => chargeTo_localDay _ _) _))
    refine ⟨_, answer, fun a listed on mode due => ?_, fun a h => ?_, execDayStart_only.changesOnly answer rfl⟩
    · have line := chargeAll_due listed mode on due
      exact ⟨congrArg Credit.credit line, (congrArg Credit.chargeDay line :), (congrArg Credit.residue line :)⟩
    · refine chargeAll_other _ _ ?_
      rcases h with off | out
      · exact .inr (.inl off)
      · exact .inl out
  · intro s e rest sched powered thawed come
    have answer : execScheduleEntry s = .next ((s.setPp (fun p => { p with sched := rest })).schedTake e) := by
      unfold execScheduleEntry
      rw [sched]
      exact congrArg Host.Outcome.next (if_pos ⟨powered, thawed, come⟩)
    refine ⟨_, answer, (schedTake_sched e).1, fun same => schedTake_same (s := s.setPp _) same, fun new => ?_,
      fun new later changed => ?_, fun same => ?_, execScheduleEntry_only.changesOnly answer rfl⟩
    · exact (schedTake_new (s := s.setPp fun p => { p with sched := rest }) new).1
    · exact (schedTake_new (s := s.setPp fun p => { p with sched := rest }) new).2.1 later changed
    · by_cases new : s.pp.now.same e = true
      · rw [schedTake_same (s := s.setPp fun p => { p with sched := rest }) new]
        rfl
      · exact (schedTake_new (s := s.setPp fun p => { p with sched := rest }) (Bool.eq_false_iff.mpr new)).2.2 same
  · intro s h
    unfold exec execScheduleEntry
    cases sched : s.pp.sched with
    | nil => rfl
    | cons e rest =>
      refine congrArg Host.Outcome.next (if_neg ?_)
      rintro ⟨powered, thawed, come⟩
      rcases h with h | h | h | h
      · rw [sched] at h
        cases h
      · rw [powered] at h
        cases h
      · rw [thawed] at h
        cases h
      · rw [sched] at h
        exact absurd come (Nat.not_le.mpr (h e rfl))
  · intro s powered served restored
    have on : ¬ ((!s.powered) = true ∨ s.isl.control.isSome = true ∨ (!s.nvm.restored) = true) := by
      simp [powered, served, restored]
    have answer : execScheduleRebuild s = .next (((s.setPp (fun p => { p with
        sched := s.changes s.now, frozen := false })).schedTake (s.calendarAt s.now)).enabledAccts.foldl
        (fun u a => u.chargeTo a ((s.setPp (fun p => { p with
          sched := s.changes s.now, frozen := false })).schedTake (s.calendarAt s.now)).pp.now.day)
        ((s.setPp (fun p => { p with sched := s.changes s.now, frozen := false })).schedTake (s.calendarAt s.now))) :=
      congrArg Host.Outcome.next ((if_neg on).trans (chargeAll_day
        (fun _ _ _ => congrArg (fun p : Pp => p.now.day) (chargeTo_elsewhere _).book) _))
    obtain ⟨sched, frozen⟩ := schedTake_sched (s := s.setPp (fun p => { p with
      sched := s.changes s.now, frozen := false })) (s.calendarAt s.now)
    have now := schedTake_now (s := s.setPp (fun p => { p with
      sched := s.changes s.now, frozen := false })) (s.calendarAt s.now)
    refine ⟨_, answer, ?_, ?_, ?_, execScheduleRebuild_only.changesOnly answer rfl⟩
    · exact (congrArg Pp.sched (chargeAll_kept _ _).2).trans sched
    · exact (congrArg Pp.frozen (chargeAll_kept _ _).2).trans frozen
    · exact (congrArg (fun p : Pp => p.now.same (s.calendarAt s.now)) (chargeAll_kept _ _).2).trans now
  · intro s h
    have off : (!s.powered) = true ∨ s.isl.control.isSome = true ∨ (!s.nvm.restored) = true := by
      rwa [Bool.not_eq_true', Bool.not_eq_true']
    exact congrArg Host.Outcome.next (if_pos off)

end

section
/-! PROOFS. Credit transfers and keys (R248, R250). -/
namespace Sys2Proof.Machine

variable {s t u : State} {a : Nat}

@[simp] theorem State.scStep_pp {s : State} {k : Nat} : (s.scStep k).pp = s.pp :=
  (State.scStep_only (.refl 2097152 s) rfl).pp rfl
@[simp] theorem State.scStep_evt {s : State} {k : Nat} : (s.scStep k).evt = s.evt :=
  (State.scStep_only (.refl 2097152 s) rfl).evt rfl
@[simp] theorem State.jWrite_pp {s : State} {a1 : _} : (s.jWrite a1).pp = s.pp :=
  (State.jWrite_only (.refl 2097152 s) rfl).pp rfl
@[simp] theorem State.jWrite_evt {s : State} {a1 : _} : (s.jWrite a1).evt = s.evt :=
  (State.jWrite_only (.refl 2097152 s) rfl).evt rfl
@[simp] theorem State.logPut_pp {s : State} {a1 : _} {a2 : _} {a3 : _} : (s.logPut a1 a2 a3).pp = s.pp :=
  (State.logPut_only (.refl 8388608 s) rfl).pp rfl
@[simp] theorem State.levels_ans {s : State} {a1 : _} {a2 : _} : (s.levels a1 a2).ans = s.ans :=
  (State.levels_only (.refl 11010048 s) rfl).ans rfl
@[simp] theorem State.raise_ans {s : State} {a1 : _} {a2 : _} : (s.raise a1 a2).ans = s.ans :=
  (State.raise_only (.refl 8388608 s) rfl).ans rfl
@[simp] theorem State.wTransfer_ports {s : State} {a1 : _} {a2 : _} : (s.wTransfer a1 a2).ports = s.ports :=
  (State.wTransfer_only (.refl 2158493696 s) rfl).ports rfl
@[simp] theorem State.wKeyDevice_ports {s : State} {a1 : _} : (s.wKeyDevice a1).ports = s.ports :=
  (State.wKeyDevice_only (.refl 2148007936 s) rfl).ports rfl
@[simp] theorem State.wKeyAccount_ports {s : State} {a1 : _} {a2 : _} : (s.wKeyAccount a1 a2).ports = s.ports :=
  (State.wKeyAccount_only (.refl 2148007936 s) rfl).ports rfl
@[simp] theorem State.wKeyWrapped_ports {s : State} {a1 : _} : (s.wKeyWrapped a1).ports = s.ports :=
  (State.wKeyWrapped_only (.refl 2148007936 s) rfl).ports rfl
@[simp] theorem State.transferRefused_pwr {s : State} {a1 : _} {a2 : _} : (s.transferRefused a1 a2).pwr = s.pwr :=
  (State.transferRefused_only (.refl 2156396544 s) rfl).pwr rfl

/-! ### Bytes of a transfer -/

theorem ofLe_lt (b : Bytes) : ofLe b < 2 ^ (8 * b.length) := by
  induction b with
  | nil => exact Nat.one_pos
  | cons x b ih =>
    have byte : x.toNat < 256 := x.isLt
    rw [show 8 * (x :: b).length = 8 * b.length + 8 by simp [Nat.mul_succ], Nat.pow_add]
    show x.toNat + 256 * ofLe b < _
    omega

theorem fld_lt (b : Bytes) (off n : Nat) : fld b off n < 2 ^ (8 * n) := by
  refine Nat.lt_of_lt_of_le (ofLe_lt _) (Nat.pow_le_pow_right (by decide) (Nat.mul_le_mul_left 8 ?_))
  unfold slice
  rw [List.length_take]
  exact Nat.min_le_left _ _

/-- A field within the first bytes is that of those bytes alone. -/
theorem fld_take {b : Bytes} {k off n : Nat} (h : off + n ≤ k) : fld (b.take k) off n = fld b off n := by
  unfold fld slice
  rw [List.drop_take, List.take_take, Nat.min_eq_left (by omega)]

/-- An amount of eight bytes within the limit of R248 is not negative, and only such a one. -/
theorem amount_small (v : Nat) (hv : v < 2 ^ 64) : (sgn 8 v < 0 ∨ 10 ^ 15 < sgn 8 v) ↔ ¬ v ≤ 10 ^ 15 := by
  unfold sgn
  split <;> omega

theorem sgn_small {v : Nat} (h : v ≤ 10 ^ 15) : sgn 8 v = v := if_pos (by omega)

/-! ### Credit transfers -/

/-- The head of a transfer names the device, the account, the type and the version, and its amount is within the limit. -/
def headOk (b : Bytes) (a : Nat) : Prop :=
  fld b 0 8 = Config.serialNumber.toNat ∧ fld b 8 2 = a ∧ fld b 10 1 = 1 ∧ fld b 11 1 = 0 ∧ fld b 12 8 ≤ 10 ^ 15

/-- The model's check of the head. -/
def headBad (b : Bytes) (a : Nat) : Prop :=
  fld (b.take 32) 0 8 ≠ Config.serialNumber.toNat ∨ fld (b.take 32) 8 2 ≠ a ∨ fld (b.take 32) 10 1 ≠ 1 ∨
    fld (b.take 32) 11 1 ≠ 0 ∨ sgn 8 (fld (b.take 32) 12 8) < 0 ∨ 10 ^ 15 < sgn 8 (fld (b.take 32) 12 8)

theorem headBad_iff (b : Bytes) (a : Nat) : headBad b a ↔ ¬ headOk b a := by
  unfold headBad headOk
  rw [fld_take (by decide), fld_take (by decide), fld_take (by decide), fld_take (by decide), fld_take (by decide),
    amount_small _ (fld_lt b 12 8)]
  simp only [Classical.not_and_iff_not_or_not]

theorem wTransfer_range {b : Bytes} (h : ¬ headOk b a) : s.wTransfer a b = s.answer stRange :=
  if_pos ((headBad_iff b a).mpr h)

/-- The checks of the MAC and of the counter refuse with their status. -/
theorem wTransfer_refused {b : Bytes} {st : Nat} (head : headOk b a)
    (h : (KMap.get s.pp.keys a = none ∧ st = stAuth) ∨
      (∃ k, KMap.get s.pp.keys a = some k ∧ cmac k (b.take 32) ≠ b.drop 32 ∧ st = stAuth) ∨
      (∃ k, KMap.get s.pp.keys a = some k ∧ cmac k (b.take 32) = b.drop 32 ∧ (KMap.get s.pp.credit a).gap = false ∧
        fld b 28 4 ≤ (KMap.get s.pp.credit a).xfer.toNat ∧ st = stStale)) : s.wTransfer a b = s.transferRefused a st := by
  refine (if_neg fun bad : headBad b a => (headBad_iff b a).mp bad head).trans ?_
  obtain ⟨none_, rfl⟩ | ⟨k, key, mac, rfl⟩ | ⟨k, key, mac, gap, old, rfl⟩ := h
  · rw [none_]
  · rw [key]
    exact if_pos mac
  · rw [key]
    refine (if_neg (not_not_intro mac)).trans (if_pos ?_)
    have counter : fld (b.take 32) 28 4 = fld b 28 4 := fld_take (by decide)
    rw [gap, counter]
    exact old

theorem transferRefused_spec (st : Nat) : (s.transferRefused a st).ans = { status := st } ∧
    (s.transferRefused a st).pp.credit = s.pp.credit ∧
    (s.transferRefused a st).pp.acct = s.pp.acct.upd a (fun p => { p with authFails := sat (2 ^ 32 - 1) (p.authFails + 1) }) ∧
    Raised 43 s (s.transferRefused a st) := by
  unfold State.transferRefused
  extract_lets u
  have pp : ((u.raise 43 (le 2 a ++ le 1 st ++ le 1 0)).answer st).pp = u.pp := by rw [State.answer_pp, State.raise_pp]
  exact ⟨rfl, by rw [pp]; rfl, by rw [pp]; rfl, (raise_raised u 43 _).congr rfl State.answer_evt⟩

/-- The state in which the line of an account has taken a transfer. -/
def State.transferTaken (s : State) (a counter amount : Nat) : State := s.setCredit a (fun l => { l with
  xfer := BitVec.ofNat 32 counter, credit := l.credit + BitVec.ofNat 64 amount, gap := false })

/-- The state in which an accepted transfer is recorded and told of. -/
def State.transferTold (s : State) (a : Nat) (m : Bytes) : State :=
  ((s.transferRecord a m).answer stOk).raise 42 (le 2 a ++ le 8 (fld m 12 8) ++ le 4 (fld m 28 4))

theorem wTransfer_accepted {b k : Bytes} (head : headOk b a) (key : KMap.get s.pp.keys a = some k)
    (mac : cmac k (b.take 32) = b.drop 32) (gap : (KMap.get s.pp.credit a).gap = false)
    (fresh : (KMap.get s.pp.credit a).xfer.toNat < fld b 28 4) (room : s.creditI a + fld b 12 8 ≤ 2 ^ 62) :
    ∃ i, s.wTransfer a b = ((s.transferTaken a (fld b 28 4) (fld b 12 8)).transferTold a (b.take 32)).levels a i := by
  have amount : sgn 8 (fld (b.take 32) 12 8) = (fld b 12 8 : Nat) := by
    rw [fld_take (by decide)]
    exact sgn_small head.2.2.2.2
  have counter : fld (b.take 32) 28 4 = fld b 28 4 := fld_take (by decide)
  have taken : s.setCredit a (fun l => { l with
      xfer := BitVec.ofNat 32 (fld (b.take 32) 28 4)
      credit := l.credit + BitVec.ofInt 64 (sgn 8 (fld (b.take 32) 12 8)), gap := false }) =
      s.transferTaken a (fld b 28 4) (fld b 12 8) := by
    rw [amount, counter]
    simp only [BitVec.ofInt_natCast]
    rfl
  have newer_ : ¬ (if (KMap.get s.pp.credit a).gap then sgn 8 (fld (b.take 32) 12 8) ≠ 0 ∨
      fld (b.take 32) 28 4 < (KMap.get s.pp.credit a).xfer.toNat else
      fld (b.take 32) 28 4 ≤ (KMap.get s.pp.credit a).xfer.toNat) := by
    rw [gap, counter]
    exact Nat.not_le.mpr fresh
  have fits : ¬ 2 ^ 62 < s.creditI a + sgn 8 (fld (b.take 32) 12 8) := by
    rw [amount]
    exact Int.not_lt.mpr room
  refine ⟨((s.transferTaken a (fld b 28 4) (fld b 12 8)).transferTold a (b.take 32)).now,
    (if_neg fun bad : headBad b a => (headBad_iff b a).mp bad head).trans ?_⟩
  rw [key]
  refine (if_neg (not_not_intro mac)).trans ((if_neg newer_).trans ((if_neg fits).trans ?_))
  rw [taken]
  rfl

theorem ringPut_pending (k units : Nat) (mk : W32 → Bool → Bytes) : (s.ringPut k units mk).evt.pending = s.evt.pending := by
  rw [ringPut_ringsOnly k units mk]

/-- Recording a transfer and telling of it changes no line and nothing of the book. -/
theorem transferTold_levelled (m : Bytes) : Levelled Credit.figures a s (s.transferTold a m) := by
  have record : Levelled Credit.figures a s (s.transferRecord a m) := by
    unfold State.transferRecord
    extract_lets u r v w
    have quiet : Levelled Credit.figures a s w := by
      refine .of_credit ?_ ?_ ?_ <;> simp [w, v, u]
    have put : Levelled Credit.figures a w (w.logPut 5 7 r) := by
      have pp : (w.logPut 5 7 r).pp = w.pp := State.logPut_pp
      refine ⟨fun _ _ => by rw [pp], fun sound => ?_, by rw [pp], fun n h => ?_⟩
      · unfold Sound at sound ⊢
        rw [pp]
        exact ⟨sound, rfl⟩
      · exact (congrArg (KMap.get · n) (ringPut_pending _ _ _)).trans h
    exact quiet.trans (put.trans .setPrepay)
  exact record.trans ((Levelled.of_credit (by simp) (by simp) (by simp)).trans .raise)

theorem transferTaken_line {counter amount : Nat} (h : 0 < counter) (bound : counter < 2 ^ 32) :
    (s.transferTaken a counter amount).pp.credit.get a = { s.pp.credit.get a with
      xfer := BitVec.ofNat 32 counter, credit := (s.pp.credit.get a).credit + BitVec.ofNat 64 amount, gap := false } := by
  have counts : BitVec.ofNat 32 counter ≠ 0 := by
    intro zero
    have value := congrArg BitVec.toNat zero
    rw [BitVec.toNat_ofNat, Nat.mod_eq_of_lt bound] at value
    exact absurd value (by simpa using Nat.pos_iff_ne_zero.mp h)
  exact (KMap.get_set_of_ne (fun empty => counts (congrArg Credit.xfer empty)) a).trans (if_pos rfl)

/-- An allowed write changes what its meaning changes, and the owner's note, the rings and the port records. -/
theorem Delivered.requestOnly {q : Cls} {m : Nat} (d : Delivered u t) (h : Only m (s.ownerWrote q) u)
    (hc : 1048576 &&& m = 1048576) (hd : 0x1800000 &&& m = 0x1800000) : Only m s t :=
  ((State.ownerWrote_only (.refl m s) hc).trans h).trans (d.only.mono hd)

theorem Raised.delivered {n : Nat} (h : Raised n s u) (d : Delivered u t) : Raised n s t := by
  unfold Raised at h ⊢
  rw [d]
  exact h

/-! ### Wrapped keys -/

theorem wKeyWrapped_auth {b : Bytes} (h : s.pp.keyDevice = none ∨ ∃ k, s.pp.keyDevice = some k ∧ kwUnwrap k b = none) :
    s.wKeyWrapped b = s.answer stAuth := by
  unfold State.wKeyWrapped
  obtain none_ | ⟨k, device, bad⟩ := h
  · rw [none_]
  · rw [device]
    dsimp only
    rw [bad]

/-- A key that unwraps is checked for its target and its counter, and taken. -/
theorem wKeyWrapped_unwrapped {b k p : Bytes} (device : s.pp.keyDevice = some k) (unwrapped : kwUnwrap k b = some p) :
    s.wKeyWrapped b = if fld p 16 4 < 2 ∨ 0xF1 < fld p 16 4 then s.answer stRange
      else if fld p 20 4 ≤ s.pp.keyCounter.toNat then s.answer stStale
      else { s with pp := { s.pp with
        keys := s.pp.keys.set (fld p 16 4 - 2) (some (p.take 16)), keyCounter := BitVec.ofNat 32 (fld p 20 4) } }.answer stOk := by
  unfold State.wKeyWrapped
  rw [device]
  dsimp only
  rw [unwrapped]
  rfl

end Sys2Proof.Machine

open Sys2Proof Sys2Proof.Machine

/-- Settles O17: by the order of the checks, and for an accepted transfer through the state that its record leaves. -/
theorem creditTransfer : Obligations.CreditTransfer := by
  unfold Obligations.CreditTransfer
  intro s r a b allowed
  have delivered := writeReq_delivers (F := fun s _ => s.wTransfer a.val b) allowed fun _ _ => State.wTransfer_ports
  have pp : (s.ownerWrote r.cls).pp = s.pp := State.ownerWrote_pp
  have evt : (s.ownerWrote r.cls).evt = s.evt := State.ownerWrote_evt
  refine ⟨fun bad => ⟨_, rfl, ?_⟩, fun serial account type version limit => ⟨fun st h => ⟨_, rfl, ?_⟩, ?_⟩⟩
  · rwa [wTransfer_range (a := a.val) bad] at delivered
  · have head : headOk b a.val := ⟨serial, account, type, version, limit⟩
    rw [wTransfer_refused (s := s.ownerWrote r.cls) head (by rw [pp]; exact h)] at delivered
    obtain ⟨ans, credit, acct, raised⟩ := transferRefused_spec (s := s.ownerWrote r.cls) (a := a.val) st
    have same := delivered.only.pp rfl
    refine ⟨delivered.ans.trans ans, ?_, ?_, ((raised.congr evt rfl).delivered delivered), ?_⟩
    · rw [same, credit, pp]
    · rw [same, acct, pp]
    · have refused : Only 2174222336 (s.ownerWrote r.cls) ((s.ownerWrote r.cls).transferRefused a.val st) :=
        State.transferRefused_only (.refl _ _) rfl
      exact (delivered.requestOnly refused rfl rfl).changesOnly rfl
  · intro k key mac gap fresh room
    have head : headOk b a.val := ⟨serial, account, type, version, limit⟩
    obtain ⟨i, accepted⟩ := wTransfer_accepted (s := s.ownerWrote r.cls) head (by rw [pp]; exact key) mac
      (by rw [pp]; exact gap) (by rw [pp]; exact fresh)
      (by unfold State.creditI at room ⊢; rw [pp]; exact room)
    have frame := delivered.requestOnly (State.wTransfer_only (.refl 2176319488 _) rfl) rfl rfl
    rw [accepted] at delivered
    have line := transferTaken_line (s := s.ownerWrote r.cls) (a := a.val) (amount := fld b 12 8)
      (Nat.zero_lt_of_lt fresh) (fld_lt b 28 4)
    have told := transferTold_levelled (s := (s.ownerWrote r.cls).transferTaken a.val (fld b 28 4) (fld b 12 8))
      (a := a.val) (b.take 32)
    have kept := told.trans (levels_figures i)
    have sound : Sound Credit.figures a.val ((s.ownerWrote r.cls).transferTaken a.val (fld b 28 4) (fld b 12 8)) := by
      refine .inr fun empty => ?_
      rw [line] at empty
      have zero := congrArg (fun l => (Credit.xfer l).toNat) empty
      have value : (BitVec.ofNat 32 (fld b 28 4)).toNat = fld b 28 4 := by
        rw [BitVec.toNat_ofNat, Nat.mod_eq_of_lt (fld_lt b 28 4)]
      exact absurd (value.symm.trans zero) (Nat.pos_iff_ne_zero.mp (Nat.zero_lt_of_lt fresh))
    have own := (kept.own sound).2
    rw [line, pp] at own
    have same := delivered.only.pp rfl
    refine ⟨_, rfl, ?_, ?_, ?_, fun x hx => ?_, ?_, ?_, frame.changesOnly rfl⟩
    · rw [delivered.ans, State.levels_ans]
      exact State.raise_ans
    · rw [same]
      exact (congrArg Credit.credit own :)
    · rw [same]
      exact (congrArg Credit.xfer own :)
    · rw [same, kept.other x hx]
      exact (get_set_other hx).trans (by rw [pp])
    · rw [delivered]
      exact (levels_figures i).event 42 (raise_raised _ 42 _).pending
    · rw [same]
      exact (congrArg Pp.keys kept.book).trans (congrArg (fun p : Pp => p.keys) pp :)

/-- Settles O18: each key's write is its meaning, delivered. -/
theorem keysAreWritten : Obligations.KeysAreWritten := by
  unfold Obligations.KeysAreWritten
  have pp : ∀ (s : State) (q : Cls), (s.ownerWrote q).pp = s.pp := fun _ _ => State.ownerWrote_pp
  refine ⟨?_, ?_, ?_⟩
  · intro s r b allowed
    have delivered := writeReq_delivers (F := fun s _ => s.wKeyDevice b) allowed fun _ _ => State.wKeyDevice_ports
    refine ⟨_, rfl, fun empty => ?_, fun loaded => ?_⟩
    · have written : (s.ownerWrote r.cls).wKeyDevice b =
          { s.ownerWrote r.cls with pp := { s.pp with keyDevice := some b } }.answer stOk := by
        rw [← pp s r.cls]
        exact if_neg (by rw [pp, empty]; exact Bool.false_ne_true)
      rwa [written] at delivered
    · rwa [show (s.ownerWrote r.cls).wKeyDevice b = _ from if_pos (by rw [pp]; exact loaded)] at delivered
  · intro s r a b allowed
    have delivered := writeReq_delivers (F := fun s _ => s.wKeyAccount a.val b) allowed fun _ _ => State.wKeyAccount_ports
    have written : (s.ownerWrote r.cls).wKeyAccount a.val b =
        { s.ownerWrote r.cls with pp := { s.pp with keys := s.pp.keys.set a.val (some b) } }.answer stOk := by
      rw [← pp s r.cls]
      rfl
    exact ⟨_, rfl, by rwa [written] at delivered⟩
  · intro s r b allowed
    have delivered := writeReq_delivers (F := fun s _ => s.wKeyWrapped b) allowed fun _ _ => State.wKeyWrapped_ports
    refine ⟨fun h => ⟨_, rfl, ?_⟩, fun k p device unwrapped => ?_⟩
    · rwa [wKeyWrapped_auth (by rw [pp]; exact h)] at delivered
    · have means := wKeyWrapped_unwrapped (s := s.ownerWrote r.cls) (by rw [pp]; exact device) unwrapped
      rw [pp] at means
      refine ⟨fun out => ⟨_, rfl, ?_⟩, fun low high old => ⟨_, rfl, ?_⟩, fun low high fresh => ⟨_, rfl, ?_⟩⟩
      · have range : (s.ownerWrote r.cls).wKeyWrapped b = (s.ownerWrote r.cls).answer stRange := means.trans (if_pos out)
        rw [range] at delivered
        exact delivered
      · have stale : (s.ownerWrote r.cls).wKeyWrapped b = (s.ownerWrote r.cls).answer stStale :=
          means.trans ((if_neg (by omega)).trans (if_pos old))
        rw [stale] at delivered
        exact delivered
      · rw [if_neg (by omega), if_neg (Nat.not_le.mpr fresh)] at means
        rw [means] at delivered
        exact delivered

end

section
/-! PROOFS. Plain writes of effect I (R34, R37), and credit, emergency credit, arming and host disconnect (R240, R242, R251). -/
namespace Sys2Proof.Machine

variable {s t u : State} {a : Nat}

@[simp] theorem State.wCredit_ports {s : State} {a1 : _} {a2 : _} : (s.wCredit a1 a2).ports = s.ports :=
  (State.wCredit_only (.refl 2158493696 s) rfl).ports rfl
@[simp] theorem State.wEcRequest_ports {s : State} {a1 : _} {a2 : _} : (s.wEcRequest a1 a2).ports = s.ports :=
  (State.wEcRequest_only (.refl 2158493696 s) rfl).ports rfl
@[simp] theorem State.wArm_ports {s : State} {a1 : _} {a2 : _} : (s.wArm a1 a2).ports = s.ports :=
  (State.wArm_only (.refl 2148007936 s) rfl).ports rfl
@[simp] theorem State.queueOpen_ans {s : State} {a1 : _} : (s.queueOpen a1).ans = s.ans :=
  (State.queueOpen_only (.refl 524288 s) rfl).ans rfl
@[simp] theorem State.queueOpen_dict {s : State} {a1 : _} : (s.queueOpen a1).dict = s.dict :=
  (State.queueOpen_only (.refl 524288 s) rfl).dict rfl
@[simp] theorem State.queueOpen_ports {s : State} {a1 : _} : (s.queueOpen a1).ports = s.ports :=
  (State.queueOpen_only (.refl 524288 s) rfl).ports rfl
@[simp] theorem State.sourceCleared_ans {s : State} {a1 : _} : (s.sourceCleared a1).ans = s.ans :=
  (State.sourceCleared_only (.refl 524288 s) rfl).ans rfl
@[simp] theorem State.sourceCleared_dict {s : State} {a1 : _} : (s.sourceCleared a1).dict = s.dict :=
  (State.sourceCleared_only (.refl 524288 s) rfl).dict rfl
@[simp] theorem State.sourceCleared_ports {s : State} {a1 : _} : (s.sourceCleared a1).ports = s.ports :=
  (State.sourceCleared_only (.refl 524288 s) rfl).ports rfl

/-! ### Plain writes -/

/-- The rows of the card that hold a subindex of some indices agree on what is asked of them. -/
theorem card_of_rows {P : Card → Bool} {lo hi i j : Nat} {c : Card} (rows : cards.all (fun c =>
      !(decide (c.idx < hi) && decide (lo < c.idx + c.n) && decide (c.sub0 ≤ j) && decide (j ≤ c.sub1)) || P c) = true)
    (h : cardOf i j = some c) (low : lo ≤ i) (high : i < hi) : P c = true := by
  unfold cardOf at h
  have holds := List.find?_some (p := fun d : Card => d.holds i j) h
  have row := List.all_eq_true.mp rows c (List.mem_of_find?_eq_some h)
  simp only [Card.holds, Bool.and_eq_true, decide_eq_true_eq] at holds
  obtain ⟨⟨⟨first, last⟩, sub0⟩, sub1⟩ := holds
  have here : (decide (c.idx < hi) && decide (lo < c.idx + c.n) && decide (c.sub0 ≤ j) && decide (j ≤ c.sub1)) = true := by
    simp only [Bool.and_eq_true, decide_eq_true_eq]
    omega
  rw [here] at row
  exact row

/-- The objects whose change does more than change the active value. -/
def actsOn (key : Nat) : Bool :=
  within (key / 256) 0x3000 256 || within (key / 256) 0x3100 256 || within (key / 256) 0x4000 240 ||
    (within (key / 256) 0x4100 240 && decide (key % 256 = 1)) || within key (oVgEnable 0) 4 ||
    (decide (key / 256 = 0x4400) && decide (1 ≤ key % 256)) || within key 0x500000 0x2000

/-- A change of another object changes its active value alone. -/
theorem activated_plain {pos : Option Nat} {next : Option W32} {key old new : Nat} (h : actsOn key = false) :
    s.activated pos next key old new = s := by
  simp only [actsOn, Bool.or_eq_false_iff, Bool.and_eq_false_imp, decide_eq_true_eq, decide_eq_false_iff_not] at h
  obtain ⟨⟨⟨⟨⟨⟨chan, cal⟩, acct⟩, prepay⟩, group⟩, balance⟩, entry⟩ := h
  unfold State.activated
  dsimp only
  rw [if_neg (by simp [chan]), if_neg (by simp [cal]), if_neg (by simp [acct]), if_neg fun both => prepay both.1 both.2,
    if_neg (by simp [group]), if_neg fun both => balance both.1 both.2, if_neg (by simp [entry])]

/-- The state in which a plain value is active: its record is programmed, and the home queues follow. -/
structure Activated (s : State) (key v : Nat) (t : State) : Prop where
  active : t.dict.active = s.dict.active.set key (if v = dfltOf key then none else some v)
  homes  : ∃ h, t.eng = { s.eng with home := h }
  only   : Only 2098177 s t

theorem rehome_eng (o : State) : ∃ h, (s.rehome o).eng = { s.eng with home := h } := by
  unfold State.rehome
  split
  · exact ⟨_, rfl⟩
  · exact ⟨_, rfl⟩

/-- A plain change is active, and touches the dictionary, its record and the home queues alone. -/
theorem activateNow_plain {key v : Nat} (quiet : actsOn key = false) (fresh : s.cfg key ≠ v) :
    Activated s key v (s.activateNow key v) := by
  have act : s.activate none none key v = s.setCfg key v := by
    unfold State.activate
    dsimp only
    rw [if_neg fresh, activated_plain quiet]
  unfold State.activateNow
  rw [act]
  refine ⟨?_, rehome_eng (s := s.setCfg key v) s, State.rehome_only (State.setCfg_only (.refl 2098177 s) rfl) rfl⟩
  have dict : ((s.setCfg key v).rehome s).dict = (s.setCfg key v).dict := (State.rehome_only (.refl 1024 _) rfl).dict rfl
  rw [dict]
  rfl

theorem persist_only {c : Card} {key v : Nat} {p : State} (h : s.persist c key v = some p) : Only 2097153 s p := by
  unfold State.persist at h
  split at h
  · exact State.storePut_only (.refl 2097153 s) rfl h
  · exact State.storePut_only (.refl 2097153 s) rfl h
  · obtain rfl := Option.some.inj h
    exact only_set_dict (.refl 2097153 s) rfl

/-- An allowed new value of effect I or S whose record is taken becomes active, and is answered OK (R34, R37). -/
theorem writePlain_takes {q : Cls} {c : Card} {key v : Nat} {p : State} (eff : c.eff = .i ∨ c.eff = .s)
    (crossed : s.crossed q key v = true) (stored : s.persist c key v = some p) (quiet : actsOn key = false)
    (fresh : s.cfg key ≠ v) : ∃ w, Activated s key v w ∧ s.writePlain q c key v = w.answer stOk := by
  have active := persist_active stored
  have taken := activateNow_plain (s := p) quiet (by rwa [cfg_congr active])
  have before := persist_only stored
  refine ⟨p.activateNow key v, ⟨by rw [taken.active, active], ?_, (before.mono rfl).trans taken.only⟩, ?_⟩
  · obtain ⟨h, homes⟩ := taken.homes
    exact ⟨h, by rw [homes, before.eng rfl]⟩
  have unheld : ¬ (s.holds q = true ∧ (c.eff = .y ∨ c.eff = .f ∨ c.eff = .b)) := by
    rcases eff with eff | eff <;> simp [eff]
  have now : s.writeNow c key v = (p.activateNow key v).answer stOk := by
    unfold State.writeNow
    rw [if_neg fun same => fresh same.1.symm, stored]
  unfold State.writePlain
  dsimp only
  rw [if_neg unheld, if_neg (by simp [crossed])]
  rcases eff with eff | eff <;> rw [eff] <;> exact now

theorem Activated.cfg_same {key v : Nat} (wf : KMap.wf s.dict.active = true) (h : Activated s key v t) : t.cfg key = v := by
  unfold State.cfg
  rw [h.active, KMap.get_set wf, if_pos rfl]
  split
  · exact Eq.symm ‹_›
  · rfl

theorem Activated.cfg_other {key v k : Nat} (h : Activated s key v t) (hk : k ≠ key) : t.cfg k = s.cfg k := by
  unfold State.cfg
  rw [h.active, get_set_other hk]

/-- A plain write that changed the active value goes on to what more it does. -/
theorem writeNew_takes {q : Cls} {c : Card} {key v : Nat} {f : State → State} {w : State}
    (h : s.writePlain q c key v = w.answer stOk) (fresh : s.cfg key ≠ v) : s.writeNew q c key v f = f (w.answer stOk) := by
  unfold State.writeNew
  dsimp only
  rw [h]
  exact if_pos ⟨rfl, fresh⟩

/-! ### The note of the session's owner -/

section
variable (s : State) (k v x : Nat)

/-- The state in which the session's owner has written at an instant (R262). -/
def State.noted (s : State) (x : Nat) : State := s.setCal (fun c => { c with lastWrite := x })

theorem noted_allStreams : (s.noted x).allStreams = s.allStreams := by
  have groups : (s.noted x).groupStreams = s.groupStreams := rfl
  unfold State.allStreams
  rw [groups]
  rfl

theorem noted_mac5 (a b c) : (s.noted x).mac5 a b c = s.mac5 a b c := by unfold State.mac5; rfl

theorem noted_p0Nominal : (s.noted x).p0Nominal = s.p0Nominal := by
  unfold State.p0Nominal
  simp only [noted_allStreams, noted_mac5]

theorem noted_p0Ok : (s.noted x).p0Ok = s.p0Ok := by
  unfold State.p0Ok
  rw [noted_p0Nominal]

theorem noted_enginesOk : (s.noted x).enginesOk = s.enginesOk := by
  unfold State.enginesOk
  rw [noted_p0Nominal]
  rfl

theorem setCfgs_noted (l : List Nat) (w : State) :
    l.foldl (fun v k => v.setCfg k 1) (w.noted x) = (l.foldl (fun v k => v.setCfg k 1) w).noted x := by
  induction l generalizing w with
  | nil => rfl
  | cons k l ih => exact ih (w.setCfg k 1)

theorem noted_orView (w : State) : (s.noted x).orView (w.noted x) = (s.orView w).noted x := by
  unfold State.orView
  exact setCfgs_noted ..

theorem noted_wiringAll : (s.noted x).wiringAll = s.wiringAll := rfl
theorem noted_mapOk : (s.noted x).mapOk = s.mapOk := rfl
theorem noted_captOk : (s.noted x).captOk = s.captOk := rfl
theorem noted_threshOk : (s.noted x).threshOk = s.threshOk := rfl
theorem noted_wordOk : (s.noted x).wordOk = s.wordOk := rfl
theorem noted_inBalance : (s.noted x).inBalance = s.inBalance := rfl
theorem noted_relayOk : (s.noted x).relayOk = s.relayOk := rfl
theorem noted_balanceOk : (s.noted x).balanceOk = s.balanceOk := rfl
theorem noted_flickOk : (s.noted x).flickOk = s.flickOk := rfl
theorem noted_spectraOk : (s.noted x).spectraOk = s.spectraOk := rfl
theorem noted_entriesOk : (s.noted x).entriesOk = s.entriesOk := rfl
theorem noted_demandOk : (s.noted x).demandOk = s.demandOk := rfl
theorem noted_edgesOk : (s.noted x).edgesOk = s.edgesOk := rfl
theorem noted_hkRunOk : (s.noted x).hkRunOk = s.hkRunOk := rfl
theorem noted_enabledAccts : (s.noted x).enabledAccts = s.enabledAccts := rfl
theorem noted_acctChans : (s.noted x).acctChans = s.acctChans := rfl
theorem noted_accVg : (s.noted x).accVg = s.accVg := rfl
theorem noted_cfg : (s.noted x).cfg = s.cfg := rfl
theorem noted_cfgB : (s.noted x).cfgB = s.cfgB := rfl
theorem noted_bgOn : (s.noted x).bgOn = s.bgOn := rfl
theorem noted_supraOk : (s.noted x).supraOk = s.supraOk := rfl
theorem noted_mods : (s.noted x).mods = s.mods := rfl
theorem noted_acc : (s.noted x).acc = s.acc := rfl

theorem noted_crossOk (w : State): (s.noted x).crossOk (w.noted x) k v = s.crossOk w k v := by
  unfold State.crossOk
  rw [noted_orView]
  simp only [noted_p0Ok, noted_enginesOk, noted_wiringAll, noted_mapOk, noted_captOk, noted_threshOk, noted_wordOk,
    noted_inBalance, noted_relayOk, noted_balanceOk, noted_flickOk, noted_spectraOk, noted_entriesOk, noted_demandOk,
    noted_edgesOk, noted_hkRunOk, noted_enabledAccts, noted_acctChans, noted_accVg, noted_cfg, noted_cfgB, noted_bgOn,
    noted_supraOk, noted_mods, noted_acc]
  rfl

theorem noted_crossed (q) : (s.noted x).crossed q k v = s.crossed q k v := by
  have seen : ((s.noted x).view ((s.noted x).holds q)).setCfg k v = ((s.view (s.holds q)).setCfg k v).noted x := rfl
  unfold State.crossed
  rw [seen, noted_crossOk]

end

/-! ### Emergency credit -/

theorem setCredit_line {f : Credit → Credit} (wf : KMap.wf s.pp.credit = true) :
    (s.setCredit a f).pp.credit.get a = f (s.pp.credit.get a) := (KMap.get_upd wf a f a).trans (if_pos rfl)

theorem setCredit_wf {f : Credit → Credit} (wf : KMap.wf s.pp.credit = true) : KMap.wf (s.setCredit a f).pp.credit = true :=
  KMap.upd_wf wf a f


/-- A credit line without the flags of low credit and exhaustion. -/
def Credit.granted (l : Credit) : Credit := { l with lowRep := false, exhRep := false }

/-- The levels under the emergency credit of a request: it lasts until the credit is positive again (R239, R240). -/
theorem levels_granted (i : Nat) (wf : KMap.wf s.pp.credit = true) (mode : s.cfg (oPpMode a) = 1)
    (option : bits (s.cfg (oPpOptions a)) 5 4 = 2) :
    ((s.levels a i).pp.credit.get a).granted = ({ s.pp.credit.get a with
      ec := (s.pp.credit.get a).ec && !decide (0 < s.creditI a) } : Credit).granted := by
  have low : Levelled Credit.granted a s (s.levelLow a) := .levelLow fun _ _ => rfl
  have options : (s.levelLow a).cfg (oPpOptions a) = s.cfg (oPpOptions a) :=
    cfg_congr (congrArg Dict.active ((State.levelLow_only (.refl 11010048 s) rfl).dict rfl)) _
  have manual : (s.levelLow a).levelEc a = s.levelLow a := by
    refine if_neg fun automatic => ?_
    rw [options, option] at automatic
    exact absurd automatic.2.1 (by decide)
  have out : Levelled Credit.granted a (s.levelLow a) ((s.levelLow a).levelOut a i) := .levelOut fun _ _ => rfl
  have before := low.trans out
  have up : Levelled Credit.granted a ((s.levelLow a).levelOut a i) (((s.levelLow a).levelOut a i).recovered a) :=
    .recovered fun _ _ => rfl
  have all := before.trans up
  have sound : Sound Credit.granted a s := .inl wf
  have figure : (((s.levelLow a).levelOut a i).pp.credit.get a).credit = (s.pp.credit.get a).credit :=
    (congrArg Credit.credit (before.own sound).2 :)
  have credit : ((s.levelLow a).levelOut a i).creditI a = s.creditI a := congrArg BitVec.toInt figure
  obtain ⟨-, own⟩ := all.own sound
  unfold State.levels
  rw [if_pos mode, manual, levelUp_eq, credit]
  generalize ((s.levelLow a).levelOut a i).recovered a = v at own
  have ec : (v.pp.credit.get a).ec = (s.pp.credit.get a).ec := (congrArg Credit.ec own :)
  have line : (v.pp.credit.get a).credit = (s.pp.credit.get a).credit := (congrArg Credit.credit own :)
  rw [ec]
  by_cases positive : 0 < s.creditI a
  · by_cases lasted : (s.pp.credit.get a).ec = true
    · have more : ({ v.pp.credit.get a with ec := false } : Credit) ≠ default := by
        intro empty
        have zero : (v.pp.credit.get a).credit = 0 := (congrArg Credit.credit empty :)
        rw [line] at zero
        unfold State.creditI at positive
        rw [zero] at positive
        exact absurd positive (by decide)
      have read : (v.setCredit a (fun l => { l with ec := false })).pp.credit.get a = { v.pp.credit.get a with ec := false } :=
        (KMap.get_set_of_ne more a).trans (if_pos rfl)
      rw [if_pos ⟨positive, lasted⟩, read, decide_eq_true positive, lasted]
      exact congrArg (fun l : Credit => { l with ec := false }) own
    · have off : ((s.pp.credit.get a).ec && !decide (0 < s.creditI a)) = (s.pp.credit.get a).ec := by
        rw [Bool.eq_false_iff.mpr lasted]
        rfl
      rw [if_neg fun both => lasted both.2, own, off]
  · rw [if_neg fun both => positive both.1, own, decide_eq_false positive, Bool.not_false, Bool.and_true]

/-! ### The relay queues -/

@[simp] theorem queueOpen_credit (k : Nat) : (s.queueOpen k).pp.credit = s.pp.credit := by
  unfold State.queueOpen
  extract_lets u v
  split <;> rfl

@[simp] theorem queueClose_credit (k : Nat) : (s.queueClose k).pp.credit = s.pp.credit := by
  unfold State.queueClose
  extract_lets u
  split <;> rfl

@[simp] theorem sourceCleared_credit (k : Nat) : (s.sourceCleared k).pp.credit = s.pp.credit := by
  unfold State.sourceCleared
  split
  · rfl
  · split
    · rfl
    · exact queueClose_credit k

/-- Setting a source removes the account's queued close and queues its open (R242). -/
theorem queueOpen_queues (k : Nat) : k ∉ (s.queueOpen k).pp.relay.closeQ ∧
    (s.relaySlots k ≠ [] → k ∈ (s.queueOpen k).pp.relay.openQ) := by
  unfold State.queueOpen
  extract_lets u v
  have gone : k ∉ v.pp.relay.closeQ := by
    intro here
    have there : k ∈ s.pp.relay.closeQ.filter (· ≠ k) := here
    simp at there
  have slots : v.relaySlots k = s.relaySlots k := rfl
  split
  · rename_i done
    refine ⟨gone, fun some_ => ?_⟩
    rcases done with none_ | queued
    · exact absurd (slots ▸ none_) some_
    · exact List.contains_iff_mem.mp queued
  · exact ⟨gone, fun _ => List.mem_append_right _ List.mem_cons_self⟩

/-- Queuing a close ends the wait for arming and leaves the account in the queue. -/
theorem queueClose_queues {k : Nat} (h : s.relaySlots k ≠ []) : k ∈ (s.queueClose k).pp.relay.closeQ ∧
    (s.queueClose k).pp.acct = s.pp.acct.upd k (fun p => { p with waitArm := false }) := by
  unfold State.queueClose
  extract_lets u
  split
  · rename_i done
    rcases done with none_ | queued
    · exact absurd none_ h
    · exact ⟨List.contains_iff_mem.mp queued, rfl⟩
  · exact ⟨List.mem_append_right _ List.mem_cons_self, rfl⟩

theorem sourceCleared_openQ (k : Nat) : (s.sourceCleared k).pp.relay.openQ = s.pp.relay.openQ := by
  unfold State.sourceCleared State.queueClose
  extract_lets u
  split
  · rfl
  · split
    · rfl
    · split <;> rfl

theorem ownerWrote_ppState (q : Cls) : (s.ownerWrote q).ppState a = s.ppState a := by
  unfold State.ownerWrote
  split <;> rfl

theorem ownerWrote_crossed (q p : Cls) (k v : Nat) : (s.ownerWrote q).crossed p k v = s.crossed p k v := by
  unfold State.ownerWrote
  split
  · exact noted_crossed s k v s.clock.clk p
  · rfl

theorem ownerWrote_storePut {q : Cls} {cal : Bool} {k v n : Nat} :
    ((s.ownerWrote q).storePut cal k v n).isSome = (s.storePut cal k v n).isSome := by
  have nvm : (s.ownerWrote q).nvm = s.nvm := State.ownerWrote_nvm
  unfold State.storePut
  rw [nvm]
  dsimp only
  cases (if cal = true then s.nvm.cal else s.nvm.cfg).put cal s.nvm.bad k v n <;> rfl

/-- PP_HOST_DISCONNECT takes effect at once and is kept in the configuration store, in one byte. -/
theorem hostDisconnect_rows : cards.all (fun c => !(decide (c.idx < 0x41F0) && decide (0x4100 < c.idx + c.n) &&
    decide (c.sub0 ≤ 0x0B) && decide (0x0B ≤ c.sub1)) || (c.eff == .i && c.pers == .c && c.size == 1)) = true := by
  decide +kernel

end Sys2Proof.Machine

open Sys2Proof Sys2Proof.Machine

/-- Settles O19: through what a write of the line, the levels after it and the relay queues leave. -/
theorem prepaymentRequests : Obligations.PrepaymentRequests := by
  unfold Obligations.PrepaymentRequests
  refine ⟨?_, ?_, ?_, ?_⟩
  · intro s r a b allowed wf
    have delivered := writeReq_delivers (F := fun s v => s.wCredit a.val v) allowed fun _ _ => State.wCredit_ports
    have frame := delivered.requestOnly (State.wCredit_only (.refl 2176319488 _) rfl) rfl rfl
    have pp : (s.ownerWrote r.cls).pp = s.pp := State.ownerWrote_pp
    have wf' : KMap.wf (s.ownerWrote r.cls).pp.credit = true := by rw [pp]; exact wf
    have kept := levels_figures (a := a.val)
      (s := (s.ownerWrote r.cls).setCredit a.val (fun l => { l with credit := BitVec.ofNat 64 (ofLe b) }))
      ((s.ownerWrote r.cls).setCredit a.val (fun l => { l with credit := BitVec.ofNat 64 (ofLe b) })).now
    have line : ((s.ownerWrote r.cls).setCredit a.val (fun l => { l with credit := BitVec.ofNat 64 (ofLe b) })).pp.credit.get
        a.val = { s.pp.credit.get a.val with credit := BitVec.ofNat 64 (ofLe b) } := by
      rw [setCredit_line wf', pp]
    have own := (kept.own (.inl (setCredit_wf wf'))).2
    rw [line] at own
    have same := delivered.only.pp rfl
    refine ⟨_, rfl, delivered.ans, ?_, ?_, fun x hx => ?_, frame.changesOnly rfl⟩
    · rw [same]
      exact (congrArg Credit.credit own :)
    · rw [same]
      exact (congrArg Credit.xfer own :)
    · rw [same]
      refine (kept.other x hx).trans ((get_set_other hx).trans ?_)
      rw [pp]
  · intro s r a b allowed
    have delivered := writeReq_delivers (F := fun s v => s.wEcRequest a.val v) allowed fun _ _ => State.wEcRequest_ports
    have frame := delivered.requestOnly (State.wEcRequest_only (.refl 2176319488 _) rfl) rfl rfl
    have pp : (s.ownerWrote r.cls).pp = s.pp := State.ownerWrote_pp
    have credit : (s.ownerWrote r.cls).creditI a.val = s.creditI a.val := by
      unfold State.creditI
      rw [pp]
    have cfgI : ∀ n k, (s.ownerWrote r.cls).cfgI n k = s.cfgI n k := fun n k => congrArg (sgn n) (ownerWrote_cfg _ _)
    have means : ∀ v, (s.ownerWrote r.cls).wEcRequest a.val v = if v = 0 then (s.ownerWrote r.cls).answer stOk
        else if bits (s.cfg (oPpOptions a.val)) 5 4 = 2 ∧ s.creditI a.val < s.cfgI 8 (oPpLowLevel a.val) ∧
          (s.pp.credit.get a.val).ec = false ∧ 0 < s.cfgI 8 (oPpEcLimit a.val) then
          (((s.ownerWrote r.cls).setCredit a.val (fun l => { l with ec := true })).levels a.val
            ((s.ownerWrote r.cls).setCredit a.val (fun l => { l with ec := true })).now).answer stOk
        else (s.ownerWrote r.cls).answer stRange := by
      intro v
      unfold State.wEcRequest
      rw [ownerWrote_cfg, credit, cfgI, cfgI, pp]
    refine ⟨_, rfl, fun zero => ?_, fun one unfit => ?_, fun one option low unused limit wf mode => ?_⟩
    · have plain : (s.ownerWrote r.cls).wEcRequest a.val (ofLe b) = (s.ownerWrote r.cls).answer stOk :=
        (means _).trans (if_pos zero)
      rw [plain] at delivered
      exact delivered
    · have range : (s.ownerWrote r.cls).wEcRequest a.val (ofLe b) = (s.ownerWrote r.cls).answer stRange := by
        refine (means _).trans ((if_neg one).trans (if_neg ?_))
        rintro ⟨option, low, unused, limit⟩
        rcases unfit with h | h | h | h
        · exact h option
        · exact absurd low (Int.not_lt.mpr h)
        · rw [unused] at h
          cases h
        · exact absurd limit (Int.not_lt.mpr h)
      rw [range] at delivered
      exact delivered
    · rw [(means _).trans ((if_neg one).trans (if_pos ⟨option, low, unused, limit⟩))] at delivered
      have wf' : KMap.wf (s.ownerWrote r.cls).pp.credit = true := by rw [pp]; exact wf
      have line : ((s.ownerWrote r.cls).setCredit a.val (fun l => { l with ec := true })).pp.credit.get a.val =
          { s.pp.credit.get a.val with ec := true } := by
        rw [setCredit_line wf', pp]
      have dict : ((s.ownerWrote r.cls).setCredit a.val (fun l => { l with ec := true })).cfg = s.cfg :=
        funext fun k => ownerWrote_cfg (s := s) r.cls k
      have own := levels_granted (s := (s.ownerWrote r.cls).setCredit a.val (fun l => { l with ec := true })) (a := a.val)
        ((s.ownerWrote r.cls).setCredit a.val (fun l => { l with ec := true })).now (setCredit_wf wf')
        (by rw [dict]; exact mode) (by rw [dict]; exact option)
      have amount : ((s.ownerWrote r.cls).setCredit a.val (fun l => { l with ec := true })).creditI a.val = s.creditI a.val := by
        unfold State.creditI
        rw [line]
      rw [line, amount] at own
      have same := delivered.only.pp rfl
      refine ⟨delivered.ans, ?_, ?_, frame.changesOnly rfl⟩
      · rw [same]
        have ends : (true && !decide (0 < s.creditI a.val)) = decide (s.creditI a.val ≤ 0) := by
          rw [Bool.true_and, ← decide_not, decide_eq_decide, Int.not_lt]
        exact (congrArg Credit.ec own :).trans ends
      · rw [same]
        exact (congrArg Credit.credit own :)
  · intro s r a b allowed
    have delivered := writeReq_delivers (F := fun s v => s.wArm a.val v) allowed fun _ _ => State.wArm_ports
    have frame := delivered.requestOnly (State.wArm_only (.refl 2174222336 _) rfl) rfl rfl
    have pp : (s.ownerWrote r.cls).pp = s.pp := State.ownerWrote_pp
    have means : ∀ v, (s.ownerWrote r.cls).wArm a.val v = if v = 0 then (s.ownerWrote r.cls).answer stOk
        else if s.ppState a.val = 5 then ((s.ownerWrote r.cls).queueClose a.val).answer stOk
        else (s.ownerWrote r.cls).answer stRange := by
      intro v
      unfold State.wArm
      rw [ownerWrote_ppState]
    refine ⟨_, rfl, fun zero => ?_, fun one other => ?_, fun one waits slots => ?_⟩
    · have plain : (s.ownerWrote r.cls).wArm a.val (ofLe b) = (s.ownerWrote r.cls).answer stOk :=
        (means _).trans (if_pos zero)
      rw [plain] at delivered
      exact delivered
    · have range : (s.ownerWrote r.cls).wArm a.val (ofLe b) = (s.ownerWrote r.cls).answer stRange :=
        (means _).trans ((if_neg one).trans (if_neg other))
      rw [range] at delivered
      exact delivered
    · rw [(means _).trans ((if_neg one).trans (if_pos waits))] at delivered
      have slots' : (s.ownerWrote r.cls).relaySlots a.val ≠ [] := by
        unfold State.relaySlots at slots ⊢
        rwa [ownerWrote_cfg]
      obtain ⟨queued, acct⟩ := queueClose_queues slots'
      have same := delivered.only.pp rfl
      refine ⟨?_, delivered.ans, ?_, ?_, frame.changesOnly rfl⟩
      · rw [same]
        exact queued
      · rw [same, ← pp]
        exact acct
      · rw [same, ← pp]
        exact queueClose_credit a.val
  · intro s r a b allowed crossed stored fresh wf
    have fresh' : (s.ownerWrote r.cls).cfg (oPpHostDisconnect a.val) ≠ ofLe b := by rwa [ownerWrote_cfg]
    have quiet : actsOn (oPpHostDisconnect a.val) = false := by
      have small := a.isLt
      simp only [actsOn, within, oPpHostDisconnect, oVgEnable, Bool.or_eq_false_iff, Bool.and_eq_false_iff,
        decide_eq_false_iff_not]
      omega
    have meaning : ∀ c, cardOf (0x4100 + a.val) 0x0B = some c → ∃ w, Activated (s.ownerWrote r.cls)
        (oPpHostDisconnect a.val) (ofLe b) w ∧ (s.ownerWrote r.cls).wHostDisconnect r.cls c a.val (ofLe b) =
          if ofLe b = 1 then (w.answer stOk).queueOpen a.val else (w.answer stOk).sourceCleared a.val := by
      intro c card
      have row := card_of_rows hostDisconnect_rows card (by omega) (by omega)
      simp only [Bool.and_eq_true, beq_iff_eq] at row
      obtain ⟨⟨eff, pers⟩, size⟩ := row
      obtain ⟨p, put⟩ := Option.isSome_iff_exists.mp ((ownerWrote_storePut (q := r.cls)).trans stored)
      have persisted : (s.ownerWrote r.cls).persist c (oPpHostDisconnect a.val) (ofLe b) = some p := by
        unfold State.persist
        rw [pers, size]
        exact put
      obtain ⟨w, taken, plain⟩ := writePlain_takes (q := r.cls) (.inl eff) ((ownerWrote_crossed _ _ _ _).trans crossed)
        persisted quiet fresh'
      exact ⟨w, taken, writeNew_takes plain fresh'⟩
    obtain ⟨c, card, delivered⟩ := writeReq_delivered (f := fun s c v => s.wHostDisconnect r.cls c a.val v) allowed
      (fun c card => by
        obtain ⟨w, taken, means⟩ := meaning c card
        rw [means, apply_ite State.ports, State.queueOpen_ports, State.sourceCleared_ports, ite_self, State.answer_ports,
          taken.only.ports rfl, ownerWrote_ports, fWait_of_allows allowed])
    obtain ⟨w, taken, means⟩ := meaning c card
    rw [means] at delivered
    have pp : w.pp = s.pp := (taken.only.pp rfl).trans State.ownerWrote_pp
    have same := delivered.only.pp rfl
    have slots : (w.answer stOk).relaySlots a.val = s.relaySlots a.val := by
      unfold State.relaySlots
      rw [show (w.answer stOk).cfg (oPpRelay a.val) = w.cfg (oPpRelay a.val) from rfl, taken.cfg_other (by unfold oPpRelay oPpHostDisconnect; omega), ownerWrote_cfg]
    refine ⟨_, rfl, ?_, ?_, ?_, fun one => ?_, fun zero => ?_⟩
    · rw [delivered.ans, apply_ite State.ans, State.queueOpen_ans, State.sourceCleared_ans, ite_self]
      rfl
    · have active := congrArg Dict.active (delivered.only.dict rfl)
      rw [apply_ite State.dict, State.queueOpen_dict, State.sourceCleared_dict, ite_self] at active
      rw [cfg_congr active]
      have wf' : KMap.wf (s.ownerWrote r.cls).dict.active = true := by rwa [State.ownerWrote_dict]
      have own := taken.cfg_same wf'
      exact own
    · rw [same, apply_ite State.pp, apply_ite Pp.credit, queueOpen_credit, sourceCleared_credit, ite_self, ← pp]
      rfl
    · rw [same, if_pos one]
      obtain ⟨gone, queued⟩ := queueOpen_queues (s := w.answer stOk) a.val
      exact ⟨gone, fun some_ => queued (by rwa [slots])⟩
    · rw [same, if_neg (by omega), sourceCleared_openQ, ← pp]
      rfl

end

section
/-! PROOFS. The frames of a relay operation and of a scan (R245-R247). -/
namespace Sys2Proof.Machine

variable {s t u : State}

@[simp] theorem State.raise_dict {s : State} {a1 : _} {a2 : _} : (s.raise a1 a2).dict = s.dict :=
  (State.raise_only (.refl 8388608 s) rfl).dict rfl
@[simp] theorem State.sourceCleared_nvm {s : State} {a1 : _} : (s.sourceCleared a1).nvm = s.nvm :=
  (State.sourceCleared_only (.refl 524288 s) rfl).nvm rfl
@[simp] theorem State.wRelayFault_ports {s : State} {a1 : _} : (s.wRelayFault a1).ports = s.ports :=
  (State.wRelayFault_only (.refl 2148007936 s) rfl).ports rfl
@[simp] theorem State.latchAcct_dict {s : State} {a1 : _} {a2 : _} : (s.latchAcct a1 a2).dict = s.dict :=
  (State.latchAcct_only (.refl 8912896 s) rfl).dict rfl
@[simp] theorem State.slotCompare_dict {s : State} {a1 : _} {a2 : _} : (s.slotCompare a1 a2).dict = s.dict :=
  (State.slotCompare_only (.refl 8912896 s) rfl).dict rfl
@[simp] theorem State.slotCompare_pwr {s : State} {a1 : _} {a2 : _} : (s.slotCompare a1 a2).pwr = s.pwr :=
  (State.slotCompare_only (.refl 8912896 s) rfl).pwr rfl
@[simp] theorem State.sourceCleared_pwr {s : State} {a1 : _} : (s.sourceCleared a1).pwr = s.pwr :=
  (State.sourceCleared_only (.refl 524288 s) rfl).pwr rfl
@[simp] theorem State.ev44_pp {s : State} {a1 : _} {a2 : _} : (s.ev44 a1 a2).pp = s.pp :=
  (State.ev44_only (.refl 8388608 s) rfl).pp rfl
@[simp] theorem State.ev44_dict {s : State} {a1 : _} {a2 : _} : (s.ev44 a1 a2).dict = s.dict :=
  (State.ev44_only (.refl 8388608 s) rfl).dict rfl
@[simp] theorem State.ev44_pwr {s : State} {a1 : _} {a2 : _} : (s.ev44 a1 a2).pwr = s.pwr :=
  (State.ev44_only (.refl 8388608 s) rfl).pwr rfl

/-! ### Loops -/

/-- What one round of a loop brings about, the loop brings about, when the other rounds keep it. -/
theorem foldl_reaches {α : Type} {I P : State → Prop} {f : State → α → State} {i : α} {l : List α} (listed : i ∈ l)
    (inv : ∀ u x, I u → I (f u x)) (reach : ∀ u, I u → P (f u i)) (keep : ∀ u x, I u → P u → P (f u x)) (start : I s) :
    P (l.foldl f s) := by
  have kept : ∀ (l : List α) (u : State), I u → P u → P (l.foldl f u) := by
    intro l
    induction l with
    | nil => exact fun _ _ => id
    | cons x l ih => exact fun u hi hp => ih _ (inv u x hi) (keep u x hi hp)
  induction l generalizing s with
  | nil => cases listed
  | cons x l ih =>
    rcases List.mem_cons.mp listed with rfl | later
    · exact kept l _ (inv s i start) (reach s start)
    · exact ih later (inv s x start)

/-- What every round of a loop keeps. -/
theorem foldl_keeps {α : Type} {P : State → Prop} {f : State → α → State} (keep : ∀ u x, P u → P (f u x)) (l : List α)
    (start : P s) : P (l.foldl f s) := by
  induction l generalizing s with
  | nil => exact start
  | cons x l ih => exact ih (keep s x start)

/-! ### Contacts -/

theorem get_map_true (l : List Nat) (i : Nat) : KMap.get (l.map (fun i => (i, true))) i = decide (i ∈ l) := by
  induction l with
  | nil => rfl
  | cons x l ih =>
    show (if x = i then true else KMap.get (l.map (fun i => (i, true))) i) = _
    by_cases here : x = i
    · simp [here]
    · simp [here, ih, Ne.symm here]

/-- A contact as a frame reads it. -/
theorem get_contacts (b : Bytes) (i : Nat) : KMap.get ((s.chain.filter (imageBit b)).map (fun i => (i, true))) i =
    (decide (i < s.cfg oRlyChainLength) && imageBit b i) := by
  rw [get_map_true]
  unfold State.chain
  rw [Bool.eq_iff_iff]
  simp

/-- What a frame reads, and what the relays are commanded. -/
def Relay.contacts (r : Relay) : KMap Bool × KMap Bool × KMap Bool := (r.present, r.closed, r.commanded)

@[simp] theorem ev44_relay (slot cause : Nat) : (s.ev44 slot cause).pp = s.pp := State.ev44_pp

theorem ev44_pending (slot cause : Nat) : (s.ev44 slot cause).evt.pending.get 44 = true := (raise_raised s 44 _).pending

/-! ### The scan -/

/-- One slot that differs twice is told of and restored. -/
def State.restoreSlot (s : State) (i : Nat) : State :=
  (s.ev44 i 1).setRelay (fun r => { r with restoreQ := r.restoreQ ++ [(i, r.commanded.get i)] })

/-- One slot that is absent twice is told of and taken out. -/
def State.absentSlot (s : State) (i : Nat) : State := (s.ev44 i 2).slotFault i

/-- The state in which a scan has read the contacts. -/
def State.scanned (s : State) (p c : Bytes) : State := (s.contacts p c).setRelay (fun r => { r with scans := sat 2 (r.scans + 1) })

/-- Present slots of the chain whose contact is not as commanded, and slots of accounts that are absent. -/
def State.scanBad (s : State) (p c : Bytes) : List Nat := (s.scanned p c).chain.filter (fun i =>
  (s.contacts p c).pp.relay.present.get i &&
    decide ((s.contacts p c).pp.relay.closed.get i ≠ (s.contacts p c).pp.relay.commanded.get i) && !(s.scanned p c).slotBusy i)
def State.scanGone (s : State) (p c : Bytes) : List Nat := (s.scanned p c).chain.filter (fun i =>
  !(s.contacts p c).pp.relay.present.get i && ((s.scanned p c).slotAcct i).isSome)

/-- The state after the slots that differ have been restored. -/
def State.scanRestored (s : State) (p c : Bytes) : State :=
  ((s.scanBad p c).filter (s.contacts p c).pp.relay.diff.contains).foldl State.restoreSlot (s.scanned p c)

/-- The state after the absent slots have been taken out. -/
def State.scanDone (s : State) (p c : Bytes) : State :=
  (((s.scanGone p c).filter (fun i => (s.contacts p c).pp.relay.absent.contains i && !(s.contacts p c).pp.relay.fault.get i)).foldl
    State.absentSlot (s.scanRestored p c)).setRelay (fun r => { r with diff := s.scanBad p c, absent := s.scanGone p c })

theorem execRelayScanFrame_scans {p c : Bytes} (live : s.relayLive = true) (idle : s.pp.relay.phase = .idle) :
    execRelayScanFrame p c s = .next (s.scanDone p c) := by
  have goes : ¬ ((!s.relayLive) = true ∨ s.pp.relay.phase ≠ .idle) := by simp [live, idle]
  exact congrArg Host.Outcome.next (if_neg goes)

theorem restoreSlot_contacts (i : Nat) : (s.restoreSlot i).pp.relay.contacts = s.pp.relay.contacts ∧
    (s.restoreSlot i).pp.relay.scans = s.pp.relay.scans := by
  have kept : (s.restoreSlot i).pp.relay = { (s.ev44 i 1).pp.relay with
    restoreQ := (s.ev44 i 1).pp.relay.restoreQ ++ [(i, (s.ev44 i 1).pp.relay.commanded.get i)] } := rfl
  rw [kept, ev44_relay]
  exact ⟨rfl, rfl⟩

theorem absentSlot_relay (i : Nat) : (s.absentSlot i).pp.relay = { s.pp.relay with fault := s.pp.relay.fault.set i true } := by
  have kept : (s.absentSlot i).pp.relay = { (s.ev44 i 2).pp.relay with fault := (s.ev44 i 2).pp.relay.fault.set i true } := rfl
  rw [kept, ev44_relay]

/-- The contacts that a scan leaves are those of its frame. -/
theorem scanDone_contacts (p c : Bytes) : (s.scanDone p c).pp.relay.contacts = (s.contacts p c).pp.relay.contacts ∧
    (s.scanDone p c).pp.relay.scans = sat 2 (s.pp.relay.scans + 1) := by
  have restored : (s.scanRestored p c).pp.relay.contacts = (s.contacts p c).pp.relay.contacts ∧
      (s.scanRestored p c).pp.relay.scans = sat 2 (s.pp.relay.scans + 1) :=
    ⟨foldl_field (fun u => u.pp.relay.contacts) (fun u i => (restoreSlot_contacts i).1) _ _,
      foldl_field (fun u => u.pp.relay.scans) (fun u i => (restoreSlot_contacts i).2) _ _⟩
  refine ⟨(foldl_field (fun u => u.pp.relay.contacts) (fun u i => ?_) _ _).trans restored.1,
    (foldl_field (fun u => u.pp.relay.scans) (fun u i => ?_) _ _).trans restored.2⟩
  · rw [absentSlot_relay]
    rfl
  · rw [absentSlot_relay]

theorem get_set_true {m : KMap Bool} {i j : Nat} (h : m.get i = true) : (m.set j true).get i = true := by
  rw [KMap.get_set_of_ne (by decide), h, ite_self]

/-- A slot of an account absent in two scans in a row goes to RLY_FAULT with EV44 (R246). -/
theorem scanDone_faults {p c : Bytes} {i : Nat} (inChain : i < s.cfg oRlyChainLength) (absent : imageBit p i = false)
    (acct : (s.slotAcct i).isSome = true) (before : s.pp.relay.absent.contains i = true)
    (sound : s.pp.relay.fault.get i = false) :
    (s.scanDone p c).pp.relay.fault.get i = true ∧ (s.scanDone p c).evt.pending.get 44 = true := by
  have present : (s.contacts p c).pp.relay.present.get i = false := by
    refine (get_contacts p i).trans ?_
    rw [absent, Bool.and_false]
  have gone : i ∈ s.scanGone p c := by
    refine List.mem_filter.mpr ⟨List.mem_range.mpr inChain, ?_⟩
    rw [present, show ((s.scanned p c).slotAcct i).isSome = true from acct]
    rfl
  have listed : i ∈ (s.scanGone p c).filter (fun i =>
      (s.contacts p c).pp.relay.absent.contains i && !(s.contacts p c).pp.relay.fault.get i) := by
    refine List.mem_filter.mpr ⟨gone, ?_⟩
    rw [show (s.contacts p c).pp.relay.absent.contains i = true from before,
      show (s.contacts p c).pp.relay.fault.get i = false from sound]
    rfl
  refine foldl_reaches (I := fun _ => True) (P := fun u => u.pp.relay.fault.get i = true ∧ u.evt.pending.get 44 = true) listed
    (fun _ _ => id) (fun u _ => ?_) (fun u x _ h => ?_) trivial
  · rw [absentSlot_relay]
    exact ⟨(KMap.get_set_of_ne (by decide) i).trans (if_pos rfl), ev44_pending i 2⟩
  · rw [absentSlot_relay]
    exact ⟨get_set_true h.1, ev44_pending x 2⟩

/-- A present slot that differs twice from its command is restored (R246). -/
theorem scanDone_restores {p c : Bytes} {i : Nat} (inChain : i < s.cfg oRlyChainLength) (present : imageBit p i = true)
    (differs : imageBit c i ≠ s.pp.relay.commanded.get i) (free : s.slotBusy i = false)
    (before : s.pp.relay.diff.contains i = true) : (i, s.pp.relay.commanded.get i) ∈ (s.scanDone p c).pp.relay.restoreQ := by
  have here : (s.contacts p c).pp.relay.present.get i = true := by
    refine (get_contacts p i).trans ?_
    rw [present, decide_eq_true inChain]
    rfl
  have closed : (s.contacts p c).pp.relay.closed.get i = imageBit c i := by
    refine (get_contacts c i).trans ?_
    rw [decide_eq_true inChain, Bool.true_and]
  have bad : i ∈ s.scanBad p c := by
    refine List.mem_filter.mpr ⟨List.mem_range.mpr inChain, ?_⟩
    have differs' : imageBit c i ≠ (s.contacts p c).pp.relay.commanded.get i := differs
    rw [here, closed, decide_eq_true differs', show (s.scanned p c).slotBusy i = false from free]
    rfl
  have listed : i ∈ (s.scanBad p c).filter (s.contacts p c).pp.relay.diff.contains := List.mem_filter.mpr ⟨bad, before⟩
  have restored : (i, s.pp.relay.commanded.get i) ∈ (s.scanRestored p c).pp.relay.restoreQ := by
    refine foldl_reaches (I := fun u => u.pp.relay.commanded = s.pp.relay.commanded)
      (P := fun u => (i, s.pp.relay.commanded.get i) ∈ u.pp.relay.restoreQ) listed (fun u x h => ?_) (fun u h => ?_)
      (fun u x _ h => ?_) rfl
    · exact (congrArg (·.2.2) (restoreSlot_contacts x).1).trans h
    · have queue : (u.restoreSlot i).pp.relay.restoreQ = u.pp.relay.restoreQ ++ [(i, u.pp.relay.commanded.get i)] := by
        show (u.ev44 i 1).pp.relay.restoreQ ++ [(i, (u.ev44 i 1).pp.relay.commanded.get i)] = _
        rw [ev44_relay]
      rw [queue, h]
      exact List.mem_append_right _ List.mem_cons_self
    · have queue : (u.restoreSlot x).pp.relay.restoreQ = u.pp.relay.restoreQ ++ [(x, u.pp.relay.commanded.get x)] := by
        show (u.ev44 x 1).pp.relay.restoreQ ++ [(x, (u.ev44 x 1).pp.relay.commanded.get x)] = _
        rw [ev44_relay]
      rw [queue]
      exact List.mem_append_left _ h
  have kept : (s.scanDone p c).pp.relay.restoreQ = (s.scanRestored p c).pp.relay.restoreQ :=
    foldl_field (fun u => u.pp.relay.restoreQ) (fun u i => by rw [absentSlot_relay]) _ _
  rw [kept]
  exact restored

/-! ### The command frame -/

/-- The relay port when a command frame has carried an operation. -/
def Relay.commands (r : Relay) (o : RlyOp) (again : Bool) (clk : Nat) : Relay := { r with
  op := some o, phase := .pulse
  commanded := o.slots.foldl (fun (m : KMap Bool) x => KMap.set m x.1 (!o.opens)) r.commanded
  lastClose := (if o.opens = true ∨ again = true then r.lastClose else some clk) }

theorem execRelayCommandFrame_commands {o : RlyOp} {r : Relay} {again : Bool} (live : s.relayLive = true)
    (idle : s.pp.relay.phase = .idle) (scans : 2 ≤ s.pp.relay.scans) (bind : s.pwr.bind = .none)
    (next : s.nextOp = some (o, r, again)) : execRelayCommandFrame s = .next (if again then
      s.setRelay (fun _ => r.commands o again s.clock.clk)
      else o.accts.foldl (fun s a => s.latchAcct o.opens a) (s.setRelay (fun _ => r.commands o again s.clock.clk))) := by
  have goes : ¬ ((!s.relayLive) = true ∨ s.pp.relay.phase ≠ .idle ∨ s.pp.relay.scans < 2 ∨
      s.pwr.bind = .relays ∨ s.pwr.bind = .save ∨ s.pwr.bind = .display) := by
    simp [live, idle, bind, Nat.not_lt.mpr scans]
  refine congrArg Host.Outcome.next ((if_neg goes).trans ?_)
  rw [next]
  rfl

/-- A latch changes no relay and no credit. -/
theorem latchAcct_kept (opens : Bool) (a : Nat) : (s.latchAcct opens a).pp.relay = s.pp.relay ∧
    (s.latchAcct opens a).pp.credit = s.pp.credit := by
  unfold State.latchAcct
  extract_lets w v
  have pp : v.pp = s.pp := State.raise_pp
  split
  · exact ⟨(congrArg (fun p : Pp => p.relay) pp :), (congrArg (fun p : Pp => p.credit) pp :)⟩
  · exact ⟨(congrArg (fun p : Pp => p.relay) pp :), (congrArg (fun p : Pp => p.credit) pp :)⟩

theorem latchAcct_pending {opens : Bool} {a n : Nat} (h : n = (if opens then 45 else 46) ∨ s.evt.pending.get n = true) :
    (s.latchAcct opens a).evt.pending.get n = true := by
  unfold State.latchAcct
  extract_lets w v
  have told : v.evt.pending.get n = true := by
    rcases h with rfl | h
    · exact (raise_raised s _ _).pending
    · exact raise_keeps_pending h
  split
  · exact told
  · exact told

/-- An account's OUTAGE_PENDING source, until its open operation has made it TAMPER (R379). -/
def outageMarked (a : Nat) (s : State) : Prop := (s.pp.acct.get a).srcOutage = true ∨ (s.pp.acct.get a).srcTamper = true

theorem latchAcct_tamper {a x : Nat} : ((s.pp.acct.get a).srcTamper = true ∨ (x = a ∧ outageMarked a s) →
    ((s.latchAcct true x).pp.acct.get a).srcTamper = true) ∧ (outageMarked a s → outageMarked a (s.latchAcct true x)) := by
  unfold State.latchAcct
  extract_lets w v
  have pp : v.pp = s.pp := State.raise_pp
  split
  · rename_i marked
    have own : x = a → ((v.setPrepay x (fun p => { p with srcOutage := false, srcTamper := true })).pp.acct.get a).srcTamper = true := by
      intro same
      rw [same]
      have written : (v.setPrepay a (fun p => { p with srcOutage := false, srcTamper := true })).pp.acct =
        v.pp.acct.upd a (fun p => { p with srcOutage := false, srcTamper := true }) := rfl
      rw [written, KMap.upd, KMap.get_set_of_ne (fun empty => Bool.noConfusion (show true = false from congrArg Prepay.srcTamper empty)),
        if_pos rfl]
    have other : x ≠ a → (v.setPrepay x (fun p => { p with srcOutage := false, srcTamper := true })).pp.acct.get a =
        s.pp.acct.get a := fun h => (get_set_other (Ne.symm h)).trans (congrArg (fun p : Pp => p.acct.get a) pp)
    refine ⟨fun h => ?_, fun h => ?_⟩
    · by_cases same : x = a
      · exact own same
      · rw [other same]
        exact h.resolve_right fun h => same h.1
    · by_cases same : x = a
      · exact .inr (own same)
      · unfold outageMarked
        rw [other same]
        exact h
  · rename_i unmarked
    refine ⟨fun h => ?_, fun h => ?_⟩
    · rw [pp]
      rcases h with h | ⟨rfl, h⟩
      · exact h
      · refine h.resolve_left fun outage => unmarked ⟨rfl, ?_⟩
        rw [pp]
        exact outage
    · unfold outageMarked
      rw [pp]
      exact h

/-! ### The capture frame -/

/-- The parts of the port that a comparison of one slot leaves. -/
theorem slotCompare_kept (opens : Bool) (x : Nat × Nat) :
    (s.slotCompare opens x).pp.relay.contacts = s.pp.relay.contacts := by
  unfold State.slotCompare
  extract_lets r undone
  split
  · rfl
  · split
    · split
      · rfl
      · rfl
    · rw [ev44_relay]
      rfl

theorem slotCompare_equal {opens : Bool} {x : Nat × Nat} (h : s.pp.relay.closed.get x.1 = !opens) :
    s.slotCompare opens x = s := if_pos h

/-- A different slot whose retries are used up goes to RLY_FAULT with EV44. -/
theorem slotCompare_faults {opens : Bool} {x : Nat × Nat} (differs : s.pp.relay.closed.get x.1 = opens)
    (used : s.cfg oRlyRetries ≤ x.2) : (s.slotCompare opens x).pp.relay.fault.get x.1 = true ∧
      (s.slotCompare opens x).evt.pending.get 44 = true := by
  have other : ¬ s.pp.relay.closed.get x.1 = !opens := by
    rw [differs]
    cases opens <;> decide
  have means : s.slotCompare opens x = (s.slotFault x.1).ev44 x.1 0 := (if_neg other).trans (if_neg (Nat.not_lt.mpr used))
  rw [means, ev44_relay]
  exact ⟨(KMap.get_set_of_ne (by decide) _).trans (if_pos rfl), ev44_pending _ _⟩

/-- A different slot of an open operation with retries left is tried again. -/
theorem slotCompare_retries {x : Nat × Nat} (differs : s.pp.relay.closed.get x.1 = true) (left : x.2 < s.cfg oRlyRetries) :
    (x.1, true, x.2 + 1) ∈ (s.slotCompare true x).pp.relay.retry := by
  have other : ¬ s.pp.relay.closed.get x.1 = !true := by simp [differs]
  have means : s.slotCompare true x = s.setRelay (fun r => { r with retry := r.retry ++ [(x.1, true, x.2 + 1)] }) :=
    (if_neg other).trans ((if_pos left).trans (if_neg (by simp)))
  rw [means]
  exact List.mem_append_right _ List.mem_cons_self

/-- What has been found of other slots stays. -/
theorem slotCompare_keeps (opens : Bool) (x : Nat × Nat) : (∀ i, s.pp.relay.fault.get i = true →
      (s.slotCompare opens x).pp.relay.fault.get i = true) ∧
    (∀ n, s.evt.pending.get n = true → (s.slotCompare opens x).evt.pending.get n = true) ∧
    (∀ y, y ∈ s.pp.relay.retry → y ∈ (s.slotCompare opens x).pp.relay.retry) := by
  unfold State.slotCompare
  extract_lets r undone
  split
  · exact ⟨fun _ => id, fun _ => id, fun _ => id⟩
  · split
    · split
      · exact ⟨fun _ => id, fun _ => id, fun _ => id⟩
      · exact ⟨fun _ => id, fun _ => id, fun _ h => List.mem_append_left _ h⟩
    · rw [ev44_relay]
      exact ⟨fun _ h => get_set_true h, fun _ h => raise_keeps_pending h, fun _ => id⟩

/-- The state in which a capture has compared the slots of its operation. -/
def State.compared (s : State) (p c : Bytes) (o : RlyOp) : State :=
  o.slots.foldl (fun s x => s.slotCompare o.opens x) (s.contacts p c)

/-- The state in which the operation has ended. -/
def State.captured (s : State) (p c : Bytes) (o : RlyOp) : State :=
  (s.compared p c o).setRelay (fun r => { r with phase := .idle, op := none })

/-- The state in which its accounts without a source have been closed again. -/
def State.released (s : State) (p c : Bytes) (o : RlyOp) : State :=
  if o.opens then o.accts.foldl (fun s a => if s.pp.relay.closeQ.contains a then s else s.sourceCleared a) (s.captured p c o)
  else s.captured p c o

/-- A close that is queued again leaves the relay port but its close queue, and the events. -/
theorem sourceCleared_relay (a : Nat) : (s.sourceCleared a).pp.relay = { s.pp.relay with
    closeQ := (s.sourceCleared a).pp.relay.closeQ } := by
  unfold State.sourceCleared State.queueClose
  extract_lets v
  split
  · rfl
  · split
    · rfl
    · split <;> rfl

/-- The relay port without its close queue. -/
def Relay.open_ (r : Relay) : Relay := { r with closeQ := [] }

theorem released_relay (p c : Bytes) (o : RlyOp) : (s.released p c o).pp.relay.open_ = (s.captured p c o).pp.relay.open_ ∧
    (s.released p c o).evt = (s.captured p c o).evt := by
  unfold State.released
  split
  · refine ⟨foldl_field (fun u => u.pp.relay.open_) (fun u a => ?_) _ _, foldl_field State.evt (fun u a => ?_) _ _⟩
    · split
      · rfl
      · rw [sourceCleared_relay]
        rfl
    · split
      · rfl
      · exact State.sourceCleared_evt
  · exact ⟨rfl, rfl⟩

theorem compared_contacts (p c : Bytes) (o : RlyOp) :
    (s.compared p c o).pp.relay.contacts = (s.contacts p c).pp.relay.contacts ∧ (s.compared p c o).dict = s.dict := by
  refine ⟨foldl_field (fun u => u.pp.relay.contacts) (fun u x => slotCompare_kept _ _) _ _, ?_⟩
  exact (foldl_field State.dict (fun u x => State.slotCompare_dict) _ _).trans rfl

/-- Equal contacts leave nothing to retry and no fault. -/
theorem compared_equal {p c : Bytes} {o : RlyOp}
    (h : ∀ x ∈ o.slots, (decide (x.1 < s.cfg oRlyChainLength) && imageBit c x.1) = !o.opens) :
    s.compared p c o = s.contacts p c := by
  have fixed : ∀ l : List (Nat × Nat), (∀ x ∈ l, (decide (x.1 < s.cfg oRlyChainLength) && imageBit c x.1) = !o.opens) →
      l.foldl (fun s x => s.slotCompare o.opens x) (s.contacts p c) = s.contacts p c := by
    intro l
    induction l with
    | nil => exact fun _ => rfl
    | cons x l ih =>
      intro hl
      have same : (s.contacts p c).pp.relay.closed.get x.1 = !o.opens :=
        (get_contacts c x.1).trans (hl x List.mem_cons_self)
      rw [List.foldl_cons, slotCompare_equal same]
      exact ih fun y hy => hl y (List.mem_cons_of_mem _ hy)
  exact fixed _ h

/-- What the loop over the slots keeps: the contacts read and the configuration. -/
def Compares (s : State) (p c : Bytes) (u : State) : Prop :=
  u.pp.relay.contacts = (s.contacts p c).pp.relay.contacts ∧ u.dict = s.dict

theorem Compares.step {p c : Bytes} {opens : Bool} {x : Nat × Nat} (h : Compares s p c u) :
    Compares s p c (u.slotCompare opens x) :=
  ⟨(slotCompare_kept opens x).trans h.1, State.slotCompare_dict.trans h.2⟩

theorem Compares.closed {p c : Bytes} {i : Nat} (h : Compares s p c u) :
    u.pp.relay.closed.get i = (decide (i < s.cfg oRlyChainLength) && imageBit c i) := by
  have closed : u.pp.relay.closed = (s.contacts p c).pp.relay.closed := congrArg (fun x => x.2.1) h.1
  rw [closed]
  exact get_contacts c i

/-- A different slot is tried again or goes to RLY_FAULT (R246). -/
theorem compared_different {p c : Bytes} {o : RlyOp} {x : Nat × Nat} (listed : x ∈ o.slots)
    (differs : (decide (x.1 < s.cfg oRlyChainLength) && imageBit c x.1) = o.opens) :
    (s.cfg oRlyRetries ≤ x.2 → (s.compared p c o).pp.relay.fault.get x.1 = true ∧
      (s.compared p c o).evt.pending.get 44 = true) ∧
    (x.2 < s.cfg oRlyRetries → o.opens = true → (x.1, true, x.2 + 1) ∈ (s.compared p c o).pp.relay.retry) := by
  have start : Compares s p c (s.contacts p c) := ⟨rfl, rfl⟩
  have retries : ∀ u, Compares s p c u → u.cfg oRlyRetries = s.cfg oRlyRetries := fun u h =>
    cfg_congr (congrArg Dict.active h.2) _
  refine ⟨fun used => ?_, fun left opens => ?_⟩
  · refine foldl_reaches (I := Compares s p c)
      (P := fun u => u.pp.relay.fault.get x.1 = true ∧ u.evt.pending.get 44 = true) listed
      (fun _ _ => Compares.step) (fun u h => ?_) (fun u y _ h => ?_) start
    · exact slotCompare_faults (h.closed.trans differs) (by rwa [retries u h])
    · obtain ⟨fault, event, -⟩ := slotCompare_keeps (s := u) o.opens y
      exact ⟨fault _ h.1, event _ h.2⟩
  · refine foldl_reaches (I := Compares s p c) (P := fun u => (x.1, true, x.2 + 1) ∈ u.pp.relay.retry) listed
      (fun _ _ => Compares.step) (fun u h => ?_) (fun u y _ h => ?_) start
    · have again := slotCompare_retries (s := u) (x := x) (h.closed.trans (differs.trans opens)) (by rwa [retries u h])
      rw [opens]
      exact again
    · obtain ⟨-, -, retry⟩ := slotCompare_keeps (s := u) o.opens y
      exact retry _ h

/-- A capture changes the prepayment and the events. -/
theorem released_only (p c : Bytes) (o : RlyOp) : Only 8912896 s (s.released p c o) := by
  have compared : Only 8912896 s (s.compared p c o) :=
    only_foldl (State.contacts_only (.refl _ s) rfl) fun _ _ => State.slotCompare_only (.refl _ _) rfl
  have captured : Only 8912896 s (s.captured p c o) := State.setRelay_only compared rfl
  unfold State.released
  refine only_ite (fun _ => only_foldl captured fun _ _ =>
    only_ite (fun _ => .refl _ _) fun _ => State.sourceCleared_only (.refl _ _) rfl) fun _ => captured

theorem execRelayCaptureFrame_captures {p c : Bytes} {o : RlyOp} (live : s.relayLive = true)
    (settled : s.pp.relay.phase = .settle) (op : s.pp.relay.op = some o) (bind : s.pwr.bind = .none) :
    execRelayCaptureFrame p c s = .next (s.released p c o) := by
  have goes : ¬ ((!s.relayLive) = true ∨ s.pp.relay.phase ≠ .settle) := by simp [live, settled]
  have running : (s.contacts p c).pp.relay.op.getD {} = o := by
    rw [show (s.contacts p c).pp.relay.op = s.pp.relay.op from rfl, op]
    rfl
  have pwr : (s.released p c o).pwr = s.pwr := by
    have compared : (s.compared p c o).pwr = s.pwr := (foldl_field State.pwr (fun _ _ => State.slotCompare_pwr) _ _).trans rfl
    unfold State.released
    split
    · refine (foldl_field State.pwr (fun u a => ?_) _ _).trans compared
      split
      · rfl
      · exact State.sourceCleared_pwr
    · exact compared
  refine congrArg Host.Outcome.next ((if_neg goes).trans ?_)
  dsimp only
  rw [running]
  exact if_pos (by rw [← bind, ← pwr]; rfl)

/-! ### RLY_FAULT_CLEAR -/

theorem get_foldl_clear (l : List Nat) {m : KMap Bool} (wf : KMap.wf m = true) (i : Nat) :
    KMap.get (l.foldl (fun m i => KMap.set m i false) m) i = (KMap.get m i && !l.contains i) := by
  induction l generalizing m with
  | nil => simp
  | cons x l ih =>
    rw [List.foldl_cons, ih (KMap.set_wf wf _ _), KMap.get_set wf]
    by_cases here : i = x <;> simp [here]

end Sys2Proof.Machine

open Sys2Proof Sys2Proof.Machine

/-- Settles O20: what one slot's round brings about, the loop over the slots brings about. -/
theorem relayFrames : Obligations.RelayFrames := by
  unfold Obligations.RelayFrames
  refine ⟨?_, ?_, ?_, ?_, ?_, ?_, ?_, ?_, ?_⟩
  · intro s p c h
    have off : (!s.relayLive) = true ∨ s.pp.relay.phase ≠ .idle := by rwa [Bool.not_eq_true']
    exact congrArg Host.Outcome.next (if_pos off)
  · intro s p c live idle
    obtain ⟨contacts, scans⟩ := scanDone_contacts (s := s) p c
    refine ⟨_, execRelayScanFrame_scans live idle, fun i => ?_, fun i => ?_, scans, ?_, fun i inChain absent acct before sound =>
      scanDone_faults inChain absent acct before sound, fun i inChain present differs free before =>
      scanDone_restores inChain present differs free before,
      execRelayScanFrame_only.changesOnly (execRelayScanFrame_scans live idle) rfl⟩
    · have present : (s.scanDone p c).pp.relay.present = (s.contacts p c).pp.relay.present := congrArg (fun x => x.1) contacts
      rw [present]
      exact get_contacts p i
    · have closed : (s.scanDone p c).pp.relay.closed = (s.contacts p c).pp.relay.closed := congrArg (fun x => x.2.1) contacts
      rw [closed]
      exact get_contacts c i
    · exact congrArg (fun x => x.2.2) contacts
  · intro s h
    rcases h with h | h | h | h
    · exact congrArg Host.Outcome.next (if_pos (.inl (by rw [h]; rfl)))
    · exact congrArg Host.Outcome.next (if_pos (.inr (.inl h)))
    · exact congrArg Host.Outcome.next (if_pos (.inr (.inr (.inl h))))
    · refine congrArg Host.Outcome.next ?_
      rw [h]
      exact ite_self s
  · intro s o r again live idle scans bind next
    have answer := execRelayCommandFrame_commands live idle scans bind next
    refine ⟨_, answer, ?_, fun repeats => ?_, fun first a listed => ?_, ?_, execRelayCommandFrame_only.changesOnly answer rfl⟩
    · split
      · rfl
      · exact (foldl_field (fun u => u.pp.relay) (fun u a => (latchAcct_kept _ a).1) _ _).trans rfl
    · rw [if_pos repeats]
      rfl
    · rw [if_neg (by simp [first])]
      refine ⟨?_, fun opens outage => ?_⟩
      · exact foldl_reaches (I := fun _ => True) (P := fun u => u.evt.pending.get (if o.opens then 45 else 46) = true) listed
          (fun _ _ => id) (fun u _ => latchAcct_pending (.inl rfl)) (fun u x _ h => latchAcct_pending (.inr h)) trivial
      · rw [opens]
        exact foldl_reaches (I := outageMarked a) (P := fun u => (u.pp.acct.get a).srcTamper = true) listed
          (fun u x => latchAcct_tamper.2) (fun u h => latchAcct_tamper.1 (.inr ⟨rfl, h⟩))
          (fun u x _ h => latchAcct_tamper.1 (.inl h)) (.inl outage)
    · split
      · rfl
      · exact (foldl_field (fun u => u.pp.credit) (fun u a => (latchAcct_kept _ a).2) _ _).trans rfl
  · intro s live pulse
    exact congrArg Host.Outcome.next (if_pos ⟨live, pulse⟩)
  · intro s h
    refine congrArg Host.Outcome.next (if_neg fun both => ?_)
    rcases h with h | h
    · rw [both.1] at h
      cases h
    · exact h both.2
  · intro s p c o live settled op bind
    have answer := execRelayCaptureFrame_captures (p := p) (c := c) live settled op bind
    obtain ⟨relay, evt⟩ := released_relay (s := s) p c o
    obtain ⟨contacts, -⟩ := compared_contacts (s := s) p c o
    refine ⟨_, answer, (congrArg Relay.phase relay :), (congrArg Relay.op relay :), ?_, fun i => ?_, fun equal => ?_,
      fun x listed differs => ?_, (released_only p c o).changesOnly rfl⟩
    · exact (congrArg Relay.commanded relay :).trans (congrArg (fun x => x.2.2) contacts)
    · have same : (s.released p c o).pp.relay.closed = (s.captured p c o).pp.relay.closed := (congrArg Relay.closed relay :)
      rw [same]
      exact (congrArg (fun x => KMap.get x.2.1 i) contacts).trans (get_contacts c i)
    · have same := compared_equal (p := p) equal
      have fields : (s.captured p c o).pp.relay.retry = s.pp.relay.retry ∧ (s.captured p c o).pp.relay.fault = s.pp.relay.fault ∧
          (s.captured p c o).evt = s.evt := by
        unfold State.captured
        rw [same]
        exact ⟨rfl, rfl, rfl⟩
      exact ⟨(congrArg Relay.retry relay :).trans fields.1, (congrArg Relay.fault relay :).trans fields.2.1, evt.trans fields.2.2⟩
    · obtain ⟨faults, retries⟩ := compared_different (p := p) listed differs
      refine ⟨fun used => ⟨?_, ?_⟩, fun left opens => ?_⟩
      · have same : (s.released p c o).pp.relay.fault = (s.captured p c o).pp.relay.fault := (congrArg Relay.fault relay :)
        rw [same]
        exact (faults used).1
      · rw [evt]
        exact (faults used).2
      · have same : (s.released p c o).pp.relay.retry = (s.captured p c o).pp.relay.retry := (congrArg Relay.retry relay :)
        rw [same]
        exact retries left opens
  · intro s p c h
    have off : (!s.relayLive) = true ∨ s.pp.relay.phase ≠ .settle := by rwa [Bool.not_eq_true']
    exact congrArg Host.Outcome.next (if_pos off)
  · intro s r b allowed wf
    have delivered := writeReq_delivers (F := fun s v => s.wRelayFault v) allowed fun _ _ => State.wRelayFault_ports
    have frame := delivered.requestOnly (State.wRelayFault_only (.refl 2174222336 _) rfl) rfl rfl
    have pp : (s.ownerWrote r.cls).pp = s.pp := State.ownerWrote_pp
    have same : (s.writeReq r 0x2050 0x0B b (fun s _ v => s.wRelayFault v)).pp = { s.pp with relay := { s.pp.relay with
        fault := (setList (ofLe b) 256).foldl (fun m i => KMap.set m i false) s.pp.relay.fault } } := by
      rw [← pp]
      exact delivered.only.pp rfl
    refine ⟨_, rfl, delivered.ans, fun i => ?_, ?_, frame.changesOnly rfl⟩
    · rw [same]
      exact get_foldl_clear _ wf i
    · rw [same]

end

section
/-! PROOFS. The clock monitors (R366): a relock before the METERING point gates the islands with no trip left in force. -/
namespace Sys2Proof.Machine

variable {s : State}

/-- An emergency order before the METERING point opens no session: its gating clears the trip again (R342). -/
theorem emergency_early_tripped (supplied : s.supplied = true) (early : s.pwr.metering = false) (src cause : Nat) :
    (s.emergency src cause).pwr.tripped = false := by
  obtain ⟨u, last, -⟩ := emergency_eq supplied src cause
  rw [last, early]
  rfl

/-- Before the METERING point the relock's restart (R366) leaves no trip in force. -/
theorem execPllRelock_early (stopped : s.tamper.stopped = true) (supplied : s.supplied = true) (early : s.pwr.metering = false) :
    ∃ t, execPllRelock s = .next t ∧ t.pwr.tripped = false := by
  refine ⟨_, congrArg Host.Outcome.next (if_pos stopped), emergency_early_tripped ?_ ?_ _ _⟩
  · exact supplied
  · exact early

/-- A cast-on under way, its clock tree stopped by a loss of the main clock before the METERING point. -/
def State.castOnStopped : State :=
  { State.reset with
    pwr := { good := true, mode := .castOn }
    tamper := { mainOnRc := true, needClean := true, stopped := true, stopCause := 2 } }

theorem castOnStopped_early : State.castOnStopped.tamper.stopped = true ∧ State.castOnStopped.supplied = true ∧
    State.castOnStopped.pwr.metering = false := by
  decide

end Sys2Proof.Machine

open Sys2Proof Sys2Proof.Machine

/-- Refutes O21: the clause on the relock claims `tripped` in every supplied state with a stopped clock tree; when the clock tree
stopped before the METERING point, the emergency order gates the islands at once and leaves no trip in force. -/
theorem not_clockMonitors : ¬ Obligations.ClockMonitors := by
  unfold Obligations.ClockMonitors
  rintro ⟨-, -, -, -, relock, -⟩
  obtain ⟨stopped, supplied, early⟩ := castOnStopped_early
  obtain ⟨t, answer, -, -, -, tripped, -⟩ := relock State.castOnStopped stopped supplied
  obtain ⟨u, ends, untripped⟩ := execPllRelock_early stopped supplied early
  obtain rfl := Host.Outcome.next.inj (answer.symm.trans ends)
  exact Bool.false_ne_true (untripped.symm.trans tripped)

end

section
/-! PROOFS. Detections of inputs and monitors (R367-R370, R372): what a response without a zeroize does, and when there is none. -/
namespace Sys2Proof.Machine

variable {s : State}

@[simp] theorem State.urgent_tamper {s : State} {a1 : _} : (s.urgent a1).tamper = s.tamper :=
  (State.urgent_only (.refl 40 s) rfl).tamper rfl
@[simp] theorem State.urgent_dict {s : State} {a1 : _} : (s.urgent a1).dict = s.dict :=
  (State.urgent_only (.refl 40 s) rfl).dict rfl
@[simp] theorem State.selvTarget_tamper {s : State} {a1 : _} {a2 : _} : (s.selvTarget a1 a2).tamper = s.tamper :=
  (State.selvTarget_only (.refl 268435456 s) rfl).tamper rfl
@[simp] theorem State.tamperDisc_tamper {s : State} {a1 : _} {a2 : _} : (s.tamperDisc a1 a2).tamper = s.tamper :=
  (State.tamperDisc_only (.refl 524288 s) rfl).tamper rfl
@[simp] theorem State.raise_tamper {s : State} {a1 : _} {a2 : _} : (s.raise a1 a2).tamper = s.tamper :=
  (State.raise_only (.refl 8388608 s) rfl).tamper rfl
@[simp] theorem State.pushEntry_clock {s : State} {a1 : _} : (s.pushEntry a1).clock = s.clock :=
  (State.pushEntry_only (.refl 67108864 s) rfl).clock rfl

/-! ### A response -/

theorem bit_mod_32 {n i : Nat} (h : i < 5) : bit (n % 32) i = bit n i := by
  unfold bit
  rw [show 32 = 2 ^ 5 from rfl, Nat.testBit_mod_two_pow]
  simp [h]

/-- The log entry that a response without a zeroize places (R380, R382). -/
theorem respond_logs {code sev resp : Nat} (data : Bytes) (ev : Option (Nat × Bytes)) (accts : List Nat)
    (calm : bit resp 4 = false) (logs : bit resp 0 = true) (room : s.tamper.buf.length < 64)
    (free : KMap.get s.tamper.holdoff code = none) :
    ∃ e : LogEntry, ∃ pend, e.source = code ∧ e.time = s.now ∧ e.lc = s.lc ∧
      (s.respond code sev resp data ev accts).tamper = { s.tamper with
        buf := s.tamper.buf ++ [e], holdoff := s.tamper.holdoff.set code (some (s.clock.clk, 0)), pendSet := pend
        mark := s.tamper.mark || bit resp 2 } := by
  unfold State.respond
  extract_lets t lc vbat zero u quiet wantEv late held hold within folded taken e logged told disc
  have same : u = s := if_neg (by simp [zero, calm])
  have outside : within = false := by simp only [within, hold, same, free]
  have entered : logged.tamper = { s.tamper with
      buf := s.tamper.buf ++ [e], holdoff := s.tamper.holdoff.set code (some (s.clock.clk, 0)) } := by
    simp only [logged, outside, same, logs]
    simp [State.pushEntry, room, State.setTamper]
  have told_tamper : told.tamper = logged.tamper := by
    simp only [told]
    split
    · split
      · exact State.raise_tamper
      · rfl
    · rfl
  have marked : ∀ x : State, (if bit resp 2 then (x.setTamper (fun t => { t with mark := true })).selvTarget 1 true else x).tamper =
      { x.tamper with mark := x.tamper.mark || bit resp 2 } := by
    intro x
    cases bit resp 2 <;> simp
  rw [marked]
  have disconnects : disc.tamper = { logged.tamper with pendSet := disc.tamper.pendSet } := by
    have kept : ∀ x : State, x.tamper = told.tamper → x.tamper = { logged.tamper with pendSet := x.tamper.pendSet } := by
      intro x hx
      rw [hx, told_tamper]
    simp only [disc]
    split
    · split
      · rw [State.setTamper_tamper, told_tamper]
      · exact kept _ State.tamperDisc_tamper
    · exact kept _ rfl
  exact ⟨e, disc.tamper.pendSet, rfl, rfl, rfl, by rw [disconnects, entered]⟩

/-- A response without a zeroize touches no memory. -/
theorem respond_only_calm {code sev resp : Nat} (data : Bytes) (ev : Option (Nat × Bytes)) (accts : List Nat)
    (calm : bit resp 4 = false) : Only 344457216 s (s.respond code sev resp data ev accts) := by
  unfold State.respond
  extract_lets t lc vbat zero u quiet wantEv late held hold within folded taken e logged told disc
  have same : u = s := if_neg (by simp [zero, calm])
  have entered : Only 344457216 s logged := by
    simp only [logged, same]
    refine only_ite (fun _ => .refl _ s) fun _ => only_ite (fun _ => ?_) fun _ => ?_
    · exact State.setTamper_only (.refl _ s) rfl
    · exact State.setTamper_only (State.pushEntry_only (.refl _ s) rfl) rfl
  have telling : Only 344457216 s told := by
    simp only [told]
    split
    · exact only_ite (fun _ => State.raise_only entered rfl) fun _ => entered
    · exact entered
  have disconnects : Only 344457216 s disc :=
    only_ite (fun _ => only_ite (fun _ => State.setTamper_only telling rfl) fun _ => State.tamperDisc_only telling rfl)
      fun _ => telling
  exact only_ite (fun _ => State.selvTarget_only (State.setTamper_only disconnects rfl) rfl) fun _ => disconnects

/-- A source whose setting is 0 is turned off (R372). -/
theorem detect_off {i : Nat} (h : s.cfg (oTampResponse i) = 0) (code : Nat) (data : Bytes) (ev : Option (Nat × Bytes))
    (scope : List Nat) : s.detect i code data ev scope = s := if_pos h

/-- A detection of a source with a response that logs and does not zeroize. -/
theorem detect_logs {i code : Nat} (data : Bytes) (ev : Option (Nat × Bytes)) (scope : List Nat)
    (calm : bit (s.cfg (oTampResponse i)) 4 = false) (logs : bit (s.cfg (oTampResponse i)) 0 = true)
    (room : s.tamper.buf.length < 64) (free : KMap.get s.tamper.holdoff code = none) :
    (∃ e : LogEntry, ∃ pend, e.source = code ∧ e.time = s.now ∧ e.lc = s.lc ∧
      (s.detect i code data ev scope).tamper = { s.tamper with
        buf := s.tamper.buf ++ [e], holdoff := s.tamper.holdoff.set code (some (s.clock.clk, 0)), pendSet := pend
        mark := s.tamper.mark || bit (s.cfg (oTampResponse i)) 2 }) ∧
    Only 344457216 s (s.detect i code data ev scope) := by
  have on : s.cfg (oTampResponse i) ≠ 0 := fun h => by
    rw [h] at logs
    cases logs
  rw [show s.detect i code data ev scope = s.respond code (bits (s.cfg (oTampResponse i)) 15 14)
      (s.cfg (oTampResponse i) % 32) data ev (if bit (s.cfg (oTampResponse i)) 8 then scope else s.discSet) from if_neg on,
    ← bit_mod_32 (i := 2) (by decide)]
  rw [← bit_mod_32 (by decide)] at calm logs
  exact ⟨respond_logs data ev _ calm logs room free, respond_only_calm data ev _ calm⟩

/-! ### Glitches and verifications -/

@[simp] theorem arbitrate_pendTamper (h : Hk) : h.arbitrate.pendTamper = h.pendTamper := by
  unfold Hk.arbitrate
  split <;> rfl

theorem urgent_pendTamper {src : UrgentSrc} {temp : Bool} (h : src = if temp then .tamperTemp else .tamperGlitch) :
    (s.urgent src).hk.pendTamper = some temp := by
  rw [urgent_hk, arbitrate_pendTamper, h]
  cases temp <;> rfl

/-- A flag begins a single glitch when the last one lies 1 ms back. -/
def glitchFresh (g : GlitchMon) (at_ : Nat) : Bool := match g.last with
  | none => true
  | some x => decide (x + 1000000 ≤ at_)

/-- The glitch monitor after a flag that begins a single glitch or continues one. -/
def State.flagged (s : State) (k at_ : Nat) (fresh : Bool) : State :=
  s.setTamper (fun t => { t with glitch := t.glitch.upd k (fun g =>
    if fresh then { g with
      last := some at_
      singles := (at_ :: (s.tamper.glitch.get k).singles).filter (fun x => decide (at_ ≤ x + s.cfg oGlitchWindowMs * 1000000))
      n := (g.n + 1) % 2 ^ 32 }
    else { g with last := some at_ }) })

theorem flagged_monitor (k at_ : Nat) :
    (KMap.get (s.flagged k at_ true).tamper.glitch k).n = ((KMap.get s.tamper.glitch k).n + 1) % 2 ^ 32 ∧
    (KMap.get (s.flagged k at_ true).tamper.glitch k).last = some at_ := by
  have monitor : KMap.get (s.flagged k at_ true).tamper.glitch k = { KMap.get s.tamper.glitch k with
      last := some at_, n := ((KMap.get s.tamper.glitch k).n + 1) % 2 ^ 32
      singles := (at_ :: (s.tamper.glitch.get k).singles).filter
        (fun x => decide (at_ ≤ x + s.cfg oGlitchWindowMs * 1000000)) } :=
    (KMap.get_set_of_ne (fun empty => Option.some_ne_none _ (congrArg GlitchMon.last empty)) k).trans (if_pos rfl)
  rw [monitor]
  exact ⟨rfl, rfl⟩

/-- The glitch flag of a device on VIN33, by whether it begins a single glitch. -/
theorem execGlitchFlag_live {rail : Fin 2} {at_ : Nat} {fresh : Bool} (dir : Fin 2) (main : s.pwr.onVbat = false)
    (untripped : s.pwr.tripped = false) (begins : glitchFresh (KMap.get s.tamper.glitch rail.val) at_ = fresh) :
    execGlitchFlag rail dir at_ s = if !fresh then .next (s.flagged rail.val at_ fresh) else
      .next (let u := if s.powered then (s.flagged rail.val at_ fresh).urgent .tamperGlitch else s.flagged rail.val at_ fresh
        if u.cfg oGlitchConfirmN ≤ ((at_ :: (KMap.get s.tamper.glitch rail.val).singles).filter
            (fun x => decide (at_ ≤ x + s.cfg oGlitchWindowMs * 1000000))).length then
          (u.detect (12 + rail.val) (0x20 + rail.val) (le 1 rail.val ++ le 1 dir.val ++ le 4 (unsgn 4 u.tamper.vcore))
            (some (13, le 1 rail.val ++ le 1 dir.val)) u.discSet).restartIfDue
        else u) := by
  subst begins
  have live : ¬ (s.pwr.onVbat = true ∨ s.pwr.tripped = true) := by simp [main, untripped]
  exact if_neg live

theorem execGlitchFlag_counts {rail : Fin 2} {at_ : Nat} (dir : Fin 2) (main : s.pwr.onVbat = false)
    (untripped : s.pwr.tripped = false)
    (fresh : ∀ x, (KMap.get s.tamper.glitch rail.val).last = some x → x + 1000000 ≤ at_)
    (few : ((at_ :: (KMap.get s.tamper.glitch rail.val).singles).filter
      (fun x => decide (at_ ≤ x + s.cfg oGlitchWindowMs * 1000000))).length < s.cfg oGlitchConfirmN) :
    execGlitchFlag rail dir at_ s = .next
      (if s.powered then (s.flagged rail.val at_ true).urgent .tamperGlitch else s.flagged rail.val at_ true) := by
  have single : glitchFresh (KMap.get s.tamper.glitch rail.val) at_ = true := by
    unfold glitchFresh
    cases found : (KMap.get s.tamper.glitch rail.val).last with
    | none => rfl
    | some x => exact decide_eq_true (fresh x found)
  refine (execGlitchFlag_live dir main untripped single).trans (congrArg Host.Outcome.next (if_neg (Nat.not_le.mpr ?_)))
  have same : (if s.powered then (s.flagged rail.val at_ true).urgent .tamperGlitch else s.flagged rail.val at_ true).dict =
      s.dict := by
    rw [apply_ite State.dict, State.urgent_dict, ite_self]
    rfl
  rwa [cfg_congr (congrArg Dict.active same)]

/-! ### Inputs -/

theorem execTampSample_samples {i : Fin 8} {h : Bool} {na : Nat} {y : TampIn} (on : bits (s.cfg (oTampInputCfg i.val)) 2 1 ≠ 0)
    (reads : s.pwr.onVbat = false ∨ bit (s.cfg (oTampInputCfg i.val)) 4 = true)
    (sampled : y = (KMap.get s.tamper.tamp i.val).sample (if bits (s.cfg (oTampInputCfg i.val)) 2 1 = 1
      then h == bit (s.cfg (oTampInputCfg i.val)) 3
      else decide (500 * (bits (s.cfg (oTampInputCfg i.val)) 11 8 + 1) < na)) (bits (s.cfg (oTampInputCfg i.val)) 23 16)) :
    execTampSample i h na s = .next (if y.active && !(KMap.get s.tamper.tamp i.val).active then
      ((s.setTamper (fun t => { t with tamp := t.tamp.set i.val y })).detect i.val (0x10 + i.val)
        (le 1 i.val ++ le 1 (bits (s.cfg (oTampInputCfg i.val)) 2 1))
        (some (11, le 1 i.val ++ le 1 (bits (s.cfg (oTampInputCfg i.val)) 2 1)))
        (s.setTamper (fun t => { t with tamp := t.tamp.set i.val y })).discSet).restartIfDue
      else s.setTamper (fun t => { t with tamp := t.tamp.set i.val y })) := by
  subst sampled
  refine (if_neg ?_).trans rfl
  rintro (off | ⟨vbat, masked⟩)
  · exact on off
  · rcases reads with reads | reads
    · simp [reads] at vbat
    · simp [reads] at masked

theorem execMagSample_samples {i : Fin 4} {h : Bool} {y : TampIn} (on : bit (s.cfg oMagCfg) i.val = true)
    (main : s.pwr.onVbat = false)
    (sampled : y = (KMap.get s.tamper.mag i.val).sample (h == bit (s.cfg oMagCfg) (4 + i.val)) 3) :
    execMagSample i h s = .next (if y.active && !(KMap.get s.tamper.mag i.val).active then
      ((s.setTamper (fun t => { t with mag := t.mag.set i.val y })).detect (8 + i.val) (0x18 + i.val) (le 1 i.val ++ le 1 0)
        (some (12, le 1 i.val)) (s.setTamper (fun t => { t with mag := t.mag.set i.val y })).discSet).restartIfDue
      else s.setTamper (fun t => { t with mag := t.mag.set i.val y })) := by
  subst sampled
  refine (if_neg ?_).trans rfl
  simp [on, main]

end Sys2Proof.Machine

open Sys2Proof Sys2Proof.Machine

/-- Settles O22: each input is sampled; only a sample that becomes active goes on to a response. -/
theorem glitchesAndInputs : Obligations.GlitchesAndInputs := by
  unfold Obligations.GlitchesAndInputs
  refine ⟨fun s rail dir at_ h => if_pos h, ?_, ?_, ?_, ?_, ?_, ?_, ?_, ?_, ?_⟩
  · intro s rail dir at_ x main untripped last near
    have continues : glitchFresh (KMap.get s.tamper.glitch rail.val) at_ = false := by
      rw [glitchFresh, last]
      exact decide_eq_false (Nat.not_le.mpr near)
    exact execGlitchFlag_live dir main untripped continues
  · intro s rail dir at_ main untripped fresh few
    obtain ⟨n, last⟩ := flagged_monitor (s := s) rail.val at_
    refine ⟨_, execGlitchFlag_counts dir main untripped fresh few, ?_, ?_, fun powered => ?_, Only.changesOnly
      (only_ite (fun _ => State.urgent_only (State.setTamper_only (.refl 67108904 s) rfl) rfl)
        fun _ => State.setTamper_only (.refl _ s) rfl) rfl⟩
    · rw [apply_ite State.tamper, State.urgent_tamper, ite_self]
      exact n
    · rw [apply_ite State.tamper, State.urgent_tamper, ite_self]
      exact last
    · rw [if_pos powered]
      exact urgent_pendTamper (temp := false) rfl
  · intro s i h na off
    exact if_pos off
  · intro s i h na y on reads sampled
    have answer := execTampSample_samples on reads sampled
    refine ⟨fun quiet => answer.trans (congrArg Host.Outcome.next (if_neg ?_)), fun active before due calm logs room free => ?_⟩
    · rcases quiet with h | h <;> simp [h]
    · rw [if_pos (by simp [active, before])] at answer
      obtain ⟨⟨e, pend, source, time, lc, tamper⟩, frame⟩ := detect_logs
        (s := s.setTamper (fun t => { t with tamp := t.tamp.set i.val y })) (code := 0x10 + i.val)
        (le 1 i.val ++ le 1 (bits (s.cfg (oTampInputCfg i.val)) 2 1))
        (some (11, le 1 i.val ++ le 1 (bits (s.cfg (oTampInputCfg i.val)) 2 1)))
        (s.setTamper (fun t => { t with tamp := t.tamp.set i.val y })).discSet calm logs room free
      rw [restartIfDue_none ((congrArg Tamper.restartDue tamper).trans due)] at answer
      refine ⟨_, e, answer, (congrArg Tamper.tamp tamper :), (congrArg Tamper.buf tamper :), source, time, lc, fun marks => ?_,
        ((State.setTamper_only (.refl 344457216 s) rfl).trans frame).changesOnly rfl⟩
      refine (congrArg Tamper.mark tamper :).trans ?_
      exact (congrArg (s.tamper.mark || ·) marks).trans (Bool.or_true _)
  · intro s i h off
    exact if_pos off
  · intro s i h y on main sampled quiet due
    refine (execMagSample_samples on main sampled).trans (congrArg Host.Outcome.next ?_)
    split
    next becomes =>
      rw [Bool.and_eq_true, Bool.not_eq_true'] at becomes
      have none : s.cfg (oTampResponse (8 + i.val)) = 0 := by
        rcases quiet with h | h | h
        · exact absurd (becomes.1.symm.trans h) Bool.noConfusion
        · exact absurd (becomes.2.symm.trans h) Bool.noConfusion
        · exact h
      rw [detect_off (by exact none)]
      exact restartIfDue_none due
    next => rfl
  · intro s mc vbat inside alarm
    refine (if_pos vbat).trans (congrArg Host.Outcome.next ((if_neg ?_).trans (if_pos ?_)))
    · exact Bool.not_eq_true _ ▸ inside
    · exact congrArg (!·) alarm
  · intro s mc vbat outside run
    refine (if_pos vbat).trans (congrArg Host.Outcome.next ((if_pos outside).trans ((if_neg ?_).trans ?_)))
    · show ¬ 2 ≤ s.tamper.tempRun + 1
      omega
    · show ({ s with cal := _, tamper := { s.tamper with tempRun := s.tamper.tempRun + 1, tempIn := none } } : State) = _
      rw [run]
      rfl
  · intro s mc main
    have answer : execOscSensorReading mc s = .next (if s.powered ∧ !s.cfgB oHkRun then s.urgent .tamperTemp else s) :=
      if_neg (by simp [main])
    refine ⟨_, answer, fun asks => ?_, fun idle => if_neg ?_,
      Only.changesOnly (m := 40) (only_ite (fun _ => State.urgent_only (.refl _ s) rfl) fun _ => .refl _ s) rfl⟩
    · rw [if_pos ⟨asks.1, by rw [asks.2]; rfl⟩]
      exact urgent_pendTamper (temp := true) rfl
    · rintro ⟨powered, stopped⟩
      rcases idle with h | h
      · simp [h] at powered
      · simp [h] at stopped

end

section
/-! PROOFS. The tamper log, TAMPER_RELEASE and the life-cycle command (R375, R380, R384-R386). -/
namespace Sys2Proof.Machine

variable {s t u : State}

@[simp] theorem State.scStep_pwr {s : State} {k : Nat} : (s.scStep k).pwr = s.pwr :=
  (State.scStep_only (.refl 2097152 s) rfl).pwr rfl
@[simp] theorem State.nvmWrite_pwr {s : State} {a : Nat} {b : Bytes} : (s.nvmWrite a b).pwr = s.pwr :=
  (State.nvmWrite_only (.refl 2097152 s) rfl).pwr rfl
@[simp] theorem State.logPut_pwr {s : State} {a1 : _} {a2 : _} {a3 : _} : (s.logPut a1 a2 a3).pwr = s.pwr :=
  (State.logPut_only (.refl 8388608 s) rfl).pwr rfl
@[simp] theorem State.drainEvent_pwr {s : State} {a1 : _} {a2 : _} {a3 : _} : (s.drainEvent a1 a2 a3).pwr = s.pwr :=
  (State.drainEvent_only (.refl 8388608 s) rfl).pwr rfl
@[simp] theorem State.wRelease_ports {s : State} {a1 : _} : (s.wRelease a1).ports = s.ports :=
  (State.wRelease_only (.refl 2148007936 s) rfl).ports rfl
@[simp] theorem State.wKeyReturn_ports {s : State} {b : Bytes} : (s.wKeyReturn b).ports = s.ports :=
  (State.wKeyReturn_only (.refl 2281701376 s) rfl).ports rfl
@[simp] theorem State.drainEntry_pwr {s : State} {a1 : _} : (s.drainEntry a1).pwr = s.pwr :=
  (State.drainEntry_only (.refl 77594624 s) rfl).pwr rfl
@[simp] theorem State.drainEntry_pp {s : State} {a1 : _} : (s.drainEntry a1).pp = s.pp :=
  (State.drainEntry_only (.refl 77594624 s) rfl).pp rfl
@[simp] theorem State.drainEntry_life {s : State} {a1 : _} : (s.drainEntry a1).life = s.life :=
  (State.drainEntry_only (.refl 77594624 s) rfl).life rfl
@[simp] theorem State.drainEntry_ans {s : State} {a1 : _} : (s.drainEntry a1).ans = s.ans :=
  (State.drainEntry_only (.refl 77594624 s) rfl).ans rfl
@[simp] theorem State.drainOne_pwr {s : State} : (s.drainOne).pwr = s.pwr :=
  (State.drainOne_only (.refl 77594624 s) rfl).pwr rfl
@[simp] theorem State.drainOne_pp {s : State} : (s.drainOne).pp = s.pp :=
  (State.drainOne_only (.refl 77594624 s) rfl).pp rfl
@[simp] theorem State.drainOne_life {s : State} : (s.drainOne).life = s.life :=
  (State.drainOne_only (.refl 77594624 s) rfl).life rfl
@[simp] theorem State.drainOne_ans {s : State} : (s.drainOne).ans = s.ans :=
  (State.drainOne_only (.refl 77594624 s) rfl).ans rfl
@[simp] theorem State.drainEvent_tamper {s : State} {a1 : _} {a2 : _} {a3 : _} : (s.drainEvent a1 a2 a3).tamper = s.tamper :=
  (State.drainEvent_only (.refl 8388608 s) rfl).tamper rfl
@[simp] theorem State.logPut_tamper {s : State} {a1 : _} {a2 : _} {a3 : _} : (s.logPut a1 a2 a3).tamper = s.tamper :=
  (State.logPut_only (.refl 8388608 s) rfl).tamper rfl
@[simp] theorem State.scStep_tamper {s : State} {k : Nat} : (s.scStep k).tamper = s.tamper :=
  (State.scStep_only (.refl 2097152 s) rfl).tamper rfl
@[simp] theorem State.nvmWrite_tamper {s : State} {a : Nat} {b : Bytes} : (s.nvmWrite a b).tamper = s.tamper :=
  (State.nvmWrite_only (.refl 2097152 s) rfl).tamper rfl
@[simp] theorem State.emergency_life {s : State} {a1 : _} {a2 : _} : (s.emergency a1 a2).life = s.life :=
  (State.emergency_only (.refl 385612985 s) rfl).life rfl
@[simp] theorem State.emergency_ans {s : State} {a1 : _} {a2 : _} : (s.emergency a1 a2).ans = s.ans :=
  (State.emergency_only (.refl 385612985 s) rfl).ans rfl
@[simp] theorem State.restartIfDue_life {s : State} : (s.restartIfDue).life = s.life :=
  (State.restartIfDue_only (.refl 385612985 s) rfl).life rfl
@[simp] theorem State.restartIfDue_ans {s : State} : (s.restartIfDue).ans = s.ans :=
  (State.restartIfDue_only (.refl 385612985 s) rfl).ans rfl
@[simp] theorem State.tamperDisc_pwr {s : State} {a1 : _} {a2 : _} : (s.tamperDisc a1 a2).pwr = s.pwr :=
  (State.tamperDisc_only (.refl 524288 s) rfl).pwr rfl
@[simp] theorem State.respond_pwr {s : State} {a1 : _} {a2 : _} {a3 : _} {a4 : _} {a5 : _} {a6 : _} : (s.respond a1 a2 a3 a4 a5 a6).pwr = s.pwr :=
  (State.respond_only (.refl 378011648 s) rfl).pwr rfl
@[simp] theorem State.tariffUsed_tamper {s : State} {a1 : _} {a2 : _} : (s.tariffUsed a1 a2).tamper = s.tamper :=
  (State.tariffUsed_only (.refl 8912896 s) rfl).tamper rfl
@[simp] theorem State.tariffUsed_pwr {s : State} {a1 : _} {a2 : _} : (s.tariffUsed a1 a2).pwr = s.pwr :=
  (State.tariffUsed_only (.refl 8912896 s) rfl).pwr rfl
@[simp] theorem State.levels_pwr {s : State} {a1 : _} {a2 : _} : (s.levels a1 a2).pwr = s.pwr :=
  (State.levels_only (.refl 11010048 s) rfl).pwr rfl
@[simp] theorem State.setCredit_tamper {s : State} {a1 : _} {a2 : _} : (s.setCredit a1 a2).tamper = s.tamper :=
  (State.setCredit_only (.refl 2621440 s) rfl).tamper rfl
@[simp] theorem State.setCredit_pwr {s : State} {a1 : _} {a2 : _} : (s.setCredit a1 a2).pwr = s.pwr :=
  (State.setCredit_only (.refl 2621440 s) rfl).pwr rfl
@[simp] theorem State.pushEntry_pp {s : State} {a1 : _} : (s.pushEntry a1).pp = s.pp :=
  (State.pushEntry_only (.refl 67108864 s) rfl).pp rfl

/-! ### The keys stay wiped through the emergency order -/

/-- A tripped device without a restart due whose secure SRAM holds no key. -/
structure Wiped (s : State) : Prop where
  device  : s.pp.keyDevice = none
  keys    : s.pp.keys = []
  due     : s.tamper.restartDue = none
  tripped : s.pwr.tripped = true

/-- Whatever leaves the book of the prepayment, the tamper unit and the power unit leaves the keys wiped. -/
theorem Wiped.congr (h : Wiped s) (pp : t.pp.book = s.pp.book) (tamper : t.tamper.restartDue = s.tamper.restartDue)
    (pwr : t.pwr = s.pwr) : Wiped t where
  device := (congrArg Pp.keyDevice pp :).trans h.device
  keys := (congrArg Pp.keys pp :).trans h.keys
  due := tamper.trans h.due
  tripped := (congrArg Pwr.tripped pwr).trans h.tripped

theorem Wiped.of_only {m : Nat} (h : Wiped s) (frame : Only m s t) (hm : m &&& 0x4480000 = 0) : Wiped t :=
  h.congr (congrArg Pp.book (frame.pp (testBit_of_disjoint hm rfl)))
    (congrArg Tamper.restartDue (frame.tamper (testBit_of_disjoint hm rfl))) (frame.pwr (testBit_of_disjoint hm rfl))

theorem Wiped.foldl {α : Type} {f : State → α → State} (hf : ∀ u x, Wiped u → Wiped (f u x)) (l : List α) (h : Wiped s) :
    Wiped (l.foldl f s) := by
  induction l generalizing s with
  | nil => exact h
  | cons x l ih => exact ih (hf s x h)

theorem Wiped.ite {c : Prop} [Decidable c] (h : Wiped t) (k : Wiped u) : Wiped (if c then t else u) := by
  split
  · exact h
  · exact k

theorem queueOpen_book (a : Nat) : (s.queueOpen a).pp.book = s.pp.book := (Levelled.queueOpen (e := id) (a := a)).book

theorem tamperDisc_book (accts : List Nat) (code : Nat) : (s.tamperDisc accts code).pp.book = s.pp.book := by
  unfold State.tamperDisc
  refine foldl_field (fun u => u.pp.book) (fun u a => ?_) _ _
  dsimp only
  split
  · rfl
  · rw [queueOpen_book]
    rfl

theorem Wiped.zeroize (h : Wiped s) : Wiped s.zeroize := by
  have stays : s.zeroize = s.wipe.setTamper (fun t => { t with zeroized := true, zeroNow := true }) :=
    if_pos (.inr h.tripped)
  rw [stays]
  exact ⟨rfl, rfl, h.due, h.tripped⟩

theorem Wiped.respond (code sev resp : Nat) (data : Bytes) (ev : Option (Nat × Bytes)) (accts : List Nat) (h : Wiped s) :
    Wiped (s.respond code sev resp data ev accts) := by
  unfold State.respond
  extract_lets t lc vbat zero u quiet wantEv late held hold within folded taken e logged told disc
  have zeroized : Wiped u := .ite h.zeroize h
  have entered : Wiped logged := by
    refine .ite zeroized (.ite (zeroized.congr rfl rfl rfl) (zeroized.congr rfl ?_ rfl))
    exact pushEntry_restartDue u e
  have telling : Wiped told := by
    simp only [told]
    split
    · exact .ite (entered.of_only (State.raise_only (.refl 8388608 _) rfl) rfl) entered
    · exact entered
  have disconnects : Wiped disc := .ite (.ite (telling.congr rfl rfl rfl)
    (telling.congr (tamperDisc_book _ _) (congrArg Tamper.restartDue State.tamperDisc_tamper) State.tamperDisc_pwr)) telling
  exact .ite ((disconnects.congr rfl rfl rfl : Wiped (disc.setTamper (fun t => { t with mark := true }))).of_only
    (State.selvTarget_only (.refl 268435456 _) rfl) rfl) disconnects

theorem Wiped.detect (i code : Nat) (data : Bytes) (ev : Option (Nat × Bytes)) (scope : List Nat) (h : Wiped s) :
    Wiped (s.detect i code data ev scope) :=
  .ite h (h.respond ..)

theorem Wiped.plausCheck {e : State} (a k slots : Nat) (holds : Bool) (h : Wiped s) : Wiped (s.plausCheck e a k holds slots) := by
  have put : ∀ p : Plaus, Wiped (s.setAcct a (fun x => { x with plaus := x.plaus.set k p })) := fun p => h.congr rfl rfl rfl
  have told : ∀ (p : Plaus) (d : Bytes), Wiped ((s.setAcct a (fun x => { x with plaus := x.plaus.set k p })).raise 39 d) :=
    fun p d => (put p).of_only (State.raise_only (.refl 8388608 _) rfl) rfl
  unfold State.plausCheck
  refine .ite (.ite (told _ _) (put _)) (.ite (.ite ?_ (told _ _)) (put _))
  exact Wiped.detect _ _ _ _ _ (told _ _)

theorem Wiped.rmsxPublish {e : State} {st : Stitch} {b0 b1 : Boundary} {c : Cyc} {chs : List RmsRes} {pl : List Bool}
    {slots : List Nat} {lead : Option LeaderRes} (h : Wiped s) : Wiped (s.rmsxPublish e st b0 b1 c chs pl slots lead) := by
  unfold State.rmsxPublish
  extract_lets g led flg n chans
  have leads : Wiped led := by
    simp only [led]
    cases lead with
    | none => exact .ite (h.congr rfl rfl rfl) h
    | some r => exact h.of_only (State.pqCycle_only (.refl 10543104 _) rfl) rfl
  have results : Wiped chans := Wiped.foldl (fun u x hu => by
    extract_lets
    exact .ite hu (hu.congr rfl rfl rfl)) _ leads
  have checked : Wiped (chans.plausCycle e st.num pl slots) :=
    .ite results (Wiped.foldl (fun u k hu => hu.plausCheck ..) _ results)
  exact checked.congr rfl rfl rfl

theorem Wiped.balNarrow (g items : Nat) (h : Wiped s) : Wiped (s.balNarrow g items) :=
  h.of_only (State.balNarrow_only (.refl 131072 _) rfl) rfl

theorem Wiped.ev38 (g clr : Nat) (c : BalClose) (h : Wiped s) : Wiped (s.ev38 g clr c) :=
  h.of_only (State.ev38_only (.refl 8388608 _) rfl) rfl

theorem Wiped.balAlarm (g : Nat) (c : BalClose) (h : Wiped s) : Wiped (s.balAlarm g c).1 := by
  have set : ∀ (u : State) (f : BalGroup → BalGroup), Wiped u → Wiped (u.setBal g f) := fun _ _ hu => hu.congr rfl rfl rfl
  unfold State.balAlarm
  extract_lets x n narrowed run hold begun alarmed
  split
  · have narrow : Wiped narrowed := .ite (h.balNarrow ..) h
    split
    · exact (set _ _ narrow).ev38 ..
    · exact set _ _ narrow
  · split
    · have alarm : Wiped alarmed := ((set _ _ h).balNarrow ..).ev38 ..
      exact Wiped.detect _ _ _ _ _ (alarm.congr rfl rfl rfl)
    · exact set _ _ h

theorem Wiped.balClose (g cause : Nat) (endT : Stamp) (short : Bool) (next : Nat) (h : Wiped s) :
    Wiped (s.balClose g cause endT short next) := by
  unfold State.balClose
  extract_lets c seq record r closed log logged
  have judged : Wiped r.1 := by
    simp only [r]
    split
    · exact h.balAlarm g c
    · exact h
  have closes : Wiped closed := judged.congr rfl rfl rfl
  have logs : Wiped logged := .ite (closes.of_only (State.logPut_only (.refl 8388608 _) rfl) rfl) closes
  exact logs.congr rfl rfl rfl

theorem Wiped.balLast (g : Nat) (seq : W32) (h : Wiped s) : Wiped (s.balLast g seq) := by
  unfold State.balLast
  refine .ite ?_ h
  exact (h.balClose g 3 (s.balEarly g) false 0).congr rfl rfl rfl

theorem Wiped.balCycle {e : State} (g : Nat) (seq epoch : W32) (c : Cyc) (r : BalRes) (quality : Nat) (h : Wiped s) :
    Wiped (s.balCycle e g seq epoch c r quality) := by
  have set : ∀ (u : State) (f : BalGroup → BalGroup), Wiped u → Wiped (u.setBal g f) := fun _ _ hu => hu.congr rfl rfl rfl
  unfold State.balCycle
  extract_lets len w x changed windowed
  have window : Wiped windowed := .ite (set _ _ (.ite h (h.balClose ..))) (.ite (set _ _ h) (.ite (h.balClose ..) h))
  exact (set _ _ window).balLast g seq

theorem Wiped.publish {e : State} {st : Stitch} {b0 b1 : Boundary} {c : Cyc} {pub : Pub} {quality : Nat} (h : Wiped s) :
    Wiped (s.publish e st b0 b1 c pub quality) := by
  unfold State.publish
  extract_lets flg
  cases pub with
  | bill r => exact h.of_only (State.billPublish_only (.refl 8390656 _) rfl) rfl
  | rmsx chs pl slots lead => exact h.rmsxPublish
  | harm l => exact h.of_only (State.specAll_only (.refl 10498048 _) rfl) rfl
  | iharm l => exact h.of_only (State.specAll_only (.refl 10498048 _) rfl) rfl
  | supra r =>
    dsimp only
    refine Wiped.of_only ?_ (State.specWindow_only (.refl 10498048 _) rfl) rfl
    exact h.congr rfl rfl rfl
  | flick ch ms => exact h.of_only (State.flickPublish_only (.refl 4096 _) rfl) rfl
  | bal r => exact h.balCycle ..
  | capt ch w d => exact h.of_only (State.captPublish_only (.refl 44056576 _) rfl) rfl
  | calx ch a dc th stable own => exact h.of_only (State.calCycle_only (.refl 9437240 _) rfl) rfl
  | self => exact h.of_only (State.selfPublish_only (.refl 8 _) rfl) rfl
  | nothing => exact .ite (h.of_only (State.winSkip_only (.refl 10498048 _) rfl) rfl) h

/-! #### The adds and gates of a trip -/

theorem Wiped.debit {e : State} (a : Nat) (seq : W32) (energy : Nat) (t : Stamp) (h : Wiped s) :
    Wiped (s.debit e a seq energy t) := by
  unfold State.debit
  extract_lets tf b pid used debited blk
  have uses : Wiped used :=
    h.congr (tariffUsed_elsewhere tf).book (congrArg Tamper.restartDue State.tariffUsed_tamper) State.tariffUsed_pwr
  have debits : Wiped debited := uses.congr rfl rfl rfl
  have bands : Wiped (debited.setPrepay a (fun p => { p with band := b, blk := blk })) := debits.congr rfl rfl rfl
  exact .ite h (bands.congr (levels_figures t).book (congrArg Tamper.restartDue State.levels_tamper) State.levels_pwr)

theorem Wiped.seqAdd {e : State} (a : AddTo) (d : Nat) (seq : W32) (c : Cyc) (h : Wiped s) : Wiped (s.seqAdd e a d seq c) := by
  have discards : Wiped s.discardAdd := h.of_only (State.discardAdd_only (.refl 1024 _) rfl) rfl
  unfold State.seqAdd
  split
  · split
    · exact discards
    · refine Wiped.of_only (s := State.setNvm (State.setAcc s _) _) ?_ (State.unitsAdd_only (.refl 10551296 _) rfl) rfl
      exact h.congr rfl rfl rfl
  · split
    · exact discards
    · exact h.congr rfl rfl rfl
  · split
    · exact discards
    · refine Wiped.debit _ _ _ _ (s := State.setAcc s _) ?_
      exact h.congr rfl rfl rfl

theorem Wiped.addNext (k : Nat) (h : Wiped s) : Wiped (s.addNext k) := by
  unfold State.addNext
  split
  · exact h
  · split
    · split
      · exact h
      · exact h
      · refine Wiped.congr (s := State.seqAdd (State.setEntry s _ _) _ _ _ _ _) ?_ rfl rfl rfl
        exact Wiped.seqAdd _ _ _ _ (h.of_only (State.setEntry_only (.refl 1024 _) rfl) rfl)
    · exact h

theorem Wiped.gateAdvance (k : Nat) (h : Wiped s) : Wiped (s.gateAdvance k) := by
  have ends : ∀ (u : State) (r : Held), Wiped u → Wiped (u.finish k r) := fun u r hu =>
    hu.of_only (State.finish_only (.refl 1025 _) rfl) rfl
  unfold State.gateAdvance
  split
  · exact h
  · split
    · split
      · exact ends _ _ h
      · extract_lets e key streamed published gated
        have streams : Wiped streamed := h.of_only (State.setStream_only (.refl 1024 _) rfl) rfl
        have publishes : Wiped published := streams.publish
        have gates : Wiped gated := .ite (publishes.of_only (State.unitsGate_only (.refl 10551296 _) rfl) rfl) publishes
        exact .ite (ends _ _ h) (ends _ _ gates)
    · exact h

theorem Wiped.commitAll (h : Wiped s) : Wiped s.commitAll := by
  refine Wiped.foldl (fun u k hu => ?_) _ h
  unfold State.commitOne
  split
  · exact hu
  · split
    · exact .ite ((Wiped.foldl (fun v _ hv => hv.addNext k) _ hu).gateAdvance k) hu
    · exact hu

/-- The emergency order loads no key and makes no further restart due. -/
theorem emergency_wiped (device : s.pp.keyDevice = none) (keys : s.pp.keys = []) (due : s.tamper.restartDue = none)
    (src cause : Nat) : (s.emergency src cause).pp.keyDevice = none ∧
    (s.emergency src cause).pp.keys = [] ∧ (s.emergency src cause).tamper.restartDue = none := by
  unfold State.emergency
  split
  · exact ⟨device, keys, due⟩
  · extract_lets t unstopped metering told recorded tripped halted committed truncated cut idle dropped
    have told_pp : told.pp = s.pp := State.raise_pp
    have told_tamper : told.tamper = unstopped.tamper := State.raise_tamper
    have recorded_pp : recorded.pp = told.pp := (State.outageOpen_only (.refl 4194304 _) rfl).pp rfl
    have recorded_tamper : recorded.tamper = told.tamper := (State.outageOpen_only (.refl 4194304 _) rfl).tamper rfl
    have pp : tripped.pp = s.pp := recorded_pp.trans told_pp
    have restart : tripped.tamper.restartDue = s.tamper.restartDue :=
      (congrArg Tamper.restartDue (recorded_tamper.trans told_tamper) :)
    have trips : Wiped tripped :=
      ⟨(congrArg Pp.keyDevice pp).trans device, (congrArg Pp.keys pp).trans keys, restart.trans due, rfl⟩
    clear_value tripped
    have halts : Wiped halted := trips.congr rfl rfl rfl
    have commits : Wiped committed := (halts.of_only (State.dispAbandon_only (.refl 276824064 _) rfl) rfl).commitAll
    clear_value committed
    have truncates : Wiped truncated := commits.of_only (State.pqTruncate_only (.refl 10493952 _) rfl) rfl
    clear_value truncated
    have cuts : Wiped cut := by
      refine Wiped.congr (s := truncated.outputsOff) ?_ rfl rfl rfl
      exact truncates.of_only (State.outputsOff_only (.refl 65664 _) rfl) rfl
    clear_value cut
    have idles : Wiped idle := cuts.of_only (State.setHk_only (.refl 32 _) rfl) rfl
    clear_value idle
    have drops : Wiped dropped := by
      refine Wiped.of_only ?_ (State.holdDrop_only (.refl 1 _) rfl) rfl
      exact idles.congr rfl rfl rfl
    clear_value dropped
    split
    · exact ⟨drops.device, drops.keys, drops.due⟩
    · exact ⟨drops.device, drops.keys, drops.due⟩

/-! ### LC_COMMAND -/

/-- An allowed write's checks hand it on (R44). -/
theorem checked_takes {r : Req} {i j : Nat} {b : Bytes} {F : State → State} (allowed : s.allows r i j b = true) :
    s.checked r i j b (fun s _ _ => F s) = F (s.ownerWrote r.cls) := by
  unfold State.allows at allowed
  unfold State.checked
  cases e : s.checkWrite r.cls i j b with
  | ok x => rfl
  | error x =>
    rw [e, Bool.and_eq_true] at allowed
    exact absurd allowed.2 Bool.noConfusion

/-- What an allowed LC_COMMAND comes to before its restart: past the rights, it draws a new nonce (R384). -/
theorem lcWrite_takes {r : Req} {b : Bytes} (allowed : s.allows r 0x8100 2 b = true)
    (past : ((s.ownerWrote r.cls).wLifeCycle b).ans.status ≠ stRights) :
    s.lcWrite r b = { (s.ownerWrote r.cls).wLifeCycle b with
      life := { ((s.ownerWrote r.cls).wLifeCycle b).life with nonce := ((s.ownerWrote r.cls).wLifeCycle b).life.nonce + 1 } } := by
  unfold State.lcWrite
  rw [checked_takes (F := fun s => s.wLifeCycle b) allowed]
  exact if_neg past

theorem lcFinish_idle (h : s.tamper.restartDue ≠ some 4) : s.lcFinish = s := if_neg h

/-- An LC_COMMAND that its own checks refuse is answered and draws a new nonce. -/
theorem execLcCommand_refuses {r : Req} {b : Bytes} {st : Nat} (allowed : s.allows r 0x8100 2 b = true)
    (due : s.tamper.restartDue = none) (refused : (s.ownerWrote r.cls).wLifeCycle b = (s.ownerWrote r.cls).answer st)
    (past : st ≠ stRights) : ∃ t, execLcCommand r b s = .next t ∧ t.ans = { status := st } ∧
      t.life = { s.life with nonce := s.life.nonce + 1 } ∧ changesOnly [.cal, .evt, .ports, .life, .ans] s t := by
  have written := lcWrite_takes allowed (by rw [refused]; exact past)
  rw [refused] at written
  have idle : (s.lcWrite r b).ports.fWait = [] := by
    rw [written]
    exact (congrArg Ports.fWait State.ownerWrote_ports).trans (fWait_of_allows allowed)
  have serves := (Bool.and_eq_true_iff.mp allowed).1
  have delivered := request_delivered (f := fun s => s.lcWrite r b) serves idle
  have frame : Only 2307915776 s (s.request r 2 0x8100 2 b (fun s => s.lcWrite r b)) := by
    refine (?_ : Only 2307915776 s (s.lcWrite r b)).trans (delivered.only.mono rfl)
    rw [written]
    exact only_set_life (State.answer_only (State.ownerWrote_only (.refl _ s) rfl) rfl) (.of rfl rfl) rfl
  have quiet : (s.request r 2 0x8100 2 b (fun s => s.lcWrite r b)).tamper.restartDue ≠ some 4 := by
    rw [frame.tamper rfl, due]
    exact (Option.some_ne_none 4).symm
  refine ⟨_, congrArg Host.Outcome.next (lcFinish_idle quiet), ?_, ?_, frame.changesOnly rfl⟩
  · rw [delivered.ans, written]
    rfl
  · rw [delivered.only.life rfl, written]
    show ({ (s.ownerWrote r.cls).life with nonce := (s.ownerWrote r.cls).life.nonce + 1 } : Life) = _
    rw [State.ownerWrote_life]

/-! #### The accepted command -/

/-- What a drain leaves of the tamper unit: the restart that is due and the clock tree (R380). -/
def Tamper.restart (t : Tamper) : Option Nat × Bool := (t.restartDue, t.stopped)

theorem drainEntry_restart (e : LogEntry) : (s.drainEntry e).tamper.restart = s.tamper.restart := by
  unfold State.drainEntry
  extract_lets b written logged zeroized evented
  have w : written.tamper.restart = s.tamper.restart := by
    simp only [written, apply_ite State.tamper, State.setTamper_tamper, State.scStep_tamper, State.nvmWrite_tamper]
    split
    · rfl
    · split <;> rfl
  have l : logged.tamper = written.tamper := State.logPut_tamper
  have z : zeroized.tamper = logged.tamper := by
    simp only [zeroized, apply_ite State.tamper, State.drainEvent_tamper, State.scStep_tamper, ite_self]
  have v : evented.tamper = zeroized.tamper := by
    simp only [evented]
    cases e.evData with
    | none => rfl
    | some d => exact State.drainEvent_tamper
  rw [← w, ← l, ← z, ← v]
  rfl

theorem drainOne_restart : s.drainOne.tamper.restart = s.tamper.restart := by
  unfold State.drainOne
  split
  · rfl
  · extract_lets n told
    have t : told.tamper.restart = s.tamper.restart := by
      simp only [told]
      split
      · rfl
      · exact drainEntry_restart _
    refine (drainEntry_restart (s := told) _).trans t

/-- A device that runs takes a restart that is due as an emergency order. -/
theorem restartIfDue_restarts {c : Nat} (due : s.tamper.restartDue = some c) (powered : s.powered = true) : ∃ d,
    s.restartIfDue = (({ s with tamper := { s.tamper with restartDue := none } } : State).deferEvent 58 d s.now).emergency 5 c := by
  have supplied : s.supplied = true := (Bool.and_eq_true_iff.mp powered).1
  unfold State.restartIfDue
  rw [due]
  dsimp only
  rw [if_pos powered]
  unfold State.restartDevice
  exact ⟨_, if_neg (by rw [show (s.setTamper (fun t => { t with restartDue := none })).supplied = true from supplied]; simp)⟩

/-- The restart that ends an accepted life-cycle command (R385). -/
theorem lcFinish_restarts (due : s.tamper.restartDue = some 4) (powered : s.powered = true)
    (device : s.pp.keyDevice = none) (keys : s.pp.keys = []) : s.lcFinish.ans = s.ans ∧ s.lcFinish.life = s.life ∧
    s.lcFinish.pp.keyDevice = none ∧ s.lcFinish.pp.keys = [] ∧ s.lcFinish.tamper.restartDue = none ∧
    s.lcFinish.pwr.source = 5 ∧ s.lcFinish.pwr.nextCause = 4 := by
  have finish : s.lcFinish = (if s.mayDrain then (List.range s.tamper.buf.length).foldl (fun s _ => s.drainOne) s else s).restartIfDue :=
    if_pos due
  rw [finish]
  have drained : ∀ {α : Type} (g : State → α), (∀ u : State, g u.drainOne = g u) →
      g (if s.mayDrain then (List.range s.tamper.buf.length).foldl (fun s _ => s.drainOne) s else s) = g s := by
    intro α g hg
    split
    · exact foldl_field g (fun u _ => hg u) _ _
    · rfl
  have ans := drained State.ans fun _ => State.drainOne_ans
  have life := drained State.life fun _ => State.drainOne_life
  have pp := drained State.pp fun _ => State.drainOne_pp
  have pwr := drained State.pwr fun _ => State.drainOne_pwr
  have restart := drained (fun u => u.tamper.restart) fun _ => drainOne_restart
  generalize (if s.mayDrain then (List.range s.tamper.buf.length).foldl (fun s _ => s.drainOne) s else s) = u at *
  have due' : u.tamper.restartDue = some 4 := (congrArg Prod.fst restart).trans due
  have running : u.powered = true := by
    have stopped : u.tamper.stopped = s.tamper.stopped := congrArg Prod.snd restart
    rw [← powered]
    unfold State.powered State.supplied
    rw [pwr, stopped]
  obtain ⟨d, order⟩ := restartIfDue_restarts due' running
  have supplied : u.supplied = true := (Bool.and_eq_true_iff.mp running).1
  have wiped := emergency_wiped (s := ({ u with tamper := { u.tamper with restartDue := none } } : State).deferEvent 58 d u.now)
    ((congrArg Pp.keyDevice pp).trans device) ((congrArg Pp.keys pp).trans keys) rfl 5 4
  obtain ⟨source, cause, -⟩ := emergency_spec
    (s := ({ u with tamper := { u.tamper with restartDue := none } } : State).deferEvent 58 d u.now) supplied 5 4
  rw [order]
  exact ⟨State.emergency_ans.trans ans, State.emergency_life.trans life, wiped.1, wiped.2.1, wiped.2.2, source, cause⟩

theorem pushEntry_restart (e : LogEntry) : (s.pushEntry e).tamper.restart = s.tamper.restart := by
  unfold State.pushEntry
  rw [State.setTamper_tamper]
  split <;> rfl

/-- A detection that is logged and raises its event leaves the restart and the clock tree. -/
theorem respond_log_event_restart (code sev : Nat) (d : Bytes) (ev : Nat × Bytes) :
    (s.respond code sev 3 d (some ev) []).tamper.restart = s.tamper.restart := by
  unfold State.respond
  extract_lets t lc vbat zero u quiet wantEv late held hold within folded taken e logged told disc
  have entered : logged.tamper.restart = s.tamper.restart := by
    show (if _ then u else if within then _ else _ : State).tamper.restart = _
    split
    · rfl
    · split
      · rfl
      · exact pushEntry_restart (s := s) e
  have telling : told.tamper = logged.tamper := by
    show (if _ then _ else logged : State).tamper = _
    rw [apply_ite State.tamper, State.raise_tamper, ite_self]
  rw [← entered, ← telling]
  rfl

/-- What an accepted command has programmed and wiped when its restart begins (R385). -/
theorem lcChange_spec (target : Nat) :
    (s.lcChange target).life.cells = s.life.cells.set (target - 1) 3 ∧ (s.lcChange target).life.nonce = s.life.nonce ∧
    (s.lcChange target).life.due = some (s.lc, target, 2) ∧ (s.lcChange target).life.keyReturn = s.life.keyReturn ∧
    (s.lcChange target).pp.keyDevice = none ∧ (s.lcChange target).pp.keys = [] ∧ (s.lcChange target).pwr = s.pwr ∧
    (s.lcChange target).tamper.restart = (some 4, s.tamper.stopped) ∧ (s.lcChange target).ports = s.ports := by
  unfold State.lcChange
  extract_lets old quiet answered responded wiped programmed
  have life : wiped.life = s.life := State.respond_life
  have restart : wiped.tamper.restart = s.tamper.restart := respond_log_event_restart (s := answered) _ _ _ _
  have pwr : wiped.pwr = s.pwr := State.respond_pwr
  have ports : wiped.ports = s.ports := (State.respond_only (.refl 378011648 answered) rfl).ports rfl
  refine ⟨?_, ?_, rfl, ?_, rfl, rfl, pwr, ?_, ports⟩
  · exact congrArg (fun l : Life => l.cells.set (target - 1) 3) life
  · exact (congrArg Life.nonce life :)
  · exact (congrArg Life.keyReturn life :)
  · exact congrArg (fun r => (some 4, r)) (congrArg Prod.snd restart)

/-- The checks of Table 14.6a passed, the command is accepted. -/
theorem wLifeCycle_accepts {b : Bytes} (live : s.lc ≠ 5) (next : fld b 8 1 = s.lc + 1 ∨ fld b 8 1 = 5)
    (free : s.restartPending = false) (serial : fld b 0 8 = Config.serialNumber.toNat) (nonce : fld b 12 4 = s.lcNonce)
    (zero : fld b 9 3 = 0) (tag : fld b 8 1 = 4 → s.tagBad b = false)
    (key : fld b 8 1 = 3 → s.life.keyReturn.isSome = true ∧ s.cal.owner = none) : s.wLifeCycle b = s.lcChange (fld b 8 1) := by
  have order : ¬ (s.lc = 5 ∨ (fld b 8 1 ≠ s.lc + 1 ∧ fld b 8 1 ≠ 5)) := by
    rintro (h | ⟨h, k⟩)
    · exact live h
    · exact next.elim h k
  have fields : ¬ (fld b 0 8 ≠ Config.serialNumber.toNat ∨ fld b 12 4 ≠ s.lcNonce ∨ fld b 9 3 ≠ 0) := by
    rintro (h | h | h)
    · exact h serial
    · exact h nonce
    · exact h zero
  have tagged : ¬ (fld b 8 1 = 4 ∧ s.tagBad b = true) := fun h => absurd (tag h.1) (by rw [h.2]; exact Bool.noConfusion)
  have keyed : ¬ (fld b 8 1 = 3 ∧ (s.life.keyReturn.isNone = true ∨ s.cal.owner.isSome = true)) := by
    rintro ⟨h, k⟩
    obtain ⟨some, none⟩ := key h
    rcases k with k | k
    · rw [Option.isNone_iff_eq_none.mp k] at some
      cases some
    · rw [none] at k
      cases k
  exact (if_neg order).trans ((if_neg (by simp [free])).trans ((if_neg fields).trans ((if_neg tagged).trans (if_neg keyed))))

/-- A request is executed by a device that runs. -/
theorem powered_of_serves {r : Req} {op i j : Nat} {b : Bytes} (h : s.serves r op i j b = true) : s.powered = true := by
  unfold State.serves State.controlAway at h
  simp only [Bool.and_eq_true, Bool.not_eq_true', Bool.or_eq_false_iff] at h
  obtain ⟨⟨⟨-, powered⟩, -⟩, -⟩ := h
  simpa using powered

/-- An accepted LC_COMMAND (R385): the cell of its target is programmed, the keys are gone, and the device restarts. -/
theorem execLcCommand_accepts {r : Req} {b : Bytes} {target : Nat} (allowed : s.allows r 0x8100 2 b = true)
    (accepted : (s.ownerWrote r.cls).wLifeCycle b = (s.ownerWrote r.cls).lcChange target) :
    ∃ t, execLcCommand r b s = .next t ∧ t.ans = { status := stOk } ∧ t.life.cells = s.life.cells.set (target - 1) 3 ∧
      t.life.nonce = s.life.nonce + 1 ∧ t.life.due = some (s.lc, target, 2) ∧ t.life.keyReturn = s.life.keyReturn ∧
      t.pp.keyDevice = none ∧ t.pp.keys = [] ∧ t.tamper.restartDue = none ∧ t.pwr.source = 5 ∧ t.pwr.nextCause = 4 := by
  obtain ⟨cells, nonce, due, keyReturn, device, keys, pwr, restart, ports⟩ := lcChange_spec (s := s.ownerWrote r.cls) target
  have ok := lcChange_ans (s.ownerWrote r.cls) target
  have written := lcWrite_takes allowed (by rw [accepted, ok]; decide)
  rw [accepted] at written
  have serves := (Bool.and_eq_true_iff.mp allowed).1
  have idle : (s.lcWrite r b).ports.fWait = [] := by
    rw [written]
    exact (congrArg Ports.fWait (ports.trans State.ownerWrote_ports)).trans (fWait_of_allows allowed)
  have delivered := request_delivered (f := fun s => s.lcWrite r b) serves idle
  have runs : execLcCommand r b s = .next (s.request r 2 0x8100 2 b (fun s => s.lcWrite r b)).lcFinish := rfl
  generalize s.request r 2 0x8100 2 b (fun s => s.lcWrite r b) = w at delivered runs
  have frame := delivered.only
  rw [written] at frame
  have wpwr : w.pwr = s.pwr := (frame.pwr rfl).trans (pwr.trans State.ownerWrote_pwr)
  have wtamper : w.tamper.restart = (some 4, s.tamper.stopped) := by
    rw [frame.tamper rfl]
    exact restart.trans (by rw [State.ownerWrote_tamper])
  have stopped : w.tamper.stopped = s.tamper.stopped := congrArg Prod.snd wtamper
  have powered : w.powered = true := by
    rw [← powered_of_serves serves]
    unfold State.powered State.supplied
    rw [wpwr, stopped]
  have wpp := frame.pp rfl
  have wlife := frame.life rfl
  obtain ⟨ans, life, device', keys', due', source, cause⟩ := lcFinish_restarts (congrArg Prod.fst wtamper) powered
    ((congrArg Pp.keyDevice wpp).trans device) ((congrArg Pp.keys wpp).trans keys)
  refine ⟨_, runs, ?_, ?_, ?_, ?_, ?_, device', keys', due', source, cause⟩
  · rw [ans, delivered.ans, written]
    exact ok
  · rw [life, wlife]
    exact cells.trans (by rw [State.ownerWrote_life])
  · rw [life, wlife]
    exact congrArg (· + 1) (nonce.trans (by rw [State.ownerWrote_life]))
  · rw [life, wlife]
    refine due.trans ?_
    unfold State.lc
    rw [State.ownerWrote_life]
  · rw [life, wlife]
    exact keyReturn.trans (by rw [State.ownerWrote_life])

/-! ### The drain of one entry -/

theorem raiseAt_pending (n : Nat) (d : Bytes) (at_ : Stamp) (c : Nat) :
    (s.raiseAt n d at_ c).evt.pending = s.evt.pending.set n true := by
  unfold State.raiseAt
  extract_lets u
  split
  · rw [eventEntry_ringsOnly]
    rfl
  · split <;> rfl

/-- A drained entry goes to the log once and gives its event (R380). -/
theorem drainEntry_spec (e : LogEntry) : (s.drainEntry e).tamper.lastEntry = e.bytes ∧
    (e.bytes ≠ s.tamper.lastSlot → s.scVal 1 < 4096 → (s.drainEntry e).tamper.lastSlot = e.bytes) ∧
    (e.evData.isSome = true → s.pwr.metering = true → KMap.get (s.drainEntry e).evt.pending e.event = true) := by
  unfold State.drainEntry
  extract_lets b written logged zeroized evented
  have z : zeroized.tamper = written.tamper := by
    have l : logged.tamper = written.tamper := State.logPut_tamper
    simp only [zeroized, apply_ite State.tamper, State.drainEvent_tamper, State.scStep_tamper, l, ite_self]
  have v : evented.tamper = zeroized.tamper := by
    simp only [evented]
    cases e.evData with
    | none => rfl
    | some d => exact State.drainEvent_tamper
  have pwr : zeroized.pwr = s.pwr := by
    have w : written.pwr = s.pwr := by
      simp only [written, apply_ite State.pwr, State.scStep_pwr, State.setTamper_pwr, State.nvmWrite_pwr, ite_self]
    have l : logged.pwr = written.pwr := State.logPut_pwr
    simp only [zeroized, apply_ite State.pwr, State.drainEvent_pwr, State.scStep_pwr, l, w, ite_self]
  refine ⟨rfl, fun new room => ?_, fun waits metering => ?_⟩
  · refine (congrArg Tamper.lastSlot (v.trans z) :).trans ?_
    simp only [written, b, if_neg new, if_pos room]
    rfl
  · obtain ⟨d, data⟩ := Option.isSome_iff_exists.mp waits
    have raised : evented = zeroized.raiseAt e.event d e.time 1 := by
      simp only [evented, data]
      exact if_pos (by rw [pwr]; exact metering)
    show KMap.get evented.evt.pending e.event = true
    rw [raised, raiseAt_pending]
    exact (KMap.get_set_of_ne Bool.noConfusion _).trans (if_pos rfl)

/-! ### TAMPER_RELEASE -/

/-- The write of an owner leaves all but the calibration unit. -/
theorem ownerWrote_eq (q : Cls) : ∃ x, s.ownerWrote q = { s with cal := x } := by
  unfold State.ownerWrote
  split
  · exact ⟨_, rfl⟩
  · exact ⟨s.cal, rfl⟩

theorem heldBy_ownerWrote (q : Cls) (a : Nat) : (s.ownerWrote q).heldBy a = s.heldBy a := by
  obtain ⟨x, own⟩ := ownerWrote_eq (s := s) q
  rw [own]
  rfl

/-- What a close that is queued again may write of an account: that it waits for its arming. -/
theorem sourceCleared_acct (a : Nat) : (s.sourceCleared a).pp.acct = s.pp.acct ∨
    ∃ w, (s.sourceCleared a).pp.acct = s.pp.acct.upd a (fun p => { p with waitArm := w }) := by
  unfold State.sourceCleared State.queueClose
  extract_lets v
  split
  · exact .inl rfl
  · split
    · exact .inr ⟨true, rfl⟩
    · split
      · exact .inr ⟨false, rfl⟩
      · exact .inr ⟨false, rfl⟩

/-- A release clears the source of its account alone (R375). -/
theorem tamperFree_spec (a : Nat) : (∀ x, x ≠ a → KMap.get (s.tamperFree a).pp.acct x = KMap.get s.pp.acct x) ∧
    (KMap.wf s.pp.acct = true → (KMap.get (s.tamperFree a).pp.acct a).srcTamper = false ∧
      (KMap.get (s.tamperFree a).pp.acct a).srcCredit = (KMap.get s.pp.acct a).srcCredit) ∧
    (s.tamperFree a).pp.credit = s.pp.credit := by
  unfold State.tamperFree
  split
  case isFalse clear => exact ⟨fun _ _ => rfl, fun _ => ⟨Bool.eq_false_iff.mpr clear, rfl⟩, rfl⟩
  case isTrue =>
    generalize freed : s.setPrepay a (fun p => { p with srcTamper := false, tamperBy := [] }) = u
    have acct : u.pp.acct = s.pp.acct.upd a (fun p => { p with srcTamper := false, tamperBy := [] }) := by rw [← freed]; rfl
    have other : ∀ x, x ≠ a → KMap.get u.pp.acct x = KMap.get s.pp.acct x := fun x hx => by
      rw [acct]
      exact get_set_other hx
    have own : KMap.wf s.pp.acct = true → KMap.wf u.pp.acct = true ∧
        KMap.get u.pp.acct a = { KMap.get s.pp.acct a with srcTamper := false, tamperBy := [] } := fun wf => by
      rw [acct]
      exact ⟨KMap.upd_wf wf _ _, (KMap.get_upd wf _ _ _).trans (if_pos rfl)⟩
    refine ⟨fun x hx => ?_, fun wf => ?_, ?_⟩
    · rcases sourceCleared_acct (s := u) a with h | ⟨w, h⟩
      · rw [h, other x hx]
      · rw [h, KMap.upd, get_set_other hx, other x hx]
    · obtain ⟨wf', line⟩ := own wf
      rcases sourceCleared_acct (s := u) a with h | ⟨w, h⟩
      · rw [h, line]
        exact ⟨rfl, rfl⟩
      · rw [h, KMap.get_upd wf', if_pos rfl, line]
        exact ⟨rfl, rfl⟩
    · rw [sourceCleared_credit, ← freed]
      rfl

theorem wRelease_refuses {v : Nat} (h : (240 ≤ v ∧ v ≠ 0xFFFF) ∨ (v < 240 ∧ s.heldBy v = true) ∨
    (v = 0xFFFF ∧ ∃ a, a < 240 ∧ s.heldBy a = true)) : s.wRelease v = s.answer stRange := by
  unfold State.wRelease
  extract_lets l
  rcases h with range | ⟨low, held⟩ | ⟨all, a, low, held⟩
  · exact if_pos range
  · rw [if_neg (by omega), if_pos]
    simp [l, show v ≠ 0xFFFF by omega, held]
  · rw [if_neg (by omega), if_pos]
    simp only [l, all, if_true, List.any_eq_true]
    exact ⟨a, List.mem_range.mpr low, held⟩

theorem wRelease_releases {a : Nat} (low : a < 240) (free : s.heldBy a = false) :
    s.wRelease a = (s.tamperFree a).answer stOk := by
  unfold State.wRelease
  extract_lets l
  have one : l = [a] := if_neg (by omega)
  rw [if_neg (by omega), one, if_neg (by simp [free])]
  rfl

end Sys2Proof.Machine

open Sys2Proof Sys2Proof.Machine

/-- Settles O23: the drain and the release act on one entry and one account; the life-cycle command by its checks in order. -/
theorem tamperLogAndLifeCycle : Obligations.TamperLogAndLifeCycle := by
  unfold Obligations.TamperLogAndLifeCycle
  refine ⟨fun s h => ?_, fun s e rest drains buf unlost => ?_, fun s r b allowed => ?_, ?_, ?_⟩
  · refine congrArg Host.Outcome.next ?_
    split
    next drains =>
      have empty : s.tamper.buf = [] := h.resolve_left (by rw [drains]; exact Bool.noConfusion)
      unfold State.drainOne
      rw [empty]
    next => rfl
  · have one : s.drainOne = (s.drainEntry e).setTamper (fun t => { t with buf := rest }) := by
      unfold State.drainOne
      rw [buf]
      dsimp only
      rw [if_pos unlost]
    obtain ⟨lastEntry, lastSlot, event⟩ := drainEntry_spec (s := s) e
    refine ⟨_, congrArg Host.Outcome.next ((if_pos drains).trans one), rfl, lastEntry, lastSlot, event,
      (State.setTamper_only (State.drainEntry_only (.refl 77594624 s) rfl) rfl).changesOnly rfl⟩
  · have delivered := writeReq_delivers (F := State.wRelease) allowed fun _ _ => State.wRelease_ports
    refine ⟨fun held => ⟨_, rfl, ?_⟩, fun a target low free => ⟨_, rfl, ?_⟩⟩
    · rw [← wRelease_refuses (s := s.ownerWrote r.cls) (v := ofLe b) (by simpa only [heldBy_ownerWrote] using held)]
      exact delivered
    · rw [target, wRelease_releases low ((heldBy_ownerWrote _ _).trans free)] at delivered
      have pp : (s.ownerWrote r.cls).pp = s.pp := State.ownerWrote_pp
      obtain ⟨other, own, credit⟩ := tamperFree_spec (s := s.ownerWrote r.cls) a
      have written := delivered.only.pp rfl
      rw [pp] at other own credit
      have frame := delivered.requestOnly (m := 2174222336) (State.answer_only (State.tamperFree_only (.refl _ _) rfl) rfl) rfl rfl
      refine ⟨delivered.ans, ?_, ?_, ?_, frame.changesOnly rfl⟩
      · rw [written]
        exact other
      · rw [written]
        exact own
      · rw [written]
        exact credit
  · intro s r b tgt allowed target due
    obtain ⟨x, own⟩ := ownerWrote_eq (s := s) r.cls
    have owner : x.owner = s.cal.owner := by rw [← ownerWrote_owner r.cls, own]
    subst target
    refine ⟨fun wrong => ?_, fun live next running => ?_⟩
    · exact execLcCommand_refuses allowed due (by rw [own]; exact if_pos wrong) (by decide)
    · have free : (s.ownerWrote r.cls).restartPending = false := by
        rw [own]
        show (s.tamper.restartDue.isSome || s.tamper.stopped) = false
        rw [due, running]
        rfl
      refine ⟨fun wrong => ?_, fun serial nonce zero tag key => ?_⟩
      · refine execLcCommand_refuses allowed due ?_ (by decide)
        have order : ¬ (s.lc = 5 ∨ (fld b 8 1 ≠ s.lc + 1 ∧ fld b 8 1 ≠ 5)) := by
          rintro (h | ⟨h, k⟩)
          · exact live h
          · exact next.elim h k
        have busy : ¬ (s.ownerWrote r.cls).restartPending = true := by simp [free]
        rw [own] at busy ⊢
        exact (if_neg order).trans ((if_neg busy).trans (if_pos wrong))
      · refine execLcCommand_accepts allowed ?_
        rw [own] at free ⊢
        exact wLifeCycle_accepts live next free serial nonce zero tag fun h => ⟨(key h).1, owner.trans (key h).2⟩
  · intro s r b allowed
    have delivered := writeReq_delivers (F := fun s _ => s.wKeyReturn b) allowed fun _ _ => State.wKeyReturn_ports
    have life : (s.ownerWrote r.cls).life = s.life := State.ownerWrote_life
    refine ⟨_, rfl, fun set => ?_, fun unset => ?_⟩
    · rw [← (if_pos (by rw [life]; exact set) : (s.ownerWrote r.cls).wKeyReturn b = _)]
      exact delivered
    · have programmed : (s.ownerWrote r.cls).wKeyReturn b =
          ({ s.ownerWrote r.cls with life := { s.life with keyReturn := some b } }).answer stOk := by
        rw [← life]
        exact if_neg (by rw [life, unset]; exact Bool.noConfusion)
      rw [← programmed]
      exact delivered

end

section
/-! PROOFS. The watchdog (R13, R450): its second expiry before the METERING point leaves no trip in force. -/
namespace Sys2Proof.Machine

variable {s : State}

@[simp] theorem State.trialFails_pwr {s : State} {a1 : _} : (s.trialFails a1).pwr = s.pwr :=
  (State.trialFails_only (.refl 1622147641 s) rfl).pwr rfl

/-- A whole-device restart before the METERING point gates the islands at once (R12, R342). -/
theorem restartDevice_early_tripped (supplied : s.supplied = true) (early : s.pwr.metering = false) (cause : Nat) :
    (s.restartDevice cause).pwr.tripped = false := by
  unfold State.restartDevice
  rw [if_neg (by simp [supplied])]
  refine emergency_early_tripped ?_ ?_ _ _
  · exact supplied
  · exact early

/-- The second expiry within 600 s, before the METERING point. -/
theorem execWatchdogExpiry_early {c : Nat} (serves : s.controlAway = false) (expired : s.isl.dogAt = some c)
    (soon : s.clock.clk < c + 600 * 1000 * clkMs) (early : s.pwr.metering = false) :
    ∃ t, execWatchdogExpiry s = .next t ∧ t.pwr.tripped = false := by
  have supplied : s.supplied = true := by
    simp only [State.controlAway, State.powered, Bool.or_eq_false_iff, Bool.not_eq_false', Bool.and_eq_true] at serves
    exact serves.2.1
  unfold execWatchdogExpiry
  rw [if_neg (by simp [serves]), expired]
  dsimp only
  rw [if_pos (decide_eq_true soon)]
  refine ⟨_, rfl, ?_⟩
  generalize waits : (State.deferEvent _ 62 _ _).trialFails 3 = u
  have pwr : u.pwr = s.pwr := by
    rw [← waits, State.trialFails_pwr]
    rfl
  have still : u.supplied = s.supplied := by
    unfold State.supplied
    rw [pwr]
  exact restartDevice_early_tripped (still.trans supplied) ((congrArg Pwr.metering pwr).trans early) 3

/-- A cast-on under way whose control island serves, and whose watchdog has expired once. -/
def State.castOnExpired : State :=
  { State.reset with
    pwr := { good := true, mode := .castOn }
    isl := { State.reset.isl with served := true, dogAt := some 0 } }

theorem castOnExpired_serves : State.castOnExpired.controlAway = false ∧ State.castOnExpired.pwr.metering = false ∧ State.castOnExpired.upd.st ≠ .trial ∧
    State.castOnExpired.isl.dogAt = some 0 ∧ State.castOnExpired.clock.clk < 0 + 600 * 1000 * clkMs := by
  decide

end Sys2Proof.Machine

open Sys2Proof Sys2Proof.Machine

/-- Refutes O24: the clause on the second expiry claims `tripped` whenever the control island serves; before the METERING point
the restart's emergency order gates the islands at once and leaves no trip in force. -/
theorem not_islandsRestart : ¬ Obligations.IslandsRestart := by
  unfold Obligations.IslandsRestart
  rintro ⟨-, -, -, second, -⟩
  obtain ⟨serves, early, running, expired, soon⟩ := castOnExpired_serves
  obtain ⟨t, answer, -, -, -, tripped⟩ := second State.castOnExpired 0 serves running expired soon
  obtain ⟨u, ends, untripped⟩ := execWatchdogExpiry_early serves expired soon early
  obtain rfl := Host.Outcome.next.inj (answer.symm.trans ends)
  exact Bool.false_ne_true (untripped.symm.trans tripped)

end

section
/-! PROOFS. The destructive march (R304): asked for before the METERING point, its restart leaves no trip in force. -/
namespace Sys2Proof.Machine

variable {s : State}

@[simp] theorem State.wMarch_ports {s : State} {a1 : _} : (s.wMarch a1).ports = s.ports :=
  (State.wMarch_only (.refl 2533096633 s) rfl).ports rfl

/-- An allowed destructive march before the METERING point. -/
theorem execMarchDestructive_early {r : Req} {b : Bytes} (allowed : s.allows r 0xC000 0x1A b = true)
    (banks : bits (ofLe b) 15 0 ≠ 0) (mode : bit (ofLe b) 20 = true) (early : s.pwr.metering = false) :
    ∃ t, execMarchDestructive r b s = .next t ∧ t.pwr.tripped = false := by
  have delivered := writeReq_delivers (F := State.wMarch) allowed fun _ _ => State.wMarch_ports
  have restarts : (s.ownerWrote r.cls).wMarch (ofLe b) =
      { ((((s.ownerWrote r.cls).setMem (fun m => { m with destructive := some (ofLe b) })).answer stOk).restartDevice 2) with
        ans := { status := stOk } } := (if_neg banks).trans (if_pos mode)
  have supplied : s.supplied = true :=
    (Bool.and_eq_true_iff.mp (powered_of_serves (Bool.and_eq_true_iff.mp allowed).1)).1
  have own : (s.ownerWrote r.cls).pwr = s.pwr := State.ownerWrote_pwr
  have still : (s.ownerWrote r.cls).supplied = s.supplied := by
    unfold State.supplied
    rw [own]
  refine ⟨_, rfl, ?_⟩
  rw [delivered.only.pwr rfl, restarts]
  refine restartDevice_early_tripped ?_ ?_ 2
  · exact still.trans supplied
  · exact (congrArg Pwr.metering own).trans early

/-- A cast-on under way whose control island serves. -/
def State.castOnServing : State :=
  { State.reset with
    pwr := { good := true, mode := .castOn }
    isl := { State.reset.isl with served := true } }

/-- MARCH_COMMAND in the destructive mode on bank 0. -/
def destructiveMarch : Bytes := le 4 (2 ^ 20 + 1)

theorem castOnServing_allows : State.castOnServing.allows { cls := .s } 0xC000 0x1A destructiveMarch = true := by
  decide +kernel

end Sys2Proof.Machine

open Sys2Proof Sys2Proof.Machine

/-- Refutes O27: the clause on the destructive march claims `tripped` whenever the write is allowed; before the METERING point the
restart's emergency order gates the islands at once and leaves no trip in force. -/
theorem not_memoryTests : ¬ Obligations.MemoryTests := by
  unfold Obligations.MemoryTests
  rintro ⟨-, -, -, -, -, -, -, marches, -⟩
  have banks : bits (ofLe destructiveMarch) 15 0 ≠ 0 := by decide
  have mode : bit (ofLe destructiveMarch) 20 = true := by decide
  obtain ⟨-, destructive⟩ := marches State.castOnServing { cls := .s } destructiveMarch _ (.inr rfl) castOnServing_allows
  obtain ⟨t, answer, -, -, -, -, tripped⟩ := destructive banks mode
  obtain ⟨u, ends, untripped⟩ := execMarchDestructive_early castOnServing_allows banks mode rfl
  obtain rfl := Host.Outcome.next.inj (answer.symm.trans ends)
  exact Bool.false_ne_true (untripped.symm.trans tripped)

end

section
/-! PROOFS. The commands of POWER_COMMAND (R354), and the discharge of the display rails (R393, R404). -/
namespace Sys2Proof.Machine

variable {s t u : State}

@[simp] theorem State.bindGate_disp {s : State} : (s.bindGate).disp = s.disp :=
  (State.bindGate_only (.refl 6357120 s) rfl).disp rfl
@[simp] theorem State.bindGate_evt {s : State} : (s.bindGate).evt = s.evt :=
  (State.bindGate_only (.refl 6357120 s) rfl).evt rfl
@[simp] theorem State.answer_groups {s : State} {a1 : _} : (s.answer a1).groups = s.groups :=
  (State.answer_only (.refl 2147483648 s) rfl).groups rfl
@[simp] theorem State.raise_ports {s : State} {a1 : _} {a2 : _} : (s.raise a1 a2).ports = s.ports :=
  (State.raise_only (.refl 8388608 s) rfl).ports rfl
@[simp] theorem State.bindCommand_ports {s : State} {a1 : _} : (s.bindCommand a1).ports = s.ports :=
  (State.bindCommand_only (.refl 284165121 s) rfl).ports rfl
@[simp] theorem State.controlRestart_ports {s : State} {a1 : _} {a2 : _} : (s.controlRestart a1 a2).ports = s.ports :=
  (State.controlRestart_only (.refl 1622147641 s) rfl).ports rfl
@[simp] theorem State.displayRestart_ports {s : State} {a1 : _} : (s.displayRestart a1).ports = s.ports :=
  (State.displayRestart_only (.refl 276824064 s) rfl).ports rfl
@[simp] theorem State.bindStart_dict {s : State} {a1 : _} : (s.bindStart a1).dict = s.dict :=
  (State.bindStart_only (.refl 283116544 s) rfl).dict rfl
@[simp] theorem State.bindStart_cal {s : State} {a1 : _} : (s.bindStart a1).cal = s.cal :=
  (State.bindStart_only (.refl 283116544 s) rfl).cal rfl
@[simp] theorem State.dispDischarge_pwr {s : State} : (s.dispDischarge).pwr = s.pwr :=
  (State.dispDischarge_only (.refl 276824064 s) rfl).pwr rfl
@[simp] theorem State.fullSave_pwr {s : State} : (s.fullSave).pwr = s.pwr :=
  (State.fullSave_only (.refl 2097152 s) rfl).pwr rfl
@[simp] theorem State.holdDrop_eng {s : State} : (s.holdDrop).eng = s.eng :=
  (State.holdDrop_only (.refl 1 s) rfl).eng rfl
@[simp] theorem State.holdDrop_nvm {s : State} : (s.holdDrop).nvm = s.nvm :=
  (State.holdDrop_only (.refl 1 s) rfl).nvm rfl
@[simp] theorem State.holdDrop_groups {s : State} : (s.holdDrop).groups = s.groups :=
  (State.holdDrop_only (.refl 1 s) rfl).groups rfl
@[simp] theorem State.holdDrop_isl {s : State} : (s.holdDrop).isl = s.isl :=
  (State.holdDrop_only (.refl 1 s) rfl).isl rfl
@[simp] theorem State.holdDrop_clock {s : State} : (s.holdDrop).clock = s.clock :=
  (State.holdDrop_only (.refl 1 s) rfl).clock rfl
@[simp] theorem State.sessionLost_isl {s : State} : (s.sessionLost).isl = s.isl :=
  (State.sessionLost_only (.refl 9437241 s) rfl).isl rfl
@[simp] theorem State.sessionLost_clock {s : State} : (s.sessionLost).clock = s.clock :=
  (State.sessionLost_only (.refl 9437241 s) rfl).clock rfl
@[simp] theorem State.controlDown_ans {s : State} {a1 : _} : (s.controlDown a1).ans = s.ans :=
  (State.controlDown_only (.refl 1083179065 s) rfl).ans rfl
@[simp] theorem State.controlDown_ports {s : State} {a1 : _} : (s.controlDown a1).ports = s.ports :=
  (State.controlDown_only (.refl 1083179065 s) rfl).ports rfl
@[simp] theorem State.ev58_ports {s : State} {a1 : _} {a2 : _} : (s.ev58 a1 a2).ports = s.ports :=
  (State.ev58_only (.refl 8388608 s) rfl).ports rfl
@[simp] theorem State.ev58_isl {s : State} {a1 : _} {a2 : _} : (s.ev58 a1 a2).isl = s.isl :=
  (State.ev58_only (.refl 8388608 s) rfl).isl rfl
@[simp] theorem State.ev58_cal {s : State} {a1 : _} {a2 : _} : (s.ev58 a1 a2).cal = s.cal :=
  (State.ev58_only (.refl 8388608 s) rfl).cal rfl
@[simp] theorem State.ev58_dict {s : State} {a1 : _} {a2 : _} : (s.ev58 a1 a2).dict = s.dict :=
  (State.ev58_only (.refl 8388608 s) rfl).dict rfl

/-- An allowed write whose meaning leaves no port object waiting comes to its meaning, and its answer is delivered. -/
theorem writeReq_delivers_idle {r : Req} {i j : Nat} {b : Bytes} {F : State → Nat → State} (allowed : s.allows r i j b = true)
    (idle : ∀ u v, (F u v).ports.fWait = u.ports.fWait) :
    Delivered (F (s.ownerWrote r.cls) (ofLe b)) (s.writeReq r i j b (fun s _ v => F s v)) := by
  have free : (F (s.ownerWrote r.cls) (ofLe b)).ports.fWait = [] := by
    rw [idle, ownerWrote_ports, fWait_of_allows allowed]
  obtain ⟨_, _, delivered⟩ := writeReq_delivered (f := fun s _ v => F s v) allowed (fun _ _ => free)
  exact delivered

/-! ### The steps of a bind-off -/

/-- The four steps that a bind-off may take at once (R354): to the gates, the relays, the save, and through it to the display. -/
def State.bindGates (s : State) : State :=
  if s.pwr.bind = .boundaries ∧ s.pwr.bindGroups = [] then
    { s with pwr := { s.pwr with bind := .gates }, eng := { s.eng with halted := true } } else s
def State.bindRelays (s : State) : State :=
  if s.pwr.bind = .gates ∧ s.gatesQuiet then { s with pwr := { s.pwr with bind := .relays } } else s
def State.bindSaves (s : State) : State :=
  if s.pwr.bind = .relays ∧ s.pp.relay.phase = .idle then { s with pwr := { s.pwr with bind := .save } } else s
def State.bindDisplays (s : State) : State :=
  if s.pwr.bind = .save then
    let s := if s.nvm.restored then s.fullSave else s
    let s := { s with pwr := { s.pwr with bind := .display } }
    if s.disp.busy then s.setDisp (fun d => { d with pendOff := true, pendUpdate := false }) else s.dispDischarge
  else s

theorem bindProgress_eq : s.bindProgress = s.bindGates.bindRelays.bindSaves.bindDisplays := rfl

/-- A step of a bind-off changes the power unit in its own state alone, and never leaves it. -/
def Binding (s t : State) : Prop := ∃ b, b ≠ BindStep.none ∧ t.pwr = { s.pwr with bind := b }

theorem Binding.refl (under : s.pwr.bind ≠ .none) : Binding s s := ⟨_, under, rfl⟩

theorem Binding.under (h : Binding s t) : t.pwr.bind ≠ .none := by
  obtain ⟨b, hb, pwr⟩ := h
  rw [pwr]
  exact hb

theorem Binding.trans (h : Binding s t) (k : Binding t u) : Binding s u := by
  obtain ⟨b, -, pwr⟩ := h
  obtain ⟨c, hc, pwr'⟩ := k
  exact ⟨c, hc, by rw [pwr', pwr]⟩

theorem Binding.ite {c : Prop} [Decidable c] (h : Binding s t) (k : Binding s u) : Binding s (if c then t else u) := by
  split
  · exact h
  · exact k

theorem bindDisplays_binding (under : s.pwr.bind ≠ .none) : Binding s s.bindDisplays := by
  unfold State.bindDisplays
  extract_lets saved p shown
  have saves : saved.pwr = s.pwr := by
    simp only [saved, apply_ite State.pwr, State.fullSave_pwr, ite_self]
  have shows : Binding s shown := ⟨.display, BindStep.noConfusion, by simp only [shown, p, saves]⟩
  have displays : ∀ v : State, v.pwr = shown.pwr → Binding s v := by
    intro v hv
    obtain ⟨b, hb, pwr⟩ := shows
    exact ⟨b, hb, hv.trans pwr⟩
  exact .ite (.ite (displays _ rfl) (displays _ State.dispDischarge_pwr)) (.refl under)

theorem bindProgress_binding (under : s.pwr.bind ≠ .none) : Binding s s.bindProgress := by
  have gates : Binding s s.bindGates := .ite ⟨.gates, BindStep.noConfusion, rfl⟩ (.refl under)
  have relays : Binding s.bindGates s.bindGates.bindRelays := .ite ⟨.relays, BindStep.noConfusion, rfl⟩ (.refl gates.under)
  have saves : Binding s.bindGates.bindRelays s.bindGates.bindRelays.bindSaves :=
    .ite ⟨.save, BindStep.noConfusion, rfl⟩ (.refl relays.under)
  exact (gates.trans (relays.trans saves)).trans (bindDisplays_binding saves.under)

/-- A bind-off whose groups owe boundaries waits for them. -/
theorem bindProgress_waits (at_ : s.pwr.bind = .boundaries) (owed : s.pwr.bindGroups ≠ []) : s.bindProgress = s := by
  have gates : s.bindGates = s := if_neg fun h => owed h.2
  have relays : s.bindRelays = s := if_neg fun h => absurd (at_.symm.trans h.1) BindStep.noConfusion
  have saves : s.bindSaves = s := if_neg fun h => absurd (at_.symm.trans h.1) BindStep.noConfusion
  have displays : s.bindDisplays = s := if_neg fun h => absurd (at_.symm.trans h) BindStep.noConfusion
  rw [bindProgress_eq, gates, relays, saves, displays]

/-- The state in which a bind-off waits for the boundaries of the running groups. -/
def State.bindBegun (s : State) (restart : Bool) : State :=
  { s with pwr := { s.pwr with
    mode := .bindOff, bind := .boundaries, bindRestart := restart
    bindGroups := (List.range 4).filter (fun g => (s.groups.get g).running) } }

theorem bindStart_eq (restart : Bool) : s.bindStart restart = (s.bindBegun restart).bindProgress := rfl

theorem bindStart_pwr (restart : Bool) : (s.bindStart restart).pwr.mode = .bindOff ∧
    (s.bindStart restart).pwr.bindRestart = restart ∧ (s.bindStart restart).pwr.bind ≠ .none := by
  obtain ⟨b, hb, pwr⟩ := bindProgress_binding (s := s.bindBegun restart) BindStep.noConfusion
  rw [bindStart_eq, pwr]
  exact ⟨rfl, rfl, hb⟩

theorem bindStart_waits (restart : Bool) (some : (List.range 4).any (fun g => (s.groups.get g).running) = true) :
    s.bindStart restart = s.bindBegun restart := by
  obtain ⟨g, listed, runs⟩ := List.any_eq_true.mp some
  exact bindProgress_waits (s := s.bindBegun restart) rfl (List.ne_nil_of_mem (List.mem_filter.mpr ⟨listed, runs⟩))

/-- A bind-off that begins (R354): the session and the hold are over, and every running group owes one more boundary. -/
theorem bindCommand_begins (restart : Bool) (free : s.pwr.bind = .none) :
    (s.bindCommand restart).pwr.mode = .bindOff ∧ (s.bindCommand restart).pwr.bindRestart = restart ∧
    (s.bindCommand restart).pwr.bind ≠ .none ∧ (s.bindCommand restart).cal.owner = none ∧
    (s.bindCommand restart).cal.running = false ∧ (s.bindCommand restart).dict.owner = none ∧
    ((List.range 4).any (fun g => (s.groups.get g).running) = true → (s.bindCommand restart).pwr.bind = .boundaries ∧
      (s.bindCommand restart).pwr.bindGroups = (List.range 4).filter (fun g => (s.groups.get g).running) ∧
      (s.bindCommand restart).eng = s.eng ∧ (s.bindCommand restart).nvm = s.nvm) := by
  unfold State.bindCommand
  rw [if_neg (by simp [free])]
  generalize ended : (s.setCal (fun c => { c with owner := none, running := false })).holdDrop = v
  have cal : v.cal = { s.cal with owner := none, running := false } := by rw [← ended, State.holdDrop_cal]; rfl
  have groups : v.groups = s.groups := by rw [← ended, State.holdDrop_groups]; rfl
  obtain ⟨mode, kind, under⟩ := bindStart_pwr (s := v) restart
  refine ⟨mode, kind, under, ?_, ?_, ?_, fun some => ?_⟩
  · rw [State.bindStart_cal]
    exact (congrArg Cal.owner cal :)
  · rw [State.bindStart_cal]
    exact (congrArg Cal.running cal :)
  · rw [State.bindStart_dict, ← ended]
    exact holdDrop_owner _
  · rw [bindStart_waits restart (by rw [groups]; exact some), ← groups]
    refine ⟨rfl, rfl, ?_, ?_⟩
    · show v.eng = s.eng
      rw [← ended, State.holdDrop_eng]
      rfl
    · show v.nvm = s.nvm
      rw [← ended, State.holdDrop_nvm]
      rfl

/-! ### The restarts of islands -/

theorem controlDown_spec (cause : Nat) : (s.controlDown cause).isl = { s.isl with control := some s.clock.clk, cause := cause } ∧
    KMap.get (s.controlDown cause).evt.pending 58 = true ∧ (s.controlDown cause).dict.owner = none ∧
    (s.controlDown cause).cal.owner = none := by
  have closed : s.sessionLost.cal.owner = none := by
    unfold State.sessionLost
    extract_lets abandoned ended
    have unowned : ended.cal.owner = none := by
      simp only [ended]
      split
      · exact sessionClose_closed.1
      next unowned => exact Option.not_isSome_iff_eq_none.mp unowned
    exact (foldl_field (fun u => u.cal.owner) (fun u k => rfl) calVolatile ended).trans unowned
  have means : s.controlDown cause = (s.sessionLost.holdDrop.setIsl (fun i => { i with
      control := some s.sessionLost.holdDrop.clock.clk, cause := cause })).ev58 7 cause := rfl
  have isl : s.sessionLost.holdDrop.isl = s.isl := by rw [State.holdDrop_isl, State.sessionLost_isl]
  have clock : s.sessionLost.holdDrop.clock = s.clock := by rw [State.holdDrop_clock, State.sessionLost_clock]
  rw [means]
  refine ⟨?_, (raise_raised _ 58 _).pending, ?_, ?_⟩
  · rw [State.ev58_isl, clock]
    exact congrArg (fun i : Isl => { i with control := some s.clock.clk, cause := cause }) isl
  · rw [State.ev58_dict]
    exact holdDrop_owner _
  · rw [State.ev58_cal]
    exact (congrArg Cal.owner State.holdDrop_cal).trans closed

theorem portRestart_spec (cause : Nat) : Raised 58 s (s.portRestart cause) ∧
    (s.portRestart cause).ports.restartAt = some s.clock.clk ∧ (s.portRestart cause).ports.fWait = s.ports.fWait ∧
    (s.portRestart cause).pp = { s.pp with relay := { s.pp.relay with phase := .idle } } := by
  unfold State.portRestart
  extract_lets told idle
  have pp : told.pp = s.pp := State.raise_pp
  have ports : told.ports = s.ports := State.raise_ports
  have clock : told.clock = s.clock := State.raise_clock
  refine ⟨?_, ?_, ?_, ?_⟩
  · exact raise_raised s 58 _
  · exact congrArg (fun c : Clock => some c.clk) clock
  · exact (congrArg Ports.fWait ports :)
  · exact (congrArg (fun p : Pp => { p with relay := { p.relay with phase := .idle } }) pp :)

theorem displayRestart_spec (cause : Nat) : KMap.get (s.displayRestart cause).evt.pending 58 = true ∧
    (s.displayRestart cause).disp.restartAt = some s.clock.clk ∧ (s.displayRestart cause).disp.pendClear = true ∧
    (s.displayRestart cause).disp.pumps = false := by
  unfold State.displayRestart
  extract_lets told
  have clock : told.clock = s.clock := (State.raise_clock (s := s.dispAbandon true)).trans State.dispAbandon_clock
  refine ⟨(raise_raised _ 58 _).pending, ?_, rfl, rfl⟩
  exact congrArg (fun c : Clock => some c.clk) clock

/-! ### The write of POWER_COMMAND -/

theorem wPower_fWait (v : Nat) : (s.wPower v).ports.fWait = s.ports.fWait := by
  unfold State.wPower
  extract_lets a
  split
  · exact congrArg Ports.fWait (State.bindCommand_ports (s := a))
  · split
    · exact congrArg Ports.fWait (State.bindCommand_ports (s := a))
    · split
      · exact congrArg Ports.fWait (State.controlRestart_ports (s := a))
      · split
        · exact (portRestart_spec (s := a) 1).2.2.1
        · split
          · exact congrArg Ports.fWait (State.displayRestart_ports (s := a))
          · rfl

/-- A command of POWER_COMMAND that is allowed: what it does behind its answer OK, delivered. -/
theorem powerCommand_delivers {r : Req} {n : Byte} {f : State → State} (allowed : s.allows r 0xE000 2 [n] = true)
    (means : (s.ownerWrote r.cls).wPower (ofLe [n]) = ((s.ownerWrote r.cls).answer stOk).keepAns f) :
    Delivered (((s.ownerWrote r.cls).answer stOk).keepAns f) (s.writeReq r 0xE000 2 [n] (fun s _ v => s.wPower v)) := by
  rw [← means]
  exact writeReq_delivers_idle (F := State.wPower) allowed fun _ _ => wPower_fWait _

theorem keepAns_idle {f : State → State} (h : f s = s) : s.keepAns f = s := by
  show { f s with ans := s.ans } = s
  rw [h]

theorem Delivered.pending (d : Delivered s t) : t.evt.pending = s.evt.pending := by
  rw [d]

/-- A mask that holds another holds what that one holds. -/
theorem mask_within {a b m : Nat} (h : b &&& m = b) (k : a &&& b = a) : a &&& m = a := by
  rw [← k, Nat.and_assoc, h]

/-- The same frame for a command behind its answer. -/
theorem Delivered.keepAns_only {q : Cls} {m : Nat} {f : State → State} (d : Delivered (((s.ownerWrote q).answer stOk).keepAns f) t)
    (h : Only m ((s.ownerWrote q).answer stOk) (f ((s.ownerWrote q).answer stOk))) (hm : 2173698048 &&& m = 2173698048) :
    Only m s t := by
  have own : Only m s ((s.ownerWrote q).answer stOk) :=
    State.answer_only (State.ownerWrote_only (.refl m s) (mask_within hm rfl)) (mask_within hm rfl)
  exact (own.trans (only_set_ans h (mask_within hm rfl))).trans (d.only.mono (mask_within hm rfl))

/-! ### The discharge of the rails -/

/-- The state in which a power-off discharge has ended, with its EV55. -/
def State.railsOff (s : State) : State :=
  (s.setDisp (fun d => { d with falling := false, st := .off, work := .none, offStep := 0 })).ev55 6

theorem railsOff_disp : s.railsOff.disp = { s.disp with falling := false, st := .off, work := .none, offStep := 0 } :=
  State.raise_disp

theorem railsOff_raised : Raised 55 s s.railsOff := raise_raised (s.setDisp _) 55 _

theorem railsOff_only : Only 276824064 s s.railsOff := State.ev55_only (State.setDisp_only (.refl _ s) rfl) rfl

theorem execRailDischargeDone_ends (falling : s.disp.falling = true) (work : s.disp.work = .discharge) (step : s.disp.offStep = 3) :
    execRailDischargeDone s = .next (if s.pwr.bind = .display then s.railsOff.bindGate else s.railsOff) := by
  have ends : s.railsDown = if s.railsOff.pwr.bind = .display then s.railsOff.bindGate else s.railsOff := if_pos ⟨work, step⟩
  rw [railsOff_only.pwr rfl] at ends
  exact congrArg Host.Outcome.next ((if_pos falling).trans ends)

end Sys2Proof.Machine

open Sys2Proof Sys2Proof.Machine

/-- Settles O25: each command is its own effect behind the answer OK; the rails end their discharge in the step they are in. -/
theorem powerCommands : Obligations.PowerCommands := by
  unfold Obligations.PowerCommands
  refine ⟨?_, ?_, ?_, ?_, ?_, ?_, ?_⟩
  · intro s r c restart n command allowed
    have means : (s.ownerWrote r.cls).wPower (ofLe [BitVec.ofFin n]) =
        ((s.ownerWrote r.cls).answer stOk).keepAns (fun s => s.bindCommand restart) := by
      rcases command with ⟨-, rfl, rfl⟩ | ⟨-, rfl, rfl⟩ <;> rfl
    have run : exec c s = .next (s.writeReq r 0xE000 2 [BitVec.ofFin n] (fun s _ v => s.wPower v)) := by
      rcases command with ⟨rfl, -, rfl⟩ | ⟨rfl, -, rfl⟩ <;> rfl
    have delivered := powerCommand_delivers allowed means
    have own : (s.ownerWrote r.cls).pwr = s.pwr := State.ownerWrote_pwr
    refine ⟨fun under => ⟨_, run, ?_⟩, fun free => ⟨_, run, delivered.ans, ?_⟩⟩
    · have stays : ((s.ownerWrote r.cls).answer stOk).bindCommand restart = (s.ownerWrote r.cls).answer stOk :=
        if_pos (by rw [State.answer_pwr, own]; exact under)
      rw [keepAns_idle stays] at delivered
      exact delivered
    · obtain ⟨mode, kind, under, unowned, stopped, unheld, waits⟩ :=
        bindCommand_begins (s := (s.ownerWrote r.cls).answer stOk) restart (by rw [State.answer_pwr, own]; exact free)
      have frame := delivered.only
      have pwr := frame.pwr rfl
      have cal := frame.cal rfl
      refine ⟨(congrArg Pwr.mode pwr).trans mode, (congrArg Pwr.bindRestart pwr).trans kind, fun h => under ?_,
        (congrArg Cal.owner cal).trans unowned, (congrArg Cal.running cal).trans stopped,
        (congrArg Dict.owner (frame.dict rfl)).trans unheld, fun some => ?_,
        (delivered.keepAns_only (m := 2448425985) (State.bindCommand_only (.refl _ _) rfl) rfl).changesOnly rfl⟩
      · exact (congrArg Pwr.bind pwr).symm.trans h
      · rw [State.answer_groups, State.ownerWrote_groups] at waits
        obtain ⟨at_, owed, eng, nvm⟩ := waits some
        refine ⟨(congrArg Pwr.bind pwr).trans at_, (congrArg Pwr.bindGroups pwr).trans owed, ?_, ?_⟩
        · rw [frame.eng rfl]
          exact eng.trans State.ownerWrote_eng
        · rw [frame.nvm rfl]
          exact nvm.trans State.ownerWrote_nvm
  · intro s r allowed running
    have delivered := powerCommand_delivers (f := fun s => s.controlRestart 1 5) allowed rfl
    have down : ((s.ownerWrote r.cls).answer stOk).controlRestart 1 5 = ((s.ownerWrote r.cls).answer stOk).controlDown 1 :=
      if_neg (by rw [State.answer_upd, State.ownerWrote_upd]; exact running)
    obtain ⟨isl, pending, unheld, unowned⟩ := controlDown_spec (s := (s.ownerWrote r.cls).answer stOk) 1
    have frame := delivered.only
    rw [← down] at isl pending unheld unowned
    refine ⟨_, rfl, delivered.ans, ?_, ?_, (congrArg Dict.owner (frame.dict rfl)).trans unheld,
      (congrArg Cal.owner (frame.cal rfl)).trans unowned,
      (delivered.keepAns_only (m := 3247439929) ?_ rfl).changesOnly rfl⟩
    · rw [frame.isl rfl]
      refine isl.trans ?_
      rw [State.answer_isl, State.answer_clock, State.ownerWrote_isl, State.ownerWrote_clock]
    · rw [delivered.pending]
      exact pending
    · rw [down]
      exact State.controlDown_only (.refl _ _) rfl
  · intro s r allowed
    have delivered := powerCommand_delivers (f := fun s => s.portRestart 1) allowed rfl
    obtain ⟨raised, at_, -, pp⟩ := portRestart_spec (s := (s.ownerWrote r.cls).answer stOk) 1
    have frame := delivered.only
    refine ⟨_, rfl, delivered.ans, ?_, ?_, ?_, (delivered.keepAns_only (m := 2174222336) (State.portRestart_only (.refl _ _) rfl) rfl).changesOnly rfl⟩
    · rw [delivered]
      refine at_.trans ?_
      rw [State.answer_clock, State.ownerWrote_clock]
    · rw [delivered.pending]
      exact raised.pending
    · rw [frame.pp rfl]
      refine pp.trans ?_
      rw [State.answer_pp, State.ownerWrote_pp]
  · intro s r allowed
    have delivered := powerCommand_delivers (f := fun s => s.displayRestart 1) allowed rfl
    obtain ⟨pending, at_, clears, pumps⟩ := displayRestart_spec (s := (s.ownerWrote r.cls).answer stOk) 1
    have disp := delivered.only.disp rfl
    refine ⟨_, rfl, delivered.ans, ?_, (congrArg Disp.pendClear disp).trans clears, (congrArg Disp.pumps disp).trans pumps, ?_,
      (delivered.keepAns_only (m := 2442133504) (State.displayRestart_only (.refl _ _) rfl) rfl).changesOnly rfl⟩
    · refine (congrArg Disp.restartAt disp).trans (at_.trans ?_)
      rw [State.answer_clock, State.ownerWrote_clock]
    · rw [delivered.pending]
      exact pending
  · intro s level
    exact congrArg Host.Outcome.next (if_neg (by rw [level]; exact Bool.false_ne_true))
  · intro s falling other
    refine congrArg Host.Outcome.next ((if_pos falling).trans ((if_neg ?_).trans ?_))
    · rintro ⟨work, step⟩
      rcases other with h | h
      · exact h work
      · exact h step
    · show (if s.disp.st = .abandoned ∨ s.disp.st = .hold then _ else _ : State) = _
      split <;> rfl
  · intro s falling work step
    refine ⟨_, execRailDischargeDone_ends falling work step, ?_, ?_, fun other => ?_, fun bind => ?_⟩
    · rw [apply_ite State.disp, State.bindGate_disp, ite_self, railsOff_disp]
    · refine railsOff_raised.congr rfl ?_
      rw [apply_ite State.evt, State.bindGate_evt, ite_self]
    · rw [if_neg other]
      exact railsOff_only.changesOnly rfl
    · rw [if_pos bind]
      have pwr : s.railsOff.pwr = s.pwr := railsOff_only.pwr rfl
      have now : s.railsOff.now = s.now := now_congr (railsOff_only.clock rfl)
      have kind : (!s.railsOff.pwr.bindRestart) = !s.pwr.bindRestart := by rw [pwr]
      refine ⟨rfl, rfl, now, now, ?_, ?_, rfl, (State.bindGate_only (railsOff_only.mono rfl : Only 283181184 s _) rfl).changesOnly rfl⟩
      · show (if (!s.railsOff.pwr.bindRestart) = true then PwrMode.rest else .backup) = _
        rw [kind]
        cases s.pwr.bindRestart <;> rfl
      · show (if (!s.railsOff.pwr.bindRestart) = true then 7 else 6) = _
        rw [kind]
        cases s.pwr.bindRestart <;> rfl

end

section
/-! PROOFS. The non-volatile store (R310, R317, R319, R320, R323, R324, R333). -/
namespace Sys2Proof.Machine

variable {s t u : State}

@[simp] theorem State.wSave_ports {s : State} {a1 : _} : (s.wSave a1).ports = s.ports :=
  (State.wSave_only (.refl 2149580800 s) rfl).ports rfl
@[simp] theorem State.wSpread_ports {s : State} {a1 : _} : (s.wSpread a1).ports = s.ports :=
  (State.wSpread_only (.refl 2149580800 s) rfl).ports rfl
@[simp] theorem State.rewriteElsewhere_evt {s : State} {a1 : Nat} : (s.rewriteElsewhere a1).evt = s.evt :=
  (State.rewriteElsewhere_only (.refl 538968064 s) rfl).evt rfl
@[simp] theorem State.program_evt {s : State} {a1 : _} : (s.program a1).evt = s.evt :=
  (State.program_only (.refl 2097152 s) rfl).evt rfl
@[simp] theorem State.storeTry_evt {s : State} {c : Bool} {key v n : Nat} : (s.storeTry c key v n).evt = s.evt :=
  (State.storeTry_only (.refl 2097153 s) rfl).evt rfl

/-! ### Compaction of a store -/

/-- A listed entry of a canonical table is what its key reads. -/
theorem get_of_mem {V : Type} [Inhabited V] [DecidableEq V] {m : KMap V} {k : Nat} {v : V} (wf : KMap.wf m = true)
    (listed : (k, v) ∈ m) : KMap.get m k = v := by
  have both : ∀ lo, KMap.wfFrom lo m = true → KMap.get m k = v ∧ v ≠ default := by
    induction m with
    | nil => cases listed
    | cons e m ih =>
      intro lo above
      obtain ⟨a, w⟩ := e
      simp only [KMap.wfFrom, Bool.and_eq_true, decide_eq_true_eq] at above
      obtain ⟨⟨-, more⟩, rest⟩ := above
      rcases List.mem_cons.mp listed with here | behind
      · obtain ⟨rfl, rfl⟩ := Prod.mk.inj here
        exact ⟨if_pos rfl, more⟩
      · obtain ⟨read, given⟩ := ih (KMap.wfFrom_weaken rest).1 behind (some a) rest
        refine ⟨(if_neg fun same => given ?_).trans read, given⟩
        rw [← read]
        exact KMap.get_below rest (same ▸ Nat.le_refl _)
  exact (both none wf).1

/-- Every live record of one store is live in the other with its value and length. -/
def KeepsRecords (m n : KMap (Option SRec)) : Prop :=
  ∀ k r, KMap.get m k = some r → ∃ r', KMap.get n k = some r' ∧ r'.val = r.val ∧ r'.len = r.len

theorem KeepsRecords.refl (m : KMap (Option SRec)) : KeepsRecords m m := fun _ r h => ⟨r, h, rfl, rfl⟩

theorem KeepsRecords.trans {l m n : KMap (Option SRec)} (h : KeepsRecords l m) (k : KeepsRecords m n) : KeepsRecords l n := by
  intro i r hr
  obtain ⟨r', hr', val, len⟩ := h i r hr
  obtain ⟨r'', hr'', val', len'⟩ := k i r' hr'
  exact ⟨r'', hr'', val'.trans val, len'.trans len⟩

/-- An appended record is entered with its value and length. -/
theorem append_recs (st : Store) (cal : Bool) (bad : List Nat) (key val len : Nat) : ∃ r : SRec, r.val = val ∧ r.len = len ∧
    (st.append cal bad key val len).recs = st.recs.set key (some r) := by
  unfold Store.append
  extract_lets size seq
  split
  · exact ⟨_, rfl, rfl, rfl⟩
  · exact ⟨_, rfl, rfl, rfl⟩

/-- A record appended again keeps the records. -/
theorem append_again {m : KMap (Option SRec)} {st : Store} {cal : Bool} {bad : List Nat} {k : Nat} {r : SRec}
    (live : KMap.get m k = some r) (h : KeepsRecords m st.recs) : KeepsRecords m (st.append cal bad k r.val r.len).recs := by
  obtain ⟨r', val, len, recs⟩ := append_recs st cal bad k r.val r.len
  intro i x hx
  rw [recs, KMap.get_set_of_ne (Option.some_ne_none r')]
  split
  next here =>
    rw [here, live] at hx
    cases hx
    exact ⟨r', rfl, val, len⟩
  next => exact h i x hx

/-- A listed record appended again, if it is live. -/
def Store.again (cal : Bool) (bad : List Nat) (st : Store) (e : Nat × Option SRec) : Store := match e.2 with
  | none => st
  | some r => st.append cal bad e.1 r.val r.len

theorem again_records {m : KMap (Option SRec)} {st : Store} (cal : Bool) (bad : List Nat) (l : List (Nat × Option SRec))
    (wf : KMap.wf m = true) (listed : ∀ e ∈ l, e ∈ m) (sound : KMap.wf st.recs = true) (kept : KeepsRecords m st.recs) :
    KMap.wf (l.foldl (Store.again cal bad) st).recs = true ∧ KeepsRecords m (l.foldl (Store.again cal bad) st).recs := by
  induction l generalizing st with
  | nil => exact ⟨sound, kept⟩
  | cons e l ih =>
    obtain ⟨k, o⟩ := e
    have rest : ∀ e ∈ l, e ∈ m := fun y hy => listed y (List.mem_cons_of_mem _ hy)
    cases o with
    | none => exact ih rest sound kept
    | some r =>
      have live := get_of_mem wf (listed _ List.mem_cons_self)
      obtain ⟨r', -, -, recs⟩ := append_recs st cal bad k r.val r.len
      refine ih (st := st.append cal bad k r.val r.len) rest ?_ (append_again live kept)
      rw [recs]
      exact KMap.set_wf sound _ _

theorem compactTail_records {st : Store} (cal : Bool) (bad : List Nat) (wf : KMap.wf st.recs = true) :
    KMap.wf (st.compactTail cal bad).recs = true ∧ KeepsRecords st.recs (st.compactTail cal bad).recs := by
  unfold Store.compactTail
  split
  · exact ⟨wf, .refl _⟩
  · exact again_records cal bad _ wf (fun e he => (List.mem_filter.mp he).1) wf (.refl _)

theorem compact_records {st : Store} (cal : Bool) (bad : List Nat) (n : Nat) (wf : KMap.wf st.recs = true) :
    KeepsRecords st.recs (st.compact cal bad n).recs := by
  induction n generalizing st with
  | zero => exact .refl _
  | succ n ih =>
    unfold Store.compact
    split
    · exact .refl _
    · obtain ⟨wf', kept⟩ := compactTail_records cal bad wf
      exact kept.trans (ih wf')

/-! ### The journal -/

/-- What programs leave: the journal's tail, the kept values, the pages marked bad, the banks that failed, the spread counters. -/
def Nvm.rest (n : Nvm) : Nat × Kept × List Nat × KMap Bool × KMap Nat := (n.jTail, n.kept, n.bad, n.progFail, n.sc)

theorem jWriteFrom_rest (l : List (Nat × Nat)) (s : State) : (s.jWriteFrom l).nvm.rest = s.nvm.rest := by
  induction l generalizing s with
  | nil => rfl
  | cons a l ih =>
    unfold State.jWriteFrom
    refine (ih _).trans ?_
    dsimp only
    split <;> rfl

theorem jWrite_rest (l : List (Nat × Nat)) (s : State) : (s.jWrite l).nvm.rest = s.nvm.rest := by
  unfold State.jWrite
  split
  · rfl
  · exact jWriteFrom_rest l _

/-- One page of the journal compacted. -/
theorem jCompact1_nvm : s.jCompact1.nvm.jTail = s.nvm.jTail + 1 ∧ s.jCompact1.nvm.kept = s.nvm.kept ∧
    s.jCompact1.nvm.bad = s.nvm.bad := by
  unfold State.jCompact1
  extract_lets tail lives nvm moved
  have rest := jWrite_rest (lives.map (fun e => (e.1, jLen e.1))) moved
  exact ⟨congrArg (fun r => r.1) rest, congrArg (fun r => r.2.1) rest, congrArg (fun r => r.2.2.1) rest⟩

/-! ### A page that fails twice -/

theorem programs_rest (page n : Nat) : (s.programs page n).nvm.rest = s.nvm.rest := by
  induction n generalizing s page with
  | zero => rfl
  | succ n ih => exact ih (s := s.program page) (page + 1)

theorem nvmWrite_rest (a : Nat) (b : Bytes) : (s.nvmWrite a b).nvm.rest = s.nvm.rest :=
  programs_rest (a / 256) ((a + b.length + 255) / 256 - a / 256)

theorem storePut_rest {cal : Bool} {key val len : Nat} (h : s.storePut cal key val len = some t) : t.nvm.rest = s.nvm.rest := by
  unfold State.storePut at h
  extract_lets st at h
  cases put : st.put cal s.nvm.bad key val len with
  | none =>
    rw [put] at h
    cases h
  | some st' =>
    rw [put] at h
    cases h
    cases cal <;> rfl

theorem storeTry_rest (cal : Bool) (key val len : Nat) : (s.storeTry cal key val len).nvm.rest = s.nvm.rest := by
  unfold State.storeTry
  cases put : s.storePut cal key val len with
  | none => cases cal <;> rfl
  | some t => exact storePut_rest put

theorem setEvSlot_rest (s : State) (x : Nat) : (s.setNvm (fun n => { n with evSlot := x })).nvm.rest = s.nvm.rest := rfl

theorem rewriteElsewhere_rest (page : Nat) : (s.rewriteElsewhere page).nvm.rest = s.nvm.rest := by
  unfold State.rewriteElsewhere
  extract_lets n
  split
  · split <;> rfl
  · split
    · exact jWrite_rest _ _
    · split
      · rfl
      · split
        · rfl
        · split
          · split
            · exact (setEvSlot_rest _ _).trans (nvmWrite_rest _ _)
            · rfl
          · split
            · exact programs_rest _ _
            · rfl

theorem pageBad_spec {page : Nat} (new : s.nvm.bad.contains page = false) : (s.pageBad page).nvm.bad = s.nvm.bad ++ [page] ∧
    KMap.get (s.pageBad page).nvm.progFail (page % 8) = true ∧ KMap.get (s.pageBad page).evt.pending 23 = true := by
  unfold State.pageBad
  rw [if_neg (by rw [new]; exact Bool.false_ne_true)]
  extract_lets marked tried
  have rest : ((tried.raise 23 (le 1 0 ++ le 4 page)).rewriteElsewhere page).nvm.rest = marked.nvm.rest := by
    rw [rewriteElsewhere_rest, State.raise_nvm]
    exact storeTry_rest _ _ _ _
  refine ⟨congrArg (fun r => r.2.2.1) rest, ?_, ?_⟩
  · refine (congrArg (fun r => KMap.get r.2.2.2.1 (page % 8)) rest :).trans ?_
    exact (KMap.get_set_of_ne Bool.noConfusion _).trans (if_pos rfl)
  · rw [State.rewriteElsewhere_evt]
    exact (raise_raised _ 23 _).pending

/-! ### Programs of pages -/

theorem programAll_nvm (l : List Nat) : ∃ p, l.foldl State.program s = { s with nvm := { s.nvm with programs := p } } := by
  induction l generalizing s with
  | nil => exact ⟨s.nvm.programs, rfl⟩
  | cons a l ih =>
    obtain ⟨p, h⟩ := ih (s := s.program a)
    exact ⟨p, h⟩

theorem eraseDups_ne_nil {l : List Nat} (h : l ≠ []) : l.eraseDups ≠ [] := by
  cases l with
  | nil => exact absurd rfl h
  | cons a l =>
    rw [List.eraseDups_cons]
    exact List.cons_ne_nil _ _

/-- The state in which the pages of the weak words have been reprogrammed and counted (R323). -/
def State.refreshed (s : State) (weak : List Nat) : State :=
  (((weak.map (fun a => a / 256)).eraseDups).foldl State.program s).setNvm
    (fun n => { n with refreshed := n.refreshed + ((weak.map (fun a => a / 256)).eraseDups).length })

theorem execRefreshPass_clean {weak : List Nat} (powered : s.powered = true) : execRefreshPass weak [] s =
    .next (if (weak.map (fun a => a / 256)).eraseDups = [] then s.refreshed weak
      else (s.refreshed weak).raise 22 (le 4 ((weak.map (fun a => a / 256)).eraseDups).length)) :=
  if_neg (by simp [powered])

theorem refreshed_only (weak : List Nat) : Only 10485760 s (s.refreshed weak) :=
  State.setNvm_only (only_foldl (.refl _ s) fun _ _ => State.program_only (.refl _ _) rfl) (.of rfl rfl rfl) rfl

/-- The daily check of the wear (R320): EV23 for a low reserve, once a day. -/
theorem execNvmLifeCheck_checks (powered : s.powered = true) : execNvmLifeCheck s =
    .next ((if s.lifeMonths < 12 * s.cfg oNvmWearYears ∧ s.nvm.lifeDay ≠ some (dayOf s.now) then
      (s.raise 23 (le 1 1 ++ le 4 s.lifeMonths)).setNvm (fun n => { n with lifeDay := some (dayOf s.now) }) else s).setNvm
        (fun n => { n with perDay := (0 :: n.perDay).take 30 })) := by
  refine (if_neg (by simp [powered])).trans ?_
  exact congrArg (fun u : State => Host.Outcome.next (u.setNvm (fun n => { n with perDay := (0 :: n.perDay).take 30 })))
    (ite_of_iff (by simp))

/-- A spread counter steps by one, and no other does (R324). -/
theorem scStep_get (k i : Nat) : KMap.get (s.scStep k).nvm.sc i = KMap.get s.nvm.sc i + (if i = k then 1 else 0) := by
  have sc : (s.scStep k).nvm.sc = s.nvm.sc.set k (KMap.get s.nvm.sc k + 1) := by
    unfold State.scStep
    extract_lets v p page programmed
    have rest : programmed.nvm.rest = s.nvm.rest := by
      simp only [programmed]
      split
      · exact programs_rest _ _
      · split <;> rfl
    exact (congrArg (fun r : Nat × Kept × List Nat × KMap Bool × KMap Nat => r.2.2.2.2.set k (KMap.get s.nvm.sc k + 1)) rest :)
  rw [sc]
  split
  next here =>
    subst here
    exact (KMap.get_set_of_ne (Nat.succ_ne_zero _) _).trans (if_pos rfl)
  next other => exact get_set_other other

end Sys2Proof.Machine

open Sys2Proof Sys2Proof.Machine

/-- Settles O26: a save by its laws, a bad page and a compaction by what they leave, the checks of a day by their branches. -/
theorem nonVolatileStore : Obligations.NonVolatileStore := by
  unfold Obligations.NonVolatileStore
  refine ⟨?_, ?_, ?_, ?_, ?_, ?_, ?_, ?_, ?_, ?_, ?_, ?_, ?_, ?_⟩
  · intro s off
    exact congrArg Host.Outcome.next (if_neg (by rw [off]; exact Bool.false_ne_true))
  · intro s may
    obtain ⟨dirty, -, -, dirtyC, mark, -⟩ := save_spec s
    have answer : execPeriodicSave s = .next s.save := congrArg Host.Outcome.next (if_pos may)
    exact ⟨_, answer, dirty, dirtyC, mark, (State.save_only (.refl 2097152 s) rfl).changesOnly rfl⟩
  · intro s r b allowed
    have delivered := writeReq_delivers (F := State.wSave) allowed fun _ _ => State.wSave_ports
    have may : (s.ownerWrote r.cls).mayNvm = s.mayNvm := by
      obtain ⟨x, own⟩ := ownerWrote_eq (s := s) r.cls
      rw [own]
      rfl
    refine ⟨_, rfl, delivered.ans, fun one ready => ?_, fun idle => ?_,
      (delivered.requestOnly (m := 2175795200) (State.wSave_only (.refl _ _) rfl) rfl rfl).changesOnly rfl⟩
    · have saves : (s.ownerWrote r.cls).wSave (ofLe b) = (s.ownerWrote r.cls).save.answer stOk :=
        congrArg (State.answer · stOk) (if_pos ⟨one, may.trans ready⟩)
      obtain ⟨dirty, -, -, -, mark, -⟩ := save_spec (s.ownerWrote r.cls)
      rw [delivered.only.nvm rfl, saves]
      rw [now_congr State.ownerWrote_clock, State.ownerWrote_nvm] at mark
      exact ⟨dirty, mark⟩
    · have stays : (s.ownerWrote r.cls).wSave (ofLe b) = (s.ownerWrote r.cls).answer stOk := by
        refine congrArg (State.answer · stOk) (if_neg ?_)
        rintro ⟨one, ready⟩
        rw [may] at ready
        rcases idle with h | h
        · exact h one
        · exact absurd (ready.symm.trans h) Bool.noConfusion
      rw [← stays]
      exact delivered
  · intro s p m1 m2 off
    refine congrArg Host.Outcome.next (if_pos ?_)
    simpa using off
  · intro s p m2 low powered
    have answer : execNvmProgramDone p false m2 s = .next (if m2 then s.program p else (s.program p).pageBad p) :=
      congrArg Host.Outcome.next (if_neg (by simp [powered]; omega))
    refine ⟨_, answer, fun quiet => ?_, fun fails new => ?_, fun q listed => ?_, execNvmProgramDone_only.changesOnly answer rfl⟩
    · rcases quiet with rfl | known
      · rfl
      · have stays : (s.program p).pageBad p = s.program p := if_pos known
        rw [stays, ite_self]
        rfl
    · subst fails
      exact pageBad_spec (s := s.program p) new
    · cases m2 with
      | true => exact listed
      | false =>
        cases new : s.nvm.bad.contains p with
        | true =>
          have stays : (s.program p).pageBad p = s.program p := if_pos new
          show q ∈ ((s.program p).pageBad p).nvm.bad
          rw [stays]
          exact listed
        | false =>
          show q ∈ ((s.program p).pageBad p).nvm.bad
          rw [(pageBad_spec (s := s.program p) new).1]
          exact List.mem_append_left _ listed
  · intro s cal st store wf
    cases cal with
    | true =>
      subst store
      exact ⟨_, _, rfl, rfl, rfl, compact_records true s.nvm.bad _ wf, (State.setNvm_only (.refl 2097152 s) (.of rfl rfl rfl) rfl).changesOnly rfl⟩
    | false =>
      subst store
      exact ⟨_, _, rfl, rfl, rfl, compact_records false s.nvm.bad _ wf, (State.setNvm_only (.refl 2097152 s) (.of rfl rfl rfl) rfl).changesOnly rfl⟩
  · intro s off
    refine congrArg Host.Outcome.next ?_
    split
    next powered =>
      refine if_pos (off.resolve_left ?_)
      rw [powered]
      exact Bool.noConfusion
    next => rfl
  · intro s powered short
    have answer : execJournalCompaction s = .next s.jCompact1 :=
      congrArg Host.Outcome.next ((if_pos powered).trans (if_neg (by omega)))
    obtain ⟨tail, kept, bad⟩ := jCompact1_nvm (s := s)
    exact ⟨_, answer, tail, kept, bad, (State.jCompact1_only (.refl 2097152 s) rfl).changesOnly rfl⟩
  · intro s weak bad off
    exact if_pos (by rw [off]; rfl)
  · intro s weak powered
    obtain ⟨p, programmed⟩ := programAll_nvm (s := s) ((weak.map (fun a => a / 256)).eraseDups)
    have answer := execRefreshPass_clean (weak := weak) powered
    refine ⟨_, answer, ?_, ?_, fun some => ?_, fun none => ?_, (only_ite (fun _ => refreshed_only weak) fun _ =>
      State.raise_only (refreshed_only weak) rfl).changesOnly rfl⟩
    · rw [apply_ite State.nvm, State.raise_nvm, ite_self, State.refreshed, programmed]
      rfl
    · rw [apply_ite State.nvm, State.raise_nvm, ite_self, State.refreshed, programmed]
      rfl
    · rw [if_neg (eraseDups_ne_nil (by simpa using some))]
      refine (raise_raised _ 22 _).congr ?_ rfl
      rw [State.refreshed, programmed]
      rfl
    · subst none
      rfl
  · intro s a powered page
    have nvm : (s.nvmWordBad [a] a) = (s.setNvm (fun n => { n with lastError := s.errorRecord 2 0xFF a 0x11 0 0xFF })).raise 17
        (s.errorRecord 2 0xFF a 0x11 0 0xFF) := if_neg (by omega)
    have answer : execRefreshPass [] [a] s = .next (s.nvmWordBad [a] a) := if_neg (by simp [powered])
    refine ⟨_, answer, ?_, ?_, ?_⟩
    · rw [nvm, State.raise_nvm]
      rfl
    · have told := raise_raised (s.setNvm (fun n => { n with lastError := s.errorRecord 2 0xFF a 0x11 0 0xFF })) 17
        (s.errorRecord 2 0xFF a 0x11 0 0xFF)
      rw [nvm]
      exact told.congr rfl rfl
    · rw [nvm]
      exact (State.raise_only (State.setNvm_only (.refl 10485760 s) (.of rfl rfl rfl) rfl) rfl).changesOnly rfl
  · intro s off
    exact if_pos (by rw [off]; rfl)
  · intro s powered
    have answer := execNvmLifeCheck_checks powered
    refine ⟨_, answer, fun low new => ?_, fun quiet => ?_, execNvmLifeCheck_only.changesOnly answer rfl⟩
    · rw [if_pos ⟨low, new⟩]
      refine ⟨(raise_raised s 23 _).congr rfl rfl, ?_⟩
      show ({ (s.raise 23 _).nvm with lifeDay := _, perDay := (0 :: (s.raise 23 _).nvm.perDay).take 30 } : Nvm) = _
      rw [State.raise_nvm]
      rfl
    · rw [if_neg]
      · rfl
      · rintro ⟨low, new⟩
        rcases quiet with h | h
        · omega
        · exact new h
  · intro s r b allowed
    have delivered := writeReq_delivers (F := State.wSpread) allowed fun _ _ => State.wSpread_ports
    refine ⟨_, rfl, fun low high => ?_⟩
    have steps : (s.ownerWrote r.cls).wSpread (ofLe b) = ((s.ownerWrote r.cls).scStep (ofLe b)).answer stOk := if_pos ⟨low, high⟩
    refine ⟨?_, fun k => ?_, (delivered.requestOnly (m := 2175795200) (State.wSpread_only (.refl _ _) rfl) rfl rfl).changesOnly rfl⟩
    · rw [delivered.ans, steps]
      rfl
    · have nvm : (s.ownerWrote r.cls).nvm = s.nvm := State.ownerWrote_nvm
      rw [delivered.only.nvm rfl, steps, State.answer_nvm, ← nvm]
      exact scStep_get (ofLe b) k

end

section
/-! PROOFS. Transactions of the H-port (R412-R417). -/
namespace Sys2Proof.Machine

variable {s t u : State} {f : Bytes} {k : Nat}

@[simp] theorem State.raise_isl {s : State} {a1 : _} {a2 : _} : (s.raise a1 a2).isl = s.isl :=
  (State.raise_only (.refl 8388608 s) rfl).isl rfl
@[simp] theorem State.hDone_evt {s : State} {a1 : _} {a2 : _} {a3 : _} {a4 : _} : (s.hDone a1 a2 a3 a4).evt = s.evt :=
  (State.hDone_only (.refl 16777216 s) rfl).evt rfl
@[simp] theorem State.hDone_ans {s : State} {a1 : _} {a2 : _} {a3 : _} {a4 : _} : (s.hDone a1 a2 a3 a4).ans = s.ans :=
  (State.hDone_only (.refl 16777216 s) rfl).ans rfl
@[simp] theorem State.crcFail_ans {s : State} {a1 : _} : (s.crcFail a1).ans = s.ans :=
  (State.crcFail_only (.refl 25165824 s) rfl).ans rfl

/-! ### The record of a port -/

theorem setPort_get (wf : KMap.wf s.ports.p = true) (k : Nat) (g : Port → Port) :
    KMap.get (s.setPort k g).ports.p k = g (KMap.get s.ports.p k) :=
  (KMap.get_upd wf k g k).trans (if_pos rfl)

theorem setPort_wf (wf : KMap.wf s.ports.p = true) (k : Nat) (g : Port → Port) : KMap.wf (s.setPort k g).ports.p = true :=
  KMap.upd_wf wf k g

/-- The end of a transaction notes its result and what HMISO has carried, and counts nothing (Table 16.7). -/
theorem hDone_port (wf : KMap.wf s.ports.p = true) (f : Bytes) (pstat res : Nat) (resp : Option Bytes) : ∃ out,
    KMap.get (s.hDone f pstat res resp).ports.p 0 = { KMap.get s.ports.p 0 with
      lastTag := fld f 6 2, lastResult := res
      lastRetry := if res = 2 then s.ans.retry else (KMap.get s.ports.p 0).lastRetry
      lastStatus := if res = 2 then s.ans.status else 0
      sent := some out } :=
  ⟨_, setPort_get wf 0 _⟩

/-- An event leaves the rings of the commands and of the responses. -/
theorem raise_ring {k n : Nat} {d : Bytes} (h : k ≠ 4) : KMap.get (s.raise n d).evt.rings k = KMap.get s.evt.rings k := by
  have entered : ∀ v : State, ∀ units mk, KMap.get (v.ringPut 4 units mk).evt.rings k = KMap.get v.evt.rings k := by
    intro v units mk
    unfold State.ringPut
    dsimp only
    split
    · exact get_set_other h
    · split
      · exact get_set_other h
      · exact get_set_other h
  rw [raise_eq]
  split
  · unfold State.eventEntry
    split
    · exact entered _ _ _
    · rfl
  · split <;> rfl

/-! ### A frame that is too short, or has a wrong CRC (R416) -/

theorem crcFail_spec (wf : KMap.wf s.ports.p = true) (k : Nat) :
    (KMap.get (s.crcFail k).ports.p k).crcErrors = (KMap.get s.ports.p k).crcErrors + 1 ∧
    (KMap.get (s.crcFail k).ports.p k).rep = (KMap.get s.ports.p k).rep ∧
    KMap.wf (s.crcFail k).ports.p = true ∧
    ((KMap.get s.ports.p k).lastEv50 = none → Raised 50 s (s.crcFail k)) ∧
    (∀ i, i ≠ 4 → KMap.get (s.crcFail k).evt.rings i = KMap.get s.evt.rings i) := by
  unfold State.crcFail
  extract_lets counted p due
  have port : KMap.get counted.ports.p k = { KMap.get s.ports.p k with
      crcErrors := (KMap.get s.ports.p k).crcErrors + 1, crcSince := (KMap.get s.ports.p k).crcSince + 1 } := setPort_get wf k _
  have wf' : KMap.wf counted.ports.p = true := setPort_wf wf k _
  by_cases tells : due = true
  · rw [if_pos tells]
    have ports : (counted.raise 50 (le 1 k ++ le 4 p.crcSince)).ports = counted.ports := State.raise_ports
    have wf'' : KMap.wf (counted.raise 50 (le 1 k ++ le 4 p.crcSince)).ports.p = true := by rw [ports]; exact wf'
    rw [setPort_get wf'', ports, port]
    refine ⟨rfl, rfl, setPort_wf wf'' k _, fun _ => (raise_raised counted 50 _).congr rfl rfl,
      fun i other => raise_ring (s := counted) other⟩
  · rw [if_neg tells]
    rw [port]
    refine ⟨rfl, rfl, wf', fun none => absurd ?_ tells, fun _ _ => rfl⟩
    have last : p.lastEv50 = .none := by
      simp only [p, port]
      exact none
    simp only [due, last]

/-- The state in which the H-port has begun a transaction. -/
def State.hBegun (s : State) : State := s.setPort 0 (fun p => { p with sent := none })

/-- A transaction of a port that serves: it ends as refused for its CRC, or goes on to its command. -/
theorem hport_bad (serves : s.portServes 0 = true) (bad : f.length < 8 ∨ (inlineOp (fld f 0 1) = false ∧
    (f.length ≠ 10 + fld f 4 2 ∨ crc16 (f.take (8 + fld f 4 2)) ≠ fld f (8 + fld f 4 2) 2))) :
    s.hport f = ((s.hBegun.crcFail 0).answer stCrc).hDone f s.pstat 2 none := by
  unfold State.hport
  extract_lets rescue pst begun n len op tag inl whole c resp failed
  rw [if_neg (by simp [serves, rescue])]
  have wrong : (!whole || decide (crc16 c ≠ fld f (8 + len) 2)) = true := by
    rcases bad with short | ⟨ring, length | crc⟩
    · have : whole = false := by simp [whole, n, show ¬ 8 ≤ f.length by omega]
      rw [this]
      rfl
    · have : whole = false := by simp [whole, inl, op, ring, n, len, length]
      rw [this]
      rfl
    · rw [show decide (crc16 c ≠ fld f (8 + len) 2) = true from decide_eq_true crc, Bool.or_true]
  rw [if_pos wrong]
  have silent : (if whole = true then resp failed else none) = none := by
    rcases bad with short | ⟨ring, -⟩
    · have : whole = false := by simp [whole, n, show ¬ 8 ≤ f.length by omega]
      rw [this]
      rfl
    · split
      · exact if_neg (by simp [inl, op, ring])
      · rfl
  rw [silent]
  rfl

/-- A sound command of a ring is none that a port serves itself, and the limits of R412 do not refuse it. -/
theorem ring_command {c : Bytes} (ring : ringOp (cmdOp c) = true) (length : c.length = 8 + cmdLen c) (small : cmdLen c ≤ 4096)
    (body : cmdOp c = 2 ∨ cmdLen c = 0) : (inlineOp (cmdOp c) = false ∧ cmdOp c ≠ 4) ∧ cmdRefusal k c = none := by
  have other : inlineOp (cmdOp c) = false ∧ cmdOp c ≠ 4 ∧ cmdOp c ≠ 6 ∧ cmdOp c ≠ 0x10 := by
    have which := ring
    simp only [ringOp, List.contains_eq_mem, List.mem_cons, List.not_mem_nil, or_false, decide_eq_true_eq] at which
    rcases which with h | h | h <;> rw [h] <;> decide
  refine ⟨⟨other.1, other.2.1⟩, ?_⟩
  unfold cmdRefusal
  dsimp only
  rw [if_neg (Nat.not_lt.mpr small), if_neg (not_not_intro length), if_neg, if_neg, if_neg, if_neg]
  · exact fun h => other.2.2.2 h.1
  · exact fun h => other.2.2.1 h.1
  · rintro ⟨h, k⟩
    rcases body with two | none
    · simp [two] at h
    · exact k none
  · simp [ring, other.2.1]

/-- A sound ring command within the limits of R412 goes to its ring. -/
theorem hport_ring {n : Nat} (serves : s.portServes 0 = true) (len : n = fld f 4 2) (ring : ringOp (fld f 0 1) = true)
    (length : f.length = 10 + n) (small : n ≤ 4096) (body : fld f 0 1 = 2 ∨ n = 0)
    (crc : crc16 (f.take (8 + n)) = fld f (8 + n) 2) : s.hport f =
      (s.hBegun.takeCommand 0 false (f.take (8 + n)) (fld f (8 + n) 2)).1.hDone f s.pstat
        (s.hBegun.takeCommand 0 false (f.take (8 + n)) (fld f (8 + n) 2)).2.code none := by
  have command : cmdOp (f.take (8 + n)) = fld f 0 1 ∧ cmdLen (f.take (8 + n)) = n :=
    ⟨fld_take (by omega), (fld_take (by omega)).trans len.symm⟩
  have size : (f.take (8 + n)).length = 8 + n := by simp [length]
  obtain ⟨other, sound⟩ := ring_command (k := 0) (c := f.take (8 + n)) (by rw [command.1]; exact ring)
    (by rw [command.2, size]) (by rw [command.2]; exact small) (by rw [command.1, command.2]; exact body)
  rw [command.1] at other
  subst len
  unfold State.hport
  extract_lets rescue pst begun m l op tag inl whole c resp
  have notInline : inl = false := other.1
  have isWhole : whole = true := by
    simp [whole, notInline, m, l, length]
    omega
  rw [if_neg (by simp [serves, rescue]), if_neg (by simp [isWhole, c, l, crc]), if_neg (by simp [rescue, serves])]
  simp only [c, l, sound]
  rw [if_neg other.2, if_neg (by simp [notInline])]
  rfl

/-! ### A command in its ring -/

/-- A ring with an entry is not an empty one. -/
theorem ring_ne_default {r : Ring} (h : r.entries ≠ []) : r ≠ default := fun empty => h (by rw [empty]; rfl)

/-- What a port notes of an accepted command: the repeat that it may yet be, and on a GFP port the reply that it owes. -/
def Port.accepting (p : Port) (x : Repeat) (owing : Bool) : Port := { p with
  rep := (x :: p.rep.filter (fun y => y.tag ≠ x.tag)).take 32
  accepted := p.accepted + 1
  owes := if owing = true then some x.tag else p.owes }

/-- A command for which its ring has room. -/
theorem ringCommand_room {k : Nat} {c : Bytes} (room : (c.length + 63) / 64 ≤ s.ringFree (portRing k)) : ∃ t e,
    s.ringCommand k false c = some t ∧
    (KMap.get t.evt.rings (portRing k)).entries = (KMap.get s.evt.rings (portRing k)).entries ++ [e] ∧
    (KMap.get t.evt.rings (portRing k)).seq = (KMap.get s.evt.rings (portRing k)).seq + 1 ∧
    e.seq = (KMap.get s.evt.rings (portRing k)).seq + 1 ∧
    e.data = c ∧ e.port = k ∧ e.bcast = false ∧ e.bad = false ∧ t.evt.pending = s.evt.pending ∧
    t.ports = (s.setPort k (fun p => { p with owes := if decide (k ≠ 0) = true then some (cmdTag c) else p.owes })).ports ∧
    t.ans = s.ans := by
  have taken : s.ringCommand k false c = some (((s.ringAdd (portRing k) (fun _ => {
      units := (c.length + 63) / 64, port := k, data := c, at_ := s.clock.clk })).setRing (portRing k)
        (fun r => { r with refused := false })).setPort k
          (fun p => { p with owes := if k ≠ 0 ∧ !false then some (cmdTag c) else p.owes })) := if_neg (Nat.not_lt.mpr room)
  obtain ⟨x, hx, entries, seq⟩ := ringAdd_get (s := s) (k := portRing k) (e := fun _ => {
      units := (c.length + 63) / 64, port := k, data := c, at_ := s.clock.clk })
  have some_ : (KMap.get (s.ringAdd (portRing k) (fun _ => {
      units := (c.length + 63) / 64, port := k, data := c, at_ := s.clock.clk })).evt.rings (portRing k)).entries ≠ [] := by
    rw [entries]
    exact List.append_ne_nil_of_right_ne_nil _ (List.cons_ne_nil _ _)
  have ring := setRing_get (k := portRing k) (f := fun r => { r with refused := false }) (by exact ring_ne_default some_)
  refine ⟨_, x, taken, ?_, ?_, ?_, ?_, ?_, ?_, ?_, rfl, ?_, rfl⟩
  · exact (congrArg Ring.entries ring).trans entries
  · exact (congrArg Ring.seq ring).trans seq
  iterate 5 rw [hx]
  · simp only [Bool.not_false, and_true, decide_eq_true_eq]
    rfl

/-- A command that repeats none (R412, R413): accepted, its answer to come. -/
theorem takeCommand_accepts {k : Nat} {c : Bytes} {crc : Nat} (wf : KMap.wf s.ports.p = true)
    (new : ∀ x ∈ (KMap.get s.ports.p k).rep, x.tag ≠ cmdTag c ∨ x.crc ≠ crc)
    (room : (c.length + 63) / 64 ≤ s.ringFree (portRing k)) :
    ∃ t e x, s.takeCommand k false c crc = (t, .accepted) ∧
      (KMap.get t.evt.rings (portRing k)).entries = (KMap.get s.evt.rings (portRing k)).entries ++ [e] ∧
      (KMap.get t.evt.rings (portRing k)).seq = (KMap.get s.evt.rings (portRing k)).seq + 1 ∧
      e.seq = (KMap.get s.evt.rings (portRing k)).seq + 1 ∧
      e.data = c ∧ e.port = k ∧ e.bcast = false ∧ e.bad = false ∧ t.evt.pending = s.evt.pending ∧ t.ans = s.ans ∧
      KMap.wf t.ports.p = true ∧ KMap.get t.ports.p k = (KMap.get s.ports.p k).accepting x (decide (k ≠ 0)) ∧
      x.tag = cmdTag c ∧ x.crc = crc ∧ x.resp = none ∧ Only 25165824 s t := by
  have unknown : (KMap.get s.ports.p k).rep.find? (fun x => decide (x.tag = cmdTag c) && decide (x.crc = crc)) = none := by
    rw [List.find?_eq_none]
    intro x listed
    rcases new x listed with h | h <;> simp [h]
  obtain ⟨t, e, taken, entries, seq, eseq, data, port, bcast, bad, pending, ports, ans⟩ := ringCommand_room room
  have accepted : s.takeCommand k false c crc = s.newCommand k false c crc := by
    unfold State.takeCommand
    rw [unknown]
  have wf' : KMap.wf t.ports.p = true := by
    rw [ports]
    exact setPort_wf wf k _
  have record : KMap.get t.ports.p k = { KMap.get s.ports.p k with
      owes := if decide (k ≠ 0) = true then some (cmdTag c) else (KMap.get s.ports.p k).owes } := by
    rw [ports]
    exact setPort_get wf k _
  have noted : s.newCommand k false c crc = (t.setPort k (fun p => { p with
      rep := (({ tag := cmdTag c, crc := crc, seq := (KMap.get t.evt.rings (portRing k)).seq, op := cmdOp c } : Repeat) ::
        p.rep.filter (fun y => y.tag ≠ cmdTag c)).take 32
      accepted := p.accepted + 1 }), .accepted) := by
    unfold State.newCommand
    rw [taken]
  refine ⟨_, e, { tag := cmdTag c, crc := crc, seq := (KMap.get t.evt.rings (portRing k)).seq, op := cmdOp c }, accepted.trans noted,
    entries, seq, eseq, data, port, bcast, bad, pending, ans, setPort_wf wf' k _, ?_, rfl, rfl, rfl, ?_⟩
  · rw [setPort_get wf', record]
    rfl
  · exact State.setPort_only (State.ringCommand_only (.refl _ s) rfl taken) rfl

/-- A command for which SR0 has no room (R417). -/
theorem takeCommand_busy {c : Bytes} {crc : Nat}
    (new : ∀ x ∈ (KMap.get s.ports.p 0).rep, x.tag ≠ cmdTag c ∨ x.crc ≠ crc) (full : s.ringFree 0 < (c.length + 63) / 64) :
    s.takeCommand 0 false c crc = (s.ringBusy 0, .refused) := by
  have unknown : (KMap.get s.ports.p 0).rep.find? (fun x => decide (x.tag = cmdTag c) && decide (x.crc = crc)) = none := by
    rw [List.find?_eq_none]
    intro x listed
    rcases new x listed with h | h <;> simp [h]
  have none_ : s.ringCommand 0 false c = none := if_pos full
  unfold State.takeCommand State.newCommand
  rw [unknown]
  dsimp only
  rw [none_]

theorem ringBusy_spec (wf : KMap.wf s.ports.p = true) : (s.ringBusy 0).ans = { status := stBusy, retry := s.ringRetry 0 } ∧
    (KMap.get (s.ringBusy 0).evt.rings 0).entries = (KMap.get s.evt.rings 0).entries ∧
    (KMap.get (s.ringBusy 0).ports.p 0).busy = (KMap.get s.ports.p 0).busy + 1 ∧ KMap.wf (s.ringBusy 0).ports.p = true ∧
    ((KMap.get s.evt.rings 0).refused = false → Raised 48 s (s.ringBusy 0)) := by
  unfold State.ringBusy
  extract_lets ring counted told
  have counted_port : KMap.get counted.ports.p 0 = { KMap.get s.ports.p 0 with busy := (KMap.get s.ports.p 0).busy + 1 } :=
    setPort_get wf 0 _
  have counted_wf : KMap.wf counted.ports.p = true := setPort_wf wf 0 _
  have ports : told.ports = counted.ports := by
    simp only [told, apply_ite State.ports, State.setRing_ports, State.raise_ports, ite_self]
  have isl : told.isl = s.isl := by
    simp only [told, apply_ite State.isl, State.setRing_isl, State.raise_isl, ite_self]
    rfl
  have clock : told.clock = s.clock := by
    simp only [told, apply_ite State.clock, State.setRing_clock, State.raise_clock, ite_self]
    rfl
  have entries : (KMap.get told.evt.rings 0).entries = (KMap.get s.evt.rings 0).entries := by
    simp only [told]
    split
    · rfl
    · have written := setRing_get (s := counted.raise 48 (le 1 0 ++ le 1 (sat 255 (counted.ringFree 0)))) (k := 0)
        (f := fun r => { r with refused := true }) (fun empty => Bool.noConfusion (show true = false from congrArg Ring.refused empty))
      refine (congrArg Ring.entries written).trans ?_
      exact (congrArg Ring.entries (raise_ring (s := counted) (k := 0) (by decide)) :)
  have retry : told.ringRetry 0 = s.ringRetry 0 := by
    unfold State.ringRetry State.controlLeft State.budgetLeft
    rw [isl, clock, entries]
  refine ⟨?_, entries, ?_, ?_, fun unrefused => ?_⟩
  · show ({ status := stBusy, retry := told.ringRetry 0 } : Answer) = _
    rw [retry]
  · show (KMap.get told.ports.p 0).busy = _
    rw [ports, counted_port]
  · show KMap.wf told.ports.p = true
    rw [ports]
    exact counted_wf
  · have tells : told = (counted.raise 48 (le 1 0 ++ le 1 (sat 255 (counted.ringFree 0)))).setRing 0
        (fun r => { r with refused := true }) := if_neg (by rw [show (KMap.get counted.evt.rings ring).refused = false from unrefused]; exact Bool.false_ne_true)
    have raised := raise_raised counted 48 (le 1 0 ++ le 1 (sat 255 (counted.ringFree 0)))
    rw [tells]
    exact ⟨raised.1, raised.2⟩

/-- A repeat whose command still waits (R414). -/
theorem takeCommand_waits {c : Bytes} {crc : Nat} {x : Repeat} (known : (KMap.get s.ports.p 0).rep.find?
      (fun x => decide (x.tag = cmdTag c) && decide (x.crc = crc)) = some x) (open_ : x.resp = none) :
    s.takeCommand 0 false c crc = (s.setPort 0 (fun p => { p with repeats := p.repeats + 1 }), .repeated) := by
  unfold State.takeCommand
  rw [known]
  dsimp only
  unfold State.repeatCommand
  rw [open_]
  rfl

theorem hBegun_get (wf : KMap.wf s.ports.p = true) : KMap.get s.hBegun.ports.p 0 = { KMap.get s.ports.p 0 with sent := none } :=
  setPort_get wf 0 _

theorem hBegun_wf (wf : KMap.wf s.ports.p = true) : KMap.wf s.hBegun.ports.p = true := setPort_wf wf 0 _

end Sys2Proof.Machine

open Sys2Proof Sys2Proof.Machine

/-- Settles O28: a transaction is what becomes of its command, and the end that notes it. -/
theorem hportTransactions : Obligations.HportTransactions := by
  unfold Obligations.HportTransactions
  refine ⟨fun s f => rfl, fun s f off quiet => ?_, fun s f serves wf bad => ?_, ?_⟩
  · exact congrArg Host.Outcome.next (if_pos (by simp [off, quiet]))
  · have answer : exec (.hportTransaction f) s = .next _ := congrArg Host.Outcome.next (hport_bad serves bad)
    obtain ⟨errors, rep, wf', event, ring⟩ := crcFail_spec (hBegun_wf wf) 0
    obtain ⟨out, record⟩ := hDone_port (s := (s.hBegun.crcFail 0).answer stCrc) wf' f s.pstat 2 none
    rw [hBegun_get wf] at errors rep event
    have evt : (((s.hBegun.crcFail 0).answer stCrc).hDone f s.pstat 2 none).evt = (s.hBegun.crcFail 0).evt := State.hDone_evt
    have frame : Only 2172649472 s (((s.hBegun.crcFail 0).answer stCrc).hDone f s.pstat 2 none) :=
      State.hDone_only (State.answer_only (State.crcFail_only (State.setPort_only (.refl _ s) rfl) rfl) rfl) rfl
    refine ⟨_, answer, State.hDone_ans, ?_, ?_, fun first => ?_, ?_, ?_, frame.changesOnly rfl⟩
    · rw [record]
      exact errors
    · rw [record]
    · exact (event first).congr rfl evt
    · rw [evt]
      exact ring 0 (by decide)
    · rw [record]
      exact rep
  · intro s f n serves wf len ring length small body crc
    have answer : exec (.hportTransaction f) s = .next _ :=
      congrArg Host.Outcome.next (hport_ring serves len ring length small body crc)
    have tag : cmdTag (f.take (8 + n)) = fld f 6 2 := fld_take (by omega)
    have size : (f.take (8 + n)).length = 8 + n := by simp [length]
    have begun := hBegun_get wf
    have begun_wf := hBegun_wf wf
    have start : Only 2172649472 s s.hBegun := State.setPort_only (.refl _ s) rfl
    have start' : Only 25165824 s s.hBegun := State.setPort_only (.refl _ s) rfl
    refine ⟨fun new => ?_, fun x known open_ => ?_⟩
    · have unknown : ∀ x ∈ (KMap.get s.hBegun.ports.p 0).rep, x.tag ≠ cmdTag (f.take (8 + n)) ∨ x.crc ≠ fld f (8 + n) 2 := by
        rw [begun, tag]
        exact new
      refine ⟨fun room => ?_, fun full => ?_⟩
      · obtain ⟨t, e, x, taken, entries, seq, eseq, data, port, bcast, bad, pending, ans, wf', noted, xtag, xcrc, xresp,
          frame⟩ := takeCommand_accepts (k := 0) begun_wf unknown (by rw [size]; exact room)
        obtain ⟨out, record⟩ := hDone_port wf' f s.pstat 1 none
        rw [taken] at answer
        rw [noted, begun] at record
        have evt : (t.hDone f s.pstat 1 none).evt = t.evt := State.hDone_evt
        refine ⟨_, e, answer, ?_, ?_, eseq, data, port, bcast, bad, ?_, ?_, ?_, ⟨x, ?_, xtag.trans tag, xcrc, xresp⟩, ?_,
          (State.hDone_only (start'.trans frame) rfl).changesOnly rfl⟩
        · exact (congrArg (fun v => (KMap.get v.rings 0).entries) evt).trans entries
        · exact (congrArg (fun v => (KMap.get v.rings 0).seq) evt).trans seq
        · exact (congrArg Port.accepted record :)
        · exact congrArg Port.lastResult record
        · exact congrArg Port.lastTag record
        · exact (congrArg (fun p : Port => p.rep.head?) record :)
        · exact (congrArg Evt.pending evt).trans pending
      · have taken := takeCommand_busy unknown (by rw [size]; exact full)
        obtain ⟨ans, entries, busy, wf', event⟩ := ringBusy_spec begun_wf
        obtain ⟨out, record⟩ := hDone_port wf' f s.pstat 2 none
        rw [taken] at answer
        have evt : ((s.hBegun.ringBusy 0).hDone f s.pstat 2 none).evt = (s.hBegun.ringBusy 0).evt := State.hDone_evt
        refine ⟨_, answer, State.hDone_ans.trans ans, ?_, ?_, ?_, ?_, fun unrefused => (event unrefused).congr rfl evt,
          (State.hDone_only (State.ringBusy_only start rfl) rfl).changesOnly rfl⟩
        · exact (congrArg (fun v => (KMap.get v.rings 0).entries) evt).trans entries
        · refine (congrArg Port.busy record).trans (busy.trans ?_)
          rw [begun]
        · exact congrArg Port.lastResult record
        · refine (congrArg Port.lastRetry record).trans ?_
          rw [ans]
          rfl
    · have taken := takeCommand_waits (s := s.hBegun) (c := f.take (8 + n)) (crc := fld f (8 + n) 2) (x := x)
        (by rw [begun, tag]; exact known) open_
      have counted := setPort_get begun_wf 0 (fun p => { p with repeats := p.repeats + 1 })
      obtain ⟨out, record⟩ := hDone_port (setPort_wf begun_wf 0 (fun p => { p with repeats := p.repeats + 1 })) f s.pstat 3 none
      rw [taken] at answer
      rw [counted, begun] at record
      refine ⟨_, answer, (congrArg Port.repeats record :), (congrArg Port.lastResult record :), (congrArg Port.rep record :), ?_⟩
      exact (State.hDone_only (State.setPort_only (State.setPort_only (.refl 16777216 s) rfl) rfl) rfl).changesOnly rfl

end

section
/-! PROOFS. The rings as the ports read and acknowledge them (R419, R420, R441, R442). -/
namespace Sys2Proof.Machine

variable {s t : State}

/-- A port that serves executes an inline command. -/
theorem inline_serves {r : Req} {rescue : Bool} {f : State → State} (single : r.cls ≠ .c) (own : r.bcast = false)
    (serves : s.portServes (portOf r.cls) = true) : s.inline r rescue f = f s :=
  (if_neg (by simp [single, own])).trans (if_pos serves)

theorem getResponse_inline (d : Bool) : s.inline {} true (fun s => s.getResponse 0 d) =
    if s.portServes 0 = true ∨ s.emergencyPort = true then s.getResponse 0 d else s := by
  unfold State.inline
  rw [if_neg (by decide), show portOf ({} : Req).cls = 0 from rfl]
  by_cases serves : s.portServes 0 = true
  · rw [if_pos serves, if_pos (.inl serves)]
  · rw [if_neg serves]
    exact ite_congr (propext ⟨fun h => .inr h.2, fun h => ⟨rfl, h.resolve_left serves⟩⟩) (fun _ => if_pos rfl) (fun _ => rfl)

/-- The entries that one read returns fit it, in number and in bytes, and are the next ones. -/
theorem fitEntries_fits (n room : Nat) (l : List Entry) : fitEntries n room l <+: l ∧ (fitEntries n room l).length ≤ n ∧
    ((fitEntries n room l).flatMap (fun e => e.data)).length ≤ room := by
  induction l generalizing n room with
  | nil =>
    cases n <;> exact ⟨List.prefix_refl _, Nat.zero_le _, Nat.zero_le _⟩
  | cons e l ih =>
    cases n with
    | zero => exact ⟨List.nil_prefix, Nat.le_refl _, Nat.zero_le _⟩
    | succ n =>
      unfold fitEntries
      split
      · exact ⟨List.nil_prefix, Nat.zero_le _, Nat.zero_le _⟩
      next fits =>
        obtain ⟨next, number, bytes⟩ := ih n (room - e.data.length)
        refine ⟨(List.cons_prefix_cons).mpr ⟨rfl, next⟩, ?_, ?_⟩
        · exact Nat.succ_le_succ number
        · rw [List.flatMap_cons, List.length_append]
          omega

/-- The state in which a class has been given entries of a ring: its read position is the last one's. -/
def State.readUpTo (s : State) (q : Cls) (ring : Nat) (out : List Entry) : State := match out.getLast? with
  | none => s
  | some e => s.setRing ring (fun r => { r with read := r.read.set (clsNo q) (e.seq.toNat + 1) })

/-- A read of SR4 to SR6 (R420). -/
theorem ringRead_reads {q : Cls} {ring max : Nat} {l : List Entry} (low : 4 ≤ ring) (high : ring ≤ 6)
    (ahead : (KMap.get s.evt.rings ring).entries.filter (fun e =>
      decide (KMap.get (KMap.get s.evt.rings ring).pos (clsNo q) = 0) ||
        upTo (BitVec.ofNat 32 (KMap.get (KMap.get s.evt.rings ring).pos (clsNo q) - 1)) e.seq) = l) :
    s.ringRead q ring max = (s.readUpTo q ring (fitEntries (if max = 0 then l.length else max) 4096 l)).answerData stOk
      ((fitEntries (if max = 0 then l.length else max) 4096 l).flatMap (fun e => e.data)) := by
  subst ahead
  unfold State.ringRead
  rw [if_neg (by omega), if_neg (by omega)]
  rfl

/-- What reading leaves: the pending bits, and of the rings only the class's read position. -/
theorem readUpTo_rings (q : Cls) (ring : Nat) (out : List Entry) : (s.readUpTo q ring out).evt.pending = s.evt.pending ∧
    (s.readUpTo q ring out).evt.rings = (match out.getLast? with
      | none => s.evt.rings
      | some e => s.evt.rings.upd ring (fun x => { x with read := x.read.set (clsNo q) (e.seq.toNat + 1) })) := by
  unfold State.readUpTo
  cases out.getLast? <;> exact ⟨rfl, rfl⟩

theorem readUpTo_only (q : Cls) (ring : Nat) (out : List Entry) : Only 8388608 s (s.readUpTo q ring out) := by
  unfold State.readUpTo
  cases out.getLast? with
  | none => exact .refl _ _
  | some e => exact State.setRing_only (.refl _ _) rfl

/-- An acknowledgement by a consumer that has not read so far is refused. -/
theorem ringAck_unread {q : Cls} {ring last : Nat} {seq : W32} (low : 4 ≤ ring) (high : ring ≤ 6)
    (consumes : (s.consumers ring).contains q = true) (read : KMap.get (KMap.get s.evt.rings ring).read (clsNo q) = last)
    (past : last = 0 ∨ upTo seq (BitVec.ofNat 32 (last - 1)) = false) : s.ringAck q ring seq = s.answer stRange := by
  subst read
  unfold State.ringAck
  rw [if_neg (by omega), if_neg (fun h => h.elim (by omega) (fun no => Bool.noConfusion (consumes.symm.trans no)))]
  exact if_pos past

/-- The first acknowledgement of a class, up to a number that it has read. -/
theorem ringAck_first {q : Cls} {ring last : Nat} {seq : W32} (low : 4 ≤ ring) (high : ring ≤ 6)
    (consumes : (s.consumers ring).contains q = true) (read : KMap.get (KMap.get s.evt.rings ring).read (clsNo q) = last + 1)
    (reached : upTo seq (BitVec.ofNat 32 last) = true) (first : KMap.get (KMap.get s.evt.rings ring).pos (clsNo q) = 0) :
    s.ringAck q ring seq = (s.setRing ring (fun r => { r with
      entries := (r.entries.map (fun e => if upTo e.seq seq then { e with await := e.await.filter (· ≠ q) } else e)).filter
        (fun e => e.await ≠ [])
      pos := r.pos.set (clsNo q) ((seq + 1).toNat + 1) })).answer stOk := by
  unfold State.ringAck
  rw [if_neg (by omega), if_neg (fun h => h.elim (by omega) (fun no => Bool.noConfusion (consumes.symm.trans no)))]
  dsimp only
  rw [read, first, Nat.add_sub_cancel, reached]
  exact (if_neg (by simp)).trans (if_neg (fun h => h.1 rfl))

end Sys2Proof.Machine

open Sys2Proof Sys2Proof.Machine

/-- Settles O29: a ring command that its port admits is the ring operation itself, and each operation is read off its
definition; what a read returns are the entries that fit it. -/
theorem ringsAreReadAndAcknowledged : Obligations.RingsAreReadAndAcknowledged := by
  unfold Obligations.RingsAreReadAndAcknowledged
  refine ⟨fun s d off quiet => ?_, fun s d serves idle => ⟨fun empty => ?_, fun e rest head => ?_⟩, fun s r ring n q other => ?_, ?_,
    fun s b empty => ?_, fun s b e rest head idle => ?_⟩
  · refine congrArg Host.Outcome.next ((getResponse_inline d).trans (if_neg ?_))
    simp [off, quiet]
  · refine congrArg Host.Outcome.next ((getResponse_inline d).trans ((if_pos serves).trans ?_))
    unfold State.getResponse State.oldestResponse
    dsimp only
    simp only [empty]
    rfl
  · refine congrArg Host.Outcome.next ((getResponse_inline d).trans ((if_pos serves).trans ?_))
    unfold State.getResponse State.oldestResponse
    dsimp only
    simp only [head]
    cases d with
    | false => rfl
    | true => exact portShadows_nil (by exact idle) _ _
  · exact ⟨congrArg Host.Outcome.next (if_pos other), congrArg Host.Outcome.next (if_pos other)⟩
  · intro s r ring n q single own serves
    have read : exec (.ringRead r ring n) s = .next (s.ringRead r.cls ring n) :=
      congrArg Host.Outcome.next (inline_serves single own serves)
    have ack : exec (.ringAck r ring q) s = .next (s.ringAck r.cls ring q) :=
      congrArg Host.Outcome.next (inline_serves single own serves)
    refine ⟨fun outside => ?_, fun last => ?_, fun low high => ?_, fun low high consumed => ⟨?_, ?_⟩⟩
    · rw [read, ack]
      exact ⟨congrArg Host.Outcome.next (if_pos outside), congrArg Host.Outcome.next (if_pos outside)⟩
    · subst last
      exact ⟨read, ack⟩
    · generalize ahead : (KMap.get s.evt.rings ring).entries.filter (fun e =>
          decide (KMap.get (KMap.get s.evt.rings ring).pos (clsNo r.cls) = 0) ||
            upTo (BitVec.ofNat 32 (KMap.get (KMap.get s.evt.rings ring).pos (clsNo r.cls) - 1)) e.seq) = l
      have means := ringRead_reads (s := s) (q := r.cls) (max := n) low high ahead
      obtain ⟨next, number, bytes⟩ := fitEntries_fits (if n = 0 then l.length else n) 4096 l
      generalize fitEntries (if n = 0 then l.length else n) 4096 l = out at means next number bytes
      obtain ⟨pending, rings⟩ := readUpTo_rings (s := s) r.cls ring out
      exact ⟨_, out, read.trans (congrArg Host.Outcome.next means), rfl, bytes, fun some => Nat.le_trans number (Nat.le_of_eq (if_neg some)),
        next, pending, rings, (State.answerData_only (m := 2155872256) ((readUpTo_only r.cls ring out).mono rfl) rfl).changesOnly rfl⟩
    · exact fun last seen past => ack.trans (congrArg Host.Outcome.next (ringAck_unread low high consumed seen past))
    · intro last seen reached first
      exact ⟨_, ack.trans (congrArg Host.Outcome.next (ringAck_first low high consumed seen reached first)), rfl, rfl,
        (State.answer_only (m := 2155872256) (State.setRing_only (.refl _ _) rfl) rfl).changesOnly rfl⟩
  · exact congrArg Host.Outcome.next (by rw [empty])
  · refine congrArg Host.Outcome.next ?_
    rw [head]
    exact portShadows_nil (by exact idle) _ _

end

section
/-! PROOFS. The bulk data window (R421, R422). -/
namespace Sys2Proof.Machine

variable {s t : State} {k : Nat} {b : Bytes}

@[simp] theorem State.throughSr7_ports {s : State} {a1 : _} {a2 : _} : (s.throughSr7 a1 a2).ports = s.ports :=
  (State.throughSr7_only (.refl 8388608 s) rfl).ports rfl
@[simp] theorem State.throughSr7_ans {s : State} {a1 : _} {a2 : _} : (s.throughSr7 a1 a2).ans = s.ans :=
  (State.throughSr7_only (.refl 8388608 s) rfl).ans rfl
@[simp] theorem State.raise_mem {s : State} {a1 : _} {a2 : _} : (s.raise a1 a2).mem = s.mem :=
  (State.raise_only (.refl 8388608 s) rfl).mem rfl

/-! ### BULK_SET -/

theorem bulkSet_length (wrong : b.length ≠ 12) : s.bulkSet k b = s.answer stBadType := if_pos wrong

theorem bulkSet_unknown (length : b.length = 12) (unknown : bulkArea (fld b 0 1) = none) : s.bulkSet k b = s.answer stRange := by
  unfold State.bulkSet
  dsimp only
  rw [unknown]
  exact if_neg (not_not_intro length)

/-- A window of a known area: its range is checked, then the right to read it. -/
theorem bulkSet_known {base size : Nat} (length : b.length = 12) (known : bulkArea (fld b 0 1) = some (base, size)) :
    s.bulkSet k b =
      if fld b 8 4 = 0 ∨ size < fld b 4 4 + fld b 8 4 ∨ (fld b 0 1 = 1 ∧ (fld b 4 4 % 16 ≠ 0 ∨ fld b 8 4 % 16 ≠ 0)) then
        s.answer stRange
      else if (!if fld b 0 1 ≤ 2 then s.slotMayRead (7 + k) (base + fld b 4 4) else s.mem.locked) = true then
        (s.violate (7 + k) (base + fld b 4 4) (if fld b 0 1 ≤ 2 then bankOf (base + fld b 4 4) else 0x11) 1).answer stRights
      else (s.setPort k (fun p => { p with
        bulk := { area := fld b 0 1, off := fld b 4 4, count := fld b 8 4, left := fld b 8 4 } })).answer stOk := by
  unfold State.bulkSet
  dsimp only
  rw [known]
  exact if_neg (not_not_intro length)

/-- A blocked request counts, and raises EV18 where its slot never did (R293). -/
theorem violate_spec (slot addr target right : Nat) :
    (s.violate slot addr target right).mem.violations = sat (2 ^ 32 - 1) (s.mem.violations + 1) ∧
    (s.violate slot addr target right).ports = s.ports ∧
    (KMap.get s.mem.lastEv18 slot = none → Raised 18 s (s.violate slot addr target right)) := by
  unfold State.violate
  extract_lets noted due counted
  by_cases tells : due = true
  · rw [if_pos tells]
    have mem : (counted.raise 18 noted).mem = counted.mem := State.raise_mem
    refine ⟨(congrArg Mem.violations mem :), State.raise_ports, fun _ => (raise_raised counted 18 noted).congr rfl rfl⟩
  · rw [if_neg tells]
    refine ⟨rfl, rfl, fun first => absurd ?_ tells⟩
    simp only [due, first]

/-! ### BULK_READ -/

/-- The oldest burst of a window is delivered, when SR7 has room for it or the port is the H-port. -/
theorem bulkRead_delivers {x : Port} {d : Bytes} {rest : List (Option Bytes)} (port : KMap.get s.ports.p k = x)
    (opened : x.bulk.left ≠ 0) (oldest : x.bulk.buf = some d :: rest) (fits : k = 0 ∨ (8 + d.length + 63) / 64 ≤ s.ringFree 7) :
    ∃ u, u = (s.throughSr7 k d.length).setPort k (fun p => { p with
        bulk := { x.bulk with left := x.bulk.left - d.length, buf := rest } }) ∧
      s.bulkRead k = (if x.bulk.left - d.length = 0 then u.raise 51 (le 1 k ++ le 1 x.bulk.area ++ le 4 x.bulk.count)
        else u).answerData stOk d := by
  refine ⟨_, rfl, ?_⟩
  unfold State.bulkRead
  dsimp only
  rw [port, if_neg opened, oldest]
  exact if_neg (fun full => full.1 (fits.resolve_right (Nat.not_le_of_lt full.2)))

theorem throughSr7_raised (k len : Nat) : (s.throughSr7 k len).evt.pending = s.evt.pending ∧
    (s.throughSr7 k len).evt.count = s.evt.count := by
  unfold State.throughSr7
  split <;> exact ⟨rfl, rfl⟩

/-- Whether an event was raised is a matter of the pending bits and the counts before it. -/
theorem Raised.of_same {n : Nat} {u : State} (h : Raised n t u) (pending : t.evt.pending = s.evt.pending)
    (count : t.evt.count = s.evt.count) : Raised n s u := by
  unfold Raised at h ⊢
  rwa [pending, count] at h

/-! ### The fetch of a burst -/

/-- A window whose buffers are full, or that has all its bytes, fetches nothing. -/
theorem bulkFill_idle {w : Bulk} (window : w = (KMap.get s.ports.p k).bulk)
    (full : w.left ≤ w.held ∨ 2 ≤ w.buf.length ∨ w.buf.contains none = true) : s.bulkFill k = s := by
  subst window
  unfold State.bulkFill
  dsimp only
  split
  · rfl
  · refine if_pos (full.imp_left fun all => ?_)
    rw [Nat.sub_eq_zero_of_le all, Nat.min_zero]

theorem bulkFill_fetches {w : Bulk} {base size : Nat} (window : w = (KMap.get s.ports.p k).bulk)
    (known : bulkArea w.area = some (base, size)) (more : w.held < w.left) (room : w.buf.length < 2)
    (sound : w.buf.contains none = false) : s.bulkFill k = s.setPort k (fun p => { p with bulk := { w with buf := w.buf ++
      [if s.burst (decide (w.area ≤ 2)) (base + w.off + (w.count - w.left) + w.held) (min 4096 (w.left - w.held)) = [] then none
        else some (s.burst (decide (w.area ≤ 2)) (base + w.off + (w.count - w.left) + w.held) (min 4096 (w.left - w.held)))] } }) := by
  subst window
  unfold State.bulkFill
  dsimp only
  rw [known]
  refine if_neg ?_
  rw [sound]
  rintro (nothing | twice | bad)
  · omega
  · omega
  · exact Bool.noConfusion bad

end Sys2Proof.Machine

open Sys2Proof Sys2Proof.Machine

/-- Settles O30: a bulk command that its port admits is the window's operation itself, branch by branch. -/
theorem bulkWindow : Obligations.BulkWindow := by
  unfold Obligations.BulkWindow
  refine ⟨fun s r b other => ?_, ?_, fun s q k base size w single port window => ⟨fun off => ?_, fun serves full => ?_,
    fun serves known more room sound d burst => ?_⟩⟩
  · exact ⟨congrArg Host.Outcome.next (if_pos other), congrArg Host.Outcome.next (if_pos other),
      congrArg Host.Outcome.next (if_pos (.inl rfl))⟩
  · rintro s r b k single own rfl serves
    have sets : exec (.bulkSet r b) s = .next (s.bulkSet (portOf r.cls) b) :=
      congrArg Host.Outcome.next (inline_serves single own serves)
    have reads : exec (.bulkRead r) s = .next (s.bulkRead (portOf r.cls)) :=
      congrArg Host.Outcome.next (inline_serves single own serves)
    generalize portOf r.cls = k at serves sets reads
    refine ⟨fun wrong => ?_, fun length unknown => ?_, fun base size length known => ?_, fun x port => ?_⟩
    · exact sets.trans (congrArg Host.Outcome.next (bulkSet_length wrong))
    · exact sets.trans (congrArg Host.Outcome.next (bulkSet_unknown length unknown))
    · have checked := sets.trans (congrArg Host.Outcome.next (bulkSet_known length known))
      refine ⟨fun outside => checked.trans (congrArg Host.Outcome.next (if_pos outside)), fun some inside whole => ?_⟩
      have inRange : ¬ (fld b 8 4 = 0 ∨ size < fld b 4 4 + fld b 8 4 ∨
          (fld b 0 1 = 1 ∧ (fld b 4 4 % 16 ≠ 0 ∨ fld b 8 4 % 16 ≠ 0))) := by
        rintro (nothing | past | ⟨area, odd⟩)
        · exact some nothing
        · omega
        · have := whole area
          omega
      rw [if_neg inRange] at checked
      refine ⟨fun allowed => ?_, fun forbidden => ?_⟩
      · exact checked.trans (congrArg Host.Outcome.next (if_neg (by rw [allowed]; exact Bool.noConfusion)))
      · obtain ⟨counted, ports, raised⟩ := violate_spec (s := s) (7 + k) (base + fld b 4 4)
          (if fld b 0 1 ≤ 2 then bankOf (base + fld b 4 4) else 0x11) 1
        refine ⟨_, checked.trans (congrArg Host.Outcome.next (if_pos (by rw [forbidden]; rfl))), rfl, counted, ports, raised, ?_⟩
        exact (State.answer_only (m := 2189426688) (State.violate_only (.refl _ _) rfl) rfl).changesOnly rfl
    · refine ⟨fun ended => ?_, fun opened none => ?_, fun rest opened poisoned => ?_, fun d rest opened oldest fits => ?_⟩
      · refine reads.trans (congrArg Host.Outcome.next ?_)
        unfold State.bulkRead
        rw [port]
        exact if_pos ended
      · refine reads.trans (congrArg Host.Outcome.next ?_)
        unfold State.bulkRead
        dsimp only
        rw [port, if_neg opened, none]
      · refine reads.trans (congrArg Host.Outcome.next ?_)
        unfold State.bulkRead
        dsimp only
        rw [port, if_neg opened, poisoned]
        subst port
        rfl
      · obtain ⟨u, read, means⟩ := bulkRead_delivers port opened oldest fits
        have pending : u.evt.pending = s.evt.pending := read ▸ (throughSr7_raised k d.length).1
        have count : u.evt.count = s.evt.count := read ▸ (throughSr7_raised k d.length).2
        have ports : u.ports = { s.ports with p := s.ports.p.upd k (fun p => { p with
            bulk := { p.bulk with left := p.bulk.left - d.length, buf := rest } }) } := by
          subst read port
          unfold State.setPort
          dsimp only
          rw [State.throughSr7_ports]
          rfl
        have only : Only 2172649472 s u := read ▸ State.setPort_only (State.throughSr7_only (.refl _ _) rfl) rfl
        refine ⟨_, reads.trans (congrArg Host.Outcome.next means), rfl, ?_, fun last => ?_, fun more => ?_, ?_⟩
        · refine Eq.trans ?_ ports
          exact (apply_ite State.ports _ _ _).trans ((congrArg (ite _ · _) State.raise_ports).trans (ite_self _))
        · have raised := (raise_raised u 51 (le 1 k ++ le 1 x.bulk.area ++ le 4 x.bulk.count)).of_same pending count
          refine raised.congr rfl ?_
          exact (congrArg State.evt (if_pos (Nat.sub_eq_zero_of_le last)) :)
        · exact (congrArg (fun v : State => v.evt.pending) (if_neg (Nat.sub_ne_zero_of_lt more))).trans pending
        · refine (State.answerData_only (m := 2172649472) ?_ rfl).changesOnly rfl
          exact only_ite (fun _ => State.raise_only only rfl) (fun _ => only)
  · refine congrArg Host.Outcome.next (if_pos (.inr ?_))
    subst port
    exact off
  · subst port
    exact congrArg Host.Outcome.next ((if_neg (by simp [single, serves])).trans (bulkFill_idle window full))
  · subst port burst
    refine congrArg Host.Outcome.next ((if_neg (by simp [single, serves])).trans
      ((bulkFill_fetches window known more room sound).trans ?_))
    subst window
    rfl

end

section
/-! PROOFS. The frames of a GFP port (R424-R426, R428). -/
namespace Sys2Proof.Machine

variable {s t : State} {k : Nat} {f : Bytes}

@[simp] theorem State.crcFail_clock {s : State} {a1 : _} : (s.crcFail a1).clock = s.clock :=
  (State.crcFail_only (.refl 25165824 s) rfl).clock rfl
@[simp] theorem State.setTime_ports {s : State} {a1 : _} {a2 : _} : (s.setTime a1 a2).ports = s.ports :=
  (State.setTime_only (.refl 76021762 s) rfl).ports rfl

/-- The state in which a GFP port has begun to take a frame. -/
def State.gfpBegun (s : State) (k : Nat) : State := s.setPort k (fun p => { p with sent := none })

/-- A GFP port that does not serve, or without the delimiter, takes no frame. -/
theorem gfp_off {p : Bool} (kind : Nat) (g : State → Bytes → Bool → State)
    (off : s.portServes (gfpPort p) = false ∨ f.take 2 ≠ [0xC5, 0x3A]) : s.gfp p kind f g = s := if_pos off

theorem gfp_begun {p : Bool} (kind : Nat) (g : State → Bytes → Bool → State) (serves : s.portServes (gfpPort p) = true)
    (starts : f.take 2 = [0xC5, 0x3A]) : s.gfp p kind f g =
      if gfpGood f = false then (s.gfpBegun (gfpPort p)).crcFail (gfpPort p)
      else if s.gfpMine (gfpPort p) f = false ∨ fld f 3 1 % 16 ≠ kind then s.gfpBegun (gfpPort p)
      else g (s.gfpBegun (gfpPort p)) (slice f 6 (fld f 4 2)) (decide (fld f 2 1 = 0)) :=
  if_neg (fun off => off.elim (fun no => Bool.noConfusion (serves.symm.trans no)) (fun no => no starts))

/-- A frame with a bad CRC is counted. -/
theorem gfp_bad {p : Bool} (kind : Nat) (g : State → Bytes → Bool → State) (serves : s.portServes (gfpPort p) = true)
    (starts : f.take 2 = [0xC5, 0x3A]) (bad : gfpGood f = false) :
    s.gfp p kind f g = (s.gfpBegun (gfpPort p)).crcFail (gfpPort p) := (gfp_begun kind g serves starts).trans (if_pos bad)

/-- A good frame for the port goes on by its kind. -/
theorem gfp_own {p : Bool} {kind : Nat} (g : State → Bytes → Bool → State) (serves : s.portServes (gfpPort p) = true)
    (starts : f.take 2 = [0xC5, 0x3A]) (good : gfpGood f = true) (mine : s.gfpMine (gfpPort p) f = true)
    (is : fld f 3 1 % 16 = kind) :
    s.gfp p kind f g = g (s.gfpBegun (gfpPort p)) (slice f 6 (fld f 4 2)) (decide (fld f 2 1 = 0)) :=
  (gfp_begun kind g serves starts).trans ((if_neg (by rw [good]; exact Bool.noConfusion)).trans
    (if_neg (fun other => other.elim (fun no => Bool.noConfusion (mine.symm.trans no)) (fun no => no is))))

theorem gfpBegun_get (wf : KMap.wf s.ports.p = true) (k : Nat) :
    KMap.get (s.gfpBegun k).ports.p k = { KMap.get s.ports.p k with sent := none } := setPort_get wf k _

theorem gfpBegun_wf (wf : KMap.wf s.ports.p = true) (k : Nat) : KMap.wf (s.gfpBegun k).ports.p = true := setPort_wf wf k _

/-- A field of the body of a frame is the field of the frame six bytes on. -/
theorem slice_slice {b : Bytes} {at_ m off n : Nat} (h : off + n ≤ m) : slice (slice b at_ m) off n = slice b (at_ + off) n := by
  unfold slice
  rw [List.drop_take, List.take_take, Nat.min_eq_left (by omega), List.drop_drop]

theorem fld_slice {b : Bytes} {at_ m off n : Nat} (h : off + n ≤ m) : fld (slice b at_ m) off n = fld b (at_ + off) n :=
  congrArg ofLe (slice_slice h)

/-- A good frame holds the body that its LENGTH tells. -/
theorem gfpGood_body {n : Nat} (good : gfpGood f = true) (len : n ≤ fld f 4 2) : (slice f 6 n).length = n := by
  unfold gfpGood at good
  simp only [Bool.and_eq_true, decide_eq_true_eq] at good
  have whole := good.1.2
  unfold slice
  rw [List.length_take, List.length_drop]
  omega

/-- A sound ring command of a frame for one port alone goes to SR2 when it repeats none. -/
theorem gfpCommand_ring {c : Bytes} {crc : Nat} {n : Nat} (ring : ringOp (cmdOp c) = true) (length : c.length = 8 + n)
    (len : cmdLen c = n) (small : n ≤ 4096) (body : cmdOp c = 2 ∨ n = 0) (taken : s.takeCommand k false c crc = (t, .accepted)) :
    s.gfpCommand k crc c false = t := by
  subst len
  obtain ⟨other, sound⟩ := ring_command (k := k) ring length small body
  unfold State.gfpCommand
  dsimp only
  rw [if_neg (by simp), sound]
  dsimp only
  rw [if_neg (by rw [other.1]; exact Bool.noConfusion), taken]
  exact if_neg (fun refused => Taken.noConfusion refused.1)

/-- What a TIME_SYNC does with its offset: off, it notes; within 1 s it goes on; within the limit it slews (R428). -/
theorem syncBy_acts {v l e : Nat} :
    (s.cfgB oFSyncEnable = false → s.syncBy v l e = (s, 3)) ∧
    (s.cfgB oFSyncEnable = true → s.lc ≠ 5 → (syncOffset v l).natAbs < 1000000 →
      s.syncBy v l e = ({ s with clock := { s.clock with slew := 0 } }, 0)) ∧
    (s.cfgB oFSyncEnable = true → s.lc ≠ 5 → 1000000 ≤ (syncOffset v l).natAbs →
      (syncOffset v l).natAbs ≤ s.cfg oFSyncSlewMs * 1024000 →
      s.syncBy v l e = ({ s with clock := { s.clock with slew := Int.tdiv (syncOffset v l) 1000000 } }, 1)) := by
  have enabled : s.cfgB oFSyncEnable = true → ¬ s.cfgB oFSyncEnable = false := fun on off => Bool.noConfusion (on.symm.trans off)
  refine ⟨fun off => if_pos off, fun on life small => ?_, fun on life large slews => ?_⟩
  · exact (if_neg (enabled on)).trans ((if_neg life).trans (if_pos small))
  · exact (if_neg (enabled on)).trans ((if_neg life).trans ((if_neg (Nat.not_lt.mpr large)).trans (if_pos slews)))

theorem syncBy_only (v l e : Nat) : Only 76021762 s (s.syncBy v l e).1 := by
  unfold State.syncBy
  dsimp only
  split
  · exact .refl _ _
  split
  · exact .refl _ _
  split
  · exact only_set_clock (.refl _ _) (Nat.le_refl _) rfl
  split
  · exact only_set_clock (.refl _ _) (Nat.le_refl _) rfl
  split
  · exact .refl _ _
  · exact State.setTime_only (.refl _ _) rfl

end Sys2Proof.Machine

open Sys2Proof Sys2Proof.Machine

/-- Settles O31: a frame is refused, counted, or goes on by its kind to the command, the poll or the synchronization. -/
theorem gfpFrames : Obligations.GfpFrames := by
  unfold Obligations.GfpFrames
  refine ⟨fun s p f l e off => ?_, fun s p off => ?_, ?_, ?_, ?_, ?_, ?_⟩
  · exact ⟨congrArg Host.Outcome.next (gfp_off _ _ off), congrArg Host.Outcome.next (gfp_off _ _ off),
      congrArg Host.Outcome.next (gfp_off _ _ off)⟩
  · exact ⟨congrArg Host.Outcome.next (if_neg (by rw [off]; exact Bool.noConfusion)), congrArg Host.Outcome.next (if_pos off)⟩
  · rintro s p k c f l e rfl serves wf bad
    have counted : ∀ u : State, u.evt = s.evt → u.clock = s.clock → KMap.wf u.ports.p = true →
        (KMap.get u.ports.p (gfpPort p)).crcErrors = (KMap.get s.ports.p (gfpPort p)).crcErrors →
        (KMap.get u.ports.p (gfpPort p)).lastEv50 = (KMap.get s.ports.p (gfpPort p)).lastEv50 → Only 25165824 s u →
        exec c s = .next (u.crcFail (gfpPort p)) → ∃ t, exec c s = .next t ∧
          (KMap.get t.ports.p (gfpPort p)).crcErrors = (KMap.get s.ports.p (gfpPort p)).crcErrors + 1 ∧ t.clock = s.clock ∧
          ((KMap.get s.ports.p (gfpPort p)).lastEv50 = none → Raised 50 s t) ∧ KMap.get t.evt.rings 2 = KMap.get s.evt.rings 2 ∧
          changesOnly [.evt, .ports] s t := by
      intro u evt clock wf' errors last only answer
      obtain ⟨count, -, -, event, rings⟩ := crcFail_spec wf' (gfpPort p)
      refine ⟨_, answer, count.trans (congrArg (· + 1) errors), State.crcFail_clock.trans clock,
        fun first => (event (last.trans first)).congr evt rfl, ?_, (State.crcFail_only only rfl).changesOnly rfl⟩
      exact (rings 2 (by decide)).trans (congrArg (fun v : Evt => KMap.get v.rings 2) evt)
    rcases bad with invalid | ⟨starts, bad, kind⟩
    · subst invalid
      exact counted s rfl rfl wf rfl rfl (.refl _ _) (congrArg Host.Outcome.next (if_pos serves))
    · have begun := gfpBegun_get wf (gfpPort p)
      refine counted (s.gfpBegun (gfpPort p)) rfl rfl (gfpBegun_wf wf (gfpPort p)) (by rw [begun]) (by rw [begun])
        (State.setPort_only (.refl _ _) rfl) ?_
      rcases kind with rfl | rfl | rfl <;> exact congrArg Host.Outcome.next (gfp_bad _ _ serves starts bad)
  · rintro s p k n f rfl serves wf starts good mine single command length len small ring body new room
    have answer : exec (.gfpCommand p f) s = .next _ := congrArg Host.Outcome.next (gfp_own _ serves starts good mine command)
    rw [decide_eq_false single, ← length] at answer
    have op : cmdOp (slice f 6 (n + 8)) = fld f 6 1 := fld_slice (by omega)
    have size : cmdLen (slice f 6 (n + 8)) = n := (fld_slice (by omega)).trans len.symm
    have tag : cmdTag (slice f 6 (n + 8)) = fld f 12 2 := fld_slice (by omega)
    have whole : (slice f 6 (n + 8)).length = 8 + n := by
      rw [gfpGood_body good (by omega), Nat.add_comm]
    have begun := gfpBegun_get wf (gfpPort p)
    have port : portRing (gfpPort p) = 2 ∧ gfpPort p ≠ 0 := by cases p <;> decide
    obtain ⟨t, e, x, taken, entries, -, -, data, from_, bcast, -, -, -, -, noted, xtag, -, -, only⟩ :=
      takeCommand_accepts (k := gfpPort p) (c := slice f 6 (n + 8)) (crc := fld f (14 + n) 4) (gfpBegun_wf wf _)
        (by rw [begun, tag]; exact new) (by rw [whole, port.1]; exact room)
    rw [port.1] at entries
    rw [begun, decide_eq_true port.2] at noted
    refine ⟨t, e, answer.trans (congrArg Host.Outcome.next ?_), entries, ?_, from_, bcast, ?_, ?_, ?_, ?_⟩
    · rw [show 6 + (n + 8) = 14 + n by omega]
      exact gfpCommand_ring (by rw [op]; exact ring) whole size small (by rw [op]; exact body) taken
    · rw [data, Nat.add_comm n 8]
    · rw [noted, ← tag, ← xtag]
      rfl
    · rw [noted]
      rfl
    · rw [noted]
      rfl
    · exact ((State.setPort_only (.refl _ _) rfl : Only 25165824 s (s.gfpBegun (gfpPort p))).trans only).changesOnly rfl
  · rintro s p k f rfl serves wf starts good mine single poll idle
    have answer : exec (.poll p f) s = .next _ := congrArg Host.Outcome.next (gfp_own _ serves starts good mine poll)
    rw [decide_eq_false single] at answer
    generalize gfpPort p = k at *
    have begun := gfpBegun_get wf k
    have wf' := gfpBegun_wf wf k
    refine ⟨fun none_ => ?_, fun e oldest => ?_⟩
    · have empty : (KMap.get s.evt.rings 3).entries.find? (fun e => decide (e.port = k)) = none :=
        List.find?_eq_none.mpr (fun e he => by simp [none_ e he])
      have means : (s.gfpBegun k).gfpPoll k = (s.gfpBegun k).setPort k (fun p => { p with sent := some (s.gfpFrame 5 []) }) := by
        unfold State.gfpPoll
        rw [show (KMap.get (s.gfpBegun k).evt.rings 3) = KMap.get s.evt.rings 3 from rfl, empty]
        rfl
      refine ⟨_, answer.trans (congrArg Host.Outcome.next means), ?_,
        (State.setPort_only (State.setPort_only (.refl 16777216 _) rfl) rfl).changesOnly rfl⟩
      rw [setPort_get wf']
    · have means : (s.gfpBegun k).gfpPoll k = ((s.gfpBegun k).setPort k (fun p => { p with
          sent := some (s.gfpFrame 2 e.data) })).setRing 3 (fun r => { r with
            entries := r.entries.filter (fun x => x.seq ≠ e.seq) }) := by
        unfold State.gfpPoll
        rw [show (KMap.get (s.gfpBegun k).evt.rings 3) = KMap.get s.evt.rings 3 from rfl, oldest]
        exact portShadows_nil (by exact idle) _ _
      have port := setPort_get wf' k (fun p => { p with sent := some (s.gfpFrame 2 e.data) })
      rw [begun] at port
      exact ⟨_, answer.trans (congrArg Host.Outcome.next means), (congrArg Port.sent port :), rfl, (congrArg Port.rep port :),
        (State.setRing_only (State.setPort_only (State.setPort_only (.refl 25165824 _) rfl) rfl) rfl).changesOnly rfl⟩
  · rintro s p k l e f rfl serves starts good mine sync eight
    have answer : exec (.timeSync p f l e) s = .next _ := congrArg Host.Outcome.next (gfp_own _ serves starts good mine sync)
    generalize begun : s.gfpBegun (gfpPort p) = u at answer
    have time : fld (slice f 6 8) 0 6 = fld f 6 6 := fld_slice (by decide)
    have stamp : slice (slice f 6 8) 0 6 = slice f 6 6 := slice_slice (by decide)
    have length : (slice f 6 8).length = 8 := gfpGood_body good (by omega)
    rw [eight, if_neg (not_not_intro length)] at answer
    dsimp only at answer
    rw [time, stamp] at answer
    obtain ⟨off, small, slews⟩ := syncBy_acts (s := u) (v := fld f 6 6) (l := l) (e := e)
    subst begun
    refine ⟨_, _, answer, rfl, fun disabled => ?_, fun enabled life near => ?_, fun enabled life far within => ?_, ?_⟩
    · rw [off disabled]
      exact ⟨rfl, rfl⟩
    · rw [small enabled life near]
      exact ⟨rfl, rfl⟩
    · rw [slews enabled life far within]
      exact ⟨rfl, rfl⟩
    · refine (State.setPorts_only (m := 92798978) ?_ rfl).changesOnly rfl
      exact (State.setPort_only (.refl 92798978 s) rfl).trans ((syncBy_only _ _ _).mono rfl)
  · rintro s p k tag rfl serves
    have runs : ¬ s.portServes (gfpPort p) = false := fun off => Bool.noConfusion (serves.symm.trans off)
    refine ⟨fun none => congrArg Host.Outcome.next ((if_neg runs).trans ?_),
      fun some => congrArg Host.Outcome.next ((if_neg runs).trans ?_)⟩
    · rw [none]
    · rw [some]
      rfl

end

section
/-! PROOFS. Requests at the head of their ring, and the checks of Table 2.4 (R41, R44, R413). -/
namespace Sys2Proof.Machine

variable {s : State} {r : Req} {op i j : Nat} {b : Bytes} {e : Entry}

/-- A request at the head of its ring waits while the island is away or the response has no room. -/
theorem request_waits (g : State → State) (head : s.headIs r op i j b = some e)
    (waits : s.controlAway = true ∨ s.noRoom r.cls = true) : s.request r op i j b g = s := by
  unfold State.request
  rw [head]
  exact if_pos waits

/-- A request whose entry has lost words is answered CRC_ERROR. -/
theorem request_bad (g : State → State) (head : s.headIs r op i j b = some e) (here : s.controlAway = false)
    (room : s.noRoom r.cls = false) (bad : e.bad = true) : s.request r op i j b g = (s.answer stCrc).respondTo e r op := by
  unfold State.request
  rw [head, here, room]
  dsimp only
  rw [bad]
  rfl

/-- A request that came by no ring is answered while the island is away. -/
theorem request_away (g : State → State) (none_ : s.headIs r op i j b = none) (away : s.controlAway = true) :
    s.request r op i j b g = s.answerRetry stRestarting s.controlLeft := by
  unfold State.request
  rw [none_]
  exact if_pos away

/-- The check that a refused write failed is the first that fails, in the order of Table 2.4. -/
theorem checkWrite_error {q : Cls} {x : Nat × Nat} (refused : s.checkWrite q i j b = .error x) :
    (cardOf i j = none ∧ x = (stNoObject, 0)) ∨
    (∃ c, cardOf i j = some c ∧
      ((c.mayWrite q = false ∧ x = (stRights, 0)) ∨
       (c.mayWrite q = true ∧ s.lcPermits q c (okey i j) b = false ∧ x = (stLifecycle, 0)) ∨
       (c.mayWrite q = true ∧ s.lcPermits q c (okey i j) b = true ∧ ∃ ms, s.busyFor q (okey i j) = some ms ∧ x = (stBusy, ms)) ∨
       (c.mayWrite q = true ∧ s.lcPermits q c (okey i j) b = true ∧ s.busyFor q (okey i j) = none ∧
        ((typeOk c.ty b = false ∧ x = (stBadType, 0)) ∨
         (typeOk c.ty b = true ∧ (c.fits (ofLe b) && s.valueOk (okey i j) (ofLe b)) = false ∧ x = (stRange, 0)) ∨
         (typeOk c.ty b = true ∧ (c.fits (ofLe b) && s.valueOk (okey i j) (ofLe b)) = true ∧ c.eff = .s ∧
          s.blockRuns (okey i j) = true ∧ x = (stRunning, 0)))))) := by
  unfold State.checkWrite at refused
  split at refused
  next absent => exact .inl ⟨absent, (Except.error.inj refused).symm⟩
  next c present =>
    refine .inr ⟨c, present, ?_⟩
    dsimp only at refused
    split at refused
    next rights => exact .inl ⟨rights, (Except.error.inj refused).symm⟩
    next rights =>
    have rights := eq_true_of_ne_false rights
    split at refused
    next life => exact .inr (.inl ⟨rights, life, (Except.error.inj refused).symm⟩)
    next life =>
    have life := eq_true_of_ne_false life
    split at refused
    next ms busy => exact .inr (.inr (.inl ⟨rights, life, ms, busy, (Except.error.inj refused).symm⟩))
    next free =>
    refine .inr (.inr (.inr ⟨rights, life, free, ?_⟩))
    split at refused
    next type => exact .inl ⟨type, (Except.error.inj refused).symm⟩
    next type =>
    have type := eq_true_of_ne_false type
    split at refused
    next range => exact .inr (.inl ⟨type, range, (Except.error.inj refused).symm⟩)
    next range =>
    have range := eq_true_of_ne_false range
    split at refused
    next running => exact .inr (.inr ⟨type, range, running.1, running.2, (Except.error.inj refused).symm⟩)
    · exact nomatch refused

end Sys2Proof.Machine

open Sys2Proof Sys2Proof.Machine

/-- Settles O34: a request is decided by its head, the island and the room, and a refused write by the first check it fails. -/
theorem requestsWaitAndAreChecked : Obligations.RequestsWaitAndAreChecked := by
  unfold Obligations.RequestsWaitAndAreChecked
  refine ⟨fun s r i j b e head waits other => ?_, fun s r i j e head waits => ?_, fun s r i j e head here room bad idle => ?_,
    fun s r i j absent away => ?_, fun s r i j absent away => ?_, fun s q i j b e => checkWrite_error⟩
  · have plain : ¬ (i = 0x8100 ∧ j = 2) := fun own => other.elim (fun h => h own.1) (fun h => h own.2)
    exact congrArg Host.Outcome.next ((if_neg plain).trans (request_waits _ head waits))
  · exact congrArg Host.Outcome.next (request_waits _ head waits)
  · exact ⟨_, congrArg Host.Outcome.next (request_bad _ head here room bad), respondTo_delivered (by exact idle) e r 1⟩
  · exact congrArg Host.Outcome.next (request_away _ absent away)
  · exact congrArg Host.Outcome.next (request_away _ absent away)

end

section
/-! PROOFS. TIME_NOW, the RTC tick, snapshots, ACC_CLEAR and MD_RESET (R50, R158, R189, R193, R197). -/
namespace Sys2Proof.Machine

variable {s t u : State} {q : Cls}

@[simp] theorem State.aggForce_clock {s : State} : (s.aggForce).clock = s.clock :=
  (State.aggForce_only (.refl 10500096 s) rfl).clock rfl
@[simp] theorem State.demandForce_clock {s : State} : (s.demandForce).clock = s.clock :=
  (State.demandForce_only (.refl 2162688 s) rfl).clock rfl
@[simp] theorem State.profForce_clock {s : State} : (s.profForce).clock = s.clock :=
  (State.profForce_only (.refl 10551296 s) rfl).clock rfl
@[simp] theorem State.balForce_clock {s : State} : (s.balForce).clock = s.clock :=
  (State.balForce_only (.refl 378142720 s) rfl).clock rfl
@[simp] theorem State.wSnap_ports {s : State} {a1 : _} {a2 : _} : (s.wSnap a1 a2).ports = s.ports :=
  (State.wSnap_only (.refl 2147549184 s) rfl).ports rfl
@[simp] theorem State.wAccClear_ports {s : State} {a1 : _} {a2 : _} : (s.wAccClear a1 a2).ports = s.ports :=
  (State.wAccClear_only (.refl 2158034944 s) rfl).ports rfl
@[simp] theorem State.wMdReset_ports {s : State} {a1 : _} {a2 : _} : (s.wMdReset a1 a2).ports = s.ports :=
  (State.wMdReset_only (.refl 2158034944 s) rfl).ports rfl
@[simp] theorem State.logBoth_acc {s : State} {a1 : _} {a2 : _} : (s.logBoth a1 a2).acc = s.acc :=
  (State.logBoth_only (.refl 10485760 s) rfl).acc rfl
@[simp] theorem State.jSave_acc {s : State} {a1 : _} : (s.jSave a1).acc = s.acc :=
  (State.jSave_only (.refl 2097152 s) rfl).acc rfl
@[simp] theorem State.jSave_clock {s : State} {a1 : _} : (s.jSave a1).clock = s.clock :=
  (State.jSave_only (.refl 2097152 s) rfl).clock rfl

theorem setTime_spec (s : State) (v : Stamp) (c : Nat) :
    (s.setTime v c).clock = { s.clock with
      prevRtc := s.clock.rtc, prevLatch := s.clock.latch, rtc := v, latch := s.clock.clk, slew := 0, lastSet := s.now
      stepped := true } ∧
    (s.setTime v c).tamper = { s.tamper with suspect := false } ∧ (s.setTime v c).pp = { s.pp with frozen := true } ∧
    KMap.get (s.setTime v c).evt.pending 54 = true :=
  ⟨State.raise_clock, State.raise_tamper, State.raise_pp, (raise_raised _ _ _).pending⟩

/-- The RTC at its next second, its clock latched (R158). -/
def State.nextSecond (s : State) : State := { s with clock := { s.clock with
  prevRtc := s.clock.rtc, prevLatch := s.clock.latch, rtc := (s.clock.rtc / 1024 + 1) * 1024, latch := s.clock.clk, stepped := false
  slew := if 0 < s.clock.slew then s.clock.slew - 1 else if s.clock.slew < 0 then s.clock.slew + 1 else 0 } }

theorem nextSecond_only (s : State) : Only 2 s s.nextSecond := only_set_clock (.refl _ _) (Nat.le_refl _) rfl

/-- A snapshot that waits is taken with the number given, and STALE where it is late (R193). -/
theorem snapTake_spec (s : State) (k : Nat) (seq : W32) (at_ : Stamp) : ∃ x,
    (s.snapTake k seq at_ true).acc = { s.acc with snaps := s.acc.snaps.set k x } ∧ x.state = 3 ∧ x.seq = seq ∧
    x.subject = (KMap.get s.acc.snaps k).subject := ⟨_, rfl, rfl, rfl, rfl⟩

/-- ACC_CLEAR of a disabled entry zeroes its line and no other. -/
theorem wAccClear_spec {n : Nat} (disabled : meEnable (s.cfg (oMapEntry n)) = false) :
    (s.wAccClear q n).ans = { status := stOk } ∧
    (s.wAccClear q n).acc.lines = s.acc.lines.set n { KMap.get s.acc.lines n with value := 0 } ∧
    (s.wAccClear q n).acc.energy = s.acc.energy ∧ (s.wAccClear q n).acc.quality = s.acc.quality ∧
    (s.wAccClear q n).acc.demand = s.acc.demand := by
  unfold State.wAccClear
  rw [if_neg (by rw [disabled]; exact Bool.false_ne_true)]
  extract_lets l old close cleared profiled saved
  have acc : ((saved.logBoth 3 (saved.clearRecord q n old)).answer stOk).acc = profiled.acc :=
    State.answer_acc.trans (State.logBoth_acc.trans State.jSave_acc)
  rw [acc]
  exact ⟨rfl, rfl, rfl, rfl, rfl⟩

/-! ### The maxima -/

/-- The maxima of the given entries are reset at an instant (R197). -/
def State.resetMaxima (s : State) (at_ : Stamp) (es : List Nat) : State :=
  es.foldl (fun s n => s.setDemand n (fun x => { x with max := 0, maxAt := at_ })) s

theorem setDemand_acc (n : Nat) (f : Demand → Demand) :
    (s.setDemand n f).acc = { s.acc with demand := s.acc.demand.upd n f } := by
  unfold State.setDemand
  dsimp only
  split <;> rfl

theorem resetMaxima_spec (at_ : Stamp) (es : List Nat) (wf : KMap.wf s.acc.demand = true) :
    (s.resetMaxima at_ es).acc = { s.acc with demand := (s.resetMaxima at_ es).acc.demand } ∧
    ∀ n, KMap.get (s.resetMaxima at_ es).acc.demand n =
      if n ∈ es then { KMap.get s.acc.demand n with max := 0, maxAt := at_ } else KMap.get s.acc.demand n := by
  unfold State.resetMaxima
  induction es generalizing s with
  | nil => exact ⟨rfl, fun n => (if_neg List.not_mem_nil).symm⟩
  | cons m es ih =>
    have written := setDemand_acc (s := s) m (fun x => { x with max := 0, maxAt := at_ })
    obtain ⟨acc, reads⟩ := ih (s := s.setDemand m (fun x => { x with max := 0, maxAt := at_ }))
      ((congrArg (fun a : Acc => KMap.wf a.demand) written).trans (KMap.upd_wf wf m (fun x : Demand => { x with max := 0, maxAt := at_ })))
    rw [List.foldl_cons]
    refine ⟨?_, fun n => (reads n).trans ?_⟩
    · rw [acc, written]
    · rw [written]
      dsimp only
      rw [KMap.get_upd wf]
      by_cases here : n = m <;> by_cases there : n ∈ es <;> simp [here, there]

/-- MD_RESET is the reset of its subject's maxima, saved before and logged after. -/
theorem wMdReset_spec (v : Nat) (wf : KMap.wf s.acc.demand = true) :
    (s.wMdReset q v).ans = { status := stOk } ∧ (s.wMdReset q v).acc = { s.acc with demand := (s.wMdReset q v).acc.demand } ∧
    ∀ n, KMap.get (s.wMdReset q v).acc.demand n =
      if n ∈ ((s.subjEntries (subjOf (bits v 15 14) (bits v 9 0))).filter (fun e => meDemand e.2)).map Prod.fst then
        { KMap.get s.acc.demand n with max := 0, maxAt := s.now }
      else KMap.get s.acc.demand n := by
  unfold State.wMdReset
  extract_lets es groups saved at_ reset
  have kept : saved.acc = s.acc := State.jSave_acc
  have acc : ((reset.logBoth 4 (reset.clearRecord q v 0)).answer stOk).acc = reset.acc := State.answer_acc.trans State.logBoth_acc
  have now : at_ = s.now := now_congr State.jSave_clock
  obtain ⟨others, reads⟩ := resetMaxima_spec (s := saved) at_ es (by rw [kept]; exact wf)
  rw [acc]
  rw [kept] at others reads
  rw [← now]
  exact ⟨rfl, others, reads⟩

theorem ownerWrote_subjEntries (n : Nat) : (s.ownerWrote q).subjEntries n = s.subjEntries n := by
  unfold State.subjEntries State.mapEntries
  rw [State.ownerWrote_dict]

end Sys2Proof.Machine

open Sys2Proof Sys2Proof.Machine

/-- Settles O35: each write comes to its meaning, whose own lemma says what it sets; the tick is read off its definition. -/
theorem timeSnapshotsAndClears : Obligations.TimeSnapshotsAndClears := by
  unfold Obligations.TimeSnapshotsAndClears
  refine ⟨fun s r b allowed => ?_, fun s => ?_, fun s r b allowed => ?_, fun s q off => ?_, fun s q on waits => ?_,
    fun s r b n allowed number => ?_, fun s r b v allowed value wf => ?_⟩
  · have d := writeReq_delivers (F := fun s v => (s.setTime v (clsNo r.cls)).answer stOk) allowed (fun u v => State.setTime_ports)
    obtain ⟨clock, tamper, pp, pending⟩ := setTime_spec (s.ownerWrote r.cls) (ofLe b) (clsNo r.cls)
    have now : (s.ownerWrote r.cls).now = s.now := now_congr State.ownerWrote_clock
    rw [State.ownerWrote_clock, now] at clock
    rw [State.ownerWrote_tamper] at tamper
    rw [State.ownerWrote_pp] at pp
    refine ⟨_, rfl, d.ans, (congrArg State.clock d :).trans clock, (congrArg State.tamper d :).trans tamper,
      (congrArg State.pp d :).trans pp, ?_, (d.requestOnly (q := r.cls) (m := 2241331202) ?_ rfl rfl).changesOnly rfl⟩
    · rw [d.pending]
      exact pending
    · exact State.answer_only (State.setTime_only (.refl _ _) rfl) rfl
  · have answer : exec .rtcSecondTick s = .next (if s.clock.stepped = true ∧ s.powered = true then
        s.nextSecond.aggForce.demandForce.profForce.balForce else s.nextSecond) := rfl
    have only : Only 380319746 s s.nextSecond := (nextSecond_only s).mono rfl
    refine ⟨_, answer, ?_, fun plain => ?_, Only.changesOnly (m := 380319746) ?_ rfl⟩
    · refine (apply_ite State.clock _ _ _).trans ?_
      rw [State.balForce_clock, State.profForce_clock, State.demandForce_clock, State.aggForce_clock, ite_self]
      rfl
    · have calm : ¬ (s.clock.stepped = true ∧ s.powered = true) := by
        rintro ⟨stepped, powered⟩
        rcases plain with h | h
        · exact Bool.noConfusion (stepped.symm.trans h)
        · exact Bool.noConfusion (powered.symm.trans h)
      rw [if_neg calm]
      exact (nextSecond_only s).changesOnly rfl
    · refine only_ite (fun _ => ?_) (fun _ => only)
      exact State.balForce_only (State.profForce_only (State.demandForce_only (State.aggForce_only only rfl) rfl) rfl) rfl
  · have d := writeReq_delivers (F := fun s v => s.wSnap (clsNo r.cls) v) allowed (fun u v => rfl)
    refine ⟨_, rfl, ?_⟩
    unfold State.wSnap State.setAcc at d
    rw [State.ownerWrote_acc] at d
    exact d
  · refine if_pos ?_
    rcases off with off | off
    · exact .inr (by rw [off]; rfl)
    · exact .inl off
  · generalize late : (if bits (KMap.get s.acc.snaps (clsNo q)).subject 15 14 = 2 then
      ((s.bal.get (bits (KMap.get s.acc.snaps (clsNo q)).subject 9 0)).cycle - 1,
        (s.bal.get (bits (KMap.get s.acc.snaps (clsNo q)).subject 9 0)).lastEnd)
      else ((s.accts.get (bits (KMap.get s.acc.snaps (clsNo q)).subject 9 0)).lastCommitted,
        (s.accts.get (bits (KMap.get s.acc.snaps (clsNo q)).subject 9 0)).lastEnd) : W32 × Stamp) = last
    have answer : exec (.snapshotTimeout q) s = .next (s.snapTake (clsNo q) last.1 last.2 true) := by
      refine (if_neg ?_).trans (congrArg (fun l : W32 × Stamp => Host.Outcome.next (s.snapTake (clsNo q) l.1 l.2 true)) late)
      rintro (other | off)
      · exact other waits
      · rw [on] at off
        exact Bool.noConfusion off
    obtain ⟨x, acc, stale, number, subject⟩ := snapTake_spec s (clsNo q) last.1 last.2
    refine ⟨_, x, answer, acc, stale, subject, fun account => ?_, (State.snapTake_only (m := 65536) (.refl _ _) rfl).changesOnly rfl⟩
    rw [subject] at account ⊢
    rw [number, ← late, if_neg account]
  · subst number
    have d := writeReq_delivers (F := fun s v => s.wAccClear r.cls v) allowed (fun u v => State.wAccClear_ports)
    have enable : (s.ownerWrote r.cls).cfg (oMapEntry (ofLe b)) = s.cfg (oMapEntry (ofLe b)) := ownerWrote_cfg r.cls _
    refine ⟨_, rfl, fun enabled => ?_, fun disabled => ?_⟩
    · have refused : (s.ownerWrote r.cls).wAccClear r.cls (ofLe b) = (s.ownerWrote r.cls).answer stRange :=
        if_pos (by rw [enable]; exact enabled)
      exact refused ▸ d
    · obtain ⟨ans, lines, energy, quality, demand⟩ := wAccClear_spec (s := s.ownerWrote r.cls) (q := r.cls) (n := ofLe b)
        (by rw [enable]; exact disabled)
      rw [State.ownerWrote_acc] at lines energy quality demand
      have acc := (congrArg State.acc d :)
      refine ⟨d.ans.trans ans, ?_, ?_, ?_, ?_, (d.requestOnly (m := 2175860736) (State.wAccClear_only (.refl _ _) rfl) rfl rfl).changesOnly rfl⟩
      · exact (congrArg Acc.lines acc).trans lines
      · exact (congrArg Acc.energy acc).trans energy
      · exact (congrArg Acc.quality acc).trans quality
      · exact (congrArg Acc.demand acc).trans demand
  · subst value
    have d := writeReq_delivers (F := fun s v => s.wMdReset r.cls v) allowed (fun u v => State.wMdReset_ports)
    obtain ⟨ans, others, reads⟩ := wMdReset_spec (s := s.ownerWrote r.cls) (q := r.cls) (ofLe b) (by rw [State.ownerWrote_acc]; exact wf)
    have acc : ((s.writeReq r 0xB000 0x79 b (fun s _ v => s.wMdReset r.cls v))).acc =
      ((s.ownerWrote r.cls).wMdReset r.cls (ofLe b)).acc := (congrArg State.acc d :)
    have now : (s.ownerWrote r.cls).now = s.now := now_congr State.ownerWrote_clock
    rw [State.ownerWrote_acc] at others reads
    rw [← acc] at others reads
    rw [ownerWrote_subjEntries, now] at reads
    refine ⟨_, rfl, d.ans.trans ans, others, fun e listed tracks => ?_, fun n untracked => ?_,
      (d.requestOnly (m := 2175860736) (State.wMdReset_only (.refl _ _) rfl) rfl rfl).changesOnly rfl⟩
    · exact (reads e.1).trans (if_pos (List.mem_map_of_mem (List.mem_filter.mpr ⟨listed, tracks⟩)))
    · refine (reads n).trans (if_neg fun listed => ?_)
      obtain ⟨e, chosen, rfl⟩ := List.mem_map.mp listed
      obtain ⟨listed, tracks⟩ := List.mem_filter.mp chosen
      exact Bool.noConfusion (tracks.symm.trans (untracked e listed rfl))

end

section
/-! PROOFS. Pulse outputs, event flags, ring consumers, fast-trip pins and threshold enables (R95, R99, R100, R203-R205, R442, R447). -/
namespace Sys2Proof.Machine

variable {s t u w : State} {r : Req} {i j key v : Nat} {b : Bytes} {q : Cls} {c : Card}

@[simp] theorem State.pulseRun_nvm {s : State} {a1 : _} {a2 : _} : (s.pulseRun a1 a2).nvm = s.nvm :=
  (State.pulseRun_only (.refl 65536 s) rfl).nvm rfl
@[simp] theorem State.pulseRun_dict {s : State} {a1 : _} {a2 : _} : (s.pulseRun a1 a2).dict = s.dict :=
  (State.pulseRun_only (.refl 65536 s) rfl).dict rfl
@[simp] theorem State.pulseRun_evt {s : State} {a1 : _} {a2 : _} : (s.pulseRun a1 a2).evt = s.evt :=
  (State.pulseRun_only (.refl 65536 s) rfl).evt rfl
@[simp] theorem State.pulseRun_ports {s : State} {a1 : _} {a2 : _} : (s.pulseRun a1 a2).ports = s.ports :=
  (State.pulseRun_only (.refl 65536 s) rfl).ports rfl
@[simp] theorem State.pulseRun_cal {s : State} {a1 : _} {a2 : _} : (s.pulseRun a1 a2).cal = s.cal :=
  (State.pulseRun_only (.refl 65536 s) rfl).cal rfl
@[simp] theorem State.pulseRun_clock {s : State} {a1 : _} {a2 : _} : (s.pulseRun a1 a2).clock = s.clock :=
  (State.pulseRun_only (.refl 65536 s) rfl).clock rfl
@[simp] theorem State.ftRelease_th {s : State} {a1 : _} : (s.ftRelease a1).th = s.th :=
  (State.ftRelease_only (.refl 8388736 s) rfl).th rfl
@[simp] theorem State.wFtripState_ports {s : State} {a1 : _} : (s.wFtripState a1).ports = s.ports :=
  (State.wFtripState_only (.refl 2147483776 s) rfl).ports rfl
@[simp] theorem State.ownerWrote_th {s : State} {a1 : _} : (s.ownerWrote a1).th = s.th :=
  (State.ownerWrote_only (.refl 1048576 s) rfl).th rfl
@[simp] theorem State.ownerWrote_ftrip {s : State} {a1 : _} : (s.ownerWrote a1).ftrip = s.ftrip :=
  (State.ownerWrote_only (.refl 1048576 s) rfl).ftrip rfl
@[simp] theorem State.thSet_ports {s : State} {a1 : _} {a2 : _} : (s.thSet a1 a2).ports = s.ports :=
  (State.thSet_only (.refl 8388800 s) rfl).ports rfl
@[simp] theorem State.thSet_dict {s : State} {a1 : _} {a2 : _} : (s.thSet a1 a2).dict = s.dict :=
  (State.thSet_only (.refl 8388800 s) rfl).dict rfl
@[simp] theorem State.consumersNew_ports {s : State} {a1 : _} {a2 : _} : (s.consumersNew a1 a2).ports = s.ports :=
  (State.consumersNew_only (.refl 8388608 s) rfl).ports rfl
@[simp] theorem State.consumersNew_dict {s : State} {a1 : _} {a2 : _} : (s.consumersNew a1 a2).dict = s.dict :=
  (State.consumersNew_only (.refl 8388608 s) rfl).dict rfl
@[simp] theorem State.consumersNew_ans {s : State} {a1 : _} {a2 : _} : (s.consumersNew a1 a2).ans = s.ans :=
  (State.consumersNew_only (.refl 8388608 s) rfl).ans rfl
@[simp] theorem State.pulseNew_ports {s : State} {a1 : _} {a2 : _} : (s.pulseNew a1 a2).ports = s.ports :=
  (State.pulseNew_only (.refl 65536 s) rfl).ports rfl
@[simp] theorem State.pulseNew_ans {s : State} {a1 : _} {a2 : _} : (s.pulseNew a1 a2).ans = s.ans :=
  (State.pulseNew_only (.refl 65536 s) rfl).ans rfl

/-! ### A write that alters its object at once -/

/-- What an altering write comes with: it is allowed, has a new value, passes the view's checks, and its record is taken. -/
theorem altersTo_spec (alters : s.altersTo r i j b = true) : s.allows r i j b = true ∧ KMap.wf s.dict.active = true ∧
    s.cfg (okey i j) ≠ ofLe b ∧ (s.ownerWrote r.cls).crossed r.cls (okey i j) (ofLe b) = true ∧
    ∀ c, cardOf i j = some c → c.eff = .i ∧ ((s.ownerWrote r.cls).persist c (okey i j) (ofLe b)).isSome = true := by
  unfold State.altersTo at alters
  simp only [Bool.and_eq_true, decide_eq_true_eq] at alters
  obtain ⟨⟨⟨⟨allowed, wf⟩, fresh⟩, crossed⟩, row⟩ := alters
  refine ⟨allowed, wf, fresh, crossed, fun c card => ?_⟩
  rw [card] at row
  simp only [Bool.and_eq_true, decide_eq_true_eq] at row
  exact row

/-- The write of such a value makes it active and is answered OK, whatever follows it. -/
theorem writePlain_alters (eff : c.eff = .i) (crossed : u.crossed q key v = true) (stored : (u.persist c key v).isSome = true)
    (quiet : actsOn key = false) (fresh : u.cfg key ≠ v) (wf : KMap.wf u.dict.active = true) : ∃ w, Activated u key v w ∧
      w.cfg key = v ∧ (∀ f, u.writeNew q c key v f = f (w.answer stOk)) ∧ ∀ f, u.writeThen q c key v f = f (w.answer stOk) := by
  obtain ⟨p, taken⟩ := Option.isSome_iff_exists.mp stored
  obtain ⟨w, active, plain⟩ := writePlain_takes (.inl eff) crossed taken quiet fresh
  refine ⟨w, active, active.cfg_same wf, fun f => writeNew_takes plain fresh, fun f => ?_⟩
  unfold State.writeThen
  dsimp only
  rw [plain]
  exact if_pos rfl

/-- Whether the store takes a record is a matter of the store. -/
theorem persist_isSome (nvm : t.nvm = s.nvm) : (t.persist c key v).isSome = (s.persist c key v).isSome := by
  have put : ∀ (cal : Bool) len, (t.storePut cal key v len).isSome = (s.storePut cal key v len).isSome := by
    intro cal len
    unfold State.storePut
    rw [nvm]
    dsimp only
    cases (if cal = true then s.nvm.cal else s.nvm.cfg).put cal s.nvm.bad key v len <;> rfl
  unfold State.persist
  split
  · exact put _ _
  · exact put _ _
  · rfl

/-! ### The pulse outputs -/

/-- No cross check of R43 concerns the pulse outputs. -/
theorem crossOk_pulse (n : Fin 8) (cst : Bool) (x : State) (v : Nat) :
    s.crossOk x (if cst then oPulseConst n.val else oPulseConfig n.val) v = true := by
  match n with
  | 0 | 1 | 2 | 3 | 4 | 5 | 6 | 7 => cases cst <;> rfl

theorem actsOn_pulse (n : Fin 8) (cst : Bool) : actsOn (if cst then oPulseConst n.val else oPulseConfig n.val) = false := by
  match n with
  | 0 | 1 | 2 | 3 | 4 | 5 | 6 | 7 => cases cst <;> rfl

theorem okey_pulse (n : Fin 8) (cst : Bool) : okey 0xB000 ((if cst then oPulseConst n.val else oPulseConfig n.val) % 256) =
    if cst then oPulseConst n.val else oPulseConfig n.val := by
  match n with
  | 0 | 1 | 2 | 3 | 4 | 5 | 6 | 7 => cases cst <;> rfl

theorem pulseRun_acc (k floor : Nat) :
    (s.pulseRun k floor).acc = { s.acc with pulses := (s.pulseRun k floor).acc.pulses } ∧
    (∀ j, j ≠ k → KMap.get (s.pulseRun k floor).acc.pulses j = KMap.get s.acc.pulses j) ∧
    (KMap.wf s.acc.pulses = true → KMap.wf (s.pulseRun k floor).acc.pulses = true) := by
  unfold State.pulseRun
  split
  · exact ⟨rfl, fun j other => get_set_other other, fun wf => KMap.upd_wf wf _ _⟩
  · exact ⟨rfl, fun _ _ => rfl, id⟩

theorem pulseRun_on {k floor n : Nat} : (s.pulseRun k floor).pulseOn n = s.pulseOn n :=
  congrArg (fun x => bit x 0) (cfg_congr (congrArg Dict.active State.pulseRun_dict) _)

/-- The falling edge of an output that owes nothing is its last happening. -/
theorem runTo_falls {p : Pulse} {width x floor now at_ fuel : Nat} (edges : p.edges = [(at_, false)]) (nothing : p.owed = 0)
    (due : at_ ≤ now) : p.runTo false width x floor now (fuel + 2) = { p with edges := [], level := false, lastEdge := some at_ } := by
  have step : p.step1 false width x floor now = some { p with edges := [], level := false, lastEdge := some at_ } := by
    unfold Pulse.step1
    dsimp only
    rw [edges, nothing]
    exact if_neg (by simp) |>.trans (if_neg (Nat.not_lt.mpr due))
  have last : ({ p with edges := [], level := false, lastEdge := some at_ } : Pulse).step1 false width x floor now = none := by
    unfold Pulse.step1
    dsimp only
    rw [nothing]
    rfl
  unfold Pulse.runTo
  rw [step]
  unfold Pulse.runTo
  dsimp only
  rw [last]

/-- A scheduled edge of an output that owes nothing comes due at its time. -/
theorem pulseEdge_due {n : Fin 8} {t0 : Nat} {up : Bool} {rest : List (Nat × Bool)} (powered : s.powered = true)
    (edges : (KMap.get s.acc.pulses n.val).edges = (t0, up) :: rest) (nothing : (KMap.get s.acc.pulses n.val).owed = 0) :
    exec (.pulseEdge n) s = .next ((s.toClk (usClk t0)).pulseRun n.val 0) := by
  unfold exec execPulseEdge
  dsimp only
  rw [edges, nothing]
  exact congrArg Host.Outcome.next (if_pos powered)

theorem us_usClk (t0 : Nat) : t0 ≤ (s.toClk (usClk t0)).us := by
  show t0 ≤ max s.clock.clk ((t0 * 512 + 124) / 125) * 125 / 512
  omega

theorem setPulse_get (wf : KMap.wf s.acc.pulses = true) (n : Nat) (f : Pulse → Pulse) :
    KMap.get (s.setPulse n f).acc.pulses n = f (KMap.get s.acc.pulses n) := (KMap.get_upd wf n f n).trans (if_pos rfl)

/-- A new value of PULSE_CONFIG or PULSE_CONST on an output that is off drops what it owes (R205). -/
theorem pulseNew_spec (n : Nat) (on : Bool) (wf : KMap.wf s.acc.pulses = true) :
    (s.pulseNew n on).acc.lines = s.acc.lines ∧ (s.pulseNew n on).dict = s.dict ∧
    (∀ j, j ≠ n → KMap.get (s.pulseNew n on).acc.pulses j = KMap.get s.acc.pulses j) ∧
    (s.pulseOn n = false → KMap.get (s.pulseNew n on).acc.pulses n = { KMap.get s.acc.pulses n with
      level := false, edges := [], residue := 0, owed := 0 }) := by
  unfold State.pulseNew
  by_cases runs : s.pulseOn n = true
  · rw [if_neg (by simp [runs])]
    refine ⟨?_, ?_, fun j other => ?_, fun off => Bool.noConfusion (runs.symm.trans off)⟩
    · split <;> rfl
    · split <;> rfl
    · split <;> exact get_set_other other
  · rw [if_pos (by simp [runs])]
    exact ⟨rfl, rfl, fun j other => get_set_other other, fun _ => setPulse_get wf n _⟩

/-! ### The flags of the events -/

theorem wPending_spec (wf : KMap.wf s.evt.pending = true) (n : Nat) :
    KMap.get (s.wPending v).evt.pending n = (KMap.get s.evt.pending n && !(setList v 64).contains n) := get_foldl_clear _ wf n

/-! ### The consumers of the rings -/

/-- A delivery touches only the command rings and the response rings. -/
theorem respondTo_ring (idle : s.ports.fWait = []) (e : Entry) (r : Req) (op : Nat) {k : Nat} (high : 4 ≤ k) :
    KMap.get (s.respondTo e r op).evt.rings k = KMap.get s.evt.rings k := by
  have low : cmdRing r.cls < 3 := by cases r.cls <;> decide
  unfold State.respondTo
  extract_lets ring taken a f answered seq noted told
  have none_ : told = noted := fAssign_nil (by exact idle) _
  rw [none_]
  have first : KMap.get taken.evt.rings k = KMap.get s.evt.rings k := get_set_other (by omega)
  have second : KMap.get answered.evt.rings k = KMap.get s.evt.rings k := (get_set_other (by omega)).trans first
  split
  · rw [fAssign_nil (by exact idle)]
    exact first
  · split
    · rw [portShadows_nil (by exact idle)]
      exact (get_set_other (by omega)).trans second
    · exact second

theorem request_ring {op : Nat} {f : State → State} (serves : s.serves r op i j b = true) (idle : (f s).ports.fWait = []) {k : Nat}
    (high : 4 ≤ k) : KMap.get (s.request r op i j b f).evt.rings k = KMap.get (f s).evt.rings k := by
  unfold State.serves at serves
  simp only [Bool.and_eq_true, Bool.not_eq_true'] at serves
  obtain ⟨⟨here, -⟩, head⟩ := serves
  unfold State.request
  cases found : s.headIs r op i j b with
  | none =>
    dsimp only
    rw [if_neg (by simp [here]), fAssign_nil idle]
  | some e =>
    rw [found] at head
    simp only [Bool.and_eq_true, Bool.not_eq_true'] at head
    dsimp only
    rw [if_neg (by simp [here, head.1]), if_neg (by simp [head.2])]
    exact respondTo_ring idle e r op high

/-- An allowed write comes to its meaning, its answer is delivered, and the rings from SR4 on are its meaning's. -/
theorem writeReq_comes {F : State → Card → Nat → State} {x : State} (allowed : s.allows r i j b = true) (card : cardOf i j = some c)
    (means : F (s.ownerWrote r.cls) c (ofLe b) = x) (idle : x.ports.fWait = []) :
    Delivered x (s.writeReq r i j b F) ∧
      ∀ k, 4 ≤ k → KMap.get (s.writeReq r i j b F).evt.rings k = KMap.get x.evt.rings k := by
  subst means
  unfold State.allows at allowed
  rw [Bool.and_eq_true] at allowed
  have taken : s.checked r i j b F = F (s.ownerWrote r.cls) c (ofLe b) := by
    cases found : s.checkWrite r.cls i j b with
    | error x =>
      rw [found] at allowed
      exact absurd allowed.2 Bool.noConfusion
    | ok x =>
      obtain ⟨same, row⟩ := checkWrite_ok found
      obtain rfl := Option.some.inj (card.symm.trans row)
      unfold State.checked
      rw [found]
      exact congrArg (F (s.ownerWrote r.cls) x.1) same
  rw [← taken] at idle ⊢
  exact ⟨request_delivered (f := fun s => s.checked r i j b F) allowed.1 idle, fun k high => request_ring allowed.1 idle high⟩

theorem Activated.ports (h : Activated s key v t) : t.ports = s.ports := h.only.ports rfl

/-- A write that alters its object at once, and what it goes on to. -/
theorem writeReq_alters {F : State → Card → Nat → State} {g : State → State} (alters : s.altersTo r i j b = true)
    (quiet : actsOn (okey i j) = false)
    (means : ∀ c, F (s.ownerWrote r.cls) c (ofLe b) = (s.ownerWrote r.cls).writeNew r.cls c (okey i j) (ofLe b) g ∨
      F (s.ownerWrote r.cls) c (ofLe b) = (s.ownerWrote r.cls).writeThen r.cls c (okey i j) (ofLe b) g)
    (ports : ∀ u, (g u).ports = u.ports) (dict : ∀ u, (g u).dict = u.dict) : ∃ w,
      Activated (s.ownerWrote r.cls) (okey i j) (ofLe b) w ∧ (s.writeReq r i j b F).cfg (okey i j) = ofLe b ∧
      Delivered (g (w.answer stOk)) (s.writeReq r i j b F) ∧
      ∀ k, 4 ≤ k → KMap.get (s.writeReq r i j b F).evt.rings k = KMap.get (g (w.answer stOk)).evt.rings k := by
  obtain ⟨allowed, wf, fresh, crossed, row⟩ := altersTo_spec alters
  obtain ⟨c, card⟩ := card_of_allows allowed
  obtain ⟨eff, stored⟩ := row c card
  obtain ⟨w, active, value, new, then_⟩ := writePlain_alters (u := s.ownerWrote r.cls) (q := r.cls) eff crossed stored quiet
    (by rw [ownerWrote_cfg]; exact fresh) (by rw [State.ownerWrote_dict]; exact wf)
  have idle : (g (w.answer stOk)).ports.fWait = [] := by
    rw [ports]
    exact (congrArg Ports.fWait (active.ports.trans (ownerWrote_ports s r.cls))).trans (fWait_of_allows allowed)
  obtain ⟨d, rings⟩ := writeReq_comes allowed card ((means c).elim (·.trans (new g)) (·.trans (then_ g))) idle
  exact ⟨w, active, (cfg_congr (congrArg Dict.active (d.dict.trans (dict _))) _).trans value, d, rings⟩

/-! ### New consumers -/

/-- A ring whose entries all wait, and only for the classes given. -/
def Ring.AwaitedBy (x : Ring) (now : List Cls) : Prop := ∀ e ∈ x.entries, e.await ≠ [] ∧ ∀ q ∈ e.await, q ∈ now

theorem setRing_wf (wf : KMap.wf s.evt.rings = true) (k : Nat) (f : Ring → Ring) : KMap.wf (s.setRing k f).evt.rings = true :=
  KMap.upd_wf wf k f

theorem setRing_reads (wf : KMap.wf s.evt.rings = true) (k : Nat) (f : Ring → Ring) :
    KMap.get (s.setRing k f).evt.rings k = f (KMap.get s.evt.rings k) := (KMap.get_upd wf k f k).trans (if_pos rfl)

/-- The classes that begin to consume a ring begin at its oldest entry, and change nothing else of it. -/
theorem resetPos_spec (k : Nat) (l : List Cls) (wf : KMap.wf s.evt.rings = true) :
    ∃ t, l.foldl (fun s q => s.setRing k (fun x => { x with pos := x.pos.set (clsNo q) 0 })) s = t ∧ KMap.wf t.evt.rings = true ∧
      t.dict = s.dict ∧ t.evt.pending = s.evt.pending ∧ t.ports = s.ports ∧
      (KMap.get t.evt.rings k).entries = (KMap.get s.evt.rings k).entries ∧
      (KMap.get t.evt.rings k).seq = (KMap.get s.evt.rings k).seq ∧
      ∀ j, j ≠ k → KMap.get t.evt.rings j = KMap.get s.evt.rings j := by
  induction l generalizing s with
  | nil => exact ⟨s, rfl, wf, rfl, rfl, rfl, rfl, rfl, fun _ _ => rfl⟩
  | cons q l ih =>
    obtain ⟨t, means, wf', dict, pending, ports, entries, seq, others⟩ :=
      ih (s := s.setRing k (fun x => { x with pos := x.pos.set (clsNo q) 0 })) (setRing_wf wf _ _)
    have ring : KMap.get (s.setRing k (fun x => { x with pos := x.pos.set (clsNo q) 0 })).evt.rings k =
        { KMap.get s.evt.rings k with pos := (KMap.get s.evt.rings k).pos.set (clsNo q) 0 } := setRing_reads wf k _
    rw [ring] at entries seq
    exact ⟨t, means, wf', dict, pending, ports, entries, seq, fun j other => (others j other).trans (get_set_other other)⟩

theorem consumersNew_spec (k : Nat) (old : List Cls) (wf : KMap.wf s.evt.rings = true) : KMap.wf (s.consumersNew k old).evt.rings = true ∧
    (s.consumersNew k old).dict = s.dict ∧ (s.consumersNew k old).evt.pending = s.evt.pending ∧ (s.consumersNew k old).ports = s.ports ∧
    (KMap.get (s.consumersNew k old).evt.rings k).AwaitedBy (s.consumers k) ∧
    (KMap.get (s.consumersNew k old).evt.rings k).seq = (KMap.get s.evt.rings k).seq ∧
    ∀ j, j ≠ k → KMap.get (s.consumersNew k old).evt.rings j = KMap.get s.evt.rings j := by
  unfold State.consumersNew
  extract_lets now withdrawn
  have wf' : KMap.wf withdrawn.evt.rings = true := setRing_wf wf _ _
  obtain ⟨t, means, wf'', dict, pending, ports, entries, seq, others⟩ := resetPos_spec k (now.filter (fun q => !old.contains q)) wf'
  have ring : KMap.get withdrawn.evt.rings k = { KMap.get s.evt.rings k with
      entries := ((KMap.get s.evt.rings k).entries.map (fun e => { e with await := e.await.filter (fun q => now.contains q) })).filter
        (fun e => e.await ≠ []) } := setRing_reads wf k _
  rw [ring] at entries seq
  rw [means]
  refine ⟨wf'', dict, pending, ports, fun e listed => ?_, seq, fun j other => (others j other).trans (get_set_other other)⟩
  rw [entries] at listed
  obtain ⟨listed, waits⟩ := List.mem_filter.mp listed
  obtain ⟨e', -, rfl⟩ := List.mem_map.mp listed
  refine ⟨of_decide_eq_true waits, fun q await => ?_⟩
  have := (List.mem_filter.mp await).2
  simpa using this

/-- New consumers of the three rings: an entry waits for consumers alone, and goes when none is left to wait for. -/
theorem consumersNew_all (old : Nat → List Cls) (wf : KMap.wf s.evt.rings = true) : ∃ t,
    [4, 5, 6].foldl (fun s k => s.consumersNew k (old k)) s = t ∧ t.dict = s.dict ∧ t.evt.pending = s.evt.pending ∧ t.ports = s.ports ∧
    ∀ k, (k = 4 ∨ k = 5 ∨ k = 6) → (KMap.get t.evt.rings k).AwaitedBy (s.consumers k) ∧
      (KMap.get t.evt.rings k).seq = (KMap.get s.evt.rings k).seq := by
  have same : ∀ {u x : State}, u.dict = x.dict → ∀ k, u.consumers k = x.consumers k := by
    intro u x dict k
    unfold State.consumers
    rw [cfg_congr (congrArg Dict.active dict)]
  obtain ⟨wf4, dict4, pending4, ports4, await4, seq4, others4⟩ := consumersNew_spec 4 (old 4) wf
  obtain ⟨wf5, dict5, pending5, ports5, await5, seq5, others5⟩ := consumersNew_spec 5 (old 5) wf4
  obtain ⟨wf6, dict6, pending6, ports6, await6, seq6, others6⟩ := consumersNew_spec 6 (old 6) wf5
  rw [same dict4] at await5
  rw [same (dict5.trans dict4)] at await6
  rw [others4 5 (by decide)] at seq5
  rw [others5 6 (by decide), others4 6 (by decide)] at seq6
  refine ⟨_, rfl, dict6.trans (dict5.trans dict4), pending6.trans (pending5.trans pending4), ports6.trans (ports5.trans ports4), ?_⟩
  rintro k (rfl | rfl | rfl)
  · rw [List.foldl_cons, List.foldl_cons, List.foldl_cons, List.foldl_nil, others6 4 (by decide), others5 4 (by decide)]
    exact ⟨await4, seq4⟩
  · rw [List.foldl_cons, List.foldl_cons, List.foldl_cons, List.foldl_nil, others6 5 (by decide)]
    exact ⟨await5, seq5⟩
  · exact ⟨await6, seq6⟩

/-! ### The fast-trip pins and the thresholds -/

theorem setFtrip_get (wf : KMap.wf s.ftrip = true) (n j : Nat) (f : Ftrip → Ftrip) :
    KMap.get (s.setFtrip n f).ftrip j = if j = n then f (KMap.get s.ftrip n) else KMap.get s.ftrip j := KMap.get_upd wf n f j

theorem setFtrip_wf (wf : KMap.wf s.ftrip = true) (n : Nat) (f : Ftrip → Ftrip) : KMap.wf (s.setFtrip n f).ftrip = true :=
  KMap.upd_wf wf n f

/-- The latches of a list that are written 1 are released (R99). -/
theorem releaseLatches_get (v : Nat) (l : List Nat) (wf : KMap.wf s.ftrip = true) (n : Nat) :
    KMap.get (l.foldl (fun s n => if bit v (8 + n) && (s.ftrip.get n).latched then
      s.setFtrip n (fun f => { f with level := false, latched := false }) else s) s).ftrip n =
    if (decide (n ∈ l) && bit v (8 + n) && (KMap.get s.ftrip n).latched) = true then
      { KMap.get s.ftrip n with level := false, latched := false } else KMap.get s.ftrip n := by
  induction l generalizing s with
  | nil => exact (if_neg (by simp)).symm
  | cons m l ih =>
    rw [List.foldl_cons]
    by_cases writes : (bit v (8 + m) && (KMap.get s.ftrip m).latched) = true
    · rw [if_pos writes, ih (setFtrip_wf wf _ _), setFtrip_get wf]
      by_cases here : n = m
      · subst here
        rw [if_pos rfl, if_neg (by simp), if_pos (by simpa using writes)]
      · rw [if_neg here]
        simp [here]
    · rw [if_neg writes, ih wf]
      by_cases here : n = m
      · subst here
        rw [if_neg (fun h => writes (by simp only [Bool.and_eq_true] at h ⊢; exact ⟨h.1.2, h.2⟩)),
          if_neg (fun h => writes (by simp only [Bool.and_eq_true] at h ⊢; exact ⟨h.1.2, h.2⟩))]
      · simp [here]

theorem wFtripState_spec (v : Nat) (wf : KMap.wf s.ftrip = true) (n : Nat) : KMap.get (s.wFtripState v).ftrip n =
    if (decide (n < 8) && bit v (8 + n) && (KMap.get s.ftrip n).latched) = true then
      { KMap.get s.ftrip n with level := false, latched := false } else KMap.get s.ftrip n := by
  have released := releaseLatches_get (s := s) v (List.range 8) wf n
  simp only [List.mem_range] at released
  exact released

theorem okey_ftrip (n : Fin 8) : okey 0xB000 (0x21 + n.val) = oFtripAssign n.val := by
  match n with
  | 0 | 1 | 2 | 3 | 4 | 5 | 6 | 7 => rfl

theorem actsOn_ftrip (n : Fin 8) : actsOn (okey 0xB000 (0x21 + n.val)) = false := by
  match n with
  | 0 | 1 | 2 | 3 | 4 | 5 | 6 | 7 => rfl

theorem ftrip_rows : ∀ n : Fin 8, cards.all (fun c => !(decide (c.idx < 0xB001) && decide (0xB000 < c.idx + c.n) &&
    decide (c.sub0 ≤ 0x21 + n.val) && decide (0x21 + n.val ≤ c.sub1)) || c.eff == .i) = true := by
  decide +kernel

/-- FTRIP_ASSIGN is an object of effect I. -/
theorem ftrip_effect (n : Fin 8) (card : cardOf 0xB000 (0x21 + n.val) = some c) : c.eff = .i := by
  have row := card_of_rows (P := fun c => c.eff == .i) (ftrip_rows n) card (Nat.le_refl _) (Nat.lt_succ_self _)
  simpa using row

/-- A write of FTRIP_ASSIGN with the same value clears the pin as well (R100). -/
theorem wFtrip_same {n : Nat} (eff : c.eff = .i) (crossed : s.crossed q (oFtripAssign n) v = true) (same : s.cfg (oFtripAssign n) = v)
    (whole : KMap.get s.dict.broken (oFtripAssign n) = false) :
    s.wFtrip q c n v = (s.answer stOk).setFtrip n (fun _ => {}) := by
  have plain : s.writePlain q c (oFtripAssign n) v = s.answer stOk := by
    unfold State.writePlain
    dsimp only
    rw [if_neg (by simp [eff]), if_neg (by simp [crossed]), eff]
    exact if_pos ⟨same.symm, whole⟩
  unfold State.wFtrip State.writeThen
  dsimp only
  rw [plain]
  exact if_pos rfl

/-- A written TH_ENABLE clears its thresholds, and counts no trip (R95). -/
theorem thSet_spec (ch v : Nat) (wf : KMap.wf s.th = true) : ∃ x : ThPair, KMap.get (s.thSet ch v).th ch = x ∧
    x.trips = (KMap.get s.th ch).trips ∧ x.hi.tripped = false ∧ x.lo.tripped = false ∧ x.hi.count = 0 ∧ x.lo.count = 0 ∧
    ∀ k, k ≠ ch → KMap.get (s.thSet ch v).th k = KMap.get s.th k := by
  have written : ∀ f : ThPair → ThPair, KMap.get (s.setTh ch f).th ch = f (KMap.get s.th ch) :=
    fun f => (KMap.get_upd wf ch f ch).trans (if_pos rfl)
  unfold State.thSet
  split
  · rw [State.ftRelease_th]
    exact ⟨_, written _, rfl, rfl, rfl, rfl, rfl, fun k other => get_set_other other⟩
  · exact ⟨_, written _, rfl, rfl, rfl, rfl, rfl, fun k other => get_set_other other⟩

theorem actsOn_th (ch : Fin 256) : actsOn (okey (0x3200 + ch.val) 1) = false := by
  have index : okey (0x3200 + ch.val) 1 = (0x3200 + ch.val) * 256 + 1 := rfl
  rw [index]
  have div : ((0x3200 + ch.val) * 256 + 1) / 256 = 0x3200 + ch.val := by omega
  have small := ch.isLt
  simp only [actsOn, within, div, oVgEnable, Bool.or_eq_false_iff, Bool.and_eq_false_imp, Bool.and_eq_true, decide_eq_true_eq,
    decide_eq_false_iff_not]
  omega

end Sys2Proof.Machine

open Sys2Proof Sys2Proof.Machine

/-- Settles O36: an altering write makes its value active and goes on to what more it does, which its own lemma states. -/
theorem pulsesPinsAndEvents : Obligations.PulsesPinsAndEvents := by
  unfold Obligations.PulsesPinsAndEvents
  refine ⟨fun s n off => ?_, fun s n t0 up rest powered edges nothing => ?_, ?_, fun s r b allowed wf => ?_,
    fun s r b alters wf => ?_, fun s r n b => ⟨fun alters => ?_, fun allowed same whole crossed => ?_⟩, fun s r b allowed wf => ?_,
    fun s r ch b alters wf => ?_⟩
  · refine congrArg Host.Outcome.next ?_
    rcases off with off | ⟨none_, nothing⟩
    · split
      · rfl
      · exact if_neg (by rw [off]; exact Bool.noConfusion)
    · simp only [none_, nothing]
      rfl
  · obtain ⟨acc, others, -⟩ := pulseRun_acc (s := s.toClk (usClk t0)) n.val 0
    refine ⟨_, pulseEdge_due powered edges nothing, State.pulseRun_clock, acc, others, fun on half falls last => ?_,
      (State.pulseRun_only (only_set_clock (.refl 65538 s) (Nat.le_max_left _ _) rfl) rfl).changesOnly rfl⟩
    subst falls last
    have runs : (s.toClk (usClk t0)).pulseRun n.val 0 = (s.toClk (usClk t0)).setPulse n.val (fun p =>
        Pulse.runTo (s.pulseHalf n.val) (s.pulseWidth n.val) (s.quantum n.val) 0 (s.toClk (usClk t0)).us
          (3 * p.edges.length + 3 * p.owed + 8) p) := if_pos on
    rw [runs]
    refine congrArg (fun p => KMap.set s.acc.pulses n.val p) ?_
    show Pulse.runTo (s.pulseHalf n.val) _ _ _ _ (3 * (KMap.get s.acc.pulses n.val).edges.length +
      3 * (KMap.get s.acc.pulses n.val).owed + 8) (KMap.get s.acc.pulses n.val) = _
    rw [half, show 3 * (KMap.get s.acc.pulses n.val).edges.length + 3 * (KMap.get s.acc.pulses n.val).owed + 8 = 9 + 2 by
      rw [edges, nothing]; rfl]
    exact runTo_falls edges nothing (us_usClk t0)
  · rintro s r n cst b key rfl alters wf
    obtain ⟨allowed, active, fresh, -, row⟩ := altersTo_spec alters
    obtain ⟨c, card⟩ := card_of_allows allowed
    obtain ⟨eff, stored⟩ := row c card
    rw [okey_pulse] at fresh stored
    have quiet := actsOn_pulse n cst
    have crosses : ∀ u : State, u.crossed r.cls (if cst then oPulseConst n.val else oPulseConfig n.val) (ofLe b) = true :=
      fun u => crossOk_pulse n cst _ _
    have answer : exec (.pulseConfig r n cst b) s = .next (s.writeReq r 0xB000
        ((if cst then oPulseConst n.val else oPulseConfig n.val) % 256) b
        (fun s c v => s.wPulse r.cls c (if cst then oPulseConst n.val else oPulseConfig n.val) n.val v)) := rfl
    generalize (if cst then oPulseConst n.val else oPulseConfig n.val) = key at *
    obtain ⟨acc, others, wf'⟩ := pulseRun_acc (s := s.ownerWrote r.cls) n.val 0
    rw [State.ownerWrote_acc] at acc others wf'
    obtain ⟨w, activated, value, means, -⟩ := writePlain_alters (u := (s.ownerWrote r.cls).pulseRun n.val 0) (q := r.cls) eff
      (crosses _) ((persist_isSome State.pulseRun_nvm).trans stored) quiet
      (by rw [cfg_congr (congrArg Dict.active State.pulseRun_dict), ownerWrote_cfg]; exact fresh)
      (by rw [State.pulseRun_dict, State.ownerWrote_dict]; exact active)
    have wacc : w.acc = ((s.ownerWrote r.cls).pulseRun n.val 0).acc := activated.only.acc rfl
    obtain ⟨lines, dict, kept, dropped⟩ := pulseNew_spec (s := w.answer stOk) n.val ((s.ownerWrote r.cls).pulseOn n.val)
      ((congrArg (fun a : Acc => KMap.wf a.pulses) wacc).trans (wf' wf))
    have idle : ((w.answer stOk).pulseNew n.val ((s.ownerWrote r.cls).pulseOn n.val)).ports.fWait = [] := by
      refine (congrArg Ports.fWait ?_).trans (fWait_of_allows allowed)
      exact State.pulseNew_ports.trans (activated.ports.trans (State.pulseRun_ports.trans (ownerWrote_ports s r.cls)))
    obtain ⟨d, -⟩ := writeReq_comes (F := fun s c v => s.wPulse r.cls c key n.val v) allowed card
      ((congrArg (fun on => State.writeNew _ _ _ _ _ (fun s => s.pulseNew n.val on)) pulseRun_on).trans (means _)) idle
    have same : ∀ k, (s.writeReq r 0xB000 (key % 256) b (fun s c v => s.wPulse r.cls c key n.val v)).cfg k = w.cfg k :=
      fun k => cfg_congr (congrArg Dict.active (d.dict.trans dict)) k
    have after := (congrArg State.acc d :)
    have wacc' : w.acc.pulses = ((s.ownerWrote r.cls).pulseRun n.val 0).acc.pulses := congrArg Acc.pulses wacc
    refine ⟨_, answer, (same key).trans value, d.ans.trans State.pulseNew_ans, fun off => ?_, fun k other => ?_, ?_⟩
    · have read := dropped ((congrArg (fun x => bit x 0) (same (oPulseConfig n.val))).symm.trans off)
      rw [after, read]
      exact ⟨rfl, rfl, rfl, rfl⟩
    · rw [after]
      exact (kept k other).trans ((congrArg (fun m => KMap.get m k) wacc').trans (others k other))
    · exact (congrArg Acc.lines after).trans (lines.trans ((congrArg Acc.lines wacc).trans (congrArg Acc.lines acc :)))
  · have d := writeReq_delivers (F := fun s v => s.wPending v) allowed (fun u v => rfl)
    have before : (s.ownerWrote r.cls).evt = s.evt := State.ownerWrote_evt
    refine ⟨_, rfl, d.ans, fun n => ?_, ?_, (d.requestOnly (m := 2173698048) (State.wPending_only (.refl _ _) rfl) rfl rfl).changesOnly rfl⟩
    · rw [d.pending, wPending_spec (by rw [before]; exact wf), before]
    · have count := (congrArg (fun v : State => v.evt.count) d :)
      exact count.trans (congrArg Evt.count before :)
  · obtain ⟨w, activated, value, d, rings⟩ := writeReq_alters (F := fun s c v => s.wConsumers r.cls c v)
      (g := fun u => [4, 5, 6].foldl (fun u k => u.consumersNew k ((s.ownerWrote r.cls).consumers k)) u) alters rfl
      (fun c => .inl rfl)
      (foldl_field State.ports (fun _ _ => State.consumersNew_ports) _) (foldl_field State.dict (fun _ _ => State.consumersNew_dict) _)
    have before : w.evt = s.evt := (activated.only.evt rfl).trans State.ownerWrote_evt
    obtain ⟨u, means, dict, pending, -, awaited⟩ := consumersNew_all (s := w.answer stOk) (fun k => (s.ownerWrote r.cls).consumers k)
      (by exact (congrArg (fun e : Evt => KMap.wf e.rings) before).trans wf)
    rw [means] at d rings
    refine ⟨_, rfl, value, d.ans.trans ?_, fun k which => ?_, d.pending.trans (pending.trans (congrArg Evt.pending before))⟩
    · rw [← means]
      exact foldl_field State.ans (fun _ _ => State.consumersNew_ans) _ _
    · obtain ⟨await, seq⟩ := awaited k which
      have ring := rings k (by omega)
      have consumers : ∀ t : State, t.dict = u.dict → t.consumers k = (w.answer stOk).consumers k := by
        intro t same
        unfold State.consumers
        rw [cfg_congr (congrArg Dict.active (same.trans dict))]
      rw [ring, consumers _ d.dict]
      exact ⟨await, seq.trans (congrArg (fun e : Evt => (KMap.get e.rings k).seq) before)⟩
  · have key := okey_ftrip n
    obtain ⟨w, activated, value, d, -⟩ := writeReq_alters (F := fun s c v => s.wFtrip r.cls c n.val v)
      (g := fun u => u.setFtrip n.val (fun _ => {})) alters (actsOn_ftrip n) (fun c => .inr (by rw [key]; rfl)) (fun u => rfl)
      (fun u => rfl)
    rw [key] at value
    refine ⟨_, rfl, value, d.ans, (congrArg State.ftrip d :).trans ?_⟩
    exact congrArg (fun m => KMap.upd m n.val (fun _ => {})) ((activated.only.ftrip rfl).trans State.ownerWrote_ftrip)
  · obtain ⟨c, card⟩ := card_of_allows allowed
    obtain ⟨d, -⟩ := writeReq_comes (F := fun s c v => s.wFtrip r.cls c n.val v) allowed card
      (wFtrip_same (ftrip_effect n card) crossed (by rw [ownerWrote_cfg]; exact same) (by rw [State.ownerWrote_dict]; exact whole))
      (by exact (congrArg Ports.fWait (ownerWrote_ports s r.cls)).trans (fWait_of_allows allowed))
    refine ⟨_, rfl, ?_⟩
    rw [← show (s.ownerWrote r.cls).ftrip = s.ftrip from State.ownerWrote_ftrip]
    exact d
  · have d := writeReq_delivers (F := fun s v => s.wFtripState v) allowed (fun u v => State.wFtripState_ports)
    have before : (s.ownerWrote r.cls).ftrip = s.ftrip := State.ownerWrote_ftrip
    refine ⟨_, rfl, d.ans, fun n => ?_, (d.requestOnly (m := 2173698176) (State.wFtripState_only (.refl _ _) rfl) rfl rfl).changesOnly rfl⟩
    have released := wFtripState_spec (s := s.ownerWrote r.cls) (ofLe b) (by rw [before]; exact wf) n
    rw [before] at released
    exact (congrArg (fun v : State => KMap.get v.ftrip n) d).trans released
  · obtain ⟨w, activated, value, d, -⟩ := writeReq_alters (F := fun s c v => s.wThEnable r.cls c ch.val v)
      (g := fun u => u.keepAns (fun s => s.thSet ch.val (ofLe b))) alters (actsOn_th ch) (fun c => .inl rfl) (fun u => State.thSet_ports)
      (fun u => State.thSet_dict)
    have before : (w.answer stOk).th = s.th := (activated.only.th rfl).trans State.ownerWrote_th
    obtain ⟨x, read, trips, hi, lo, hiCount, loCount, others⟩ := thSet_spec (s := w.answer stOk) ch.val (ofLe b) (by rw [before]; exact wf)
    have th : (s.writeReq r (0x3200 + ch.val) 1 b (fun s c v => s.wThEnable r.cls c ch.val v)).th =
      ((w.answer stOk).thSet ch.val (ofLe b)).th := (congrArg State.th d :)
    rw [before] at trips others
    rw [← th] at read others
    refine ⟨_, rfl, value, d.ans, ?_⟩
    rw [read]
    exact ⟨hi, lo, hiCount, loCount, trips, others⟩

end

section
/-! PROOFS. The switches of the front end and of the metering engines (R59, R73, R80, R81, R150). -/
namespace Sys2Proof.Machine

variable {s t u : State} {E F C D : Nat → Prop} {k c : Nat}

@[simp] theorem State.wSubstitute_ports {s : State} {a1 : _} {a2 : _} : (s.wSubstitute a1 a2).ports = s.ports :=
  (State.wSubstitute_only (.refl 2147483672 s) rfl).ports rfl
@[simp] theorem State.substEnd_ports {s : State} {a1 : _} : (s.substEnd a1).ports = s.ports :=
  (State.substEnd_only (.refl 24 s) rfl).ports rfl
@[simp] theorem State.substStart_ports {s : State} {a1 : _} : (s.substStart a1).ports = s.ports :=
  (State.substStart_only (.refl 24 s) rfl).ports rfl
@[simp] theorem State.park_chans {s : State} {a1 : _} {a2 : _} : (s.park a1 a2).chans = s.chans :=
  (State.park_only (.refl 8 s) rfl).chans rfl
@[simp] theorem State.hkStop_ports {s : State} : (s.hkStop).ports = s.ports :=
  (State.hkStop_only (.refl 32 s) rfl).ports rfl
@[simp] theorem State.hkStop_dict {s : State} : (s.hkStop).dict = s.dict :=
  (State.hkStop_only (.refl 32 s) rfl).dict rfl
@[simp] theorem State.drained_dict {s : State} {a1 : _} : (s.drained a1).dict = s.dict :=
  (State.drained_only (.refl 1024 s) rfl).dict rfl
@[simp] theorem State.drained_evt {s : State} {a1 : _} : (s.drained a1).evt = s.evt :=
  (State.drained_only (.refl 1024 s) rfl).evt rfl
@[simp] theorem State.engineOff_dict {s : State} {a1 : _} : (s.engineOff a1).dict = s.dict :=
  (State.engineOff_only (.refl 1024 s) rfl).dict rfl
@[simp] theorem State.engineOff_evt {s : State} {a1 : _} : (s.engineOff a1).evt = s.evt :=
  (State.engineOff_only (.refl 1024 s) rfl).evt rfl
@[simp] theorem State.engineOff_ports {s : State} {a1 : _} : (s.engineOff a1).ports = s.ports :=
  (State.engineOff_only (.refl 1024 s) rfl).ports rfl
@[simp] theorem State.engineReadmit_ports {s : State} {a1 : _} : (s.engineReadmit a1).ports = s.ports :=
  (State.engineReadmit_only (.refl 8389632 s) rfl).ports rfl
@[simp] theorem State.engineReadmit_dict {s : State} {a1 : _} : (s.engineReadmit a1).dict = s.dict :=
  (State.engineReadmit_only (.refl 8389632 s) rfl).dict rfl
@[simp] theorem State.clusterOff_ports {s : State} {a1 : _} : (s.clusterOff a1).ports = s.ports :=
  (State.clusterOff_only (.refl 1024 s) rfl).ports rfl
@[simp] theorem State.clusterOff_dict {s : State} {a1 : _} : (s.clusterOff a1).dict = s.dict :=
  (State.clusterOff_only (.refl 1024 s) rfl).dict rfl
@[simp] theorem State.clusterReadmit_ports {s : State} {a1 : _} : (s.clusterReadmit a1).ports = s.ports :=
  (State.clusterReadmit_only (.refl 8389632 s) rfl).ports rfl
@[simp] theorem State.clusterReadmit_dict {s : State} {a1 : _} : (s.clusterReadmit a1).dict = s.dict :=
  (State.clusterReadmit_only (.refl 8389632 s) rfl).dict rfl
@[simp] theorem State.raise_eng {s : State} {a1 : _} {a2 : _} : (s.raise a1 a2).eng = s.eng :=
  (State.raise_only (.refl 8388608 s) rfl).eng rfl

/-! ### What an operation on engines and clusters leaves -/

/-- From s to t only engines in E and clusters in C may differ, their tables stay in canonical form, the dictionary stays,
and no event ceases to be pending. -/
structure Units (E C : Nat → Prop) (s t : State) : Prop where
  engines    : ∀ j, ¬ E j → KMap.get t.eng.engines j = KMap.get s.eng.engines j
  clusters   : ∀ j, ¬ C j → KMap.get t.eng.clusters j = KMap.get s.eng.clusters j
  enginesWf  : KMap.wf s.eng.engines = true → KMap.wf t.eng.engines = true
  clustersWf : KMap.wf s.eng.clusters = true → KMap.wf t.eng.clusters = true
  dict       : t.dict = s.dict
  pending    : ∀ n, KMap.get s.evt.pending n = true → KMap.get t.evt.pending n = true

theorem Units.refl (s : State) : Units E C s s := ⟨fun _ _ => rfl, fun _ _ => rfl, id, id, rfl, fun _ => id⟩

theorem Units.trans (h : Units E C s t) (g : Units E C t u) : Units E C s u where
  engines j hj := (g.engines j hj).trans (h.engines j hj)
  clusters j hj := (g.clusters j hj).trans (h.clusters j hj)
  enginesWf wf := g.enginesWf (h.enginesWf wf)
  clustersWf wf := g.clustersWf (h.clustersWf wf)
  dict := g.dict.trans h.dict
  pending n hn := g.pending n (h.pending n hn)

theorem Units.mono (h : Units E C s t) (engines : ∀ j, E j → F j) (clusters : ∀ j, C j → D j) : Units F D s t where
  engines j hj := h.engines j (fun e => hj (engines j e))
  clusters j hj := h.clusters j (fun e => hj (clusters j e))
  enginesWf := h.enginesWf
  clustersWf := h.clustersWf
  dict := h.dict
  pending := h.pending

theorem units_foldl {α : Type} {f : State → α → State} {l : List α} (step : ∀ u, ∀ x ∈ l, Units E C u (f u x)) (s : State) :
    Units E C s (l.foldl f s) := by
  induction l generalizing s with
  | nil => exact .refl s
  | cons x l ih =>
    exact (step s x (.head _)).trans (ih (fun u y listed => step u y (.tail _ listed)) (f s x))

theorem setEngine_units (k : Nat) (f : Engine → Engine) : Units (· = k) C s (s.setEngine k f) where
  engines _ hj := get_set_other hj
  clusters _ _ := rfl
  enginesWf wf := KMap.upd_wf wf k f
  clustersWf := id
  dict := rfl
  pending _ := id

theorem setCluster_units (k : Nat) (f : Cluster → Cluster) : Units E (· = k) s (s.setCluster k f) where
  engines _ _ := rfl
  clusters _ hj := get_set_other hj
  enginesWf := id
  clustersWf wf := KMap.upd_wf wf k f
  dict := rfl
  pending _ := id

/-- A change of the engines' unit that leaves its engines and clusters. -/
theorem setEng_units {f : Eng → Eng} (engines : ∀ x, (f x).engines = x.engines) (clusters : ∀ x, (f x).clusters = x.clusters) :
    Units E C s (s.setEng f) where
  engines j _ := congrArg (fun m => KMap.get m j) (engines s.eng)
  clusters j _ := congrArg (fun m => KMap.get m j) (clusters s.eng)
  enginesWf := (congrArg KMap.wf (engines s.eng)).trans
  clustersWf := (congrArg KMap.wf (clusters s.eng)).trans
  dict := rfl
  pending _ := id

theorem setEngine_wf (wf : KMap.wf s.eng.engines = true) (k : Nat) (f : Engine → Engine) :
    KMap.wf (s.setEngine k f).eng.engines = true := KMap.upd_wf wf k f

theorem setEngine_get (wf : KMap.wf s.eng.engines = true) (k : Nat) (f : Engine → Engine) :
    KMap.get (s.setEngine k f).eng.engines k = f (KMap.get s.eng.engines k) := (KMap.get_upd wf k f k).trans (if_pos rfl)

theorem setCluster_get (wf : KMap.wf s.eng.clusters = true) (k : Nat) (f : Cluster → Cluster) :
    KMap.get (s.setCluster k f).eng.clusters k = f (KMap.get s.eng.clusters k) := (KMap.get_upd wf k f k).trans (if_pos rfl)

theorem raise_units (n : Nat) (d : Bytes) : Units E C s (s.raise n d) := by
  have eng : (s.raise n d).eng = s.eng := State.raise_eng
  exact ⟨fun _ _ => by rw [eng], fun _ _ => by rw [eng], fun wf => by rw [eng]; exact wf, fun wf => by rw [eng]; exact wf,
    State.raise_dict, fun _ h => raise_keeps_pending h⟩

theorem giveBack_units (k : Nat) : Units (· = k) C s (s.giveBack k).1 := by
  unfold State.giveBack
  extract_lets x l returned
  have same : returned.eng = { s.eng with wq := returned.eng.wq } := by
    simp only [returned]
    clear_value l
    induction l generalizing s with
    | nil => rfl
    | cons h l ih =>
      rw [List.foldl_cons]
      exact ih
  have only : Only 1024 s returned := only_foldl (.refl _ s) (fun _ _ => State.setEntry_only (.refl _ _) rfl)
  have kept : Units (· = k) C s returned :=
    ⟨fun _ _ => by rw [same], fun _ _ => by rw [same], fun wf => by rw [same]; exact wf, fun wf => by rw [same]; exact wf,
      only.dict rfl, fun _ h => by rw [only.evt rfl]; exact h⟩
  exact kept.trans ((setEngine_units k (fun x => { x with run := none, susp := [] })).trans
    (setEng_units (f := fun y => { y with returned := (y.returned + l.length) % 2 ^ 32 }) (fun _ => rfl) (fun _ => rfl)))

theorem drained_units (k : Nat) : Units (· = k) (· = k / 8) s (s.drained k) := by
  unfold State.drained
  extract_lets x out cl
  have first : Units (· = k) (· = k / 8) s out := by
    simp only [out]
    split
    · exact setEngine_units k _
    · exact .refl s
  split
  · exact first.trans (setCluster_units cl _)
  · exact first

theorem engineOff_units (k : Nat) : Units (· = k) (· = k / 8) s (s.engineOff k) := by
  unfold State.engineOff
  extract_lets x
  split
  · exact (setEngine_units k _).trans (drained_units k)
  · split
    · exact setEngine_units k _
    · exact .refl s

theorem engineReadmit_units (k : Nat) : Units (· = k) C s (s.engineReadmit k) := by
  unfold State.engineReadmit
  split
  · exact .refl s
  · exact (giveBack_units k).trans ((setEngine_units k _).trans (raise_units _ _))

theorem cluster_of_range {j : Nat} (h : j ∈ rangeFrom (8 * c) 8) : j / 8 = c := by
  have := mem_rangeFrom.mp h
  omega

theorem clusterOff_units (c : Nat) : Units (· / 8 = c) (· = c) s (s.clusterOff c) := by
  unfold State.clusterOff
  extract_lets marked
  have first : Units (· / 8 = c) (· = c) s marked := by
    simp only [marked]
    split
    · exact setCluster_units c _
    · split
      · exact setCluster_units c _
      · exact .refl s
  have engines : ∀ u, ∀ k ∈ rangeFrom (8 * c) 8, Units (· / 8 = c) (· = c) u (u.engineOff k) := fun u k listed =>
    (engineOff_units k).mono (fun _ own => own ▸ cluster_of_range listed) (fun _ own => own.trans (cluster_of_range listed))
  exact first.trans ((units_foldl engines marked).trans ((drained_units (8 * c)).mono (fun j own => by omega) (fun j own => by omega)))

/-- What the reset of a cluster takes back from its engines, and how many stitches that is. -/
def State.returnEngine (a : State × Nat) (k : Nat) : State × Nat :=
  ((a.1.giveBack k).1.setEngine k (fun x => { x with
    st := if x.st = .inService ∨ x.st = .restarting then .restarting else x.st }), a.2 + (a.1.giveBack k).2)

theorem returnEngine_units {l : List Nat} (own : ∀ k ∈ l, k / 8 = c) (a : State × Nat) :
    Units (· / 8 = c) D a.1 (l.foldl State.returnEngine a).1 := by
  induction l generalizing a with
  | nil => exact .refl a.1
  | cons k l ih =>
    have first : Units (· = k) D a.1 (State.returnEngine a k).1 := (giveBack_units k).trans (setEngine_units k _)
    exact (first.mono (fun _ h => h ▸ own k (.head _)) (fun _ => id)).trans (ih (fun x listed => own x (.tail _ listed)) _)

/-- The reset of a cluster takes its stitches back and restarts it (R135). -/
theorem resetCluster_spec (c cause : Nat) : Units (· / 8 = c) (· = c) s (s.resetCluster c cause) ∧
    (KMap.wf s.eng.clusters = true → (KMap.get (s.resetCluster c cause).eng.clusters c).st = .restarting ∧
      (KMap.get (s.resetCluster c cause).eng.clusters c).svc = decide (cause = 7)) ∧
    KMap.get (s.resetCluster c cause).evt.pending 56 = true := by
  unfold State.resetCluster
  extract_lets r marked
  have taken : Units (· / 8 = c) (· = c) s r.1 := returnEngine_units (fun _ => cluster_of_range) (s, 0)
  clear_value r
  refine ⟨taken.trans ((setCluster_units c _).trans (raise_units _ _)), fun wf => ?_, (raise_raised _ _ _).pending⟩
  rw [State.raise_eng]
  simp only [marked]
  rw [setCluster_get (taken.clustersWf wf)]
  exact ⟨rfl, rfl⟩

theorem clusterReadmit_units (c : Nat) : Units (· / 8 = c) (· = c) s (s.clusterReadmit c) := by
  unfold State.clusterReadmit
  extract_lets marked restarted
  have engines : ∀ u : State, ∀ k ∈ rangeFrom (8 * c) 8, Units (· / 8 = c) (· = c) u (u.setEngine k (fun x => { x with
      draining := false, resets := [], st := if u.engineOn k then .restarting else x.st })) := fun u k listed =>
    (setEngine_units k _).mono (fun _ own => own ▸ cluster_of_range listed) (fun _ => id)
  exact (setCluster_units c _).trans ((units_foldl engines marked).trans (resetCluster_spec c 7).1)

/-! ### Engines and clusters that leave service -/

/-- An engine that holds no stitch. -/
def Engine.Idle (x : Engine) : Prop := x.run = none ∧ x.susp = []

theorem drained_engine (wf : KMap.wf s.eng.engines = true) (k : Nat) : KMap.get (s.drained k).eng.engines k =
    if (KMap.get s.eng.engines k).draining = true ∧ (KMap.get s.eng.engines k).run.isNone = true ∧ (KMap.get s.eng.engines k).susp = []
    then { KMap.get s.eng.engines k with st := .off, draining := false } else KMap.get s.eng.engines k := by
  unfold State.drained
  extract_lets x out cl
  have engine : KMap.get out.eng.engines k = if x.draining = true ∧ x.run.isNone = true ∧ x.susp = []
      then { x with st := .off, draining := false } else x := by
    simp only [out]
    split
    · exact setEngine_get wf k _
    · rfl
  split
  · exact engine
  · exact engine

/-- An idle engine whose bit is cleared leaves service, and stays idle. -/
theorem engineOff_idle (wf : KMap.wf s.eng.engines = true) (idle : (KMap.get s.eng.engines k).Idle) :
    (KMap.get (s.engineOff k).eng.engines k).Idle ∧
    ((KMap.get s.eng.engines k).st = .inService ∨ (KMap.get s.eng.engines k).st = .off →
      (KMap.get (s.engineOff k).eng.engines k).st = .off) := by
  obtain ⟨run, susp⟩ := idle
  unfold State.engineOff
  dsimp only
  split
  · have marked := setEngine_get wf k (fun x => { x with draining := true })
    rw [drained_engine (setEngine_wf wf k _), marked, if_pos ⟨rfl, by rw [run]; rfl, susp⟩]
    exact ⟨⟨run, susp⟩, fun _ => rfl⟩
  · split
    · rw [setEngine_get wf]
      exact ⟨⟨run, susp⟩, fun _ => rfl⟩
    next here out => exact ⟨⟨run, susp⟩, fun st => st.resolve_left here⟩

/-- A cluster that is off, or that drains, with no stitch in its engines. -/
structure Leaving (c : Nat) (s : State) : Prop where
  enginesWf  : KMap.wf s.eng.engines = true
  clustersWf : KMap.wf s.eng.clusters = true
  idle       : ∀ k, k / 8 = c → (KMap.get s.eng.engines k).Idle
  leaves     : (KMap.get s.eng.clusters c).draining = true ∨ (KMap.get s.eng.clusters c).st = .off

theorem setEngine_leaves {f : Engine → Engine} (h : Leaving c s) (keeps : ∀ x : Engine, x.Idle → (f x).Idle) :
    Leaving c (s.setEngine k f) := by
  refine ⟨setEngine_wf h.enginesWf k f, h.clustersWf, fun j mate => ?_, h.leaves⟩
  by_cases here : j = k
  · subst here
    rw [setEngine_get h.enginesWf]
    exact keeps _ (h.idle j mate)
  · rw [(setEngine_units (C := fun _ => False) k f).engines j here]
    exact h.idle j mate

/-- A leaving cluster is off once one of its engines is found drained. -/
theorem drained_leaves (h : Leaving c s) (own : k / 8 = c) : Leaving c (s.drained k) ∧
    (KMap.get (s.drained k).eng.clusters c).st = .off := by
  subst own
  unfold State.drained
  extract_lets x out cl
  have left : Leaving (k / 8) out := by
    simp only [out]
    split
    · exact setEngine_leaves h (fun _ => id)
    · exact h
  clear_value out
  have empty : (rangeFrom (8 * cl) 8).all (fun j => (KMap.get out.eng.engines j).run.isNone &&
      (KMap.get out.eng.engines j).susp.isEmpty) = true := by
    refine List.all_eq_true.mpr (fun j listed => ?_)
    obtain ⟨run, susp⟩ := left.idle j (cluster_of_range listed)
    rw [run, susp]
    rfl
  split
  · have gone := setCluster_get left.clustersWf cl (fun x => { x with st := .off, draining := false })
    have units := setCluster_units (s := out) (E := fun _ => False) cl (fun x => { x with st := .off, draining := false })
    exact ⟨⟨left.enginesWf, units.clustersWf left.clustersWf, left.idle, .inr (congrArg Cluster.st gone)⟩, congrArg Cluster.st gone⟩
  next stays => exact ⟨left, left.leaves.resolve_left (fun drains => stays ⟨drains, empty⟩)⟩

theorem engineOff_leaves (h : Leaving c s) (k : Nat) : Leaving c (s.engineOff k) := by
  by_cases own : k / 8 = c
  · unfold State.engineOff
    dsimp only
    split
    · exact (drained_leaves (setEngine_leaves (f := fun x => { x with draining := true }) h (fun _ idle => idle)) own).1
    · split
      · exact setEngine_leaves (f := fun x => { x with st := .off }) h (fun _ idle => idle)
      · exact h
  · have units := engineOff_units (s := s) k
    refine ⟨units.enginesWf h.enginesWf, units.clustersWf h.clustersWf, fun j mate => ?_, ?_⟩
    · rw [units.engines j (fun here => own (here ▸ mate))]
      exact h.idle j mate
    · rw [units.clusters c (fun here => own here.symm)]
      exact h.leaves

/-- A cluster with idle engines whose bit is cleared is off with those that were in service. -/
theorem clusterOff_idle (enginesWf : KMap.wf s.eng.engines = true) (clustersWf : KMap.wf s.eng.clusters = true)
    (idle : ∀ k, k / 8 = c → (KMap.get s.eng.engines k).Idle)
    (st : (KMap.get s.eng.clusters c).st = .inService ∨ (KMap.get s.eng.clusters c).st = .off) :
    (∀ k, k / 8 = c → (KMap.get (s.clusterOff c).eng.engines k).Idle) ∧ (KMap.get (s.clusterOff c).eng.clusters c).st = .off ∧
    ∀ k, k / 8 = c → ((KMap.get s.eng.engines k).st = .inService ∨ (KMap.get s.eng.engines k).st = .off) →
      (KMap.get (s.clusterOff c).eng.engines k).st = .off := by
  unfold State.clusterOff
  extract_lets marked
  have left : Leaving c marked := by
    simp only [marked]
    split
    · have gone := setCluster_get clustersWf c (fun x => { x with draining := true })
      exact ⟨enginesWf, (setCluster_units (E := fun _ => False) c _).clustersWf clustersWf, idle, .inl (congrArg Cluster.draining gone)⟩
    next here =>
      have off := st.resolve_left here
      rw [if_neg (by rw [off]; exact UnitSt.noConfusion)]
      exact ⟨enginesWf, clustersWf, idle, .inr off⟩
  have engines : marked.eng.engines = s.eng.engines := by
    simp only [marked]
    split
    · rfl
    · split <;> rfl
  have all : Leaving c ((rangeFrom (8 * c) 8).foldl State.engineOff marked) :=
    foldl_keeps (P := Leaving c) (fun u k h => engineOff_leaves h k) _ left
  have mate : 8 * c / 8 = c := by omega
  obtain ⟨last, gone⟩ := drained_leaves (k := 8 * c) all mate
  refine ⟨last.idle, gone, fun k own st => ?_⟩
  have listed : k ∈ rangeFrom (8 * c) 8 := mem_rangeFrom.mpr (by omega)
  have once : ∀ (u : State) x, Leaving c u → ((KMap.get u.eng.engines k).st = .inService ∨ (KMap.get u.eng.engines k).st = .off) →
      (KMap.get (u.engineOff x).eng.engines k).st = (KMap.get u.eng.engines k).st ∨
        (KMap.get (u.engineOff x).eng.engines k).st = .off := by
    intro u x h st
    by_cases here : k = x
    · subst here
      exact .inr ((engineOff_idle h.enginesWf (h.idle k own)).2 st)
    · exact .inl (by rw [(engineOff_units x).engines k here])
  have out : (KMap.get ((rangeFrom (8 * c) 8).foldl State.engineOff marked).eng.engines k).st = .off := by
    refine foldl_reaches (P := fun u => (KMap.get u.eng.engines k).st = .off) (I := fun u => Leaving c u ∧
      ((KMap.get u.eng.engines k).st = .inService ∨ (KMap.get u.eng.engines k).st = .off)) listed (fun u x h => ?_) (fun u h => ?_)
      (fun u x h off => ?_) ⟨left, by rw [engines]; exact st⟩
    · exact ⟨engineOff_leaves h.1 x, (once u x h.1 h.2).elim (fun same => by rw [same]; exact h.2) .inr⟩
    · exact (engineOff_idle h.1.enginesWf (h.1.idle k own)).2 h.2
    · exact (once u x h.1 h.2).elim (·.trans off) id
  by_cases here : k = 8 * c
  · subst here
    rw [drained_engine all.enginesWf]
    split
    · rfl
    · exact out
  · rw [(drained_units (8 * c)).engines k here]
    exact out

/-! ### CH_SUBSTITUTE -/

theorem setChan_get (wf : KMap.wf s.chans = true) (ch : Nat) (f : Chan → Chan) :
    KMap.get (s.setChan ch f).chans ch = f (KMap.get s.chans ch) := (KMap.get_upd wf ch f ch).trans (if_pos rfl)

/-- CH_SUBSTITUTE = 0 takes the request back, and no channel's converter changes at once (R73). -/
theorem substEnd_chans (wf : KMap.wf s.chans = true) (ch : Nat) :
    KMap.get (s.substEnd ch).chans ch = { KMap.get s.chans ch with substitute := false, retry := false } ∧
    ∀ x, x ≠ ch → KMap.get (s.substEnd ch).chans x = KMap.get s.chans x := by
  unfold State.substEnd
  extract_lets k asked p
  have chans : ∀ u : State, u.chans = asked.chans → KMap.get u.chans ch = { KMap.get s.chans ch with
      substitute := false, retry := false } ∧ ∀ x, x ≠ ch → KMap.get u.chans x = KMap.get s.chans x := by
    intro u same
    rw [same]
    exact ⟨setChan_get wf ch _, fun x other => get_set_other other⟩
  refine chans _ ?_
  rw [apply_ite State.chans, apply_ite State.chans, apply_ite State.chans, State.beginReturn_chans, State.park_chans, ite_self, ite_self,
    ite_self]

/-- An accepted CH_SUBSTITUTE = 1 asks for the group's spare, which begins its handover where the channel is not on it. -/
theorem substStart_spec (wf : KMap.wf s.chans = true) (ch : Nat) :
    KMap.get (s.substStart ch).chans ch = { KMap.get s.chans ch with substitute := true } ∧
    (∀ x, x ≠ ch → KMap.get (s.substStart ch).chans x = KMap.get s.chans x) ∧
    (∀ x, x ≠ ch / 32 → KMap.get (s.substStart ch).spares x = KMap.get s.spares x) ∧
    ((KMap.get s.chans ch).onSpare ≠ some (ch / 32) → (KMap.get (s.substStart ch).spares (ch / 32)).ch = some ch ∧
      (KMap.get (s.substStart ch).spares (ch / 32)).stage = .fill ∧
      (KMap.get (s.substStart ch).spares (ch / 32)).why = .request) := by
  unfold State.substStart
  extract_lets k asked t
  have here : KMap.get asked.chans ch = { KMap.get s.chans ch with substitute := true } := setChan_get wf ch _
  have others : ∀ x, x ≠ ch → KMap.get asked.chans x = KMap.get s.chans x := fun x other => get_set_other other
  split
  next on =>
    have stays : (KMap.get s.chans ch).onSpare = some (ch / 32) := by
      rw [here] at on
      exact on
    split
    · exact ⟨here, others, fun _ _ => rfl, fun off => absurd stays off⟩
    · exact ⟨here, others, fun x other => get_set_other other, fun off => absurd stays off⟩
  next off =>
    refine ⟨here, others, fun x other => get_set_other other, fun _ => ?_⟩
    have read := KMap.get_set_of_ne (m := asked.spares) (k := k) (v := { KMap.get asked.spares k with
      st := .parallel, ch := some ch, why := .request, stage := .fill, since := asked.clock.clk, slotAt := asked.clock.clk,
      slotMs := asked.cfg oSpareSlotMs, own := [], spare := [], measOffset := 0, measGain := 0,
      selfIssued0 := 0, selfRun0 := 0, selfIssued1 := 0, selfRun1 := 0, foldDue := false })
      (fun empty => Option.some_ne_none ch (congrArg Spare.ch empty)) k
    rw [if_pos rfl] at read
    exact ⟨congrArg Spare.ch read, congrArg Spare.stage read, congrArg Spare.why read⟩

theorem substOn_congr (spares : t.spares = s.spares) (chans : t.chans = s.chans) (clock : t.clock = s.clock) (ch : Nat) :
    t.substOn ch = s.substOn ch := by
  unfold State.substOn
  rw [spares, chans, clock]

/-- A plain value that becomes active moves home queues alone in the engines' unit. -/
theorem Activated.engines {key v : Nat} (h : Activated s key v t) : t.eng.engines = s.eng.engines := by
  obtain ⟨homes, eng⟩ := h.homes
  rw [eng]

theorem Activated.clusters {key v : Nat} (h : Activated s key v t) : t.eng.clusters = s.eng.clusters := by
  obtain ⟨homes, eng⟩ := h.homes
  rw [eng]

theorem Activated.armed {key v : Nat} (h : Activated s key v t) : t.eng.armed = s.eng.armed := by
  obtain ⟨homes, eng⟩ := h.homes
  rw [eng]

/-! ### HK_RUN -/

/-- What a written HK_RUN does (R80). -/
def State.hkSwitch (s : State) (v : Nat) : State :=
  if v = 0 then
    (if (s.groups.get (s.cfg oHkSyncGroup)).running ∧ s.hk.running then s.setHk (fun h => { h with stopping := true }) else s.hkStop)
  else if s.hk.running then s.setHk (fun h => { h with stopping := false })
  else if s.eng.armed then s.hkStart else s

theorem hkSwitch_only (v : Nat) : Only 32 s (s.hkSwitch v) := by
  unfold State.hkSwitch
  refine only_ite (fun _ => ?_) (fun _ => ?_)
  · exact only_ite (fun _ => State.setHk_only (.refl _ _) rfl) (fun _ => State.hkStop_only (.refl _ _) rfl)
  · exact only_ite (fun _ => State.setHk_only (.refl _ _) rfl) (fun _ =>
      only_ite (fun _ => State.hkStart_only (.refl _ _) rfl) (fun _ => .refl _ _))

/-! ### ENGINE_ENABLE and CLUSTER_ENABLE -/

/-- What a written ENGINE_ENABLE does to one engine: its bit cleared, set, or as before. -/
def State.engineSwitch (old new : Nat) (s : State) (k : Nat) : State :=
  if bit old k && !bit new k then s.engineOff k else if !bit old k && bit new k then s.engineReadmit k else s

/-- What a written CLUSTER_ENABLE does to one cluster. -/
def State.clusterSwitch (old new : Nat) (s : State) (c : Nat) : State :=
  if bit old c && !bit new c then s.clusterOff c else if !bit old c && bit new c then s.clusterReadmit c else s

variable {old new : Nat}

theorem engineSwitch_units (k : Nat) : Units (· = k) (· = k / 8) s (s.engineSwitch old new k) := by
  unfold State.engineSwitch
  split
  · exact engineOff_units k
  · split
    · exact engineReadmit_units k
    · exact .refl s

theorem clusterSwitch_units (c : Nat) : Units (· / 8 = c) (· = c) s (s.clusterSwitch old new c) := by
  unfold State.clusterSwitch
  split
  · exact clusterOff_units c
  · split
    · exact clusterReadmit_units c
    · exact .refl s

theorem engineSwitch_ports (k : Nat) : (s.engineSwitch old new k).ports = s.ports := by
  unfold State.engineSwitch
  rw [apply_ite State.ports, apply_ite State.ports, State.engineOff_ports, State.engineReadmit_ports, ite_self, ite_self]

theorem clusterSwitch_ports (c : Nat) : (s.clusterSwitch old new c).ports = s.ports := by
  unfold State.clusterSwitch
  rw [apply_ite State.ports, apply_ite State.ports, State.clusterOff_ports, State.clusterReadmit_ports, ite_self, ite_self]

/-- Engines whose bit stays are left alone. -/
theorem engineSwitch_same (l : List Nat) (same : bit old k = bit new k) :
    KMap.get (l.foldl (State.engineSwitch old new) s).eng.engines k = KMap.get s.eng.engines k := by
  refine foldl_field (fun u : State => KMap.get u.eng.engines k) (fun u x => ?_) l s
  by_cases here : k = x
  · subst here
    unfold State.engineSwitch
    rw [same, if_neg (by simp), if_neg (by simp)]
  · exact (engineSwitch_units x).engines k here

/-- An idle engine in service whose bit is cleared is off in the end. -/
theorem engineSwitch_off {l : List Nat} (listed : k ∈ l) (was : bit old k = true) (cleared : bit new k = false)
    (wf : KMap.wf s.eng.engines = true) (idle : (KMap.get s.eng.engines k).Idle)
    (serves : (KMap.get s.eng.engines k).st = .inService) :
    (KMap.get (l.foldl (State.engineSwitch old new) s).eng.engines k).st = .off := by
  have own : ∀ u : State, u.engineSwitch old new k = u.engineOff k := fun u => if_pos (by simp [was, cleared])
  refine foldl_reaches (P := fun u => (KMap.get u.eng.engines k).st = .off) (I := fun u => KMap.wf u.eng.engines = true ∧
    (KMap.get u.eng.engines k).Idle ∧ ((KMap.get u.eng.engines k).st = .inService ∨ (KMap.get u.eng.engines k).st = .off))
    listed (fun u x h => ?_) (fun u h => ?_) (fun u x h off => ?_) ⟨wf, idle, .inl serves⟩
  · refine ⟨(engineSwitch_units x).enginesWf h.1, ?_⟩
    by_cases here : k = x
    · subst here
      obtain ⟨stays, out⟩ := engineOff_idle h.1 h.2.1
      rw [own]
      exact ⟨stays, .inr (out h.2.2)⟩
    · rw [(engineSwitch_units x).engines k here]
      exact h.2
  · rw [own]
    exact (engineOff_idle h.1 h.2.1).2 h.2.2
  · by_cases here : k = x
    · subst here
      rw [own]
      exact (engineOff_idle h.1 h.2.1).2 h.2.2
    · rw [(engineSwitch_units x).engines k here]
      exact off

/-- An engine whose bit is set in a cluster that is on restarts, with EV56. -/
theorem engineSwitch_on {l : List Nat} (listed : k ∈ l) (was : bit old k = false) (set : bit new k = true)
    (wf : KMap.wf s.eng.engines = true) (on : s.clusterOn (k / 8) = true) :
    (KMap.get (l.foldl (State.engineSwitch old new) s).eng.engines k).st = .restarting ∧
    KMap.get (l.foldl (State.engineSwitch old new) s).evt.pending 56 = true := by
  have own : ∀ u : State, u.engineSwitch old new k = u.engineReadmit k :=
    fun u => (if_neg (by simp [was])).trans (if_pos (by simp [was, set]))
  have readmits : ∀ u : State, KMap.wf u.eng.engines = true → u.clusterOn (k / 8) = true →
      (KMap.get (u.engineReadmit k).eng.engines k).st = .restarting ∧ KMap.get (u.engineReadmit k).evt.pending 56 = true := by
    intro u wf on
    unfold State.engineReadmit
    rw [if_neg (by simp [on])]
    refine ⟨?_, (raise_raised _ _ _).pending⟩
    rw [State.raise_eng, setEngine_get ((giveBack_units (C := fun _ => False) k).enginesWf wf)]
  refine foldl_reaches (P := fun u => (KMap.get u.eng.engines k).st = .restarting ∧ KMap.get u.evt.pending 56 = true)
    (I := fun u => KMap.wf u.eng.engines = true ∧ u.clusterOn (k / 8) = true) listed (fun u x h => ?_) (fun u h => ?_)
    (fun u x h done => ?_) ⟨wf, on⟩
  · refine ⟨(engineSwitch_units x).enginesWf h.1, (congrArg (fun v => bit v (k / 8)) ?_).trans h.2⟩
    exact cfg_congr (congrArg Dict.active (engineSwitch_units x).dict) _
  · rw [own]
    exact readmits u h.1 h.2
  · by_cases here : k = x
    · subst here
      rw [own]
      exact readmits u h.1 h.2
    · exact ⟨by rw [(engineSwitch_units x).engines k here]; exact done.1, (engineSwitch_units x).pending 56 done.2⟩

/-- Clusters whose bit stays are left alone, with their engines. -/
theorem clusterSwitch_same (l : List Nat) (same : bit old c = bit new c) :
    KMap.get (l.foldl (State.clusterSwitch old new) s).eng.clusters c = KMap.get s.eng.clusters c ∧
    ∀ k, k / 8 = c → KMap.get (l.foldl (State.clusterSwitch old new) s).eng.engines k = KMap.get s.eng.engines k := by
  have kept : ∀ u : State, u.clusterSwitch old new c = u := by
    intro u
    unfold State.clusterSwitch
    rw [same, if_neg (by simp), if_neg (by simp)]
  refine ⟨foldl_field (fun u : State => KMap.get u.eng.clusters c) (fun u x => ?_) l s, fun k own =>
    foldl_field (fun u : State => KMap.get u.eng.engines k) (fun u x => ?_) l s⟩
  · by_cases here : c = x
    · rw [← here, kept]
    · exact (clusterSwitch_units x).clusters c here
  · by_cases here : c = x
    · rw [← here, kept]
    · exact (clusterSwitch_units x).engines k (fun other => here (own.symm.trans other))

/-- A cluster on its way out of service with the engines given: idle, and in service or off. -/
structure Going (c : Nat) (out : Nat → Prop) (s : State) : Prop where
  enginesWf  : KMap.wf s.eng.engines = true
  clustersWf : KMap.wf s.eng.clusters = true
  idle       : ∀ k, k / 8 = c → (KMap.get s.eng.engines k).Idle
  st         : (KMap.get s.eng.clusters c).st = .inService ∨ (KMap.get s.eng.clusters c).st = .off
  engines    : ∀ k, k / 8 = c → out k → (KMap.get s.eng.engines k).st = .inService ∨ (KMap.get s.eng.engines k).st = .off

/-- A cluster that is off with the engines given. -/
def Gone (c : Nat) (out : Nat → Prop) (s : State) : Prop :=
  (KMap.get s.eng.clusters c).st = .off ∧ ∀ k, k / 8 = c → out k → (KMap.get s.eng.engines k).st = .off

theorem clusterOff_going {out : Nat → Prop} (h : Going c out s) : Going c out (s.clusterOff c) ∧ Gone c out (s.clusterOff c) := by
  obtain ⟨idle, gone, off⟩ := clusterOff_idle h.enginesWf h.clustersWf h.idle h.st
  have engines : ∀ k, k / 8 = c → out k → (KMap.get (s.clusterOff c).eng.engines k).st = .off :=
    fun k own leaves => off k own (h.engines k own leaves)
  have units := clusterOff_units (s := s) c
  exact ⟨⟨units.enginesWf h.enginesWf, units.clustersWf h.clustersWf, idle, .inr gone, fun k own leaves => .inr (engines k own leaves)⟩,
    gone, engines⟩

/-- What happens to another cluster leaves this one on its way. -/
theorem going_other {out : Nat → Prop} {x : Nat} (h : Units (· / 8 = x) (· = x) s t) (other : c ≠ x) :
    (Going c out s → Going c out t) ∧ (Gone c out s → Gone c out t) := by
  have engines : ∀ k, k / 8 = c → KMap.get t.eng.engines k = KMap.get s.eng.engines k :=
    fun k own => h.engines k (fun here => other (own.symm.trans here))
  have cluster := h.clusters c other
  refine ⟨fun g => ⟨h.enginesWf g.enginesWf, h.clustersWf g.clustersWf, fun k own => ?_, ?_, fun k own leaves => ?_⟩,
    fun g => ⟨?_, fun k own leaves => ?_⟩⟩
  · rw [engines k own]
    exact g.idle k own
  · rw [cluster]
    exact g.st
  · rw [engines k own]
    exact g.engines k own leaves
  · rw [cluster]
    exact g.1
  · rw [engines k own]
    exact g.2 k own leaves

/-- A cluster in service with idle engines whose bit is cleared is off in the end, with those in service. -/
theorem clusterSwitch_off {out : Nat → Prop} {l : List Nat} (listed : c ∈ l) (was : bit old c = true) (cleared : bit new c = false)
    (h : Going c out s) : Gone c out (l.foldl (State.clusterSwitch old new) s) := by
  have own : ∀ u : State, u.clusterSwitch old new c = u.clusterOff c := fun u => if_pos (by simp [was, cleared])
  refine foldl_reaches (I := Going c out) listed (fun u x going => ?_) (fun u going => ?_) (fun u x going gone => ?_) h
  · by_cases here : c = x
    · rw [← here, own]
      exact (clusterOff_going going).1
    · exact (going_other (clusterSwitch_units x) here).1 going
  · rw [own]
    exact (clusterOff_going going).2
  · by_cases here : c = x
    · rw [← here, own]
      exact (clusterOff_going going).2
    · exact (going_other (clusterSwitch_units x) here).2 gone

/-- A cluster whose bit is set restarts as a service, with EV56. -/
theorem clusterSwitch_on {l : List Nat} (listed : c ∈ l) (was : bit old c = false) (set : bit new c = true)
    (wf : KMap.wf s.eng.clusters = true) :
    (KMap.get (l.foldl (State.clusterSwitch old new) s).eng.clusters c).st = .restarting ∧
    (KMap.get (l.foldl (State.clusterSwitch old new) s).eng.clusters c).svc = true ∧
    KMap.get (l.foldl (State.clusterSwitch old new) s).evt.pending 56 = true := by
  have own : ∀ u : State, u.clusterSwitch old new c = u.clusterReadmit c :=
    fun u => (if_neg (by simp [was])).trans (if_pos (by simp [was, set]))
  have readmits : ∀ u : State, KMap.wf u.eng.clusters = true → (KMap.get (u.clusterReadmit c).eng.clusters c).st = .restarting ∧
      (KMap.get (u.clusterReadmit c).eng.clusters c).svc = true ∧ KMap.get (u.clusterReadmit c).evt.pending 56 = true := by
    intro u wf
    unfold State.clusterReadmit
    extract_lets marked restarted
    have marked_wf : KMap.wf marked.eng.clusters = true := (setCluster_units (E := fun _ => False) c _).clustersWf wf
    have wf' : KMap.wf restarted.eng.clusters = true := by
      refine Eq.trans ?_ marked_wf
      simp only [restarted]
      refine foldl_field (fun u : State => KMap.wf u.eng.clusters) (fun u k => ?_) _ _
      rfl
    obtain ⟨-, cluster, pending⟩ := resetCluster_spec (s := restarted) c 7
    exact ⟨(cluster wf').1, (cluster wf').2, pending⟩
  refine foldl_reaches (P := fun u => (KMap.get u.eng.clusters c).st = .restarting ∧ (KMap.get u.eng.clusters c).svc = true ∧
    KMap.get u.evt.pending 56 = true) (I := fun u => KMap.wf u.eng.clusters = true) listed
    (fun u x h => (clusterSwitch_units x).clustersWf h) (fun u h => ?_) (fun u x h done => ?_) wf
  · rw [own]
    exact readmits u h
  · by_cases here : c = x
    · rw [← here, own]
      exact readmits u h
    · rw [(clusterSwitch_units x).clusters c here]
      exact ⟨done.1, done.2.1, (clusterSwitch_units x).pending 56 done.2.2⟩

end Sys2Proof.Machine

open Sys2Proof Sys2Proof.Machine

/-- Settles O37: an altering write makes its value active and goes on to its switch, which the lemmas above follow unit by unit. -/
theorem frontEndAndEngineSwitches : Obligations.FrontEndAndEngineSwitches := by
  unfold Obligations.FrontEndAndEngineSwitches
  refine ⟨fun s r ch b allowed wf => ?_, fun s r b allowed => ?_, fun s r b alters => ?_, fun s r b alters wf => ?_,
    fun s r b alters enginesWf clustersWf => ?_⟩
  · have d := writeReq_delivers (F := fun s v => s.wSubstitute ch.val v) allowed (fun u v => State.wSubstitute_ports)
    have chans : (s.ownerWrote r.cls).chans = s.chans := State.ownerWrote_chans
    have spares : (s.ownerWrote r.cls).spares = s.spares := State.ownerWrote_spares
    have asks : (s.ownerWrote r.cls).substOn ch.val = s.substOn ch.val := substOn_congr spares chans State.ownerWrote_clock _
    have wf' : KMap.wf (s.ownerWrote r.cls).chans = true := by rw [chans]; exact wf
    obtain ⟨ended, endOthers⟩ := substEnd_chans wf' ch.val
    obtain ⟨started, startOthers, spareOthers, connects⟩ := substStart_spec wf' ch.val
    rw [chans] at ended endOthers started startOthers connects
    rw [spares] at spareOthers
    have same : (s.writeReq r (0x3000 + ch.val) 6 b (fun s _ v => s.wSubstitute ch.val v)).chans =
      ((s.ownerWrote r.cls).wSubstitute ch.val (ofLe b)).chans := (congrArg State.chans d :)
    have sameSpares : (s.writeReq r (0x3000 + ch.val) 6 b (fun s _ v => s.wSubstitute ch.val v)).spares =
      ((s.ownerWrote r.cls).wSubstitute ch.val (ofLe b)).spares := (congrArg State.spares d :)
    have ends : ofLe b = 0 → (s.ownerWrote r.cls).wSubstitute ch.val (ofLe b) = ((s.ownerWrote r.cls).substEnd ch.val).answer stOk :=
      fun zero => if_pos zero
    have refuses : ∀ e, ofLe b ≠ 0 → s.substOn ch.val = some e →
        (s.ownerWrote r.cls).wSubstitute ch.val (ofLe b) = (s.ownerWrote r.cls).answerRetry e.1 e.2 := by
      intro e one refused
      unfold State.wSubstitute
      rw [if_neg one, asks, refused]
    have starts : ofLe b ≠ 0 → s.substOn ch.val = none →
        (s.ownerWrote r.cls).wSubstitute ch.val (ofLe b) = ((s.ownerWrote r.cls).substStart ch.val).answer stOk := by
      intro one taken
      unfold State.wSubstitute
      rw [if_neg one, asks, taken]
    refine ⟨_, rfl, fun zero => ?_, fun e one refused => ?_, fun one taken => ?_, fun x other => ?_,
      (d.requestOnly (m := 2173698072) (State.wSubstitute_only (.refl _ _) rfl) rfl rfl).changesOnly rfl⟩
    · rw [ends zero] at d same
      have read : KMap.get (s.writeReq r (0x3000 + ch.val) 6 b (fun s _ v => s.wSubstitute ch.val v)).chans ch.val =
        { KMap.get s.chans ch.val with substitute := false, retry := false } := by rw [same]; exact ended
      exact ⟨d.ans, congrArg Chan.substitute read, (congrArg Chan.onSpare read :)⟩
    · rw [refuses e one refused] at d
      exact d
    · rw [starts one taken] at d same sameSpares
      have read : KMap.get (s.writeReq r (0x3000 + ch.val) 6 b (fun s _ v => s.wSubstitute ch.val v)).chans ch.val =
        { KMap.get s.chans ch.val with substitute := true } := by rw [same]; exact started
      refine ⟨d.ans, congrArg Chan.substitute read, ?_, ?_⟩
      · rw [sameSpares]
        exact spareOthers
      · rw [sameSpares]
        exact connects
    · rw [same]
      by_cases zero : ofLe b = 0
      · rw [ends zero]
        exact endOthers x other
      · cases taken : s.substOn ch.val with
        | none =>
          rw [starts zero taken]
          exact startOthers x other
        | some e =>
          rw [refuses e zero taken]
          exact congrArg (fun m => KMap.get m x) chans
  · have d := writeReq_delivers (F := fun s v => s.wHkFlags v) allowed (fun u v => rfl)
    refine ⟨_, rfl, ?_⟩
    unfold State.wHkFlags State.setHk at d
    rw [State.ownerWrote_hk] at d
    exact d
  · obtain ⟨w, activated, value, d, -⟩ := writeReq_alters (F := fun s c v => s.wHkRun r.cls c v)
      (g := fun u => u.hkSwitch (ofLe b)) alters rfl (fun c => .inl rfl) (fun u => (hkSwitch_only _).ports rfl) (fun u => (hkSwitch_only _).dict rfl)
    have hk : w.hk = s.hk := (activated.only.hk rfl).trans State.ownerWrote_hk
    have group : w.groups.get (w.cfg oHkSyncGroup) = s.groups.get (s.cfg oHkSyncGroup) := by
      rw [(activated.only.groups rfl).trans State.ownerWrote_groups, activated.cfg_other (by decide), ownerWrote_cfg]
    have armed : w.eng.armed = s.eng.armed := activated.armed.trans (congrArg Eng.armed State.ownerWrote_eng)
    have means : (w.answer stOk).hkSwitch (ofLe b) = if ofLe b = 0 then
        (if (s.groups.get (s.cfg oHkSyncGroup)).running ∧ s.hk.running then
          (w.answer stOk).setHk (fun h => { h with stopping := true }) else (w.answer stOk).hkStop)
      else if s.hk.running then (w.answer stOk).setHk (fun h => { h with stopping := false })
      else if s.eng.armed then (w.answer stOk).hkStart else w.answer stOk := by
      rw [← group, ← hk, ← armed]
      rfl
    have after : (s.writeReq r 0x3300 7 b (fun s c v => s.wHkRun r.cls c v)).hk = ((w.answer stOk).hkSwitch (ofLe b)).hk :=
      (congrArg State.hk d :)
    have stops : ∀ f : Hk → Hk, ((w.answer stOk).setHk f).hk = f s.hk := fun f => congrArg f hk
    refine ⟨_, rfl, value, d.ans.trans ((hkSwitch_only _).ans rfl), fun zero runs going => ?_, fun zero still => ?_, fun one going => ?_,
      fun one idle ready => ?_⟩
    · rw [after, means, if_pos zero, if_pos ⟨runs, going⟩]
      exact stops _
    · rw [after, means, if_pos zero, if_neg]
      · exact ⟨rfl, rfl⟩
      · rintro ⟨runs, going⟩
        exact still.elim (fun off => Bool.noConfusion (runs.symm.trans off)) (fun off => Bool.noConfusion (going.symm.trans off))
    · rw [after, means, if_neg (by omega), if_pos going]
      exact stops _
    · rw [after, means, if_neg (by omega), if_neg (by rw [idle]; exact Bool.noConfusion), if_pos ready]
      exact stops _
  · obtain ⟨w, activated, value, d, -⟩ := writeReq_alters (F := fun s c v => s.wEngines r.cls c v)
      (g := fun u => u.keepAns (fun u => (List.range 32).foldl (State.engineSwitch ((s.ownerWrote r.cls).cfg oEngineEnable) (ofLe b)) u))
      alters rfl (fun c => .inl rfl) (fun u => foldl_field State.ports (fun _ _ => engineSwitch_ports _) _ _)
      (fun u => foldl_field State.dict (fun _ k => (engineSwitch_units k).dict) _ _)
    have engines : w.eng.engines = s.eng.engines := activated.engines.trans (congrArg Eng.engines State.ownerWrote_eng)
    have cfg : (s.ownerWrote r.cls).cfg oEngineEnable = s.cfg oEngineEnable := ownerWrote_cfg r.cls _
    have wf' : KMap.wf (w.answer stOk).eng.engines = true := (congrArg KMap.wf engines).trans wf
    rw [cfg] at d
    have after := (congrArg State.eng d :)
    refine ⟨_, rfl, value, d.ans, fun k small same => ?_, fun k small was cleared serves run susp => ?_,
      fun k small was set on => ?_⟩
    · rw [after]
      exact (engineSwitch_same (s := w.answer stOk) (List.range 32) same).trans
        (congrArg (fun m => KMap.get m k) engines)
    · rw [after]
      rw [← show KMap.get (w.answer stOk).eng.engines k = KMap.get s.eng.engines k from congrArg (fun m => KMap.get m k) engines]
        at serves run susp
      exact engineSwitch_off (List.mem_range.mpr small) was cleared wf' ⟨run, susp⟩ serves
    · have on' : (w.answer stOk).clusterOn (k / 8) = true := by
        refine (congrArg (fun v => bit v (k / 8)) ?_).trans on
        exact (activated.cfg_other (by decide)).trans (ownerWrote_cfg r.cls _)
      obtain ⟨st, pending⟩ := engineSwitch_on (s := w.answer stOk) (List.mem_range.mpr small) was set wf' on'
      rw [after, d.pending]
      exact ⟨st, pending⟩
  · obtain ⟨w, activated, value, d, -⟩ := writeReq_alters (F := fun s c v => s.wClusters r.cls c v)
      (g := fun u => u.keepAns (fun u => (List.range 4).foldl (State.clusterSwitch ((s.ownerWrote r.cls).cfg oClusterEnable) (ofLe b)) u))
      alters rfl (fun c => .inl rfl) (fun u => foldl_field State.ports (fun _ _ => clusterSwitch_ports _) _ _)
      (fun u => foldl_field State.dict (fun _ k => (clusterSwitch_units k).dict) _ _)
    have engines : w.eng.engines = s.eng.engines := activated.engines.trans (congrArg Eng.engines State.ownerWrote_eng)
    have clusters : w.eng.clusters = s.eng.clusters := activated.clusters.trans (congrArg Eng.clusters State.ownerWrote_eng)
    have cfg : (s.ownerWrote r.cls).cfg oClusterEnable = s.cfg oClusterEnable := ownerWrote_cfg r.cls _
    have enginesWf' : KMap.wf (w.answer stOk).eng.engines = true := (congrArg KMap.wf engines).trans enginesWf
    have clustersWf' : KMap.wf (w.answer stOk).eng.clusters = true := (congrArg KMap.wf clusters).trans clustersWf
    have engine : ∀ k, KMap.get (w.answer stOk).eng.engines k = KMap.get s.eng.engines k := fun k => congrArg (fun m => KMap.get m k) engines
    have cluster : ∀ c, KMap.get (w.answer stOk).eng.clusters c = KMap.get s.eng.clusters c :=
      fun c => congrArg (fun m => KMap.get m c) clusters
    rw [cfg] at d
    have after := (congrArg State.eng d :)
    refine ⟨_, rfl, value, d.ans, fun c small same => ?_, fun c small was cleared serves idle => ?_, fun c small was set => ?_⟩
    · rw [after]
      obtain ⟨kept, others⟩ := clusterSwitch_same (s := w.answer stOk) (List.range 4) same
      exact ⟨kept.trans (cluster c), fun k own => (others k own).trans (engine k)⟩
    · have going : Going c (fun k => (KMap.get s.eng.engines k).st = .inService) (w.answer stOk) :=
        ⟨enginesWf', clustersWf', fun k own => by rw [engine]; exact idle k own, .inl (by rw [cluster]; exact serves),
          fun k _ served => .inl (by rw [engine]; exact served)⟩
      rw [after]
      exact clusterSwitch_off (List.mem_range.mpr small) was cleared going
    · rw [after, d.pending]
      exact clusterSwitch_on (List.mem_range.mpr small) was set clustersWf'

end

section
/-! PROOFS. The capture slots and the configuration hold (R42, R43, R183). -/
namespace Sys2Proof.Machine

variable {s t u : State} {q : Cls} {k v ch : Nat}

@[simp] theorem State.wCapture_ports {s : State} {a1 : _} : (s.wCapture a1).ports = s.ports :=
  (State.wCapture_only (.refl 2147532800 s) rfl).ports rfl
@[simp] theorem State.wCaptFree_ports {s : State} {a1 : _} : (s.wCaptFree a1).ports = s.ports :=
  (State.wCaptFree_only (.refl 2147500032 s) rfl).ports rfl
@[simp] theorem State.ownerWrote_captMissed {s : State} {a1 : _} : (s.ownerWrote a1).captMissed = s.captMissed :=
  (State.ownerWrote_only (.refl 1048576 s) rfl).captMissed rfl

/-! ### The capture slots -/

/-- A capture slot that is taken. -/
def CaptSlot.Taken (x : CaptSlot) : Prop := x.busy = true ∨ x.ready = true


theorem setSlot_busy {f : CaptSlot → CaptSlot} (busy : (f (KMap.get s.capt k)).busy = true) :
    KMap.get (s.setSlot k f).capt k = f (KMap.get s.capt k) :=
  (KMap.get_set_of_ne (fun empty => Bool.noConfusion (busy.symm.trans (congrArg CaptSlot.busy empty))) k).trans (if_pos rfl)

/-- A trigger takes a free slot or none (R183). -/
theorem captTrigger_taken {kind pos : Nat} (taken : (KMap.get s.capt k).Taken) :
    KMap.get (s.captTrigger ch kind pos).capt k = KMap.get s.capt k := by
  unfold State.captTrigger
  split
  · rfl
  · dsimp only
    split
    next j found =>
      have free := List.find?_some found
      split
      · rfl
      · refine get_set_other (fun here => ?_)
        subst here
        rcases taken with h | h <;> simp [h] at free
    next => rfl

/-- A trigger of a channel that holds no slot takes the first free one. -/
theorem captTrigger_free {kind pos : Nat} (on : s.captOn ch = true) (buffered : s.captStream = false) (small : k < 8)
    (unheld : ∀ j, j < 8 → (KMap.get s.capt j).Taken → (KMap.get s.capt j).ch ≠ ch)
    (before : ∀ j, j < k → (KMap.get s.capt j).Taken) (idle : (KMap.get s.capt k).busy = false)
    (empty : (KMap.get s.capt k).ready = false) :
    (KMap.get (s.captTrigger ch kind pos).capt k).busy = true ∧ (KMap.get (s.captTrigger ch kind pos).capt k).ch = ch ∧
      (s.captTrigger ch kind pos).captMissed = s.captMissed := by
  have first : (List.range 8).find? (fun k => !(s.capt.get k).busy && !(s.capt.get k).ready) = some k := by
    rw [List.find?_range_eq_some]
    refine ⟨by simp [idle, empty], List.mem_range.mpr small, fun j lower => ?_⟩
    rcases before j lower with h | h <;> simp [h]
  have free : (List.range 8).any (fun k => ((s.capt.get k).busy || (s.capt.get k).ready) && decide ((s.capt.get k).ch = ch)) = false := by
    rw [List.any_eq_false]
    intro j listed held
    simp only [Bool.and_eq_true, Bool.or_eq_true, decide_eq_true_eq] at held
    exact unheld j (List.mem_range.mp listed) held.1 held.2
  unfold State.captTrigger
  rw [if_neg (by simp [on, buffered])]
  dsimp only
  rw [first, free]
  dsimp only
  rw [if_neg Bool.false_ne_true, setSlot_busy rfl]
  exact ⟨rfl, rfl, rfl⟩

/-- What STOP does to one slot: a capture that runs ends after the cycle in progress. -/
def State.captStopOne (s : State) (k : Nat) : State :=
  if (s.capt.get k).busy then
    s.setSlot k (fun x => { x with stopAt := some (((s.groups.get (s.vgOf x.ch)).table.head?).elim 0 Boundary.cycle) })
  else s

theorem captStopOne_busy (busy : (KMap.get s.capt k).busy = true) : (KMap.get (s.captStopOne k).capt k).stopAt.isSome = true ∧
    (KMap.get (s.captStopOne k).capt k).busy = true := by
  unfold State.captStopOne
  rw [if_pos busy, setSlot_busy (by exact busy)]
  exact ⟨rfl, busy⟩

theorem captStopOne_other {j : Nat} (other : k ≠ j ∨ (KMap.get s.capt k).busy = false) :
    KMap.get (s.captStopOne j).capt k = KMap.get s.capt k := by
  unfold State.captStopOne
  split
  next busy =>
    refine get_set_other (fun here => ?_)
    subst here
    exact Bool.noConfusion (busy.symm.trans (other.resolve_left (fun no => no rfl)))
  · rfl

/-- STOP marks the slots that record, and no other (R183). -/
theorem captStop_busy (small : k < 8) (busy : (KMap.get s.capt k).busy = true) :
    (KMap.get s.captStop.capt k).stopAt.isSome = true ∧ (KMap.get s.captStop.capt k).busy = true := by
  refine foldl_reaches (f := State.captStopOne) (i := k) (I := fun u => (KMap.get u.capt k).busy = true)
    (P := fun u => (KMap.get u.capt k).stopAt.isSome = true ∧ (KMap.get u.capt k).busy = true) (List.mem_range.mpr small)
    (fun u x busy => ?_) (fun u busy => captStopOne_busy busy) (fun u x busy done => ?_) busy
  · by_cases here : k = x
    · subst here
      exact (captStopOne_busy busy).2
    · rw [captStopOne_other (.inl here)]
      exact busy
  · by_cases here : k = x
    · subst here
      exact captStopOne_busy busy
    · rw [captStopOne_other (.inl here)]
      exact done

theorem captStop_idle (idle : (KMap.get s.capt k).busy = false) : KMap.get s.captStop.capt k = KMap.get s.capt k :=
  foldl_keeps (f := State.captStopOne) (P := fun u => KMap.get u.capt k = KMap.get s.capt k)
    (fun u x same => (captStopOne_other (.inr (by rw [same]; exact idle))).trans same) _ rfl

theorem captFree_get (wf : KMap.wf s.capt = true) (k j : Nat) :
    KMap.get (s.captFree k).capt j = if j = k then {} else KMap.get s.capt j := by
  unfold State.captFree State.setSlot
  exact KMap.get_upd wf k (fun _ => {}) j

theorem captFree_wf (wf : KMap.wf s.capt = true) (k : Nat) : KMap.wf (s.captFree k).capt = true := by
  unfold State.captFree State.setSlot
  exact KMap.upd_wf wf k (fun _ => {})

/-- What RELEASE_ALL does to one slot. -/
def State.captFreeOne (s : State) (k : Nat) : State := if (s.capt.get k).ready then s.captFree k else s

theorem captFreeOne_get (wf : KMap.wf s.capt = true) (k j : Nat) : KMap.wf (s.captFreeOne k).capt = true ∧
    KMap.get (s.captFreeOne k).capt j = if j = k ∧ (KMap.get s.capt j).ready = true then {} else KMap.get s.capt j := by
  unfold State.captFreeOne
  split
  next ready =>
    refine ⟨captFree_wf wf k, (captFree_get wf k j).trans (ite_of_iff ⟨fun here => ⟨here, ?_⟩, fun h => h.1⟩)⟩
    rw [here]
    exact ready
  next unready =>
    refine ⟨wf, (if_neg ?_).symm⟩
    rintro ⟨rfl, ready⟩
    exact unready ready

/-- RELEASE_ALL empties the ready slots of a list, and no other. -/
theorem captFreeOne_foldl (l : List Nat) (wf : KMap.wf s.capt = true) (j : Nat) :
    KMap.get (l.foldl State.captFreeOne s).capt j =
      if j ∈ l ∧ (KMap.get s.capt j).ready = true then {} else KMap.get s.capt j := by
  induction l generalizing s with
  | nil => exact (if_neg (fun h => List.not_mem_nil h.1)).symm
  | cons k l ih =>
    obtain ⟨wf', read⟩ := captFreeOne_get wf k j
    rw [List.foldl_cons, ih wf', read]
    by_cases here : j = k
    · subst here
      by_cases ready : (KMap.get s.capt j).ready = true <;> simp [ready]
    · simp [here]

theorem captFreeAll_get (wf : KMap.wf s.capt = true) (j : Nat) : KMap.get s.captFreeAll.capt j =
    if j < 8 ∧ (KMap.get s.capt j).ready = true then {} else KMap.get s.capt j := by
  have freed := captFreeOne_foldl (List.range 8) wf j
  simp only [List.mem_range] at freed
  exact freed

/-- A host trigger (R183): every channel of the capture set. -/
def State.triggerAll (s : State) : State := s.captSet.foldl (fun s ch => s.captTrigger ch 1 s.posNow) s

theorem triggerAll_taken (taken : (KMap.get s.capt k).Taken) : KMap.get s.triggerAll.capt k = KMap.get s.capt k :=
  foldl_keeps (f := fun (u : State) ch => u.captTrigger ch 1 u.posNow) (P := fun u => KMap.get u.capt k = KMap.get s.capt k)
    (fun _ _ same => (captTrigger_taken (by rw [same]; exact taken)).trans same) _ rfl

theorem triggerAll_only : Only 49152 s s.triggerAll :=
  only_foldl (.refl _ s) (fun _ _ => State.captTrigger_only (.refl _ _) rfl)

theorem triggerAll_single (set : s.captSet = [ch]) (on : s.captOn ch = true) (buffered : s.captStream = false) (small : k < 8)
    (unheld : ∀ j, j < 8 → (KMap.get s.capt j).Taken → (KMap.get s.capt j).ch ≠ ch)
    (before : ∀ j, j < k → (KMap.get s.capt j).Taken) (idle : (KMap.get s.capt k).busy = false)
    (empty : (KMap.get s.capt k).ready = false) :
    (KMap.get s.triggerAll.capt k).busy = true ∧ (KMap.get s.triggerAll.capt k).ch = ch ∧ s.triggerAll.captMissed = s.captMissed := by
  unfold State.triggerAll
  rw [set]
  exact captTrigger_free on buffered small unheld before idle empty

/-- What takes part in capture is a matter of the active values. -/
theorem captCfg_congr (cfg : ∀ k, t.cfg k = s.cfg k) : t.captSet = s.captSet ∧ (∀ ch, t.captOn ch = s.captOn ch) ∧
    t.captStream = s.captStream := by
  unfold State.captSet State.captOn State.captStream
  simp only [cfg, true_and, implies_true]

section
variable {r : Req}

/-- A write of CAPT_COMMAND comes to the meaning of its value. -/
theorem capture_delivered {b : Bytes} (allowed : s.allows r 0x6200 0x2A b = true) (means : (s.ownerWrote r.cls).wCapture (ofLe b) = t) :
    Delivered t (s.writeReq r 0x6200 0x2A b (fun s _ v => s.wCapture v)) := by
  subst means
  exact writeReq_delivers (F := fun s v => s.wCapture v) allowed (fun _ _ => State.wCapture_ports)

theorem Delivered.capt (d : Delivered s t) : t.capt = s.capt := d.only.capt rfl

theorem answer_ans (n : Nat) : (s.answer n).ans = { status := n } := rfl

theorem wCapture_trigger : s.wCapture 1 = s.triggerAll.answer stOk := by
  unfold State.wCapture State.triggerAll
  rw [if_pos rfl]

theorem wCapture_stop : s.wCapture 2 = s.captStop.answer stOk := by
  unfold State.wCapture
  rw [if_neg (by decide), if_pos rfl]

theorem wCapture_releaseAll : s.wCapture 3 = s.captFreeAll.answer stOk := by
  unfold State.wCapture
  rw [if_neg (by decide), if_neg (by decide), if_pos rfl]

end

/-! ### The configuration hold -/

theorem writeHold_on (held : s.dict.owner.isSome = true) : s.writeHold q 1 = s.answer stOk :=
  (if_pos rfl).trans (if_pos held)

theorem writeHold_starts (none_ : s.dict.owner = none) :
    s.writeHold q 1 = ({ s with dict := { s.dict with owner := some q, since := s.clock.clk } }).answer stOk :=
  (if_pos rfl).trans (if_neg (by rw [none_]; exact Bool.noConfusion))

theorem writeHold_other (other : s.dict.owner ≠ some q) : s.writeHold q 0 = s.answer stOk :=
  (if_neg Nat.zero_ne_one).trans (if_neg other)

theorem writeHold_off (own : s.dict.owner = some q) : s.writeHold q 0 = s.holdOff :=
  (if_neg Nat.zero_ne_one).trans (if_pos own)

/-- The release of a hold: refused where a check fails or a store is full, and else each value goes on (R42, R43). -/
theorem holdOff_fails (fails : ∃ e ∈ s.heldList, s.crossOk (s.view true) e.1 e.2 = false) : s.holdOff = s.answer stRange := by
  obtain ⟨e, listed, bad⟩ := fails
  refine if_pos (List.all_eq_false.mpr ⟨e, listed, ?_⟩)
  rw [bad]
  exact Bool.noConfusion

theorem holdOff_full (passes : ∀ e ∈ s.heldList, s.crossOk (s.view true) e.1 e.2 = true) (full : s.persistAll s.heldList = none) :
    s.holdOff = s.answer stStoreFull := by
  unfold State.holdOff
  dsimp only
  rw [if_neg (by rw [List.all_eq_true.mpr passes]; exact Bool.noConfusion), full]

theorem holdOff_releases {p : State} (passes : ∀ e ∈ s.heldList, s.crossOk (s.view true) e.1 e.2 = true)
    (stored : s.persistAll s.heldList = some p) : s.holdOff =
      (s.heldList.foldl (fun (t : State) e => t.releaseOne e.1 e.2)
        { p with dict := { p.dict with held := [], owner := none } }).answer stOk := by
  unfold State.holdOff
  dsimp only
  rw [if_neg (by rw [List.all_eq_true.mpr passes]; exact Bool.noConfusion), stored]

theorem persistAll_single {c : Card} (card : cardOf (k / 256) (k % 256) = some c) : s.persistAll [(k, v)] = s.persist c k v := by
  unfold State.persistAll
  rw [card]
  dsimp only
  cases s.persist c k v <;> rfl

end Sys2Proof.Machine

open Sys2Proof Sys2Proof.Machine

/-- Settles O38: each command comes to what it does to the slots or to the hold. -/
theorem capturesAndHolds : Obligations.CapturesAndHolds := by
  unfold Obligations.CapturesAndHolds
  refine ⟨fun s r allowed => ?_, fun s r allowed => ?_, fun s r allowed wf => ?_, fun s r b allowed => ?_, fun s r allowed => ?_,
    fun s r allowed => ?_, fun s none_ => ?_, fun s owned => ?_⟩
  · have d := capture_delivered allowed wCapture_trigger
    have capt : (s.ownerWrote r.cls).capt = s.capt := State.ownerWrote_capt
    have after : (s.writeReq r 0x6200 0x2A [1] (fun s _ v => s.wCapture v)).capt = (s.ownerWrote r.cls).triggerAll.capt :=
      (congrArg State.capt d :)
    have missed : (s.writeReq r 0x6200 0x2A [1] (fun s _ v => s.wCapture v)).captMissed =
      (s.ownerWrote r.cls).triggerAll.captMissed := (congrArg State.captMissed d :)
    refine ⟨_, rfl, d.ans, fun k taken => ?_, fun ch k set on buffered small unheld before idle empty => ?_,
      (d.requestOnly (m := 2173747200) (State.answer_only (triggerAll_only.mono rfl) rfl) rfl rfl).changesOnly rfl⟩
    · rw [after, triggerAll_taken (by rw [capt]; exact taken), capt]
    · rw [after, missed, ← show (s.ownerWrote r.cls).captMissed = s.captMissed from State.ownerWrote_captMissed]
      rw [← capt] at unheld before idle empty
      obtain ⟨sets, ons, streams⟩ := captCfg_congr (s := s) (t := s.ownerWrote r.cls) (ownerWrote_cfg r.cls)
      exact triggerAll_single (sets.trans set) ((ons ch).trans on) (streams.trans buffered) small unheld before idle empty
  · have d := capture_delivered allowed wCapture_stop
    have capt : (s.ownerWrote r.cls).capt = s.capt := State.ownerWrote_capt
    have after : (s.writeReq r 0x6200 0x2A [2] (fun s _ v => s.wCapture v)).capt = (s.ownerWrote r.cls).captStop.capt :=
      d.capt.trans State.answer_capt
    refine ⟨_, rfl, d.ans.trans (answer_ans _), fun k busy small => ?_, fun k idle => ?_,
      (d.requestOnly (m := 2173714432) (State.answer_only (State.captStop_only (.refl _ _) rfl) rfl) rfl rfl).changesOnly rfl⟩
    · rw [after]
      exact captStop_busy small (by rw [capt]; exact busy)
    · rw [after, captStop_idle (by rw [capt]; exact idle), capt]
  · have d := capture_delivered allowed wCapture_releaseAll
    have capt : (s.ownerWrote r.cls).capt = s.capt := State.ownerWrote_capt
    have after : (s.writeReq r 0x6200 0x2A [3] (fun s _ v => s.wCapture v)).capt = (s.ownerWrote r.cls).captFreeAll.capt :=
      d.capt.trans State.answer_capt
    have freed := captFreeAll_get (s := s.ownerWrote r.cls) (by rw [capt]; exact wf)
    rw [capt] at freed
    refine ⟨_, rfl, d.ans.trans (answer_ans _), fun k small ready => ?_, fun k other => ?_,
      (d.requestOnly (m := 2173714432) (State.answer_only (State.captFreeAll_only (.refl _ _) rfl) rfl) rfl rfl).changesOnly rfl⟩
    · rw [after, freed, if_pos ⟨small, ready⟩]
    · rw [after, freed, if_neg]
      rintro ⟨small, ready⟩
      rcases other with unready | large
      · exact Bool.noConfusion (ready.symm.trans unready)
      · exact absurd small (Nat.not_lt.mpr large)
  · have d := writeReq_delivers (F := fun s v => s.wCaptFree v) allowed (fun u v => State.wCaptFree_ports)
    refine ⟨_, rfl, fun small => ?_⟩
    have means : (s.ownerWrote r.cls).wCaptFree (ofLe b) = ((s.ownerWrote r.cls).captFree (ofLe b)).answer stOk := if_pos small
    rw [means] at d
    unfold State.captFree State.setSlot at d
    rw [State.ownerWrote_capt] at d
    exact d
  · obtain ⟨c, card⟩ := card_of_allows allowed
    have dict : (s.ownerWrote r.cls).dict = s.dict := State.ownerWrote_dict
    have idle : (s.ownerWrote r.cls).ports.fWait = [] :=
      (congrArg Ports.fWait (ownerWrote_ports s r.cls)).trans (fWait_of_allows allowed)
    have comes : ∀ x, (s.ownerWrote r.cls).writeHold r.cls 1 = x → x.ports.fWait = [] →
        Delivered x (s.writeReq r 0x1102 1 [1] (fun s _ v => s.writeHold r.cls v)) :=
      fun x means free => (writeReq_comes (F := fun s _ v => s.writeHold r.cls v) allowed card means free).1
    refine ⟨_, rfl, fun held => ?_, fun none_ => ?_⟩
    · exact comes _ (writeHold_on (by rw [dict]; exact held)) idle
    · rw [← dict, ← show (s.ownerWrote r.cls).clock = s.clock from State.ownerWrote_clock]
      exact comes _ (writeHold_starts (by rw [dict]; exact none_)) idle
  · obtain ⟨c, card⟩ := card_of_allows allowed
    have dict : (s.ownerWrote r.cls).dict = s.dict := State.ownerWrote_dict
    have idle : (s.ownerWrote r.cls).ports.fWait = [] :=
      (congrArg Ports.fWait (ownerWrote_ports s r.cls)).trans (fWait_of_allows allowed)
    have comes : ∀ x, (s.ownerWrote r.cls).writeHold r.cls 0 = x → x.ports.fWait = [] →
        Delivered x (s.writeReq r 0x1102 1 [0] (fun s _ v => s.writeHold r.cls v)) :=
      fun x means free => (writeReq_comes (F := fun s _ v => s.writeHold r.cls v) allowed card means free).1
    refine ⟨_, rfl, fun other => ?_, fun u hu own => ?_⟩
    · exact comes _ (writeHold_other (by rw [dict]; exact other)) idle
    subst hu
    have own' : (s.ownerWrote r.cls).dict.owner = some r.cls := by rw [dict]; exact own
    have list : (s.ownerWrote r.cls).heldList = s.heldList := by
      unfold State.heldList
      rw [dict]
    rw [← list]
    have off := writeHold_off own'
    refine ⟨fun fails => ?_, fun passes full => ?_, fun nothing => ?_, fun k v c single row eff passes taken new => ?_⟩
    · exact comes _ (off.trans (holdOff_fails fails)) idle
    · exact comes _ (off.trans (holdOff_full passes full)) idle
    · have released := holdOff_releases (s := s.ownerWrote r.cls) (p := s.ownerWrote r.cls)
        (by rw [nothing]; exact fun _ listed => absurd listed List.not_mem_nil) (by rw [nothing]; rfl)
      rw [nothing] at released
      have d := comes _ (off.trans released) idle
      have after := d.dict
      refine ⟨(congrArg Dict.owner after :), (congrArg Dict.held after :), ?_, d.ans, ?_⟩
      · have active := (congrArg Dict.active after :)
        exact active.trans (congrArg Dict.active dict :)
      · exact (d.requestOnly (m := 2173698049) (State.answer_only (only_set_dict (.refl _ _) rfl) rfl) rfl rfl).changesOnly rfl
    · obtain ⟨p, stored⟩ := Option.isSome_iff_exists.mp taken
      have active : p.dict.active = s.dict.active := (persist_active stored).trans (congrArg Dict.active dict)
      have waits : ({ p with dict := { p.dict with held := [], owner := none } } : State).releaseOne k v =
          ({ p with dict := { p.dict with held := [], owner := none } } : State).setNext k (some v) := by
        unfold State.releaseOne
        rw [row]
        dsimp only
        rw [if_pos eff, if_neg]
        exact fun same => new (same.trans (cfg_congr (t := { p with dict := { p.dict with held := [], owner := none } }) active k))
      have released := holdOff_releases (s := s.ownerWrote r.cls) (p := p)
        (by rw [single]; exact fun e listed => List.mem_singleton.mp listed ▸ passes)
        (by rw [single, persistAll_single row]; exact stored)
      rw [single, List.foldl_cons, List.foldl_nil, waits] at released
      have ports : p.ports = (s.ownerWrote r.cls).ports := (persist_only stored).ports rfl
      have d := comes _ (off.trans released) (by exact (congrArg Ports.fWait ports).trans idle)
      have after := d.dict
      refine ⟨(congrArg Dict.owner after :), (congrArg Dict.held after :), ?_, ?_, d.ans⟩
      · refine (congrArg (fun x : Dict => KMap.get x.nextStart k) after).trans ?_
        exact (KMap.get_set_of_ne (Option.some_ne_none v) k).trans (if_pos rfl)
      · exact cfg_congr ((congrArg Dict.active after :).trans active) k
  · exact congrArg Host.Outcome.next (if_neg (by rw [none_]; exact Bool.noConfusion))
  · refine congrArg Host.Outcome.next ((if_pos owned).trans (if_neg ?_))
    rw [Option.isNone_iff_eq_none]
    exact fun none_ => Bool.noConfusion ((congrArg Option.isSome none_).symm.trans owned)

end

section
/-! PROOFS. The requests of the display (R398, R403, R404, R406, R409). -/
namespace Sys2Proof.Machine

variable {s t u : State} {q : Cls} {v : Nat}

@[simp] theorem State.wDisp_ports {s : State} {a1 : _} : (s.wDisp a1).ports = s.ports :=
  (State.wDisp_only (.refl 2424307712 s) rfl).ports rfl
@[simp] theorem State.wImage_ports {s : State} {a1 : _} : (s.wImage a1).ports = s.ports :=
  (State.wImage_only (.refl 2424307712 s) rfl).ports rfl
@[simp] theorem State.wOutage_ports {s : State} {a1 : _} : (s.wOutage a1).ports = s.ports :=
  (State.wOutage_only (.refl 2415919104 s) rfl).ports rfl
@[simp] theorem State.requestUpdate_ports {s : State} : (s.requestUpdate).ports = s.ports :=
  (State.requestUpdate_only (.refl 276824064 s) rfl).ports rfl
@[simp] theorem State.requestUpdate_dict {s : State} : (s.requestUpdate).dict = s.dict :=
  (State.requestUpdate_only (.refl 276824064 s) rfl).dict rfl
@[simp] theorem State.selvTarget_dict {s : State} {a1 : _} {a2 : _} : (s.selvTarget a1 a2).dict = s.dict :=
  (State.selvTarget_only (.refl 268435456 s) rfl).dict rfl
@[simp] theorem State.selvTarget_ports {s : State} {a1 : _} {a2 : _} : (s.selvTarget a1 a2).ports = s.ports :=
  (State.selvTarget_only (.refl 268435456 s) rfl).ports rfl
@[simp] theorem State.selvStatus_dict {s : State} : (s.selvStatus).dict = s.dict :=
  (State.selvStatus_only (.refl 268435456 s) rfl).dict rfl
@[simp] theorem State.requestUpdate_ans {s : State} : (s.requestUpdate).ans = s.ans :=
  (State.requestUpdate_only (.refl 276824064 s) rfl).ans rfl
@[simp] theorem State.requestClear_ans {s : State} : (s.requestClear).ans = s.ans :=
  (State.requestClear_only (.refl 276824064 s) rfl).ans rfl
@[simp] theorem State.requestOff_ans {s : State} : (s.requestOff).ans = s.ans :=
  (State.requestOff_only (.refl 276824064 s) rfl).ans rfl

/-! ### The start of a work -/

/-- Work that starts with the rails down, with the table of the band in force (R397, R398). -/
theorem dispStart_pumps {w : DispWork} (usable : phases (s.wf s.disp.band) ≠ 0) (down : s.disp.pumps = false) :
    s.dispStart w = s.setDisp (fun d => { d with
      bandRun := d.band, frames := 0, invalid := false, work := w, table := s.wf s.disp.band, copy := d.image, falling := false
      pendUpdate := d.pendUpdate && w ≠ .update, pendClear := d.pendClear && w ≠ .clear, pendBal := false
      clearDue := d.clearDue && w ≠ .clear, st := .pumpUp, pumps := true }) := by
  unfold State.dispStart
  dsimp only
  rw [if_neg usable]
  exact if_neg (by rw [show (State.setDisp _ _).disp.pumps = s.disp.pumps from rfl, down]; exact Bool.noConfusion)

/-- Without a usable table work does not start, and EV55 tells so (R397). -/
theorem dispStart_unusable {w : DispWork} (unusable : phases (s.wf s.disp.band) = 0) :
    ∃ d, (s.dispStart w).disp = d ∧ d.invalid = true ∧ d.st = .waiting ∧ d.pendUpdate = (s.disp.pendUpdate || decide (w = .update)) ∧
      d.shown = s.disp.shown ∧ KMap.get (s.dispStart w).evt.pending 55 = true := by
  unfold State.dispStart
  dsimp only
  rw [if_pos unusable]
  exact ⟨_, State.raise_disp, rfl, rfl, rfl, rfl, (raise_raised _ _ _).pending⟩

theorem firstFrame_images : s.firstFrame.disp.image = s.disp.image ∧ s.firstFrame.disp.shown = s.disp.shown := by
  unfold State.firstFrame
  extract_lets need n
  clear_value n need
  exact ⟨rfl, rfl⟩

/-- The start of a work touches neither the image register nor the image shown. -/
theorem dispStart_images (w : DispWork) : (s.dispStart w).disp.image = s.disp.image ∧ (s.dispStart w).disp.shown = s.disp.shown := by
  unfold State.dispStart
  dsimp only
  split
  · rw [show (State.ev55 _ 3).disp = _ from State.raise_disp]
    exact ⟨rfl, rfl⟩
  · split
    · rw [firstFrame_images.1, firstFrame_images.2]
      exact ⟨rfl, rfl⟩
    · exact ⟨rfl, rfl⟩

/-! ### The requests -/

theorem requestUpdate_waits (waits : s.disp.busy = true ∨ s.disp.restartAt.isSome = true) :
    s.requestUpdate = s.setDisp (fun d => { d with pendUpdate := true }) := if_pos waits

theorem idle_not {d : Disp} (idle : d.busy = false) (here : d.restartAt = none) : ¬ (d.busy = true ∨ d.restartAt.isSome = true) := by
  rw [idle, here]
  simp

theorem requestUpdate_starts (idle : s.disp.busy = false) (here : s.disp.restartAt = none) (clean : s.disp.dirty = false) :
    s.requestUpdate = s.dispStart .update := by
  unfold State.requestUpdate
  rw [if_neg (idle_not idle here), if_neg (by rw [clean]; exact Bool.noConfusion)]

/-- A request for an update touches neither the image register nor the image shown. -/
theorem requestUpdate_images : s.requestUpdate.disp.image = s.disp.image ∧ s.requestUpdate.disp.shown = s.disp.shown := by
  unfold State.requestUpdate
  split
  · exact ⟨rfl, rfl⟩
  · split
    · dsimp only
      split
      · exact dispStart_images _
      · exact ⟨rfl, rfl⟩
    · exact dispStart_images _

theorem requestClear_waits (waits : s.disp.busy = true ∨ s.disp.restartAt.isSome = true ∨ s.clearable = false) :
    s.requestClear = s.setDisp (fun d => { d with pendClear := true }) := if_pos waits

theorem requestClear_starts (idle : s.disp.busy = false) (here : s.disp.restartAt = none) (clearable : s.clearable = true) :
    s.requestClear = s.dispStart .clear := if_neg (by rw [idle, here, clearable]; simp)

theorem requestOff_waits (waits : s.disp.busy = true ∨ s.disp.restartAt.isSome = true) :
    s.requestOff = s.setDisp (fun d => { d with pendOff := true, pendUpdate := false }) := if_pos waits

theorem mainAbove_congr (same : t.disp.balance = s.disp.balance) (n : Nat) : t.mainAbove n = s.mainAbove n := by
  unfold State.mainAbove
  rw [same]

/-- With no segment above half the limit, a power-off discharges at once (R404). -/
theorem requestOff_discharges (idle : s.disp.busy = false) (here : s.disp.restartAt = none)
    (low : s.mainAbove (s.cfg oDcLimit / 2) = false) : s.requestOff = s.setDisp (fun d => { d with
      pendUpdate := false, pendOff := false, st := .discharging, work := .discharge, pumps := true, offStep := 2 }) := by
  unfold State.requestOff State.dispDischarge
  rw [if_neg (idle_not idle here)]
  extract_lets marked balanced
  have same : marked.mainAbove (marked.cfg oDcLimit / 2) = s.mainAbove (s.cfg oDcLimit / 2) := mainAbove_congr rfl _
  rw [if_neg (by rw [same, low]; exact fun high => Bool.noConfusion high.1)]
  rfl

theorem wDisp_update : s.wDisp 1 = (s.answer stOk).keepAns State.requestUpdate := by
  unfold State.wDisp
  rw [if_pos rfl]

theorem wDisp_clear : s.wDisp 2 = (s.answer stOk).keepAns State.requestClear := by
  unfold State.wDisp
  rw [if_neg (by decide), if_pos rfl]

theorem wDisp_off : s.wDisp 3 = (s.answer stOk).keepAns State.requestOff := by
  unfold State.wDisp
  rw [if_neg (by decide), if_neg (by decide), if_pos rfl]

theorem clearable_congr (pwr : t.pwr = s.pwr) (disp : t.disp = s.disp) : t.clearable = s.clearable := by
  unfold State.clearable
  rw [pwr, disp]

theorem wf_congr (cfg : ∀ k, t.cfg k = s.cfg k) (n : Nat) : t.wf n = s.wf n := congrArg (le 36) (cfg _)

theorem keepAns_disp (f : State → State) : (s.keepAns f).disp = (f s).disp := rfl

theorem keepAns_ports (f : State → State) : (s.keepAns f).ports = (f s).ports := rfl

theorem keepAns_dict (f : State → State) : (s.keepAns f).dict = (f s).dict := rfl

theorem keepAns_ans (f : State → State) : (s.keepAns f).ans = s.ans := rfl

theorem Delivered.disp (d : Delivered s t) : t.disp = s.disp := d.only.disp rfl

/-! ### The selvedge -/

/-- A segment other than SEG89 takes a target without more (R406). -/
theorem selvTarget_plain {i : Nat} {b : Bool} (other : i ≠ 1) : s.selvTarget i b = s.setSelv i (fun x => { x with target := b }) := by
  unfold State.selvTarget
  dsimp only
  split
  · exact if_neg (fun h => other h.1)
  · rfl

theorem setSelv_get (wf : KMap.wf s.disp.selv = true) (i j : Nat) (f : Selv → Selv) :
    KMap.get (s.setSelv i f).disp.selv j = if j = i then f (KMap.get s.disp.selv i) else KMap.get s.disp.selv j := by
  unfold State.setSelv State.setDisp
  exact KMap.get_upd wf i f j

/-- SELVEDGE_STATUS gives its six segments their targets, and leaves the others and what they show (R406). -/
theorem selvTargets_get (l : List Nat) (f : Nat → Bool) (wf : KMap.wf s.disp.selv = true) (j : Nat) :
    KMap.get (l.foldl (fun (s : State) i => s.selvTarget (2 + i) (f i)) s).disp.selv j =
      if ∃ i ∈ l, j = 2 + i then { KMap.get s.disp.selv j with target := f (j - 2) } else KMap.get s.disp.selv j := by
  induction l generalizing s with
  | nil => exact (if_neg (fun h => List.not_mem_nil h.choose_spec.1)).symm
  | cons i l ih =>
    have plain : s.selvTarget (2 + i) (f i) = s.setSelv (2 + i) (fun x => { x with target := f i }) := selvTarget_plain (by omega)
    have wf' : KMap.wf (s.setSelv (2 + i) (fun x => { x with target := f i })).disp.selv = true := by
      unfold State.setSelv State.setDisp
      exact KMap.upd_wf wf (2 + i) (fun x : Selv => { x with target := f i })
    rw [List.foldl_cons, plain, ih wf', setSelv_get wf]
    by_cases here : j = 2 + i
    · subst here
      rw [if_pos rfl]
      refine Eq.trans ?_ (if_pos ⟨i, List.mem_cons_self, rfl⟩).symm
      rw [Nat.add_sub_cancel_left]
      exact ite_self _
    · rw [if_neg here]
      refine ite_of_iff ⟨fun ⟨x, listed, at_⟩ => ⟨x, .tail _ listed, at_⟩, fun ⟨x, listed, at_⟩ => ?_⟩
      rcases List.mem_cons.mp listed with rfl | listed
      · exact absurd at_ here
      · exact ⟨x, listed, at_⟩

/-- What a written SELVEDGE_STATUS leaves: its bits as the targets of SEG90 to SEG95. -/
theorem selvStatus_get (wf : KMap.wf s.disp.selv = true) (value : s.cfg oSelvedgeStatus = v) (j : Nat) :
    KMap.get s.selvStatus.disp.selv j =
      if 2 ≤ j ∧ j < 8 then { KMap.get s.disp.selv j with target := bit v (j - 2) } else KMap.get s.disp.selv j := by
  have same : ∀ u : State, u.dict = s.dict → u.cfg oSelvedgeStatus = v :=
    fun u dict => (cfg_congr (congrArg Dict.active dict) _).trans value
  have means : ∀ (l : List Nat) (u : State), u.dict = s.dict →
      l.foldl (fun (s : State) i => s.selvTarget (2 + i) (bit (s.cfg oSelvedgeStatus) i)) u =
        l.foldl (fun (s : State) i => s.selvTarget (2 + i) (bit v i)) u := by
    intro l
    induction l with
    | nil => exact fun _ _ => rfl
    | cons i l ih =>
      intro u dict
      rw [List.foldl_cons, List.foldl_cons, same u dict]
      exact ih _ (State.selvTarget_dict.trans dict)
  unfold State.selvStatus
  rw [means _ _ rfl, selvTargets_get _ _ wf]
  refine ite_of_iff ⟨fun ⟨i, listed, at_⟩ => ?_, fun range => ⟨j - 2, List.mem_range.mpr (by omega), by omega⟩⟩
  have := List.mem_range.mp listed
  omega

/-! ### DISP_IMAGE and OUTAGE_MARK_CLEAR -/

/-- A write of DISP_IMAGE keeps the image, and with the option set asks for an update when it differs from the one shown. -/
theorem wImage_spec (v : Nat) : (s.wImage v).ans = { status := stOk } ∧ (s.wImage v).disp.image = v ∧
    (s.wImage v).disp.shown = s.disp.shown ∧
    ((bit (s.cfg oDispOptions) 0 = false ∨ v % 2 ^ 88 = s.disp.shown) →
      s.wImage v = (s.setDisp (fun d => { d with image := v })).answer stOk) ∧
    (bit (s.cfg oDispOptions) 0 = true → v % 2 ^ 88 ≠ s.disp.shown → s.disp.busy = true → (s.wImage v).disp.pendUpdate = true) := by
  have means : s.wImage v = if bit (s.cfg oDispOptions) 0 = true ∧ v % 2 ^ 88 ≠ s.disp.shown then
      ((s.setDisp (fun d => { d with image := v })).answer stOk).keepAns State.requestUpdate
      else (s.setDisp (fun d => { d with image := v })).answer stOk := rfl
  generalize written : (s.setDisp (fun d => { d with image := v })).answer stOk = u at means ⊢
  have disp : u.disp = { s.disp with image := v } := by
    rw [← written]
    rfl
  have ans : u.ans = { status := stOk } := by
    rw [← written]
    rfl
  rw [means]
  split
  next asks =>
    obtain ⟨image, shown⟩ := requestUpdate_images (s := u)
    rw [disp] at image shown
    refine ⟨ans, image, shown, fun quiet => ?_, fun _ _ busy => ?_⟩
    · rcases quiet with off | same
      · exact Bool.noConfusion (asks.1.symm.trans off)
      · exact absurd same asks.2
    · have waits : u.disp.busy = true := by
        rw [disp]
        exact busy
      exact congrArg (fun x : State => x.disp.pendUpdate) (requestUpdate_waits (.inl waits))
  next quiet =>
    exact ⟨ans, by rw [disp], by rw [disp], fun _ => rfl, fun on new _ => absurd ⟨on, new⟩ quiet⟩

theorem wOutage_refused (refused : s.pwr.onVbat = true ∨ s.outageMode ≠ 2) : s.wOutage v = s.answer stRange := if_pos refused

theorem wOutage_zero (on : s.pwr.onVbat = false) (two : s.outageMode = 2) : s.wOutage 0 = s.answer stOk :=
  (if_neg (by simp [on, two])).trans (if_pos rfl)

/-- In its mode the outage mark is cleared and SEG88 goes to white; no balance changes (R406). -/
theorem wOutage_clears (on : s.pwr.onVbat = false) (two : s.outageMode = 2) (one : v ≠ 0) :
    (s.wOutage v).ans = { status := stOk } ∧ (s.wOutage v).disp.outage = false ∧ (s.wOutage v).disp.balance = s.disp.balance ∧
    (KMap.wf s.disp.selv = true → (KMap.get (s.wOutage v).disp.selv 0).target = false) := by
  have means : s.wOutage v =
      ((s.setDisp (fun d => { d with outage := false })).setSelv 0 (fun x => { x with target := false })).answer stOk := by
    unfold State.wOutage
    rw [if_neg (by simp [on, two]), if_neg one, selvTarget_plain (by decide)]
  rw [means]
  refine ⟨rfl, rfl, rfl, fun wf => ?_⟩
  have read := setSelv_get (s := s.setDisp (fun d => { d with outage := false })) wf 0 0 (fun x => { x with target := false })
  exact congrArg Selv.target (read.trans (if_pos rfl))

end Sys2Proof.Machine

open Sys2Proof Sys2Proof.Machine

/-- Settles O39: each request comes to its own branch, which is read off the start of a work. -/
theorem displayRequests : Obligations.DisplayRequests := by
  unfold Obligations.DisplayRequests
  refine ⟨fun s r allowed => ?_, fun s r allowed => ?_, fun s r allowed => ?_, fun s r b allowed => ?_, fun s r b allowed => ?_,
    fun s r b alters wf => ?_⟩
  · have d := writeReq_delivers (F := fun s v => s.wDisp v) allowed (fun u v => State.wDisp_ports)
    rw [show ofLe [1] = 1 from rfl, wDisp_update] at d
    have disp : ((s.ownerWrote r.cls).answer stOk).disp = s.disp := State.ownerWrote_disp
    have evt : ((s.ownerWrote r.cls).answer stOk).evt = s.evt := State.ownerWrote_evt
    have table : ((s.ownerWrote r.cls).answer stOk).wf s.disp.band = s.wf s.disp.band := wf_congr (ownerWrote_cfg r.cls) _
    refine ⟨_, rfl, d.ans, fun waits => ?_, fun idle here clean usable down => ?_, fun idle here clean unusable => ?_,
      (d.keepAns_only (m := 2442133504) (State.requestUpdate_only (.refl _ _) rfl) rfl).changesOnly rfl⟩
    · rw [← disp] at waits ⊢
      unfold State.keepAns at d
      rw [requestUpdate_waits waits] at d
      exact d
    · rw [← disp] at idle here clean down
      rw [← table, ← disp] at usable
      have starts := (requestUpdate_starts idle here clean).trans (dispStart_pumps usable down)
      refine ⟨d.disp.trans ?_, d.pending.trans ?_⟩
      · rw [← table, ← disp]
        refine (congrArg State.disp starts).trans ?_
        simp [State.setDisp]
      · exact (congrArg (fun u : State => u.evt.pending) starts).trans (congrArg Evt.pending evt)
    · rw [← disp] at idle here clean
      rw [← table, ← disp] at unusable
      obtain ⟨d', read, invalid, st, waits, shown, pending⟩ := dispStart_unusable (w := .update) unusable
      rw [← requestUpdate_starts idle here clean] at read pending
      have after : (s.writeReq r 0xA000 3 [1] (fun s _ v => s.wDisp v)).disp = d' := d.disp.trans read
      rw [after, d.pending, ← disp]
      exact ⟨invalid, st, waits.trans (Bool.or_true _), shown, pending⟩
  · have d := writeReq_delivers (F := fun s v => s.wDisp v) allowed (fun u v => State.wDisp_ports)
    rw [show ofLe [2] = 2 from rfl, wDisp_clear] at d
    have disp : ((s.ownerWrote r.cls).answer stOk).disp = s.disp := State.ownerWrote_disp
    have table : ((s.ownerWrote r.cls).answer stOk).wf s.disp.band = s.wf s.disp.band := wf_congr (ownerWrote_cfg r.cls) _
    have ready : ((s.ownerWrote r.cls).answer stOk).clearable = s.clearable := clearable_congr State.ownerWrote_pwr disp
    refine ⟨_, rfl, d.ans, fun waits => ?_, fun idle here clearable usable down => ?_,
      (d.keepAns_only (m := 2442133504) (State.requestClear_only (.refl _ _) rfl) rfl).changesOnly rfl⟩
    · rw [← ready, ← disp] at waits
      rw [← disp]
      unfold State.keepAns at d
      rw [requestClear_waits waits] at d
      exact d
    · rw [← disp] at idle here down
      rw [← table, ← disp] at usable
      have starts := (requestClear_starts idle here (ready.trans clearable)).trans (dispStart_pumps usable down)
      have after : (s.writeReq r 0xA000 3 [2] (fun s _ v => s.wDisp v)).disp = _ := d.disp.trans (congrArg State.disp starts :)
      rw [after, ← disp]
      exact ⟨rfl, rfl, Bool.and_false _, Bool.and_false _, rfl⟩
  · have d := writeReq_delivers (F := fun s v => s.wDisp v) allowed (fun u v => State.wDisp_ports)
    rw [show ofLe [3] = 3 from rfl, wDisp_off] at d
    have disp : ((s.ownerWrote r.cls).answer stOk).disp = s.disp := State.ownerWrote_disp
    have above : ((s.ownerWrote r.cls).answer stOk).mainAbove (((s.ownerWrote r.cls).answer stOk).cfg oDcLimit / 2) =
        s.mainAbove (s.cfg oDcLimit / 2) := by
      rw [mainAbove_congr (congrArg Disp.balance disp)]
      exact congrArg (fun x => s.mainAbove (x / 2)) (ownerWrote_cfg r.cls _)
    refine ⟨_, rfl, d.ans, fun waits => ?_, fun idle here low => ?_,
      (d.keepAns_only (m := 2442133504) (State.requestOff_only (.refl _ _) rfl) rfl).changesOnly rfl⟩
    · rw [← disp] at waits ⊢
      unfold State.keepAns at d
      rw [requestOff_waits waits] at d
      exact d
    · rw [← disp] at idle here
      refine d.disp.trans ((congrArg State.disp (requestOff_discharges idle here (above.trans low))).trans ?_)
      rw [← disp]
      rfl
  · have d := writeReq_delivers (F := fun s v => s.wImage v) allowed (fun u v => State.wImage_ports)
    have disp : (s.ownerWrote r.cls).disp = s.disp := State.ownerWrote_disp
    have options : (s.ownerWrote r.cls).cfg oDispOptions = s.cfg oDispOptions := ownerWrote_cfg r.cls _
    obtain ⟨ans, image, shown, plain, waits⟩ := wImage_spec (s := s.ownerWrote r.cls) (ofLe b)
    rw [options, disp] at plain waits
    rw [disp] at shown
    refine ⟨_, rfl, d.ans.trans ans, ?_, ?_, fun quiet => ?_, fun own new busy => ?_,
      (d.requestOnly (m := 2442133504) (State.wImage_only (.refl _ _) rfl) rfl rfl).changesOnly rfl⟩
    · exact (congrArg Disp.image d.disp).trans image
    · exact (congrArg Disp.shown d.disp).trans shown
    · rw [plain quiet] at d
      unfold State.setDisp at d
      rw [disp] at d
      exact d
    · exact (congrArg Disp.pendUpdate d.disp).trans (waits own new busy)
  · have d := writeReq_delivers (F := fun s v => s.wOutage v) allowed (fun u v => State.wOutage_ports)
    have disp : (s.ownerWrote r.cls).disp = s.disp := State.ownerWrote_disp
    have pwr : (s.ownerWrote r.cls).pwr = s.pwr := State.ownerWrote_pwr
    have mode : (s.ownerWrote r.cls).outageMode = s.outageMode := congrArg (bits · 7 6) (ownerWrote_cfg r.cls _)
    refine ⟨_, rfl, fun refused => ?_, fun on two zero => ?_, fun on two one => ?_⟩
    · rw [← pwr, ← mode] at refused
      rw [wOutage_refused refused] at d
      exact d
    · rw [← pwr] at on
      rw [← mode] at two
      rw [zero, wOutage_zero on two] at d
      exact d
    · rw [← pwr] at on
      rw [← mode] at two
      obtain ⟨ans, outage, balance, target⟩ := wOutage_clears on two one
      rw [disp] at balance target
      refine ⟨d.ans.trans ans, (congrArg Disp.outage d.disp).trans outage, (congrArg Disp.balance d.disp).trans balance, fun wf => ?_,
        (d.requestOnly (m := 2442133504) (State.wOutage_only (.refl _ _) rfl) rfl rfl).changesOnly rfl⟩
      exact (congrArg (fun x : Disp => (KMap.get x.selv 0).target) d.disp).trans (target wf)
  · obtain ⟨w, activated, value, d, -⟩ := writeReq_alters (F := fun s c v => s.wSelvedge r.cls c v)
      (g := fun u => u.keepAns State.selvStatus) alters rfl (fun c => .inl rfl)
      (fun u => (keepAns_ports _).trans State.selvStatus_ports) (fun u => (keepAns_dict _).trans State.selvStatus_dict)
    have selv : w.disp.selv = s.disp.selv := congrArg Disp.selv ((activated.only.disp rfl).trans State.ownerWrote_disp)
    have cfg : (w.answer stOk).cfg oSelvedgeStatus = ofLe b := by
      refine Eq.trans ?_ value
      exact (cfg_congr (congrArg Dict.active (d.dict.trans ((keepAns_dict _).trans State.selvStatus_dict))) oSelvedgeStatus).symm
    have given := selvStatus_get (s := w.answer stOk) (by exact (congrArg KMap.wf selv).trans wf) cfg
    rw [show (w.answer stOk).disp.selv = s.disp.selv from selv] at given
    have after : (s.writeReq r 0xA000 0x1F b (fun s c v => s.wSelvedge r.cls c v)).disp.selv = (w.answer stOk).selvStatus.disp.selv :=
      congrArg Disp.selv (d.disp.trans (keepAns_disp _))
    refine ⟨_, rfl, value, d.ans.trans (keepAns_ans _), fun i small => ?_, fun i outside => ?_⟩
    · rw [after, given, if_pos (by omega), Nat.add_sub_cancel_left]
      exact ⟨rfl, rfl⟩
    · rw [after, given, if_neg (by omega)]

end

section
/-! PROOFS. What the display does as its frames pass (R392, R393, R398-R405, R407). -/
namespace Sys2Proof.Machine

variable {s t : State}

/-! ### The balances -/

/-- The frames of the main field change its balances and nothing else. -/
def BalancesOnly (s t : State) : Prop := ∃ m, t = s.setDisp (fun d => { d with balance := m })

theorem BalancesOnly.addBal (h : BalancesOnly s t) (i : Nat) (x : Int) : BalancesOnly s (t.addBal i x) := by
  obtain ⟨m, rfl⟩ := h
  exact ⟨_, rfl⟩

theorem balFrame_balances (s : State) (ms : Nat) : BalancesOnly s (s.balFrame ms) := by
  unfold State.balFrame
  refine foldl_keeps (fun u i h => ?_) _ ⟨s.disp.balance, rfl⟩
  split
  · exact h.addBal _ _
  · exact h

theorem waveFrame_balances (s : State) (ms : Nat) : BalancesOnly s (s.waveFrame ms) := by
  unfold State.waveFrame
  exact foldl_keeps (fun u i h => h.addBal _ _) _ ⟨s.disp.balance, rfl⟩

/-! ### The balancing frames of a start (R401) -/

/-- The balancing frames of the 88 main segments. -/
def State.needs (s : State) : KMap Nat := (List.range 88).foldl (fun m i => KMap.set m i (s.balFrames i)) []

/-- The most frames of any segment. -/
def most (need : KMap Nat) : Nat := need.foldl (fun a e => max a e.2) 0

theorem firstFrame_eq : s.firstFrame = s.setDisp (fun d => { d with
    balNeed := s.needs, balN := most s.needs, frame := 0, half := 0, frameAt := s.clock.clk
    st := if 0 < most s.needs then .balancing else d.after }) := rfl

theorem most_le_iff (need : KMap Nat) (n : Nat) : most need ≤ n ↔ ∀ e ∈ need, e.2 ≤ n := by
  have from_ : ∀ a, need.foldl (fun a e => max a e.2) a ≤ n ↔ a ≤ n ∧ ∀ e ∈ need, e.2 ≤ n := by
    induction need with
    | nil => simp
    | cons e l ih => intro a; simp [ih, Nat.max_le, and_assoc]
  exact (from_ 0).trans (and_iff_right n.zero_le)

theorem set_mem {m : KMap Nat} {k v : Nat} {e : Nat × Nat} (listed : e ∈ KMap.set m k v) : e ∈ m ∨ e = (k, v) := by
  induction m with
  | nil =>
    rw [KMap.set] at listed
    split at listed
    · exact .inl listed
    · exact .inr (List.mem_singleton.mp listed)
  | cons x l ih =>
    obtain ⟨a, w⟩ := x
    rw [KMap.set] at listed
    split at listed
    · split at listed
      · exact .inl (.tail _ listed)
      · exact (List.mem_cons.mp listed).symm.imp_left (.tail _)
    · split at listed
      · split at listed
        · exact .inl listed
        · exact (List.mem_cons.mp listed).symm
      · rcases List.mem_cons.mp listed with rfl | listed
        · exact .inl List.mem_cons_self
        · exact (ih listed).imp_left (.tail _)

theorem balFrames_low {i : Nat} (low : (KMap.get s.disp.balance i).natAbs ≤ s.cfg oDcLimit) : s.balFrames i = 0 :=
  if_neg (Nat.not_lt.mpr low)

theorem balFrames_le (i : Nat) : s.balFrames i ≤ s.cfg oBalMaxFrames := by
  unfold State.balFrames
  dsimp only
  split
  · exact Nat.min_le_right _ _
  · exact Nat.zero_le _

theorem balFrames_high {i : Nat} (pulse : 0 < s.cfg oBalPulseMs) (most : 0 < s.cfg oBalMaxFrames)
    (high : s.cfg oDcLimit < (KMap.get s.disp.balance i).natAbs) : 0 < s.balFrames i := by
  have means : s.balFrames i =
      min (((KMap.get s.disp.balance i).natAbs + s.cfg oBalPulseMs - 1) / s.cfg oBalPulseMs) (s.cfg oBalMaxFrames) := if_pos high
  rw [means]
  exact Nat.lt_min.mpr ⟨Nat.div_pos (by omega) pulse, most⟩

/-- With no segment above the limit no segment needs a frame. -/
theorem needs_low (low : ∀ i, i < 88 → (KMap.get s.disp.balance i).natAbs ≤ s.cfg oDcLimit) : s.needs = [] := by
  have none_ : ∀ l : List Nat, (∀ i ∈ l, s.balFrames i = 0) →
      l.foldl (fun (m : KMap Nat) i => KMap.set m i (s.balFrames i)) [] = [] := by
    intro l
    induction l with
    | nil => exact fun _ => rfl
    | cons i l ih =>
      intro none_
      rw [List.foldl_cons, none_ i List.mem_cons_self]
      exact ih (fun j listed => none_ j (.tail _ listed))
  exact none_ _ (fun i listed => balFrames_low (low i (List.mem_range.mp listed)))

theorem most_needs_le : most s.needs ≤ s.cfg oBalMaxFrames := by
  have bounded : ∀ (l : List Nat) (m : KMap Nat), (∀ e ∈ m, e.2 ≤ s.cfg oBalMaxFrames) →
      ∀ e ∈ l.foldl (fun (m : KMap Nat) i => KMap.set m i (s.balFrames i)) m, e.2 ≤ s.cfg oBalMaxFrames := by
    intro l
    induction l with
    | nil => exact fun _ => id
    | cons i l ih =>
      intro m bound
      refine ih _ (fun e listed => ?_)
      rcases set_mem listed with old | rfl
      · exact bound e old
      · exact balFrames_le i
  exact (most_le_iff _ _).mpr (bounded _ _ (fun _ listed => absurd listed List.not_mem_nil))

/-- A segment above the limit needs at least one frame. -/
theorem most_needs_pos (pulse : 0 < s.cfg oBalPulseMs) (frames : 0 < s.cfg oBalMaxFrames) {i : Nat} (main : i < 88)
    (high : s.cfg oDcLimit < (KMap.get s.disp.balance i).natAbs) : 0 < most s.needs := by
  have reads : KMap.get s.needs i = s.balFrames i :=
    (get_foldl_set_of Function.injective_id s.balFrames (List.range 88) rfl i).trans (if_pos (List.mem_range.mpr main))
  have needed := balFrames_high pulse frames high
  have listed : (i, KMap.get s.needs i) ∈ s.needs := mem_of_get rfl (by rw [reads]; exact Nat.ne_of_gt needed)
  refine Nat.not_le.mp (fun none_ => ?_)
  have := (most_le_iff _ _).mp none_ _ listed
  omega

/-! ### Frame ends -/

theorem ev55_raised (s : State) (r : Nat) : Raised 55 s (s.ev55 r) := raise_raised _ _ _

/-- Where no object waits, a frame's end makes none active. -/
theorem frameShadows_nil (none_ : s.dict.shadow = []) : s.frameShadows = s := by
  unfold State.frameShadows State.waiting
  rw [none_]
  rfl

theorem nextBal_spec : ∃ m, s.nextBal = s.setDisp (fun d => { d with
    balance := m, frames := d.frames + 1, frameAt := s.clock.clk
    frame := if d.frame + 1 < d.balN then d.frame + 1 else 0, st := if d.frame + 1 < d.balN then .balancing else d.after }) := by
  unfold State.nextBal
  obtain ⟨m, balances⟩ := balFrame_balances s 20
  rw [balances]
  exact ⟨m, rfl⟩

/-- Work other than clearing goes on frame by frame through the phases of its table. -/
theorem nextWave_goes_on (more : s.disp.frame + 1 < phases s.disp.table) : ∃ m, s.nextWave = s.setDisp (fun d => { d with
    balance := m, frames := d.frames + 1, frameAt := s.clock.clk, frame := d.frame + 1 }) := by
  unfold State.nextWave
  obtain ⟨m, balances⟩ := waveFrame_balances s 20
  rw [balances]
  extract_lets u halves endSeq next
  have on : endSeq = false := decide_eq_false (Nat.not_le.mpr more)
  refine ⟨m, (if_neg (by simp [on])).trans ?_⟩
  unfold next
  rw [on]
  rfl

/-- An update ends with its one pass through the phases. -/
theorem nextWave_ends (last : phases s.disp.table ≤ s.disp.frame + 1) (work : s.disp.work = .update) :
    ∃ m, s.nextWave = (s.setDisp (fun d => { d with
      balance := m, frames := d.frames + 1, frameAt := s.clock.clk, frame := 0, half := d.half + 1 })).dispFinish := by
  unfold State.nextWave
  obtain ⟨m, balances⟩ := waveFrame_balances s 20
  rw [balances]
  extract_lets u halves endSeq next
  have ends : endSeq = true := decide_eq_true last
  have one : halves = 1 := if_neg (by rw [show u.disp.work = .update from work]; decide)
  have after : next = s.setDisp (fun d => { d with
      balance := m, frames := d.frames + 1, frameAt := s.clock.clk, frame := 0, half := d.half + 1 }) := by
    unfold next
    rw [ends]
    rfl
  refine ⟨m, (if_pos ⟨ends, ?_⟩).trans (congrArg State.dispFinish after)⟩
  rw [one, after]
  exact Nat.le_add_left 1 s.disp.half

theorem dispNext_idle (off : s.disp.pendOff = false) (clear : s.disp.pendClear = false) (update : s.disp.pendUpdate = false) :
    s.dispNext = s := by
  unfold State.dispNext
  rw [off, clear, update]
  simp

/-- The end of an update with nothing waiting after it shows the copied image and raises EV55. -/
theorem dispFinish_update (work : s.disp.work = .update) (running : s.disp.offStep ≠ 1) (off : s.disp.pendOff = false)
    (clear : s.disp.pendClear = false) (update : s.disp.pendUpdate = false) :
    ∃ p, s.dispFinish = ((s.setDisp (fun d => { d with
      shown := d.copy % 2 ^ 88, updates := (d.updates + 1) % 2 ^ 32, st := .hold, work := .none })).ev55 0).setDisp
        (fun d => { d with pendBal := p }) := by
  have means : s.dispFinish = if s.disp.offStep = 1 then _ else _ := rfl
  rw [means, if_neg running, work]
  dsimp only
  generalize done : (State.ev55 (State.setDisp s _) 0) = u
  have disp : u.disp = { s.disp with
      shown := s.disp.copy % 2 ^ 88, updates := (s.disp.updates + 1) % 2 ^ 32, st := .hold, work := .none } := by
    rw [← done]
    exact State.raise_disp
  split
  · exact ⟨true, dispNext_idle ((congrArg Disp.pendOff disp).trans off) ((congrArg Disp.pendClear disp).trans clear)
      ((congrArg Disp.pendUpdate disp).trans update)⟩
  · exact ⟨u.disp.pendBal, dispNext_idle ((congrArg Disp.pendOff disp).trans off) ((congrArg Disp.pendClear disp).trans clear)
      ((congrArg Disp.pendUpdate disp).trans update)⟩

theorem displayFrameEnd_idle (other : s.disp.st ≠ .balancing ∧ s.disp.st ≠ .waveform ∧ s.disp.st ≠ .clearing) :
    execDisplayFrameEnd s = .next s := by
  obtain ⟨balancing, waveform, clearing⟩ := other
  unfold execDisplayFrameEnd
  split
  next h => exact absurd h balancing
  next h => exact absurd h waveform
  next h => exact absurd h clearing
  next => rfl

theorem displayFrameEnd_balancing (st : s.disp.st = .balancing) : execDisplayFrameEnd s = .next s.nextBal.frameShadows := by
  unfold execDisplayFrameEnd
  rw [st]

/-- Where no object waits, what the frames leave is what a balancing frame's end does. -/
theorem displayFrameEnd_balanced (st : s.disp.st = .balancing) (quiet : s.dict.shadow = []) (next : s.nextBal = t) (dict : t.dict = s.dict) :
    execDisplayFrameEnd s = .next t := by
  rw [displayFrameEnd_balancing st, next, frameShadows_nil (by rw [dict]; exact quiet)]

theorem displayFrameEnd_waveform (st : s.disp.st = .waveform) : execDisplayFrameEnd s = .next s.nextWave.frameShadows := by
  unfold execDisplayFrameEnd
  rw [st]

/-- Where no object waits, what the frames leave is what a waveform frame's end does. -/
theorem displayFrameEnd_waved (st : s.disp.st = .waveform) (quiet : s.dict.shadow = []) (next : s.nextWave = t) :
    execDisplayFrameEnd s = .next t := by
  have same : t.dict = s.dict := next ▸ (State.nextWave_only (.refl 276824064 s) rfl).dict rfl
  rw [displayFrameEnd_waveform st, next, frameShadows_nil (by rw [same]; exact quiet)]

/-! ### The selvedge -/

theorem selvStart_starts {i : Nat} {old new : Bool} (usable : phases (s.wf s.disp.band) ≠ 0) :
    s.selvStart i old new = s.setSelv i (fun v => { v with
      run := some (old, new), table := s.wf s.disp.band, frame := 0, frameAt := s.clock.clk, bal := s.balFrames (88 + i) }) :=
  if_neg usable

theorem selvAdd_wave {i ms : Nat} {old new : Bool} {v : Selv} (is : v = KMap.get s.disp.selv i) (balanced : v.bal = 0) :
    s.selvAdd i ms old new = s.addBal (88 + i) (level v.table v.frame old new * ms) := by
  subst is
  exact if_neg (by omega)

/-- A segment without balancing frames left takes the next phase of its table. -/
theorem selvFrame_goes_on {i : Nat} {old new : Bool} {v : Selv} (is : v = KMap.get s.disp.selv i) (balanced : v.bal = 0)
    (more : v.frame + 1 < phases v.table) : s.selvFrame i old new =
      (s.addBal (88 + i) (level v.table v.frame old new * 20)).setSelv i
        (fun v => { v with frame := v.frame + 1, frameAt := s.clock.clk }) := by
  unfold State.selvFrame
  rw [selvAdd_wave is balanced, ← is, if_neg (by omega), if_pos more]
  rfl

/-- After its last phase a segment shows its new colour; at its target it rests. -/
theorem selvFrame_ends {i : Nat} {old new : Bool} {v : Selv} (is : v = KMap.get s.disp.selv i) (balanced : v.bal = 0)
    (last : phases v.table ≤ v.frame + 1) (clear : v.clear ≤ 1) (target : v.target = new) (wf : KMap.wf s.disp.selv = true) :
    KMap.get (s.selvFrame i old new).disp.selv i = { v with run := none, shown := new, frame := 0, clear := 0 } := by
  unfold State.selvFrame
  rw [selvAdd_wave is balanced, ← is, if_neg (by omega), if_neg (Nat.not_lt.mpr last)]
  extract_lets rested segment
  have reads : segment = { v with run := none, shown := new, frame := 0, clear := 0 } := by
    refine (setSelv_get (s := s.addBal (88 + i) (level v.table v.frame old new * 20)) wf i i _).trans ((if_pos rfl).trans ?_)
    rw [show KMap.get (s.addBal _ _).disp.selv i = v from is.symm, show v.clear - 1 = 0 by omega]
  have same : KMap.get rested.disp.selv i = segment := rfl
  clear_value rested segment
  rw [reads, if_neg (Nat.lt_irrefl 0), if_neg (fun moves => moves target), same, reads]

end Sys2Proof.Machine

open Sys2Proof Sys2Proof.Machine

/-- Settles O40: each event by the branch it comes to; the frames of the main field change only its balances. -/
theorem displayFrames : Obligations.DisplayFrames := by
  unfold Obligations.DisplayFrames
  refine ⟨fun s st => ⟨congrArg Host.Outcome.next (if_neg st), congrArg Host.Outcome.next (if_neg st)⟩, fun s st => ?_,
    fun s other => displayFrameEnd_idle other, fun s st quiet => ?_, fun s st quiet work => ⟨fun more => ?_, fun last on off clear update => ?_⟩,
    fun s st => congrArg Host.Outcome.next (if_neg st), fun s st => congrArg Host.Outcome.next (if_pos st), fun s waits => ?_,
    fun s waits => ?_, fun s idle usable down => ⟨fun due clean => ?_, fun due able => ?_⟩,
    fun s other => congrArg Host.Outcome.next (if_neg (fun h => other.elim (· h.1) (· h.2))),
    fun s st step => congrArg Host.Outcome.next (if_pos ⟨st, step⟩), fun s i v is => ?_⟩
  · have good : execPumpGood s = .next (s.firstFrame.setDisp (fun d => { d with pumpFail := false })) :=
      congrArg Host.Outcome.next (if_pos st)
    rw [firstFrame_eq] at good
    refine ⟨fun low => ?_, fun pulse frames high => ?_, ?_⟩
    · rw [needs_low low] at good
      exact good
    · obtain ⟨i, main, high⟩ := high
      have some_ := most_needs_pos pulse frames main high
      have bounded := most_needs_le (s := s)
      generalize s.needs = need at good some_ bounded
      generalize most need = n at good some_ bounded
      exact ⟨_, good, if_pos some_, some_, bounded, rfl, execPumpGood_only.changesOnly good rfl⟩
    · have fail : execPumpFail s = .next _ := congrArg Host.Outcome.next (if_pos st)
      exact ⟨_, fail, (ev55_raised _ 4).of_same rfl rfl, State.raise_disp, execPumpFail_only.changesOnly fail rfl⟩
  · obtain ⟨m, next⟩ := nextBal_spec (s := s)
    refine ⟨_, displayFrameEnd_balanced st quiet next rfl, rfl, rfl, rfl, rfl, rfl, ?_⟩
    exact (State.setDisp_only (.refl 268435456 s) rfl).changesOnly rfl
  · obtain ⟨m, next⟩ := nextWave_goes_on more
    exact ⟨_, displayFrameEnd_waved st quiet next, rfl, st, rfl, rfl, (State.setDisp_only (.refl 268435456 s) rfl).changesOnly rfl⟩
  · obtain ⟨m, next⟩ := nextWave_ends last work
    obtain ⟨p, finish⟩ := dispFinish_update (s := s.setDisp (fun d => { d with
      balance := m, frames := d.frames + 1, frameAt := s.clock.clk, frame := 0, half := d.half + 1 })) work on off clear update
    have ends := next.trans finish
    have only := State.nextWave_only (.refl 276824064 s) rfl
    rw [ends] at only
    refine ⟨_, displayFrameEnd_waved st quiet ends, ?_, ?_, ?_, ?_, ((ev55_raised _ 0).congr rfl rfl).of_same rfl rfl, only.changesOnly rfl⟩
    · exact congrArg Disp.shown State.raise_disp
    · exact congrArg Disp.updates State.raise_disp
    · exact congrArg Disp.st State.raise_disp
    · exact congrArg Disp.work State.raise_disp
  · refine congrArg Host.Outcome.next (if_neg (fun ⟨due, idle, clean⟩ => ?_))
    simp [due, idle, clean] at waits
  · refine congrArg Host.Outcome.next (if_neg (fun ⟨due, able, idle⟩ => ?_))
    simp only [able, idle] at waits
    simp at waits
    simp [waits] at due
  · have answer : execBalDelayExpiry s = .next (s.dispStart .balance) := congrArg Host.Outcome.next (if_pos ⟨due, idle, clean⟩)
    rw [dispStart_pumps usable down] at answer
    exact ⟨_, answer, rfl, rfl, rfl, rfl, (State.setDisp_only (.refl 268435456 s) rfl).changesOnly rfl⟩
  · have answer : execClearingStart s = .next (s.dispStart .clear) := congrArg Host.Outcome.next (if_pos ⟨due, able, idle⟩)
    rw [dispStart_pumps usable down] at answer
    exact ⟨_, answer, rfl, rfl, Bool.and_false _, Bool.and_false _, (State.setDisp_only (.refl 268435456 s) rfl).changesOnly rfl⟩
  · have transition : execSelvedgeTransition i s = .next (if v.run.isNone = true ∧ 0 < v.clear then s.selvStart i v.shown (!v.shown)
        else if v.run.isNone = true ∧ v.target ≠ v.shown then s.selvStart i v.shown v.target else s) := by
      rw [is]
      rfl
    have frame : ∀ old new, v.run = some (old, new) → execSelvedgeFrameEnd i s = .next (s.selvFrame i old new) := by
      intro old new run
      unfold execSelvedgeFrameEnd
      rw [← is, run]
    refine ⟨fun rests => transition.trans ?_, fun still plain moves usable => transition.trans ?_, fun still => ?_,
      fun old new run balanced more => ⟨_, frame old new run, ?_, ?_⟩,
      fun old new run balanced last clear target wf => ⟨_, frame old new run, selvFrame_ends is balanced last clear target wf, ?_⟩⟩
    · rcases rests with run | ⟨plain, there⟩
      · rw [if_neg (fun h => by simp [Option.isSome_iff_ne_none.mp run] at h), if_neg (fun h => by simp [Option.isSome_iff_ne_none.mp run] at h)]
      · rw [if_neg (by omega), if_neg (fun h => h.2 there)]
    · rw [if_neg (by omega), if_pos ⟨by rw [still]; rfl, moves⟩, selvStart_starts usable, is]
      rfl
    · change execSelvedgeFrameEnd i s = .next s
      unfold execSelvedgeFrameEnd
      rw [← is, still]
    · rw [selvFrame_goes_on is balanced more, is]
      rfl
    · exact (State.selvFrame_only (.refl 268435456 s) rfl).changesOnly rfl
    · exact (State.selvFrame_only (.refl 268435456 s) rfl).changesOnly rfl

end

section
/-! PROOFS. The commands of an update, each in the states that permit it (R455-R457, R461, R462, R464). -/
namespace Sys2Proof.Machine

variable {s t u p : State} {r : Req} {b : Bytes}

@[simp] theorem State.wChunk_ports {s : State} {a1 : _} : (s.wChunk a1).ports = s.ports :=
  (State.wChunk_only (.refl 2686451712 s) rfl).ports rfl
@[simp] theorem State.wConfirm_ports {s : State} {a1 : _} : (s.wConfirm a1).ports = s.ports :=
  (State.wConfirm_only (.refl 2694840321 s) rfl).ports rfl
@[simp] theorem State.trialFails_ports {s : State} {a1 : _} : (s.trialFails a1).ports = s.ports :=
  (State.trialFails_only (.refl 1622147641 s) rfl).ports rfl
@[simp] theorem State.confirmCheck_ports {s : State} : (s.confirmCheck).ports = s.ports :=
  (State.confirmCheck_only (.refl 547356673 s) rfl).ports rfl
@[simp] theorem State.storeTry_upd {s : State} {c : Bool} {key v n : Nat} : (s.storeTry c key v n).upd = s.upd :=
  (State.storeTry_only (.refl 2097153 s) rfl).upd rfl
@[simp] theorem State.scStep_upd {s : State} {k : Nat} : (s.scStep k).upd = s.upd :=
  (State.scStep_only (.refl 2097152 s) rfl).upd rfl
@[simp] theorem State.scStep_clock {s : State} {k : Nat} : (s.scStep k).clock = s.clock :=
  (State.scStep_only (.refl 2097152 s) rfl).clock rfl
@[simp] theorem State.controlDown_upd {s : State} {a1 : _} : (s.controlDown a1).upd = s.upd :=
  (State.controlDown_only (.refl 1083179065 s) rfl).upd rfl
@[simp] theorem State.controlDown_nvm {s : State} {a1 : _} : (s.controlDown a1).nvm = s.nvm :=
  (State.controlDown_only (.refl 1083179065 s) rfl).nvm rfl
@[simp] theorem State.halfBack_nvm {s : State} {a1 : _} : (s.halfBack a1).nvm = s.nvm :=
  (State.halfBack_only (.refl 536871424 s) rfl).nvm rfl
@[simp] theorem State.raise_upd {s : State} {a1 : _} {a2 : _} : (s.raise a1 a2).upd = s.upd :=
  (State.raise_only (.refl 8388608 s) rfl).upd rfl
@[simp] theorem State.ownerWrote_accts {s : State} {a1 : _} : (s.ownerWrote a1).accts = s.accts :=
  (State.ownerWrote_only (.refl 1048576 s) rfl).accts rfl
@[simp] theorem State.trialFails_ans {s : State} {a1 : _} : (s.trialFails a1).ans = s.ans :=
  (State.trialFails_only (.refl 1622147641 s) rfl).ans rfl
@[simp] theorem State.confirmCheck_ans {s : State} : (s.confirmCheck).ans = s.ans :=
  (State.confirmCheck_only (.refl 547356673 s) rfl).ans rfl

/-! ### The NVM array -/

theorem nvmByte_congr (nvm : t.nvm = s.nvm) (x : Nat) : t.nvmByte x = s.nvmByte x := by
  unfold State.nvmByte
  rw [nvm]

theorem slotBase_page (k : Nat) : slotBase k % 256 = 0 := by
  unfold slotBase
  split <;> rfl

/-- The header page of the inactive slot reads as ones, every other byte as before (R455). -/
theorem headerOnes_bytes (wf : s.memWf = true) (x : Nat) :
    (slotBase s.freeSlot ≤ x → x < slotBase s.freeSlot + 256 → s.headerOnes.nvmByte x = 0xFF) ∧
    ((x < slotBase s.freeSlot ∨ slotBase s.freeSlot + 256 ≤ x) → s.headerOnes.nvmByte x = s.nvmByte x) := by
  unfold State.headerOnes
  have page := slotBase_page s.freeSlot
  generalize slotBase s.freeSlot = a at page ⊢
  refine ⟨fun from_ below => ?_, fun outside => ?_⟩
  · obtain ⟨i, rfl⟩ := Nat.exists_eq_add_of_le from_
    have ones : i < (List.replicate 256 (0xFF : Byte)).length := by rw [List.length_replicate]; omega
    rw [nvmByte_nvmWrite_in wf a _ ones, List.getD_eq_getElem?_getD, List.getElem?_eq_getElem ones, Option.getD_some, List.getElem_replicate]
  · refine nvmByte_nvmWrite_out wf ?_ fun _ => ?_
    · rw [List.length_replicate]
      exact outside
    · rw [List.length_replicate]
      omega

/-- The bytes of a chunk are in the slot, and its pages are marked (R455). -/
theorem wChunk_taken {a : Nat} (receiving : s.upd.st = .receiving) (page : fld b 0 4 % 256 = 0)
    (fits : fld b 0 4 + (b.drop 4).length ≤ 786432) (is : a = slotBase s.freeSlot + fld b 0 4) :
    s.wChunk b = ((s.nvmWrite a (b.drop 4)).setUpd (fun x => { x with
      pages := (rangeFrom (fld b 0 4 / 256) (((b.drop 4).length + 255) / 256)).foldl
        (fun (m : KMap Bool) p => KMap.set m p true) x.pages })).answer stOk := by
  subst is
  unfold State.wChunk
  exact if_neg (by rw [receiving]; simp only [ne_eq, not_true_eq_false, false_or]; omega)

theorem wChunk_refused (refused : s.upd.st ≠ .receiving ∨ fld b 0 4 % 256 ≠ 0 ∨ 786432 < fld b 0 4 + (b.drop 4).length) :
    s.wChunk b = s.answer stRange := if_pos refused

/-! ### UPD_COMMAND -/

theorem wUpd_begin (idle : s.upd.st = .idle ∨ s.upd.st = .staged ∨ s.upd.st = .rejected ∨ s.upd.st = .fallenBack) :
    s.wUpd 1 = ((s.headerOnes).setUpd (fun u => { u with st := .receiving, pages := [], reject := 0 })).answer stOk := by
  rcases idle with st | st | st | st <;> simp [State.wUpd, State.updBegin, st]

theorem wUpd_begin_busy (busy : s.upd.st = .activating ∨ s.upd.st = .trial) : s.wUpd 1 = s.answerRetry stBusy s.healthLeft := by
  rcases busy with st | st <;> simp [State.wUpd, State.updBegin, st]

theorem wUpd_begin_refused (other : s.upd.st = .receiving ∨ s.upd.st = .verifying ∨ s.upd.st = .armed) :
    s.wUpd 1 = s.answer stRange := by
  rcases other with st | st | st <;> simp [State.wUpd, State.updBegin, st]

/-- A value that only moves the update unit from one state to another (R456, R457, R464). -/
structure Moves (s : State) (n : Nat) (old new : UpdSt) (re : Bool) : Prop where
  taken : s.upd.st = old → s.wUpd n = (s.setUpd (fun u => { u with st := new, rearm := re })).answer stOk
  refused : s.upd.st ≠ old → s.wUpd n = s.answer stRange

theorem wUpd_verify : Moves s 2 .receiving .verifying false := ⟨fun st => by simp [State.wUpd, st], fun st => by simp [State.wUpd, st]⟩

theorem wUpd_rearm : Moves s 7 .fallenBack .verifying true := ⟨fun st => by simp [State.wUpd, st], fun st => by simp [State.wUpd, st]⟩

theorem wUpd_disarm : Moves s 5 .armed .staged s.upd.rearm :=
  ⟨fun st => by simp [State.wUpd, st, State.setUpd], fun st => by simp [State.wUpd, st]⟩

theorem wUpd_arm (ahead : s.now + 2048 ≤ s.cfg oUpdActivateAt) : Moves s 3 .staged .armed s.upd.rearm :=
  ⟨fun st => by simp [State.wUpd, st, ahead, State.setUpd], fun st => by simp [State.wUpd, st]⟩

theorem wUpd_arm_late (late : s.cfg oUpdActivateAt < s.now + 2048) : s.wUpd 3 = s.answer stRange := by
  simp [State.wUpd, Nat.not_le.mpr late]

theorem wUpd_now (staged : s.upd.st = .staged) : s.wUpd 4 = s.updNow := by simp [State.wUpd, staged]

theorem wUpd_now_refused (other : s.upd.st ≠ .staged) : s.wUpd 4 = s.answer stRange := by simp [State.wUpd, other]

theorem wUpd_abort (running : s.upd.st = .receiving ∨ s.upd.st = .staged ∨ s.upd.st = .armed) :
    s.wUpd 6 = ((s.headerOnes).setUpd (fun u => { u with st := .idle })).answer stOk := by
  rcases running with st | st | st <;> simp [State.wUpd, st]

theorem wUpd_abort_refused (other : s.upd.st ≠ .receiving ∧ s.upd.st ≠ .staged ∧ s.upd.st ≠ .armed) : s.wUpd 6 = s.answer stRange := by
  obtain ⟨receiving, staged, armed⟩ := other
  simp [State.wUpd, receiving, staged, armed]

theorem keepAns_isl (f : State → State) : (s.keepAns f).isl = (f s).isl := rfl

theorem keepAns_upd (f : State → State) : (s.keepAns f).upd = (f s).upd := rfl

theorem keepAns_pending (f : State → State) : (s.keepAns f).evt.pending = (f s).evt.pending := rfl

theorem keepAns_congr {f g : State → State} (h : f s = g s) : s.keepAns f = s.keepAns g := by
  unfold State.keepAns
  rw [h]

theorem wUpd_fallback (trial : s.upd.st = .trial) : s.wUpd 8 = (s.answer stOk).keepAns (fun s => s.fallbackStart 7) := by
  have command : s.wUpd 8 = (s.answer stOk).keepAns (fun s => s.trialFails 7) := by simp [State.wUpd, trial]
  exact command.trans (keepAns_congr (if_pos trial))

theorem wUpd_fallback_refused (other : s.upd.st ≠ .trial) : s.wUpd 8 = s.answer stRange := by simp [State.wUpd, other]

theorem ownerWrote_freeSlot (q : Cls) : (s.ownerWrote q).freeSlot = s.freeSlot :=
  congrArg (fun x : Upd => 1 - x.boot.run) State.ownerWrote_upd

theorem ownerWrote_now (q : Cls) : (s.ownerWrote q).now = s.now := now_congr State.ownerWrote_clock

theorem ownerWrote_memWf (q : Cls) (wf : s.memWf = true) : (s.ownerWrote q).memWf = true :=
  (State.ownerWrote_only (.refl 1048576 s) rfl).memWf wf

/-- A command that only moves the unit, through its request. -/
theorem Moves.delivered {n : Nat} {old new : UpdSt} {re : Bool} (moves : Moves (s.ownerWrote r.cls) n old new re)
    (allowed : s.allows r 0xD000 2 b = true) (value : ofLe b = n) :
    (s.upd.st = old → Delivered (({ s.ownerWrote r.cls with upd := { s.upd with st := new, rearm := re } }).answer stOk)
      (s.writeReq r 0xD000 2 b (fun s _ v => s.wUpd v))) ∧
    (s.upd.st ≠ old → Delivered ((s.ownerWrote r.cls).answer stRange) (s.writeReq r 0xD000 2 b (fun s _ v => s.wUpd v))) := by
  have d := wUpd_delivered allowed
  have unit := ownerWrote_upd s r.cls
  obtain ⟨taken, refused⟩ := moves
  rw [unit] at taken refused
  rw [value] at d
  refine ⟨fun st => ?_, fun st => refused st ▸ d⟩
  rw [taken st, State.setUpd, unit] at d
  exact d

/-- A command refused in the states that do not permit it. -/
theorem refused_delivered {n : Nat} (allowed : s.allows r 0xD000 2 b = true) (value : ofLe b = n)
    (refused : (s.ownerWrote r.cls).wUpd n = (s.ownerWrote r.cls).answer stRange) :
    Delivered ((s.ownerWrote r.cls).answer stRange) (s.writeReq r 0xD000 2 b (fun s _ v => s.wUpd v)) := by
  have d := wUpd_delivered allowed
  rwa [value, refused] at d

/-! ### ACTIVATE_NOW -/

theorem storePut_upd {cal : Bool} {k v n : Nat} (put : s.storePut cal k v n = some p) : p.upd = s.upd :=
  (State.storePut_only (.refl 2097153 s) rfl put).upd rfl

/-- ACTIVATE_NOW keeps the first tick 2 s ahead and arms the image (R457). -/
theorem updNow_arms (put : (s.storePut false oUpdActivateAt s.activateSoon 6).isSome = true) (wf : KMap.wf s.dict.active = true) :
    s.updNow.ans = { status := stOk } ∧ s.updNow.upd = { s.upd with st := .armed } ∧
      s.updNow.cfg oUpdActivateAt = s.activateSoon := by
  obtain ⟨p, put⟩ := Option.isSome_iff_exists.mp put
  have means : s.updNow = ((p.setCfg oUpdActivateAt s.activateSoon).setUpd (fun u => { u with st := .armed })).answer stOk := by
    unfold State.updNow
    dsimp only
    rw [put]
  rw [means]
  refine ⟨rfl, congrArg (fun x : Upd => { x with st := UpdSt.armed }) (storePut_upd put), ?_⟩
  exact cfg_setCfg_same (by rw [storePut_active put]; exact wf)

theorem activateSoon_ahead : s.now + 2048 ≤ s.activateSoon ∧ s.activateSoon % 1024 = 0 := by
  have tick : ∀ n : Nat, n + 2048 ≤ (n + 2048 + 1023) / 1024 * 1024 ∧ (n + 2048 + 1023) / 1024 * 1024 % 1024 = 0 := by omega
  exact tick s.now

/-! ### The boot record, the halves and a fallback (R462, R463) -/

theorem programBoot_upd (f : Boot → Boot) : (s.programBoot f).upd = { s.upd with boot := f s.upd.boot } := State.storeTry_upd

theorem storePut_sc {cal : Bool} {k v n : Nat} (put : s.storePut cal k v n = some p) : p.nvm.sc = s.nvm.sc := by
  unfold State.storePut at put
  dsimp only at put
  split at put
  · cases put
  · cases put
    cases cal <;> rfl

theorem storeTry_sc (cal : Bool) (k v n : Nat) : (s.storeTry cal k v n).nvm.sc = s.nvm.sc := by
  unfold State.storeTry
  cases put : s.storePut cal k v n with
  | some p => exact storePut_sc put
  | none => cases cal <;> rfl

theorem programBoot_sc (f : Boot → Boot) : (s.programBoot f).nvm.sc = s.nvm.sc := storeTry_sc _ _ _ _

/-- A software counter steps by one (R325). -/
theorem scStep_reads (k : Nat) : KMap.get (s.scStep k).nvm.sc k = KMap.get s.nvm.sc k + 1 := by
  have sc : (s.scStep k).nvm.sc = s.nvm.sc.set k (s.nvm.sc.get k + 1) := by
    unfold State.scStep
    extract_lets v p page programmed
    have same : programmed.nvm.sc = s.nvm.sc := by
      simp only [programmed]
      split
      · rfl
      · split <;> rfl
    exact congrArg (fun m : KMap Nat => KMap.set m k (v + 1)) same
  rw [sc]
  exact (KMap.get_set_of_ne (Nat.succ_ne_zero _) k).trans (if_pos rfl)

theorem bootBack_spec : s.bootBack.upd = { s.upd with boot := { s.upd.boot with
      run := 1 - s.upd.boot.run, state := 2, starts := 0, fallenVer := s.firmware } } ∧
    KMap.get s.bootBack.nvm.sc 6 = KMap.get s.nvm.sc 6 + 1 := by
  unfold State.bootBack
  refine ⟨State.scStep_upd.trans (programBoot_upd _), (scStep_reads 6).trans ?_⟩
  rw [programBoot_sc]

/-- Naming the half of a slot touches the pattern switch alone. -/
theorem halfBack_upd (slot : Nat) : ∃ h w x, (s.halfBack slot).upd = { s.upd with newHalf := h, tsw := w, switched := x } := by
  unfold State.halfBack
  split
  · exact ⟨_, _, _, rfl⟩
  next h _ =>
    refine ⟨h, some s.now, false, foldl_field State.upd (fun u g => ?_) _ _⟩
    rfl

theorem switchDone_upd : ∃ w x k, s.switchDone.upd = { s.upd with tsw := w, switched := x, boot := { s.upd.boot with pset := k } } := by
  unfold State.switchDone
  split
  · extract_lets slot marked programmed
    have upd := programBoot_upd (s := marked) (fun b => { b with pset := slot })
    split
    · exact ⟨_, _, _, State.raise_upd.trans upd⟩
    · exact ⟨_, _, _, upd⟩
  · exact ⟨_, _, _, rfl⟩

theorem switchDone_sc : s.switchDone.nvm.sc = s.nvm.sc := by
  unfold State.switchDone
  split
  · extract_lets slot marked programmed
    have sc : programmed.nvm.sc = s.nvm.sc := programBoot_sc (s := marked) _
    split
    · exact (congrArg Nvm.sc State.raise_nvm).trans sc
    · exact sc
  · rfl

/-- A fallback goes back to the other slot's image by a restart of the control island (R463). -/
theorem fallbackStart_spec (cause : Nat) : (s.fallbackStart cause).upd.st = .activating ∧ (s.fallbackStart cause).upd.fallback = cause ∧
    (s.fallbackStart cause).upd.backRestart = true ∧ (s.fallbackStart cause).upd.boot.run = 1 - s.upd.boot.run ∧
    (s.fallbackStart cause).upd.boot.state = 2 ∧ KMap.get (s.fallbackStart cause).nvm.sc 6 = KMap.get s.nvm.sc 6 + 1 ∧
    (s.fallbackStart cause).isl = { s.isl with control := some s.clock.clk, cause := 3 } ∧
    KMap.get (s.fallbackStart cause).evt.pending 58 = true := by
  unfold State.fallbackStart
  extract_lets decided back switched
  obtain ⟨unit, counter⟩ := bootBack_spec (s := decided)
  obtain ⟨h, w, x, half⟩ := halfBack_upd (s := back) back.runSlot
  obtain ⟨w', x', k, done⟩ := switchDone_upd (s := back.halfBack back.runSlot)
  rw [half, show back.upd = _ from unit] at done
  obtain ⟨isl, pending, -, -⟩ := controlDown_spec (s := switched) 3
  have upd : (switched.controlDown 3).upd = _ := State.controlDown_upd.trans done
  rw [upd]
  refine ⟨rfl, rfl, rfl, rfl, rfl, ?_, ?_, pending⟩
  · rw [State.controlDown_nvm, show switched.nvm.sc = back.nvm.sc from switchDone_sc.trans (congrArg Nvm.sc State.halfBack_nvm)]
    exact counter
  · have island : switched.isl = s.isl := State.switchDone_isl.trans (State.halfBack_isl.trans State.bootBack_isl)
    have clock : switched.clock = s.clock := State.switchDone_clock.trans (State.halfBack_clock.trans State.bootBack_clock)
    rw [isl, island, clock]

/-! ### UPD_CONFIRM (R461) -/

theorem wConfirm_refused {v : Nat} (other : s.upd.st ≠ .trial) : s.wConfirm v = s.answer stRange := if_pos other

theorem wConfirm_zero (trial : s.upd.st = .trial) : s.wConfirm 0 = s.answer stOk := (if_neg (not_not_intro trial)).trans (if_pos rfl)

theorem wConfirm_one {v : Nat} (trial : s.upd.st = .trial) (one : v ≠ 0) :
    s.wConfirm v = ((s.setUpd (fun u => { u with confirm := true })).answer stOk).keepAns State.confirmCheck :=
  (if_neg (not_not_intro trial)).trans (if_neg one)

/-- Before the groups have switched, no confirmation ends the trial. -/
theorem confirmCheck_waits (trial : s.upd.st = .trial) (before : s.upd.switched = false) : s.confirmCheck = s := by
  unfold State.confirmCheck
  rw [if_pos trial, before]
  simp [before]

/-- Once its three conditions hold the trial ends well. -/
theorem confirmCheck_ends (trial : s.upd.st = .trial) (confirmed : s.upd.confirm = true) (switched : s.upd.switched = true)
    (seen : s.upd.billSeen = true ∨ s.billsSeen = true) : s.confirmCheck.upd.st = .idle ∧ s.confirmCheck.upd.boot.state = 0 ∧
      s.confirmCheck.upd.boot.run = s.upd.boot.run ∧ KMap.get s.confirmCheck.evt.pending 60 = true := by
  unfold State.confirmCheck
  rw [if_pos trial]
  extract_lets judged programmed raised
  obtain ⟨held, took, billed, same⟩ : judged.upd.confirm = true ∧ judged.upd.switched = true ∧ judged.upd.billSeen = true ∧
      judged.upd.boot = s.upd.boot := by
    simp only [judged]
    split
    · exact ⟨confirmed, switched, rfl, rfl⟩
    next unseen => exact ⟨confirmed, switched, seen.resolve_right (fun now => unseen (by rw [switched, now]; rfl)), rfl⟩
  rw [if_pos (by rw [held, took, billed]; rfl)]
  have boot : raised.upd.boot = { s.upd.boot with state := 0, starts := 0 } :=
    congrArg Upd.boot (State.raise_upd.trans (programBoot_upd _)) |>.trans
      (congrArg (fun b : Boot => { b with state := 0, starts := 0 }) same)
  have pending : KMap.get raised.evt.pending 60 = true := (raise_raised _ 60 _).pending
  exact ⟨rfl, (congrArg Boot.state boot :), (congrArg Boot.run boot :), pending⟩

theorem wConfirm_waits {v : Nat} (trial : s.upd.st = .trial) (one : v ≠ 0) (before : s.upd.switched = false) :
    s.wConfirm v = (s.setUpd (fun u => { u with confirm := true })).answer stOk := by
  have waits := confirmCheck_waits (s := (s.setUpd (fun u => { u with confirm := true })).answer stOk) trial before
  exact (wConfirm_one trial one).trans (keepAns_congr (g := id) waits)

theorem billsSeen_congr (active : t.dict.active = s.dict.active) (accts : t.accts = s.accts) : t.billsSeen = s.billsSeen := by
  unfold State.billsSeen State.enabledAccts
  rw [active, accts]

end Sys2Proof.Machine

open Sys2Proof Sys2Proof.Machine

/-- Settles O41: each value of UPD_COMMAND by its branch, a chunk by the bytes and pages it writes, and a confirmation by the
three conditions that end a trial well. -/
theorem updateRequests : Obligations.UpdateRequests := by
  unfold Obligations.UpdateRequests
  refine ⟨fun s r allowed => ?_, fun s r b a allowed is => ?_, fun s r c n old new re which allowed => ?_, fun s r allowed late => ?_,
    fun s r allowed => ?_, fun s r allowed => ?_, fun s r allowed => ?_, fun s r b allowed => ?_⟩
  all_goals have unit := ownerWrote_upd s r.cls
  · have d := wUpd_delivered allowed
    rw [show ofLe [1] = 1 from rfl] at d
    refine ⟨_, rfl, fun idle => ?_, fun busy => ?_, fun other => ?_⟩
    · rw [← unit] at idle ⊢
      rw [wUpd_begin idle] at d
      refine ⟨d.ans, (d.only.upd rfl).trans ?_, fun wf x => ?_, ?_⟩
      · exact congrArg (fun x : Upd => { x with st := .receiving, pages := [], reject := 0 }) (headerOnes_upd _)
      · have read := nvmByte_congr (s := (s.ownerWrote r.cls).headerOnes) (d.only.nvm rfl) x
        have same := nvmByte_congr (State.ownerWrote_nvm (s := s) (a1 := r.cls)) x
        have bytes := headerOnes_bytes (ownerWrote_memWf r.cls wf) x
        rw [← read, same, ownerWrote_freeSlot] at bytes
        exact bytes
      · exact (d.requestOnly (m := 2712666112)
          (State.answer_only (State.setUpd_only (State.headerOnes_only (.refl _ _) rfl) rfl) rfl) rfl rfl).changesOnly rfl
    · rw [← unit] at busy
      rw [wUpd_begin_busy busy] at d
      have left : (s.ownerWrote r.cls).healthLeft = s.healthLeft := by
        unfold State.healthLeft
        rw [unit, ownerWrote_now]
      rwa [left] at d
    · rw [← unit] at other
      exact wUpd_begin_refused other ▸ d
  · have d := writeReq_delivers (F := fun s _ => s.wChunk b) allowed (fun u v => State.wChunk_ports)
    refine ⟨_, rfl, fun refused => ?_, fun receiving page fits => ?_⟩
    · rw [← unit] at refused
      exact wChunk_refused refused ▸ d
    · rw [← ownerWrote_freeSlot r.cls] at is
      rw [← unit] at receiving
      rw [wChunk_taken receiving page fits is] at d
      have own : ((s.ownerWrote r.cls).nvmWrite a (b.drop 4)).upd = s.upd :=
        ((State.nvmWrite_only (.refl 2097152 _) rfl).upd rfl).trans unit
      have upd := (d.only.upd rfl).trans (congrArg (fun x : Upd => { x with
        pages := (rangeFrom (fld b 0 4 / 256) (((b.drop 4).length + 255) / 256)).foldl
          (fun (m : KMap Bool) p => KMap.set m p true) x.pages }) own)
      refine ⟨d.ans, by rw [upd], fun p => ?_, fun wf => ?_, ?_⟩
      · rw [upd]
        refine (get_foldl_set (by decide) _ _ p).trans ?_
        have listed : p ∈ rangeFrom (fld b 0 4 / 256) (((b.drop 4).length + 255) / 256) ↔
            fld b 0 4 / 256 ≤ p ∧ 256 * p < fld b 0 4 + (b.drop 4).length := by
          rw [mem_rangeFrom]
          omega
        rw [← Bool.decide_and, ite_of_iff listed]
        split
        next inside => rw [decide_eq_true inside, Bool.or_true]
        next outside => rw [decide_eq_false outside, Bool.or_false]
      · have wf' := ownerWrote_memWf r.cls wf
        have nvm := d.only.nvm rfl
        have same := nvmByte_congr (State.ownerWrote_nvm (s := s) (a1 := r.cls))
        refine ⟨fun i inside => (nvmByte_congr nvm _).trans (nvmByte_nvmWrite_in wf' a _ inside), fun x outside => ?_⟩
        refine (nvmByte_congr nvm _).trans ((nvmByte_nvmWrite_out wf' (by omega) fun _ => ?_).trans (same x))
        have base := slotBase_page (s.ownerWrote r.cls).freeSlot
        omega
      · exact (d.requestOnly (m := 2712666112)
          (State.answer_only (State.setUpd_only (State.nvmWrite_only (.refl _ _) rfl) rfl) rfl) rfl rfl).changesOnly rfl
  · rcases which with ⟨rfl, rfl, rfl, rfl, rfl⟩ | ⟨rfl, rfl, rfl, rfl, rfl⟩ | ⟨rfl, rfl, rfl, rfl, rfl⟩ | ⟨rfl, rfl, rfl, rfl, rfl, ahead⟩
    · exact ⟨_, rfl, wUpd_verify.delivered allowed rfl⟩
    · exact ⟨_, rfl, wUpd_rearm.delivered allowed rfl⟩
    · exact ⟨_, rfl, (unit ▸ wUpd_disarm (s := s.ownerWrote r.cls)).delivered allowed rfl⟩
    · rw [← ownerWrote_now r.cls, ← ownerWrote_cfg r.cls] at ahead
      exact ⟨_, rfl, (unit ▸ wUpd_arm ahead).delivered allowed rfl⟩
  · rw [← ownerWrote_now r.cls, ← ownerWrote_cfg r.cls] at late
    exact ⟨_, rfl, refused_delivered allowed rfl (wUpd_arm_late late)⟩
  · refine ⟨_, rfl, fun other => ?_, fun staged put wf => ?_⟩
    · rw [← unit] at other
      exact refused_delivered allowed rfl (wUpd_now_refused other)
    · have d := wUpd_delivered allowed
      rw [← unit] at staged
      rw [show ofLe [4] = 4 from rfl, wUpd_now staged] at d
      have soon : (s.ownerWrote r.cls).activateSoon = s.activateSoon :=
        congrArg (fun n => (n + 2048 + 1023) / 1024 * 1024) (ownerWrote_now r.cls)
      have put' : ((s.ownerWrote r.cls).storePut false oUpdActivateAt (s.ownerWrote r.cls).activateSoon 6).isSome = true := by
        rw [soon, ownerWrote_storePut]
        exact put
      obtain ⟨ans, upd, value⟩ := updNow_arms put' (by rw [ownerWrote_dict]; exact wf)
      rw [unit] at upd
      rw [soon] at value
      refine ⟨d.ans.trans ans, (d.only.upd rfl).trans upd, ?_, activateSoon_ahead.1, activateSoon_ahead.2, ?_⟩
      · exact (cfg_congr (congrArg Dict.active d.dict) _).trans value
      · exact (d.requestOnly (m := 2712666113) (State.updNow_only (.refl _ _) rfl) rfl rfl).changesOnly rfl
  · refine ⟨_, rfl, fun running => ?_, fun other => ?_⟩
    · have d := wUpd_delivered allowed
      rw [← unit] at running ⊢
      rw [show ofLe [6] = 6 from rfl, wUpd_abort running] at d
      refine ⟨d.ans, (d.only.upd rfl).trans ?_, fun wf x from_ below => ?_, ?_⟩
      · exact congrArg (fun x : Upd => { x with st := .idle }) (headerOnes_upd _)
      · rw [← ownerWrote_freeSlot r.cls] at from_ below
        have read := nvmByte_congr (s := (s.ownerWrote r.cls).headerOnes) (d.only.nvm rfl) x
        exact read.trans ((headerOnes_bytes (ownerWrote_memWf r.cls wf) x).1 from_ below)
      · exact (d.requestOnly (m := 2712666112)
          (State.answer_only (State.setUpd_only (State.headerOnes_only (.refl _ _) rfl) rfl) rfl) rfl rfl).changesOnly rfl
    · rw [← unit] at other
      exact refused_delivered allowed rfl (wUpd_abort_refused other)
  · refine ⟨_, rfl, fun other => ?_, fun trial => ?_⟩
    · rw [← unit] at other
      exact refused_delivered allowed rfl (wUpd_fallback_refused other)
    · have d := wUpd_delivered allowed
      rw [← unit] at trial
      rw [show ofLe [8] = 8 from rfl, wUpd_fallback trial] at d
      obtain ⟨st, cause, back, run, -, -, isl, -⟩ := fallbackStart_spec (s := (s.ownerWrote r.cls).answer stOk) 7
      have upd := (d.only.upd rfl).trans (keepAns_upd _)
      have isl := ((d.only.isl rfl).trans (keepAns_isl _)).trans isl
      have clock := congrArg (fun c : Clock => some c.clk) (State.ownerWrote_clock (s := s) (a1 := r.cls))
      refine ⟨d.ans.trans (keepAns_ans _), ?_, ?_, ?_, ?_, (congrArg Isl.control isl).trans clock, congrArg Isl.cause isl⟩
      · exact (congrArg Upd.st upd).trans st
      · exact (congrArg Upd.fallback upd).trans cause
      · exact (congrArg Upd.backRestart upd).trans back
      · exact (congrArg (fun x : Upd => x.boot.run) upd).trans (run.trans (congrArg (fun x : Upd => 1 - x.boot.run) unit))
  · have d := writeReq_delivers (F := fun s v => s.wConfirm v) allowed (fun u v => State.wConfirm_ports)
    have trial' : s.upd.st = .trial → (s.ownerWrote r.cls).upd.st = .trial := fun trial => by rw [unit]; exact trial
    refine ⟨_, rfl, fun other => ?_, fun trial => ?_, fun trial zero => ?_, fun trial one before => ?_,
      fun trial one switched seen => ?_⟩
    · rw [← unit] at other
      exact wConfirm_refused other ▸ d
    · refine d.ans.trans ?_
      by_cases zero : ofLe b = 0
      · exact congrArg State.ans ((congrArg _ zero).trans (wConfirm_zero (trial' trial)))
      · exact congrArg State.ans (wConfirm_one (trial' trial) zero)
    · rw [zero, wConfirm_zero (trial' trial)] at d
      exact d
    · rw [wConfirm_waits (trial' trial) one (by rw [unit]; exact before), State.setUpd, unit] at d
      exact d
    · rw [wConfirm_one (trial' trial) one] at d
      have bills : (((s.ownerWrote r.cls).setUpd (fun u => { u with confirm := true })).answer stOk).billsSeen = s.billsSeen :=
        billsSeen_congr (congrArg Dict.active State.ownerWrote_dict) State.ownerWrote_accts
      have boot := (congrArg (fun x : Upd => x.boot.run) unit :)
      obtain ⟨st, state, run, pending⟩ := confirmCheck_ends
        (s := ((s.ownerWrote r.cls).setUpd (fun u => { u with confirm := true })).answer stOk) (trial' trial) rfl
        ((congrArg Upd.switched unit).trans switched)
        (by rw [bills]; exact seen.imp_left (fun h => (congrArg Upd.billSeen unit).trans h))
      have upd := (d.only.upd rfl).trans (keepAns_upd _)
      refine ⟨(congrArg Upd.st upd).trans st, (congrArg (fun x : Upd => x.boot.state) upd).trans state,
        (congrArg (fun x : Upd => x.boot.run) upd).trans (run.trans boot),
        (congrArg (KMap.get · 60) (d.pending.trans (keepAns_pending _))).trans pending⟩

end

section
/-! PROOFS. Verification, activation, pattern switch and the health deadline of an update (R456-R459, R462). -/
namespace Sys2Proof.Machine

variable {s t : State}

@[simp] theorem State.programBoot_isl {s : State} {a1 : _} : (s.programBoot a1).isl = s.isl :=
  (State.programBoot_only (.refl 538968065 s) rfl).isl rfl
@[simp] theorem State.programBoot_clock {s : State} {a1 : _} : (s.programBoot a1).clock = s.clock :=
  (State.programBoot_only (.refl 538968065 s) rfl).clock rfl
@[simp] theorem State.scStep_isl {s : State} {k : Nat} : (s.scStep k).isl = s.isl :=
  (State.scStep_only (.refl 2097152 s) rfl).isl rfl
@[simp] theorem State.after_groups {s : State} : (s.after).groups = s.groups :=
  (State.after_only (.refl 955253763 s) rfl).groups rfl
@[simp] theorem State.nextEpoch_groups {s : State} {a1 : _} : (s.nextEpoch a1).groups = s.groups :=
  (State.nextEpoch_only (.refl 1025 s) rfl).groups rfl
@[simp] theorem State.markLost_groups {s : State} {a1 : _} : (s.markLost a1).groups = s.groups :=
  (State.markLost_only (.refl 1024 s) rfl).groups rfl
@[simp] theorem State.switchDone_groups {s : State} : (s.switchDone).groups = s.groups :=
  (State.switchDone_only (.refl 547356673 s) rfl).groups rfl

/-! ### Verification -/

/-- The check of an image ends with its verdict and EV59 (R456). -/
theorem imageVerifyDone_spec {x : Bool} {c : Nat} (powered : s.powered = true) (st : s.upd.st = .verifying)
    (cause : c = s.rejectCause s.freeSlot x s.upd.rearm) : ∃ d, execImageVerifyDone x s =
      .next ((s.setUpd (fun u => { u with st := if c = 0 then .staged else .rejected, reject := c, rearm := false })).raise 59 d) := by
  unfold execImageVerifyDone
  rw [if_neg (by simp [st, powered]), cause]
  exact ⟨_, rfl⟩

/-! ### Activation -/

theorem activationDue_iff : s.activationDue = true ↔ s.upd.st = .armed ∧ s.cfg oUpdActivateAt ≤ s.now ∧ s.isl.control = none ∧
    s.pwr.metering = true := by
  unfold State.activationDue
  simp only [Bool.and_eq_true, decide_eq_true_eq, Option.isNone_iff_eq_none, and_assoc]

/-- Activation names the inactive slot as a trial in the boot record, steps SC5 and restarts the control island (R458). -/
theorem activateImage_spec : s.activateImage.upd = { s.upd with
      st := .activating, restarting := true, afterMetering := false, boot := { s.upd.boot with
        run := 1 - s.upd.boot.run, state := 1, starts := 1, window := s.cfg oHealthWindowMin, trialVer := s.imgFirmware s.freeSlot } } ∧
    KMap.get s.activateImage.nvm.sc 5 = KMap.get s.nvm.sc 5 + 1 ∧
    s.activateImage.isl = { s.isl with control := some s.clock.clk, cause := 3 } ∧
    KMap.get s.activateImage.evt.pending 58 = true := by
  unfold State.activateImage
  extract_lets version window marked programmed
  obtain ⟨isl, pending, -, -⟩ := controlDown_spec (s := programmed.scStep 5) 3
  refine ⟨State.controlDown_upd.trans (State.scStep_upd.trans (programBoot_upd _)), ?_, isl.trans ?_, pending⟩
  · rw [State.controlDown_nvm, scStep_reads, show programmed.nvm.sc = s.nvm.sc from programBoot_sc _]
  · have island : (programmed.scStep 5).isl = s.isl := State.scStep_isl.trans State.programBoot_isl
    have clock : (programmed.scStep 5).clock = s.clock := State.scStep_clock.trans State.programBoot_clock
    rw [island, clock]

/-! ### Pattern switch -/

theorem switchDue_iff {g : Nat} {at_ : Stamp} : s.switchDue g at_ = true ↔
    ∃ sw, s.upd.tsw = some sw ∧ sw ≤ at_ ∧ (KMap.get s.groups g).switched = false := by
  unfold State.switchDue
  split
  next none_ => simp [none_]
  next sw some_ => simp [some_]

theorem patternSwitch_untimed {g : Fin 4} (table : (KMap.get s.groups g.val).table = []) : execPatternSwitch g s = .next s := by
  unfold execPatternSwitch
  dsimp only
  rw [table]

/-- A group is judged by its newest boundary. -/
theorem patternSwitch_judged {g : Fin 4} {b : Boundary} {rest : List Boundary} (table : (KMap.get s.groups g.val).table = b :: rest) :
    execPatternSwitch g s = .next (if s.powered = true ∧ (KMap.get s.groups g.val).running = true ∧
      s.switchDue g.val (s.stampOf b.pos) = true then (s.patternSwitch g.val).after else s) := by
  unfold execPatternSwitch
  dsimp only
  rw [table]

/-- Of the groups, a pattern switch changes its own alone, which takes the new half (R459). -/
theorem patternSwitch_groups (g : Nat) :
    (s.patternSwitch g).groups = s.groups.upd g (fun x => { x with half := s.upd.newHalf, switched := true }) := by
  unfold State.patternSwitch
  extract_lets major switched lost accounts done
  have own : switched.groups = s.groups.upd g (fun x => { x with half := s.upd.newHalf, switched := true }) :=
    State.nextEpoch_groups
  refine State.switchDone_groups.trans (Eq.trans ?_ own)
  simp only [done]
  split
  · refine (foldl_field State.groups (fun u b => ?_) _ _).trans ((foldl_field State.groups (fun u a => ?_) _ _).trans State.markLost_groups)
    · exact State.setBal_groups ..
    · exact State.setAcct_groups ..
  · rfl

theorem switched_get (g h : Nat) (half : Bool) :
    KMap.get (s.groups.upd g (fun x => { x with half := half, switched := true })) h =
      if h = g then { KMap.get s.groups g with half := half, switched := true } else KMap.get s.groups h :=
  KMap.get_set_of_ne (fun same => Bool.noConfusion (congrArg Group.switched same)) h

end Sys2Proof.Machine

open Sys2Proof Sys2Proof.Machine

/-- Settles O42: each event by the conditions it waits for, and a switch, an activation or a fallback by what it leaves. -/
theorem updateEvents : Obligations.UpdateEvents := by
  unfold Obligations.UpdateEvents
  refine ⟨fun s x waits => ?_, fun s x c powered st cause => ?_, fun s waits => ?_, fun s powered armed due here metering => ?_,
    fun s g waits => ?_, fun s g b rest sw powered running known unswitched table => ?_, fun s waits => ?_,
    fun s powered trial deadline past => ?_⟩
  · refine if_pos ?_
    rcases waits with off | other
    · exact .inr (by rw [off]; rfl)
    · exact .inl other
  · obtain ⟨d, ends⟩ := imageVerifyDone_spec powered st cause
    refine ⟨_, ends, (raise_raised _ 59 d).of_same rfl rfl, State.raise_upd, ?_⟩
    exact (State.raise_only (State.setUpd_only (.refl 545259520 s) rfl) rfl).changesOnly rfl
  · refine congrArg Host.Outcome.next (if_neg (fun ⟨powered, due⟩ => ?_))
    obtain ⟨armed, come, here, metering⟩ := activationDue_iff.mp due
    simp [powered, armed, here, metering, Nat.not_lt.mpr come] at waits
  · have starts : execActivation s = .next s.activateImage :=
      congrArg Host.Outcome.next (if_pos ⟨powered, activationDue_iff.mpr ⟨armed, due, here, metering⟩⟩)
    obtain ⟨upd, counter, isl, pending⟩ := activateImage_spec (s := s)
    exact ⟨_, starts, by rw [upd], by rw [upd], by rw [upd], by rw [upd], by rw [upd], by rw [upd], by rw [upd], by rw [upd],
      counter, by rw [isl], by rw [isl], pending, execActivation_only.changesOnly starts rfl⟩
  · cases table : (KMap.get s.groups g.val).table with
    | nil => exact patternSwitch_untimed table
    | cons b rest =>
      refine (patternSwitch_judged table).trans (congrArg Host.Outcome.next (if_neg (fun ⟨powered, running, due⟩ => ?_)))
      obtain ⟨sw, known, -, unswitched⟩ := switchDue_iff.mp due
      simp [powered, running, known, unswitched, table] at waits
  · have judged := patternSwitch_judged table
    refine ⟨fun early => judged.trans (congrArg Host.Outcome.next (if_neg (fun h => ?_))), fun reached => ?_⟩
    · obtain ⟨sw', same, come, -⟩ := switchDue_iff.mp h.2.2
      obtain rfl := Option.some.inj (known.symm.trans same)
      exact absurd come (Nat.not_le.mpr early)
    · have switches := judged.trans (congrArg Host.Outcome.next
        (if_pos ⟨powered, running, switchDue_iff.mpr ⟨sw, known, reached, unswitched⟩⟩))
      have groups : (s.patternSwitch g.val).after.groups = _ := State.after_groups.trans (patternSwitch_groups g.val)
      refine ⟨_, switches, ?_, ?_, fun h other => ?_⟩
      · rw [groups, switched_get, if_pos rfl]
      · rw [groups, switched_get, if_pos rfl]
      · rw [groups, switched_get, if_neg other]
  · refine congrArg Host.Outcome.next (if_neg (fun ⟨powered, trial, deadline, past⟩ => ?_))
    simp [powered, trial, deadline, Nat.not_lt.mpr past] at waits
  · have falls : execHealthDeadline s = .next (s.fallbackStart 1) :=
      congrArg Host.Outcome.next ((if_pos ⟨powered, trial, deadline, past⟩).trans (if_pos trial))
    obtain ⟨st, cause, back, run, state, counter, isl, pending⟩ := fallbackStart_spec (s := s) 1
    exact ⟨_, falls, st, cause, back, run, state, counter, congrArg Isl.control isl, congrArg Isl.cause isl, pending⟩

end
